-- ==== Sys2Proof/Word.lean ====
section
/-! DEFINITION. Words: the 32-bit register word (R5), the byte and byte strings in which images, packages and
records arrive (R25, R434). -/

namespace Sys2Proof

/-- One register word (R5). -/
abbrev Word := BitVec 32

/-- One byte of an image, a package, a record batch or a frame. -/
abbrev Byte := BitVec 8

/-- A byte string, lowest offset first. -/
abbrev Bytes := List Byte

end Sys2Proof
end

