-- ==== Sys2Proof/Syntax.lean ====
section
/-! DEFINITION. Syntax: one constructor of `Instr` per row of spec/opcode_table.json, with the row's operands.
The operand types stand first. Every command carries the instant `t` at which it reaches the device, in eighths of a
nanosecond of the device's free-running time (R4, R509). What the spec leaves outside the device (host memory that a
command reads, frame payloads, measured values, the result of a march) arrives as operands. -/

namespace Sys2Proof

/-- The rings of chapter 04: one supervisor ring, one admission ring, one job ring per context. -/
inductive RingId where
  | supervisor
  | admission
  | job (n : Fin 64)
  deriving DecidableEq, Repr

/-- What the ring reads when it takes a descriptor (Table 4.1): a descriptor, nothing (the queue holds none), or a
failed PCIe read (R71). `reservedZero` says that every reserved bit and byte of it is zero (R67). -/
inductive Fetch where
  | none
  | pcieError
  | descriptor (opcode tag : Nat) (noIrq reservedZero : Bool)
  deriving DecidableEq, Repr

/-- The result of a check of Table 23.2 made over bytes that the device reads from flash: the first failing row
(1 to 9), or 0 when every row passes. -/
abbrev CheckRow := Nat

/-- What start-up finds outside the registers (R47, R48, R439): march results, image checks over flash, whether the
flash has a parameter table, whether the firmware reaches step 7 (R49), the root port, and the structure activation of
step 8. -/
structure BootEnv where
  secureMarchOk : Bool
  exchangeMarchOk : Bool
  flashTableOk : Bool
  activeFwiRow : CheckRow
  prevFwiRow : CheckRow
  reachesStep7 : Bool
  structRow : CheckRow
  structInstallOk : Bool
  metFlashOk : Bool
  wipeVerifyOk : Bool
  nvmeControllers : Nat
  /-- What the PCIe endpoint and the root port train to: speed code and width; 0 when the link does not come up. -/
  pcieSpeed : Nat
  pcieWidth : Nat
  rpSpeed : Nat
  rpWidth : Nat
  /-- Calibration-store locations at which one copy failed its CRC, and at which both did (R432). -/
  calRepaired : List (Nat × Nat)
  calLost : List (Nat × Nat)
  deriving DecidableEq, Repr

/-- One HELLO payload of a Mamen endpoint (Table 11.4). -/
structure MlkHello where
  kind : Nat
  laneIdx : Nat
  number : Nat
  proto : Nat
  uplink : Nat
  caps : Nat
  unitId : Nat
  present : Nat
  bufSlots : Nat
  channels : Nat
  supplies : Nat
  deriving DecidableEq, Repr

/-- One STATUS payload of a hub (TYPE 0x22 of Table 11.2). -/
structure HubStatus where
  armed : Bool
  synced : Bool
  fenced : Bool
  accEpoch : Nat
  faultPorts : Nat
  supplyFault : Nat
  bufFree : Nat
  lastSlot : Nat
  deriving DecidableEq, Repr

/-- One row entry of a TAKEOVER_ACK (TYPE 0x27 of Table 11.2); `course` is none under RFLAGS NONE. -/
structure TakeoverRow where
  plane : Nat
  row : Nat
  ctx : Nat
  course : Option Nat
  deriving DecidableEq, Repr

/-- One SCAN_LINE payload (TYPE 0x28 of Table 11.2); pixel values are luminance for mono and (R, G, B) otherwise. -/
structure ScanFrame where
  line : Nat
  rgb : Bool
  first : Nat
  width : Nat
  t8 : Nat
  pos : Int
  pixels : List (Nat × Nat × Nat)
  deriving DecidableEq, Repr

/-- One HELLO payload of a fabric neighbour (TYPE 0x01 of Table 19.2). -/
structure XlkHello where
  unitId : Nat
  rootId : Nat
  rootDist : Nat
  rootElig : Bool
  full : Bool
  addr : Nat
  proto : Nat
  width : Nat
  topoGen : Nat
  deriving DecidableEq, Repr

/-- One LINKSTATE entry (TYPE 0x03 of Table 19.2). -/
structure LinkEntry where
  neigh : Nat
  port : Nat
  width : Nat
  deriving DecidableEq, Repr

/-- The three frames of a time exchange (R217, R361). -/
inductive SyncFrame where
  | sync (n t1 : Nat)
  | resp (n h2 h3 t4 : Nat)
  | follow (n : Nat) (a : Int) (t1 h2 h3 t4 : Nat)
  deriving DecidableEq, Repr

/-- One POSITION payload (TYPE 0x20 of Table 19.2); p and z in units of 2^-16 nm. -/
structure PositionFrame where
  src : Nat
  t8 : Nat
  p : Int
  z : Int
  v : Int
  locked : Bool
  deriving DecidableEq, Repr

/-- One PEER_STATE payload (TYPE 0x21 of Table 19.2). -/
structure PeerState where
  addr : Nat
  vallow : Nat
  role : Nat
  masks : List Nat
  deriving DecidableEq, Repr

/-- One slot entry of a BIND frame. -/
structure BindEntry where
  lane : Nat
  blank : Bool
  seq : Nat
  deriving DecidableEq, Repr

/-- One HEARTBEAT payload (TYPE 0x40 of Table 19.2). -/
structure Heartbeat where
  unitId : Nat
  role : Nat
  leadReq : Bool
  fit : Bool
  hold : Bool
  epoch : Nat
  digest : Nat
  unfit : Nat
  deriving DecidableEq, Repr

/-- One entry of a MIRROR AXES frame (Table 19.4). -/
structure AxisMirror where
  kind : Nat
  index : Nat
  en : Bool
  setpoint : Int
  deriving DecidableEq, Repr

/-- One calibration record's data (Table 22.5): a list of integers whose meaning depends on the kind. -/
structure CalRecord where
  kind : Nat
  index : Nat
  rseq : Nat
  count : Nat
  time : Nat
  data : List Int
  deriving DecidableEq, Repr

/-- A MIRROR frame by KIND (Table 19.4). -/
inductive MirrorFrame where
  | underrun (plane ctx first last : Nat)
  | gen (plane installCourse generation : Nat) (last : Bool) (entries : List Word)
  | confirm (plane row ctx course : Nat)
  | final (ctx seq : Nat)
  | cal (r : CalRecord)
  | axes (l : List AxisMirror)
  deriving DecidableEq, Repr

/-- The steps of a planned swap (TYPE 0x43 of Table 19.2). -/
inductive SwapStep where
  | offer | accept | done
  deriving DecidableEq, Repr

/-- What ends a DMA channel in error (R349). -/
inductive DmaError where
  | refusedFormat | refusedRange | notReady | pcieError | pcieTimeout | poisoned | nvmeError
  deriving DecidableEq, Repr

/-- One DMA descriptor as it is read (Tables 18.1, 18.2). -/
structure DmaDesc where
  addr : Nat
  len : Nat
  isEnd : Bool
  isLink : Bool
  space : Nat
  arg : Nat
  reserved : Nat
  deriving DecidableEq, Repr

/-- A burst that completes in the staging buffer (R344): the engine, the bytes it moved, and the descriptors the
engine read after it, in list order. -/
structure DmaBurst where
  readSide : Bool
  bytes : Nat
  descs : List DmaDesc
  deriving DecidableEq, Repr

/-- One WEIGHING payload (Table 21.2). -/
structure Weighing where
  wseq : Nat
  net : Int
  tare : Int
  interval : Nat
  wflags : Nat
  itime : Nat
  deriving DecidableEq, Repr

/-- One OTP burn as the cells answered it (R395): the bits of VALUE with neither cell at the strict margin, and those
with only one; `cut` says that a tamper event or the closing of the session came during the burn, the bits that it did not
reach being among `failed` (R397). -/
structure BurnResult where
  failed : Word
  single : Word
  cut : Bool
  deriving DecidableEq, Repr

/-- The measurement of one calibration run (R424, R425). -/
inductive CalMeasure where
  | headRegistration (yerr xerr : Int)
  | stitch (weights : List Nat)
  | density (em : List (Nat × Nat))
  | wgAmplitude (m : Nat)
  | current (mean : Int)
  | indexOffset (md : Int)
  | dieSensor (mean : Int)
  | preconditionLost
  deriving DecidableEq, Repr

/-- What a patrol finds in one word (R323, R333). -/
inductive PatrolFind where
  | clean | correctable | uncorrectable
  deriving DecidableEq, Repr

/-- The outcome of the march of one bank (R329). -/
inductive MarchOutcome where
  | passed | repaired | failed | skipped
  deriving DecidableEq, Repr

/-- Activity of the elastic consumers and the floor in one 100 µs power estimate, mW (R306, R307). -/
structure PowerSample where
  total : Nat
  cmp : Nat
  ins : Nat
  dma : Nat
  fab : Nat
  dmaHeld : Bool
  fabHeld : Bool
  dmaPending : Bool
  fabPending : Bool
  /-- Estimated power of the clusters, in cluster order. -/
  clusters : List Nat
  deriving DecidableEq, Repr

/-- One JTAG instruction (R503). -/
inductive TapInstr where
  | idcode | bypass | samplePreload | extest | clamp | debug
  deriving DecidableEq, Repr

/-- The commands: one constructor per row of spec/opcode_table.json, in the table's order. -/
inductive Instr where
  -- start-up, modes, holds (chapter 03)
  | rstNRelease (t : Nat) (env : BootEnv)
  | rstNAssert (t : Nat) (lowNs : Nat)
  | bootWatchdogExpiry (t : Nat) (env : BootEnv)
  | devWarmReset (t : Nat) (flags : Word) (env : BootEnv)
  | warmResetBrakeDone (t : Nat) (env : BootEnv)
  | modeSet (t : Nat) (target : Nat)
  | funcReinit (t : Nat) (func inst : Nat) (restarted : Bool)
  | holdNAssert (t : Nat)
  | holdNRelease (t : Nat) (highNs : Nat)
  | fireEnDeassert (t : Nat) (lowNs : Nat)
  | fireEnAssert (t : Nat) (highNs : Nat)
  | holdReq (t : Nat) (cls : Nat)
  | holdClr (t : Nat)
  | trngReady (t : Nat) (samples : Nat)
  | entropyWaitTimeout (t : Nat)
  | trngTestFail (t : Nat)
  | secTrngData (t : Nat)
  -- structure loader (chapter 02)
  | strLoadBegin (t : Nat) (length : Nat) (header : Bytes)
  | strLoadBlock (t : Nat) (offset : Nat) (data : Bytes)
  | strLoadEnd (t : Nat)
  | strTransferTimeout (t : Nat)
  | strActivate (t : Nat) (slot : Nat)
  | strActivationDone (t : Nat) (row : CheckRow) (installOk : Bool)
  -- rings and jobs (chapter 04)
  | ringSqTail (t : Nat) (ring : RingId) (value : Nat) (fetch : Fetch)
  | ringEnable (t : Nat) (ring : RingId)
  | ringDisable (t : Nat) (ring : RingId)
  | ringCqHead (t : Nat) (ring : RingId) (value : Nat)
  | jobOpen (t : Nat) (ctxReq jobId : Nat)
  | jobLoad (t : Nat) (ctx : Fin 64) (fromStore last : Bool) (address offset : Nat) (data : Bytes) (readCode : Nat)
  | jobArm (t : Nat) (ctx : Fin 64) (castOn : Int)
  | jobRecords (t : Nat) (ctx : Fin 64) (address count bytes : Nat) (data : Bytes)
  | jobCastOff (t : Nat) (ctx : Fin 64) (last : Nat)
  | jobAbort (t : Nat) (ring : RingId) (ctx : Fin 64)
  | jobClose (t : Nat) (ring : RingId) (ctx : Fin 64)
  -- composition (chapters 05, 06, 16)
  | sliceDeal (t : Nat)
  | engineRequestTimeout (t : Nat) (engine : Fin 5)
  | sliceComplete (t : Nat) (cluster : Fin 16) (cycles : Nat)
  | sliceTimeout (t : Nat) (cluster : Fin 16)
  | vcompUpdate (t : Nat)
  | vcodeUpdate (t : Nat)
  | keyInstall (t : Nat) (slot kind context : Nat) (label : Bytes)
  -- screening and mapping (chapters 07, 08)
  | courseScreen (t : Nat) (plane : Fin 8)
  | nzmUpdEntry (t : Nat) (value : Word)
  | nzmCommit (t : Nat)
  | nzmDiscard (t : Nat)
  | generationInstall (t : Nat) (plane : Fin 8)
  | vfireUpdate (t : Nat)
  -- pacing (chapter 09)
  | encoderInputChange (t : Nat) (n : Fin 16) (a b : Bool)
  | minspAccept (t : Nat) (n : Fin 16)
  | lockTimeout (t : Nat)
  | indexPulse (t : Nat) (n : Fin 16) (heldNs : Nat)
  | pacZero (t : Nat)
  | pacSrcWrite (t : Nat) (value : Word)
  | gearPush (t : Nat)
  | gearSet (t : Nat)
  | gearClear (t : Nat)
  | handoverArm (t : Nat) (value : Word)
  | handoverCancel (t : Nat)
  | fireCommandSend (t : Nat) (plane row : Fin 8)
  | fireRecompute (t : Nat)
  | slotInstantPassed (t : Nat) (plane row : Fin 8)
  | underrunDecision (t : Nat) (plane : Fin 8)
  | courseTake (t : Nat) (plane : Fin 8)
  -- waveforms (chapter 10)
  | wavTblWrite (t : Nat)
  | wavTblRead (t : Nat)
  | wgActiveSlotWrite (t : Nat) (value : Word)
  | waveformAckTimeout (t : Nat) (hub : Fin 48)
  | scaleUpdate (t : Nat)
  | tempFrame (t : Nat) (hub : Fin 48) (temps : List Int)
  | tempStale (t : Nat) (head : Fin 1024)
  | wavTempLost (t : Nat) (head : Fin 1024)
  | venergyUpdate (t : Nat)
  | vheatUpdate (t : Nat)
  -- Mamen link (chapter 11)
  | laneDownRetrain (t : Nat) (lane : Fin 64)
  | laneTrainingDone (t : Nat) (lane : Fin 64) (ok : Bool)
  | helloFrame (t : Nat) (lane : Fin 64) (hello : MlkHello)
  | helloTimeout (t : Nat) (lane : Fin 64)
  | ackFrame (t : Nat) (lane : Fin 64) (seq : Nat)
  | syncSend (t : Nat) (lane : Fin 64)
  | syncRespFrame (t : Nat) (lane : Fin 64) (n h2 h3 t4 : Nat)
  | syncTimeout (t : Nat) (lane : Fin 64)
  | identFrame (t : Nat) (lane : Fin 64) (port : Nat) (record : Bytes)
  | statusFrame (t : Nat) (lane : Fin 64) (st : HubStatus)
  | reportFrame (t : Nat) (hub : Fin 48) (first count : Nat) (bitmap : BitVec 64)
  | slotFaultFrame (t : Nat) (hub : Fin 48) (slot cause : Nat) (ports : Word)
  | reportTimeout (t : Nat) (hub : Fin 48) (slot : Nat)
  | nakFrame (t : Nat) (lane : Fin 64) (cseq count : Nat)
  | relRetransmit (t : Nat) (lane : Fin 64)
  | pcsAlignmentLoss (t : Nat) (lane : Fin 64)
  | endpointMissing (t : Nat) (ep : Fin 64)
  | takeoverAckFrame (t : Nat) (hub : Fin 48) (result wait digest : Nat) (rows : List TakeoverRow)
  | takeoverRepeat (t : Nat) (hub : Fin 48)
  | keepaliveSend (t : Nat) (hub : Fin 48)
  | posrefSend (t : Nat)
  | scanLineFrame (t : Nat) (bridge : Fin 16) (frame : ScanFrame)
  | scanLineIncomplete (t : Nat) (bridge : Fin 16) (line : Nat)
  | vlaneUpdate (t : Nat) (octets : List (Nat × Nat))
  -- inspection and pace (chapters 12, 13)
  | lineAnalysis (t : Nat) (bridge : Fin 16) (cycles : Nat)
  | verdictDeadline (t : Nat) (ctx : Fin 64) (seq : Nat)
  | vinspUpdate (t : Nat)
  | govUpdate (t : Nat)
  | govOverspeed (t : Nat)
  | govPeerSilent (t : Nat) (peer : Fin 256)
  -- brushless axes (chapter 14)
  | decisionPeriod (t : Nat) (axis : Fin 8)
  | speedLoopTick (t : Nat) (axis : Fin 8)
  | sdOutput (t : Nat) (ch : Fin 24) (acc : Int)
  | baEnable (t : Nat) (axis : Fin 8)
  | baDisable (t : Nat) (axis : Fin 8)
  | baOpen (t : Nat) (axis : Fin 8)
  | baFaultClr (t : Nat) (axis : Fin 8)
  | baSetpoint (t : Nat) (axis : Fin 8) (value : Word)
  | magnetiseTimeout (t : Nat) (axis : Fin 8)
  | lockedRotor (t : Nat) (axis : Fin 8)
  | baDriverFault (t : Nat) (axis : Fin 8) (lowNs : Nat)
  | baOverspeedFault (t : Nat) (axis : Fin 8)
  | baSpeedErrorFault (t : Nat) (axis : Fin 8)
  | baBusFault (t : Nat) (axis : Fin 8)
  | guardPeriodEnd (t : Nat)
  | axisHomeBrushless (t : Nat) (index : Nat) (speed : Int) (timeout : Nat)
  | baHomeTimeout (t : Nat) (axis : Fin 8)
  -- stepper axes and encoders (chapter 15)
  | axisHomeStepper (t : Nat) (index : Nat) (vel : Int) (timeout : Nat) (homePos : Int) (backoff : Int) (ihome : Nat)
  | stpHomeTimeout (t : Nat) (axis : Fin 16)
  | stepperUpdate (t : Nat) (axis : Fin 16)
  | stpTargetCommit (t : Nat) (axis : Fin 16) (value : Word)
  | stpVsetWrite (t : Nat) (axis : Fin 16) (value : Word)
  | stpGo (t : Nat) (axis : Fin 16)
  | stpModeChange (t : Nat) (axis : Fin 16) (value : Word)
  | stpEnable (t : Nat) (axis : Fin 16)
  | stpEnClear (t : Nat) (axis : Fin 16)
  | stpStop (t : Nat) (axis : Fin 16)
  | stpHalt (t : Nat) (axis : Fin 16)
  | stpPower (t : Nat) (axis : Fin 16) (on : Bool)
  | stpFaultClr (t : Nat) (axis : Fin 16)
  | stpClrUnsure (t : Nat) (axis : Fin 16)
  | stpSync (t : Nat) (axis : Fin 16)
  | stpPosWrite (t : Nat) (axis : Fin 16) (hi : Bool) (value : Word)
  | stpGearPush (t : Nat) (axis : Fin 16)
  | stpGearClear (t : Nat) (axis : Fin 16)
  | chopperTrip (t : Nat) (axis : Fin 16) (phaseB : Bool) (microvolts : Nat)
  | chopperOffTimeEnd (t : Nat) (axis : Fin 16) (phaseB : Bool)
  | drivePhaseTimeout (t : Nat) (axis : Fin 16) (phaseB : Bool)
  | holdDelayExpiry (t : Nat) (axis : Fin 16)
  | stpDriverFault (t : Nat) (axis : Fin 16) (lowNs : Nat)
  | encCfgWrite (t : Nat) (n : Fin 16) (value : Word)
  -- power (chapter 16)
  | powerEstimate (t : Nat) (sample : PowerSample)
  | grantAllocation (t : Nat)
  | clusterPowerOnDone (t : Nat) (cluster : Fin 16)
  | operatingPointChangeDone (t : Nat) (cluster : Fin 16)
  | sensorConversion (t : Nat) (sensor : Fin 16) (temp16 : Int)
  -- memory (chapter 17)
  | sramPatrolScrub (t : Nat) (bank : Fin 128) (word : Nat) (found : PatrolFind) (env : BootEnv)
  | hbmPatrol (t : Nat) (addr : Nat) (found : PatrolFind)
  | marchRun (t : Nat) (first count alg mode : Nat)
  | marchBankDone (t : Nat) (outcome : MarchOutcome) (spares : Nat) (skipped : Bool)
  | wipeVerifyDone (t : Nat) (ok : Bool)
  | jsAttach (t : Nat) (value : Word) (present : Bool) (lbaLog2 capacity : Nat) (protectionInfo : Bool)
  | jsDetach (t : Nat) (value : Word)
  | nvmeReadTimeout (t : Nat) (ctx : Fin 64)
  -- data movers (chapter 18)
  | dmaStart (t : Nat) (ch : Fin 32)
  | dmaAbort (t : Nat) (ch : Fin 32)
  | dmaDbRd (t : Nat) (ch : Fin 32) (reread : DmaDesc)
  | dmaDbWr (t : Nat) (ch : Fin 32) (reread : DmaDesc)
  | dmaRequestLine (t : Nat) (ch : Fin 32) (line : Nat)
  | dmaBurstComplete (t : Nat) (ch : Fin 32) (burst : DmaBurst)
  | dmaReadbackDone (t : Nat) (ch : Fin 32)
  | dmaError (t : Nat) (ch : Fin 32) (readSide : Bool) (err : DmaError)
  -- Xeuri fabric and pairs (chapter 19)
  | xlkHelloFrame (t : Nat) (port : Fin 32) (hello : XlkHello)
  | xlkHelloTimeout (t : Nat) (port : Fin 32)
  | rootConverged (t : Nat) (found : List (Nat × Nat))
  | assignFrame (t : Nat) (unitId addr topoGen : Nat)
  | addressHoldExpiry (t : Nat) (unitId : Nat)
  | linkstateSend (t : Nat)
  | linkstateFrame (t : Nat) (src topoGen : Nat) (entries : List LinkEntry)
  | fabricRescan (t : Nat) (found : List (Nat × Nat)) (peerBusy : Bool)
  | rescanFrame (t : Nat) (topoGen : Nat)
  | xlkSyncSend (t : Nat)
  | xlkSyncFrame (t : Nat) (port : Fin 32) (frame : SyncFrame)
  | timePpsEdge (t : Nat) (highNs : Nat)
  | positionBroadcast (t : Nat)
  | positionFrame (t : Nat) (frame : PositionFrame)
  | positionSilence (t : Nat)
  | peerStateSend (t : Nat)
  | peerStateFrame (t : Nat) (frame : PeerState)
  | bindFrame (t : Nat) (ctx : Fin 64) (laneIdx rpt : Nat) (entries : List BindEntry)
  | bindReqFrame (t : Nat) (ctx : Fin 64) (laneIdx rpt : Nat)
  | rcheckFrame (t : Nat) (ctx : Fin 64) (package : Bool) (count firstSeq crc : Nat)
  | partialFrame (t : Nat) (src : Nat) (ctx : Fin 64) (seq planes codes : Nat)
  | partialTimeout (t : Nat) (ctx : Fin 64) (seq : Nat)
  | heartbeatSend (t : Nat)
  | heartbeatFrame (t : Nat) (hb : Heartbeat)
  | compareFrame (t : Nat) (digests : List Nat)
  | mirrorFrame (t : Nat) (frame : MirrorFrame)
  | swapFrame (t : Nat) (x : Int) (epoch : Nat) (step : SwapStep)
  | heartbeatLoss (t : Nat)
  | takeoverRefusedAbandon (t : Nat)
  | leadReqEdge (t : Nat) (high : Bool) (heldNs : Nat)
  | leadReqConflict (t : Nat)
  | pairRoleSwap (t : Nat)
  | pairRoleRecompare (t : Nat)
  -- security (chapter 20)
  | sessionOpenChallenge (t : Nat) (addr : Nat)
  | sessionOpenResponse (t : Nat) (chalId : Nat) (x y sigR sigS : Bytes)
  | sessionClose (t : Nat)
  | sessionIdleTimeout (t : Nat)
  | authFailCompletion (t : Nat)
  | lcAdvance (t : Nat) (target : Nat) (burn : BurnResult) (env : BootEnv)
  | otpBurn (t : Nat) (word : Nat) (value : Word) (burn : BurnResult)
  | otpFinalise (t : Nat) (region : Nat) (burnLo burnHi : BurnResult)
  | otpRdAddr (t : Nat) (word : Fin 256)
  | otpReadDone (t : Nat)
  | tamperInput (t : Nat) (n : Fin 4) (lowUs : Nat)
  | voltageDetector (t : Nat) (rail : Nat) (millivolts : Nat)
  | clockDetector (t : Nat) (met : Bool) (permille : Nat)
  | temperatureDetector (t : Nat) (celsius : Int)
  | secTamperClear (t : Nat) (value : Word)
  -- sealed partition (chapter 21)
  | metStartupCheck (t : Nat) (flashOk : Bool) (c : Nat)
  | weighingPoll (t : Nat) (port : Fin 4)
  | weighingFrame (t : Nat) (ch : Fin 16) (crcOk : Bool) (w : Weighing)
  | noneFrame (t : Nat) (ch : Fin 16) (crcOk : Bool)
  | errorFrame (t : Nat) (ch : Fin 16) (crcOk : Bool) (code : Nat)
  | weighingReplyTimeout (t : Nat) (ch : Fin 16)
  | metSealNEdge (t : Nat) (high : Bool) (heldNs : Nat)
  | lockstepMismatch (t : Nat)
  | clkMetDeviation (t : Nat) (permille : Nat)
  | priceSet (t : Nat) (entries : List (Nat × Nat))
  | laneMap (t : Nat) (ctx : Nat) (entries : List (Nat × Nat))
  | channelReset (t : Nat) (ch : Nat)
  | auditRelease (t : Nat) (anum : Nat) (loss : Bool)
  | paramWrite (t : Nat) (block index : Nat) (record : Bytes)
  | sealFinalise (t : Nat) (approval : Bytes) (burnOk : Bool)
  | reconcile (t : Nat)
  -- calibration (chapter 22)
  | calRun (t : Nat) (kind flags index : Nat) (arg : Int) (speed gauge : Nat) (precondition : Bool)
  | calMeasurementDone (t : Nat) (m : CalMeasure) (storeOk : Bool)
  | calRunTimeout (t : Nat)
  | calRead (t : Nat) (kind flags index addr : Nat)
  -- updates (chapter 23)
  | updBegin (t : Nat) (cls length : Nat) (header : Bytes)
  | updBlock (t : Nat) (offset : Nat) (data : Bytes)
  | updEnd (t : Nat)
  | updActivate (t : Nat) (cls : Nat) (row : CheckRow) (env : BootEnv)
  | updConfirm (t : Nat) (cls : Nat) (burnOk : Bool)
  | updRevert (t : Nat) (cls : Nat) (row : CheckRow) (env : BootEnv)
  | trialExpiry (t : Nat) (env : BootEnv)
  | updRecGo (t : Nat) (row : CheckRow) (header : Bytes) (env : BootEnv)
  | recoveryUartBegin (t : Nat) (length : Nat) (header : Bytes) (crcOk : Bool)
  | recoveryUartBlock (t : Nat) (offset : Nat) (data : Bytes) (crcOk : Bool)
  | recoveryUartEnd (t : Nat) (crcOk : Bool) (env : BootEnv)
  -- events, logs, semaphores (chapter 24)
  | logAdmission (t : Nat)
  | logDrain (t : Nat) (count : Nat) (readbackOk : Bool) (lost : Bool)
  | logReadbackRetry (t : Nat) (readbackOk : Bool)
  | logCtrlEnable (t : Nat)
  | logCtrlDisable (t : Nat)
  | logHostRd (t : Nat) (value : Nat)
  | itemHoldExpiry (t : Nat) (ctx : Fin 64) (seq : Nat)
  | summaryTimer (t : Nat)
  | coalesceTimeout (t : Nat)
  | semAcquire (t : Nat) (n : Fin 64) (func inst tag : Byte)
  | semRelease (t : Nat) (n : Fin 64) (func inst tag : Byte)
  -- pins, clocks, host link, low-speed interfaces (chapters 26 to 28)
  | pioFuncWrite (t : Nat) (m : Fin 64) (value : Word)
  | gpioInputEdge (t : Nat) (m : Fin 64) (high : Bool)
  | qrefLoss (t : Nat) (quad : Fin 16)
  | qrefRestored (t : Nat) (quad : Fin 16)
  | flr (t : Nat)
  | perstNAssert (t : Nat)
  | pcieCompletionTimeout (t : Nat) (requester : Sum RingId (Sum (Fin 32) Unit)) (onFetch : Bool)
  | rootPortLinkLoss (t : Nat)
  | i2cGo (t : Nat) (port : Fin 2) (value : Word)
  | i2cTransferDone (t : Nat) (port : Fin 2) (nack arbLost : Bool) (received : Nat)
  | i2cSclTimeout (t : Nat) (port : Fin 2)
  -- register access (chapter 25)
  | readClear (t : Nat) (addr : Nat)
  | registerWrite (t : Nat) (addr : Nat) (value : Word)
  -- rows added after the table's chapters
  | syncFollowTimeout (t : Nat)
  | aonPowerOn (t : Nat)
  | rootPortLinkUp (t : Nat) (speed width controllers : Nat)
  | perstNRelease (t : Nat) (speed width : Nat)
  | endpointLinkDown (t : Nat)
  | updTransferTimeout (t : Nat)
  | tokenBucketRefill (t : Nat) (fab : Bool)
  | bulkdataFrame (t : Nat) (port : Fin 32) (src dst hops bytes : Nat)
  | uartReceive (t : Nat) (port : Fin 2) (ch : Byte) (stopOk parityOk : Bool)
  | hbmRefreshDouble (t : Nat) (stack : Fin 4) (celsius : Int)
  | tapInstruction (t : Nat) (instr : TapInstr)
  deriving DecidableEq, Repr

end Sys2Proof
end

