-- ==== Sys2Proof/Decode.lean ====
section
/-! DEFINITION. Decode: no row of the opcode table gives a command any bits, so no word spells a command. -/

namespace Sys2Proof

/-- The command that a word spells by the table's bits: none. -/
def decodeTableWord (nbits w : Nat) : Option Instr :=
  match nbits, w with
  | _, _ => none

end Sys2Proof
end

