-- ==== Sys2Proof/Config.lean ====
section
/-! DEFINITION. Config: what the spec leaves open, as constants without a body (no proof can see a value of them), and
the published algorithms that the spec names but does not write out. -/

namespace Sys2Proof.Config

/-- The n-th free value: a value that the spec leaves open and no rule constrains (log entry 1). -/
opaque freeValue : Nat → Nat

/-- SHA-384 (R392, Table 2.14). -/
opaque sha384 : Bytes → Bytes

/-- HMAC-SHA-256 under a key (R125, R126). -/
opaque hmacSha256 : Bytes → Bytes → Bytes

/-- AES-CMAC with a 128- or 256-bit key (R125). -/
opaque aesCmac : Bytes → Bytes → Bytes

/-- ECDSA P-384 verification of a signature (r, s) over a message by a public key (x, y) (R388, R417). -/
opaque ecdsaVerify : Bytes → Bytes → Bytes → Bytes → Bytes → Bool

/-- The symbol encoders (R117): the 12 leading PARAM bytes of the field and the data give a sub-reason of Table 6.9
(0 when the symbol is built) and the symbol. A 2D symbol is its module matrix, rows of dark flags; a linear symbol is
one row of dark flags per wale, its elements MODULE_W or WIDE wales wide (R118). -/
opaque symbol : Bytes → Bytes → Nat × List (List Bool)

/-- The per-device mask of SECRET words (R393): the spec gives no value. -/
opaque secretMask : Nat → Word

/-- CRC-32C of a byte string (R39, R437). -/
opaque crc32c : Bytes → Nat

/-- The angle of a flux vector (alpha, beta) in 2^-16 electrical revolution, 0 to 65,535 (R268): its rounding is open. -/
opaque fluxAngle : Int → Int → Int

/-- The fixed font of the sealed partition (R411): whether code point `cp` inks cell pixel (x, y) of its 16 × 24 cell. The
spec gives no glyph. -/
opaque metFont : Nat → Nat → Nat → Bool

/-- Pixels that the inspection line store holds (R243): the spec gives no size. -/
opaque lineStore : Nat

end Sys2Proof.Config
end

