-- ==== Sys2Proof/Machine/Regs.lean ====
section
/-! DEFINITION. The register words of access RW, RWP, RWL, W1C and RC (Table 25.1): their PW addresses, reset values,
writable and latched bits and value ranges, from the register tables of the chapters. UW registers stand at 0x4000000
above their UW offset. A field the spec gives no range takes every value. -/

namespace Sys2Proof.Machine

/-- One register word, or a series of `count` words `stride` bytes apart. -/
structure RegSpec where
  base : Nat
  stride : Nat
  count : Nat
  reset : Word
  /-- Bits that a write sets (RW, RWP and RWL of R461). -/
  rw : Word
  /-- Bits that a 1 written clears. -/
  w1c : Word
  /-- Bits that a read clears. -/
  rc : Word
  /-- Bits of access RWP (R390). -/
  priv : Word
  /-- Ranges of fields: high bit, low bit, signed, least, most. -/
  ranges : List (Nat × Nat × Bool × Int × Int)
  deriving DecidableEq, Repr

/-- The address of instance `i`. -/
def RegSpec.addr (r : RegSpec) (i : Nat) : Nat := r.base + r.stride * i

namespace Reg

/-- DEV_CTRL (Table 3.12). -/
def devCtrl : RegSpec :=
  { base := 0xC, stride := 0x4, count := 1, reset := 0x00000010#32, rw := 0x00000030#32, w1c := 0x00000000#32,
    rc := 0x00000000#32, priv := 0x00000000#32, ranges := [] }

/-- DEV_RESET_CAUSE (Table 3.13). -/
def devResetCause : RegSpec :=
  { base := 0x14, stride := 0x4, count := 1, reset := 0x00000000#32, rw := 0x00000000#32, w1c := 0x0000001F#32,
    rc := 0x00000000#32, priv := 0x00000000#32, ranges := [] }

/-- RING_SQ_BASE_LO and RING_CQ_BASE_LO of the supervisor ring (Table 4.3). -/
def supBaseLo : RegSpec :=
  { base := 0x50000, stride := 0x8, count := 2, reset := 0x00000000#32, rw := 0xFFFFF000#32, w1c := 0x00000000#32,
    rc := 0x00000000#32, priv := 0x00000000#32, ranges := [] }

/-- RING_SQ_BASE_HI and RING_CQ_BASE_HI of the supervisor ring. -/
def supBaseHi : RegSpec :=
  { base := 0x50004, stride := 0x8, count := 2, reset := 0x00000000#32, rw := 0xFFFFFFFF#32, w1c := 0x00000000#32,
    rc := 0x00000000#32, priv := 0x00000000#32, ranges := [] }

/-- RING_CFG of the supervisor ring (Table 4.4); ENABLE is a field of the ring. -/
def supCfg : RegSpec :=
  { base := 0x50010, stride := 0x4, count := 1, reset := 0x00000004#32, rw := 0x00FF000F#32, w1c := 0x00000000#32,
    rc := 0x00000000#32, priv := 0x00000000#32, ranges := [] }

/-- RING_STATUS of the supervisor ring (Table 4.5). -/
def supStatus : RegSpec :=
  { base := 0x50020, stride := 0x4, count := 1, reset := 0x00000000#32, rw := 0x00000000#32, w1c := 0x00000007#32,
    rc := 0x00000000#32, priv := 0x00000000#32, ranges := [] }

/-- RING_SQ_BASE_LO of job ring n. -/
def jobBaseSqLo : RegSpec :=
  { base := 0x4000000, stride := 0x10000, count := 64, reset := 0x00000000#32, rw := 0xFFFFF000#32, w1c := 0x00000000#32,
    rc := 0x00000000#32, priv := 0x00000000#32, ranges := [] }

/-- RING_SQ_BASE_HI of job ring n. -/
def jobBaseSqHi : RegSpec :=
  { base := 0x4000004, stride := 0x10000, count := 64, reset := 0x00000000#32, rw := 0xFFFFFFFF#32, w1c := 0x00000000#32,
    rc := 0x00000000#32, priv := 0x00000000#32, ranges := [] }

/-- RING_CQ_BASE_LO of job ring n. -/
def jobBaseCqLo : RegSpec :=
  { base := 0x4000008, stride := 0x10000, count := 64, reset := 0x00000000#32, rw := 0xFFFFF000#32, w1c := 0x00000000#32,
    rc := 0x00000000#32, priv := 0x00000000#32, ranges := [] }

/-- RING_CQ_BASE_HI of job ring n. -/
def jobBaseCqHi : RegSpec :=
  { base := 0x400000C, stride := 0x10000, count := 64, reset := 0x00000000#32, rw := 0xFFFFFFFF#32, w1c := 0x00000000#32,
    rc := 0x00000000#32, priv := 0x00000000#32, ranges := [] }

/-- RING_CFG of job ring n. -/
def jobCfg : RegSpec :=
  { base := 0x4000010, stride := 0x10000, count := 64, reset := 0x00000004#32, rw := 0x00FF000F#32, w1c := 0x00000000#32,
    rc := 0x00000000#32, priv := 0x00000000#32, ranges := [] }

/-- RING_STATUS of job ring n. -/
def jobStatus : RegSpec :=
  { base := 0x4000020, stride := 0x10000, count := 64, reset := 0x00000000#32, rw := 0x00000000#32, w1c := 0x00000007#32,
    rc := 0x00000000#32, priv := 0x00000000#32, ranges := [] }

/-- RING_SQ_BASE_LO and RING_CQ_BASE_LO of the admission ring. -/
def admBaseLo : RegSpec :=
  { base := 0x4410000, stride := 0x8, count := 2, reset := 0x00000000#32, rw := 0xFFFFF000#32, w1c := 0x00000000#32,
    rc := 0x00000000#32, priv := 0x00000000#32, ranges := [] }

/-- RING_SQ_BASE_HI and RING_CQ_BASE_HI of the admission ring. -/
def admBaseHi : RegSpec :=
  { base := 0x4410004, stride := 0x8, count := 2, reset := 0x00000000#32, rw := 0xFFFFFFFF#32, w1c := 0x00000000#32,
    rc := 0x00000000#32, priv := 0x00000000#32, ranges := [] }

/-- RING_CFG of the admission ring. -/
def admCfg : RegSpec :=
  { base := 0x4410010, stride := 0x4, count := 1, reset := 0x00000004#32, rw := 0x00FF000F#32, w1c := 0x00000000#32,
    rc := 0x00000000#32, priv := 0x00000000#32, ranges := [] }

/-- RING_STATUS of the admission ring. -/
def admStatus : RegSpec :=
  { base := 0x4410020, stride := 0x4, count := 1, reset := 0x00000000#32, rw := 0x00000000#32, w1c := 0x00000007#32,
    rc := 0x00000000#32, priv := 0x00000000#32, ranges := [] }

/-- CMP_FIELD_ERR (Table 5.9). -/
def cmpFieldErr : RegSpec :=
  { base := 0x100018, stride := 0x4, count := 1, reset := 0x00000000#32, rw := 0x00000000#32, w1c := 0x00000000#32,
    rc := 0xFFFFFFFF#32, priv := 0x00000000#32, ranges := [] }

/-- COD_FAIL (Table 6.11). -/
def codFail : RegSpec :=
  { base := 0x140014, stride := 0x4, count := 1, reset := 0x00000000#32, rw := 0x00000000#32, w1c := 0x00000000#32,
    rc := 0xFFFFFFFF#32, priv := 0x00000000#32, ranges := [] }

/-- SCR_EDRST_n (Table 7.5). -/
def scrEdrst : RegSpec :=
  { base := 0x180060, stride := 0x4, count := 8, reset := 0x00000000#32, rw := 0x00000000#32, w1c := 0x00000000#32,
    rc := 0xFFFFFFFF#32, priv := 0x00000000#32, ranges := [] }

/-- SCR_DENS_SEL. -/
def scrDensSel : RegSpec :=
  { base := 0x180100, stride := 0x4, count := 1, reset := 0x00000000#32, rw := 0x007FFFFF#32, w1c := 0x00000000#32,
    rc := 0x00000000#32, priv := 0x00000000#32, ranges := [] }

/-- NZM_UPD_CTRL: its W1C bits (Table 8.5). -/
def nzmUpdCtrl : RegSpec :=
  { base := 0x1C000C, stride := 0x4, count := 1, reset := 0x00000000#32, rw := 0x00000000#32, w1c := 0x00030000#32,
    rc := 0x00000000#32, priv := 0x00000000#32, ranges := [] }

/-- NZM_RD_SEL. -/
def nzmRdSel : RegSpec :=
  { base := 0x1C0010, stride := 0x4, count := 1, reset := 0x00000000#32, rw := 0x007FFFFF#32, w1c := 0x00000000#32,
    rc := 0x00000000#32, priv := 0x00000000#32, ranges := [] }

/-- NZM_MIN_RATE_n. -/
def nzmMinRate : RegSpec :=
  { base := 0x1C0040, stride := 0x4, count := 8, reset := 0x00000000#32, rw := 0xFFFFFFFF#32, w1c := 0x00000000#32,
    rc := 0x00000000#32, priv := 0x00000000#32, ranges := [] }

/-- NZM_TAKEOVER_n. -/
def nzmTakeover : RegSpec :=
  { base := 0x1C0060, stride := 0x4, count := 8, reset := 0x80000080#32, rw := 0x800000FF#32, w1c := 0x00000000#32,
    rc := 0x00000000#32, priv := 0x00000000#32, ranges := [] }

/-- NZM_UNDARNED_n. -/
def nzmUndarned : RegSpec :=
  { base := 0x1C0080, stride := 0x4, count := 8, reset := 0x00000000#32, rw := 0x00000000#32, w1c := 0x00000000#32,
    rc := 0xFFFFFFFF#32, priv := 0x00000000#32, ranges := [] }

/-- NZM_VOL_n_0. -/
def nzmVol0 : RegSpec :=
  { base := 0x1C0100, stride := 0x10, count := 8, reset := 0x00010000#32, rw := 0xFFFFFFFF#32, w1c := 0x00000000#32,
    rc := 0x00000000#32, priv := 0x00000000#32, ranges := [] }

/-- NZM_VOL_n_1. -/
def nzmVol1 : RegSpec :=
  { base := 0x1C0104, stride := 0x10, count := 8, reset := 0x00030002#32, rw := 0xFFFFFFFF#32, w1c := 0x00000000#32,
    rc := 0x00000000#32, priv := 0x00000000#32, ranges := [] }

/-- NZM_VOL_n_2. -/
def nzmVol2 : RegSpec :=
  { base := 0x1C0108, stride := 0x10, count := 8, reset := 0x00050004#32, rw := 0xFFFFFFFF#32, w1c := 0x00000000#32,
    rc := 0x00000000#32, priv := 0x00000000#32, ranges := [] }

/-- NZM_VOL_n_3. -/
def nzmVol3 : RegSpec :=
  { base := 0x1C010C, stride := 0x10, count := 8, reset := 0x00070006#32, rw := 0xFFFFFFFF#32, w1c := 0x00000000#32,
    rc := 0x00000000#32, priv := 0x00000000#32, ranges := [] }

/-- PAC_SRC (Table 9.5). -/
def pacSrc : RegSpec :=
  { base := 0x200008, stride := 0x4, count := 1, reset := 0x00000000#32, rw := 0x0003FFF3#32, w1c := 0x00000000#32,
    rc := 0x00000000#32, priv := 0x00000000#32, ranges := [] }

/-- PAC_LEAD. -/
def pacLead : RegSpec :=
  { base := 0x20000C, stride := 0x4, count := 1, reset := 0x00001F40#32, rw := 0x0000FFFF#32, w1c := 0x00000000#32,
    rc := 0x00000000#32, priv := 0x00000000#32, ranges := [(15, 0, false, 2000, 50000)] }

/-- PAC_SCALE_LO. -/
def pacScaleLo : RegSpec :=
  { base := 0x200010, stride := 0x4, count := 1, reset := 0x00000000#32, rw := 0xFFFFFFFF#32, w1c := 0x00000000#32,
    rc := 0x00000000#32, priv := 0x00000000#32, ranges := [] }

/-- PAC_SCALE_HI. -/
def pacScaleHi : RegSpec :=
  { base := 0x200014, stride := 0x4, count := 1, reset := 0x00000000#32, rw := 0xFFFFFFFF#32, w1c := 0x00000000#32,
    rc := 0x00000000#32, priv := 0x00000000#32, ranges := [] }

/-- PAC_GAIN. -/
def pacGain : RegSpec :=
  { base := 0x200018, stride := 0x4, count := 1, reset := 0x08004000#32, rw := 0xFFFFFFFF#32, w1c := 0x00000000#32,
    rc := 0x00000000#32, priv := 0x00000000#32, ranges := [(31, 16, false, 1, 65535), (15, 0, false, 1, 65535)] }

/-- PAC_LOCK_CFG. -/
def pacLockCfg : RegSpec :=
  { base := 0x20001C, stride := 0x4, count := 1, reset := 0x27101040#32, rw := 0xFFFFFFFF#32, w1c := 0x00000000#32,
    rc := 0x00000000#32, priv := 0x00000000#32, ranges := [(31, 16, false, 1, 65535), (15, 8, false, 1, 255), (7, 0, false, 1, 255)] }

/-- PAC_ERR. -/
def pacErr : RegSpec :=
  { base := 0x20002C, stride := 0x4, count := 1, reset := 0x00000000#32, rw := 0x00000000#32, w1c := 0x00000000#32,
    rc := 0x00FFFFFF#32, priv := 0x00000000#32, ranges := [] }

/-- PAC_HO_POS_LO. -/
def pacHoPosLo : RegSpec :=
  { base := 0x200030, stride := 0x4, count := 1, reset := 0x00000000#32, rw := 0xFFFFFFFF#32, w1c := 0x00000000#32,
    rc := 0x00000000#32, priv := 0x00000000#32, ranges := [] }

/-- PAC_HO_POS_HI. -/
def pacHoPosHi : RegSpec :=
  { base := 0x200034, stride := 0x4, count := 1, reset := 0x00000000#32, rw := 0xFFFFFFFF#32, w1c := 0x00000000#32,
    rc := 0x00000000#32, priv := 0x00000000#32, ranges := [] }

/-- PAC_HO_SRC; ARM reads 0. -/
def pacHoSrc : RegSpec :=
  { base := 0x200038, stride := 0x4, count := 1, reset := 0x00000000#32, rw := 0x0003FFF3#32, w1c := 0x00000000#32,
    rc := 0x00000000#32, priv := 0x00000000#32, ranges := [] }

/-- PAC_CFG. -/
def pacCfg : RegSpec :=
  { base := 0x20003C, stride := 0x4, count := 1, reset := 0x00320A10#32, rw := 0xFFFFFF3F#32, w1c := 0x00000000#32,
    rc := 0x00000000#32, priv := 0x00000000#32, ranges := [(31, 16, false, 1, 1000), (15, 8, false, 5, 50), (5, 0, false, 0, 32)] }

/-- PAC_GEAR_SEL. -/
def pacGearSel : RegSpec :=
  { base := 0x200040, stride := 0x4, count := 1, reset := 0x00000000#32, rw := 0x00000007#32, w1c := 0x00000000#32,
    rc := 0x00000000#32, priv := 0x00000000#32, ranges := [] }

/-- PAC_GEAR_POS_LO. -/
def pacGearPosLo : RegSpec :=
  { base := 0x200044, stride := 0x4, count := 1, reset := 0x00000000#32, rw := 0xFFFFFFFF#32, w1c := 0x00000000#32,
    rc := 0x00000000#32, priv := 0x00000000#32, ranges := [] }

/-- PAC_GEAR_POS_HI. -/
def pacGearPosHi : RegSpec :=
  { base := 0x200048, stride := 0x4, count := 1, reset := 0x00000000#32, rw := 0xFFFFFFFF#32, w1c := 0x00000000#32,
    rc := 0x00000000#32, priv := 0x00000000#32, ranges := [] }

/-- PAC_GEAR_RATIO. -/
def pacGearRatio : RegSpec :=
  { base := 0x20004C, stride := 0x4, count := 1, reset := 0x40000000#32, rw := 0xFFFFFFFF#32, w1c := 0x00000000#32,
    rc := 0x00000000#32, priv := 0x00000000#32, ranges := [] }

/-- PAC_MISSED_n. -/
def pacMissed : RegSpec :=
  { base := 0x200080, stride := 0x4, count := 8, reset := 0x00000000#32, rw := 0x00000000#32, w1c := 0x00000000#32,
    rc := 0xFFFFFFFF#32, priv := 0x00000000#32, ranges := [] }

/-- PAC_LATCHED_n. -/
def pacLatched : RegSpec :=
  { base := 0x2000A0, stride := 0x4, count := 8, reset := 0x00000000#32, rw := 0x00000000#32, w1c := 0x00000000#32,
    rc := 0xFFFFFFFF#32, priv := 0x00000000#32, ranges := [] }

/-- PAC_LATECORR_n. -/
def pacLatecorr : RegSpec :=
  { base := 0x2000C0, stride := 0x4, count := 8, reset := 0x00000000#32, rw := 0x00000000#32, w1c := 0x00000000#32,
    rc := 0xFFFFFFFF#32, priv := 0x00000000#32, ranges := [] }

/-- PAC_HPHASE_h. -/
def pacHphase : RegSpec :=
  { base := 0x201000, stride := 0x4, count := 1024, reset := 0x00000000#32, rw := 0x000000FF#32, w1c := 0x00000000#32,
    rc := 0x00000000#32, priv := 0x00000000#32, ranges := [(7, 0, true, (-64), 63)] }

/-- WAV_CFG (Table 10.3). -/
def wavCfg : RegSpec :=
  { base := 0x240004, stride := 0x4, count := 1, reset := 0x00000004#32, rw := 0x0000011F#32, w1c := 0x00000000#32,
    rc := 0x00000000#32, priv := 0x00000000#32, ranges := [(4, 0, false, 0, 16)] }

/-- WAV_ERR. -/
def wavErr : RegSpec :=
  { base := 0x240008, stride := 0x4, count := 1, reset := 0x00000000#32, rw := 0x00000000#32, w1c := 0x00000000#32,
    rc := 0x00FFFFFF#32, priv := 0x00000000#32, ranges := [] }

/-- WAV_HEAT_CFG. -/
def wavHeatCfg : RegSpec :=
  { base := 0x240018, stride := 0x4, count := 1, reset := 0x03C00050#32, rw := 0xFFFF00FF#32, w1c := 0x00000000#32,
    rc := 0x00000000#32, priv := 0x00000000#32, ranges := [(7, 0, false, 16, 255)] }

/-- WAV_TBL_SEL. -/
def wavTblSel : RegSpec :=
  { base := 0x240020, stride := 0x4, count := 1, reset := 0x00000000#32, rw := 0x000003FF#32, w1c := 0x00000000#32,
    rc := 0x00000000#32, priv := 0x00000000#32, ranges := [] }

/-- WAV_TBL_WORD_m. -/
def wavTblWord : RegSpec :=
  { base := 0x240080, stride := 0x4, count := 32, reset := 0x00000000#32, rw := 0xFFFFFFFF#32, w1c := 0x00000000#32,
    rc := 0x00000000#32, priv := 0x00000000#32, ranges := [] }

/-- WAV_WG_SEL. -/
def wavWgSel : RegSpec :=
  { base := 0x240100, stride := 0x4, count := 1, reset := 0x00000000#32, rw := 0x000007FF#32, w1c := 0x00000000#32,
    rc := 0x00000000#32, priv := 0x00000000#32, ranges := [] }

/-- WAV_RANK_n. -/
def wavRank : RegSpec :=
  { base := 0x240200, stride := 0x4, count := 16, reset := 0x00000400#32, rw := 0x000007FF#32, w1c := 0x00000000#32,
    rc := 0x00000000#32, priv := 0x00000000#32, ranges := [(10, 0, false, 512, 1536)] }

/-- WAV_CONFLICT_n. -/
def wavConflict : RegSpec :=
  { base := 0x240240, stride := 0x4, count := 8, reset := 0x00000000#32, rw := 0x00000000#32, w1c := 0x00000000#32,
    rc := 0xFFFFFFFF#32, priv := 0x00000000#32, ranges := [] }

/-- WAV_MERGED_n. -/
def wavMerged : RegSpec :=
  { base := 0x240260, stride := 0x4, count := 8, reset := 0x00000000#32, rw := 0x00000000#32, w1c := 0x00000000#32,
    rc := 0xFFFFFFFF#32, priv := 0x00000000#32, ranges := [] }

/-- MLK_CFG (Table 11.10). -/
def mlkCfg : RegSpec :=
  { base := 0x280004, stride := 0x4, count := 1, reset := 0x00C80001#32, rw := 0x03FF0001#32, w1c := 0x00000000#32,
    rc := 0x00000000#32, priv := 0x00000000#32, ranges := [(25, 16, false, 100, 1000)] }

/-- MLK_FAULT_n. -/
def mlkFault : RegSpec :=
  { base := 0x280020, stride := 0x4, count := 8, reset := 0x00000000#32, rw := 0x00000000#32, w1c := 0x00000000#32,
    rc := 0xFFFFFFFF#32, priv := 0x00000000#32, ranges := [] }

/-- MLK_ASYM_n. -/
def mlkAsym : RegSpec :=
  { base := 0x280108, stride := 0x10, count := 64, reset := 0x00000000#32, rw := 0xFFFFFFFF#32, w1c := 0x00000000#32,
    rc := 0x00000000#32, priv := 0x00000000#32, ranges := [] }

/-- MLK_LERR_n. -/
def mlkLerr : RegSpec :=
  { base := 0x28010C, stride := 0x10, count := 64, reset := 0x00000000#32, rw := 0x00000000#32, w1c := 0x00000000#32,
    rc := 0xFFFFFFFF#32, priv := 0x00000000#32, ranges := [] }

/-- PWR_GOV_CFG (Table 13.6). -/
def govCfg : RegSpec :=
  { base := 0x10804, stride := 0x4, count := 1, reset := 0x941F40A4#32, rw := 0xFFFFFFFF#32, w1c := 0x00000000#32,
    rc := 0x00000000#32, priv := 0x00000000#32, ranges := [(30, 24, false, 5, 100), (23, 12, false, 10, 4000), (11, 4, false, 1, 255), (3, 0, false, 1, 15)] }

/-- PWR_GOV_VHOST. -/
def govVhost : RegSpec :=
  { base := 0x10808, stride := 0x4, count := 1, reset := 0x00989680#32, rw := 0xFFFFFFFF#32, w1c := 0x00000000#32,
    rc := 0x00000000#32, priv := 0x00000000#32, ranges := [(31, 0, false, 100000, 10000000)] }

/-- PWR_GOV_PWM. -/
def govPwm : RegSpec :=
  { base := 0x10818, stride := 0x4, count := 1, reset := 0x00142710#32, rw := 0x00FFFFFF#32, w1c := 0x00000000#32,
    rc := 0x00000000#32, priv := 0x00000000#32, ranges := [(23, 16, false, 1, 100), (15, 0, false, 100, 10000)] }

/-- PWR_GOV_OVERSPEED. -/
def govOverspeed : RegSpec :=
  { base := 0x1081C, stride := 0x4, count := 1, reset := 0x00000000#32, rw := 0x00000000#32, w1c := 0x00000000#32,
    rc := 0xFFFFFFFF#32, priv := 0x00000000#32, ranges := [] }

/-- PWR_GOV_UNDERRUN_n. -/
def govUnderrun : RegSpec :=
  { base := 0x10820, stride := 0x4, count := 8, reset := 0x00000000#32, rw := 0x00000000#32, w1c := 0x00000000#32,
    rc := 0xFFFFFFFF#32, priv := 0x00000000#32, ranges := [] }

/-- MOT_SD_CLK_g (Table 14.6). -/
def sdClk : RegSpec :=
  { base := 0x340010, stride := 0x4, count := 4, reset := 0x00000014#32, rw := 0x0000003F#32, w1c := 0x00000000#32,
    rc := 0x00000000#32, priv := 0x00000000#32, ranges := [(5, 0, false, 16, 40)] }

/-- MOT_BA_STATUS_n: its W1C bit. -/
def baStatus : RegSpec :=
  { base := 0x341004, stride := 0x80, count := 8, reset := 0x00000000#32, rw := 0x00000000#32, w1c := 0x00000020#32,
    rc := 0x00000000#32, priv := 0x00000000#32, ranges := [] }

/-- MOT_BA_CFG_n. -/
def baCfg : RegSpec :=
  { base := 0x341008, stride := 0x80, count := 8, reset := 0x00C80001#32, rw := 0x01FF00FF#32, w1c := 0x00000000#32,
    rc := 0x00000000#32, priv := 0x00000000#32, ranges := [(24, 16, false, 20, 500), (7, 0, false, 1, 32)] }

/-- MOT_BA_SETPOINT_n. -/
def baSetpointR : RegSpec :=
  { base := 0x34100C, stride := 0x80, count := 8, reset := 0x00000000#32, rw := 0xFFFFFFFF#32, w1c := 0x00000000#32,
    rc := 0x00000000#32, priv := 0x00000000#32, ranges := [] }

/-- MOT_BA_ACCEL_n. -/
def baAccel : RegSpec :=
  { base := 0x341014, stride := 0x80, count := 8, reset := 0x00002710#32, rw := 0xFFFFFFFF#32, w1c := 0x00000000#32,
    rc := 0x00000000#32, priv := 0x00000000#32, ranges := [(31, 0, false, 1, 100000000)] }

/-- MOT_BA_DECEL_n. -/
def baDecel : RegSpec :=
  { base := 0x341018, stride := 0x80, count := 8, reset := 0x00002710#32, rw := 0xFFFFFFFF#32, w1c := 0x00000000#32,
    rc := 0x00000000#32, priv := 0x00000000#32, ranges := [(31, 0, false, 1, 100000000)] }

/-- MOT_BA_TQMAX_n. -/
def baTqmax : RegSpec :=
  { base := 0x34101C, stride := 0x80, count := 8, reset := 0x000003E8#32, rw := 0xFFFFFFFF#32, w1c := 0x00000000#32,
    rc := 0x00000000#32, priv := 0x00000000#32, ranges := [(31, 0, false, 1, 10000000)] }

/-- MOT_BA_FLUXREF_n. -/
def baFluxref : RegSpec :=
  { base := 0x341020, stride := 0x80, count := 8, reset := 0x000186A0#32, rw := 0xFFFFFFFF#32, w1c := 0x00000000#32,
    rc := 0x00000000#32, priv := 0x00000000#32, ranges := [(31, 0, false, 1, 10000000)] }

/-- MOT_BA_HYST_n. -/
def baHyst : RegSpec :=
  { base := 0x341024, stride := 0x80, count := 8, reset := 0x003203E8#32, rw := 0xFFFFFFFF#32, w1c := 0x00000000#32,
    rc := 0x00000000#32, priv := 0x00000000#32, ranges := [(31, 16, false, 1, 65535), (15, 0, false, 1, 65535)] }

/-- MOT_BA_KP_n. -/
def baKp : RegSpec :=
  { base := 0x341028, stride := 0x80, count := 8, reset := 0x00000000#32, rw := 0xFFFFFFFF#32, w1c := 0x00000000#32,
    rc := 0x00000000#32, priv := 0x00000000#32, ranges := [] }

/-- MOT_BA_KI_n. -/
def baKi : RegSpec :=
  { base := 0x34102C, stride := 0x80, count := 8, reset := 0x00000000#32, rw := 0xFFFFFFFF#32, w1c := 0x00000000#32,
    rc := 0x00000000#32, priv := 0x00000000#32, ranges := [] }

/-- MOT_BA_RS_n. -/
def baRs : RegSpec :=
  { base := 0x341030, stride := 0x80, count := 8, reset := 0x00000000#32, rw := 0xFFFFFFFF#32, w1c := 0x00000000#32,
    rc := 0x00000000#32, priv := 0x00000000#32, ranges := [] }

/-- MOT_BA_OBS_n. -/
def baObs : RegSpec :=
  { base := 0x341034, stride := 0x80, count := 8, reset := 0x00050064#32, rw := 0xFFFFFFFF#32, w1c := 0x00000000#32,
    rc := 0x00000000#32, priv := 0x00000000#32, ranges := [(31, 16, false, 0, 1000)] }

/-- MOT_BA_BUS_n. -/
def baBus : RegSpec :=
  { base := 0x341038, stride := 0x80, count := 8, reset := 0xFF000000#32, rw := 0xFFFFFFFF#32, w1c := 0x00000000#32,
    rc := 0x00000000#32, priv := 0x00000000#32, ranges := [] }

/-- MOT_BA_BUSLIM_n. -/
def baBuslim : RegSpec :=
  { base := 0x34103C, stride := 0x80, count := 8, reset := 0x00000000#32, rw := 0xFFFFFFFF#32, w1c := 0x00000000#32,
    rc := 0x00000000#32, priv := 0x00000000#32, ranges := [] }

/-- MOT_BA_DEADTIME_n. -/
def baDeadtime : RegSpec :=
  { base := 0x341040, stride := 0x80, count := 8, reset := 0x000001F4#32, rw := 0x0000FFFF#32, w1c := 0x00000000#32,
    rc := 0x00000000#32, priv := 0x00000000#32, ranges := [(15, 0, false, 0, 5000)] }

/-- MOT_BA_SPDLIM_n. -/
def baSpdlim : RegSpec :=
  { base := 0x341044, stride := 0x80, count := 8, reset := 0x03E800C8#32, rw := 0xFFFFFFFF#32, w1c := 0x00000000#32,
    rc := 0x00000000#32, priv := 0x00000000#32, ranges := [] }

/-- MOT_BA_SPDMAX_n. -/
def baSpdmax : RegSpec :=
  { base := 0x341048, stride := 0x80, count := 8, reset := 0x000186A0#32, rw := 0xFFFFFFFF#32, w1c := 0x00000000#32,
    rc := 0x00000000#32, priv := 0x00000000#32, ranges := [] }

/-- MOT_BA_LOCK_n. -/
def baLock : RegSpec :=
  { base := 0x34104C, stride := 0x80, count := 8, reset := 0x00C801F4#32, rw := 0xFFFFFFFF#32, w1c := 0x00000000#32,
    rc := 0x00000000#32, priv := 0x00000000#32, ranges := [(31, 16, false, 20, 5000)] }

/-- MOT_BA_ITRIP_n. -/
def baItrip : RegSpec :=
  { base := 0x341050, stride := 0x80, count := 8, reset := 0x00004E20#32, rw := 0xFFFFFFFF#32, w1c := 0x00000000#32,
    rc := 0x00000000#32, priv := 0x00000000#32, ranges := [] }

/-- MOT_BA_SPDWIN_n. -/
def baSpdwin : RegSpec :=
  { base := 0x341054, stride := 0x80, count := 8, reset := 0x00001388#32, rw := 0x0000FFFF#32, w1c := 0x00000000#32,
    rc := 0x00000000#32, priv := 0x00000000#32, ranges := [] }

/-- MOT_BA_WEB_n. -/
def baWeb : RegSpec :=
  { base := 0x341058, stride := 0x80, count := 8, reset := 0x00000000#32, rw := 0xFFFFFFFF#32, w1c := 0x00000000#32,
    rc := 0x00000000#32, priv := 0x00000000#32, ranges := [] }

/-- MOT_BA_ENCCPR_n. -/
def baEnccpr : RegSpec :=
  { base := 0x34105C, stride := 0x80, count := 8, reset := 0x00000000#32, rw := 0xFFFFFFFF#32, w1c := 0x00000000#32,
    rc := 0x00000000#32, priv := 0x00000000#32, ranges := [] }

/-- MOT_BA_ERR_n. -/
def baErr : RegSpec :=
  { base := 0x34106C, stride := 0x80, count := 8, reset := 0x00000000#32, rw := 0x00000000#32, w1c := 0x00000000#32,
    rc := 0xFFFFFFFF#32, priv := 0x00000000#32, ranges := [] }

/-- MOT_SD_CFG_n. -/
def sdCfg : RegSpec :=
  { base := 0x342000, stride := 0x20, count := 24, reset := 0x799A0040#32, rw := 0xFFFF01FF#32, w1c := 0x00000000#32,
    rc := 0x00000000#32, priv := 0x00000000#32, ranges := [(31, 16, false, 1, 32767), (8, 0, false, 16, 256)] }

/-- MOT_SD_OVRCNT_n. -/
def sdOvrcnt : RegSpec :=
  { base := 0x342008, stride := 0x20, count := 24, reset := 0x00000000#32, rw := 0x00000000#32, w1c := 0x00000000#32,
    rc := 0xFFFFFFFF#32, priv := 0x00000000#32, ranges := [] }

/-- STP_STATUS_n: its W1C bit (Table 15.7). -/
def stpStatus : RegSpec :=
  { base := 0x381004, stride := 0x100, count := 16, reset := 0x00000000#32, rw := 0x00000000#32, w1c := 0x00000020#32,
    rc := 0x00000000#32, priv := 0x00000000#32, ranges := [] }

/-- STP_CFG_n. -/
def stpCfg : RegSpec :=
  { base := 0x381008, stride := 0x100, count := 16, reset := 0x00000800#32, rw := 0x0F010F03#32, w1c := 0x00000000#32,
    rc := 0x00000000#32, priv := 0x00000000#32, ranges := [(11, 8, false, 0, 8)] }

/-- STP_CHOP_n. -/
def stpChop : RegSpec :=
  { base := 0x38100C, stride := 0x100, count := 16, reset := 0x00140432#32, rw := 0x01FF0FFF#32, w1c := 0x00000000#32,
    rc := 0x00000000#32, priv := 0x00000000#32, ranges := [(24, 16, false, 5, 320), (11, 8, false, 0, 15), (7, 0, false, 10, 200)] }

/-- STP_CUR_n. -/
def stpCur : RegSpec :=
  { base := 0x381010, stride := 0x100, count := 16, reset := 0x01F44080#32, rw := 0xFFFFFFFF#32, w1c := 0x00000000#32,
    rc := 0x00000000#32, priv := 0x00000000#32, ranges := [(31, 16, false, 1, 65535)] }

/-- STP_VMAX_n. -/
def stpVmax : RegSpec :=
  { base := 0x381014, stride := 0x100, count := 16, reset := 0x000186A0#32, rw := 0xFFFFFFFF#32, w1c := 0x00000000#32,
    rc := 0x00000000#32, priv := 0x00000000#32, ranges := [(31, 0, false, 1, 8000000)] }

/-- STP_AMAX_n. -/
def stpAmax : RegSpec :=
  { base := 0x381018, stride := 0x100, count := 16, reset := 0x000F4240#32, rw := 0xFFFFFFFF#32, w1c := 0x00000000#32,
    rc := 0x00000000#32, priv := 0x00000000#32, ranges := [(31, 0, false, 1, 1000000000)] }

/-- STP_VSET_n. -/
def stpVset : RegSpec :=
  { base := 0x38101C, stride := 0x100, count := 16, reset := 0x00000000#32, rw := 0xFFFFFFFF#32, w1c := 0x00000000#32,
    rc := 0x00000000#32, priv := 0x00000000#32, ranges := [] }

/-- STP_TARGET_LO_n. -/
def stpTargetLo : RegSpec :=
  { base := 0x381020, stride := 0x100, count := 16, reset := 0x00000000#32, rw := 0xFFFFFFFF#32, w1c := 0x00000000#32,
    rc := 0x00000000#32, priv := 0x00000000#32, ranges := [] }

/-- STP_TARGET_HI_n. -/
def stpTargetHi : RegSpec :=
  { base := 0x381024, stride := 0x100, count := 16, reset := 0x00000000#32, rw := 0xFFFFFFFF#32, w1c := 0x00000000#32,
    rc := 0x00000000#32, priv := 0x00000000#32, ranges := [] }

/-- STP_LIMLO_LO_n. -/
def stpLimloLo : RegSpec :=
  { base := 0x381038, stride := 0x100, count := 16, reset := 0x00000000#32, rw := 0xFFFFFFFF#32, w1c := 0x00000000#32,
    rc := 0x00000000#32, priv := 0x00000000#32, ranges := [] }

/-- STP_LIMLO_HI_n. -/
def stpLimloHi : RegSpec :=
  { base := 0x38103C, stride := 0x100, count := 16, reset := 0x00000000#32, rw := 0xFFFFFFFF#32, w1c := 0x00000000#32,
    rc := 0x00000000#32, priv := 0x00000000#32, ranges := [] }

/-- STP_LIMHI_LO_n. -/
def stpLimhiLo : RegSpec :=
  { base := 0x381040, stride := 0x100, count := 16, reset := 0x00000000#32, rw := 0xFFFFFFFF#32, w1c := 0x00000000#32,
    rc := 0x00000000#32, priv := 0x00000000#32, ranges := [] }

/-- STP_LIMHI_HI_n. -/
def stpLimhiHi : RegSpec :=
  { base := 0x381044, stride := 0x100, count := 16, reset := 0x00000000#32, rw := 0xFFFFFFFF#32, w1c := 0x00000000#32,
    rc := 0x00000000#32, priv := 0x00000000#32, ranges := [] }

/-- STP_ENCRATIO_n. -/
def stpEncratio : RegSpec :=
  { base := 0x381048, stride := 0x100, count := 16, reset := 0x00010000#32, rw := 0xFFFFFFFF#32, w1c := 0x00000000#32,
    rc := 0x00000000#32, priv := 0x00000000#32, ranges := [] }

/-- STP_DEVWIN_n. -/
def stpDevwin : RegSpec :=
  { base := 0x381050, stride := 0x100, count := 16, reset := 0x00800000#32, rw := 0xFFFFFFFF#32, w1c := 0x00000000#32,
    rc := 0x00000000#32, priv := 0x00000000#32, ranges := [(31, 16, false, 1, 65535)] }

/-- STP_WEB_LO_n. -/
def stpWebLo : RegSpec :=
  { base := 0x381054, stride := 0x100, count := 16, reset := 0x00000000#32, rw := 0xFFFFFFFF#32, w1c := 0x00000000#32,
    rc := 0x00000000#32, priv := 0x00000000#32, ranges := [] }

/-- STP_WEB_HI_n. -/
def stpWebHi : RegSpec :=
  { base := 0x381058, stride := 0x100, count := 16, reset := 0x00000000#32, rw := 0xFFFFFFFF#32, w1c := 0x00000000#32,
    rc := 0x00000000#32, priv := 0x00000000#32, ranges := [] }

/-- STP_ERR_n. -/
def stpErr : RegSpec :=
  { base := 0x38105C, stride := 0x100, count := 16, reset := 0x00000000#32, rw := 0x00000000#32, w1c := 0x00000000#32,
    rc := 0xFFFFFFFF#32, priv := 0x00000000#32, ranges := [] }

/-- STP_GEAR_CNT_LO_n. -/
def stpGearCntLo : RegSpec :=
  { base := 0x381060, stride := 0x100, count := 16, reset := 0x00000000#32, rw := 0xFFFFFFFF#32, w1c := 0x00000000#32,
    rc := 0x00000000#32, priv := 0x00000000#32, ranges := [] }

/-- STP_GEAR_CNT_HI_n. -/
def stpGearCntHi : RegSpec :=
  { base := 0x381064, stride := 0x100, count := 16, reset := 0x00000000#32, rw := 0xFFFFFFFF#32, w1c := 0x00000000#32,
    rc := 0x00000000#32, priv := 0x00000000#32, ranges := [] }

/-- STP_GEAR_RATIO_n. -/
def stpGearRatio : RegSpec :=
  { base := 0x381068, stride := 0x100, count := 16, reset := 0x00010000#32, rw := 0xFFFFFFFF#32, w1c := 0x00000000#32,
    rc := 0x00000000#32, priv := 0x00000000#32, ranges := [] }

/-- STP_SEGS_n. -/
def stpSegs : RegSpec :=
  { base := 0x381074, stride := 0x100, count := 16, reset := 0x00000001#32, rw := 0x000001FF#32, w1c := 0x00000000#32,
    rc := 0x00000000#32, priv := 0x00000000#32, ranges := [(8, 0, false, 1, 256)] }

/-- The words of the segment tables STP_SEG_n_i: table n at 0x1000 n, segment i at 0x10 i, DT, VEL, POS_LO and POS_HI. -/
def stpSeg : RegSpec :=
  { base := 0x390000, stride := 0x4, count := 16384, reset := 0x00000000#32, rw := 0xFFFFFFFF#32, w1c := 0x00000000#32,
    rc := 0x00000000#32, priv := 0x00000000#32, ranges := [] }

/-- ENC_CFG_n (Table 15.9). -/
def encCfg : RegSpec :=
  { base := 0x3A0000, stride := 0x40, count := 16, reset := 0x00000008#32, rw := 0x00070FFF#32, w1c := 0x00000000#32,
    rc := 0x00000000#32, priv := 0x00000000#32, ranges := [(11, 0, false, 2, 4000)] }

/-- ENC_STATUS_n: its W1C bit. -/
def encStatus : RegSpec :=
  { base := 0x3A0004, stride := 0x40, count := 16, reset := 0x00000000#32, rw := 0x00000000#32, w1c := 0x00000001#32,
    rc := 0x00000000#32, priv := 0x00000000#32, ranges := [] }

/-- ENC_REJ_n. -/
def encRej : RegSpec :=
  { base := 0x3A0020, stride := 0x40, count := 16, reset := 0x00000000#32, rw := 0x00000000#32, w1c := 0x00000000#32,
    rc := 0xFFFFFFFF#32, priv := 0x00000000#32, ranges := [] }

/-- INS_CFG (Table 12.4). -/
def insCfg : RegSpec :=
  { base := 0x2C0004, stride := 0x4, count := 1, reset := 0x32E00403#32, rw := 0xFFFFFFFF#32, w1c := 0x00000000#32,
    rc := 0x00000000#32, priv := 0x00000000#32, ranges := [(31, 24, false, 1, 255), (23, 16, false, 128, 255), (15, 4, false, 16, 4095), (3, 0, false, 1, 15)] }

/-- INS_CMP. -/
def insCmp : RegSpec :=
  { base := 0x2C0008, stride := 0x4, count := 1, reset := 0x00001811#32, rw := 0x0000FF33#32, w1c := 0x00000000#32,
    rc := 0x00000000#32, priv := 0x00000000#32, ranges := [(15, 8, false, 1, 255), (5, 4, false, 0, 2), (1, 0, false, 0, 2)] }

/-- INS_ITEM. -/
def insItem : RegSpec :=
  { base := 0x2C000C, stride := 0x4, count := 1, reset := 0x00000010#32, rw := 0x0000FFFF#32, w1c := 0x00000000#32,
    rc := 0x00000000#32, priv := 0x00000000#32, ranges := [(15, 0, false, 1, 65535)] }

/-- INS_SEAL. -/
def insSeal : RegSpec :=
  { base := 0x2C0010, stride := 0x4, count := 1, reset := 0x0040E610#32, rw := 0xFFFFFFFF#32, w1c := 0x00000000#32,
    rc := 0x00000000#32, priv := 0x00000000#32, ranges := [(31, 16, false, 16, 65535), (15, 8, false, 128, 255), (7, 0, false, 1, 255)] }

/-- INS_ERR. -/
def insErr : RegSpec :=
  { base := 0x2C0018, stride := 0x4, count := 1, reset := 0x00000000#32, rw := 0x00000000#32, w1c := 0x00000000#32,
    rc := 0x00FFFFFF#32, priv := 0x00000000#32, ranges := [] }

/-- INS_AMBIG. -/
def insAmbig : RegSpec :=
  { base := 0x2C001C, stride := 0x4, count := 1, reset := 0x00000000#32, rw := 0x00000000#32, w1c := 0x00000000#32,
    rc := 0xFFFFFFFF#32, priv := 0x00000000#32, ranges := [] }

/-- INS_LINES_LOST. -/
def insLinesLost : RegSpec :=
  { base := 0x2C0020, stride := 0x4, count := 1, reset := 0x00000000#32, rw := 0x00000000#32, w1c := 0x00000000#32,
    rc := 0xFFFFFFFF#32, priv := 0x00000000#32, ranges := [] }

/-- INS_UNVER. -/
def insUnver : RegSpec :=
  { base := 0x2C0024, stride := 0x4, count := 1, reset := 0x00000000#32, rw := 0x00000000#32, w1c := 0x00000000#32,
    rc := 0xFFFFFFFF#32, priv := 0x00000000#32, ranges := [] }

/-- INS_SEAL_FAIL. -/
def insSealFail : RegSpec :=
  { base := 0x2C0028, stride := 0x4, count := 1, reset := 0x00000000#32, rw := 0x00000000#32, w1c := 0x00000000#32,
    rc := 0xFFFFFFFF#32, priv := 0x00000000#32, ranges := [] }

/-- INS_DEAD_n. -/
def insDead : RegSpec :=
  { base := 0x2C0040, stride := 0x4, count := 8, reset := 0x00000000#32, rw := 0x00000000#32, w1c := 0x00000000#32,
    rc := 0xFFFFFFFF#32, priv := 0x00000000#32, ranges := [] }

/-- INS_XOFF_b. -/
def insXoff : RegSpec :=
  { base := 0x2C0100, stride := 0x10, count := 16, reset := 0x00000000#32, rw := 0xFFFFFFFF#32, w1c := 0x00000000#32,
    rc := 0x00000000#32, priv := 0x00000000#32, ranges := [(31, 0, true, (-1000000), 1000000)] }

/-- PWR_CAP (Table 16.7). -/
def pwrCap : RegSpec :=
  { base := 0x10004, stride := 0x4, count := 1, reset := 0x000A00A0#32, rw := 0x003F00FF#32, w1c := 0x00000000#32,
    rc := 0x00000000#32, priv := 0x00000000#32, ranges := [(21, 16, false, 2, 40), (7, 0, false, 60, 220)] }

/-- PWR_OP. -/
def pwrOp : RegSpec :=
  { base := 0x10008, stride := 0x4, count := 1, reset := 0x00000032#32, rw := 0x00000033#32, w1c := 0x00000000#32,
    rc := 0x00000000#32, priv := 0x00000000#32, ranges := [] }

/-- PWR_SHARE. -/
def pwrShare : RegSpec :=
  { base := 0x1000C, stride := 0x4, count := 1, reset := 0x20204080#32, rw := 0xFFFFFFFF#32, w1c := 0x00000000#32,
    rc := 0x00000000#32, priv := 0x00000000#32, ranges := [(31, 24, false, 1, 255), (23, 16, false, 1, 255), (15, 8, false, 1, 255), (7, 0, false, 1, 255)] }

/-- PWR_ERR. -/
def pwrErr : RegSpec :=
  { base := 0x10034, stride := 0x4, count := 1, reset := 0x00000000#32, rw := 0x00000000#32, w1c := 0x00000000#32,
    rc := 0x00FFFFFF#32, priv := 0x00000000#32, ranges := [] }

/-- PWR_TS_n: its W1C bit. -/
def pwrTs : RegSpec :=
  { base := 0x10100, stride := 0x4, count := 16, reset := 0x00000000#32, rw := 0x00000000#32, w1c := 0x00010000#32,
    rc := 0x00000000#32, priv := 0x00000000#32, ranges := [] }

/-- MEM_CE_TOTAL (Table 17.8). -/
def memCeTotal : RegSpec :=
  { base := 0x3C0004, stride := 0x4, count := 1, reset := 0x00000000#32, rw := 0x00000000#32, w1c := 0x00000000#32,
    rc := 0xFFFFFFFF#32, priv := 0x00000000#32, ranges := [] }

/-- MEM_UE_TOTAL. -/
def memUeTotal : RegSpec :=
  { base := 0x3C0008, stride := 0x4, count := 1, reset := 0x00000000#32, rw := 0x00000000#32, w1c := 0x00000000#32,
    rc := 0xFFFFFFFF#32, priv := 0x00000000#32, ranges := [] }

/-- MEM_SCRUB. -/
def memScrub : RegSpec :=
  { base := 0x3C0010, stride := 0x4, count := 1, reset := 0x00000008#32, rw := 0x000000FF#32, w1c := 0x00000000#32,
    rc := 0x00000000#32, priv := 0x00000000#32, ranges := [(7, 0, false, 1, 60)] }

/-- MEM_XRAM. -/
def memXram : RegSpec :=
  { base := 0x3C0014, stride := 0x4, count := 1, reset := 0x00000000#32, rw := 0x00000000#32, w1c := 0x00000000#32,
    rc := 0xFFFFFFFF#32, priv := 0x00000000#32, ranges := [] }

/-- MEM_ERR. -/
def memErr : RegSpec :=
  { base := 0x3C0018, stride := 0x4, count := 1, reset := 0x00000000#32, rw := 0x00000000#32, w1c := 0x00000000#32,
    rc := 0x00FFFFFF#32, priv := 0x00000000#32, ranges := [] }

/-- MEM_ARB_CFG. -/
def memArbCfg : RegSpec :=
  { base := 0x3C0020, stride := 0x4, count := 1, reset := 0x0000000A#32, rw := 0x0000007F#32, w1c := 0x00000000#32,
    rc := 0x00000000#32, priv := 0x00000000#32, ranges := [(6, 0, false, 1, 100)] }

/-- MEM_JS_SEL. -/
def memJsSel : RegSpec :=
  { base := 0x3C0040, stride := 0x4, count := 1, reset := 0x00000000#32, rw := 0x0000001F#32, w1c := 0x00000000#32,
    rc := 0x00000000#32, priv := 0x00000000#32, ranges := [] }

/-- HBM_CE_s (Table 17.10). -/
def hbmCe : RegSpec :=
  { base := 0x3E0020, stride := 0x4, count := 4, reset := 0x00000000#32, rw := 0x00000000#32, w1c := 0x00000000#32,
    rc := 0xFFFFFFFF#32, priv := 0x00000000#32, ranges := [] }

/-- HBM_UE_s. -/
def hbmUe : RegSpec :=
  { base := 0x3E0030, stride := 0x4, count := 4, reset := 0x00000000#32, rw := 0x00000000#32, w1c := 0x00000000#32,
    rc := 0xFFFFFFFF#32, priv := 0x00000000#32, ranges := [] }

/-- DMA_ERR (Table 18.9). -/
def dmaErr : RegSpec :=
  { base := 0x80008, stride := 0x4, count := 1, reset := 0x00000000#32, rw := 0x00000000#32, w1c := 0x00000000#32,
    rc := 0x00FFFFFF#32, priv := 0x00000000#32, ranges := [] }

/-- DMA_CH_CFG_n. -/
def dmaCfg : RegSpec :=
  { base := 0x80104, stride := 0x40, count := 32, reset := 0x0000000C#32, rw := 0xFF0F1F0F#32, w1c := 0x00000000#32,
    rc := 0x00000000#32, priv := 0x00000000#32, ranges := [(3, 0, false, 6, 12)] }

/-- DMA_CH_RDLIST_LO_n. -/
def dmaRdlistLo : RegSpec :=
  { base := 0x8010C, stride := 0x40, count := 32, reset := 0x00000000#32, rw := 0xFFFFFFF3#32, w1c := 0x00000000#32,
    rc := 0x00000000#32, priv := 0x00000000#32, ranges := [(1, 0, false, 0, 1)] }

/-- DMA_CH_RDLIST_HI_n. -/
def dmaRdlistHi : RegSpec :=
  { base := 0x80110, stride := 0x40, count := 32, reset := 0x00000000#32, rw := 0xFFFFFFFF#32, w1c := 0x00000000#32,
    rc := 0x00000000#32, priv := 0x00000000#32, ranges := [] }

/-- DMA_CH_WRLIST_LO_n. -/
def dmaWrlistLo : RegSpec :=
  { base := 0x80114, stride := 0x40, count := 32, reset := 0x00000000#32, rw := 0xFFFFFFF3#32, w1c := 0x00000000#32,
    rc := 0x00000000#32, priv := 0x00000000#32, ranges := [(1, 0, false, 0, 1)] }

/-- DMA_CH_WRLIST_HI_n. -/
def dmaWrlistHi : RegSpec :=
  { base := 0x80118, stride := 0x40, count := 32, reset := 0x00000000#32, rw := 0xFFFFFFFF#32, w1c := 0x00000000#32,
    rc := 0x00000000#32, priv := 0x00000000#32, ranges := [] }

/-- DMA_CH_STW_LO_n. -/
def dmaStwLo : RegSpec :=
  { base := 0x8011C, stride := 0x40, count := 32, reset := 0x00000000#32, rw := 0xFFFFFFF3#32, w1c := 0x00000000#32,
    rc := 0x00000000#32, priv := 0x00000000#32, ranges := [(1, 0, false, 0, 1)] }

/-- DMA_CH_STW_HI_n. -/
def dmaStwHi : RegSpec :=
  { base := 0x80120, stride := 0x40, count := 32, reset := 0x00000000#32, rw := 0xFFFFFFFF#32, w1c := 0x00000000#32,
    rc := 0x00000000#32, priv := 0x00000000#32, ranges := [] }

/-- DMA_CH_DONES_n. -/
def dmaDones : RegSpec :=
  { base := 0x8012C, stride := 0x40, count := 32, reset := 0x00000000#32, rw := 0x00000000#32, w1c := 0x00000000#32,
    rc := 0xFFFFFFFF#32, priv := 0x00000000#32, ranges := [] }

/-- INS_LPITCH_b; its reset value is the bridge's SCAN_PITCH, written at each activation. -/
def insLpitch : RegSpec :=
  { base := 0x2C0104, stride := 0x10, count := 16, reset := 0x00000000#32, rw := 0xFFFFFFFF#32, w1c := 0x00000000#32,
    rc := 0x00000000#32, priv := 0x00000000#32, ranges := [(31, 0, false, 1000, 200000)] }

/-- XLK_CFG (Table 19.9). -/
def xlkCfg : RegSpec :=
  { base := 0x300004, stride := 0x4, count := 1, reset := 0x00000001#32, rw := 0x00000007#32, w1c := 0x00000000#32,
    rc := 0x00000000#32, priv := 0x00000000#32, ranges := [] }

/-- XLK_DROP. -/
def xlkDrop : RegSpec :=
  { base := 0x300014, stride := 0x4, count := 1, reset := 0x00000000#32, rw := 0x00000000#32, w1c := 0x00000000#32,
    rc := 0xFFFFFFFF#32, priv := 0x00000000#32, ranges := [] }

/-- XLK_ERR. -/
def xlkErr : RegSpec :=
  { base := 0x30001C, stride := 0x4, count := 1, reset := 0x00000000#32, rw := 0x00000000#32, w1c := 0x00000000#32,
    rc := 0x00FFFFFF#32, priv := 0x00000000#32, ranges := [] }

/-- XLK_PEER_n. -/
def xlkPeer : RegSpec :=
  { base := 0x300020, stride := 0x4, count := 8, reset := 0x00000000#32, rw := 0xFFFFFFFF#32, w1c := 0x00000000#32,
    rc := 0x00000000#32, priv := 0x00000000#32, ranges := [] }

/-- XLK_ROUTE_SEL. -/
def xlkRouteSel : RegSpec :=
  { base := 0x300040, stride := 0x4, count := 1, reset := 0x00000000#32, rw := 0x000000FF#32, w1c := 0x00000000#32,
    rc := 0x00000000#32, priv := 0x00000000#32, ranges := [] }

/-- XLK_PAIR_CFG. -/
def xlkPairCfg : RegSpec :=
  { base := 0x300080, stride := 0x4, count := 1, reset := 0x00002000#32, rw := 0x0000FF07#32, w1c := 0x00000000#32,
    rc := 0x00000000#32, priv := 0x00000000#32, ranges := [(15, 8, false, 16, 64)] }

/-- XLK_PEER_UID_LO. -/
def xlkPeerUidLo : RegSpec :=
  { base := 0x300084, stride := 0x4, count := 1, reset := 0x00000000#32, rw := 0xFFFFFFFF#32, w1c := 0x00000000#32,
    rc := 0x00000000#32, priv := 0x00000000#32, ranges := [] }

/-- XLK_PEER_UID_HI. -/
def xlkPeerUidHi : RegSpec :=
  { base := 0x300088, stride := 0x4, count := 1, reset := 0x00000000#32, rw := 0xFFFFFFFF#32, w1c := 0x00000000#32,
    rc := 0x00000000#32, priv := 0x00000000#32, ranges := [] }

/-- XLK_PAIR_STATUS: its W1C bit. -/
def xlkPairStatus : RegSpec :=
  { base := 0x30008C, stride := 0x4, count := 1, reset := 0x00000000#32, rw := 0x00000000#32, w1c := 0x00000100#32,
    rc := 0x00000000#32, priv := 0x00000000#32, ranges := [] }

/-- XLK_FAILOVERS. -/
def xlkFailovers : RegSpec :=
  { base := 0x30009C, stride := 0x4, count := 1, reset := 0x00000000#32, rw := 0x00000000#32, w1c := 0x00000000#32,
    rc := 0xFFFFFFFF#32, priv := 0x00000000#32, ranges := [] }

/-- XLK_SHADOW_GAP. -/
def xlkShadowGap : RegSpec :=
  { base := 0x3000A0, stride := 0x4, count := 1, reset := 0x00000000#32, rw := 0x00000000#32, w1c := 0x00000000#32,
    rc := 0xFFFFFFFF#32, priv := 0x00000000#32, ranges := [] }

/-- XLK_PERR_n. -/
def xlkPerr : RegSpec :=
  { base := 0x300104, stride := 0x8, count := 32, reset := 0x00000000#32, rw := 0x00000000#32, w1c := 0x00000000#32,
    rc := 0xFFFFFFFF#32, priv := 0x00000000#32, ranges := [] }

/-- SEC_CFG (Table 20.7). -/
def secCfg : RegSpec :=
  { base := 0x400004, stride := 0x4, count := 1, reset := 0x00000258#32, rw := 0x0000FFFF#32, w1c := 0x00000000#32,
    rc := 0x00000000#32, priv := 0x0000FFFF#32, ranges := [(15, 0, false, 10, 3600)] }

/-- SEC_TAMPER_CFG; RWL under its own LOCK bit. -/
def secTamperCfg : RegSpec :=
  { base := 0x40000C, stride := 0x4, count := 1, reset := 0x000000A0#32, rw := 0x80000FFF#32, w1c := 0x00000000#32,
    rc := 0x00000000#32, priv := 0x00000000#32, ranges := [(11, 4, false, 1, 255)] }

/-- SEC_ERR. -/
def secErr : RegSpec :=
  { base := 0x40001C, stride := 0x4, count := 1, reset := 0x00000000#32, rw := 0x00000000#32, w1c := 0x00000000#32,
    rc := 0x00FFFFFF#32, priv := 0x00000000#32, ranges := [] }

/-- SEC_UWWIN_SEL. -/
def secUwwinSel : RegSpec :=
  { base := 0x400020, stride := 0x4, count := 1, reset := 0x00000000#32, rw := 0x0000007F#32, w1c := 0x00000000#32,
    rc := 0x00000000#32, priv := 0x00000000#32, ranges := [(6, 0, false, 0, 64)] }

/-- OTP_RD_ADDR (Table 20.9). -/
def otpRdAddr : RegSpec :=
  { base := 0x410004, stride := 0x4, count := 1, reset := 0x00000000#32, rw := 0x000000FF#32, w1c := 0x00000000#32,
    rc := 0x00000000#32, priv := 0x00000000#32, ranges := [] }

/-- OTP_SHADOW_EN. -/
def otpShadowEn : RegSpec :=
  { base := 0x410080, stride := 0x4, count := 1, reset := 0x00000000#32, rw := 0xFFFFFFF8#32, w1c := 0x00000000#32,
    rc := 0x00000000#32, priv := 0xFFFFFFF8#32, ranges := [] }

/-- OTP_SHADOW_w, w = 3 to 31. -/
def otpShadow : RegSpec :=
  { base := 0x41010C, stride := 0x4, count := 29, reset := 0x00000000#32, rw := 0xFFFFFFFF#32, w1c := 0x00000000#32,
    rc := 0x00000000#32, priv := 0xFFFFFFFF#32, ranges := [] }

/-- MET_MBX_CTRL: its W1C bit (Table 21.10). -/
def metMbxCtrl : RegSpec :=
  { base := 0x420078, stride := 0x4, count := 1, reset := 0x00000000#32, rw := 0x00000000#32, w1c := 0x00000004#32,
    rc := 0x00000000#32, priv := 0x00000000#32, ranges := [] }

/-- MET_MBX_REQ_m. -/
def metMbxReq : RegSpec :=
  { base := 0x420200, stride := 0x4, count := 64, reset := 0x00000000#32, rw := 0xFFFFFFFF#32, w1c := 0x00000000#32,
    rc := 0x00000000#32, priv := 0x00000000#32, ranges := [] }

/-- UPD_REC_ADDR_LO (Table 23.9). -/
def updRecAddrLo : RegSpec :=
  { base := 0x430100, stride := 0x4, count := 1, reset := 0x00000000#32, rw := 0xFFFFFFFF#32, w1c := 0x00000000#32,
    rc := 0x00000000#32, priv := 0x00000000#32, ranges := [] }

/-- UPD_REC_ADDR_HI. -/
def updRecAddrHi : RegSpec :=
  { base := 0x430104, stride := 0x4, count := 1, reset := 0x00000000#32, rw := 0xFFFFFFFF#32, w1c := 0x00000000#32,
    rc := 0x00000000#32, priv := 0x00000000#32, ranges := [] }

/-- UPD_REC_LEN. -/
def updRecLen : RegSpec :=
  { base := 0x430108, stride := 0x4, count := 1, reset := 0x00000000#32, rw := 0xFFFFFFFF#32, w1c := 0x00000000#32,
    rc := 0x00000000#32, priv := 0x00000000#32, ranges := [] }

/-- CLK_LOSS (Table 27.9). -/
def clkLoss : RegSpec :=
  { base := 0x20008, stride := 0x4, count := 1, reset := 0x00000000#32, rw := 0x00000000#32, w1c := 0xFFFF007F#32,
    rc := 0x00000000#32, priv := 0x00000000#32, ranges := [] }

/-- CLK_MEAS_SEL; a value above 8 is ignored. -/
def clkMeasSel : RegSpec :=
  { base := 0x2000C, stride := 0x4, count := 1, reset := 0x00000000#32, rw := 0x0000000F#32, w1c := 0x00000000#32,
    rc := 0x00000000#32, priv := 0x00000000#32, ranges := [(3, 0, false, 0, 8)] }

/-- LSI_I2C_CFG_i (Table 28.9). -/
def lsiI2cCfg : RegSpec :=
  { base := 0x480000, stride := 0x10, count := 2, reset := 0x00000001#32, rw := 0x80000003#32, w1c := 0x00000000#32,
    rc := 0x00000000#32, priv := 0x00000000#32, ranges := [(1, 0, false, 0, 2)] }

/-- LSI_I2C_CMD_i; GO reads 0. -/
def lsiI2cCmd : RegSpec :=
  { base := 0x480004, stride := 0x10, count := 2, reset := 0x00000000#32, rw := 0x007FFFFF#32, w1c := 0x00000000#32,
    rc := 0x00000000#32, priv := 0x00000000#32, ranges := [(15, 8, false, 0, 64), (7, 0, false, 0, 64)] }

/-- LSI_I2C_STATUS_i: its W1C bits. -/
def lsiI2cStatus : RegSpec :=
  { base := 0x480008, stride := 0x10, count := 2, reset := 0x00000000#32, rw := 0x00000000#32, w1c := 0x0000000E#32,
    rc := 0x00000000#32, priv := 0x00000000#32, ranges := [] }

/-- LSI_UART_CFG_u. -/
def lsiUartCfg : RegSpec :=
  { base := 0x480040, stride := 0x10, count := 2, reset := 0x0001C200#32, rw := 0x83FFFFFF#32, w1c := 0x00000000#32,
    rc := 0x00000000#32, priv := 0x00000000#32, ranges := [(25, 24, false, 0, 2), (23, 0, false, 9600, 921600)] }

/-- LSI_UART_STATUS_u: its W1C bits. -/
def lsiUartStatus : RegSpec :=
  { base := 0x480044, stride := 0x10, count := 2, reset := 0x00000000#32, rw := 0x00000000#32, w1c := 0xE0000000#32,
    rc := 0x00000000#32, priv := 0x00000000#32, ranges := [] }

/-- LSI_PPS_STATUS. -/
def lsiPpsStatus : RegSpec :=
  { base := 0x480090, stride := 0x4, count := 1, reset := 0x00000000#32, rw := 0x00000000#32, w1c := 0x00000000#32,
    rc := 0xFFFFFFFF#32, priv := 0x00000000#32, ranges := [] }

/-- LSI_ERR. -/
def lsiErr : RegSpec :=
  { base := 0x480094, stride := 0x4, count := 1, reset := 0x00000000#32, rw := 0x00000000#32, w1c := 0x00000000#32,
    rc := 0x00FFFFFF#32, priv := 0x00000000#32, ranges := [] }

/-- PCI_RESETS (Table 28.7). -/
def pciResets : RegSpec :=
  { base := 0x490004, stride := 0x4, count := 1, reset := 0x00000000#32, rw := 0x00000000#32, w1c := 0x00000007#32,
    rc := 0x00000000#32, priv := 0x00000000#32, ranges := [] }

/-- PIO_OUT_LO and PIO_OUT_HI (Table 26.8). -/
def pioOut : RegSpec :=
  { base := 0x470008, stride := 0x4, count := 2, reset := 0x00000000#32, rw := 0xFFFFFFFF#32, w1c := 0x00000000#32,
    rc := 0x00000000#32, priv := 0x00000000#32, ranges := [] }

/-- PIO_EDGE_LO and PIO_EDGE_HI. -/
def pioEdge : RegSpec :=
  { base := 0x470010, stride := 0x4, count := 2, reset := 0x00000000#32, rw := 0x00000000#32, w1c := 0xFFFFFFFF#32,
    rc := 0x00000000#32, priv := 0x00000000#32, ranges := [] }

/-- PIO_ERR. -/
def pioErr : RegSpec :=
  { base := 0x47001C, stride := 0x4, count := 1, reset := 0x00000000#32, rw := 0x00000000#32, w1c := 0x00000000#32,
    rc := 0x00FFFFFF#32, priv := 0x00000000#32, ranges := [] }

/-- PIO_FUNC_m. -/
def pioFunc : RegSpec :=
  { base := 0x470100, stride := 0x4, count := 64, reset := 0x00000200#32, rw := 0x00003FFF#32, w1c := 0x00000000#32,
    rc := 0x00000000#32, priv := 0x00000000#32, ranges := [(9, 8, false, 0, 2)] }

/-- EVT_STATUS (Table 24.10). -/
def evtStatus : RegSpec :=
  { base := 0x30000, stride := 0x4, count := 1, reset := 0x00000000#32, rw := 0x00000000#32, w1c := 0x00000002#32,
    rc := 0x00000000#32, priv := 0x00000000#32, ranges := [] }

/-- EVT_VEC. -/
def evtVec : RegSpec :=
  { base := 0x30004, stride := 0x4, count := 1, reset := 0x00000000#32, rw := 0x0000FFFF#32, w1c := 0x00000000#32,
    rc := 0x00000000#32, priv := 0x00000000#32, ranges := [] }

/-- EVT_TRACE_EN. -/
def evtTraceEn : RegSpec :=
  { base := 0x30008, stride := 0x4, count := 1, reset := 0x00000000#32, rw := 0xFFFFFFFF#32, w1c := 0x00000000#32,
    rc := 0x00000000#32, priv := 0x00000000#32, ranges := [] }

/-- EVT_ALARM_LATCH_n. -/
def evtAlarmLatch : RegSpec :=
  { base := 0x30040, stride := 0x4, count := 8, reset := 0x00000000#32, rw := 0x00000000#32, w1c := 0xFFFFFFFF#32,
    rc := 0x00000000#32, priv := 0x00000000#32, ranges := [] }

/-- LOG_STATUS. -/
def logStatus : RegSpec :=
  { base := 0x450000, stride := 0x4, count := 1, reset := 0x00000000#32, rw := 0x00000000#32, w1c := 0x00000060#32,
    rc := 0x00000000#32, priv := 0x00000000#32, ranges := [] }

/-- LOG_CFG. -/
def logCfg : RegSpec :=
  { base := 0x450008, stride := 0x4, count := 1, reset := 0x19032106#32, rw := 0xFFFFFFFF#32, w1c := 0x00000000#32,
    rc := 0x00000000#32, priv := 0x00000000#32, ranges := [(31, 22, false, 10, 1000), (21, 12, false, 1, 1000), (11, 4, false, 1, 255)] }

/-- LOG_HOST_SIZE. -/
def logHostSize : RegSpec :=
  { base := 0x45000C, stride := 0x4, count := 1, reset := 0x00000014#32, rw := 0x0000001F#32, w1c := 0x00000000#32,
    rc := 0x00000000#32, priv := 0x00000000#32, ranges := [(4, 0, false, 20, 32)] }

/-- LOG_HOST_BASE_LO. -/
def logHostBaseLo : RegSpec :=
  { base := 0x450010, stride := 0x4, count := 1, reset := 0x00000000#32, rw := 0xFFFFF000#32, w1c := 0x00000000#32,
    rc := 0x00000000#32, priv := 0x00000000#32, ranges := [] }

/-- LOG_HOST_BASE_HI. -/
def logHostBaseHi : RegSpec :=
  { base := 0x450014, stride := 0x4, count := 1, reset := 0x00000000#32, rw := 0xFFFFFFFF#32, w1c := 0x00000000#32,
    rc := 0x00000000#32, priv := 0x00000000#32, ranges := [] }

/-- LOG_DROP_DIAG. -/
def logDropDiag : RegSpec :=
  { base := 0x450028, stride := 0x4, count := 1, reset := 0x00000000#32, rw := 0x00000000#32, w1c := 0x00000000#32,
    rc := 0xFFFFFFFF#32, priv := 0x00000000#32, ranges := [] }

/-- LOG_DROP_TRACE. -/
def logDropTrace : RegSpec :=
  { base := 0x45002C, stride := 0x4, count := 1, reset := 0x00000000#32, rw := 0x00000000#32, w1c := 0x00000000#32,
    rc := 0xFFFFFFFF#32, priv := 0x00000000#32, ranges := [] }

/-- Message address word, low, of MSI-X entry v (Table 28.6). -/
def msixAddrLo : RegSpec :=
  { base := 0x491000, stride := 0x10, count := 256, reset := 0x00000000#32, rw := 0xFFFFFFFC#32, w1c := 0x00000000#32,
    rc := 0x00000000#32, priv := 0x00000000#32, ranges := [] }

/-- Message address word, high, of MSI-X entry v. -/
def msixAddrHi : RegSpec :=
  { base := 0x491004, stride := 0x10, count := 256, reset := 0x00000000#32, rw := 0xFFFFFFFF#32, w1c := 0x00000000#32,
    rc := 0x00000000#32, priv := 0x00000000#32, ranges := [] }

/-- Message data word of MSI-X entry v. -/
def msixData : RegSpec :=
  { base := 0x491008, stride := 0x10, count := 256, reset := 0x00000000#32, rw := 0xFFFFFFFF#32, w1c := 0x00000000#32,
    rc := 0x00000000#32, priv := 0x00000000#32, ranges := [] }

/-- Vector control word of MSI-X entry v (Table 28.6; PRESUMED reset 1, masked, log entry 3). -/
def msixCtl : RegSpec :=
  { base := 0x49100C, stride := 0x10, count := 256, reset := 0x00000001#32, rw := 0x00000001#32, w1c := 0x00000000#32,
    rc := 0x00000000#32, priv := 0x00000000#32, ranges := [] }

end Reg

/-- Part 0 of the register table. -/
def regTable0 : List RegSpec :=
  [Reg.devCtrl, Reg.devResetCause, Reg.supBaseLo, Reg.supBaseHi, Reg.supCfg, Reg.supStatus, Reg.jobBaseSqLo, Reg.jobBaseSqHi, Reg.jobBaseCqLo, Reg.jobBaseCqHi, Reg.jobCfg, Reg.jobStatus]

/-- Part 1 of the register table. -/
def regTable1 : List RegSpec :=
  [Reg.admBaseLo, Reg.admBaseHi, Reg.admCfg, Reg.admStatus, Reg.cmpFieldErr, Reg.codFail, Reg.scrEdrst, Reg.scrDensSel, Reg.nzmUpdCtrl, Reg.nzmRdSel, Reg.nzmMinRate, Reg.nzmTakeover]

/-- Part 2 of the register table. -/
def regTable2 : List RegSpec :=
  [Reg.nzmUndarned, Reg.nzmVol0, Reg.nzmVol1, Reg.nzmVol2, Reg.nzmVol3, Reg.pacSrc, Reg.pacLead, Reg.pacScaleLo, Reg.pacScaleHi, Reg.pacGain, Reg.pacLockCfg, Reg.pacErr]

/-- Part 3 of the register table. -/
def regTable3 : List RegSpec :=
  [Reg.pacHoPosLo, Reg.pacHoPosHi, Reg.pacHoSrc, Reg.pacCfg, Reg.pacGearSel, Reg.pacGearPosLo, Reg.pacGearPosHi, Reg.pacGearRatio, Reg.pacMissed, Reg.pacLatched, Reg.pacLatecorr, Reg.pacHphase]

/-- Part 4 of the register table. -/
def regTable4 : List RegSpec :=
  [Reg.wavCfg, Reg.wavErr, Reg.wavHeatCfg, Reg.wavTblSel, Reg.wavTblWord, Reg.wavWgSel, Reg.wavRank, Reg.wavConflict, Reg.wavMerged, Reg.mlkCfg, Reg.mlkFault, Reg.mlkAsym]

/-- Part 5 of the register table. -/
def regTable5 : List RegSpec :=
  [Reg.mlkLerr, Reg.govCfg, Reg.govVhost, Reg.govPwm, Reg.govOverspeed, Reg.govUnderrun, Reg.sdClk, Reg.baStatus, Reg.baCfg, Reg.baSetpointR, Reg.baAccel, Reg.baDecel]

/-- Part 6 of the register table. -/
def regTable6 : List RegSpec :=
  [Reg.baTqmax, Reg.baFluxref, Reg.baHyst, Reg.baKp, Reg.baKi, Reg.baRs, Reg.baObs, Reg.baBus, Reg.baBuslim, Reg.baDeadtime, Reg.baSpdlim, Reg.baSpdmax]

/-- Part 7 of the register table. -/
def regTable7 : List RegSpec :=
  [Reg.baLock, Reg.baItrip, Reg.baSpdwin, Reg.baWeb, Reg.baEnccpr, Reg.baErr, Reg.sdCfg, Reg.sdOvrcnt, Reg.stpStatus, Reg.stpCfg, Reg.stpChop, Reg.stpCur]

/-- Part 8 of the register table. -/
def regTable8 : List RegSpec :=
  [Reg.stpVmax, Reg.stpAmax, Reg.stpVset, Reg.stpTargetLo, Reg.stpTargetHi, Reg.stpLimloLo, Reg.stpLimloHi, Reg.stpLimhiLo, Reg.stpLimhiHi, Reg.stpEncratio, Reg.stpDevwin, Reg.stpWebLo]

/-- Part 9 of the register table. -/
def regTable9 : List RegSpec :=
  [Reg.stpWebHi, Reg.stpErr, Reg.stpGearCntLo, Reg.stpGearCntHi, Reg.stpGearRatio, Reg.stpSegs, Reg.stpSeg, Reg.encCfg, Reg.encStatus, Reg.encRej, Reg.insCfg, Reg.insCmp]

/-- Part 10 of the register table. -/
def regTable10 : List RegSpec :=
  [Reg.insItem, Reg.insSeal, Reg.insErr, Reg.insAmbig, Reg.insLinesLost, Reg.insUnver, Reg.insSealFail, Reg.insDead, Reg.insXoff, Reg.pwrCap, Reg.pwrOp, Reg.pwrShare]

/-- Part 11 of the register table. -/
def regTable11 : List RegSpec :=
  [Reg.pwrErr, Reg.pwrTs, Reg.memCeTotal, Reg.memUeTotal, Reg.memScrub, Reg.memXram, Reg.memErr, Reg.memArbCfg, Reg.memJsSel, Reg.hbmCe, Reg.hbmUe, Reg.dmaErr]

/-- Part 12 of the register table. -/
def regTable12 : List RegSpec :=
  [Reg.dmaCfg, Reg.dmaRdlistLo, Reg.dmaRdlistHi, Reg.dmaWrlistLo, Reg.dmaWrlistHi, Reg.dmaStwLo, Reg.dmaStwHi, Reg.dmaDones, Reg.insLpitch, Reg.xlkCfg, Reg.xlkDrop, Reg.xlkErr]

/-- Part 13 of the register table. -/
def regTable13 : List RegSpec :=
  [Reg.xlkPeer, Reg.xlkRouteSel, Reg.xlkPairCfg, Reg.xlkPeerUidLo, Reg.xlkPeerUidHi, Reg.xlkPairStatus, Reg.xlkFailovers, Reg.xlkShadowGap, Reg.xlkPerr, Reg.secCfg, Reg.secTamperCfg, Reg.secErr]

/-- Part 14 of the register table. -/
def regTable14 : List RegSpec :=
  [Reg.secUwwinSel, Reg.otpRdAddr, Reg.otpShadowEn, Reg.otpShadow, Reg.metMbxCtrl, Reg.metMbxReq, Reg.updRecAddrLo, Reg.updRecAddrHi, Reg.updRecLen, Reg.clkLoss, Reg.clkMeasSel, Reg.lsiI2cCfg]

/-- Part 15 of the register table. -/
def regTable15 : List RegSpec :=
  [Reg.lsiI2cCmd, Reg.lsiI2cStatus, Reg.lsiUartCfg, Reg.lsiUartStatus, Reg.lsiPpsStatus, Reg.lsiErr, Reg.pciResets, Reg.pioOut, Reg.pioEdge, Reg.pioErr, Reg.pioFunc, Reg.evtStatus]

/-- Part 16 of the register table. -/
def regTable16 : List RegSpec :=
  [Reg.evtVec, Reg.evtTraceEn, Reg.evtAlarmLatch, Reg.logStatus, Reg.logCfg, Reg.logHostSize, Reg.logHostBaseLo, Reg.logHostBaseHi, Reg.logDropDiag, Reg.logDropTrace, Reg.msixAddrLo, Reg.msixAddrHi]

/-- Part 17 of the register table. -/
def regTable17 : List RegSpec :=
  [Reg.msixData, Reg.msixCtl]

/-- Every register word of the block. -/
def regTable : List RegSpec :=
  regTable0 ++ regTable1 ++ regTable2 ++ regTable3 ++ regTable4 ++ regTable5 ++ regTable6 ++ regTable7 ++ regTable8 ++ regTable9 ++ regTable10 ++ regTable11 ++ regTable12 ++ regTable13 ++ regTable14 ++ regTable15 ++ regTable16 ++ regTable17

/-- The specification and instance of the register word at `addr`, where one exists. -/
def findReg (addr : Nat) : Option (RegSpec × Nat) :=
  (regTable.find? fun r =>
    decide (r.base ≤ addr) && decide (addr - r.base < r.stride * r.count) && (addr - r.base) % r.stride == 0).map
      fun r => (r, (addr - r.base) / r.stride)

end Sys2Proof.Machine
end

