-- ==== Sys2Proof/Machine/State.lean ====
section
/-! DEFINITION. State: every register, table, queue, counter, mode and pin the spec gives the SL-9600, as plain data,
with the queue of waiting commands. One structure per block of the spec, in the spec's chapter order; the register words
that software writes and reads whole (access RW, RWP, RWL, W1C and RC of Table 25.1) live in `State.regs`, one sparse
canonical map, and every other piece of state in a named field. -/

namespace Sys2Proof.Machine

/-- Replace entry `i` of a fixed array by `f` of it. -/
def upd {α : Type} {n : Nat} (v : Vector α n) (i : Fin n) (f : α → α) : Vector α n := v.set i (f v[i])

/-- A fault: no command of this block ends in one (every error the spec describes is an effect on the state); the type
has no constructor. Safe. -/
inductive Fault
  deriving DecidableEq, Repr

/-- Why a command has no next state. -/
inductive Refusal where
  /-- Raised by an arm of `exec` whose command has no meaning yet. Safe. -/
  | notModelled (mnemonic : String)
  /-- Raised by a command that commits a host error to which the spec gives only an unpredictable result and no effect
  (R7): `what` names the error. Safe. -/
  | unpredictable (what : String)
  deriving DecidableEq, Repr

/-! ## Structure images (chapter 02) -/

/-- LANE record (Table 2.3). -/
structure LaneRec where
  role : Nat
  endpoint : Nat
  width : Nat
  flags : Nat
  deriving DecidableEq, Repr

/-- PLANE record (Table 2.4). -/
structure PlaneRec where
  enable : Nat
  rows : Nat
  bits : Nat
  pitchKind : Nat
  pitch : Nat
  nW : Nat
  pp : Nat
  ppHalf : Nat
  dealKind : Nat
  deriving DecidableEq, Repr

/-- ROW record (Table 2.5). -/
structure RowRec where
  plane : Nat
  row : Nat
  heads : Nat
  offset : Nat
  deriving DecidableEq, Repr

/-- ENDPOINT record (Table 2.6). -/
structure EndpointRec where
  kind : Nat
  lanes : Nat
  number : Nat
  laneList : List Nat
  scanOffset : Nat
  scanPitch : Nat
  supplyMw : List Nat
  deriving DecidableEq, Repr

/-- HEAD record (Table 2.7). -/
structure HeadRec where
  head : Nat
  hub : Nat
  port : Nat
  plane : Nat
  row : Nat
  flags : Nat
  wale0 : Int
  nozzles : Nat
  nmap : Nat
  stitchR : Nat
  maxFire : Nat
  deriving DecidableEq, Repr

/-- DEAL record: plane and its row entries; the period T is the number of entries (R31). -/
structure DealRec where
  plane : Nat
  entries : List Nat
  deriving DecidableEq, Repr

/-- WG record (Table 2.8). -/
structure WgRec where
  wg : Nat
  head : Nat
  first : Nat
  count : Nat
  ac : Nat
  deriving DecidableEq, Repr

/-- AC record (Table 2.8). -/
structure AcRec where
  ac : Nat
  hub : Nat
  channel : Nat
  supply : Nat
  limitMw : Nat
  deriving DecidableEq, Repr

/-- HBM record (Table 2.9). -/
structure HbmRec where
  kind : Nat
  plane : Nat
  depth : Nat
  base : Nat
  size : Nat
  deriving DecidableEq, Repr

/-- AXIS record (Table 2.10). -/
structure AxisRec where
  kind : Nat
  index : Nat
  encoder : Nat
  flags : Nat
  sdA : Nat
  sdB : Nat
  deriving DecidableEq, Repr

/-- PIN record (R35, Table 26.4). -/
structure PinRec where
  gpio : Nat
  func : Nat
  pull : Nat
  flags : Nat
  deriving DecidableEq, Repr

/-- POWER record (Table 2.11). -/
structure PowerRec where
  capW : Nat
  marginW : Nat
  opDef : Nat
  opMax : Nat
  offMask : Nat
  deriving DecidableEq, Repr

/-- The tables of a structure body, as installed (R25 to R36). -/
structure StructTables where
  lanes : List LaneRec
  planes : List PlaneRec
  rows : List RowRec
  endpoints : List EndpointRec
  heads : List HeadRec
  nmaps : List (List Int)
  stitches : List (List Nat)
  deals : List DealRec
  wgs : List WgRec
  acs : List AcRec
  clusters : List Nat
  hbm : List HbmRec
  axes : List AxisRec
  pins : List PinRec
  power : PowerRec
  deriving DecidableEq, Repr

/-- STR_ERR (Table 2.16): the first refusal found in a body. -/
structure StrErr where
  record : Nat
  offset : Nat
  sect : Nat
  deriving DecidableEq, Repr

/-- An image in a flash slot: header, CRC table and body (R434). -/
structure Image where
  bytes : Bytes
  deriving DecidableEq, Repr

/-- An open transfer (R39, R437): class, total length, the bytes received, and the instant of its latest command. -/
structure Transfer where
  cls : Nat
  length : Nat
  data : Bytes
  lastAt : Nat
  deriving DecidableEq, Repr

/-- The structure loader and its three flash slots (Tables 2.14 to 2.16). -/
structure StrSt where
  tables : Option StructTables
  active : Option Image
  prev : Option Image
  staged : Option Image
  load : Option Transfer
  err : StrErr
  deriving DecidableEq, Repr

/-! ## Modes, holds, resets (chapter 03) -/

/-- The six modes (Table 0.2). -/
inductive Mode where
  | boot | configure | standby | service | print | recovery
  deriving DecidableEq, Repr

/-- Service functions that may run in SERVICE: a calibration run and a march (R45, R56). -/
structure WarmPending where
  deadline : Nat
  deriving DecidableEq, Repr

/-- An activation in progress (Table 2.13): the slot, and the instant of step 1. -/
structure Activation where
  slot : Nat
  since : Nat
  byModeSet : Bool
  deriving DecidableEq, Repr

/-- The DEV block (Tables 3.10 to 3.13) and the control pins it reads. -/
structure Dev where
  mode : Mode
  stage : Nat
  fwiSlot : Nat
  reason : Nat
  detail : Nat
  failed : Nat
  hold : Bool
  holdClass : Nat
  holdCause : BitVec 8
  /-- Instant of the latest hold entry, from which T_STOP counts (R221). -/
  holdAt : Nat
  /-- Instant at which the latest hold ended (R272). -/
  holdEndAt : Option Nat
  rstN : Bool
  holdN : Bool
  fireEn : Bool
  activating : Option Activation
  warmPending : Option WarmPending
  watchdogAt : Option Nat
  standbyReached : Bool
  /-- Instant at which STANDBY was first entered after start-up (R272). -/
  standbyAt : Nat
  /-- Functions that FUNC_REINIT left disabled until the next warm start (R62): code and instance. -/
  disabled : List (Nat × Nat)
  deriving DecidableEq, Repr

/-! ## Rings (chapter 04) -/

/-- A completion (Table 4.2). -/
structure Completion where
  tag : Nat
  status : Nat
  result : Nat
  noIrq : Bool
  deriving DecidableEq, Repr

/-- The descriptor a ring is running: opcode, tag, NO_IRQ. -/
structure Running where
  opcode : Nat
  tag : Nat
  noIrq : Bool
  since : Nat
  deriving DecidableEq, Repr

/-- One command ring (Tables 4.3 to 4.5). The base registers, RING_CFG.VECTOR, LOG2_SIZE and the W1C bits of
RING_STATUS are register words in `State.regs`. -/
structure Ring where
  enable : Bool
  sqTail : Nat
  sqHead : Nat
  cqHead : Nat
  cqTail : Nat
  phase : Bool
  running : Option Running
  /-- A completion that waits for room in the completion queue (R68). -/
  stalled : Option Completion
  /-- ENABLE was cleared while a command ran: the ring stops when it completes (R70). -/
  stopping : Bool
  /-- An endpoint reset found a command in flight: it completes without its completion being written (R495). -/
  mute : Bool
  deriving DecidableEq, Repr

/-! ## Events, logs and semaphores (chapter 24) -/

/-- Classes of Table 24.1. -/
inductive LogClass where
  | alarm | audit | item | diag | trace
  deriving DecidableEq, Repr

/-- Outcome record payload (Table 4.14). -/
structure OutcomeRec where
  seq : Nat
  rpt : Nat
  ctx : Nat
  lane : Nat
  outcome : Nat
  planes : BitVec 8
  codes : BitVec 16
  time : Nat
  deriving DecidableEq, Repr

/-- Audit records of the sealed partition (Table 21.5). -/
inductive AuditRec where
  /-- Transaction record; `result` is 0 legal OK, 1 SEALED_MISMATCH, 2 UNVERIFIED, 3 VOID, 4 test. -/
  | transaction (anum seq ctx channel result wseq : Nat) (net : Int) (article unit total events outcome : Nat)
  /-- Event record: RTC, KIND, the counter after the event, and DATA. -/
  | event (anum rtc kind events : Nat) (data : List Int)
  deriving DecidableEq, Repr

/-- Payload of a log record by class (R449). -/
inductive Payload where
  | args (a0 a1 a2 : BitVec 64) (rep : Nat)
  | outcome (o : OutcomeRec)
  | audit (a : AuditRec)
  | summary (dropped topCode topCount first last : Nat)
  deriving DecidableEq, Repr

/-- One record (Table 24.1); LEN follows from the payload. -/
structure LogRec where
  cls : LogClass
  held : Bool
  reissue : Bool
  code : Nat
  inst : Nat
  lseq : Nat
  time : Nat
  payload : Payload
  deriving DecidableEq, Repr

/-- One entry of the item backlog (R453): reserved at binding, filled when the outcome is final, admitted when its
record is in the log ring. -/
inductive BackState where
  | reserved
  | final (o : OutcomeRec) (since : Nat) (held : Bool)
  | admitted (o : OutcomeRec) (lseq : Nat)
  deriving DecidableEq, Repr

/-- A backlog entry names its item by context and sequence number (R20). -/
structure BackEntry where
  ctx : Nat
  seq : Nat
  st : BackState
  deriving DecidableEq, Repr

/-- What a dropping class keeps for its next SUMMARY (R452). -/
structure DropState where
  dropped : Nat
  codes : List (Nat × Nat)
  first : Nat
  last : Nat
  lastSummary : Nat
  dropping : Bool
  deriving DecidableEq, Repr

/-- The log and event path (R449 to R458). -/
structure LogState where
  /-- Records in the log ring that the drain has not yet moved, in LSEQ order. -/
  ring : List LogRec
  /-- Records moved to the host ring and not yet passed by LOG_HOST_RD, with the running offset of their end. -/
  host : List (LogRec × Nat)
  nextLseq : Nat
  /-- The alarm table: alarm records waiting for admission (R451). -/
  waitAlarms : List LogRec
  waitSummaries : List LogRec
  waitAudit : List LogRec
  backlog : List BackEntry
  backlogFull : Bool
  drops : DropState
  traceDrops : DropState
  diagMs : Nat
  diagCount : List (Nat × Nat × Nat)
  en : Bool
  /-- Running offsets since EN was set; the register LOG_HOST_WR is `wr` mod the ring size. -/
  wr : Nat
  rd : Nat
  /-- A failed read-back: how many records wait to be written again, and when (R455). -/
  retry : Option (Nat × Nat)
  /-- Records since the last raise of the log vector, and when the first of them arrived (R458). -/
  coalCount : Nat
  coalFirst : Option Nat
  deriving DecidableEq, Repr

/-- Semaphore states (Table 24.10). -/
inductive SemSt where
  | free | owned | broken
  deriving DecidableEq, Repr

/-- One semaphore (R459, R460). -/
structure Sem where
  st : SemSt
  code : Byte
  func : Byte
  inst : Byte
  tag : Byte
  deriving DecidableEq, Repr

/-! ## Job packages, records and items (chapters 04 to 07) -/

/-- GROUND record (Table 5.2). -/
structure GroundRec where
  plane : Nat
  rowBytes : Nat
  lanes : Nat
  gw : Nat
  gh : Nat
  ox : Int
  oy : Int
  data : Bytes
  deriving DecidableEq, Repr

/-- FIELD record (Table 5.3). -/
structure FieldRec where
  type : Nat
  fflags : Nat
  layer : Nat
  rot : Nat
  planes : Nat
  ko : Nat
  source : Nat
  lanes : Nat
  ax : Int
  ay : Int
  boxW : Nat
  boxH : Nat
  tone : List Nat
  res : Nat
  align : Nat
  param : Bytes
  deriving DecidableEq, Repr

/-- One glyph of an ATLAS record (Table 5.6). -/
structure Glyph where
  cp : Nat
  off : Nat
  w : Nat
  h : Nat
  bx : Int
  bY : Int
  adv : Nat
  deriving DecidableEq, Repr

/-- ATLAS record. -/
structure AtlasRec where
  atlas : Nat
  dflt : Nat
  glyphs : List Glyph
  data : Bytes
  deriving DecidableEq, Repr

/-- IMAGE record (Table 5.7). -/
structure ImageRec where
  image : Nat
  planes : Nat
  scale : Nat
  w : Nat
  h : Nat
  data : Bytes
  deriving DecidableEq, Repr

/-- COUNTER record (Table 6.5). -/
structure CounterRec where
  counter : Nat
  scope : Nat
  radix : Nat
  width : Nat
  stp : Nat
  start : Nat
  limit : Nat
  cflags : Nat
  deriving DecidableEq, Repr

/-- Generator segment (Table 6.6). -/
structure GenSeg where
  kind : Nat
  arg : Nat
  len : Nat
  arg2 : Nat
  deriving DecidableEq, Repr

/-- GENERATOR record. -/
structure GenRec where
  gen : Nat
  segs : List GenSeg
  pool : Bytes
  deriving DecidableEq, Repr

/-- MAC record (Table 6.7). -/
structure MacRec where
  mac : Nat
  alg : Nat
  slot : Nat
  tlen : Nat
  gen : Nat
  deriving DecidableEq, Repr

/-- SCREEN record (Table 7.1); `cells` holds the thresholds row by row, seven a cell. -/
structure ScreenRec where
  plane : Nat
  method : Nat
  mask : Nat
  shift : Nat
  levelMap : List Nat
  recon : List Nat
  kernel : List Nat
  tw : Nat
  th : Nat
  tx : Nat
  ty : Nat
  cells : List (List Nat)
  deriving DecidableEq, Repr

/-- Lane entry of the job header (Table 4.8). -/
structure JobLane where
  lane : Nat
  width : Nat
  origin : Nat
  deriving DecidableEq, Repr

/-- APPEAR record (Table 12.1). -/
structure AppearRec where
  axis : List Nat
  chan : List Nat
  nodes : Bytes
  deriving DecidableEq, Repr

/-- A loaded job package (Tables 4.8, 5.1, 6.1, 7.1). -/
structure Package where
  planes : Nat
  policy : Nat
  gaugeKind : Nat
  gauge : Nat
  rpt : Nat
  height : Nat
  firstSeq : Nat
  maxRecord : Nat
  lanes : List JobLane
  grounds : List GroundRec
  fields : List FieldRec
  atlases : List AtlasRec
  images : List ImageRec
  counters : List CounterRec
  gens : List GenRec
  macs : List MacRec
  screens : List ScreenRec
  appear : Option AppearRec
  deriving DecidableEq, Repr

/-- One record of a batch (Table 4.12): its values as (field index, data). -/
structure Record where
  seq : Nat
  skip : Bool
  values : List (Nat × Bytes)
  deriving DecidableEq, Repr

/-- What binding has made of a field (R129): how it covers its frame. -/
inductive Rendered where
  /-- Laid-out text: code points, for atlas glyphs. -/
  | text (cps : List Nat)
  /-- A module matrix, rows of dark flags, with the quiet zone it is offset by (R118). -/
  | matrix (rows : List (List Bool)) (quiet : Nat)
  /-- A dot grid's content bytes (R119). -/
  | dots (content : Bytes)
  /-- An image of the package. -/
  | image (n : Nat)
  /-- A sealed patch: rows of output levels (chapter 21). -/
  | sealedPatch (rows : List (List Nat))
  deriving DecidableEq, Repr

/-- The sealed binding of an item (R408): channel, weighing, article, price and total; `test` in UNSEALED and BROKEN, `mismatch` after a failed comparison (R412, R242). -/
structure SealedBind where
  channel : Nat
  wseq : Nat
  net : Int
  tare : Int
  article : Nat
  unit : Nat
  total : Nat
  test : Bool
  mismatch : Bool
  unverified : Bool
  /-- Sealed fields some of whose levels the pipeline has written differently (R412). -/
  digestBad : List Nat
  deriving DecidableEq, Repr

/-- A bound item, until its outcome is final (R87, R109). -/
structure Item where
  seq : Nat
  rpt : Nat
  slotNo : Nat
  lane : Nat
  skip : Bool
  values : List (Nat × Rendered)
  codes : BitVec 16
  planes : BitVec 8
  anyFired : Bool
  verdict : Option Nat
  deadline : Option Nat
  /-- When this device's own result became final, while the authority waits for PARTIALs (R366). -/
  ownFinal : Option Nat
  /-- The record that BIND names is not held: nothing of the item is composed (R365). -/
  lacking : Bool
  sealedBind : Option SealedBind
  outcome : Option OutcomeRec
  deriving DecidableEq, Repr

/-- Job states (Table 4.6). -/
inductive JobSt where
  | free | opened | loaded | armed | printing | draining | closed
  deriving DecidableEq, Repr

/-- A slice that has been dealt (R107): plane, slice number, its cluster (none when it waits to be dealt again), instant,
and whether it is complete. -/
structure Slice where
  plane : Nat
  idx : Nat
  cluster : Option Nat
  dealtAt : Nat
  complete : Bool
  deriving DecidableEq, Repr

/-- Progress of one job on one plane. -/
structure JobPlane where
  /-- Plane position of course 0, once the master has reached cast-on (R76). -/
  castOn : Option Int
  /-- Next slice to deal, next course to screen, next course to take. -/
  nextSlice : Nat
  screened : Nat
  taken : Nat
  edCur : List Int
  /-- The error-diffusion state after the last course taken (R371). -/
  edTaken : List Int
  /-- Courses whose targets the unlocked master has passed before they were complete (R171). -/
  passed : List Nat
  deriving DecidableEq, Repr

/-- One job context (R72 to R85, Tables 4.17, 4.18). -/
structure Job where
  st : JobSt
  jobId : Nat
  held : Bytes
  pkg : Option Package
  castOn : Int
  queue : List Record
  nextSeq : Nat
  nextSlot : Nat
  laneBound : List (Nat × Nat)
  items : List Item
  slices : List Slice
  planes : Vector JobPlane 8
  castOff : Option Nat
  lastQueued : Bool
  okCount : Nat
  defectCount : Nat
  voidCount : Nat
  finalSeq : Option Nat
  /-- Outcomes of records that never bound, waiting for a backlog entry (R453). -/
  entryWait : List OutcomeRec
  armSpeed : Nat
  armPos : Int
  /-- Bindings of a span that wait for the binder's decision (R365): (lane index, repeat, sequence or blank). -/
  bindings : List (Nat × Nat × Option Nat)
  /-- The slot for which the latest BIND_REQ was sent: lane index and repeat (R365). -/
  asked : Option (Nat × Nat)
  /-- Repeat of the item bound latest. -/
  lastRpt : Nat
  nvmeWait : Option Nat
  deriving DecidableEq, Repr

/-! ## Composition and code engines (chapters 05, 06) -/

/-- A sample window of 16 ms: quantities with their instants, and master positions sampled each update. -/
structure Window where
  events : List (Nat × Nat)
  pos : List (Nat × Int)
  deriving DecidableEq, Repr

/-- Power state of a cluster (R314). -/
inductive CcPower where
  | off | rising | on
  deriving DecidableEq, Repr

/-- One composition cluster (Tables 5.9, 16.6). -/
structure Cluster where
  power : CcPower
  op : Nat
  opNext : Option Nat
  excl : Bool
  /-- Plane, slice number and context of the slice it composes. -/
  slice : Option (Nat × Nat × Nat)
  dealtAt : Nat
  /-- In the cluster plan (FUNDED). -/
  granted : Bool
  /-- Since when it has been powering up, or free to change its operating point. -/
  since : Nat
  /-- Estimated power, mW. -/
  mw : Nat
  deriving DecidableEq, Repr

/-- Composition-supported speed and its windows (R112, R113). -/
structure Cmp where
  vcomp : Nat
  /-- v_comp before the limit of R113. -/
  vbase : Nat
  /-- The latest D of a window with 1 mm of web: cycles, and nm (R112); CMP_DEMAND shows it. -/
  demand : Option (Nat × Nat)
  fragRate : Nat
  bindRate : Nat
  runwayLow : Bool
  cycles : Window
  frags : Window
  binds : Window
  deriving DecidableEq, Repr

/-- An open request to a symbol encoder or the authentication engine (R131). -/
structure EngineReq where
  engine : Nat
  ctx : Nat
  seq : Nat
  field : Nat
  since : Nat
  retried : Bool
  deriving DecidableEq, Repr

/-- One key slot (R126 to R128); the key itself follows from kind, context, label and the MAC root. -/
structure KeySlot where
  valid : Bool
  kind : Nat
  context : Nat
  label : Bytes
  check : Nat
  deriving DecidableEq, Repr

/-- The code engines (Tables 6.10, 6.11). -/
structure Cod where
  excl : BitVec 5
  requests : List EngineReq
  vcode : Nat
  symRate : Nat
  tagRate : Nat
  syms : Window
  tags : Window
  lastFail : Nat × Nat × Nat
  slots : Vector KeySlot 32
  /-- The key-slot table in boot flash: slot, kind, context, label (R128). -/
  table : List (Nat × Nat × Nat × Bytes)
  deriving DecidableEq, Repr

/-! ## Screening and nozzle mapping (chapters 07, 08) -/

/-- One wale of a screened course: its output level, its printing row, and the nozzle that prints it. -/
structure WaleOut where
  level : Nat
  row : Nat
  nozzle : Option (Nat × Nat)
  deriving DecidableEq, Repr

/-- A screened course in the runway, with the generation it was screened under (R148, R165). -/
structure RunwayCourse where
  ctx : Nat
  course : Nat
  gen : Nat
  cells : List WaleOut
  /-- The error-diffusion state after it, from which a dummy screens again (R371). -/
  ed : List Int
  deriving DecidableEq, Repr

/-- Darning methods (R157). -/
inductive Method where
  | plain | redeal | takeover | none
  deriving DecidableEq, Repr

/-- An entry on its way to the health map (R163); `host` tells the host's entries from inspection's. -/
structure MapEntry where
  head : Nat
  nozzle : Nat
  code : Nat
  host : Bool
  deriving DecidableEq, Repr

/-- A generation resident on a plane (R164): its number, and the health codes and methods under it. -/
structure Generation where
  number : Nat
  health : List (Nat × Nat × Nat)
  methods : List (Nat × Method × List Nat)
  deriving DecidableEq, Repr

/-- One plane's pipeline, runway and map generation. -/
structure PlaneSt where
  runway : List RunwayCourse
  gens : List Generation
  genNo : Nat
  /-- Courses screened since the last install that counts (R164); none before any. -/
  sinceInstall : Option Nat
  /-- Health codes other than HEALTHY in the latest generation: (head, nozzle, code). -/
  health : List (Nat × Nat × Nat)
  /-- Methods decided at installs for the wales they touched, with S(w) (R157, R164). -/
  methods : List (Nat × Method × List Nat)
  /-- NZM_MIN_RATE, NZM_TAKEOVER and NZM_VOL as they stood at the latest install (R166). -/
  minRate : Nat
  takeover : Word
  vol : List Nat
  /-- NZM_MIN_RATE, NZM_TAKEOVER or NZM_VOL has changed since the latest install, and COMMIT has forced a generation
  for it (R166). -/
  cfgChanged : Bool
  forced : Bool
  /-- Undarned nozzles already reported in this generation (R162). -/
  undarned : List (Nat × Nat × Nat)
  screenCtx : Option Nat
  /-- The course before was skipped, so error diffusion restarts (R144). -/
  skipNext : Bool
  /-- The running underrun: context, first and last course (R247). -/
  run : Option (Nat × Nat × Nat)
  deriving DecidableEq, Repr

/-- Map staging and the pending list (R163). -/
structure Nzm where
  staging : List MapEntry
  pend : List MapEntry
  busy : Bool
  vfire : Nat
  rateUnknown : Bool
  deriving DecidableEq, Repr

/-! ## Pacing (chapter 09) -/

/-- A tracking estimator (R169, R170). -/
structure Est where
  p : Int
  v : Int
  z : Int
  t8 : Nat
  /-- Edges since start, zero, stop or loss of lock, saturating at 2. -/
  edges : Nat
  lockCnt : Nat
  locked : Bool
  down : Bool
  zeroCount : Int
  /-- Position at the zero count, 2^-16 nm. -/
  base : Int
  deriving DecidableEq, Repr

/-- One plane's electronic gear (R173, R174); positions in 2^-16 nm, entry positions in nm. -/
structure Gear where
  ratio : Nat
  mseg : Int
  pseg : Int
  pend : List (Int × Nat)
  /-- Earlier segments, latest first: Mseg, Pseg and ratio. -/
  past : List (Int × Int × Nat)
  deriving DecidableEq, Repr

/-- An armed handover (R183). -/
structure Handover where
  src : Word
  pos : Int
  delta : Int
  deriving DecidableEq, Repr

/-- One waveform play of a fire slot on an amplifier channel (R196, R197). -/
structure Play where
  ac : Nat
  wg : Nat
  head : Nat
  table : Nat
  scale : Nat
  start : Nat
  len8 : Nat
  slip8 : Nat
  silent : Bool
  merged : Bool
  deriving DecidableEq, Repr

/-- States of a fire slot: waiting for its instant, sent, missed. -/
inductive SlotSt where
  | waiting | sent | fired | missed
  deriving DecidableEq, Repr

/-- A scheduled fire slot (R149, R178 to R181). -/
structure FireSlot where
  plane : Nat
  row : Nat
  ctx : Nat
  course : Nat
  /-- The generation under which its course was screened. -/
  gen : Nat
  st : SlotSt
  /-- Its slot number on each hub (chapter 11). -/
  num : List (Nat × Nat)
  instants : List (Nat × Nat)
  latched : Bool
  /-- How far latching has moved the instants (R180). -/
  shift : Nat
  late : Bool
  plays : List Play
  wales : List WaleOut
  /-- Hubs that have not yet confirmed the slot (R222). -/
  unconfirmed : List Nat
  deriving DecidableEq, Repr

/-- The pacer (Tables 9.4, 9.5). -/
structure Pac where
  est : Est
  cand : Est
  zeroPend : Bool
  gears : Vector Gear 8
  handover : Option Handover
  highest : Int
  slots : List FireSlot
  /-- Counted edges still to pass before a zero that follows an index edge (R428). -/
  zeroAfter : Option Nat
  deriving DecidableEq, Repr

/-! ## Waveforms (chapter 10) -/

/-- One waveform group's slots and scales (Tables 10.3). -/
structure WgSt where
  slots : List Word
  active : Nat
  gain : Nat
  target : Nat
  scale : Nat
  started : Bool
  deriving DecidableEq, Repr

/-- Identity fields the engine uses (R193). -/
structure HeadIdent where
  rank : Nat
  tRef : Int
  k1 : Int
  k2 : Int
  tMax : Int
  maxFire : Nat
  deriving DecidableEq, Repr

/-- One head's identity and temperature (R195). -/
structure HeadSt where
  ident : Option HeadIdent
  temp : Option Int
  tempAt : Nat
  stale : Bool
  lost : Bool
  hot : Bool
  deriving DecidableEq, Repr

/-- The waveform and energy engine. -/
structure Wav where
  pool : List (Nat × List Word)
  wgs : List (Nat × WgSt)
  heads : List (Nat × HeadSt)
  /-- Hubs that have not acknowledged the latest table or active-slot change: hub, instant of sending, and how many WAVE
  and WGMAP frames up to its last are unacknowledged (R190). -/
  tblBusy : List (Nat × Nat × Nat)
  wgBusy : List (Nat × Nat × Nat)
  venergy : Nat
  vheat : Nat
  limiter : Nat × Nat
  peakLim : Bool
  scaleClamp : Bool
  hotEpisode : Bool
  /-- Energy drawn: (instant, AC, energy in 2^-24 nJ), latest first. -/
  energy : List (Nat × Nat × Nat)
  pos : List (Nat × Int)
  /-- Latest mean powers, mW, of ACs and supplies with their OVER bits. -/
  acPower : List (Nat × Nat × Bool)
  supPower : List (Nat × Nat × Bool)
  deriving DecidableEq, Repr

/-! ## What leaves the block -/

/-- Frames sent to Mamen endpoints (Table 11.2), as far as their content follows from the spec. -/
inductive MlkTx where
  /-- LINKCFG with its RESULT and LANE. -/
  | linkcfg (result lane : Nat)
  | ack (seq : Nat)
  | sync (n t1 : Nat)
  | follow (n : Nat) (a : Int) (t4 : Nat)
  | hubmode (armed : Bool)
  | wave (table : Nat) (words : List Word)
  /-- WGMAP: the CLEAR flag, and for each entry the WG and its table in force (0xFFFF none); the other fields of an entry
  follow from the structure. -/
  | wgmap (clear : Bool) (entries : List (Nat × Nat))
  | course (slot port : Nat) (levels : List Nat)
  | fire (slot : Nat) (instants : List (Nat × Nat)) (plays : List Play)
  | correct (slot : Nat) (instants : List (Nat × Nat)) (plays : List Play)
  | cancel (slot : Nat)
  | stop (tStop : Nat)
  | keepalive
  | takeover (epoch : Nat)
  | relinquish (lastSlot : Nat)
  | posref (t8 : Nat) (p v : Int)
  deriving DecidableEq, Repr

/-- Frames sent over the fabric (Table 19.2). -/
inductive XlkTx where
  | hello (h : XlkHello)
  | assign (unitId addr topoGen : Nat)
  | linkstate (topoGen : Nat) (entries : List LinkEntry)
  | rescan (topoGen : Nat)
  | sync (n t1 : Nat)
  | syncResp (n h2 h3 : Nat)
  | syncFollow (n t4 : Nat)
  | position (f : PositionFrame)
  | peerState (vallow role : Nat) (masks : List Nat)
  | bind (ctx laneIdx rpt : Nat) (entries : List BindEntry)
  | bindReq (ctx laneIdx rpt : Nat)
  | rcheck (ctx : Nat) (package : Bool) (count firstSeq crc : Nat)
  | partials (ctx seq planes codes : Nat)
  | heartbeat (hb : Heartbeat)
  | compare (digests : List Nat)
  | mirror (f : MirrorFrame)
  | swap (x : Int) (epoch : Nat) (step : SwapStep)
  | bulk (src hops bytes : Nat)
  deriving DecidableEq, Repr

/-- Everything that leaves the block during one command. -/
inductive Out where
  | completion (ring : RingId) (entry tag status : Nat) (phase : Bool) (sqHead result : Nat)
  | msix (vector : Nat)
  | hostRecord (offset : Nat) (phase : Bool) (r : LogRec)
  | hostPad (offset len : Nat)
  | hostWrite (addr : Nat) (data : Bytes)
  /-- The value that a read with an effect on the register returns. -/
  | readValue (addr : Nat) (value : Word)
  | mlk (lane : Nat) (f : MlkTx)
  | hub (hub : Nat) (f : MlkTx)
  /-- A fabric frame, on a lane of the port it leaves by (R354). -/
  | xlk (lane dst : Nat) (f : XlkTx)
  /-- POLL on a MET_UART port: instrument address and ACK (Table 21.2). -/
  | metSerial (port addr ack : Nat)
  | dmaPulse (pin : Nat)
  | i2c (port addr wlen rlen : Nat)
  /-- REPLY of the boot ROM on UART0 (R447), with its STATUS. -/
  | uartReply (status : Nat)
  deriving DecidableEq, Repr

/-! ## The Mamen link (chapter 11) -/

/-- Lane states (Table 11.6). -/
inductive LaneSt where
  | down | train | hello | config | sync | ready
  deriving DecidableEq, Repr

/-- A reliable frame that awaits its acknowledgement (R214). -/
structure RelFrame where
  seq : Nat
  frame : MlkTx
  sentAt : Nat
  tries : Nat
  deriving DecidableEq, Repr

/-- A COURSE frame that was sent on a lane, for NAK (R215): its CSEQ and the slot it serves. -/
structure CourseSent where
  cseq : Nat
  hub : Nat
  slot : Nat
  port : Nat
  deriving DecidableEq, Repr

/-- One time exchange in progress (R217). -/
structure Exchange where
  n : Nat
  t1 : Nat
  deriving DecidableEq, Repr

/-- One Mamen lane. -/
structure Lane where
  st : LaneSt
  since : Nat
  mismatch : Bool
  relNext : Nat
  relOut : List RelFrame
  /-- Frames that wait while 64 are unacknowledged (R214). -/
  relWait : List MlkTx
  upNext : Nat
  cseqNext : Nat
  courses : List CourseSent
  exchange : Option Exchange
  syncN : Nat
  rtt : Nat
  deriving DecidableEq, Repr

/-- One endpoint: hub 0 to 47, bridge 48 to 63. -/
structure Endpoint where
  accEpoch : Nat
  armed : Bool
  synced : Bool
  uid : Nat
  bufFree : Nat
  bufSlots : Nat
  present : Nat
  mono : Bool
  missingRaised : Bool
  /-- Causes and ports of SLOT_FAULT frames that arrived before the report. -/
  faults : List (Nat × Nat × Word)
  /-- Next slot number (chapter 11). -/
  nextSlot : Nat
  takeoverAt : Option Nat
  deriving DecidableEq, Repr

/-- The link as a whole. -/
structure Mlk where
  holds : Bool
  epoch : Nat
  vlane : Nat
  lanes : Vector Lane 64
  eps : Vector Endpoint 64
  octets : List (Nat × Nat × Nat)
  pos : List (Nat × Int)
  activatedAt : Nat
  deriving DecidableEq, Repr

/-- A lane after reset. -/
def Lane.reset : Lane :=
  { st := .down, since := 0, mismatch := false, relNext := 0, relOut := [], relWait := [], upNext := 0, cseqNext := 0, courses := [],
    exchange := none, syncN := 0, rtt := 0 }

/-- An endpoint after reset. -/
def Endpoint.reset : Endpoint :=
  { accEpoch := 0xFFFF, armed := false, synced := false, uid := 0, bufFree := 0, bufSlots := 0,
    present := 0, mono := false, missingRaised := false, faults := [],
    nextSlot := 0, takeoverAt := none }

/-- The link after reset. -/
def Mlk.reset : Mlk :=
  { holds := false, epoch := 0xFFFF, vlane := 10000000, lanes := Vector.replicate 64 .reset,
    eps := Vector.replicate 64 .reset, octets := [], pos := [], activatedAt := 0 }

/-! ## Inspection and pace (chapters 12 and 13) -/

/-- Counters of one nozzle (R235 to R237): plane, head, nozzle. -/
structure NozCount where
  plane : Nat
  head : Nat
  nozzle : Nat
  ink : Nat
  defs : Nat
  suspect : Bool
  conf : Nat
  deriving DecidableEq, Repr

/-- A course in the inspection ring of a plane (R230), with the nozzles that printed it. -/
structure BufCourse where
  plane : Nat
  ctx : Nat
  course : Nat
  /-- c_k and c_(k+1), nm. -/
  pos : Int
  next : Int
  gen : Nat
  cells : List WaleOut
  underrun : Bool
  /-- Rows whose slot was missed, and nozzles left out for a conflict or an unconfirmed slot (R235). -/
  missedRows : List Nat
  deadNoz : List (Nat × Nat)
  deriving DecidableEq, Repr

/-- A scan line being gathered from SCAN_LINE frames (R226). -/
structure ScanLine where
  line : Nat
  firstAt : Nat
  width : Nat
  rgb : Bool
  t8 : Nat
  pos : Int
  ready : Bool
  pixels : List (Nat × Nat × Nat × Nat)
  deriving DecidableEq, Repr

/-- Verdict progress of one item of one job (R240): pixel-lines that are defects, planes of the defects, samples
(plane, wale, course) that available pixel-lines cover, and E and M of each sealed field's pixel-lines. -/
structure VerdictAcc where
  ctx : Nat
  seq : Nat
  defects : Nat
  planes : BitVec 8
  covered : List (Nat × Nat × Nat)
  sealedSamples : List (Nat × Nat × Nat)
  deriving DecidableEq, Repr

/-- One bridge's line store. -/
structure Bridge where
  gathering : Option ScanLine
  store : List ScanLine
  /-- The latest lines analysed, which give the neighbourhood of R234: position and pixels. -/
  recent : List ScanLine
  highest : Option Int
  mono : Bool
  active : Bool
  deriving DecidableEq, Repr

/-- The inspection block. -/
structure Ins where
  counts : List NozCount
  buf : List BufCourse
  bufSize : List Nat
  bridges : Vector Bridge 16
  verdicts : List VerdictAcc
  /-- Pixels for which INS_AMBIGUOUS was raised in the present generation: plane, pixel, generation. -/
  ambig : List (Nat × Nat × Nat)
  /-- Wales whose earlier generations no longer count (R238): plane, wale, first generation that counts. -/
  cutoff : List (Nat × Nat × Nat)
  vinsp : Nat
  backlog : Bool
  cycles : List (Nat × Nat)
  pos : List (Nat × Int)
  /-- The latest Y and M of R243 of a window with 1 mm of web: cycles, and nm. -/
  di : Option (Nat × Nat)
  /-- DEAD_SCAN entries that wait for room on the pending list (R163). -/
  held : List MapEntry
  deriving DecidableEq, Repr

/-- The governor (Table 13.6). -/
structure Gov where
  vallow : Nat
  vgov : Nat
  vpeer : Nat
  limiter : Nat
  floor : Bool
  overspeed : Bool
  driving : Bool
  /-- Since when v_allow has been at or above the band (R253). -/
  upSince : Option Nat
  /-- Since when the master has been above, or at or below, the overrun limit (R251). -/
  overSince : Option Nat
  underSince : Option Nat
  graceUntil : Option Nat
  /-- Peers: device address, v_allow, instant, and whether the silence was raised. -/
  peers : List (Nat × Nat × Nat)
  duty : Nat
  deriving DecidableEq, Repr

/-- A bridge with nothing scanned. -/
def Bridge.reset : Bridge :=
  { gathering := none, store := [], recent := [], highest := none, mono := false, active := false }

/-- Inspection after reset. -/
def Ins.reset : Ins :=
  { counts := [], buf := [], bufSize := [0, 0, 0, 0, 0, 0, 0, 0], bridges := Vector.replicate 16 .reset, verdicts := [],
    ambig := [], cutoff := [], vinsp := 10000000, backlog := false, cycles := [], pos := [], di := none, held := [] }

/-- The governor after reset. -/
def Gov.reset : Gov :=
  { vallow := 10000000, vgov := 10000000, vpeer := 10000000, limiter := 9, floor := false, overspeed := false,
    driving := false, upSince := none, overSince := none, underSince := none, graceUntil := none, peers := [], duty := 0 }

/-! ## Brushless axes (chapter 14) -/

/-- Axis states (Table 14.2). -/
inductive BaState where
  | off | magnetise | run | homing | stopping | shorted | fault
  deriving DecidableEq, Repr

/-- Actions of a fault (R275). -/
inductive FaultAct where
  | none | opens | brake | stop
  deriving DecidableEq, Repr

/-- A homing run of a brushless axis (R273). -/
structure BaHome where
  speed : Int
  deadline : Nat
  found : Option Int
  deriving DecidableEq, Repr

/-- One brushless axis. Leg states are bits 0 to 2 for a, b, c. -/
structure Ba where
  st : BaState
  en : Bool
  fault : Nat
  act : FaultAct
  /-- STOPPING at the current limit (class BRAKE). -/
  brake : Bool
  govLimit : Bool
  psiA : Int
  psiB : Int
  dpsi : Bool
  dt : Int
  te : Int
  tref : Int
  legs : BitVec 3
  legsPrev : BitVec 3
  ia : Int
  ib : Int
  sector : Nat
  r : Int
  integ : Int
  speed : Int
  observerSpeed : Bool
  /-- Flux angle unwrapped over the last millisecond (R268). -/
  angles : List (Nat × Int)
  home : Option BaHome
  magAt : Option Nat
  lockAt : Option Nat
  overAt : Option Nat
  errAt : Option Nat
  busAt : Option Nat
  /-- BAn_FLT_N is low. -/
  driverLow : Bool
  deriving DecidableEq, Repr

/-- One sigma-delta channel (R261, R262). -/
structure Sd where
  value : Int
  ovr : Bool
  outputs : Nat
  badLeft : Nat
  lastValid : Int
  hadValid : Bool
  ovrAt : Option Nat
  deriving DecidableEq, Repr

/-- An axis that is OFF. -/
def Ba.reset : Ba :=
  { st := .off, en := false, fault := 0, act := .none, brake := false, govLimit := false, psiA := 0, psiB := 0,
    dpsi := false, dt := 0, te := 0, tref := 0, legs := 0, legsPrev := 0, ia := 0, ib := 0, sector := 0, r := 0,
    integ := 0, speed := 0, observerSpeed := false, angles := [], home := none, magAt := none, lockAt := none,
    overAt := none, errAt := none, busAt := none, driverLow := false }

/-- A channel that has produced no output. -/
def Sd.reset : Sd :=
  { value := 0, ovr := false, outputs := 0, badLeft := 0, lastValid := 0, hadValid := false, ovrAt := none }

/-! ## Stepper axes and encoders (chapter 15) -/

/-- A segment of a plan: duration in µs, start and end positions in 2^-16 microstep, start and end velocities. -/
structure Seg where
  n : Nat
  p0 : Int
  v0 : Int
  p1 : Int
  v1 : Int
  deriving DecidableEq, Repr

/-- A plan: its segments left, the update within the first of them, the number of that segment, and the velocity at
which the axis goes on after the last. -/
structure Plan where
  segs : List Seg
  j : Nat
  seg : Nat
  cruise : Int
  base : Int
  deriving DecidableEq, Repr

/-- A committed write that waits for its update boundary (R285). -/
inductive StpReq where
  | target (t : Int)
  | vset
  | profile (segs : List (Nat × Int × Int))
  | gear
  | mode
  deriving DecidableEq, Repr

/-- Gear following (R289). -/
structure StpGear where
  pseg : Int
  cseg : Int
  deriving DecidableEq, Repr

/-- A homing run of a stepper (R295). -/
structure StpHome where
  vel : Int
  deadline : Nat
  homePos : Int
  backoff : Int
  ihome : Nat
  backing : Bool
  count : Int
  deriving DecidableEq, Repr

/-- Phases of a chopper (R282). -/
inductive ChopSt where
  | off | drive | slow | fast
  deriving DecidableEq, Repr

/-- One phase's chopper: its state, since when, the DAC value and sign it took, and drive phases ended at 100 µs. -/
structure Chop where
  st : ChopSt
  since : Nat
  dac : Nat
  plus : Bool
  full : Nat
  deriving DecidableEq, Repr

/-- One stepper axis. -/
structure Stp where
  en : Bool
  power : Bool
  fault : Nat
  posUnsure : Bool
  p : Int
  f : Nat
  e : Nat
  v : Int
  updatedAt : Nat
  holdCur : Bool
  zeroSince : Option Nat
  reqs : List (Nat × StpReq)
  plan : Option Plan
  halting : Bool
  gear : Option StpGear
  gearNow : Int
  gearPend : List (Int × Int)
  govLimit : Bool
  clamps : Nat
  c0 : Int
  p0 : Int
  dev : Int
  home : Option StpHome
  chopA : Chop
  chopB : Chop
  /-- SAn_FLT_N is low. -/
  driverLow : Bool
  /-- A mode change of STP_CFG before this update, or the half of a 64-bit position already written. -/
  targetLo : Word
  deriving DecidableEq, Repr

/-- One encoder input (R298 to R300). -/
structure Enc where
  a : Bool
  b : Bool
  i : Bool
  accA : Bool
  accB : Bool
  down : Bool
  c : Int
  idx : Int
  time8 : Nat
  lastAcc : Option Nat
  /-- Recent counts, latest first: instant in press time and count after it. -/
  edges : List (Nat × Int)
  rejects : List Nat
  deriving DecidableEq, Repr

/-- A chopper with its bridge off. -/
def Chop.reset : Chop := { st := .off, since := 0, dac := 0, plus := true, full := 0 }

/-- A stepper after reset; its index E is kept in AON and is 0 after an AON power-on. -/
def Stp.reset : Stp :=
  { en := false, power := false, fault := 0, posUnsure := true, p := 0, f := 0, e := 0, v := 0, updatedAt := 0,
    holdCur := false, zeroSince := none, reqs := [], plan := none, halting := false, gear := none, gearNow := 65536,
    gearPend := [], govLimit := false, clamps := 0, c0 := 0, p0 := 0, dev := 0, home := none, chopA := .reset,
    chopB := .reset, driverLow := false, targetLo := 0 }

/-- An encoder after reset. -/
def Enc.reset : Enc :=
  { a := false, b := false, i := false, accA := false, accB := false, down := false, c := 0, idx := 0, time8 := 0,
    lastAcc := none, edges := [], rejects := [] }

/-! ## Power (chapter 16) -/

/-- One die sensor (R315 to R317). -/
structure Sensor where
  code : Nat
  valid : Bool
  ovr : Bool
  hot : Bool
  shut : Bool
  /-- Latest valid reading in 1/16 °C, for the thresholds. -/
  last : Int
  clamped : Nat
  deriving DecidableEq, Repr

/-- A token bucket of R311: rate in bytes a millisecond, tokens, and the instant of the latest refill. -/
structure Bucket where
  perMs : Nat
  tokens : Nat
  at8 : Nat
  deriving DecidableEq, Repr

/-- The power controller. -/
structure Pwr where
  /-- Domains on, by OFF_MASK bit, clusters left out (they follow `State.clusters`). -/
  domains : BitVec 50
  metPend : Bool
  overCap : Bool
  tripped : Bool
  vcoreHi : Bool
  total : Nat
  floor : Nat
  kitty : Nat
  gCmp : Nat
  gIns : Nat
  gDma : Nat
  gFab : Nat
  kcomp : Nat
  kins : Nat
  /-- Samples of 100 µs: instant, total, floor sample. -/
  samples : List (Nat × Nat × Nat)
  /-- Bulk power of DMA and FAB in the last 16 ms: instant, DMA mW, FAB mW, held back DMA, FAB. -/
  bulk : List (Nat × Nat × Nat × Bool × Bool)
  dmaPending : Bool
  fabPending : Bool
  planOp : Nat
  planN : Nat
  sensors : Vector Sensor 16
  /-- A converter whose next conversion is discarded (R316). -/
  discard : BitVec 4
  dmaBucket : Bucket
  fabBucket : Bucket
  deriving DecidableEq, Repr

/-- A sensor without a conversion. -/
def Sensor.reset : Sensor :=
  { code := 0, valid := false, ovr := false, hot := false, shut := false, last := 0, clamped := 0 }

/-- An empty bucket. -/
def Bucket.reset : Bucket := { perMs := 0, tokens := 0, at8 := 0 }

/-- The power controller after reset: no switched domain on. -/
def Pwr.reset : Pwr :=
  { domains := 0, metPend := false, overCap := false, tripped := false, vcoreHi := false, total := 0, floor := 0,
    kitty := 0, gCmp := 0, gIns := 0, gDma := 0, gFab := 0, kcomp := 0, kins := 0, samples := [], bulk := [],
    dmaPending := false, fabPending := false, planOp := 0, planN := 0, sensors := Vector.replicate 16 .reset,
    discard := 0, dmaBucket := .reset, fabBucket := .reset }

/-! ## Memory (chapter 17) -/

/-- States of a bank. -/
inductive BankSt where
  | ok | degraded | failed
  deriving DecidableEq, Repr

/-- One SRAM bank (Table 17.8); `rows` counts CEs by row and `poisoned` lists poisoned words. -/
structure Bank where
  st : BankSt
  spares : Nat
  march : Nat
  ue : Nat
  ce : Nat
  rows : List (Nat × Nat)
  repaired : List Nat
  poisoned : List Nat
  deriving DecidableEq, Repr

/-- A march in progress (R330): next bank, banks left, algorithm, destructive, and the four counts of RESULT. -/
structure March where
  bank : Nat
  left : Nat
  alg : Nat
  destructive : Bool
  counts : List Nat
  deriving DecidableEq, Repr

/-- A job-store attachment (R335). -/
structure JsIndex where
  attached : Bool
  ctrl : Nat
  nsid : Nat
  cap : Nat
  lba : Nat
  ioErr : Bool
  deriving DecidableEq, Repr

/-- One HBM stack (Table 17.10). -/
structure Stack where
  trained : Bool
  selfRefresh : Bool
  refresh2x : Bool
  temp : Int
  /-- Bandwidth, MB/s. -/
  bw : Nat
  deriving DecidableEq, Repr

/-- SRAM, HBM and the job store. -/
structure Mem where
  banks : Vector Bank 128
  lastUe : Nat × Nat × Bool
  march : Option March
  wiping : Bool
  wipeTries : Nat
  wipeFail : Bool
  /-- What the wipe of start-up or of an LC_ADVANCE leads on to is none: the wipe stands alone. -/
  resCapped : Bool
  arbActive : Nat
  js : Vector JsIndex 32
  hbm : Vector Stack 4
  hbmLastUe : Nat
  deriving DecidableEq, Repr

/-- A bank after reset. -/
def Bank.reset : Bank :=
  { st := .ok, spares := 0, march := 0, ue := 0, ce := 0, rows := [], repaired := [], poisoned := [] }

/-- A detached index. -/
def JsIndex.reset : JsIndex := { attached := false, ctrl := 0, nsid := 0, cap := 0, lba := 0, ioErr := false }

/-- A stack before training. -/
def Stack.reset : Stack := { trained := false, selfRefresh := false, refresh2x := false, temp := 0, bw := 0 }

/-- Memory after reset. -/
def Mem.reset : Mem :=
  { banks := Vector.replicate 128 .reset, lastUe := (0, 0, false), march := none, wiping := false, wipeTries := 0,
    wipeFail := false, resCapped := false, arbActive := 0, js := Vector.replicate 32 .reset,
    hbm := Vector.replicate 4 .reset, hbmLastUe := 0 }

/-! ## Data movers (chapter 18) -/

/-- Channel states (Table 18.4). -/
inductive DmaSt where
  | idle | armed | run | wait | done | aborting | stopped
  deriving DecidableEq, Repr

/-- One engine of a channel: where it stands in its list, its present descriptor and the bytes of it already moved. -/
structure DmaSide where
  pos : Nat
  desc : Option DmaDesc
  moved : Nat
  atEnd : Bool
  pend : Bool
  bytes : Nat
  space : Nat
  addr : Nat
  /-- A request line has asserted, and the burst that it allows has not been moved (R345). -/
  req : Bool
  deriving DecidableEq, Repr

/-- One DMA channel. -/
structure Dma where
  st : DmaSt
  code : Nat
  rd : DmaSide
  wr : DmaSide
  /-- Spaces written since the channel last entered DONE (R347). -/
  written : BitVec 4
  /-- What the status word will say: the side of the first error, the residue and the bytes discarded (Table 18.5). -/
  side : Nat
  residue : Nat
  discard : Nat
  deriving DecidableEq, Repr

/-- An engine at the head of a list. -/
def DmaSide.reset : DmaSide :=
  { pos := 0, desc := none, moved := 0, atEnd := false, pend := false, bytes := 0, space := 0, addr := 0, req := false }

/-- A channel never started. -/
def Dma.reset : Dma := { st := .idle, code := 0, rd := .reset, wr := .reset, written := 0, side := 0, residue := 0, discard := 0 }

/-! ## The Xeuri fabric and redundant pairs (chapter 19) -/

/-- Port states (Table 19.9). -/
inductive PortSt where
  | down | train | hello | up
  deriving DecidableEq, Repr

/-- A reliable fabric frame that awaits its acknowledgement (R214, R355). -/
structure XRel where
  seq : Nat
  dst : Nat
  frame : XlkTx
  sentAt : Nat
  tries : Nat
  deriving DecidableEq, Repr

/-- One fabric port: its state, the lanes that have trained, what its neighbour advertised (R357, R358), and its reliable
frames. -/
structure Port where
  st : PortSt
  since : Nat
  lastHello : Nat
  mismatch : Bool
  trained : List Nat
  neigh : Nat
  neighUid : Nat
  rootId : Nat
  rootDist : Nat
  full : Bool
  /-- PROTO of the neighbour's HELLO (R357, R440). -/
  proto : Nat
  relNext : Nat
  rel : List XRel
  /-- Frames that wait while 64 are unacknowledged (R214): destination and frame. -/
  relWait : List (Nat × XlkTx)
  deriving DecidableEq, Repr

/-- An address held for a unit (R359): unit, address, and since when it has been unreachable. -/
structure Held where
  uid : Nat
  addr : Nat
  lostAt : Option Nat
  deriving DecidableEq, Repr

/-- Link states received: origin, topology generation, entries. -/
structure LinkSt where
  src : Nat
  gen : Nat
  entries : List LinkEntry
  deriving DecidableEq, Repr

/-- Roles of XLK_PAIR_STATUS. -/
inductive Role where
  | none | forming | lead | dummy | soloLead | conflict
  deriving DecidableEq, Repr

/-- A planned swap in progress (R374): X in nm, whether this device offered it, whether the dummy has accepted, whether
PAIR_ROLE started it, and the epoch claimed. -/
structure Swap where
  x : Int
  mine : Bool
  accepted : Bool
  byCommand : Bool
  epoch : Nat
  deriving DecidableEq, Repr

/-- PARTIALs merged for an item (R366): context, sequence, PLANES and CODES so far, and which peers have answered. -/
structure PartialWait where
  ctx : Nat
  seq : Nat
  planes : Nat
  codes : Nat
  got : List Nat
  deriving DecidableEq, Repr

/-- A generation mirrored by the lead (R371): plane, install course, number, entries, and whether the last frame of it has
arrived. -/
structure GenWait where
  plane : Nat
  course : Nat
  number : Nat
  entries : List Word
  complete : Bool
  deriving DecidableEq, Repr

/-- What the dummy holds of the lead's MIRROR frames (R370, R371). -/
structure Mirror where
  /-- Last course confirmed: plane, row, context, course. -/
  confirm : List (Nat × Nat × Nat × Nat)
  /-- Course up to which shadow gaps have been counted: plane, context, course. -/
  gaps : List (Nat × Nat × Nat)
  finals : List (Nat × Nat)
  axes : List AxisMirror
  /-- Generations that arrive in several frames, or wait for their install course. -/
  gens : List GenWait
  /-- Underruns that the dummy has not reached yet: plane, context, first and last course. -/
  underruns : List (Nat × Nat × Nat × Nat)
  deriving DecidableEq, Repr

/-- The fabric and the pair. -/
structure Xlk where
  addr : Option Nat
  root : Bool
  /-- The ROOT_ID advertised, none without a root-eligible device, its distance, and since when (R358). -/
  rootId : Option Nat
  rootDist : Nat
  rootSince : Nat
  rootKnown : Bool
  topoGen : Nat
  full : Bool
  timeSynced : Bool
  theta : Int
  /-- Consecutive good, and bad, exchanges (R218). -/
  goodEx : Nat
  badEx : Nat
  lastFollow : Nat
  exchange : Option Exchange
  syncN : Nat
  /-- Rate by which press time slews, in eighths of a nanosecond a second of device time (R218, R362), the part of one
  eighth owed, and until when. -/
  slew : Int
  slewFrac : Int
  slewUntil : Option Nat
  /-- Press time of the latest TIME_PPS edge that started an interval (R362). -/
  ppsAt : Option Int
  ports : Vector Port 32
  held : List Held
  links : List LinkSt
  /-- The latest POSITION of the device that PAC_SRC or PAC_HO_SRC names (R363), and its instant. -/
  posRef : Option PositionFrame
  posAt : Nat
  /-- PEER_STATE received: address, role, masks, v_allow, instant. -/
  peers : List (Nat × Nat × List Nat × Nat × Nat)
  partials : List PartialWait
  /-- BULK frames that wait for the FAB bucket (R311, R356): source, destination, hops, bytes. -/
  bulkWait : List (Nat × Nat × Nat × Nat)
  role : Role
  diff : BitVec 7
  unfit : BitVec 64
  /-- Contexts whose package the lead's RCHECK has matched (R369). -/
  checked : BitVec 64
  reqLocal : Bool
  reqPeer : Bool
  /-- Since when both LEAD_REQ levels have been equal (R373). -/
  equalSince : Option Nat
  peerHold : Bool
  peerDigest : Nat
  peerRole : Nat
  peerEpoch : Nat
  peerUnfit : Nat
  lastHb : Option Nat
  swap : Option Swap
  /-- TAKEOVER refused for silence since (R377). -/
  refusedSince : Option Nat
  failingOver : Bool
  mirror : Mirror
  /-- The axes, and the final sequence number of each context, that the lead mirrored last (R371). -/
  axesSent : List AxisMirror
  finalSent : List (Nat × Nat)
  /-- Checks of a package or batch that the dummy cannot yet match (R369): context, package, count, first, crc. -/
  rchecks : List (Nat × Bool × Nat × Nat × Nat)
  /-- Batches held, for RCHECK: context, count, first sequence, CRC; and packages: context, CRC. -/
  batches : List (Nat × Nat × Nat × Nat)
  packages : List (Nat × Nat)
  deriving DecidableEq, Repr

/-- A port after reset. -/
def Port.reset : Port :=
  { st := .down, since := 0, lastHello := 0, mismatch := false, trained := [], neigh := 0xFFFE, neighUid := 0, rootId := 0,
    rootDist := 255, full := false, proto := 0, relNext := 0, rel := [], relWait := [] }

/-- The fabric after reset. -/
def Xlk.reset : Xlk :=
  { addr := none, root := false, rootId := none, rootDist := 0, rootSince := 0, rootKnown := false, topoGen := 0,
    full := false, timeSynced := false, theta := 0, goodEx := 0, badEx := 0, lastFollow := 0, exchange := none,
    syncN := 0, slew := 0, slewFrac := 0, slewUntil := none, ppsAt := none, ports := Vector.replicate 32 .reset,
    held := [], links := [], posRef := none, posAt := 0, peers := [], partials := [], bulkWait := [], role := .none,
    diff := 0, unfit := 0, checked := 0, reqLocal := false, reqPeer := false, equalSince := none, peerHold := false,
    peerDigest := 0, peerRole := 0, peerEpoch := 0xFFFF, peerUnfit := 0, lastHb := none, swap := none,
    refusedSince := none, failingOver := false,
    mirror := { confirm := [], gaps := [], finals := [], axes := [], gens := [], underruns := [] }, axesSent := [], finalSent := [],
    rchecks := [], batches := [], packages := [] }
/-! ## Security (chapter 20) -/

/-- The session (R388, R389): its number and the instant of the latest sensitive operation. -/
structure Session where
  num : Nat
  lastAct : Nat
  deriving DecidableEq, Repr

/-- The outstanding challenge (R388): its number, the instant of issue and the nonce. -/
structure Challenge where
  id : Nat
  issuedAt : Nat
  record : Bytes
  deriving DecidableEq, Repr

/-- What completes 2.000 ms after it was taken (R388, R390): a supervisor command, a mailbox command, or a PHASE 1 with
what it found. -/
inductive Timed where
  | refusal
  | mailbox
  | phase1 (ok : Bool)
  deriving DecidableEq, Repr

/-- A supervisor command that waits (R51, R328): PHASE 0 with its ADDR, or a KEY_INSTALL. -/
inductive EntropyWait where
  | challenge (addr : Nat)
  | key (slot kind context : Nat) (label : Bytes)
  deriving DecidableEq, Repr

/-- A DMA window of a UW ring (R383). -/
structure UwWin where
  baseLo : Word
  baseHi : Word
  limLo : Word
  limHi : Word
  en : Bool
  deriving DecidableEq, Repr

/-- The security core, the OTP read path and the AON latches. -/
structure Sec where
  session : Option Session
  sessions : Nat
  challenge : Option Challenge
  chalNext : Nat
  /-- Completions at 2.000 ms: what, and the instant it was taken. -/
  timed : List (Timed × Nat)
  /-- The command that waits for entropy or for a wipe of the secure SRAM, and since when (R51, R328). -/
  entropyWait : Option (EntropyWait × Nat)
  trngReady : Bool
  trngSamples : Nat
  tamper : BitVec 7
  tamperTime : Nat
  /-- Sources latched while the core was off wait to be reported after the next start (R400). -/
  tamperLate : Bool
  /-- The RTC, in seconds since 2000-01-01, at instant 0 of `now`. -/
  rtcBase : Int
  uwwin : Vector UwWin 65
  otpRead : Option Nat
  otpData : Word
  otpReady : Bool
  weak : Nat
  /-- Words read by the security core at start-up: whether SECRET was loaded (Table 20.2). -/
  secretLoaded : Bool
  /-- The policy bits of OTP word 129, as the start read them (R502). -/
  policy : Word
  deriving DecidableEq, Repr

/-- The security core after an AON power-on. -/
def Sec.reset : Sec :=
  { session := none, sessions := 0, challenge := none, chalNext := 1, timed := [], entropyWait := none,
    trngReady := false, trngSamples := 0, tamper := 0, tamperTime := 0, tamperLate := false, rtcBase := 0,
    uwwin := Vector.replicate 65 { baseLo := 0, baseHi := 0, limLo := 0, limHi := 0, en := false }, otpRead := none,
    otpData := 0, otpReady := false, weak := 0, secretLoaded := false, policy := 0 }

/-! ## The sealed partition (chapter 21) -/

/-- Partition states (Table 21.1). -/
inductive MetSt where
  | absent | starting | unsealed | sealedSt | broken | locked
  deriving DecidableEq, Repr

/-- Causes of LOCKED (Table 21.10). -/
inductive LockCause where
  | none | lockstep | clock | flash | counter
  deriving DecidableEq, Repr

/-- One weighing channel (R406, R407). -/
structure MetCh where
  queue : List Weighing
  last : Option Nat
  fault : Bool
  silent : Bool
  missing : Nat
  err : Nat
  /-- The CODE of the latest ERROR reply, which is recorded only (Table 21.2). -/
  code : Nat
  deriving DecidableEq, Repr

/-- SFDEF record (Table 21.4). -/
structure SfDef where
  content : Nat
  plane : Nat
  level : Nat
  scale : Nat
  wdec : Nat
  suffix : Nat
  chars : Nat
  deriving DecidableEq, Repr

/-- CHCFG record (Table 21.6). -/
structure ChCfg where
  enable : Bool
  addr : Nat
  interval : Nat
  min : Nat
  max : Nat
  deriving DecidableEq, Repr

/-- GLOBAL parameters (Table 21.6). -/
structure Glob where
  priceDec : Nat
  mark : Nat
  cur : List Nat
  baud : List Nat
  deriving DecidableEq, Repr

/-- The sealed partition. -/
structure Met where
  st : MetSt
  cause : LockCause
  sealPin : Bool
  swver : Nat
  swid : Bytes
  digest : Bytes
  /-- The event counter c, in the sealed flash region. -/
  c : Nat
  /-- Event records not yet released, oldest first. -/
  events : List AuditRec
  anum : Nat
  stopRaised : Bool
  loss : Bool
  lossRange : Nat × Nat
  chs : Vector MetCh 16
  /-- Next channel of each port, and the poll outstanding on it: channel and instant. -/
  next : Vector Nat 4
  polled : Vector (Option (Nat × Nat)) 4
  prices : List (Nat × Nat)
  laneMap : List (Nat × Nat × Nat)
  sfdef : Vector SfDef 16
  chcfg : Vector ChCfg 16
  glob : Glob
  busy : Bool
  rsp : List Word
  /-- Digest comparisons still open: context, sequence, SFIELD, courses of the region screened so far. -/
  mailboxTag : Nat
  deriving DecidableEq, Repr

/-- A channel without weighings. -/
def MetCh.reset : MetCh := { queue := [], last := none, fault := false, silent := false, missing := 0, err := 0, code := 0 }

/-- The partition with PD_MET off and an empty sealed flash region. -/
def Met.reset : Met :=
  { st := .absent, cause := .none, sealPin := true, swver := 0, swid := [], digest := [], c := 0, events := [],
    anum := 0, stopRaised := false, loss := false, lossRange := (0, 0), chs := Vector.replicate 16 .reset,
    next := Vector.replicate 4 0, polled := Vector.replicate 4 none, prices := [], laneMap := [],
    sfdef := Vector.replicate 16 ⟨0, 0, 0, 0, 0, 0, 0⟩, chcfg := Vector.replicate 16 ⟨false, 0, 0, 0, 0⟩,
    glob := { priceDec := 0, mark := 0, cur := [], baud := [] }, busy := false, rsp := [], mailboxTag := 0 }

/-! ## Calibration (chapter 22) -/

/-- A CAL_RUN in progress (R423): kind, instance, DRY, and what the result needs. -/
structure CalRun where
  kind : Nat
  index : Nat
  dry : Bool
  arg : Int
  speed : Nat
  gauge : Nat
  since : Nat
  deriving DecidableEq, Repr

/-- The calibration block: the store itself is `State.calStore`. -/
structure Cal where
  run : Option CalRun
  lastStatus : Nat
  lastKind : Nat
  lastIndex : Nat
  lost : Nat
  /-- The record of the last run, whether it was stored, dry or refused (R433). -/
  lastRecord : Option CalRecord
  deriving DecidableEq, Repr

/-- Calibration after reset. -/
def Cal.reset : Cal :=
  { run := none, lastStatus := 0, lastKind := 0, lastIndex := 0, lost := 0, lastRecord := none }

/-! ## Updates (chapter 23) -/

/-- The three slots of the FWI and MTI classes, the trial and the recovery download. The STI slots are in `State.str`. -/
structure Upd where
  fwiActive : Option Image
  fwiStaged : Option Image
  fwiPrev : Option Image
  mtiActive : Option Image
  mtiStaged : Option Image
  mtiPrev : Option Image
  /-- The staged FWI was rejected (R444); staged STI and MTI are never rejected. -/
  rejected : Bool
  /-- The pending flag of an FWI activation (R440), and of a revert (R445). -/
  pendActivate : Bool
  pendRevert : Bool
  trial : Bool
  /-- Instant at which the trial's 120 s began. -/
  trialAt : Option Nat
  /-- The 120 s passed without UPD_CONFIRM: the next start falls back (R441). -/
  expired : Bool
  /-- The version rejected by the fallback of this start. -/
  fellBack : Option Nat
  mtiPend : Bool
  xfer : Option Transfer
  checking : Bool
  errRow : Nat
  errCode : Nat
  /-- The MTI that runs, with the version and digest shown. -/
  recCode : Nat
  recBusy : Bool
  /-- A download over UART0 in RECOVERY (R447). -/
  uart : Option Transfer
  deriving DecidableEq, Repr

/-- Updates with empty slots. -/
def Upd.reset : Upd :=
  { fwiActive := none, fwiStaged := none, fwiPrev := none, mtiActive := none, mtiStaged := none, mtiPrev := none,
    rejected := false, pendActivate := false, pendRevert := false, trial := false, trialAt := none, expired := false, fellBack := none,
    mtiPend := false, xfer := none, checking := false, errRow := 0, errCode := 0, recCode := 0, recBusy := false,
    uart := none }

/-! ## Pins, clocks and low-speed interfaces (chapters 26 to 28) -/

/-- A GPIO: its pad level, whether it is parked (R475), and the previous sample of its edge detector. -/
structure Gpio where
  level : Bool
  parked : Bool
  prev : Option Bool
  deriving DecidableEq, Repr

/-- An I2C port: its FIFOs and the transfer that runs (R500). -/
structure I2c where
  busy : Bool
  tx : Nat
  rx : Nat
  deriving DecidableEq, Repr

/-- A UART: its FIFOs (R501). -/
structure Uart where
  rx : Bytes
  tx : Nat
  deriving DecidableEq, Repr

/-- Instructions of the test access port in force (R503). -/
inductive TapMode where
  | idcode | bypass | samplePreload | extest | clamp | debug
  deriving DecidableEq, Repr

/-- The low-speed blocks and the reference clocks. -/
structure Lsi where
  gpio : Vector Gpio 64
  i2c : Vector I2c 2
  uart : Vector Uart 2
  ppsTime : Nat
  /-- Device time of the latest accepted TIME_PPS edge. -/
  ppsLast : Option Nat
  ppsPin : Bool
  leadPin : Bool
  perstN : Bool
  qref : BitVec 16
  pllLock : BitVec 7
  sysRef : Bool
  pcieRef : Bool
  metOk : Bool
  xtalOk : Bool
  tap : TapMode
  calHeads : Nat
  qspiBusy : Bool
  deriving DecidableEq, Repr

/-- The low-speed blocks while RST_N is low; every dedicated input reads as Table 26.8 gives it. -/
def Lsi.reset : Lsi :=
  { gpio := Vector.replicate 64 { level := false, parked := true, prev := none },
    i2c := Vector.replicate 2 { busy := false, tx := 0, rx := 0 }, uart := Vector.replicate 2 { rx := [], tx := 0 },
    ppsTime := 0, ppsLast := none, ppsPin := false, leadPin := false, perstN := true, qref := 0,
    pllLock := 0, sysRef := false, pcieRef := false, metOk := false, xtalOk := false, tap := .idcode, calHeads := 1024,
    qspiBusy := false }

/-! ## Host link (chapter 28) -/

/-- Endpoint and root port (Tables 28.6, 28.7) and the MSI-X pending bits. -/
structure Pci where
  linkUp : Bool
  speed : Nat
  width : Nat
  rpUp : Bool
  rpSpeed : Nat
  rpWidth : Nat
  rpCtrls : Nat
  msixPend : BitVec 256
  deriving DecidableEq, Repr

/-- The endpoint before training. -/
def Pci.reset : Pci :=
  { linkUp := false, speed := 0, width := 0, rpUp := false, rpSpeed := 0, rpWidth := 0, rpCtrls := 0, msixPend := 0 }

/-! ## The machine -/

/-- The whole block. -/
structure State where
  /-- Free-running device time since power-on, in eighths of a nanosecond (R4, R509). -/
  now : Nat
  /-- Instant of press time 0 on the free-running clock (R11); slews and steps move it. -/
  pressBase : Int
  /-- The model's own field: how many free values have been drawn. -/
  free : Nat
  /-- The model's own field: what left the block during the latest command. -/
  out : List Out
  /-- Register words of access RW, RWP, RWL, W1C and RC by PW address (UW registers at 0x4000000 above their UW
  offset), sorted; an absent word holds its reset value. -/
  regs : List (Nat × Word)
  dev : Dev
  str : StrSt
  supRing : Ring
  admRing : Ring
  jobRings : Vector Ring 64
  jobs : Vector Job 64
  cmp : Cmp
  clusters : Vector Cluster 16
  cod : Cod
  planes : Vector PlaneSt 8
  nzm : Nzm
  pac : Pac
  wav : Wav
  log : LogState
  sems : Vector Sem 64
  pci : Pci
  mlk : Mlk
  ins : Ins
  gov : Gov
  ba : Vector Ba 8
  sd : Vector Sd 24
  stp : Vector Stp 16
  enc : Vector Enc 16
  pwr : Pwr
  mem : Mem
  dma : Vector Dma 32
  xlk : Xlk
  sec : Sec
  met : Met
  cal : Cal
  fw : Upd
  lsi : Lsi
  /-- OTP words that are not 0: (word, value) (chapter 20). -/
  otp : List (Nat × Word)
  /-- The calibration store: the copy in force of each location (chapter 22). -/
  calStore : List CalRecord
  pending : List Instr
  deriving DecidableEq, Repr

/-! ## Reset -/

/-- A ring after reset (Tables 4.3, 4.4). -/
def Ring.reset : Ring :=
  { enable := false, sqTail := 0, sqHead := 0, cqHead := 0, cqTail := 0, phase := true, running := none,
    stalled := none, stopping := false, mute := false }

/-- A job's progress on one plane before it is armed. -/
def JobPlane.reset : JobPlane :=
  { castOn := none, nextSlice := 0, screened := 0, taken := 0, edCur := [], edTaken := [], passed := [] }

/-- A FREE context (Table 4.6). -/
def Job.free : Job :=
  { st := .free, jobId := 0, held := [], pkg := none, castOn := 0, queue := [], nextSeq := 0, nextSlot := 0,
    laneBound := [], items := [], slices := [], planes := Vector.replicate 8 JobPlane.reset, castOff := none,
    lastQueued := false, okCount := 0, defectCount := 0, voidCount := 0, finalSeq := none, entryWait := [],
    armSpeed := 0, armPos := 0, bindings := [], asked := none, lastRpt := 0, nvmeWait := none }

/-- An empty window. -/
def Window.empty : Window := { events := [], pos := [] }

/-- Composition after reset (Table 5.9). -/
def Cmp.reset : Cmp :=
  { vcomp := 10000000, vbase := 10000000, demand := none, fragRate := 0, bindRate := 0, runwayLow := false,
    cycles := .empty, frags := .empty, binds := .empty }

/-- A cluster after reset: off (R314). -/
def Cluster.reset : Cluster :=
  { power := .off, op := 0, opNext := none, excl := false, slice := none, dealtAt := 0, granted := false,
    since := 0, mw := 0 }

/-- An empty key slot (Table 6.11). -/
def KeySlot.empty : KeySlot := { valid := false, kind := 0, context := 0, label := [], check := 0 }

/-- The code engines after reset (Table 6.11). -/
def Cod.reset : Cod :=
  { excl := 0, requests := [], vcode := 10000000, symRate := 0, tagRate := 0, syms := .empty,
    tags := .empty, lastFail := (0, 0, 0), slots := Vector.replicate 32 KeySlot.empty, table := [] }

/-- A plane after reset: every nozzle HEALTHY, the NZM registers at reset (R151, Table 8.5). -/
def PlaneSt.reset : PlaneSt :=
  { runway := [], gens := [], genNo := 0, sinceInstall := none, health := [], methods := [], minRate := 0,
    takeover := 0x80000080#32, vol := [0, 1, 2, 3, 4, 5, 6, 7], cfgChanged := false, forced := false, undarned := [],
    screenCtx := none, skipNext := false, run := none }

/-- The map path after reset. -/
def Nzm.reset : Nzm := { staging := [], pend := [], busy := false, vfire := 0, rateUnknown := false }

/-- An estimator before its first edge (R169). -/
def Est.reset : Est :=
  { p := 0, v := 0, z := 0, t8 := 0, edges := 0, lockCnt := 0, locked := false, down := false, zeroCount := 0, base := 0 }

/-- A gear at ratio 1 (R173). -/
def Gear.reset : Gear := { ratio := 2 ^ 30, mseg := 0, pseg := 0, pend := [], past := [] }

/-- The pacer after reset (R185). -/
def Pac.reset : Pac :=
  { est := .reset, cand := .reset, zeroPend := false, gears := Vector.replicate 8 .reset, handover := none,
    highest := 0, slots := [], zeroAfter := none }

/-- The waveform engine after reset (Table 10.3). -/
def Wav.reset : Wav :=
  { pool := [], wgs := [], heads := [], tblBusy := [], wgBusy := [], venergy := 10000000, vheat := 10000000,
    limiter := (0, 0), peakLim := false, scaleClamp := false, hotEpisode := false, energy := [],
    pos := [], acPower := [], supPower := [] }

/-- No drops (R452). -/
def DropState.reset : DropState :=
  { dropped := 0, codes := [], first := 0, last := 0, lastSummary := 0, dropping := false }

/-- The log path after a main power-on (Table 24.10). -/
def LogState.reset : LogState :=
  { ring := [], host := [], nextLseq := 0, waitAlarms := [], waitSummaries := [], waitAudit := [], backlog := [],
    backlogFull := false, drops := .reset, traceDrops := .reset, diagMs := 0, diagCount := [], en := false, wr := 0,
    rd := 0, retry := none, coalCount := 0, coalFirst := none }

/-- A FREE semaphore. -/
def Sem.free : Sem := { st := .free, code := 0, func := 0, inst := 0, tag := 0 }

/-- The DEV block while RST_N is low (Tables 3.11 to 3.13). -/
def Dev.reset : Dev :=
  { mode := .boot, stage := 1, fwiSlot := 0, reason := 0, detail := 0, failed := 0, hold := false, holdClass := 0,
    holdCause := 0, holdAt := 0, holdEndAt := none, rstN := false, holdN := true, fireEn := true, activating := none,
    warmPending := none, watchdogAt := none, standbyReached := false, standbyAt := 0, disabled := [] }

/-- The structure loader with empty flash slots. -/
def StrSt.reset : StrSt :=
  { tables := none, active := none, prev := none, staged := none, load := none, err := ⟨0, 0, 0⟩ }

/-- The machine right after reset: powered, RST_N low, in BOOT, with nothing written to any memory or image slot. -/
def State.reset : State :=
  { now := 0, pressBase := 0, free := 0, out := [], regs := [], dev := .reset, str := .reset, supRing := .reset,
    admRing := .reset, jobRings := Vector.replicate 64 .reset, jobs := Vector.replicate 64 .free, cmp := .reset,
    clusters := Vector.replicate 16 .reset, cod := .reset, planes := Vector.replicate 8 .reset, nzm := .reset,
    pac := .reset, wav := .reset, log := .reset, sems := Vector.replicate 64 .free, pci := .reset,
    mlk := .reset, ins := .reset, gov := .reset, ba := Vector.replicate 8 .reset, sd := Vector.replicate 24 .reset,
    stp := Vector.replicate 16 .reset, enc := Vector.replicate 16 .reset, pwr := .reset, mem := .reset,
    dma := Vector.replicate 32 .reset, xlk := .reset, sec := .reset, met := .reset, cal := .reset, fw := .reset,
    lsi := .reset,
    otp := [(2, 0x96000001#32), (128, 1#32)], calStore := [], pending := [] }

end Sys2Proof.Machine
end

