-- ==== Sys2Proof/Machine/Ops.lean ====
section
/-! DEFINITION. Operations that every family uses: the form of a meaning, register words, status codes, free values,
outputs and MSI-X messages, rings and completions. -/

namespace Sys2Proof.Machine

/-- The outcome of a command. -/
abbrev Res := Host.Outcome State Fault Refusal

/-! ## Time -/

/-- Eighths of a nanosecond in a nanosecond, a microsecond, a millisecond and a second (R4). -/
def ns8 : Nat := 8
/-- One microsecond. -/
def us8 : Nat := 8000
/-- One millisecond. -/
def ms8 : Nat := 8000000
/-- One second. -/
def sec8 : Nat := 8000000000

/-- Device time runs on to `t`; press time slews on the way while it is being slewed (R218, R362, R509). -/
def State.advance (s : State) (t : Nat) : State :=
  let stop := match s.xlk.slewUntil with
    | some u => max s.now (min u (max s.now t))
    | none => max s.now t
  let owed := s.xlk.slewFrac + ((stop - s.now : Nat) : Int) * s.xlk.slew
  { s with now := max s.now t, pressBase := s.pressBase + owed / (sec8 : Int),
           xlk := { s.xlk with slewFrac := owed % (sec8 : Int) } }

/-- The command has reached the device at instant `t`: time does not run backwards, and nothing has left yet. -/
def State.arrive (s : State) (t : Nat) : State := { s.advance t with out := [] }

/-- Press time in eighths of a nanosecond (R11). -/
def State.press (s : State) : Nat := ((s.now : Int) - s.pressBase).toNat

/-- Press time in nanoseconds (R4). -/
def State.pressNs (s : State) : Nat := s.press / 8

/-- One edge of CLK_RT passes: 20 eighths of a nanosecond (R509); what left the block before has left. -/
def State.idle (s : State) : State := s.arrive (s.now + 20)

/-- The form of every meaning: the command arrives at `t` and has its effect. An effect moves neither the device's
clock nor the queue of waiting commands. -/
def run (t : Nat) (s : State) (f : State → State) : Res :=
  .next { f (s.arrive t) with now := max s.now t, pending := s.pending }

/-- A meaning that stops on a host error to which the spec gives no effect (R7). -/
def runUnless (bad : State → Bool) (what : String) (t : Nat) (s : State) (f : State → State) : Res :=
  if bad (s.arrive t) then .refused (.unpredictable what) else run t s f

/-- Apply `f` when the condition holds, else leave the state. -/
def when (c : Bool) (f : State → State) (s : State) : State := if c then f s else s

/-! ## Status codes -/

/-- Status codes (Table 25.6). -/
inductive Status where
  | ok | busy | badMode | badState | range | noContext | authFail | notReady | safety | format | integrity
  | incompatible | timeout | aborted | sealed | lockBroken | plausibility | fabricFull
  deriving DecidableEq, Repr

/-- The code of a status (Table 25.6). -/
def Status.code : Status → Nat
  | .ok => 0x00 | .busy => 0x01 | .badMode => 0x02 | .badState => 0x03 | .range => 0x04 | .noContext => 0x05
  | .authFail => 0x06 | .notReady => 0x07 | .safety => 0x08 | .format => 0x09 | .integrity => 0x0A
  | .incompatible => 0x0B | .timeout => 0x0C | .aborted => 0x0D | .sealed => 0x0E | .lockBroken => 0x0F
  | .plausibility => 0x10 | .fabricFull => 0x11

/-- The first condition of a list that holds gives the status; OK when none does (R468, R505). -/
def firstRefusal : List (Bool × Status) → Status
  | [] => .ok
  | (c, st) :: rest => if c then st else firstRefusal rest

/-! ## Register words -/

/-- The word stored at `k` in a sorted map. -/
def regLookup (k : Nat) : List (Nat × Word) → Option Word
  | [] => none
  | (k', v) :: rest => if k = k' then some v else regLookup k rest

/-- Store `v` at `k`, keeping the keys rising and no word equal to its reset value. -/
def regInsert (k : Nat) (v dflt : Word) : List (Nat × Word) → List (Nat × Word)
  | [] => if v = dflt then [] else [(k, v)]
  | (k', v') :: rest =>
    if k < k' then (if v = dflt then (k', v') :: rest else (k, v) :: (k', v') :: rest)
    else if k = k' then (if v = dflt then rest else (k, v) :: rest)
    else (k', v') :: regInsert k v dflt rest

/-- Read a register word. -/
def State.rd (s : State) (r : RegSpec) (i : Nat := 0) : Word := (regLookup (r.addr i) s.regs).getD r.reset

/-- Set a register word. -/
def State.wr (s : State) (r : RegSpec) (i : Nat) (v : Word) : State :=
  { s with regs := regInsert (r.addr i) v r.reset s.regs }

/-- Bits hi..lo of a word. -/
def bitsOf (w : Word) (hi lo : Nat) : Nat := (w.toNat / 2 ^ lo) % 2 ^ (hi - lo + 1)

/-- A word with bits hi..lo replaced by `v`. -/
def setBits (w : Word) (hi lo v : Nat) : Word :=
  BitVec.ofNat 32 (w.toNat - bitsOf w hi lo * 2 ^ lo + (v % 2 ^ (hi - lo + 1)) * 2 ^ lo)

/-- A field of a register word. -/
def State.fld (s : State) (r : RegSpec) (i hi lo : Nat) : Nat := bitsOf (s.rd r i) hi lo

/-- Set a field of a register word. -/
def State.setFld (s : State) (r : RegSpec) (i hi lo v : Nat) : State := s.wr r i (setBits (s.rd r i) hi lo v)

/-- Two's complement value of an n-bit number. -/
def signed (n v : Nat) : Int := if v < 2 ^ (n - 1) then (v : Int) else (v : Int) - 2 ^ n

/-- A signed number as n bits. -/
def unsigned (n : Nat) (v : Int) : Nat := (v % 2 ^ n).toNat

/-- A 64-bit signed value held in a LO and a HI register. -/
def State.rd64 (s : State) (lo hi : RegSpec) (i : Nat := 0) : Int :=
  signed 64 ((s.rd hi i).toNat * 2 ^ 32 + (s.rd lo i).toNat)

/-- Add to a saturating 32-bit counter (RC registers). -/
def State.count (s : State) (r : RegSpec) (i : Nat := 0) (k : Nat := 1) : State :=
  s.wr r i (BitVec.ofNat 32 (min ((s.rd r i).toNat + k) 0xFFFFFFFF))

/-- Record a refused write in a block's ERR register: OFFSET in [23:8], CODE in [7:0]. -/
def State.recordErr (s : State) (r : RegSpec) (i offset : Nat) (st : Status) : State :=
  (s.setFld r i 23 8 offset).setFld r i 7 0 st.code

/-- Serve a write that carries a refusal condition list: the first that holds is recorded in the ERR register and
nothing else happens; otherwise the write acts (R462, R505). -/
def refuseOr (conds : List (Bool × Status)) (errReg : RegSpec) (i offset : Nat) (f : State → State) (s : State) : State :=
  match firstRefusal conds with
  | .ok => f s
  | st => s.recordErr errReg i offset st

/-! ## Calibration records -/

/-- The calibration record in force of a kind and index (R426, R432). -/
def State.calRec (s : State) (kind index : Nat) : Option CalRecord :=
  s.calStore.find? fun r => r.kind == kind && r.index == index

/-! ## Free values and outputs -/

/-- Draw the next free value (log entry 1). -/
def State.draw (s : State) : Nat × State := (Config.freeValue s.free, { s with free := s.free + 1 })

/-- Something leaves the block. -/
def State.emit (s : State) (o : Out) : State := { s with out := s.out ++ [o] }

/-- Raise an MSI-X vector: one message, or its pending bit when the vector is masked (R457). -/
def State.msix (s : State) (v : Nat) : State :=
  if s.fld Reg.msixCtl v 0 0 = 1 then { s with pci := { s.pci with msixPend := s.pci.msixPend ||| (1#256 <<< v) } }
  else s.emit (.msix v)

/-! ## Rings -/

/-- The ring with an identity. -/
def State.ring (s : State) : RingId → Ring
  | .supervisor => s.supRing
  | .admission => s.admRing
  | .job n => s.jobRings[n]

/-- Replace a ring. -/
def State.setRing (s : State) (id : RingId) (r : Ring) : State :=
  match id with
  | .supervisor => { s with supRing := r }
  | .admission => { s with admRing := r }
  | .job n => { s with jobRings := s.jobRings.set n r }

/-- RING_CFG of a ring. -/
def ringCfg (s : State) : RingId → Word
  | .supervisor => s.rd Reg.supCfg
  | .admission => s.rd Reg.admCfg
  | .job n => s.rd Reg.jobCfg n

/-- Set a bit of RING_STATUS. -/
def ringSetStatus (s : State) (id : RingId) (bit : Nat) : State :=
  match id with
  | .supervisor => s.setFld Reg.supStatus 0 bit bit 1
  | .admission => s.setFld Reg.admStatus 0 bit bit 1
  | .job n => s.setFld Reg.jobStatus n bit bit 1

/-- Entries of a ring: 2^LOG2_SIZE, other values than 4 to 12 taken as 4 (Table 4.4). -/
def ringSize (s : State) (id : RingId) : Nat :=
  let l := bitsOf (ringCfg s id) 3 0
  2 ^ (if 4 ≤ l ∧ l ≤ 12 then l else 4)

/-- The MSI-X vector of a ring (R69). -/
def ringVector (s : State) (id : RingId) : Nat := bitsOf (ringCfg s id) 23 16

/-- Rings run in every mode but BOOT and RECOVERY (R48, R50). -/
def State.ringsRun (s : State) : Bool := s.dev.mode ≠ .boot && s.dev.mode ≠ .recovery

/-- Whether the completion queue has no released entry left (R68). -/
def cqFull (s : State) (id : RingId) : Bool :=
  decide (((s.ring id).cqTail + 1) % ringSize s id = (s.ring id).cqHead % ringSize s id)

/-- Write one completion into the queue and raise the ring's vector unless NO_IRQ applies (R68, R69). -/
def writeCompletion (id : RingId) (c : Completion) (s : State) : State :=
  let r := s.ring id
  let n := ringSize s id
  let s := s.emit (.completion id r.cqTail c.tag c.status r.phase r.sqHead c.result)
  let next := (r.cqTail + 1) % n
  let s := s.setRing id { r with cqTail := next, phase := if next = 0 then !r.phase else r.phase, stalled := none }
  if c.noIrq && c.status == 0 then s else s.msix (ringVector s id)

/-- Opcodes of the sensitive supervisor commands (chapter 20, Table 25.5). -/
def sensitiveOps : List Nat := [0x0203, 0x0404, 0x0406, 0x0503, 0x0504, 0x0505, 0x0506]

/-- The idle limit of a session restarts as a sensitive command completes (R389). -/
def touchSession (c : Option Running) (s : State) : State :=
  if c.any fun r => sensitiveOps.contains r.opcode then
    { s with sec := { s.sec with session := s.sec.session.map fun y => { y with lastAct := s.now } } }
  else s

/-- A command ends: its completion is written, or waits while the completion queue is full (R66, R68, R69, R70). A
supervisor ring that stops with it closes the session (R389); after an endpoint reset no completion is written (R495). -/
def complete (id : RingId) (st : Status) (result : Nat) (s : State) : State :=
  let r := s.ring id
  if r.mute then s.setRing id { r with running := none, mute := false } else
  let (tag, noIrq) := match r.running with
    | some c => (c.tag, c.noIrq)
    | none => (0, false)
  let c : Completion := { tag := tag, status := st.code, result := result, noIrq := noIrq }
  let s := s.setRing id { r with running := none, enable := r.enable && !r.stopping, stopping := false }
  let s := if r.stopping && id == .supervisor then { s with sec := { s.sec with session := none } } else s
  let s := if id == .supervisor then touchSession r.running s else s
  if cqFull s id then s.setRing id { s.ring id with stalled := some c } else writeCompletion id c s

/-- The form of a ring command: outside the modes in which rings run it stays unread (R50). -/
def ringCmd (t : Nat) (s : State) (f : State → State) : Res := run t s fun s => if s.ringsRun then f s else s

/-- A ring command that a list of refusals may turn away; otherwise it acts. -/
def admitCmd (id : RingId) (conds : List (Bool × Status)) (f : State → State) (s : State) : State :=
  match firstRefusal conds with
  | .ok => f s
  | st => complete id st 0 s

/-! ## Modes -/

/-- A function that FUNC_REINIT left disabled until the next warm start (R62): code and instance. -/
def State.isDisabled (s : State) (code inst : Nat) : Bool := s.dev.disabled.contains (code, inst)

/-- Modes from CONFIGURE: those in which firmware runs. -/
def State.running (s : State) : Bool := s.ringsRun

/-- Whether the mode is one of a list. -/
def State.modeIn (s : State) (l : List Mode) : Bool := l.contains s.dev.mode

/-- A job state in which a job runs: ARMED, PRINTING, DRAINING (R3). -/
def JobSt.active : JobSt → Bool
  | .armed | .printing | .draining => true
  | _ => false

/-- Whether some job runs. -/
def State.anyActive (s : State) : Bool := s.jobs.toList.any fun j => j.st.active

/-- Replace one job context. -/
def State.modJob (s : State) (n : Fin 64) (f : Job → Job) : State := { s with jobs := upd s.jobs n f }

/-- Replace one plane. -/
def State.modPlane (s : State) (p : Fin 8) (f : PlaneSt → PlaneSt) : State := { s with planes := upd s.planes p f }

end Sys2Proof.Machine
end

