-- ==== Sys2Proof/Machine/Flags.lean ====
section
/-! DEFINITION. Events: alarms, DIAG and ITEM records, their admission to the log ring, and the semaphores' breaking
(chapter 24). -/

namespace Sys2Proof.Machine

/-- The ALARM events of Table 24.2. -/
inductive Alarm where
  | strInvalid | ringFault | ccFault | codFault | pacLockLost | pacReverse | pacHandoverFail | wavTempLost
  | wavHeadHot | mlkIdentBad | mlkEndpointMismatch | mlkEndpointMissing | mlkLinkDown | mlkLinkReset | mlkTableDiff | insNozzleDead
  | govOverspeed | govFloor | govPeerSilent | motFault | pwrOverCap | pwrCcHot | memSparesOut | memUeMgt
  | memWipeFail | memBankFailed | xlkFabricFull | xlkTimeStepBlocked | xlkTimeLost | pairDiff | pairRecordDiff | pairLeadLost
  | pairSplit | pairPeerLost | secTamper | secTrngFail | metLocked | metWseqGap | metAuditStop | calRecordLost
  | updFallback | logRecordLost | logBacklogFull
  deriving DecidableEq, Repr

/-- The code of an event (Table 24.2). -/
def Alarm.code : Alarm → Nat
  | .strInvalid => 0x0001 | .ringFault => 0x0002 | .ccFault => 0x0003 | .codFault => 0x0004
  | .pacLockLost => 0x0005 | .pacReverse => 0x0006 | .pacHandoverFail => 0x0007 | .wavTempLost => 0x0008
  | .wavHeadHot => 0x0009 | .mlkIdentBad => 0x000A | .mlkEndpointMismatch => 0x000B | .mlkEndpointMissing => 0x000C
  | .mlkLinkDown => 0x000D | .mlkLinkReset => 0x000E | .mlkTableDiff => 0x000F | .insNozzleDead => 0x0010
  | .govOverspeed => 0x0011 | .govFloor => 0x0012 | .govPeerSilent => 0x0013 | .motFault => 0x0014
  | .pwrOverCap => 0x0015 | .pwrCcHot => 0x0016 | .memSparesOut => 0x0017 | .memUeMgt => 0x0018
  | .memWipeFail => 0x0019 | .memBankFailed => 0x001A | .xlkFabricFull => 0x001B | .xlkTimeStepBlocked => 0x001C
  | .xlkTimeLost => 0x001D | .pairDiff => 0x001E | .pairRecordDiff => 0x001F | .pairLeadLost => 0x0020
  | .pairSplit => 0x0021 | .pairPeerLost => 0x0022 | .secTamper => 0x0023 | .secTrngFail => 0x0024
  | .metLocked => 0x0025 | .metWseqGap => 0x0026 | .metAuditStop => 0x0027 | .calRecordLost => 0x0028
  | .updFallback => 0x0029 | .logRecordLost => 0x002A | .logBacklogFull => 0x002B

/-- The DIAG events of Table 24.2. -/
inductive Diag where
  | slotEmpty | fieldDup | fieldError | nozzleUndarned | nzmGeneration | lateCorrection | courseMissed | ampConflict
  | acOver | mlkEndpointUp | slotFault | insAmbiguous | planeUnderrun | govWriteRefused | calSkipped | calCopyRepaired
  deriving DecidableEq, Repr

/-- The code of an event (Table 24.2). -/
def Diag.code : Diag → Nat
  | .slotEmpty => 0x0101 | .fieldDup => 0x0102 | .fieldError => 0x0103 | .nozzleUndarned => 0x0104
  | .nzmGeneration => 0x0105 | .lateCorrection => 0x0106 | .courseMissed => 0x0107 | .ampConflict => 0x0108
  | .acOver => 0x0109 | .mlkEndpointUp => 0x010A | .slotFault => 0x010B | .insAmbiguous => 0x010C
  | .planeUnderrun => 0x010D | .govWriteRefused => 0x010E | .calSkipped => 0x010F | .calCopyRepaired => 0x0110

/-- INST of an event that names no instance (Table 24.1). -/
def noInst : Nat := 0xFFFF

/-- LEN of a record (R449): 88 for AUDIT, 56 for every other class the model writes. -/
def Payload.len : Payload → Nat
  | .audit _ => 88
  | _ => 56

/-- Size Z of the log ring: the KIND 5 region of the structure, 256 MiB before any structure is active. -/
def State.logSize (s : State) : Nat :=
  match s.str.tables with
  | some t => match t.hbm.find? (fun r => r.kind == 5) with
    | some r => r.size
    | none => 268435456
  | none => 268435456

/-- Bytes of the log ring in use: records not yet passed by LOG_HOST_RD (R455). -/
def State.logUsed (s : State) : Nat :=
  (s.log.ring.map fun r => r.payload.len).sum + (s.log.host.map fun r => r.1.payload.len).sum

/-- Free space F of the log ring (R450). -/
def State.logFree (s : State) : Nat := s.logSize - s.logUsed

/-- Replace the log path. -/
def State.modLog (s : State) (f : LogState → LogState) : State := { s with log := f s.log }

/-- Admit a record: it takes the next LSEQ and joins the log ring. -/
def admitRec (r : LogRec) (s : State) : State :=
  s.modLog fun l => { l with ring := l.ring ++ [{ r with lseq := l.nextLseq }], nextLseq := l.nextLseq + 1 }

/-- A record not yet numbered, raised now. -/
def mkRec (s : State) (cls : LogClass) (code inst : Nat) (p : Payload) : LogRec :=
  { cls := cls, held := false, reissue := false, code := code, inst := inst, lseq := 0, time := s.pressNs, payload := p }

/-! ## Alarms -/

/-- Set an alarm's latch bit; a bit set from 0 raises the alarm vector (R451, Table 24.4). -/
def latchAlarm (code : Nat) (s : State) : State :=
  let w := s.rd Reg.evtAlarmLatch (code / 32)
  if bitsOf w (code % 32) (code % 32) = 1 then s
  else (s.wr Reg.evtAlarmLatch (code / 32) (setBits w (code % 32) (code % 32) 1)).msix (s.fld Reg.evtVec 0 7 0)

/-- Whether a waiting alarm record is of this code and instance. -/
def sameAlarm (code inst : Nat) (r : LogRec) : Bool := r.code == code && r.inst == inst

/-- Add 1 to REPEAT of a waiting alarm record. -/
def bumpRepeat (r : LogRec) : LogRec :=
  match r.payload with
  | .args a b c n => { r with payload := .args a b c (n + 1) }
  | _ => r

/-- Raise an alarm with its ARG values (R451). -/
def alarmArgs (a : Alarm) (inst : Nat) (a0 a1 a2 : Int) (s : State) : State :=
  let s := latchAlarm a.code s
  let r := mkRec s .alarm a.code inst (.args (BitVec.ofInt 64 a0) (BitVec.ofInt 64 a1) (BitVec.ofInt 64 a2) 0)
  if s.log.waitAlarms.any (sameAlarm a.code inst) then
    s.modLog fun l => { l with waitAlarms := l.waitAlarms.map fun w => if sameAlarm a.code inst w then bumpRepeat w else w }
  else if s.log.waitAlarms.isEmpty && decide (r.payload.len ≤ s.logFree) then admitRec r s
  else if s.log.waitAlarms.length < 1024 then s.modLog fun l => { l with waitAlarms := l.waitAlarms ++ [r] }
  else s.setFld Reg.evtStatus 0 1 1 1

/-- Raise an alarm that names an instance and no further item. -/
def alarm (a : Alarm) (inst : Nat) (s : State) : State := alarmArgs a inst 0 0 0 s

/-! ## DIAG records and SUMMARY -/

/-- One more drop of a class (R452). -/
def DropState.drop (d : DropState) (code time : Nat) : DropState :=
  let codes := if d.codes.any (fun c => c.1 == code) then
      d.codes.map fun c => if c.1 == code then (c.1, c.2 + 1) else c
    else d.codes ++ [(code, 1)]
  { d with dropped := d.dropped + 1, codes := codes, first := if d.dropped = 0 then time else d.first, last := time,
           dropping := true }

/-- The code dropped most often, with its count; the first dropped on a tie. -/
def topCode : List (Nat × Nat) → Nat × Nat
  | [] => (0, 0)
  | c :: rest => let b := topCode rest
    if b.2 ≤ c.2 then c else b

/-- Write the SUMMARY of a class (R452): it is admitted while F holds its LEN and waits otherwise. -/
def writeSummary (cls : LogClass) (s : State) : State :=
  let d := if cls = .trace then s.log.traceDrops else s.log.drops
  let top := topCode d.codes
  let r := mkRec s cls 0xFFFF noInst (.summary d.dropped top.1 top.2 d.first d.last)
  let d' : DropState := { d with dropped := 0, codes := [], lastSummary := s.press }
  let s := s.modLog fun l => if cls = .trace then { l with traceDrops := d' } else { l with drops := d' }
  if s.log.waitSummaries.isEmpty && s.log.waitAlarms.isEmpty && decide (r.payload.len ≤ s.logFree) then admitRec r s
  else s.modLog fun l => { l with waitSummaries := l.waitSummaries ++ [r] }

/-- How often this (code, INST) has been admitted in the present millisecond of press time (R452). -/
def diagSeen (s : State) (code inst : Nat) : Nat :=
  if s.log.diagMs = s.pressNs / 1000000 then
    match s.log.diagCount.find? (fun e => e.1 == code && e.2.1 == inst) with
    | some e => e.2.2
    | none => 0
  else 0

/-- Count one more admission of a pair in the present millisecond. -/
def diagNote (code inst : Nat) (s : State) : State :=
  let n := diagSeen s code inst
  let base := if s.log.diagMs = s.pressNs / 1000000 then s.log.diagCount else []
  let others := base.filter fun e => !(e.1 == code && e.2.1 == inst)
  s.modLog fun l => { l with diagMs := s.pressNs / 1000000, diagCount := others ++ [(code, inst, n + 1)] }

/-- Raise a DIAG event: admitted or dropped at once (R450, R452). -/
def diag (d : Diag) (inst : Nat) (a0 a1 a2 : Int) (s : State) : State :=
  let r := mkRec s .diag d.code inst (.args (BitVec.ofInt 64 a0) (BitVec.ofInt 64 a1) (BitVec.ofInt 64 a2) 0)
  if s.logFree < s.logSize / 4 ∨ 2 ^ s.fld Reg.logCfg 0 3 0 ≤ diagSeen s d.code inst then
    (s.modLog fun l => { l with drops := l.drops.drop d.code s.pressNs }).count Reg.logDropDiag
  else
    let s := if s.log.drops.dropping then
        (writeSummary .diag s).modLog fun l => { l with drops := { l.drops with dropping := false } }
      else s
    diagNote d.code inst (admitRec r s)

/-! ## Items and the backlog -/

/-- LOG_BACKLOG capacity (R453). -/
def backlogSize : Nat := 262144

/-- Reserve a backlog entry for an item that binds (R453). -/
def reserveEntry (ctx seq : Nat) (s : State) : State :=
  s.modLog fun l => { l with backlog := l.backlog ++ [{ ctx := ctx, seq := seq, st := .reserved }] }

/-- Whether every backlog entry is reserved or filled. -/
def State.backlogIsFull (s : State) : Bool := decide (backlogSize ≤ s.log.backlog.length)

/-- The record of an outcome (Table 4.14). -/
def itemRec (s : State) (o : OutcomeRec) (held reissue : Bool) : LogRec :=
  { mkRec s .item 0x0200 o.ctx (.outcome o) with held := held, reissue := reissue, time := o.time }

/-- An outcome held beyond ITEM_HOLD becomes VOID before admission, and RFLAGS.HELD is set (R453). -/
def holdOutcome (s : State) (o : OutcomeRec) (since : Nat) (held : Bool) : OutcomeRec × Bool :=
  if held ∨ s.fld Reg.logCfg 0 31 22 * ms8 ≤ s.now - since then
    ({ o with outcome := 9, codes := o.codes ||| 0x200#16 }, true)
  else (o, false)

/-- Take a final outcome into its entry (a new one where none is reserved), behind those already waiting. -/
def fillEntry (o : OutcomeRec) (s : State) : State :=
  s.modLog fun l => { l with backlog :=
    (l.backlog.filter fun e => !(e.ctx == o.ctx && e.seq == o.seq && e.st == .reserved))
      ++ [{ ctx := o.ctx, seq := o.seq, st := .final o s.now false }] }

/-- Admit the waiting records of one list in order while F holds `bound`; the rest go on waiting. -/
def admitList (bound : State → Nat) : List LogRec → State → List LogRec × State
  | [], s => ([], s)
  | r :: rest, s =>
    if bound s ≤ s.logFree ∧ r.payload.len ≤ s.logFree then admitList bound rest (admitRec r s) else (r :: rest, s)

/-- Admit final outcomes from the backlog in the order in which they became final. -/
def admitItems : List BackEntry → State → List BackEntry × State
  | [], s => ([], s)
  | e :: rest, s =>
    match e.st with
    | .final o since held =>
      if s.logSize / 64 ≤ s.logFree ∧ 56 ≤ s.logFree then
        let (o', h) := holdOutcome s o since held
        let lseq := s.log.nextLseq
        let (rest', s') := admitItems rest (admitRec (itemRec s o' h false) s)
        ({ e with st := .admitted o' lseq } :: rest', s')
      else (e :: rest, s)
    | _ => let (rest', s') := admitItems rest s
      (e :: rest', s')

/-- Admit everything that waits and fits, in the order of Table 24.3 (R450). -/
def admitWaiting (s : State) : State :=
  let (wa, s) := admitList (fun _ => 0) s.log.waitAlarms s
  let s := s.modLog fun l => { l with waitAlarms := wa }
  let (ws, s) := admitList (fun _ => 0) s.log.waitSummaries s
  let s := s.modLog fun l => { l with waitSummaries := ws }
  let (wu, s) := admitList (fun s => s.logSize / 64) s.log.waitAudit s
  let s := s.modLog fun l => { l with waitAudit := wu }
  let (bl, s) := admitItems s.log.backlog s
  s.modLog fun l => { l with backlog := bl }

/-- An AUDIT record of the partition: admitted, or it waits in the partition (R450, R413). -/
def raiseAudit (a : AuditRec) (s : State) : State :=
  let code := match a with
    | .transaction .. => 0x0300
    | .event .. => 0x0301
  let r := mkRec s .audit code noInst (.audit a)
  admitWaiting (s.modLog fun l => { l with waitAudit := l.waitAudit ++ [r] })

/-- A final outcome becomes a waiting outcome record and is admitted when F allows (R87, R453). -/
def raiseItem (o : OutcomeRec) (s : State) : State := admitWaiting (fillEntry o s)

/-- Enter or leave the BACKLOG_FULL episode after the backlog has changed (R453). -/
def backlogEpisode (s : State) : State :=
  if s.backlogIsFull then
    if s.log.backlogFull then s
    else alarm .logBacklogFull noInst (s.modLog fun l => { l with backlogFull := true })
  else s.modLog fun l => { l with backlogFull := false }

/-! ## Semaphores -/

/-- An OWNED semaphore becomes BROKEN, keeping its owner (R460). -/
def Sem.break (m : Sem) : Sem := if m.st = .owned then { m with st := .broken } else m

/-- Break every owned semaphore (R460). -/
def breakAllSems (s : State) : State := { s with sems := s.sems.map Sem.break }

/-- Break the semaphores that a function instance owns (R62, R460). -/
def breakSemsOf (func inst : Nat) (s : State) : State :=
  { s with sems := s.sems.map fun m =>
      if func ≠ 0 ∧ m.func.toNat = func ∧ m.inst.toNat = inst then m.break else m }

end Sys2Proof.Machine
end

