-- ==== Sys2Proof/Machine/Operands.lean ====
section
/-! DEFINITION. Operand forms: little-endian fields of byte strings, the image header (R434 to R436), structure bodies
(R25 to R36, R508) and record batches (R79). -/

namespace Sys2Proof.Machine

/-! ## Byte strings -/

/-- The byte at an offset; 0 beyond the end. -/
def u8 (b : Bytes) (o : Nat) : Nat := ((b[o]?).getD 0).toNat
/-- Little-endian u16 (R25). -/
def u16 (b : Bytes) (o : Nat) : Nat := u8 b o + 2 ^ 8 * u8 b (o + 1)
/-- Little-endian u32. -/
def u32 (b : Bytes) (o : Nat) : Nat := u16 b o + 2 ^ 16 * u16 b (o + 2)
/-- Little-endian u64. -/
def u64 (b : Bytes) (o : Nat) : Nat := u32 b o + 2 ^ 32 * u32 b (o + 4)
/-- Signed forms. -/
def s16 (b : Bytes) (o : Nat) : Int := signed 16 (u16 b o)
/-- Signed 32-bit field. -/
def s32 (b : Bytes) (o : Nat) : Int := signed 32 (u32 b o)
/-- Signed 64-bit field. -/
def s64 (b : Bytes) (o : Nat) : Int := signed 64 (u64 b o)
/-- `n` bytes from an offset. -/
def slice (b : Bytes) (o n : Nat) : Bytes := (b.drop o).take n
/-- `n` bytes from an offset are zero. -/
def zeros (b : Bytes) (o n : Nat) : Bool := (slice b o n).all (· == 0)
/-- `n` u8 fields from an offset. -/
def u8s (b : Bytes) (o n : Nat) : List Nat := (List.range n).map fun i => u8 b (o + i)
/-- Ceiling division. -/
def ceilDiv (a b : Nat) : Nat := (a + b - 1) / b
/-- Division that rounds toward minus infinity. -/
def floorDiv (a b : Int) : Int := a.fdiv b

/-! ## The common image header (Table 23.1) -/

/-- CLASS. -/
def Image.cls (i : Image) : Nat := u8 i.bytes 6
/-- VERSION. -/
def Image.version (i : Image) : Nat := u32 i.bytes 12
/-- BODY_LEN. -/
def Image.bodyLen (i : Image) : Nat := u32 i.bytes 32
/-- BLOCKS. -/
def Image.blocks (i : Image) : Nat := u16 i.bytes 36
/-- SVN. -/
def Image.svn (i : Image) : Nat := u8 i.bytes 38
/-- PROTO. -/
def Image.proto (i : Image) : Nat := u16 i.bytes 40
/-- SETFMT. -/
def Image.setfmt (i : Image) : Nat := u16 i.bytes 42
/-- SWID. -/
def Image.swid (i : Image) : Bytes := slice i.bytes 48 16
/-- The body: the bytes after the header and the CRC table (R434). -/
def Image.body (i : Image) : Bytes := i.bytes.drop (256 + 4 * i.blocks)

/-- Largest and smallest BODY_LEN of a class (Table 23.1). -/
def bodyBounds (cls : Nat) : Nat × Nat :=
  if cls = 1 then (1, 8388608) else if cls = 2 then (16, 4194304) else (1, 2097152)

/-- What the rows of Table 23.2 compare the header with. -/
structure ImageCtx where
  cls : Nat
  length : Nat
  hwtype : Nat
  unitId : Nat
  devRev : Nat
  fwiVersion : Nat
  minSvn : Nat

/-- Rows 1 to 7 of Table 23.2, over the header: 0 when all pass, else the first failing row. -/
def headerRow (h : Bytes) (c : ImageCtx) : Nat :=
  let body := u32 h 32
  let ver := if c.cls = 1 then c.devRev else c.fwiVersion
  if h.length < 256 ∨ u32 h 0 ≠ 0x474D4953 ∨ u16 h 4 ≠ 1 ∨ 1 < u8 h 7 ∨ !zeros h 39 1 ∨ !zeros h 44 4 ∨
      u16 h 36 ≠ ceilDiv body 65536 ∨ c.length ≠ 256 + 4 * u16 h 36 + body then 1
  else if u8 h 6 ≠ c.cls then 2
  else if u32 h 8 ≠ c.hwtype then 3
  else if u8 h 7 % 2 = 1 ∧ u64 h 16 ≠ c.unitId then 4
  else if ver < u32 h 24 ∨ u32 h 28 < ver then 5
  else if body < (bodyBounds c.cls).1 ∨ (bodyBounds c.cls).2 < body ∨ 192 < u8 h 38 then 6
  else if u8 h 38 < c.minSvn then 7
  else 0

/-- The status of a failing row of Table 23.2; OK for 0. -/
def rowStatus : Nat → Status
  | 0 => .ok
  | 1 | 2 => .format
  | 3 | 4 | 5 | 7 => .incompatible
  | 6 => .range
  | _ => .integrity

/-- Whether every block that is complete matches its CRC word (row 8 of Table 23.2): `data` is the image so far. -/
def crcOk (data : Bytes) (complete : Bool) : Bool :=
  let blocks := u16 data 36
  let start := 256 + 4 * blocks
  let have_ := data.length - start
  (List.range blocks).all fun i =>
    let b := slice data (start + 65536 * i) 65536
    if 65536 * (i + 1) ≤ have_ ∨ complete then Config.crc32c b == u32 data (256 + 4 * i) else true

/-- Row 9 of Table 23.2: the key digest is the class's ROOT digest, not all zero, and the signature verifies (R435). -/
def signatureOk (image digest : Bytes) : Bool :=
  let key := slice image 64 96
  !(digest.all (· == 0)) && Config.sha384 key == digest &&
    Config.ecdsaVerify (slice image 64 48) (slice image 112 48) (image.take 160 ++ image.drop 256)
      (slice image 160 48) (slice image 208 48)

/-! ## Structure bodies -/

/-- A refusal of a body: its code, and the section, record and byte offset for STR_ERR (Table 2.16). -/
structure BodyErr where
  st : Status
  sect : Nat
  record : Nat
  offset : Nat
  deriving DecidableEq, Repr

/-- A check: the condition that refuses, and the refusal. -/
abbrev Check := Bool × BodyErr

/-- The first check that refuses. -/
def firstErr : List Check → Option BodyErr
  | [] => none
  | (c, e) :: rest => if c then some e else firstErr rest

/-- A directory entry (Table 2.1). -/
structure DirEntry where
  type : Nat
  sver : Nat
  offset : Nat
  length : Nat
  cnt : Nat
  deriving DecidableEq, Repr

/-- The directory entry at a byte offset. -/
def dirEntry (b : Bytes) (o : Nat) : DirEntry :=
  { type := u16 b o, sver := u16 b (o + 2), offset := u32 b (o + 4), length := u32 b (o + 8), cnt := u32 b (o + 12) }

/-- Section types of Table 2.2: (type, mandatory, record size with 0 for variable, least count, greatest count). -/
def structSections : List (Nat × Bool × Nat × Nat × Nat) :=
  [(0x01, true, 8, 64, 64), (0x02, true, 32, 8, 8), (0x03, true, 16, 1, 64), (0x04, true, 48, 1, 64),
   (0x05, true, 32, 1, 1024), (0x06, false, 0, 0, 256), (0x07, false, 0, 0, 4096), (0x08, false, 0, 0, 8),
   (0x09, true, 16, 1, 2048), (0x0A, true, 16, 1, 2048), (0x0C, true, 4, 16, 16), (0x0D, true, 24, 6, 64),
   (0x0E, false, 16, 0, 24), (0x0F, false, 4, 0, 64), (0x10, true, 16, 1, 1)]

/-- Offsets of the `n` variable-length records that start at `o`, with the offset after the last; `size b o` is the size
of the record at `o`. -/
def varRecords (size : Bytes → Nat → Nat) (b : Bytes) : Nat → Nat → List Nat × Nat
  | 0, o => ([], o)
  | n + 1, o => let (l, e) := varRecords size b n (o + size b o)
    (o :: l, e)

/-- Size of a variable record of a structure body (R30, R31). -/
def structVarSize (type : Nat) (b : Bytes) (o : Nat) : Nat :=
  if type = 0x06 then 2 + 2 * u16 b o else if type = 0x07 then 2 + u16 b o else 4 + u16 b (o + 2)

/-- Offsets of a section's records. -/
def sectionRecords (b : Bytes) (e : DirEntry) (size : Nat) : List Nat × Nat :=
  if size = 0 then varRecords (structVarSize e.type) b e.cnt e.offset
  else ((List.range e.cnt).map fun i => e.offset + size * i, e.offset + size * e.cnt)

/-- The records of a type in a body: offsets, in order; none when the section is absent. -/
def recordsOf (b : Bytes) (dir : List DirEntry) (type : Nat) : List Nat :=
  match dir.find? (fun e => e.type == type), structSections.find? (fun x => x.1 == type) with
  | some e, some x => (sectionRecords b e x.2.2.1).1
  | _, _ => []

/-- Parse the tables of a body whose directory is known. -/
def parseTables (b : Bytes) (dir : List DirEntry) : StructTables :=
  let at_ (type : Nat) {α : Type} (f : Nat → α) : List α := (recordsOf b dir type).map f
  { lanes := at_ 0x01 fun o => { role := u8 b o, endpoint := u8 b (o + 1), width := u8 b (o + 2), flags := u8 b (o + 3) }
    planes := at_ 0x02 fun o =>
      { enable := u8 b o, rows := u8 b (o + 1), bits := u8 b (o + 2), pitchKind := u8 b (o + 3), pitch := u32 b (o + 4),
        nW := u32 b (o + 8), pp := u8 b (o + 12), ppHalf := u8 b (o + 13), dealKind := u8 b (o + 14) }
    rows := at_ 0x03 fun o =>
      { plane := u8 b o, row := u8 b (o + 1), heads := u16 b (o + 2), offset := u64 b (o + 8) }
    endpoints := at_ 0x04 fun o =>
      { kind := u8 b o, lanes := u8 b (o + 1), number := u16 b (o + 2), laneList := u8s b (o + 4) 8,
        scanOffset := u64 b (o + 16), scanPitch := u32 b (o + 24),
        supplyMw := (List.range 4).map fun i => u32 b (o + 32 + 4 * i) }
    heads := at_ 0x05 fun o =>
      { head := u16 b o, hub := u16 b (o + 2), port := u8 b (o + 4), plane := u8 b (o + 5), row := u8 b (o + 6),
        flags := u8 b (o + 7), wale0 := s32 b (o + 8), nozzles := u16 b (o + 12), nmap := u16 b (o + 14),
        stitchR := u16 b (o + 16), maxFire := u32 b (o + 20) }
    nmaps := at_ 0x06 fun o => (List.range (u16 b o)).map fun i => s16 b (o + 2 + 2 * i)
    stitches := at_ 0x07 fun o => u8s b (o + 2) (u16 b o)
    deals := at_ 0x08 fun o => { plane := u8 b o, entries := u8s b (o + 4) (u16 b (o + 2)) }
    wgs := at_ 0x09 fun o =>
      { wg := u16 b o, head := u16 b (o + 2), first := u16 b (o + 4), count := u16 b (o + 6), ac := u16 b (o + 8) }
    acs := at_ 0x0A fun o =>
      { ac := u16 b o, hub := u16 b (o + 2), channel := u8 b (o + 4), supply := u8 b (o + 5), limitMw := u32 b (o + 8) }
    clusters := at_ 0x0C fun o => u8 b o
    hbm := at_ 0x0D fun o =>
      { kind := u8 b o, plane := u8 b (o + 1), depth := u32 b (o + 4), base := u64 b (o + 8), size := u64 b (o + 16) }
    axes := at_ 0x0E fun o =>
      { kind := u8 b o, index := u8 b (o + 1), encoder := u8 b (o + 2), flags := u8 b (o + 3), sdA := u8 b (o + 4),
        sdB := u8 b (o + 5) }
    pins := at_ 0x0F fun o => { gpio := u8 b o, func := u8 b (o + 1), pull := u8 b (o + 2), flags := u8 b (o + 3) }
    power := ((recordsOf b dir 0x10).map fun o =>
      ({ capW := u16 b o, marginW := u16 b (o + 2), opDef := u8 b (o + 4), opMax := u8 b (o + 5),
         offMask := u64 b (o + 8) } : PowerRec)).headD ⟨160, 10, 2, 3, 0⟩ }

/-- The fixed resolutions (R13). -/
def fixedDpi (n : Nat) : Bool := [2400, 1200, 800, 600, 300].contains n

/-- Reserved bytes of a record, as (offset, length) runs. -/
def structReserved (type : Nat) : List (Nat × Nat) :=
  match type with
  | 0x01 => [(4, 4)]
  | 0x02 => [(15, 17)]
  | 0x03 => [(4, 4)]
  | 0x04 => [(12, 4), (28, 4)]
  | 0x05 => [(18, 2), (24, 8)]
  | 0x08 => [(1, 1)]
  | 0x09 => [(10, 6)]
  | 0x0A => [(6, 2), (12, 4)]
  | 0x0C => [(1, 3)]
  | 0x0D => [(2, 2)]
  | 0x0E => [(6, 10)]
  | 0x10 => [(6, 2)]
  | _ => []

/-- Reserved bits that are not zero (R25): flag bits beyond those defined, and OFF_MASK [63:50]. -/
def structReservedBits (type : Nat) (b : Bytes) (o : Nat) : List (Bool × Nat) :=
  match type with
  | 0x01 => [(decide (4 ≤ u8 b (o + 3)), 3)]
  | 0x05 => [(decide (4 ≤ u8 b (o + 7)), 7)]
  | 0x0E => [(decide (2 ≤ u8 b (o + 3)), 3)]
  | 0x0F => [(decide (4 ≤ u8 b (o + 3)), 3)]
  | 0x10 => [(decide (2 ^ 50 ≤ u64 b (o + 8)), 8)]
  | _ => []

/-- Fields of one record against the ranges of chapter 02: (refused, byte offset in the record). -/
def structRanges (type : Nat) (b : Bytes) (o : Nat) : List (Bool × Nat) :=
  let no (c : Bool) (k : Nat) : Bool × Nat := (!c, k)
  match type with
  | 0x01 =>
    let role := u8 b o; let ep := u8 b (o + 1); let w := u8 b (o + 2)
    [no (decide (role ≤ 3)) 0,
     no (if role = 1 then decide (ep < 48) else if role = 2 then decide (ep < 16) else if role = 3 then decide (ep < 32)
         else ep == 0xFF) 1,
     no (if role = 3 then w == 1 || w == 2 || w == 4 else w == 0) 2]
  | 0x02 =>
    let en := u8 b o
    no (decide (en ≤ 1)) 0 ::
      if en = 1 then
        [no (decide (1 ≤ u8 b (o + 1) ∧ u8 b (o + 1) ≤ 8)) 1, no (decide (1 ≤ u8 b (o + 2) ∧ u8 b (o + 2) ≤ 3)) 2,
         no (decide (u8 b (o + 3) ≤ 1)) 3,
         no (if u8 b (o + 3) = 0 then fixedDpi (u32 b (o + 4)) else decide (5000 ≤ u32 b (o + 4) ∧ u32 b (o + 4) ≤ 200000)) 4,
         no (decide (1 ≤ u32 b (o + 8) ∧ u32 b (o + 8) ≤ 131072)) 8, no (decide (u8 b (o + 12) ≤ 7)) 12,
         no (decide (u8 b (o + 13) ≤ 2)) 13, no (decide (u8 b (o + 14) ≤ 1)) 14]
      else []
  | 0x03 => [no (decide (u8 b o ≤ 7)) 0, no (decide (u8 b (o + 1) ≤ 7)) 1, no (decide (u64 b (o + 8) ≤ 16000000000)) 8]
  | 0x04 =>
    let hub := u8 b o == 1
    [no (u8 b o == 1 || u8 b o == 2) 0, no (decide (1 ≤ u8 b (o + 1) ∧ u8 b (o + 1) ≤ if hub then 2 else 8)) 1,
     no (decide (u16 b (o + 2) < if hub then 48 else 16)) 2,
     no ((u8s b (o + 4) 8).all fun x => decide (x < 64) || x == 0xFF) 4,
     no (hub || decide (u64 b (o + 16) ≤ 16000000000)) 16]
  | 0x05 =>
    [no (decide (u16 b o < 1024)) 0, no (decide (u16 b (o + 2) < 48)) 2, no (decide (u8 b (o + 4) < 32)) 4,
     no (decide (u8 b (o + 5) < 8)) 5, no (decide (u8 b (o + 6) < 8)) 6,
     no (decide (1 ≤ u16 b (o + 12) ∧ u16 b (o + 12) ≤ 8192)) 12]
  | 0x07 => [no (decide (1 ≤ u16 b o ∧ u16 b o ≤ 256)) 0]
  | 0x08 => [no (decide (u8 b o < 8)) 0, no (decide (1 ≤ u16 b (o + 2) ∧ u16 b (o + 2) ≤ 4096)) 2]
  | 0x09 => [no (decide (u16 b o < 2048)) 0, no (decide (u16 b (o + 2) < 1024)) 2]
  | 0x0A => [no (decide (u16 b o < 2048)) 0, no (decide (u16 b (o + 2) < 48)) 2, no (decide (u8 b (o + 4) < 64)) 4,
     no (decide (u8 b (o + 5) < 4)) 5]
  | 0x0D =>
    let run := u8 b o == 4; let d := u32 b (o + 4)
    [no (decide (1 ≤ u8 b o ∧ u8 b o ≤ 6)) 0, no (if run then decide (u8 b (o + 1) < 8) else u8 b (o + 1) == 0xFF) 1,
     no (if run then decide (1024 ≤ d ∧ d ≤ 65536 ∧ d % 512 = 0) else d == 0) 4,
     no (decide (u64 b (o + 8) % 2097152 = 0)) 8, no (decide (u64 b (o + 16) % 2097152 = 0)) 16]
  | 0x0E =>
    let bl := u8 b o == 1
    let sd (x : Nat) : Bool := if bl then decide (x < 24) || x == 0xFF else x == 0xFF
    [no (u8 b o == 1 || u8 b o == 2) 0, no (decide (u8 b (o + 1) < if bl then 8 else 16)) 1,
     no (decide (u8 b (o + 2) < 16) || u8 b (o + 2) == 0xFF) 2, no (sd (u8 b (o + 4))) 4, no (sd (u8 b (o + 5))) 5]
  | 0x0F => [no (decide (u8 b o < 64)) 0, no (decide (u8 b (o + 2) ≤ 2)) 2]
  | 0x10 =>
    [no (decide (60 ≤ u16 b o ∧ u16 b o ≤ 220)) 0, no (decide (2 ≤ u16 b (o + 2) ∧ u16 b (o + 2) ≤ 40)) 2,
     no (decide (u8 b (o + 4) ≤ 3)) 4, no (decide (u8 b (o + 4) ≤ u8 b (o + 5) ∧ u8 b (o + 5) ≤ 3)) 5]
  | _ => []

/-- Step 3 of R508 for one record: reserved bytes, then the ranges of its fields. -/
def recordChecks (b : Bytes) (type idx o : Nat) : List Check :=
  (structReserved type).map (fun r => (!zeros b (o + r.1) r.2, ⟨.format, type, idx, r.1⟩)) ++
  (structReservedBits type b o).map (fun r => (r.1, ⟨.format, type, idx, r.2⟩)) ++
  (structRanges type b o).map (fun r => (r.1, ⟨.range, type, idx, r.2⟩))

/-- A refusal with RANGE that names the first record of a list that breaks a rule. -/
def firstBad {α : Type} (sect : Nat) (l : List α) (bad : α → Bool) : Check :=
  match l.findIdx? bad with
  | some i => (true, ⟨.range, sect, i, 0⟩)
  | none => (false, ⟨.range, sect, 0, 0⟩)

/-- No value of a list occurs twice. -/
def noDup {α : Type} [DecidableEq α] (l : List α) : Bool := decide l.Nodup

/-- The lanes an ENDPOINT record lists. -/
def EndpointRec.used (e : EndpointRec) : List Nat := e.laneList.filter (· != 0xFF)

/-- Wale of nozzle `n` of a head before the plane's limits; none where NMAP masks it (R30). -/
def nozzleWaleRaw (t : StructTables) (h : HeadRec) (n : Nat) : Option Int :=
  if h.nozzles ≤ n then none
  else if (h.flags / 2) % 2 = 1 then
    match t.nmaps[h.nmap]? with
    | some m => match m[n]? with
      | some d => if d = -32768 then none else some (h.wale0 + d)
      | none => none
    | none => none
  else some (if h.flags % 2 = 1 then h.wale0 - n else h.wale0 + n)

/-- Wale of nozzle `n` of a head; none when it is masked (R14, R30). -/
def nozzleWale (t : StructTables) (h : HeadRec) (n : Nat) : Option Nat :=
  match nozzleWaleRaw t h n, t.planes[h.plane]? with
  | some w, some p => if 0 ≤ w ∧ w < p.nW then some w.toNat else none
  | _, _ => none

/-- The unmasked nozzles of a head with their wales. -/
def headWales (t : StructTables) (h : HeadRec) : List (Nat × Nat) :=
  (List.range h.nozzles).filterMap fun n => (nozzleWale t h n).map fun w => (n, w)

/-- The lowest wale of a head (R30); none when every nozzle is masked. -/
def lowestWale (t : StructTables) (h : HeadRec) : Option Nat := ((headWales t h).map (·.2)).min?

/-- Whether head `a` lies below head `b` in x: lower lowest wale, or equal and lower number (R30). -/
def liesBelow (t : StructTables) (a b : HeadRec) : Bool :=
  match lowestWale t a, lowestWale t b with
  | some x, some y => decide (x < y) || (x == y && decide (a.head < b.head))
  | _, _ => false

/-- The next head upward in x of a head (R30). -/
def nextUp (t : StructTables) (h : HeadRec) : Option HeadRec :=
  let above := t.heads.filter fun k => k.plane == h.plane && k.row == h.row && liesBelow t h k
  above.find? fun k => above.all fun m => m.head == k.head || liesBelow t k m

/-- Whether a quad holds a used lane. -/
def quadUsed (t : StructTables) (q : Nat) : Bool :=
  (List.range 4).any fun i => ((t.lanes[4 * q + i]?).map fun l => l.role != 0).getD false

/-- Bytes of one runway course: B of R34. -/
def courseBytes (p : PlaneRec) : Nat := ceilDiv (p.nW * p.bits) 512 * 64

/-- Size of one HBM stack: the 96 GiB lie on four stacks in address order (chapter 17). -/
def stackBytes : Nat := 24 * 2 ^ 30

/-- Whether a GPIO function code is reserved (Table 26.4). -/
def pinFuncReserved (f : Nat) : Bool := !(decide (f ≤ 0x0A) || decide (0x10 ≤ f ∧ f ≤ 0x27))

/-- Whether a BAn_EN or SAn_EN function names an axis without an AXIS record (R473). -/
def pinAxisMissing (t : StructTables) (f : Nat) : Bool :=
  if 0x10 ≤ f ∧ f ≤ 0x17 then !t.axes.any fun a => a.kind == 1 && a.index == f - 0x10
  else if 0x18 ≤ f ∧ f ≤ 0x27 then !t.axes.any fun a => a.kind == 2 && a.index == f - 0x18
  else false

/-- Step 4 of R508: the joining checks R27 to R36 in label order, and R473. -/
def joinChecks (t : StructTables) : List Check :=
  let laneIs (i role : Nat) : Bool := ((t.lanes[i]?).map fun l => l.role == role).getD false
  let cnt (role : Nat) : Nat := (t.lanes.filter fun l => l.role == role).length
  let nLanes := t.lanes.zipIdx
  let fabricBad (x : LaneRec × Nat) : Bool := x.1.role == 3 && x.1.width != 0 &&
    (let base := x.2 - x.2 % x.1.width
     !((List.range x.1.width).all fun i => ((t.lanes[base + i]?).map fun l =>
        l.role == 3 && l.endpoint == x.1.endpoint && l.width == x.1.width).getD false) ||
     (nLanes.filter fun y => y.1.role == 3 && y.1.endpoint == x.1.endpoint).length != x.1.width)
  let endpointBad (x : LaneRec × Nat) : Bool :=
    (x.1.role == 1 || x.1.role == 2) &&
      !t.endpoints.any fun e => e.kind == x.1.role && e.number == x.1.endpoint && e.used.contains x.2
  let epBad (e : EndpointRec) : Bool :=
    e.lanes != e.used.length ||
      e.used.any fun l => !(laneIs l e.kind && ((t.lanes[l]?).map fun r => r.endpoint == e.number).getD false)
  let planes := t.planes.zipIdx
  let ppBad (x : PlaneRec × Nat) : Bool := x.1.enable == 1 &&
    (let same := planes.filter fun y => y.1.enable == 1 && y.1.pp == x.1.pp
     if x.1.ppHalf = 0 then same.length != 1
     else decide (65536 < x.1.nW) || decide (2 < same.length) ||
       same.any fun y => y.1.ppHalf == 0 || (y.2 != x.2 && y.1.ppHalf == x.1.ppHalf))
  let dealMissing (x : PlaneRec × Nat) : Bool :=
    x.1.enable == 1 && x.1.dealKind == 1 && !t.deals.any fun d => d.plane == x.2
  let enabled (p : Nat) : Bool := ((t.planes[p]?).map fun r => r.enable == 1).getD false
  let rowsOf (p : Nat) : Nat := ((t.planes[p]?).map fun r => r.rows).getD 0
  let rowBad (r : RowRec) : Bool :=
    !enabled r.plane || decide (rowsOf r.plane ≤ r.row) ||
      (t.rows.filter fun q => q.plane == r.plane && q.row == r.row).length != 1
  let rowsMissing (x : PlaneRec × Nat) : Bool := x.1.enable == 1 &&
    !(List.range x.1.rows).all fun k => t.rows.any fun q => q.plane == x.2 && q.row == k
  let nmapBad (h : HeadRec) : Bool := (h.flags / 2) % 2 == 1 &&
    !((t.nmaps[h.nmap]?).map fun m => m.length == h.nozzles).getD false
  let stitchBad (h : HeadRec) : Bool := h.stitchR != 0xFFFF &&
    ((nextUp t h).isNone || (t.stitches[h.stitchR]?).isNone)
  let dealBad (d : DealRec) : Bool :=
    d.entries.any (fun e => decide (rowsOf d.plane ≤ e)) || (t.deals.filter fun x => x.plane == d.plane).length != 1
  let headOf (n : Nat) : Option HeadRec := t.heads.find? fun h => h.head == n
  let wgBad (g : WgRec) : Bool := match headOf g.head, t.acs.find? (fun a => a.ac == g.ac) with
    | some h, some a => decide (h.nozzles < g.first + g.count) || a.hub != h.hub
    | _, _ => true
  let headUncovered (h : HeadRec) : Bool := (headWales t h).any fun x =>
    (t.wgs.filter fun g => g.head == h.head && decide (g.first ≤ x.1 ∧ x.1 < g.first + g.count)).length != 1
  let clusterBad (m : Nat) : Bool := (List.range 8).any fun p => m.testBit p && !enabled p
  let planeUnserved (x : PlaneRec × Nat) : Bool := x.1.enable == 1 && !t.clusters.any fun m => m.testBit x.2
  let hbmBad (x : HbmRec × Nat) : Bool :=
    decide (96 * 2 ^ 30 < x.1.base + x.1.size) ||
    (t.hbm.zipIdx.any fun y => y.2 != x.2 && decide (x.1.base < y.1.base + y.1.size ∧ y.1.base < x.1.base + x.1.size)) ||
    (x.1.kind == 4 && match t.planes[x.1.plane]? with
      | some p => p.enable != 1 || decide (x.1.size < x.1.depth * courseBytes p) ||
          (t.hbm.filter fun y => y.kind == 4 && y.plane == x.1.plane).length != 1
      | none => true) ||
    (x.1.kind == 5 && (t.hbm.filter fun y => y.kind == 5).length != 1)
  let runwayMissing (x : PlaneRec × Nat) : Bool :=
    x.1.enable == 1 && !t.hbm.any fun y => y.kind == 4 && y.plane == x.2
  let encs := (t.axes.map (·.encoder)).filter (· != 0xFF)
  let sds := (t.axes.flatMap fun a => [a.sdA, a.sdB]).filter (· != 0xFF)
  let off := t.power.offMask
  let offBad : Bool := off.testBit 44 || off.testBit 47 || off.testBit 48 || off.testBit 49 ||
    ((List.range 16).any fun q => off.testBit (24 + q) && quadUsed t q) ||
    (t.planes.any fun p => p.enable == 1 && off.testBit (16 + p.pp)) ||
    (t.clusters.zipIdx.any fun c => c.1 != 0 && off.testBit c.2) ||
    ((List.range 4).any fun k => off.testBit (40 + k) && t.hbm.any fun r =>
      decide (r.base < (k + 1) * stackBytes ∧ k * stackBytes < r.base + r.size)) ||
    (off.testBit 45 && !t.axes.isEmpty)
  let dupFunc (x : PinRec) : Bool := decide (1 < x.func) && (t.pins.filter fun y => y.func == x.func).length != 1
  [(decide (48 < cnt 1) || decide (16 < cnt 2) || decide (32 < cnt 3), ⟨.range, 0x01, 0, 0⟩),
   firstBad 0x01 nLanes fabricBad, firstBad 0x01 nLanes endpointBad, firstBad 0x04 t.endpoints epBad,
   firstBad 0x02 planes ppBad, firstBad 0x02 planes dealMissing,
   firstBad 0x03 t.rows rowBad, firstBad 0x02 planes rowsMissing,
   firstBad 0x05 t.heads nmapBad, firstBad 0x05 t.heads stitchBad, firstBad 0x08 t.deals dealBad,
   firstBad 0x09 t.wgs wgBad, firstBad 0x05 t.heads headUncovered,
   firstBad 0x0C t.clusters clusterBad, firstBad 0x02 planes planeUnserved,
   firstBad 0x0D t.hbm.zipIdx hbmBad, firstBad 0x02 planes runwayMissing,
   (!t.hbm.any fun r => r.kind == 5, ⟨.range, 0x0D, 0, 0⟩),
   (decide (1 < (t.axes.filter fun a => a.flags % 2 == 1).length) || !noDup encs || !noDup sds, ⟨.range, 0x0E, 0, 0⟩),
   (!noDup (t.axes.map fun a => (a.kind, a.index)), ⟨.range, 0x0E, 0, 0⟩),
   (!noDup (t.pins.map (·.gpio)), ⟨.range, 0x0F, 0, 0⟩),
   (offBad, ⟨.range, 0x10, 0, 8⟩),
   firstBad 0x0F t.pins (fun p => pinFuncReserved p.func), firstBad 0x0F t.pins dupFunc,
   firstBad 0x0F t.pins (fun p => pinAxisMissing t p.func)]

/-- Checks of one directory entry against a table of section types (R26, R508 step 1). -/
def dirChecks (sections : List (Nat × Bool × Nat × Nat × Nat)) (ends : DirEntry → Nat → Nat) (b : Bytes)
    (dir : List DirEntry) (i : Nat) (e : DirEntry) : List Check :=
  match sections.find? (fun x => x.1 == e.type) with
  | none => [(true, ⟨.incompatible, 0, i, 0⟩)]
  | some (_, _, size, lo, hi) =>
    [(e.sver != 1, ⟨.incompatible, 0, i, 2⟩),
     (decide (e.offset % 64 ≠ 0), ⟨.format, 0, i, 4⟩),
     (decide (b.length < e.offset + e.length), ⟨.format, 0, i, 8⟩),
     (decide (e.cnt < lo ∨ hi < e.cnt), ⟨.format, 0, i, 12⟩),
     (if size = 0 then decide (ends e size ≠ e.offset + e.length) else decide (e.length ≠ size * e.cnt), ⟨.format, 0, i, 8⟩),
     ((dir.take i).any fun d => d.type == e.type, ⟨.format, 0, i, 0⟩)]

/-- The structure body's tables, or the first refusal in the order of R508. -/
def checkBody (b : Bytes) : BodyErr ⊕ StructTables :=
  let n := u16 b 6
  let dir := (List.range n).map fun i => dirEntry b (16 + 16 * i)
  let hdr : List Check :=
    [(decide (b.length < 16 ∨ u32 b 0 ≠ 0x31495453), ⟨.format, 0, 0, 0⟩), (u16 b 4 != 1, ⟨.incompatible, 0, 0, 4⟩),
     (decide (n < 10 ∨ 15 < n), ⟨.format, 0, 0, 6⟩), (u32 b 8 != b.length, ⟨.format, 0, 0, 8⟩),
     (!zeros b 12 4, ⟨.format, 0, 0, 12⟩)]
  let dirs := (dir.zipIdx.map fun x =>
    dirChecks structSections (fun e size => (sectionRecords b e size).2) b dir x.2 x.1).flatten
  let mand := (structSections.filter fun x => x.2.1).map fun x =>
    ((!dir.any fun e => e.type == x.1, ⟨.format, 0, 0, 0⟩) : Check)
  match firstErr (hdr ++ dirs ++ mand) with
  | some e => .inl e
  | none =>
    let recs := (dir.map fun e =>
      ((recordsOf b dir e.type).zipIdx.map fun x => recordChecks b e.type x.2 x.1).flatten).flatten
    match firstErr recs with
    | some e => .inl e
    | none =>
      let t := parseTables b dir
      match firstErr (joinChecks t) with
      | some e => .inl e
      | none => .inr t

/-! ## Record batches (R79) -/

/-- Parse the values of a record: `n` values from offset `o` within `len`; none when they do not fit or a pad byte is
not zero. -/
def parseValues (b : Bytes) (len : Nat) : Nat → Nat → Option (List (Nat × Bytes))
  | 0, o => if o = len then some [] else none
  | n + 1, o =>
    let l := u16 b (o + 2)
    let next := o + ceilDiv (4 + l) 8 * 8
    if len < next ∨ !zeros b (o + 4 + l) (next - (o + 4 + l)) then none
    else (parseValues b len n next).map fun vs => (u16 b o, slice b (o + 4) l) :: vs

/-- One record of a batch (Table 4.12); none when it is malformed. -/
def parseRecord (b : Bytes) (maxRecord : Nat) : Option Record :=
  let len := u16 b 8
  if b.length < 16 ∨ len < 16 ∨ maxRecord < len ∨ len % 8 ≠ 0 ∨ b.length < len ∨ 1 < u8 b 10 ∨ u8 b 11 ≠ 0 ∨ !zeros b 14 2
  then none
  else (parseValues b len (u16 b 12) 16).map fun vs => { seq := u64 b 0, skip := u8 b 10 % 2 == 1, values := vs }

/-- What a batch holds: its records, or the index of the first failing record and its refusal (R79). The sequence
number of record i is `seq`, and every field index lies below `fields`. -/
def parseBatch (maxRecord fields : Nat) : Nat → Nat → Nat → Bytes → (Status × Nat) ⊕ List Record
  | 0, i, _, b => if b = [] then .inr [] else .inl (.format, i)
  | n + 1, i, seq, b =>
    match parseRecord b maxRecord with
    | none => .inl (.format, i)
    | some r =>
      if r.seq ≠ seq then .inl (.range, i)
      else if r.values.any (fun v => decide (fields ≤ v.1)) then .inl (.range, i)
      else match parseBatch maxRecord fields n (i + 1) (seq + 1) (b.drop (u16 b 8)) with
        | .inl e => .inl e
        | .inr l => .inr (r :: l)

end Sys2Proof.Machine
end

