-- ==== Sys2Proof/Machine/Package.lean ====
section
/-! DEFINITION. Job packages: the header and lane table (Table 4.8), the section directory (R89) and the sections of
chapters 05, 06, 07 and 12, with every check of the LAST JOB_LOAD in the order of R508. -/

namespace Sys2Proof.Machine

/-- Section types of a package: (type, mandatory, record size with 0 for variable, least count, greatest count). -/
def packageSections : List (Nat × Bool × Nat × Nat × Nat) :=
  [(0x0101, false, 0, 0, 512), (0x0102, false, 64, 0, 4096), (0x0103, false, 0, 0, 64), (0x0104, false, 0, 0, 1024),
   (0x0110, false, 32, 0, 64), (0x0111, false, 0, 0, 256), (0x0112, false, 16, 0, 16), (0x0120, false, 0, 0, 8),
   (0x0130, false, 19684, 0, 1)]

/-- Number of planes in a mask of 8. -/
def maskCount (m : Nat) : Nat := ((List.range 8).filter fun p => m.testBit p).length

/-- Bytes of one image row, padded to a multiple of 8 (Table 5.7). -/
def imageRowBytes (w : Nat) : Nat := ceilDiv w 8 * 8

/-- Bytes of one row of a threshold array (Table 7.1, R142). -/
def screenRowBytes (tw : Nat) : Nat := ceilDiv (7 * tw) 8 * 8

/-- Size of a variable record of a package section. -/
def packageVarSize (type : Nat) (b : Bytes) (o : Nat) : Nat :=
  match type with
  | 0x0101 => 32 + u32 b (o + 4) * u32 b (o + 20)
  | 0x0103 => 16 + 24 * u16 b (o + 2) + u32 b (o + 8)
  | 0x0104 => 16 + maskCount (u8 b (o + 2)) * u16 b (o + 6) * imageRowBytes (u16 b (o + 4))
  | 0x0111 => 8 + 8 * u16 b (o + 2) + ceilDiv (u32 b (o + 4)) 8 * 8
  | _ => 64 + (if u8 b (o + 1) = 1 then u16 b (o + 34) * screenRowBytes (u16 b (o + 32)) else 0)

/-- Offsets of a package section's records, with the end. -/
def packageRecords (b : Bytes) (e : DirEntry) (size : Nat) : List Nat × Nat :=
  if size = 0 then varRecords (packageVarSize e.type) b e.cnt e.offset
  else ((List.range e.cnt).map fun i => e.offset + size * i, e.offset + size * e.cnt)

/-- The record offsets of a type in a package. -/
def packageAt (b : Bytes) (dir : List DirEntry) (type : Nat) : List Nat :=
  match dir.find? (fun e => e.type == type), packageSections.find? (fun x => x.1 == type) with
  | some e, some x => (packageRecords b e x.2.2.1).1
  | _, _ => []

/-- Parse a glyph entry. -/
def parseGlyph (b : Bytes) (o : Nat) : Glyph :=
  { cp := u32 b o, off := u32 b (o + 4), w := u16 b (o + 8), h := u16 b (o + 10), bx := s16 b (o + 12),
    bY := s16 b (o + 14), adv := u16 b (o + 16) }

/-- Parse a FIELD record (Table 5.3). -/
def parseField (b : Bytes) (o : Nat) : FieldRec :=
  { type := u8 b o, fflags := u8 b (o + 1), layer := u8 b (o + 2), rot := u8 b (o + 3), planes := u8 b (o + 4),
    ko := u8 b (o + 5), source := u8 b (o + 6), lanes := u64 b (o + 8), ax := s32 b (o + 16), ay := s32 b (o + 20),
    boxW := u16 b (o + 24), boxH := u16 b (o + 26), tone := u8s b (o + 28) 8, res := u16 b (o + 36),
    align := u8 b (o + 38), param := slice b (o + 40) 24 }

/-- Parse a package whose directory is known. -/
def parsePackage (b : Bytes) (dir : List DirEntry) : Package :=
  let at_ (type : Nat) {α : Type} (f : Nat → α) : List α := (packageAt b dir type).map f
  { planes := u8 b 6, policy := u8 b 7, gaugeKind := u8 b 8, gauge := u32 b 12, rpt := u64 b 16, height := u64 b 24,
    firstSeq := u64 b 32, maxRecord := u16 b 40
    lanes := (List.range (u8 b 9)).map fun i =>
      { lane := u8 b (64 + 16 * i), width := u32 b (68 + 16 * i), origin := u64 b (72 + 16 * i) }
    grounds := at_ 0x0101 fun o =>
      { plane := u8 b o, rowBytes := u32 b (o + 4), lanes := u64 b (o + 8), gw := u32 b (o + 16), gh := u32 b (o + 20),
        ox := s32 b (o + 24), oy := s32 b (o + 28), data := slice b (o + 32) (u32 b (o + 4) * u32 b (o + 20)) }
    fields := at_ 0x0102 (parseField b)
    atlases := at_ 0x0103 fun o =>
      { atlas := u16 b o, dflt := u16 b (o + 4),
        glyphs := (List.range (u16 b (o + 2))).map fun g => parseGlyph b (o + 16 + 24 * g),
        data := slice b (o + 16 + 24 * u16 b (o + 2)) (u32 b (o + 8)) }
    images := at_ 0x0104 fun o =>
      { image := u16 b o, planes := u8 b (o + 2), scale := u8 b (o + 3), w := u16 b (o + 4), h := u16 b (o + 6),
        data := slice b (o + 16) (packageVarSize 0x0104 b o - 16) }
    counters := at_ 0x0110 fun o =>
      { counter := u8 b o, scope := u8 b (o + 1), radix := u8 b (o + 2), width := u8 b (o + 3), stp := u32 b (o + 4),
        start := u64 b (o + 8), limit := u64 b (o + 16), cflags := u8 b (o + 24) }
    gens := at_ 0x0111 fun o =>
      { gen := u16 b o,
        segs := (List.range (u16 b (o + 2))).map fun i =>
          { kind := u8 b (o + 8 + 8 * i), arg := u8 b (o + 9 + 8 * i), len := u16 b (o + 10 + 8 * i),
            arg2 := u32 b (o + 12 + 8 * i) },
        pool := slice b (o + 8 + 8 * u16 b (o + 2)) (u32 b (o + 4)) }
    macs := at_ 0x0112 fun o =>
      { mac := u8 b o, alg := u8 b (o + 1), slot := u8 b (o + 2), tlen := u8 b (o + 3), gen := u16 b (o + 4) }
    screens := at_ 0x0120 fun o =>
      { plane := u8 b o, method := u8 b (o + 1), mask := u8 b (o + 2), shift := u8 b (o + 3), levelMap := u8s b (o + 8) 8,
        recon := u8s b (o + 16) 8, kernel := u8s b (o + 24) 7, tw := u16 b (o + 32), th := u16 b (o + 34),
        tx := u16 b (o + 36), ty := u16 b (o + 38),
        cells := (List.range (u16 b (o + 34))).flatMap fun y => (List.range (u16 b (o + 32))).map fun x =>
          u8s b (o + 64 + y * screenRowBytes (u16 b (o + 32)) + 7 * x) 7 }
    appear := (at_ 0x0130 fun o =>
      ({ axis := u8s b o 8, chan := u8s b (o + 8) 8, nodes := slice b (o + 32) 19652 } : AppearRec)).head? }

/-- A package check: the condition that refuses, and its code. -/
abbrev PCheck := Bool × Status

/-- The header and lane table (R74, Table 4.8, R18). `enabled p` tells whether plane p is enabled. -/
def headerChecks (b : Bytes) (enabled : Nat → Bool) : List PCheck :=
  let lanes := u8 b 9
  let rpt := u64 b 16
  [(decide (b.length < 64) || u32 b 0 != 0x31424F4A, .format),
   (decide (4 ≤ u8 b 7) || !zeros b 10 2 || !zeros b 48 16 || (List.range lanes).any (fun i => !zeros b (65 + 16 * i) 3), .format),
   (u32 b 44 != b.length || decide (b.length < 64 + 16 * lanes), .format),
   (u16 b 4 != 1, .incompatible),
   (decide (1 < u8 b 8), .range),
   (decide (lanes < 1 ∨ 64 < lanes), .range),
   (!(if u8 b 8 = 0 then fixedDpi (u32 b 12) else decide (5000 ≤ u32 b 12 ∧ u32 b 12 ≤ 200000)), .range),
   (decide (rpt < 1000000 ∨ 10000000000 < rpt), .range),
   (decide (u64 b 24 < 1 ∨ 4 * rpt < u64 b 24), .range),
   (decide (u16 b 40 < 16 ∨ 4096 < u16 b 40 ∨ u16 b 40 % 8 ≠ 0), .range),
   ((List.range lanes).any fun i => decide (64 ≤ u8 b (64 + 16 * i)) ||
      (i != 0 && decide (u8 b (64 + 16 * i) ≤ u8 b (48 + 16 * i))), .range),
   ((List.range 8).any fun p => (u8 b 6).testBit p && !enabled p, .range)]

/-- Reserved bytes of a package record that are not zero. -/
def packageReserved (type : Nat) (b : Bytes) (o : Nat) : Bool :=
  match type with
  | 0x0101 => !zeros b (o + 1) 3
  | 0x0102 => decide (2 ≤ u8 b (o + 1)) || !zeros b (o + 7) 1 || !zeros b (o + 39) 1 ||
      (match u8 b o with
       | 1 => !zeros b (o + 44) 20
       | 2 => !zeros b (o + 45) 1 || !zeros b (o + 51) 13 || (u8 b (o + 6) != 2 && !zeros b (o + 50) 1)
       | 3 => !zeros b (o + 40) 24
       | 4 => decide (8 ≤ u8 b (o + 47)) || !zeros b (o + 49) 1 || !zeros b (o + 52) 12
       | 5 => !zeros b (o + 48) 2 || !zeros b (o + 52) 12
       | 6 => !zeros b (o + 41) 23
       | _ => false)
  | 0x0103 => !zeros b (o + 6) 2 || !zeros b (o + 12) 4 ||
      (List.range (u16 b (o + 2))).any fun g => !zeros b (o + 34 + 24 * g) 6
  | 0x0104 => !zeros b (o + 8) 8
  | 0x0110 => decide (4 ≤ u8 b (o + 24)) || !zeros b (o + 25) 7
  | 0x0112 => !zeros b (o + 6) 10
  | 0x0120 => !zeros b (o + 4) 4 || !zeros b (o + 31) 1 || !zeros b (o + 40) 24
  | _ => false

/-- Whether every ground bit beyond 3 × GW is zero (R91). -/
def groundPadOk (g : GroundRec) : Bool :=
  (List.range g.gh).all fun r => (List.range (8 * g.rowBytes - 3 * g.gw)).all fun i =>
    let bit := 3 * g.gw + i
    !(u8 g.data (r * g.rowBytes + bit / 8)).testBit (bit % 8)

/-- The BARCODE options of Table 6.3 and R116: whether SIZE, ECC, MASK, WIDE and OPTS fit the symbology. -/
def barcodeParamOk (p : Bytes) : Bool :=
  let sym := u8 p 0; let mw := u8 p 1; let mh := u8 p 2; let size := u8 p 4; let ecc := u8 p 5; let mask := u8 p 6
  let wide := u8 p 8
  decide (1 ≤ sym ∧ sym ≤ 10) && decide (1 ≤ mw ∧ mw ≤ 32) &&
  (if sym ≤ 4 then decide (1 ≤ mh ∧ mh ≤ 32) else mh == 0) &&
  (match sym with
   | 1 => decide (size ≤ 40) && decide (ecc ≤ 3)
   | 2 => decide (size ≤ 30) && ecc == 0
   | 3 => decide (1 ≤ size ∧ size ≤ 30) && (decide (ecc ≤ 8) || ecc == 0xFF)
   | 4 => (decide (size ≤ 4) || decide (0x81 ≤ size ∧ size ≤ 0xA0)) && (ecc == 0 || decide (5 ≤ ecc ∧ ecc ≤ 95))
   | _ => size == 0 && ecc == 0) &&
  (if sym = 1 then decide (mask ≤ 7) || mask == 0xFF else mask == 0) &&
  (if sym = 9 ∨ sym = 10 then decide (2 * mw ≤ wide ∧ wide ≤ 3 * mw) else wide == 0)

/-- Values of one parsed field against Tables 5.3, 5.4, 6.2 and 6.4, field by field. -/
def fieldRange (f : FieldRec) : Bool :=
  decide (1 ≤ f.type ∧ f.type ≤ 6) && decide (f.rot ≤ 3) && decide (f.source ≤ 2) && decide (1 ≤ f.boxW) &&
  decide (1 ≤ f.boxH) && decide (f.align ≤ 2) &&
  (match f.type with
   | 2 =>
       let p := f.param
       decide (1 ≤ u8 p 0 ∧ u8 p 0 ≤ 20) && decide (u8 p 1 ≤ 9) &&
       (u8 p 2 == 0 || decide (0x20 ≤ u8 p 2 ∧ u8 p 2 ≤ 0x7E)) && decide (0x20 ≤ u8 p 3 ∧ u8 p 3 ≤ 0x7E) && decide (u8 p 4 ≤ 1)
   | 4 => barcodeParamOk f.param && (if f.source = 2 then u16 f.param 10 != 0 else u16 f.param 10 == 0)
   | 5 => decide (u8 f.param 0 ≤ 1) &&
       (u8 f.param 0 == 0 || (decide (1 ≤ u8 f.param 1 ∧ u8 f.param 1 ≤ 32) &&
         decide (1 ≤ u8 f.param 2 ∧ u8 f.param 2 ≤ 32) && decide (1 ≤ u8 f.param 3 ∧ u8 f.param 3 ≤ 64))) &&
       (if f.source = 2 then u16 f.param 10 != 0 else u16 f.param 10 == 0)
   | 6 => decide (u8 f.param 0 ≤ 15)
   | _ => true)

/-- Values of one counter (Table 6.5). -/
def counterRange (c : CounterRec) : Bool :=
  decide (c.counter ≤ 63) && decide (c.scope ≤ 1) && (c.radix == 10 || c.radix == 16 || c.radix == 36) &&
  decide (1 ≤ c.width ∧ c.width ≤ 20) && decide (1 ≤ c.stp) && decide (c.start ≤ c.limit) &&
  (c.cflags < 2 || c.radix == 10)

/-- Values of one generator segment (Table 6.6); `pool` is the literal pool's length. -/
def segRange (pool : Nat) (g : GenSeg) : Bool :=
  match g.kind with
  | 1 => decide (g.arg2 + g.len ≤ pool)
  | 2 | 3 => true
  | 4 => decide (1 ≤ g.len ∧ g.len ≤ 20)
  | 5 => decide (g.arg2 ≤ 3) && (g.arg2 != 3 || decide (1 ≤ g.len ∧ g.len ≤ 38))
  | _ => false

/-- Least cell condition of a threshold array (R134). -/
def cellOk : List Nat → Bool
  | [] => true
  | [x] => decide (x ≤ 255)
  | x :: y :: rest => decide (1 ≤ x ∧ x ≤ y) && cellOk (y :: rest)

/-- Levels that a MASK allows, in increasing order. -/
def allowedLevels (mask : Nat) : List Nat := (List.range 8).filter fun v => mask.testBit v

/-- Values strictly rise. -/
def strictlyRises : List Nat → Bool
  | [] => true
  | [_] => true
  | x :: y :: rest => decide (x < y) && strictlyRises (y :: rest)

/-- Values never fall. -/
def neverFalls : List Nat → Bool
  | [] => true
  | [_] => true
  | x :: y :: rest => decide (x ≤ y) && neverFalls (y :: rest)

/-- Bytes of a SCREEN record's threshold array (R142). -/
def arrayBytes (r : ScreenRec) : Nat := if r.method = 1 then r.th * screenRowBytes r.tw else 0

/-- The line-buffer budget of a plane (R142). -/
def planeBudget (p : PlaneRec) : Nat := if p.ppHalf = 0 then 3670016 else 1835008

/-- R134 for one SCREEN record on a plane record. -/
def screenOk (p : PlaneRec) (r : ScreenRec) : Bool :=
  decide (r.method ≤ 2) && r.levelMap.getD 0 0 == 0 && r.levelMap.getD 7 0 == 2 ^ p.bits - 1 && neverFalls r.levelMap &&
  (if r.method = 1 then
     r.mask == 0 && r.recon.all (· == 0) && r.shift == 0 && r.kernel.all (· == 0) &&
     decide (1 ≤ r.tw ∧ r.tw ≤ 512 ∧ 1 ≤ r.th ∧ r.th ≤ 512 ∧ r.tx < r.tw ∧ r.ty < r.th) && r.cells.all cellOk &&
     decide (arrayBytes r ≤ planeBudget p)
   else
     r.mask.testBit 0 && r.mask.testBit 7 && r.recon.getD 0 0 == 0 && r.recon.getD 7 0 == 255 &&
     strictlyRises ((allowedLevels r.mask).map fun v => r.recon.getD v 0) &&
     r.tw == 0 && r.th == 0 && r.tx == 0 && r.ty == 0 &&
     (if r.method = 2 then decide (4 ≤ r.shift ∧ r.shift ≤ 8) && decide (r.kernel.sum ≤ 2 ^ r.shift)
      else r.shift == 0 && r.kernel.all (· == 0)))

/-- Step 3 of R508 for one package record: reserved bytes (FORMAT), then its own fields (RANGE). -/
def packageRecordChecks (b : Bytes) (pk : Package) (type i o : Nat) : List PCheck :=
  let inJob (p : Nat) : Bool := decide (p < 8) && pk.planes.testBit p
  (packageReserved type b o, .format) ::
  match type with
  | 0x0101 => match pk.grounds[i]? with
    | none => []
    | some g =>
      [(!groundPadOk g, .format),
       (!inJob g.plane || decide (g.gw < 1 ∨ 131072 < g.gw ∨ g.gh < 1 ∨ 1048576 < g.gh), .range),
       (g.rowBytes != ceilDiv (g.gw * 3) 512 * 64, .range)]
  | 0x0102 => match pk.fields[i]? with
    | none => []
    | some f => [(!fieldRange f, .range)]
  | 0x0103 => match pk.atlases[i]? with
    | none => []
    | some a =>
      [(decide (a.glyphs.length ≤ a.dflt) || !strictlyRises (a.glyphs.map (·.cp)) ||
        a.glyphs.any fun g => decide (a.data.length < g.off + g.h * ceilDiv g.w 8), .range)]
  | 0x0104 => match pk.images[i]? with
    | none => []
    | some m => [(!(m.scale == 1 || m.scale == 2 || m.scale == 4 || m.scale == 8), .range)]
  | 0x0110 => match pk.counters[i]? with
    | none => []
    | some c => [(!counterRange c, .range)]
  | 0x0111 => match pk.gens[i]? with
    | none => []
    | some g => [(g.gen == 0 || decide (g.segs.length < 1 ∨ 32 < g.segs.length) || !g.segs.all (segRange g.pool.length), .range)]
  | 0x0112 => match pk.macs[i]? with
    | none => []
    | some m =>
      [(decide (15 < m.mac) || decide (m.alg < 1 ∨ 3 < m.alg) || decide (31 < m.slot) || decide (m.tlen < 4 ∨ 16 < m.tlen), .range)]
  | 0x0120 => match pk.screens[i]? with
    | none => []
    | some r => [(!inJob r.plane, .range)]
  | 0x0130 => match pk.appear with
    | none => []
    | some a =>
      [(!zeros b (o + 16) 16 || (List.range 4913).any (fun n => u8 a.nodes (4 * n + 3) != 0), .range),
       ((List.range 8).any (fun p => (!inJob p && (a.axis.getD p 0xFF != 0xFF || a.chan.getD p 0xFF != 0xFF)) ||
         decide (4 ≤ a.axis.getD p 0xFF ∧ a.axis.getD p 0xFF ≤ 0xFE) ||
         decide (4 ≤ a.chan.getD p 0xFF ∧ a.chan.getD p 0xFF ≤ 0xFE)), .range)]
  | _ => []

/-- Cross-web pitch of a plane in nanometres, rounded down: 25,400,000 / D or P (R13). -/
def planePitch (p : PlaneRec) : Nat := if p.pitchKind = 0 then 25400000 / p.pitch else p.pitch

/-- Course pitch of a job in nanometres, rounded down. -/
def jobPitch (pk : Package) : Nat := if pk.gaugeKind = 0 then 25400000 / pk.gauge else pk.gauge

/-- Whether SCALE × pitch reaches 21,166 nm across and along on a plane, computed exactly (R97). -/
def imageScaleOk (p : PlaneRec) (pk : Package) (scale : Nat) : Bool :=
  (if p.pitchKind = 0 then decide (21166 * p.pitch ≤ scale * 25400000) else decide (21166 ≤ scale * p.pitch)) &&
  (if pk.gaugeKind = 0 then decide (21166 * pk.gauge ≤ scale * 25400000) else decide (21166 ≤ scale * pk.gauge))

/-- Image test of a field on all its planes (R97). -/
def fieldImageOk (t : StructTables) (pk : Package) (f : FieldRec) (m : ImageRec) : Bool :=
  (List.range 8).all fun p => !f.planes.testBit p || match t.planes[p]? with
    | some pr => imageScaleOk pr pk m.scale
    | none => false

/-- Step 4 of R508: checks that join records, sections, the structure and the key slots. `slotKind n` is the kind of a
valid key slot, 0 for an empty one; `metOff` tells that PD_MET is held off. -/
def packageJoins (t : StructTables) (pk : Package) (slotKind : Nat → Nat) (metOff : Bool) : List PCheck :=
  let laneMask := (pk.lanes.map fun l => 2 ^ l.lane).sum
  let lanesOk (m : Nat) : Bool := (List.range 64).all fun l => !m.testBit l || laneMask.testBit l
  let planesOk (m : Nat) : Bool := (List.range 8).all fun p => !m.testBit p || pk.planes.testBit p
  let samePitch (m : Nat) : Bool :=
    let l := (List.range 8).filterMap fun p => if m.testBit p then (t.planes[p]?).map fun r => (r.pitchKind, r.pitch) else none
    l.all fun x => l.head? == some x
  let atlasOk (n : Nat) : Bool := pk.atlases.any fun a => a.atlas == n
  let fieldBad (f : FieldRec) : Bool :=
    f.planes == 0 || !planesOk f.planes || !planesOk f.ko || !lanesOk f.lanes || !samePitch (f.planes ||| f.ko) ||
    ((f.type == 1 || f.type == 2 || (f.type == 5 && u8 f.param 0 == 0)) && !atlasOk f.res) ||
    (f.type == 3 && f.source == 1 && !pk.images.any fun m => m.image == f.res) ||
    (f.source == 1 && f.type != 3) || (f.source == 2 && (f.type == 1 || f.type == 3)) ||
    (f.type == 6 && (f.source != 2 || f.ko != 0)) || (f.type == 6 && metOff)
  let crowded : Bool := (List.range 64).any fun l => (List.range 8).any fun p =>
    decide (256 < (pk.fields.filter fun f => f.lanes.testBit l && (f.planes ||| f.ko).testBit p).length)
  let imageBad (f : FieldRec) : Bool := f.type == 3 && f.source == 1 &&
    match pk.images.find? (fun m => m.image == f.res) with
    | some m => !fieldImageOk t pk f m
    | none => true
  let groundDup : Bool := (List.range 8).any fun p => (List.range 64).any fun l =>
    decide (1 < (pk.grounds.filter fun g => g.plane == p && g.lanes.testBit l).length)
  let genBad (g : GenRec) : Bool := g.segs.any fun x => match x.kind with
    | 2 => !pk.counters.any fun c => c.counter == x.arg
    | 3 => decide (pk.fields.length ≤ x.arg2)
    | 5 => !pk.macs.any fun m => m.mac == x.arg
    | _ => false
  let macBad (m : MacRec) : Bool :=
    match pk.gens.find? (fun g => g.gen == m.gen) with
    | none => true
    | some g => g.segs.any (fun x => x.kind == 5) || slotKind m.slot != m.alg
  let fieldGenBad (f : FieldRec) : Bool := f.source == 2 &&
    if f.type = 2 then !pk.counters.any fun c => c.counter == u8 f.param 10
    else if f.type = 4 ∨ f.type = 5 then !pk.gens.any fun g => g.gen == u16 f.param 10
    else false
  let screenBad (r : ScreenRec) : Bool := match t.planes[r.plane]? with
    | some p => !screenOk p r
    | none => true
  [(pk.grounds.any fun g => !lanesOk g.lanes, .range), (groundDup, .range), (pk.fields.any fieldBad, .range),
   (crowded, .range), (!noDup (pk.atlases.map (·.atlas)) || !noDup (pk.images.map (·.image)), .range),
   (pk.fields.any imageBad, .range),
   (!noDup (pk.counters.map (·.counter)) || !noDup (pk.gens.map (·.gen)) || !noDup (pk.macs.map (·.mac)), .range),
   (pk.fields.any fieldGenBad, .range), (pk.gens.any genBad, .range), (pk.macs.any macBad, .range),
   (pk.screens.any screenBad || !noDup (pk.screens.map (·.plane)), .range),
   ((pk.policy / 2 % 2 == 1 || pk.fields.any fun f => f.type == 6) && pk.appear.isNone, .range)]

/-- HBM bytes a package needs in the ground store (KIND 1) and in the atlas and image region (KIND 2). -/
def packageBytes (pk : Package) : Nat × Nat :=
  ((pk.grounds.map fun g => g.data.length).sum,
   (pk.atlases.map fun a => 24 * a.glyphs.length + a.data.length).sum + (pk.images.map fun m => m.data.length).sum)

/-- Total size of the HBM regions of a kind. -/
def regionBytes (t : StructTables) (kind : Nat) : Nat := ((t.hbm.filter fun r => r.kind == kind).map (·.size)).sum

/-- The first package refusal. -/
def firstP (l : List PCheck) : Option Status :=
  match firstRefusal l with
  | .ok => none
  | st => some st

/-- The package, or the first refusal of the LAST JOB_LOAD in the order of R508 (R74, R90). `used` is the HBM already
taken in the ground store and in the atlas and image region. -/
def checkPackage (t : StructTables) (slotKind : Nat → Nat) (metOff : Bool) (used : Nat × Nat) (b : Bytes) :
    Status ⊕ Package :=
  let enabled (p : Nat) : Bool := ((t.planes[p]?).map fun r => r.enable == 1).getD false
  let base := 64 + 16 * u8 b 9
  let dir := (List.range (u16 b 42)).map fun i => dirEntry b (base + 16 * i)
  let overlap := dir.zipIdx.any fun x => dir.zipIdx.any fun y =>
    x.2 != y.2 && decide (x.1.offset < y.1.offset + y.1.length ∧ y.1.offset < x.1.offset + x.1.length)
  let dirs := (dir.zipIdx.map fun x =>
    (dirChecks packageSections (fun e size => (packageRecords b e size).2) b dir x.2 x.1).map fun c => ((c.1, c.2.st) : PCheck)).flatten
  match firstP (headerChecks b enabled ++ dirs ++ [(overlap, .format)]) with
  | some st => .inl st
  | none =>
    let pk := parsePackage b dir
    let recs := (dir.map fun e => ((packageAt b dir e.type).zipIdx.map fun x => packageRecordChecks b pk e.type x.2 x.1).flatten).flatten
    let need := packageBytes pk
    let space : PCheck := (decide (regionBytes t 1 < used.1 + need.1) || decide (regionBytes t 2 < used.2 + need.2), .range)
    match firstP (recs ++ packageJoins t pk slotKind metOff ++ [space]) with
    | some st => .inl st
    | none => .inr pk

end Sys2Proof.Machine
end

