-- ==== Sys2Proof/Machine/Compose.lean ====
section
/-! DEFINITION. Composition (chapters 01, 05, 06): the wale and course grids, text and number layout, counters,
generators, tags, marks and symbols, and the ground, contone and sealed lines of one course. Everything here is a
function of the package, the records, the binding and the generated values (R106). -/

namespace Sys2Proof.Machine

/-! ## Grids (R13, R15, R18) -/

/-- A pitch as an exact fraction of nanometres. -/
structure Pitch where
  num : Nat
  den : Nat
  deriving DecidableEq, Repr

/-- Cross-web pitch of a plane (R13). -/
def crossPitch (p : PlaneRec) : Pitch := if p.pitchKind = 0 then ⟨25400000, p.pitch⟩ else ⟨p.pitch, 1⟩

/-- Course pitch of a job (R15). -/
def coursePitch (pk : Package) : Pitch := if pk.gaugeKind = 0 then ⟨25400000, pk.gauge⟩ else ⟨pk.gauge, 1⟩

/-- Distance of step `k` from the origin of the grid, rounded down (R13, R15). -/
def Pitch.at (q : Pitch) (k : Nat) : Nat := k * q.num / q.den

/-- Lowest step at or beyond `x`. -/
def Pitch.firstAt (q : Pitch) (x : Nat) : Nat := ceilDiv (x * q.den) q.num

/-- Wales of lane entry `l` on plane `p` under R18: first wale and the one after the last, clipped (R19). -/
def laneWales (p : PlaneRec) (l : JobLane) : Nat × Nat :=
  let q := crossPitch p
  (q.firstAt l.origin, min p.nW (ceilDiv ((l.origin + l.width + 1) * q.den) q.num - 1))

/-- First course of repeat `j` (R18). -/
def firstCourse (pk : Package) (j : Nat) : Nat := (coursePitch pk).firstAt (j * pk.rpt)

/-- The course after the last course of repeat `j` (R18): courses k with c_k + pitch at most y_j + H. -/
def endCourse (pk : Package) (j : Nat) : Nat :=
  let q := coursePitch pk
  let b : Int := floorDiv (((j * pk.rpt + pk.height) * q.den : Nat) - (q.num : Int)) q.den
  if b < 0 then 0 else ceilDiv ((b.toNat + 1) * q.den) q.num

/-- Whether an item covers wale `w` and course `k` of a plane. -/
def itemCovers (pk : Package) (p : PlaneRec) (it : Item) (w k : Nat) : Bool :=
  match pk.lanes.find? (fun l => l.lane == it.lane) with
  | some l => let r := laneWales p l
    decide (r.1 ≤ w ∧ w < r.2 ∧ firstCourse pk it.rpt ≤ k ∧ k < endCourse pk it.rpt)
  | none => false

/-- Nearest wale edge to `xt` (R102). -/
def nearestStep (q : Pitch) (x : Int) : Int := floorDiv (2 * x * q.den + q.num) (2 * q.num)

/-! ## Text -/

/-- A UTF-8 continuation byte. -/
def isCont (b : Byte) : Bool := b.toNat / 64 == 2

/-- Well-formed UTF-8 to Unicode scalars; none when it is malformed. -/
def decodeUtf8 : Bytes → Option (List Nat)
  | [] => some []
  | a :: rest =>
    let x := a.toNat
    if x < 0x80 then (decodeUtf8 rest).map (x :: ·)
    else match rest with
      | [] => none
      | b :: rest2 =>
        if !isCont b then none
        else if 0xC2 ≤ x ∧ x ≤ 0xDF then (decodeUtf8 rest2).map ((x % 32 * 64 + b.toNat % 64) :: ·)
        else match rest2 with
          | [] => none
          | c :: rest3 =>
            if !isCont c then none
            else
              let v3 := x % 16 * 4096 + b.toNat % 64 * 64 + c.toNat % 64
              if 0xE0 ≤ x ∧ x ≤ 0xEF then
                if v3 < 0x800 ∨ (0xD800 ≤ v3 ∧ v3 ≤ 0xDFFF) then none else (decodeUtf8 rest3).map (v3 :: ·)
              else match rest3 with
                | [] => none
                | d :: rest4 =>
                  let v4 := x % 8 * 262144 + b.toNat % 64 * 4096 + c.toNat % 64 * 64 + d.toNat % 64
                  if 0xF0 ≤ x ∧ x ≤ 0xF4 ∧ isCont d ∧ 0x10000 ≤ v4 ∧ v4 ≤ 0x10FFFF then
                    (decodeUtf8 rest4).map (v4 :: ·)
                  else none

/-- ASCII codes of a natural number in a radix, upper case. -/
def radixDigits (radix n : Nat) : List Nat := (Nat.toDigits radix n).map fun c => c.toUpper.toNat

/-- Left-pad with ASCII "0" to a length. -/
def padZeros (n : Nat) (l : List Nat) : List Nat := List.replicate (n - l.length) 48 ++ l

/-- Insert a separator before every third character counted from the right, not at the start (R100). -/
def groupDigits (sep : Nat) (l : List Nat) : List Nat :=
  (l.zipIdx.map fun x => if x.2 ≠ 0 ∧ (l.length - x.2) % 3 = 0 then [sep, x.1] else [x.1]).flatten

/-- The text of a NUMBER field (R100). -/
def numberText (param : Bytes) (v : Int) : List Nat :=
  let digits := u8 param 0; let dec := u8 param 1; let grp := u8 param 2
  let d := padZeros (digits + dec) (radixDigits 10 v.natAbs)
  let ip := d.take (d.length - dec); let fp := d.drop (d.length - dec)
  let ip' := if grp = 0 then ip else groupDigits grp ip
  (if v < 0 then [45] else if u8 param 4 = 1 then [43] else []) ++ ip' ++ (if dec = 0 then [] else u8 param 3 :: fp)

/-- The glyph of a code point, DEFAULT when it is absent (R99). -/
def glyphOf (a : AtlasRec) (cp : Nat) : Option Glyph :=
  match a.glyphs.find? (fun g => g.cp == cp) with
  | some g => some g
  | none => a.glyphs[a.dflt]?

/-- Frame width and height of a field (ROT of Table 5.3). -/
def frameSize (f : FieldRec) : Nat × Nat := if f.rot % 2 = 0 then (f.boxW, f.boxH) else (f.boxH, f.boxW)

/-- TRACK and BASELINE of a text-like field (Tables 5.4, 6.4). -/
def trackBase (f : FieldRec) : Int × Int :=
  match f.type with
  | 1 => (s16 f.param 0, u16 f.param 2)
  | 2 => (s16 f.param 6, u16 f.param 8)
  | _ => (s16 f.param 4, u16 f.param 6)

/-- Place glyphs along the pen (R99): top-left corners and the pen after the last. -/
def placeGlyphs (a : AtlasRec) (track base : Int) : List Nat → Int → List (Int × Int × Glyph) × Int
  | [], pen => ([], pen)
  | c :: rest, pen =>
    match glyphOf a c with
    | none => placeGlyphs a track base rest pen
    | some g => let (l, e) := placeGlyphs a track base rest (pen + g.adv + track)
      ((pen + g.bx, base - g.bY, g) :: l, e)

/-- The laid-out glyphs of a text and its width (R99). -/
def layout (f : FieldRec) (a : AtlasRec) (cps : List Nat) : List (Int × Int × Glyph) × Int :=
  let (track, base) := trackBase f
  let (l, pen) := placeGlyphs a track base cps 0
  let width : Int := if cps.isEmpty then 0 else pen - track
  let fw : Int := (frameSize f).1
  let shift : Int := if f.align = 0 then 0 else if f.align = 1 then floorDiv (fw - width) 2 else fw - width
  (l.map fun x => (x.1 + shift, x.2.1, x.2.2), width)

/-- Whether a glyph inks frame pixel (u, v) from its top-left corner (R96). -/
def glyphInk (a : AtlasRec) (x y : Int) (g : Glyph) (u v : Nat) : Bool :=
  let i := (u : Int) - x; let j := (v : Int) - y
  if 0 ≤ i ∧ i < g.w ∧ 0 ≤ j ∧ j < g.h then
    (u8 a.data (g.off + j.toNat * ceilDiv g.w 8 + i.toNat / 8)).testBit (i.toNat % 8)
  else false

/-! ## Counters and generators (R121 to R125) -/

/-- A counter's value for an index; none where it cannot be built (R121). -/
def counterValue (c : CounterRec) (i : Nat) : Option Nat :=
  let v := c.start + c.stp * i
  if v ≤ c.limit then some v
  else if c.cflags % 2 = 1 then some (c.start + (c.stp * i) % (c.limit - c.start + 1))
  else none

/-- GS1 modulo-10 check digit of decimal digits: the rightmost weighs 3, the next 1, and so on (R122). -/
def mod10Check (digits : List Nat) : Nat :=
  let s := (digits.reverse.zipIdx.map fun x => (x.1 - 48) * (if x.2 % 2 = 0 then 3 else 1)).sum
  (10 - s % 10) % 10

/-- A formatted counter (R122). -/
def counterText (c : CounterRec) (v : Nat) : List Nat :=
  let d := padZeros c.width (radixDigits c.radix v)
  if c.cflags / 2 % 2 = 1 then d ++ [48 + mod10Check d] else d

/-- Text as bytes. -/
def toBytes (l : List Nat) : Bytes := l.map (BitVec.ofNat 8)

/-- Big-endian bytes of a number. -/
def beBytes : Nat → Nat → Bytes
  | 0, _ => []
  | n + 1, v => beBytes n (v / 256) ++ [BitVec.ofNat 8 v]

/-- A big-endian byte string as a number. -/
def beNat (b : Bytes) : Nat := b.foldl (fun a x => a * 256 + x.toNat) 0

/-- Upper-case hexadecimal (Table 6.6). -/
def hexText (b : Bytes) : List Nat := b.flatMap fun x => padZeros 2 (radixDigits 16 x.toNat)

/-- Base32 of RFC 4648 without padding, ceil(8 × length ÷ 5) characters (Table 6.6). -/
def base32Text (b : Bytes) : List Nat :=
  let n := ceilDiv (8 * b.length) 5
  let v := beNat b * 2 ^ (5 * n - 8 * b.length)
  (List.range n).map fun i =>
    let d := v / 2 ^ (5 * (n - 1 - i)) % 32
    if d < 26 then 65 + d else 50 + d - 26

/-- A tag in an encoding of Table 6.6. -/
def encodeTag (enc len : Nat) (tag : Bytes) : List Nat :=
  if enc = 0 then tag.map (·.toNat)
  else if enc = 1 then hexText tag
  else if enc = 2 then base32Text tag
  else padZeros len (radixDigits 10 (beNat tag % 10 ^ len))

/-- What building one item's values reads (R106, R129). -/
structure BuildCtx where
  pk : Package
  seq : Nat
  /-- Records bound earlier to slots of the same lane (R121). -/
  laneIndex : Nat
  values : List (Nat × Bytes)
  /-- Key and algorithm kind of a slot; none for an empty one. -/
  key : Nat → Option Bytes

/-- A counter's value for the item (R121). -/
def BuildCtx.counter (c : BuildCtx) (n : Nat) : Option (CounterRec × Nat) :=
  match c.pk.counters.find? (fun r => r.counter == n) with
  | none => none
  | some r => (counterValue r (if r.scope = 0 then c.seq - c.pk.firstSeq else c.laneIndex)).map fun v => (r, v)

/-- The item's value for a field: the first of several (R94). -/
def BuildCtx.value (c : BuildCtx) (f : Nat) : Option Bytes := (c.values.find? fun v => v.1 == f).map (·.2)

/-- The output of a segment other than MAC, or a sub-reason of Table 6.9. -/
def segOutput (c : BuildCtx) (pool : Bytes) (mac : Nat → Nat ⊕ Bytes) (g : GenSeg) : Nat ⊕ Bytes :=
  match g.kind with
  | 1 => .inr (slice pool g.arg2 g.len)
  | 2 => match c.counter g.arg with
    | some (r, v) => .inr (toBytes (counterText r v))
    | none => .inl 5
  | 3 => let b := (c.value g.arg2).getD []
    if g.len ≠ 0 ∧ g.len < b.length then .inl 7 else .inr b
  | 4 => .inr (toBytes (padZeros g.len (radixDigits 10 c.seq)))
  | _ => match mac g.arg with
    | .inl e => .inl e
    | .inr tag => .inr (toBytes (encodeTag g.arg2 g.len tag))

/-- Join segment outputs in order; the first failure fails the generator (R124, R130). -/
def joinSegs (out : GenSeg → Nat ⊕ Bytes) : List GenSeg → Nat ⊕ Bytes
  | [] => .inr []
  | g :: rest => match out g with
    | .inl e => .inl e
    | .inr b => match joinSegs out rest with
      | .inl e => .inl e
      | .inr r => .inr (b ++ r)

/-- The output of a generator without MAC segments (a MAC's message, R125). -/
def plainGen (c : BuildCtx) (n : Nat) : Nat ⊕ Bytes :=
  match c.pk.gens.find? (fun g => g.gen == n) with
  | none => .inl 1
  | some g => joinSegs (segOutput c g.pool fun _ => .inl 1) g.segs

/-- The tag of a MAC definition for the item (R125); sub-reason 6 for a slot that is empty. -/
def macTag (c : BuildCtx) (n : Nat) : Nat ⊕ Bytes :=
  match c.pk.macs.find? (fun m => m.mac == n) with
  | none => .inl 1
  | some m => match c.key m.slot with
    | none => .inl 6
    | some key => match plainGen c m.gen with
      | .inl e => .inl e
      | .inr msg => .inr ((if m.alg = 3 then Config.hmacSha256 key msg else Config.aesCmac key msg).take m.tlen)

/-- The output of any generator (R124, R129). -/
def genOutput (c : BuildCtx) (n : Nat) : Nat ⊕ Bytes :=
  match c.pk.gens.find? (fun g => g.gen == n) with
  | none => .inl 1
  | some g => joinSegs (segOutput c g.pool (macTag c)) g.segs

/-! ## Symbols and marks -/

/-- Quiet zone of a barcode on the left and above (Table 6.3). -/
def quietZone (p : Bytes) : Nat :=
  if u8 p 3 ≠ 0xFF then u8 p 3
  else match u8 p 0 with
    | 1 => 4 | 2 => 1 | 3 => 2 | 4 => 0 | 7 => 11 | 8 => 9 | _ => 10

/-- Quiet zone on the right (EAN-13 differs, Table 6.3). -/
def quietRight (p : Bytes) : Nat := if u8 p 3 = 0xFF ∧ u8 p 0 = 7 then 7 else quietZone p

/-- Digits only. -/
def allDigits (b : Bytes) : Bool := b.all fun x => decide (48 ≤ x.toNat ∧ x.toNat ≤ 57)

/-- Digit counts and check digits of EAN-13, UPC-A and ITF-14 (R117): the data with its check digit, or a sub-reason. -/
def fixedDigits (n : Nat) (b : Bytes) : Nat ⊕ Bytes :=
  if !allDigits b then .inl 1
  else
    let chk := BitVec.ofNat 8 (48 + mod10Check ((b.take n).map (·.toNat)))
    if b.length = n then .inr (b ++ [chk])
    else if b.length = n + 1 then (if b.getLast? = some chk then .inr b else .inl 2)
    else .inl 1

/-- Data as the encoder takes it (R117), or a sub-reason. -/
def symbolData (p b : Bytes) : Nat ⊕ Bytes :=
  match u8 p 0 with
  | 7 => fixedDigits 12 b
  | 8 => fixedDigits 11 b
  | 9 => fixedDigits 13 b
  | 10 =>
    let std (x : Nat) : Bool := decide (48 ≤ x ∧ x ≤ 57) || decide (65 ≤ x ∧ x ≤ 90) ||
      [32, 45, 46, 36, 47, 43, 37].contains x
    if b.all (fun x => if u8 p 7 / 4 % 2 = 1 then decide (x.toNat ≤ 0x7F) else std x.toNat) then .inr b else .inl 1
  | _ => .inr b

/-- Build a symbol (R117, R118): the module matrix, or a sub-reason; it must fit the frame with its quiet zone. -/
def buildSymbol (f : FieldRec) (data : Bytes) : Nat ⊕ Rendered :=
  let p := f.param
  match symbolData p data with
  | .inl e => .inl e
  | .inr d =>
    let (sub, rows) := Config.symbol (p.take 12) d
    if sub ≠ 0 then .inl sub
    else
      let mw := u8 p 1; let mh := u8 p 2; let q := quietZone p
      let cols := (rows.headD []).length
      let (fw, fh) := frameSize f
      let fits := if u8 p 0 ≤ 4 then decide ((cols + q + quietRight p) * mw ≤ fw ∧ (rows.length + 2 * q) * mh ≤ fh)
        else decide (cols + (q + quietRight p) * mw ≤ fw)
      if fits then .inr (.matrix rows q) else .inl 4

/-- Encoder units of a symbol (chapter 06, Capacity): ceil(M ÷ 4,096), at least 1. -/
def symbolUnits (f : FieldRec) (rows : List (List Bool)) (q : Nat) : Nat :=
  let cols := (rows.headD []).length
  let m := if u8 f.param 0 ≤ 4 then (cols + 2 * q) * (rows.length + 2 * q)
    else cols / max 1 (u8 f.param 1) + q + quietRight f.param
  max 1 (ceilDiv m 4096)

/-- Build a MARK (R119). -/
def buildMark (f : FieldRec) (content : Bytes) : Nat ⊕ Rendered :=
  if content = [] ∨ 64 < content.length then .inl 7
  else if u8 f.param 0 = 0 then
    match decodeUtf8 content with
    | some cps => .inr (.text cps)
    | none => .inl 1
  else
    let bits := 8 * content.length; let cols := u8 f.param 3
    let (fw, fh) := frameSize f
    if min cols bits * u8 f.param 1 ≤ fw ∧ ceilDiv bits cols * u8 f.param 2 ≤ fh then .inr (.dots content) else .inl 4

/-- What building a field gives: rendered, left out without an error, or a field error (reason, sub-reason). -/
inductive Built where
  | shown (r : Rendered)
  | absent
  | failed (reason sub : Nat)
  deriving DecidableEq, Repr

/-- Sub-reasons as reason 7 (R130). -/
def ofSub : Nat ⊕ Rendered → Built
  | .inl e => .failed 7 e
  | .inr r => .shown r

/-- Build field `i` of an item (R93 to R101, R119, R120, R129); SEALED fields are built by the partition. -/
def buildField (c : BuildCtx) (t : StructTables) (i : Nat) (f : FieldRec) : Built :=
  let missing : Built := if f.fflags % 2 = 1 then .failed 1 0 else .absent
  match f.type, f.source with
  | 1, _ => match c.value i with
    | none => missing
    | some b => if 1024 < b.length then .failed 2 0 else match decodeUtf8 b with
      | some cps => .shown (.text cps)
      | none => .failed 2 0
  | 2, 2 => match c.counter (u8 f.param 10) with
    | some (_, v) => if v < 2 ^ 63 then .shown (.text (numberText f.param v)) else .failed 7 5
    | none => .failed 7 5
  | 2, _ => match c.value i with
    | none => missing
    | some b => if b.length = 8 then .shown (.text (numberText f.param (s64 b 0))) else .failed 3 0
  | 3, 1 => .shown (.image f.res)
  | 3, _ => match c.value i with
    | none => missing
    | some b => if b.length ≠ 2 then .failed 3 0
      else match c.pk.images.find? (fun m => m.image == u16 b 0) with
        | some m => if fieldImageOk t c.pk f m then .shown (.image m.image) else .failed 4 0
        | none => .failed 4 0
  | 4, 2 => match genOutput c (u16 f.param 10) with
    | .inl e => .failed 7 e
    | .inr b => if 4096 < b.length then .failed 7 7 else ofSub (buildSymbol f b)
  | 4, _ => match c.value i with
    | none => missing
    | some b => if b.length < 1 ∨ 4096 < b.length then .failed 3 0 else ofSub (buildSymbol f b)
  | 5, 2 => match genOutput c (u16 f.param 10) with
    | .inl e => .failed 7 e
    | .inr b => ofSub (buildMark f b)
  | 5, _ => match c.value i with
    | none => missing
    | some b => ofSub (buildMark f b)
  | _, _ => .absent

/-- Notes on a rendered text field: reason 5 when a code point is missing, reason 6 when the text is too wide (R95). -/
def textNotes (pk : Package) (f : FieldRec) (r : Rendered) : List Nat :=
  match r, pk.atlases.find? (fun a => a.atlas == f.res) with
  | .text cps, some a =>
    (if cps.any fun c => !a.glyphs.any fun g => g.cp == c then [5] else []) ++
    (if ((frameSize f).1 : Int) < (layout f a cps).2 then [6] else [])
  | _, _ => []

/-- Whether the lane of an item carries a field. -/
def fieldOnLane (f : FieldRec) (lane : Nat) : Bool := f.lanes.testBit lane

/-! ## The three lines of one course (R98, R101 to R105) -/

/-- Frame pixel of box pixel (a, b) (the inverse of R98). -/
def framePixel (f : FieldRec) (a b : Nat) : Nat × Nat :=
  match f.rot with
  | 0 => (a, b)
  | 1 => (b, f.boxW - 1 - a)
  | 2 => (f.boxW - 1 - a, f.boxH - 1 - b)
  | _ => (f.boxH - 1 - b, a)

/-- Value of a rendered field at frame pixel (u, v) on plane `p`; none where it does not cover (R101). -/
def pixelAt (pk : Package) (f : FieldRec) (r : Rendered) (p u v : Nat) : Option Nat :=
  let ink (c : Bool) : Option Nat := if c then some (f.tone.getD p 0) else none
  match r with
  | .text cps => match pk.atlases.find? (fun a => a.atlas == f.res) with
    | some a => ink ((layout f a cps).1.any fun x => glyphInk a x.1 x.2.1 x.2.2 u v)
    | none => none
  | .matrix rows q =>
    let mw := max 1 (u8 f.param 1); let mh := max 1 (u8 f.param 2)
    if u < q * mw then none
    else if u8 f.param 0 ≤ 4 then
      if v < q * mh then none
      else ink (((rows[(v - q * mh) / mh]?).getD []).getD ((u - q * mw) / mw) false)
    else ink ((rows.headD []).getD (u - q * mw) false)
  | .dots content =>
    let mw := max 1 (u8 f.param 1); let mh := max 1 (u8 f.param 2); let cols := u8 f.param 3
    let col := u / mw; let i := v / mh * cols + col
    if col < cols ∧ i < 8 * content.length then ink ((u8 content (i / 8)).testBit (7 - i % 8)) else none
  | .image n => match pk.images.find? (fun m => m.image == n) with
    | some m =>
      let x := u / m.scale; let y := v / m.scale
      if x < m.w ∧ y < m.h then
        if m.planes.testBit p then
          let before := ((List.range p).filter fun q => m.planes.testBit q).length
          some (u8 m.data ((before * m.h + y) * imageRowBytes m.w + x))
        else some 0
      else none
    | none => none
  | .sealedPatch rows => (rows[v]?).bind fun row => row[u]?

/-- Value of an item's field at wale `w`, course `k` of plane `p`, where its box covers it within the item (R102, R103). -/
def fieldAt (pk : Package) (pr : PlaneRec) (p : Nat) (it : Item) (f : FieldRec) (r : Rendered) (w k : Nat) : Option Nat :=
  match pk.lanes.find? (fun l => l.lane == it.lane) with
  | none => none
  | some l =>
    let w0 := nearestStep (crossPitch pr) (l.origin + f.ax)
    let k0 := nearestStep (coursePitch pk) (((it.rpt * pk.rpt : Nat) : Int) + f.ay)
    let a := (w : Int) - w0; let b := (k : Int) - k0
    if 0 ≤ a ∧ a < f.boxW ∧ 0 ≤ b ∧ b < f.boxH ∧ itemCovers pk pr it w k then
      let (u, v) := framePixel f a.toNat b.toNat
      let (fw, fh) := frameSize f
      if u < fw ∧ v < fh then pixelAt pk f r p u v else none
    else none

/-- Ground level at a wale and course of an item's lane (R91, R92). -/
def groundAt (pk : Package) (pr : PlaneRec) (p : Nat) (it : Item) (w k : Nat) : Nat :=
  match pk.grounds.find? (fun g => g.plane == p && g.lanes.testBit it.lane), pk.lanes.find? (fun l => l.lane == it.lane) with
  | some g, some l =>
    let i := (w : Int) - ((laneWales pr l).1 + g.ox); let t := (k : Int) - (firstCourse pk it.rpt + g.oy)
    if 0 ≤ i ∧ i < g.gw ∧ 0 ≤ t ∧ t < g.gh ∧ itemCovers pk pr it w k then
      let bit := 3 * i.toNat
      let at_ (n : Nat) : Nat := if (u8 g.data (t.toNat * g.rowBytes + (bit + n) / 8)).testBit ((bit + n) % 8) then 2 ^ n else 0
      at_ 0 + at_ 1 + at_ 2
    else 0
  | _, _ => 0

/-- One wale of the three lines: ground level, contone value, sealed level (R104). -/
structure LineCell where
  g : Nat
  c : Nat
  sl : Option Nat
  deriving DecidableEq, Repr

/-- A placement: item, field index, field, and what binding made of it. -/
abbrev Placement := Item × Nat × FieldRec × Rendered

/-- Every placement of a job's bound items in compositing order: increasing (LAYER, record SEQ, field index) (R104). -/
def placements (pk : Package) (items : List Item) (isSealed : Bool) : List Placement :=
  let all := items.flatMap fun it => it.values.filterMap fun v =>
    match pk.fields[v.1]? with
    | some f => if (f.type == 6) == isSealed then some ((it, v.1, f, v.2) : Placement) else none
    | none => none
  (List.range 256).flatMap fun layer => all.filter fun x => x.2.2.1.layer == layer

/-- Lay one placement over a wale (R104). -/
def applyPlacement (pk : Package) (pr : PlaneRec) (p w k : Nat) (cell : LineCell) (x : Placement) : LineCell :=
  let f := x.2.2.1
  if !(f.planes.testBit p || f.ko.testBit p) then cell
  else match fieldAt pk pr p x.1 f x.2.2.2 w k with
    | none => cell
    | some v =>
      if f.ko.testBit p then { cell with g := 0, c := if f.planes.testBit p then v else 0 }
      else { cell with c := max cell.c v }

/-- Lay one sealed placement over a wale (R104, R105). -/
def applySealed (pk : Package) (pr : PlaneRec) (p w k : Nat) (cell : LineCell) (x : Placement) : LineCell :=
  if !x.2.2.1.planes.testBit p then cell
  else match fieldAt pk pr p x.1 x.2.2.1 x.2.2.2 w k with
    | none => cell
    | some v => { cell with sl := some v }

/-- The three lines of plane `p`, course `k` at wale `w` (R104). Sealed placements lie in increasing (SEQ, SFIELD). -/
def composeWale (pk : Package) (pr : PlaneRec) (p : Nat) (items : List Item) (w k : Nat) : LineCell :=
  let g := (items.map fun it => groundAt pk pr p it w k).foldl max 0
  let base := (placements pk items false).foldl (applyPlacement pk pr p w k) { g := g, c := 0, sl := none }
  let sealed_ := items.flatMap fun it => (List.range 16).flatMap fun sf =>
    it.values.filterMap fun v => match pk.fields[v.1]? with
      | some f => if f.type == 6 && u8 f.param 0 == sf then some ((it, v.1, f, v.2) : Placement) else none
      | none => none
  sealed_.foldl (applySealed pk pr p w k) base

/-- The items that can reach course `k`: those whose rows include it. -/
def itemsAt (pk : Package) (items : List Item) (k : Nat) : List Item :=
  items.filter fun it => decide (firstCourse pk it.rpt ≤ k ∧ k < endCourse pk it.rpt)

/-- The three lines of a course over the plane's wales. -/
def composeLine (pk : Package) (pr : PlaneRec) (p : Nat) (items : List Item) (k : Nat) : List LineCell :=
  let here := itemsAt pk items k
  (List.range pr.nW).map fun w => composeWale pk pr p here w k

end Sys2Proof.Machine
end

