-- ==== Sys2Proof/Machine/Screen.lean ====
section
/-! DEFINITION. Screening and darning of one course (chapters 07 and 08): the deal, the head choice and its stitch
blending, darning methods, density correction, the three screening methods and neighbour take-over. -/

namespace Sys2Proof.Machine

/-- What the pipeline reads for one plane: the structure, the health codes and methods in force, the registers latched
at the latest install, density factors, calibrated stitch weights and head ceilings. -/
structure ScreenCtx where
  t : StructTables
  p : Nat
  health : List (Nat × Nat × Nat)
  methods : List (Nat × Method × List Nat)
  minRate : Nat
  takeover : Word
  vol : List Nat
  density : Nat → Nat → Nat
  weights : Nat → Option (List Nat)
  ceiling : Nat → Option Nat

/-- The plane's record. -/
def ScreenCtx.plane (c : ScreenCtx) : PlaneRec := (c.t.planes[c.p]?).getD ⟨0, 1, 3, 0, 2400, 1, 0, 0, 0⟩

/-- The deal: the row of course `k` before darning (R31). -/
def dealRow (t : StructTables) (p k : Nat) : Nat :=
  match t.planes[p]? with
  | none => 0
  | some r =>
    if r.dealKind = 1 then
      match t.deals.find? (fun d => d.plane == p) with
      | some d => d.entries.getD (k % max 1 d.entries.length) 0
      | none => 0
    else k % max 1 r.rows

/-- The dealt rows of a plane (chapter 08, Darning). -/
def dealtRows (t : StructTables) (p : Nat) : List Nat :=
  match t.planes[p]? with
  | none => []
  | some r =>
    if r.dealKind = 1 then
      match t.deals.find? (fun d => d.plane == p) with
      | some d => (List.range r.rows).filter fun s => d.entries.contains s
      | none => []
    else List.range r.rows

/-- The heads of a row, lower ones first. -/
def rowHeads (t : StructTables) (p row : Nat) : List HeadRec := t.heads.filter fun h => h.plane == p && h.row == row

/-- The nozzle of a head that covers a wale. -/
def nozzleAt (t : StructTables) (h : HeadRec) (w : Nat) : Option Nat := ((headWales t h).find? fun x => x.2 == w).map (·.1)

/-- The unmasked nozzles of a row that cover a wale. -/
def covering (t : StructTables) (p row w : Nat) : List (HeadRec × Nat) :=
  (rowHeads t p row).filterMap fun h => (nozzleAt t h w).map fun n => (h, n)

/-- Whether a nozzle is marked dead. -/
def ScreenCtx.dead (c : ScreenCtx) (head nozzle : Nat) : Bool :=
  c.health.any fun e => e.1 == head && e.2.1 == nozzle && e.2.2 != 0

/-- Row `s` is healthy at wale `w` (R153). -/
def ScreenCtx.healthy (c : ScreenCtx) (s w : Nat) : Bool :=
  (covering c.t c.p s w).any fun x => !c.dead x.1.head x.2

/-- S(w): the rows healthy at `w`, spare rows included (R157). -/
def ScreenCtx.survivors (c : ScreenCtx) (w : Nat) : List Nat :=
  (List.range c.plane.rows).filter fun s => c.healthy s w

/-- The stitch dither (R136): 0 to 254. -/
def stitchD (i k : Nat) : Nat :=
  let x : BitVec 32 := (BitVec.ofNat 32 k * 0x9E3779B1#32) ^^^ (BitVec.ofNat 32 i * 0x85EBCA77#32)
  let x := x ^^^ (x >>> 15)
  let x := x * 0x2C1B3C6D#32
  let x := x ^^^ (x >>> 12)
  ((x >>> 24).toNat * 255) / 256

/-- Weights of the zone above head `a` (R136): calibrated ones where they are in force. -/
def ScreenCtx.zone (c : ScreenCtx) (a : HeadRec) : List Nat :=
  match c.weights a.head with
  | some l => l
  | none => (c.t.stitches[a.stitchR]?).getD []

/-- Of two covering nozzles whose heads are joined by a STITCH zone at `w`, the lower head's first and the zone wale. -/
def ScreenCtx.joined (c : ScreenCtx) (w : Nat) (x y : HeadRec × Nat) : Option ((HeadRec × Nat) × (HeadRec × Nat) × Nat) :=
  let tryPair (a b : HeadRec × Nat) : Option ((HeadRec × Nat) × (HeadRec × Nat) × Nat) :=
    if a.1.stitchR ≠ 0xFFFF ∧ (nextUp c.t a.1).map (·.head) = some b.1.head then
      match lowestWale c.t b.1 with
      | some lo => if lo ≤ w ∧ w - lo < (c.zone a.1).length then some (a, b, w - lo) else none
      | none => none
    else none
  match tryPair x y with
  | some r => some r
  | none => tryPair y x

/-- The head choice of R136 with the stitch fallback of R154: the nozzle of row `s` that prints `w` on course `k`. -/
def ScreenCtx.choose (c : ScreenCtx) (s w k : Nat) : Option (Nat × Nat) :=
  match covering c.t c.p s w with
  | [] => none
  | [x] => some (x.1.head, x.2)
  | x :: y :: _ =>
    let pick := match c.joined w x y with
      | some (a, b, i) =>
        if c.dead a.1.head a.2 && !c.dead b.1.head b.2 then b
        else if c.dead b.1.head b.2 && !c.dead a.1.head a.2 then a
        else if stitchD i k < (c.zone a.1).getD i 0 then a else b
      | none => if y.1.wale0 < x.1.wale0 then y else x
    some (pick.1.head, pick.2)

/-- ceil_h(s): the lowest known ceiling among the heads of row `s` with a live nozzle at `w` (R157). -/
def ScreenCtx.rowCeiling (c : ScreenCtx) (s w : Nat) : Option Nat :=
  (((covering c.t c.p s w).filter fun x => !c.dead x.1.head x.2).filterMap fun x => c.ceiling x.1.head).min?

/-- Whether the plane's volume table is valid: VOL[0] is 0 and VOL rises strictly up to 2^BITS − 1 (R159). -/
def volValid (bits : Nat) (vol : List Nat) : Bool := vol.getD 0 0 == 0 && strictlyRises (vol.take (2 ^ bits))

/-- The method a wale is given at an install (R157). -/
def ScreenCtx.decideMethod (c : ScreenCtx) (w : Nat) : Method × List Nat :=
  let s := c.survivors w
  if (dealtRows c.t c.p).all fun r => c.healthy r w then (.plain, s)
  else
    let ceil := (s.filterMap fun r => c.rowCeiling r w).min?
    let rateOk := c.minRate == 0 || match ceil with
      | some v => decide (c.minRate ≤ s.length * v)
      | none => true
    if !s.isEmpty && rateOk then (.redeal, s)
    else if c.takeover.getLsbD 31 && volValid c.plane.bits c.vol then (.takeover, s)
    else (.none, s)

/-- The method in force at a wale with its S(w): as decided at the latest install that touched it. -/
def ScreenCtx.method (c : ScreenCtx) (w : Nat) : Method × List Nat :=
  match c.methods.find? fun m => m.1 == w with
  | some m => m.2
  | none => c.decideMethod w

/-- The printing row of wale `w` on course `k` (R158). -/
def ScreenCtx.row (c : ScreenCtx) (w k : Nat) : Nat :=
  match c.method w with
  | (.redeal, s) => s.getD (k % max 1 s.length) 0
  | _ => dealRow c.t c.p k

/-- Whether a wale is orphaned on course `k` (R158). -/
def ScreenCtx.orphan (c : ScreenCtx) (w k : Nat) : Bool :=
  match (c.method w).1 with
  | .takeover | .none => !c.healthy (dealRow c.t c.p k) w
  | _ => false

/-- The corrected contone of a wale (R133, R138). -/
def correctTone (sealed_ : Bool) (c f : Nat) : Nat :=
  if sealed_ ∨ c = 0 then 0 else if c = 255 then 255 else min 255 ((c * f + 64) / 128)

/-- The allowed level whose RECON value lies nearest to `x`, the lower on a tie; both scaled by 2^S (R140, R143). -/
def nearestLevel (r : ScreenRec) (scale : Nat) (x : Int) : Nat :=
  ((allowedLevels r.mask).foldl (fun (best : Option (Nat × Nat)) v =>
    let d := (x - (r.recon.getD v 0 * scale : Nat)).natAbs
    match best with
    | some (b, bd) => if d < bd then some (v, d) else some (b, bd)
    | none => some (v, d)) none).elim 0 (·.1)

/-- QUANTISE (R139, R140). -/
def quantise (r : ScreenRec) (cp : Nat) : Nat := if cp = 0 then 0 else if cp = 255 then 7 else nearestLevel r 1 cp

/-- THRESHOLD (R139, R141). -/
def threshold (r : ScreenRec) (w k cp : Nat) : Nat :=
  if cp = 0 then 0 else if cp = 255 then 7
  else
    let cell := (r.cells[(k + r.ty) % r.th * r.tw + (w + r.tx) % r.tw]?).getD []
    (cell.filter fun t => decide (t ≤ cp)).length

/-- One course of error diffusion from left to right (R143): the tone levels and the errors e. `now` and `next` are the
errors already passed to this wale and the next within the course. -/
def diffuse (r : ScreenRec) : List Nat → List Int → Int → Int → List (Nat × Int)
  | [], _, _, _ => []
  | c :: rest, cur, now, next =>
    let s := 2 ^ r.shift
    let (q, e) : Nat × Int :=
      if c = 0 then (0, 0) else if c = 255 then (7, 0)
      else
        let x : Int := (c * s : Nat) + cur.headD 0 + now
        let q := nearestLevel r s x
        (q, max (-255 * s) (min (255 * s) (x - (r.recon.getD q 0 * s : Nat))))
    (q, e) :: diffuse r rest cur.tail (next + floorDiv (e * r.kernel.getD 0 0) s) (floorDiv (e * r.kernel.getD 1 0) s)

/-- The errors handed to the next course (R143). -/
def nextErrors (r : ScreenRec) (errs : List Int) : List Int :=
  (List.range errs.length).map fun w =>
    ((List.range 5).map fun (d : Nat) =>
      -- wale w receives weight B[d - 2] from wale w - (d - 2)
      let src := (w : Int) - ((d : Int) - 2)
      if 0 ≤ src then floorDiv (errs.getD src.toNat 0 * (r.kernel.getD (2 + d) 0 : Nat)) (2 ^ r.shift) else 0).sum

/-- The SCREEN record of a plane: QUANTISE with the default tables where the job has none (R135). -/
def screenOf (pk : Package) (p bits : Nat) : ScreenRec :=
  match pk.screens.find? (fun r => r.plane == p) with
  | some r => r
  | none =>
    { plane := p, method := 0, mask := 0xFF, shift := 0,
      levelMap := (List.range 8).map fun v => (2 * v * (2 ^ bits - 1) + 7) / 14,
      recon := [0, 36, 73, 109, 146, 182, 219, 255], kernel := [0, 0, 0, 0, 0, 0, 0], tw := 0, th := 0, tx := 0, ty := 0,
      cells := [] }

/-- Tone levels of a course and the errors for the next (R139 to R144). -/
def toneLevels (r : ScreenRec) (k : Nat) (cps : List Nat) (cur : List Int) : List Nat × List Int :=
  match r.method with
  | 1 => (cps.zipIdx.map fun x => threshold r x.2 k x.1, [])
  | 2 => let l := diffuse r cps cur 0 0
    (l.map (·.1), nextErrors r (l.map (·.2)))
  | _ => (cps.map (quantise r), [])

/-- Smallest level from `l` up to `lmax` whose volume reaches `want`, else `lmax` (R159). -/
def raiseLevel (vol : List Nat) (lmax want l : Nat) : Nat :=
  ((List.range (lmax + 1)).find? fun v => decide (l ≤ v ∧ want ≤ vol.getD v 0)).getD lmax

/-- Hand an orphan's volume to its eligible neighbours in order (R159): the levels and what is left over. -/
def giveVolume (vol : List Nat) (lmax m total : Nat) : List Nat → Nat → Nat → List Nat → List Nat × Nat
  | [], _, left, out => (out, left)
  | n :: rest, i, left, out =>
    let want := if i = 0 ∧ total = 2 then ceilDiv m 2 else left
    let l := out.getD n 0
    let l2 := raiseLevel vol lmax (vol.getD l 0 + want) l
    giveVolume vol lmax m total rest (i + 1) (left - min left (vol.getD l2 0 - vol.getD l 0)) (out.set n l2)

/-- What one course screens to: levels, rows and live nozzles by wale (a dead one receives level 0, R150); the errors for the next course; the undarned wales. -/
structure Screened where
  cells : List WaleOut
  errs : List Int
  undarned : List Nat
  deriving DecidableEq, Repr

/-- Screen one course of a job on a plane (R136 to R147, R158 to R162). `sameItems w n` tells whether two wales are
covered by exactly the same items at the course. -/
def screenCourse (c : ScreenCtx) (r : ScreenRec) (k : Nat) (lines : List LineCell) (cur : List Int)
    (sameItems : Nat → Nat → Bool) : Screened :=
  let bits := c.plane.bits
  let lmax := 2 ^ bits - 1
  let rows := lines.zipIdx.map fun x => c.row x.2 k
  let noz := rows.zipIdx.map fun x => c.choose x.1 x.2 k
  let cps := lines.zipIdx.map fun x => correctTone x.1.sl.isSome x.1.c
    (match noz.getD x.2 none with
     | some (h, n) => c.density h n
     | none => 128)
  let (qs, errs) := toneLevels r k cps cur
  let out0 := lines.zipIdx.map fun x => match x.1.sl with
    | some v => v
    | none => r.levelMap.getD (max x.1.g (qs.getD x.2 0)) 0
  let sealedAt (w : Nat) : Bool := ((lines[w]?).map fun x => x.sl.isSome).getD false
  let orphans := (List.range lines.length).filter fun w => c.orphan w k
  let eligible (w n : Nat) : Bool := decide (n < lines.length) && !orphans.contains n && !sealedAt n &&
    (match noz.getD n none with
     | some (h, z) => !c.dead h z
     | none => false) && sameItems w n
  let step (acc : List Nat × List Nat) (w : Nat) : List Nat × List Nat :=
    let m := c.vol.getD (acc.1.getD w 0) 0
    if acc.1.getD w 0 = 0 then acc
    else if sealedAt w ∨ (c.method w).1 = .none then (acc.1, acc.2 ++ [w])
    else
      let lower : List Nat := if w = 0 then [] else (w - 1) :: []
      let order := if k % 2 = 0 then lower ++ (w + 1) :: [] else (w + 1) :: lower
      let es := order.filter (eligible w)
      let (out, left) := giveVolume c.vol lmax m es.length es 0 m acc.1
      (out.set w 0, if bitsOf c.takeover 7 0 * m < left * 256 then acc.2 ++ [w] else acc.2)
  let (out, bad) := orphans.foldl step (out0, [])
  { cells := out.zipIdx.map fun x =>
      { level := x.1, row := rows.getD x.2 0, nozzle := (noz.getD x.2 none).filter fun n => !c.dead n.1 n.2 },
    errs := errs, undarned := bad }

end Sys2Proof.Machine
end

