-- ==== Sys2Proof/Machine/XlkOps.lean ====
section
/-! DEFINITION. The fabric's shared operations (chapter 19): ports and their lanes, routes, sending a frame, the root
election, and what the lead of a pair mirrors. -/

namespace Sys2Proof.Machine

/-- Replace the fabric. -/
def State.modXlk (s : State) (f : Xlk → Xlk) : State := { s with xlk := f s.xlk }

/-- Replace one port. -/
def State.modPort (s : State) (n : Fin 32) (f : Port → Port) : State :=
  s.modXlk fun x => { x with ports := upd x.ports n f }

/-- The dummy of a pair. -/
def State.dummy (s : State) : Bool := s.xlk.role == .dummy

/-- The unit identifier: OTP words 0 and 1 (Table 20.2). -/
def unitId (s : State) : Nat :=
  ((s.otp.find? fun e => e.1 == 0).map (·.2.toNat)).getD 0 +
    2 ^ 32 * ((s.otp.find? fun e => e.1 == 1).map (·.2.toNat)).getD 0

/-! ## Ports -/

/-- Lanes of a fabric port, in increasing order (Table 2.3, R27). -/
def fabricLanes (s : State) (n : Nat) : List Nat := match s.str.tables with
  | some t => t.lanes.zipIdx.filterMap fun l => if l.1.role = 3 ∧ l.1.endpoint = n then some l.2 else none
  | none => []

/-- The fabric port of a lane. -/
def lanePort (s : State) (l : Nat) : Option (Fin 32) := (List.finRange 32).find? fun n => (fabricLanes s n).contains l

/-- Ports that the structure gives the device. -/
def fabricPorts (s : State) : List (Fin 32) := (List.finRange 32).filter fun n => !(fabricLanes s n).isEmpty

/-- Width of a port. -/
def portWidth (s : State) (n : Nat) : Nat := (fabricLanes s n).length

/-- Link cost of a width: 4 ÷ width (R360). -/
def linkCost (w : Nat) : Nat := 4 / max 1 w

/-- Ports that are UP. -/
def upPorts (s : State) : List (Fin 32) := (List.finRange 32).filter fun n => (s.xlk.ports[n]).st == .up

/-! ## Routes (R360) -/

/-- Take a distance into a list when it is new or shorter. -/
def shorter (a d : Nat) (l : List (Nat × Nat)) : List (Nat × Nat) :=
  match l.find? fun e => e.1 == a with
  | some e => if d < e.2 then l.map fun x => if x.1 == a then (a, d) else x else l
  | none => l ++ [(a, d)]

/-- One pass over the link states, leaving out the device itself. -/
def relaxLinks (links : List LinkSt) (self : Nat) (dist : List (Nat × Nat)) : List (Nat × Nat) :=
  links.foldl (fun acc l => match acc.find? fun e => e.1 == l.src with
    | some e => if l.src = self then acc else
        l.entries.foldl (fun acc n => if n.neigh < 256 then shorter n.neigh (e.2 + linkCost n.width) acc else acc) acc
    | none => acc) dist

/-- Distances from a neighbour, in as many passes as there are link states. -/
def distances (links : List LinkSt) (self : Nat) : Nat → List (Nat × Nat) → List (Nat × Nat)
  | 0, d => d
  | fuel + 1, d => distances links self fuel (relaxLinks links self d)

/-- The device's own address, 0xFFFE while unaddressed (Table 19.1). -/
def ownAddr (s : State) : Nat := s.xlk.addr.getD 0xFFFE

/-- What each port that is UP offers toward an address: the port and the cost. -/
def portCosts (s : State) (dst : Nat) : List (Nat × Nat) :=
  (upPorts s).filterMap fun (n : Fin 32) =>
    let p := s.xlk.ports[n]
    ((distances s.xlk.links (ownAddr s) s.xlk.links.length [(p.neigh, 0)]).find? fun e => e.1 == dst).map fun e =>
      (n.val, linkCost (portWidth s n) + e.2)

/-- The route to an address: its cost and up to 4 equal-cost next hops in increasing port order; none where it is
unreachable. -/
def route (s : State) (dst : Nat) : Option (Nat × List Nat) :=
  let l := portCosts s dst
  match (l.map (·.2)).min? with
  | some c => if dst = ownAddr s ∨ 256 ≤ dst then none else some (c, ((l.filter fun e => e.2 == c).map (·.1)).take 4)
  | none => none

/-- Whether an address is reachable: the device's own, or one with a route. -/
def reachable (s : State) (a : Nat) : Bool := s.xlk.addr == some a || (route s a).isSome

/-- The time parent's port: the first next hop toward address 0 (R361). -/
def parentPort (s : State) : Option Nat := if s.xlk.root then none else (route s 0).bind (·.2.head?)

/-! ## Sending (R354 to R356) -/

/-- Class of a frame (Tables 19.2, 19.3). -/
def XlkTx.cls : XlkTx → Nat
  | .sync .. | .syncResp .. | .syncFollow .. => 0
  | .position .. => 1
  | .heartbeat .. | .compare .. | .mirror .. | .swap .. => 2
  | .bind .. | .bindReq .. | .rcheck .. | .partials .. => 3
  | .hello .. | .assign .. | .linkstate .. | .rescan .. | .peerState .. => 4
  | .bulk .. => 5

/-- Whether a frame is reliable (Table 19.2). -/
def XlkTx.rel : XlkTx → Bool
  | .assign .. | .rescan .. | .bind .. | .bindReq .. | .rcheck .. | .partials .. | .compare .. | .mirror .. | .swap ..
  | .bulk .. => true
  | _ => false

/-- The address a frame was sent from: the device's own, or the source of a frame it forwards. -/
def frameSrc (s : State) : XlkTx → Nat
  | .bulk src _ _ => src
  | _ => ownAddr s

/-- The lane a frame travels on (R354). -/
def frameLane (s : State) (n : Nat) (dst : Nat) (f : XlkTx) : Nat :=
  let l := fabricLanes s n
  if f.cls = 0 then l.getD 0 0 else l.getD ((frameSrc s f + dst + f.cls) % max 1 l.length) 0

/-- Put a frame on one port; a reliable one joins the port's unacknowledged frames, or waits while there are 64 (R214). -/
def sendPort (n : Fin 32) (dst : Nat) (f : XlkTx) (s : State) : State :=
  let p := s.xlk.ports[n]
  if !f.rel then s.emit (.xlk (frameLane s n dst f) dst f)
  else if 64 ≤ p.rel.length then s.modPort n fun p => { p with relWait := p.relWait ++ [(dst, f)] }
  else
    (s.modPort n fun p =>
      { p with relNext := (p.relNext + 1) % 65536,
               rel := p.rel ++ [{ seq := p.relNext, dst := dst, frame := f, sentAt := s.now, tries := 0 }] }).emit
      (.xlk (frameLane s n dst f) dst f)

/-- Put a frame on several ports. -/
def sendPorts (l : List (Fin 32)) (dst : Nat) (f : XlkTx) (s : State) : State := l.foldl (fun s n => sendPort n dst f s) s

/-- Send a frame: to every device on every port that is UP, to one address by its route, spread over the next hops; a frame
whose destination is unreachable is discarded and counted (R355, R360). -/
def sendXlk (dst : Nat) (f : XlkTx) (s : State) : State :=
  if dst = 0xFFFF then sendPorts (upPorts s) dst f s
  else match route s dst with
    | some (_, hops) => sendPort (Fin.ofNat 32 (hops.getD ((frameSrc s f + dst + f.cls) % max 1 hops.length) 0)) dst f s
    | none => s.count Reg.xlkDrop

/-- Frames that waited go out as room appears among the 64. -/
def drainPort (n : Fin 32) : List (Nat × XlkTx) → State → State
  | [], s => s
  | (dst, f) :: rest, s => drainPort n rest (sendPort n dst f s)

/-- A bulk frame leaves on the FAB bucket, or waits while the bucket is empty (R311). -/
def sendBulk (src dst hops bytes : Nat) (s : State) : State :=
  if s.pwr.fabBucket.tokens = 0 then s.modXlk fun x => { x with bulkWait := x.bulkWait ++ [(src, dst, hops, bytes)] }
  else sendXlk dst (.bulk src hops bytes)
    { s with pwr := { s.pwr with fabBucket := { s.pwr.fabBucket with tokens := s.pwr.fabBucket.tokens - bytes } } }

/-- Bulk frames that waited leave in order while the bucket holds tokens. -/
def drainBulk : List (Nat × Nat × Nat × Nat) → State → State
  | [], s => s
  | (src, dst, hops, bytes) :: rest, s => drainBulk rest (sendBulk src dst hops bytes s)

/-- LINKSTATE entries: the neighbours of the ports that are UP. -/
def linkEntries (s : State) : List LinkEntry :=
  (upPorts s).map fun (n : Fin 32) => { neigh := (s.xlk.ports[n]).neigh, port := n, width := portWidth s n }

/-- Broadcast LINKSTATE (R360); an unaddressed device carries HELLO and link-local MGMT only (R359). -/
def sendLinkState (s : State) : State :=
  if s.xlk.addr.isSome then sendXlk 0xFFFF (.linkstate s.xlk.topoGen (linkEntries s)) s else s

/-- Note which held addresses have become unreachable, or reachable again (R359). -/
def noteReach (s : State) : State :=
  s.modXlk fun x => { x with held := x.held.map fun h =>
    if (reachable s h.addr) then { h with lostAt := none } else { h with lostAt := some (h.lostAt.getD s.now) } }

/-! ## Root election (R358) -/

/-- ROOT_IDs that the device may take, with the distance that each gives: its own, and those of its neighbours. -/
def rootOffers (s : State) : List (Nat × Nat) :=
  (if (s.fld Reg.xlkCfg 0 0 0 = 1) then [(unitId s, 0)] else []) ++
    (upPorts s).filterMap fun (n : Fin 32) =>
      let p := s.xlk.ports[n]
      if p.rootDist < 16 then some (p.rootId, p.rootDist + 1) else none

/-- The lowest ROOT_ID offered, at its least distance. -/
def bestRoot (s : State) : Option (Nat × Nat) :=
  match ((rootOffers s).map (·.1)).min? with
  | some r => some (r, (((rootOffers s).filter fun e => e.1 == r).map (·.2)).min?.getD 0)
  | none => none

/-- A root that ceases to be root loses TIME_SYNCED (R361). -/
def ceaseRoot (s : State) : State :=
  if s.xlk.root then
    alarm .xlkTimeLost noInst (s.modXlk fun x => { x with root := false, timeSynced := false, goodEx := 0, badEx := 0, slew := 0 })
  else s

/-- Take the best ROOT_ID; a change starts the 2 ms again. -/
def electRoot (s : State) : State :=
  let b := bestRoot s
  if b.map (·.1) = s.xlk.rootId then s.modXlk fun x => { x with rootDist := (b.map (·.2)).getD 0 }
  else
    let s := s.modXlk fun x =>
      { x with rootId := b.map (·.1), rootDist := (b.map (·.2)).getD 0, rootSince := s.now, rootKnown := false }
    if b.map (·.1) = some (unitId s) then s else ceaseRoot s

/-- A port has changed state: link states go out, routes and the election follow (R358, R360). -/
def portChanged (s : State) : State := electRoot (noteReach (sendLinkState s))

/-- A port goes to DOWN; its unacknowledged reliable frames are kept for when it is UP again (R357, R381). -/
def portDown (n : Fin 32) (s : State) : State :=
  let was := (s.xlk.ports[n]).st
  let s := s.modPort n fun p => { Port.reset with since := s.now, rel := p.rel, relWait := p.relWait }
  if was = .up then portChanged s else s

/-- A port enters a state. -/
def portTo (st : PortSt) (n : Fin 32) (s : State) : State := s.modPort n fun p => { p with st := st, since := s.now }

/-- A port that has come UP sends its unacknowledged reliable frames again (R381). -/
def resendPort (n : Fin 32) (s : State) : State :=
  (s.xlk.ports[n]).rel.foldl (fun s r => s.emit (.xlk (frameLane s n r.dst r.frame) r.dst r.frame))
    (s.modPort n fun p => { p with rel := p.rel.zipIdx.map fun r => { r.1 with seq := r.2, sentAt := s.now, tries := 0 },
                                   relNext := p.rel.length })

/-! ## The pair -/

/-- The UNIT_ID that XLK_PEER_UID names. -/
def State.peerUid (s : State) : Nat := (s.rd Reg.xlkPeerUidHi).toNat * 2 ^ 32 + (s.rd Reg.xlkPeerUidLo).toNat

/-- The fabric address of the other member. -/
def State.peerAddr (s : State) : Nat := ((s.xlk.held.find? fun h => h.uid == s.peerUid).map (·.addr)).getD 0xFFFE

/-- The lead mirrors a decision to the dummy (R371). -/
def mirror (f : MirrorFrame) (s : State) : State := if s.xlk.role = .lead then sendXlk s.peerAddr (.mirror f) s else s

/-- Contexts for which Table 19.5 and the record checks leave the dummy unfit (R368, R369): all while a digest differs. -/
def unfitMask (s : State) : BitVec 64 := if s.xlk.diff = 0 then s.xlk.unfit else BitVec.allOnes 64

/-- The dummy becomes unfit for a context (R369). -/
def markUnfit (ctx : Nat) (s : State) : State := s.modXlk fun x => { x with unfit := x.unfit ||| (1#64 <<< ctx) }

/-- Whether an RCHECK names what this device holds: none while it lacks it, else whether they agree. -/
def rcheckAgrees (s : State) (r : Nat × Bool × Nat × Nat × Nat) : Option Bool :=
  let (ctx, package, count, first, crc) := r
  if package then (s.xlk.packages.find? fun p => p.1 == ctx).map fun p => p.2 == crc
  else (s.xlk.batches.find? fun b => b.1 == ctx && b.2.2.1 == first).map fun b => b.2.1 == count && b.2.2.2 == crc

/-- Act on one RCHECK that can be matched: a package checked, or PAIR_RECORD_DIFF. -/
def takeRcheck (r : Nat × Bool × Nat × Nat × Nat) (s : State) : State :=
  match rcheckAgrees s r with
  | some true => if r.2.1 then s.modXlk fun x => { x with checked := x.checked ||| (1#64 <<< r.1) } else s
  | some false => alarm .pairRecordDiff r.1 (markUnfit r.1 s)
  | none => s.modXlk fun x => { x with rchecks := x.rchecks ++ [r] }

/-- Try the waiting checks of a context again (R369). -/
def retryRchecks (ctx : Nat) (s : State) : State :=
  let mine := s.xlk.rchecks.filter fun r => r.1 == ctx
  mine.foldl (fun s r => takeRcheck r s) (s.modXlk fun x => { x with rchecks := x.rchecks.filter fun r => r.1 != ctx })

end Sys2Proof.Machine
end

