-- ==== Sys2Proof/Machine/JobOps.lean ====
section
/-! DEFINITION. Shared operations on job contexts: outcomes (R87, R88), the closing of items in sequence order, abort
(R84), and a job's end (R83, R85). -/

namespace Sys2Proof.Machine

/-- The structure tables, when a structure is active. -/
def State.tables? (s : State) : Option StructTables := s.str.tables

/-- A plane's record in the active structure. -/
def State.planeRec (s : State) (p : Nat) : Option PlaneRec := s.str.tables.bind fun t => t.planes[p]?

/-- Outcome codes in rank order (Table 4.15), OK left out. -/
def outcomeRanks : List Nat := [9, 7, 6, 1, 2, 3, 4, 5, 8]

/-- OUTCOME: the applicable code of lowest rank (R88). -/
def outcomeOf (codes : BitVec 16) : Nat := (outcomeRanks.find? fun c => codes.getLsbD c).getD 0

/-- The outcome record of an item (Table 4.14). -/
def mkOutcome (s : State) (ctx : Nat) (it : Item) : OutcomeRec :=
  { seq := it.seq, rpt := it.rpt, ctx := ctx, lane := it.lane, outcome := outcomeOf it.codes, planes := it.planes,
    codes := it.codes, time := s.pressNs }

/-- Bit n of CODES. -/
def codeBit (n : Nat) : BitVec 16 := 1#16 <<< n

/-- Flag an item with an outcome code on a plane. -/
def Item.flag (it : Item) (code : Nat) (plane : Option Nat) : Item :=
  { it with codes := it.codes ||| codeBit code,
            planes := match plane with
              | some p => it.planes ||| (1#8 <<< p)
              | none => it.planes }

/-- Flag every item of a job that satisfies `sel`. -/
def flagItems (ctx : Fin 64) (code : Nat) (plane : Option Nat) (sel : Item → Bool) (s : State) : State :=
  s.modJob ctx fun j => { j with items := j.items.map fun it => if sel it then it.flag code plane else it }

/-- A course range of an item on a plane includes `k` (R18). -/
def itemHasCourse (pk : Package) (it : Item) (k : Nat) : Bool :=
  decide (firstCourse pk it.rpt ≤ k ∧ k < endCourse pk it.rpt)

/-- Courses of a job on a plane that are settled: every course below it has fired, been missed or been blank. -/
def settled (s : State) (ctx : Fin 64) (p : Fin 8) : Nat :=
  (((s.pac.slots.filter fun x => x.ctx == ctx.val && x.plane == p.val).map (·.course)).min?).getD
    ((s.jobs[ctx]).planes[p]).taken

/-- The planes of a job. -/
def jobPlanes (pk : Package) : List (Fin 8) := (List.finRange 8).filter fun p => pk.planes.testBit p

/-- The lead plane of a job: its lowest-numbered plane. -/
def leadPlane (pk : Package) : Nat := ((List.range 8).find? fun p => pk.planes.testBit p).getD 0

/-- Whether an item's last course has fired on every plane (R87). -/
def itemPrinted (s : State) (ctx : Fin 64) (pk : Package) (it : Item) : Bool :=
  (jobPlanes pk).all fun p => decide (endCourse pk it.rpt ≤ settled s ctx p)

/-- RESULT of a transaction record (Table 21.5): test, mismatch, VOID, UNVERIFIED or legal OK, a mismatch before the
VOID of its item (Table 21.8). -/
def sealedResult (o : OutcomeRec) (b : SealedBind) : Nat :=
  if b.test then 4 else if b.mismatch then 1 else if o.outcome = 9 then 3 else if b.unverified then 2 else 0

/-- Fill the transaction record of a sealed item (R413): it takes the next audit number. -/
def sealedRecord (s : State) (o : OutcomeRec) (b : SealedBind) : AuditRec :=
  .transaction s.met.anum o.seq o.ctx b.channel (sealedResult o b) b.wseq b.net b.article b.unit b.total s.met.c o.outcome

/-- Fill and raise a transaction record; its place in the partition is freed once the log writer has placed it (R413). -/
def closeSealed (o : OutcomeRec) (b : SealedBind) (s : State) : State :=
  raiseAudit (sealedRecord s o b) { s with met := { s.met with anum := s.met.anum + 1 } }

/-! ## Spans (R365, R366) -/

/-- Peers of the peer set that hold a context and are not dummies: address and plane mask of the context. -/
def peersHolding (s : State) (ctx : Fin 64) : List (Nat × Nat) :=
  (s.xlk.peers.filter fun p => s.fld Reg.xlkPeer (p.1 / 32) (p.1 % 32) (p.1 % 32) == 1 && p.2.1 != 3 &&
    p.2.2.1.getD ctx 0 != 0).map fun p => (p.1, p.2.2.1.getD ctx 0)

/-- The binding authority's address when it is another device (R365). -/
def otherAuthority (s : State) (ctx : Fin 64) : Option Nat :=
  match s.xlk.addr with
  | none => none
  | some a =>
    let least := ((peersHolding s ctx).map (·.1)).min?
    if s.xlk.role = .dummy then least else least.filter fun b => decide (b < a)

/-- Whether this device decides the bindings of a context and writes its outcomes. -/
def isAuthority (s : State) (ctx : Fin 64) : Bool := s.xlk.role != .dummy && (otherAuthority s ctx).isNone

/-- What PARTIALs have brought for an item. -/
def partialsOf (s : State) (ctx : Fin 64) (seq : Nat) : PartialWait :=
  (s.xlk.partials.find? fun w => w.ctx == ctx.val && w.seq == seq).getD
    { ctx := ctx, seq := seq, planes := 0, codes := 0, got := [] }

/-- Peers whose PARTIAL of an item has not arrived. -/
def silentPeers (s : State) (ctx : Fin 64) (seq : Nat) : List (Nat × Nat) :=
  (peersHolding s ctx).filter fun p => !(partialsOf s ctx seq).got.contains p.1

/-- An outcome record goes to the log ring from the authority, and to the authority in PARTIAL from any other device; the
dummy writes none (R366, R370). -/
def reportOutcome (ctx : Fin 64) (o : OutcomeRec) (s : State) : State :=
  if s.xlk.role = .dummy then s
  else match otherAuthority s ctx with
    | some a => sendXlk a (.partials ctx o.seq o.planes.toNat o.codes.toNat) s
    | none => raiseItem o s

/-- Close one item: its transaction record, then its outcome record, and the context's counters (R87, R413). -/
def closeItem (ctx : Fin 64) (o : OutcomeRec) (sb : Option SealedBind) (s : State) : State :=
  let s := match sb with
    | some b => closeSealed o b s
    | none => s
  let s := s.modJob ctx fun j =>
    { j with okCount := if o.outcome = 0 then j.okCount + 1 else j.okCount,
             defectCount := if 1 ≤ o.outcome ∧ o.outcome ≤ 8 then j.defectCount + 1 else j.defectCount,
             voidCount := if o.outcome = 9 then j.voidCount + 1 else j.voidCount,
             finalSeq := some o.seq }
  reportOutcome ctx o
    { s with xlk := { s.xlk with partials := s.xlk.partials.filter fun w => !(w.ctx == ctx.val && w.seq == o.seq) } }

/-- Close the items at the front that have their outcome, in sequence order (R87). -/
def closeFront (ctx : Fin 64) : List Item → State → List Item × State
  | [], s => ([], s)
  | it :: rest, s => match it.outcome with
    | some o => closeFront ctx rest (closeItem ctx o it.sealedBind s)
    | none => (it :: rest, s)

/-- Outcomes of records that never bound take entries as they are free, in sequence order (R453). -/
def takeEntries (ctx : Fin 64) : List OutcomeRec → State → List OutcomeRec × State
  | [], s => ([], s)
  | o :: rest, s =>
    if s.backlogIsFull then (o :: rest, s)
    else takeEntries ctx rest (closeItem ctx o none s)

/-- Whether some outcome of a context waits for its entry or for admission (R85, R453). -/
def outcomesWait (s : State) (ctx : Fin 64) : Bool :=
  !(s.jobs[ctx]).entryWait.isEmpty || !(s.jobs[ctx]).items.isEmpty ||
    s.log.backlog.any fun e => e.ctx == ctx.val && match e.st with
      | .admitted .. => false
      | _ => true

/-- The last course of a job that has been cast off (R82): that of the repeat that holds LAST. -/
def lastCourseEnd (j : Job) : Option Nat :=
  match j.castOff, j.pkg with
  | some last, some pk =>
    let slot := match j.items.find? (fun it => it.seq == last) with
      | some it => some it.rpt
      | none => if last < j.nextSeq ∧ !(j.queue.any fun r => r.seq == last) then some j.lastRpt else none
    slot.map (endCourse pk)
  | _, _ => none

/-- A run of underrun courses ends: PLANE_UNDERRUN names it (R247). -/
def endRun (p : Fin 8) (s : State) : State :=
  match (s.planes[p]).run with
  | some (ctx, a, b) => diag .planeUnderrun p ctx a b (s.modPlane p fun x => { x with run := none })
  | none => s

/-- End the runs of a context. -/
def endRuns (ctx : Fin 64) (s : State) : State :=
  (List.finRange 8).foldl (fun s p => match (s.planes[p]).run with
    | some r => if r.1 = ctx.val then endRun p s else s
    | none => s) s

/-- Whether an item awaits a verdict of inspection: under INSPECT (R87), or for its sealed placements (R242). -/
def judged (pk : Package) (it : Item) : Bool := pk.policy / 2 % 2 == 1 || it.sealedBind.isSome

/-- A DRAINING job closes when its last course has fired on every plane and every outcome record is written (R83). -/
def closeJob (ctx : Fin 64) (s : State) : State :=
  let j := s.jobs[ctx]
  match j.st, j.pkg with
  | .draining, some pk =>
    if (jobPlanes pk).all (fun p => match lastCourseEnd j with
        | some e => decide (e ≤ settled s ctx p)
        | none => true) && j.queue.isEmpty && !outcomesWait s ctx
    then endRuns ctx (s.modJob ctx fun j => { j with st := .closed }) else s
  | _, _ => s

/-- An item whose own result is final takes its outcome: at once, or when every PARTIAL has been merged (R87, R366). -/
def finishItem (s : State) (ctx : Fin 64) (it : Item) : Item :=
  let w := partialsOf s ctx it.seq
  let it := { it with ownFinal := some (it.ownFinal.getD s.now) }
  if isAuthority s ctx && !(silentPeers s ctx it.seq).isEmpty then it
  else
    let it := { it with codes := it.codes ||| BitVec.ofNat 16 w.codes, planes := it.planes ||| BitVec.ofNat 8 w.planes }
    { it with outcome := some (mkOutcome s ctx it) }

/-- Form the outcomes that have become final, close them in order, and close the job when it has drained (R83, R87). The
dummy of a pair writes no outcome (R370). -/
def settleJob (ctx : Fin 64) (s : State) : State :=
  let j := s.jobs[ctx]
  match s.xlk.role == .dummy, j.pkg with
  | true, _ => s
  | _, none => s
  | _, some pk =>
    let items := j.items.map fun it =>
      if it.outcome.isSome then it
      else if itemPrinted s ctx pk it && (!judged pk it || it.verdict.isSome || it.codes.getLsbD 9) then finishItem s ctx it
      else it
    let (left, s) := closeFront ctx items s
    let s := s.modJob ctx fun j => { j with items := left }
    let (wait, s) := takeEntries ctx j.entryWait s
    closeJob ctx (s.modJob ctx fun j => { j with entryWait := wait })

/-- Courses of a slice. -/
def sliceCourses : Nat := 512

/-- Whether course `k` of a job on a plane has been composed: screened already, or in a complete slice. -/
def composed (j : Job) (p : Fin 8) (k : Nat) : Bool :=
  decide (k < (j.planes[p]).screened) || j.slices.any fun x => x.plane == p.val && x.complete && x.idx == k / sliceCourses

/-- Whether the last course of a job has been composed on every plane (R83). -/
def allComposed (j : Job) (pk : Package) : Bool :=
  match lastCourseEnd j with
  | some e => (jobPlanes pk).all fun p => (List.range (ceilDiv e sliceCourses)).all fun i =>
      composed j p (min (e - 1) (i * sliceCourses + sliceCourses - 1)) || decide (e ≤ (j.planes[p]).screened)
  | none => false

/-- A PRINTING job whose last course is composed on every plane enters DRAINING (R83). -/
def drainCheck (ctx : Fin 64) (s : State) : State :=
  let j := s.jobs[ctx]
  match j.st, j.pkg with
  | .printing, some pk => if allComposed j pk then settleJob ctx (s.modJob ctx fun j => { j with st := .draining }) else s
  | _, _ => s

/-- Settle every context. -/
def settleAll (s : State) : State := (List.finRange 64).foldl (fun s c => settleJob c s) s

/-- Hubs of a row. -/
def rowHubs (t : StructTables) (p row : Nat) : List Nat := ((rowHeads t p row).map (·.hub)).eraseDups

/-- Earliest instant of a slot: its BASE. -/
def FireSlot.base (x : FireSlot) : Nat := ((x.instants.map (·.2)).min?).getD 0

/-- Send a frame for a slot to each of its hubs, under the hub's own slot number. -/
def toSlotHubs (x : FireSlot) (f : Nat → MlkTx) (s : State) : State :=
  x.num.foldl (fun s h => s.emit (.hub h.1 (f h.2))) s

/-- A VOID outcome of a record that never bound: it has no slot, so its lane and repeat are free values (log entry 4). -/
def unboundOutcome (ctx : Fin 64) (codes : BitVec 16) (r : Record) (s : State) : OutcomeRec × State :=
  let (a, s) := s.draw
  let (b, s) := s.draw
  ({ seq := r.seq, rpt := a, ctx := ctx, lane := b, outcome := 9, planes := 0, codes := codes, time := s.pressNs }, s)

/-- Outcomes of queued records that end without printing. -/
def voidQueue (ctx : Fin 64) (codes : BitVec 16) : List Record → State → List OutcomeRec × State
  | [], s => ([], s)
  | r :: rest, s =>
    let (o, s) := unboundOutcome ctx codes r s
    let (l, s) := voidQueue ctx codes rest s
    (o :: l, s)

/-- End a job as JOB_ABORT does (R84): its sent slots with a BASE beyond 2 µs are cancelled, its items and queued records
end VOID, and the context is CLOSED. -/
def abortJob (ctx : Fin 64) (s : State) : State :=
  let s := endRuns ctx s
  let mine := s.pac.slots.filter fun x => x.ctx == ctx.val
  let s := mine.foldl (fun s x =>
    if x.st = .sent ∧ s.press + 2 * us8 < x.base then toSlotHubs x .cancel s else s) s
  let s := { s with pac := { s.pac with slots := s.pac.slots.filter fun x => x.ctx != ctx.val },
                    planes := s.planes.map fun p => { p with runway := p.runway.filter fun c => c.ctx != ctx.val,
                                                             screenCtx := if p.screenCtx = some ctx.val then none else p.screenCtx },
                    clusters := s.clusters.map fun c => match c.slice with
                      | some x => if x.2.2 = ctx.val then { c with slice := none, since := s.now } else c
                      | none => c,
                    cod := { s.cod with requests := s.cod.requests.filter fun r => r.ctx != ctx.val } }
  let j := s.jobs[ctx]
  let items := j.items.map fun it =>
    if it.outcome.isSome then it
    else
      let it := { it with codes := it.codes ||| codeBit 9 ||| (if it.anyFired then 0 else codeBit 15) }
      { it with outcome := some (mkOutcome s ctx it) }
  let (_, s) := closeFront ctx items s
  let (os, s) := voidQueue ctx (codeBit 9 ||| codeBit 15) j.queue s
  let (wait, s) := takeEntries ctx (j.entryWait ++ os) s
  s.modJob ctx fun j => { j with st := .closed, items := [], queue := [], slices := [], entryWait := wait, bindings := [] }

/-- End every running job (R56). -/
def abortActive (s : State) : State :=
  (List.finRange 64).foldl (fun s c => if (s.jobs[c]).st.active then abortJob c s else s) s

/-- Bytes of records a context holds in its record queue: those queued, and those bound and not final (R109). -/
def Record.size (r : Record) : Nat := 16 + (r.values.map fun v => ceilDiv (4 + v.2.length) 8 * 8).sum

end Sys2Proof.Machine
end

