-- ==== Sys2Proof/Machine/Motion.lean ====
section
/-! DEFINITION. Motion operations that holds, modes and both axis families share: stepper kinematics (R280, R284, R286 to
R288), stops (R271, R291), and whether an axis exists (R260, R279). -/

namespace Sys2Proof.Machine

/-! ## Axes of the structure -/

/-- The AXIS record of a brushless axis. -/
def State.baRec (s : State) (n : Nat) : Option AxisRec :=
  s.str.tables.bind fun t => t.axes.find? fun a => a.kind == 1 && a.index == n

/-- The AXIS record of a stepper axis. -/
def State.stpRec (s : State) (n : Nat) : Option AxisRec :=
  s.str.tables.bind fun t => t.axes.find? fun a => a.kind == 2 && a.index == n

/-- The encoder that an AXIS record names. -/
def axisEnc : Option AxisRec → Option (Fin 16)
  | some a => if h : a.encoder < 16 then some ⟨a.encoder, h⟩ else none
  | none => none

/-- Whether an AXIS record marks the web master axis (Table 2.10). -/
def isWebMaster : Option AxisRec → Bool
  | some a => a.flags % 2 == 1
  | none => false

/-- Replace a brushless axis. -/
def State.modBa (s : State) (n : Fin 8) (f : Ba → Ba) : State := { s with ba := upd s.ba n f }

/-- Replace a stepper axis. -/
def State.modStp (s : State) (n : Fin 16) (f : Stp → Stp) : State := { s with stp := upd s.stp n f }

/-- Whether some axis is enabled. -/
def State.anyAxisEn (s : State) : Bool := s.ba.toList.any (·.en) || s.stp.toList.any (·.en)

/-! ## Stepper kinematics -/

/-- The commanded position in 2^-16 microstep (R284). -/
def Stp.cur (x : Stp) : Int := x.p * 65536 + ((x.f / 2 ^ 24 : Nat) : Int)

/-- STP_VEL: V in microsteps/s, rounded to the nearest (R284). -/
def Stp.vel (x : Stp) : Int := floorDiv (x.v * 400000000 * 2 + 2 ^ 40) (2 ^ 41)

/-- The position moves by V on each of `n` clocks; each microstep moves the electrical index by 256 / MRES (R280). -/
def Stp.advance (x : Stp) (mresLog n : Nat) : Stp :=
  let total : Int := x.f + x.v * n
  let d := floorDiv total (2 ^ 40)
  { x with p := x.p + d, f := (total - d * 2 ^ 40).toNat, e := ((x.e + d * (2 ^ (8 - mresLog) : Nat)) % 1024).toNat }

/-- MRES of STP_CFG as a power of 2. -/
def State.mres (s : State) (n : Fin 16) : Nat := min 8 (s.fld Reg.stpCfg n 11 8)

/-- Bring an axis up to the present clock. -/
def stpCatchUp (n : Fin 16) (s : State) : State :=
  s.modStp n fun x =>
    let k := (s.now - x.updatedAt) / 20
    { x.advance (s.mres n) k with updatedAt := x.updatedAt + 20 * k }

/-- Whole microseconds, rounded up, of `num / den` seconds (R287). -/
def ceilUs (num den : Nat) : Nat := ceilDiv (num * 1000000) (max 1 den)

/-- Distance in 2^-16 microstep covered at a mean velocity of half `v2` microsteps/s for `t` µs. -/
def halfDist (v2 t : Nat) : Nat := v2 * t * 65536 / 2000000

/-- Keep a segment that lasts. -/
def keepSeg (n : Nat) (p0 v0 p1 v1 : Int) (rest : List Seg) : List Seg :=
  if n = 0 then rest else { n := n, p0 := p0, v0 := v0, p1 := p1, v1 := v1 } :: rest

/-- The approach part of the replan of R287: from `p` (2^-16 microstep) at velocity `v` toward `t`, same direction. -/
def approach (t p v : Int) (a vm : Nat) : List Seg :=
  let d := t - p
  if d = 0 then []
  else
    let sg : Int := if 0 ≤ d then 1 else -1
    let m := d.natAbs
    let u := v.natAbs
    let vp := min vm (Nat.sqrt ((2 * a * m + 65536 * u * u) / 131072))
    let ta := ceilUs (max vp u - min vp u) a
    let td := ceilUs vp a
    let x := (u + vp) * ta + vp * td
    if vp = vm ∧ x * 65536 ≤ 2000000 * m then
      let tc := ceilDiv (2000000 * m - 65536 * x) (2 * 65536 * max 1 vm)
      let p1 := p + sg * halfDist (u + vp) ta
      let p2 := t - sg * halfDist vp td
      keepSeg ta p v p1 (sg * vm) (keepSeg tc p1 (sg * vm) p2 (sg * vm) (keepSeg td p2 (sg * vm) t 0 []))
    else
      let vq := (2000000 * m - 65536 * u * ta) / (65536 * max 1 (ta + td))
      let p1 := p + sg * ((m : Int) - halfDist vq td)
      keepSeg ta p v p1 (sg * vq) (keepSeg td p1 (sg * vq) t 0 [])

/-- The replan of R287 from position `p` (2^-16 microstep) and velocity `v` (microsteps/s) to `t`. -/
def replan (t p v : Int) (a vm : Nat) : List Seg :=
  let d := t - p
  if v ≠ 0 ∧ ((0 < v) ≠ (0 < d) ∨ 2 * a * d.natAbs < v.natAbs * v.natAbs * 65536) then
    let t0 := ceilUs v.natAbs a
    let p0 := p + v.sign * halfDist v.natAbs t0
    keepSeg t0 p v p0 0 (approach t p0 0 a vm)
  else approach t p v a vm

/-- The ramped stop of R291: one segment down to zero velocity. -/
def rampSegs (p v : Int) (a : Nat) : List Seg :=
  let t0 := ceilUs v.natAbs a
  keepSeg t0 p v (p + v.sign * halfDist v.natAbs t0) 0 []

/-- The VELOCITY plan of R288: one segment to `vt`. -/
def velSegs (vt p v : Int) (a : Nat) : List Seg :=
  let n := ceilUs (vt - v).natAbs a
  keepSeg n p v (p + floorDiv ((v + vt) * n * 65536) 2000000) vt []

/-- The cubic Hermite curve of R286 at update `j` of a segment. -/
def Seg.at (g : Seg) (j : Nat) : Int :=
  let n : Int := g.n
  let j : Int := j
  let h10 := j ^ 3 - 2 * j ^ 2 * n + j * n ^ 2
  let h01 := 3 * j ^ 2 * n - 2 * j ^ 3
  let h11 := j ^ 3 - j ^ 2 * n
  g.p0 + floorDiv (1000000 * (g.p1 - g.p0) * h01 + 65536 * n * (g.v0 * h10 + g.v1 * h11)) (1000000 * n ^ 3)

/-- A plan over segments that goes on at `cruise` after the last of them. -/
def mkPlan (segs : List Seg) (cruise base : Int) : Option Plan :=
  if segs.isEmpty ∧ cruise = 0 then none else some { segs := segs, j := 0, seg := 0, cruise := cruise, base := base }

/-- Commanded position and velocity from which a plan starts (R285). -/
def Stp.start (x : Stp) : Int × Int := (x.cur, x.vel)

/-- Drop plan, gear and committed writes. -/
def Stp.drop (x : Stp) : Stp := { x with plan := none, gear := none, gearPend := [], reqs := [], halting := false }

/-- The immediate stop of R291. -/
def Stp.stopNow (x : Stp) : Stp :=
  { x.drop with v := 0, posUnsure := x.posUnsure || x.v != 0, clamps := 0, govLimit := false }

/-- The ramped stop of R291. -/
def Stp.rampStop (x : Stp) (a : Nat) : Stp :=
  let segs := rampSegs x.start.1 x.start.2 a
  let e := match segs with
    | g :: _ => g.p1
    | [] => x.cur
  { x.drop with plan := mkPlan segs 0 e, halting := x.v != 0, govLimit := false }

/-- INST that names the master source: its encoder or axis, or the fabric address (R171). -/
def masterInst (s : State) : Nat :=
  if s.fld Reg.pacSrc 0 1 0 = 3 then s.fld Reg.pacSrc 0 15 8 else s.fld Reg.pacSrc 0 7 4

/-- An estimator starts again from "first edge" (R170). -/
def Est.restart (e : Est) : Est := { e with edges := 0, lockCnt := 0, locked := false }

/-- The master loses lock (R170, R171). -/
def loseLock (s : State) : State :=
  if s.pac.est.locked then
    let s := { s with pac := { s.pac with est := s.pac.est.restart } }
    when s.anyActive (alarm .pacLockLost (masterInst s)) s
  else { s with pac := { s.pac with est := s.pac.est.restart } }

/-- POS_UNSURE newly set drops a pacer lock held through that axis (R291): PAC_SRC.KIND 2 names it. -/
def dropStepperLock (n : Nat) (s : State) : State :=
  if s.fld Reg.pacSrc 0 1 0 = 2 ∧ s.fld Reg.pacSrc 0 7 4 = n then loseLock s else s

/-- AXIS_HOME ends with a status, when this axis was homing. -/
def endHome (homing : Bool) (st : Status) (result : Nat) (s : State) : State :=
  if homing then complete .supervisor st result s else s

/-- Immediate stop of one stepper. -/
def stpStopNow (n : Fin 16) (s : State) : State :=
  let s := stpCatchUp n s
  let homing := (s.stp[n]).home.isSome
  let moved := (s.stp[n]).v != 0
  let s := s.modStp n fun x => { x.stopNow with home := none, zeroSince := some s.now }
  when moved (dropStepperLock n) (endHome homing .aborted 0 s)

/-- Ramped stop of one stepper. -/
def stpRampStop (n : Fin 16) (s : State) : State :=
  let s := stpCatchUp n s
  let homing := (s.stp[n]).home.isSome
  let a := (s.rd Reg.stpAmax n).toNat
  endHome homing .aborted 0 (s.modStp n fun x => { x.rampStop a with home := none })

/-! ## Brushless stops -/

/-- A stop of R271: a moving axis decelerates, at the current limit in class BRAKE. -/
def Ba.stop (x : Ba) (brake : Bool) : Ba :=
  match x.st with
  | .magnetise | .run | .homing => { x with st := .stopping, brake := brake, home := none, magAt := none }
  | .stopping => { x with brake := x.brake || brake }
  | _ => x

/-- Stop one brushless axis; a homing command ends with ABORTED. -/
def baStop (n : Fin 8) (brake : Bool) (s : State) : State :=
  let homing := (s.ba[n]).home.isSome
  endHome homing .aborted 0 (s.modBa n fun x => x.stop brake)

/-- Act on motion by the hold class (Table 3.6). -/
def motionFor (cls : Nat) (s : State) : State :=
  if cls < 2 then s
  else
    let s := (List.finRange 8).foldl (fun s n => if (s.ba[n]).en then baStop n (cls == 3) s else s) s
    (List.finRange 16).foldl (fun s n =>
      if (s.stp[n]).en then (if cls = 3 then stpStopNow n s else stpRampStop n s) else s) s

/-- Stop every enabled axis as in class BRAKE and disable it (R58, R64). -/
def stopAndDisable (s : State) : State :=
  let s := (List.finRange 8).foldl (fun s n =>
    if (s.ba[n]).en then (baStop n true s).modBa n fun x => { x with en := false } else s) s
  (List.finRange 16).foldl (fun s n =>
    if (s.stp[n]).en then (stpStopNow n s).modStp n fun x => { x with en := false } else s) s

end Sys2Proof.Machine
end

