-- ==== Sys2Proof/Machine/LinkOps.lean ====
section
/-! DEFINITION. The Mamen link's shared operations: endpoints and lanes (R208), reliable frames (R214), the waveform
frames of R190 and R206, epochs and takeovers (R223), and the speed windows of R112. -/

namespace Sys2Proof.Machine

/-- Replace one lane. -/
def State.modLane (s : State) (l : Fin 64) (f : Lane → Lane) : State :=
  { s with mlk := { s.mlk with lanes := upd s.mlk.lanes l f } }

/-- Replace one endpoint: hub e, or bridge e − 48. -/
def State.modEp (s : State) (e : Fin 64) (f : Endpoint → Endpoint) : State :=
  { s with mlk := { s.mlk with eps := upd s.mlk.eps e f } }

/-- Replace the waveform engine. -/
def State.modWav (s : State) (f : Wav → Wav) : State := { s with wav := f s.wav }

/-- Replace the MLK block's own fields. -/
def State.modMlk (s : State) (f : Mlk → Mlk) : State := { s with mlk := f s.mlk }

/-! ## Endpoints -/

/-- Index of an endpoint: hubs from 0, bridges from 48 (Table 11.9). -/
def EndpointRec.idx (e : EndpointRec) : Nat := if e.kind = 1 then e.number else 48 + e.number

/-- The endpoints of the active structure. -/
def State.endpoints (s : State) : List EndpointRec :=
  match s.str.tables with
  | some t => t.endpoints
  | none => []

/-- The ENDPOINT record of an endpoint index. -/
def State.epRec (s : State) (e : Nat) : Option EndpointRec := s.endpoints.find? fun r => r.idx == e

/-- The endpoint that a lane belongs to. -/
def State.laneEp (s : State) (l : Fin 64) : Option EndpointRec := s.endpoints.find? fun r => r.used.contains l.val

/-- LANE_IDX of a lane at its endpoint. -/
def laneIdx (e : EndpointRec) (l : Nat) : Nat := (e.used.idxOf? l).getD 0

/-- Lanes of an endpoint. -/
def EndpointRec.lanesOf (e : EndpointRec) : List (Fin 64) := e.used.map fun l => Fin.ofNat 64 l

/-- The order of lane states (Table 11.6). -/
def LaneSt.rank : LaneSt → Nat
  | .down => 0 | .train => 1 | .hello => 2 | .config => 3 | .sync => 4 | .ready => 5

/-- Lowest lane state of an endpoint. -/
def epRank (s : State) (e : EndpointRec) : Nat := ((e.lanesOf.map fun l => (s.mlk.lanes[l]).st.rank).min?).getD 0

/-- An endpoint is READY when every lane of it is (R208). -/
def epReady (s : State) (e : EndpointRec) : Bool := epRank s e == 5

/-- Whether an endpoint index is READY. -/
def State.ready (s : State) (e : Nat) : Bool := (s.epRec e).any (epReady s)

/-- The lane at LANE_IDX 0. -/
def EndpointRec.lane0 (e : EndpointRec) : Fin 64 := Fin.ofNat 64 (e.used.headD 0)

/-- Whether a hub has accepted this device's epoch (EPST.FENCED). -/
def epFenced (s : State) (e : Fin 64) : Bool := s.mlk.holds && (s.mlk.eps[e]).accEpoch == s.mlk.epoch

/-- Hubs of the structure, by index. -/
def hubEps (s : State) : List EndpointRec := s.endpoints.filter fun e => e.kind == 1

/-! ## Reliable frames (R214) -/

/-- Send a reliable frame under the lane's next SEQ, or keep it while 64 are unacknowledged. -/
def pushRel (l : Fin 64) (f : MlkTx) (s : State) : State :=
  let x := s.mlk.lanes[l]
  if x.relOut.length < 64 ∧ x.relWait.isEmpty then
    (s.modLane l fun x => { x with relNext := (x.relNext + 1) % 65536,
                                   relOut := x.relOut ++ [{ seq := x.relNext, frame := f, sentAt := s.now, tries := 0 }] }).emit
      (.mlk l f)
  else s.modLane l fun x => { x with relWait := x.relWait ++ [f] }

/-- Send waiting frames while there is room. -/
def drainRel (l : Fin 64) : List MlkTx → State → State
  | [], s => s
  | f :: rest, s =>
    if (s.mlk.lanes[l]).relOut.length < 64 then
      drainRel l rest ((s.modLane l fun x =>
        { x with relNext := (x.relNext + 1) % 65536, relWait := x.relWait.drop 1,
                 relOut := x.relOut ++ [{ seq := x.relNext, frame := f, sentAt := s.now, tries := 0 }] }).emit (.mlk l f))
    else s

/-- A frame that R190 waits for. -/
def MlkTx.isWave : MlkTx → Bool
  | .wave .. | .wgmap .. => true
  | _ => false

/-- WAVE and WGMAP frames of a lane that are unacknowledged. -/
def waveLeft (x : Lane) : Nat := (x.relOut.filter fun r => r.frame.isWave).length + (x.relWait.filter (·.isWave)).length

/-- Send a reliable frame to a hub on LANE_IDX 0 once its lane is past HELLO; before that, CONFIG carries what it says.
The dummy sends none (R225). -/
def sendHubRel (h : EndpointRec) (f : MlkTx) (s : State) : State :=
  if !s.dummy && decide (3 ≤ (s.mlk.lanes[h.lane0]).st.rank) then pushRel h.lane0 f s else s

/-- Send HUBMODE to every hub (R219). -/
def sendHubMode (armed : Bool) (s : State) : State := (hubEps s).foldl (fun s h => sendHubRel h (.hubmode armed) s) s

/-- The HUBMODE state that the present mode and hold give (R219). -/
def hubArmed (s : State) : Bool := s.modeIn [.service, .print] && !s.dev.hold

/-! ## Waveform frames (R190, R206) -/

/-- The state of a WG that nothing has been written to (Table 10.3). -/
def WgSt.reset : WgSt := { slots := List.replicate 8 0, active := 0, gain := 1024, target := 0, scale := 0, started := false }

/-- A WG's slots, gain and scales. -/
def State.wg (s : State) (n : Nat) : WgSt := ((s.wav.wgs.find? fun w => w.1 == n).map (·.2)).getD .reset

/-- Put a key at its place in a list sorted by key. -/
def assocSet {α : Type} (k : Nat) (v : α) : List (Nat × α) → List (Nat × α)
  | [] => [(k, v)]
  | (k', v') :: rest =>
    if k < k' then (k, v) :: (k', v') :: rest
    else if k = k' then (k, v) :: rest
    else (k', v') :: assocSet k v rest

/-- Replace a WG's state. -/
def State.modWg (s : State) (n : Nat) (f : WgSt → WgSt) : State :=
  s.modWav fun w => { w with wgs := assocSet n (f (s.wg n)) w.wgs }

/-- The words of a pool table that has taken a write since the pool was cleared. -/
def State.poolTable (s : State) (n : Nat) : Option (List Word) := (s.wav.pool.find? fun p => p.1 == n).map (·.2)

/-- The table named by a WG's active slot, when its VALID bit is set. -/
def namedTable (w : WgSt) : Option Nat :=
  let x := (w.slots[w.active]?).getD 0
  if bitsOf x 31 31 = 1 then some (bitsOf x 9 0) else none

/-- The table in force of a WG; none when its active slot is empty (R191). -/
def tableInForce (s : State) (n : Nat) : Option Nat := (namedTable (s.wg n)).filter fun t => (s.poolTable t).isSome

/-- WGs of the heads of a hub in WG order (R206). -/
def hubWgs (s : State) (hub : Nat) : List WgRec :=
  match s.str.tables with
  | some t => t.wgs.filter fun w => t.heads.any fun h => h.head == w.head && h.hub == hub
  | none => []

/-- The entry of a WG in its hub's map. -/
def mapEntry (s : State) (w : Nat) : Nat × Nat := (w, (tableInForce s w).getD 0xFFFF)

/-- Cut a list into WGMAP frames of up to 255 entries; only the first may clear. -/
def mapFrames (clear : Bool) : Nat → List (Nat × Nat) → List MlkTx
  | 0, _ => []
  | _, [] => []
  | fuel + 1, l => .wgmap clear (l.take 255) :: mapFrames false fuel (l.drop 255)

/-- WAVE of a table. -/
def waveFrame (s : State) (t : Nat) : MlkTx := .wave t ((s.poolTable t).getD [])

/-- Insert by an order, before the first entry that it precedes. -/
def insertBy {α : Type} (le : α → α → Bool) (x : α) : List α → List α
  | [] => [x]
  | y :: rest => if le x y then x :: y :: rest else y :: insertBy le x rest

/-- Sort by an order. -/
def sortBy {α : Type} (le : α → α → Bool) : List α → List α
  | [] => []
  | x :: rest => insertBy le x (sortBy le rest)

/-- Tables in force on a hub, in table order. -/
def hubTables (s : State) (hub : Nat) : List Nat :=
  sortBy (fun a b => decide (a ≤ b)) ((hubWgs s hub).filterMap fun w => tableInForce s w.wg).eraseDups

/-- What a hub is sent in CONFIG (Table 11.6): its whole map, every table in force, HUBMODE. -/
def configFrames (s : State) (hub : Nat) : List MlkTx :=
  mapFrames true 16 ((hubWgs s hub).map fun w => mapEntry s w.wg) ++ (hubTables s hub).map (waveFrame s) ++
    [.hubmode (hubArmed s)]

/-- What a change owes a hub: the table written when it is in force there, tables newly in force, and the entries that
changed. -/
def changeFrames (old s : State) (table : Option Nat) (hub : Nat) : List MlkTx :=
  let changed := (hubWgs s hub).filter fun w => mapEntry old w.wg != mapEntry s w.wg
  let tabs := (hubTables s hub).filter fun t => table == some t || changed.any fun w => tableInForce s w.wg == some t
  tabs.map (waveFrame s) ++ mapFrames false 16 (changed.map fun w => mapEntry s w.wg)

/-- Send what a change of a table or of an active slot owes to every hub whose lane is up, and remember who has yet to
acknowledge it. -/
def sendWaves (old : State) (table : Option Nat) (s : State) : List (Nat × Nat × Nat) × State :=
  (hubEps s).foldl (fun (b, s) h =>
    let fs := changeFrames old s table h.number
    if fs.isEmpty || s.dummy || decide ((s.mlk.lanes[h.lane0]).st.rank < 3) then (b, s)
    else
      let s := fs.foldl (fun s f => pushRel h.lane0 f s) s
      (b ++ [(h.number, s.now, waveLeft (s.mlk.lanes[h.lane0]))], s)) ([], s)

/-- `k` waveform frames of a hub have been acknowledged. -/
def ackBusy (hub k : Nat) (l : List (Nat × Nat × Nat)) : List (Nat × Nat × Nat) :=
  (l.map fun b => if b.1 == hub then (b.1, b.2.1, b.2.2 - k) else b).filter fun b => !(b.1 == hub && b.2.2 == 0)

/-! ## Epochs (R223) -/

/-- next(e) of an epoch. -/
def nextEpoch (e : Nat) : Nat := (e + 1) % 65535

/-- Send TAKEOVER to one hub. -/
def sendTakeover (h : EndpointRec) (s : State) : State :=
  (s.modEp (Fin.ofNat 64 h.number) fun e => { e with takeoverAt := some s.now }).emit (.hub h.number (.takeover s.mlk.epoch))

/-- Claim an epoch and fence every READY hub to it (R223, R367). -/
def claimEpoch (e : Nat) (s : State) : State :=
  let s := s.modMlk fun m => { m with holds := true, epoch := e }
  (hubEps s).foldl (fun s h => if epReady s h then sendTakeover h s else s) s

/-! ## Lanes go down -/

/-- A lane enters DOWN: both reliable series end, and its frames are dropped (R208, R209). -/
def Lane.goDown (x : Lane) (now : Nat) : Lane :=
  { Lane.reset with rtt := x.rtt, since := now }

/-! ## Speed windows (R112) -/

/-- The ceiling of every speed limit: 10 m/s in µm/s. -/
def capSpeed : Nat := 10000000

/-- Keep what lies within the last 16 ms. -/
def keep16 {α : Type} (now : Nat) (l : List (Nat × α)) : List (Nat × α) := l.filter fun e => decide (now ≤ e.1 + 16 * ms8)

/-- Master advance over the window, nm: positions are in 2^-16 nm, latest first. -/
def windowMove (pos : List (Nat × Int)) (m : Int) : Nat :=
  match pos.getLast? with
  | some p => (floorDiv (m - p.2) 65536).toNat
  | none => 0

/-- The start-up rule of R112: the ceiling while no job runs; the new value once the window holds 1 mm of web; else the
value kept. -/
def windowSpeed (active : Bool) (move v new : Nat) : Nat :=
  if !active then capSpeed else if 1000000 ≤ move then min capSpeed new else v

end Sys2Proof.Machine
end

