-- ==== Sys2Proof/Machine/Hold.lean ====
section
/-! DEFINITION. Holds: causes, entry, classes and clearing (R54 to R58, R221), and the pins and registers that raise
them. -/

namespace Sys2Proof.Machine

/-- Replace the DEV block. -/
def State.modDev (s : State) (f : Dev → Dev) : State := { s with dev := f s.dev }

/-- Class of a hold cause bit (Table 3.5). -/
def causeClass (s : State) : Nat → Nat
  | 0 => 3
  | 1 => 1
  | 2 => 3
  | 3 => 2
  | 4 => 1
  | 5 => 2
  | 6 => max 1 (s.fld Reg.devCtrl 0 5 4)
  | _ => 1

/-- STOP three times to every hub, with T_STOP the cause instant plus 2 µs (R221), then HUBMODE SAFE (R219). -/
def sendStops (s : State) : State :=
  let tmo := s.press + 2 * us8
  sendHubMode false ((hubEps s).foldl (fun s h =>
    ((s.emit (.hub h.number (.stop tmo))).emit (.hub h.number (.stop tmo))).emit (.hub h.number (.stop tmo))) s)

/-- A running service function ends with ABORTED (R56): a calibration run or a destructive march. -/
def endService (s : State) : State :=
  let s := match s.cal.run with
    | some r => complete .supervisor .aborted 0
        { s with cal := { s.cal with run := none, lastStatus := Status.aborted.code, lastKind := r.kind, lastIndex := r.index } }
    | none => s
  match s.mem.march with
  | some m =>
    if m.destructive then complete .supervisor .aborted 0 { s with mem := { s.mem with march := none } } else s
  | none => s

/-- Latch a cause bit (R54). -/
def latchCause (bit : Nat) (s : State) : State := s.modDev fun d => { d with holdCause := d.holdCause ||| (1#8 <<< bit) }

/-- A hold starts (R54 to R56, R221). -/
def enterHold (cls : Nat) (s : State) : State :=
  let s := s.modDev fun d => { d with hold := true, holdClass := cls, holdAt := s.press }
  motionFor cls (endService (abortActive (sendStops s)))

/-- A cause is set in SERVICE or PRINT: the hold starts, or its class may rise (R54). -/
def holdCause (bit : Nat) (s : State) : State :=
  if s.modeIn [.service, .print] then
    let s := latchCause bit s
    let cls := causeClass s bit
    if s.dev.hold then
      if s.dev.holdClass < cls then motionFor cls (s.modDev fun d => { d with holdClass := cls }) else s
    else enterHold cls s
  else s

/-- Whether the condition of a cause bit is still present (R57). Bit 5 stands while a latched fault does. -/
def causePresent (s : State) (bit : Nat) : Bool :=
  match bit with
  | 0 => !s.dev.holdN
  | 1 => !s.dev.fireEn && s.modeIn [.service, .print]
  | 2 => s.pwr.tripped
  | 4 => s.xlk.role == .conflict
  | 5 => s.ba.toList.any (fun x => x.fault != 0) || s.stp.toList.any (fun x => x.fault != 0)
  | 7 => s.sec.tamper != 0
  | _ => false

/-- The bits of DEV_HOLD_CAUSE whose condition is still present. -/
def keptCauses (s : State) : BitVec 8 :=
  (List.range 8).foldl (fun (v : BitVec 8) b =>
    if s.dev.holdCause.getLsbD b ∧ causePresent s b then v ||| (1#8 <<< b) else v) 0#8

/-- Causes of a pin that is asserted already as SERVICE or PRINT is entered take effect at once (R46). -/
def entryCauses (s : State) : State :=
  let s := if s.dev.holdN then s else holdCause 0 s
  if s.dev.fireEn then s else holdCause 1 s

/-- HOLD_N_ASSERT (R54, R58). -/
def execHoldNAssert (t : Nat) (s : State) : Res := run t s fun s =>
  let s := s.modDev fun d => { d with holdN := false }
  if s.modeIn [.service, .print] then holdCause 0 s
  else
    let s := latchCause 0 s
    if s.dev.mode = .standby then stopAndDisable s else s

/-- HOLD_N_RELEASE (R57): the release counts after 1 ms high (chapter 28); every bit stays set until it is cleared. -/
def execHoldNRelease (t highNs : Nat) (s : State) : Res := run t s fun s =>
  if 1000000 ≤ highNs then s.modDev fun d => { d with holdN := true } else s

/-- FIRE_EN_DEASSERT (R54, R58), 1 µs in each direction (chapter 28). -/
def execFireEnDeassert (t lowNs : Nat) (s : State) : Res := run t s fun s =>
  if 1000 ≤ lowNs then holdCause 1 (s.modDev fun d => { d with fireEn := false }) else s

/-- FIRE_EN_ASSERT (R58). -/
def execFireEnAssert (t highNs : Nat) (s : State) : Res := run t s fun s =>
  if 1000 ≤ highNs then s.modDev fun d => { d with fireEn := true } else s

/-- HOLD_REQ (Table 3.12): cause bit 6 in SERVICE and PRINT, with the class of HOLD_REQ_CLASS; the operand is the class
written in the same word. -/
def execHoldReq (t cls : Nat) (s : State) : Res := run t s fun s =>
  if s.ringsRun then holdCause 6 (s.setFld Reg.devCtrl 0 5 4 cls) else s.setFld Reg.devCtrl 0 5 4 cls

/-- What DEV_CTRL.HOLD_CLR does (R57): a hold ends when no cause is still present; outside a hold the bits whose
conditions have gone are cleared. The 10 s guarded period starts as a hold ends (R272). -/
def holdClear (s : State) : State :=
  let kept := keptCauses s
  if s.dev.hold then
    if kept = 0 then
      s.modDev fun d => { d with hold := false, holdClass := 0, holdCause := 0, mode := .standby, holdEndAt := some s.now }
    else s
  else s.modDev fun d => { d with holdCause := kept }

/-- HOLD_CLR (R57). -/
def execHoldClr (t : Nat) (s : State) : Res := run t s holdClear

end Sys2Proof.Machine
end

