-- ==== Sys2Proof/Machine/Brushless.lean ====
section
/-! DEFINITION. Brushless axes: sigma-delta channels, the decision engine, the speed loop, states and faults (chapter 14). -/

namespace Sys2Proof.Machine

/-- Offset of a register of axis `n` within MOT (Table 14.4). -/
def baOffset (n : Fin 8) (o : Nat) : Nat := 0x1000 + 0x80 * n + o

/-- Decision period T in ns (log entry 30). -/
def baPeriod (s : State) (n : Fin 8) : Nat := 1000000 / max 1 (s.fld Reg.baCfg n 24 16)

/-- The sigma-delta channel with a number. -/
def State.sdCh (s : State) (k : Nat) : Option Sd := s.sd[k]?

/-- Decimation period of a channel in ns: OSR / f_clock, f_clock = 400 MHz / DIV (R261); times 2 to stay whole. -/
def sdPeriod2 (s : State) (k : Nat) : Nat := s.fld Reg.sdCfg k 8 0 * s.fld Reg.sdClk (k / 6) 5 0 * 5

/-- Whether a channel's latest output is valid (R261, R262). -/
def Sd.valid (c : Sd) : Bool := decide (4 ≤ c.outputs) && !c.ovr && c.badLeft == 0

/-- A reading of a channel under R263: the last valid sample, with its calibrated OFFSET and GAIN. -/
def sdReading (s : State) (k : Nat) : Int :=
  match s.sdCh k with
  | none => 0
  | some c =>
    let v := if c.valid then c.value else c.lastValid
    match s.calRec 5 k with
    | some r => floorDiv ((v - r.data.getD 0 0) * r.data.getD 1 65536) 65536
    | none => v

/-- Channels that an axis uses: SD_A, SD_B and the bus channel (R260, R264). -/
def baChannels (s : State) (n : Fin 8) : List Nat :=
  match s.baRec n with
  | some a => [a.sdA, a.sdB, s.fld Reg.baBus n 31 24].filter (· < 24)
  | none => []

/-- DC bus voltage in mV (R264). -/
def baVdc (s : State) (n : Fin 8) : Int :=
  let v := s.fld Reg.baBus n 31 24
  if v = 0xFF then s.fld Reg.baBus n 23 0 else sdReading s v

/-- Phase currents i_a and i_b in mA. -/
def baCurrents (s : State) (n : Fin 8) : Int × Int :=
  match s.baRec n with
  | some a => (sdReading s a.sdA, sdReading s a.sdB)
  | none => (0, 0)

/-- Measured speed reference value: MOT_BA_SETPOINT. -/
def baSetp (s : State) (n : Fin 8) : Int := signed 32 (s.rd Reg.baSetpointR n).toNat

/-! ## Faults (R275) -/

/-- An axis faults with a code and an action. -/
def baFault (n : Fin 8) (code : Nat) (act : FaultAct) (s : State) : State :=
  let x := s.ba[n]
  if x.fault ≠ 0 then
    let s := s.setFld Reg.baErr n 31 24 (min 255 (s.fld Reg.baErr n 31 24 + 1))
    if act = .opens then s.modBa n fun x => { x with st := .fault, act := .opens } else s
  else if x.en then
    let homing := x.home.isSome
    let s := s.modBa n fun x =>
      { x with fault := code, act := act, st := .fault, en := false, brake := act == .brake, home := none, magAt := none }
    holdCause 5 (alarmArgs .motFault n code 0 0 (endHome homing .aborted 0 s))
  else s

/-! ## Guarded periods (R272) -/

/-- Whether ten seconds from an instant are still running. -/
def within10s (s : State) : Option Nat → Bool
  | some t => decide (s.now < t + 10 * sec8)
  | none => false

/-- A guarded period of an axis. -/
def guarded (s : State) (n : Fin 8) : Bool :=
  (s.ba[n]).st == .homing || s.dev.mode == .service || within10s s s.dev.holdEndAt ||
    (s.dev.standbyReached && within10s s (some s.dev.standbyAt))

/-! ## Sigma-delta outputs -/

/-- SD_OUTPUT (R261, R262). -/
def execSdOutput (t : Nat) (ch : Fin 24) (acc : Int) (s : State) : Res := run t s fun s =>
  let osr : Int := s.fld Reg.sdCfg ch 8 0
  let u := floorDiv (acc * 32768) (max 1 (osr ^ 3))
  let ovr := decide (s.fld Reg.sdCfg ch 31 16 < u.natAbs)
  let old := s.sd[ch]
  let s := if ovr && !old.ovr then s.count Reg.sdOvrcnt ch else s
  let c : Sd :=
    if ovr then
      { old with value := if 0 < u then 32767 else -32768, ovr := true, outputs := old.outputs + 1, badLeft := 4,
                 ovrAt := some (old.ovrAt.getD s.now) }
    else
      { old with value := u, ovr := false, outputs := old.outputs + 1, badLeft := old.badLeft - 1, ovrAt := none }
  let c := if c.valid then { c with lastValid := c.value, hadValid := true } else c
  let s := { s with sd := upd s.sd ch fun _ => c }
  match c.ovrAt with
  | none => s
  | some since => (List.finRange 8).foldl (fun s n =>
      if (s.ba[n]).en ∧ (baChannels s n).contains ch.val ∧ 2 * baPeriod s n * 8 < s.now - since then baFault n 2 .opens s
      else s) s

/-! ## The decision engine -/

/-- Whether leg `i` is high, as 0 or 1. -/
def leg (l : BitVec 3) (i : Nat) : Int := if l.getLsbD i then 1 else 0

/-- Leg-high time L_x over the period in half nanoseconds (R264). -/
def legTime (l prev : BitVec 3) (i : Nat) (cur imin t td : Int) : Int :=
  if l.getLsbD i = prev.getLsbD i then 2 * t * leg l i
  else
    let d2 : Int := if imin < cur then 0 else if cur < -imin then 2 else 1
    2 * (t - td) * leg l i + td * d2

/-- The sector of a flux vector (R265), by exact comparison. -/
def fluxSector (a b : Int) : Nat :=
  if a = 0 ∧ b = 0 then 1
  else if 3 * b * b < a * a then (if 0 < a then 1 else 4)
  else if 0 < b then (if 0 < a then 2 else 3)
  else if a < 0 then 5 else 6

/-- Vectors V1 to V6 as legs a, b, c in bits 0, 1, 2 (R267). -/
def vector (k : Nat) : BitVec 3 :=
  match k with
  | 1 => 0b001#3 | 2 => 0b011#3 | 3 => 0b010#3 | 4 => 0b110#3 | 5 => 0b100#3 | _ => 0b101#3

/-- The zero vector: V7 when two or three legs are high, else V0. -/
def zeroVector (l : BitVec 3) : BitVec 3 := if 2 ≤ leg l 0 + leg l 1 + leg l 2 then 0b111#3 else 0b000#3

/-- Table 14.1: the next inverter state from dpsi, dT, the sector and the present legs. -/
def switching (dpsi : Bool) (dt : Int) (k : Nat) (l : BitVec 3) : BitVec 3 :=
  if dt = 0 then zeroVector l
  else
    let stp : Int := if dpsi then (if 0 < dt then 1 else -1) else (if 0 < dt then 2 else -2)
    vector ((((k : Int) - 1 + stp) % 6).toNat + 1)

/-- The flux comparator (R266). -/
def fluxCmp (fr hf : Int) (a b : Int) (old : Bool) : Bool :=
  let m2 := a * a + b * b
  if m2 < ((fr - hf) * 1000000) ^ 2 then true else if ((fr + hf) * 1000000) ^ 2 < m2 then false else old

/-- The torque comparator (R266). -/
def torqueCmp (ht e old : Int) : Int :=
  if ht < e then 1 else if e < -ht then -1 else if (old = 1 ∧ e ≤ 0) ∨ (old = -1 ∧ 0 ≤ e) then 0 else old

/-- Whether m2 lies within the flux band (R270). -/
def inFluxBand (fr hf a b : Int) : Bool :=
  let m2 := a * a + b * b
  decide (((fr - hf) * 1000000) ^ 2 ≤ m2 ∧ m2 ≤ ((fr + hf) * 1000000) ^ 2)

/-- States in which the decision engine runs (Table 14.2). -/
def Ba.engine (x : Ba) : Bool :=
  match x.st with
  | .magnetise | .run | .homing | .stopping => true
  | .fault => x.act == .brake || x.act == .stop
  | _ => false

/-- Keep the flux angles of the last millisecond and the one before them. -/
def keepAngles (now : Nat) : List (Nat × Int) → List (Nat × Int)
  | [] => []
  | e :: rest => if now ≤ e.1 + ms8 then e :: keepAngles now rest else [e]

/-- One pass of R264 to R267: voltage, flux, torque, comparators and the next inverter state. -/
def decideStep (n : Fin 8) (s : State) : State :=
  let x := s.ba[n]
  let t : Int := baPeriod s n
  let td : Int := s.fld Reg.baDeadtime n 15 0
  let imin : Int := s.fld Reg.baObs n 15 0
  let (ia, ib) := baCurrents s n
  let l (i : Nat) (c : Int) := legTime x.legs x.legsPrev i c imin t td
  let la := l 0 ia; let lb := l 1 ib; let lc := l 2 (-ia - ib)
  let vdc := baVdc s n
  let va := floorDiv (vdc * (2 * la - lb - lc)) (6 * t)
  let vb := floorDiv (vdc * (lb - lc) * 37837) (2 * t * 65536)
  let iba := floorDiv ((ia + 2 * ib) * 37837) 65536
  let rs : Int := (s.rd Reg.baRs n).toNat
  let leak : Int := s.fld Reg.baObs n 31 16
  let a := x.psiA + va * t - floorDiv (rs * ia * t) 1000 - floorDiv (x.psiA * leak * t) 1000000000
  let b := x.psiB + vb * t - floorDiv (rs * iba * t) 1000 - floorDiv (x.psiB * leak * t) 1000000000
  let te := floorDiv (3 * (s.fld Reg.baCfg n 7 0 : Nat) * (a * iba - b * ia)) 2000000000000
  let fr : Int := (s.rd Reg.baFluxref n).toNat
  let hf : Int := s.fld Reg.baHyst n 15 0
  let k := fluxSector a b
  let dpsi := fluxCmp fr hf a b x.dpsi
  let tref : Int := if x.st = .magnetise then 0 else x.tref
  let dt := torqueCmp (s.fld Reg.baHyst n 31 16) (tref - te) x.dt
  let lockTq := s.fld Reg.baLock n 15 0
  let lockAt := if tref.natAbs ≤ lockTq then none else if k ≠ x.sector then some s.now else some (x.lockAt.getD s.now)
  let prev := (x.angles.headD (0, 0)).2
  let d := (Config.fluxAngle a b - prev + 32768) % 65536 - 32768
  let x := { x with psiA := a, psiB := b, te := te, dpsi := dpsi, dt := dt, sector := k, legsPrev := x.legs, tref := tref,
                    legs := switching dpsi dt k x.legs, ia := ia, ib := ib, lockAt := lockAt,
                    angles := keepAngles s.now ((s.now, prev + d) :: x.angles) }
  let x := if x.st = .magnetise ∧ inFluxBand fr hf a b then { x with st := .run, r := x.speed * 65536, magAt := none } else x
  s.modBa n fun _ => x

/-- Since when the bus voltage has been outside its limits (Table 14.3). -/
def busTimer (n : Fin 8) (s : State) : State :=
  let v := baVdc s n
  let bad := s.fld Reg.baBus n 31 24 ≠ 0xFF ∧ s.fld Reg.baBuslim n 31 16 ≠ 0 ∧
    (v < (s.fld Reg.baBuslim n 15 0 * 1000 : Nat) ∨ (s.fld Reg.baBuslim n 31 16 * 1000 : Nat) < v)
  s.modBa n fun x => { x with busAt := if bad then some (x.busAt.getD s.now) else none }

/-- DECISION_PERIOD (R264 to R267, R275): an OPEN fault takes every gate off; otherwise the engine runs. -/
def execDecisionPeriod (t : Nat) (axis : Fin 8) (s : State) : Res := run t s fun s =>
  let s := busTimer axis s
  let x := s.ba[axis]
  let (ia, ib) := baCurrents s axis
  let trip := (s.rd Reg.baItrip axis).toNat
  let ovr := decide (trip < ia.natAbs ∨ trip < ib.natAbs ∨ trip < (ia + ib).natAbs)
  if x.st = .fault ∧ x.act = .opens then
    s.modBa axis fun x => { x with st := .off, legs := 0, legsPrev := 0, sector := 0, dt := 0, tref := 0, lockAt := none }
  else if x.st = .off ∨ (s.baRec axis).isNone then s
  else
    let s := if ovr && (x.en || x.fault != 0) then baFault axis 1 .opens s else s
    if (s.ba[axis]).engine then decideStep axis s else s

/-! ## The speed loop -/

/-- Encoder speed in mrps (R268): the latest counted edge and the latest one at least 1 ms before it. -/
def encSpeed (edges : List (Nat × Int)) (cpr : Nat) : Option Int :=
  match edges with
  | [] => none
  | e :: rest => match rest.find? (fun f => decide (f.1 + ms8 ≤ e.1)) with
    | some f => some (floorDiv ((e.2 - f.2) * 1000 * sec8) (cpr * (e.1 - f.1) : Nat))
    | none => none

/-- Observer speed in mrps (R268): the unwrapped angle over the last 1 ms, divided by PP. -/
def observerSpeed (l : List (Nat × Int)) (pp : Nat) : Option Int :=
  match l, l.getLast? with
  | a :: _ :: _, some b => some (floorDiv ((a.2 - b.2) * 1000 * sec8) (65536 * (max 1 pp * (a.1 - b.1)) : Nat))
  | _, _ => none

/-- Measure the speed; where there are not two samples yet, it is a free value (log entry 1). -/
def measureSpeed (n : Fin 8) (s : State) : State :=
  let x := s.ba[n]
  let cpr := (s.rd Reg.baEnccpr n).toNat
  let enc := axisEnc (s.baRec n)
  let useEnc := enc.isSome && cpr != 0 && !x.observerSpeed && x.fault != 8
  let v := match useEnc, enc with
    | true, some e => encSpeed (s.enc[e]).edges cpr
    | _, _ => observerSpeed x.angles (s.fld Reg.baCfg n 7 0)
  match v with
  | some v => s.modBa n fun x => { x with speed := v }
  | none => let (r, s) := s.draw
    s.modBa n fun x => { x with speed := signed 32 (r % 2 ^ 32) }

/-- The ramp of R269 in 2^-16 mrps; `held` keeps a reversal at zero (R272). -/
def rampStep (r w acc dec : Int) (held : Bool) : Int :=
  if (0 ≤ r ∧ r ≤ w) ∨ (w ≤ r ∧ r ≤ 0) then
    if r = 0 ∧ held then 0 else if 0 ≤ w then min w (r + acc) else max w (r - acc)
  else
    let next := if r < w then min w (r + dec) else max w (r - dec)
    if held ∧ ((0 < r ∧ next < 0) ∨ (r < 0 ∧ 0 < next)) then 0 else next

/-- The governor's limit on the web master axis (R254, R269): floor(v_gov × 10^6 / WEB). -/
def baGovLimit (s : State) (n : Fin 8) : Option Int :=
  let web := (s.rd Reg.baWeb n).toNat
  if isWebMaster (s.baRec n) ∧ s.fld Reg.govCfg 0 31 31 = 1 ∧ web ≠ 0 ∧ s.modeIn [.standby, .service, .print] then
    some ((s.gov.vgov * 1000000 / web : Nat) : Int)
  else none

/-- The target w of the ramp, and whether the governor limits it. -/
def baTarget (s : State) (n : Fin 8) : Int × Bool :=
  let x := s.ba[n]
  match x.st, x.home with
  | .homing, some h => (if h.found.isSome then 0 else h.speed, false)
  | .run, _ =>
    let w := baSetp s n
    match baGovLimit s n with
    | some l => (min w l, decide (l < w))
    | none => (w, false)
  | _, _ => (0, false)

/-- Torque reference and integrator (R269). -/
def torqueLoop (n : Fin 8) (s : State) : State :=
  let x := s.ba[n]
  let tq : Int := (s.rd Reg.baTqmax n).toNat
  let e := floorDiv x.r 65536 - x.speed
  let u := (s.rd Reg.baKp n).toNat * e + x.integ
  let q := floorDiv u 65536
  let tref := max (-tq) (min tq q)
  let integ := if tref ≠ q ∧ e.sign = u.sign then x.integ else x.integ + floorDiv ((s.rd Reg.baKi n).toNat * e) 10000
  s.modBa n fun x => { x with tref := tref, integ := integ }

/-- Since when a condition has held. -/
def since (s : State) (c : Bool) (old : Option Nat) : Option Nat := if c then some (old.getD s.now) else none

/-- The timers of OVERSPEED and SPEED_ERROR (Table 14.3). -/
def speedTimers (n : Fin 8) (s : State) : State :=
  let x := s.ba[n]
  let ovr := decide (11 * (s.rd Reg.baSpdmax n).toNat < 10 * x.speed.natAbs)
  let err := decide (s.fld Reg.baSpdwin n 15 0 < (floorDiv x.r 65536 - x.speed).natAbs) && x.engine && x.st != .magnetise
  s.modBa n fun x => { x with overAt := since s ovr x.overAt, errAt := since s err x.errAt }

/-- SPEED_LOOP_TICK (R268, R269, R271 to R273, R275). -/
def execSpeedLoopTick (t : Nat) (axis : Fin 8) (s : State) : Res := run t s fun s =>
  if (s.baRec axis).isNone then s
  else
    let s := speedTimers axis (measureSpeed axis s)
    let x := s.ba[axis]
    if !x.engine || x.st == .magnetise then s
    else
      let x := if x.st = .run ∧ baSetp s axis = 0 ∧ !guarded s axis then { x with st := .stopping, brake := false } else x
      let s := s.modBa axis fun _ => x
      let low := decide (x.speed.natAbs < s.fld Reg.baSpdlim axis 31 16)
      if (x.st == .stopping || x.st == .fault) && low then
        s.modBa axis fun x => { x with st := .shorted, legs := 0, legsPrev := 0, tref := 0, brake := false, lockAt := none }
      else if x.brake || x.act == .brake then
        s.modBa axis fun x => { x with tref := -x.speed.sign * ((s.rd Reg.baTqmax axis).toNat : Int) }
      else
        let (w, lim) := baTarget s axis
        let held := guarded s axis && decide (s.fld Reg.baSpdlim axis 15 0 ≤ x.speed.natAbs)
          && decide (x.speed.sign * w.sign < 0)
        let r := rampStep x.r (w * 65536) ((s.rd Reg.baAccel axis).toNat * 65536 / 10000 : Nat)
          ((s.rd Reg.baDecel axis).toNat * 65536 / 10000 : Nat) held
        let s := torqueLoop axis (s.modBa axis fun x => { x with r := r, govLimit := lim })
        match x.st, x.home with
        | .homing, some h => match h.found with
          | some c => if r = 0 then
              complete .supervisor .ok (unsigned 32 c)
                ((s.modBa axis fun x => { x with st := .run, home := none }).wr Reg.baSetpointR axis 0)
            else s
          | none => s
        | _, _ => s

/-! ## Commands of an axis -/

/-- Conditions that refuse EN (R270, R372), in the order of R505. -/
def baEnableConds (s : State) (n : Fin 8) : List (Bool × Status) :=
  let a := s.baRec n
  let ready (k : Nat) : Bool := ((s.sdCh k).map (·.hadValid)).getD false
  [(!s.modeIn [.standby, .service, .print], .badMode), (!s.dev.holdN, .safety),
   (s.dev.hold || (s.ba[n]).fault != 0 || s.xlk.role == .dummy || s.isDisabled 0x0A n, .badState),
   (!((a.map fun a => ready a.sdA && ready a.sdB).getD false), .notReady),
   ((a.map fun a => [a.sdA, a.sdB].any fun k => decide (2 * baPeriod s n < sdPeriod2 s k)).getD false, .range)]

/-- Enable an axis: OFF goes to MAGNETISE with psi at 0, SHORTED to RUN (R265, R270, R271). -/
def Ba.enable (x : Ba) (now : Nat) : Ba :=
  match x.st with
  | .off => { x with en := true, st := .magnetise, psiA := 0, psiB := 0, sector := 1, magAt := some now, brake := false,
                     act := .none, angles := [], lockAt := none, overAt := none, errAt := none, busAt := none }
  | .shorted => { x with en := true, st := .run, r := x.speed * 65536, brake := false, act := .none }
  | _ => { x with en := true }

/-- BA_ENABLE (R270). -/
def execBaEnable (t : Nat) (axis : Fin 8) (s : State) : Res := run t s fun s =>
  refuseOr (baEnableConds s axis) Reg.baErr axis (baOffset axis 0)
    (fun s => s.modBa axis fun x => x.enable s.now) s

/-- BA_DISABLE (R271): EN reads 0 at once and the axis stops along DECEL. -/
def execBaDisable (t : Nat) (axis : Fin 8) (s : State) : Res := run t s fun s =>
  if (s.ba[axis]).en then (baStop axis false s).modBa axis fun x => { x with en := false } else s

/-- BA_OPEN (R271). -/
def execBaOpen (t : Nat) (axis : Fin 8) (s : State) : Res := run t s fun s =>
  s.modBa axis fun x => if x.st = .shorted ∧ !x.en then { x with st := .off, sector := 0 } else x

/-- Whether the condition of a latched fault is still present (R276). -/
def baFaultPresent (s : State) (n : Fin 8) : Bool :=
  let x := s.ba[n]
  let (ia, ib) := baCurrents s n
  let trip := (s.rd Reg.baItrip n).toNat
  match x.fault with
  | 1 => decide (trip < ia.natAbs ∨ trip < ib.natAbs ∨ trip < (ia + ib).natAbs)
  | 2 => (baChannels s n).any fun k => ((s.sdCh k).map (·.ovr)).getD false
  | 4 => x.driverLow
  | 5 => x.busAt.isSome
  | 7 => x.overAt.isSome
  | 9 => x.errAt.isSome
  | _ => false

/-- BA_FAULT_CLR (R276). -/
def execBaFaultClr (t : Nat) (axis : Fin 8) (s : State) : Res := run t s fun s =>
  if ((s.ba[axis]).st = .off ∨ (s.ba[axis]).st = .shorted) ∧ !baFaultPresent s axis then
    s.modBa axis fun x => { x with fault := 0, act := .none, observerSpeed := false }
  else s

/-- BA_SETPOINT (R271, R272): a reversal at speed is refused in a guarded period; a new non-zero setpoint restarts an
enabled SHORTED axis outside a hold of class STOP or BRAKE. -/
def execBaSetpoint (t : Nat) (axis : Fin 8) (value : Word) (s : State) : Res := run t s fun s =>
  let x := s.ba[axis]
  let v := signed 32 value.toNat
  if !s.ringsRun then s
  else if guarded s axis && decide (v.sign * x.speed.sign < 0) && decide (s.fld Reg.baSpdlim axis 15 0 ≤ x.speed.natAbs) then
    (s.setFld Reg.baStatus axis 5 5 1).recordErr Reg.baErr axis (baOffset axis 0x0C) .badState
  else
    let s := s.wr Reg.baSetpointR axis value
    if v ≠ 0 ∧ x.en ∧ x.fault = 0 ∧ (x.st = .shorted ∨ (x.st = .stopping ∧ !x.brake)) ∧ s.dev.holdClass < 2 then
      s.modBa axis fun x => { x with st := .run, r := if x.st = .shorted then x.speed * 65536 else x.r, brake := false }
    else s

/-- MAGNETISE_TIMEOUT (R270): 100 ms without reaching the flux band. -/
def execMagnetiseTimeout (t : Nat) (axis : Fin 8) (s : State) : Res := run t s fun s =>
  match (s.ba[axis]).magAt with
  | some at_ => if at_ + 100 * ms8 ≤ s.now then baFault axis 6 .opens s else s
  | none => s

/-- A timed condition faults the axis once it has held for long enough. -/
def timedFault (n : Fin 8) (at_ : Option Nat) (len code : Nat) (act : FaultAct) (s : State) : State :=
  match at_ with
  | some a => if a + len ≤ s.now then baFault n code act s else s
  | none => s

/-- LOCKED_ROTOR (R274). -/
def execLockedRotor (t : Nat) (axis : Fin 8) (s : State) : Res := run t s fun s =>
  timedFault axis (s.ba[axis]).lockAt (s.fld Reg.baLock axis 31 16 * ms8) 3 .opens s

/-- BA_DRIVER_FAULT (R275): BAn_FLT_N low for 1 µs. -/
def execBaDriverFault (t : Nat) (axis : Fin 8) (lowNs : Nat) (s : State) : Res := run t s fun s =>
  let s := s.modBa axis fun x => { x with driverLow := decide (0 < lowNs) }
  if 1000 ≤ lowNs then baFault axis 4 .opens s else s

/-- BA_OVERSPEED_FAULT (R275): 10 ms above SPD_MAX × 1.1. -/
def execBaOverspeedFault (t : Nat) (axis : Fin 8) (s : State) : Res := run t s fun s =>
  timedFault axis (s.ba[axis]).overAt (10 * ms8) 7 .brake s

/-- BA_SPEED_ERROR_FAULT (R275): 500 ms beyond SPD_WIN. -/
def execBaSpeedErrorFault (t : Nat) (axis : Fin 8) (s : State) : Res := run t s fun s =>
  timedFault axis (s.ba[axis]).errAt (500 * ms8) 9 .stop s

/-- BA_BUS_FAULT (R275): 1 ms outside VMIN to VMAX. -/
def execBaBusFault (t : Nat) (axis : Fin 8) (s : State) : Res := run t s fun s =>
  timedFault axis (s.ba[axis]).busAt ms8 5 .opens s

/-- GUARD_PERIOD_END (R272): the ten seconds after a hold are over. -/
def execGuardPeriodEnd (t : Nat) (s : State) : Res := run t s fun s =>
  if within10s s s.dev.holdEndAt then s else s.modDev fun d => { d with holdEndAt := none }

/-- Conditions that refuse AXIS_HOME of KIND 1 (R273, R468): the axis number lies outside its range first. -/
def baHomeConds (s : State) (index : Nat) (speed : Int) : List (Bool × Status) :=
  let n := Fin.ofNat 8 index
  [(!s.modeIn [.standby, .service], .badMode),
   (decide (8 ≤ index) || (axisEnc (s.baRec n)).isNone || decide ((s.rd Reg.baSpdmax n).toNat < speed.natAbs), .range),
   ((s.ba[n]).st != .run || decide (s.fld Reg.baSpdlim n 15 0 ≤ (s.ba[n]).speed.natAbs), .badState)]

/-- AXIS_HOME_BRUSHLESS (R273). -/
def execAxisHomeBrushless (t index : Nat) (speed : Int) (timeout : Nat) (s : State) : Res := ringCmd t s fun s =>
  admitCmd .supervisor (baHomeConds s index speed) (fun s => s.modBa (Fin.ofNat 8 index) fun x =>
    { x with st := .homing, home := some { speed := speed, deadline := s.now + timeout * ms8, found := none } }) s

/-- BA_HOME_TIMEOUT (R273): the axis stops under R271 and the command returns TIMEOUT. -/
def execBaHomeTimeout (t : Nat) (axis : Fin 8) (s : State) : Res := run t s fun s =>
  match (s.ba[axis]).home with
  | some h =>
    if h.found.isNone ∧ h.deadline ≤ s.now then
      complete .supervisor .timeout 0 (s.modBa axis fun x => { x with home := none, st := .stopping, brake := false })
    else s
  | none => s

end Sys2Proof.Machine
end

