-- ==== Sys2Proof/Machine/SecOps.lean ====
section
/-! DEFINITION. The security core's shared operations (chapters 06, 17, 20): OTP words and regions, the life cycle, the
session and sensitive commands, key slots, the wipe of the secure SRAM and tamper events. -/

namespace Sys2Proof.Machine

/-- Replace the security core. -/
def State.modSec (s : State) (f : Sec → Sec) : State := { s with sec := f s.sec }

/-- Replace the code engines. -/
def State.modCod (s : State) (f : Cod → Cod) : State := { s with cod := f s.cod }

/-- Replace the memory block. -/
def State.modMem (s : State) (f : Mem → Mem) : State := { s with mem := f s.mem }

/-! ## OTP (R391 to R396) -/

/-- An OTP word. -/
def otpWord (s : State) (w : Nat) : Word := (regLookup w s.otp).getD 0

/-- Burn bits into an OTP word: bits are only ever set. -/
def otpSet (w : Nat) (bits : Word) (s : State) : State := { s with otp := regInsert w (otpWord s w ||| bits) 0 s.otp }

/-- Words of a region: first and last (Table 20.5); 0 MFG, 1 ROOT, 2 SECRET, 3 LIFE, 4 SEAL, 5 CUST. -/
def regionWords : Nat → Nat × Nat
  | 0 => (0, 31)
  | 1 => (32, 95)
  | 2 => (96, 127)
  | 3 => (128, 143)
  | 4 => (144, 175)
  | _ => (176, 239)

/-- Words that a region's digest covers (Table 20.5). -/
def coveredWords : Nat → Nat × Nat
  | 3 => (129, 129)
  | 4 => (144, 159)
  | i => regionWords i

/-- A region is finalised when its digest is not zero (R392). -/
def regionFinal (s : State) (i : Nat) : Bool := otpWord s (240 + 2 * i) != 0 || otpWord s (241 + 2 * i) != 0

/-- The region of a word. -/
def regionOf (w : Nat) : Nat := ((List.range 6).find? fun i => decide ((regionWords i).1 ≤ w ∧ w ≤ (regionWords i).2)).getD 6

/-- Bytes of consecutive OTP words, each least significant byte first. -/
def otpBytes (s : State) (first n : Nat) : Bytes :=
  (List.range n).flatMap fun i => (List.range 4).map fun b => BitVec.ofNat 8 ((otpWord s (first + i)).toNat / 2 ^ (8 * b))

/-- Life-cycle state (R384): 0 MANUFACTURE, 1 PROVISIONED, 2 FIELD, 3 RETURN, 4 SCRAPPED. -/
def lifeCycle (s : State) : Nat :=
  let w := otpWord s 128
  if w.getLsbD 3 then 4 else if w.getLsbD 2 then 3 else if w.getLsbD 1 then 2 else if w.getLsbD 0 then 1 else 0

/-! ## Sessions (R388 to R390) -/

/-- FIELD and RETURN take sensitive operations only in a session (Table 20.2). -/
def needsSession (s : State) : Bool := lifeCycle s == 2 || lifeCycle s == 3

/-- Whether a sensitive operation is refused now (R390). -/
def sensitiveRefused (s : State) : Bool := needsSession s && s.sec.session.isNone

/-- A sensitive supervisor command: refused, it completes with AUTH_FAIL after 2.000 ms (R390); admitted, it counts as
activity of the session (R389). -/
def sensitive (f : State → State) (s : State) : State :=
  if sensitiveRefused s then s.modSec fun x => { x with timed := x.timed ++ [(.refusal, s.now)] }
  else f (s.modSec fun x => { x with session := x.session.map fun y => { y with lastAct := s.now } })

/-- The session closes; a sensitive command that runs is refused with it (R389, R390). -/
def closeSession (s : State) : State :=
  let cut := s.sec.session.isSome && needsSession s && !(s.sec.timed.any fun x => x.1 == .refusal) &&
    match s.supRing.running with
    | some c => sensitiveOps.contains c.opcode
    | none => false
  let at_ := match s.supRing.running with
    | some c => c.since
    | none => s.now
  let s := s.modSec fun x =>
    { x with session := none, timed := if cut then x.timed ++ [(.refusal, at_)] else x.timed,
             entropyWait := if cut then none else x.entropyWait }
  if cut then s.modDev fun d => { d with activating := none } else s

/-- Bytes from the TRNG: their values are open. -/
def freshBytes : Nat → State → Bytes × State
  | 0, s => ([], s)
  | n + 1, s =>
    let d := s.draw
    let r := freshBytes n d.2
    (BitVec.ofNat 8 d.1 :: r.1, r.2)

/-- Little-endian bytes of a number. -/
def leBytes (n v : Nat) : Bytes := (List.range n).map fun i => BitVec.ofNat 8 (v / 2 ^ (8 * i))

/-- Phase 0 of SESSION_OPEN (R388): a challenge record goes to the host and replaces any outstanding one. -/
def issueChallenge (addr : Nat) (s : State) : State :=
  let f := freshBytes 32 s
  let s := f.2
  let id := s.sec.chalNext
  let record : Bytes := [0x53, 0x43, 0x48, 0x31] ++ leBytes 4 id ++ leBytes 8 ((otpWord s 0).toNat + 2 ^ 32 * (otpWord s 1).toNat) ++
    leBytes 1 (lifeCycle s) ++ List.replicate 15 0 ++ f.1
  complete .supervisor .ok id
    ((s.modSec fun x => { x with chalNext := (id + 1) % 2 ^ 32, challenge := some ⟨id, s.now, record⟩ }).emit (.hostWrite addr record))

/-! ## Key slots (R126 to R128) -/

/-- The MAC root: OTP words 104 to 111, their mask removed (R393). -/
def macRoot (s : State) : Bytes :=
  (List.range 8).flatMap fun i => (List.range 4).map fun b =>
    BitVec.ofNat 8 ((otpWord s (104 + i) ^^^ Config.secretMask (104 + i)).toNat / 2 ^ (8 * b))

/-- The key of a kind, context and label (R126). -/
def deriveKey (s : State) (kind context : Nat) (label : Bytes) : Bytes :=
  let n := if kind = 1 then 16 else 32
  (Config.hmacSha256 (macRoot s) (beBytes 4 1 ++ label ++ [0] ++ beBytes 8 context ++ beBytes 4 (8 * n))).take n

/-- A slot's algorithm. -/
def slotAlg (kind : Nat) (key msg : Bytes) : Bytes := if kind = 3 then Config.hmacSha256 key msg else Config.aesCmac key msg

/-- The check value of a key: the first 3 bytes of its algorithm over 16 zero bytes (R127). -/
def checkValue (kind : Nat) (key : Bytes) : Nat := beNat ((slotAlg kind key (List.replicate 16 0)).take 3)

/-- A filled slot. -/
def filledSlot (s : State) (kind context : Nat) (label : Bytes) : KeySlot :=
  { valid := true, kind := kind, context := context, label := label, check := checkValue kind (deriveKey s kind context label) }

/-- The key in a slot, when it holds one. -/
def slotKey (s : State) (n : Nat) : Option Bytes :=
  (s.cod.slots[n]?).bind fun k => if k.valid then some (deriveKey s k.kind k.context k.label) else none

/-- Whether the security core loads SECRET (Table 20.2): in PROVISIONED once it is finalised, in FIELD. -/
def loadsSecret (s : State) : Bool := (lifeCycle s == 1 && regionFinal s 2) || lifeCycle s == 2

/-- At start-up the security core derives every recorded slot (R128). -/
def deriveSlots (s : State) : State :=
  if loadsSecret s then
    s.cod.table.foldl (fun s e => match e with
      | (n, kind, context, label) => s.modCod fun c => { c with slots := upd c.slots (Fin.ofNat 32 n) fun _ => filledSlot s kind context label }) s
  else s

/-! ## The secure SRAM (R328) -/

/-- The wipe starts: every key slot is emptied. -/
def wipeSecure (s : State) : State :=
  (s.modCod fun c => { c with slots := Vector.replicate 32 KeySlot.empty }).modMem fun m =>
    { m with wiping := true, wipeTries := 0 }

/-! ## Tamper (R399, R400) -/

/-- The RTC: seconds since 2000-01-01. -/
def rtcNow (s : State) : Nat := (s.sec.rtcBase + (s.now / sec8 : Nat)).toNat

/-- A tamper event on a bit of SEC_TAMPER: 0 to 3 the inputs, 4 voltage, 5 clock, 6 temperature (R400). With the core off
only the latch and its time are recorded. -/
def tamperEvent (bit : Nat) (s : State) : State :=
  let s := s.modSec fun x =>
    { x with tamper := x.tamper ||| (1#7 <<< bit), tamperTime := if x.tamper = 0 then rtcNow s else x.tamperTime,
             tamperLate := x.tamperLate || !s.dev.rstN,
             timed := x.timed.map fun y => (match y.1 with
               | .phase1 _ => Timed.phase1 false
               | z => z, y.2) }
  if !s.dev.rstN then s
  else alarm .secTamper noInst (holdCause 7 (closeSession (wipeSecure s)))

end Sys2Proof.Machine
end

