-- ==== Sys2Proof/Machine/MetOps.lean ====
section
/-! DEFINITION. The sealed partition's shared operations (chapter 21): audit records and their limits, sealed patches, and
the binding of an item that carries sealed fields. -/

namespace Sys2Proof.Machine

/-- Replace the sealed partition. -/
def State.modMet (s : State) (f : Met → Met) : State := { s with met := f s.met }

/-! ## Audit records (R413, R414) -/

/-- Whether a record is a transaction record that waits for the log writer. -/
def isTxn (r : LogRec) : Bool := match r.payload with
  | .audit (.transaction ..) => true
  | _ => false

/-- Transaction records reserved, or filled and not yet placed (R413). -/
def txnUsed (s : State) : Nat :=
  (s.jobs.toList.map fun j => (j.items.filter fun it => it.sealedBind.isSome).length).sum + (s.log.waitAudit.filter isTxn).length

/-- Event records the sealed flash region can still take (R414). -/
def evtFree (s : State) : Nat := 65536 - s.met.events.length

/-- MET_STATUS.AUDIT_STOP (R413, R414). -/
def auditStop (s : State) : Bool := decide (4096 ≤ txnUsed s) || decide (evtFree s < 64) || s.met.loss

/-- MET_AUDIT_STOP is raised once when the last transaction record is taken (R413). -/
def checkTxn (s : State) : State :=
  if 4096 ≤ txnUsed s then
    if s.met.stopRaised then s else alarm .metAuditStop noInst (s.modMet fun m => { m with stopRaised := true })
  else s.modMet fun m => { m with stopRaised := false }

/-- Write an event record: it takes the next audit number, is kept in the sealed flash region while that has room, for no
unreleased record is overwritten (R414), and goes to the host. -/
def metEvent (kind : Nat) (data : List Int) (s : State) : State :=
  let r := AuditRec.event s.met.anum (rtcNow s) kind s.met.c data
  raiseAudit r (s.modMet fun m => { m with anum := m.anum + 1, events := if evtFree s = 0 then m.events else m.events ++ [r] })

/-! ## Texts and patches (R409, R411) -/

/-- Total price (R409), round half up. -/
def totalPrice (net unit : Nat) : Nat := (net * unit + 500000) / 1000000

/-- A number in units of 10^-dec with its decimal mark. -/
def decimalText (dec mark : Nat) (v : Int) : List Nat :=
  let d := padZeros (dec + 1) (radixDigits 10 v.natAbs)
  (if v < 0 then [45] else []) ++ d.take (d.length - dec) ++ (if dec = 0 then [] else mark :: d.drop (d.length - dec))

/-- The text of a sealed field before padding (R411). -/
def sealedText (g : Glob) (d : SfDef) (b : SealedBind) : List Nat :=
  let kg : List Nat := if d.suffix = 1 then [32, 107, 103] else []
  let cur : List Nat := if d.suffix = 1 then 32 :: g.cur else []
  match d.content with
  | 1 => decimalText d.wdec g.mark (floorDiv b.net (10 ^ (6 - d.wdec))) ++ kg
  | 2 => decimalText g.priceDec g.mark b.unit ++ cur
  | 3 => decimalText g.priceDec g.mark b.total ++ cur
  | 4 => decimalText d.wdec g.mark (floorDiv b.tare (10 ^ (6 - d.wdec))) ++ kg
  | _ => padZeros 2 (radixDigits 10 b.channel) ++ [45] ++ padZeros 10 (radixDigits 10 b.wseq)

/-- Whether a weight cannot be written with the field's decimals (Table 21.3, DIGITS). -/
def weightUneven (d : SfDef) (b : SealedBind) : Bool :=
  (d.content == 1 && b.net % (10 ^ (6 - d.wdec)) != 0) || (d.content == 4 && b.tare % (10 ^ (6 - d.wdec)) != 0)

/-- Width and height of a patch (R411). -/
def patchSize (d : SfDef) : Nat × Nat := (d.chars * 16 * d.scale, 24 * d.scale)

/-- The patch of a text (R411): rows of levels. -/
def patchRows (d : SfDef) (text : List Nat) : List (List Nat) :=
  let padded := List.replicate (d.chars - text.length) 32 ++ text
  (List.range (patchSize d).2).map fun y => (List.range (patchSize d).1).map fun x =>
    let u := x / d.scale; let v := y / d.scale
    if Config.metFont (padded.getD (u / 16) 32) (u % 16) v then d.level else 0

/-- The box rectangle that a patch covers after rotation (R98, R411): left, top, width, height. -/
def patchRect (f : FieldRec) (d : SfDef) : Int × Int × Nat × Nat :=
  let (pw, ph) := patchSize d
  match f.rot with
  | 0 => (0, 0, pw, ph)
  | 1 => ((f.boxW : Int) - ph, 0, ph, pw)
  | 2 => ((f.boxW : Int) - pw, (f.boxH : Int) - ph, pw, ph)
  | _ => (0, (f.boxH : Int) - pw, ph, pw)

/-- The sealed region of an item on its plane: first wale, first course, width and height. -/
def sealedRegion (pk : Package) (pr : PlaneRec) (l : JobLane) (rpt : Nat) (f : FieldRec) (d : SfDef) : Int × Int × Nat × Nat :=
  let (a, b, w, h) := patchRect f d
  (nearestStep (crossPitch pr) (l.origin + f.ax) + a, nearestStep (coursePitch pk) (((rpt * pk.rpt : Nat) : Int) + f.ay) + b, w, h)

/-- Whether a patch does not fit its box, its item or the plane (Table 21.3, FIT). -/
def patchUnfit (pk : Package) (pr : PlaneRec) (l : JobLane) (rpt : Nat) (f : FieldRec) (d : SfDef) : Bool :=
  let (fw, fh) := frameSize f
  let (pw, ph) := patchSize d
  let (x, y, w, h) := sealedRegion pk pr l rpt f d
  let r := laneWales pr l
  decide (fw < pw ∨ fh < ph) || decide (x < r.1 ∨ (r.2 : Int) < x + w) ||
    decide (y < firstCourse pk rpt ∨ (endCourse pk rpt : Int) < y + h)

/-! ## Binding (R408, R410) -/

/-- A weighing is valid (R407). -/
def weighingValid (c : ChCfg) (w : Weighing) : Bool :=
  w.wflags == 1 && w.interval == c.interval && decide (w.net % (max 1 c.interval : Nat) = 0) &&
    decide ((c.min : Int) ≤ w.net ∧ w.net ≤ c.max)

/-- The sealed fields that an item's lane carries, with their field indices. -/
def sealedOnLane (pk : Package) (lane : Nat) : List (Nat × FieldRec) :=
  (pk.fields.zipIdx.filter fun x => x.1.type == 6 && x.1.lanes.testBit lane).map fun x => (x.2, x.1)

/-- SFDEF of a sealed field. -/
def State.sfdef (s : State) (f : FieldRec) : SfDef := s.met.sfdef[Fin.ofNat 16 (u8 f.param 0)]

/-- ARTICLE of a record: the value of any one of the item's sealed fields (R408). -/
def articleOf (fields : List (Nat × FieldRec)) (values : List (Nat × Bytes)) : Option Nat :=
  ((values.find? fun v => v.2.length == 8 && fields.any fun f => f.1 == v.1)).map fun v => u32 v.2 0

/-- The channel that LANE_MAP gives a lane of a context. -/
def laneChannel (s : State) (ctx : Fin 64) (lane : Nat) : Option (Fin 16) :=
  (s.met.laneMap.find? fun m => m.1 == ctx.val && m.2.1 == lane).bind fun m =>
    if h : m.2.2 < 16 then some ⟨m.2.2, h⟩ else none

/-- Take the oldest weighing of the channel of a lane; none when there is none to take (Table 21.3, NO_WEIGHING). -/
def takeWeighing (ctx : Fin 64) (lane : Nat) (s : State) : Option (Fin 16 × Weighing) × State :=
  match laneChannel s ctx lane with
  | none => (none, s)
  | some c => match (s.met.chs[c]).fault, (s.met.chs[c]).queue with
    | false, w :: rest => (some (c, w), s.modMet fun m => { m with chs := upd m.chs c fun x => { x with queue := rest } })
    | _, _ => (none, s)

/-- What the steps of R408 after the weighing give: a sub-reason of Table 21.3, or the binding. -/
def sealedSteps (s : State) (c : Fin 16) (w : Weighing) (fields : List (Nat × FieldRec)) (values : List (Nat × Bytes))
    (unfit : FieldRec → SfDef → Bool) : Nat ⊕ SealedBind :=
  if s.met.st = .locked ∨ s.met.st = .starting then .inl 7
  else if !weighingValid (s.met.chcfg[c]) w then .inl 2
  else match (articleOf fields values).bind fun a => (s.met.prices.find? fun p => p.1 == a) with
    | none => .inl 3
    | some (article, unit) =>
      let b : SealedBind :=
        { channel := c, wseq := w.wseq, net := w.net, tare := w.tare, article := article, unit := unit,
          total := totalPrice w.net.toNat unit, test := s.met.st != .sealedSt, mismatch := false, unverified := false,
          digestBad := [] }
      if fields.any fun f => unfit f.2 (s.sfdef f.2) then .inl 4
      else if fields.any fun f => decide ((s.sfdef f.2).chars < (sealedText s.met.glob (s.sfdef f.2) b).length) ||
          weightUneven (s.sfdef f.2) b then .inl 5
      else if auditStop s then .inl 6
      else .inr b

/-- The binding of an item that carries sealed fields (R408, R410): a sub-reason, or the binding with its patches. -/
def bindSealed (ctx : Fin 64) (t : StructTables) (pk : Package) (rpt lane : Nat) (values : List (Nat × Bytes)) (s : State) :
    (Nat ⊕ (SealedBind × List (Nat × Rendered))) × State :=
  let fields := sealedOnLane pk lane
  let unfit (f : FieldRec) (d : SfDef) : Bool := match t.planes[d.plane]?, pk.lanes.find? (fun l => l.lane == lane) with
    | some pr, some l => patchUnfit pk pr l rpt f d
    | _, _ => true
  match takeWeighing ctx lane s with
  | (none, s) => (.inl 1, s)
  | (some (c, w), s) => match sealedSteps s c w fields values unfit with
    | .inl e => (.inl e, s)
    | .inr b => (.inr (b, fields.map fun f => (f.1, Rendered.sealedPatch (patchRows (s.sfdef f.2) (sealedText s.met.glob (s.sfdef f.2) b)))), s)

/-! ## The digest comparison (R412) -/

/-- The sealed placements of an item on a plane: sealed-field number, field, and what binding made of it. -/
def sealedPlacements (pk : Package) (p : Nat) (it : Item) : List (Nat × FieldRec × Rendered) :=
  it.values.filterMap fun v => match pk.fields[v.1]? with
    | some f => if f.type == 6 && f.planes.testBit p then some (u8 f.param 0, f, v.2) else none
    | none => none

/-- Courses of an item's sealed field on its plane: first, and one past the last. -/
def sealedCourses (s : State) (pk : Package) (pr : PlaneRec) (it : Item) (f : FieldRec) : Option (Int × Int) :=
  (pk.lanes.find? fun l => l.lane == it.lane).map fun l =>
    let r := sealedRegion pk pr l it.rpt f (s.sfdef f)
    (r.2.1, r.2.1 + r.2.2.2)

/-- Whether the levels of course `k` are those of a sealed placement wherever it lies. -/
def sealedEqual (pk : Package) (pr : PlaneRec) (p : Nat) (it : Item) (f : FieldRec) (r : Rendered) (k : Nat)
    (levels : List Nat) : Bool :=
  (List.range pr.nW).all fun w => match fieldAt pk pr p it f r w k with
    | some v => levels[w]? == some v
    | none => true

/-- One course of an item's sealed placements is hashed: where a level differs the digest will; at a region's last
course the comparison is made, and a difference gives SEALED_MISMATCH (R412). -/
def hashItem (s : State) (pk : Package) (pr : PlaneRec) (p k : Nat) (levels : List Nat) (it : Item) : Item :=
  match it.sealedBind with
  | none => it
  | some _ => (sealedPlacements pk p it).foldl (fun it x => match sealedCourses s pk pr it x.2.1, it.sealedBind with
      | some (a, b), some bind =>
        if a ≤ k ∧ (k : Int) < b then
          let bad := if sealedEqual pk pr p it x.2.1 x.2.2 k levels then bind.digestBad else x.1 :: bind.digestBad
          let wrong := decide ((k : Int) + 1 = b) && bad.contains x.1
          let it := { it with sealedBind := some { bind with digestBad := bad, mismatch := bind.mismatch || wrong } }
          cond wrong (it.flag 7 (some p)) it
        else it
      | _, _ => it) it

/-- A course with these levels passes the sealed regions of a job's items on a plane; a course that the pipeline skips
has no levels. -/
def hashCourse (ctx : Fin 64) (pk : Package) (p k : Nat) (levels : List Nat) (s : State) : State :=
  match s.planeRec p with
  | some pr => s.modJob ctx fun j => { j with items := j.items.map fun it =>
      if (itemHasCourse pk it k) then hashItem s pk pr p k levels it else it }
  | none => s

end Sys2Proof.Machine
end

