-- ==== Sys2Proof/Machine/PacOps.lean ====
section
/-! DEFINITION. The pacer's shared operations: the estimator and its lock (R169 to R171), gears (R173), the position of
courses and heads (R15, R17, R176, R177), zeros and handovers (R168, R183, R428), missed slots (R171, R181), and the
master's reversal (R172). -/

namespace Sys2Proof.Machine

/-- Replace the pacer. -/
def State.modPac (s : State) (f : Pac → Pac) : State := { s with pac := f s.pac }

/-- KIND, INDEX and INVERT of a source word (Table 9.5). -/
def srcKind (w : Word) : Nat := bitsOf w 1 0
/-- INDEX. -/
def srcIndex (w : Word) : Nat := bitsOf w 7 4
/-- The sign that INVERT gives to counts. -/
def srcSign (w : Word) : Int := if bitsOf w 16 16 = 1 then -1 else 1

/-- PAC_SCALE, u32.32 nm. -/
def pacScale (s : State) : Int := ((s.rd Reg.pacScaleHi).toNat * 2 ^ 32 + (s.rd Reg.pacScaleLo).toNat : Nat)

/-- One count in 2^-16 nm. -/
def oneCount (s : State) : Int := floorDiv (pacScale s) 65536

/-! ## The estimator (R169, R170) -/

/-- The position that a count stands for. -/
def Est.zAt (e : Est) (scale sg count : Int) : Int := e.base + floorDiv ((count - e.zeroCount) * sg * scale) 65536

/-- Lock tolerances and gains that an edge is judged by. -/
structure EstCfg where
  scale : Int
  sg : Int
  alpha : Int
  beta : Int
  maxInt : Nat
  unlockTol : Int
  lockTol : Int

/-- The present settings for a source word. -/
def estCfg (s : State) (w : Word) : EstCfg :=
  { scale := pacScale s, sg := srcSign w, alpha := s.fld Reg.pacGain 0 15 0, beta := s.fld Reg.pacGain 0 31 16,
    maxInt := s.fld Reg.pacLockCfg 0 31 16 * us8, unlockTol := s.fld Reg.pacLockCfg 0 15 8,
    lockTol := s.fld Reg.pacLockCfg 0 7 0 }

/-- The first edge of a run. -/
def Est.first (e : Est) (z : Int) (t8 : Nat) (down ok : Bool) : Est :=
  { e with p := z, v := 0, z := z, t8 := t8, edges := 1, lockCnt := if ok then 1 else 0, locked := false, down := down }

/-- A counted edge (R169, R170): the new estimate, and whether lock was lost at it. An edge at which lock is lost is the
first edge of the new start (log entry 31). -/
def Est.edge (e : Est) (c : EstCfg) (t8 : Nat) (count : Int) (down : Bool) : Est × Bool :=
  let z := e.zAt c.scale c.sg count
  let one := floorDiv c.scale 65536
  let ok := decide (0 < one)
  if e.edges = 0 ∨ e.t8 + c.maxInt < t8 then (e.first z t8 down ok, e.locked)
  else
    let dt : Int := max 1 ((t8 : Int) - e.t8)
    let same := e.down == down
    if e.locked && !same then (e.first z t8 down ok, true)
    else if e.edges = 1 then
      ({ e with p := z, v := floorDiv ((z - e.z) * 2 ^ 19) dt, z := z, t8 := t8, edges := 2, down := down,
                lockCnt := if !ok then 0 else if same then e.lockCnt + 1 else 1 }, false)
    else
      let pm := e.p + floorDiv (e.v * dt) (2 ^ 19)
      let r := z - pm
      if e.locked && decide (c.unlockTol * one < 16 * r.natAbs) then (e.first z t8 down ok, true)
      else
        let cnt := if !ok || decide (c.lockTol * one < 256 * r.natAbs) then 0 else if same then e.lockCnt + 1 else 1
        ({ e with p := pm + floorDiv (r * c.alpha) 65536, v := e.v + floorDiv (r * c.beta * 8) dt, z := z, t8 := t8,
                  edges := 2, down := down, lockCnt := if e.locked then 64 else min 64 cnt,
                  locked := e.locked || decide (64 ≤ cnt) }, false)

/-- Position between edges at press time `t8`, clamped to one count past z in the direction of v (R169). -/
def Est.posAt (e : Est) (one : Int) (t8 : Nat) : Int :=
  let q := e.p + floorDiv (e.v * ((t8 : Int) - e.t8)) (2 ^ 19)
  if 0 < e.v then min q (max e.p (e.z + one)) else if e.v < 0 then max q (min e.p (e.z - one)) else q

/-- The master position at press time `t8`, 2^-16 nm. -/
def masterAt (s : State) (t8 : Nat) : Int :=
  match srcKind (s.rd Reg.pacSrc) with
  | 0 => s.pac.est.p
  | 2 => s.pac.est.p
  | _ => if oneCount s = 0 then s.pac.est.p + floorDiv (s.pac.est.v * ((t8 : Int) - s.pac.est.t8)) (2 ^ 19)
         else s.pac.est.posAt (oneCount s) t8

/-- The master position now. -/
def masterNow (s : State) : Int := masterAt s s.press

/-- The web speed in µm/s: v of the estimator, 2^-32 nm/ns (R169). -/
def webSpeed (s : State) : Int := floorDiv (s.pac.est.v * 1000000) (2 ^ 32)

/-- The position predicted for press time `t8`, without the clamp (R177). -/
def predictAt (s : State) (t8 : Nat) : Int := s.pac.est.p + floorDiv (s.pac.est.v * ((t8 : Int) - s.pac.est.t8)) (2 ^ 19)

/-! ## Gears (R173) -/

/-- The plane position at a master position under the ratio in force. -/
def Gear.pos (g : Gear) (m : Int) : Int := g.pseg + floorDiv ((m - g.mseg) * g.ratio) (2 ^ 30)

/-- Take a scheduled entry. -/
def Gear.take (g : Gear) (mc : Int) (ratio : Nat) : Gear :=
  { g with pseg := g.pos mc, mseg := mc, ratio := ratio, past := (g.mseg, g.pseg, g.ratio) :: g.past }

/-- Entries that the master has reached take effect in order. -/
def gearReach (m : Int) (g : Gear) : List (Int × Nat) → Gear
  | [] => { g with pend := [] }
  | e :: rest => if e.1 * 65536 ≤ m then gearReach m (g.take (e.1 * 65536) e.2) rest else { g with pend := e :: rest }

/-- The gear in force at a master position, pending entries taken into account. -/
def gearAtMaster (m : Int) (g : Gear) : List (Int × Nat) → Gear
  | [] => g
  | e :: rest => if e.1 * 65536 ≤ m then gearAtMaster m (g.take (e.1 * 65536) e.2) rest else g

/-- The gear in force at a plane position (R177). -/
def gearAtPlane (y : Int) (g : Gear) : List (Int × Nat) → Gear
  | [] => g
  | e :: rest => if g.pos (e.1 * 65536) ≤ y then gearAtPlane y (g.take (e.1 * 65536) e.2) rest else g

/-- The plane position at a master position. -/
def Gear.posAt (g : Gear) (m : Int) : Int := (gearAtMaster m g g.pend).pos m

/-- The plane position at an earlier master position, under the segment in force there (R228). -/
def Gear.posThen (g : Gear) (m : Int) : Int :=
  if g.mseg ≤ m then g.posAt m
  else match g.past.find? (fun e => decide (e.1 ≤ m)) with
    | some e => e.2.1 + floorDiv ((m - e.1) * e.2.2) (2 ^ 30)
    | none => g.pos m

/-- The first master position at or past a plane position (R177). -/
def Gear.masterFor (g : Gear) (y : Int) : Int :=
  let h := gearAtPlane y g g.pend
  h.mseg - floorDiv (-((y - h.pseg) * 2 ^ 30)) (max 1 (h.ratio : Int))

/-! ## Courses and heads -/

/-- cast_on of a job on a plane in nm: frozen when the master reached CAST_ON, predicted before (R15, R76). -/
def jobCast (s : State) (j : Job) (p : Fin 8) : Int :=
  match (j.planes[p]).castOn with
  | some c => c
  | none => floorDiv ((s.pac.gears[p]).posAt (j.castOn * 65536)) 65536

/-- Offset D(p, r) of a row. -/
def rowOffset (t : StructTables) (p row : Nat) : Nat :=
  ((t.rows.find? fun r => r.plane == p && r.row == row).map (·.offset)).getD 0

/-- Fine phase of a head in nm for a job's gauge (R176). -/
def finePhase (s : State) (pk : Package) (head : Nat) : Int :=
  let ph := signed 8 (s.fld Reg.pacHphase head 7 0)
  if pk.gaugeKind = 0 then floorDiv (ph * 25400000) (64 * (pk.gauge : Int)) else floorDiv (ph * pk.gauge) 64

/-- c_k of a course in nm (R15). -/
def coursePos (s : State) (j : Job) (pk : Package) (p : Fin 8) (k : Nat) : Int := jobCast s j p + (coursePitch pk).at k

/-- Targets of the heads of a fire slot in 2^-16 nm (R176). -/
def slotTargets (s : State) (t : StructTables) (j : Job) (pk : Package) (p : Fin 8) (row k : Nat) : List (Nat × Int) :=
  (rowHeads t p row).map fun h =>
    (h.head, (coursePos s j pk p k + rowOffset t p row + finePhase s pk h.head) * 65536)

/-- The fire instant of a target (R177); none while v is not positive. -/
def fireInstant (s : State) (p : Fin 8) (y : Int) : Option Nat :=
  let v := s.pac.est.v
  if 0 < v then
    let d := (s.pac.gears[p]).masterFor y - s.pac.est.p
    some ((s.pac.est.t8 : Int) + floorDiv (d * 2 ^ 20 + v) (2 * v)).toNat
  else none

/-- Instants of all heads of a slot; none when one has none. -/
def instantsOf (s : State) (p : Fin 8) : List (Nat × Int) → Option (List (Nat × Nat))
  | [] => some []
  | h :: rest => match fireInstant s p h.2, instantsOf s p rest with
    | some t, some l => some ((h.1, t) :: l)
    | _, _ => none

/-- Whether a distance in time, taken as web travel at the present velocity, exceeds `lim` / 64 course (R180, R197). -/
def tooFar (s : State) (pk : Package) (dt8 lim : Nat) : Bool :=
  let q := coursePitch pk
  decide ((lim * q.num * 8 * 2 ^ 32 : Nat) < dt8 * s.pac.est.v.natAbs * 64 * q.den)

/-! ## Items of a course -/

/-- Flag the items that cover one of a list of wales on a course (R181, R222, R162). -/
def flagWales (ctx : Fin 64) (p : Fin 8) (k : Nat) (code : Nat) (wales : List Nat) (s : State) : State :=
  match (s.jobs[ctx]).pkg, s.planeRec p with
  | some pk, some pr => flagItems ctx code (some p) (fun it => wales.any fun w => itemCovers pk pr it w k) s
  | _, _ => s

/-- Flag the items whose course range includes a course (R171, R247). -/
def flagCourse (ctx : Fin 64) (p : Fin 8) (k : Nat) (code : Nat) (s : State) : State :=
  match (s.jobs[ctx]).pkg with
  | some pk => flagItems ctx code (some p) (fun it => itemHasCourse pk it k) s
  | none => s

/-- Wales that a slot prints with a level above 0. -/
def FireSlot.printed (x : FireSlot) : List Nat :=
  (x.wales.zipIdx.filter fun w => w.1.row == x.row && decide (0 < w.1.level)).map (·.2)

/-- A slot's identity. -/
def FireSlot.same (x y : FireSlot) : Bool :=
  x.plane == y.plane && x.row == y.row && x.ctx == y.ctx && x.course == y.course

/-- Note in the inspection buffer that a row of a course, or some of its nozzles, did not print (R235). -/
def markBuffer (x : FireSlot) (wholeRow : Bool) (noz : List (Nat × Nat)) (s : State) : State :=
  { s with ins := { s.ins with buf := s.ins.buf.map fun b =>
      if b.plane = x.plane ∧ b.ctx = x.ctx ∧ b.course = x.course then
        { b with missedRows := if wholeRow then b.missedRows ++ [x.row] else b.missedRows, deadNoz := b.deadNoz ++ noz }
      else b } }

/-- A slot is missed (R181): cancelled where its command has left, counted, reported, and its items flagged. -/
def missSlot (x : FireSlot) (s : State) : State :=
  let s := if x.st = .sent then toSlotHubs x .cancel s else s
  let s := s.modPac fun p => { p with slots := p.slots.filter fun y => !x.same y }
  let s := markBuffer x true [] (diag .courseMissed x.plane x.row x.course 0 (s.count Reg.pacMissed x.plane))
  let ctx := Fin.ofNat 64 x.ctx
  settleJob ctx (flagWales ctx (Fin.ofNat 8 x.plane) x.course 2 x.printed s)

/-- The first master position at which a slot is due. -/
def slotDue (s : State) (t : StructTables) (x : FireSlot) : Option Int :=
  let j := s.jobs[Fin.ofNat 64 x.ctx]
  let p := Fin.ofNat 8 x.plane
  match j.pkg with
  | some pk => ((slotTargets s t j pk p x.row x.course).map fun h => (s.pac.gears[p]).masterFor h.2).min?
  | none => none

/-- The master position of a course's decision moment: row 0's earliest head (R245). -/
def decisionTarget (s : State) (t : StructTables) (j : Job) (pk : Package) (p : Fin 8) (k : Nat) : Int :=
  (((slotTargets s t j pk p 0 k).map (·.2)).min?).getD ((coursePos s j pk p k + rowOffset t p 0) * 65536)

/-- Whether a course belongs to a job that may have been cast off. -/
def courseInJob (j : Job) (k : Nat) : Bool :=
  match lastCourseEnd j with
  | some e => decide (k < e)
  | none => true

/-- Courses of a job on a plane, from the first not yet screened, whose decision target the master has passed. -/
def passedCourses (s : State) (t : StructTables) (j : Job) (pk : Package) (p : Fin 8) : List Nat :=
  let k0 := (j.planes[p]).screened
  let q := coursePitch pk
  let m := s.pac.est.p
  let ahead := floorDiv (((s.pac.gears[p]).posAt m - decisionTarget s t j pk p k0) * q.den) ((q.num : Int) * 65536)
  if ahead < 0 then []
  else (List.range (ahead.toNat + 2)).filterMap fun i =>
    let k := k0 + i
    if courseInJob j k && !(j.planes[p]).passed.contains k &&
        decide ((s.pac.gears[p]).masterFor (decisionTarget s t j pk p k) ≤ m) then some k else none

/-- While the master is not locked, slots and courses whose targets it passes are missed (R171). -/
def unlockedPass (s : State) : State :=
  match s.pac.est.locked, s.str.tables with
  | false, some t =>
    let due := s.pac.slots.filter fun x => x.st == .waiting &&
      ((slotDue s t x).map fun m => decide (m ≤ s.pac.est.p)).getD false
    let s := due.foldl (fun s x => missSlot x s) s
    (List.finRange 64).foldl (fun s c =>
      let j := s.jobs[c]
      match j.st.active, j.pkg with
      | true, some pk => (jobPlanes pk).foldl (fun s p =>
          let ks := passedCourses s t (s.jobs[c]) pk p
          ks.foldl (fun s k => flagCourse c p k 2
            (s.modJob c fun j => { j with planes := upd j.planes p fun jp => { jp with passed := jp.passed ++ [k] } })) s) s
      | _, _ => s) s
  | _, _ => s

/-! ## The master moves -/

/-- Planes of a job freeze cast_on as the master reaches CAST_ON (R76). -/
def freezeCast (s : State) : State :=
  { s with jobs := s.jobs.map fun j =>
      if j.st.active ∧ j.castOn * 65536 ≤ s.pac.est.p then
        { j with planes := Vector.ofFn fun p =>
            let jp := j.planes[p]
            if jp.castOn.isSome then jp else { jp with castOn := some (jobCast s j p) } }
      else j }

/-- Restart every gear at a master position with its present ratio (R168). -/
def zeroGears (m0 : Int) (g : Vector Gear 8) : Vector Gear 8 := g.map fun g => { g with mseg := m0, pseg := m0, past := [] }

/-- The master takes position `m0` at a count whose position is `z` (R168, R428); velocity and lock stay. -/
def zeroMaster (count z m0 : Int) (s : State) : State :=
  let e := s.pac.est
  let off := z - m0
  s.modPac fun p => { p with est := { e with p := e.p - off, z := e.z - off, zeroCount := count, base := m0 },
                             gears := zeroGears m0 p.gears, highest := p.highest - off, zeroPend := false,
                             zeroAfter := none }

/-- The master takes position `m0` at a count of its encoder. -/
def doZero (count m0 : Int) (s : State) : State :=
  zeroMaster count (s.pac.est.zAt (pacScale s) (srcSign (s.rd Reg.pacSrc)) count) m0 s

/-- A handover ends: the old source stays master (R183). -/
def handoverFail (s : State) : State :=
  alarm .pacHandoverFail (masterInst s) (s.modPac fun p => { p with handover := none })

/-- The switch of an armed handover as the master reaches its position (R183). -/
def handoverSwitch (s : State) : State :=
  match s.pac.handover with
  | none => s
  | some h =>
    if s.pac.est.p < h.pos * 65536 then s
    else
      let c := s.pac.cand
      let m := s.pac.est.p
      if (c.p + h.delta - m).natAbs ≤ 5000 * 65536 then
        let off := m - c.p
        (s.modPac fun p => { p with est := { c with p := m, z := c.z + off, base := c.base + off }, handover := none,
                                    cand := .reset }).wr Reg.pacSrc 0 (h.src &&& 0x0003FFF3#32)
      else handoverFail s

/-- A fall beyond REV_TOL while a job runs ends every job (R172). -/
def checkReverse (s : State) : State :=
  if s.anyActive ∧ (s.fld Reg.pacCfg 0 31 16 * 1000 * 65536 : Nat) < s.pac.highest - s.pac.est.p then
    abortActive (alarm .pacReverse (masterInst s) s)
  else s

/-- O_max: the largest SCAN_OFFSET of the structure's bridges. -/
def scanMax (s : State) : Nat := match s.str.tables with
  | some t => (((t.endpoints.filter fun e => e.kind == 2).map (·.scanOffset)).max?).getD 0
  | none => 0

/-- The largest line pitch of the structure's bridges. -/
def lpitchMax (s : State) : Nat := match s.str.tables with
  | some t => (((t.endpoints.filter fun e => e.kind == 2).map fun e => (s.rd Reg.insLpitch e.number).toNat).max?).getD 0
  | none => 0

/-- Items whose scan the master has passed: the time for their verdict starts (R241). -/
def passItems (s : State) : State :=
  { s with jobs := s.jobs.map fun j => match j.st.active, j.pkg with
      | true, some pk =>
        let p := Fin.ofNat 8 (leadPlane pk)
        let at_ := (s.pac.gears[p]).posAt s.pac.est.p
        { j with items := j.items.map fun it =>
            if judged pk it ∧ it.deadline.isNone ∧
                (jobCast s j p + (it.rpt * pk.rpt + pk.height + scanMax s + lpitchMax s : Nat)) * 65536 < at_ then
              { it with deadline := some (s.now + s.fld Reg.insCfg 0 31 24 * ms8) }
            else it }
      | _, _ => j }

/-- After every change of the master's estimate: cast-ons, gear entries, a handover, reversal, and targets passed while
unlocked. -/
def masterMoved (s : State) : State :=
  let s := freezeCast s
  let s := s.modPac fun p => { p with gears := p.gears.map fun g => gearReach p.est.p g g.pend }
  let s := passItems (checkReverse (handoverSwitch s))
  let s := s.modPac fun p => { p with highest := max p.highest p.est.p }
  unlockedPass s

/-- Slots already within the fire lead as the master locks again are not printed (R171). -/
def relock (s : State) : State :=
  match s.str.tables with
  | none => s
  | some t =>
    let late := s.pac.slots.filter fun x => x.st == .waiting &&
      (match (s.jobs[Fin.ofNat 64 x.ctx]).pkg with
       | some pk => match instantsOf s (Fin.ofNat 8 x.plane)
            (slotTargets s t (s.jobs[Fin.ofNat 64 x.ctx]) pk (Fin.ofNat 8 x.plane) x.row x.course) with
         | some l => decide ((((l.map (·.2)).min?).getD 0 : Nat) < s.press + 8 * s.fld Reg.pacLead 0 15 0)
         | none => false
       | none => false)
    late.foldl (fun s x => missSlot x s) s

/-- The new estimate of the master is in force; `lost` tells whether it lost lock at it. -/
def takeEst (e : Est) (lost : Bool) (s : State) : State :=
  let was := s.pac.est.locked
  let s := s.modPac fun p => { p with est := e }
  let s := when (lost && s.anyActive) (alarm .pacLockLost (masterInst s)) s
  let s := if lost && s.pac.handover.isSome then handoverFail s else s
  let s := masterMoved s
  when (s.pac.est.locked && !was) relock s

/-- A counted edge of an encoder reaches the pacer: the zero that waits for it, the estimator, and the handover's
candidate (R168, R169, R183, R428). The synchroniser's 7.5 ns are taken off the timestamp. -/
def pacEdge (n : Fin 16) (count : Int) (down : Bool) (s : State) : State :=
  if s.isDisabled 0x05 0 then s else
  let w := s.rd Reg.pacSrc
  let t8 := s.press - 60
  let s := if srcKind w = 1 ∧ srcIndex w = n then
      let s := if s.pac.zeroPend ∧ bitsOf w 17 17 = 0 then doZero count 0 s
        else match s.pac.zeroAfter with
          | some 1 => doZero count 0 s
          | some k => s.modPac fun p => { p with zeroAfter := some (k - 1) }
          | none => s
      let r := s.pac.est.edge (estCfg s w) t8 count (down != (srcSign w == -1))
      takeEst r.1 r.2 s
    else s
  let h := s.rd Reg.pacHoSrc
  if srcKind h = 1 ∧ srcIndex h = n then
    let r := s.pac.cand.edge (estCfg s h) t8 count (down != (srcSign h == -1))
    let s := s.modPac fun p => { p with cand := r.1 }
    if r.2 && s.pac.handover.isSome then handoverFail s else s
  else s

/-- A stepper source's exact state after an update (Table 9.1, R177): position in 2^-16 microstep, V, and whether the
axis may lock. -/
def Est.follow (e : Est) (scale sg cur v : Int) (t8 : Nat) (may : Bool) : Est :=
  let z := e.base + floorDiv ((cur - e.zeroCount) * sg * scale) (2 ^ 32)
  let down := decide (sg * v < 0)
  let steps := (floorDiv (z - e.z) (max 1 (floorDiv scale 65536))).natAbs
  let cnt := if !may ∨ scale = 0 then 0 else if down = e.down then min 64 (e.lockCnt + steps) else min 64 steps
  { e with p := z, z := z, v := floorDiv (v * sg * scale * 2) (5 * 2 ^ 40), t8 := t8, edges := 2, down := down,
           lockCnt := if e.locked && may then 64 else cnt, locked := may && (e.locked || decide (64 ≤ cnt)) }

/-- A stepper that is the master's source, or the handover's candidate, has moved (R167). -/
def pacStepper (n : Fin 16) (s : State) : State :=
  if s.isDisabled 0x05 0 then s else
  let x := s.stp[n]
  let may := x.en && !x.posUnsure
  let w := s.rd Reg.pacSrc
  let s := if srcKind w = 2 ∧ srcIndex w = n then
      let s := if s.pac.zeroPend then zeroMaster x.cur
          (s.pac.est.base + floorDiv ((x.cur - s.pac.est.zeroCount) * srcSign w * pacScale s) (2 ^ 32)) 0 s else s
      let e := s.pac.est.follow (pacScale s) (srcSign w) x.cur x.v s.press may
      takeEst e (s.pac.est.locked && !e.locked) s
    else s
  let h := s.rd Reg.pacHoSrc
  if srcKind h = 2 ∧ srcIndex h = n then
    let e := s.pac.cand.follow (pacScale s) (srcSign h) x.cur x.v s.press may
    let lost := s.pac.cand.locked && !e.locked
    let s := s.modPac fun p => { p with cand := e }
    if lost && s.pac.handover.isSome then handoverFail s else s
  else s

end Sys2Proof.Machine
end

