-- ==== Sys2Proof/Machine/Waves.lean ====
section
/-! DEFINITION. Drive waveforms, head temperature and energy (chapter 10): the table pool, WG slots, scales, the plays of a
fire slot on the amplifier channels, and the speeds v_energy and v_heat. -/

namespace Sys2Proof.Machine

/-! ## Tables (Table 10.1) -/

/-- A word of a table. -/
def tblWord (w : List Word) (i : Nat) : Word := (w[i]?).getD 0

/-- DUR_i. -/
def tblDur (w : List Word) (i : Nat) : Nat := bitsOf (tblWord w i) 31 16

/-- END_i. -/
def tblEnd (w : List Word) (i : Nat) : Int := signed 16 (bitsOf (tblWord w i) 15 0)

/-- The u16 of a level in a pair table that starts at a word. -/
def tblPair (w : List Word) (base l : Nat) : Nat :=
  if l % 2 = 0 then bitsOf (tblWord w (base + l / 2)) 15 0 else bitsOf (tblWord w (base + l / 2)) 31 16

/-- Segment count n (R186). -/
def tblSegs (w : List Word) : Nat := ((List.range 16).find? fun i => tblDur w i == 0).getD 16

/-- Length L in units of 5 ns (R186). -/
def tblLen (w : List Word) : Nat := ((List.range (tblSegs w)).map (tblDur w)).sum

/-- The checks of R187: whether a table is refused. -/
def tblRefused (w : List Word) : Bool :=
  let n := tblSegs w
  n == 0 || (List.range 16).any (fun i => decide (n ≤ i) && tblWord w i != 0) || tblEnd w (n - 1) != 0 ||
    decide (40000 < tblLen w) || tblPair w 16 0 != 0 || tblPair w 21 0 != 0 ||
    (List.range 8).any (fun l => decide (2 ^ n ≤ tblPair w 16 l)) ||
    (List.range 7).any (fun i => tblWord w (25 + i) != 0)

/-- The staging words. -/
def stagingWords (s : State) : List Word := (List.range 32).map fun i => s.rd Reg.wavTblWord i

/-- Whether a table is named by the active slot of some WG (R189). -/
def namedActive (s : State) (tbl : Nat) : Bool := s.wav.wgs.any fun w => namedTable w.2 == some tbl

/-- Write a pool table and send it where it is in force (R187, R190). -/
def putTable (tbl : Nat) (w : List Word) (s : State) : State :=
  let new := s.modWav fun v => { v with pool := assocSet tbl w v.pool }
  let r := sendWaves s (some tbl) new
  r.2.modWav fun v => { v with tblBusy := if r.1.isEmpty then v.tblBusy else r.1 }

/-- What WAV_TBL_CTRL.WRITE is refused for (R187, R189, R190, R505). -/
def tblRefusals (s : State) : List (Bool × Status) :=
  [(namedActive s (s.fld Reg.wavTblSel 0 9 0) && !s.modeIn [.standby, .service], .badState),
   (!s.wav.tblBusy.isEmpty, .busy), (tblRefused (stagingWords s), .range)]

/-- Accept the staging words. -/
def tblAccept (s : State) : State := putTable (s.fld Reg.wavTblSel 0 9 0) (stagingWords s) s

/-- WAV_TBL_WRITE (R187, R189, R190). -/
def execWavTblWrite (t : Nat) (s : State) : Res := ringCmd t s fun s =>
  refuseOr (tblRefusals s) Reg.wavErr 0 0x24 tblAccept s

/-- Copy a pool table into the staging words; a table never written reads as zeros. -/
def readTable (s : State) : State :=
  let w := (s.poolTable (s.fld Reg.wavTblSel 0 9 0)).getD []
  (List.range 32).foldl (fun s i => s.wr Reg.wavTblWord i (tblWord w i)) s

/-- WAV_TBL_READ (Table 10.3). -/
def execWavTblRead (t : Nat) (s : State) : Res := ringCmd t s readTable

/-! ## WG slots (R189, R190) -/

/-- What a write to a WG's slots or active slot is refused for. -/
def wgRefusals (s : State) : List (Bool × Status) :=
  [(!s.modeIn [.standby, .service], .badState), (!s.wav.wgBusy.isEmpty, .busy)]

/-- Change the selected WG and send what changed. -/
def wgChange (n : Nat) (f : WgSt → WgSt) (s : State) : State :=
  let r := sendWaves s none (s.modWg n f)
  r.2.modWav fun v => { v with wgBusy := if r.1.isEmpty then v.wgBusy else r.1 }

/-- WG_ACTIVE_SLOT_WRITE (R189, R190): a write of WAV_WG_CFG. -/
def execWgActiveSlotWrite (t : Nat) (value : Word) (s : State) : Res := ringCmd t s fun s =>
  refuseOr (wgRefusals s) Reg.wavErr 0 0x104 (wgChange (s.fld Reg.wavWgSel 0 10 0) fun w => { w with active := bitsOf value 2 0 }) s

/-- WAVEFORM_ACK_TIMEOUT (R190): a hub that has not acknowledged within 10 ms no longer holds BUSY. -/
def execWaveformAckTimeout (t : Nat) (hub : Fin 48) (s : State) : Res := ringCmd t s fun s =>
  let late := fun b : Nat × Nat × Nat => b.1 == hub.val && decide (b.2.1 + 10 * ms8 ≤ s.now)
  s.modWav fun v => { v with tblBusy := v.tblBusy.filter fun b => !late b, wgBusy := v.wgBusy.filter fun b => !late b }

/-! ## Scales (R193 to R195) -/

/-- A head before its identity record and its first temperature. -/
def HeadSt.reset : HeadSt := { ident := none, temp := none, tempAt := 0, stale := false, lost := false, hot := false }

/-- One head's identity and temperature. -/
def State.head (s : State) (h : Nat) : HeadSt := ((s.wav.heads.find? fun x => x.1 == h).map (·.2)).getD .reset

/-- Replace one head. -/
def State.modHead (s : State) (h : Nat) (f : HeadSt → HeadSt) : State :=
  s.modWav fun w => { w with heads := assocSet h (f (s.head h)) w.heads }

/-- T_MAX of a head (R195). -/
def headTmax (s : State) (h : HeadSt) : Int := match h.ident with
  | some i => i.tMax
  | none => signed 16 (s.fld Reg.wavHeatCfg 0 31 16)

/-- The target scale before its clamps (R193, R195). -/
def scaleTarget (s : State) (w : WgSt) (h : HeadSt) : Nat :=
  let rank := (h.ident.map (·.rank)).getD 0
  let f : Int := match h.temp with
    | none => 2 ^ 20
    | some tp =>
      let i := h.ident.getD { rank := 0, tRef := 0, k1 := 0, k2 := 0, tMax := 0, maxFire := 0 }
      let dT := tp - i.tRef
      2 ^ 20 + i.k1 * dT + floorDiv (i.k2 * dT * dT) (2 ^ 8)
  (floorDiv ((s.fld Reg.wavRank rank 10 0 : Nat) * (w.gain : Int) * f + 2 ^ 29) (2 ^ 30)).toNat

/-- Smax of a WG; none where no level bounds it. -/
def scaleMax (s : State) (n : Nat) : Option Nat :=
  (tableInForce s n).bind fun tb =>
    let w := (s.poolTable tb).getD []
    let m := (((List.range (tblSegs w)).map fun i => (tblEnd w i).natAbs).max?).getD 0
    if m = 0 then none else some (32767 * 1024 / m)

/-- A WG's new target and scale, with whether a clamp and Smax bound it (R193). -/
def scaleStep (s : State) (n : Nat) (w : WgSt) (h : HeadSt) : WgSt × Bool × Bool :=
  let raw := scaleTarget s w h
  let cl := min 1536 (max 512 raw)
  let tgt := match scaleMax s n with
    | some m => min cl m
    | none => cl
  let sc := if !w.started then tgt else if h.stale then w.scale
    else if w.scale ≤ tgt then min tgt (w.scale + 16) else max tgt (w.scale - 16)
  ({ w with target := tgt, scale := sc, started := true }, cl != raw, tgt != cl)

/-- SCALE_UPDATE (R193): every 1 ms for every WG of the structure. -/
def execScaleUpdate (t : Nat) (s : State) : Res := ringCmd t s fun s =>
  match s.str.tables, s.isDisabled 0x06 0 with
  | none, _ | _, true => s
  | some tb, false =>
    let s := s.modWav fun v => { v with scaleClamp := false, peakLim := false }
    tb.wgs.foldl (fun s w =>
      let r := scaleStep s w.wg (s.wg w.wg) (s.head w.head)
      (s.modWg w.wg fun _ => r.1).modWav fun v =>
        { v with scaleClamp := v.scaleClamp || r.2.1, peakLim := v.peakLim || r.2.2 }) s

/-- A head reports its temperature. -/
def HeadSt.report (h : HeadSt) (tp : Int) (now : Nat) : HeadSt :=
  { h with temp := some tp, tempAt := now, stale := false, lost := false }

/-- TEMP_FRAME (R195): one entry per port, 0x8000 for none. -/
def execTempFrame (t : Nat) (hub : Fin 48) (temps : List Int) (s : State) : Res := ringCmd t s fun s =>
  match s.str.tables with
  | none => s
  | some tb => (tb.heads.filter fun h => h.hub == hub.val).foldl (fun s h =>
      match temps[h.port]? with
      | some tp => if tp = -32768 then s else s.modHead h.head fun x => x.report tp s.now
      | none => s) s

/-- TEMP_STALE (R195): no report for more than 10 ms. -/
def execTempStale (t : Nat) (head : Fin 1024) (s : State) : Res := ringCmd t s fun s =>
  let h := s.head head
  if h.temp.isSome ∧ h.tempAt + 10 * ms8 < s.now then s.modHead head fun x => { x with stale := true } else s

/-- WAV_TEMP_LOST (R195): no report for 100 ms raises the alarm once for each loss. -/
def execWavTempLost (t : Nat) (head : Fin 1024) (s : State) : Res := ringCmd t s fun s =>
  let h := s.head head
  if h.temp.isSome ∧ !h.lost ∧ h.tempAt + 100 * ms8 ≤ s.now then
    alarm .wavTempLost head (s.modHead head fun x => { x with lost := true, stale := true })
  else s

/-! ## Plays on the amplifier channels (R192, R196 to R198) -/

/-- Nozzles of a WG that receive a level in a slot. -/
def wgLevels (x : FireSlot) (w : WgRec) : List Nat :=
  (x.wales.filter fun c => c.row == x.row && match c.nozzle with
    | some n => n.1 == w.head && decide (w.first ≤ n.2 ∧ n.2 < w.first + w.count)
    | none => false).map (·.level)

/-- The plays that a slot asks for: every WG of its row's heads whose active slot is not empty, at its head's instant. -/
def slotPlays (s : State) (tb : StructTables) (x : FireSlot) : List Play :=
  let idle := s.fld Reg.wavCfg 0 8 8 = 1
  tb.wgs.filterMap fun w =>
    match x.instants.find? (fun i => i.1 == w.head), tableInForce s w.wg with
    | some i, some tn =>
      if idle ∧ (wgLevels x w).all (· == 0) then none
      else some { ac := w.ac, wg := w.wg, head := w.head, table := tn, scale := (s.wg w.wg).scale, start := i.2,
                  len8 := tblLen ((s.poolTable tn).getD []) * 40, slip8 := 0, silent := false, merged := false }
    | _, _ => none

/-- Two plays can be merged (R196): same table, same scale, same instant. -/
def Play.like (a b : Play) : Bool := a.table == b.table && a.scale == b.scale && a.start == b.start

/-- Where a play's occupation ends. -/
def Play.endAt (p : Play) : Nat := p.start + p.slip8 + p.len8

/-- The order of R197: by start instant, on a tie by WG. -/
def Play.before (a b : Play) : Bool := decide (a.start < b.start ∨ (a.start = b.start ∧ a.wg ≤ b.wg))

/-- Order the plays of one AC (R196, R197): each play merges into an instance like it, or starts at the end of the
instance before it, or plays nothing when its slip is too long. `done` holds the instances so far, latest first. -/
def orderPlays (far : Nat → Bool) : List Play → List Play → List Play
  | _, [] => []
  | done, p :: rest =>
    if p.silent then p :: orderPlays far done rest
    else
      let last := ((done.map (·.endAt)).max?).getD 0
      match done.find? (fun q => q.like p && decide (p.start < q.endAt)) with
      | some q => let p := { p with slip8 := q.slip8, merged := true }
        p :: orderPlays far done rest
      | none =>
        let slip := last - p.start
        if far slip then { p with silent := true, slip8 := 0 } :: orderPlays far done rest
        else let p := { p with slip8 := slip, merged := false }
          p :: orderPlays far (p :: done) rest

/-- Amplifier channels of a list of plays. -/
def acsOf (l : List Play) : List Nat := (l.map (·.ac)).eraseDups

/-- Whether slipping by so much is beyond WAV_CFG.SLIP for the job of a slot (R197). -/
def slipFar (s : State) (x : FireSlot) (dt8 : Nat) : Bool :=
  match (s.jobs[Fin.ofNat 64 x.ctx]).pkg with
  | some pk => decide (0 < dt8) && tooFar s pk dt8 (s.fld Reg.wavCfg 0 4 0)
  | none => false

/-- Decide the plays of every AC of a list over all slots whose commands have left, with `x`'s plays among them. Every
slot has its WGs, so a play is found again by its WG and start instant. -/
def decideAcs (s : State) (x : FireSlot) (acs : List Nat) (all : List Play) : List Play :=
  (acs.map fun a => orderPlays (slipFar s x) [] (sortBy Play.before (all.filter fun p => p.ac == a))).flatten

/-- A slot's plays taken back out of a decision. -/
def takePlays (decided : List Play) (l : List Play) : List Play :=
  l.map fun p => (decided.find? fun q => q.wg == p.wg && q.start == p.start && q.head == p.head).getD p

/-- Wales of a slot that a WG prints with a level above 0. -/
def wgWales (x : FireSlot) (w : WgRec) : List Nat :=
  (x.wales.zipIdx.filter fun c => c.1.row == x.row && decide (0 < c.1.level) && match c.1.nozzle with
    | some n => n.1 == w.head && decide (w.first ≤ n.2 ∧ n.2 < w.first + w.count)
    | none => false).map (·.2)

/-- A WG plays nothing for a slot (R197): counted, reported, its items flagged. -/
def playConflict (x : FireSlot) (p : Play) (s : State) : State :=
  let wales := match s.str.tables.bind fun t => t.wgs.find? fun w => w.wg == p.wg with
    | some w => wgWales x w
    | none => []
  let noz := wales.filterMap fun w => (x.wales[w]?).bind (·.nozzle)
  markBuffer x false noz <| diag .ampConflict p.ac p.wg x.plane x.course
    (flagWales (Fin.ofNat 64 x.ctx) (Fin.ofNat 8 x.plane) x.course 3 wales (s.count Reg.wavConflict x.plane))

/-- Count what a decision has newly merged and newly silenced in a slot. -/
def notePlays (x : FireSlot) (old new : List Play) (s : State) : State :=
  new.foldl (fun s p =>
    let was := old.find? fun q => q.wg == p.wg
    let s := if p.silent && !(was.any (·.silent)) then playConflict x p s else s
    if p.merged && !p.silent && !(was.any (·.merged)) then s.count Reg.wavMerged x.plane else s) s

/-! ## Energy (R199, R200) -/

/-- Energy of one WG in a slot, in units of 2^-24 nJ (R199). -/
def wgEnergy (s : State) (x : FireSlot) (w : WgRec) (p : Play) : Nat :=
  let tbw := (s.poolTable p.table).getD []
  let lv := ((wgLevels x w).map fun l => if l = 0 then 0 else tblPair tbw 21 l).sum
  ((tblWord tbw 20).toNat * 16 + lv) * p.scale * p.scale

/-- Charge a slot that fired (R199). -/
def chargeSlot (x : FireSlot) (s : State) : State :=
  match s.str.tables with
  | none => s
  | some tb =>
    let e := (x.plays.filter fun p => !p.silent).filterMap fun p =>
      (tb.wgs.find? fun w => w.wg == p.wg).map fun w => (s.now, p.ac, wgEnergy s x w p)
    s.modWav fun v => { v with energy := e ++ v.energy }

/-- Energy of an AC in the window. -/
def acEnergy (s : State) (a : Nat) : Nat := ((s.wav.energy.filter fun e => e.2.1 == a).map (·.2.2)).sum

/-- Supplies of hubs with a limit: index 4q + s and SUPPLY_MW. -/
def supplies (t : StructTables) : List (Nat × Nat) :=
  ((t.endpoints.filter fun e => e.kind == 1).map fun e => e.supplyMw.zipIdx.map fun x => (4 * e.number + x.2, x.1)).flatten

/-- Energy of a hub supply in the window. -/
def supEnergy (s : State) (t : StructTables) (q : Nat) : Nat :=
  ((t.acs.filter fun a => 4 * a.hub + a.supply == q).map fun a => acEnergy s a.ac).sum

/-- A term of R200 in µm/s: 0.9 × limit × M ÷ E; none for E = 0 or no limit. -/
def energyTerm (limit m e : Nat) : Option Nat := if e = 0 ∨ limit = 0 then none else some (900 * limit * m * 2 ^ 24 / e)

/-- Mean power in mW over 16 ms of an energy in 2^-24 nJ. -/
def meanMw (e : Nat) : Nat := e / (16000 * 2 ^ 24)

/-- The least term, the first in order on a tie. -/
def leastTerm : List ((Nat × Nat) × Nat) → Option ((Nat × Nat) × Nat)
  | [] => none
  | x :: rest => match leastTerm rest with
    | some y => if x.2 ≤ y.2 then some x else some y
    | none => some x

/-- One AC's or supply's OVER bit at an update: set, cleared, and AC_OVER as it sets (R200). -/
def overStep (kind idx limit e : Nat) (was : Bool) (s : State) : (Nat × Nat × Bool) × State :=
  let ov := decide (0 < limit ∧ limit * 16000 * 2 ^ 24 < e)
  ((idx, meanMw e, ov), if ov && !was then diag .acOver idx kind (meanMw e) limit s else s)

/-- Walk over (index, limit, energy) entries. -/
def overAll (kind : Nat) (old : List (Nat × Nat × Bool)) : List (Nat × Nat × Nat) → State → List (Nat × Nat × Bool) × State
  | [], s => ([], s)
  | x :: rest, s =>
    let r := overStep kind x.1 x.2.1 x.2.2 (old.any fun o => o.1 == x.1 && o.2.2) s
    let l := overAll kind old rest r.2
    (r.1 :: l.1, l.2)

/-- VENERGY_UPDATE (R200, R112). -/
def execVenergyUpdate (t : Nat) (s : State) : Res := ringCmd t s fun s =>
  match s.str.tables with
  | none => s
  | some tb =>
    let m := masterNow s
    let s := s.modWav fun v => { v with energy := keep16 s.now v.energy, pos := keep16 s.now v.pos }
    let mv := windowMove s.wav.pos m
    let acs := tb.acs.map fun a => (a.ac, a.limitMw, acEnergy s a.ac)
    let sups := (supplies tb).map fun q => (q.1, q.2, supEnergy s tb q.1)
    let terms := (acs.filterMap fun a => (energyTerm a.2.1 mv a.2.2).map fun v => ((1, a.1), v)) ++
      (sups.filterMap fun q => (energyTerm q.2.1 mv q.2.2).map fun v => ((2, q.1), v))
    let least := leastTerm (terms.filter fun x => decide (x.2 < capSpeed))
    let (ap, s) := overAll 1 s.wav.acPower acs s
    let (sp, s) := overAll 2 s.wav.supPower sups s
    s.modWav fun v =>
      { v with pos := (s.now, m) :: v.pos, acPower := ap, supPower := sp,
               venergy := windowSpeed s.anyActive mv v.venergy ((least.map (·.2)).getD capSpeed),
               limiter := if !s.anyActive then (0, 0) else if 1000000 ≤ mv then (least.map (·.1)).getD (0, 0) else v.limiter }

/-! ## Head-thermal speed (R201) -/

/-- T of a head for R201, relative to T_MAX: a STALE head counts as T_MAX − BAND, and a head whose temperature never
arrived is left out. -/
def headOver (s : State) (band : Int) (h : HeadSt) : Option Int :=
  h.temp.map fun tp => if h.stale then -band else tp - headTmax s h

/-- VHEAT_UPDATE (R201). -/
def execVheatUpdate (t : Nat) (s : State) : Res := ringCmd t s fun s =>
  let band : Int := (s.fld Reg.wavHeatCfg 0 7 0 : Nat)
  let v := (webSpeed s).toNat
  let reads := s.wav.heads.filterMap fun h => (headOver s band h.2).map fun d => (h.1, d)
  let hot := reads.filter fun r => decide (0 ≤ r.2)
  let v0 := s.wav.vheat
  let vh := if !hot.isEmpty then min v0 (v * 90 / 100)
    else if reads.any (fun r => decide (-band ≤ r.2)) then min v0 (v * 98 / 100)
    else if reads.all (fun r => decide (r.2 ≤ -2 * band)) then min capSpeed (v0 + 100000)
    else v0
  let ends := reads.all fun r => decide (r.2 < -band)
  let s := s.modWav fun w => { w with vheat := vh }
  let s := hot.foldl (fun s r =>
    if (s.head r.1).hot then s else alarm .wavHeadHot r.1 (s.modHead r.1 fun h => { h with hot := true })) s
  s.modWav fun w => { w with hotEpisode := !ends && (w.hotEpisode || !hot.isEmpty),
                             heads := if ends then w.heads.map fun h => (h.1, { h.2 with hot := false }) else w.heads }

end Sys2Proof.Machine
end

