-- ==== Sys2Proof/Machine/Pacing.lean ====
section
/-! DEFINITION. Pacing commands (chapter 09) and the taking and underrun of courses (R107, R216, R245 to R248). -/

namespace Sys2Proof.Machine

/-! ## Settings -/

/-- Offset of a PAC register from the base of its block, refused under R182. -/
def pacRefuse (conds : List (Bool × Status)) (offset : Nat) (f : State → State) (s : State) : State :=
  refuseOr conds Reg.pacErr 0 offset f s

/-- PAC_ZERO (R168, R182). -/
def execPacZero (t : Nat) (s : State) : Res := ringCmd t s fun s =>
  pacRefuse [(s.dev.mode != .standby, .badState), (srcKind (s.rd Reg.pacSrc) == 3, .badState)] 0x04
    (fun s => s.modPac fun p => { p with zeroPend := true, zeroAfter := none }) s

/-- Where a new source's zero lies, so that its position now is the master's (R182). -/
def sourceZero (s : State) (w : Word) : Int :=
  match srcKind w with
  | 1 => (s.enc[Fin.ofNat 16 (srcIndex w)]).c
  | 2 => (s.stp[Fin.ofNat 16 (srcIndex w)]).cur
  | _ => 0

/-- The new source takes over in STANDBY: lock is dropped, and the position goes on, or is the broadcast one for KIND 3. -/
def newSource (value : Word) (s : State) : State :=
  let m := match srcKind value, s.xlk.posRef with
    | 3, some f => f.p
    | _, _ => masterNow s
  (s.modPac fun p => { p with est := { Est.reset with p := m, z := m, t8 := s.press, base := m,
                                                      zeroCount := sourceZero s value } }).wr Reg.pacSrc 0
    (value &&& Reg.pacSrc.rw)

/-- PAC_SRC_WRITE (R182). -/
def execPacSrcWrite (t : Nat) (value : Word) (s : State) : Res := ringCmd t s fun s =>
  pacRefuse [(s.dev.mode != .standby, .badState)] 0x08 (newSource value) s

/-- The plane of PAC_GEAR_SEL. -/
def gearPlane (s : State) : Fin 8 := Fin.ofNat 8 (s.fld Reg.pacGearSel 0 2 0)

/-- The master position predicted for the present press time plus PAC_LEAD plus 10 µs (R174, R183). -/
def leadPosition (s : State) : Int := predictAt s (s.press + 8 * s.fld Reg.pacLead 0 15 0 + 10 * us8)

/-- Refusals of PUSH (R174, R505). -/
def gearPushConds (s : State) : List (Bool × Status) :=
  let g := s.pac.gears[gearPlane s]
  let r := (s.rd Reg.pacGearRatio).toNat
  let pos := s.rd64 Reg.pacGearPosLo Reg.pacGearPosHi
  [(!s.modeIn [.standby, .service, .print], .badState), (decide (16 ≤ g.pend.length), .busy),
   (decide (r < 0x20000000 ∨ 0x60000000 < r), .range),
   ((g.pend.getLast?).any fun e => decide (pos ≤ e.1), .range),
   (decide (pos * 65536 < leadPosition s), .range)]

/-- Append a scheduled entry. -/
def gearAppend (s : State) : State :=
  let e := (s.rd64 Reg.pacGearPosLo Reg.pacGearPosHi, (s.rd Reg.pacGearRatio).toNat)
  s.modPac fun p => { p with gears := upd p.gears (gearPlane s) fun g => { g with pend := g.pend ++ [e] } }

/-- GEAR_PUSH (R174). -/
def execGearPush (t : Nat) (s : State) : Res := ringCmd t s fun s => pacRefuse (gearPushConds s) 0x50 gearAppend s

/-- Install PAC_GEAR_RATIO at the present master position (R175). -/
def gearInstall (s : State) : State :=
  let m := masterNow s
  s.modPac fun p => { p with gears := upd p.gears (gearPlane s) fun g => g.take m (s.rd Reg.pacGearRatio).toNat }

/-- GEAR_SET (R175). -/
def execGearSet (t : Nat) (s : State) : Res := ringCmd t s fun s =>
  pacRefuse [(s.dev.mode != .standby, .badState)] 0x50 gearInstall s

/-- Empty the plane's pending entries. -/
def gearEmpty (s : State) : State :=
  s.modPac fun p => { p with gears := upd p.gears (gearPlane s) fun g => { g with pend := [] } }

/-- GEAR_CLEAR (R175). -/
def execGearClear (t : Nat) (s : State) : Res := ringCmd t s fun s =>
  pacRefuse [(s.dev.mode != .standby, .badState)] 0x50 gearEmpty s

/-! ## Handover (R183) -/

/-- A new handover source starts its candidate estimator from "first edge", at its own zero. -/
def newCandidate (value : Word) (s : State) : State :=
  let w := value &&& Reg.pacHoSrc.rw
  let s := if w = s.rd Reg.pacHoSrc then s else s.modPac fun p => { p with cand := .reset }
  s.wr Reg.pacHoSrc 0 w

/-- Refusals of ARM: the source written in the same word must be the one that is locked. -/
def handoverConds (value : Word) (s : State) : List (Bool × Status) :=
  [(!s.pac.cand.locked || (value &&& Reg.pacHoSrc.rw) != s.rd Reg.pacHoSrc, .notReady),
   (decide (s.rd64 Reg.pacHoPosLo Reg.pacHoPosHi * 65536 ≤ leadPosition s), .range)]

/-- Arm the handover with Δ, the present offset between the master and the new source. -/
def handoverSet (value : Word) (s : State) : State :=
  let c := s.pac.cand
  let h : Handover := { src := value &&& Reg.pacHoSrc.rw, pos := s.rd64 Reg.pacHoPosLo Reg.pacHoPosHi,
                        delta := masterNow s - (if srcKind value = 2 then c.p else c.posAt (oneCount s) s.press) }
  s.modPac fun p => { p with handover := some h }

/-- HANDOVER_ARM (R183): a write of PAC_HO_SRC with ARM. -/
def execHandoverArm (t : Nat) (value : Word) (s : State) : Res := ringCmd t s fun s =>
  pacRefuse (handoverConds value s) 0x38 (handoverSet value) s

/-- HANDOVER_CANCEL (R183). -/
def execHandoverCancel (t : Nat) (s : State) : Res := ringCmd t s fun s => s.modPac fun p => { p with handover := none }

/-! ## Taking courses (R107, R216) -/

/-- Rows that a course schedules (R149). -/
def scheduledRows (cells : List WaleOut) : List Nat := (List.range 8).filter fun r => cells.any fun c => c.row == r

/-- How many slots of a hub's buffer are in use: those not yet reported, counted from the oldest (R216). -/
def bufferUse (s : State) (h : Nat) : Nat :=
  let next := (s.mlk.eps[Fin.ofNat 64 h]).nextSlot
  (((s.pac.slots.filterMap fun x => (x.num.find? fun n => n.1 == h).bind fun n =>
    if x.st == .waiting || x.unconfirmed.contains h then some ((next + 2 ^ 32 - n.2) % 2 ^ 32) else none).max?)).getD 0

/-- Whether a hub has room for one more slot; a hub that is not READY does not hold a course back (log entry 33). -/
def hubRoom (s : State) (h : Nat) : Bool :=
  !s.ready h || decide (bufferUse s h < (s.mlk.eps[Fin.ofNat 64 h]).bufSlots)

/-- Give a slot its number on a hub. -/
def numberSlot (h : Nat) (s : State) : Nat × State :=
  let e := Fin.ofNat 64 h
  ((s.mlk.eps[e]).nextSlot, s.modEp e fun x => { x with nextSlot := (x.nextSlot + 1) % 2 ^ 32 })

/-- Number a slot on each of its hubs. -/
def numberAll : List Nat → State → List (Nat × Nat) × State
  | [], s => ([], s)
  | h :: rest, s =>
    let r := numberSlot h s
    let l := numberAll rest r.2
    ((h, r.1) :: l.1, l.2)

/-- Levels of a head's nozzles on a course. -/
def headLevels (cells : List WaleOut) (h : HeadRec) : List Nat :=
  (List.range h.nozzles).map fun n =>
    ((cells.find? fun c => c.row == h.row && c.nozzle == some (h.head, n)).map (·.level)).getD 0

/-- One COURSE frame of a slot, on the lane of its port (R213, R215). -/
def sendCourse (cells : List WaleOut) (h : HeadRec) (slot : Nat) (s : State) : State :=
  match s.epRec h.hub with
  | none => s
  | some e =>
    let l := (e.lanesOf[h.port % max 1 e.lanesOf.length]?).getD e.lane0
    if s.dummy || (s.mlk.lanes[l]).st != .ready then s
    else (s.modLane l fun x => { x with cseqNext := (x.cseqNext + 1) % 65536,
                                        courses := x.courses ++ [{ cseq := x.cseqNext, hub := h.hub, slot := slot, port := h.port }] }).emit
      (.mlk l (.course slot h.port (headLevels cells h)))

/-- Stream a slot's data to the heads of its row on its hubs. -/
def streamSlot (tb : StructTables) (x : FireSlot) (s : State) : State :=
  (rowHeads tb x.plane x.row).foldl (fun s h =>
    match x.num.find? fun n => n.1 == h.hub with
    | some n => sendCourse x.wales h n.2 s
    | none => s) s

/-- Take one row of a course: a waiting slot, its numbers, its data. -/
def takeRow (tb : StructTables) (p : Nat) (c : RunwayCourse) (row : Nat) (s : State) : State :=
  let r := numberAll (rowHubs tb p row) s
  let x : FireSlot := { plane := p, row := row, ctx := c.ctx, course := c.course, gen := c.gen, st := .waiting, num := r.1, instants := [],
                        latched := false, shift := 0, late := false, plays := [], wales := c.cells, unconfirmed := [] }
  streamSlot tb x (r.2.modPac fun q => { q with slots := q.slots ++ [x] })

/-- Put a course into its plane's inspection ring (R230). -/
def bufferCourse (p : Fin 8) (b : BufCourse) (s : State) : State :=
  let size := s.ins.bufSize.getD p 0
  let mine := (s.ins.buf.filter fun x => x.plane == p.val) ++ [b]
  { s with ins := { s.ins with buf := (s.ins.buf.filter fun x => x.plane != p.val) ++ mine.drop (mine.length - size) } }

/-- The course at the head of a plane's runway leaves it. -/
def popRunway (p : Fin 8) (c : RunwayCourse) (s : State) : State :=
  let rest := (s.planes[p]).runway.drop 1
  let s := s.modPlane p fun x => { x with runway := rest }
  s.modJob (Fin.ofNat 64 c.ctx) fun j => { j with planes := upd j.planes p fun jp =>
    { jp with edTaken := c.ed, taken := if rest.any fun r => r.ctx == c.ctx then c.course + 1 else max (c.course + 1) jp.screened,
              passed := jp.passed.filter (· != c.course) } }

/-- Take a course: into the inspection ring, then row by row; one that the unlocked master has passed never fires. -/
def takeCourse (tb : StructTables) (p : Fin 8) (c : RunwayCourse) (s : State) : State :=
  let ctx := Fin.ofNat 64 c.ctx
  let j := s.jobs[ctx]
  let gone := (j.planes[p]).passed.contains c.course
  let s := popRunway p c (endRun p s)
  let s := match j.pkg with
    | some pk => bufferCourse p { plane := p, ctx := c.ctx, course := c.course, pos := coursePos s j pk p c.course,
                                  next := coursePos s j pk p (c.course + 1),
                                  gen := c.gen, cells := c.cells, underrun := false,
                                  missedRows := if gone then List.range 8 else [], deadNoz := [] } s
    | none => s
  if gone then settleJob ctx s else (scheduledRows c.cells).foldl (fun s r => takeRow tb p c r s) s

/-- COURSE_TAKE (R107, R216): the next course of the plane's runway, when every hub it goes to has room. -/
def execCourseTake (t : Nat) (plane : Fin 8) (s : State) : Res := ringCmd t s fun s =>
  match s.str.tables, (s.planes[plane]).runway with
  | some tb, c :: _ =>
    if (s.jobs[Fin.ofNat 64 c.ctx]).st.active ∧
        (scheduledRows c.cells).all (fun r => (rowHubs tb plane r).all (hubRoom s)) then takeCourse tb plane c s else s
  | _, _ => s

/-! ## Underruns (R245 to R248) -/

/-- Whether the first incomplete course of a job on a plane has reached its decision moment. -/
def underrunDue (s : State) (tb : StructTables) (p : Fin 8) (j : Job) : Bool :=
  match j.pkg with
  | some pk =>
    let k := (j.planes[p]).screened
    j.st.active && pk.planes.testBit p && courseInJob j k && !(j.planes[p]).passed.contains k &&
      match fireInstant s p (decisionTarget s tb j pk p k) with
      | some t8 => decide (t8 ≤ s.press + 8 * s.fld Reg.pacLead 0 15 0)
      | none => false
  | none => false

/-- The course is added to its plane's run, or starts a new one (R247). -/
def extendRun (p : Fin 8) (ctx k : Nat) (s : State) : State :=
  match (s.planes[p]).run with
  | some (c, a, b) =>
    if c = ctx ∧ b + 1 = k then s.modPlane p fun x => { x with run := some (c, a, k) }
    else (endRun p s).modPlane p fun x => { x with run := some (ctx, k, k) }
  | none => s.modPlane p fun x => { x with run := some (ctx, k, k) }

/-- The pipeline passes over a course: skipped under R144. -/
def skipCourse (ctx : Fin 64) (p : Fin 8) (k : Nat) (s : State) : State :=
  let empty := !((s.planes[p]).runway.any fun c => c.ctx == ctx.val)
  let s := s.modJob ctx fun j => { j with planes := upd j.planes p fun jp =>
    { jp with screened := k + 1, taken := if empty then k + 1 else jp.taken } }
  let s := match (s.jobs[ctx]).pkg with
    | some pk => hashCourse ctx pk p k [] s
    | none => s
  (s.modPlane p fun x => { x with skipNext := true }).count Reg.scrEdrst p

/-- A course of a job on a plane underruns. -/
def underrun (ctx : Fin 64) (p : Fin 8) (pk : Package) (k : Nat) (s : State) : State :=
  let pos := coursePos s (s.jobs[ctx]) pk p k
  let s := extendRun p ctx k (skipCourse ctx p k s)
  let s := flagCourse ctx p k 1 (s.count Reg.govUnderrun p)
  let s := bufferCourse p { plane := p, ctx := ctx, course := k, pos := pos, next := coursePos s (s.jobs[ctx]) pk p (k + 1), gen := (s.planes[p]).genNo, cells := [],
                            underrun := true, missedRows := [], deadNoz := [] } s
  let s := mirror (.underrun p ctx k k) s
  if pk.policy % 2 = 1 then holdCause 3 s else settleJob ctx s

/-- UNDERRUN_DECISION (R245 to R248): for the first job with a due course; the dummy takes the lead's decisions. -/
def execUnderrunDecision (t : Nat) (plane : Fin 8) (s : State) : Res := ringCmd t s fun s =>
  match s.str.tables, s.pac.est.locked && s.xlk.role != .dummy with
  | some tb, true =>
    match (List.finRange 64).find? (fun c => underrunDue s tb plane (s.jobs[c])) with
    | some c => match (s.jobs[c]).pkg with
      | some pk => underrun c plane pk ((s.jobs[c]).planes[plane]).screened s
      | none => s
    | none => s
  | _, _ => s

/-! ## Fire commands (R178 to R181, R196 to R198) -/

/-- The row's previous slot whose command has left: slots of a row stand in the order in which they were taken. -/
def rowPrevious (s : State) (x : FireSlot) : Option FireSlot :=
  ((s.pac.slots.takeWhile fun y => !y.same x).filter fun y =>
    y.plane == x.plane && y.row == x.row && (y.st == .sent || y.st == .fired)).getLast?

/-- The end of a slot's busy span: the latest end of its plays (R180, R198). -/
def FireSlot.busyEnd (x : FireSlot) : Nat := (((x.plays.filter fun p => !p.silent).map (·.endAt)).max?).getD 0

/-- What latching makes of a slot's raw instants: the shift, or none where the slot is missed (R180). -/
def latchShift (s : State) (pk : Package) (x : FireSlot) (raw : List (Nat × Nat)) : Option Nat :=
  match rowPrevious s x with
  | none => some 0
  | some y =>
    let base := ((raw.map (·.2)).min?).getD 0
    let shift := y.busyEnd - base
    if shift = 0 then some 0
    else if (y.latched ∧ s.press < y.base) ∨ tooFar s pk shift (s.fld Reg.pacCfg 0 5 0) then none
    else some shift

/-- A slot with its instants, after latching. -/
def FireSlot.at (x : FireSlot) (raw : List (Nat × Nat)) (shift : Nat) : FireSlot :=
  { x with instants := raw.map fun i => (i.1, i.2 + shift), shift := shift, latched := decide (0 < shift) }

/-- Replace a slot in the list. -/
def putSlot (x : FireSlot) (s : State) : State :=
  s.modPac fun p => { p with slots := p.slots.map fun y => if x.same y then x else y }

/-- Entries of one hub of a list by head. -/
def hubInstants (tb : StructTables) (h : Nat) (l : List (Nat × Nat)) : List (Nat × Nat) :=
  l.filter fun i => tb.heads.any fun r => r.head == i.1 && r.hub == h

/-- WG entries of one hub: plays that are not silent. -/
def hubPlays (tb : StructTables) (h : Nat) (l : List Play) : List Play :=
  l.filter fun p => !p.silent && tb.heads.any fun r => r.head == p.head && r.hub == h

/-- Send FIRE, or CORRECT, for a slot to each of its hubs (Table 11.3); the dummy sends neither (R225). -/
def sendFire (tb : StructTables) (correct : Bool) (x : FireSlot) (s : State) : State :=
  if s.dummy then s
  else x.num.foldl (fun s n =>
    let i := hubInstants tb n.1 x.instants
    let p := hubPlays tb n.1 x.plays
    s.emit (.hub n.1 (if correct then .correct n.2 i p else .fire n.2 i p))) s

/-- Plays of every slot whose command has left, and of `x`. -/
def allPlays (s : State) (x : FireSlot) (mine : List Play) : List Play :=
  mine ++ ((s.pac.slots.filter fun y => (y.st == .sent || y.st == .fired) && !y.same x).map (·.plays)).flatten

/-- Decide the plays of a slot and of those that share its ACs (R196 to R198): the other slots whose plays change are
corrected. The answer is the slot with its plays. -/
def decidePlays (tb : StructTables) (x : FireSlot) (s : State) : FireSlot × State :=
  let keep := x.plays.filter (·.silent)
  let mine := (slotPlays s tb x).map fun p => if keep.any (fun q => q.wg == p.wg) then { p with silent := true } else p
  let decided := decideAcs s x (acsOf mine) (allPlays s x mine)
  let s := (s.pac.slots.filter fun y => y.st == .sent && !y.same x).foldl (fun s (y : FireSlot) =>
    let new : List Play := takePlays decided y.plays
    if new = y.plays then s
    else
      let y' := { y with plays := new }
      sendFire tb true y' (notePlays y' y.plays new (putSlot y' s))) s
  let new := takePlays decided mine
  ({ x with plays := new }, notePlays x x.plays new s)

/-- The first course fired on any plane moves an ARMED job to PRINTING (R72). -/
def firstFired (ctx : Fin 64) (s : State) : State :=
  drainCheck ctx (s.modJob ctx fun j => if j.st = .armed then { j with st := .printing } else j)

/-- The command of a slot leaves. -/
def sendSlot (tb : StructTables) (x : FireSlot) (s : State) : State :=
  let (x, s) := decidePlays tb x s
  let x := { x with st := .sent, unconfirmed := x.num.map (·.1) }
  let s := when x.latched (fun s => s.count Reg.pacLatched x.plane) s
  firstFired (Fin.ofNat 64 x.ctx) (sendFire tb false x (putSlot x s))

/-- Whether a slot's target lies behind the highest position reached (R172). -/
def behindHighest (s : State) (p : Fin 8) (targets : List (Nat × Int)) : Bool :=
  match ((targets.map fun h => (s.pac.gears[p]).masterFor h.2).min?) with
  | some m => decide (m < s.pac.highest)
  | none => false

/-- Decide and send one slot that has reached PAC_LEAD: latched, missed or sent. -/
def fireSlot (tb : StructTables) (pk : Package) (x : FireSlot) (targets : List (Nat × Int)) (raw : List (Nat × Nat))
    (s : State) : State :=
  if behindHighest s (Fin.ofNat 8 x.plane) targets then missSlot x s
  else match latchShift s pk x raw with
    | none => missSlot x s
    | some sh => sendSlot tb (x.at raw sh) s

/-- Slots that a planned swap leaves to the other member (R374): for the member that offered it those whose target lies at
or beyond X, for the one that accepted it those before X. -/
def swapLeaves (s : State) (tb : StructTables) (x : FireSlot) : Bool :=
  match s.xlk.swap, slotDue s tb x with
  | some w, some m => if w.mine then decide (w.x * 65536 ≤ m) else decide (m < w.x * 65536)
  | _, _ => false

/-- FIRE_COMMAND_SEND (R178, R180, R181): the row's next waiting slot, when its earliest instant is within PAC_LEAD and
firing is allowed (R3, R171). -/
def execFireCommandSend (t : Nat) (plane row : Fin 8) (s : State) : Res := ringCmd t s fun s =>
  match s.str.tables, s.pac.slots.find? (fun x => x.plane == plane.val && x.row == row.val && x.st == .waiting) with
  | some tb, some x =>
    match (s.jobs[Fin.ofNat 64 x.ctx]).pkg with
    | some pk =>
      let targets := slotTargets s tb (s.jobs[Fin.ofNat 64 x.ctx]) pk plane x.row x.course
      match s.pac.est.locked && hubArmed s && !s.dummy && !swapLeaves s tb x && !s.isDisabled 0x05 0, instantsOf s plane targets with
      | true, some raw =>
        if (((raw.map (·.2)).min?).getD 0 : Nat) ≤ s.press + 8 * s.fld Reg.pacLead 0 15 0 then fireSlot tb pk x targets raw s
        else s
      | _, _ => s
    | none => s
  | _, _ => s

/-! ## Corrections (R179) -/

/-- Whether the position predicted at a head's last raw instant differs from its target by more than 1/16 course. -/
def offTarget (s : State) (pk : Package) (p : Fin 8) (y : Int) (t8 : Nat) : Bool :=
  let q := coursePitch pk
  decide (q.num * 65536 < 16 * q.den * ((s.pac.gears[p]).posAt (predictAt s t8) - y).natAbs)

/-- A correction that CORR_MIN no longer allows: the slot fires at the last instants sent. -/
def lateSlot (x : FireSlot) (s : State) : State :=
  if x.late then s
  else diag .lateCorrection x.plane x.row x.course 0 ((putSlot { x with late := true } s).count Reg.pacLatecorr x.plane)

/-- Correct a slot whose command has left. -/
def correctSlot (tb : StructTables) (pk : Package) (x : FireSlot) (raw : List (Nat × Nat)) (s : State) : State :=
  let least := s.press + s.fld Reg.pacCfg 0 15 8 * 800
  match latchShift s pk x raw with
  | none => missSlot x s
  | some sh =>
    let y := x.at raw sh
    if least ≤ x.base ∧ least ≤ y.base then
      let (y, s) := decidePlays tb y s
      sendFire tb true y (putSlot y (when (y.latched && !x.latched) (fun s => s.count Reg.pacLatched x.plane) s))
    else lateSlot x s

/-- Recompute one slot. -/
def recomputeSlot (tb : StructTables) (x : FireSlot) (s : State) : State :=
  let p := Fin.ofNat 8 x.plane
  let j := s.jobs[Fin.ofNat 64 x.ctx]
  match j.pkg with
  | none => s
  | some pk =>
    let targets := slotTargets s tb j pk p x.row x.course
    let off := targets.any fun h => match x.instants.find? fun i => i.1 == h.1 with
      | some i => offTarget s pk p h.2 (i.2 - x.shift)
      | none => false
    match off, instantsOf s p targets with
    | true, some raw => correctSlot tb pk x raw s
    | _, _ => s

/-- FIRE_RECOMPUTE (R179): every slot whose command has left and whose instant has not passed. -/
def execFireRecompute (t : Nat) (s : State) : Res := ringCmd t s fun s =>
  match s.str.tables, s.pac.est.locked with
  | some tb, true =>
    (s.pac.slots.filter fun x => x.st == .sent && decide (s.press < x.base)).foldl (fun s x =>
      match s.pac.slots.find? fun y => y.same x with
      | some y => recomputeSlot tb y s
      | none => s) s
  | _, _ => unlockedPass s

/-- Whether a slot fires further than LATCH_MAX from its target (R179). -/
def outOfPlace (s : State) (tb : StructTables) (pk : Package) (x : FireSlot) : Bool :=
  let p := Fin.ofNat 8 x.plane
  let q := coursePitch pk
  (slotTargets s tb (s.jobs[Fin.ofNat 64 x.ctx]) pk p x.row x.course).any fun h =>
    match x.instants.find? fun i => i.1 == h.1 with
    | some i => decide (s.fld Reg.pacCfg 0 5 0 * q.num * 65536 <
        64 * q.den * ((s.pac.gears[p]).posAt (masterAt s (i.2 - x.shift)) - h.2).natAbs)
    | none => false

/-- Items that a fired slot has printed on. -/
def notePrinted (x : FireSlot) (s : State) : State :=
  match (s.jobs[Fin.ofNat 64 x.ctx]).pkg, s.planeRec x.plane with
  | some pk, some pr => s.modJob (Fin.ofNat 64 x.ctx) fun j => { j with items := j.items.map fun it =>
      if (x.printed.any fun w => itemCovers pk pr it w x.course) then { it with anyFired := true } else it }
  | _, _ => s

/-- A slot that fired out of place: flagged and counted (R179). -/
def misplace (x : FireSlot) (s : State) : State :=
  let s := s.count Reg.pacMissed x.plane
  let s := if x.late then s else s.count Reg.pacLatecorr x.plane
  flagWales (Fin.ofNat 64 x.ctx) (Fin.ofNat 8 x.plane) x.course 2 x.printed s

/-- A slot's instant has passed: judged, charged (R199), and settled once every hub has confirmed it. -/
def slotPassed (tb : StructTables) (x : FireSlot) (s : State) : State :=
  let s := match (s.jobs[Fin.ofNat 64 x.ctx]).pkg with
    | some pk => if outOfPlace s tb pk x then misplace x s else s
    | none => s
  let s := notePrinted x (chargeSlot x s)
  let s := if x.unconfirmed.isEmpty then s.modPac fun p => { p with slots := p.slots.filter fun y => !x.same y }
    else putSlot { x with st := .fired } s
  settleJob (Fin.ofNat 64 x.ctx) s

/-- SLOT_INSTANT_PASSED (R179). -/
def execSlotInstantPassed (t : Nat) (plane row : Fin 8) (s : State) : Res := ringCmd t s fun s =>
  match s.str.tables, s.pac.slots.find? (fun x => x.plane == plane.val && x.row == row.val && x.st == .sent) with
  | some tb, some x => if x.base ≤ s.press then slotPassed tb x s else s
  | _, _ => s

end Sys2Proof.Machine
end

