-- ==== Sys2Proof/Machine/Link.lean ====
section
/-! DEFINITION. The Mamen link (chapter 11): lane bring-up, delivery and retry, time, confirmations, epochs, scan lines and
the lane-bandwidth speed. -/

namespace Sys2Proof.Machine

/-! ## Unconfirmed slots (R222) -/

/-- Wales of a slot that nozzles of a set of heads print with a level above 0, and the nozzles. -/
def slotOn (x : FireSlot) (heads : List Nat) : List (Nat × (Nat × Nat)) :=
  x.wales.zipIdx.filterMap fun c => match c.1.nozzle with
    | some n => if c.1.row = x.row ∧ 0 < c.1.level ∧ heads.contains n.1 then some (c.2, n) else none
    | none => none

/-- The dummy drives no gate and no bridge output: its axes are parked (R372). -/
def parkAxes (s : State) : State :=
  { s with ba := s.ba.map fun x => { x with en := false, st := if x.st = .fault then .fault else .off, legs := 0, home := none },
           stp := s.stp.map fun x => { x.drop with en := false, v := 0, home := none } }

/-- The member that offered a planned swap ends it once every slot before X has been confirmed: it reports done and is the
dummy (R374). -/
def swapDone (s : State) : State :=
  match s.xlk.swap, s.str.tables with
  | some w, some tb =>
    if w.mine && w.accepted && s.pac.slots.all (swapLeaves s tb) then
      let s := sendXlk s.peerAddr (.swap w.x w.epoch .done) s
      let s := s.modXlk fun x => { x with role := .dummy, swap := none, unfit := BitVec.ofNat 64 x.peerUnfit,
                                          checked := BitVec.allOnes 64, peerEpoch := w.epoch }
      let s := parkAxes (s.modMlk fun m => { m with holds := false, epoch := w.epoch })
      if w.byCommand then complete .supervisor .ok w.epoch s else s
    else s
  | _, _ => s

/-- A hub has confirmed or failed a slot: a fired slot leaves the list once no hub is left; the lead confirms it to the
dummy (R371). -/
def hubDone (x : FireSlot) (hub : Nat) (s : State) : State :=
  let y := { x with unconfirmed := x.unconfirmed.filter (· != hub) }
  if y.unconfirmed.isEmpty ∧ y.st = .fired then
    let s := s.modPac fun p => { p with slots := p.slots.filter fun z => !x.same z }
    swapDone (settleJob (Fin.ofNat 64 x.ctx) (mirror (.confirm x.plane x.row x.ctx x.course) s))
  else putSlot y s

/-- A sent slot is unconfirmed on a hub (R222). -/
def unconfirm (x : FireSlot) (hub : Nat) (s : State) : State :=
  let e := Fin.ofNat 64 hub
  let num := ((x.num.find? fun n => n.1 == hub).map (·.2)).getD 0
  let f := (s.mlk.eps[e]).faults.find? fun f => f.1 == num
  let heads := match s.str.tables with
    | some tb => ((rowHeads tb x.plane x.row).filter fun h => h.hub == hub &&
        match f with
        | some f => f.2.2.getLsbD h.port
        | none => true).map (·.head)
    | none => []
  let on := slotOn x heads
  let s := s.modEp e fun p => { p with faults := p.faults.filter fun g => g.1 != num }
  let s := markBuffer x false (on.map (·.2)) (s.count Reg.mlkFault x.plane)
  let cause := (f.map (·.2.1)).getD 0
  let s := diag .slotFault hub num x.course (x.plane + 256 * x.row + 65536 * cause : Nat) s
  hubDone x hub (flagWales (Fin.ofNat 64 x.ctx) (Fin.ofNat 8 x.plane) x.course 2 (on.map (·.1)) s)

/-- Slots sent on a hub and not reported, when its lane goes DOWN. -/
def loseSlots (hub : Nat) (s : State) : State :=
  (s.pac.slots.filter fun x => x.unconfirmed.contains hub && (x.st == .sent || x.st == .fired)).foldl (fun s x =>
    match s.pac.slots.find? fun y => y.same x with
    | some y => unconfirm y hub s
    | none => s) s

/-! ## Lane states (Table 11.6) -/

/-- A lane goes to DOWN from any state (R208, R210, R222). -/
def laneDown (l : Fin 64) (s : State) : State :=
  let was := (s.mlk.lanes[l]).st
  let s := s.modLane l fun x => x.goDown s.now
  match was, s.laneEp l with
  | .ready, some e =>
    let s := alarmArgs .mlkLinkDown l e.idx 0 0 s
    if e.kind = 1 ∧ !s.dummy then loseSlots e.number s else s
  | _, _ => s

/-- A lane enters a state. -/
def laneTo (st : LaneSt) (l : Fin 64) (s : State) : State := s.modLane l fun x => { x with st := st, since := s.now }

/-- Training of a fabric lane has ended (R357): the port enters HELLO once every lane of it has trained. -/
def portTrained (l : Nat) (ok : Bool) (n : Fin 32) (s : State) : State :=
  if (s.xlk.ports[n]).st ≠ .train then s
  else if !ok then portDown n s
  else
    let s := s.modPort n fun p => { p with trained := (l :: p.trained).eraseDups }
    if (fabricLanes s n).all fun k => (s.xlk.ports[n]).trained.contains k then portTo .hello n s else s

/-- The reference clock of a lane's quad is present (R486). -/
def qrefOn (s : State) (l : Nat) : Bool := s.lsi.qref.getLsbD (l / 4)

/-- LANE_DOWN_RETRAIN (Table 11.6, R357, R486): training restarts 100 ms after entry to DOWN, while the quad has its
reference clock. -/
def execLaneDownRetrain (t : Nat) (lane : Fin 64) (s : State) : Res := ringCmd t s fun s =>
  let x := s.mlk.lanes[lane]
  if !qrefOn s lane then s
  else match lanePort s lane with
  | some n =>
    if (s.xlk.ports[n]).st = .down ∧ (s.xlk.ports[n]).since + 100 * ms8 ≤ s.now ∧ !s.isDisabled 0x09 n then portTo .train n s else s
  | none => if (s.laneEp lane).isSome ∧ x.st = .down ∧ x.since + 100 * ms8 ≤ s.now ∧
      !s.isDisabled 0x07 lane then laneTo .train lane s else s

/-- LANE_TRAINING_DONE (Table 11.6, R357): training succeeded, or failed or took 500 ms. -/
def execLaneTrainingDone (t : Nat) (lane : Fin 64) (ok : Bool) (s : State) : Res := ringCmd t s fun s =>
  match lanePort s lane with
  | some n => portTrained lane ok n s
  | none =>
    if (s.mlk.lanes[lane]).st = .train then
      if ok then laneTo .hello lane s else laneDown lane s
    else s

/-- Whether a HELLO is the one that the structure names for its lane (Table 11.6). -/
def helloFits (e : EndpointRec) (l : Nat) (h : MlkHello) : Bool :=
  h.kind == e.kind && h.number == e.number && h.laneIdx == laneIdx e l && h.proto == 1

/-- A HELLO that does not match: LINKCFG RESULT 1, unnumbered, and the alarm as MISMATCH sets. -/
def helloMismatch (l : Fin 64) (s : State) : State :=
  let was := (s.mlk.lanes[l]).mismatch
  let s := (s.modLane l fun x => { x with mismatch := true }).emit (.mlk l (.linkcfg 1 l))
  when (!was) (alarm .mlkEndpointMismatch l) s

/-- A HELLO that matches: LINKCFG RESULT 0 as the first reliable frame; a repeat is answered by its retransmission. -/
def helloMatch (e : EndpointRec) (l : Fin 64) (h : MlkHello) (s : State) : State :=
  let s := s.modEp (Fin.ofNat 64 e.idx) fun p =>
    { p with uid := h.unitId, present := h.present, bufSlots := h.bufSlots, mono := h.caps / 2 % 2 == 1 }
  let s := s.modLane l fun x => { x with mismatch := false }
  if (s.mlk.lanes[l]).relNext = 0 then pushRel l (.linkcfg 0 l) s else s

/-- HELLO_FRAME (R208, R209). -/
def execHelloFrame (t : Nat) (lane : Fin 64) (hello : MlkHello) (s : State) : Res := ringCmd t s fun s =>
  match s.laneEp lane, (s.mlk.lanes[lane]).st with
  | some e, .hello => if helloFits e lane hello then helloMatch e lane hello s else helloMismatch lane s
  | _, _ => s

/-- HELLO_TIMEOUT (Table 11.6): no HELLO for 10 ms. -/
def execHelloTimeout (t : Nat) (lane : Fin 64) (s : State) : Res := ringCmd t s fun s =>
  let x := s.mlk.lanes[lane]
  if x.st = .hello ∧ !x.mismatch ∧ x.relNext = 0 ∧ x.since + 10 * ms8 ≤ s.now then laneDown lane s else s

/-- CONFIG is left for SYNC once nothing sent in it is unacknowledged. -/
def configDone (l : Fin 64) (s : State) : State :=
  let x := s.mlk.lanes[l]
  if x.st = .config ∧ x.relOut.isEmpty ∧ x.relWait.isEmpty then laneTo .sync l s else s

/-- LINKCFG has been acknowledged: CONFIG with its frames for a hub, SYNC for a bridge (R209). -/
def linkConfigured (e : EndpointRec) (l : Fin 64) (s : State) : State :=
  if e.kind = 1 then
    let s := laneTo .config l s
    let s := if l = e.lane0 ∧ !s.dummy then (configFrames s e.number).foldl (fun s f => pushRel l f s) s else s
    configDone l s
  else laneTo .sync l s

/-- Take an acknowledgement of every frame up to `seq` (R214). -/
def takeAck (l : Fin 64) (seq : Nat) (s : State) : State :=
  let x := s.mlk.lanes[l]
  if x.relOut.any fun r => r.seq == seq then
    let done := (x.relOut.takeWhile fun r => r.seq != seq)
    let k := ((x.relOut.take (done.length + 1)).filter fun r => r.frame.isWave).length
    let s := s.modLane l fun x => { x with relOut := x.relOut.drop (done.length + 1) }
    let s := drainRel l (s.mlk.lanes[l]).relWait s
    match s.laneEp l with
    | some e => if e.kind = 1 ∧ 0 < k then
        s.modWav fun w => { w with tblBusy := ackBusy e.number k w.tblBusy, wgBusy := ackBusy e.number k w.wgBusy } else s
    | none => s
  else s

/-- A fabric port's reliable frames up to `seq` are acknowledged, and frames that waited go out (R214, R355). -/
def portAck (seq : Nat) (n : Fin 32) (s : State) : State :=
  let p := s.xlk.ports[n]
  if p.rel.any fun r => r.seq == seq then
    let left := (p.rel.dropWhile fun r => r.seq != seq).drop 1
    drainPort n p.relWait (s.modPort n fun p => { p with rel := left, relWait := [] })
  else s

/-- ACK_FRAME (R190, R209, R214, R355). -/
def execAckFrame (t : Nat) (lane : Fin 64) (seq : Nat) (s : State) : Res := ringCmd t s fun s =>
  let s := match lanePort s lane with
    | some n => portAck seq n s
    | none => s
  let s := takeAck lane seq s
  let x := s.mlk.lanes[lane]
  match s.laneEp lane, x.st with
  | some e, .hello => if x.relNext ≠ 0 ∧ x.relOut.isEmpty then linkConfigured e lane s else s
  | some _, .config => configDone lane s
  | _, _ => s

/-! ## Time (R217) -/

/-- Whether a lane carries time exchanges: LANE_IDX 0 in SYNC or READY. -/
def carriesTime (s : State) (l : Fin 64) : Bool :=
  decide (4 ≤ (s.mlk.lanes[l]).st.rank) && (s.laneEp l).any fun e => e.lane0 == l

/-- SYNC_SEND (R217): every 125 µs. -/
def execSyncSend (t : Nat) (lane : Fin 64) (s : State) : Res := ringCmd t s fun s =>
  if carriesTime s lane then
    let n := (s.mlk.lanes[lane]).syncN
    (s.modLane lane fun x => { x with exchange := some { n := n, t1 := s.press }, syncN := (n + 1) % 2 ^ 32 }).emit
      (.mlk lane (.sync n s.press))
  else s

/-- SYNC_RESP_FRAME (R217): rtt, and SYNC_FOLLOW with A and T4. -/
def execSyncRespFrame (t : Nat) (lane : Fin 64) (n h2 h3 t4 : Nat) (s : State) : Res := ringCmd t s fun s =>
  match (s.mlk.lanes[lane]).exchange with
  | some x =>
    if x.n = n then
      let rtt := unsigned 32 (((t4 : Int) - x.t1) - ((h3 : Int) - h2))
      (s.modLane lane fun y => { y with rtt := rtt, exchange := none }).emit
        (.mlk lane (.follow n (signed 32 (s.rd Reg.mlkAsym lane).toNat) t4))
    else s
  | none => s

/-- SYNC_TIMEOUT (Table 11.6): no SYNCED within 20 ms. -/
def execSyncTimeout (t : Nat) (lane : Fin 64) (s : State) : Res := ringCmd t s fun s =>
  let x := s.mlk.lanes[lane]
  if x.st = .sync ∧ x.since + 20 * ms8 ≤ s.now then laneDown lane s else s

/-! ## What endpoints report -/

/-- The acceptance of an identity record (R207). -/
def identOk (s : State) (h : HeadRec) (r : Bytes) : Bool :=
  u8 r 0 == 0x48 && u8 r 1 == 0x49 && u8 r 2 == 1 && u32 r 60 == Config.crc32c (r.take 60) && decide (u8 r 3 ≤ 15) &&
    u16 r 4 == h.nozzles && decide (((s.planeRec h.plane).map (·.bits)).getD 1 ≤ u8 r 6) && zeros r 7 1 && zeros r 28 32

/-- The fields of an identity record that the engine uses (Table 11.5). -/
def identOf (r : Bytes) : HeadIdent :=
  { rank := u8 r 3, tRef := s16 r 20, k1 := s16 r 22, k2 := s16 r 24, tMax := s16 r 26, maxFire := u32 r 16 }

/-- IDENT_FRAME (R207): reliable, so it is acknowledged. -/
def execIdentFrame (t : Nat) (lane : Fin 64) (port : Nat) (record : Bytes) (s : State) : Res := ringCmd t s fun s =>
  match s.laneEp lane, s.str.tables with
  | some e, some tb =>
    let n := (s.mlk.lanes[lane]).upNext
    let s := (s.modLane lane fun x => { x with upNext := (x.upNext + 1) % 65536 }).emit (.mlk lane (.ack n))
    match tb.heads.find? fun h => e.kind == 1 && h.hub == e.number && h.port == port with
    | some h => if identOk s h record then s.modHead h.head fun x => { x with ident := some (identOf record) }
        else alarm .mlkIdentBad h.head s
    | none => s
  | _, _ => s

/-- Waiting slots of a hub are numbered and streamed again as its uplink set reaches READY (log entry 33). -/
def restream (tb : StructTables) (hub : Nat) (s : State) : State :=
  (s.pac.slots.filter fun x => x.st == .waiting && x.num.any fun n => n.1 == hub).foldl (fun s x =>
    let r := numberSlot hub s
    let y := { x with num := x.num.map fun n => if n.1 == hub then (hub, r.1) else n }
    let s := putSlot y r.2
    ((rowHeads tb x.plane x.row).filter fun h => h.hub == hub).foldl (fun s h => sendCourse y.wales h r.1 s) s) s

/-- An endpoint reports SYNCED: its lanes in SYNC become READY, and slot numbers start at 0 (Table 11.6). -/
def endpointReady (e : EndpointRec) (s : State) : State :=
  let before := epReady s e
  let s := e.lanesOf.foldl (fun s l => if (s.mlk.lanes[l]).st = .sync then laneTo .ready l s else s) s
  if epReady s e && !before then
    let i := Fin.ofNat 64 e.idx
    let s := when (s.mlk.eps[i]).missingRaised (diag .mlkEndpointUp e.idx 0 0 0) s
    let s := s.modEp i fun p => { p with nextSlot := 0, faults := [], missingRaised := false }
    match e.kind == 1, s.str.tables with
    | true, some tb => restream tb e.number s
    | _, _ => s
  else s

/-- The epoch side of a STATUS: a standalone device without an epoch claims next of the hub's; a device that holds one
fences a READY hub that has not accepted it (R223, R212). -/
def fenceHub (e : EndpointRec) (s : State) : State :=
  let i := Fin.ofNat 64 e.idx
  let acc := (s.mlk.eps[i]).accEpoch
  if !epReady s e || s.dummy then s
  else if s.mlk.holds then
    if acc = s.mlk.epoch ∨ (s.mlk.eps[i]).takeoverAt.isSome then s else sendTakeover e s
  else if s.fld Reg.xlkPairCfg 0 0 0 = 0 then claimEpoch (if acc = 0xFFFF then 0 else nextEpoch acc) s
  else s

/-- STATUS_FRAME (Tables 11.2, 11.6). -/
def execStatusFrame (t : Nat) (lane : Fin 64) (st : HubStatus) (s : State) : Res := ringCmd t s fun s =>
  match s.laneEp lane with
  | none => s
  | some e =>
    let s := s.modEp (Fin.ofNat 64 e.idx) fun p =>
      { p with armed := st.armed, synced := st.synced, bufFree := st.bufFree,
               accEpoch := if st.fenced then st.accEpoch else 0xFFFF }
    let s := if st.synced then endpointReady e s else s
    if e.kind = 1 then fenceHub e s else s

/-- REPORT of one slot number of a hub. -/
def reportSlot (hub num : Nat) (ok : Bool) (s : State) : State :=
  let e := s.epRec hub
  let s := (e.map EndpointRec.lanesOf).getD [] |>.foldl (fun s l =>
    s.modLane l fun x => { x with courses := x.courses.filter fun c => !(c.hub == hub && c.slot == num) }) s
  match s.pac.slots.find? fun x => x.num.contains (hub, num) && x.unconfirmed.contains hub with
  | some x => if ok then hubDone x hub (s.modEp (Fin.ofNat 64 hub) fun p =>
      { p with faults := p.faults.filter fun g => g.1 != num }) else unconfirm x hub s
  | none => s

/-- Acknowledge an uplink reliable frame of a hub on LANE_IDX 0 (R214). -/
def ackHub (hub : Nat) (s : State) : State :=
  match s.epRec hub with
  | none => s
  | some e =>
    let n := (s.mlk.lanes[e.lane0]).upNext
    (s.modLane e.lane0 fun x => { x with upNext := (x.upNext + 1) % 65536 }).emit (.mlk e.lane0 (.ack n))

/-- REPORT_FRAME (R220, R222). -/
def execReportFrame (t : Nat) (hub : Fin 48) (first count : Nat) (bitmap : BitVec 64) (s : State) : Res :=
  ringCmd t s fun s => (List.range (min count 64)).foldl (fun s i =>
    reportSlot hub ((first + i) % 2 ^ 32) (bitmap.getLsbD i) s) (ackHub hub s)

/-- SLOT_FAULT_FRAME (R222): kept until the slot is reported. -/
def execSlotFaultFrame (t : Nat) (hub : Fin 48) (slot cause : Nat) (ports : Word) (s : State) : Res := ringCmd t s fun s =>
  let s := ackHub hub s
  if s.pac.slots.any fun x => x.num.contains (hub.val, slot) && x.unconfirmed.contains hub.val then
    s.modEp (Fin.ofNat 64 hub) fun p => { p with faults := p.faults.filter (fun g => g.1 != slot) ++ [(slot, cause, ports)] }
  else s

/-- REPORT_TIMEOUT (R222): no report within REPORT_TO of BASE. -/
def execReportTimeout (t : Nat) (hub : Fin 48) (slot : Nat) (s : State) : Res := ringCmd t s fun s =>
  match s.pac.slots.find? fun x => x.num.contains (hub.val, slot) && x.unconfirmed.contains hub.val with
  | some x => if !s.dummy ∧ x.base + s.fld Reg.mlkCfg 0 25 16 * us8 ≤ s.press then unconfirm x hub s else s
  | none => s

/-! ## Delivery and retry -/

/-- Send one NAKed COURSE frame again, with its CSEQ, while its slot's BASE lies at least 2 µs ahead (R215). -/
def resendCourse (tb : StructTables) (l : Fin 64) (cseq : Nat) (s : State) : State :=
  match (s.mlk.lanes[l]).courses.find? fun c => c.cseq == cseq with
  | none => s
  | some c => match s.pac.slots.find? fun x => x.num.contains (c.hub, c.slot) with
    | none => s
    | some x =>
      if x.st ≠ .waiting ∧ x.base < s.press + 2 * us8 then s
      else match tb.heads.find? fun h => h.hub == c.hub && h.port == c.port with
        | some h => s.emit (.mlk l (.course c.slot c.port (headLevels x.wales h)))
        | none => s

/-- NAK_FRAME (R215). -/
def execNakFrame (t : Nat) (lane : Fin 64) (cseq count : Nat) (s : State) : Res := ringCmd t s fun s =>
  match s.str.tables with
  | none => s
  | some tb => (List.range (min count 256)).foldl (fun s i => resendCourse tb lane ((cseq + i) % 65536) s) s

/-- The oldest unacknowledged frame of a fabric port is sent again; 16 failures take the port to DOWN (R355). -/
def portRetry (n : Fin 32) (s : State) : State :=
  match (s.xlk.ports[n]).rel with
  | [] => s
  | r :: rest =>
    if (s.xlk.ports[n]).st ≠ .up ∨ s.now < r.sentAt + 50 * us8 then s
    else if 16 ≤ r.tries then portDown n s
    else (s.modPort n fun p => { p with rel := { r with sentAt := s.now, tries := r.tries + 1 } :: rest }).emit
      (.xlk (frameLane s n r.dst r.frame) r.dst r.frame)

/-- REL_RETRANSMIT (R214): the oldest frame again after 50 µs; after 16 retransmissions the lane goes DOWN. -/
def execRelRetransmit (t : Nat) (lane : Fin 64) (s : State) : Res := ringCmd t s fun s =>
  match lanePort s lane, (s.mlk.lanes[lane]).relOut with
  | some n, _ => portRetry n s
  | none, [] => s
  | none, r :: rest =>
    if s.now < r.sentAt + 50 * us8 then s
    else if 16 ≤ r.tries then alarm .mlkLinkReset lane (laneDown lane s)
    else (s.modLane lane fun x => { x with relOut := { r with sentAt := s.now, tries := r.tries + 1 } :: rest }).emit
      (.mlk lane r.frame)

/-- PCS_ALIGNMENT_LOSS (R210). -/
def execPcsAlignmentLoss (t : Nat) (lane : Fin 64) (s : State) : Res := ringCmd t s fun s =>
  match lanePort s lane with
  | some n => if (s.xlk.ports[n]).st ≠ .down then portDown n s else s
  | none => if (s.laneEp lane).isSome ∧ (s.mlk.lanes[lane]).st ≠ .down then laneDown lane s else s

/-- ENDPOINT_MISSING (R210): not READY 1 s after structure activation, once. -/
def execEndpointMissing (t : Nat) (ep : Fin 64) (s : State) : Res := ringCmd t s fun s =>
  match s.epRec ep with
  | none => s
  | some e =>
    if !epReady s e ∧ s.mlk.activatedAt + sec8 ≤ s.now ∧ !(s.mlk.eps[ep]).missingRaised ∧ (s.mlk.eps[ep]).uid = 0 then
      alarm .mlkEndpointMissing ep (s.modEp ep fun p => { p with missingRaised := true })
    else s

/-! ## Takeover (R223, R224) -/

/-- Bytes of a number, least significant first. -/
def bytesLe : Nat → Nat → Bytes
  | 0, _ => []
  | n + 1, v => BitVec.ofNat 8 v :: bytesLe n (v / 256)

/-- The bytes of one WGMAP entry (Table 11.2). -/
def entryBytes (s : State) (tb : StructTables) (w : WgRec) : Bytes :=
  let port := ((tb.heads.find? fun h => h.head == w.head).map (·.port)).getD 0
  let ac := tb.acs.find? fun a => a.ac == w.ac
  bytesLe 2 w.wg ++ bytesLe 1 port ++ bytesLe 1 ((ac.map (·.channel)).getD 0) ++ bytesLe 2 w.first ++ bytesLe 2 w.count ++
    bytesLe 2 (mapEntry s w.wg).2 ++ bytesLe 1 ((ac.map (·.supply)).getD 0) ++ bytesLe 1 0

/-- TBL_DIGEST as this device has it (R224). -/
def tblDigest (s : State) (tb : StructTables) (hub : Nat) : Nat :=
  Config.crc32c (((hubWgs s hub).map (entryBytes s tb)).flatten ++
    ((hubTables s hub).map fun n => (((s.poolTable n).getD []).map fun w => bytesLe 4 w.toNat).flatten).flatten)

/-- A row of a TAKEOVER_ACK (R224, R376): slots at or below the course named, and slots beyond it whose instants have
passed, are failover slots during a failover; they leave the list, and the rest are streamed again. -/
def takeoverRow (tb : StructTables) (r : TakeoverRow) (s : State) : State :=
  (s.pac.slots.filter fun x => x.plane == r.plane && x.row == r.row && x.ctx == r.ctx).foldl (fun s x =>
    let fired : Bool := match r.course with
      | some c => decide (x.course ≤ c)
      | none => false
    let gone : Bool := if x.st = .waiting then (slotDue s tb x).any fun m => decide (m ≤ masterNow s)
      else decide (x.base ≤ s.press)
    if fired || (gone && s.xlk.failingOver) then
      let s := s.modPac fun p => { p with slots := p.slots.filter fun y => !x.same y }
      let s := if s.xlk.failingOver then
          flagWales (Fin.ofNat 64 x.ctx) (Fin.ofNat 8 x.plane) x.course 6 x.printed s else s
      settleJob (Fin.ofNat 64 x.ctx) s
    else if x.st ≠ .waiting then putSlot { x with st := .waiting, unconfirmed := [], plays := [], instants := [] } s
    else s) s

/-- A hub has accepted this device's epoch. -/
def takeoverAccepted (e : EndpointRec) (digest : Nat) (rows : List TakeoverRow) (s : State) : State :=
  let s := s.modEp (Fin.ofNat 64 e.idx) fun p => { p with accEpoch := s.mlk.epoch, takeoverAt := none }
  match s.str.tables with
  | none => s
  | some tb =>
    let s := rows.foldl (fun s r => takeoverRow tb r s) s
    let s := if (hubEps s).any fun h => (s.mlk.eps[Fin.ofNat 64 h.number]).takeoverAt.isSome then s
      else s.modXlk fun x => { x with failingOver := false, refusedSince := none }
    let s := if tblDigest s tb e.number = digest then s
      else alarm .mlkTableDiff e.number ((configFrames s e.number).foldl (fun s f =>
        if f.isWave then pushRel e.lane0 f s else s) s)
    sendHubRel e (.hubmode (hubArmed s)) (restream tb e.number s)

/-- TAKEOVER_ACK_FRAME (R223, R224). -/
def execTakeoverAckFrame (t : Nat) (hub : Fin 48) (result wait digest : Nat) (rows : List TakeoverRow) (s : State) : Res :=
  ringCmd t s fun s => match s.epRec hub, (s.mlk.eps[Fin.ofNat 64 hub]).takeoverAt with
    | some e, some _ =>
      if result = 0 then takeoverAccepted e digest rows s
      else if result = 1 then s.modEp (Fin.ofNat 64 hub) fun p => { p with takeoverAt := none }
      else
        let s := s.modEp (Fin.ofNat 64 hub) fun p => { p with takeoverAt := some (s.now + wait * 8) }
        { s with xlk := { s.xlk with refusedSince := some (s.xlk.refusedSince.getD s.now) } }
    | _, _ => s

/-- TAKEOVER_REPEAT (R224): no TAKEOVER_ACK within 5 µs. -/
def execTakeoverRepeat (t : Nat) (hub : Fin 48) (s : State) : Res := ringCmd t s fun s =>
  match s.epRec hub, (s.mlk.eps[Fin.ofNat 64 hub]).takeoverAt with
  | some e, some at_ => if s.mlk.holds ∧ at_ + 5 * us8 ≤ s.now then sendTakeover e s else s
  | _, _ => s

/-- KEEPALIVE_SEND (R225). -/
def execKeepaliveSend (t : Nat) (hub : Fin 48) (s : State) : Res := ringCmd t s fun s =>
  match s.epRec hub with
  | some e => if carriesTime s e.lane0 then s.emit (.hub hub .keepalive) else s
  | none => s

/-! ## Scan bridges (R226) -/

/-- Replace one bridge. -/
def State.modBridge (s : State) (b : Fin 16) (f : Bridge → Bridge) : State :=
  { s with ins := { s.ins with bridges := upd s.ins.bridges b f } }

/-- POSREF_SEND (R226): to every bridge that is READY. -/
def execPosrefSend (t : Nat) (s : State) : Res := ringCmd t s fun s =>
  (s.endpoints.filter fun e => e.kind == 2 && epReady s e).foldl (fun s e =>
    s.emit (.mlk e.lane0 (.posref s.press (floorDiv (masterNow s) 65536) (webSpeed s)))) s

/-- Add a frame's pixels to a line. -/
def ScanLine.add (l : ScanLine) (f : ScanFrame) : ScanLine :=
  { l with pixels := l.pixels ++ f.pixels.zipIdx.map fun p => (f.first + p.2, p.1.1, p.1.2.1, p.1.2.2) }

/-- A line of which every pixel has arrived. -/
def ScanLine.full (l : ScanLine) : Bool := (List.range l.width).all fun i => l.pixels.any fun p => p.1 == i

/-- A gathered line is passed on to the line store. -/
def passLine (b : Fin 16) (l : ScanLine) (s : State) : State :=
  s.modBridge b fun x => { x with store := x.store ++ [l], gathering := none }

/-- A line begins with a frame. -/
def newLine (s : State) (b : Fin 16) (f : ScanFrame) : ScanLine :=
  { line := f.line, firstAt := s.now, width := f.width, rgb := f.rgb, t8 := f.t8, pos := f.pos,
    ready := s.ready (48 + b), pixels := [] }

/-- SCAN_LINE_FRAME (R226): a frame of the line being gathered, or the first of a new one. -/
def execScanLineFrame (t : Nat) (bridge : Fin 16) (frame : ScanFrame) (s : State) : Res := ringCmd t s fun s =>
  let (l, s) := match (s.ins.bridges[bridge]).gathering with
    | some l => if l.line = frame.line then (l, s) else (newLine s bridge frame, passLine bridge l s)
    | none => (newLine s bridge frame, s)
  let l := l.add frame
  if l.full then passLine bridge l s else s.modBridge bridge fun x => { x with gathering := some l }

/-- SCAN_LINE_INCOMPLETE (R226): 100 µs after its first frame a line is passed on incomplete. -/
def execScanLineIncomplete (t : Nat) (bridge : Fin 16) (line : Nat) (s : State) : Res := ringCmd t s fun s =>
  match (s.ins.bridges[bridge]).gathering with
  | some l => if l.line = line ∧ l.firstAt + 100 * us8 ≤ s.now then passLine bridge l s else s
  | none => s

/-! ## Lane-bandwidth speed (R227) -/

/-- The term of one lane in µm/s: 0.9 × 12.5 × M ÷ B. -/
def laneTerm (m b : Nat) : Option Nat := if b = 0 then none else some (11250000 * m / b)

/-- Octets of a lane in the window. -/
def laneOctets (s : State) (l : Nat) : Nat := ((s.mlk.octets.filter fun o => o.2.1 == l).map (·.2.2)).sum

/-- VLANE_UPDATE (R227, R112): `octets` gives what each head or scan lane has carried since the update before. -/
def execVlaneUpdate (t : Nat) (octets : List (Nat × Nat)) (s : State) : Res := ringCmd t s fun s =>
  let m := masterNow s
  let s := s.modMlk fun k => { k with octets := octets.map (fun o => (s.now, o.1, o.2)) ++ keep16 s.now k.octets,
                                      pos := keep16 s.now k.pos }
  let mv := windowMove s.mlk.pos m
  let terms := (List.range 64).filterMap fun l => laneTerm mv (laneOctets s l)
  s.modMlk fun k => { k with pos := (s.now, m) :: k.pos,
                             vlane := windowSpeed s.anyActive mv k.vlane ((terms.min?).getD capSpeed) }

end Sys2Proof.Machine
end

