-- ==== Sys2Proof/Machine/Rings.lean ====
section
/-! DEFINITION. Ring registers and the taking of descriptors (R66 to R71, R383), and the job commands of chapter 04. -/

namespace Sys2Proof.Machine

/-! ## Rings -/

/-- INST of RING_FAULT: job ring n is n, the admission ring 64, the supervisor ring 65 (log entry 34). -/
def ringInst : RingId → Nat
  | .job n => n
  | .admission => 64
  | .supervisor => 65

/-- A ring error: its bit, ENABLE cleared, the ring stopped, RING_FAULT (R71). -/
def ringError (id : RingId) (bit : Nat) (s : State) : State :=
  let s := ringSetStatus s id bit
  let s := s.setRing id { s.ring id with enable := false }
  alarm .ringFault (ringInst id) (when (id == .supervisor) closeSession s)

/-- The DMA window of a UW ring (R383); the supervisor ring has none. -/
def ringWindow (s : State) : RingId → Option UwWin
  | .job n => s.sec.uwwin[n.val]?
  | .admission => s.sec.uwwin[64]?
  | .supervisor => none

/-- Whether a range lies wholly within a ring's window, or the window is off (R383). -/
def inWindow (s : State) (id : RingId) (addr len : Nat) : Bool :=
  match ringWindow s id with
  | some w => !w.en || decide (w.baseHi.toNat * 2 ^ 32 + w.baseLo.toNat ≤ addr ∧
      addr + len ≤ w.limHi.toNat * 2 ^ 32 + w.limLo.toNat + 1)
  | none => true

/-- Queue base addresses of a ring: submission and completion. -/
def ringBases (s : State) : RingId → Nat × Nat
  | .supervisor => ((s.rd Reg.supBaseHi 0).toNat * 2 ^ 32 + (s.rd Reg.supBaseLo 0).toNat,
                    (s.rd Reg.supBaseHi 1).toNat * 2 ^ 32 + (s.rd Reg.supBaseLo 1).toNat)
  | .admission => ((s.rd Reg.admBaseHi 0).toNat * 2 ^ 32 + (s.rd Reg.admBaseLo 0).toNat,
                   (s.rd Reg.admBaseHi 1).toNat * 2 ^ 32 + (s.rd Reg.admBaseLo 1).toNat)
  | .job n => ((s.rd Reg.jobBaseSqHi n).toNat * 2 ^ 32 + (s.rd Reg.jobBaseSqLo n).toNat,
               (s.rd Reg.jobBaseCqHi n).toNat * 2 ^ 32 + (s.rd Reg.jobBaseCqLo n).toNat)

/-- Opcodes of the supervisor ring (Table 25.5). -/
def supOpcodes : List Nat :=
  [0x0101, 0x0102, 0x0103, 0x0201, 0x0202, 0x0203, 0x0204, 0x0301, 0x0302, 0x0401, 0x0402, 0x0403, 0x0404, 0x0405, 0x0406,
   0x0501, 0x0502, 0x0503, 0x0504, 0x0505, 0x0506, 0x0601, 0x0701, 0x0702, 0x0801, 0x1006, 0x1007]

/-- Whether a ring accepts an opcode (Table 25.5). -/
def opcodeOn : RingId → Nat → Bool
  | .supervisor, op => supOpcodes.contains op
  | .admission, op => op == 0x1001
  | .job _, op => decide (0x1002 ≤ op ∧ op ≤ 0x1007)

/-- A ring takes the descriptor that it has read: malformed ones complete with FORMAT (R67); any other runs. -/
def takeDescriptor (id : RingId) (op tag : Nat) (noIrq reservedZero : Bool) (s : State) : State :=
  let r := s.ring id
  let s := s.setRing id { r with sqHead := (r.sqHead + 1) % ringSize s id,
                                 running := some { opcode := op, tag := tag, noIrq := noIrq, since := s.now } }
  if opcodeOn id op && reservedZero then s else complete id .format 0 s

/-- Whether a ring can take a descriptor now: enabled, idle, not stalled, and with one in its queue. -/
def ringReady (s : State) (id : RingId) : Bool :=
  let r := s.ring id
  r.enable && !r.stopping && r.running.isNone && r.stalled.isNone && r.sqHead != r.sqTail

/-- A ring looks at its submission queue. -/
def ringFetch (id : RingId) (f : Fetch) (s : State) : State :=
  match ringReady s id, f with
  | true, .pcieError => ringError id 1 s
  | true, .descriptor op tag noIrq z => takeDescriptor id op tag noIrq z s
  | _, _ => s

/-- RING_SQ_TAIL (Table 4.3, R66, R67, R71): the doorbell. -/
def execRingSqTail (t : Nat) (ring : RingId) (value : Nat) (fetch : Fetch) (s : State) : Res := ringCmd t s fun s =>
  if ringSize s ring ≤ value then ringError ring 0 s
  else ringFetch ring fetch (s.setRing ring { s.ring ring with sqTail := value })

/-- A ring starts (R70). -/
def ringStart (id : RingId) (s : State) : State :=
  s.setRing id { s.ring id with enable := true, stopping := false, sqHead := 0, cqTail := 0, cqHead := 0, phase := true,
                                stalled := none }

/-- RING_ENABLE (R70, R383). -/
def execRingEnable (t : Nat) (ring : RingId) (s : State) : Res := ringCmd t s fun s =>
  let b := ringBases s ring
  let n := ringSize s ring
  if inWindow s ring b.1 (64 * n) && inWindow s ring b.2 (16 * n) then ringStart ring s else s

/-- A ring stops, once the running command has completed (R70). -/
def ringStop (id : RingId) (s : State) : State :=
  let r := s.ring id
  if r.running.isSome then s.setRing id { r with stopping := true }
  else when (id == .supervisor) closeSession (s.setRing id { r with enable := false })

/-- RING_DISABLE (R70). -/
def execRingDisable (t : Nat) (ring : RingId) (s : State) : Res := ringCmd t s (ringStop ring)

/-- Whether a value of RING_CQ_HEAD lies past the completion tail: it releases more entries than are written. -/
def cqPast (ring : RingId) (value : Nat) (s : State) : Bool :=
  let r := s.ring ring
  let n := ringSize s ring
  decide (n ≤ value) || decide ((r.cqTail + n - r.cqHead % n) % n < (value + n - r.cqHead % n) % n)

/-- The host releases completion entries: a completion that waits is written (R68). -/
def cqRelease (ring : RingId) (value : Nat) (s : State) : State :=
  let s := s.setRing ring { s.ring ring with cqHead := value }
  match (s.ring ring).stalled, cqFull s ring with
  | some c, false => writeCompletion ring c s
  | _, _ => s

/-- RING_CQ_HEAD (R68); a value past the completion tail is a host error with an unpredictable result (R7). -/
def execRingCqHead (t : Nat) (ring : RingId) (value : Nat) (s : State) : Res :=
  runUnless (fun s => s.ringsRun && cqPast ring value s) "RING_CQ_HEAD past the completion tail" t s fun s =>
    if s.ringsRun then cqRelease ring value s else s

/-! ## Opening and loading -/

/-- The context that JOB_OPEN takes (R73). -/
def openCtx (s : State) (ctxReq : Nat) : Option (Fin 64) :=
  (List.finRange 64).find? fun n => (s.jobs[n]).st == .free && (ctxReq == 0xFF || n.val == ctxReq)

/-- JOB_OPEN (R73). -/
def execJobOpen (t ctxReq jobId : Nat) (s : State) : Res := ringCmd t s fun s =>
  if 64 ≤ ctxReq ∧ ctxReq ≠ 0xFF then complete .admission .range 0 s
  else match openCtx s ctxReq with
    | none => complete .admission .noContext 0 s
    | some n => complete .admission .ok n (s.modJob n fun _ => { Job.free with st := .opened, jobId := jobId })

/-- HBM bytes used by the packages that contexts hold. -/
def packagesUsed (s : State) : Nat × Nat :=
  s.jobs.toList.foldl (fun a j => match j.pkg with
    | some pk => let b := packageBytes pk
      (a.1 + b.1, a.2 + b.2)
    | none => a) (0, 0)

/-- A structure without records, before any is active: every plane is disabled. -/
def StructTables.empty : StructTables :=
  { lanes := [], planes := [], rows := [], endpoints := [], heads := [], nmaps := [], stitches := [], deals := [], wgs := [],
    acs := [], clusters := [], hbm := [], axes := [], pins := [], power := ⟨0, 0, 0, 0, 0⟩ }

/-- The status that a status code stands for, for what a job-store or host read may answer (R336). -/
def readStatus : Nat → Status
  | 0x00 => .ok
  | 0x0A => .integrity
  | 0x0D => .aborted
  | _ => .timeout

/-- The read code of a job-store read that has not completed: the command waits (R336). -/
def readPending : Nat := 0xFF

/-- A JOB_LOAD that waits for the job store ends with a refusal, which discards what is held (R74, R336). -/
def endLoad (ctx : Fin 64) (st : Status) (s : State) : State :=
  if (s.jobs[ctx]).nvmeWait.isSome then
    complete (.job ctx) st 0 (s.modJob ctx fun j => { j with nvmeWait := none, held := [] })
  else s

/-- Namespace of a job-store ADDRESS. -/
def storeIndex (address : Nat) : Fin 32 := Fin.ofNat 32 (address / 2 ^ 48 % 32)

/-- Refusals of JOB_LOAD before the whole package is looked at (R74, R383, R336). -/
def loadConds (s : State) (ctx : Fin 64) (fromStore last : Bool) (address offset : Nat) (data : Bytes) (readCode : Nat) :
    List (Bool × Status) :=
  let j := s.jobs[ctx]
  let n := data.length
  let held := j.held ++ data
  let pkgLen := u32 held 44
  let known := decide (48 ≤ held.length)
  let x := s.mem.js[storeIndex address]
  [(j.st != .opened, .badState), (decide (n = 0 ∨ 16777216 < n), .range), (offset != j.held.length, .range),
   (last && (!known || offset + n != pkgLen), .format), (known && decide (pkgLen < offset + n), .format),
   (!fromStore && !inWindow s (.job ctx) address n, .range),
   (fromStore && decide (x.cap < address % 2 ^ 48 + n), .range), (readCode != 0, readStatus readCode)]

/-- Kind of a valid key slot (R125). -/
def slotKind (s : State) (n : Nat) : Nat := match s.cod.slots[n]? with
  | some k => if k.valid then k.kind else 0xFF
  | none => 0xFF

/-- The lead sends RCHECK of a package or of a batch to the dummy (R369). -/
def sendRcheck (ctx : Nat) (package : Bool) (count firstSeq crc : Nat) (s : State) : State :=
  if s.xlk.role = .lead then sendXlk s.peerAddr (.rcheck ctx package count firstSeq crc) s else s

/-- A complete package is accepted: the context is LOADED. -/
def acceptPackage (ctx : Fin 64) (bytes : Bytes) (pk : Package) (s : State) : State :=
  let crc := Config.crc32c bytes
  let s := s.modJob ctx fun j => { j with st := .loaded, pkg := some pk, held := [], nextSeq := pk.firstSeq }
  retryRchecks ctx (sendRcheck ctx true 0 0 crc
    (s.modXlk fun x => { x with packages := x.packages.filter (fun p => p.1 != ctx.val) ++ [(ctx.val, crc)] }))

/-- What the bytes of an accepted JOB_LOAD do (R74). -/
def loadBytes (ctx : Fin 64) (last : Bool) (data : Bytes) (s : State) : State :=
  let held := (s.jobs[ctx]).held ++ data
  if last then
    match checkPackage (s.str.tables.getD .empty) (slotKind s) (s.met.st == .absent) (packagesUsed s) held with
    | .inl st => complete (.job ctx) st 0 (s.modJob ctx fun j => { j with held := [] })
    | .inr pk => complete (.job ctx) .ok 0 (acceptPackage ctx held pk s)
  else complete (.job ctx) .ok 0 (s.modJob ctx fun j => { j with held := held })

/-- A JOB_LOAD of a job-store namespace that is not attached is a host error with an unpredictable result (chapter 04). -/
def loadUnattached (fromStore : Bool) (address : Nat) (s : State) : Bool :=
  s.ringsRun && fromStore && !(s.mem.js[storeIndex address]).attached

/-- JOB_LOAD (R74, R90, R336, R383): any refusal in OPEN discards what is held. -/
def execJobLoad (t : Nat) (ctx : Fin 64) (fromStore last : Bool) (address offset : Nat) (data : Bytes) (readCode : Nat)
    (s : State) : Res :=
  runUnless (loadUnattached fromStore address) "JOB_LOAD from a namespace that is not attached" t s fun s =>
    if s.ringsRun then
      if fromStore && readCode == readPending && (s.jobs[ctx]).st == .opened then
        s.modJob ctx fun j => { j with nvmeWait := some s.now }
      else match firstRefusal (loadConds s ctx fromStore last address offset data readCode) with
      | .ok => loadBytes ctx last data s
      | st => complete (.job ctx) st 0 (if (s.jobs[ctx]).st = .opened then s.modJob ctx fun j => { j with held := [] } else s)
    else s

/-! ## Arming -/

/-- Whether the master has passed a position, or reaches it within 1 ms at the present speed (R75). -/
def castOnSoon (s : State) (castOn : Int) : Bool :=
  let m := masterNow s
  decide (castOn * 65536 ≤ m) || decide (castOn * 65536 ≤ m + floorDiv (s.pac.est.v * 1000000) 65536)

/-- Other jobs that share a plane. -/
def sharing (s : State) (ctx : Fin 64) (pk : Package) : List Job :=
  (List.finRange 64).filterMap fun n => if n = ctx then none else
    let j := s.jobs[n]
    match j.pkg with
    | some q => if (List.range 8).any (fun p => pk.planes.testBit p && q.planes.testBit p) then some j else none
    | none => none

/-- Whether a cast-on lies before the end position of a draining job on a shared plane (R77). -/
def beforeEnd (s : State) (pk : Package) (castOn : Int) (j : Job) : Bool :=
  match j.pkg, lastCourseEnd j with
  | some q, some e => (List.finRange 8).any fun p => pk.planes.testBit p && q.planes.testBit p &&
      decide ((s.pac.gears[p]).posAt (castOn * 65536) < coursePos s j q p e * 65536)
  | _, _ => false

/-- Array bytes that the jobs running on a plane and a new one need (R142). -/
def arraysOver (s : State) (pk : Package) (p : Fin 8) : Bool :=
  let need (q : Package) : Nat := ((q.screens.filter fun r => r.plane == p.val).map arrayBytes).sum
  let used := (s.jobs.toList.map fun j => if j.st.active then (j.pkg.map need).getD 0 else 0).sum
  match s.planeRec p with
  | some r => decide (planeBudget r < used + need pk)
  | none => false

/-- Whether some WG with a nozzle on a plane of the job has an empty active slot (R191). -/
def wgEmpty (s : State) (t : StructTables) (pk : Package) : Bool :=
  t.wgs.any fun w => (t.heads.any fun h => h.head == w.head && pk.planes.testBit h.plane) && (tableInForce s w.wg).isNone

/-- Whether a hub with a head on a plane of the job is not READY, or has not accepted the epoch (R211). -/
def hubUnready (s : State) (t : StructTables) (pk : Package) : Bool :=
  (hubEps s).any fun e => (t.heads.any fun h => h.hub == e.number && pk.planes.testBit h.plane) &&
    (!epReady s e || (!s.dummy && !epFenced s (Fin.ofNat 64 e.number)))

/-- Whether an inspection ring is too short for the job (R230). -/
def ringShort (s : State) (t : StructTables) (pk : Package) : Bool :=
  let omax := (((t.endpoints.filter fun e => e.kind == 2).map (·.scanOffset)).max?).getD 0
  let q := coursePitch pk
  pk.appear.isSome && (!(t.hbm.any fun r => r.kind == 6) || (jobPlanes pk).any fun p =>
    decide (s.ins.bufSize.getD p 0 < ceilDiv ((omax - rowOffset t p 0) * q.den) q.num + 1024))

/-- The SEALED fields of a package. -/
def sealedFields (pk : Package) : List FieldRec := pk.fields.filter fun f => f.type == 6

/-- Whether a line-buffer bank of the pipeline of a plane of the job has FAILED (R331). -/
def lineBankBad (s : State) (t : StructTables) (pk : Package) : Bool :=
  (jobPlanes pk).any fun p => match t.planes[p.val]? with
    | some r => (List.range 4).any fun i => ((s.mem.banks[64 + 4 * r.pp + i]?).map fun b => b.st == .failed).getD false
    | none => false

/-- Whether a SEALED field names a plane other than that of its SFDEF (chapter 21). -/
def sealedPlaneBad (s : State) (pk : Package) : Bool :=
  (sealedFields pk).any fun f => match s.met.sfdef[u8 f.param 0]? with
    | some d => f.planes != 2 ^ d.plane
    | none => true

/-- Whether a lane named by a SEALED field has no LANE_MAP entry (R421). -/
def laneMapMissing (s : State) (ctx : Fin 64) (pk : Package) : Bool :=
  (sealedFields pk).any fun f => (List.range 64).any fun l =>
    f.lanes.testBit l && !s.met.laneMap.any fun m => m.1 == ctx.val && m.2.1 == l

/-- Refusals of JOB_ARM: R75 with R52, then the rules that add to it by chapter (R468). -/
def armConds (s : State) (ctx : Fin 64) (pk : Package) (castOn : Int) : List (Bool × Status) :=
  let t := s.str.tables.getD .empty
  let others := sharing s ctx pk
  let sf := !(sealedFields pk).isEmpty
  [(s.dev.mode != .print, .badMode), (s.dev.hold, .badState), (!s.pac.est.locked, .notReady), (castOnSoon s castOn, .range),
   (others.any fun j => j.st == .armed || j.st == .printing, .badState),
   (others.any fun j => j.st == .draining && beforeEnd s pk castOn j, .range),
   ((jobPlanes pk).any (arraysOver s pk), .busy),
   (wgEmpty s t pk || !s.wav.tblBusy.isEmpty || !s.wav.wgBusy.isEmpty, .badState), (hubUnready s t pk, .badState),
   (ringShort s t pk, .range), (sf && !(s.endpoints.any fun e => e.kind == 2 && epReady s e), .badState),
   (lineBankBad s t pk, .badState), (s.xlk.addr.isSome && !s.xlk.timeSynced, .notReady), (sf && sealedPlaneBad s pk, .range),
   (sf && s.met.st == .locked, .badState), (sf && s.met.st == .starting, .notReady),
   (sf && laneMapMissing s ctx pk, .badState)]

/-- The job is ARMED; the supported speeds take the web speed (R112), and the highest position counts from here. -/
def armJob (ctx : Fin 64) (castOn : Int) (s : State) : State :=
  let v := min capSpeed (webSpeed s).toNat
  let first := !s.anyActive
  let s := s.modJob ctx fun j =>
    { j with st := .armed, castOn := castOn, armSpeed := v, armPos := s.pac.est.p, nextSlot := 0,
             planes := Vector.replicate 8 .reset }
  { s with pac := { s.pac with highest := if first then s.pac.est.p else s.pac.highest },
           cmp := { s.cmp with vcomp := v, vbase := v }, cod := { s.cod with vcode := v }, wav := { s.wav with venergy := v },
           mlk := { s.mlk with vlane := v }, ins := { s.ins with vinsp := v } }

/-- JOB_ARM (R75 to R77, and the additions by chapter). -/
def execJobArm (t : Nat) (ctx : Fin 64) (castOn : Int) (s : State) : Res := ringCmd t s fun s =>
  match (s.jobs[ctx]).st, (s.jobs[ctx]).pkg with
  | .loaded, some pk => admitCmd (.job ctx) (armConds s ctx pk castOn)
      (fun s => complete (.job ctx) .ok 0 (armJob ctx castOn s)) s
  | _, _ => complete (.job ctx) .badState 0 s

/-! ## Records and cast-off -/

/-- Bytes of records that contexts hold. -/
def queueUsed (s : State) : Nat :=
  (s.jobs.toList.map fun j => (j.queue.map Record.size).sum +
    (match j.pkg with
     | some pk => j.items.length * pk.maxRecord
     | none => 0)).sum

/-- What JOB_RECORDS answers with: refused with the index of the first failing record, or the records (R78, R79, R82). -/
def recordsOutcome (s : State) (j : Job) (pk : Package) (ctx : Fin 64) (address count bytes : Nat) (data : Bytes) :
    (Status × Nat) ⊕ List Record :=
  if count < 1 ∨ 65536 < count ∨ 16777216 < bytes then .inl (.range, 0)
  else match parseBatch pk.maxRecord pk.fields.length count 0 j.nextSeq (data.take bytes) with
    | .inl e => .inl e
    | .inr rs =>
      match j.castOff.bind fun last => if last < j.nextSeq + count - 1 then some (last + 1 - j.nextSeq) else none with
      | some i => .inl (.range, i)
      | none =>
        let room := regionBytes (s.str.tables.getD .empty) 3
        if room < queueUsed s + (rs.map Record.size).sum then .inl (.busy, 0)
        else if !inWindow s (.job ctx) address bytes then .inl (.range, 0)
        else .inr rs

/-- A batch enters the record queue. -/
def queueBatch (ctx : Fin 64) (first : Nat) (rs : List Record) (crc : Nat) (s : State) : State :=
  let s := s.modJob ctx fun j =>
    let next := j.nextSeq + rs.length
    { j with queue := j.queue ++ rs, nextSeq := next,
             lastQueued := j.lastQueued || (j.castOff.map fun l => decide (l < next)).getD false }
  retryRchecks ctx (sendRcheck ctx false rs.length first crc
    (s.modXlk fun x => { x with batches := x.batches ++ [(ctx.val, rs.length, first, crc)] }))

/-- JOB_RECORDS (R78, R79, R82, R383). -/
def execJobRecords (t : Nat) (ctx : Fin 64) (address count bytes : Nat) (data : Bytes) (s : State) : Res :=
  ringCmd t s fun s =>
    let j := s.jobs[ctx]
    match [JobSt.loaded, .armed, .printing].contains j.st && !j.lastQueued, j.pkg with
    | true, some pk => match recordsOutcome s j pk ctx address count bytes data with
      | .inl (st, i) => complete (.job ctx) st i s
      | .inr rs => complete (.job ctx) .ok (j.nextSeq + rs.length)
          (queueBatch ctx j.nextSeq rs (Config.crc32c (data.take bytes)) s)
    | _, _ => complete (.job ctx) .badState 0 s

/-- The highest sequence number whose first course has been composed (R82). -/
def composedSeq (j : Job) (pk : Package) : Option Nat :=
  ((j.items.filter fun it => (jobPlanes pk).any fun p => composed j p (firstCourse pk it.rpt)).map (·.seq)).max?

/-- Items bound beyond LAST do not print: they stay blank and end VOID (R82). -/
def blankBeyond (last : Nat) (s : State) (ctx : Nat) (it : Item) : Item :=
  if last < it.seq ∧ it.outcome.isNone then
    let it := { it with skip := true, values := [], codes := it.codes ||| codeBit 9 ||| codeBit 15 }
    { it with outcome := some (mkOutcome s ctx it) }
  else it

/-- A job is cast off at `last` (R82). -/
def castOffAt (ctx : Fin 64) (last : Nat) (s : State) : State :=
  let j := s.jobs[ctx]
  let r := voidQueue ctx (codeBit 9 ||| codeBit 15) (j.queue.filter fun q => decide (last < q.seq)) s
  let s := r.2.modJob ctx fun j =>
    { j with castOff := some last, lastQueued := decide (last < j.nextSeq), queue := j.queue.filter fun q => decide (q.seq ≤ last),
             items := j.items.map (blankBeyond last s ctx), entryWait := j.entryWait ++ r.1 }
  drainCheck ctx (settleJob ctx s)

/-- JOB_CAST_OFF (R82). -/
def execJobCastOff (t : Nat) (ctx : Fin 64) (last : Nat) (s : State) : Res := ringCmd t s fun s =>
  let j := s.jobs[ctx]
  match j.st == .armed || j.st == .printing, j.pkg with
  | true, some pk =>
    let used := max last ((composedSeq j pk).getD 0)
    complete (.job ctx) .ok used (castOffAt ctx used s)
  | _, _ => complete (.job ctx) .badState 0 s

/-! ## Abort and close -/

/-- JOB_ABORT (R84). -/
def execJobAbort (t : Nat) (ring : RingId) (ctx : Fin 64) (s : State) : Res := ringCmd t s fun s =>
  if (s.jobs[ctx]).st.active then
    let s := if ring = .supervisor ∧ (s.jobRings[ctx]).running.isSome then complete (.job ctx) .aborted 0 s else s
    complete ring .ok 0 (abortJob ctx s)
  else if (s.jobs[ctx]).st = .closed then complete ring .ok 0 s
  else complete ring .badState 0 s

/-- A context becomes FREE, and what the pair and the partition held of it goes (R85, R369). -/
def freeJob (ctx : Fin 64) (s : State) : State :=
  let s := s.modJob ctx fun _ => Job.free
  s.modXlk fun x =>
    { x with unfit := x.unfit &&& ~~~(1#64 <<< ctx.val), checked := x.checked &&& ~~~(1#64 <<< ctx.val),
             packages := x.packages.filter fun p => p.1 != ctx.val,
             batches := x.batches.filter fun b => b.1 != ctx.val,
             rchecks := x.rchecks.filter fun r => r.1 != ctx.val }

/-- Refusals of JOB_CLOSE (R85). -/
def closeConds (s : State) (ctx : Fin 64) : List (Bool × Status) :=
  let j := s.jobs[ctx]
  [(!([JobSt.opened, .loaded, .closed].contains j.st), .badState), (j.st == .closed && outcomesWait s ctx, .busy)]

/-- JOB_CLOSE (R85). -/
def execJobClose (t : Nat) (ring : RingId) (ctx : Fin 64) (s : State) : Res := ringCmd t s fun s =>
  admitCmd ring (closeConds s ctx) (fun s => complete ring .ok 0 (freeJob ctx s)) s

end Sys2Proof.Machine
end

