-- ==== Sys2Proof/Machine/Power.lean ====
section
/-! DEFINITION. Power (chapter 16): the estimate and its floor, the four grants, the cluster plan and the scheduler's
choice of clusters, and the die sensors. -/

namespace Sys2Proof.Machine

/-- Replace the power controller. -/
def State.modPwr (s : State) (f : Pwr → Pwr) : State := { s with pwr := f s.pwr }

/-- Replace one cluster. -/
def State.modCluster (s : State) (n : Fin 16) (f : Cluster → Cluster) : State := { s with clusters := upd s.clusters n f }

/-! ## Operating points (Table 16.2) -/

/-- F_op, MHz. -/
def opMhz (op : Nat) : Nat := [800, 1100, 1400, 1600].getD op 1600

/-- P_op, mW. -/
def opMw (op : Nat) : Nat := [2400, 3800, 5600, 7300].getD op 7300

/-- OP_MAX. -/
def opMax (s : State) : Nat := s.fld Reg.pwrOp 0 5 4

/-- OP_DEF. -/
def opDef (s : State) : Nat := s.fld Reg.pwrOp 0 1 0

/-- CLUSTER mask of a cluster; 0 without a structure. -/
def clusterMask (s : State) (n : Nat) : Nat := match s.str.tables with
  | some t => t.clusters.getD n 0
  | none => 0

/-- Whether a cluster is available (R308). -/
def ccAvailable (s : State) (n : Fin 16) : Bool :=
  clusterMask s n != 0 && !(s.clusters[n]).excl && !(s.pwr.sensors[n]).shut

/-- The number A of available clusters. -/
def availableCount (s : State) : Nat := ((List.finRange 16).filter (ccAvailable s)).length

/-! ## The estimate (R306, R307) -/

/-- Mean of a list, rounded down. -/
def meanOf (l : List Nat) : Nat := l.sum / max 1 l.length

/-- The floor sample of an estimate. -/
def floorSample (p : PowerSample) : Nat := p.total - (p.cmp + p.ins + p.dma + p.fab)

/-- POWER_ESTIMATE (R306, R307). -/
def execPowerEstimate (t : Nat) (sample : PowerSample) (s : State) : Res := run t s fun s =>
  let samples := keep16 s.now ((s.now, sample.total, floorSample sample) :: s.pwr.samples)
  let bulk := keep16 s.now ((s.now, sample.dma, sample.fab, sample.dmaHeld, sample.fabHeld) :: s.pwr.bulk)
  let last := samples.filter fun e => decide (s.now < e.1 + ms8)
  let s := s.modPwr fun p =>
    { p with samples := samples, bulk := bulk, total := meanOf (last.map (·.2.1)),
             floor := ((samples.map (·.2.2)).max?).getD 0, dmaPending := sample.dmaPending, fabPending := sample.fabPending }
  { s with clusters := s.clusters.mapIdx fun i c => { c with mw := sample.clusters.getD i 0 } }

/-! ## Demands (R308) -/

/-- The target speed v_t: input 8 of Table 13.1, µm/s. -/
def ratedCeiling (s : State) : Nat :=
  s.jobs.toList.foldl (fun v j => match j.st.active, j.pkg with
    | true, some pk => let q := coursePitch pk
      min v (1000 * q.num / q.den)
    | _, _ => v) capSpeed

/-- Whether n clusters at MHz `f` reach need: n × F_op at least D × v_t ÷ 0.9. -/
def reaches (d : Nat × Nat) (vt f n : Nat) : Bool := decide (d.1 * vt ≤ 900 * n * f * d.2)

/-- The pairs (op, n) with op at most OP_MAX and n from 1 to `cap op`. -/
def planPairs (s : State) (cap : Nat → Nat) : List (Nat × Nat) :=
  (List.range (opMax s + 1)).flatMap fun op => (List.range (cap op)).map fun n => (op, n + 1)

/-- The first entry of least cost. -/
def leastBy {α : Type} (cost : α → Nat) : List α → Option α
  | [] => none
  | x :: rest => match leastBy cost rest with
    | none => some x
    | some y => if cost x ≤ cost y then some x else some y

/-- DEM[CMP]. -/
def demCmp (s : State) : Nat :=
  if !s.anyActive then 0
  else
    let a := availableCount s
    match s.cmp.demand with
    | none => a * opMw (opDef s)
    | some d =>
      match leastBy (fun x => opMw x.1 * x.2)
          ((planPairs s fun _ => a).filter fun x => reaches d (ratedCeiling s) (opMhz x.1) x.2) with
      | some x => opMw x.1 * x.2
      | none => a * opMw (opMax s)

/-- Whether a job that carries APPEAR runs. -/
def inspecting (s : State) : Bool := s.jobs.toList.any fun j => j.st.active && (j.pkg.any fun pk => pk.appear.isSome)

/-- DEM[INS]. -/
def demIns (s : State) : Nat :=
  if !inspecting s then 0
  else match s.ins.di with
    | none => 4800
    | some d => 600 * min 8 (ceilDiv (d.1 * ratedCeiling s) (900000 * d.2))

/-- DEM of a bulk consumer: the mean power over 16 ms, with 25 % when it was held back, at least 500 while pending. -/
def demBulk (power : List Nat) (held pending : Bool) : Nat :=
  let p := meanOf power
  let p := if held then p + p / 4 else p
  if pending then max 500 p else p

/-- The four demands in the order CMP, INS, DMA, FAB. -/
def demands (s : State) : List Nat :=
  [demCmp s, demIns s,
   demBulk (s.pwr.bulk.map (·.2.1)) (s.pwr.bulk.any (·.2.2.2.1)) s.pwr.dmaPending,
   demBulk (s.pwr.bulk.map (·.2.2.1)) (s.pwr.bulk.any (·.2.2.2.2)) s.pwr.fabPending]

/-! ## Grants (R309) -/

/-- The weights of PWR_SHARE in the order CMP, INS, DMA, FAB. -/
def shares (s : State) : List Nat := [s.fld Reg.pwrShare 0 7 0, s.fld Reg.pwrShare 0 15 8, s.fld Reg.pwrShare 0 23 16,
  s.fld Reg.pwrShare 0 31 24]

/-- The minimum grants. -/
def minGrants (dem : List Nat) : List Nat :=
  [if 0 < dem.getD 0 0 then 2400 else 0, if 0 < dem.getD 1 0 then 600 else 0, 0, 0]

/-- One consumer of a round: its grant, what it still wants, and its weight. -/
structure Want where
  g : Nat
  rest : Nat
  w : Nat
  deriving DecidableEq, Repr

/-- One round of R309: every consumer that still wants takes its share of the pool. -/
def grantRound (l : List Want) (pool : Nat) : List Want × Nat :=
  let w := ((l.filter fun x => decide (0 < x.rest)).map (·.w)).sum
  let share (x : Want) : Nat := if x.rest = 0 ∨ w = 0 then 0 else min x.rest (pool * x.w / w)
  (l.map fun x => { x with g := x.g + share x, rest := x.rest - share x }, pool - (l.map share).sum)

/-- Up to `n` rounds. -/
def grantRounds : Nat → List Want → Nat → List Want
  | 0, l, _ => l
  | n + 1, l, pool =>
    if pool = 0 ∨ l.all (fun x => x.rest == 0) then l
    else let r := grantRound l pool
      grantRounds n r.1 r.2

/-- The grants of a kitty. -/
def grants (kt : Nat) (dem ws : List Nat) : List Nat :=
  let mins := minGrants dem
  let l := (List.range 4).map fun i => ({ g := mins.getD i 0, rest := dem.getD i 0 - mins.getD i 0, w := ws.getD i 0 } : Want)
  (grantRounds 4 l (kt - mins.sum)).map (·.g)

/-! ## The cluster plan (R310) -/

/-- The plan (op, n) for a CMP grant; (OP_DEF, n) while D is not known (log entry 40). -/
def clusterPlan (s : State) (g : Nat) : Nat × Nat :=
  let cap (op : Nat) : Nat := min (availableCount s) (g / opMw op)
  match s.cmp.demand with
  | none => (opDef s, cap (opDef s))
  | some d =>
    let pairs := planPairs s cap
    match leastBy (fun x => opMw x.1 * x.2) (pairs.filter fun x => reaches d (ratedCeiling s) (opMhz x.1) x.2) with
    | some x => x
    | none => ((pairs.foldl (fun (b : Option (Nat × Nat)) x => match b with
        | some y => if y.2 * opMhz y.1 < x.2 * opMhz x.1 then some x else some y
        | none => some x) none)).getD (0, 0)

/-- The reading of a sensor for thresholds and for the choice of clusters (R316): its last valid reading, 130 °C after three
clamped ones. -/
def Sensor.reading (x : Sensor) : Int := if 3 ≤ x.clamped then 2080 else x.last

/-- Order of clusters by temperature: the coolest first, the lower number on a tie. -/
def cooler (s : State) (a b : Fin 16) : Bool :=
  let x := (s.pwr.sensors[a]).reading
  let y := (s.pwr.sensors[b]).reading
  decide (x < y) || (decide (x = y) && decide (a ≤ b))

/-- Clusters in order of temperature. -/
def byHeat (s : State) (l : List (Fin 16)) : List (Fin 16) := sortBy (cooler s) l

/-- The planes of jobs that compose: ARMED and PRINTING. -/
def composingPlanes (s : State) : List Nat :=
  (List.range 8).filter fun p => s.jobs.toList.any fun j =>
    (j.st == .armed || j.st == .printing) && j.pkg.any fun pk => pk.planes.testBit p

/-- Whether a cluster may be switched on now: available, off, and its sensor has a valid conversion (R53). -/
def canPower (s : State) (n : Fin 16) : Bool :=
  ccAvailable s n && (s.clusters[n]).power == .off && (s.pwr.sensors[n]).valid

/-- The clusters funded at the plan's n: the funded ones, fewer by the hottest or more by the coolest unpowered (R314). -/
def fundCount (s : State) (n : Nat) : List (Fin 16) :=
  let now := byHeat s ((List.finRange 16).filter fun c => (s.clusters[c]).granted && ccAvailable s c)
  if n ≤ now.length then now.take n
  else now ++ (byHeat s ((List.finRange 16).filter fun c => canPower s c && !now.contains c)).take (n - now.length)

/-- The hottest of the chosen clusters that were not put in for a plane gives way to one that names a missing plane. -/
def coverPlane (s : State) (acc : List (Fin 16) × List (Fin 16)) (p : Nat) : List (Fin 16) × List (Fin 16) :=
  let (chosen, put) := acc
  if (chosen ++ put).any fun c => (clusterMask s c).testBit p then acc
  else match byHeat s ((List.finRange 16).filter fun c => canPower s c && (clusterMask s c).testBit p), chosen with
    | c :: _, _ :: _ => (chosen.dropLast, put ++ [c])
    | _, _ => acc

/-- The clusters that R314 funds. -/
def fundedSet (s : State) (n : Nat) : List (Fin 16) :=
  let r := (composingPlanes s).foldl (coverPlane s) (byHeat s (fundCount s n), [])
  r.1 ++ r.2

/-- The operating point a cluster should run at: op 0 while throttled (Table 16.3). -/
def wantedOp (s : State) (n : Fin 16) : Nat := if (s.pwr.sensors[n]).hot then 0 else s.pwr.planOp

/-- Cluster n learns whether it is funded: it powers up, powers down when idle, or changes its operating point. -/
def fundCluster (funded : List (Fin 16)) (s : State) (n : Fin 16) : State :=
  let c := s.clusters[n]
  let op := wantedOp s n
  s.modCluster n fun _ =>
    if funded.contains n then
      if c.power = .off then { c with granted := true, power := .rising, op := op, opNext := none, since := s.now }
      else if c.op = op then { c with granted := true, opNext := none }
      else { c with granted := true, opNext := some op, since := if c.opNext.isNone ∧ c.slice.isNone then s.now else c.since }
    else if c.slice.isSome then { c with granted := false }
    else { c with granted := false, power := .off, opNext := none }

/-- PWR_KCOMP and VCORE_HI follow the clusters (R310, R314). -/
def refreshClusters (s : State) : State :=
  let k := ((List.finRange 16).map fun n => if (s.clusters[n]).granted then opMhz (wantedOp s n) else 0).sum
  let hi := s.clusters.toList.any fun c => c.power != .off && (c.op == 3 || c.opNext == some 3)
  s.modPwr fun p => { p with kcomp := k, vcoreHi := hi }

/-- Fund the clusters of the plan; none while the trip condition is present (R318). -/
def fund (s : State) : State :=
  let funded := if s.pwr.tripped then [] else fundedSet s s.pwr.planN
  refreshClusters ((List.finRange 16).foldl (fundCluster funded) s)

/-- Whether floor and minimum grants fit under the cap (R312). -/
def underCap (s : State) (dem : List Nat) : Bool :=
  decide (s.pwr.floor + 1000 * s.fld Reg.pwrCap 0 21 16 + (minGrants dem).sum ≤ 1000 * s.fld Reg.pwrCap 0 7 0)

/-- A token bucket takes its rate (R311): its depth is 1 ms of it. -/
def Bucket.rate (b : Bucket) (perMs : Nat) : Bucket := { b with perMs := perMs, tokens := min b.tokens perMs }

/-- GRANT_ALLOCATION (R308 to R314). -/
def execGrantAllocation (t : Nat) (s : State) : Res := run t s fun s =>
  let dem := demands s
  let kt := 1000 * s.fld Reg.pwrCap 0 7 0 - s.pwr.floor - 1000 * s.fld Reg.pwrCap 0 21 16
  let g := grants kt dem (shares s)
  let plan := clusterPlan s (g.getD 0 0)
  let fits := underCap s dem
  let was := s.pwr.overCap
  let s := s.modPwr fun p =>
    { p with kitty := kt, gCmp := g.getD 0 0, gIns := g.getD 1 0, gDma := g.getD 2 0, gFab := g.getD 3 0,
             planOp := plan.1, planN := plan.2, overCap := !fits, kins := 1000 * min 8 (g.getD 1 0 / 600),
             dmaBucket := p.dmaBucket.rate (g.getD 2 0 * 20000), fabBucket := p.fabBucket.rate (g.getD 3 0 * 10000) }
  when (!fits && !was) (alarm .pwrOverCap noInst) (fund s)

/-- CLUSTER_POWER_ON_DONE (R314, Table 16.1): 25 µs after the decision the cluster accepts work. -/
def execClusterPowerOnDone (t : Nat) (cluster : Fin 16) (s : State) : Res := run t s fun s =>
  let c := s.clusters[cluster]
  if c.power = .rising ∧ c.since + 25 * us8 ≤ s.now then
    refreshClusters (s.modCluster cluster fun c => { c with power := .on, since := s.now })
  else s

/-- OPERATING_POINT_CHANGE_DONE (R314): a change between slices is complete after 10 µs. -/
def execOperatingPointChangeDone (t : Nat) (cluster : Fin 16) (s : State) : Res := run t s fun s =>
  let c := s.clusters[cluster]
  match c.opNext with
  | some op =>
    if c.slice.isNone ∧ c.power = .on ∧ c.since + 10 * us8 ≤ s.now then
      refreshClusters (s.modCluster cluster fun c => { c with op := op, opNext := none })
    else s
  | none => s

/-! ## Slices lost -/

/-- A cluster's slice is discarded and waits to be dealt again (R111, R317). -/
def dropSlice (n : Fin 16) (s : State) : State :=
  match (s.clusters[n]).slice with
  | none => s
  | some (p, i, ctx) =>
    let s := s.modJob (Fin.ofNat 64 ctx) fun j => { j with slices := j.slices.map fun x =>
      if x.plane = p ∧ x.idx = i ∧ !x.complete then { x with cluster := none } else x }
    s.modCluster n fun c => { c with slice := none, since := s.now }

/-- A cluster loses its slice and is excluded (R111). -/
def loseSlice (n : Fin 16) (s : State) : State :=
  alarm .ccFault n ((dropSlice n s).modCluster n fun c => { c with excl := true })

/-- Power off a cluster at once, its slice discarded. -/
def killCluster (n : Fin 16) (s : State) : State :=
  (dropSlice n s).modCluster n fun c => { c with power := .off, opNext := none, granted := false }

/-! ## Die sensors (R315 to R318) -/

/-- A conversion of one sensor with its trim (R315, R316, R429): in the measuring range −40 to 150 °C, or clamped. -/
def Sensor.convert (x : Sensor) (temp16 trim : Int) : Sensor :=
  if -640 ≤ temp16 ∧ temp16 ≤ 2400 then
    let code := max 0 (min 0xFFE (temp16 + 1024 + trim))
    { x with code := code.toNat, valid := true, ovr := false, last := code - 1024, clamped := 0 }
  else { x with code := 0xFFF, ovr := true, clamped := x.clamped + 1 }

/-- The flags of Table 16.3. -/
def Sensor.thresholds (x : Sensor) : Sensor :=
  let r := x.reading
  { x with hot := if 1840 ≤ r then true else if r < 1760 then false else x.hot,
           shut := if 2000 ≤ r then true else if r < 1760 then false else x.shut }

/-- The trip (R318). -/
def trip (s : State) : State :=
  let s := (List.finRange 16).foldl (fun s n => killCluster n s) s
  if s.modeIn [.service, .print] then holdCause 2 s
  else
    let s := latchCause 2 s
    if s.dev.mode = .standby then stopAndDisable s else s

/-- The trip condition after a conversion: it begins at 130 °C and ends when every sensor is below 115 °C (R57). -/
def tripNow (s : State) : Bool :=
  s.pwr.sensors.toList.any (fun x => x.valid && decide (2080 ≤ x.reading)) ||
    (s.pwr.tripped && s.pwr.sensors.toList.any fun x => x.valid && decide (1840 ≤ x.reading))

/-- The thresholds act on a new reading of sensor n (R317): shutdown, throttling, trip. -/
def actOnReading (n : Fin 16) (s : State) : State :=
  let x := s.pwr.sensors[n]
  let y := x.thresholds
  let s := s.modPwr fun p => { p with sensors := upd p.sensors n fun _ => y }
  let s := if y.shut && !x.shut then alarm .pwrCcHot n (killCluster n s) else s
  let s := if y.hot != x.hot then s.modCluster n fun c =>
      if c.granted ∧ c.power = .on then
        (if c.op = wantedOp s n then { c with opNext := none }
         else { c with opNext := some (wantedOp s n), since := if c.slice.isNone then s.now else c.since })
      else c else s
  let now := tripNow s
  let was := s.pwr.tripped
  let s := s.modPwr fun p => { p with tripped := now }
  refreshClusters (when (now && !was) trip s)

/-- The trim of a sensor (R429). -/
def sensorTrim (s : State) (n : Fin 16) : Int := ((s.calRec 7 n).bind fun r => r.data[0]?).getD 0

/-- SENSOR_CONVERSION (R315 to R318, R429). -/
def execSensorConversion (t : Nat) (sensor : Fin 16) (temp16 : Int) (s : State) : Res := run t s fun s =>
  let g := sensor.val / 4
  if s.pwr.discard.getLsbD g then s.modPwr fun p => { p with discard := p.discard &&& ~~~(1#4 <<< g) }
  else
    let x := (s.pwr.sensors[sensor]).convert temp16 (sensorTrim s sensor)
    let s := s.modPwr fun p =>
      { p with sensors := upd p.sensors sensor fun _ => x,
               discard := if x.ovr then p.discard ||| (1#4 <<< g) else p.discard }
    let s := if x.ovr then s.setFld Reg.pwrTs sensor 16 16 1 else s
    if x.valid then actOnReading sensor s else s

end Sys2Proof.Machine
end

