-- ==== Sys2Proof/Machine/Composing.lean ====
section
/-! DEFINITION. Composing (chapters 05, 06 and 16): binding of item slots, the dealing of slices and their completion or
loss, the code engines, the supported speeds of R112 and R132, and KEY_INSTALL. -/

namespace Sys2Proof.Machine

/-! ## Field errors (R94, R95, R130) -/

/-- FIELD_ERROR of a field of an item; reason 7 counts in COD_FAIL too. -/
def fieldError (ctx : Fin 64) (seq field reason sub : Nat) (s : State) : State :=
  let s := diag .fieldError ctx seq field ((reason + 256 * sub : Nat) : Int) (s.count Reg.cmpFieldErr)
  if reason = 7 then (s.count Reg.codFail).modCod fun c => { c with lastFail := (ctx, sub, field) } else s

/-- FIELD_DUP for each ignored value: one whose field an earlier value named (R94). -/
def dupEvents (ctx : Fin 64) (seq : Nat) : List Nat → List (Nat × Bytes) → State → State
  | _, [], s => s
  | seen, v :: rest, s =>
    dupEvents ctx seq (v.1 :: seen) rest (if seen.contains v.1 then diag .fieldDup ctx seq v.1 0 s else s)

/-! ## Engines (R117, R131, R132) -/

/-- MAC definitions that a field's generator uses. -/
def fieldMacs (pk : Package) (f : FieldRec) : List MacRec :=
  if (f.type = 4 ∨ f.type = 5) ∧ f.source = 2 then
    match pk.gens.find? (fun g => g.gen == u16 f.param 10) with
    | some g => (g.segs.filter fun x => x.kind == 5).filterMap fun x => pk.macs.find? fun m => m.mac == x.arg
    | none => []
  else []

/-- The symbol encoder that takes new work: the lowest-numbered that is not excluded; none when all four are. -/
def encoderFor (excl : BitVec 5) (other : Nat) : Option Nat :=
  (List.range 4).find? fun n => !excl.getLsbD n && n != other

/-- Whether an engine that a field needs is excluded, so that it fails with sub-reason 8 (R131). -/
def engineMissing (s : State) (pk : Package) (f : FieldRec) : Bool :=
  (f.type == 4 && (encoderFor s.cod.excl 4).isNone) || (!(fieldMacs pk f).isEmpty && s.cod.excl.getLsbD 4)

/-- Requests that building a field makes (R131). -/
def fieldRequests (s : State) (ctx : Fin 64) (seq i : Nat) (pk : Package) (f : FieldRec) : List EngineReq :=
  let req (e : Nat) : EngineReq := { engine := e, ctx := ctx, seq := seq, field := i, since := s.now, retried := false }
  (if (fieldMacs pk f).isEmpty then [] else [req 4]) ++
    (if f.type = 4 then ((encoderFor s.cod.excl 4).map req).toList else [])

/-- Encoder units of what a field built (R132). -/
def unitsOf (f : FieldRec) : Rendered → Nat
  | .matrix rows q => symbolUnits f rows q
  | _ => 0

/-- Tag units of a MAC definition for an item: ceil((message length + 1) ÷ 64). -/
def tagUnits (c : BuildCtx) (m : MacRec) : Nat := match plainGen c m.gen with
  | .inl _ => 0
  | .inr msg => ceilDiv (msg.length + 1) 64

/-! ## Binding (R80, R109, R129) -/

/-- What the fields of an item become: the values shown, whether a field error makes the item VOID. -/
structure BuiltItem where
  values : List (Nat × Rendered)
  isVoid : Bool
  deriving DecidableEq, Repr

/-- Build one field and raise what it raises. -/
def buildOne (ctx : Fin 64) (c : BuildCtx) (t : StructTables) (acc : BuiltItem × State) (x : FieldRec × Nat) : BuiltItem × State :=
  let (b, s) := acc
  let f := x.1; let i := x.2
  let built := if engineMissing s c.pk f then Built.failed 7 8 else buildField c t i f
  match built with
  | .absent => (b, s)
  | .failed reason sub => ({ b with isVoid := true }, fieldError ctx c.seq i reason sub s)
  | .shown r =>
    let s := match textNotes c.pk f r with
      | n :: _ => fieldError ctx c.seq i n 0 s
      | [] => s
    let units := unitsOf f r
    let s := s.modCod fun k => { k with requests := k.requests ++ fieldRequests s ctx c.seq i c.pk f,
                                        syms := if units = 0 then k.syms else { k.syms with events := (s.now, units) :: k.syms.events } }
    ({ b with values := b.values ++ [(i, r)] }, s)

/-- Build every unsealed field that an item's lane carries, in field order. -/
def buildItem (ctx : Fin 64) (c : BuildCtx) (t : StructTables) (lane : Nat) (s : State) : BuiltItem × State :=
  let fields := (c.pk.fields.zipIdx).filter fun x => fieldOnLane x.1 lane && x.1.type != 6
  let macs := (fields.flatMap fun x => fieldMacs c.pk x.1).eraseDups
  let units := (macs.map (tagUnits c)).sum
  let s := s.modCod fun k => { k with tags := if units = 0 then k.tags else { k.tags with events := (s.now, units) :: k.tags.events } }
  fields.foldl (buildOne ctx c t) ({ values := [], isVoid := false }, s)

/-- The sealed part of a binding (R408, R410): patches shown, and whether the item ends VOID. -/
def bindSealedFields (ctx : Fin 64) (t : StructTables) (pk : Package) (rpt lane : Nat) (r : Record) (s : State) :
    List (Nat × Rendered) × Bool × Option SealedBind × State :=
  let fields := sealedOnLane pk lane
  if fields.isEmpty then ([], false, none, s)
  else match bindSealed ctx t pk rpt lane r.values s with
    | (.inl sub, s) => ([], true, none, fields.foldl (fun s f => fieldError ctx r.seq f.1 8 sub s) s)
    | (.inr (b, l), s) =>
      (l, b.test, some b, if b.test then fields.foldl (fun s f => fieldError ctx r.seq f.1 8 8 s) s else s)

/-- Times a lane has bound a record in the job. -/
def laneIndexOf (j : Job) (lane : Nat) : Nat := ((j.laneBound.find? fun x => x.1 == lane).map (·.2)).getD 0

/-- A record is bound to a slot (R81, R109, R121, R129, R408, R453). -/
def bindRecord (ctx : Fin 64) (t : StructTables) (pk : Package) (slotNo : Nat) (r : Record) (s : State) : State :=
  let n := max 1 pk.lanes.length
  let rpt := slotNo / n
  let lane := ((pk.lanes[slotNo % n]?).map (·.lane)).getD 0
  let j := s.jobs[ctx]
  let c : BuildCtx := { pk := pk, seq := r.seq, laneIndex := laneIndexOf j lane, values := r.values, key := slotKey s }
  let (built, s) := if r.skip then ({ values := [], isVoid := true }, s)
    else buildItem ctx c t lane (dupEvents ctx r.seq [] r.values s)
  let (patches, sealedVoid, sb, s) := bindSealedFields ctx t pk rpt lane r s
  let item : Item :=
    { seq := r.seq, rpt := rpt, slotNo := slotNo, lane := lane, skip := r.skip,
      values := if r.skip then [] else built.values ++ patches,
      codes := if built.isVoid || sealedVoid then codeBit 9 else 0, planes := 0, anyFired := false, verdict := none,
      deadline := none, ownFinal := none, lacking := false, sealedBind := sb, outcome := none }
  let s := s.modJob ctx fun j =>
    { j with items := j.items ++ [item], queue := j.queue.filter fun q => q.seq != r.seq,
             laneBound := assocSet lane (c.laneIndex + 1) j.laneBound, nextSlot := slotNo + 1, lastRpt := rpt }
  let s := if isAuthority s ctx || s.xlk.role == .dummy then backlogEpisode (reserveEntry ctx r.seq s) else s
  checkTxn { s with cmp := { s.cmp with binds := { s.cmp.binds with events := (s.now, 1) :: s.cmp.binds.events } } }

/-- A slot is left blank (R80). -/
def blankSlot (ctx : Fin 64) (pk : Package) (slotNo : Nat) (s : State) : State :=
  let n := max 1 pk.lanes.length
  let s := s.modJob ctx fun j => { j with nextSlot := slotNo + 1 }
  if pk.policy % 2 = 1 then holdCause 3 s
  else diag .slotEmpty ctx (slotNo / n : Nat) (((pk.lanes[slotNo % n]?).map (·.lane)).getD 0 : Nat) 0 s

/-- A slot whose record this device lacks: the item composes nothing (R365). -/
def lackRecord (ctx : Fin 64) (pk : Package) (slotNo seq : Nat) (s : State) : State :=
  let n := max 1 pk.lanes.length
  let item : Item :=
    { seq := seq, rpt := slotNo / n, slotNo := slotNo, lane := ((pk.lanes[slotNo % n]?).map (·.lane)).getD 0, skip := false,
      values := [], codes := 0, planes := 0, anyFired := false, verdict := none, deadline := none, ownFinal := none,
      lacking := true, sealedBind := none, outcome := none }
  s.modJob ctx fun j => { j with items := j.items ++ [item], nextSlot := slotNo + 1, lastRpt := slotNo / n }

/-- Whether the job's LAST has been bound: the slots after it stay blank and are no items (R82). -/
def lastBound (j : Job) : Bool := match j.castOff with
  | some last => decide (last < j.nextSeq) && !(j.queue.any fun r => decide (r.seq ≤ last))
  | none => false

/-- The authority's decision for the next slot: the next queued record, or a blank (R109, R453). -/
def decideSlot (ctx : Fin 64) (t : StructTables) (pk : Package) (slotNo : Nat) (s : State) : BindEntry × State :=
  let n := max 1 pk.lanes.length
  let lane := ((pk.lanes[slotNo % n]?).map (·.lane)).getD 0
  match (s.jobs[ctx]).queue, s.backlogIsFull with
  | r :: _, false => ({ lane := lane, blank := false, seq := r.seq }, bindRecord ctx t pk slotNo r s)
  | _, _ => ({ lane := lane, blank := true, seq := 0 }, blankSlot ctx pk slotNo s)

/-- The authority binds slots from the next one up to `upTo`, while the job runs and LAST is not bound. -/
def decideSlots (ctx : Fin 64) (t : StructTables) (pk : Package) (upTo : Nat) : Nat → State → List BindEntry × State
  | 0, s => ([], s)
  | fuel + 1, s =>
    let j := s.jobs[ctx]
    if upTo ≤ j.nextSlot ∨ lastBound j ∨ !j.st.active then ([], s)
    else
      let (e, s) := decideSlot ctx t pk j.nextSlot s
      let (l, s) := decideSlots ctx t pk upTo fuel s
      (e :: l, s)

/-- Another device's decision for the next slot is applied (R365). -/
def applyBinding (ctx : Fin 64) (t : StructTables) (pk : Package) (slotNo : Nat) (b : Option Nat) (s : State) : State :=
  match b with
  | none => blankSlot ctx pk slotNo s
  | some seq => match (s.jobs[ctx]).queue.find? (fun r => r.seq == seq) with
    | some r => bindRecord ctx t pk slotNo r s
    | none => lackRecord ctx pk slotNo seq s

/-- The decision received for a slot number. -/
def bindingFor (j : Job) (n slotNo : Nat) : Option (Option Nat) :=
  (j.bindings.find? fun b => b.1 == slotNo % n && b.2.1 == slotNo / n).map (·.2.2)

/-- Decisions received are applied to the slots below `upTo`. -/
def applySlots (ctx : Fin 64) (t : StructTables) (pk : Package) (upTo : Nat) : Nat → State → State
  | 0, s => s
  | fuel + 1, s =>
    let j := s.jobs[ctx]
    let n := max 1 pk.lanes.length
    if upTo ≤ j.nextSlot ∨ lastBound j ∨ !j.st.active then s
    else match bindingFor j n j.nextSlot with
      | some b => applySlots ctx t pk upTo fuel (applyBinding ctx t pk j.nextSlot b
          (s.modJob ctx fun j => { j with bindings := j.bindings.filter fun x => !(x.1 == j.nextSlot % n && x.2.1 == j.nextSlot / n) }))
      | none => s

/-- Every peer that holds a context, dummies included. -/
def allHolding (s : State) (ctx : Fin 64) : List Nat :=
  (s.xlk.peers.filter fun p => s.fld Reg.xlkPeer (p.1 / 32) (p.1 % 32) (p.1 % 32) == 1 && p.2.2.1.getD ctx 0 != 0).map (·.1)

/-- BIND frames of up to 128 entries, from a first slot on. -/
def bindFrames (ctx n first : Nat) : Nat → List BindEntry → List XlkTx
  | 0, _ => []
  | _, [] => []
  | fuel + 1, l => .bind ctx (first % n) (first / n) (l.take 128) :: bindFrames ctx n (first + 128) fuel (l.drop 128)

/-- The authority binds slots up to `upTo` and sends the decisions (R365). -/
def bindUpTo (ctx : Fin 64) (t : StructTables) (pk : Package) (upTo : Nat) (s : State) : State :=
  let first := (s.jobs[ctx]).nextSlot
  let (l, s) := decideSlots ctx t pk upTo (upTo - first) s
  let fs := bindFrames ctx (max 1 pk.lanes.length) first l.length l
  (allHolding s ctx).foldl (fun s a => fs.foldl (fun s f => sendXlk a f s) s) s

/-! ## Slices (R107, R108, R313) -/

/-- Slots whose first course lies below course `b`. -/
def slotsBelow (pk : Package) (b : Nat) : Nat :=
  let q := coursePitch pk
  if b = 0 then 0 else max 1 pk.lanes.length * ((b - 1) * q.num / (max 1 pk.rpt * q.den) + 1)

/-- Runway depth of a plane (R34). -/
def runwayDepth (s : State) (p : Nat) : Nat := match s.str.tables with
  | some t => ((t.hbm.find? fun r => r.kind == 4 && r.plane == p).map (·.depth)).getD 0
  | none => 0

/-- The next slice of a job on a plane: one that waits to be dealt again, or the first not yet dealt whose courses still
count. -/
def nextSlice (j : Job) (p : Fin 8) : Nat × Bool :=
  match j.slices.find? (fun x => x.plane == p.val && x.cluster.isNone && !x.complete) with
  | some x => (x.idx, true)
  | none => (max (j.planes[p]).nextSlice ((j.planes[p]).screened / sliceCourses), false)

/-- Whether every item that a slice touches is bound, or will be by its dealing (R108, R109, R110). -/
def slotsReady (s : State) (ctx : Fin 64) (pk : Package) (p i : Nat) : Bool :=
  let j := s.jobs[ctx]
  let upTo := slotsBelow pk ((i + 1) * sliceCourses)
  let n := max 1 pk.lanes.length
  decide (upTo ≤ j.nextSlot) || lastBound j ||
    (p == leadPlane pk && (isAuthority s ctx ||
      (List.range (upTo - j.nextSlot)).all fun k => (bindingFor j n (j.nextSlot + k)).isSome))

/-- A slice is eligible (R108): within DEPTH courses of the take, within the job, its items bound. -/
def eligible (s : State) (ctx : Fin 64) (pk : Package) (p : Fin 8) (i : Nat) : Bool :=
  let j := s.jobs[ctx]
  decide (i * sliceCourses + (sliceCourses - 1) < (j.planes[p]).taken + runwayDepth s p) &&
    courseInJob j (i * sliceCourses) && slotsReady s ctx pk p i

/-- A slice that could be dealt: its deadline position, plane, context, number, and whether it is dealt again. -/
structure Deal where
  deadline : Int
  plane : Fin 8
  ctx : Fin 64
  idx : Nat
  again : Bool
  deriving DecidableEq, Repr

/-- The deadline position of a slice (R313). -/
def deadlineOf (s : State) (t : StructTables) (j : Job) (pk : Package) (p : Fin 8) (i : Nat) : Int :=
  (s.pac.gears[p]).masterFor ((coursePos s j pk p (i * sliceCourses) + rowOffset t p 0) * 65536)

/-- The slices that could be dealt, by plane and then by context. -/
def deals (s : State) (t : StructTables) : List Deal :=
  (List.finRange 8).flatMap fun p => (List.finRange 64).filterMap fun (c : Fin 64) =>
    let j := s.jobs[c]
    match j.st == .armed || j.st == .printing, j.pkg with
    | true, some pk =>
      let (i, again) := nextSlice j p
      if pk.planes.testBit p && eligible s c pk p i then
        some { deadline := deadlineOf s t j pk p i, plane := p, ctx := c, idx := i, again := again }
      else none
    | _, _ => none

/-- Deals by deadline position; ties keep plane and context order. -/
def byDeadline (l : List Deal) : List Deal := sortBy (fun a b => decide (a.deadline ≤ b.deadline)) l

/-- Whether a cluster can be dealt a slice now. -/
def ccIdle (s : State) (n : Fin 16) : Bool :=
  let c := s.clusters[n]
  c.granted && c.power == .on && c.slice.isNone && c.opNext.isNone && !c.excl && !(s.pwr.sensors[n]).shut

/-- The idle funded cluster that takes a slice of a plane: the coolest unthrottled one, else the coolest (R313). -/
def clusterFor (s : State) (p : Nat) : Option (Fin 16) :=
  let able := (List.finRange 16).filter fun n => ccIdle s n && (clusterMask s n).testBit p
  match byHeat s (able.filter fun n => !(s.pwr.sensors[n]).hot) with
  | n :: _ => some n
  | [] => (byHeat s able).head?

/-- The binding that dealing a slice brings about on the lead plane (R109). -/
def bindForSlice (t : StructTables) (pk : Package) (d : Deal) (s : State) : State :=
  let upTo := slotsBelow pk ((d.idx + 1) * sliceCourses)
  if d.again ∨ d.plane.val ≠ leadPlane pk then s
  else if isAuthority s d.ctx then bindUpTo d.ctx t pk upTo s
  else applySlots d.ctx t pk upTo (upTo - (s.jobs[d.ctx]).nextSlot) s

/-- A slice is dealt to a cluster. -/
def dealTo (n : Fin 16) (d : Deal) (s : State) : State :=
  let rec_ : Slice := { plane := d.plane, idx := d.idx, cluster := some n, dealtAt := s.now, complete := false }
  let s := s.modJob d.ctx fun j =>
    { j with slices := (j.slices.filter fun x => !(x.plane == d.plane.val && x.idx == d.idx)) ++ [rec_],
             planes := if d.again then j.planes else upd j.planes d.plane fun jp => { jp with nextSlice := d.idx + 1 } }
  s.modCluster n fun c => { c with slice := some (d.plane, d.idx, d.ctx), dealtAt := s.now }

/-- A non-authority's lead-plane slice that waits only for a binding sends BIND_REQ once for a slot (R365). -/
def askBindings (s : State) : State :=
  (List.finRange 64).foldl (fun s c =>
    let j := s.jobs[c]
    match j.st == .armed || j.st == .printing, j.pkg, otherAuthority s c with
    | true, some pk, some a =>
      let n := max 1 pk.lanes.length
      let p := Fin.ofNat 8 (leadPlane pk)
      let (i, _) := nextSlice j p
      let at_ := (j.nextSlot % n, j.nextSlot / n)
      if i * sliceCourses + (sliceCourses - 1) < (j.planes[p]).taken + runwayDepth s p ∧ courseInJob j (i * sliceCourses) ∧
          !slotsReady s c pk p i ∧ (bindingFor j n j.nextSlot).isNone ∧ j.asked ≠ some at_ then
        sendXlk a (.bindReq c at_.1 at_.2) (s.modJob c fun j => { j with asked := some at_ })
      else s
    | _, _, _ => s) s

/-- SLICE_DEAL (R107 to R110, R313): the first slice in deadline order that an idle funded cluster can take. -/
def execSliceDeal (t : Nat) (s : State) : Res := ringCmd t s fun s =>
  match s.str.tables with
  | none => s
  | some tb =>
    match (byDeadline (deals s tb)).find? (fun d => (clusterFor s d.plane).isSome) with
    | none => askBindings s
    | some d => match clusterFor s d.plane, (s.jobs[d.ctx]).pkg with
      | some n, some pk =>
        let s := bindForSlice tb pk d s
        if (s.jobs[d.ctx]).st.active then dealTo n d s else s
      | _, _ => s

/-- Placement fragments of a slice (chapter 05): parts of fields of items on the plane within its courses. -/
def fragments (j : Job) (pk : Package) (p i : Nat) : Nat :=
  let a : Int := (i * sliceCourses : Nat); let b : Int := ((i + 1) * sliceCourses : Nat)
  (j.items.flatMap fun it => it.values.filter fun v => match pk.fields[v.1]? with
    | some f =>
      let k0 := nearestStep (coursePitch pk) (((it.rpt * pk.rpt : Nat) : Int) + f.ay)
      (f.planes.testBit p || f.ko.testBit p) && decide (k0 < b ∧ a < k0 + f.boxH)
    | none => false).length

/-- A cluster that is no longer funded powers off once it is idle; another starts the change that it owes (R314). -/
def clusterFreed (n : Fin 16) (s : State) : State :=
  refreshClusters (s.modCluster n fun c =>
    let c := { c with slice := none, since := s.now }
    if c.granted then c else { c with power := .off, opNext := none })

/-- SLICE_COMPLETE (R83, R107, R131): the slice's courses are composed, and the engines have delivered for its items. -/
def execSliceComplete (t : Nat) (cluster : Fin 16) (cycles : Nat) (s : State) : Res := ringCmd t s fun s =>
  match (s.clusters[cluster]).slice with
  | none => s
  | some (p, i, c) =>
    let ctx := Fin.ofNat 64 c
    let j := s.jobs[ctx]
    let frags := (j.pkg.map fun pk => fragments j pk p i).getD 0
    let s := s.modJob ctx fun j => { j with slices := j.slices.map fun x =>
      if x.plane = p ∧ x.idx = i then { x with complete := true } else x }
    let s := { s with cmp := { s.cmp with cycles := { s.cmp.cycles with events := (s.now, cycles) :: s.cmp.cycles.events },
                                          frags := { s.cmp.frags with events := (s.now, frags) :: s.cmp.frags.events } } }
    let s := match j.pkg with
      | some pk => s.modCod fun k => { k with requests := k.requests.filter fun r =>
          !(r.ctx == c && (j.items.any fun it => it.seq == r.seq && decide (firstCourse pk it.rpt < (i + 1) * sliceCourses))) }
      | none => s
    drainCheck ctx (clusterFreed cluster s)

/-- SLICE_TIMEOUT (R111): a slice that has run 4 ms is lost and its cluster excluded. -/
def execSliceTimeout (t : Nat) (cluster : Fin 16) (s : State) : Res := ringCmd t s fun s =>
  let c := s.clusters[cluster]
  if c.slice.isSome ∧ c.dealtAt + 4 * ms8 ≤ s.now then loseSlice cluster s else s

/-! ## Engine failures (R131) -/

/-- A field whose symbol or tag cannot be built is left out and its item ends VOID (R130). -/
def failField (ctx : Fin 64) (seq field sub : Nat) (s : State) : State :=
  let s := s.modJob ctx fun j => { j with items := j.items.map fun it =>
    if it.seq = seq then { it with values := it.values.filter fun v => v.1 != field, codes := it.codes ||| codeBit 9 } else it }
  fieldError ctx seq field 7 sub s

/-- The oldest request of an engine that is 2 ms old. -/
def lateRequest (s : State) (e : Nat) : Option EngineReq :=
  s.cod.requests.find? fun r => r.engine == e && decide (r.since + 2 * ms8 ≤ s.now)

/-- ENGINE_REQUEST_TIMEOUT (R131). -/
def execEngineRequestTimeout (t : Nat) (engine : Fin 5) (s : State) : Res := ringCmd t s fun s =>
  match lateRequest s engine with
  | none => s
  | some r =>
    let s := s.modCod fun k => { k with requests := k.requests.filter fun x => x != r }
    let ctx := Fin.ofNat 64 r.ctx
    if r.retried then failField ctx r.seq r.field 8 s
    else
      let next := if engine.val = 4 then some 4 else encoderFor s.cod.excl engine
      let s := alarm .codFault engine (s.modCod fun k => { k with excl := k.excl ||| (1#5 <<< engine.val) })
      match next with
      | some e => s.modCod fun k => { k with requests := k.requests ++ [{ r with engine := e, since := s.now, retried := true }] }
      | none => failField ctx r.seq r.field 8 s

/-! ## Supported speeds (R112, R113, R132) -/

/-- A window after 16 ms have gone by: older events and positions leave, the present position joins. -/
def Window.tick (w : Window) (now : Nat) (p : Int) : Window :=
  { events := keep16 now w.events, pos := keep16 now ((now, p) :: w.pos) }

/-- Sum of a window's events. -/
def Window.sum (w : Window) : Nat := (w.events.map (·.2)).sum

/-- Events a second over a window of 16 ms. -/
def Window.rate (w : Window) : Nat := w.sum * 125 / 2

/-- Courses composed ahead of the take of a job on a plane. -/
def composedAhead (j : Job) (p : Fin 8) : Nat :=
  let jp := j.planes[p]
  let i0 := jp.screened / sliceCourses
  let run := ((List.range (j.slices.length + 1)).takeWhile fun n =>
    j.slices.any fun x => x.plane == p.val && x.complete && x.idx == i0 + n).length
  (if run = 0 then jp.screened else (i0 + run) * sliceCourses) - jp.taken

/-- Whether some plane of an ARMED or PRINTING job holds fewer than DEPTH ÷ 4 composed courses (R113). -/
def runwayLow (s : State) : Bool :=
  s.jobs.toList.any fun j => (j.st == .armed || j.st == .printing) && j.pkg.any fun pk =>
    (jobPlanes pk).any fun p => decide (4 * composedAhead j p < runwayDepth s p)

/-- VCOMP_UPDATE (R112, R113). -/
def execVcompUpdate (t : Nat) (s : State) : Res := ringCmd t s fun s =>
  let w := s.cmp.cycles.tick s.now s.pac.est.p
  let m := windowMove w.pos s.pac.est.p
  let y := w.sum
  let base := windowSpeed s.anyActive m s.cmp.vbase (if y = 0 then capSpeed else 900 * s.pwr.kcomp * m / y)
  let low := runwayLow s
  let cap95 := 95 * (webSpeed s).toNat / 100
  let fr := s.cmp.frags.tick s.now s.pac.est.p
  let bd := s.cmp.binds.tick s.now s.pac.est.p
  { s with cmp := { s.cmp with cycles := w, frags := fr, binds := bd, vbase := base, vcomp := if low then min base cap95 else base,
                               runwayLow := low, fragRate := fr.rate, bindRate := bd.rate,
                               demand := if !s.anyActive then none else if 1000000 ≤ m then some (y, m) else s.cmp.demand } }

/-- VCODE_UPDATE (R132). -/
def execVcodeUpdate (t : Nat) (s : State) : Res := ringCmd t s fun s =>
  let u := s.cod.syms.tick s.now s.pac.est.p
  let g := s.cod.tags.tick s.now s.pac.est.p
  let m := windowMove u.pos s.pac.est.p
  let term (rate n : Nat) : Nat := if n = 0 then capSpeed else rate * m / n
  s.modCod fun k => { k with syms := u, tags := g, symRate := u.rate, tagRate := g.rate,
                             vcode := windowSpeed s.anyActive m k.vcode (min (term 180 u.sum) (term 360 g.sum)) }

/-! ## KEY_INSTALL (R127, R128) -/

/-- Whether a job in LOADED, ARMED, PRINTING or DRAINING names a slot. -/
def slotNamed (s : State) (slot : Nat) : Bool :=
  s.jobs.toList.any fun j => (j.st == .loaded || j.st.active) && j.pkg.any fun pk => pk.macs.any fun m => m.slot == slot

/-- Refusals of KEY_INSTALL; after a failed wipe every slot stays empty (log entry 44). -/
def keyConds (s : State) (slot kind : Nat) : List (Bool × Status) :=
  [(decide (31 < slot ∨ 3 < kind), .range),
   (!regionFinal s 2 || lifeCycle s == 3 || slotNamed s slot || s.mem.wipeFail, .badState)]

/-- The slot is filled or erased, and the key-slot table records it. -/
def installKey (slot kind context : Nat) (label : Bytes) (s : State) : State :=
  let k := if kind = 0 then KeySlot.empty else filledSlot s kind context label
  let others := s.cod.table.filter fun e => e.1 != slot
  complete .supervisor .ok k.check (s.modCod fun c =>
    { c with slots := upd c.slots (Fin.ofNat 32 slot) fun _ => k,
             table := if kind = 0 then others else others ++ [(slot, kind, context, label)] })

/-- KEY_INSTALL (R51, R127, R328): it waits for the TRNG and for a wipe of the secure SRAM. -/
def execKeyInstall (t slot kind context : Nat) (label : Bytes) (s : State) : Res := ringCmd t s <| sensitive fun s =>
  admitCmd .supervisor (keyConds s slot kind) (fun s =>
    if s.sec.trngReady && !s.mem.wiping then installKey slot kind context label s
    else s.modSec fun x => { x with entropyWait := some (.key slot kind context label, s.now) }) s

end Sys2Proof.Machine
end

