-- ==== Sys2Proof/Machine/Screening.lean ====
section
/-! DEFINITION. Screening of courses (chapter 07), the nozzle-health map and its generations, and the fire-supported
speed (chapter 08). -/

namespace Sys2Proof.Machine

/-! ## What the pipeline reads -/

/-- Width of the stitch zone above a head: the number of its weights. -/
def zoneWidth (t : StructTables) (h : HeadRec) : Nat := ((t.stitches[h.stitchR]?).getD []).length

/-- Calibrated stitch weights of the zone above head `a`, applied where their number is the table's (R427). -/
def weightsInForce (s : State) (t : StructTables) (a : Nat) : Option (List Nat) :=
  match t.heads.find? (fun h => h.head == a), s.calRec 2 a with
  | some h, some r => if h.stitchR ≠ 0xFFFF ∧ r.data.length = zoneWidth t h then some (r.data.map Int.toNat) else none
  | _, _ => none

/-- The density factor of a nozzle (R138, R427): 128 where no calibrated record is applied. -/
def densityOf (s : State) (t : StructTables) (h n : Nat) : Nat :=
  match t.heads.find? (fun x => x.head == h), s.calRec 3 h with
  | some x, some r => if r.data.length = x.nozzles then (r.data.getD n 128).toNat else 128
  | _, _ => 128

/-- A head's fire-rate ceiling: MAX_FIRE, or the figure of its identity record; none while it is not known. -/
def headCeiling (s : State) (t : StructTables) (h : Nat) : Option Nat :=
  (t.heads.find? fun x => x.head == h).bind fun x =>
    if x.maxFire ≠ 0 then some x.maxFire else ((s.head h).ident).map (·.maxFire)

/-- What the pipeline of a plane reads under some health codes and methods. -/
def ctxUnder (s : State) (t : StructTables) (p : Fin 8) (health : List (Nat × Nat × Nat))
    (methods : List (Nat × Method × List Nat)) : ScreenCtx :=
  let x := s.planes[p]
  { t := t, p := p, health := health, methods := methods, minRate := x.minRate, takeover := x.takeover, vol := x.vol,
    density := densityOf s t, weights := weightsInForce s t, ceiling := headCeiling s t }

/-- What the pipeline of a plane reads now: its latest generation. -/
def ctxOf (s : State) (t : StructTables) (p : Fin 8) : ScreenCtx :=
  ctxUnder s t p (s.planes[p]).health (s.planes[p]).methods

/-! ## COURSE_SCREEN -/

/-- Whether every course of a job on a plane has passed the pipeline. -/
def screenedOut (j : Job) (p : Fin 8) : Bool := match lastCourseEnd j with
  | some e => decide (e ≤ (j.planes[p]).screened)
  | none => false

/-- The job whose courses a plane screens: of the running jobs on it that are not screened out, the one whose cast-on
comes first (R77). -/
def screenJob (s : State) (p : Fin 8) : Option (Fin 64) :=
  (sortBy (fun (a b : Fin 64) => decide ((s.jobs[a]).castOn ≤ (s.jobs[b]).castOn))
    ((List.finRange 64).filter fun (c : Fin 64) => (s.jobs[c]).st.active && ((s.jobs[c]).pkg.any fun pk => pk.planes.testBit p) &&
      !screenedOut (s.jobs[c]) p)).head?

/-- Whether the next course of a job on a plane is composed and has a place in the runway. -/
def screenReady (s : State) (p : Fin 8) (j : Job) (pk : Package) : Bool :=
  let k := (j.planes[p]).screened
  !s.isDisabled 0x04 p && courseInJob j k && (j.slices.any fun x => x.plane == p.val && x.complete && x.idx == k / sliceCourses) &&
    !(j.items.any fun it => it.lacking && itemHasCourse pk it k) &&
    decide ((s.planes[p]).runway.length < runwayDepth s p)

/-- The items that cover a wale at a course, by sequence number. -/
def coveringItems (pk : Package) (pr : PlaneRec) (items : List Item) (w k : Nat) : List Nat :=
  (items.filter fun it => itemCovers pk pr it w k).map (·.seq)

/-- An undarned wale at a course (R162): its items are flagged, it is counted, and its nozzle is named once per
generation. -/
def noteUndarned (ctx : Fin 64) (p : Fin 8) (c : ScreenCtx) (k w : Nat) (s : State) : State :=
  let s := flagWales ctx p k 4 [w] (s.count Reg.nzmUndarned p)
  let n := (c.choose (c.row w k) w k).getD (0xFFFF, 0xFFFF)
  let key := (n.1, n.2, w)
  if (s.planes[p]).undarned.contains key then s
  else diag .nozzleUndarned p w n.1 n.2 (s.modPlane p fun x => { x with undarned := x.undarned ++ [key] })

/-- One course is screened, darned and written to the runway. -/
def screenNext (tb : StructTables) (ctx : Fin 64) (p : Fin 8) (pk : Package) (pr : PlaneRec) (s : State) : State :=
  let j := s.jobs[ctx]
  let k := (j.planes[p]).screened
  let c := ctxOf s tb p
  let x := s.planes[p]
  let cur := if x.skipNext then [] else (j.planes[p]).edCur
  let here := itemsAt pk j.items k
  let r := screenCourse c (screenOf pk p pr.bits) k (composeLine pk pr p j.items k) cur
    (fun a b => coveringItems pk pr here a k == coveringItems pk pr here b k)
  let s := s.modJob ctx fun j =>
    { j with planes := upd j.planes p fun jp => { jp with screened := k + 1, edCur := r.errs },
             slices := j.slices.filter fun y => !(y.plane == p.val && y.complete && decide ((y.idx + 1) * sliceCourses ≤ k + 1)) }
  let s := s.modPlane p fun x =>
    { x with runway := x.runway ++ [{ ctx := ctx, course := k, gen := x.genNo, cells := r.cells, ed := r.errs }],
             sinceInstall := x.sinceInstall.map (· + 1), screenCtx := some ctx, skipNext := false }
  let s := r.undarned.foldl (fun s w => noteUndarned ctx p c k w s) s
  drainCheck ctx (hashCourse ctx pk p k (r.cells.map (·.level)) s)

/-! ## The health map (R151, R152, R163) -/

/-- Replace the map path. -/
def State.modNzm (s : State) (f : Nzm → Nzm) : State := { s with nzm := f s.nzm }

/-- A bit of NZM_UPD_CTRL is set: 16 OVF, 17 ERR. -/
def nzmSet (bit : Nat) (s : State) : State := s.setFld Reg.nzmUpdCtrl 0 bit bit 1

/-- The modes in which the host changes the map. -/
def nzmOpen (s : State) : Bool := s.modeIn [.standby, .service, .print]

/-- An entry in NZM_UPD_ENTRY format. -/
def mapEntryOf (w : Word) : MapEntry := { head := bitsOf w 22 13, nozzle := bitsOf w 12 0, code := bitsOf w 25 24, host := true }

/-- The word of an entry. -/
def mapWord (e : MapEntry) : Word := BitVec.ofNat 32 (e.code * 2 ^ 24 + e.head * 2 ^ 13 + e.nozzle)

/-- NZM_UPD_ENTRY (R163, Table 8.1). -/
def execNzmUpdEntry (t : Nat) (value : Word) (s : State) : Res := ringCmd t s fun s =>
  let e := mapEntryOf value
  if !nzmOpen s || e.code == 3 then nzmSet 17 s
  else if 256 ≤ s.nzm.staging.length then nzmSet 16 s
  else s.modNzm fun n => { n with staging := n.staging ++ [e] }

/-- An entry names a head of the structure and one of its nozzles. -/
def entryValid (s : State) (e : MapEntry) : Bool := match s.str.tables with
  | some t => t.heads.any fun h => h.head == e.head && decide (e.nozzle < h.nozzles)
  | none => false

/-- Room of the pending list. -/
def pendRoom : Nat := 16384

/-- Entries that inspection holds back move to the pending list as far as it has room (R163). -/
def movePending (s : State) : State :=
  let k := pendRoom - s.nzm.pend.length
  { s with nzm := { s.nzm with pend := s.nzm.pend ++ s.ins.held.take k }, ins := { s.ins with held := s.ins.held.drop k } }

/-- A COMMIT that finds room (R163, R166). -/
def commitEntries (good bad : List MapEntry) (s : State) : State :=
  let force := good.isEmpty && bad.isEmpty && s.nzm.pend.isEmpty
  let s := s.modNzm fun n => { n with staging := [], pend := n.pend ++ good, busy := false }
  let s := if force then { s with planes := s.planes.map fun x => { x with forced := x.forced || x.cfgChanged } } else s
  if bad.isEmpty then s else nzmSet 17 s

/-- NZM_COMMIT (R163, R166, R372). -/
def execNzmCommit (t : Nat) (s : State) : Res := ringCmd t s fun s =>
  let good := s.nzm.staging.filter (entryValid s)
  let bad := s.nzm.staging.filter fun e => !entryValid s e
  if !nzmOpen s || s.xlk.role == .dummy then nzmSet 17 s
  else if pendRoom < s.nzm.pend.length + good.length then s.modNzm fun n => { n with busy := true }
  else commitEntries good bad s

/-- NZM_DISCARD (R163). -/
def execNzmDiscard (t : Nat) (s : State) : Res := ringCmd t s fun s =>
  if nzmOpen s then s.modNzm fun n => { n with staging := [] } else nzmSet 17 s

/-! ## Generations (R164 to R166) -/

/-- The plane of a head. -/
def headPlane (t : StructTables) (h : Nat) : Option Nat := (t.heads.find? fun x => x.head == h).map (·.plane)

/-- Entries of the pending list for a plane, in commit order. -/
def planePending (s : State) (t : StructTables) (p : Nat) : List MapEntry :=
  s.nzm.pend.filter fun e => headPlane t e.head == some p

/-- A nozzle's code in a list of codes other than HEALTHY. -/
def codeIn (l : List (Nat × Nat × Nat)) (h n : Nat) : Nat := ((l.find? fun x => x.1 == h && x.2.1 == n).map (·.2.2)).getD 0

/-- One entry is applied: inspection never overwrites DEAD_HOST (R152). -/
def applyEntry (l : List (Nat × Nat × Nat)) (e : MapEntry) : List (Nat × Nat × Nat) :=
  if !e.host && codeIn l e.head e.nozzle == 2 then l
  else
    let rest := l.filter fun x => !(x.1 == e.head && x.2.1 == e.nozzle)
    if e.code = 0 then rest else rest ++ [(e.head, e.nozzle, e.code)]

/-- The wale of a nozzle. -/
def entryWale (t : StructTables) (h n : Nat) : Option Nat := (t.heads.find? fun x => x.head == h).bind fun x => nozzleWale t x n

/-- The wales that an entry touches: its nozzle's, and those of a stitch zone in which that lies (R164). -/
def touched (c : ScreenCtx) (e : MapEntry) : List Nat :=
  match entryWale c.t e.head e.nozzle with
  | none => []
  | some w =>
    let zones := (c.t.heads.filter fun a => a.plane == c.p && a.stitchR != 0xFFFF).filterMap fun a =>
      (nextUp c.t a).bind fun b => (lowestWale c.t b).bind fun lo =>
        if (a.head == e.head || b.head == e.head) && decide (lo ≤ w ∧ w - lo < zoneWidth c.t a) then
          some ((List.range (zoneWidth c.t a)).map (· + lo)) else none
    (w :: zones.flatten).eraseDups

/-- Methods other than PLAIN of every wale of a plane. -/
def allMethods (c : ScreenCtx) : List (Nat × Method × List Nat) :=
  (List.range c.plane.nW).filterMap fun w =>
    let m := c.decideMethod w
    if m.1 = .plain then none else some (w, m)

/-- The methods after an install: of the touched wales, or of every wale where the registers have changed (R164, R166). -/
def newMethods (c : ScreenCtx) (old : List (Nat × Method × List Nat)) (all : Bool) (es : List MapEntry) :
    List (Nat × Method × List Nat) :=
  if all then allMethods c
  else
    let ws := (es.flatMap (touched c)).eraseDups
    (old.filter fun m => !ws.contains m.1) ++ ws.map fun w => (w, c.decideMethod w)

/-- Whether some course of a plane not yet fired was screened under a generation (R156). -/
def genUnfired (s : State) (p : Nat) (x : PlaneSt) (g : Nat) : Bool :=
  (x.runway.any fun c => c.gen == g) || s.pac.slots.any fun y => y.plane == p && y.gen == g && y.st != .fired

/-- Pixels of scan bridges: the bridge, and the pixel that a wale's centre lies in (R228). -/
def walePixels (s : State) (pr : PlaneRec) (w : Nat) : List (Nat × Int) :=
  let q := crossPitch pr
  let centre : Int := ((2 * w + 1) * q.num / (2 * q.den) : Nat)
  (s.endpoints.filter fun e => e.kind == 2).map fun e =>
    (e.number, floorDiv (centre - (s.rd Reg.insXoff e.number).toInt) (max 1 e.scanPitch))

/-- Whether two wales of a plane lie in the same scan pixel of some bridge. -/
def samePixel (s : State) (pr : PlaneRec) (a b : Nat) : Bool :=
  a == b || (walePixels s pr a).any fun x => (walePixels s pr b).contains x

/-- A generation has changed health at a wale (R238): its pixel's counters return to 0, and the courses of earlier
generations no longer count there. -/
def resetPixel (tb : StructTables) (pr : PlaneRec) (p : Nat) (w : Nat) (s : State) : State :=
  let near := (List.range pr.nW).filter fun v => samePixel s pr w v
  let gen := (s.planes[Fin.ofNat 8 p]).genNo
  { s with ins := { s.ins with
      counts := s.ins.counts.filter fun c => !(c.plane == p && (entryWale tb c.head c.nozzle).any fun v => near.contains v),
      cutoff := (s.ins.cutoff.filter fun x => !(x.1 == p && near.contains x.2.1)) ++ near.map fun v => (p, v, gen) } }

/-- The registers of a plane as an install latches them (R166). -/
def latchRegs (p : Fin 8) (s : State) : State :=
  let half (r : RegSpec) : List Nat := [s.fld r p 15 0, s.fld r p 31 16]
  s.modPlane p fun x =>
    { x with minRate := (s.rd Reg.nzmMinRate p).toNat, takeover := s.rd Reg.nzmTakeover p,
             vol := half Reg.nzmVol0 ++ half Reg.nzmVol1 ++ half Reg.nzmVol2 ++ half Reg.nzmVol3, cfgChanged := false,
             forced := false }

/-- The next course that a plane screens: its install course. -/
def installCourse (s : State) (p : Fin 8) : Nat := match screenJob s p with
  | some c => ((s.jobs[c]).planes[p]).screened
  | none => 0

/-- GEN frames of up to 1,024 entries, the last with LAST set (Table 19.4). -/
def genFrames (p k g : Nat) : Nat → List Word → List MirrorFrame
  | 0, l => [.gen p k g true l]
  | fuel + 1, l => if l.length ≤ 1024 then [.gen p k g true l] else .gen p k g false (l.take 1024) :: genFrames p k g fuel (l.drop 1024)

/-- Install a generation on a plane (R152, R157, R164 to R166, R238): its number and its entries, in commit order. -/
def installGen (tb : StructTables) (p : Fin 8) (number : Nat) (es : List MapEntry) (s : State) : State :=
  let all := (s.planes[p]).cfgChanged
  let s := latchRegs p s
  let x := s.planes[p]
  let order := (es.filter fun e => !e.host) ++ es.filter (·.host)
  let health := order.foldl applyEntry x.health
  let c := ctxUnder s tb p health x.methods
  let methods := newMethods c x.methods all es
  let changed := ((es.filter fun e => codeIn health e.head e.nozzle != codeIn x.health e.head e.nozzle).filterMap fun e =>
    entryWale tb e.head e.nozzle).eraseDups
  let kept := x.gens.filter fun g => genUnfired s p x g.number
  let s := s.modPlane p fun x =>
    { x with health := health, methods := methods, genNo := number, sinceInstall := some 0, undarned := [],
             gens := kept ++ [{ number := number, health := health, methods := methods }] }
  let s := match s.planeRec p with
    | some pr => changed.foldl (fun s w => resetPixel tb pr p w s) s
    | none => s
  diag .nzmGeneration p number (installCourse s p) es.length s

/-- Whether a plane may install now: 4,096 courses after its latest install, or with no untaken course in its runway
(R164). -/
def installDue (s : State) (p : Fin 8) : Bool :=
  (s.planes[p]).runway.isEmpty || match (s.planes[p]).sinceInstall with
    | some n => decide (4096 ≤ n)
    | none => true

/-- GENERATION_INSTALL (R164): the dummy installs only what the lead mirrors (R371). -/
def execGenerationInstall (t : Nat) (plane : Fin 8) (s : State) : Res := ringCmd t s fun s =>
  match s.str.tables with
  | none => s
  | some tb =>
    let es := (planePending s tb plane).take 4096
    if s.xlk.role = .dummy ∨ (es.isEmpty ∧ !(s.planes[plane]).forced) ∨ !installDue s plane then s
    else
      let g := (s.planes[plane]).genNo + 1
      let rest := (planePending s tb plane).drop 4096
      let s := movePending (s.modNzm fun n => { n with pend := (n.pend.filter fun e => headPlane tb e.head != some plane.val) ++ rest })
      let k := installCourse s plane
      let s := installGen tb plane g es s
      let order := (es.filter fun e => !e.host) ++ es.filter (·.host)
      (genFrames plane k g order.length (order.map mapWord)).foldl (fun s f => mirror f s) s

/-! ## The shadow of a dummy (R249, R370, R371) -/

/-- The dummy gives up what it has screened of a job on a plane from course `k` on, as far as it has not been taken. -/
def rollback (p : Fin 8) (ctx : Fin 64) (k : Nat) (s : State) : State :=
  let jp := (s.jobs[ctx]).planes[p]
  if jp.screened ≤ max k jp.taken then s
  else
    let k := max k jp.taken
    let keep := (s.planes[p]).runway.filter fun c => !(c.ctx == ctx.val && decide (k ≤ c.course))
    let ed := (((keep.filter fun c => c.ctx == ctx.val).getLast?).map (·.ed)).getD jp.edTaken
    let s := (List.finRange 16).foldl (fun s (n : Fin 16) => match (s.clusters[n]).slice with
      | some (q, i, c) => if q = p.val ∧ c = ctx.val ∧ k / sliceCourses ≤ i then dropSlice n s else s
      | none => s) s
    let s := s.modPlane p fun x => { x with runway := keep }
    s.modJob ctx fun j =>
      { j with planes := upd j.planes p fun jp => { jp with screened := k, edCur := ed, nextSlice := k / sliceCourses },
               slices := j.slices.filter fun y => !(y.plane == p.val && decide (k / sliceCourses ≤ y.idx)) }

/-- A mirrored generation is installed once the plane has screened up to its install course. -/
def installMirrored (tb : StructTables) (p : Fin 8) (ctx : Fin 64) (s : State) : State :=
  match s.xlk.mirror.gens.find? fun g => g.plane == p.val && g.complete &&
      decide (g.course ≤ ((s.jobs[ctx]).planes[p]).screened) with
  | some g =>
    let s := s.modXlk fun x => { x with mirror := { x.mirror with gens := x.mirror.gens.filter (· != g) } }
    installGen tb p g.number (g.entries.map mapEntryOf) (rollback p ctx g.course s)
  | none => s

/-- Whether the lead has decided that a course underruns. -/
def mirroredUnderrun (s : State) (p : Fin 8) (ctx : Fin 64) (k : Nat) : Bool :=
  s.xlk.mirror.underruns.any fun u => u.1 == p.val && u.2.1 == ctx.val && decide (u.2.2.1 ≤ k ∧ k ≤ u.2.2.2)

/-- The plane's next course under the lead's decisions: skipped, or screened. -/
def shadowNext (tb : StructTables) (ctx : Fin 64) (p : Fin 8) (pk : Package) (pr : PlaneRec) (s : State) : State :=
  let k := ((s.jobs[ctx]).planes[p]).screened
  if mirroredUnderrun s p ctx k then underrun ctx p pk k s
  else if screenReady s p (s.jobs[ctx]) pk then screenNext tb ctx p pk pr s
  else s

/-- COURSE_SCREEN (R133 to R148, R157 to R162, R371, R412). -/
def execCourseScreen (t : Nat) (plane : Fin 8) (s : State) : Res := ringCmd t s fun s =>
  match s.str.tables, screenJob s plane with
  | some tb, some ctx => match (s.jobs[ctx]).pkg, s.planeRec plane with
    | some pk, some pr =>
      if s.dummy then shadowNext tb ctx plane pk pr (installMirrored tb plane ctx s)
      else if screenReady s plane (s.jobs[ctx]) pk then screenNext tb ctx plane pk pr s else s
    | _, _ => s
  | _, _ => s

/-! ## VFIRE_UPDATE (R155, R156) -/

/-- The gap of a row's nozzles under the plain deal (R155); none for a row that a table does not name. -/
def rowGap (t : StructTables) (p row : Nat) : Option Nat :=
  match t.planes[p]? with
  | none => none
  | some r =>
    if r.dealKind = 1 then
      match t.deals.find? (fun d => d.plane == p) with
      | some d =>
        let n := d.entries.length
        let at_ := (List.range n).filter fun i => d.entries[i]? == some row
        if at_.isEmpty then none
        else some ((at_.flatMap fun i => at_.filterMap fun j => if i < j then some (min (j - i) (n - j + i)) else none).foldl min n)
      | none => none
    else some r.rows

/-- The live nozzles of a row that can print a wale (R136, R154): both of a stitch zone, else the one that is chosen. -/
def ScreenCtx.canPrint (c : ScreenCtx) (row w : Nat) : List Nat :=
  let cov := covering c.t c.p row w
  let pick := match cov with
    | x :: y :: _ => if (c.joined w x y).isSome then [x, y] else if y.1.wale0 < x.1.wale0 then [y] else [x]
    | l => l
  (pick.filter fun x => !c.dead x.1.head x.2).map (·.1.head)

/-- Heads that can print a wale under the method in force, with their gaps. -/
def ScreenCtx.printers (c : ScreenCtx) (w : Nat) : List (Nat × Nat) :=
  match c.method w with
  | (.redeal, l) => l.flatMap fun r => (c.canPrint r w).map fun h => (h, l.length)
  | _ => (dealtRows c.t c.p).flatMap fun r => match rowGap c.t c.p r with
    | some g => (c.canPrint r w).map fun h => (h, g)
    | none => []

/-- Every head of a plane that can print under a generation, with its gaps. -/
def genPrinters (s : State) (tb : StructTables) (p : Fin 8) (g : Generation) : List (Nat × Nat) :=
  let c := ctxUnder s tb p g.health g.methods
  ((List.range c.plane.nW).flatMap c.printers).eraseDups

/-- The generations of a plane that v_fire looks at: the latest, and those with a course not yet fired. -/
def liveGens (s : State) (p : Fin 8) : List Generation :=
  let x := s.planes[p]
  let latest : Generation := { number := x.genNo, health := x.health, methods := x.methods }
  latest :: x.gens.filter fun g => g.number != x.genNo && genUnfired s p x g.number

/-- The heads that can print on a plane, with their gaps. -/
def planePrinters (s : State) (tb : StructTables) (p : Fin 8) : List (Nat × Nat) :=
  ((liveGens s p).flatMap (genPrinters s tb p)).eraseDups

/-- The speed that a plane's lowest ceiling rate supports at a job's course pitch, µm/s. -/
def planeSpeed (s : State) (tb : StructTables) (pk : Package) (p : Fin 8) : Option Nat :=
  let q := coursePitch pk
  (((planePrinters s tb p).filterMap fun x => (headCeiling s tb x.1).map (· * x.2)).min?).map fun r =>
    r * q.num / (q.den * 1000)

/-- The (job, plane) pairs of the running jobs. -/
def runningPlanes (s : State) : List (Package × Fin 8) :=
  s.jobs.toList.flatMap fun j => match j.st.active, j.pkg with
    | true, some pk => (jobPlanes pk).map fun p => (pk, p)
    | _, _ => []

/-- VFIRE_UPDATE (R156). -/
def execVfireUpdate (t : Nat) (s : State) : Res := ringCmd t s fun s =>
  match s.str.tables with
  | none => s.modNzm fun n => { n with vfire := capSpeed, rateUnknown := false }
  | some tb =>
    let l := runningPlanes s
    let unknown := l.any fun x => (planePrinters s tb x.2).any fun h => (headCeiling s tb h.1).isNone
    s.modNzm fun n => { n with vfire := (l.filterMap fun x => planeSpeed s tb x.1 x.2).foldl min capSpeed, rateUnknown := unknown }

end Sys2Proof.Machine
end

