-- ==== Sys2Proof/Machine/StartUp.lean ====
section
/-! DEFINITION. Start-up and structure activation (chapters 02 and 03): what each kind of reset keeps, the steps of Table
3.3, the choice of the firmware slot (R441, R444), and what installing a structure sets (R42, R43, R304, R305, R427). -/

namespace Sys2Proof.Machine

/-! ## What a reset keeps (R59, Table 3.8) -/

/-- Whether a PW address belongs to a register. -/
def RegSpec.holds (r : RegSpec) (a : Nat) : Bool :=
  decide (r.base ≤ a ∧ (a - r.base) % r.stride = 0 ∧ (a - r.base) / r.stride < r.count)

/-- Registers that a warm start keeps: the reset causes, the tamper set-up in AON, the log path's registers (R455) and the
MSI-X table. -/
def warmKept : List RegSpec :=
  [Reg.devResetCause, Reg.secTamperCfg, Reg.logCfg, Reg.logHostSize, Reg.logHostBaseLo, Reg.logHostBaseHi, Reg.logStatus,
   Reg.msixAddrLo, Reg.msixAddrHi, Reg.msixData, Reg.msixCtl]

/-- Registers that a main power-on keeps: those in AON. -/
def powerKept : List RegSpec := [Reg.secTamperCfg]

/-- The log path after a warm start (R60, R455): ring, pointers and LSEQ stand; the alarm table, the backlog and what waited
are lost. -/
def LogState.warm (l : LogState) : LogState :=
  { LogState.reset with ring := l.ring, host := l.host, nextLseq := l.nextLseq, en := l.en, wr := l.wr, rd := l.rd }

/-- The security core after a reset: AON keeps the RTC, the tamper latches and the TRNG (R51, R59). -/
def Sec.kept (x : Sec) : Sec :=
  { Sec.reset with trngReady := x.trngReady, trngSamples := x.trngSamples, tamper := x.tamper,
                   tamperTime := x.tamperTime, tamperLate := x.tamperLate, rtcBase := x.rtcBase }

/-- The partition after a reset: the sealed flash region keeps the counter, its event records, the audit numbers and the
parameters of R416 (R65). -/
def Met.kept (x : Met) : Met :=
  { Met.reset with sealPin := x.sealPin, c := x.c, events := x.events, anum := x.anum, loss := x.loss,
                   lossRange := x.lossRange, sfdef := x.sfdef, chcfg := x.chcfg, glob := x.glob }

/-- Updates after a reset: every slot, the trial and the pending flags are kept (chapter 23). -/
def Upd.kept (x : Upd) : Upd :=
  { x with xfer := none, checking := false, errRow := 0, errCode := 0, recCode := 0, recBusy := false, uart := none,
           trialAt := none, mtiPend := false, fellBack := none }

/-- An encoder after a reset: its levels stand. -/
def Enc.kept (x : Enc) : Enc := { Enc.reset with a := x.a, b := x.b, i := x.i, accA := x.a, accB := x.b }

/-- The low-speed blocks after a reset: pad levels, references and the crystal stand; every GPIO is parked (R475). -/
def Lsi.kept (x : Lsi) : Lsi :=
  { x with gpio := x.gpio.map fun g => { level := g.level, parked := true, prev := none },
           i2c := Lsi.reset.i2c, uart := Lsi.reset.uart, ppsTime := 0, ppsLast := none, pllLock := 0, metOk := false,
           qspiBusy := false }

/-- The block once everything that a reset clears has been cleared; `power` tells a main power-on from a warm start. -/
def cleared (power : Bool) (s : State) : State :=
  { State.reset with
    now := s.now, pressBase := s.pressBase, free := s.free, out := s.out, pending := s.pending,
    regs := s.regs.filter fun r => (if power then powerKept else warmKept).any fun k => k.holds r.1,
    dev := { Dev.reset with rstN := true, holdN := s.dev.holdN, fireEn := s.dev.fireEn, failed := s.dev.failed,
                            fwiSlot := s.dev.fwiSlot, holdCause := if s.dev.holdN then 0#8 else 1#8 },
    str := { StrSt.reset with active := s.str.active, prev := s.str.prev, staged := s.str.staged },
    cod := { Cod.reset with table := s.cod.table },
    log := if power then .reset else s.log.warm,
    sems := s.sems.map Sem.break,
    pci := if power then .reset else { s.pci with rpUp := false, rpSpeed := 0, rpWidth := 0, rpCtrls := 0 },
    ba := s.ba.map fun x => { Ba.reset with driverLow := x.driverLow },
    stp := s.stp.map fun x => { Stp.reset with e := x.e, driverLow := x.driverLow },
    enc := s.enc.map Enc.kept,
    mem := { Mem.reset with hbm := s.mem.hbm.map fun k => { Stack.reset with selfRefresh := !power && k.trained, temp := k.temp } },
    sec := s.sec.kept, met := s.met.kept, fw := s.fw.kept, lsi := s.lsi.kept,
    otp := s.otp, calStore := s.calStore }

/-! ## Structure activation (Table 2.13) -/

/-- Replace the low-speed blocks. -/
def State.modLsi (s : State) (f : Lsi → Lsi) : State := { s with lsi := f s.lsi }

/-- On entry to CONFIGURE every GPIO is parked with its reset pull and function (R475). -/
def parkPins (s : State) : State :=
  (List.range 64).foldl (fun s m => s.wr Reg.pioFunc m Reg.pioFunc.reset)
    (s.modLsi fun l => { l with gpio := l.gpio.map fun g => { g with parked := true, prev := none } })

/-- The word that a PIN record gives PIO_FUNC (Tables 26.4, 26.8). -/
def pinWord (r : PinRec) : Word := BitVec.ofNat 32 (r.func + 2 ^ 8 * r.pull + 2 ^ 10 * (r.flags % 4))

/-- Every PIN record is written through the switch sequence, and every other GPIO is GPIO_IN with PULL 2 (R475, R476). -/
def applyPins (pins : List PinRec) (s : State) : State :=
  pins.foldl (fun s r => s.wr Reg.pioFunc r.gpio (pinWord r))
    (s.modLsi fun l => { l with gpio := l.gpio.map fun g => { g with parked := false, prev := none } })

/-- Domains that are on whatever the structure: HBM, PD_PCIE, PD_MGT, PD_SEC, PD_PAC (R304). -/
def baseDomains : Nat := 15 * 2 ^ 40 + 2 ^ 44 + 7 * 2 ^ 47

/-- Whether an HBM stack holds a region of the structure. -/
def stackUsed (t : StructTables) (k : Nat) : Bool :=
  t.hbm.any fun r => decide (r.base < (k + 1) * stackBytes ∧ k * stackBytes < r.base + r.size)

/-- Whether a pipeline serves an enabled plane. -/
def pipeUsed (t : StructTables) (q : Nat) : Bool := t.planes.any fun p => p.enable == 1 && p.pp == q

/-- The switched domains that a structure leaves on, clusters and PD_MET aside (R304). -/
def structDomains (t : StructTables) : List Nat :=
  ((List.range 8).filter (pipeUsed t)).map (16 + ·) ++ ((List.range 16).filter (quadUsed t)).map (24 + ·) ++
    ((List.range 4).filter (stackUsed t)).map (40 + ·) ++ [44, 47, 48, 49] ++ (if t.axes.isEmpty then [] else [45])

/-- Domains as a mask. -/
def domainMask (l : List Nat) : BitVec 50 := l.foldl (fun (m : BitVec 50) b => m ||| (1#50 <<< b)) 0#50

/-- The domains that a structure gives: those it leaves on and OFF_MASK does not hold off; PD_MET stays on only where it is
on and not held off (R304, R305). -/
def domainsFor (t : StructTables) (metOn : Bool) : BitVec 50 :=
  domainMask (((structDomains t).filter fun b => !t.power.offMask.testBit b) ++ if metOn then [46] else [])

/-- Switch the domains (R304, R305) and load the POWER record (R321): PD_MET goes off at once, and an activation that would
switch it on again leaves it pending. -/
def switchDomains (t : StructTables) (s : State) : State :=
  let off := t.power.offMask.testBit 46
  let was := s.pwr.domains.getLsbD 46
  let s := (s.wr Reg.pwrCap 0 (BitVec.ofNat 32 (t.power.capW + 2 ^ 16 * t.power.marginW))).wr Reg.pwrOp 0
    (BitVec.ofNat 32 (t.power.opDef + 2 ^ 4 * t.power.opMax))
  { s with
    pwr := { s.pwr with domains := domainsFor t (was && !off), metPend := !was && !off }
    met := if off then { s.met.kept with st := .absent } else s.met
    clusters := s.clusters.map fun c => { Cluster.reset with excl := c.excl } }

/-- The inspection ring of each plane in whole courses (R230): the KIND 6 region divided in proportion to
O_max − D(p, 0). -/
def inspectionRings (t : StructTables) : List Nat :=
  let omax := (t.endpoints.map fun e => if e.kind = 2 then e.scanOffset else 0).foldl max 0
  let need (p : Nat) : Nat := match t.planes[p]? with
    | some r => if r.enable = 1 then omax - ((t.rows.find? fun q => q.plane == p && q.row == 0).map (·.offset)).getD 0 else 0
    | none => 0
  let total := ((List.range 8).map need).sum
  let size := ((t.hbm.find? fun r => r.kind == 6).map (·.size)).getD 0
  (List.range 8).map fun p => match t.planes[p]? with
    | some r => if total = 0 then 0 else size * need p / total / max 1 (courseBytes r)
    | none => 0

/-- INS_LPITCH of each bridge takes the bridge's SCAN_PITCH. -/
def scanPitches (t : StructTables) (s : State) : State :=
  t.endpoints.foldl (fun s e => if e.kind = 2 then s.wr Reg.insLpitch e.number (BitVec.ofNat 32 e.scanPitch) else s) s

/-- Whether a calibration record's instance exists in a structure (R427); encoder inputs and die sensors are the device's
own. -/
def calExists (t : StructTables) (r : CalRecord) : Bool :=
  match r.kind with
  | 1 | 3 => t.heads.any fun h => h.head == r.index
  | 2 => t.heads.any fun h => h.head == r.index && h.stitchR != 0xFFFF
  | 4 => t.wgs.any fun w => w.wg == r.index
  | 5 => t.axes.any fun a => a.sdA == r.index || a.sdB == r.index
  | _ => decide (r.index < 16)

/-- Whether a record fits the structure: kind 2 by the width of its zone, kind 3 by the nozzles of its head (R427). -/
def calFits (t : StructTables) (r : CalRecord) : Bool :=
  match t.heads.find? fun h => h.head == r.index with
  | some h => if r.kind = 2 then r.data.length == zoneWidth t h else if r.kind = 3 then r.data.length == h.nozzles else true
  | none => true

/-- Apply one record in the place of Table 22.1; kinds 2, 3, 5, 6 and 7 act where they are read. -/
def calApply (r : CalRecord) (s : State) : State :=
  let v := r.data.headD 0
  match r.kind with
  | 1 => s.wr Reg.pacHphase r.index (BitVec.ofNat 32 (unsigned 8 v))
  | 4 => s.modWg r.index fun w => { w with gain := v.toNat }
  | _ => s

/-- Apply the calibration store (R427): values of the host do not outlast the activation (R426). -/
def calActivate (t : StructTables) (s : State) : State :=
  let s := { s with regs := s.regs.filter fun r => !Reg.pacHphase.holds r.1 }
  let s := s.modWav fun w => { w with wgs := w.wgs.map fun x => (x.1, { x.2 with gain := 1024, started := false }) }
  s.calStore.foldl (fun s r =>
    if !calExists t r then s else if calFits t r then calApply r s else diag .calSkipped r.index r.kind 0 0 s) s

/-- The old structure's lanes go idle and its hubs are told to cap heads (step 1 of Table 2.13). -/
def dropStructure (s : State) : State :=
  let s := sendHubMode false s
  { s with
    str := { s.str with tables := none }
    mlk := { Mlk.reset with holds := s.mlk.holds, epoch := s.mlk.epoch,
                            lanes := Vector.replicate 64 { Lane.reset with since := s.now } }
    xlk := { s.xlk with ports := Vector.replicate 32 { Port.reset with since := s.now } }
    clusters := s.clusters.map fun c => { Cluster.reset with excl := c.excl }
    pwr := { s.pwr with domains := BitVec.ofNat 50 (baseDomains + if s.pwr.domains.getLsbD 46 then 2 ^ 46 else 0) } }

/-- Every nozzle is HEALTHY after an activation, and the methods follow from the new tables (R151, R157). -/
def activatePlanes (t : StructTables) (s : State) : State :=
  let s := (List.finRange 8).foldl (fun s p => (s.modPlane p fun _ => PlaneSt.reset)) s
  let s := { s with nzm := .reset }.wr Reg.nzmUpdCtrl 0 0
  let s := (List.finRange 8).foldl (fun s p => latchRegs p s) s
  (List.finRange 8).foldl (fun s (p : Fin 8) =>
    if (t.planes[p.val]?).any fun r => r.enable == 1 then s.modPlane p fun x => { x with methods := allMethods (ctxOf s t p) }
    else s) s

/-- Install a structure (steps 3 and 4 of Table 2.13). Whether the reservation of R337 is capped is left open: the spec
gives no link's bandwidth (log entry 1). -/
def installStructure (t : StructTables) (s : State) : State :=
  let s := { s with str := { s.str with tables := some t } }
  let s := s.modMlk fun m =>
    { Mlk.reset with holds := m.holds, epoch := m.epoch, activatedAt := s.now,
                     lanes := Vector.replicate 64 { Lane.reset with since := s.now } }
  let s := s.modWav fun w => { w with heads := [], tblBusy := [], wgBusy := [], acPower := [], supPower := [] }
  let s := calActivate t (applyPins t.pins (switchDomains t s))
  let s := scanPitches t { s with ins := { Ins.reset with bufSize := inspectionRings t } }
  let s := { s with pac := { s.pac with gears := Vector.replicate 8 .reset, slots := [] } }
  let s := activatePlanes t s
  let s := (List.finRange 16).foldl (fun s (n : Fin 16) => dropStepperLock n (s.modStp n fun x => { x with posUnsure := true })) s
  let s := { s with gov := { s.gov with vgov := (s.rd Reg.govVhost).toNat } }
  let s := electRoot (s.modXlk fun x => { x with ports := Vector.replicate 32 { Port.reset with since := s.now } })
  let d := s.draw
  { d.2 with mem := { d.2.mem with resCapped := d.1 % 2 = 1 } }

/-- Enter CONFIGURE (R475). -/
def enterConfigure (s : State) : State := parkPins (s.modDev fun d => { d with mode := .configure })

/-- Reach STANDBY; the first time after start-up starts the period of R272. -/
def enterStandby (s : State) : State :=
  s.modDev fun d =>
    { d with mode := .standby, stage := 8, standbyReached := true, standbyAt := if d.standbyReached then d.standbyAt else s.now }

/-- The tables of a slot's image, when its body passes R508. -/
def imageTables (i : Image) : Option StructTables :=
  match checkBody i.body with
  | .inr t => some t
  | .inl _ => none

/-- Step 8 of start-up: the active slot is activated without a command, or STR_INVALID is raised (R43, R47). -/
def startActivation (row : CheckRow) (installOk : Bool) (s : State) : State :=
  match s.str.active.bind imageTables, row, installOk with
  | some t, 0, true => enterStandby (installStructure t s)
  | _, _, _ => alarm .strInvalid noInst s

/-! ## The firmware slot (R440 to R445, R49) -/

/-- Replace the update block. -/
def State.modFw (s : State) (f : Upd → Upd) : State := { s with fw := f s.fw }

/-- A pending activation or revert switches the slot roles (R440, R445). -/
def switchRoles (s : State) : State :=
  if s.fw.pendActivate then
    (s.modFw fun u => { u with fwiActive := u.fwiStaged, fwiPrev := u.fwiActive, fwiStaged := none, rejected := false,
                               pendActivate := false, pendRevert := false, trial := true, expired := false }).modDev fun d =>
      { d with failed := 0, fwiSlot := 0 }
  else if s.fw.pendRevert then
    (s.modFw fun u => { u with fwiActive := u.fwiPrev, fwiPrev := u.fwiActive, pendRevert := false, trial := false,
                               expired := false }).modDev fun d => { d with failed := 0, fwiSlot := 0 }
  else s

/-- Fallback (R444): previous becomes active, the trial image moves to the staged slot marked rejected. -/
def fallBack (s : State) : State :=
  (s.modFw fun u => { u with fwiActive := u.fwiPrev, fwiStaged := u.fwiActive, fwiPrev := none, rejected := true,
                             trial := false, expired := false,
                             fellBack := some ((u.fwiActive.map Image.version).getD 0) }).modDev fun d =>
    { d with failed := 0, fwiSlot := 0 }

/-- Whether a slot holds an image that passes step 5. -/
def slotRuns (i : Option Image) (row : CheckRow) : Bool := i.isSome && row == 0

/-- The slot that step 5 runs, or none for RECOVERY with reason 3 (R48, R439, R441, R444). A trial image that fails the
check has failed twice by the start that falls back. -/
def chooseFwi (env : BootEnv) (s : State) : Option State :=
  let s := switchRoles s
  let prevOk := slotRuns s.fw.fwiPrev env.prevFwiRow
  if s.fw.trial then
    if s.fw.expired || decide (2 ≤ s.dev.failed) || !slotRuns s.fw.fwiActive env.activeFwiRow then
      if prevOk then some (fallBack s) else none
    else some s
  else if s.dev.fwiSlot = 0 ∧ s.dev.failed < 2 ∧ slotRuns s.fw.fwiActive env.activeFwiRow then some s
  else if prevOk ∧ (s.dev.fwiSlot = 0 ∨ s.dev.failed < 2) then
    some (s.modDev fun d => { d with fwiSlot := 1, failed := if d.fwiSlot = 0 then 0 else d.failed })
  else none

/-- The image that runs. -/
def runningFwi (s : State) : Option Image := if s.dev.fwiSlot = 1 then s.fw.fwiPrev else s.fw.fwiActive

/-! ## Start-up (Table 3.3) -/

/-- The digest of a region (R392). -/
def regionDigest (s : State) (i : Nat) : Nat :=
  let (a, b) := coveredWords i
  u64 (Config.sha384 (otpBytes s a (b - a + 1))) 0 % 2 ^ 63 + 2 ^ 63

/-- Whether a finalised region's digest fails (step 3). -/
def regionBad (s : State) (i : Nat) : Bool :=
  regionFinal s i && decide ((otpWord s (240 + 2 * i)).toNat + 2 ^ 32 * (otpWord s (241 + 2 * i)).toNat ≠ regionDigest s i)

/-- RECOVERY with a reason (R48); the ring in the TRNG and AON goes on. -/
def enterRecovery (stage reason detail : Nat) (s : State) : State :=
  s.modDev fun d => { d with mode := .recovery, stage := stage, reason := reason, detail := detail, watchdogAt := none }

/-- The wipe of step 4 and the key slots that follow it (R128, R328). -/
def startWipe (ok : Bool) (s : State) : State :=
  let s := s.modSec fun x => { x with secretLoaded := loadsSecret s }
  if ok then deriveSlots s
  else alarm .memWipeFail noInst (s.modMem fun m => { m with wipeTries := 2, wipeFail := true })

/-- Whether the active structure slot holds PD_MET off, or the life cycle does (R305, Table 20.2). -/
def metHeldOff (s : State) : Bool :=
  lifeCycle s == 3 || (s.str.active.bind imageTables).any fun t => t.power.offMask.testBit 46

/-- The reports of the calibration store (R432). -/
def calReports (repaired lost : List (Nat × Nat)) (s : State) : State :=
  let s := repaired.foldl (fun s x => diag .calCopyRepaired x.2 x.1 0 0 s) s
  lost.foldl (fun s x => alarmArgs .calRecordLost x.2 x.1 0 0
    { s with calStore := s.calStore.filter (fun r => !(r.kind == x.1 && r.index == x.2)), cal := { s.cal with lost := s.cal.lost + 1 } }) s

/-- Step 6: clocks locked, HBM trained, PD_MET on, the root port trained (R305, R496). -/
def firmwareUp (env : BootEnv) (s : State) : State :=
  let met := !metHeldOff s
  { s with
    lsi := { s.lsi with pllLock := 0x7F, sysRef := true, pcieRef := true, metOk := met }
    mem := { s.mem with hbm := s.mem.hbm.map fun k => { k with trained := true, selfRefresh := false } }
    pwr := { s.pwr with domains := BitVec.ofNat 50 (baseDomains + if met then 2 ^ 46 else 0) }
    met := { s.met with st := if met then .starting else .absent }
    pci := { s.pci with rpUp := env.rpSpeed != 0, rpSpeed := env.rpSpeed, rpWidth := env.rpWidth, rpCtrls := env.nvmeControllers } }

/-- What was recorded while the core was off, or by the boot ROM, is reported (R400, R444, R432). -/
def startReports (env : BootEnv) (s : State) : State :=
  let s := if s.sec.tamperLate then alarm .secTamper noInst (s.modSec fun x => { x with tamperLate := false }) else s
  let s := match s.fw.fellBack with
    | some v => alarmArgs .updFallback noInst v 0 0 s
    | none => s
  calReports env.calRepaired env.calLost s

/-- Steps 7 and 8: CONFIGURE, where press time starts at 0 (R11) and a trial its 120 s (R441), then the active structure. -/
def reachConfigure (env : BootEnv) (s : State) : State :=
  let s := enterConfigure { s with pressBase := s.now }
  let s := s.modDev fun d => { d with stage := 7, watchdogAt := none }
  let s := s.modFw fun u => { u with trialAt := if u.trial then some s.now else none }
  let s := electRoot s
  startActivation env.structRow env.structInstallOk (admitWaiting (startReports env s))

/-- Steps 3 to 8 (Table 3.3): the boot ROM's checks, then firmware. Where firmware does not reach step 7 the boot watchdog
runs on (R49). -/
def boot (env : BootEnv) (s : State) : State :=
  let s := s.modSec fun x => { x with policy := otpWord s 129 }
  match (List.range 6).find? (regionBad s) with
  | some r => enterRecovery 3 1 r s
  | none =>
    if !env.secureMarchOk then enterRecovery 4 2 0 s
    else if !env.exchangeMarchOk then enterRecovery 4 2 1 s
    else
      let s := startWipe env.wipeVerifyOk s
      match (if env.flashTableOk then chooseFwi env s else none) with
      | none => enterRecovery 5 3 0 s
      | some s =>
        let s := s.modDev fun d => { d with stage := 6, watchdogAt := some (s.now + 5 * sec8) }
        if env.reachesStep7 then reachConfigure env (firmwareUp env s) else s

/-- Set a bit of DEV_RESET_CAUSE. -/
def markReset (bit : Nat) (s : State) : State := s.setFld Reg.devResetCause 0 bit bit 1

/-- A warm start with its cause bit (Table 3.8): 2 DEV_WARM_RESET, 3 firmware activation, 4 boot watchdog. A start that the
watchdog did not cause tries the active slot again. -/
def warmStart (bit : Nat) (env : BootEnv) (s : State) : State :=
  let s := cleared false s
  let s := if bit ≠ 4 ∧ s.dev.fwiSlot = 1 then s.modDev fun d => { d with fwiSlot := 0, failed := 0 } else s
  boot env (markReset bit s)

/-- DEV_WARM_RESET with FORCE (R64): a hold of class BRAKE in SERVICE and PRINT, a stop in STANDBY, then the wait for the
brushless axes; at once in CONFIGURE. -/
def forceReset (env : BootEnv) (s : State) : State :=
  let wait (s : State) : State := s.modDev fun d => { d with warmPending := some { deadline := s.now + 2 * sec8 } }
  match s.dev.mode with
  | .service | .print =>
    wait (if s.dev.hold then
        (if s.dev.holdClass < 3 then motionFor 3 (s.modDev fun d => { d with holdClass := 3 }) else s)
      else enterHold 3 s)
  | .standby => wait (stopAndDisable s)
  | _ => warmStart 2 env s

/-- Whether every brushless axis turns below its braking threshold (R64, R271). -/
def belowBraking (s : State) : Bool :=
  (List.finRange 8).all fun (n : Fin 8) => decide ((s.ba[n]).speed.natAbs < s.fld Reg.baSpdlim n 31 16)

end Sys2Proof.Machine
end

