-- ==== Sys2Proof/Machine/Security.lean ====
section
/-! DEFINITION. Security (chapter 20): sessions, the life cycle, OTP burns and reads, the tamper detectors. The completions
at 2.000 ms are in Partition.lean, beside the mailbox that shares them. -/

namespace Sys2Proof.Machine

/-! ## Sessions (R388, R389) -/

/-- SESSION_OPEN with PHASE 0 (R388): the challenge waits for the TRNG (R51). -/
def execSessionOpenChallenge (t addr : Nat) (s : State) : Res := ringCmd t s fun s =>
  if s.sec.trngReady then issueChallenge addr s
  else s.modSec fun x => { x with entropyWait := some (.challenge addr, s.now) }

/-- The 14 ASCII bytes "SL9600-SESSION" (R388). -/
def sessionText : Bytes := [0x53, 0x4C, 0x39, 0x36, 0x30, 0x30, 0x2D, 0x53, 0x45, 0x53, 0x53, 0x49, 0x4F, 0x4E]

/-- Whether a response opens the session (R388). -/
def responseOk (s : State) (chalId : Nat) (x y r sg : Bytes) : Bool :=
  match s.sec.challenge with
  | some c =>
    c.id == chalId && decide (s.now < c.issuedAt + 60 * sec8) && regionFinal s 1 &&
      Config.sha384 (x ++ y) == otpBytes s 56 12 && Config.ecdsaVerify x y (c.record ++ sessionText) r sg &&
      (lifeCycle s == 1 || lifeCycle s == 2 || lifeCycle s == 3)
  | none => false

/-- SESSION_OPEN with PHASE 1 (R388): it consumes the challenge and completes 2.000 ms after it was taken. -/
def execSessionOpenResponse (t chalId : Nat) (x y r sg : Bytes) (s : State) : Res := ringCmd t s fun s =>
  let ok := responseOk s chalId x y r sg
  s.modSec fun z => { z with challenge := none, timed := z.timed ++ [(.phase1 ok, s.now)] }

/-- SESSION_CLOSE (R389). -/
def execSessionClose (t : Nat) (s : State) : Res := ringCmd t s fun s => complete .supervisor .ok 0 (closeSession s)

/-- Whether a sensitive supervisor command runs. -/
def sensitiveRuns (s : State) : Bool :=
  (s.supRing.running.any fun c => sensitiveOps.contains c.opcode) || s.dev.activating.isSome ||
    match s.sec.entropyWait with
    | some (.key .., _) => true
    | _ => false

/-- SESSION_IDLE_TIMEOUT (R389): no sensitive operation for SEC_CFG.IDLE seconds; one that runs counts as activity. -/
def execSessionIdleTimeout (t : Nat) (s : State) : Res := run t s fun s =>
  match s.sec.session with
  | some x => if x.lastAct + s.fld Reg.secCfg 0 15 0 * sec8 ≤ s.now ∧ !sensitiveRuns s then closeSession s else s
  | none => s

/-! ## OTP burns (R395 to R397) -/

/-- Number of bits set. -/
def ones (w : Word) : Nat := ((List.range 32).filter fun i => w.getLsbD i).length

/-- The cells that a value needs in a word: SECRET words are stored under the mask (R393). -/
def burnBits (s : State) (w : Nat) (value : Word) : Word :=
  (if 96 ≤ w ∧ w ≤ 127 then value ^^^ Config.secretMask w else value) &&& ~~~(otpWord s w)

/-- Burn a word (R395): the bits that are set in the value and clear in the word, but for those that the cells refuse;
OTP_WEAK takes the bits with a single cell. -/
def burnWord (w : Nat) (value : Word) (b : BurnResult) (s : State) : State :=
  let bits := burnBits s w value
  (otpSet w (bits &&& ~~~b.failed) s).modSec fun x => { x with weak := min 0xFFFFFFFF (x.weak + ones (bits &&& b.single &&& ~~~b.failed)) }

/-- Whether a burn leaves some bit unburned. -/
def burnFails (s : State) (w : Nat) (value : Word) (b : BurnResult) : Bool := burnBits s w value &&& b.failed != 0

/-- A word as the host reads it (R393). -/
def hostWord (s : State) (w : Nat) : Word := if 96 ≤ w ∧ w ≤ 127 then 0 else otpWord s w

/-- RESULT of OTP_BURN: the word read, and the bits with one cell only. -/
def burnReport (before after : State) (w : Nat) (value : Word) (b : BurnResult) : Nat :=
  (hostWord after w).toNat + 2 ^ 32 * ones (burnBits before w value &&& b.single &&& ~~~b.failed)

/-- A burn that was cut short completes with AUTH_FAIL at 2.000 ms (R397). -/
def cutShort (s : State) : State := s.modSec fun x => { x with timed := x.timed ++ [(.refusal, s.now)] }

/-- Words that Table 20.5 reserves. -/
def otpReserved (w : Nat) : Bool :=
  decide ((80 ≤ w ∧ w ≤ 95) ∨ (112 ≤ w ∧ w ≤ 127) ∨ w = 142 ∨ w = 143 ∨ 252 ≤ w)

/-- Refusals of OTP_BURN (R395). -/
def burnConds (s : State) (w : Nat) : List (Bool × Status) :=
  [(decide (w = 128 ∨ (130 ≤ w ∧ w ≤ 141) ∨ (160 ≤ w ∧ w ≤ 175) ∨ 240 ≤ w) || otpReserved w, .range),
   (decide (144 ≤ w ∧ w ≤ 159), .sealed),
   (regionFinal s (regionOf w) || (decide (w ≤ 31) && lifeCycle s != 0), .badState)]

/-- OTP_BURN (R395). -/
def execOtpBurn (t word : Nat) (value : Word) (burn : BurnResult) (s : State) : Res := ringCmd t s <| sensitive fun s =>
  admitCmd .supervisor (burnConds s word) (fun s =>
    let s' := burnWord word value burn s
    if burn.cut then cutShort s'
    else complete .supervisor (if burnFails s word value burn then .integrity else .ok) (burnReport s s' word value burn) s') s

/-- Burn the digest of a region (R392, R396). -/
def burnDigest (region : Nat) (lo hi : BurnResult) (s : State) : State :=
  let d := regionDigest s region
  burnWord (241 + 2 * region) (BitVec.ofNat 32 (d / 2 ^ 32)) hi (burnWord (240 + 2 * region) (BitVec.ofNat 32 d) lo s)

/-- OTP_FINALISE (R396). -/
def execOtpFinalise (t region : Nat) (burnLo burnHi : BurnResult) (s : State) : Res := ringCmd t s <| sensitive fun s =>
  admitCmd .supervisor [(decide (5 < region), .range), (regionFinal s region, .badState)] (fun s =>
    let d := regionDigest s region
    let failed := burnFails s (240 + 2 * region) (BitVec.ofNat 32 d) burnLo ||
      burnFails s (241 + 2 * region) (BitVec.ofNat 32 (d / 2 ^ 32)) burnHi
    let s := burnDigest region burnLo burnHi s
    if burnLo.cut || burnHi.cut then cutShort s
    else complete .supervisor (if failed then .integrity else .ok) 0 s) s

/-! ## The life cycle (R385 to R387) -/

/-- Whether some word from `first` on is burned. -/
def someBurned (s : State) (first n : Nat) : Bool := (List.range n).any fun i => otpWord s (first + i) != 0

/-- Whether Table 20.3 has a transition whose conditions hold. -/
def lcAllowed (s : State) (target : Nat) : Bool :=
  match lifeCycle s, target with
  | 0, 1 => regionFinal s 0 && someBurned s 32 12 && someBurned s 68 12
  | 1, 2 => regionFinal s 0 && regionFinal s 1 && regionFinal s 2 && regionFinal s 3 && s.sec.tamper == 0
  | 2, 3 => true
  | 1, 4 | 2, 4 | 3, 4 => true
  | _, _ => false

/-- What entering a state does to the stores (R386, R387). -/
def enterLc (target : Nat) (s : State) : State :=
  match target with
  | 3 => { s.modCod (fun c => { c with table := [] }) with calStore := [] }
  | 4 => (List.range 32).foldl (fun s i => otpSet (96 + i) 0xFFFFFFFF s) s
  | _ => s

/-- LC_ADVANCE (R385): the state bit, the stores, the wipe, the session, the completion, then the warm start. -/
def execLcAdvance (t target : Nat) (burn : BurnResult) (env : BootEnv) (s : State) : Res := ringCmd t s <| sensitive fun s =>
  admitCmd .supervisor [(s.anyAxisEn || s.anyActive || !lcAllowed s target, .badState)] (fun s =>
    let bit := BitVec.ofNat 32 (2 ^ (target - 1))
    let failed := burnFails s 128 bit burn
    let s := burnWord 128 bit burn s
    if failed then (if burn.cut then cutShort s else complete .supervisor .integrity 0 s)
    else
      let s := (wipeSecure (enterLc target s)).modSec fun x => { x with session := none }
      warmStart 2 env (complete .supervisor .ok 0 s)) s

/-! ## OTP reads (R393, R394) -/

/-- OTP_RD_ADDR (R394): a read starts, or starts again. -/
def execOtpRdAddr (t : Nat) (word : Fin 256) (s : State) : Res := ringCmd t s fun s =>
  (s.wr Reg.otpRdAddr 0 (BitVec.ofNat 32 word)).modSec fun x => { x with otpRead := some s.now, otpReady := false }

/-- OTP_READ_DONE (R393, R394): 1.6 µs later the word is there. -/
def execOtpReadDone (t : Nat) (s : State) : Res := run t s fun s =>
  match s.sec.otpRead with
  | some at_ =>
    if at_ + 12800 ≤ s.now then
      s.modSec fun x => { x with otpRead := none, otpReady := true, otpData := hostWord s (s.fld Reg.otpRdAddr 0 7 0) }
    else s
  | none => s

/-! ## Tamper sources (R399, R484) -/

/-- TAMPER_INPUT (R399): an enabled input low for FILT µs. -/
def execTamperInput (t : Nat) (n : Fin 4) (lowUs : Nat) (s : State) : Res := run t s fun s =>
  if s.fld Reg.secTamperCfg 0 n n = 1 ∧ s.fld Reg.secTamperCfg 0 11 4 ≤ lowUs then tamperEvent n s else s

/-- Whether a rail (0 VDD_CORE, 1 VDD_SRAM, 2 the AON core rail) is outside its limits (R484). -/
def railOut (rail mv : Nat) : Bool :=
  match rail with
  | 0 => decide (mv < 680 ∨ 880 < mv)
  | 1 => decide (mv < 720 ∨ 880 < mv)
  | 2 => decide (mv < 700 ∨ 900 < mv)
  | _ => false

/-- Whether a rail's detector is active: the core rails from start-up until RST_N falls, the AON core rail from PROVISIONED
onward (R399). -/
def railArmed (s : State) (rail : Nat) : Bool := if rail < 2 then s.dev.rstN else lifeCycle s != 0

/-- VOLTAGE_DETECTOR (R399, R484): a tamper event; VDD_CORE below 0.5 V then acts as a main power-on, which the release of
RST_N completes. -/
def execVoltageDetector (t rail millivolts : Nat) (s : State) : Res := run t s fun s =>
  if railArmed s rail ∧ railOut rail millivolts then
    let s := tamperEvent 4 s
    if rail = 0 ∧ millivolts < 500 then (cleared true s).modDev fun d => { d with rstN := false } else s
  else s

/-- CLOCK_DETECTOR (R399): CLK_SYS or CLK_MET, while it runs, more than 10 % from nominal; `permille` is the deviation. -/
def execClockDetector (t : Nat) (met : Bool) (permille : Nat) (s : State) : Res := run t s fun s =>
  let runs := if met then s.met.st != .absent else s.lsi.pllLock != 0
  if lifeCycle s ≠ 0 ∧ runs ∧ 100 < permille then tamperEvent 5 s else s

/-- TEMPERATURE_DETECTOR (R399): the AON sensor below −45 °C or above 135 °C. -/
def execTemperatureDetector (t : Nat) (celsius : Int) (s : State) : Res := run t s fun s =>
  if lifeCycle s ≠ 0 ∧ (celsius < -45 ∨ 135 < celsius) then tamperEvent 6 s else s

/-- SEC_TAMPER_CLEAR (R400): a write of 1 clears a latch, in FIELD and RETURN only within a session. -/
def execSecTamperClear (t : Nat) (value : Word) (s : State) : Res := ringCmd t s fun s =>
  if sensitiveRefused s then s.recordErr Reg.secErr 0 0x008 .authFail
  else s.modSec fun x => { x with tamper := x.tamper &&& ~~~(BitVec.ofNat 7 value.toNat) }

end Sys2Proof.Machine
end

