-- ==== Sys2Proof/Machine/Partition.lean ====
section
/-! DEFINITION. The sealed partition (chapter 21): its states, weighing frames, seal-break and event counter, the mailbox
commands, and the completions at 2.000 ms (R388, R390, R420). -/

namespace Sys2Proof.Machine

/-! ## The mailbox (R420) -/

/-- The response of the mailbox: TAG and STATUS, and DONE. -/
def mbxAnswer (st : Status) (s : State) : State :=
  (s.modMet fun m => { m with busy := false, rsp := [BitVec.ofNat 32 (m.mailboxTag + 2 ^ 16 * st.code)] }).setFld
    Reg.metMbxCtrl 0 2 2 1

/-- The form of a mailbox command: GO while BUSY is ignored; a sensitive one may be refused at 2.000 ms (R390, R420). -/
def mailbox (isSensitive : Bool) (conds : State → List (Bool × Status)) (f : State → State) (s : State) : State :=
  if s.met.busy then s
  else
    let s := s.modMet fun m => { m with mailboxTag := s.fld Reg.metMbxReq 0 31 16 }
    if isSensitive && sensitiveRefused s then
      (s.modMet fun m => { m with busy := true }).modSec fun x => { x with timed := x.timed ++ [(.mailbox, s.now)] }
    else
      let s := when isSensitive (fun s => s.modSec fun x => { x with session := x.session.map fun y => { y with lastAct := s.now } }) s
      match firstRefusal ((s.met.st == .absent, .badState) :: conds s) with
      | .ok => mbxAnswer .ok (f s)
      | st => mbxAnswer st s

/-- A command that writes an event record is BUSY while fewer than 64 records are free (R414). -/
def evtShort (s : State) : Bool × Status := (decide (evtFree s < 64), .busy)

/-! ## Completions at 2.000 ms (R388, R390) -/

/-- What completes. -/
def finishTimed (e : Timed) (s : State) : State :=
  match e with
  | .refusal => complete .supervisor .authFail 0 s
  | .mailbox => mbxAnswer .authFail s
  | .phase1 true =>
    let n := s.sec.sessions + 1
    complete .supervisor .ok n (s.modSec fun x => { x with session := some ⟨n, s.now⟩, sessions := n })
  | .phase1 false => complete .supervisor .authFail 0 s

/-- Whether 2.000 ms have passed since a command was taken. -/
def timedDue (s : State) (e : Timed × Nat) : Bool := decide (e.2 + 2 * ms8 ≤ s.now)

/-- AUTH_FAIL_COMPLETION (R388, R390, R420). -/
def execAuthFailCompletion (t : Nat) (s : State) : Res := run t s fun s =>
  (s.sec.timed.filter (timedDue s)).foldl (fun s e => finishTimed e.1 s)
    (s.modSec fun x => { x with timed := x.timed.filter fun e => !timedDue s e })

/-! ## States (R403, R404) -/

/-- The state outside STARTING and LOCKED (Table 21.1). -/
def openState (s : State) : MetSt := if !s.met.sealPin then .broken else if regionFinal s 4 then .sealedSt else .unsealed

/-- Enter LOCKED (R404); a lockstep or clock cause outlasts a flash or counter cause. -/
def lockPartition (cause : LockCause) (s : State) : State :=
  match s.met.st with
  | .absent => s
  | .locked => s.modMet fun m => { m with cause := if m.cause = .lockstep ∨ m.cause = .clock then m.cause else cause }
  | _ => metEvent 10 [(match cause with | .none => 0 | .lockstep => 1 | .clock => 2 | .flash => 3 | .counter => 4)]
      (alarm .metLocked noInst (s.modMet fun m => { m with st := .locked, cause := cause }))

/-- Bits set in words 160 to 175: b of R419. -/
def counterBits (s : State) : Nat := ((List.range 16).map fun i => ones (otpWord s (160 + i))).sum

/-- Burn bit n of words 160 to 175, counting from bit 0 of word 160. -/
def burnCounter (n : Nat) (s : State) : State := otpSet (160 + n / 32) (BitVec.ofNat 32 (2 ^ (n % 32))) s

/-- One increment of the event counter (R415). -/
def countEvent (s : State) : State :=
  let c := s.met.c + 1
  when (c % 16 == 0) (burnCounter (c / 16 - 1)) (s.modMet fun m => { m with c := c })

/-- The running MTI shows its version, identifier and digest (R418). -/
def showMti (s : State) : State :=
  match s.fw.mtiActive with
  | some i => s.modMet fun m => { m with swver := i.version, swid := i.swid, digest := Config.sha384 i.body }
  | none => s.modMet fun m => { m with swver := 0, swid := [], digest := [] }

/-- MET_STARTUP_CHECK (R403, R404, R419): `flashOk` says that a copy of the sealed flash region is valid, and `c` is the
counter of the newer copy whose check word holds. -/
def execMetStartupCheck (t : Nat) (flashOk : Bool) (c : Nat) (s : State) : Res := run t s fun s =>
  if s.met.st = .starting then
    let s := showMti s
    if flashOk then
      let b := counterBits s
      let s := s.modMet fun m => { m with c := c }
      if 16 * b ≤ c ∧ c ≤ 16 * b + 16 then
        metEvent 11 [] ((when (c == 16 * b + 16) (burnCounter b) s).modMet fun m => { m with st := openState s })
      else lockPartition .counter s
    else lockPartition .flash s
  else s

/-- The transaction records of items bound and not final are written with RESULT 3, and the items end VOID (Table 21.8). -/
def voidSealed (s : State) : State :=
  (List.finRange 64).foldl (fun s (c : Fin 64) =>
    let open_ := (s.jobs[c]).items.filter fun it => it.sealedBind.isSome && it.outcome.isNone
    let s := open_.foldl (fun s it => match it.sealedBind with
      | some b => raiseAudit (.transaction s.met.anum it.seq c b.channel 3 b.wseq b.net b.article b.unit b.total s.met.c 9)
          (s.modMet fun m => { m with anum := m.anum + 1 })
      | none => s) s
    s.modJob c fun j => { j with items := j.items.map fun it =>
      if it.sealedBind.isSome && it.outcome.isNone then { it.flag 9 none with sealedBind := none } else it }) s

/-- LOCKSTEP_MISMATCH (R404, Table 21.8). -/
def execLockstepMismatch (t : Nat) (s : State) : Res := run t s fun s =>
  if s.met.st = .absent then s else lockPartition .lockstep (settleAll (voidSealed s))

/-- CLK_MET_DEVIATION (R404, Table 27.10): MET_OK shows whether CLK_MET is within 5 % of nominal; further off it locks the
partition. -/
def execClkMetDeviation (t permille : Nat) (s : State) : Res := run t s fun s =>
  if s.met.st = .absent then s
  else
    let s := s.modLsi fun l => { l with metOk := decide (permille ≤ 50) }
    if 50 < permille then lockPartition .clock s else s

/-- MET_SEAL_N_EDGE (R403, R416): after its 10 ms filter the edge writes an event record and decides the state. -/
def execMetSealNEdge (t : Nat) (high : Bool) (heldNs : Nat) (s : State) : Res := run t s fun s =>
  if 10000000 ≤ heldNs ∧ high ≠ s.met.sealPin then
    let s := s.modMet fun m => { m with sealPin := high }
    match s.met.st with
    | .absent => s
    | .starting | .locked => metEvent (if high then 2 else 1) [] s
    | _ => metEvent (if high then 2 else 1) [] (s.modMet fun m => { m with st := openState s })
  else s

/-! ## Weighing input (R405 to R407) -/

/-- The partition serves its ports in every state but ABSENT and STARTING. -/
def portsRun (s : State) : Bool := s.met.st != .absent && s.met.st != .starting

/-- Replace a channel. -/
def modCh (c : Fin 16) (f : MetCh → MetCh) (s : State) : State := s.modMet fun m => { m with chs := upd m.chs c f }

/-- The channel that a port polls next: the first enabled one from `next` on whose queue has room. -/
def nextChannel (s : State) (port : Fin 4) : Option Nat :=
  ((List.range 4).map fun i => 4 * port.val + ((s.met.next[port]) + i) % 4).find? fun c =>
    (s.met.chcfg[Fin.ofNat 16 c]).enable && decide ((s.met.chs[Fin.ofNat 16 c]).queue.length < 64)

/-- WEIGHING_POLL (R406): no poll is outstanding on the port. -/
def execWeighingPoll (t : Nat) (port : Fin 4) (s : State) : Res := run t s fun s =>
  match portsRun s && (s.met.polled[port]).isNone, nextChannel s port with
  | true, some c =>
    let s := s.modMet fun m => { m with next := upd m.next port fun _ => (c + 1) % 4, polled := upd m.polled port fun _ => some (c, s.now) }
    s.emit (.metSerial port (s.met.chcfg[Fin.ofNat 16 c]).addr (((s.met.chs[Fin.ofNat 16 c]).last).getD 0xFFFFFFFF))
  | _, _ => s

/-- A reply has come: the poll is over, and SILENT clears. -/
def replied (c : Fin 16) (s : State) : State :=
  let p : Fin 4 := Fin.ofNat 4 (c.val / 4)
  modCh c (fun x => { x with missing := 0, silent := false })
    (s.modMet fun m => { m with polled := upd m.polled p fun q => q.filter fun y => y.1 != c.val })

/-- A frame of a channel: with a bad CRC it is discarded and counted (R405). -/
def chFrame (c : Fin 16) (crcOk : Bool) (f : State → State) (s : State) : State :=
  if portsRun s then
    if crcOk then f (replied c s) else modCh c (fun x => { x with err := min 255 (x.err + 1) }) s
  else s

/-- Queue a weighing (R407); a channel whose queue is full is not polled. -/
def queueWeighing (c : Fin 16) (w : Weighing) (s : State) : State :=
  modCh c (fun x => if x.queue.length < 64 then { x with last := some w.wseq, queue := x.queue ++ [w] } else x) s

/-- What a WEIGHING does (R406). The first one after a start or CHANNEL_RESET takes any WSEQ, and an event record, whose
KIND the spec leaves open, records it (log entry 58). -/
def takeFrame (c : Fin 16) (w : Weighing) (s : State) : State :=
  match (s.met.chs[c]).last with
  | none =>
    let d := s.draw
    metEvent (d.1 % 256) [(c.val : Int), (w.wseq : Int)] (queueWeighing c w d.2)
  | some l =>
    if w.wseq = l then s
    else if w.wseq = (l + 1) % 2 ^ 32 then queueWeighing c w s
    else alarm .metWseqGap c (modCh c (fun x => { x with fault := true }) s)

/-- WEIGHING_FRAME (R406). -/
def execWeighingFrame (t : Nat) (ch : Fin 16) (crcOk : Bool) (w : Weighing) (s : State) : Res := run t s <|
  chFrame ch crcOk (takeFrame ch w)

/-- NONE_FRAME (R406). -/
def execNoneFrame (t : Nat) (ch : Fin 16) (crcOk : Bool) (s : State) : Res := run t s <| chFrame ch crcOk id

/-- ERROR_FRAME (Table 21.2): the code is recorded only. -/
def execErrorFrame (t : Nat) (ch : Fin 16) (crcOk : Bool) (code : Nat) (s : State) : Res := run t s <|
  chFrame ch crcOk (modCh ch fun x => { x with code := code })

/-- When a poll's reply must have started: 200 µs after the end of its ten characters of ten bits (R406). -/
def replyDue (s : State) (port at_ : Nat) : Nat := at_ + 100 * sec8 / max 1 (s.met.glob.baud.getD port 9600) + 200 * us8

/-- WEIGHING_REPLY_TIMEOUT (R406): three replies missing in a row set SILENT. -/
def execWeighingReplyTimeout (t : Nat) (ch : Fin 16) (s : State) : Res := run t s fun s =>
  let p : Fin 4 := Fin.ofNat 4 (ch.val / 4)
  match s.met.polled[p] with
  | some (c, at_) =>
    if c = ch.val ∧ replyDue s p at_ ≤ s.now then
      modCh ch (fun x => { x with missing := x.missing + 1, silent := x.silent || decide (3 ≤ x.missing + 1) })
        (s.modMet fun m => { m with polled := upd m.polled p fun _ => none })
    else s
  | none => s

/-! ## Mailbox commands (Table 21.7) -/

/-- The price table after a PRICE_SET: each entry sets its article's price, or deletes it. -/
def setPrices (entries : List (Nat × Nat)) (prices : List (Nat × Nat)) : List (Nat × Nat) :=
  entries.foldl (fun l e => if e.2 = 0 then l.filter fun x => x.1 != e.1 else assocSet e.1 e.2 l) prices

/-- Refusals of PRICE_SET. -/
def priceConds (entries : List (Nat × Nat)) (s : State) : List (Bool × Status) :=
  [(decide (entries.length = 0 ∨ 30 < entries.length) || entries.any (fun e => decide (10 ^ 9 < e.2)) ||
      decide (65536 < (setPrices entries s.met.prices).length), .range), evtShort s]

/-- PRICE_SET. -/
def execPriceSet (t : Nat) (entries : List (Nat × Nat)) (s : State) : Res := ringCmd t s <|
  mailbox false (priceConds entries) fun s =>
    metEvent 7 (entries.flatMap fun e => [(e.1 : Int), (e.2 : Int)])
      (s.modMet fun m => { m with prices := setPrices entries m.prices })

/-- The lane map after a LANE_MAP: 0xFF takes a lane's channel away. -/
def setLanes (ctx : Nat) (entries : List (Nat × Nat)) (l : List (Nat × Nat × Nat)) : List (Nat × Nat × Nat) :=
  entries.foldl (fun l e =>
    let rest := l.filter fun x => !(x.1 == ctx && x.2.1 == e.1)
    if e.2 = 0xFF then rest else rest ++ [(ctx, e.1, e.2)]) l

/-- Refusals of LANE_MAP. -/
def laneMapConds (ctx : Nat) (entries : List (Nat × Nat)) (s : State) : List (Bool × Status) :=
  [(decide (ctx < 64) && (s.jobs[Fin.ofNat 64 ctx]).st != .loaded, .badState),
   (decide (64 ≤ ctx) || entries.any (fun e => decide (63 < e.1 ∨ (15 < e.2 ∧ e.2 ≠ 0xFF))), .range), evtShort s]

/-- LANE_MAP. -/
def execLaneMap (t ctx : Nat) (entries : List (Nat × Nat)) (s : State) : Res := ringCmd t s <|
  mailbox false (laneMapConds ctx entries) fun s =>
    metEvent 8 ((ctx : Int) :: entries.flatMap fun e => [(e.1 : Int), (e.2 : Int)])
      (s.modMet fun m => { m with laneMap := setLanes ctx entries m.laneMap })

/-- CHANNEL_RESET (R406). -/
def execChannelReset (t ch : Nat) (s : State) : Res := ringCmd t s <|
  mailbox false (fun s => [(decide (15 < ch), .range), evtShort s]) fun s =>
    metEvent 9 [(ch : Int)] (modCh (Fin.ofNat 16 ch) (fun x => { x with queue := [], fault := false, last := none }) s)

/-- The audit number of a record. -/
def AuditRec.num : AuditRec → Nat
  | .transaction n .. => n
  | .event n .. => n

/-- AUDIT_RELEASE (R414): with LOSS, an event record of KIND 12 names the lost range. -/
def execAuditRelease (t anum : Nat) (loss : Bool) (s : State) : Res := ringCmd t s <|
  mailbox false (fun _ => []) fun s =>
    let s := s.modMet fun m => { m with events := m.events.filter fun r => decide (anum < AuditRec.num r) }
    if loss && s.met.loss then
      metEvent 12 [(s.met.lossRange.1 : Int), (s.met.lossRange.2 : Int)] (s.modMet fun m => { m with loss := false })
    else s

/-- Whether a job with sealed fields runs. -/
def sealedRuns (s : State) : Bool :=
  s.jobs.toList.any fun j => j.st.active && j.pkg.any fun pk => pk.fields.any fun f => f.type == 6

/-- The counted commands stop at c = 8,192 (R415). -/
def countFull (s : State) : Bool × Status := (decide (8192 ≤ s.met.c), .sealed)

/-- A SFDEF record (Table 21.4). -/
def parseSfDef (r : Bytes) : SfDef :=
  { content := u8 r 0, plane := u8 r 1, level := u8 r 2, scale := u8 r 3, wdec := u8 r 4, suffix := u8 r 5, chars := u8 r 6 }

/-- Whether the values of a SFDEF are in range; LEVEL by the BITS of its plane. -/
def sfDefOk (s : State) (d : SfDef) : Bool :=
  let top := match s.planeRec d.plane with
    | some p => 2 ^ p.bits - 1
    | none => 255
  decide (1 ≤ d.content ∧ d.content ≤ 5 ∧ d.plane ≤ 7 ∧ 1 ≤ d.level ∧ d.level ≤ top ∧ 1 ≤ d.scale ∧ d.scale ≤ 8 ∧
    d.wdec ≤ 3 ∧ d.suffix ≤ 1 ∧ 1 ≤ d.chars ∧ d.chars ≤ 20)

/-- A CHCFG record (Table 21.6). -/
def parseChCfg (r : Bytes) : ChCfg :=
  { enable := u8 r 0 == 1, addr := u8 r 1, interval := u32 r 4, min := u32 r 8, max := u32 r 12 }

/-- Whether the values of a CHCFG are in range. -/
def chCfgOk (r : Bytes) : Bool :=
  let c := parseChCfg r
  decide (u8 r 0 ≤ 1 ∧ 1 ≤ c.addr ∧ c.addr ≤ 0xFE ∧ 1 ≤ c.interval ∧ c.interval ≤ 10000000 ∧ c.min ≤ c.max ∧
    c.max ≤ 100000000)

/-- The GLOBAL parameters (Table 21.6). -/
def parseGlob (r : Bytes) : Glob :=
  { priceDec := u8 r 0, mark := u8 r 1, cur := [u8 r 2, u8 r 3, u8 r 4], baud := [u32 r 8, u32 r 12, u32 r 16, u32 r 20] }

/-- Whether the GLOBAL parameters are in range. -/
def globOk (g : Glob) : Bool := decide (g.priceDec ≤ 3) && g.baud.all fun b => decide (9600 ≤ b ∧ b ≤ 921600)

/-- Whether a PARAM_WRITE is in range: its block, its index, the length of its record and the values. -/
def paramOk (s : State) (block index : Nat) (r : Bytes) : Bool :=
  match block with
  | 0 => decide (index ≤ 15 ∧ r.length = 16) && sfDefOk s (parseSfDef r)
  | 1 => decide (index ≤ 15 ∧ r.length = 16) && chCfgOk r
  | 2 => decide (index = 0 ∧ r.length = 24) && globOk (parseGlob r)
  | _ => false

/-- Store a parameter record. -/
def setParam (block index : Nat) (r : Bytes) (m : Met) : Met :=
  match block with
  | 0 => { m with sfdef := upd m.sfdef (Fin.ofNat 16 index) fun _ => parseSfDef r }
  | 1 => { m with chcfg := upd m.chcfg (Fin.ofNat 16 index) fun _ => parseChCfg r }
  | _ => { m with glob := parseGlob r }

/-- Refusals of PARAM_WRITE (R416). -/
def paramConds (block index : Nat) (r : Bytes) (s : State) : List (Bool × Status) :=
  [(s.met.st != .broken || sealedRuns s, .badState), (!paramOk s block index r, .range), evtShort s, countFull s]

/-- PARAM_WRITE (R415, R416). -/
def execParamWrite (t block index : Nat) (record : Bytes) (s : State) : Res := ringCmd t s <|
  mailbox true (paramConds block index record) fun s =>
    metEvent 3 ((block : Int) :: (index : Int) :: record.map fun b => (b.toNat : Int))
      (countEvent (s.modMet (setParam block index record)))

/-- A burn without a failing cell. -/
def cleanBurn : BurnResult := { failed := 0, single := 0, cut := false }

/-- Burn bytes into consecutive words, least significant byte first. -/
def burnBytes (first : Nat) (bytes : Bytes) (s : State) : State :=
  (List.range (bytes.length / 4)).foldl (fun s i => burnWord (first + i) (BitVec.ofNat 32 (u32 bytes (4 * i))) cleanBurn s) s

/-- Burn unknown parts of words: which cells hold after a failed burn is open. -/
def burnPart (first : Nat) (bytes : Bytes) (s : State) : State :=
  (List.range (bytes.length / 4)).foldl (fun s i =>
    let d := s.draw
    burnWord (first + i) (BitVec.ofNat 32 (u32 bytes (4 * i))) { cleanBurn with failed := BitVec.ofNat 32 d.1 } d.2) s

/-- What SEAL_FINALISE burns before the digest: the approval ID and the digest of the running MTI. -/
def sealBytes (approval : Bytes) (s : State) : Bytes := approval ++ s.met.digest

/-- SEAL_FINALISE (R415, R417). A burn that fails ends it with INTEGRITY, and SEAL is then not finalised. -/
def execSealFinalise (t : Nat) (approval : Bytes) (burnOk : Bool) (s : State) : Res := ringCmd t s fun s =>
  if burnOk then
    mailbox true (fun s => [(s.met.st != .broken || regionFinal s 4, .badState), (approval.length != 16, .range), evtShort s,
        countFull s]) (fun s =>
      metEvent 4 (approval.map fun b => (b.toNat : Int))
        (countEvent (burnDigest 4 cleanBurn cleanBurn (burnBytes 144 (sealBytes approval s) s)))) s
  else
    mailbox true (fun s => [(s.met.st != .broken || regionFinal s 4, .badState), (approval.length != 16, .range), evtShort s,
        countFull s, (true, .integrity)]) id
      (if !s.met.busy && !sensitiveRefused s && s.met.st == .broken && !regionFinal s 4 && approval.length == 16 &&
          !(evtShort s).1 && !(countFull s).1
       then burnPart 144 (sealBytes approval s) s else s)

/-- Whether RECONCILE may run: the seal is broken, and the partition is BROKEN or LOCKED by flash or counter (R404, R419). -/
def reconcilable (s : State) : Bool :=
  s.met.st == .broken || (s.met.st == .locked && !s.met.sealPin && (s.met.cause == .flash || s.met.cause == .counter))

/-- RECONCILE (R404, R415, R419): c is set to 16b, the event names the old c, and c is incremented. -/
def execReconcile (t : Nat) (s : State) : Res := ringCmd t s <|
  mailbox true (fun s => [(!reconcilable s, .badState), evtShort s, countFull s, (decide (8192 ≤ 16 * counterBits s), .sealed)])
    fun s =>
      let old := s.met.c
      let s := countEvent (s.modMet fun m => { m with c := 16 * counterBits s })
      metEvent 5 [(old : Int)] (s.modMet fun m => { m with st := openState s, cause := .none })

end Sys2Proof.Machine
end

