-- ==== Sys2Proof/Machine/Calibration.lean ====
section
/-! DEFINITION. Calibration (chapter 22): CAL_RUN, what a measurement computes, its limits, the store, CAL_READ. -/

namespace Sys2Proof.Machine

/-- Kinds that print a pattern (R424). -/
def calPrints (kind : Nat) : Bool := kind == 1 || kind == 2 || kind == 3 || kind == 4 || kind == 6

/-- The gauges of Table 22.2; their place is the code of Table 22.5. -/
def calGauges : List Nat := [2400, 1200, 800, 600, 300]

/-- Whether KIND and INDEX name an instance of the active structure. Encoder inputs and die sensors are the device's own. -/
def calIndexOk (s : State) (kind index : Nat) : Bool :=
  match kind with
  | 6 | 7 => decide (index < 16)
  | 1 | 2 | 3 | 4 | 5 => s.str.tables.any fun t => calExists t { kind := kind, index := index, rseq := 0, count := 0, time := 0, data := [] }
  | _ => false

/-- The location of the instance lies beyond the area of the calibration store (R499). -/
def calBeyond (s : State) (kind index : Nat) : Bool :=
  match kind with
  | 1 | 2 | 3 => decide (s.lsi.calHeads ≤ index)
  | 4 => decide (2 * s.lsi.calHeads ≤ index)
  | _ => false

/-- Whether ARG is in the range of Table 22.3. -/
def calArgOk (kind : Nat) (arg : Int) : Bool :=
  match kind with
  | 1 | 2 | 3 => arg == 0
  | 4 => decide (1 ≤ arg ∧ arg ≤ 254)
  | 7 => decide (-640 ≤ arg ∧ arg ≤ 2400)
  | _ => true

/-- Whether SPEED and GAUGE are those of Table 22.2. -/
def calWebOk (kind speed gauge : Nat) : Bool :=
  if calPrints kind then decide (100000 ≤ speed ∧ speed ≤ 10000000) && calGauges.contains gauge
  else speed == 0 && gauge == 0

/-- Whether the mode is one of Table 22.1. -/
def calModeOk (s : State) (kind : Nat) : Bool :=
  match kind with
  | 5 => s.modeIn [.standby, .service]
  | 7 => s.modeIn [.standby]
  | _ => s.modeIn [.service]

/-- The web master is locked, its speed within SPEED ± 1 %, and a scan bridge is READY (Table 22.3). -/
def calWebRuns (s : State) (speed : Nat) : Bool :=
  s.pac.est.locked && decide ((100 * (webSpeed s - speed)).natAbs ≤ speed) &&
    s.str.tables.any fun t => t.endpoints.any fun e => e.kind == 2 && epReady s e

/-- Dead nozzles among a head's nozzles from `first` on. -/
def deadCount (s : State) (t : StructTables) (head first n : Nat) : Nat :=
  match headPlane t head with
  | some p => ((s.planes[Fin.ofNat 8 p]).health.filter fun e => e.1 == head && decide (first ≤ e.2.1 ∧ e.2.1 < first + n) && e.2.2 != 0).length
  | none => 0

/-- Preconditions of a kind as far as the device's state shows them (Table 22.3). -/
def calStateOk (s : State) (kind index speed : Nat) : Bool :=
  match s.str.tables with
  | none => kind == 7
  | some t =>
    (if calPrints kind then calWebRuns s speed else true) &&
    match kind with
    | 3 => match t.heads.find? fun h => h.head == index with
      | some h => decide (100 * deadCount s t index 0 h.nozzles ≤ (headWales t h).length)
      | none => false
    | 4 => match t.wgs.find? fun w => w.wg == index with
      | some w => deadCount s t w.head w.first w.count == 0
      | none => false
    | 5 => (List.finRange 8).all (fun (n : Fin 8) => !(match s.baRec n with
        | some a => a.sdA == index || a.sdB == index
        | none => false) || (s.ba[n]).st == .off) && (s.sdCh index).any Sd.valid
    | 6 => srcKind (s.rd Reg.pacSrc) == 1 && srcIndex (s.rd Reg.pacSrc) == index && s.fld Reg.encStatus index 0 0 == 1
    | 7 => s.clusters.toList.all (fun c => c.power == .off) && (s.pwr.sensors[Fin.ofNat 16 index]).valid &&
        !(s.pwr.sensors[Fin.ofNat 16 index]).ovr
    | _ => true

/-- Refusals of CAL_RUN (R423, R372); `pre` says whether what the state does not show holds. -/
def calConds (s : State) (kind flags index : Nat) (arg : Int) (speed gauge : Nat) (pre : Bool) : List (Bool × Status) :=
  [(decide (1 < flags), .format),
   (!calIndexOk s kind index || !calArgOk kind arg || !calWebOk kind speed gauge || calBeyond s kind index, .range),
   (!calModeOk s kind, .badMode), (s.cal.run.isSome, .busy),
   (s.dummy || !calStateOk s kind index speed || !pre, .badState)]

/-- CAL_RUN (R423): a run starts. -/
def execCalRun (t kind flags index : Nat) (arg : Int) (speed gauge : Nat) (precondition : Bool) (s : State) : Res := ringCmd t s <|
  fun s => admitCmd .supervisor (calConds s kind flags index arg speed gauge precondition) (fun s =>
    { s with cal := { s.cal with run := some ⟨kind, index, flags == 1, arg, speed, gauge, s.now⟩ } }) s

/-! ## Results (R425) -/

/-- What a measurement gives: the record's data and the first failing item, when a limit is broken. -/
abbrev CalResult := List Int × Option Nat

/-- The first index of a list at which a test holds. -/
def firstFailing {α : Type} (bad : α → Bool) (l : List α) : Option Nat := (l.zipIdx.find? fun x => bad x.1).map (·.2)

/-- Head registration, from the PHASE in force. -/
def calPhase (old : Int) (gauge : Nat) (yerr xerr : Int) : CalResult :=
  let d := floorDiv (2 * yerr * 64 * gauge + 25400000) 50800000
  let new := old - d
  ([new, (calGauges.idxOf gauge : Nat), yerr, xerr],
   if d.natAbs ≤ 32 ∧ -64 ≤ new ∧ new ≤ 63 then none else some 0)

/-- Stitch weights against their limits: the first at least 192, the last at most 63, none above the one before. -/
def calStitch (w : Nat) (weights : List Nat) : CalResult :=
  let bad (x : Nat × Nat) : Bool :=
    (x.2 == 0 && decide (x.1 < 192)) || (x.2 + 1 == w && decide (63 < x.1)) ||
      (x.2 != 0 && decide (weights.getD (x.2 - 1) 0 < x.1)) || decide (w ≤ x.2)
  (weights.map fun v => (v : Int),
   match firstFailing bad weights.zipIdx with
   | some i => some i
   | none => if weights.length = w then none else some weights.length)

/-- One density factor. -/
def densityNew (f : Int) (e m : Nat) : Int := floorDiv (2 * f * (255 - (e : Int)) + (255 - (m : Int))) (2 * (255 - (m : Int)))

/-- Density factors against their limits: M below 255, each from 64 to 255, at most 1 % of the nozzles at a limit. -/
def calDensity (old : Nat → Int) (em : List (Nat × Nat)) : CalResult :=
  let fs := em.zipIdx.map fun x => densityNew (old x.2) x.1.1 x.1.2
  let bad := firstFailing (fun (x : (Nat × Nat) × Int) => decide (255 ≤ x.1.2 ∨ x.2 < 64 ∨ 255 < x.2)) (em.zip fs)
  let atEdge := fs.zipIdx.filter fun x => x.1 == 64 || x.1 == 255
  (fs, match bad with
    | some i => some i
    | none => (atEdge[em.length / 100]?).map (·.2))

/-- WG amplitude. -/
def calAmplitude (old : Int) (arg : Int) (m : Nat) : CalResult :=
  let g := floorDiv (2 * old * (255 - arg) + (255 - (m : Int))) (2 * (255 - (m : Int)))
  ([g, (m : Int)], if m < 255 ∧ 512 ≤ g ∧ g ≤ 1536 ∧ (g - old).natAbs ≤ 256 then none else some 0)

/-- Current offset, or gain where ARG names a reference current. -/
def calCurrent (offset gain arg mean : Int) : CalResult :=
  if arg = 0 then ([mean, gain], if mean.natAbs ≤ 2048 then none else some 0)
  else if mean - offset < 256 then ([offset, gain], some 0)
  else
    let g := floorDiv (2 * arg * 65536 + (mean - offset)) (2 * (mean - offset))
    ([offset, g], if 32768 ≤ g ∧ g ≤ 131072 then none else some 0)

/-- Encoder index offset: (MD − ARG) / SCALE to the nearest count, half up; SCALE is u32.32 nm. -/
def calIndexOffset (scale arg md : Int) : CalResult :=
  let k := if scale = 0 then 0 else floorDiv (2 * (md - arg) * 2 ^ 32 + scale) (2 * scale)
  ([k], if scale ≠ 0 ∧ k.natAbs ≤ 65535 then none else some 0)

/-- Die-sensor trim. -/
def calTrim (arg mean : Int) : CalResult :=
  let k := arg + 1024 - mean
  ([k], if k.natAbs ≤ 80 then none else some 0)

/-- What a run's measurement gives; none when it is not one of the run's kind. -/
def calResult (s : State) (r : CalRun) (m : CalMeasure) : Option CalResult :=
  match r.kind, m, s.str.tables with
  | 1, .headRegistration y x, _ => some (calPhase (signed 8 (s.fld Reg.pacHphase r.index 7 0)) r.gauge y x)
  | 2, .stitch l, some t => some (calStitch (((t.heads.find? fun h => h.head == r.index).map (zoneWidth t)).getD 0) l)
  | 3, .density em, some t => some (calDensity (fun n => (densityOf s t r.index n : Nat)) em)
  | 4, .wgAmplitude v, _ => some (calAmplitude ((s.wg r.index).gain : Nat) r.arg v)
  | 5, .current v, _ =>
    let d := ((s.calRec 5 r.index).map (·.data)).getD [0, 65536]
    some (calCurrent (d.getD 0 0) (d.getD 1 65536) r.arg v)
  | 6, .indexOffset v, _ => some (calIndexOffset (pacScale s) r.arg v)
  | 7, .dieSensor v, _ => some (calTrim r.arg v)
  | _, _, _ => none

/-! ## The store (R426, R431) -/

/-- The record that a run makes: RSEQ one above the highest in the store, COUNT one above the record it replaces. -/
def calRecord (s : State) (r : CalRun) (data : List Int) : CalRecord :=
  { kind := r.kind, index := r.index, rseq := (s.calStore.foldl (fun m x => max m x.rseq) 0) + 1,
    count := ((s.calRec r.kind r.index).map (·.count)).getD 0 + 1, time := rtcNow s, data := data }

/-- A record takes the place of the one at its location. -/
def storeCal (r : CalRecord) (s : State) : State :=
  { s with calStore := (s.calStore.filter fun q => !(q.kind == r.kind && q.index == r.index)) ++ [r] }

/-- Stitch weights enter as a generation, at once on an idle plane (R164, R426). -/
def calGeneration (head : Nat) (s : State) : State :=
  match s.str.tables with
  | none => s
  | some tb => match headPlane tb head with
    | none => s
    | some q =>
      let p : Fin 8 := Fin.ofNat 8 q
      if (s.planes[p]).runway.isEmpty then
        let g := (s.planes[p]).genNo + 1
        let k := installCourse s p
        let s := installGen tb p g [] s
        (genFrames p k g 0 []).foldl (fun s f => mirror f s) s
      else s.modPlane p fun x => { x with forced := true }

/-- A run ends with a status: CAL_LAST and the completion. -/
def endRunCal (r : CalRun) (st : Status) (result : Nat) (s : State) : State :=
  complete .supervisor st result
    { s with cal := { s.cal with run := none, lastStatus := st.code, lastKind := r.kind, lastIndex := r.index } }

/-- A plausible result: stored and applied unless DRY; the lead mirrors it (R426, R430). -/
def calOk (r : CalRun) (rec_ : CalRecord) (storeOk : Bool) (s : State) : State :=
  if r.dry then endRunCal r .ok 0 s
  else if !storeOk then endRunCal r .integrity 0 s
  else
    let s := calApply rec_ (storeCal rec_ s)
    let s := if r.kind = 2 then calGeneration r.index s else s
    endRunCal r .ok (rec_.rseq + 2 ^ 32 * rec_.count) (mirror (.cal rec_) s)

/-- CAL_MEASUREMENT_DONE (R423, R425, R426, R431). -/
def execCalMeasurementDone (t : Nat) (m : CalMeasure) (storeOk : Bool) (s : State) : Res := run t s fun s =>
  match s.cal.run with
  | none => s
  | some r =>
    if m = .preconditionLost then endRunCal r .badState 0 s
    else match calResult s r m with
      | none => s
      | some (data, bad) =>
        let rec_ := calRecord s r data
        let s := { s with cal := { s.cal with lastRecord := some rec_ } }
        match bad with
        | some i => endRunCal r .plausibility i s
        | none => calOk r rec_ storeOk s

/-- CAL_RUN_TIMEOUT (R423): 60 s. -/
def execCalRunTimeout (t : Nat) (s : State) : Res := run t s fun s =>
  match s.cal.run with
  | some r => if r.since + 60 * sec8 ≤ s.now then endRunCal r .timeout 0 s else s
  | none => s

/-! ## CAL_READ (R433) -/

/-- Bytes padded with zeros to a multiple of 4. -/
def pad4 (b : Bytes) : Bytes := b ++ List.replicate ((4 - b.length % 4) % 4) 0

/-- Two's complement bytes of a value. -/
def intData (n : Nat) (v : Int) : Bytes := leBytes n (unsigned (8 * n) v)

/-- The data of a record (Table 22.5). -/
def calData (r : CalRecord) : Bytes :=
  let v (i : Nat) : Int := r.data.getD i 0
  match r.kind with
  | 1 => intData 1 (v 0) ++ intData 1 (v 1) ++ [0, 0] ++ intData 4 (v 2) ++ intData 4 (v 3) ++ [0, 0, 0, 0]
  | 2 | 3 => leBytes 2 r.data.length ++ [0, 0] ++ pad4 (r.data.flatMap (intData 1))
  | 4 => intData 2 (v 0) ++ intData 2 (v 1)
  | 5 => intData 2 (v 0) ++ [0, 0] ++ intData 4 (v 1)
  | 7 => intData 2 (v 0) ++ [0, 0]
  | _ => intData 4 (v 0)

/-- A record as it is written (Table 22.4). -/
def calBytes (r : CalRecord) : Bytes :=
  let data := calData r
  let head := leBytes 1 r.kind ++ [1] ++ leBytes 2 r.index ++ leBytes 4 data.length ++ leBytes 4 r.rseq ++ leBytes 4 r.count ++
    leBytes 4 r.time ++ List.replicate 8 0
  head ++ leBytes 4 (Config.crc32c (head ++ data)) ++ data

/-- Instances of a kind that have a location. -/
def calLocations : Nat → Nat
  | 1 | 2 | 3 => 1024
  | 4 => 2048
  | 5 => 24
  | 6 | 7 => 16
  | _ => 0

/-- CAL_READ (R433). -/
def execCalRead (t kind flags index addr : Nat) (s : State) : Res := ringCmd t s fun s =>
  let found := if flags % 2 = 1 then s.cal.lastRecord else s.calRec kind index
  admitCmd .supervisor [(decide (1 < flags), .format), (decide (calLocations kind ≤ index), .range), (found.isNone, .notReady)]
    (fun s => match found with
      | some r => complete .supervisor .ok (calBytes r).length (s.emit (.hostWrite addr (calBytes r)))
      | none => s) s

end Sys2Proof.Machine
end

