-- ==== Sys2Proof/Machine/Loader.lean ====
section
/-! DEFINITION. The structure loader and structure activation (chapter 02), and the transfers of images that it shares with
updates (R434 to R438). -/

namespace Sys2Proof.Machine

/-! ## Transfers (R39, R437) -/

/-- Bits set in a class's thermometer (row 7 of Table 23.2). -/
def thermometer (s : State) (cls : Nat) : Nat :=
  let first := if cls = 1 then 130 else 136
  if cls = 3 then 0
  else ((List.range 192).filter fun i => (otpWord s (first + i / 32)).getLsbD (i % 32)).length

/-- The ROOT digest of a class (R435). -/
def classDigest (s : State) (cls : Nat) : Bytes := otpBytes s (if cls = 1 then 32 else if cls = 2 then 44 else 68) 12

/-- What the rows of Table 23.2 are compared with on this device. -/
def imageCtx (s : State) (cls length : Nat) : ImageCtx :=
  { cls := cls, length := length, hwtype := (otpWord s 2).toNat, unitId := unitId s, devRev := 0x41,
    fwiVersion := ((runningFwi s).map Image.version).getD 0, minSvn := thermometer s cls }

/-- A transfer just begun: its header and CRC table have arrived. -/
def newTransfer (s : State) (cls length : Nat) (header : Bytes) : Transfer :=
  { cls := cls, length := length, data := header.take (256 + 4 * u16 header 36), lastAt := s.now }

/-- Why a block is refused: RANGE where it does not continue from the one before or runs past the end, INTEGRITY where a
completed CRC block fails (R39). -/
def blockStatus (x : Transfer) (offset : Nat) (data : Bytes) : Status :=
  if offset ≠ x.data.length ∨ data = [] ∨ 65536 < data.length ∨ x.length < x.data.length + data.length then .range
  else if crcOk (x.data ++ data) (decide (x.data.length + data.length = x.length)) then .ok
  else .integrity

/-- A transfer with one more block. -/
def Transfer.add (x : Transfer) (now : Nat) (data : Bytes) : Transfer := { x with data := x.data ++ data, lastAt := now }

/-- Whether a transfer has had no command for 10 s (R40). -/
def Transfer.stale (x : Transfer) (now : Nat) : Bool := decide (x.lastAt + 10 * sec8 ≤ now)

/-- What the end of a transfer finds before any check of the body: RANGE until every byte has arrived, INTEGRITY under row
9. -/
def endStatus (s : State) (x : Transfer) : Status :=
  if x.data.length ≠ x.length then .range
  else if signatureOk x.data (classDigest s x.cls) then .ok else .integrity

/-- Replace the structure loader. -/
def State.modStr (s : State) (f : StrSt → StrSt) : State := { s with str := f s.str }

/-- Whether a structure transfer is open: STR_LOAD_BEGIN's, or one of class STI (R40). -/
def strOpen (s : State) : Bool := s.str.load.isSome || s.fw.xfer.any fun x => x.cls == 2

/-! ## Commands -/

/-- STR_LOAD_BEGIN (R39, R40). -/
def execStrLoadBegin (t length : Nat) (header : Bytes) (s : State) : Res := ringCmd t s fun s =>
  if strOpen s then complete .supervisor .busy 0 s
  else if s.isDisabled 0x01 0 then complete .supervisor .badState 0 s
  else
    let s := s.modStr fun x => { x with err := ⟨0, 0, 0⟩ }
    match headerRow header (imageCtx s 2 length) with
    | 0 => complete .supervisor .ok 0 (s.modStr fun x => { x with load := some (newTransfer s 2 length header) })
    | r => complete .supervisor (rowStatus r) 0 s

/-- STR_LOAD_BLOCK (R39). -/
def execStrLoadBlock (t offset : Nat) (data : Bytes) (s : State) : Res := ringCmd t s fun s =>
  match s.str.load with
  | none => complete .supervisor .badState 0 s
  | some x => match blockStatus x offset data with
    | .ok => complete .supervisor .ok 0 (s.modStr fun y => { y with load := some (x.add s.now data) })
    | st => complete .supervisor st 0 (s.modStr fun y => { y with load := none })

/-- STR_LOAD_END (R39): completeness, signature, then the body in the order of R508. -/
def execStrLoadEnd (t : Nat) (s : State) : Res := ringCmd t s fun s =>
  match s.str.load with
  | none => complete .supervisor .badState 0 s
  | some x =>
    let s := s.modStr fun y => { y with load := none }
    match endStatus s x with
    | .ok => match checkBody (Image.body ⟨x.data⟩) with
      | .inr _ => complete .supervisor .ok 0 (s.modStr fun y => { y with staged := some ⟨x.data⟩ })
      | .inl e => complete .supervisor e.st 0 (s.modStr fun y => { y with err := ⟨e.record, e.offset, e.sect⟩ })
    | st => complete .supervisor st 0 s

/-- STR_TRANSFER_TIMEOUT (R40): a transfer with no command for 10 s is discarded. -/
def execStrTransferTimeout (t : Nat) (s : State) : Res := run t s fun s =>
  if s.str.load.any fun x => x.stale s.now then s.modStr fun y => { y with load := none } else s

/-! ## Activation (R41, R42) -/

/-- A job context in another state than FREE or CLOSED. -/
def contextsBusy (s : State) : Bool := s.jobs.toList.any fun j => j.st != .free && j.st != .closed

/-- The slot that STR_ACTIVATE names: 0 staged, 1 previous; 2 stands for the active slot, which MODE_SET activates. -/
def strSlot (s : State) (slot : Nat) : Option Image :=
  if slot = 0 then s.str.staged else if slot = 1 then s.str.prev else s.str.active

/-- The refusals of STR_ACTIVATE. -/
def activateConds (s : State) (slot : Nat) : List (Bool × Status) :=
  [(!s.modeIn [.configure, .standby], .badMode), (contextsBusy s || s.anyAxisEn, .badState), (decide (1 < slot), .range),
   ((strSlot s slot).isNone, .notReady), (s.dev.activating.isSome, .busy)]

/-- Step 1 of Table 2.13. -/
def beginActivation (slot : Nat) (byModeSet : Bool) (s : State) : State :=
  let s := dropStructure s
  enterConfigure (s.modDev fun d => { d with activating := some ⟨slot, s.now, byModeSet⟩ })

/-- STR_ACTIVATE up to its acceptance (R41). -/
def strActivateCmd (slot : Nat) (s : State) : State :=
  sensitive (admitCmd .supervisor (activateConds s slot) (beginActivation slot false)) s

/-- STR_ACTIVATE (R41): the activation runs on until STR_ACTIVATION_DONE. -/
def execStrActivate (t slot : Nat) (s : State) : Res := ringCmd t s (strActivateCmd slot)

/-- The slot switch of R42. -/
def switchSlots (slot : Nat) (x : StrSt) : StrSt :=
  if slot = 0 then { x with active := x.staged, prev := x.active, staged := none }
  else if slot = 1 then { x with active := x.prev, prev := x.active }
  else x

/-- Empty the slot that an image was read from. -/
def emptySlot (slot : Nat) (x : StrSt) : StrSt :=
  if slot = 0 then { x with staged := none } else if slot = 1 then { x with prev := none } else { x with active := none }

/-- What the activation finds: the code of the failing row, INTEGRITY for a failure in step 3, or the tables. -/
def activationResult (s : State) (slot : Nat) (row : CheckRow) (installOk : Bool) : Status ⊕ StructTables :=
  if row ≠ 0 then .inl (rowStatus row)
  else match (strSlot s slot).bind imageTables, installOk with
    | some t, true => .inr t
    | _, _ => .inl .integrity

/-- STR_ACTIVATION_DONE: steps 2 to 5 of Table 2.13 end (R42, R439). -/
def execStrActivationDone (t : Nat) (row : CheckRow) (installOk : Bool) (s : State) : Res := run t s fun s =>
  match s.dev.activating with
  | none => s
  | some a =>
    let s := s.modDev fun d => { d with activating := none }
    match activationResult s a.slot row installOk with
    | .inl st => complete .supervisor st 0 (when (row != 0) (fun s => s.modStr (emptySlot a.slot)) s)
    | .inr tb => complete .supervisor .ok 0 (enterStandby ((installStructure tb s).modStr (switchSlots a.slot)))

end Sys2Proof.Machine
end

