-- ==== Sys2Proof/Machine/Modes.lean ====
section
/-! DEFINITION. Start-up, modes and resets (chapter 03): RST_N, the boot watchdog, MODE_SET, DEV_WARM_RESET, the power of
AON, and the entropy source with the commands that wait for it (R51, R401). -/

namespace Sys2Proof.Machine

/-! ## Power and resets -/

/-- RST_N_RELEASE (R47): power-on start-up. With AON just powered the cause is bit 0 (Table 3.8). -/
def execRstNRelease (t : Nat) (env : BootEnv) (s : State) : Res := run t s fun s =>
  if s.dev.rstN then s
  else
    let aon := s.fld Reg.devResetCause 0 0 0 = 1
    let s := cleared true s
    let s := s.modDev fun d => { d with fwiSlot := 0, failed := if d.fwiSlot = 1 then 0 else d.failed }
    let s := { s with pci := { s.pci with linkUp := s.lsi.perstN && env.pcieSpeed != 0,
                                          speed := if s.lsi.perstN then env.pcieSpeed else 0,
                                          width := if s.lsi.perstN then env.pcieWidth else 0 } }
    boot env (markReset (if aon then 0 else 1) s)

/-- RST_N_ASSERT (R471, R483, R484): the core is held in reset until the release. -/
def execRstNAssert (t _lowNs : Nat) (s : State) : Res := run t s fun s =>
  (cleared true s).modDev fun d => { d with rstN := false }

/-- AON_POWER_ON (R59): VDD_AON and VBAT were both lost, so that OTP, boot flash and the calibration store are what is left;
every semaphore is FREE (R460). -/
def execAonPowerOn (t : Nat) (s : State) : Res := run t s fun s =>
  let c := cleared true s
  markReset 0 { c with regs := [], dev := { c.dev with rstN := false }, sems := Vector.replicate 64 .free,
                       stp := c.stp.map fun x => { Stp.reset with driverLow := x.driverLow },
                       sec := { Sec.reset with rtcBase := -((s.now / sec8 : Nat) : Int) },
                       lsi := { c.lsi with xtalOk := false } }

/-- BOOT_WATCHDOG_EXPIRY (R49): a warm start that counts as a failed start of the image that was running. -/
def execBootWatchdogExpiry (t : Nat) (env : BootEnv) (s : State) : Res := run t s fun s =>
  if s.dev.mode = .boot && s.dev.watchdogAt.any fun w => decide (w ≤ s.now) then
    warmStart 4 env (s.modDev fun d => { d with failed := min 255 (d.failed + 1) })
  else s

/-- DEV_WARM_RESET (R64): without FORCE it is refused while an axis is enabled or a job runs; its completion is written
before the reset. -/
def execDevWarmReset (t : Nat) (flags : Word) (env : BootEnv) (s : State) : Res := ringCmd t s fun s =>
  if flags.toNat / 2 ≠ 0 then complete .supervisor .format 0 s
  else if flags.getLsbD 0 then forceReset env (complete .supervisor .ok 0 s)
  else if s.anyAxisEn || s.anyActive then complete .supervisor .badState 0 s
  else warmStart 2 env (complete .supervisor .ok 0 s)

/-- WARM_RESET_BRAKE_DONE (R64): every brushless axis is below its braking threshold, or 2 s have passed. -/
def execWarmResetBrakeDone (t : Nat) (env : BootEnv) (s : State) : Res := run t s fun s =>
  match s.dev.warmPending with
  | some w => if belowBraking s || decide (w.deadline ≤ s.now) then warmStart 2 env s else s
  | none => s

/-! ## MODE_SET (R44 to R46) -/

/-- Mode codes (Table 0.2). -/
def Mode.code : Mode → Nat
  | .boot => 0 | .configure => 1 | .standby => 2 | .service => 3 | .print => 4 | .recovery => 5

/-- Whether Table 3.1 has a transition by MODE_SET. -/
def modeStep : Mode → Nat → Bool
  | .configure, 2 | .standby, 1 | .standby, 3 | .standby, 4 | .service, 2 | .print, 2 => true
  | _, _ => false

/-- The pair role is settled (R378). -/
def pairSettled (s : State) : Bool :=
  s.fld Reg.xlkPairCfg 0 0 0 == 0 || s.xlk.role == .lead || s.xlk.role == .dummy ||
    (s.xlk.role == .soloLead && s.fld Reg.xlkPairCfg 0 2 2 == 1)

/-- A service function runs: a calibration, or a destructive march. -/
def serviceRuns (s : State) : Bool := s.cal.run.isSome || s.mem.march.any fun m => m.destructive

/-- The remaining conditions of Table 3.1, for a transition that it has. -/
def modeBlocked (s : State) (target : Nat) : Bool :=
  match s.dev.mode with
  | .configure => s.str.active.isNone
  | .standby =>
    if target = 1 then s.anyAxisEn || contextsBusy s
    else s.dev.holdCause != 0 || (target == 4 && !(s.dev.fireEn && pairSettled s))
  | .service => serviceRuns s || s.dev.hold
  | .print => s.anyActive || s.dev.hold
  | _ => false

/-- The refusals of MODE_SET in the order of R45, then R46. -/
def modeConds (s : State) (target : Nat) : List (Bool × Status) :=
  let same := target == s.dev.mode.code
  [(target == 0 || decide (5 ≤ target), .range), (!same && !modeStep s.dev.mode target, .badMode),
   ((target == 3 || target == 4) && !same && !s.dev.holdN, .safety), (!same && modeBlocked s target, .badState),
   (s.dev.activating.isSome, .busy)]

/-- The transition itself. CONFIGURE to STANDBY activates the active slot and completes with STR_ACTIVATION_DONE. -/
def modeTo (target : Nat) (s : State) : State :=
  if target = s.dev.mode.code then complete .supervisor .ok 0 s
  else match target with
    | 1 => complete .supervisor .ok 0 (sendHubMode false (enterConfigure s))
    | 2 => if s.dev.mode = .configure then beginActivation 2 true s
      else complete .supervisor .ok 0 (sendHubMode false (s.modDev fun d => { d with mode := .standby }))
    | 3 => entryCauses (complete .supervisor .ok 0 (sendHubMode true (s.modDev fun d => { d with mode := .service })))
    | _ => entryCauses (complete .supervisor .ok 0 (sendHubMode true (s.modDev fun d => { d with mode := .print })))

/-- MODE_SET (R45). -/
def execModeSet (t target : Nat) (s : State) : Res := ringCmd t s fun s =>
  admitCmd .supervisor (modeConds s target) (modeTo target) s

/-! ## Entropy (R51, R401) -/

/-- Whether the supervisor command that waits for entropy or for a wipe can run. -/
def waitOver (s : State) : EntropyWait → Bool
  | .challenge _ => s.sec.trngReady
  | .key .. => s.sec.trngReady && !s.mem.wiping

/-- Run the command that has waited (R51, R328). -/
def resumeWait (s : State) : State :=
  match s.sec.entropyWait with
  | some (w, _) =>
    if waitOver s w then
      let s := s.modSec fun x => { x with entropyWait := none }
      match w with
      | .challenge addr => issueChallenge addr s
      | .key slot kind context label =>
        if s.mem.wipeFail then complete .supervisor .badState 0 s else installKey slot kind context label s
    else s
  | none => s

/-- TRNG_READY (R51): samples that passed the health tests; 1,024 make the source ready. -/
def execTrngReady (t samples : Nat) (s : State) : Res := run t s fun s =>
  let n := s.sec.trngSamples + samples
  resumeWait (s.modSec fun x => { x with trngSamples := min n 1024, trngReady := x.trngReady || decide (1024 ≤ n) })

/-- ENTROPY_WAIT_TIMEOUT (R51): a command that has waited 50 ms returns NOT_READY. -/
def execEntropyWaitTimeout (t : Nat) (s : State) : Res := run t s fun s =>
  match s.sec.entropyWait with
  | some (_, since) =>
    if since + 50 * ms8 ≤ s.now then complete .supervisor .notReady 0 (s.modSec fun x => { x with entropyWait := none })
    else s
  | none => s

/-- TRNG_TEST_FAIL (R401). -/
def execTrngTestFail (t : Nat) (s : State) : Res := run t s fun s =>
  alarm .secTrngFail noInst (s.modSec fun x => { x with trngReady := false, trngSamples := 0 })

/-- SEC_TRNG_DATA (R401): 32 fresh bits, whose value is open, or zero while the source is not ready. -/
def execSecTrngData (t : Nat) (s : State) : Res := run t s fun s =>
  if s.modeIn [.boot, .recovery] then s
  else if s.sec.trngReady then
    let d := s.draw
    d.2.emit (.readValue 0x400014 (BitVec.ofNat 32 d.1))
  else s.emit (.readValue 0x400014 0)

end Sys2Proof.Machine
end

