-- ==== Sys2Proof/Machine/Memory.lean ====
section
/-! DEFINITION. On-chip SRAM, HBM and the job store (chapter 17): patrols, repair and the effects of errors, march tests, the
wipe of the secure SRAM, and namespaces. -/

namespace Sys2Proof.Machine

/-- Replace a bank. -/
def State.modBank (s : State) (n : Fin 128) (f : Bank → Bank) : State :=
  s.modMem fun m => { m with banks := upd m.banks n f }

/-! ## Errors of the SRAM (R323 to R325) -/

/-- A row is repaired by a free spare row; without one the bank becomes DEGRADED (R324). -/
def repairRow (n : Fin 128) (row : Nat) (s : State) : State :=
  let b := s.mem.banks[n]
  if b.spares < 4 then s.modBank n fun b => { b with spares := b.spares + 1, repaired := b.repaired ++ [row] }
  else if b.st = .ok then alarm .memSparesOut n (s.modBank n fun b => { b with st := .degraded })
  else s

/-- A correctable error: counted, and the row repaired at its fourth (R323, R324). -/
def sramCe (n : Fin 128) (word : Nat) (s : State) : State :=
  let row := word / 256
  let k := (((s.mem.banks[n]).rows.find? fun r => r.1 == row).map (·.2)).getD 0 + 1
  let s := (s.count Reg.memCeTotal).modBank n fun b => { b with ce := min 65535 (b.ce + 1), rows := assocSet row k b.rows }
  if k = 4 then repairRow n row s else s

/-- The enabled planes of a pipeline. -/
def pipePlanes (s : State) (q : Nat) : List (Fin 8) :=
  (List.finRange 8).filter fun p => (s.planeRec p).any fun r => r.enable == 1 && r.pp == q

/-- The course that a plane is screening underruns (Table 17.2). -/
def loseScreened (p : Fin 8) (s : State) : State :=
  match screenJob s p with
  | some ctx => match (s.jobs[ctx]).pkg with
    | some pk => underrun ctx p pk ((s.jobs[ctx]).planes[p]).screened s
    | none => s
  | none => s

/-- The effect of an SRAM UE by region (R325, Table 17.2). A cluster loses the slice that it composes, a pipeline its course;
scratch, exchange and secure SRAM recover by themselves. Whether a word of management memory holds code or data the spec
leaves open (log entry 1). -/
def sramUeEffect (n : Nat) (env : BootEnv) (s : State) : State :=
  if n < 64 then
    let c := Fin.ofNat 16 (n / 4)
    if (s.clusters[c]).slice.isSome then loseSlice c s else s
  else if n < 96 then (pipePlanes s ((n - 64) / 4)).foldl (fun s p => loseScreened p s) s
  else if n < 124 then s
  else
    let d := s.draw
    if d.1 % 2 = 0 then d.2 else forceReset env (alarm .memUeMgt n d.2)

/-- An uncorrectable error: counted, poisoned, repaired, with the effect of its region (R323 to R325). -/
def sramUe (n : Fin 128) (word : Nat) (env : BootEnv) (s : State) : State :=
  let s := (s.count Reg.memUeTotal).modBank n fun b =>
    { b with ue := min 255 (b.ue + 1), poisoned := if b.poisoned.contains word then b.poisoned else b.poisoned ++ [word] }
  let s := s.modMem fun m => { m with lastUe := (n.val, word, false) }
  sramUeEffect n env (repairRow n (word / 256) s)

/-- SRAM_PATROL_SCRUB (R323): one word of a powered bank. A word that reads clean has been written since. -/
def execSramPatrolScrub (t : Nat) (bank : Fin 128) (word : Nat) (found : PatrolFind) (env : BootEnv) (s : State) : Res :=
  ringCmd t s fun s =>
    if 131072 ≤ word then s
    else match found with
      | .clean => s.modBank bank fun b => { b with poisoned := b.poisoned.filter (· != word) }
      | .correctable => sramCe bank word s
      | .uncorrectable => sramUe bank word env s

/-! ## HBM (R332, R333) -/

/-- The region of the structure that holds an HBM address. -/
def regionAt (s : State) (addr : Nat) : Option HbmRec :=
  s.str.tables.bind fun t => t.hbm.find? fun r => decide (r.base ≤ addr ∧ addr < r.base + r.size)

/-- Items of running jobs whose composition read a lost word end VOID; which of them read it the spec leaves open (log entry
1). -/
def voidReaders (s : State) : State :=
  (List.finRange 64).foldl (fun s (c : Fin 64) =>
    if (s.jobs[c]).st.active then
      (s.jobs[c]).items.foldl (fun s it =>
        let d := s.draw
        if d.1 % 2 = 0 then d.2 else flagItems c 9 none (fun x => x.seq == it.seq) d.2) s
    else s) s

/-- A course of the runway whose data are lost underruns (R245). -/
def loseRunway (p : Fin 8) (c : RunwayCourse) (s : State) : State :=
  let ctx := Fin.ofNat 64 c.ctx
  match (s.jobs[ctx]).pkg with
  | none => s
  | some pk =>
    let j := s.jobs[ctx]
    let s := s.modPlane p fun x => { x with runway := x.runway.filter fun r => r != c }
    let s := flagCourse ctx p c.course 1 (extendRun p ctx c.course (s.count Reg.govUnderrun p))
    let s := bufferCourse p { plane := p, ctx := ctx, course := c.course, pos := coursePos s j pk p c.course,
                              next := coursePos s j pk p (c.course + 1), gen := c.gen, cells := [], underrun := true,
                              missedRows := [], deadNoz := [] } s
    let s := mirror (.underrun p ctx c.course c.course) s
    if pk.policy % 2 = 1 then holdCause 3 s else settleJob ctx s

/-- The effect of an HBM UE by region (Table 17.5); the log ring's shows when the drain reads it (R454). Which course of a
runway or of an inspection ring holds the word the spec leaves open (log entry 1). -/
def hbmUeEffect (addr : Nat) (s : State) : State :=
  match regionAt s addr with
  | none => s
  | some r =>
    if r.kind ≤ 3 then voidReaders s
    else if r.kind = 4 then
      let p := Fin.ofNat 8 r.plane
      let d := s.draw
      match (s.planes[p]).runway[d.1 % max 1 (s.planes[p]).runway.length]? with
      | some c => loseRunway p c d.2
      | none => d.2
    else if r.kind = 6 then
      let d := s.draw
      match s.ins.buf[d.1 % max 1 s.ins.buf.length]? with
      | some b => { d.2 with ins := { d.2.ins with buf := d.2.ins.buf.filter fun x => x != b } }
      | none => d.2
    else s

/-- HBM_PATROL (R333): one word of a powered stack. -/
def execHbmPatrol (t addr : Nat) (found : PatrolFind) (s : State) : Res := ringCmd t s fun s =>
  let k := addr / stackBytes
  if 4 ≤ k then s
  else match found with
    | .clean => s
    | .correctable => s.count Reg.hbmCe k
    | .uncorrectable =>
      hbmUeEffect addr ((s.count Reg.hbmUe k).modMem fun m => { m with hbmLastUe := addr, lastUe := (0, 0, true) })

/-- HBM_REFRESH_DOUBLE (R333): refresh follows a stack's temperature, doubled above 85 °C. -/
def execHbmRefreshDouble (t : Nat) (stack : Fin 4) (celsius : Int) (s : State) : Res := run t s fun s =>
  s.modMem fun m => { m with hbm := upd m.hbm stack fun k => { k with temp := celsius, refresh2x := decide (85 < celsius) } }

/-! ## March tests (R329 to R331) -/

/-- Refusals of MARCH_RUN in the order of R330. -/
def marchConds (s : State) (first count alg mode : Nat) : List (Bool × Status) :=
  [(decide (127 < first ∨ count < 1 ∨ 128 < first + count ∨ alg < 1 ∨ 3 < alg ∨ 1 < mode), .range),
   (s.mem.march.isSome, .busy), (mode == 0 && s.dev.mode != .service, .badMode),
   (mode == 0 && decide (120 < first + count), .badState)]

/-- MARCH_RUN (R330): the banks follow with MARCH_BANK_DONE. -/
def execMarchRun (t first count alg mode : Nat) (s : State) : Res := ringCmd t s fun s =>
  admitCmd .supervisor (marchConds s first count alg mode) (fun s => s.modMem fun m =>
    { m with march := some { bank := first, left := count, alg := alg, destructive := mode == 0, counts := [0, 0, 0, 0] } }) s

/-- A bank that becomes FAILED is withdrawn (R331). -/
def failBank (n : Fin 128) (s : State) : State :=
  let s := s.modBank n fun b => { b with st := .failed }
  if n.val < 64 then
    let c := Fin.ofNat 16 (n.val / 4)
    if (s.clusters[c]).excl then s
    else if (s.clusters[c]).slice.isSome then loseSlice c s
    else alarm .ccFault c (s.modCluster c fun x => { x with excl := true })
  else if n.val < 120 then s
  else alarm .memBankFailed n s

/-- Code of MEM_BANK_n.MARCH, and place of the count in RESULT. -/
def marchIdx : MarchOutcome → Nat
  | .passed => 0 | .repaired => 1 | .failed => 2 | .skipped => 3

/-- RESULT of MARCH_RUN: four counts of 8 bits. -/
def marchResult (l : List Nat) : Nat := l.getD 0 0 + 2 ^ 8 * l.getD 1 0 + 2 ^ 16 * l.getD 2 0 + 2 ^ 24 * l.getD 3 0

/-- The counts with one bank more. -/
def marchCount (m : March) (outcome : MarchOutcome) (skipped : Bool) : List Nat :=
  let l := m.counts.modify (marchIdx outcome) (· + 1)
  if skipped ∧ outcome ≠ .skipped then l.modify 3 (· + 1) else l

/-- MARCH_BANK_DONE (R329, R330): a bank has been tested. A destructive test leaves it zeroed. -/
def execMarchBankDone (t : Nat) (outcome : MarchOutcome) (spares : Nat) (skipped : Bool) (s : State) : Res := ringCmd t s fun s =>
  match s.mem.march with
  | none => s
  | some m =>
    let n := Fin.ofNat 128 m.bank
    let s := s.modBank n fun b =>
      { b with march := (marchIdx outcome) + 1, spares := max b.spares (min 4 spares),
               poisoned := if m.destructive then [] else b.poisoned }
    let s := if outcome = .failed then failBank n s else s
    let counts := marchCount m outcome skipped
    if m.left ≤ 1 then complete .supervisor .ok (marchResult counts) (s.modMem fun x => { x with march := none })
    else s.modMem fun x => { x with march := some { m with bank := m.bank + 1, left := m.left - 1, counts := counts } }

/-! ## The wipe (R328) -/

/-- WIPE_VERIFY_DONE (R328): the verify succeeds, or the wipe is repeated once, or it has failed for good. What waited for
the wipe goes on. -/
def execWipeVerifyDone (t : Nat) (ok : Bool) (s : State) : Res := run t s fun s =>
  if !s.mem.wiping then s
  else if ok then resumeWait (s.modMem fun m => { m with wiping := false, wipeTries := 0 })
  else if s.mem.wipeTries = 0 then s.modMem fun m => { m with wipeTries := 1 }
  else resumeWait (alarm .memWipeFail noInst (s.modMem fun m => { m with wiping := false, wipeTries := 2, wipeFail := true }))

/-! ## The job store (R334 to R336) -/

/-- The index in MEM_JS_SEL. -/
def jsSel (s : State) : Fin 32 := Fin.ofNat 32 (s.fld Reg.memJsSel 0 4 0)

/-- Refusals of an attach: the mode, then R335's conditions; a NSID or controller that does not exist names no namespace. -/
def attachConds (s : State) (value : Word) (present : Bool) (lbaLog2 : Nat) (protectionInfo : Bool) : List (Bool × Status) :=
  [(!s.modeIn [.configure, .standby, .service], .badMode), (!s.pci.rpUp, .notReady),
   (!present || bitsOf value 15 0 == 0 || decide (s.pci.rpCtrls ≤ bitsOf value 18 16) || (lbaLog2 != 9 && lbaLog2 != 12), .range),
   (protectionInfo, .format)]

/-- Replace a job-store index. -/
def State.modJs (s : State) (n : Fin 32) (f : JsIndex → JsIndex) : State := s.modMem fun m => { m with js := upd m.js n f }

/-- JS_ATTACH: MEM_JS_CFG written with ATTACH 1 (R335). -/
def execJsAttach (t : Nat) (value : Word) (present : Bool) (lbaLog2 capacity : Nat) (protectionInfo : Bool) (s : State) : Res :=
  ringCmd t s fun s =>
    refuseOr (attachConds s value present lbaLog2 protectionInfo) Reg.memErr 0 0x44 (fun s =>
      s.modJs (jsSel s) fun x => { x with attached := true, ctrl := bitsOf value 18 16, nsid := bitsOf value 15 0,
                                          cap := min capacity (2 ^ 48), lba := lbaLog2 - 9 }) s

/-- Whether a DMA side stands in a descriptor of an index (SPACE 2, Table 18.2). -/
def DmaSide.uses (d : DmaSide) (n : Nat) : Bool := d.desc.any fun x => x.space == 2 && x.arg == n

/-- Whether a JOB_LOAD or a DMA transfer uses an index. -/
def jsInUse (s : State) (n : Fin 32) : Bool :=
  (s.jobs.toList.any fun j => j.nvmeWait.isSome) ||
    s.dma.toList.any fun d => (d.st == .run || d.st == .wait || d.st == .armed || d.st == .aborting) && (d.rd.uses n || d.wr.uses n)

/-- JS_DETACH: MEM_JS_CFG written with ATTACH 0 (R335). -/
def execJsDetach (t : Nat) (value : Word) (s : State) : Res := ringCmd t s fun s =>
  refuseOr [(!s.modeIn [.configure, .standby, .service], .badMode), (jsInUse s (jsSel s), .badState)] Reg.memErr 0 0x44
    (fun s => s.modJs (jsSel s) fun x =>
      { x with attached := false, ctrl := bitsOf value 18 16, nsid := bitsOf value 15 0, cap := 0, lba := 0 }) s

/-- NVME_READ_TIMEOUT (R336): a read that has not completed within 5 s. -/
def execNvmeReadTimeout (t : Nat) (ctx : Fin 64) (s : State) : Res := ringCmd t s fun s =>
  if (s.jobs[ctx]).nvmeWait.any fun w => decide (w + 5 * sec8 ≤ s.now) then endLoad ctx .timeout s else s

end Sys2Proof.Machine
end

