-- ==== Sys2Proof/Machine/DataMovers.lean ====
section
/-! DEFINITION. Data movers (chapter 18): the DMA channels, their lists and bursts, aborts and errors, and the token buckets
of R311. -/

namespace Sys2Proof.Machine

/-- Replace a channel. -/
def State.modDma (s : State) (n : Fin 32) (f : Dma → Dma) : State := { s with dma := upd s.dma n f }

/-! ## Registers of a channel -/

/-- Offset of a register of channel `n` within DMA (Table 18.8). -/
def dmaOffset (n : Fin 32) (o : Nat) : Nat := 0x100 + 0x40 * n + o

/-- Largest burst of a channel in bytes. -/
def dmaBurstSize (s : State) (n : Fin 32) : Nat := 2 ^ s.fld Reg.dmaCfg n 3 0

/-- An address register pair: the address, aligned to 16, and the space in LO [1:0]. -/
def dmaPointer (s : State) (lo hi : RegSpec) (n : Fin 32) : Nat × Nat :=
  let a := (s.rd hi n).toNat * 2 ^ 32 + (s.rd lo n).toNat
  (a / 16 * 16, a % 4)

/-- One side at the head of its list. -/
def sideAt (p : Nat × Nat) : DmaSide := { DmaSide.reset with addr := p.1, space := p.2 }

/-- Both list pointers are loaded (R343). -/
def dmaLoad (n : Fin 32) (st : DmaSt) (s : State) : State :=
  let rd := sideAt (dmaPointer s Reg.dmaRdlistLo Reg.dmaRdlistHi n)
  let wr := sideAt (dmaPointer s Reg.dmaWrlistLo Reg.dmaWrlistHi n)
  s.modDma n fun c => { c with st := st, rd := rd, wr := wr, side := 0, residue := 0, discard := 0 }

/-! ## Descriptors (R340 to R342) -/

/-- FIFO depth of a request line (Table 18.3). -/
def lineFifo (line : Nat) : Nat := if line ≤ 4 then 256 else 64

/-- Whether ARG is outside the range for its SPACE. -/
def argBad (d : DmaDesc) : Bool :=
  if d.space = 2 then decide (31 < d.arg) else if d.space = 3 then decide (d.arg < 1 ∨ 8 < d.arg) else d.arg != 0

/-- A write-list descriptor that names HBM bytes of a region of KIND 4, 5 or 6. -/
def namesRegion (s : State) (d : DmaDesc) : Bool :=
  d.space == 1 && s.str.tables.any fun t => t.hbm.any fun r =>
    decide (4 ≤ r.kind) && decide (d.addr < r.base + r.size ∧ r.base < d.addr + d.len)

/-- Why a descriptor stops its channel (R341, R342, R345); none when it does not. -/
def descError (s : State) (n : Fin 32) (writeSide : Bool) (d : DmaDesc) : Option Status :=
  let st := firstRefusal
    [(d.isEnd && d.isLink, .format), (d.reserved != 0, .format),
     (d.isLink && (decide (2 ≤ d.space) || d.addr % 16 != 0), .format),
     (!d.isEnd && !d.isLink && (d.len == 0 || argBad d), .format),
     (!d.isEnd && !d.isLink && d.space == 3 && ((d.arg % 2 == 0) != writeSide || decide (lineFifo d.arg < dmaBurstSize s n)), .format),
     (!d.isEnd && !d.isLink && ((writeSide && namesRegion s d) || (d.space == 1 && decide (4 * stackBytes < d.addr + d.len))), .range),
     (!d.isEnd && !d.isLink && d.space == 2 && !(s.mem.js[Fin.ofNat 32 d.arg]).attached, .notReady),
     (!d.isEnd && !d.isLink && d.space == 2 && decide ((s.mem.js[Fin.ofNat 32 d.arg]).cap < d.addr + d.len), .range)]
  if st = .ok then none else some st

/-- What the descriptors that an engine reads in list order make of its side: the side, or the code of a refused one. A
doorbell that is pending at END has the next descriptor taken as the re-read of it (R350). -/
def takeDescs (bad : DmaDesc → Option Status) (head : Nat) : List DmaDesc → DmaSide → DmaSide × Option Status
  | [], x => (x, none)
  | d :: rest, x =>
    let x := { x with pos := (x.addr + 2 ^ 64 - head) % 2 ^ 32 }
    match bad d with
    | some st => (x, some st)
    | none =>
      if x.atEnd then
        if x.pend then
          (if d.isLink then takeDescs bad head rest { x with pend := false, atEnd := false, addr := d.addr, space := d.space }
           else takeDescs bad head rest { x with pend := false })
        else (x, none)
      else if x.desc.isSome then (x, none)
      else if d.isEnd then takeDescs bad head rest { x with atEnd := true }
      else if d.isLink then takeDescs bad head rest { x with addr := d.addr, space := d.space }
      else takeDescs bad head rest { x with desc := some d, moved := 0 }

/-! ## Stopping (R349) -/

/-- Bytes held in the buffer. -/
def Dma.held (c : Dma) : Nat := c.rd.bytes - c.wr.bytes

/-- Whether a channel can be aborted. -/
def Dma.live (c : Dma) : Bool := c.st == .run || c.st == .wait || c.st == .armed

/-- A channel starts to stop, with the code and side of the first cause: what the buffer holds is discarded. How far the
write list goes on beyond its present descriptor only the list says, so that part of RESIDUE is open (log entry 1). -/
def dmaStop (n : Fin 32) (code : Status) (side : Nat) (s : State) : State :=
  let c := s.dma[n]
  if c.live then
    let d := s.draw
    let left := match c.wr.desc with
      | some x => x.len - c.wr.moved
      | none => 0
    d.2.modDma n fun c =>
      { c with st := .aborting, code := code.code, side := side, discard := c.held,
               residue := if c.wr.atEnd then 0 else min 0xFFFFFFFF (left + d.1),
               rd := { c.rd with pend := false }, wr := { c.wr with pend := false } }
  else s

/-- The status word (Table 18.5). -/
def statusWord (c : Dma) : Bytes :=
  leBytes 4 c.residue ++ leBytes 4 c.discard ++ leBytes 1 c.code ++ leBytes 1 c.side ++ List.replicate 6 0

/-- The status word is written, and the channel is STOPPED (R349); a word for HBM stays inside the device. -/
def dmaStopped (n : Fin 32) (s : State) : State :=
  let p := dmaPointer s Reg.dmaStwLo Reg.dmaStwHi n
  let s := if p.2 = 0 then s.emit (.hostWrite p.1 (statusWord s.dma[n])) else s
  (s.modDma n fun c => { c with st := .stopped }).msix (s.fld Reg.dmaCfg n 31 24)

/-! ## Running -/

/-- The state that the two engines give a running channel (Table 18.4). DONE comes with the read-back. -/
def dmaNext (burst : Nat) (c : Dma) : DmaSt :=
  if c.st ≠ .run ∧ c.st ≠ .wait then c.st
  else if c.rd.atEnd ∧ ¬c.wr.atEnd ∧ c.held = 0 then .wait
  else if c.wr.atEnd ∧ 0 < c.held ∧ (c.rd.atEnd ∨ 65536 < c.held + burst) then .wait
  else .run

/-- Settle a channel's state after an event. -/
def dmaSettle (n : Fin 32) (s : State) : State :=
  let b := dmaBurstSize s n
  s.modDma n fun c => { c with st := dmaNext b c }

/-- Take the descriptors that a side has read. -/
def dmaTake (n : Fin 32) (readSide : Bool) (descs : List DmaDesc) (s : State) : State :=
  let head := if readSide then (dmaPointer s Reg.dmaRdlistLo Reg.dmaRdlistHi n).1 else (dmaPointer s Reg.dmaWrlistLo Reg.dmaWrlistHi n).1
  let c := s.dma[n]
  let r := takeDescs (descError s n (!readSide)) head descs (if readSide then c.rd else c.wr)
  let s := s.modDma n fun c => if readSide then { c with rd := r.1 } else { c with wr := r.1 }
  match r.2 with
  | some st => dmaStop n st (if readSide then 1 else 0) s
  | none => dmaSettle n s

/-- A side with one burst more; at the end of its descriptor it goes on to the next 16 bytes of its list. -/
def DmaSide.burst (x : DmaSide) (d : DmaDesc) (bytes : Nat) : DmaSide :=
  if x.moved + bytes = d.len then { x with bytes := x.bytes + bytes, moved := 0, desc := none, addr := x.addr + 16, req := false }
  else { x with bytes := x.bytes + bytes, moved := x.moved + bytes, req := false }

/-- Whether the engine may move a burst of a descriptor: within it, within BURST and a 4 KiB page, and on SPACE 3 only after
an assertion of the request line (R345). -/
def burstFits (s : State) (n : Fin 32) (x : DmaSide) (d : DmaDesc) (bytes : Nat) : Bool :=
  decide (x.moved + bytes ≤ d.len ∧ bytes ≤ dmaBurstSize s n ∧ (d.addr + x.moved) % 4096 + bytes ≤ 4096) &&
    (d.space != 3 || x.req)

/-- What a burst moves out of a receive FIFO or into a transmit FIFO (Table 18.3). -/
def lineMoved (line bytes : Nat) (s : State) : State :=
  let u := Fin.ofNat 2 ((line - 1) / 2)
  if line < 5 then
    s.modLsi fun l => { l with uart := upd l.uart u fun x =>
      if line % 2 = 1 then { x with rx := x.rx.drop bytes } else { x with tx := min 256 (x.tx + bytes) } }
  else
    let u := Fin.ofNat 2 ((line - 5) / 2)
    s.modLsi fun l => { l with i2c := upd l.i2c u fun x =>
      if line % 2 = 1 then { x with rx := x.rx - bytes } else { x with tx := min 64 (x.tx + bytes) } }

/-- A read burst enters the buffer, which holds up to 64 KiB of a channel (R346). -/
def readBurst (n : Fin 32) (bytes : Nat) (s : State) : State :=
  let c := s.dma[n]
  match c.rd.desc with
  | some d =>
    if burstFits s n c.rd d bytes ∧ c.held + bytes ≤ 65536 then
      (if d.space = 3 then lineMoved d.arg bytes s else s).modDma n fun c => { c with rd := c.rd.burst d bytes }
    else s
  | none => s

/-- A write burst leaves the buffer and draws on the DMA bucket; it waits while the bucket is empty (R346). -/
def writeBurst (n : Fin 32) (bytes : Nat) (s : State) : State :=
  let c := s.dma[n]
  match c.wr.desc with
  | some d =>
    if burstFits s n c.wr d bytes ∧ bytes ≤ c.held ∧ 0 < s.pwr.dmaBucket.tokens then
      let s := if d.space = 3 then lineMoved d.arg bytes s else s
      let s := s.modPwr fun p => { p with dmaBucket := { p.dmaBucket with tokens := p.dmaBucket.tokens - bytes } }
      s.modDma n fun c => { c with wr := c.wr.burst d bytes, written := c.written ||| (1#4 <<< d.space) }
    else s
  | none => s

/-- Active bulk requesters (R339): running channels and composing clusters. -/
def bulkActive (s : State) : Nat :=
  (s.dma.toList.filter fun c => c.st == .run).length + (s.clusters.toList.filter fun c => c.slice.isSome).length

/-! ## Commands -/

/-- Start a channel, armed where it waits for a trigger (R343). -/
def dmaBegin (n : Fin 32) (s : State) : State :=
  dmaLoad n (if s.fld Reg.dmaCfg n 16 16 = 1 then .armed else .run) s

/-- Refusals of START (R343, R353). -/
def startConds (s : State) (n : Fin 32) : List (Bool × Status) :=
  let st := (s.dma[n]).st
  [(!(st == .idle || st == .done || st == .stopped) || s.dev.disabled.contains (0x0D, n.val), .badState),
   (s.fld Reg.dmaCfg n 16 16 == 1 && s.fld Reg.dmaCfg n 12 8 == n.val, .range)]

/-- What DMA_CH_CTRL.START does. -/
def dmaStartAct (n : Fin 32) (s : State) : State :=
  refuseOr (startConds s n) Reg.dmaErr 0 (dmaOffset n 0) (dmaBegin n) s

/-- DMA_START (R343). -/
def execDmaStart (t : Nat) (ch : Fin 32) (s : State) : Res := ringCmd t s (dmaStartAct ch)

/-- What DMA_CH_CTRL.ABORT does: ignored outside RUN, WAIT and ARMED. -/
def dmaAbortAct (n : Fin 32) (s : State) : State := dmaStop n .aborted 0 s

/-- DMA_ABORT (R349): the channel moves to ABORTING; the read-back ends it. -/
def execDmaAbort (t : Nat) (ch : Fin 32) (s : State) : Res := ringCmd t s (dmaAbortAct ch)

/-- A doorbell (R350): an engine at END re-reads its END descriptor once; before END the bell is kept. -/
def dmaDoorbell (n : Fin 32) (readSide : Bool) (reread : DmaDesc) (s : State) : State :=
  let c := s.dma[n]
  let x := if readSide then c.rd else c.wr
  let set (s : State) (y : DmaSide) : State := s.modDma n fun c => if readSide then { c with rd := y } else { c with wr := y }
  if !(c.live || c.st == .done) then s
  else if !x.atEnd then set s { x with pend := true }
  else match descError s n (!readSide) reread with
    | some st => dmaStop n st (if readSide then 1 else 0) (s.modDma n fun c => { c with st := .run })
    | none =>
      if reread.isLink then
        dmaSettle n ((set s { x with atEnd := false, addr := reread.addr, space := reread.space }).modDma n fun c => { c with st := .run })
      else s

/-- DMA_DB_RD (R350). -/
def execDmaDbRd (t : Nat) (ch : Fin 32) (reread : DmaDesc) (s : State) : Res := ringCmd t s (dmaDoorbell ch true reread)

/-- DMA_DB_WR (R350). -/
def execDmaDbWr (t : Nat) (ch : Fin 32) (reread : DmaDesc) (s : State) : Res := ringCmd t s (dmaDoorbell ch false reread)

/-- DMA_REQUEST_LINE (R345): the side whose present descriptor names the line may move one burst. -/
def execDmaRequestLine (t : Nat) (ch : Fin 32) (line : Nat) (s : State) : Res := ringCmd t s fun s =>
  let on (x : DmaSide) : Bool := x.desc.any fun d => d.space == 3 && d.arg == line
  s.modDma ch fun c =>
    if c.st = .run ∨ c.st = .wait then
      { c with rd := { c.rd with req := c.rd.req || on c.rd }, wr := { c.wr with req := c.wr.req || on c.wr } }
    else c

/-- DMA_BURST_COMPLETE (R344 to R347): a burst has moved, or only descriptors have been read. -/
def execDmaBurstComplete (t : Nat) (ch : Fin 32) (burst : DmaBurst) (s : State) : Res := ringCmd t s fun s =>
  if (s.dma[ch]).st = .run ∨ (s.dma[ch]).st = .wait then
    let n := bulkActive s
    let s := s.modMem fun m => { m with arbActive := n }
    let s := if burst.bytes = 0 then s else if burst.readSide then readBurst ch burst.bytes s else writeBurst ch burst.bytes s
    dmaTake ch burst.readSide burst.descs s
  else s

/-- Whether both engines stand at END with every byte written. -/
def Dma.atEnd (c : Dma) : Bool := c.st == .run && c.rd.atEnd && c.wr.atEnd && c.held == 0

/-- A channel enters DONE: counted, its pulse sent, and the channels armed for it start (R343, R348). -/
def dmaDone (n : Fin 32) (s : State) : State :=
  let s := (s.modDma n fun c => { c with st := .done, written := 0 }).count Reg.dmaDones n
  let s := if s.fld Reg.dmaCfg n 17 17 = 1 then s.emit (.dmaPulse (s.fld Reg.dmaCfg n 19 18)) else s
  (List.finRange 32).foldl (fun s (k : Fin 32) =>
    if (s.dma[k]).st = .armed ∧ s.fld Reg.dmaCfg k 12 8 = n.val then s.modDma k fun c => { c with st := .run } else s) s

/-- DMA_READBACK_DONE (R347, R349): the channel enters DONE, or, from ABORTING, STOPPED. -/
def execDmaReadbackDone (t : Nat) (ch : Fin 32) (s : State) : Res := ringCmd t s fun s =>
  if (s.dma[ch]).st = .aborting then dmaStopped ch s
  else if (s.dma[ch]).atEnd then dmaDone ch s
  else s

/-- The code of a stopping error (Table 18.5). -/
def dmaErrorCode : DmaError → Status
  | .refusedFormat => .format
  | .refusedRange => .range
  | .notReady => .notReady
  | .pcieTimeout => .timeout
  | .pcieError | .poisoned | .nvmeError => .integrity

/-- DMA_ERROR (R349). -/
def execDmaError (t : Nat) (ch : Fin 32) (readSide : Bool) (err : DmaError) (s : State) : Res := ringCmd t s fun s =>
  let s := dmaStop ch (dmaErrorCode err) (if readSide then 1 else 0) s
  if err = .nvmeError then
    match (if readSide then (s.dma[ch]).rd.desc else (s.dma[ch]).wr.desc) with
    | some d => if d.space = 2 then s.modJs (Fin.ofNat 32 d.arg) fun x => { x with ioErr := true } else s
    | none => s
  else s

/-- A bucket regains what its rate gives since its last refill, up to 1 ms of it (R311). -/
def Bucket.refill (b : Bucket) (now : Nat) : Bucket :=
  { b with tokens := min b.perMs (b.tokens + b.perMs * (now - b.at8) / ms8), at8 := now }

/-- TOKEN_BUCKET_REFILL (R311, R346, R356). -/
def execTokenBucketRefill (t : Nat) (fab : Bool) (s : State) : Res := run t s fun s =>
  let now := s.now
  if fab then
    drainBulk s.xlk.bulkWait ((s.modPwr fun p => { p with fabBucket := p.fabBucket.refill now }).modXlk fun x =>
      { x with bulkWait := [] })
  else s.modPwr fun p => { p with dmaBucket := p.dmaBucket.refill now }

end Sys2Proof.Machine
end

