-- ==== Sys2Proof/Machine/Stepper.lean ====
section
/-! DEFINITION. Stepper axes: step generation, plans, enabling and stopping, faults, homing, gears and choppers
(chapter 15). -/

namespace Sys2Proof.Machine

/-- Offset of a register of axis `n` within STP (Table 15.5). -/
def stpOffset (n : Fin 16) (o : Nat) : Nat := 0x1000 + 0x100 * n + o

/-- MODE of STP_CFG (R285). -/
def stpMode (s : State) (n : Fin 16) : Nat := s.fld Reg.stpCfg n 1 0

/-- LIMEN. -/
def stpLimen (s : State) (n : Fin 16) : Bool := s.fld Reg.stpCfg n 16 16 == 1

/-- The virtual limits in microsteps (R293). -/
def stpLimits (s : State) (n : Fin 16) : Int × Int :=
  (s.rd64 Reg.stpLimloLo Reg.stpLimloHi n, s.rd64 Reg.stpLimhiLo Reg.stpLimhiHi n)

/-- STP_AMAX and STP_VMAX. -/
def stpA (s : State) (n : Fin 16) : Nat := (s.rd Reg.stpAmax n).toNat
/-- STP_VMAX. -/
def stpVm (s : State) (n : Fin 16) : Nat := (s.rd Reg.stpVmax n).toNat

/-- The count C of the encoder that the axis record names; 0 without one. -/
def stpCount (s : State) (n : Fin 16) : Int :=
  match axisEnc (s.stpRec n) with
  | some e => (s.enc[e]).c
  | none => 0

/-- The count of the gear's master encoder (R289). -/
def gearCount (s : State) (n : Fin 16) : Int := (s.enc[Fin.ofNat 16 (s.fld Reg.stpCfg n 27 24)]).c

/-! ## Coil currents (R281 to R283) -/

/-- SIN[0] to SIN[63] (R281). -/
def sinPart0 : List Nat :=
  [0, 402, 804, 1206, 1608, 2010, 2412, 2814, 3216, 3617, 4019, 4420, 4821, 5222, 5623, 6023,
   6424, 6824, 7223, 7623, 8022, 8421, 8820, 9218, 9616, 10014, 10411, 10808, 11204, 11600, 11996, 12391,
   12785, 13179, 13573, 13966, 14359, 14751, 15142, 15533, 15924, 16313, 16703, 17091, 17479, 17866, 18253, 18639,
   19024, 19408, 19792, 20175, 20557, 20939, 21319, 21699, 22078, 22456, 22834, 23210, 23586, 23960, 24334, 24707]

/-- SIN[64] to SIN[127] (R281). -/
def sinPart1 : List Nat :=
  [25079, 25450, 25820, 26189, 26557, 26925, 27291, 27656, 28020, 28383, 28745, 29106, 29465, 29824, 30181, 30538,
   30893, 31247, 31600, 31952, 32302, 32651, 32999, 33346, 33692, 34036, 34379, 34721, 35061, 35400, 35738, 36074,
   36409, 36743, 37075, 37406, 37736, 38064, 38390, 38715, 39039, 39361, 39682, 40001, 40319, 40635, 40950, 41263,
   41575, 41885, 42194, 42500, 42806, 43109, 43411, 43712, 44011, 44308, 44603, 44897, 45189, 45479, 45768, 46055]

/-- SIN[128] to SIN[191] (R281). -/
def sinPart2 : List Nat :=
  [46340, 46624, 46905, 47185, 47464, 47740, 48014, 48287, 48558, 48827, 49095, 49360, 49624, 49885, 50145, 50403,
   50659, 50913, 51166, 51416, 51664, 51911, 52155, 52398, 52638, 52877, 53113, 53348, 53580, 53811, 54039, 54266,
   54490, 54713, 54933, 55151, 55367, 55582, 55794, 56003, 56211, 56417, 56620, 56822, 57021, 57218, 57413, 57606,
   57797, 57985, 58171, 58356, 58537, 58717, 58895, 59070, 59243, 59414, 59582, 59749, 59913, 60075, 60234, 60391]

/-- SIN[192] to SIN[256] (R281). -/
def sinPart3 : List Nat :=
  [60546, 60699, 60850, 60998, 61144, 61287, 61429, 61567, 61704, 61838, 61970, 62100, 62227, 62352, 62475, 62595,
   62713, 62829, 62942, 63053, 63161, 63267, 63371, 63472, 63571, 63668, 63762, 63853, 63943, 64030, 64114, 64196,
   64276, 64353, 64428, 64500, 64570, 64638, 64703, 64765, 64826, 64883, 64939, 64992, 65042, 65090, 65136, 65179,
   65219, 65258, 65293, 65327, 65357, 65386, 65412, 65435, 65456, 65475, 65491, 65504, 65515, 65524, 65530, 65534,
   65535]

/-- The fixed table of R281. -/
def sinTable : List Nat := sinPart0 ++ sinPart1 ++ sinPart2 ++ sinPart3

/-- Magnitude and sign (true is +) of a phase at an electrical index. -/
def coil (e : Nat) (phaseB : Bool) : Nat × Bool :=
  let q := e / 256; let i := e % 256
  let a := sinTable.getD i 0; let b := sinTable.getD (256 - i) 0
  match q, phaseB with
  | 0, false => (a, true) | 0, true => (b, true)
  | 1, false => (b, true) | 1, true => (a, false)
  | 2, false => (a, false) | 2, true => (b, false)
  | _, false => (b, false) | _, true => (a, true)

/-- The present current setting I. -/
def stpCurrent (s : State) (n : Fin 16) : Nat :=
  let x := s.stp[n]
  match x.home with
  | some h => if h.backing then s.fld Reg.stpCur n 7 0 else h.ihome
  | none => if x.holdCur then s.fld Reg.stpCur n 15 8 else s.fld Reg.stpCur n 7 0

/-- The comparator threshold DAC of a phase (R281). -/
def stpDac (s : State) (n : Fin 16) (phaseB : Bool) : Nat :=
  (stpCurrent s n * (coil (s.stp[n]).e phaseB).1 + 32768) / 65536

/-- Step 1 of R282 with the sign and DAC of the moment; a phase with DAC 0 is held in slow decay. -/
def driveStart (n : Fin 16) (phaseB : Bool) (s : State) : State :=
  let d := stpDac s n phaseB
  let c (old : Chop) : Chop :=
    { old with st := if d = 0 then .slow else .drive, since := s.now, dac := d, plus := (coil (s.stp[n]).e phaseB).2 }
  s.modStp n fun x => if phaseB then { x with chopB := c x.chopB } else { x with chopA := c x.chopA }

/-- Both bridges off, or energised again at the kept index (R283). -/
def setPower (n : Fin 16) (on : Bool) (s : State) : State :=
  if on then
    if (s.stp[n]).power then s
    else driveStart n true (driveStart n false (s.modStp n fun x => { x with power := true }))
  else s.modStp n fun x => { x with power := false, chopA := { x.chopA with st := .off, full := 0 },
                                    chopB := { x.chopB with st := .off, full := 0 } }

/-- A phase held at DAC 0 drives again once its DAC is not 0. -/
def wakePhases (n : Fin 16) (s : State) : State :=
  let x := s.stp[n]
  let s := if x.power && x.chopA.st == .slow && x.chopA.dac == 0 && stpDac s n false != 0 then driveStart n false s else s
  if x.power && x.chopB.st == .slow && x.chopB.dac == 0 && stpDac s n true != 0 then driveStart n true s else s

/-! ## Faults (R296) -/

/-- A stepper faults: immediate stop, bridge action, latched code, EN cleared, alarm, and cause bit 5. -/
def stpFault (n : Fin 16) (code : Nat) (s : State) : State :=
  let x := s.stp[n]
  if x.fault ≠ 0 then s.setFld Reg.stpErr n 31 24 (min 255 (s.fld Reg.stpErr n 31 24 + 1))
  else if x.en then
    let s := (stpStopNow n s).modStp n fun x => { x with fault := code, en := false, holdCur := true }
    let s := if code ≤ 2 then setPower n false s else s
    holdCause 5 (alarmArgs .motFault n code 0 0 (pacStepper n s))
  else s

/-! ## Planning (R285 to R288) -/

/-- v_gov's limit in microsteps/s on the web master axis (R288). -/
def stpGovLimit (s : State) (n : Fin 16) : Option Nat :=
  let web := (s.rd Reg.stpWebHi n).toNat * 2 ^ 32 + (s.rd Reg.stpWebLo n).toNat
  if isWebMaster (s.stpRec n) ∧ s.fld Reg.govCfg 0 31 31 = 1 ∧ web ≠ 0 ∧ s.modeIn [.standby, .service, .print] then
    some (s.gov.vgov * 1000 * 2 ^ 32 / web)
  else none

/-- A VELOCITY plan (R288). -/
def planVelocity (n : Fin 16) (s : State) : State :=
  let vm : Int := stpVm s n
  let v0 := max (-vm) (min vm (signed 32 (s.rd Reg.stpVset n).toNat))
  let (vt, lim) : Int × Bool := match stpGovLimit s n with
    | some l => if (l : Int) < v0.natAbs then (v0.sign * l, true) else (v0, false)
    | none => (v0, false)
  let x := s.stp[n]
  let (p, v) := x.start
  let s := s.modStp n fun x => { x with govLimit := lim, gear := none, halting := false }
  if stpLimen s n ∧ vt ≠ 0 then
    let l := (if 0 < vt then (stpLimits s n).2 else (stpLimits s n).1) * 65536
    (s.modStp n fun x => { x with plan := mkPlan (replan l p v (stpA s n) vt.natAbs) 0 l }).setFld Reg.stpStatus n 5 5 1
  else
    let segs := velSegs vt p v (stpA s n)
    let e := match segs with
      | g :: _ => g.p1
      | [] => p
    s.modStp n fun x => { x with plan := mkPlan segs vt e }

/-- A POSITION plan to `t` microsteps (R287). -/
def planPosition (n : Fin 16) (t : Int) (s : State) : State :=
  let (p, v) := (s.stp[n]).start
  s.modStp n fun x => { x with plan := mkPlan (replan (t * 65536) p v (stpA s n) (stpVm s n)) 0 (t * 65536),
                               gear := none, halting := false }

/-- Segments of a copied table, each from the end of the one before (R286). -/
def profileSegs : List (Nat × Int × Int) → Int → Int → List Seg
  | [], _, _ => []
  | (dt, v1, p1) :: rest, p0, v0 => { n := dt, p0 := p0, v0 := v0, p1 := p1 * 65536, v1 := v1 } ::
      profileSegs rest (p1 * 65536) v1

/-- Entries of the gear schedule that the count has reached take effect in order (R289). -/
def stpGearReach (c : Int) (x : Stp) : List (Int × Int) → Stp
  | [] => { x with gearPend := [] }
  | e :: rest => match x.gear with
    | some g => if e.1 = c then
        stpGearReach c { x with gear := some { pseg := g.pseg + (e.1 - g.cseg) * x.gearNow, cseg := e.1 }, gearNow := e.2 } rest
      else { x with gearPend := e :: rest }
    | none => { x with gearPend := e :: rest }

/-- Following starts (R289). -/
def startGear (n : Fin 16) (s : State) : State :=
  let c := gearCount s n
  s.modStp n fun x =>
    let x := { x with gear := some { pseg := x.cur, cseg := c }, plan := none, halting := false }
    stpGearReach c x x.gearPend

/-- A committed write takes effect at its boundary (R285). -/
def applyReq (n : Fin 16) (r : StpReq) (s : State) : State :=
  match r with
  | .target t => planPosition n t s
  | .vset => planVelocity n s
  | .profile l =>
    let (p, v) := (s.stp[n]).start
    let segs := profileSegs l p v
    s.modStp n fun x => { x with plan := mkPlan segs 0 (((segs.getLast?).map (·.p1)).getD p), gear := none, halting := false }
  | .gear => startGear n s
  | .mode => match stpMode s n with
    | 0 => planPosition n (s.rd64 Reg.stpTargetLo Reg.stpTargetHi n) s
    | 1 => planVelocity n s
    | _ => s.modStp n fun x => { x.rampStop (stpA s n) with reqs := x.reqs, gearPend := x.gearPend }

/-- Writes whose boundary has come: the later one acts (Table 15.1). -/
def dueReqs (n : Fin 16) (s : State) : State :=
  let x := s.stp[n]
  let due := x.reqs.filter fun r => decide (r.1 ≤ s.now)
  let s := s.modStp n fun x => { x with reqs := x.reqs.filter fun r => decide (s.now < r.1) }
  match due.getLast? with
  | some r => applyReq n r.2 s
  | none => s

/-- The commanded position for the next update, and the plan after it (R284, R286, R288). -/
def nextTarget (pl : Plan) : Int × Plan :=
  match pl.segs with
  | g :: rest =>
    let t := g.at (pl.j + 1)
    if pl.j + 1 < g.n then (t, { pl with j := pl.j + 1 }) else (t, { pl with segs := rest, j := 0, seg := pl.seg + 1 })
  | [] => (pl.base + floorDiv (pl.cruise * (pl.j + 1 : Nat) * 65536) 1000000, { pl with j := pl.j + 1 })

/-- Set V to reach a commanded position, clamped to VLIM (R284). -/
def setVelocity (n : Fin 16) (tgt : Int) (s : State) : State :=
  let vlim : Int := (stpVm s n * 2 ^ 40 / 400000000 : Nat)
  s.modStp n fun x =>
    let raw := floorDiv ((tgt - x.cur) * 2 ^ 24) 400
    let v := max (-vlim) (min vlim raw)
    { x with v := v, clamps := if v = raw then 0 else x.clamps + 1 }

/-- The deviation (R294). -/
def stpDev (s : State) (n : Fin 16) : Int :=
  let x := s.stp[n]
  floorDiv ((stpCount s n - x.c0) * signed 32 (s.rd Reg.stpEncratio n).toNat) 65536 + x.p0 - x.p

/-- Capture (C0, P0) (R294). -/
def captureRef (n : Fin 16) (s : State) : State :=
  let c := stpCount s n
  s.modStp n fun x => { x with c0 := c, p0 := x.p, dev := 0 }

/-- The commanded position at this update, if the axis has one. -/
def takeTarget (n : Fin 16) (s : State) : Option Int × State :=
  let x := s.stp[n]
  match x.gear, x.plan with
  | some g, _ => (some (g.pseg + (gearCount s n - g.cseg) * x.gearNow), s)
  | none, some pl =>
    if pl.segs.isEmpty ∧ pl.cruise = 0 then
      if x.cur = pl.base then (none, s.modStp n fun x => { x with plan := none, halting := false }) else (some pl.base, s)
    else
      let (t, pl) := nextTarget pl
      (some t, s.modStp n fun x => { x with plan := some pl })
  | none, none => (none, s)

/-- Current setting and the timer of HOLD_DLY (R283). -/
def currentTimer (n : Fin 16) (s : State) : State :=
  s.modStp n fun x =>
    if x.v ≠ 0 then { x with holdCur := false, zeroSince := none } else { x with zeroSince := some (x.zeroSince.getD s.now) }

/-- AXIS_HOME finds the stall (R295). -/
def homeFound (n : Fin 16) (h : StpHome) (s : State) : State :=
  let c := stpCount s n
  let s := s.modStp n fun x =>
    { x.drop with v := 0, p := h.homePos, f := 0, posUnsure := false, clamps := 0, home := some { h with backing := true, count := c } }
  let s := captureRef n s
  if h.backoff = 0 then s else planPosition n (h.homePos + h.backoff) s

/-- The end of AXIS_HOME once the BACKOFF move is done. -/
def homeEnd (n : Fin 16) (h : StpHome) (s : State) : State :=
  complete .supervisor .ok (unsigned 32 h.count) (captureRef n (s.modStp n fun x => { x with home := none }))

/-- Checks of one update: homing, STALL, LIMIT and OVERSPEED (R284, R293 to R295). -/
def updateChecks (n : Fin 16) (tgt : Option Int) (s : State) : State :=
  let x := s.stp[n]
  let d := x.dev.natAbs
  match x.home with
  | some h =>
    if h.backing then (if x.plan.isNone ∧ x.v = 0 then homeEnd n h s else s)
    else if s.fld Reg.stpDevwin n 31 16 < d then homeFound n h s else s
  | none =>
    let (lo, hi) := stpLimits s n
    let outside := stpLimen s n && (match tgt with
      | some t => decide (t < lo * 65536 ∨ hi * 65536 < t)
      | none => false)
    if outside then stpFault n 5 s
    else if 10 ≤ x.clamps then stpFault n 6 s
    else if s.fld Reg.stpDevwin n 15 0 ≠ 0 ∧ s.fld Reg.stpDevwin n 15 0 < d ∧ (axisEnc (s.stpRec n)).isSome then stpFault n 3 s
    else s

/-- STEPPER_UPDATE (R284). -/
def execStepperUpdate (t : Nat) (axis : Fin 16) (s : State) : Res := run t s fun s =>
  if (s.stpRec axis).isNone then s
  else
    let s := stpCatchUp axis s
    let s := if (s.stp[axis]).en then
        let s := dueReqs axis s
        let (tgt, s) := takeTarget axis s
        let s := match tgt with
          | some t => setVelocity axis t s
          | none => s.modStp axis fun x => { x with v := 0, clamps := 0 }
        let s := s.modStp axis fun x => { x with dev := stpDev s axis }
        updateChecks axis tgt s
      else s
    pacStepper axis (wakePhases axis (currentTimer axis s))

/-! ## Commands of an axis -/

/-- Conditions that refuse a plan write (Table 15.1, R286, R288). -/
def planConds (s : State) (n : Fin 16) : List (Bool × Status) :=
  [((s.stp[n]).fault != 0 || decide (2 ≤ s.dev.holdClass), .badState)]

/-- Commit a write for the first update boundary at least 1 µs ahead (R285). -/
def commit (n : Fin 16) (r : StpReq) (s : State) : State :=
  if (s.stp[n]).en then s.modStp n fun x => { x with reqs := x.reqs ++ [(s.now + us8, r)] } else s

/-- Largest position of an axis (R280). -/
def stpRange (v : Int) : Bool := decide (v.natAbs ≤ 2 ^ 46)

/-- STP_TARGET_COMMIT (R285, R287): the HI half commits the full target. -/
def execStpTargetCommit (t : Nat) (axis : Fin 16) (value : Word) (s : State) : Res := run t s fun s =>
  if !s.ringsRun then s
  else
    let v := signed 64 (value.toNat * 2 ^ 32 + (s.rd Reg.stpTargetLo axis).toNat)
    let (lo, hi) := stpLimits s axis
    refuseOr (planConds s axis ++ [(!stpRange v || (stpLimen s axis && decide (v < lo ∨ hi < v)), .range)]) Reg.stpErr axis
      (stpOffset axis 0x24) (fun s =>
        let s := s.wr Reg.stpTargetHi axis value
        if stpMode s axis = 0 then commit axis (.target v) s else s) s

/-- STP_VSET_WRITE (R288). -/
def execStpVsetWrite (t : Nat) (axis : Fin 16) (value : Word) (s : State) : Res := run t s fun s =>
  if !s.ringsRun then s
  else refuseOr (planConds s axis) Reg.stpErr axis (stpOffset axis 0x1C) (fun s =>
    let s := s.wr Reg.stpVset axis value
    if stpMode s axis = 1 then commit axis .vset s else s) s

/-- Segment `i` of the table: DT, VEL and POS (R285). -/
def stpSegAt (s : State) (n : Fin 16) (i : Nat) : Nat × Int × Int :=
  let o := 1024 * n.val + 4 * i
  ((s.rd Reg.stpSeg o).toNat, signed 32 (s.rd Reg.stpSeg (o + 1)).toNat,
   signed 64 ((s.rd Reg.stpSeg (o + 3)).toNat * 2 ^ 32 + (s.rd Reg.stpSeg (o + 2)).toNat))

/-- Whether a copied table breaks a RANGE rule of GO (R286). -/
def profileBad (s : State) (n : Fin 16) (l : List (Nat × Int × Int)) : Bool :=
  let (lo, hi) := stpLimits s n
  l.any (fun g => decide (g.1 < 1 ∨ 10000000000 < g.1 ∨ stpVm s n < g.2.1.natAbs) || !stpRange g.2.2 ||
    (stpLimen s n && decide (g.2.2 < lo ∨ hi < g.2.2))) ||
  (match l.getLast? with
   | some g => g.2.1 != 0
   | none => true)

/-- STP_GO (R285, R286, R289). -/
def execStpGo (t : Nat) (axis : Fin 16) (s : State) : Res := run t s fun s =>
  let x := s.stp[axis]
  let web := isWebMaster (s.stpRec axis)
  match stpMode s axis with
  | 2 =>
    let l := (List.range (s.fld Reg.stpSegs axis 8 0)).map (stpSegAt s axis)
    refuseOr (planConds s axis ++ [(web, .badState), (profileBad s axis l, .range)]) Reg.stpErr axis (stpOffset axis 0)
      (commit axis (.profile l)) s
  | 3 =>
    refuseOr (planConds s axis ++ [(web || x.v != 0 || x.plan.isSome, .badState)]) Reg.stpErr axis (stpOffset axis 0)
      (commit axis .gear) s
  | _ => s

/-- STP_MODE_CHANGE (R285, R288, R301): a write of STP_CFG_n. -/
def execStpModeChange (t : Nat) (axis : Fin 16) (value : Word) (s : State) : Res := run t s fun s =>
  if !s.ringsRun then s
  else
    let x := s.stp[axis]
    let old := s.rd Reg.stpCfg axis
    refuseOr [(x.en && bitsOf value 11 8 != bitsOf old 11 8, .badState),
        (isWebMaster (s.stpRec axis) && bitsOf value 1 0 != 1, .badState), (decide (8 < bitsOf value 11 8), .range)]
      Reg.stpErr axis (stpOffset axis 0x08) (fun s =>
        let s := s.wr Reg.stpCfg axis (value &&& Reg.stpCfg.rw)
        if bitsOf value 1 0 = bitsOf old 1 0 then s
        else
          let s := if bitsOf old 1 0 = 3 then s.modStp axis fun x => { x with gearPend := [] } else s
          commit axis .mode s) s

/-- Refusals of STP_CTRL.EN (R291, R372). -/
def stpEnableConds (s : State) (n : Fin 16) : List (Bool × Status) :=
  let x := s.stp[n]
  [(!s.modeIn [.standby, .service, .print], .badMode), (!s.dev.holdN, .safety),
   (decide (2 ≤ s.dev.holdClass) || x.fault != 0 || !x.power || (s.stpRec n).isNone || s.xlk.role == .dummy ||
     s.isDisabled 0x0B n, .badState)]

/-- Enable a stepper (R291). -/
def stpEnableAct (n : Fin 16) (s : State) : State :=
  if (s.stp[n]).en then s
  else captureRef n (s.modStp n fun x =>
    { x.drop with en := true, v := 0, clamps := 0, updatedAt := s.now, zeroSince := some s.now })

/-- STP_ENABLE (R290, R372). -/
def execStpEnable (t : Nat) (axis : Fin 16) (s : State) : Res := run t s fun s =>
  refuseOr (stpEnableConds s axis) Reg.stpErr axis (stpOffset axis 0) (stpEnableAct axis) s

/-- STP_EN_CLEAR (R291). -/
def execStpEnClear (t : Nat) (axis : Fin 16) (s : State) : Res := run t s fun s =>
  if (s.stp[axis]).en then pacStepper axis ((stpStopNow axis s).modStp axis fun x => { x with en := false }) else s

/-- STP_STOP (R291). -/
def execStpStop (t : Nat) (axis : Fin 16) (s : State) : Res := run t s fun s =>
  if (s.stp[axis]).en then pacStepper axis (stpStopNow axis s) else s

/-- STP_HALT (R291). -/
def execStpHalt (t : Nat) (axis : Fin 16) (s : State) : Res := run t s fun s =>
  if (s.stp[axis]).en then stpRampStop axis s else s

/-- STP_POWER (R283). -/
def execStpPower (t : Nat) (axis : Fin 16) (on : Bool) (s : State) : Res := run t s fun s =>
  setPower axis on (stpCatchUp axis s)

/-- Rejections of an encoder in the last millisecond (R296). -/
def recentRejects (s : State) (e : Fin 16) : Nat := ((s.enc[e]).rejects.filter fun r => decide (s.now < r + ms8)).length

/-- STP_FAULT_CLR (R297). -/
def execStpFaultClr (t : Nat) (axis : Fin 16) (s : State) : Res := run t s fun s =>
  let x := s.stp[axis]
  let present : Bool := match x.fault, axisEnc (s.stpRec axis) with
    | 1, _ => x.driverLow
    | 4, some e => decide (16 ≤ recentRejects s e)
    | _, _ => false
  if x.v = 0 ∧ !present then s.modStp axis fun x => { x with fault := 0 } else s

/-- STP_CLR_UNSURE (R291). -/
def execStpClrUnsure (t : Nat) (axis : Fin 16) (s : State) : Res := run t s fun s =>
  s.modStp axis fun x => { x with posUnsure := false }

/-- STP_SYNC (R294). -/
def execStpSync (t : Nat) (axis : Fin 16) (s : State) : Res := run t s fun s => captureRef axis (stpCatchUp axis s)

/-- STP_POS_WRITE (R294, R301): each half sets its half of P. -/
def execStpPosWrite (t : Nat) (axis : Fin 16) (hi : Bool) (value : Word) (s : State) : Res := run t s fun s =>
  if !s.ringsRun then s
  else
    let s := stpCatchUp axis s
    let x := s.stp[axis]
    let u := unsigned 64 x.p
    let v := signed 64 (if hi then value.toNat * 2 ^ 32 + u % 2 ^ 32 else u / 2 ^ 32 * 2 ^ 32 + value.toNat)
    refuseOr [(x.v != 0 || x.plan.isSome, .badState), (!stpRange v, .range)] Reg.stpErr axis
      (stpOffset axis (if hi then 0x2C else 0x28)) (fun s => captureRef axis (s.modStp axis fun x => { x with p := v })) s

/-- STP_GEAR_PUSH (R289). -/
def execStpGearPush (t : Nat) (axis : Fin 16) (s : State) : Res := run t s fun s =>
  let c := s.rd64 Reg.stpGearCntLo Reg.stpGearCntHi axis
  refuseOr [(decide (8 ≤ (s.stp[axis]).gearPend.length), .busy), (c == gearCount s axis, .range)] Reg.stpErr axis
    (stpOffset axis 0x6C) (fun s => s.modStp axis fun x =>
      { x with gearPend := x.gearPend ++ [(c, signed 32 (s.rd Reg.stpGearRatio axis).toNat)] }) s

/-- STP_GEAR_CLEAR (Table 15.7). -/
def execStpGearClear (t : Nat) (axis : Fin 16) (s : State) : Res := run t s fun s =>
  s.modStp axis fun x => { x with gearPend := [] }

/-! ## Homing (R295) -/

/-- Conditions that refuse AXIS_HOME of KIND 2. -/
def stpHomeConds (s : State) (index : Nat) (vel : Int) (timeout : Nat) (backoff : Int) (ihome : Nat) : List (Bool × Status) :=
  let n := Fin.ofNat 16 index
  let x := s.stp[n]
  [(!s.modeIn [.standby, .service], .badMode),
   (decide (16 ≤ index) || (axisEnc (s.stpRec n)).isNone || decide (vel = 0 ∨ stpVm s n < vel.natAbs) ||
      decide (0 < backoff.sign * vel.sign) || decide (timeout < 1 ∨ 600000 < timeout) || decide (ihome < 1 ∨ 255 < ihome), .range),
   (!(x.en && x.v == 0 && stpMode s n == 0), .badState)]

/-- AXIS_HOME_STEPPER (R295): the approach is a VELOCITY plan at VEL. -/
def execAxisHomeStepper (t index : Nat) (vel : Int) (timeout : Nat) (homePos backoff : Int) (ihome : Nat) (s : State) : Res :=
  ringCmd t s fun s =>
    admitCmd .supervisor (stpHomeConds s index vel timeout backoff ihome) (fun s =>
      let n := Fin.ofNat 16 index
      let s := stpCatchUp n s
      let (p, v) := (s.stp[n]).start
      let segs := velSegs vel p v (stpA s n)
      let e := match segs with
        | g :: _ => g.p1
        | [] => p
      s.modStp n fun x => { x.drop with
        plan := mkPlan segs vel e, holdCur := false,
        home := some { vel := vel, deadline := s.now + timeout * ms8, homePos := homePos, backoff := backoff, ihome := ihome,
                       backing := false, count := 0 } }) s

/-- STP_HOME_TIMEOUT (R295): the axis stops, and POS_UNSURE stays as it was. -/
def execStpHomeTimeout (t : Nat) (axis : Fin 16) (s : State) : Res := run t s fun s =>
  match (s.stp[axis]).home with
  | some h =>
    if !h.backing ∧ h.deadline ≤ s.now then
      let s := stpCatchUp axis s
      complete .supervisor .timeout 0 (s.modStp axis fun x => { x.drop with v := 0, clamps := 0, home := none, zeroSince := some s.now })
    else s
  | none => s

/-! ## Choppers (R282, R490) -/

/-- One phase's chopper. -/
def chopOf (s : State) (n : Fin 16) (phaseB : Bool) : Chop := if phaseB then (s.stp[n]).chopB else (s.stp[n]).chopA

/-- Replace one phase's chopper. -/
def setChop (n : Fin 16) (phaseB : Bool) (c : Chop) (s : State) : State :=
  s.modStp n fun x => if phaseB then { x with chopB := c } else { x with chopA := c }

/-- Durations of slow and fast decay in eighths of a nanosecond: TOFF in 100 ns, its FAST sixteenths rounded down. -/
def decayTimes (s : State) (n : Fin 16) : Nat × Nat :=
  let toff := s.fld Reg.stpChop n 24 16 * 800
  let fast := toff * s.fld Reg.stpChop n 11 8 / 16
  (toff - fast, fast)

/-- CHOPPER_TRIP (R282, R490): above the threshold of DAC × 2 mV after TBLANK. -/
def execChopperTrip (t : Nat) (axis : Fin 16) (phaseB : Bool) (microvolts : Nat) (s : State) : Res := run t s fun s =>
  let c := chopOf s axis phaseB
  if c.st = .drive ∧ c.since + s.fld Reg.stpChop axis 7 0 * 80 ≤ s.now ∧ c.dac * 2000 < microvolts then
    setChop axis phaseB { c with st := .slow, since := s.now, full := 0 } s
  else s

/-- CHOPPER_OFF_TIME_END (R282): slow decay gives way to fast decay, and fast decay to the next drive phase. -/
def execChopperOffTimeEnd (t : Nat) (axis : Fin 16) (phaseB : Bool) (s : State) : Res := run t s fun s =>
  let c := chopOf s axis phaseB
  let (slow, fast) := decayTimes s axis
  match c.st with
  | .slow =>
    if c.dac = 0 ∨ c.since + slow ≤ s.now then
      if c.dac = 0 ∨ fast = 0 then driveStart axis phaseB s
      else setChop axis phaseB { c with st := .fast, since := s.now } s
    else s
  | .fast => if c.since + fast ≤ s.now then driveStart axis phaseB s else s
  | _ => s

/-- DRIVE_PHASE_TIMEOUT (R282, R296): 100 µs without a trip; eight in a row with DAC at 16 or above are OPEN_LOAD. -/
def execDrivePhaseTimeout (t : Nat) (axis : Fin 16) (phaseB : Bool) (s : State) : Res := run t s fun s =>
  let c := chopOf s axis phaseB
  if c.st = .drive ∧ c.since + 100 * us8 ≤ s.now then
    let full := if 16 ≤ c.dac then c.full + 1 else 0
    let s := setChop axis phaseB { c with st := .slow, since := s.now, full := full } s
    if 8 ≤ full then stpFault axis 2 s else s
  else s

/-- HOLD_DELAY_EXPIRY (R283). -/
def execHoldDelayExpiry (t : Nat) (axis : Fin 16) (s : State) : Res := run t s fun s =>
  let x := s.stp[axis]
  match x.zeroSince with
  | some z =>
    if x.v = 0 ∧ x.plan.isNone ∧ x.reqs.isEmpty ∧ z + s.fld Reg.stpCur axis 31 16 * ms8 ≤ s.now then
      s.modStp axis fun x => { x with holdCur := true }
    else s
  | none => s

/-- STP_DRIVER_FAULT (R296): SAn_FLT_N low for 1 µs. -/
def execStpDriverFault (t : Nat) (axis : Fin 16) (lowNs : Nat) (s : State) : Res := run t s fun s =>
  let s := s.modStp axis fun x => { x with driverLow := decide (0 < lowNs) }
  if 1000 ≤ lowNs then stpFault axis 1 s else s

/-! ## Encoder settings -/

/-- Whether an encoder serves an enabled axis or a locked pacer source (R301). -/
def encInUse (s : State) (n : Fin 16) : Bool :=
  ((List.finRange 8).any fun a => (s.ba[a]).en && axisEnc (s.baRec a) == some n) ||
  ((List.finRange 16).any fun a => (s.stp[a]).en && axisEnc (s.stpRec a) == some n) ||
  (s.pac.est.locked && srcKind (s.rd Reg.pacSrc) == 1 && srcIndex (s.rd Reg.pacSrc) == n.val)

/-- ENC_CFG_WRITE (R298, R301). -/
def execEncCfgWrite (t : Nat) (n : Fin 16) (value : Word) (s : State) : Res := run t s fun s =>
  if !s.ringsRun || encInUse s n || decide (bitsOf value 11 0 < 2 ∨ 4000 < bitsOf value 11 0) then s
  else
    let old := s.fld Reg.encCfg n 18 18
    let s := s.wr Reg.encCfg n (value &&& Reg.encCfg.rw)
    if old = 0 ∧ bitsOf value 18 18 = 1 then
      { s with enc := upd s.enc n fun e => { e with accA := e.a, accB := e.b } }
    else s

end Sys2Proof.Machine
end

