-- ==== Sys2Proof/Machine/Encoders.lean ====
section
/-! DEFINITION. Encoder inputs (R298 to R300): counting, rejection, index pulses, and what a count does to the axes, the
gears and the pacer. -/

namespace Sys2Proof.Machine

/-- Replace one encoder. -/
def State.modEnc (s : State) (n : Fin 16) (f : Enc → Enc) : State := { s with enc := upd s.enc n f }

/-- Phase of a pair of levels in the quadrature sequence: A rising before B counts up (log entry 32). -/
def quadPhase (a b : Bool) : Nat := match a, b with
  | false, false => 0
  | true, false => 1
  | true, true => 2
  | false, true => 3

/-- MINSP in eighths of a nanosecond. -/
def minsp8 (s : State) (n : Fin 16) : Nat := 20 * s.fld Reg.encCfg n 11 0

/-- Counts kept: those of the last millisecond and the first before it (R268). -/
def keepEdges (now8 : Nat) : List (Nat × Int) → List (Nat × Int)
  | [] => []
  | e :: rest => if e.1 + ms8 ≤ now8 then [e] else e :: keepEdges now8 rest

/-- One accepted change of A or B: the new accepted levels and the count (R298, R300). -/
def Enc.accept (e : Enc) (invert : Bool) (press now : Nat) : Enc :=
  let up := (quadPhase e.a e.b == (quadPhase e.accA e.accB + 1) % 4) != invert
  let c := if up then e.c + 1 else e.c - 1
  { e with accA := e.a, accB := e.b, down := !up, c := c, time8 := press, lastAcc := some now,
           edges := keepEdges press ((press, c) :: e.edges) }

/-- A count reaches the gears of the steppers that follow this encoder (R289). -/
def gearsFollow (n : Fin 16) (s : State) : State :=
  { s with stp := Vector.ofFn fun a =>
      if s.fld Reg.stpCfg a 27 24 = n then stpGearReach (s.enc[n]).c s.stp[a] (s.stp[a]).gearPend else s.stp[a] }

/-- Accept the present change. -/
def acceptChange (n : Fin 16) (s : State) : State :=
  let s := s.modEnc n fun e => e.accept (s.fld Reg.encCfg n 16 16 == 1) s.press s.now
  pacEdge n (s.enc[n]).c (s.enc[n]).down (gearsFollow n s)

/-- A rejected edge: counted; 16 within a millisecond fault the enabled axes of the encoder (R275, R296, R299). -/
def rejectEdge (n : Fin 16) (s : State) : State :=
  let s := (s.count Reg.encRej n).modEnc n fun e =>
    { e with rejects := s.now :: e.rejects.filter fun r => decide (s.now < r + ms8) }
  if recentRejects s n < 16 then s
  else
    let s := (List.finRange 8).foldl (fun s (a : Fin 8) =>
      if (s.ba[a]).en ∧ axisEnc (s.baRec a) = some n then
        (baFault a 8 .brake s).modBa a fun x => { x with observerSpeed := true }
      else s) s
    (List.finRange 16).foldl (fun s (a : Fin 16) =>
      if (s.stp[a]).en ∧ axisEnc (s.stpRec a) = some n then stpFault a 4 s else s) s

/-- Whether MINSP has not yet passed since the last accepted change. -/
def tooSoon (s : State) (n : Fin 16) : Bool := match (s.enc[n]).lastAcc with
  | some la => decide (s.now < la + minsp8 s n)
  | none => false

/-- The decoder looks at a new sample of A and B (R298, R299). -/
def encSample (n : Fin 16) (s : State) : State :=
  let e := s.enc[n]
  let dA := e.a != e.accA
  let dB := e.b != e.accB
  if dA && dB then rejectEdge n (s.modEnc n fun e => { e with accA := e.a, accB := e.b })
  else if tooSoon s n then rejectEdge n s
  else if dA || dB then acceptChange n s
  else s

/-- ENCODER_INPUT_CHANGE (R298, R299). -/
def execEncoderInputChange (t : Nat) (n : Fin 16) (a b : Bool) (s : State) : Res := run t s fun s =>
  let changed := (s.enc[n]).a != a || (s.enc[n]).b != b
  let s := s.modEnc n fun e => { e with a := a, b := b }
  if s.fld Reg.encCfg n 18 18 = 1 ∧ changed ∧ !s.isDisabled 0x0C n then encSample n s else s

/-- MINSP_ACCEPT (R299): a change still present as MINSP has passed is accepted. -/
def execMinspAccept (t : Nat) (n : Fin 16) (s : State) : Res := run t s fun s =>
  let e := s.enc[n]
  if s.fld Reg.encCfg n 18 18 = 1 ∧ !s.isDisabled 0x0C n ∧ !tooSoon s n ∧ (e.a != e.accA) != (e.b != e.accB) then acceptChange n s else s

/-- IDXOFF of an encoder (R428). -/
def idxOff (s : State) (n : Fin 16) : Int := ((s.calRec 6 n).bind fun r => r.data[0]?).getD 0

/-- A pending zero meets the index edge of the master encoder (R168, R428). -/
def indexZero (n : Fin 16) (s : State) : State :=
  let w := s.rd Reg.pacSrc
  if s.pac.zeroPend ∧ s.pac.zeroAfter = none ∧ srcKind w = 1 ∧ srcIndex w = n ∧ bitsOf w 17 17 = 1 then
    let k := idxOff s n
    if 0 < k then s.modPac fun p => { p with zeroAfter := some k.toNat }
    else masterMoved (doZero (s.enc[n]).c (floorDiv (k.natAbs * pacScale s) 65536) s)
  else s

/-- INDEX_PULSE (R300): the count at the edge is latched; AXIS_HOME and a zero that waits for it see it (R168, R273). -/
def execIndexPulse (t : Nat) (n : Fin 16) (heldNs : Nat) (s : State) : Res := run t s fun s =>
  let s := s.modEnc n fun e => { e with i := s.fld Reg.encCfg n 17 17 == 0 }
  if s.fld Reg.encCfg n 18 18 = 1 ∧ minsp8 s n ≤ 8 * heldNs then
    let c := (s.enc[n]).c
    let s := (s.modEnc n fun e => { e with idx := c }).setFld Reg.encStatus n 0 0 1
    let s := (List.finRange 8).foldl (fun s a =>
      if axisEnc (s.baRec a) = some n then s.modBa a fun x =>
        { x with home := x.home.map fun h => if h.found.isNone then { h with found := some c } else h }
      else s) s
    indexZero n s
  else s

/-- LOCK_TIMEOUT (R170, R183): no edge for MAX_INT unlocks the source it concerns. -/
def execLockTimeout (t : Nat) (s : State) : Res := run t s fun s =>
  let late (e : Est) : Bool := e.locked && decide (e.t8 + s.fld Reg.pacLockCfg 0 31 16 * us8 < s.press - 60)
  let m := srcKind (s.rd Reg.pacSrc) == 1 && late s.pac.est
  let c := srcKind (s.rd Reg.pacHoSrc) == 1 && late s.pac.cand
  let s := when m loseLock s
  let s := when c (fun s => s.modPac fun p => { p with cand := p.cand.restart }) s
  let s := when ((m || c) && s.pac.handover.isSome) handoverFail s
  when m unlockedPass s

end Sys2Proof.Machine
end

