-- ==== Sys2Proof/Machine/Fabric.lean ====
section
/-! DEFINITION. The Xeuri fabric (chapter 19): discovery, root and addresses, link states, press time, master position,
spans and groups, and bulk frames. -/

namespace Sys2Proof.Machine

/-! ## Addresses (R359) -/

/-- The lowest address that no unit holds. -/
def freeAddr (l : List Held) : Option Nat := (List.range 256).find? fun a => !(l.any fun h => h.addr == a)

/-- The fabric is full: every address is held and a further device stays unaddressed. -/
def fabricFull (s : State) : State :=
  if s.xlk.full then s else alarm .xlkFabricFull noInst (s.modXlk fun x => { x with full := true })

/-- A unit takes an address: it is held for it, and it is the device's own where the unit is this one. -/
def holdAddr (uid addr : Nat) (s : State) : State :=
  s.modXlk fun x =>
    { x with held := (x.held.filter fun h => h.uid != uid && h.addr != addr) ++ [{ uid := uid, addr := addr, lostAt := none }],
             addr := if uid = unitId s then some addr else x.addr, full := if uid = unitId s then false else x.full }

/-- The root gives a unit the address held for it, or else the lowest free one, and says so. -/
def assignUnit (uid : Nat) (s : State) : State :=
  let a := match s.xlk.held.find? fun h => h.uid == uid with
    | some h => some h.addr
    | none => freeAddr s.xlk.held
  match a with
  | some a =>
    let s := holdAddr uid a s
    sendXlk 0xFFFF (.assign uid a s.xlk.topoGen) s
  | none => fabricFull s

/-- Breadth-first order: hop distance, then UNIT_ID. -/
def breadthFirst (found : List (Nat × Nat)) : List Nat :=
  (sortBy (fun a b => decide (a.2 < b.2 ∨ (a.2 = b.2 ∧ a.1 ≤ b.1))) found).map (·.1)

/-- The root assigns addresses: itself first, then the devices found, breadth-first. -/
def assignAll (found : List (Nat × Nat)) (s : State) : State :=
  (breadthFirst found).foldl (fun s u => assignUnit u s) (assignUnit (unitId s) s)

/-! ## Discovery (R357, R358) -/

/-- What a HELLO says of the neighbour. -/
def takeHello (n : Fin 32) (h : XlkHello) (s : State) : State :=
  s.modPort n fun p => { p with lastHello := s.now, mismatch := false, neigh := h.addr, neighUid := h.unitId,
                                rootId := h.rootId, rootDist := h.rootDist, full := h.full, proto := h.proto }

/-- XLK_HELLO_FRAME (R357 to R359): the port comes UP, or stays in HELLO with MISMATCH; the root addresses a neighbour that
has no address. -/
def execXlkHelloFrame (t : Nat) (port : Fin 32) (hello : XlkHello) (s : State) : Res := ringCmd t s fun s =>
  let st := (s.xlk.ports[port]).st
  if st ≠ .hello ∧ st ≠ .up then s
  else if 2 < hello.proto then s.modPort port fun p => { p with mismatch := true, lastHello := s.now }
  else
    let s := takeHello port hello s
    let s := if st = .up then electRoot (noteReach s) else portChanged (resendPort port (portTo .up port s))
    let s := if s.xlk.root ∧ hello.addr = 0xFFFE then assignUnit hello.unitId s else s
    if s.xlk.addr.isNone ∧ hello.full then fabricFull s else s

/-- XLK_HELLO_TIMEOUT (R357): no HELLO for 300 µs. -/
def execXlkHelloTimeout (t : Nat) (port : Fin 32) (s : State) : Res := ringCmd t s fun s =>
  let p := s.xlk.ports[port]
  if (p.st = .hello ∨ p.st = .up) ∧ max p.since p.lastHello + 300 * us8 ≤ s.now then portDown port s else s

/-- ROOT_CONVERGED (R358, R359, R361): a ROOT_ID unchanged for 2 ms. The device whose own it is becomes root, synced; it
addresses the devices found that hold no address. -/
def execRootConverged (t : Nat) (found : List (Nat × Nat)) (s : State) : Res := ringCmd t s fun s =>
  if s.xlk.rootId.isNone ∨ s.xlk.rootKnown ∨ s.now < s.xlk.rootSince + 2 * ms8 then s
  else
    let s := s.modXlk fun x => { x with rootKnown := true }
    if s.xlk.rootId = some (unitId s) then
      assignAll found (s.modXlk fun x => { x with root := true, timeSynced := true, badEx := 0, slew := 0, slewUntil := none,
                                                  ppsAt := none })
    else s

/-- ASSIGN_FRAME (R359); one of an earlier generation is out of date. -/
def execAssignFrame (t unitId_ addr topoGen : Nat) (s : State) : Res := ringCmd t s fun s =>
  if topoGen < s.xlk.topoGen ∨ 256 ≤ addr then s
  else noteReach (holdAddr unitId_ addr (s.modXlk fun x => { x with topoGen := topoGen }))

/-- ADDRESS_HOLD_EXPIRY (R359): unreachable for 10 s. -/
def execAddressHoldExpiry (t unitId_ : Nat) (s : State) : Res := ringCmd t s fun s =>
  s.modXlk fun x => { x with held := x.held.filter fun h =>
    !(h.uid == unitId_ && (h.lostAt.any fun l => decide (l + 10 * sec8 ≤ s.now))) }

/-- LINKSTATE_SEND (R360). -/
def execLinkstateSend (t : Nat) (s : State) : Res := ringCmd t s sendLinkState

/-- LINKSTATE_FRAME (R360): routes follow from the link states held. -/
def execLinkstateFrame (t src topoGen : Nat) (entries : List LinkEntry) (s : State) : Res := ringCmd t s fun s =>
  if topoGen < s.xlk.topoGen ∨ 256 ≤ src then s
  else noteReach (s.modXlk fun x =>
    { x with links := (x.links.filter fun l => l.src != src) ++ [{ src := src, gen := topoGen, entries := entries }] })

/-- Every address of the fabric is cleared for a new generation (R380). -/
def clearAddresses (gen : Nat) (s : State) : State :=
  s.modXlk fun x => { x with topoGen := gen, addr := none, held := [], links := [], full := false }

/-- Refusals of FABRIC_RESCAN (R380, R468). -/
def rescanConds (s : State) (peerBusy : Bool) : List (Bool × Status) :=
  [(!s.modeIn [.configure, .standby], .badMode),
   (s.xlk.addr.isNone || peerBusy || s.anyActive || s.xlk.role == .lead || s.xlk.role == .dummy, .badState)]

/-- FABRIC_RESCAN (R380): on the root every address is cleared and assigned again; any other device passes the command to
the root and reports what the root finds. -/
def execFabricRescan (t : Nat) (found : List (Nat × Nat)) (peerBusy : Bool) (s : State) : Res := ringCmd t s fun s =>
  admitCmd .supervisor (rescanConds s peerBusy) (fun s =>
    let gen := s.xlk.topoGen + 1
    let s := if s.xlk.root then assignAll found (clearAddresses gen (sendXlk 0xFFFF (.rescan gen) s)) else s
    complete .supervisor (if 255 < found.length then .fabricFull else .ok) (found.length + 1) s) s

/-- RESCAN_FRAME (R380): a newer generation clears the address, and the election starts again. -/
def execRescanFrame (t topoGen : Nat) (s : State) : Res := ringCmd t s fun s =>
  if topoGen ≤ s.xlk.topoGen then s
  else (clearAddresses topoGen s).modXlk fun x => { x with rootSince := s.now, rootKnown := false }

/-! ## Press time (R361, R362, R218) -/

/-- XLK_SYNC_SEND (R361): an exchange starts on every port that is UP; the neighbour for which this device is the time
parent takes its time from it. -/
def execXlkSyncSend (t : Nat) (s : State) : Res := ringCmd t s fun s =>
  let n := s.xlk.syncN
  (upPorts s).foldl (fun s p => sendPort p 0xFFFE (.sync n s.press) s)
    (s.modXlk fun x => { x with exchange := some { n := n, t1 := s.press }, syncN := (n + 1) % 2 ^ 32 })

/-- TIME_SYNCED is lost (R361). -/
def loseTime (s : State) : State :=
  if s.xlk.timeSynced then
    alarm .xlkTimeLost noInst (s.modXlk fun x => { x with timeSynced := false, goodEx := 0, badEx := 0, slew := 0 })
  else s

/-- One exchange on a synced device: press time slews by at most 200 ppm toward the parent's; the second of two exchanges
beyond 4 ns loses TIME_SYNCED (R218, R361). `err` is the device's press time minus the parent's. -/
def slewTime (err : Int) (s : State) : State :=
  let rate : Int := max (-1600000) (min 1600000 (err * 8000))
  let s := s.modXlk fun x => { x with badEx := if 32 < err.natAbs then x.badEx + 1 else 0, slew := rate,
                                      slewUntil := some (s.now + 125 * us8) }
  if 2 ≤ s.xlk.badEx then loseTime s else s

/-- One exchange on a device that is not synced: within 1 ns it counts toward the 8, otherwise press time steps, unless a
job runs (R218, R361). -/
def stepTime (err : Int) (s : State) : State :=
  if err.natAbs ≤ 8 then
    let s := s.modXlk fun x => { x with goodEx := x.goodEx + 1 }
    if 8 ≤ s.xlk.goodEx then s.modXlk fun x => { x with timeSynced := true, badEx := 0 } else s
  else
    let s := s.modXlk fun x => { x with goodEx := 0 }
    if s.anyActive then alarm .xlkTimeStepBlocked noInst s else { s with pressBase := s.pressBase + err }

/-- The arithmetic of R217 with A = 0: theta is the device's own time minus the parent's press time. -/
def exchangeTheta (t1 h2 h3 t4 : Nat) : Int :=
  let rtt : Int := ((t4 : Int) - t1) - ((h3 : Int) - h2)
  (h2 : Int) - (t1 + floorDiv rtt 2)

/-- SYNC_FOLLOW from the time parent. -/
def takeFollow (t1 h2 h3 t4 : Nat) (s : State) : State :=
  let theta := exchangeTheta t1 h2 h3 t4
  let err := theta - s.pressBase
  let s := s.modXlk fun x => { x with theta := theta, lastFollow := s.now }
  if s.xlk.timeSynced then slewTime err s else stepTime err s

/-- XLK_SYNC_FRAME (R217, R361): SYNC is answered, SYNC_RESP is followed up, SYNC_FOLLOW from the time parent adjusts press
time. -/
def execXlkSyncFrame (t : Nat) (port : Fin 32) (frame : SyncFrame) (s : State) : Res := ringCmd t s fun s =>
  match frame with
  | .sync n _ => sendPort port 0xFFFE (.syncResp n s.now s.now) s
  | .resp n _ _ t4 => if s.xlk.exchange.any fun e => e.n == n then sendPort port 0xFFFE (.syncFollow n t4) s else s
  | .follow _ _ t1 h2 h3 t4 => if parentPort s = some port.val then takeFollow t1 h2 h3 t4 s else s

/-- SYNC_FOLLOW_TIMEOUT (R218, R361): none for 1 ms. -/
def execSyncFollowTimeout (t : Nat) (s : State) : Res := ringCmd t s fun s =>
  if !s.xlk.root ∧ s.xlk.lastFollow + ms8 ≤ s.now then loseTime s else s

/-- Add 1 to a saturating 16-bit count. -/
def count16 (r : RegSpec) (lo : Nat) (s : State) : State :=
  s.setFld r 0 (lo + 15) lo (min 0xFFFF (s.fld r 0 (lo + 15) lo + 1))

/-- A TIME_PPS edge on the root: one that lies 1 s ± 1 ms after the edge before is good, and corrects the rate of press time
by what the interval measures beyond 1 s, up to 200 ppm, while PPS_EN is set; any other is counted as bad; each starts a new
interval (R362, Table 28.4). -/
def ppsRoot (at_ : Int) (s : State) : State :=
  let e : Int := match s.xlk.ppsAt with
    | some p => at_ - p - (sec8 : Int)
    | none => sec8
  let s := s.modXlk fun x => { x with ppsAt := some at_ }
  if ms8 < e.natAbs then count16 Reg.lsiPpsStatus 16 s
  else
    let s := count16 Reg.lsiPpsStatus 0 s
    if s.fld Reg.xlkCfg 0 1 1 = 1 then
      s.modXlk fun x => { x with slew := max (-1600000) (min 1600000 (x.slew + e)), slewUntil := none }
    else s

/-- TIME_PPS_EDGE (R362, R504): high for at least 100 ns; the synchroniser's 7.5 ns are taken off. -/
def execTimePpsEdge (t highNs : Nat) (s : State) : Res := ringCmd t s fun s =>
  if highNs < 100 then s
  else
    let s := { s with lsi := { s.lsi with ppsTime := s.press - 60, ppsLast := some s.now, ppsPin := true } }
    if s.xlk.root then ppsRoot (s.press - 60 : Nat) s else s

/-! ## Master position (R363) -/

/-- POSITION_BROADCAST (R363). -/
def execPositionBroadcast (t : Nat) (s : State) : Res := ringCmd t s fun s =>
  let k := srcKind (s.rd Reg.pacSrc)
  if s.fld Reg.xlkCfg 0 2 2 = 1 ∧ (k = 1 ∨ k = 2) ∧ s.xlk.addr.isSome then
    let e := s.pac.est
    sendXlk 0xFFFF (.position { src := ownAddr s, t8 := e.t8, p := e.p, z := e.z, v := e.v, locked := e.locked }) s
  else s

/-- A broadcast taken as the state of an estimator: lock after 64 in a row from a locked source (Table 9.1). -/
def Est.heed (e : Est) (f : PositionFrame) : Est :=
  let n := if f.locked then min 64 (e.lockCnt + 1) else 0
  { e with p := f.p, v := f.v, z := f.z, t8 := f.t8, edges := 2, down := decide (f.v < 0), lockCnt := n,
           locked := f.locked && decide (64 ≤ n) }

/-- POSITION_FRAME (R363): from the device that the master's source, or the handover's, names. -/
def execPositionFrame (t : Nat) (frame : PositionFrame) (s : State) : Res := ringCmd t s fun s =>
  let w := s.rd Reg.pacSrc
  let h := s.rd Reg.pacHoSrc
  let mine := srcKind w = 3 ∧ bitsOf w 15 8 = frame.src
  let cand := srcKind h = 3 ∧ bitsOf h 15 8 = frame.src
  let s := if mine ∨ cand then s.modXlk fun x => { x with posRef := some frame, posAt := s.now } else s
  let s := if cand then
      let e := s.pac.cand.heed frame
      let lost := s.pac.cand.locked && !e.locked
      let s := s.modPac fun p => { p with cand := e }
      if lost && s.pac.handover.isSome then handoverFail s else s
    else s
  if mine then
    let e := s.pac.est.heed frame
    takeEst e (s.pac.est.locked && !e.locked) s
  else s

/-- POSITION_SILENCE (R363): no broadcast for 4 µs. -/
def execPositionSilence (t : Nat) (s : State) : Res := ringCmd t s fun s =>
  if s.xlk.posRef.isNone ∨ s.now < s.xlk.posAt + 4 * us8 then s
  else
    let s := if srcKind (s.rd Reg.pacHoSrc) = 3 then
        let s := s.modPac fun p => { p with cand := p.cand.restart }
        if s.pac.handover.isSome then handoverFail s else s
      else s
    if srcKind (s.rd Reg.pacSrc) = 3 then loseLock s else s

/-! ## Spans and groups (R364 to R366) -/

/-- ROLE of PEER_STATE (Table 19.2). -/
def peerRoleCode (s : State) : Nat := match s.xlk.role with
  | .lead => 2
  | .dummy => 3
  | .soloLead => 4
  | .conflict => if s.mlk.holds then 2 else 3
  | _ => 0

/-- Plane masks of the contexts, 0 for a FREE one. -/
def planeMasks (s : State) : List Nat := s.jobs.toList.map fun j => if j.st = .free then 0 else (j.pkg.map (·.planes)).getD 0

/-- PEER_STATE_SEND (R364). -/
def execPeerStateSend (t : Nat) (s : State) : Res := ringCmd t s fun s =>
  if s.xlk.addr.isSome then sendXlk 0xFFFF (.peerState s.gov.vallow (peerRoleCode s) (planeMasks s)) s else s

/-- Whether an address belongs to the peer set. -/
def inPeerSet (s : State) (a : Nat) : Bool := decide (a < 256) && s.fld Reg.xlkPeer (a / 32) (a % 32) (a % 32) == 1

/-- PEER_STATE_FRAME (R256, R364 to R366). -/
def execPeerStateFrame (t : Nat) (frame : PeerState) (s : State) : Res := ringCmd t s fun s =>
  if inPeerSet s frame.addr then
    let s := s.modXlk fun x => { x with peers := (x.peers.filter fun p => p.1 != frame.addr) ++
      [(frame.addr, frame.role, frame.masks, frame.vallow, s.now)] }
    { s with gov := { s.gov with peers := (s.gov.peers.filter fun p => p.1 != frame.addr) ++ [(frame.addr, frame.vallow, s.now)] } }
  else s

/-- BIND_FRAME (R365, R369): the authority's decisions for consecutive slots; one for a context that the dummy does not hold
in LOADED shows that the lead armed it before. -/
def execBindFrame (t : Nat) (ctx : Fin 64) (laneIdx rpt : Nat) (entries : List BindEntry) (s : State) : Res :=
  ringCmd t s fun s =>
    let j := s.jobs[ctx]
    let s := when (s.dummy && (j.st == .free || j.st == .opened)) (markUnfit ctx) s
    match j.pkg with
    | none => s
    | some pk =>
      if isAuthority s ctx then s
      else
        let n := max 1 pk.lanes.length
        let first := rpt * n + laneIdx
        let news := entries.zipIdx.map fun e =>
          ((first + e.2) % n, (first + e.2) / n, if e.1.blank then none else some e.1.seq)
        s.modJob ctx fun j =>
          { j with bindings := (j.bindings.filter fun b => !(news.any fun m => m.1 == b.1 && m.2.1 == b.2.1)) ++
                     news.filter fun m => decide (j.nextSlot ≤ m.2.1 * n + m.1) }

/-- BIND_REQ_FRAME (R365): the authority binds up to the slot asked for. -/
def execBindReqFrame (t : Nat) (ctx : Fin 64) (laneIdx rpt : Nat) (s : State) : Res := ringCmd t s fun s =>
  match s.str.tables, (s.jobs[ctx]).pkg with
  | some tb, some pk =>
    if isAuthority s ctx ∧ (s.jobs[ctx]).st.active then
      bindUpTo ctx tb pk (rpt * max 1 pk.lanes.length + laneIdx + 1) s
    else s
  | _, _ => s

/-- PARTIAL_FRAME (R366): CODES and PLANES combine by OR. -/
def execPartialFrame (t src : Nat) (ctx : Fin 64) (seq planes codes : Nat) (s : State) : Res := ringCmd t s fun s =>
  if !isAuthority s ctx ∨ ((s.jobs[ctx]).finalSeq.any fun f => decide (seq ≤ f)) then s
  else
    let w := partialsOf s ctx seq
    let w := { w with planes := w.planes ||| planes, codes := w.codes ||| codes, got := (src :: w.got).eraseDups }
    settleJob ctx (s.modXlk fun x =>
      { x with partials := (x.partials.filter fun y => !(y.ctx == ctx.val && y.seq == seq)) ++ [w] })

/-- PARTIAL_TIMEOUT (R366): 100 ms after the authority's own result, the planes of every silent peer are DEFECT_FAILOVER. -/
def execPartialTimeout (t : Nat) (ctx : Fin 64) (seq : Nat) (s : State) : Res := ringCmd t s fun s =>
  let due := (s.jobs[ctx]).items.any fun it => it.seq == seq && it.outcome.isNone &&
    (it.ownFinal.any fun f => decide (f + 100 * ms8 ≤ s.now))
  let silent := silentPeers s ctx seq
  if due ∧ !silent.isEmpty then
    let w := partialsOf s ctx seq
    let w := { w with planes := silent.foldl (fun m p => m ||| p.2) w.planes, codes := w.codes ||| 64,
                      got := w.got ++ silent.map (·.1) }
    settleJob ctx (s.modXlk fun x =>
      { x with partials := (x.partials.filter fun y => !(y.ctx == ctx.val && y.seq == seq)) ++ [w] })
  else s

/-! ## Bulk frames (R355, R356) -/

/-- A broadcast is accepted on the first next hop of the route to its sender only, and forwarded on every other port that is
UP (R355). -/
def bulkBroadcast (port : Fin 32) (src hops bytes : Nat) (s : State) : State :=
  if ((route s src).bind (·.2.head?)) ≠ some port.val then s
  else if hops = 0 then s.count Reg.xlkDrop
  else sendPorts ((upPorts s).filter (· ≠ port)) 0xFFFF (.bulk src (hops - 1) bytes) s

/-- BULKDATA_FRAME (R355, R356): delivered to firmware, forwarded, or discarded and counted. -/
def execBulkdataFrame (t : Nat) (port : Fin 32) (src dst hops bytes : Nat) (s : State) : Res := ringCmd t s fun s =>
  if dst = 0xFFFF then bulkBroadcast port src hops bytes s
  else if s.xlk.addr = some dst ∨ dst = 0xFFFE then s
  else if hops = 0 ∨ (route s dst).isNone then s.count Reg.xlkDrop
  else sendBulk src dst (hops - 1) bytes s

end Sys2Proof.Machine
end

