-- ==== Sys2Proof/Machine/Governor.lean ====
section
/-! DEFINITION. The speed governor (chapter 13): allowed and governed speed, overruns, the drive of a web master axis and
GOV_PWM, and silent peers. -/

namespace Sys2Proof.Machine

/-- Replace the governor. -/
def State.modGov (s : State) (f : Gov → Gov) : State := { s with gov := f s.gov }

/-- Input 10 (R256): the least value received within the last 4 ms. -/
def peerSpeed (s : State) : Nat :=
  ((s.gov.peers.filter fun p => decide (s.now ≤ p.2.2 + 4 * ms8)).map (·.2.1)).foldl min capSpeed

/-- The inputs of Table 13.1 in code order. -/
def govInputs (s : State) : List Nat :=
  [s.cmp.vcomp, s.cod.vcode, s.wav.venergy, s.wav.vheat, s.nzm.vfire, s.mlk.vlane, s.ins.vinsp, ratedCeiling s,
   (s.rd Reg.govVhost).toNat, peerSpeed s]

/-- VMIN in µm/s. -/
def govMin (s : State) : Nat := s.fld Reg.govCfg 0 11 4 * 10000

/-- The axis that the structure names as web master is limited now (R254). -/
def govDrives (s : State) : Bool :=
  s.str.tables.any (fun t => t.axes.any fun a => a.flags.testBit 0) && s.fld Reg.govCfg 0 31 31 == 1 &&
    s.modeIn [.standby, .service, .print] && !(s.dev.hold && decide (2 ≤ s.dev.holdClass))

/-- Duty of GOV_PWM in 1,024ths (R255). -/
def govDuty (s : State) (v : Nat) : Nat :=
  if s.modeIn [.boot, .configure, .recovery] ∨ (s.dev.hold ∧ 2 ≤ s.dev.holdClass) then 0
  else min 1023 (1024 * v / (1000 * max 1 (s.fld Reg.govPwm 0 15 0)))

/-- What v_gov becomes under an allowed speed, and since when v_allow has been in the rising band (R253). -/
def nextGov (s : State) (allow : Nat) : Nat × Option Nat :=
  let g := s.gov
  if allow < g.vgov then (allow, none)
  else if g.vgov * (1000 + s.fld Reg.govCfg 0 30 24) ≤ allow * 1000 then
    let since := g.upSince.getD s.now
    if since + s.fld Reg.govCfg 0 23 12 * ms8 ≤ s.now then (allow, none) else (g.vgov, some since)
  else (g.vgov, none)

/-- Whether the master runs above the overrun limit (R251). -/
def aboveLimit (s : State) : Bool := decide ((102 * s.gov.vgov + 1000000 : Nat) < 100 * webSpeed s)

/-- The grace after a fall of v_gov ends as the master reaches v_gov or its time has passed (R251). -/
def graceLeft (s : State) : Option Nat :=
  s.gov.graceUntil.filter fun g => decide (s.now < g) && decide ((s.gov.vgov : Int) < webSpeed s)

/-- Since when the master has been above, or at or below, the overrun limit, as the updates see it (log entry 55). -/
def watchSpeed (s : State) : State :=
  let grace := graceLeft s
  let above := aboveLimit s
  let s := s.modGov fun g =>
    { g with graceUntil := grace,
             overSince := if above && grace.isNone && s.anyActive then some (g.overSince.getD s.now) else none,
             underSince := if above then none else some (g.underSince.getD s.now) }
  if s.gov.overspeed && s.gov.underSince.any (fun u => decide (u + 20 * ms8 ≤ s.now)) then
    s.modGov fun g => { g with overspeed := false }
  else s

/-- GOV_UPDATE (R252 to R255). -/
def execGovUpdate (t : Nat) (s : State) : Res := ringCmd t s fun s =>
  let inputs := govInputs s
  let allow := inputs.foldl min capSpeed
  let low := decide (allow < govMin s)
  let limiter := if low then 11 else ((inputs.idxOf? allow).map (· + 1)).getD 8
  let (v, since) := nextGov s allow
  let v := max v (govMin s)
  let fell := decide (v < s.gov.vgov)
  let s := when (low && !s.gov.floor) (alarm .govFloor noInst) s
  let s := s.modGov fun g =>
    { g with vallow := allow, vgov := v, vpeer := peerSpeed s, limiter := limiter, floor := low, upSince := since,
             driving := govDrives s, duty := govDuty s v,
             graceUntil := if fell then some (s.now + s.fld Reg.govCfg 0 3 0 * 500 * ms8) else g.graceUntil }
  watchSpeed s

/-- GOV_OVERSPEED (R251): the master has been above the limit for 20 ms. -/
def execGovOverspeed (t : Nat) (s : State) : Res := ringCmd t s fun s =>
  if !s.gov.overspeed && s.gov.overSince.any (fun o => decide (o + 20 * ms8 ≤ s.now)) then
    alarm .govOverspeed noInst ((s.modGov fun g => { g with overspeed := true }).count Reg.govOverspeed)
  else s

/-- GOV_PEER_SILENT (R256): a device from which nothing has arrived for 4 ms is left out, and named once. -/
def execGovPeerSilent (t : Nat) (peer : Fin 256) (s : State) : Res := ringCmd t s fun s =>
  if (s.gov.peers.any fun p => p.1 == peer.val && decide (p.2.2 + 4 * ms8 ≤ s.now)) then
    alarm .govPeerSilent peer (s.modGov fun g => { g with peers := g.peers.filter fun p => p.1 != peer.val })
  else s

end Sys2Proof.Machine
end

