-- ==== Sys2Proof/Machine/Updates.lean ====
section
/-! DEFINITION. Firmware, structure and metrology updates (chapter 23): transfers, activation, confirmation and revert, the
trial, and the downloads of RECOVERY. -/

namespace Sys2Proof.Machine

/-! ## Slots -/

/-- The staged slot of a class. -/
def stagedOf (s : State) (cls : Nat) : Option Image :=
  if cls = 1 then s.fw.fwiStaged else if cls = 2 then s.str.staged else s.fw.mtiStaged

/-- The previous slot of a class. -/
def prevOf (s : State) (cls : Nat) : Option Image :=
  if cls = 1 then s.fw.fwiPrev else if cls = 2 then s.str.prev else s.fw.mtiPrev

/-- Put an image into a staged slot, or empty it; a staged FWI is then no longer a rejected one. -/
def setStaged (cls : Nat) (i : Option Image) (s : State) : State :=
  match cls with
  | 1 => s.modFw fun u => { u with fwiStaged := i, rejected := false }
  | 2 => s.modStr fun x => { x with staged := i }
  | _ => s.modFw fun u => { u with mtiStaged := i }

/-- Empty a previous slot. -/
def emptyPrev (cls : Nat) (s : State) : State :=
  match cls with
  | 1 => s.modFw fun u => { u with fwiPrev := none }
  | 2 => s.modStr fun x => { x with prev := none }
  | _ => s.modFw fun u => { u with mtiPrev := none }

/-- UPD_ERR takes the failing row and its code (Table 23.8). -/
def noteRow (row : Nat) (s : State) : State := s.modFw fun u => { u with errRow := row, errCode := (rowStatus row).code }

/-! ## Transfers (R437, R438) -/

/-- Whether a class is one of the three. -/
def classOk (cls : Nat) : Bool := decide (1 ≤ cls ∧ cls ≤ 3)

/-- The largest FWI body held in scratch until UPD_END (R438). -/
def heldBody : Nat := 4194304

/-- UPD_BEGIN (R437): an FWI with a larger body is written into the staged slot as it comes, so that the slot is empty from
now on (R438). -/
def execUpdBegin (t cls length : Nat) (header : Bytes) (s : State) : Res := ringCmd t s fun s =>
  admitCmd .supervisor [(s.fw.xfer.isSome || s.str.load.isSome, .busy), (!classOk cls, .range)] (fun s =>
    match headerRow header (imageCtx s cls length) with
    | 0 =>
      let s := when (cls == 1 && decide (heldBody < u32 header 32)) (setStaged 1 none) s
      complete .supervisor .ok 0 (s.modFw fun u => { u with xfer := some (newTransfer s cls length header) })
    | r => complete .supervisor (rowStatus r) 0 (noteRow r s)) s

/-- The transfer is over. -/
def endXfer (s : State) : State := s.modFw fun u => { u with xfer := none }

/-- UPD_BLOCK (R437): a refusal discards the transfer, as under R39. -/
def execUpdBlock (t offset : Nat) (data : Bytes) (s : State) : Res := ringCmd t s fun s =>
  match s.fw.xfer with
  | none => complete .supervisor .badState 0 s
  | some x => match blockStatus x offset data with
    | .ok => complete .supervisor .ok 0 (s.modFw fun u => { u with xfer := some (x.add s.now data) })
    | st => complete .supervisor st 0 (when (st == .integrity) (noteRow 8) (endXfer s))

/-- UPD_END (R437): completeness, then row 9; the staged slot becomes valid. -/
def execUpdEnd (t : Nat) (s : State) : Res := ringCmd t s fun s =>
  match s.fw.xfer with
  | none => complete .supervisor .badState 0 s
  | some x => match endStatus s x with
    | .ok => complete .supervisor .ok 0 (setStaged x.cls (some ⟨x.data⟩) (endXfer s))
    | st => complete .supervisor st 0 (when (st == .integrity) (noteRow 9) (endXfer s))

/-- UPD_TRANSFER_TIMEOUT (R40, R437): a transfer with no command for 10 s is discarded. -/
def execUpdTransferTimeout (t : Nat) (s : State) : Res := run t s fun s =>
  if s.fw.xfer.any fun x => x.stale s.now then endXfer s else s

/-! ## Activation and revert (R439, R440, R445) -/

/-- The dummy of a formed pair. -/
def pairDummy (s : State) : Bool := s.xlk.role == .dummy

/-- PROTO differs by more than 1 from that of a fabric port that is UP. -/
def protoApart (s : State) (proto : Nat) : Bool :=
  s.xlk.ports.toList.any fun p => p.st == .up && decide (p.proto + 1 < proto ∨ proto + 1 < p.proto)

/-- Refusals of an FWI activation or revert. -/
def fwiConds (s : State) (i : Option Image) : List (Bool × Status) :=
  [(s.anyAxisEn || s.xlk.role == .lead || (!pairDummy s && s.anyActive), .badState),
   (i.any fun x => protoApart s x.proto, .incompatible)]

/-- Refusals of an MTI activation or revert (R414, R415, R440). -/
def mtiConds (s : State) : List (Bool × Status) :=
  [(s.met.st != .broken || sealedRuns s, .badState), countFull s, evtShort s]

/-- A transfer of the class is open (Table 23.6). -/
def xferOpen (s : State) (cls : Nat) : Bool := (s.fw.xfer.any fun x => x.cls == cls) || (cls == 2 && s.str.load.isSome)

/-- The image is checked again as it is read; a slot that fails is emptied (R439). -/
def checkedImage (row : CheckRow) (empty f : State → State) (s : State) : State :=
  if row = 0 then f s else complete .supervisor (rowStatus row) 0 (noteRow row (empty s))

/-- The MTI becomes active: counted, noted under KIND 6, running from the next start (R440). -/
def switchMti (f : Upd → Upd) (s : State) : State :=
  complete .supervisor .ok 0 (metEvent 6 [] (countEvent (s.modFw fun u => { f u with mtiPend := true })))

/-- The warm start of an FWI activation (R440). -/
def fwiStart (env : BootEnv) (s : State) : State := warmStart 3 env (complete .supervisor .ok 0 s)

/-- What UPD_ACTIVATE does by class. -/
def activateClass (cls : Nat) (row : CheckRow) (env : BootEnv) (s : State) : State :=
  match cls with
  | 1 => admitCmd .supervisor (fwiConds s s.fw.fwiStaged)
      (checkedImage row (setStaged 1 none) fun s => fwiStart env (s.modFw fun u => { u with pendActivate := true, pendRevert := false })) s
  | 2 => admitCmd .supervisor [(s.dev.mode != .standby, .badMode)] (strActivateCmd 0) s
  | _ => admitCmd .supervisor (mtiConds s) (checkedImage row (setStaged 3 none)
      (switchMti fun u => { u with mtiActive := u.mtiStaged, mtiPrev := u.mtiActive })) s

/-- UPD_ACTIVATE (R440). -/
def execUpdActivate (t cls : Nat) (row : CheckRow) (env : BootEnv) (s : State) : Res := ringCmd t s <| sensitive fun s =>
  admitCmd .supervisor [(!classOk cls, .range), ((stagedOf s cls).isNone, .notReady), (cls == 1 && s.fw.rejected, .badState),
    (xferOpen s cls, .busy)] (activateClass cls row env) s

/-- What UPD_REVERT does by class. -/
def revertClass (cls : Nat) (row : CheckRow) (env : BootEnv) (s : State) : State :=
  match cls with
  | 1 => admitCmd .supervisor (fwiConds s s.fw.fwiPrev)
      (checkedImage row (emptyPrev 1) fun s => fwiStart env (s.modFw fun u => { u with pendRevert := true, pendActivate := false })) s
  | 2 => admitCmd .supervisor [(s.dev.mode != .standby, .badMode)] (strActivateCmd 1) s
  | _ => admitCmd .supervisor (mtiConds s) (checkedImage row (emptyPrev 3)
      (switchMti fun u => { u with mtiActive := u.mtiPrev, mtiPrev := u.mtiActive })) s

/-- UPD_REVERT (R445). -/
def execUpdRevert (t cls : Nat) (row : CheckRow) (env : BootEnv) (s : State) : Res := ringCmd t s <| sensitive fun s =>
  admitCmd .supervisor [(!classOk cls, .range), ((prevOf s cls).isNone, .notReady)] (revertClass cls row env) s

/-! ## Confirmation and trial (R441, R442) -/

/-- Burn bits 0 to n − 1 of a class's thermometer; which cells hold after a failed burn is open. -/
def burnThermo (cls n : Nat) (ok : Bool) (s : State) : State :=
  (List.range 6).foldl (fun s i =>
    let d := s.draw
    let s := if ok then s else d.2
    burnWord ((if cls = 1 then 130 else 136) + i) (BitVec.ofNat 32 (2 ^ (n - 32 * i) - 1))
      { cleanBurn with failed := if ok then 0 else BitVec.ofNat 32 d.1 } s) s

/-- The image that UPD_CONFIRM confirms. -/
def confirmed (s : State) (cls : Nat) : Option Image := if cls = 1 then runningFwi s else s.str.active

/-- UPD_CONFIRM (R442). -/
def execUpdConfirm (t cls : Nat) (burnOk : Bool) (s : State) : Res := ringCmd t s fun s =>
  admitCmd .supervisor [(cls == 1 && !s.fw.trial, .badState), (cls == 2 && s.str.active.isNone, .notReady),
    (decide (cls ≠ 1 ∧ cls ≠ 2), .range)] (fun s =>
      let n := ((confirmed s cls).map Image.svn).getD 0
      let s := burnThermo cls n burnOk s
      if burnOk then
        complete .supervisor .ok 0 (when (cls == 1) (fun s => s.modFw fun u => { u with trial := false, trialAt := none }) s)
      else complete .supervisor .integrity 0 s) s

/-- TRIAL_EXPIRY (R441): 120 s without confirmation end in DEV_WARM_RESET with FORCE, and the start that follows falls
back. -/
def execTrialExpiry (t : Nat) (env : BootEnv) (s : State) : Res := run t s fun s =>
  if s.fw.trial ∧ (s.fw.trialAt.any fun a => decide (a + 120 * sec8 ≤ s.now)) then
    forceReset env (s.modFw fun u => { u with expired := true, trialAt := none })
  else s

/-! ## RECOVERY (R446, R447) -/

/-- The boot ROM writes an accepted image to the active slot, empties the others and starts again (R446). -/
def recover (i : Image) (env : BootEnv) (s : State) : State :=
  let s := s.modFw fun u => { u with fwiActive := some i, fwiStaged := none, fwiPrev := none, rejected := false, trial := false,
                                     expired := false, pendActivate := false, pendRevert := false, recCode := 0, uart := none }
  boot env (s.modDev fun d => { d with mode := .boot, stage := 1, reason := 0, detail := 0, failed := 0, fwiSlot := 0 })

/-- UPD_REC_GO (R387, R446): `header` is the image that the boot ROM read, and `row` what Table 23.2 found. -/
def execUpdRecGo (t : Nat) (row : CheckRow) (header : Bytes) (env : BootEnv) (s : State) : Res := run t s fun s =>
  if s.dev.mode ≠ .recovery then s
  else if lifeCycle s = 4 then s.modFw fun u => { u with recCode := Status.authFail.code }
  else if row ≠ 0 then s.modFw fun u => { u with recCode := (rowStatus row).code }
  else recover ⟨header⟩ env s

/-- The form of a UART0 frame in RECOVERY: without a good CRC, or with UART_RECOVERY_OFF, it is discarded without a reply
(R447, R502); in SCRAPPED it is refused (R387). -/
def uartFrame (crcOk : Bool) (f : State → State) (s : State) : State :=
  if s.dev.mode ≠ .recovery ∨ !crcOk ∨ s.sec.policy.getLsbD 1 then s
  else if lifeCycle s = 4 then s.emit (.uartReply Status.authFail.code)
  else f s

/-- RECOVERY_UART_BEGIN (R447): rows 1 to 7. -/
def execRecoveryUartBegin (t length : Nat) (header : Bytes) (crcOk : Bool) (s : State) : Res := run t s <|
  uartFrame crcOk fun s => match headerRow header (imageCtx s 1 length) with
    | 0 => (s.modFw fun u => { u with uart := some (newTransfer s 1 length header) }).emit (.uartReply 0)
    | r => (s.modFw fun u => { u with uart := none }).emit (.uartReply (rowStatus r).code)

/-- RECOVERY_UART_BLOCK (R447): 1 to 4,096 bytes that continue from the block before. -/
def execRecoveryUartBlock (t offset : Nat) (data : Bytes) (crcOk : Bool) (s : State) : Res := run t s <|
  uartFrame crcOk fun s => match s.fw.uart with
    | none => s.emit (.uartReply Status.badState.code)
    | some x => match (if 4096 < data.length then .range else blockStatus x offset data) with
      | .ok => (s.modFw fun u => { u with uart := some (x.add s.now data) }).emit (.uartReply 0)
      | st => (s.modFw fun u => { u with uart := none }).emit (.uartReply st.code)

/-- RECOVERY_UART_END (R446, R447): the checks and the write, then the reply. -/
def execRecoveryUartEnd (t : Nat) (crcOk : Bool) (env : BootEnv) (s : State) : Res := run t s <|
  uartFrame crcOk fun s => match s.fw.uart with
    | none => s.emit (.uartReply Status.badState.code)
    | some x => match endStatus s x with
      | .ok => recover ⟨x.data⟩ env (s.emit (.uartReply 0))
      | st => (s.modFw fun u => { u with uart := none }).emit (.uartReply st.code)

end Sys2Proof.Machine
end

