-- ==== Sys2Proof/Machine/Logs.lean ====
section
/-! DEFINITION. Events, logs and semaphores (chapter 24): admission, the drain to the host ring, the timers of the log path,
and the semaphores. Raising an event is in Flags.lean. -/

namespace Sys2Proof.Machine

/-! ## Admission (R450 to R453) -/

/-- LOG_ADMISSION (R450): what waits and fits is admitted; contexts whose outcomes no longer wait may close (R83, R85). -/
def execLogAdmission (t : Nat) (s : State) : Res := run t s fun s =>
  if s.ringsRun then settleAll (backlogEpisode (admitWaiting s)) else s

/-- A backlog entry whose outcome has stood for ITEM_HOLD ms becomes VOID with HELD set (R453). -/
def expireEntry (s : State) (ctx seq : Nat) (e : BackEntry) : BackEntry :=
  match e.st with
  | .final o since false =>
    if e.ctx = ctx ∧ e.seq = seq then
      let r := holdOutcome s o since false
      { e with st := .final r.1 since r.2 }
    else e
  | _ => e

/-- ITEM_HOLD_EXPIRY (R453). -/
def execItemHoldExpiry (t : Nat) (ctx : Fin 64) (seq : Nat) (s : State) : Res := run t s fun s =>
  s.modLog fun l => { l with backlog := l.backlog.map (expireEntry s ctx seq) }

/-- A SUMMARY is due 1 s after the one before it, or after the first drop. -/
def summaryDue (s : State) (d : DropState) : Bool := d.dropping && decide (max d.lastSummary (8 * d.first) + sec8 ≤ s.press)

/-- SUMMARY_TIMER (R452). -/
def execSummaryTimer (t : Nat) (s : State) : Res := run t s fun s =>
  let s := when (summaryDue s s.log.drops) (writeSummary .diag) s
  when (summaryDue s s.log.traceDrops) (writeSummary .trace) s

/-! ## The drain (R449, R454, R455) -/

/-- Size of the host ring. -/
def hostSize (s : State) : Nat := 2 ^ s.fld Reg.logHostSize 0 4 0

/-- The records that fit, of the first `n` of a list, with the running offset of each end; `wr` and `rd` are running
offsets. A record that would cross the end of the ring stands behind a PAD (R449), and the ring never fills to its last 8
bytes (R455). -/
def drainFit (size rd : Nat) : Nat → Nat → List LogRec → List (LogRec × Nat) × List LogRec
  | _, 0, l => ([], l)
  | _, _ + 1, [] => ([], [])
  | wr, n + 1, r :: l =>
    let len := r.payload.len
    let e := wr + (if size < wr % size + len then size - wr % size else 0) + len
    if e + 8 ≤ rd + size then
      let x := drainFit size rd e n l
      ((r, e) :: x.1, x.2)
    else ([], r :: l)

/-- What the drain writes: a PAD where the ring ends, and the record; PHASE is 1 on every other pass. -/
def drainWrite (size : Nat) : Nat → List (LogRec × Nat) → State → State
  | _, [], s => s
  | wr, (r, e) :: l, s =>
    let start := e - r.payload.len
    let s := if wr < start then s.emit (.hostPad (wr % size) (start - wr)) else s
    drainWrite size e l (s.emit (.hostRecord (start % size) (start / size % 2 == 0) r))

/-- The log vector is raised (R458, Table 24.4). -/
def raiseLog (s : State) : State :=
  (s.modLog fun l => { l with coalCount := 0, coalFirst := none }).msix (s.fld Reg.evtVec 0 15 8)

/-- LOG_HOST_WR advances over records, and the log vector follows R458. -/
def drainAdvance (moved : List (LogRec × Nat)) (rest : List LogRec) (s : State) : State :=
  match moved.getLast? with
  | none => s
  | some (_, e) =>
    let s := s.modLog fun l =>
      { l with ring := rest, host := l.host ++ moved, wr := e, retry := none, coalCount := l.coalCount + moved.length,
               coalFirst := if l.coalFirst.isNone then some s.now else l.coalFirst }
    if s.fld Reg.logCfg 0 11 4 ≤ s.log.coalCount then raiseLog s else s

/-- Write up to `n` records and read the last bytes back: LOG_HOST_WR advances, or HOST_ERR is set and the records are
written again 1 ms later (R455). -/
def drainRun (n : Nat) (readbackOk : Bool) (s : State) : State :=
  let x := drainFit (hostSize s) s.log.rd s.log.wr n s.log.ring
  if x.1.isEmpty then s
  else
    let s := drainWrite (hostSize s) s.log.wr x.1 s
    if readbackOk then drainAdvance x.1 x.2 s
    else (s.setFld Reg.logStatus 0 6 6 1).modLog fun l => { l with retry := some (x.1.length, s.now) }

/-- An outcome written again from its backlog entry: VOID with REISSUE, under a new LSEQ (R454). -/
def reissue (lseq : Nat) (s : State) : State :=
  s.log.backlog.foldl (fun s e => match e.st with
    | .admitted o n =>
      if n = lseq then
        let o := { o with outcome := 9, codes := o.codes ||| 0x200#16 }
        let new := s.log.nextLseq
        (admitRec (itemRec s o false true) s).modLog fun l =>
          { l with backlog := l.backlog.map fun x => if x.ctx == e.ctx && x.seq == e.seq then { x with st := .admitted o new } else x }
      else s
    | _ => s) s

/-- What the loss of a record means for its class (R414, R454). -/
def lostRecord (r : LogRec) (s : State) : State :=
  match r.payload, r.cls with
  | .outcome _, _ => reissue r.lseq s
  | .audit a, _ => s.modMet fun m =>
      { m with loss := true, lossRange := if m.loss then (min m.lossRange.1 (AuditRec.num a), max m.lossRange.2 (AuditRec.num a))
                                         else (AuditRec.num a, AuditRec.num a) }
  | _, .diag => s.count Reg.logDropDiag
  | _, .trace => s.count Reg.logDropTrace
  | _, _ => s

/-- The drain meets an uncorrectable word in the first record of the log ring: LOG_RECORD_LOST takes its place (R454). -/
def loseFirst (s : State) : State :=
  match s.log.ring with
  | [] => s
  | r :: rest =>
    let n := BitVec.ofNat 64 r.lseq
    let x := { mkRec s .alarm Alarm.logRecordLost.code noInst (.args n n 0 0) with lseq := r.lseq }
    lostRecord r (latchAlarm Alarm.logRecordLost.code (s.modLog fun l => { l with ring := x :: rest }))

/-- LOG_DRAIN (R454, R455): `lost` says that the first record holds an uncorrectable word. -/
def execLogDrain (t count : Nat) (readbackOk lost : Bool) (s : State) : Res := ringCmd t s fun s =>
  if s.log.en && s.log.retry.isNone && !s.isDisabled 0x0E 0 then drainRun count readbackOk (when lost loseFirst s) else s

/-- LOG_READBACK_RETRY (R455): the same records, every 1 ms. -/
def execLogReadbackRetry (t : Nat) (readbackOk : Bool) (s : State) : Res := ringCmd t s fun s =>
  match s.log.retry with
  | some (n, at_) => if at_ + ms8 ≤ s.now ∧ s.log.en ∧ !s.isDisabled 0x0E 0 then drainRun n readbackOk s else s
  | none => s

/-- Records that LOG_HOST_RD has not passed go back to the log ring, ahead of those not yet moved (R455). -/
def drainReset (en : Bool) (l : LogState) : LogState :=
  { l with ring := l.host.map (·.1) ++ l.ring, host := [], en := en, retry := none,
           wr := if en then 0 else l.wr, rd := if en then 0 else l.rd }

/-- LOG_CTRL_ENABLE (R455). -/
def execLogCtrlEnable (t : Nat) (s : State) : Res := ringCmd t s fun s => s.modLog (drainReset true)

/-- LOG_CTRL_DISABLE (R455). -/
def execLogCtrlDisable (t : Nat) (s : State) : Res := ringCmd t s fun s => s.modLog (drainReset false)

/-- The running offset that a value of LOG_HOST_RD names: the first one from the old value on. -/
def rdOffset (s : State) (value : Nat) : Nat := s.log.rd + (value + hostSize s - s.log.rd % hostSize s) % hostSize s

/-- Whether a value of LOG_HOST_RD lies beyond LOG_HOST_WR or off a record boundary: a host error to which the spec gives
no effect (chapter 24, R7). -/
def badHostRd (value : Nat) (s : State) : Bool :=
  s.ringsRun && s.log.en &&
    (let r := rdOffset s value
     decide (hostSize s ≤ value ∨ s.log.wr < r) ||
       !(decide (r = s.log.rd) || s.log.host.any fun x => x.2 == r || x.2 - x.1.payload.len == r))

/-- The backlog entries of outcome records that LOG_HOST_RD has passed are released (R453). -/
def releaseEntries (passed : List LogRec) (s : State) : State :=
  s.modLog fun l => { l with backlog := l.backlog.filter fun e => match e.st with
    | .admitted _ n => !(passed.any fun r => r.lseq == n)
    | _ => true }

/-- LOG_HOST_RD (R453, R455): records passed leave the log ring. With EN 0 there is nothing to pass. -/
def execLogHostRd (t value : Nat) (s : State) : Res :=
  runUnless (badHostRd value) "LOG_HOST_RD" t s fun s =>
    if s.ringsRun && s.log.en then
      let r := rdOffset s value
      let passed := (s.log.host.filter fun x => decide (x.2 ≤ r)).map (·.1)
      let s := s.modLog fun l => { l with rd := r, host := l.host.filter fun x => decide (r < x.2) }
      settleAll (backlogEpisode (admitWaiting (releaseEntries passed s)))
    else s

/-- COALESCE_TIMEOUT (R458): COAL_T µs after the first record since the last raise. -/
def execCoalesceTimeout (t : Nat) (s : State) : Res := ringCmd t s fun s =>
  match s.log.coalFirst with
  | some a => if a + s.fld Reg.logCfg 0 21 12 * us8 ≤ s.now ∧ 0 < s.log.coalCount then raiseLog s else s
  | none => s

/-! ## Semaphores (R459) -/

/-- A semaphore after an acquire. -/
def Sem.acquire (m : Sem) (func inst tag : Byte) : Sem :=
  match m.st with
  | .free => { st := .owned, code := 0x00, func := func, inst := inst, tag := tag }
  | .broken => { st := .owned, code := 0x0F, func := func, inst := inst, tag := tag }
  | .owned => m

/-- A semaphore after a release. -/
def Sem.release (m : Sem) (func inst tag : Byte) : Sem :=
  if m.st = .owned ∧ m.func = func ∧ m.inst = inst ∧ m.tag = tag then { m with st := .free } else m

/-- SEM_ACQUIRE (R459). -/
def execSemAcquire (t : Nat) (n : Fin 64) (func inst tag : Byte) (s : State) : Res := ringCmd t s fun s =>
  { s with sems := upd s.sems n fun m => m.acquire func inst tag }

/-- SEM_RELEASE (R459). -/
def execSemRelease (t : Nat) (n : Fin 64) (func inst tag : Byte) (s : State) : Res := ringCmd t s fun s =>
  { s with sems := upd s.sems n fun m => m.release func inst tag }

end Sys2Proof.Machine
end

