-- ==== Sys2Proof/Machine/Inspection.lean ====
section
/-! DEFINITION. Print inspection (chapter 12): footprints and the proof raster, comparison, the counters that find dead
nozzles, item verdicts and the check of sealed fields, and the inspection-supported speed. -/

namespace Sys2Proof.Machine

/-- Replace the inspection block. -/
def State.modIns (s : State) (f : Ins → Ins) : State := { s with ins := f s.ins }

/-! ## Where a line lands (R228, R229) -/

/-- The web position of a line on a plane. -/
def lineY (s : State) (e : EndpointRec) (l : ScanLine) (p : Fin 8) : Int :=
  floorDiv ((s.pac.gears[p]).posThen (l.pos * 65536)) 65536 - e.scanOffset

/-- LP of a bridge. -/
def linePitch (s : State) (e : EndpointRec) : Int := (s.rd Reg.insLpitch e.number).toNat

/-- The buffered courses of a line's footprint on a plane: those whose centre lies within half a line pitch, else the one
that holds the line. -/
def lineCourses (s : State) (e : EndpointRec) (l : ScanLine) (p : Fin 8) : List BufCourse :=
  let y := lineY s e l p
  let lp := linePitch s e
  let mine := s.ins.buf.filter fun b => b.plane == p.val
  match mine.filter fun b => decide (2 * y - lp ≤ b.pos + b.next ∧ b.pos + b.next < 2 * y + lp) with
  | [] => mine.filter fun b => decide (b.pos ≤ y ∧ y < b.next)
  | cs => cs

/-- Whether every course of the footprint on a plane is still held (R230): a full ring has lost what lies below its
oldest course. -/
def lineHeld (s : State) (e : EndpointRec) (l : ScanLine) (p : Fin 8) : Bool :=
  let mine := s.ins.buf.filter fun b => b.plane == p.val
  let size := s.ins.bufSize.getD p 0
  decide (mine.length < size) || match mine.head? with
    | some b => decide (2 * b.pos ≤ 2 * lineY s e l p - linePitch s e)
    | none => false

/-- The wales of a pixel on a plane. -/
def pixelWales (s : State) (e : EndpointRec) (p : Nat) (i : Nat) : List Nat := match s.planeRec p with
  | some pr => (List.range pr.nW).filter fun w => (walePixels s pr w).contains (e.number, (i : Int))
  | none => []

/-- A line is available for a job: complete, its bridge READY, its footprint held on the job's planes. -/
def lineAvailable (s : State) (e : EndpointRec) (pk : Package) (l : ScanLine) : Bool :=
  l.full && l.ready && (jobPlanes pk).all fun p => lineHeld s e l p

/-! ## The proof raster (R232, R233) -/

/-- The level of a course at a wale; a course that was not screened has none. -/
def BufCourse.level (b : BufCourse) (w : Nat) : Nat := ((b.cells[w]?).map (·.level)).getD 0

/-- The volume table that coverage is computed with. -/
def proofVol (s : State) (p : Fin 8) (bits : Nat) : List Nat :=
  let v := [Reg.nzmVol0, Reg.nzmVol1, Reg.nzmVol2, Reg.nzmVol3].flatMap fun r => [s.fld r p 15 0, s.fld r p 31 16]
  if volValid bits v then v else List.range 8

/-- Coverage a_p of a pixel-line (R232); 0 where it has no samples. -/
def coverage (s : State) (e : EndpointRec) (l : ScanLine) (i : Nat) (p : Fin 8) : Nat :=
  match s.planeRec p with
  | none => 0
  | some pr =>
    let vol := proofVol s p pr.bits
    let vmax := vol.getD (2 ^ pr.bits - 1) 0
    let samples := (lineCourses s e l p).flatMap fun b => (pixelWales s e p i).map fun w => vol.getD (b.level w) 0
    let n := samples.length
    if n = 0 ∨ vmax = 0 then 0 else (2 * 255 * samples.sum + n * vmax) / (2 * n * vmax)

/-- A node value of the appearance table. -/
def nodeAt (a : AppearRec) (i0 i1 i2 c : Nat) : Nat := u8 a.nodes (4 * (289 * i0 + 17 * i1 + i2) + c)

/-- Luminance of a colour (R233). -/
def luminance (r g b : Nat) : Nat := (77 * r + 150 * g + 29 * b + 128) / 256

/-- The expected red, green, blue and luminance of a pixel-line (R233). -/
def expected (s : State) (e : EndpointRec) (a : AppearRec) (l : ScanLine) (i : Nat) : List Nat :=
  let t (k : Nat) : Nat := min 255 (((List.finRange 8).map fun (p : Fin 8) =>
    if a.axis.getD p 0xFF = k ∨ a.axis.getD p 0xFF = 3 then coverage s e l i p else 0).sum)
  let t0 := t 0; let t1 := t 1; let t2 := t 2
  let wt (d f : Nat) : Nat := if d = 0 then 16 - f else f
  let colour (c : Nat) : Nat :=
    let sum := ((List.range 2).flatMap fun d0 => (List.range 2).flatMap fun d1 => (List.range 2).map fun d2 =>
      nodeAt a (t0 / 16 + d0) (t1 / 16 + d1) (t2 / 16 + d2) c * wt d0 (t0 % 16) * wt d1 (t1 % 16) * wt d2 (t2 % 16)).sum
    (sum + 2048) / 4096
  let r := colour 0; let g := colour 1; let b := colour 2
  [r, g, b, luminance r g b]

/-- The measured values of a pixel in the same order; a mono pixel has its luminance in every place. -/
def measured (l : ScanLine) (i : Nat) : List Nat := match l.pixels.find? (fun x => x.1 == i) with
  | some (_, r, g, b) => if l.rgb then [r, g, b, luminance r g b] else [r, r, r, r]
  | none => []

/-! ## Comparison (R234) -/

/-- The channel of a plane for a line: on a mono bridge every channel is luminance (R233). -/
def chanOf (a : AppearRec) (l : ScanLine) (p : Nat) : Option Nat :=
  match a.chan.getD p 0xFF with
  | 0xFF => none
  | c => some (if l.rgb then c else 3)

/-- Expected values in the neighbourhood of a pixel-line: the available lines within RY, the pixels within RX. -/
def neighbours (s : State) (e : EndpointRec) (pk : Package) (a : AppearRec) (lines : List ScanLine) (l : ScanLine)
    (i : Nat) : List (List Nat) :=
  let rx := s.fld Reg.insCmp 0 1 0; let ry := s.fld Reg.insCmp 0 5 4
  (lines.filter fun x => decide (x.line ≤ l.line + ry ∧ l.line ≤ x.line + ry) && lineAvailable s e pk x).flatMap fun x =>
    ((List.range (2 * rx + 1)).filterMap fun d => if rx ≤ i + d ∧ i + d - rx < x.width then some (i + d - rx) else none).map
      fun j => expected s e a x j

/-- Deficit and excess of a channel. -/
def differs (s : State) (near : List (List Nat)) (m : List Nat) (c : Nat) : Bool × Bool :=
  let tol := s.fld Reg.insCmp 0 15 8
  let es := near.map fun x => x.getD c 0
  match es.max?, es.min? with
  | some hi, some lo => (decide (hi + tol < m.getD c 0), decide (m.getD c 0 + tol < lo))
  | _, _ => (false, false)

/-! ## From deficit to nozzle (R235 to R239) -/

/-- Counters of a nozzle. -/
def nozCount (s : State) (p h n : Nat) : NozCount :=
  (s.ins.counts.find? fun c => c.plane == p && c.head == h && c.nozzle == n).getD
    { plane := p, head := h, nozzle := n, ink := 0, defs := 0, suspect := false, conf := 0 }

/-- Store a nozzle's counters. -/
def putCount (c : NozCount) (s : State) : State :=
  s.modIns fun x => { x with counts := (x.counts.filter fun y => !(y.plane == c.plane && y.head == c.head && y.nozzle == c.nozzle)) ++ [c] }

/-- The row of a head. -/
def headRow (tb : StructTables) (h : Nat) : Nat := ((tb.heads.find? fun x => x.head == h).map (·.row)).getD 0

/-- A DEAD_SCAN entry is placed, held back while the pending list is full (R163, R237, R239). -/
def placeDead (tb : StructTables) (p : Fin 8) (h n count : Nat) (s : State) : State :=
  let e : MapEntry := { head := h, nozzle := n, code := 1, host := false }
  let s := alarmArgs .insNozzleDead p h n (((entryWale tb h n).getD 0 + count * 2 ^ 32 : Nat)) (s.count Reg.insDead p)
  movePending (s.modIns fun x => { x with held := x.held ++ [e] })

/-- The candidates of a confirmed nozzle: every nozzle of its row at a wale of the pixel. -/
def candidates (tb : StructTables) (p row : Nat) (wales : List Nat) : List (Nat × Nat) :=
  (wales.flatMap fun w => (covering tb p row w).map fun x => (x.1.head, x.2)).eraseDups

/-- INS_AMBIGUOUS at a pixel: CONF of every suspect nozzle there returns to 0 (R237). -/
def ambiguous (p : Fin 8) (pixel : Nat) (here : NozCount → Bool) (s : State) : State :=
  let gen := (s.planes[p]).genNo
  let s := s.modIns fun x => { x with counts := x.counts.map fun c => if here c then { c with conf := 0 } else c }
  if s.ins.ambig.contains (p.val, pixel, gen) then s
  else diag .insAmbiguous p pixel 0 0 ((s.modIns fun x => { x with ambig := x.ambig ++ [(p.val, pixel, gen)] }).count Reg.insAmbig)

/-- A nozzle's evaluation (R236, R237). -/
def evaluate (tb : StructTables) (p : Fin 8) (pixel : Nat) (wales : List Nat) (c : NozCount) (s : State) : State :=
  let bad := decide (s.fld Reg.insCfg 0 23 16 * c.ink ≤ c.defs * 256)
  let c : NozCount := { c with ink := 0, defs := 0, suspect := bad }
  if !bad then putCount { c with conf := 0 } s
  else
    let s := putCount c s
    let here (x : NozCount) : Bool := x.plane == p.val && x.suspect && (entryWale tb x.head x.nozzle).any fun w => wales.contains w
    if (s.ins.counts.any fun x => here x && headRow tb x.head != headRow tb c.head) then ambiguous p pixel here s
    else
      let s := putCount { c with conf := c.conf + 1 } s
      if c.conf + 1 = s.fld Reg.insCfg 0 3 0 ∧ s.xlk.role ≠ .dummy then
        let l := candidates tb p (headRow tb c.head) wales
        (l.filter fun x => codeIn (s.planes[p]).health x.1 x.2 == 0).foldl (fun s x => placeDead tb p x.1 x.2 l.length s) s
      else s

/-- One inked sample of a nozzle is counted (R235). -/
def countInk (tb : StructTables) (p : Fin 8) (pixel : Nat) (wales : List Nat) (deficit : Bool) (n : Nat × Nat) (s : State) : State :=
  let c := nozCount s p n.1 n.2
  let c := { c with ink := c.ink + 1, defs := if deficit then c.defs + 1 else c.defs }
  if s.fld Reg.insCfg 0 15 4 ≤ c.ink then evaluate tb p pixel wales c s else putCount c s

/-- Samples of a plane that count for their nozzles (R235, R238). -/
def inkSamples (s : State) (ctx : Nat) (p : Fin 8) (wales : List Nat) (courses : List BufCourse) : List (Nat × Nat) :=
  wales.flatMap fun w => (courses.filter fun b => b.ctx == ctx && !b.underrun &&
      !(s.ins.cutoff.any fun x => x.1 == p.val && x.2.1 == w && decide (b.gen < x.2.2))).filterMap fun b =>
    (b.cells[w]?).bind fun c => if c.level = 0 ∨ b.missedRows.contains c.row then none
      else c.nozzle.filter fun n => !b.deadNoz.contains n

/-! ## Verdicts (R240, R242) -/

/-- Progress of an item. -/
def verdictAcc (s : State) (ctx seq : Nat) : VerdictAcc :=
  (s.ins.verdicts.find? fun v => v.ctx == ctx && v.seq == seq).getD
    { ctx := ctx, seq := seq, defects := 0, planes := 0, covered := [], sealedSamples := [] }

/-- Store an item's progress. -/
def putAcc (v : VerdictAcc) (s : State) : State :=
  s.modIns fun x => { x with verdicts := (x.verdicts.filter fun y => !(y.ctx == v.ctx && y.seq == v.seq)) ++ [v] }

/-- Samples of a pixel-line on a plane. -/
def samplesOf (s : State) (e : EndpointRec) (l : ScanLine) (ctx i : Nat) (p : Fin 8) : List (Nat × Nat) :=
  (pixelWales s e p i).flatMap fun w => ((lineCourses s e l p).filter fun b => b.ctx == ctx).map fun b => (w, b.course)

/-- Whether a pixel-line belongs to an item: in x within its lane, in y within its rows on the lead plane. -/
def inItem (s : State) (e : EndpointRec) (j : Job) (pk : Package) (it : Item) (l : ScanLine) (i : Nat) : Bool :=
  match pk.lanes.find? (fun x => x.lane == it.lane) with
  | none => false
  | some ln =>
    let p := Fin.ofNat 8 (leadPlane pk)
    let x0 : Int := (i * e.scanPitch : Nat) + (s.rd Reg.insXoff e.number).toInt
    let y := lineY s e l p - (jobCast s j p + (it.rpt * pk.rpt : Nat))
    decide ((ln.origin : Int) ≤ x0 ∧ x0 + e.scanPitch ≤ ln.origin + ln.width ∧ 0 ≤ y ∧ y ≤ pk.height)

/-- The planes of an item whose coverage matters: the lead plane, and those of its sealed fields. -/
def watchedPlanes (pk : Package) (it : Item) : List (Fin 8) :=
  (Fin.ofNat 8 (leadPlane pk) :: (List.finRange 8).filter fun p => !(sealedPlacements pk p it).isEmpty).eraseDups

/-- The sealed fields, on their planes, that hold every sample of a pixel-line there (R242). -/
def sealedHits (s : State) (e : EndpointRec) (ctx : Nat) (pk : Package) (it : Item) (l : ScanLine) (i : Nat) : List Nat :=
  (List.finRange 8).flatMap fun (p : Fin 8) => match s.planeRec p with
    | some pr =>
      let sm := samplesOf s e l ctx i p
      (sealedPlacements pk p it).filterMap fun x =>
        if !sm.isEmpty && (sm.all fun w => (fieldAt pk pr p it x.2.1 x.2.2 w.1 w.2).isSome) then some x.1 else none
    | none => []

/-- A pixel-line is added to an item's progress. -/
def addLine (s : State) (e : EndpointRec) (j : Job) (ctx : Nat) (pk : Package) (l : ScanLine) (i : Nat) (defPlanes : BitVec 8)
    (expLum : Nat) (it : Item) (v : VerdictAcc) : VerdictAcc :=
  let hit := inItem s e j pk it l i && defPlanes != 0
  let cov := (watchedPlanes pk it).flatMap fun (p : Fin 8) => match s.planeRec p with
    | some pr => ((samplesOf s e l ctx i p).filter fun w => itemCovers pk pr it w.1 w.2).map fun w => (p.val, w.1, w.2)
    | none => []
  { v with defects := if hit then v.defects + 1 else v.defects, planes := if hit then v.planes ||| defPlanes else v.planes,
           covered := (v.covered ++ cov).eraseDups,
           sealedSamples := v.sealedSamples ++ (sealedHits s e ctx pk it l i).map fun f => (f, expLum, (measured l i).getD 3 0) }

/-- The physical check of one sealed field (R242): `none` when it passes or there are too few pixel-lines to tell. -/
def sealedFails (s : State) (l : List (Nat × Nat)) : Bool :=
  let n : Int := l.length
  let se : Int := ((l.map (·.1)).sum : Nat); let sm : Int := ((l.map (·.2)).sum : Nat)
  let see : Int := ((l.map fun x => x.1 * x.1).sum : Nat); let smm : Int := ((l.map fun x => x.2 * x.2).sum : Nat)
  let sem : Int := ((l.map fun x => x.1 * x.2).sum : Nat)
  let c := n * sem - se * sm; let ve := n * see - se * se; let vm := n * smm - sm * sm
  let mc : Int := s.fld Reg.insSeal 0 15 8
  if ve = 0 then decide (n * s.fld Reg.insSeal 0 7 0 < (sm - se).natAbs)
  else !(decide (0 < c ∧ mc * mc * ve * vm ≤ c * c * 65536))

/-- Whether every sample of a rectangle of an item on a plane is covered. -/
def allCovered (pr : PlaneRec) (p : Nat) (v : VerdictAcc) (k0 k1 : Nat) (inside : Nat → Nat → Bool) : Bool :=
  (List.range (k1 - k0)).all fun d => (List.range pr.nW).all fun w =>
    !inside w (k0 + d) || v.covered.contains (p, w, k0 + d)

/-- The check of one sealed placement: failed, or unverified. -/
def checkSealed (s : State) (pk : Package) (p : Fin 8) (it : Item) (v : VerdictAcc) (x : Nat × FieldRec × Rendered) : Bool × Bool :=
  match s.planeRec p with
  | none => (false, true)
  | some pr =>
    let l := (v.sealedSamples.filter fun y => y.1 == x.1).map (·.2)
    let whole := allCovered pr p v (firstCourse pk it.rpt) (endCourse pk it.rpt)
      fun w k => (fieldAt pk pr p it x.2.1 x.2.2 w k).isSome
    if l.length < s.fld Reg.insSeal 0 31 16 ∨ !whole then (false, true) else (sealedFails s l, false)

/-- The checks of every sealed placement of an item: planes, failed, unverified. -/
def sealedChecks (s : State) (pk : Package) (it : Item) (v : VerdictAcc) : List (Fin 8 × Bool × Bool) :=
  if it.sealedBind.isNone then []
  else (List.finRange 8).flatMap fun (p : Fin 8) => (sealedPlacements pk p it).map fun x => (p, checkSealed s pk p it v x)

/-- An item takes its verdict (R240 to R242); `late` marks one that its deadline has found without. -/
def judgeItem (ctx : Fin 64) (pk : Package) (late : Bool) (it : Item) (s : State) : State :=
  let v := verdictAcc s ctx it.seq
  let inspect := pk.policy / 2 % 2 == 1
  let lead := leadPlane pk
  let whole := match s.planeRec lead with
    | some pr => allCovered pr lead v (firstCourse pk it.rpt) (endCourse pk it.rpt) fun w k => itemCovers pk pr it w k
    | none => false
  let defect := inspect && decide (s.fld Reg.insItem 0 15 0 ≤ v.defects)
  let checks := sealedChecks s pk it v
  let failed := checks.any fun c => c.2.1
  let unver := (inspect && (!whole || late)) || checks.any fun c => c.2.2
  let up (it : Item) : Item :=
    let it := if defect then { it with codes := it.codes ||| codeBit 5, planes := it.planes ||| v.planes } else it
    let it := checks.foldl (fun it c => if c.2.1 then it.flag 7 (some c.1) else it) it
    let it := if unver then it.flag 8 none else it
    { it with verdict := some (outcomeOf it.codes),
              sealedBind := it.sealedBind.map fun b =>
                { b with mismatch := b.mismatch || failed, unverified := b.unverified || checks.any fun c => c.2.2 } }
  let s := s.modJob ctx fun j => { j with items := j.items.map fun x => if x.seq = it.seq then up x else x }
  let s := s.modIns fun x => { x with verdicts := x.verdicts.filter fun y => !(y.ctx == ctx.val && y.seq == it.seq) }
  when failed (fun s => s.count Reg.insSealFail 0 (checks.filter fun c => c.2.1).length) s

/-- Whether every bridge that is READY has gone past an item. -/
def itemScanned (s : State) (j : Job) (pk : Package) (it : Item) : Bool :=
  let p := Fin.ofNat 8 (leadPlane pk)
  let last : Int := jobCast s j p + (it.rpt * pk.rpt + pk.height : Nat)
  let bs := s.endpoints.filter fun e => e.kind == 2 && epReady s e
  !bs.isEmpty && bs.all fun e => match (s.ins.bridges[Fin.ofNat 16 e.number]).highest with
    | some y => decide (2 * last + linePitch s e ≤ 2 * y)
    | none => false

/-- Items that every bridge has gone past take their verdict. -/
def judgeScanned (ctx : Fin 64) (s : State) : State :=
  match (s.jobs[ctx]).pkg with
  | some pk =>
    let l := (s.jobs[ctx]).items.filter fun it => judged pk it && it.verdict.isNone && it.outcome.isNone &&
      itemScanned s (s.jobs[ctx]) pk it
    if l.isEmpty then s else settleJob ctx (l.foldl (fun s it => judgeItem ctx pk false it s) s)
  | none => s

/-! ## LINE_ANALYSIS -/

/-- The jobs that inspection looks at: those that run, and those that have ended while their print is still scanned. -/
def inspectedJobs (s : State) : List (Fin 64 × Package × AppearRec) :=
  (List.finRange 64).filterMap fun (c : Fin 64) => match (s.jobs[c]).pkg with
    | some pk => pk.appear.bind fun a => if (s.jobs[c]).st.active || (s.jobs[c]).st == .closed then some (c, pk, a) else none
    | none => none

/-- One pixel of a line for one job: nozzle counters, then the items it covers. -/
def analysePixel (tb : StructTables) (e : EndpointRec) (lines : List ScanLine) (l : ScanLine) (job : Fin 64 × Package × AppearRec)
    (s : State) (i : Nat) : State :=
  let (ctx, pk, a) := job
  let near := neighbours s e pk a lines l i
  let m := measured l i
  let diffs := (List.range 4).map (differs s near m)
  let planes := (jobPlanes pk).filterMap fun (p : Fin 8) => (chanOf a l p).map fun c => (p, diffs.getD c (false, false))
  let s := planes.foldl (fun s x =>
    let wales := pixelWales s e x.1 i
    (inkSamples s ctx x.1 wales (lineCourses s e l x.1)).foldl (fun s n => countInk tb x.1 i wales x.2.1 n s) s) s
  let defPlanes := planes.foldl (fun (v : BitVec 8) x => if x.2.1 || x.2.2 then v ||| (1#8 <<< x.1.val) else v) 0
  let lum := (expected s e a l i).getD 3 0
  ((s.jobs[ctx]).items.filter fun it => judged pk it && it.verdict.isNone).foldl (fun s it =>
    putAcc (addLine s e (s.jobs[ctx]) ctx pk l i defPlanes lum it (verdictAcc s ctx it.seq)) s) s

/-- An available line is compared, for every job that inspection looks at. -/
def analyseLine (tb : StructTables) (e : EndpointRec) (lines : List ScanLine) (l : ScanLine) (s : State) : State :=
  (inspectedJobs s).foldl (fun s job =>
    if lineAvailable s e job.2.1 l then (List.range l.width).foldl (analysePixel tb e lines l job) s else s) s

/-- The plane by whose positions a line is put in order: the lead plane of the first job that carries APPEAR (log
entry 51). -/
def linePlane (s : State) : Fin 8 := match inspectedJobs s with
  | j :: _ => Fin.ofNat 8 (leadPlane j.2.1)
  | [] => 0

/-- LINE_ANALYSIS (R229, R234 to R242): the oldest line of a bridge's store; `cycles` is what its analysis took. -/
def execLineAnalysis (t : Nat) (bridge : Fin 16) (cycles : Nat) (s : State) : Res := ringCmd t s fun s =>
  match s.str.tables, s.epRec (48 + bridge), (if s.isDisabled 0x08 0 then [] else (s.ins.bridges[bridge]).store) with
  | some tb, some e, l :: rest =>
    let br := s.ins.bridges[bridge]
    let lines := br.recent ++ l :: rest
    let y := lineY s e l (linePlane s)
    let s := s.modBridge bridge fun b => { b with store := rest, recent := (l :: b.recent).take 8, mono := !l.rgb, active := true }
    let s := s.modIns fun x => { x with cycles := (s.now, cycles) :: x.cycles }
    let lost := !l.full || !l.ready || decide (l.firstAt + s.fld Reg.insCfg 0 31 24 * ms8 < s.now) ||
      br.highest.any fun h => decide (y ≤ h)
    let s := if lost then s.count Reg.insLinesLost
      else (analyseLine tb e lines l s).modBridge bridge fun b => { b with highest := some y }
    (List.finRange 64).foldl (fun s c => judgeScanned c s) s
  | _, _, _ => s

/-- VERDICT_DEADLINE (R241). -/
def execVerdictDeadline (t : Nat) (ctx : Fin 64) (seq : Nat) (s : State) : Res := ringCmd t s fun s =>
  match (s.jobs[ctx]).pkg, (s.jobs[ctx]).items.find? (fun it => it.seq == seq) with
  | some pk, some it =>
    if judged pk it ∧ it.verdict.isNone ∧ it.deadline.any (fun d => decide (d ≤ s.now)) then
      settleJob ctx (judgeItem ctx pk true it (s.count Reg.insUnver))
    else s
  | _, _ => s

/-! ## VINSP_UPDATE (R243) -/

/-- Pixels of the lines that wait for analysis. -/
def waitingPixels (s : State) : Nat := (s.ins.bridges.toList.map fun b => (b.store.map (·.width)).sum).sum

/-- VINSP_UPDATE (R243, R112). -/
def execVinspUpdate (t : Nat) (s : State) : Res := ringCmd t s fun s =>
  let m := masterNow s
  let cycles := keep16 s.now s.ins.cycles
  let pos := keep16 s.now ((s.now, m) :: s.ins.pos)
  let mv := windowMove pos m
  let y := (cycles.map (·.2)).sum
  let active := inspecting s
  let v := windowSpeed active mv s.ins.vinsp (if y = 0 then capSpeed else 900 * s.pwr.kins * mv / y)
  let full := active && decide (Config.lineStore < 2 * waitingPixels s)
  s.modIns fun x => { x with cycles := cycles, pos := pos, backlog := full,
                             vinsp := if full then min v (95 * (webSpeed s).toNat / 100) else v,
                             di := if !active then none else if 1000000 ≤ mv then some (y, mv) else x.di }

end Sys2Proof.Machine
end

