-- ==== Sys2Proof/Machine/Reinit.lean ====
section
/-! DEFINITION. FUNC_REINIT (R62, R63): what it refuses, and what it clears in each function. -/

namespace Sys2Proof.Machine

/-- Instances of each function code of Table 3.9; 0 for a code that is not in it. -/
def reinitCount : Nat → Nat
  | 0x01 | 0x05 | 0x06 | 0x08 | 0x0E | 0x10 => 1
  | 0x02 | 0x0B | 0x0C => 16
  | 0x03 => 5
  | 0x04 | 0x0A => 8
  | 0x07 => 64
  | 0x09 | 0x0D => 32
  | 0x0F => 4
  | _ => 0

/-- The jobs that run. -/
def activeJobs (s : State) : List Job := s.jobs.toList.filter fun j => j.st.active

/-- Planes of the jobs that run, as a mask. -/
def activePlanes (s : State) : Nat := (activeJobs s).foldl (fun m j => m ||| (j.pkg.map (·.planes)).getD 0) 0

/-- Whether a running job carries APPEAR. -/
def activeAppear (s : State) : Bool := (activeJobs s).any fun j => j.pkg.any fun p => p.appear.isSome

/-- Whether a lane serves a running job: its hub has a head on a plane of one, or its bridge scans for one. -/
def laneInUse (s : State) (l : Fin 64) : Bool := match s.laneEp l, s.str.tables with
  | some e, some t =>
    if e.kind = 1 then t.heads.any fun h => h.hub == e.number && (activePlanes s).testBit h.plane else activeAppear s
  | _, _ => false

/-- Whether a job that is ARMED, PRINTING or DRAINING uses a function (R62, R114, R278, R302). -/
def funcInUse (s : State) (code inst : Nat) : Bool :=
  match code with
  | 0x02 =>
    let n := Fin.ofNat 16 inst
    (activePlanes s &&& clusterMask s n) != 0 && !(s.clusters[n]).excl && !(s.pwr.sensors[n]).shut
  | 0x03 => s.anyActive && !s.cod.excl.getLsbD inst
  | 0x04 => (activePlanes s).testBit inst
  | 0x05 | 0x06 => s.anyActive
  | 0x07 => laneInUse s (Fin.ofNat 64 inst)
  | 0x08 => activeAppear s
  | 0x09 => s.anyActive && (srcKind (s.rd Reg.pacSrc) == 3 || s.xlk.role == .lead || s.xlk.role == .dummy)
  | 0x0A => s.anyActive && isWebMaster (s.baRec inst)
  | 0x0B => s.anyActive && srcKind (s.rd Reg.pacSrc) == 2 && srcIndex (s.rd Reg.pacSrc) == inst
  | 0x0C => s.anyActive && srcKind (s.rd Reg.pacSrc) == 1 && srcIndex (s.rd Reg.pacSrc) == inst
  | _ => false

/-- Whether a bank of a cluster, CCn holding banks 4n to 4n+3 (Table 17.1), has failed its march (R330): that keeps the
cluster out until the next warm start. -/
def clusterBankFailed (s : State) (n : Nat) : Bool := [0, 1, 2, 3].any fun k => match s.mem.banks[4 * n + k]? with
  | some b => b.st == .failed
  | none => false

/-- What a function adds to the refusals of R62 (R278, R302, R330). -/
def funcBlocked (s : State) (code inst : Nat) : Bool :=
  match code with
  | 0x02 => clusterBankFailed s inst
  | 0x0A => (s.ba[Fin.ofNat 8 inst]).st != .off
  | 0x0B => (s.stp[Fin.ofNat 16 inst]).en
  | _ => false

/-- Request lines of a port of code 0x0F (Table 18.3). -/
def portLines : Nat → List Nat
  | 0 => [5, 6]
  | 1 => [7, 8]
  | 2 => [1, 2]
  | _ => [3, 4]

/-- DMA channels that serve a port stop with ABORTED (R501). -/
def stopServing (inst : Nat) (s : State) : State :=
  let serves (x : DmaSide) : Bool := x.desc.any fun d => d.space == 3 && (portLines inst).contains d.arg
  (List.finRange 32).foldl (fun s (n : Fin 32) =>
    if serves (s.dma[n]).rd || serves (s.dma[n]).wr then dmaStop n .aborted 0 s else s) s

/-- A running I2C transfer and the FIFOs of a port end (R501). -/
def clearPort (inst : Nat) (s : State) : State :=
  let s := stopServing inst s
  if inst < 2 then
    ({ s with lsi := { s.lsi with i2c := upd s.lsi.i2c (Fin.ofNat 2 inst) fun _ => { busy := false, tx := 0, rx := 0 } } }.wr
      Reg.lsiI2cStatus inst 0)
  else
    ({ s with lsi := { s.lsi with uart := upd s.lsi.uart (Fin.ofNat 2 inst) fun _ => { rx := [], tx := 0 } } }.wr
      Reg.lsiUartStatus (inst - 2) 0)

/-- A pipeline (chapters 07, 08): runway, arrays and error state go, and the generations collapse into the latest. -/
def clearPipeline (p : Fin 8) (s : State) : State :=
  s.modPlane p fun x =>
    { x with runway := [], gens := x.gens.filter fun g => g.number == x.genNo, run := none, skipNext := false, screenCtx := none }

/-- The pacer (R185). -/
def clearPacer (s : State) : State :=
  let m := masterNow s
  s.modPac fun p => { p with est := p.est.restart, handover := none, cand := .reset,
                             gears := p.gears.map fun g => { g.take m (2 ^ 30) with pend := [] } }

/-- The waveform and energy engine (chapter 10). -/
def clearWaves (s : State) : State :=
  let s := s.modWav fun w =>
    { w with wgs := (w.wgs.map fun g => (g.1, { g.2 with started := false })), energy := [], pos := [],
             acPower := (w.acPower.map fun a => (a.1, a.2.1, false)),
             supPower := (w.supPower.map fun a => (a.1, a.2.1, false)) }
  (hubEps s).foldl (fun s h =>
    if s.dummy || decide ((s.mlk.lanes[h.lane0]).st.rank < 3) then s
    else (hubTables s h.number).foldl (fun s t => pushRel h.lane0 (waveFrame s t) s) s) s

/-- Inspection (chapter 12): lines in flight are lost and counted. -/
def clearInspection (s : State) : State :=
  let lost := (s.ins.bridges.toList.map fun b => b.store.length + (if b.gathering.isSome then 1 else 0)).sum
  let bridges := s.ins.bridges.map fun b => { b with store := [], recent := [], gathering := none }
  { s.count Reg.insLinesLost 0 lost with ins := { s.ins with counts := [], ambig := [], bridges := bridges } }

/-- A brushless axis (R278): fault, observer, integrator and channel filters. -/
def clearBa (n : Fin 8) (s : State) : State :=
  let s := s.modBa n fun x =>
    { x with fault := 0, act := .none, psiA := 0, psiB := 0, angles := [], integ := 0, observerSpeed := false }
  match s.baRec n with
  | some a => { s with sd := Vector.ofFn fun k => if k.val = a.sdA ∨ k.val = a.sdB then Sd.reset else s.sd[k] }
  | none => s

/-- The root port (chapter 17): a JOB_LOAD that reads the job store ends ABORTED, and every attached index is attached
again. -/
def clearRootPort (s : State) : State :=
  let s := (List.finRange 64).foldl (fun s (c : Fin 64) => if (s.jobs[c]).nvmeWait.isSome then endLoad c .aborted s else s) s
  { s with mem := { s.mem with js := s.mem.js.map fun x => { x with ioErr := false } }, pci := { s.pci with rpUp := true } }

/-- What FUNC_REINIT clears in a function. -/
def clearFunc (code inst : Nat) (s : State) : State :=
  match code with
  | 0x01 => s.modStr fun x => { x with load := none, err := ⟨0, 0, 0⟩ }
  | 0x02 => (dropSlice (Fin.ofNat 16 inst) s).modCluster (Fin.ofNat 16 inst) fun c => { c with excl := false }
  | 0x03 => s.modCod fun c => { c with excl := c.excl &&& ~~~(1#5 <<< inst) }
  | 0x04 => clearPipeline (Fin.ofNat 8 inst) s
  | 0x05 => clearPacer s
  | 0x06 => clearWaves s
  | 0x07 => laneDown (Fin.ofNat 64 inst) s
  | 0x08 => clearInspection s
  | 0x09 => portDown (Fin.ofNat 32 inst) s
  | 0x0A => clearBa (Fin.ofNat 8 inst) s
  | 0x0B => s.modStp (Fin.ofNat 16 inst) fun x => { x with fault := 0, plan := none, reqs := [], gear := none, gearPend := [] }
  | 0x0C => (s.modEnc (Fin.ofNat 16 inst) fun e => { e with accA := e.a, accB := e.b, rejects := [] }).wr Reg.encRej inst 0
  | 0x0D =>
    let n : Fin 32 := Fin.ofNat 32 inst
    let s := if (s.dma[n]).live then dmaStopped n (dmaStop n .aborted 0 s) else s
    s.modDma n fun c => { c with st := .idle }
  | 0x0E => s.modLog fun l => { l with retry := none, coalFirst := if 0 < l.coalCount then some s.now else none }
  | 0x0F => clearPort inst s
  | 0x10 => clearRootPort s
  | _ => s

/-- A function that has not restarted stays disabled (R62): an engine or a cluster excluded, the root port down. -/
def disableFunc (code inst : Nat) (s : State) : State :=
  let s := s.modDev fun d => { d with disabled := (code, inst) :: d.disabled }
  match code with
  | 0x02 => s.modCluster (Fin.ofNat 16 inst) fun c => { c with excl := true }
  | 0x03 => s.modCod fun c => { c with excl := c.excl ||| (1#5 <<< inst) }
  | 0x10 => { s with pci := { s.pci with rpUp := false } }
  | _ => s

/-- Refusals of FUNC_REINIT (R62). -/
def reinitConds (s : State) (code inst : Nat) : List (Bool × Status) :=
  [(code == 0x11, .sealed), (decide (reinitCount code ≤ inst), .range),
   ((!s.dev.hold && funcInUse s code inst) || funcBlocked s code inst, .badState)]

/-- FUNC_REINIT (R62); `restarted` says whether the function came back within 50 ms. -/
def execFuncReinit (t func inst : Nat) (restarted : Bool) (s : State) : Res := ringCmd t s fun s =>
  admitCmd .supervisor (reinitConds s func inst) (fun s =>
    let s := clearFunc func inst (breakSemsOf func inst s)
    if restarted then
      complete .supervisor .ok 0 (s.modDev fun d => { d with disabled := d.disabled.filter (· != (func, inst)) })
    else complete .supervisor .timeout 0 (disableFunc func inst s)) s

end Sys2Proof.Machine
end

