-- ==== Sys2Proof/Machine/HostLink.lean ====
section
/-! DEFINITION. Pins, clocks, the host link and the low-speed interfaces (chapters 26 to 28). -/

namespace Sys2Proof.Machine

/-! ## GPIO (R473 to R476) -/

/-- Whether a value of a register word lies in the ranges of its fields (R462). -/
def RegSpec.inRange (r : RegSpec) (v : Word) : Bool :=
  r.ranges.all fun x => match x with
    | (hi, lo, isSigned, least, most) =>
      let n : Int := if isSigned then signed (hi - lo + 1) (bitsOf v hi lo) else (bitsOf v hi lo : Nat)
      decide (least ≤ n ∧ n ≤ most)

/-- The function of a GPIO (Table 26.4). -/
def pinFunc (s : State) (m : Nat) : Nat := s.fld Reg.pioFunc m 7 0

/-- Whether a function is the enable output of an axis that has EN 1. -/
def enPinBusy (s : State) (f : Nat) : Bool :=
  if 0x10 ≤ f ∧ f < 0x18 then (s.ba[Fin.ofNat 8 (f - 0x10)]).en
  else if 0x18 ≤ f ∧ f < 0x28 then (s.stp[Fin.ofNat 16 (f - 0x18)]).en
  else false

/-- Refusals of a write to PIO_FUNC_m (R473, R474). -/
def pinConds (s : State) (m : Nat) (value : Word) : List (Bool × Status) :=
  let f := bitsOf value 7 0
  let taken := decide (1 < f) && (List.range 64).any fun k => k != m && pinFunc s k == f
  [(!s.modeIn [.standby, .service, .print], .badMode),
   (enPinBusy s (pinFunc s m) || enPinBusy s f, .badState),
   (!Reg.pioFunc.inRange value || pinFuncReserved f || taken || (s.str.tables.any fun t => pinAxisMissing t f), .range)]

/-- PIO_FUNC_WRITE (R474, R476): the pin switches, and the edge detector starts from the level it finds. -/
def execPioFuncWrite (t : Nat) (m : Fin 64) (value : Word) (s : State) : Res := ringCmd t s fun s =>
  refuseOr (pinConds s m value) Reg.pioErr 0 (0x100 + 4 * m) (fun s =>
    (s.wr Reg.pioFunc m (value &&& Reg.pioFunc.rw)).modLsi fun l =>
      { l with gpio := upd l.gpio m fun g => { g with parked := false, prev := none } }) s

/-- Whether EDGE selects a change to a level: 1 rising, 2 falling, 3 both. -/
def edgeSelected (sel : Nat) (high : Bool) : Bool := sel == 3 || (sel == 1 && high) || (sel == 2 && !high)

/-- GPIO_INPUT_EDGE (R476, Table 26.8): an edge of a GPIO_IN pin that is not parked latches in PIO_EDGE. -/
def execGpioInputEdge (t : Nat) (m : Fin 64) (high : Bool) (s : State) : Res := ringCmd t s fun s =>
  let g := s.lsi.gpio[m]
  let was := g.prev.getD g.level
  let s := s.modLsi fun l => { l with gpio := upd l.gpio m fun g => { g with level := high, prev := if g.parked then none else some high } }
  if !g.parked && was != high && pinFunc s m == 0 && edgeSelected (s.fld Reg.pioFunc m 13 12) high then
    s.setFld Reg.pioEdge (m / 32) (m % 32) (m % 32) 1
  else s

/-- Whether an alarm latch bit is set: EVT_STATUS.ALARM_ANY. -/
def alarmAny (s : State) : Bool := (List.range 8).any fun n => s.rd Reg.evtAlarmLatch n != 0

/-- The value of an output function before INVERT (Table 26.4); none for an input, and for the functions whose waveform is
not a level that the state holds (GOV_PWM, DMA_DONE). -/
def pinValue (s : State) (m : Nat) : Option Bool :=
  let f := pinFunc s m
  match f with
  | 0x01 => some (s.fld Reg.pioOut (m / 32) (m % 32) (m % 32) == 1)
  | 0x03 => some (s.xlk.role == .lead || s.xlk.role == .soloLead)
  | 0x08 => some s.dev.hold
  | 0x09 => some (s.dev.mode == .print)
  | 0x0A => some (alarmAny s)
  | _ =>
    if 0x10 ≤ f ∧ f < 0x18 then some ((s.ba[Fin.ofNat 8 (f - 0x10)]).st != .off)
    else if 0x18 ≤ f ∧ f < 0x28 then some (s.stp[Fin.ofNat 16 (f - 0x18)]).power
    else none

/-- What a GPIO drives: nothing while it is parked or an input, and nothing for a high of an open drain. -/
def pinDrive (s : State) (m : Fin 64) : Option Bool :=
  if (s.lsi.gpio[m]).parked then none
  else match pinValue s m with
    | some v =>
      let v := v != (s.fld Reg.pioFunc m 10 10 == 1)
      if v && s.fld Reg.pioFunc m 11 11 == 1 then none else some v
    | none => none

/-! ## Reference clocks (R486) -/

/-- QREF_LOSS (R486): every lane of the quad goes to DOWN, a fabric lane with its port. -/
def execQrefLoss (t : Nat) (quad : Fin 16) (s : State) : Res := run t s fun s =>
  let s := (s.setFld Reg.clkLoss 0 (16 + quad) (16 + quad) 1).modLsi fun l => { l with qref := l.qref &&& ~~~(1#16 <<< quad.val) }
  if s.ringsRun then
    (List.range 4).foldl (fun s k =>
      let l := Fin.ofNat 64 (4 * quad.val + k)
      match lanePort s l with
      | some n => if (s.xlk.ports[n]).st ≠ .down then portDown n s else s
      | none => if (s.laneEp l).isSome ∧ (s.mlk.lanes[l]).st ≠ .down then laneDown l s else s) s
  else s

/-- QREF_RESTORED (R486): the clock has been present for 1 ms, and the lanes may train. -/
def execQrefRestored (t : Nat) (quad : Fin 16) (s : State) : Res := run t s fun s =>
  s.modLsi fun l => { l with qref := l.qref ||| (1#16 <<< quad.val) }

/-! ## The endpoint (R493 to R495) -/

/-- A ring is left with ENABLE 0; a command in flight will complete without its completion being written. -/
def muteRing (id : RingId) (s : State) : State :=
  let r := s.ring id
  s.setRing id { r with enable := false, stopping := false, stalled := none, mute := r.running.isSome }

/-- What an endpoint reset does (R460, R495). The MSI-X table returns to its reset values with configuration space. -/
def endpointReset (bit : Nat) (s : State) : State :=
  let s := closeSession (s.setFld Reg.pciResets 0 bit bit 1)
  let s := s.modSec fun x => { x with timed := x.timed.map fun y => (match y.1 with
    | .phase1 _ => Timed.phase1 false
    | z => z, y.2) }
  let s := (List.finRange 64).foldl (fun s (n : Fin 64) => muteRing (.job n) s) (muteRing .admission (muteRing .supervisor s))
  let s := breakAllSems ((s.modLog (drainReset false)))
  let s := { s with dma := Vector.replicate 32 Dma.reset, pci := { s.pci with msixPend := 0 },
                    regs := s.regs.filter fun r => !([Reg.msixAddrLo, Reg.msixAddrHi, Reg.msixData, Reg.msixCtl].any fun x => x.holds r.1) }
  holdCause 6 s

/-- FLR (R495). -/
def execFlr (t : Nat) (s : State) : Res := run t s (endpointReset 2)

/-- PERST_N_ASSERT (R495, Table 28.5): while RST_N is high it resets the endpoint alone, and its link is down; in RECOVERY
the download stops. -/
def execPerstNAssert (t : Nat) (s : State) : Res := run t s fun s =>
  let s := s.modLsi fun l => { l with perstN := false }
  let s := { s with pci := { s.pci with linkUp := false, speed := 0, width := 0 } }
  if !s.dev.rstN then s
  else if s.dev.mode = .recovery then
    (endpointReset 1 s).modFw fun u => { u with recBusy := false, recCode := Status.aborted.code }
  else endpointReset 1 s

/-- PERST_N_RELEASE (R495): the link trains again. -/
def execPerstNRelease (t speed width : Nat) (s : State) : Res := run t s fun s =>
  let s := s.modLsi fun l => { l with perstN := true }
  if s.dev.rstN then { s with pci := { s.pci with linkUp := speed != 0, speed := speed, width := width } } else s

/-- ENDPOINT_LINK_DOWN (Table 28.7). -/
def execEndpointLinkDown (t : Nat) (s : State) : Res := run t s fun s =>
  { s.setFld Reg.pciResets 0 0 0 1 with pci := { s.pci with linkUp := false, speed := 0, width := 0 } }

/-- A ring's PCIe error (R71, R494): a descriptor read that failed, or a completion that could not be written, whose command
may have run. -/
def ringTimeout (id : RingId) (onFetch : Bool) (s : State) : State :=
  if onFetch then (if (s.ring id).enable then ringError id 1 s else s)
  else ringError id 2 (s.setRing id { s.ring id with running := none, stalled := none })

/-- PCIE_COMPLETION_TIMEOUT (R494): it ends as R71 sets out for a ring, R349 for a DMA channel and R455 for the drain. On
which list a descriptor read of a channel failed is open (log entry 1). -/
def execPcieCompletionTimeout (t : Nat) (requester : Sum RingId (Sum (Fin 32) Unit)) (onFetch : Bool) (s : State) : Res :=
  ringCmd t s fun s => match requester with
    | .inl id => ringTimeout id onFetch s
    | .inr (.inl n) =>
      let d := s.draw
      if onFetch then dmaStop n .timeout (d.1 % 2) d.2 else dmaStop n .timeout 1 s
    | .inr (.inr _) =>
      if s.log.en then
        (if s.log.retry.isSome then s.setFld Reg.logStatus 0 6 6 1 else drainRun s.log.ring.length false s)
      else s

/-! ## The root port (R496) -/

/-- ROOT_PORT_LINK_LOSS (R336, R496): every attached index has IO_ERR, and reads in flight end as for a media error. -/
def execRootPortLinkLoss (t : Nat) (s : State) : Res := run t s fun s =>
  let s := { s with pci := { s.pci with rpUp := false, rpSpeed := 0, rpWidth := 0 } }
  let s := s.modMem fun m => { m with js := m.js.map fun x => if x.attached then { x with ioErr := true } else x }
  (List.finRange 64).foldl (fun s (c : Fin 64) => endLoad c .integrity s) s

/-- ROOT_PORT_LINK_UP (R334, R496): up to 8 controllers are found. -/
def execRootPortLinkUp (t speed width controllers : Nat) (s : State) : Res := run t s fun s =>
  if s.ringsRun && !s.isDisabled 0x10 0 then
    { s with pci := { s.pci with rpUp := true, rpSpeed := speed, rpWidth := width, rpCtrls := min 8 controllers } }
  else s

/-! ## I2C and UART (R500, R501) -/

/-- Replace an I2C port. -/
def modI2c (p : Fin 2) (f : I2c → I2c) (s : State) : State := s.modLsi fun l => { l with i2c := upd l.i2c p f }

/-- Refusals of a start of an I2C transfer: a port that FUNC_REINIT left disabled, a transfer that runs, lengths. -/
def i2cConds (s : State) (p : Fin 2) (value : Word) : List (Bool × Status) :=
  [(s.isDisabled 0x0F p, .badState), ((s.lsi.i2c[p]).busy, .busy),
   (decide (64 < bitsOf value 15 8 ∨ 64 < bitsOf value 7 0), .range)]

/-- I2C_GO (R500, Table 28.5): WLEN bytes come from the transmit FIFO. A controller that is off starts nothing. -/
def execI2cGo (t : Nat) (port : Fin 2) (value : Word) (s : State) : Res := ringCmd t s fun s =>
  refuseOr (i2cConds s port value) Reg.lsiErr 0 (0x004 + 0x10 * port) (fun s =>
    let s := s.wr Reg.lsiI2cCmd port (value &&& Reg.lsiI2cCmd.rw)
    if s.fld Reg.lsiI2cCfg port 31 31 = 1 then
      (modI2c port (fun x => { x with busy := true, tx := x.tx - bitsOf value 15 8 }) s).emit
        (.i2c port (bitsOf value 22 16) (bitsOf value 15 8) (bitsOf value 7 0))
    else s) s

/-- I2C_TRANSFER_DONE (R500): a NACK or a lost arbitration sets its bit; bytes read are in the receive FIFO. -/
def execI2cTransferDone (t : Nat) (port : Fin 2) (nack arbLost : Bool) (received : Nat) (s : State) : Res := ringCmd t s fun s =>
  if (s.lsi.i2c[port]).busy then
    let s := modI2c port (fun x => { x with busy := false, rx := min 64 (x.rx + received) }) s
    let s := when nack (fun s => s.setFld Reg.lsiI2cStatus port 3 3 1) s
    when arbLost (fun s => s.setFld Reg.lsiI2cStatus port 2 2 1) s
  else s

/-- I2C_SCL_TIMEOUT (R500). -/
def execI2cSclTimeout (t : Nat) (port : Fin 2) (s : State) : Res := ringCmd t s fun s =>
  if (s.lsi.i2c[port]).busy then (modI2c port (fun x => { x with busy := false }) s).setFld Reg.lsiI2cStatus port 1 1 1 else s

/-- What a character finds: 29 PARITY_ERR, 30 FRAMING, 31 OVERRUN with 256 characters waiting, or room. -/
def uartFault (s : State) (p : Fin 2) (stopOk parityOk : Bool) : Option Nat :=
  if !stopOk then some 30
  else if s.fld Reg.lsiUartCfg p 25 24 ≠ 0 ∧ !parityOk then some 29
  else if 256 ≤ (s.lsi.uart[p]).rx.length then some 31
  else none

/-- UART_RECEIVE (R501, Table 28.9): in RECOVERY the boot ROM owns UART0. -/
def execUartReceive (t : Nat) (port : Fin 2) (ch : Byte) (stopOk parityOk : Bool) (s : State) : Res := ringCmd t s fun s =>
  if s.fld Reg.lsiUartCfg port 31 31 = 0 ∨ s.isDisabled 0x0F (port + 2) then s
  else match uartFault s port stopOk parityOk with
    | some b => s.setFld Reg.lsiUartStatus port b b 1
    | none => s.modLsi fun l => { l with uart := upd l.uart port fun u => { u with rx := u.rx ++ [ch] } }

/-! ## JTAG (R502, R503) -/

/-- LSI_JTAG.LEVEL (Table 28.3): 0 none, 1 boundary scan, 2 full. -/
def jtagLevel (s : State) : Nat :=
  let off := s.sec.policy.getLsbD 0
  match lifeCycle s with
  | 0 | 1 => 2
  | 3 => if off then 0 else if s.sec.session.isSome && !s.sec.policy.getLsbD 2 then 2 else 1
  | _ => if off then 0 else 1

/-- The instruction in force: one that is not allowed acts as BYPASS, EXTEST and CLAMP only while RST_N is low. -/
def tapMode (s : State) : TapInstr → TapMode
  | .idcode => .idcode
  | .bypass => .bypass
  | .samplePreload => .samplePreload
  | .extest => if s.dev.rstN then .bypass else .extest
  | .clamp => if s.dev.rstN then .bypass else .clamp
  | .debug => if jtagLevel s = 2 then .debug else .bypass

/-- TAP_INSTRUCTION (R503): with no access the port is held in reset. -/
def execTapInstruction (t : Nat) (instr : TapInstr) (s : State) : Res := run t s fun s =>
  if jtagLevel s = 0 then s else s.modLsi fun l => { l with tap := tapMode s instr }

end Sys2Proof.Machine
end

