-- ==== Sys2Proof/Machine/Pairs.lean ====
section
/-! DEFINITION. Redundant pairs (chapter 19): forming, comparison, mirroring, role changes and failover. -/

namespace Sys2Proof.Machine

/-! ## The comparison set (Table 19.5) -/

/-- Bytes of a list of register words. -/
def wordBytes (l : List Word) : Bytes := l.flatMap fun w => bytesLe 4 w.toNat

/-- Bytes of a signed number. -/
def intBytes (v : Int) : Bytes := bytesLe 8 (unsigned 64 v)

/-- Every register of an array. -/
def regAll (s : State) (r : RegSpec) : List Word := (List.range r.count).map fun i => s.rd r i

/-- The bytes that a word of Table 19.5 covers, in the order in which the table names them. -/
def compareBytes (s : State) : Nat → Bytes
  | 0 => (s.str.active.map fun i => Config.sha384 i.body).getD []
  | 1 => s.cod.slots.toList.flatMap fun k =>
      [if k.valid then 1#8 else 0#8] ++ bytesLe 1 k.kind ++ k.label ++ bytesLe 8 k.context ++ bytesLe 4 k.check
  | 2 => (sortBy (fun a b => decide (a.kind < b.kind ∨ (a.kind = b.kind ∧ a.index ≤ b.index))) s.calStore).flatMap fun r =>
      bytesLe 1 r.kind ++ bytesLe 2 r.index ++ r.data.flatMap intBytes
  | 3 => ((sortBy (fun a b => decide (a.1 ≤ b.1)) s.wav.pool).flatMap fun t => bytesLe 2 t.1 ++ wordBytes t.2) ++
      ((sortBy (fun a b => decide (a.1 ≤ b.1)) s.wav.wgs).flatMap fun w =>
        bytesLe 2 w.1 ++ wordBytes w.2.slots ++ bytesLe 1 w.2.active) ++
      wordBytes (regAll s Reg.wavRank ++ [s.rd Reg.wavCfg])
  | 4 => wordBytes ([Reg.pacSrc, Reg.pacScaleLo, Reg.pacScaleHi, Reg.pacGain, Reg.pacLockCfg, Reg.pacLead, Reg.pacCfg].map
        fun r => s.rd r) ++
      (s.pac.gears.toList.flatMap fun g => g.pend.flatMap fun e => intBytes e.1 ++ bytesLe 4 e.2) ++
      wordBytes (regAll s Reg.pacHphase)
  | 5 => (s.planes.toList.flatMap fun p => p.health.flatMap fun h => bytesLe 2 h.1 ++ bytesLe 2 h.2.1 ++ bytesLe 1 h.2.2) ++
      wordBytes (regAll s Reg.nzmMinRate ++ regAll s Reg.nzmTakeover ++ regAll s Reg.nzmVol0 ++ regAll s Reg.nzmVol1 ++
        regAll s Reg.nzmVol2 ++ regAll s Reg.nzmVol3)
  | _ => wordBytes ([Reg.insCfg, Reg.insCmp, Reg.insItem, Reg.insSeal].map (fun r => s.rd r) ++ regAll s Reg.insXoff ++
      regAll s Reg.insLpitch)

/-- The seven digests of Table 19.5. -/
def ownDigests (s : State) : List Nat := (List.range 7).map fun w => Config.crc32c (compareBytes s w)

/-- DIGEST of HEARTBEAT: the CRC-32C of those seven words (R368). -/
def ownDigest (s : State) : Nat := Config.crc32c ((ownDigests s).flatMap fun d => bytesLe 4 d)

/-- Send COMPARE to the other member. -/
def sendCompare (s : State) : State := sendXlk s.peerAddr (.compare (ownDigests s)) s

/-! ## Fitness (R369) -/

/-- Whether a context is held in LOADED or beyond. -/
def loadedCtx (j : Job) : Bool := j.st != .free && j.st != .opened

/-- Whether the dummy is fit for a context that it holds. -/
def fitFor (s : State) (ctx : Fin 64) : Bool :=
  loadedCtx (s.jobs[ctx]) && s.xlk.checked.getLsbD ctx && !(unfitMask s).getLsbD ctx

/-- Whether the dummy is fit for every context that it holds: FIT. -/
def fitAll (s : State) : Bool :=
  s.xlk.diff == 0 && (List.finRange 64).all fun c => !loadedCtx (s.jobs[c]) || fitFor s c

/-! ## Roles -/

/-- Pair membership is enabled, and both members are addressed. -/
def paired (s : State) : Bool :=
  s.fld Reg.xlkPairCfg 0 0 0 == 1 && s.xlk.addr.isSome && s.peerAddr != 0xFFFE

/-- Whether every READY hub is fenced to this device's epoch. -/
def fencedAll (s : State) : Bool :=
  (hubEps s).all fun h => !epReady s h || epFenced s (Fin.ofNat 64 h.number)

/-- The epoch that a lead without one claims (R367): next(e) of the highest accepted by a READY hub that is fenced, or 0. -/
def formingEpoch (s : State) : Nat :=
  match (((hubEps s).filter fun h => epReady s h).map fun h => (s.mlk.eps[Fin.ofNat 64 h.number]).accEpoch).filter
      (· != 0xFFFF) |>.max? with
  | some e => nextEpoch e
  | none => 0

/-- The members compare as the pair forms (R368). -/
def formAs (r : Role) (s : State) : State := sendCompare (s.modXlk fun x => { x with role := r })

/-- This member is lead; it claims an epoch when it holds none (R367). -/
def formLead (s : State) : State :=
  let s := formAs .lead s
  if s.mlk.holds then s else claimEpoch (formingEpoch s) s

/-- This member is dummy; its outputs are parked (R372). -/
def formDummy (s : State) : State := (formAs .dummy (parkAxes s)).modMlk fun m => { m with holds := false }

/-- PAIR_CONFLICT (R373). -/
def pairConflict (s : State) : State := holdCause 4 (s.modXlk fun x => { x with role := .conflict })

/-- The roles of R367. -/
def formPair (peerLead : Bool) (s : State) : State :=
  let mine := s.mlk.holds && fencedAll s
  if mine && peerLead then pairConflict s
  else if mine then formLead s
  else if peerLead then formDummy s
  else if s.xlk.reqLocal && !s.xlk.reqPeer then formLead s
  else if !s.xlk.reqLocal && s.xlk.reqPeer then formDummy s
  else s.modXlk fun x => { x with role := .forming }

/-- Whether the other member's HEARTBEAT is arriving. -/
def peerAlive (s : State) : Bool := s.xlk.lastHb.any fun l => decide (s.now < l + s.fld Reg.xlkPairCfg 0 15 8 * us8)

/-- Note since when the LEAD_REQ levels have been equal, while both members send HEARTBEAT (R373). -/
def noteLevels (s : State) : State :=
  s.modXlk fun x => { x with equalSince :=
    if x.reqLocal = x.reqPeer ∧ x.lastHb.isSome then some (x.equalSince.getD s.now) else none }

/-! ## Mirroring (R371) -/

/-- The axes as an AXES frame names them. -/
def axesNow (s : State) : List AxisMirror :=
  ((List.finRange 8).filter fun (n : Fin 8) => (s.baRec n).isSome).map (fun (n : Fin 8) =>
    { kind := 1, index := n, en := (s.ba[n]).en, setpoint := signed 32 (s.rd Reg.baSetpointR n).toNat }) ++
  ((List.finRange 16).filter fun (n : Fin 16) => (s.stpRec n).isSome).map (fun (n : Fin 16) =>
    { kind := 2, index := n, en := (s.stp[n]).en, setpoint := signed 32 (s.rd Reg.stpVset n).toNat })

/-- AXES after any change of an enable or a setpoint. -/
def mirrorAxes (s : State) : State :=
  let news := (axesNow s).filter fun a => !s.xlk.axesSent.contains a
  if news.isEmpty then s else (mirror (.axes news) s).modXlk fun x => { x with axesSent := axesNow s }

/-- The sequence number up to which a context's outcome records are in the log ring. -/
def finalNow (s : State) (ctx : Fin 64) : Option Nat :=
  let wait := (s.log.backlog.filterMap fun e => match e.st with
    | .final .. => if e.ctx = ctx.val then some e.seq else none
    | _ => none).min?
  match (s.jobs[ctx]).finalSeq, wait with
  | some f, none => some f
  | some f, some w => if w = 0 then none else some (min f (w - 1))
  | none, _ => none

/-- FINAL after any change. -/
def mirrorFinals (s : State) : State :=
  (List.finRange 64).foldl (fun s (c : Fin 64) => match finalNow s c with
    | some a =>
      if s.xlk.finalSent.contains (c.val, a) then s
      else (mirror (.final c a) s).modXlk fun x => { x with finalSent := (x.finalSent.filter fun f => f.1 != c.val) ++ [(c.val, a)] }
    | none => s) s

/-- HEARTBEAT_SEND (R367): every 8 µs; the lead's FINAL and AXES frames go out with it (R371). -/
def execHeartbeatSend (t : Nat) (s : State) : Res := ringCmd t s fun s =>
  if !paired s then s
  else
    let hb : Heartbeat :=
      { unitId := unitId s,
        role := match s.xlk.role with
          | .lead | .soloLead => 2
          | .dummy => 3
          | .conflict => if s.mlk.holds then 2 else 3
          | _ => 1,
        leadReq := s.xlk.reqLocal, fit := s.dummy && fitAll s, hold := s.dev.hold,
        epoch := s.mlk.epoch, digest := ownDigest s, unfit := (unfitMask s).toNat }
    let s := sendXlk s.peerAddr (.heartbeat hb) s
    if s.xlk.role = .lead then mirrorAxes (mirrorFinals s) else s

/-! ## Planned swaps (R374) -/

/-- Refusals of a planned swap (R374, R379): not the lead of a formed pair, another swap, or a dummy unfit for a running
context. -/
def swapRefused (s : State) : Bool :=
  s.xlk.role != .lead || s.xlk.swap.isSome ||
    (List.finRange 64).any fun c => (s.jobs[c]).st.active && s.xlk.peerUnfit.testBit c

/-- LAST_SLOT of a hub: the last slot whose instant falls before X, or the last number given out. -/
def lastSlotBefore (s : State) (tb : StructTables) (x : Int) (hub : Nat) : Nat :=
  let l := s.pac.slots.filterMap fun f =>
    if ((slotDue s tb f).any fun m => decide (m < x * 65536)) then (f.num.find? fun n => n.1 == hub).map (·.2) else none
  (l.getLast?).getD (((s.mlk.eps[Fin.ofNat 64 hub]).nextSlot + 2 ^ 32 - 1) % 2 ^ 32)

/-- The lead starts a planned swap: X, the offer, and RELINQUISH to every hub. -/
def startSwap (byCommand : Bool) (s : State) : State :=
  let x := floorDiv (predictAt s (s.press + 8 * s.fld Reg.pacLead 0 15 0 + 20 * us8)) 65536 + 1
  let e := nextEpoch s.mlk.epoch
  let s := sendXlk s.peerAddr (.swap x e .offer) (s.modXlk fun y =>
    { y with swap := some { x := x, mine := true, accepted := false, byCommand := byCommand, epoch := e } })
  match s.str.tables with
  | some tb => (hubEps s).foldl (fun s h => s.emit (.hub h.number (.relinquish (lastSlotBefore s tb x h.number)))) s
  | none => s

/-- Enable one axis as the lead last mirrored it (R270, R375). -/
def enableMirrored (a : AxisMirror) (s : State) : State :=
  if !a.en then s
  else if a.kind = 1 then
    let n : Fin 8 := Fin.ofNat 8 a.index
    let s := s.wr Reg.baSetpointR n (BitVec.ofInt 32 a.setpoint)
    refuseOr (baEnableConds s n) Reg.baErr n (baOffset n 0) (fun s => s.modBa n fun x => x.enable s.now) s
  else
    let n : Fin 16 := Fin.ofNat 16 a.index
    let s := s.wr Reg.stpVset n (BitVec.ofInt 32 a.setpoint)
    refuseOr (stpEnableConds s n) Reg.stpErr n (stpOffset n 0) (fun s =>
      let s := stpEnableAct n s
      if stpMode s n = 1 then commit n .vset s else s) s

/-- A dummy becomes lead: it claims an epoch, fences the hubs, drives the axes, and writes the outcomes. -/
def takeLead (epoch : Nat) (s : State) : State :=
  let s := claimEpoch epoch (s.modXlk fun x => { x with role := .lead })
  let s := s.xlk.mirror.axes.foldl (fun s a => enableMirrored a s) s
  settleAll (s.modXlk fun x => { x with mirror := { x.mirror with axes := [] } })

/-- SWAP_FRAME (R374). -/
def execSwapFrame (t : Nat) (x : Int) (epoch : Nat) (step : SwapStep) (s : State) : Res := ringCmd t s fun s =>
  match step, s.xlk.swap with
  | .offer, none =>
    if s.dummy then
      let s := s.modXlk fun y => { y with swap := some { x := x, mine := false, accepted := true, byCommand := false, epoch := epoch } }
      takeLead epoch (sendXlk s.peerAddr (.swap x epoch .accept) s)
    else s
  | .accept, some w =>
    if w.mine then swapDone (s.modXlk fun y => { y with swap := some { w with accepted := true } }) else s
  | .done, some w => if w.mine then s else s.modXlk fun y => { y with swap := none }
  | _, _ => s

/-- Refusals of PAIR_ROLE (R379). -/
def pairRoleConds (s : State) (swap : Bool) : List (Bool × Status) :=
  [(!s.modeIn [.standby, .service, .print], .badMode), (s.xlk.role != .lead || (swap && swapRefused s), .badState)]

/-- PAIR_ROLE_SWAP (R374, R379): completes after SWAP done. -/
def execPairRoleSwap (t : Nat) (s : State) : Res := ringCmd t s fun s =>
  admitCmd .supervisor (pairRoleConds s true) (startSwap true) s

/-- PAIR_ROLE_RECOMPARE (R379). -/
def execPairRoleRecompare (t : Nat) (s : State) : Res := ringCmd t s fun s =>
  admitCmd .supervisor (pairRoleConds s false) (fun s => complete .supervisor .ok 0 (sendCompare s)) s

/-! ## Heartbeats (R367, R368, R373) -/

/-- What a HEARTBEAT says of the other member. -/
def takeHeartbeat (hb : Heartbeat) (s : State) : State :=
  noteLevels (s.modXlk fun x =>
    { x with lastHb := some s.now, reqPeer := hb.leadReq, peerHold := hb.hold, peerDigest := hb.digest,
             peerRole := hb.role, peerEpoch := hb.epoch, peerUnfit := hb.unfit })

/-- What a HEARTBEAT does to the role: forming, a returning member, two leads, or the end of a conflict. -/
def heartbeatRole (s : State) : State :=
  let peerLead := s.xlk.peerRole == 2
  match s.xlk.role with
  | .none | .forming => formPair peerLead s
  | .soloLead => formLead s
  | .lead => if peerLead && s.xlk.swap.isNone then pairConflict s else s
  | .dummy => s
  | .conflict =>
    if s.xlk.reqLocal = s.xlk.reqPeer ∨ (s.mlk.holds ∧ peerLead) then s
    else s.modXlk fun x => { x with role := if s.mlk.holds then .lead else if peerLead then .dummy else .forming }

/-- HEARTBEAT_FRAME (R367, R368, R373). -/
def execHeartbeatFrame (t : Nat) (hb : Heartbeat) (s : State) : Res := ringCmd t s fun s =>
  if !paired s ∨ hb.unitId ≠ s.peerUid then s
  else
    let rising := hb.leadReq && !s.xlk.reqPeer
    let s := heartbeatRole (takeHeartbeat hb s)
    let s := if s.xlk.role = .lead ∧ rising ∧ !s.xlk.reqLocal ∧ s.fld Reg.xlkPairCfg 0 1 1 = 1 ∧ !swapRefused s then
        startSwap false s else s
    if (s.xlk.role = .lead ∨ s.xlk.role = .dummy) ∧ hb.digest ≠ ownDigest s then sendCompare s else s

/-- Contexts that are not FREE. -/
def heldMask (s : State) : BitVec 64 :=
  (List.finRange 64).foldl (fun (m : BitVec 64) c => if (s.jobs[c]).st != .free then m ||| (1#64 <<< c.val) else m) 0#64

/-- COMPARE_FRAME (R368, R430): the bits of DIFF; PAIR_DIFF once per bit; the lead sends its calibration records when word 2
differs, and the dummy's store makes way for them. -/
def execCompareFrame (t : Nat) (digests : List Nat) (s : State) : Res := ringCmd t s fun s =>
  if !paired s then s
  else
    let bad (w : Nat) : Bool := digests.getD w 0 != (ownDigests s).getD w 0
    let diff := (List.range 7).foldl (fun (m : BitVec 7) w => if bad w then m ||| (1#7 <<< w) else m) 0#7
    let news := (List.range 7).filter fun w => diff.getLsbD w && !s.xlk.diff.getLsbD w
    let s := s.modXlk fun x => { x with diff := diff, unfit := if s.dummy ∧ diff ≠ 0 then x.unfit ||| heldMask s else x.unfit }
    let s := news.foldl (fun s w => alarm .pairDiff w s) s
    if !news.contains 2 then s
    else if s.dummy then { s with calStore := [] }
    else s.calStore.foldl (fun s r => mirror (.cal r) s) s

/-- RCHECK_FRAME (R369). -/
def execRcheckFrame (t : Nat) (ctx : Fin 64) (package : Bool) (count firstSeq crc : Nat) (s : State) : Res := ringCmd t s fun s =>
  if s.dummy then takeRcheck (ctx, package, count, firstSeq, crc) s else s

/-! ## The dummy's mirror (R370, R371) -/

/-- Courses that the lead has confirmed leave the list; those not yet in the runway are shadow gaps. -/
def mirrorConfirm (plane row : Nat) (ctx : Fin 64) (course : Nat) (s : State) : State :=
  let p : Fin 8 := Fin.ofNat 8 plane
  let upTo := ((s.xlk.mirror.gaps.find? fun g => g.1 == plane && g.2.1 == ctx.val).map (·.2.2)).getD 0
  let from_ := max upTo ((s.jobs[ctx]).planes[p]).screened
  let s := if from_ ≤ course then s.count Reg.xlkShadowGap 0 (course + 1 - from_) else s
  let s := s.modPac fun q => { q with slots := q.slots.filter fun x =>
    !(x.plane == plane && x.row == row && x.ctx == ctx.val && decide (x.course ≤ course)) }
  s.modXlk fun x => { x with mirror := { x.mirror with
    gaps := (x.mirror.gaps.filter fun g => !(g.1 == plane && g.2.1 == ctx.val)) ++ [(plane, ctx.val, max upTo (course + 1))]
    confirm := (x.mirror.confirm.filter fun c => !(c.1 == plane && c.2.1 == row && c.2.2.1 == ctx.val)) ++
      [(plane, row, ctx.val, course)] } }

/-- Items whose outcome records the lead has written are closed on the dummy, and a job that has ended closes. -/
def mirrorFinal (ctx : Fin 64) (seq : Nat) (s : State) : State :=
  let s := s.modJob ctx fun j => { j with items := j.items.filter fun it => decide (seq < it.seq), finalSeq := some seq }
  let s := s.modLog fun l => { l with backlog := l.backlog.filter fun e =>
    !(e.ctx == ctx.val && decide (e.seq ≤ seq) && e.st == .reserved) }
  closeJob ctx (s.modXlk fun x => { x with mirror := { x.mirror with
    finals := (x.mirror.finals.filter fun f => f.1 != ctx.val) ++ [(ctx.val, seq)] } })

/-- The lead's underrun of courses `first` to `last` (R249, Table 19.6): a course taken already is treated as one for
outcomes; what has been screened from `first` on is given up, and the plane skips the courses as it reaches them. -/
def mirrorUnderrun (plane : Nat) (ctx : Fin 64) (first last : Nat) (s : State) : State :=
  let p : Fin 8 := Fin.ofNat 8 plane
  let taken := ((s.jobs[ctx]).planes[p]).taken
  let s := (List.range (min (last + 1) taken - first)).foldl (fun s i => flagCourse ctx p (first + i) 1 s) s
  rollback p ctx first (s.modXlk fun x => { x with mirror := { x.mirror with
    underruns := x.mirror.underruns ++ [(plane, ctx.val, first, last)] } })

/-- A GEN frame: its entries join those of the generation, which is installed at its course (R371). -/
def mirrorGen (plane installCourse generation : Nat) (last : Bool) (entries : List Word) (s : State) : State :=
  let old := ((s.xlk.mirror.gens.find? fun g => g.plane == plane && g.number == generation).map (·.entries)).getD []
  let g : GenWait := { plane := plane, course := installCourse, number := generation, entries := old ++ entries, complete := last }
  let s := s.modXlk fun x => { x with mirror := { x.mirror with
    gens := (x.mirror.gens.filter fun g => !(g.plane == plane && g.number == generation)) ++ [g] } }
  match s.str.tables with
  | some tb =>
    let p : Fin 8 := Fin.ofNat 8 plane
    installMirrored tb p ((screenJob s p).getD 0) s
  | none => s

/-- A calibration record of the lead, stored under its RSEQ and applied (R430). -/
def mirrorCal (r : CalRecord) (s : State) : State :=
  calApply r { s with calStore := (s.calStore.filter fun q => !(q.kind == r.kind && q.index == r.index)) ++ [r] }

/-- Axes as the lead last mirrored them. -/
def mirrorAxesOf (l : List AxisMirror) (s : State) : State :=
  s.modXlk fun x => { x with mirror := { x.mirror with
    axes := (x.mirror.axes.filter fun a => !(l.any fun b => b.kind == a.kind && b.index == a.index)) ++ l } }

/-- MIRROR_FRAME (R371): applied on the dummy, and on a new lead until the old one has sent SWAP done. -/
def execMirrorFrame (t : Nat) (frame : MirrorFrame) (s : State) : Res := ringCmd t s fun s =>
  if !s.dummy ∧ s.xlk.swap.isNone then s
  else match frame with
    | .underrun p c a b => mirrorUnderrun p (Fin.ofNat 64 c) a b s
    | .gen p k g last es => mirrorGen p k g last es s
    | .confirm p r c k => mirrorConfirm p r (Fin.ofNat 64 c) k s
    | .final c q => mirrorFinal (Fin.ofNat 64 c) q s
    | .cal r => mirrorCal r s
    | .axes l => mirrorAxesOf l s

/-! ## Loss of the other member (R375, R377) -/

/-- Contexts that run and for which the dummy is unfit. -/
def unfitRunning (s : State) : List (Fin 64) := (List.finRange 64).filter fun c => (s.jobs[c]).st.active && !fitFor s c

/-- Slots that the old lead's CONFIRM frames cover leave the list. -/
def dropConfirmed (s : State) : State :=
  s.modPac fun q => { q with slots := q.slots.filter fun x => !(s.xlk.mirror.confirm.any fun c =>
    c.1 == x.plane && c.2.1 == x.row && c.2.2.1 == x.ctx && decide (x.course ≤ c.2.2.2)) }

/-- A dummy fails over (R375); a hold of the old lead is entered on taking the role (Table 19.6). -/
def failOver (s : State) : State :=
  let s := alarm .pairLeadLost noInst ((dropConfirmed s).count Reg.xlkFailovers)
  let s := takeLead (nextEpoch s.xlk.peerEpoch) (s.modXlk fun x => { x with failingOver := true, refusedSince := none })
  if s.xlk.peerHold ∧ !s.dev.hold ∧ s.modeIn [.service, .print] then enterHold 2 s else s

/-- The dummy has lost the lead: it ends the contexts for which it is unfit, and fails over while it is fit for the rest. -/
def leadLost (s : State) : State :=
  let bad := unfitRunning s
  let able := s.xlk.diff == 0 && (bad.isEmpty || (List.finRange 64).any fun c => (s.jobs[c]).st.active && fitFor s c)
  let s := bad.foldl (fun s c => abortJob c s) s
  let s := if bad.isEmpty ∧ able then s else holdCause 4 (if able then s else alarm .pairLeadLost noInst s)
  if able then failOver s else s

/-- HEARTBEAT_LOSS (R375, R377, Table 19.6): none for HB_LOSS. A planned swap is abandoned; a member that has sent TAKEOVER
is lead already. -/
def execHeartbeatLoss (t : Nat) (s : State) : Res := ringCmd t s fun s =>
  if s.xlk.lastHb.isNone ∨ peerAlive s then s
  else
    let s := (s.modXlk fun x => { x with lastHb := none, equalSince := none, swap := none })
    match s.xlk.role with
    | .dummy => leadLost s
    | .lead => alarm .pairPeerLost noInst (s.modXlk fun x => { x with role := .soloLead })
    | _ => s

/-- TAKEOVER_REFUSED_ABANDON (R377): refused for silence for 64 µs in total. -/
def execTakeoverRefusedAbandon (t : Nat) (s : State) : Res := ringCmd t s fun s =>
  if s.xlk.failingOver ∧ (s.xlk.refusedSince.any fun r => decide (r + 64 * us8 ≤ s.now)) then
    let s := s.modXlk fun x => { x with role := .dummy, failingOver := false, refusedSince := none }
    let s := s.modMlk fun m => { m with holds := false, eps := m.eps.map fun e => { e with takeoverAt := none } }
    alarm .pairSplit noInst (holdCause 4 (parkAxes s))
  else s

/-! ## LEAD_REQ (R373) -/

/-- LEAD_REQ_EDGE (R373, R504): 100 µs in each direction. -/
def execLeadReqEdge (t : Nat) (high : Bool) (heldNs : Nat) (s : State) : Res := ringCmd t s fun s =>
  if heldNs < 100000 then s
  else
    let rising := high && !s.xlk.reqLocal
    let s := noteLevels ({ s with lsi := { s.lsi with leadPin := high } }.modXlk fun x => { x with reqLocal := high })
    if rising ∧ s.dummy ∧ !s.xlk.reqPeer ∧ s.xlk.swap.isNone ∧ peerAlive s ∧ s.fld Reg.xlkPairCfg 0 1 1 = 0 then
      s.setFld Reg.xlkPairStatus 0 8 8 1
    else s

/-- LEAD_REQ_CONFLICT (R373): equal levels for 1 ms. -/
def execLeadReqConflict (t : Nat) (s : State) : Res := ringCmd t s fun s =>
  if paired s ∧ peerAlive s ∧ (s.xlk.equalSince.any fun e => decide (e + ms8 ≤ s.now)) then pairConflict s else s

end Sys2Proof.Machine
end

