-- ==== Sys2Proof/Machine/Registers.lean ====
section
/-! DEFINITION. Register access (chapter 25): what a write refuses, sets, clears and starts, and reads that clear.
Addresses are those of the PW block map; UW offsets stand at 0x4000000 above them. -/

namespace Sys2Proof.Machine

/-! ## Which accesses respond -/

/-- Whether the block of an address responds now (R48, R50, R464). -/
def blockResponds (s : State) (addr : Nat) : Bool :=
  match s.dev.mode with
  | .boot => false
  | .recovery => decide (addr < 0x10000 ∨ (0x430000 ≤ addr ∧ addr < 0x440000) ∨ (0x490000 ≤ addr ∧ addr < 0x4A0000))
  | _ => true

/-- Whether a register word belongs to one of a list of series. -/
def RegSpec.oneOf (r : RegSpec) (l : List RegSpec) : Bool := l.any fun x => x.base == r.base

/-! ## Refusals (R505) -/

/-- The axes whose ERR register answers for a sigma-delta channel: those that use it. -/
def sdAxes (s : State) (k : Nat) : List (Fin 8) := (List.finRange 8).filter fun (n : Fin 8) => (baChannels s n).contains k

/-- Channels of a sigma-delta clock group. -/
def sdGroup (g : Nat) : List Nat := (List.range 6).map fun i => 6 * g + i

/-- The ERR register of the block that a write belongs to, its instance, and the offset that it records. -/
def errOf (s : State) (addr : Nat) : Option (RegSpec × Nat × Nat) :=
  if 0x10000 ≤ addr ∧ addr < 0x10800 then some (Reg.pwrErr, 0, addr - 0x10000)
  else if 0x80000 ≤ addr ∧ addr < 0x100000 then some (Reg.dmaErr, 0, addr - 0x80000)
  else if 0x200000 ≤ addr ∧ addr < 0x240000 then some (Reg.pacErr, 0, addr - 0x200000)
  else if 0x240000 ≤ addr ∧ addr < 0x280000 then some (Reg.wavErr, 0, addr - 0x240000)
  else if 0x2C0000 ≤ addr ∧ addr < 0x300000 then some (Reg.insErr, 0, addr - 0x2C0000)
  else if 0x300000 ≤ addr ∧ addr < 0x340000 then some (Reg.xlkErr, 0, addr - 0x300000)
  else if 0x341000 ≤ addr ∧ addr < 0x341400 then some (Reg.baErr, (addr - 0x341000) / 0x80, addr - 0x340000)
  else if 0x342000 ≤ addr ∧ addr < 0x342300 then
    (sdAxes s ((addr - 0x342000) / 0x20)).head?.map fun n => (Reg.baErr, n.val, addr - 0x340000)
  else if 0x340010 ≤ addr ∧ addr < 0x340020 then
    ((sdGroup ((addr - 0x340010) / 4)).flatMap (sdAxes s)).head?.map fun n => (Reg.baErr, n.val, addr - 0x340000)
  else if 0x381000 ≤ addr ∧ addr < 0x382000 then some (Reg.stpErr, (addr - 0x381000) / 0x100, addr - 0x380000)
  else if 0x3C0000 ≤ addr ∧ addr < 0x3E0000 then some (Reg.memErr, 0, addr - 0x3C0000)
  else if 0x400000 ≤ addr ∧ addr < 0x420000 then some (Reg.secErr, 0, addr % 0x10000)
  else if 0x470000 ≤ addr ∧ addr < 0x480000 then some (Reg.pioErr, 0, addr - 0x470000)
  else if 0x480000 ≤ addr ∧ addr < 0x490000 then some (Reg.lsiErr, 0, addr - 0x480000)
  else none

/-- Registers of an axis that only an OFF axis accepts (R277). -/
def baOffOnly : List RegSpec :=
  [Reg.baCfg, Reg.baFluxref, Reg.baHyst, Reg.baRs, Reg.baObs, Reg.baBus, Reg.baBuslim, Reg.baDeadtime, Reg.baWeb, Reg.baEnccpr]

/-- Whether an enabled axis uses a channel. -/
def sdInUse (s : State) (k : Nat) : Bool := (sdAxes s k).any fun (n : Fin 8) => (s.ba[n]).en

/-- Whether a channel is claimed in the AXIS section. -/
def sdClaimed (s : State) (k : Nat) : Bool :=
  (List.finRange 8).any fun (n : Fin 8) => (s.baRec n).any fun a => a.sdA == k || a.sdB == k

/-- Whether a DMA channel serves one of two request lines. -/
def lineServed (s : State) (a b : Nat) : Bool :=
  s.dma.toList.any fun d => (d.st == .run || d.st == .wait || d.st == .aborting) &&
    ((d.rd.desc.any fun x => x.space == 3 && x.arg == a) || (d.wr.desc.any fun x => x.space == 3 && x.arg == b))

/-- What refuses a write to a register, before its ranges: the mode, then the state of an object, then what is in use. -/
def stateConds (s : State) (r : RegSpec) (i : Nat) (value : Word) : List (Bool × Status) :=
  let n8 : Fin 8 := Fin.ofNat 8 i
  let n16 : Fin 16 := Fin.ofNat 16 i
  let n32 : Fin 32 := Fin.ofNat 32 i
  if r.priv != 0 then [(sensitiveRefused s, .authFail)]
  else if r.base == Reg.secTamperCfg.base then [(s.fld Reg.secTamperCfg 0 31 31 == 1, .badState)]
  else if r.oneOf [Reg.pacScaleLo, Reg.pacScaleHi, Reg.pacGain, Reg.pacLockCfg, Reg.pacLead, Reg.pacCfg] then
    [(s.dev.mode != .standby, .badState)]
  else if r.base == Reg.pacHphase.base then
    [(!s.modeIn [.standby, .service], .badState), (s.cal.run.any fun c => c.kind == 1, .busy)]
  else if r.base == Reg.wavCfg.base then [(!s.modeIn [.standby, .service], .badState)]
  else if r.oneOf [Reg.insCfg, Reg.insCmp, Reg.insItem, Reg.insSeal, Reg.insXoff, Reg.insLpitch] then
    [(!s.modeIn [.standby, .service], .badState)]
  else if r.oneOf [Reg.xlkCfg, Reg.xlkPeer, Reg.xlkPairCfg] then [(!s.modeIn [.configure, .standby], .badState)]
  else if r.oneOf [Reg.govCfg, Reg.govPwm] then [(!s.modeIn [.configure, .standby, .service], .badMode)]
  else if r.base == Reg.mlkCfg.base then
    [(!s.modeIn [.configure, .standby] && bitsOf value 25 16 != s.fld Reg.mlkCfg 0 25 16, .badMode)]
  else if r.base == Reg.mlkAsym.base then [(!s.modeIn [.configure, .standby], .badMode)]
  else if r.oneOf baOffOnly then
    [((s.ba[n8]).st != .off, .badState), (r.base == Reg.baBus.base && sdClaimed s (bitsOf value 31 24), .range)]
  else if r.base == Reg.sdCfg.base then [(sdInUse s i, .badState)]
  else if r.base == Reg.sdClk.base then [((sdGroup i).any (sdInUse s), .badState)]
  else if r.oneOf [Reg.stpChop, Reg.stpEncratio, Reg.stpWebLo, Reg.stpWebHi] then [((s.stp[n16]).en, .badState)]
  else if r.oneOf [Reg.dmaCfg, Reg.dmaRdlistLo, Reg.dmaRdlistHi, Reg.dmaWrlistLo, Reg.dmaWrlistHi, Reg.dmaStwLo, Reg.dmaStwHi] then
    let st := (s.dma[n32]).st
    [(!(st == .idle || st == .done || st == .stopped), .badState)]
  else if r.oneOf [Reg.logCfg, Reg.logHostSize, Reg.logHostBaseLo, Reg.logHostBaseHi] then [(s.log.en, .badState)]
  else if r.base == Reg.lsiI2cCfg.base then
    [((s.lsi.i2c[Fin.ofNat 2 i]).busy || lineServed s (5 + 2 * i) (6 + 2 * i), .badState)]
  else if r.base == Reg.lsiUartCfg.base then [(lineServed s (1 + 2 * i) (2 + 2 * i), .badState)]
  else []

/-- Every refusal of a write to a register, in the order of R505. -/
def writeConds (s : State) (r : RegSpec) (i : Nat) (value : Word) : List (Bool × Status) :=
  stateConds s r i value ++
    [(!r.inRange value, .range), (r.base == Reg.pwrOp.base && decide (bitsOf value 5 4 < bitsOf value 1 0), .range)]

/-- What a refused write leaves: the code in the block's ERR register, LOG_STATUS.CFG_ERR, or GOV_WRITE_REFUSED. -/
def refuseWrite (r : RegSpec) (addr : Nat) (st : Status) (s : State) : State :=
  if r.oneOf [Reg.logCfg, Reg.logHostSize, Reg.logHostBaseLo, Reg.logHostBaseHi] then
    when (st == .badState) (fun s => s.setFld Reg.logStatus 0 5 5 1) s
  else if r.oneOf [Reg.govCfg, Reg.govVhost, Reg.govPwm] then
    when (st == .range) (diag .govWriteRefused noInst ((addr - 0x10000 : Nat) : Int) 0 0) s
  else match errOf s addr with
    | some e => s.recordErr e.1 e.2.1 e.2.2 st
    | none => s

/-! ## What a write sets, and what follows from it -/

/-- The word that a write leaves (R462): RW, RWP and RWL bits as written, W1C bits cleared where written as 1. -/
def written (r : RegSpec) (old value : Word) : Word :=
  (old &&& ~~~r.rw &&& ~~~(value &&& r.w1c)) ||| (value &&& r.rw)

/-- A vector that is unmasked sends the message that has waited (R457). -/
def unmask (v : Nat) (s : State) : State :=
  if s.fld Reg.msixCtl v 0 0 = 0 ∧ s.pci.msixPend.getLsbD v then
    ({ s with pci := { s.pci with msixPend := s.pci.msixPend &&& ~~~(1#256 <<< v) } }).emit (.msix v)
  else s

/-- Membership of a pair starts with forming and ends with no role (R367). -/
def pairMember (was : Nat) (s : State) : State :=
  match was, s.fld Reg.xlkPairCfg 0 0 0 with
  | 0, 1 => s.modXlk fun x => { x with role := .forming }
  | 1, 0 => s.modXlk fun x => { x with role := .none, diff := 0, unfit := 0, checked := 0 }
  | _, _ => s

/-- What follows from a write besides the register's own bits (R166, R358, R367, R389, R457). -/
def afterWrite (r : RegSpec) (i : Nat) (old : Word) (s : State) : State :=
  if r.priv != 0 then s.modSec fun x => { x with session := x.session.map fun y => { y with lastAct := s.now } }
  else if r.oneOf [Reg.nzmMinRate, Reg.nzmTakeover, Reg.nzmVol0, Reg.nzmVol1, Reg.nzmVol2, Reg.nzmVol3] then
    s.modPlane (Fin.ofNat 8 i) fun p => { p with cfgChanged := p.cfgChanged || s.rd r i != old }
  else if r.base == Reg.xlkPairCfg.base then pairMember (bitsOf old 0 0) s
  else if r.base == Reg.xlkCfg.base then electRoot s
  else if r.base == Reg.msixCtl.base then unmask i s
  else s

/-- A write to a register word without actions. -/
def writeWord (r : RegSpec) (i addr : Nat) (value : Word) (s : State) : State :=
  match firstRefusal (writeConds s r i value) with
  | .ok => afterWrite r i (s.rd r i) (s.wr r i (written r (s.rd r i) value))
  | st => refuseWrite r addr st s

/-! ## Actions (R506) -/

/-- The effect of a command inside another. -/
def andThen (s : State) (act : State → Res) : State :=
  match act s with
  | .next s' => { s' with out := s.out ++ s'.out }
  | _ => s

/-- Several actions of one write, in order of bit number; when one of them is refused, none takes effect (R462, R506).
A refusal shows in the code of the block's ERR register. -/
def actions (err : RegSpec) (i : Nat) (acts : List (State → Res)) (s : State) : State :=
  let s1 := acts.foldl andThen (s.setFld err i 23 0 0)
  if s1.fld err i 7 0 = 0 then s1.setFld err i 23 0 (s.fld err i 23 0)
  else s.setFld err i 23 0 (s1.fld err i 23 0)

/-- An action that a bit of the value selects. -/
def onBit (value : Word) (b : Nat) (act : State → Res) : List (State → Res) := if value.getLsbD b then [act] else []

/-- MOT_BA_CTRL_n. -/
def writeBaCtrl (n : Fin 8) (value : Word) (s : State) : State :=
  let t := s.now
  let en := value.getLsbD 0
  actions Reg.baErr n
    ((if en == (s.ba[n]).en then [] else if en then [execBaEnable t n] else [execBaDisable t n]) ++
      onBit value 1 (execBaFaultClr t n) ++ onBit value 2 (execBaOpen t n)) s

/-- STP_CTRL_n: the immediate stop overrides every other command (Table 15.1). -/
def writeStpCtrl (n : Fin 16) (value : Word) (s : State) : State :=
  let t := s.now
  let x := s.stp[n]
  let en := value.getLsbD 0
  let on := value.getLsbD 1
  let power : List (State → Res) := if on == x.power then [] else [execStpPower t n on]
  let enable : List (State → Res) := if en == x.en then [] else if en then [execStpEnable t n] else [execStpEnClear t n]
  actions Reg.stpErr n
    (if value.getLsbD 5 then [execStpStop t n] ++ (if en then [] else enable) ++ (if on then [] else power)
     else (if on then power ++ enable else enable ++ power) ++ onBit value 3 (execStpGo t n) ++
       onBit value 4 (execStpHalt t n) ++ onBit value 6 (execStpFaultClr t n) ++ onBit value 7 (execStpClrUnsure t n) ++
       onBit value 8 (execStpSync t n)) s

/-- NZM_UPD_CTRL with COMMIT or DISCARD (R163, R372, R506). -/
def writeNzmCtrl (value : Word) (s : State) : State :=
  let t := s.now
  if !nzmOpen s || (value.getLsbD 31 && s.xlk.role == .dummy) then nzmSet 17 s
  else (onBit value 30 (execNzmDiscard t) ++ onBit value 31 (execNzmCommit t)).foldl andThen
    (s.wr Reg.nzmUpdCtrl 0 (written Reg.nzmUpdCtrl (s.rd Reg.nzmUpdCtrl) value))

/-- DEV_CTRL (Table 3.12). -/
def writeDevCtrl (value : Word) (s : State) : State :=
  (onBit value 0 (execHoldReq s.now (bitsOf value 5 4)) ++ onBit value 8 (execHoldClr s.now)).foldl andThen
    (s.setFld Reg.devCtrl 0 5 4 (bitsOf value 5 4))

/-- RING_CFG of a ring (R70): VECTOR always, LOG2_SIZE while ENABLE is 0, then ENABLE. -/
def writeRingCfg (id : RingId) (r : RegSpec) (i : Nat) (value : Word) (s : State) : State :=
  let s := s.setFld r i 23 16 (bitsOf value 23 16)
  let s := if (s.ring id).enable then s else s.setFld r i 3 0 (bitsOf value 3 0)
  if value.getLsbD 31 then andThen s (execRingEnable s.now id)
  else if (s.ring id).enable then andThen s (execRingDisable s.now id) else s

/-- The ring of a word of its register set: RING_CFG, or one of the base registers. -/
def ringOf (r : RegSpec) (i : Nat) : Option (RingId × Bool) :=
  if r.base == Reg.supCfg.base then some (.supervisor, true)
  else if r.base == Reg.admCfg.base then some (.admission, true)
  else if r.base == Reg.jobCfg.base then some (.job (Fin.ofNat 64 i), true)
  else if r.oneOf [Reg.supBaseLo, Reg.supBaseHi] then some (.supervisor, false)
  else if r.oneOf [Reg.admBaseLo, Reg.admBaseHi] then some (.admission, false)
  else if r.oneOf [Reg.jobBaseSqLo, Reg.jobBaseSqHi, Reg.jobBaseCqLo, Reg.jobBaseCqHi] then some (.job (Fin.ofNat 64 i), false)
  else none

/-- One word of the DMA window of the ring in SEC_UWWIN_SEL (R383, R390): `o` is its offset in SEC. -/
def writeWindow (o : Nat) (value : Word) (s : State) : State :=
  if sensitiveRefused s then s.recordErr Reg.secErr 0 o .authFail
  else
    let put (w : UwWin) : UwWin :=
      if o = 0x24 then { w with baseLo := value } else if o = 0x28 then { w with baseHi := value }
      else if o = 0x2C then { w with limLo := value } else if o = 0x30 then { w with limHi := value }
      else { w with en := value.getLsbD 0 }
    s.modSec fun x => { x with uwwin := upd x.uwwin (Fin.ofNat 65 (s.fld Reg.secUwwinSel 0 6 0)) put,
                               session := x.session.map fun y => { y with lastAct := s.now } }

/-- WAV_WG_SLOT_m of the WG in WAV_WG_SEL (R189, R190). -/
def writeWgSlot (m : Nat) (value : Word) (s : State) : State :=
  refuseOr (wgRefusals s) Reg.wavErr 0 (0x120 + 4 * m)
    (wgChange (s.fld Reg.wavWgSel 0 10 0) fun w => { w with slots := w.slots.set m (value &&& 0x800003FF#32) }) s

/-- SEM_OP_n: with both of ACQ and REL, or with neither, the write is ignored (R459). -/
def writeSemOp (n : Fin 64) (value : Word) (s : State) : State :=
  let f := BitVec.ofNat 8 (bitsOf value 23 16)
  let i := BitVec.ofNat 8 (bitsOf value 15 8)
  let g := BitVec.ofNat 8 (bitsOf value 7 0)
  match value.getLsbD 31, value.getLsbD 30 with
  | true, false => andThen s (execSemAcquire s.now n f i g)
  | false, true => andThen s (execSemRelease s.now n f i g)
  | _, _ => s

/-- DMA_CH_CTRL_n: START and ABORT; a doorbell re-reads a descriptor and is a command of its own. -/
def writeDmaCtrl (n : Fin 32) (value : Word) (s : State) : State :=
  actions Reg.dmaErr 0 (onBit value 0 (execDmaStart s.now n) ++ onBit value 1 (execDmaAbort s.now n)) s

/-- The registers of the privileged window whose writes act: what a write to one of them does, none for a register
without actions (log entry 59). -/
def actingPrivileged (addr : Nat) (value : Word) (s : State) : Option State :=
  let t := s.now
  if addr = 0xC then some (writeDevCtrl value s)
  else if addr = 0x1C0008 then some (andThen s (execNzmUpdEntry t value))
  else if addr = 0x1C000C then if value.getLsbD 30 || value.getLsbD 31 then some (writeNzmCtrl value s) else none
  else if addr = 0x200004 then
    some (actions Reg.pacErr 0 (onBit value 0 (execPacZero t) ++ onBit value 1 (execHandoverCancel t)) s)
  else if addr = 0x200008 then some (andThen s (execPacSrcWrite t value))
  else if addr = 0x200038 then
    some (if value.getLsbD 31 then andThen s (execHandoverArm t value) else newCandidate value s)
  else if addr = 0x200050 then
    some (actions Reg.pacErr 0 (onBit value 0 (execGearPush t) ++ onBit value 1 (execGearSet t) ++ onBit value 2 (execGearClear t)) s)
  else if addr = 0x240024 then
    some (actions Reg.wavErr 0 (onBit value 0 (execWavTblWrite t) ++ onBit value 1 (execWavTblRead t)) s)
  else if addr = 0x240104 then some (andThen s (execWgActiveSlotWrite t value))
  else if 0x240120 ≤ addr ∧ addr < 0x240140 then some (writeWgSlot ((addr - 0x240120) / 4) value s)
  else if addr = 0x3C0044 then some (if value.getLsbD 31 then s else andThen s (execJsDetach t value))
  else if addr = 0x3C0050 then
    some (if value.getLsbD 30 then s.modJs (jsSel s) fun x => { x with ioErr := false } else s)
  else if addr = 0x400008 then some (andThen s (execSecTamperClear t value))
  else if 0x400024 ≤ addr ∧ addr < 0x400038 then some (writeWindow (addr - 0x400000) value s)
  else if addr = 0x410004 then some (andThen s (execOtpRdAddr t (Fin.ofNat 256 (bitsOf value 7 0))))
  else if addr = 0x450004 then some (andThen s (if value.getLsbD 0 then execLogCtrlEnable t else execLogCtrlDisable t))
  else if 0x460200 ≤ addr ∧ addr < 0x460300 then some (writeSemOp (Fin.ofNat 64 ((addr - 0x460200) / 4)) value s)
  else if 0x470100 ≤ addr ∧ addr < 0x470200 then
    some (andThen s (execPioFuncWrite t (Fin.ofNat 64 ((addr - 0x470100) / 4)) value))
  else if (addr = 0x480004 ∨ addr = 0x480014) ∧ value.getLsbD 31 then
    some (andThen s (execI2cGo t (Fin.ofNat 2 ((addr - 0x480004) / 0x10)) value))
  else none

/-- The registers of the axes, the encoders and the channels whose writes act. -/
def actingInstance (addr : Nat) (value : Word) (s : State) : Option State :=
  let t := s.now
  if 0x80100 ≤ addr ∧ addr < 0x80900 ∧ (addr - 0x80100) % 0x40 = 0 then
    some (writeDmaCtrl (Fin.ofNat 32 ((addr - 0x80100) / 0x40)) value s)
  else if 0x341000 ≤ addr ∧ addr < 0x341400 then
    let n : Fin 8 := Fin.ofNat 8 ((addr - 0x341000) / 0x80)
    match (addr - 0x341000) % 0x80 with
    | 0x00 => some (writeBaCtrl n value s)
    | 0x0C => some (andThen s (execBaSetpoint t n value))
    | _ => none
  else if 0x381000 ≤ addr ∧ addr < 0x382000 then
    let n : Fin 16 := Fin.ofNat 16 ((addr - 0x381000) / 0x100)
    match (addr - 0x381000) % 0x100 with
    | 0x00 => some (writeStpCtrl n value s)
    | 0x08 => some (andThen s (execStpModeChange t n value))
    | 0x1C => some (andThen s (execStpVsetWrite t n value))
    | 0x24 => some (andThen s (execStpTargetCommit t n value))
    | 0x28 => some (andThen s (execStpPosWrite t n false value))
    | 0x2C => some (andThen s (execStpPosWrite t n true value))
    | 0x6C => some (actions Reg.stpErr n (onBit value 0 (execStpGearPush t n) ++ onBit value 1 (execStpGearClear t n)) s)
    | _ => none
  else if 0x3A0000 ≤ addr ∧ addr < 0x3A0400 ∧ (addr - 0x3A0000) % 0x40 = 0 then
    some (andThen s (execEncCfgWrite t (Fin.ofNat 16 ((addr - 0x3A0000) / 0x40)) value))
  else none

/-- What a write to any register does (R461, R462). An address that no map defines ignores it (R464). -/
def writeRegister (addr : Nat) (value : Word) (s : State) : State :=
  if !blockResponds s addr then s
  else match actingPrivileged addr value s with
    | some s' => s'
    | none => match actingInstance addr value s with
      | some s' => s'
      | none => match findReg addr with
        | none => s
        | some (r, i) => match ringOf r i with
          | some (id, true) => writeRingCfg id r i value s
          | some (id, false) => if (s.ring id).enable then s else writeWord r i addr value s
          | none => writeWord r i addr value s

/-- REGISTER_WRITE (R462, R505, R506). A read pointer or a completion head goes to the meaning of its own row, which
names the values that are host errors. -/
def execRegisterWrite (t addr : Nat) (value : Word) (s : State) : Res :=
  if addr = 0x45001C then execLogHostRd t value.toNat s
  else if addr = 0x5001C then execRingCqHead t .supervisor value.toNat s
  else if addr = 0x441001C then execRingCqHead t .admission value.toNat s
  else if 0x4000000 ≤ addr ∧ addr < 0x4400000 ∧ addr % 0x10000 = 0x1C then
    execRingCqHead t (.job (Fin.ofNat 64 ((addr - 0x4000000) / 0x10000))) value.toNat s
  else run t s (writeRegister addr value)

/-! ## Reads that clear -/

/-- READ_CLEAR (R461): the word is returned and its RC fields become 0; a block that does not respond reads zero (R48), and
SEC_TRNG_DATA gives fresh bits (R401). -/
def execReadClear (t addr : Nat) (s : State) : Res := run t s fun s =>
  if !blockResponds s addr then s.emit (.readValue addr 0)
  else if addr = 0x400014 then andThen s (execSecTrngData s.now)
  else match findReg addr with
    | some (r, i) =>
      if r.rc = 0 then s else (s.wr r i (s.rd r i &&& ~~~r.rc)).emit (.readValue addr (s.rd r i))
    | none => s

end Sys2Proof.Machine
end

