-- ==== Sys2Proof/Machine/Dispatch.lean ====
section
/-! DEFINITION. Dispatch: one arm per command, each a direct call of its meaning. -/

namespace Sys2Proof.Machine

/-- The effect of a command on everything but the queue. -/
def exec (i : Instr) (s : State) : Host.Outcome State Fault Refusal :=
  match i with
  | .rstNRelease t env => Sys2Proof.Machine.execRstNRelease t env s
  | .rstNAssert t lowNs => Sys2Proof.Machine.execRstNAssert t lowNs s
  | .bootWatchdogExpiry t env => Sys2Proof.Machine.execBootWatchdogExpiry t env s
  | .devWarmReset t flags env => Sys2Proof.Machine.execDevWarmReset t flags env s
  | .warmResetBrakeDone t env => Sys2Proof.Machine.execWarmResetBrakeDone t env s
  | .modeSet t target => Sys2Proof.Machine.execModeSet t target s
  | .funcReinit t func inst restarted => Sys2Proof.Machine.execFuncReinit t func inst restarted s
  | .holdNAssert t => Sys2Proof.Machine.execHoldNAssert t s
  | .holdNRelease t highNs => Sys2Proof.Machine.execHoldNRelease t highNs s
  | .fireEnDeassert t lowNs => Sys2Proof.Machine.execFireEnDeassert t lowNs s
  | .fireEnAssert t highNs => Sys2Proof.Machine.execFireEnAssert t highNs s
  | .holdReq t cls => Sys2Proof.Machine.execHoldReq t cls s
  | .holdClr t => Sys2Proof.Machine.execHoldClr t s
  | .trngReady t samples => Sys2Proof.Machine.execTrngReady t samples s
  | .entropyWaitTimeout t => Sys2Proof.Machine.execEntropyWaitTimeout t s
  | .trngTestFail t => Sys2Proof.Machine.execTrngTestFail t s
  | .secTrngData t => Sys2Proof.Machine.execSecTrngData t s
  | .strLoadBegin t length header => Sys2Proof.Machine.execStrLoadBegin t length header s
  | .strLoadBlock t offset data => Sys2Proof.Machine.execStrLoadBlock t offset data s
  | .strLoadEnd t => Sys2Proof.Machine.execStrLoadEnd t s
  | .strTransferTimeout t => Sys2Proof.Machine.execStrTransferTimeout t s
  | .strActivate t slot => Sys2Proof.Machine.execStrActivate t slot s
  | .strActivationDone t row installOk => Sys2Proof.Machine.execStrActivationDone t row installOk s
  | .ringSqTail t ring value fetch => Sys2Proof.Machine.execRingSqTail t ring value fetch s
  | .ringEnable t ring => Sys2Proof.Machine.execRingEnable t ring s
  | .ringDisable t ring => Sys2Proof.Machine.execRingDisable t ring s
  | .ringCqHead t ring value => Sys2Proof.Machine.execRingCqHead t ring value s
  | .jobOpen t ctxReq jobId => Sys2Proof.Machine.execJobOpen t ctxReq jobId s
  | .jobLoad t ctx fromStore last address offset data readCode => Sys2Proof.Machine.execJobLoad t ctx fromStore last address offset data readCode s
  | .jobArm t ctx castOn => Sys2Proof.Machine.execJobArm t ctx castOn s
  | .jobRecords t ctx address count bytes data => Sys2Proof.Machine.execJobRecords t ctx address count bytes data s
  | .jobCastOff t ctx last => Sys2Proof.Machine.execJobCastOff t ctx last s
  | .jobAbort t ring ctx => Sys2Proof.Machine.execJobAbort t ring ctx s
  | .jobClose t ring ctx => Sys2Proof.Machine.execJobClose t ring ctx s
  | .sliceDeal t => Sys2Proof.Machine.execSliceDeal t s
  | .engineRequestTimeout t engine => Sys2Proof.Machine.execEngineRequestTimeout t engine s
  | .sliceComplete t cluster cycles => Sys2Proof.Machine.execSliceComplete t cluster cycles s
  | .sliceTimeout t cluster => Sys2Proof.Machine.execSliceTimeout t cluster s
  | .vcompUpdate t => Sys2Proof.Machine.execVcompUpdate t s
  | .vcodeUpdate t => Sys2Proof.Machine.execVcodeUpdate t s
  | .keyInstall t slot kind context label => Sys2Proof.Machine.execKeyInstall t slot kind context label s
  | .courseScreen t plane => Sys2Proof.Machine.execCourseScreen t plane s
  | .nzmUpdEntry t value => Sys2Proof.Machine.execNzmUpdEntry t value s
  | .nzmCommit t => Sys2Proof.Machine.execNzmCommit t s
  | .nzmDiscard t => Sys2Proof.Machine.execNzmDiscard t s
  | .generationInstall t plane => Sys2Proof.Machine.execGenerationInstall t plane s
  | .vfireUpdate t => Sys2Proof.Machine.execVfireUpdate t s
  | .encoderInputChange t n a b => Sys2Proof.Machine.execEncoderInputChange t n a b s
  | .minspAccept t n => Sys2Proof.Machine.execMinspAccept t n s
  | .lockTimeout t => Sys2Proof.Machine.execLockTimeout t s
  | .indexPulse t n heldNs => Sys2Proof.Machine.execIndexPulse t n heldNs s
  | .pacZero t => Sys2Proof.Machine.execPacZero t s
  | .pacSrcWrite t value => Sys2Proof.Machine.execPacSrcWrite t value s
  | .gearPush t => Sys2Proof.Machine.execGearPush t s
  | .gearSet t => Sys2Proof.Machine.execGearSet t s
  | .gearClear t => Sys2Proof.Machine.execGearClear t s
  | .handoverArm t value => Sys2Proof.Machine.execHandoverArm t value s
  | .handoverCancel t => Sys2Proof.Machine.execHandoverCancel t s
  | .fireCommandSend t plane row => Sys2Proof.Machine.execFireCommandSend t plane row s
  | .fireRecompute t => Sys2Proof.Machine.execFireRecompute t s
  | .slotInstantPassed t plane row => Sys2Proof.Machine.execSlotInstantPassed t plane row s
  | .underrunDecision t plane => Sys2Proof.Machine.execUnderrunDecision t plane s
  | .courseTake t plane => Sys2Proof.Machine.execCourseTake t plane s
  | .wavTblWrite t => Sys2Proof.Machine.execWavTblWrite t s
  | .wavTblRead t => Sys2Proof.Machine.execWavTblRead t s
  | .wgActiveSlotWrite t value => Sys2Proof.Machine.execWgActiveSlotWrite t value s
  | .waveformAckTimeout t hub => Sys2Proof.Machine.execWaveformAckTimeout t hub s
  | .scaleUpdate t => Sys2Proof.Machine.execScaleUpdate t s
  | .tempFrame t hub temps => Sys2Proof.Machine.execTempFrame t hub temps s
  | .tempStale t head => Sys2Proof.Machine.execTempStale t head s
  | .wavTempLost t head => Sys2Proof.Machine.execWavTempLost t head s
  | .venergyUpdate t => Sys2Proof.Machine.execVenergyUpdate t s
  | .vheatUpdate t => Sys2Proof.Machine.execVheatUpdate t s
  | .laneDownRetrain t lane => Sys2Proof.Machine.execLaneDownRetrain t lane s
  | .laneTrainingDone t lane ok => Sys2Proof.Machine.execLaneTrainingDone t lane ok s
  | .helloFrame t lane hello => Sys2Proof.Machine.execHelloFrame t lane hello s
  | .helloTimeout t lane => Sys2Proof.Machine.execHelloTimeout t lane s
  | .ackFrame t lane seq => Sys2Proof.Machine.execAckFrame t lane seq s
  | .syncSend t lane => Sys2Proof.Machine.execSyncSend t lane s
  | .syncRespFrame t lane n h2 h3 t4 => Sys2Proof.Machine.execSyncRespFrame t lane n h2 h3 t4 s
  | .syncTimeout t lane => Sys2Proof.Machine.execSyncTimeout t lane s
  | .identFrame t lane port record => Sys2Proof.Machine.execIdentFrame t lane port record s
  | .statusFrame t lane st => Sys2Proof.Machine.execStatusFrame t lane st s
  | .reportFrame t hub first count bitmap => Sys2Proof.Machine.execReportFrame t hub first count bitmap s
  | .slotFaultFrame t hub slot cause ports => Sys2Proof.Machine.execSlotFaultFrame t hub slot cause ports s
  | .reportTimeout t hub slot => Sys2Proof.Machine.execReportTimeout t hub slot s
  | .nakFrame t lane cseq count => Sys2Proof.Machine.execNakFrame t lane cseq count s
  | .relRetransmit t lane => Sys2Proof.Machine.execRelRetransmit t lane s
  | .pcsAlignmentLoss t lane => Sys2Proof.Machine.execPcsAlignmentLoss t lane s
  | .endpointMissing t ep => Sys2Proof.Machine.execEndpointMissing t ep s
  | .takeoverAckFrame t hub result wait digest rows => Sys2Proof.Machine.execTakeoverAckFrame t hub result wait digest rows s
  | .takeoverRepeat t hub => Sys2Proof.Machine.execTakeoverRepeat t hub s
  | .keepaliveSend t hub => Sys2Proof.Machine.execKeepaliveSend t hub s
  | .posrefSend t => Sys2Proof.Machine.execPosrefSend t s
  | .scanLineFrame t bridge frame => Sys2Proof.Machine.execScanLineFrame t bridge frame s
  | .scanLineIncomplete t bridge line => Sys2Proof.Machine.execScanLineIncomplete t bridge line s
  | .vlaneUpdate t octets => Sys2Proof.Machine.execVlaneUpdate t octets s
  | .lineAnalysis t bridge cycles => Sys2Proof.Machine.execLineAnalysis t bridge cycles s
  | .verdictDeadline t ctx seq => Sys2Proof.Machine.execVerdictDeadline t ctx seq s
  | .vinspUpdate t => Sys2Proof.Machine.execVinspUpdate t s
  | .govUpdate t => Sys2Proof.Machine.execGovUpdate t s
  | .govOverspeed t => Sys2Proof.Machine.execGovOverspeed t s
  | .govPeerSilent t peer => Sys2Proof.Machine.execGovPeerSilent t peer s
  | .decisionPeriod t axis => Sys2Proof.Machine.execDecisionPeriod t axis s
  | .speedLoopTick t axis => Sys2Proof.Machine.execSpeedLoopTick t axis s
  | .sdOutput t ch acc => Sys2Proof.Machine.execSdOutput t ch acc s
  | .baEnable t axis => Sys2Proof.Machine.execBaEnable t axis s
  | .baDisable t axis => Sys2Proof.Machine.execBaDisable t axis s
  | .baOpen t axis => Sys2Proof.Machine.execBaOpen t axis s
  | .baFaultClr t axis => Sys2Proof.Machine.execBaFaultClr t axis s
  | .baSetpoint t axis value => Sys2Proof.Machine.execBaSetpoint t axis value s
  | .magnetiseTimeout t axis => Sys2Proof.Machine.execMagnetiseTimeout t axis s
  | .lockedRotor t axis => Sys2Proof.Machine.execLockedRotor t axis s
  | .baDriverFault t axis lowNs => Sys2Proof.Machine.execBaDriverFault t axis lowNs s
  | .baOverspeedFault t axis => Sys2Proof.Machine.execBaOverspeedFault t axis s
  | .baSpeedErrorFault t axis => Sys2Proof.Machine.execBaSpeedErrorFault t axis s
  | .baBusFault t axis => Sys2Proof.Machine.execBaBusFault t axis s
  | .guardPeriodEnd t => Sys2Proof.Machine.execGuardPeriodEnd t s
  | .axisHomeBrushless t index speed timeout => Sys2Proof.Machine.execAxisHomeBrushless t index speed timeout s
  | .baHomeTimeout t axis => Sys2Proof.Machine.execBaHomeTimeout t axis s
  | .axisHomeStepper t index vel timeout homePos backoff ihome => Sys2Proof.Machine.execAxisHomeStepper t index vel timeout homePos backoff ihome s
  | .stpHomeTimeout t axis => Sys2Proof.Machine.execStpHomeTimeout t axis s
  | .stepperUpdate t axis => Sys2Proof.Machine.execStepperUpdate t axis s
  | .stpTargetCommit t axis value => Sys2Proof.Machine.execStpTargetCommit t axis value s
  | .stpVsetWrite t axis value => Sys2Proof.Machine.execStpVsetWrite t axis value s
  | .stpGo t axis => Sys2Proof.Machine.execStpGo t axis s
  | .stpModeChange t axis value => Sys2Proof.Machine.execStpModeChange t axis value s
  | .stpEnable t axis => Sys2Proof.Machine.execStpEnable t axis s
  | .stpEnClear t axis => Sys2Proof.Machine.execStpEnClear t axis s
  | .stpStop t axis => Sys2Proof.Machine.execStpStop t axis s
  | .stpHalt t axis => Sys2Proof.Machine.execStpHalt t axis s
  | .stpPower t axis on => Sys2Proof.Machine.execStpPower t axis on s
  | .stpFaultClr t axis => Sys2Proof.Machine.execStpFaultClr t axis s
  | .stpClrUnsure t axis => Sys2Proof.Machine.execStpClrUnsure t axis s
  | .stpSync t axis => Sys2Proof.Machine.execStpSync t axis s
  | .stpPosWrite t axis hi value => Sys2Proof.Machine.execStpPosWrite t axis hi value s
  | .stpGearPush t axis => Sys2Proof.Machine.execStpGearPush t axis s
  | .stpGearClear t axis => Sys2Proof.Machine.execStpGearClear t axis s
  | .chopperTrip t axis phaseB microvolts => Sys2Proof.Machine.execChopperTrip t axis phaseB microvolts s
  | .chopperOffTimeEnd t axis phaseB => Sys2Proof.Machine.execChopperOffTimeEnd t axis phaseB s
  | .drivePhaseTimeout t axis phaseB => Sys2Proof.Machine.execDrivePhaseTimeout t axis phaseB s
  | .holdDelayExpiry t axis => Sys2Proof.Machine.execHoldDelayExpiry t axis s
  | .stpDriverFault t axis lowNs => Sys2Proof.Machine.execStpDriverFault t axis lowNs s
  | .encCfgWrite t n value => Sys2Proof.Machine.execEncCfgWrite t n value s
  | .powerEstimate t sample => Sys2Proof.Machine.execPowerEstimate t sample s
  | .grantAllocation t => Sys2Proof.Machine.execGrantAllocation t s
  | .clusterPowerOnDone t cluster => Sys2Proof.Machine.execClusterPowerOnDone t cluster s
  | .operatingPointChangeDone t cluster => Sys2Proof.Machine.execOperatingPointChangeDone t cluster s
  | .sensorConversion t sensor temp16 => Sys2Proof.Machine.execSensorConversion t sensor temp16 s
  | .sramPatrolScrub t bank word found env => Sys2Proof.Machine.execSramPatrolScrub t bank word found env s
  | .hbmPatrol t addr found => Sys2Proof.Machine.execHbmPatrol t addr found s
  | .marchRun t first count alg mode => Sys2Proof.Machine.execMarchRun t first count alg mode s
  | .marchBankDone t outcome spares skipped => Sys2Proof.Machine.execMarchBankDone t outcome spares skipped s
  | .wipeVerifyDone t ok => Sys2Proof.Machine.execWipeVerifyDone t ok s
  | .jsAttach t value present lbaLog2 capacity protectionInfo => Sys2Proof.Machine.execJsAttach t value present lbaLog2 capacity protectionInfo s
  | .jsDetach t value => Sys2Proof.Machine.execJsDetach t value s
  | .nvmeReadTimeout t ctx => Sys2Proof.Machine.execNvmeReadTimeout t ctx s
  | .dmaStart t ch => Sys2Proof.Machine.execDmaStart t ch s
  | .dmaAbort t ch => Sys2Proof.Machine.execDmaAbort t ch s
  | .dmaDbRd t ch reread => Sys2Proof.Machine.execDmaDbRd t ch reread s
  | .dmaDbWr t ch reread => Sys2Proof.Machine.execDmaDbWr t ch reread s
  | .dmaRequestLine t ch line => Sys2Proof.Machine.execDmaRequestLine t ch line s
  | .dmaBurstComplete t ch burst => Sys2Proof.Machine.execDmaBurstComplete t ch burst s
  | .dmaReadbackDone t ch => Sys2Proof.Machine.execDmaReadbackDone t ch s
  | .dmaError t ch readSide err => Sys2Proof.Machine.execDmaError t ch readSide err s
  | .xlkHelloFrame t port hello => Sys2Proof.Machine.execXlkHelloFrame t port hello s
  | .xlkHelloTimeout t port => Sys2Proof.Machine.execXlkHelloTimeout t port s
  | .rootConverged t found => Sys2Proof.Machine.execRootConverged t found s
  | .assignFrame t unitId addr topoGen => Sys2Proof.Machine.execAssignFrame t unitId addr topoGen s
  | .addressHoldExpiry t unitId => Sys2Proof.Machine.execAddressHoldExpiry t unitId s
  | .linkstateSend t => Sys2Proof.Machine.execLinkstateSend t s
  | .linkstateFrame t src topoGen entries => Sys2Proof.Machine.execLinkstateFrame t src topoGen entries s
  | .fabricRescan t found peerBusy => Sys2Proof.Machine.execFabricRescan t found peerBusy s
  | .rescanFrame t topoGen => Sys2Proof.Machine.execRescanFrame t topoGen s
  | .xlkSyncSend t => Sys2Proof.Machine.execXlkSyncSend t s
  | .xlkSyncFrame t port frame => Sys2Proof.Machine.execXlkSyncFrame t port frame s
  | .timePpsEdge t highNs => Sys2Proof.Machine.execTimePpsEdge t highNs s
  | .positionBroadcast t => Sys2Proof.Machine.execPositionBroadcast t s
  | .positionFrame t frame => Sys2Proof.Machine.execPositionFrame t frame s
  | .positionSilence t => Sys2Proof.Machine.execPositionSilence t s
  | .peerStateSend t => Sys2Proof.Machine.execPeerStateSend t s
  | .peerStateFrame t frame => Sys2Proof.Machine.execPeerStateFrame t frame s
  | .bindFrame t ctx laneIdx rpt entries => Sys2Proof.Machine.execBindFrame t ctx laneIdx rpt entries s
  | .bindReqFrame t ctx laneIdx rpt => Sys2Proof.Machine.execBindReqFrame t ctx laneIdx rpt s
  | .rcheckFrame t ctx package count firstSeq crc => Sys2Proof.Machine.execRcheckFrame t ctx package count firstSeq crc s
  | .partialFrame t src ctx seq planes codes => Sys2Proof.Machine.execPartialFrame t src ctx seq planes codes s
  | .partialTimeout t ctx seq => Sys2Proof.Machine.execPartialTimeout t ctx seq s
  | .heartbeatSend t => Sys2Proof.Machine.execHeartbeatSend t s
  | .heartbeatFrame t hb => Sys2Proof.Machine.execHeartbeatFrame t hb s
  | .compareFrame t digests => Sys2Proof.Machine.execCompareFrame t digests s
  | .mirrorFrame t frame => Sys2Proof.Machine.execMirrorFrame t frame s
  | .swapFrame t x epoch step => Sys2Proof.Machine.execSwapFrame t x epoch step s
  | .heartbeatLoss t => Sys2Proof.Machine.execHeartbeatLoss t s
  | .takeoverRefusedAbandon t => Sys2Proof.Machine.execTakeoverRefusedAbandon t s
  | .leadReqEdge t high heldNs => Sys2Proof.Machine.execLeadReqEdge t high heldNs s
  | .leadReqConflict t => Sys2Proof.Machine.execLeadReqConflict t s
  | .pairRoleSwap t => Sys2Proof.Machine.execPairRoleSwap t s
  | .pairRoleRecompare t => Sys2Proof.Machine.execPairRoleRecompare t s
  | .sessionOpenChallenge t addr => Sys2Proof.Machine.execSessionOpenChallenge t addr s
  | .sessionOpenResponse t chalId x y sigR sigS => Sys2Proof.Machine.execSessionOpenResponse t chalId x y sigR sigS s
  | .sessionClose t => Sys2Proof.Machine.execSessionClose t s
  | .sessionIdleTimeout t => Sys2Proof.Machine.execSessionIdleTimeout t s
  | .authFailCompletion t => Sys2Proof.Machine.execAuthFailCompletion t s
  | .lcAdvance t target burn env => Sys2Proof.Machine.execLcAdvance t target burn env s
  | .otpBurn t word value burn => Sys2Proof.Machine.execOtpBurn t word value burn s
  | .otpFinalise t region burnLo burnHi => Sys2Proof.Machine.execOtpFinalise t region burnLo burnHi s
  | .otpRdAddr t word => Sys2Proof.Machine.execOtpRdAddr t word s
  | .otpReadDone t => Sys2Proof.Machine.execOtpReadDone t s
  | .tamperInput t n lowUs => Sys2Proof.Machine.execTamperInput t n lowUs s
  | .voltageDetector t rail millivolts => Sys2Proof.Machine.execVoltageDetector t rail millivolts s
  | .clockDetector t met permille => Sys2Proof.Machine.execClockDetector t met permille s
  | .temperatureDetector t celsius => Sys2Proof.Machine.execTemperatureDetector t celsius s
  | .secTamperClear t value => Sys2Proof.Machine.execSecTamperClear t value s
  | .metStartupCheck t flashOk c => Sys2Proof.Machine.execMetStartupCheck t flashOk c s
  | .weighingPoll t port => Sys2Proof.Machine.execWeighingPoll t port s
  | .weighingFrame t ch crcOk w => Sys2Proof.Machine.execWeighingFrame t ch crcOk w s
  | .noneFrame t ch crcOk => Sys2Proof.Machine.execNoneFrame t ch crcOk s
  | .errorFrame t ch crcOk code => Sys2Proof.Machine.execErrorFrame t ch crcOk code s
  | .weighingReplyTimeout t ch => Sys2Proof.Machine.execWeighingReplyTimeout t ch s
  | .metSealNEdge t high heldNs => Sys2Proof.Machine.execMetSealNEdge t high heldNs s
  | .lockstepMismatch t => Sys2Proof.Machine.execLockstepMismatch t s
  | .clkMetDeviation t permille => Sys2Proof.Machine.execClkMetDeviation t permille s
  | .priceSet t entries => Sys2Proof.Machine.execPriceSet t entries s
  | .laneMap t ctx entries => Sys2Proof.Machine.execLaneMap t ctx entries s
  | .channelReset t ch => Sys2Proof.Machine.execChannelReset t ch s
  | .auditRelease t anum loss => Sys2Proof.Machine.execAuditRelease t anum loss s
  | .paramWrite t block index record => Sys2Proof.Machine.execParamWrite t block index record s
  | .sealFinalise t approval burnOk => Sys2Proof.Machine.execSealFinalise t approval burnOk s
  | .reconcile t => Sys2Proof.Machine.execReconcile t s
  | .calRun t kind flags index arg speed gauge precondition => Sys2Proof.Machine.execCalRun t kind flags index arg speed gauge precondition s
  | .calMeasurementDone t m storeOk => Sys2Proof.Machine.execCalMeasurementDone t m storeOk s
  | .calRunTimeout t => Sys2Proof.Machine.execCalRunTimeout t s
  | .calRead t kind flags index addr => Sys2Proof.Machine.execCalRead t kind flags index addr s
  | .updBegin t cls length header => Sys2Proof.Machine.execUpdBegin t cls length header s
  | .updBlock t offset data => Sys2Proof.Machine.execUpdBlock t offset data s
  | .updEnd t => Sys2Proof.Machine.execUpdEnd t s
  | .updActivate t cls row env => Sys2Proof.Machine.execUpdActivate t cls row env s
  | .updConfirm t cls burnOk => Sys2Proof.Machine.execUpdConfirm t cls burnOk s
  | .updRevert t cls row env => Sys2Proof.Machine.execUpdRevert t cls row env s
  | .trialExpiry t env => Sys2Proof.Machine.execTrialExpiry t env s
  | .updRecGo t row header env => Sys2Proof.Machine.execUpdRecGo t row header env s
  | .recoveryUartBegin t length header crcOk => Sys2Proof.Machine.execRecoveryUartBegin t length header crcOk s
  | .recoveryUartBlock t offset data crcOk => Sys2Proof.Machine.execRecoveryUartBlock t offset data crcOk s
  | .recoveryUartEnd t crcOk env => Sys2Proof.Machine.execRecoveryUartEnd t crcOk env s
  | .logAdmission t => Sys2Proof.Machine.execLogAdmission t s
  | .logDrain t count readbackOk lost => Sys2Proof.Machine.execLogDrain t count readbackOk lost s
  | .logReadbackRetry t readbackOk => Sys2Proof.Machine.execLogReadbackRetry t readbackOk s
  | .logCtrlEnable t => Sys2Proof.Machine.execLogCtrlEnable t s
  | .logCtrlDisable t => Sys2Proof.Machine.execLogCtrlDisable t s
  | .logHostRd t value => Sys2Proof.Machine.execLogHostRd t value s
  | .itemHoldExpiry t ctx seq => Sys2Proof.Machine.execItemHoldExpiry t ctx seq s
  | .summaryTimer t => Sys2Proof.Machine.execSummaryTimer t s
  | .coalesceTimeout t => Sys2Proof.Machine.execCoalesceTimeout t s
  | .semAcquire t n func inst tag => Sys2Proof.Machine.execSemAcquire t n func inst tag s
  | .semRelease t n func inst tag => Sys2Proof.Machine.execSemRelease t n func inst tag s
  | .pioFuncWrite t m value => Sys2Proof.Machine.execPioFuncWrite t m value s
  | .gpioInputEdge t m high => Sys2Proof.Machine.execGpioInputEdge t m high s
  | .qrefLoss t quad => Sys2Proof.Machine.execQrefLoss t quad s
  | .qrefRestored t quad => Sys2Proof.Machine.execQrefRestored t quad s
  | .flr t => Sys2Proof.Machine.execFlr t s
  | .perstNAssert t => Sys2Proof.Machine.execPerstNAssert t s
  | .pcieCompletionTimeout t requester onFetch => Sys2Proof.Machine.execPcieCompletionTimeout t requester onFetch s
  | .rootPortLinkLoss t => Sys2Proof.Machine.execRootPortLinkLoss t s
  | .i2cGo t port value => Sys2Proof.Machine.execI2cGo t port value s
  | .i2cTransferDone t port nack arbLost received => Sys2Proof.Machine.execI2cTransferDone t port nack arbLost received s
  | .i2cSclTimeout t port => Sys2Proof.Machine.execI2cSclTimeout t port s
  | .readClear t addr => Sys2Proof.Machine.execReadClear t addr s
  | .registerWrite t addr value => Sys2Proof.Machine.execRegisterWrite t addr value s
  | .syncFollowTimeout t => Sys2Proof.Machine.execSyncFollowTimeout t s
  | .aonPowerOn t => Sys2Proof.Machine.execAonPowerOn t s
  | .rootPortLinkUp t speed width controllers => Sys2Proof.Machine.execRootPortLinkUp t speed width controllers s
  | .perstNRelease t speed width => Sys2Proof.Machine.execPerstNRelease t speed width s
  | .endpointLinkDown t => Sys2Proof.Machine.execEndpointLinkDown t s
  | .updTransferTimeout t => Sys2Proof.Machine.execUpdTransferTimeout t s
  | .tokenBucketRefill t fab => Sys2Proof.Machine.execTokenBucketRefill t fab s
  | .bulkdataFrame t port src dst hops bytes => Sys2Proof.Machine.execBulkdataFrame t port src dst hops bytes s
  | .uartReceive t port ch stopOk parityOk => Sys2Proof.Machine.execUartReceive t port ch stopOk parityOk s
  | .hbmRefreshDouble t stack celsius => Sys2Proof.Machine.execHbmRefreshDouble t stack celsius s
  | .tapInstruction t instr => Sys2Proof.Machine.execTapInstruction t instr s

end Sys2Proof.Machine
end

