-- ==== Sys2Proof/Machine/Step.lean ====
section
/-! DEFINITION. Step: the block takes the command at the front of its queue. -/

namespace Sys2Proof.Machine

/-- One step: the command at the front acts on the state with the queue's rest; on an empty queue one edge of CLK_RT
passes and nothing else happens (R509). -/
def step (s : State) : Host.Outcome State Fault Refusal :=
  match s.pending with
  | [] => .next s.idle
  | c :: rest => exec c { s with pending := rest }

/-- Put the command that a word spells at the front of the queue. -/
def State.withFetchWord (s : State) (nbits w : Nat) : State :=
  match decodeTableWord nbits w with
  | some c => { s with pending := c :: s.pending }
  | none => s

end Sys2Proof.Machine
end

