-- ==== Sys2Proof/Safety.lean ====
section
/-! DEFINITION. Safety: what every state of a run keeps. -/

namespace Sys2Proof.Machine

/-- Keys of a word map rise strictly. -/
def keysRise : List (Nat × Word) → Bool
  | [] => true
  | [_] => true
  | a :: b :: rest => decide (a.1 < b.1) && keysRise (b :: rest)

/-- The register words are in their canonical order. -/
def State.regsSorted (s : State) : Bool := keysRise s.regs

end Sys2Proof.Machine
end

