-- ==== Sys2Proof/Certificates/Slice0/Obligations.lean ====
section
/-! DEFINITION. Obligations: what the block is claimed to do. In every clause about a command, `after t s f` is the state
that the command leaves when it arrives at `t` and its effect is `f`: every field that `f` does not write keeps the value
it had, the queue is what stood behind the command, and time stands at the later of `t` and the time before. -/

namespace Sys2Proof.Claim

open Sys2Proof.Machine

/-- What a command whose effect is `f` leaves. -/
def after (t : Nat) (s : State) (f : State → State) : State :=
  { f (s.arrive t) with now := max s.now t, pending := s.pending }

/-- A command answers a next state of which `P` holds. -/
def Leaves (i : Instr) (s : State) (P : State → Prop) : Prop := ∃ s', exec i s = .next s' ∧ P s'

/-- A supervisor command answers with a status and changes nothing else. -/
def Refuses (i : Instr) (t : Nat) (s : State) (st : Status) : Prop :=
  exec i s = .next (after t s fun s => complete .supervisor st 0 s)

/-- An admitted sensitive command counts as activity of the session, where there is one (R389). -/
def used (s : State) : State :=
  { s with sec := { s.sec with session := s.sec.session.map fun y => { y with lastAct := s.now } } }

/-- A bit of a register word. -/
def bitOf (s : State) (r : RegSpec) (i b : Nat) : Bool := (s.rd r i).getLsbD b

/-- The motion hardware is as it was. -/
def SameMotion (s s' : State) : Prop := s'.ba = s.ba ∧ s'.sd = s.sd ∧ s'.stp = s.stp ∧ s'.enc = s.enc

/-- The print path is as it was: jobs, composition, codes, screening, mapping, pacing, waveforms and inspection. -/
def SamePrint (s s' : State) : Prop :=
  s'.jobs = s.jobs ∧ s'.cmp = s.cmp ∧ s'.clusters = s.clusters ∧ s'.cod = s.cod ∧ s'.planes = s.planes ∧
    s'.nzm = s.nzm ∧ s'.pac = s.pac ∧ s'.wav = s.wav ∧ s'.ins = s.ins ∧ s'.gov = s.gov

/-- The head link and the fabric are as they were; slewing of press time goes on. -/
def SameLinks (s s' : State) : Prop := s'.mlk = s.mlk ∧ ∃ x, s'.xlk = { s.xlk with slewFrac := x }

/-- Rings, semaphores, the host link and the low-speed blocks are as they were. -/
def SameHost (s s' : State) : Prop :=
  s'.supRing = s.supRing ∧ s'.admRing = s.admRing ∧ s'.jobRings = s.jobRings ∧ s'.sems = s.sems ∧ s'.pci = s.pci ∧
    s'.lsi = s.lsi

/-- Mode, structures, power, memories and data movers are as they were. -/
def SameSystem (s s' : State) : Prop :=
  s'.dev = s.dev ∧ s'.str = s.str ∧ s'.pwr = s.pwr ∧ s'.mem = s.mem ∧ s'.dma = s.dma

/-- What must not be lost or forged is as it was: security, OTP, the partition, calibration and the image slots. -/
def SameSecure (s s' : State) : Prop :=
  s'.sec = s.sec ∧ s'.otp = s.otp ∧ s'.met = s.met ∧ s'.cal = s.cal ∧ s'.calStore = s.calStore ∧ s'.fw = s.fw

end Sys2Proof.Claim

open Sys2Proof Sys2Proof.Machine Sys2Proof.Claim

/-! ## The queue -/

/-- The queue is first in, first out; idling is the model's choice (log entries 53 and 54). -/
def Obligations.StepRunsFront : Prop :=
  (∀ (c : Instr) (rest : List Instr) (s : State),
    step { s with pending := c :: rest } = exec c { s with pending := rest }) ∧
  (∀ s : State, s.pending = [] → step s = .next (s.arrive (s.now + 20)))

/-- Over all commands and any number of steps. -/
def Obligations.QueueInOrder : Prop :=
  ∀ (n : Nat) (s s' : State),
    (Nat.iterate (fun r : Option State => r.bind fun x => match step x with
      | .next y => some y
      | _ => none) n (some s)) = some s' →
    s'.pending = s.pending.drop n ∧ s.now ≤ s'.now

/-! ## Modes, holds and resets (chapter 03) -/

/-- MODE_SET (R44, R45). -/
def Obligations.ModeSet : Prop :=
  ∀ (t : Nat) (s : State), s.ringsRun = true → s.dev.activating = none →
    (s.dev.mode = .standby → s.dev.holdCause = 0 → s.dev.holdN = true → s.dev.fireEn = true →
      exec (.modeSet t 3) s = .next (after t s fun s =>
        complete .supervisor .ok 0 (sendHubMode true (s.modDev fun d => { d with mode := .service })))) ∧
    (s.dev.mode = .standby → s.dev.holdCause = 0 → s.dev.holdN = true → s.dev.fireEn = true → pairSettled s = true →
      exec (.modeSet t 4) s = .next (after t s fun s =>
        complete .supervisor .ok 0 (sendHubMode true (s.modDev fun d => { d with mode := .print })))) ∧
    (s.dev.mode = .service → s.dev.hold = false → serviceRuns s = false →
      exec (.modeSet t 2) s = .next (after t s fun s =>
        complete .supervisor .ok 0 (sendHubMode false (s.modDev fun d => { d with mode := .standby })))) ∧
    (s.dev.mode = .print → s.dev.hold = false → s.anyActive = false →
      exec (.modeSet t 2) s = .next (after t s fun s =>
        complete .supervisor .ok 0 (sendHubMode false (s.modDev fun d => { d with mode := .standby })))) ∧
    (s.dev.mode = .service → s.dev.holdN = true →
      exec (.modeSet t 3) s = .next (after t s fun s => complete .supervisor .ok 0 s)) ∧
    (∀ target, target = 0 ∨ 5 ≤ target → Refuses (.modeSet t target) t s .range) ∧
    (s.dev.mode = .print → Refuses (.modeSet t 3) t s .badMode) ∧
    (s.dev.mode = .standby → s.dev.holdN = false → Refuses (.modeSet t 4) t s .safety)

/-- Holds outside the running of jobs (R54, R57, R58); Holds in SERVICE and PRINT (R54 to R56). -/
def Obligations.HoldsStartAndEnd : Prop :=
  (∀ (t : Nat) (s : State),
    (s.dev.mode = .configure → exec (.holdNAssert t) s = .next (after t s fun s =>
      s.modDev fun d => { d with holdN := false, holdCause := d.holdCause ||| 1#8 })) ∧
    (∀ ns, 1000000 ≤ ns → exec (.holdNRelease t ns) s = .next (after t s fun s => s.modDev fun d => { d with holdN := true })) ∧
    (∀ ns, 1000 ≤ ns → exec (.fireEnAssert t ns) s = .next (after t s fun s => s.modDev fun d => { d with fireEn := true })) ∧
    (∀ ns, 1000 ≤ ns → s.modeIn [.service, .print] = false →
      exec (.fireEnDeassert t ns) s = .next (after t s fun s => s.modDev fun d => { d with fireEn := false })) ∧
    (∀ ns, ns < 1000 → exec (.fireEnDeassert t ns) s = .next (after t s id)) ∧
    (s.dev.hold = true → keptCauses s = 0 → exec (.holdClr t) s = .next (after t s fun s => s.modDev fun d =>
      { d with hold := false, holdClass := 0, holdCause := 0, mode := .standby, holdEndAt := some s.now })) ∧
    (s.dev.hold = true → s.dev.holdN = false → s.dev.holdCause.getLsbD 0 = true →
      exec (.holdClr t) s = .next (after t s id))) ∧
  (∀ (t : Nat) (s : State), s.modeIn [.service, .print] = true →
    (s.dev.hold = false →
      (∀ cls, cls < 4 → Leaves (.holdReq t cls) s fun s' => s'.dev.hold = true ∧ s'.dev.holdClass = max 1 cls ∧
        s'.dev.holdCause = s.dev.holdCause ||| 0x40#8 ∧ s'.dev.holdAt = (s.arrive t).press ∧ s'.dev.mode = s.dev.mode ∧
        s'.anyActive = false) ∧
      (Leaves (.holdNAssert t) s fun s' => s'.dev.hold = true ∧ s'.dev.holdClass = 3 ∧ s'.dev.holdN = false ∧
        s'.dev.holdCause = s.dev.holdCause ||| 1#8 ∧ s'.anyActive = false) ∧
      (∀ ns, 1000 ≤ ns → Leaves (.fireEnDeassert t ns) s fun s' => s'.dev.hold = true ∧ s'.dev.holdClass = 1 ∧
        s'.dev.fireEn = false ∧ s'.dev.holdCause = s.dev.holdCause ||| 2#8 ∧ s'.anyActive = false)) ∧
    (∀ cls, cls < 4 → s.dev.hold = true → max 1 cls ≤ s.dev.holdClass →
      exec (.holdReq t cls) s = .next (after t s fun s =>
        (s.setFld Reg.devCtrl 0 5 4 cls).modDev fun d => { d with holdCause := d.holdCause ||| 0x40#8 })))

/-- RST_N_ASSERT and AON_POWER_ON (R59, R460). -/
def Obligations.ResetKeeps : Prop :=
  ∀ (t : Nat) (s : State),
    (∀ ns, Leaves (.rstNAssert t ns) s fun s' =>
      s'.dev.mode = .boot ∧ s'.dev.rstN = false ∧ s'.supRing.enable = false ∧ s'.admRing.enable = false ∧
      (∀ n : Fin 64, (s'.jobRings[n]).enable = false ∧ (s'.jobs[n]).st = .free) ∧ s'.sems = s.sems.map Sem.break ∧
      s'.met.c = s.met.c ∧ s'.otp = s.otp ∧ s'.calStore = s.calStore ∧ s'.str.active = s.str.active ∧
      s'.str.staged = s.str.staged ∧ s'.str.prev = s.str.prev ∧ s'.fw.fwiActive = s.fw.fwiActive ∧
      s'.sec.tamper = s.sec.tamper ∧ s'.sec.session = none ∧ s'.rd Reg.secTamperCfg = s.rd Reg.secTamperCfg ∧
      s'.rd Reg.pacLead = Reg.pacLead.reset) ∧
    (Leaves (.aonPowerOn t) s fun s' =>
      s'.dev.mode = .boot ∧ s'.sems = Vector.replicate 64 .free ∧ s'.sec.tamper = 0 ∧ s'.otp = s.otp ∧
      s'.regs = [(0x14, 1#32)])

/-- DEV_WARM_RESET, WARM_RESET_BRAKE_DONE, BOOT_WATCHDOG_EXPIRY (R49, R64); FUNC_REINIT (R62). -/
def Obligations.Restarts : Prop :=
  (∀ (t : Nat) (s : State) (env : BootEnv),
    (s.ringsRun = true → s.anyAxisEn = false → s.anyActive = false →
      exec (.devWarmReset t 0#32 env) s = .next (after t s fun s => warmStart 2 env (complete .supervisor .ok 0 s))) ∧
    (s.ringsRun = true → s.anyAxisEn = true → Refuses (.devWarmReset t 0#32 env) t s .badState) ∧
    (s.ringsRun = true → Refuses (.devWarmReset t 2#32 env) t s .format) ∧
    (∀ w, s.dev.warmPending = some w → w.deadline ≤ max s.now t →
      exec (.warmResetBrakeDone t env) s = .next (after t s fun s => warmStart 2 env s)) ∧
    (∀ w, s.dev.mode = .boot → s.dev.watchdogAt = some w → w ≤ max s.now t →
      exec (.bootWatchdogExpiry t env) s = .next (after t s fun s =>
        warmStart 4 env (s.modDev fun d => { d with failed := min 255 (d.failed + 1) })))) ∧
  (∀ (t inst : Nat) (s : State), s.ringsRun = true →
    (exec (.funcReinit t 0x01 0 true) s = .next (after t s fun s => complete .supervisor .ok 0
      (((breakSemsOf 0x01 0 s).modStr fun x => { x with load := none, err := ⟨0, 0, 0⟩ }).modDev
        fun d => { d with disabled := d.disabled.filter (· != (0x01, 0)) }))) ∧
    (exec (.funcReinit t 0x01 0 false) s = .next (after t s fun s => complete .supervisor .timeout 0
      (((breakSemsOf 0x01 0 s).modStr fun x => { x with load := none, err := ⟨0, 0, 0⟩ }).modDev
        fun d => { d with disabled := (0x01, 0) :: d.disabled }))) ∧
    (inst < 5 → s.anyActive = false →
      exec (.funcReinit t 0x03 inst true) s = .next (after t s fun s => complete .supervisor .ok 0
        (((breakSemsOf 0x03 inst s).modCod fun c => { c with excl := c.excl &&& ~~~(1#5 <<< inst) }).modDev
          fun d => { d with disabled := d.disabled.filter (· != (0x03, inst)) }))) ∧
    (Refuses (.funcReinit t 0x11 inst true) t s .sealed) ∧
    (16 ≤ inst → Refuses (.funcReinit t 0x02 inst true) t s .range))

/-- RST_N_RELEASE (R11, R47, R48). -/
def Obligations.StartUp : Prop :=
  ∀ (t : Nat) (s : State) (env : BootEnv), s.dev.rstN = false →
    (List.range 6).find? (regionBad s) = none →
    (env.secureMarchOk = true → env.exchangeMarchOk = true → env.flashTableOk = true → env.reachesStep7 = true →
      env.activeFwiRow = 0 → s.fw.fwiActive.isSome = true → s.fw.trial = false → s.fw.pendActivate = false →
      s.fw.pendRevert = false → s.dev.failed < 2 → s.dev.fwiSlot = 0 → s.str.active = none →
      Leaves (.rstNRelease t env) s fun s' => s'.dev.mode = .configure ∧ s'.dev.rstN = true ∧ s'.dev.stage = 7 ∧
        s'.press = 0 ∧ bitOf s' Reg.devResetCause 0 (if bitOf s Reg.devResetCause 0 0 then 0 else 1) = true) ∧
    (env.secureMarchOk = false → Leaves (.rstNRelease t env) s fun s' =>
      s'.dev.mode = .recovery ∧ s'.dev.reason = 2 ∧ s'.dev.detail = 0 ∧ s'.dev.stage = 4)

/-- TRNG_READY, ENTROPY_WAIT_TIMEOUT, TRNG_TEST_FAIL, SEC_TRNG_DATA (R51, R401); KEY_INSTALL (R127). The wait for the TRNG is R51's. -/
def Obligations.EntropyAndKeys : Prop :=
  (∀ (t : Nat) (s : State),
    (∀ n, s.sec.entropyWait = none → exec (.trngReady t n) s = .next (after t s fun s => s.modSec fun x =>
      { x with trngSamples := min (x.trngSamples + n) 1024,
               trngReady := x.trngReady || decide (1024 ≤ x.trngSamples + n) })) ∧
    (∀ w since, s.sec.entropyWait = some (w, since) → since + 50 * ms8 ≤ max s.now t →
      exec (.entropyWaitTimeout t) s = .next (after t s fun s =>
        complete .supervisor .notReady 0 (s.modSec fun x => { x with entropyWait := none }))) ∧
    (Leaves (.trngTestFail t) s fun s' => s'.sec.trngReady = false ∧ s'.sec.trngSamples = 0 ∧
      bitOf s' Reg.evtAlarmLatch (Alarm.secTrngFail.code / 32) (Alarm.secTrngFail.code % 32) = true) ∧
    (s.ringsRun = true → s.sec.trngReady = true → exec (.secTrngData t) s = .next (after t s fun s =>
      { s with free := s.free + 1, out := [.readValue 0x400014 (BitVec.ofNat 32 (Config.freeValue s.free))] })) ∧
    (s.ringsRun = true → s.sec.trngReady = false → exec (.secTrngData t) s = .next (after t s fun s =>
      { s with out := [.readValue 0x400014 0] }))) ∧
  (∀ (t slot kind context : Nat) (label : Bytes) (s : State), s.ringsRun = true → sensitiveRefused s = false →
    (slot ≤ 31 → kind ≤ 3 → regionFinal s 2 = true → slotNamed s slot = false → s.mem.wipeFail = false →
      (s.sec.trngReady = true → s.mem.wiping = false →
        (kind = 0 → exec (.keyInstall t slot kind context label) s = .next (after t s fun s =>
          complete .supervisor .ok 0 ((used s).modCod fun c =>
            { c with slots := upd c.slots (Fin.ofNat 32 slot) fun _ => KeySlot.empty,
                     table := c.table.filter fun e => e.1 != slot }))) ∧
        (kind ≠ 0 → exec (.keyInstall t slot kind context label) s = .next (after t s fun s =>
          complete .supervisor .ok (filledSlot s kind context label).check ((used s).modCod fun c =>
            { c with slots := upd c.slots (Fin.ofNat 32 slot) fun _ => filledSlot s kind context label,
                     table := (c.table.filter fun e => e.1 != slot) ++ [(slot, kind, context, label)] })))) ∧
      (s.sec.trngReady = false → exec (.keyInstall t slot kind context label) s = .next (after t s fun s =>
        (used s).modSec fun x => { x with entropyWait := some (.key slot kind context label, s.now) }))) ∧
    (31 < slot ∨ 3 < kind → exec (.keyInstall t slot kind context label) s = .next (after t s fun s =>
      complete .supervisor .range 0 (used s))) ∧
    (slot ≤ 31 → kind ≤ 3 → regionFinal s 2 = false → exec (.keyInstall t slot kind context label) s = .next (after t s fun s =>
      complete .supervisor .badState 0 (used s))))

/-! ## Structures (chapter 02) -/

/-- STR_LOAD_BEGIN, STR_LOAD_BLOCK, STR_LOAD_END, STR_TRANSFER_TIMEOUT (R39, R40); STR_ACTIVATE and STR_ACTIVATION_DONE (R41, R42). -/
def Obligations.Structures : Prop :=
  (∀ (t : Nat) (s : State),
    (∀ length header, s.ringsRun = true → strOpen s = false → s.isDisabled 0x01 0 = false →
      exec (.strLoadBegin t length header) s = .next (after t s fun s =>
        if headerRow header (imageCtx s 2 length) = 0 then
          complete .supervisor .ok 0
            (s.modStr fun x => { x with err := ⟨0, 0, 0⟩, load := some (newTransfer s 2 length header) })
        else complete .supervisor (rowStatus (headerRow header (imageCtx s 2 length))) 0
          (s.modStr fun x => { x with err := ⟨0, 0, 0⟩ }))) ∧
    (∀ x offset data, s.ringsRun = true → s.str.load = some x → offset = x.data.length → 0 < data.length →
      data.length ≤ 65536 → x.data.length + data.length ≤ x.length →
      exec (.strLoadBlock t offset data) s = .next (after t s fun s =>
        if crcOk (x.data ++ data) (decide (x.data.length + data.length = x.length)) then
          complete .supervisor .ok 0
            (s.modStr fun y => { y with load := some { x with data := x.data ++ data, lastAt := s.now } })
        else complete .supervisor .integrity 0 (s.modStr fun y => { y with load := none }))) ∧
    (∀ x offset data, s.ringsRun = true → s.str.load = some x → offset ≠ x.data.length →
      exec (.strLoadBlock t offset data) s = .next (after t s fun s => complete .supervisor .range 0
        (s.modStr fun y => { y with load := none }))) ∧
    (∀ x, s.ringsRun = true → s.str.load = some x → x.data.length = x.length →
      signatureOk x.data (classDigest s x.cls) = false →
      exec (.strLoadEnd t) s = .next (after t s fun s => complete .supervisor .integrity 0
        (s.modStr fun y => { y with load := none }))) ∧
    (∀ x, s.ringsRun = true → s.str.load = some x → x.data.length = x.length →
      Leaves (.strLoadEnd t) s fun s' => s'.str.load = none ∧ s'.str.active = s.str.active ∧
        (s'.str.staged = s.str.staged ∨
          (s'.str.staged = some ⟨x.data⟩ ∧ (checkBody (Image.body ⟨x.data⟩)).isRight = true ∧
            signatureOk x.data (classDigest s x.cls) = true)) ∧
        ((checkBody (Image.body ⟨x.data⟩)).isRight = true → signatureOk x.data (classDigest s x.cls) = true →
          s'.str.staged = some ⟨x.data⟩)) ∧
    (∀ x, s.str.load = some x → x.lastAt + 10 * sec8 ≤ max s.now t →
      exec (.strTransferTimeout t) s = .next (after t s fun s => s.modStr fun y => { y with load := none }))) ∧
  (∀ (t : Nat) (s : State),
    (∀ slot, s.ringsRun = true → sensitiveRefused s = false → slot < 2 → s.modeIn [.configure, .standby] = true →
      contextsBusy s = false → s.anyAxisEn = false → (strSlot s slot).isSome = true → s.dev.activating = none →
      exec (.strActivate t slot) s = .next (after t s fun s =>
        parkPins ((dropStructure (used s)).modDev fun d =>
          { d with activating := some ⟨slot, s.now, false⟩, mode := .configure }))) ∧
    (∀ slot, s.ringsRun = true → sensitiveRefused s = false → s.dev.mode = .print →
      exec (.strActivate t slot) s = .next (after t s fun s => complete .supervisor .badMode 0 (used s))) ∧
    (∀ a i tb, s.dev.activating = some a → strSlot s a.slot = some i → checkBody i.body = .inr tb →
      exec (.strActivationDone t 0 true) s = .next (after t s fun s => complete .supervisor .ok 0
        (enterStandby ((installStructure tb (s.modDev fun d => { d with activating := none })).modStr (switchSlots a.slot))))) ∧
    (∀ a, s.dev.activating = some a → exec (.strActivationDone t 0 false) s = .next (after t s fun s =>
      complete .supervisor .integrity 0 (s.modDev fun d => { d with activating := none }))) ∧
    (∀ a row ok, s.dev.activating = some a → row ≠ 0 →
      exec (.strActivationDone t row ok) s = .next (after t s fun s => complete .supervisor (rowStatus row) 0
        ((s.modDev fun d => { d with activating := none }).modStr (emptySlot a.slot)))))

/-! ## Rings and jobs (chapter 04) -/

/-- RING_ENABLE, RING_DISABLE, RING_SQ_TAIL, RING_CQ_HEAD (R70, R71). That a head past the tail is refused is the
model's reading of R7 (log entry 60). -/
def Obligations.RingRegisters : Prop :=
  ∀ (t : Nat) (s : State) (id : RingId), s.ringsRun = true →
    (inWindow s id (ringBases s id).1 (64 * ringSize s id) = true →
      inWindow s id (ringBases s id).2 (16 * ringSize s id) = true →
      exec (.ringEnable t id) s = .next (after t s fun s => s.setRing id
        { s.ring id with enable := true, stopping := false, sqHead := 0, cqTail := 0, cqHead := 0, phase := true,
                         stalled := none })) ∧
    ((s.ring id).running = none → id ≠ .supervisor →
      exec (.ringDisable t id) s = .next (after t s fun s => s.setRing id { s.ring id with enable := false })) ∧
    ((s.ring id).running = none → id = .supervisor → Leaves (.ringDisable t id) s fun s' =>
      s'.supRing = { s.supRing with enable := false } ∧ s'.sec.session = none ∧ SameMotion s s' ∧ SamePrint s s') ∧
    ((s.ring id).running.isSome = true →
      exec (.ringDisable t id) s = .next (after t s fun s => s.setRing id { s.ring id with stopping := true })) ∧
    (∀ v f, v < ringSize s id → (s.ring id).enable = false →
      exec (.ringSqTail t id v f) s = .next (after t s fun s => s.setRing id { s.ring id with sqTail := v })) ∧
    (∀ v op tag n, v < ringSize s id → (s.ring id).enable = true → (s.ring id).stopping = false →
      (s.ring id).running = none → (s.ring id).stalled = none → (s.ring id).sqHead ≠ v → opcodeOn id op = true →
      exec (.ringSqTail t id v (.descriptor op tag n true)) s = .next (after t s fun s => s.setRing id
        { s.ring id with sqTail := v, sqHead := ((s.ring id).sqHead + 1) % ringSize s id,
                         running := some ⟨op, tag, n, s.now⟩ })) ∧
    (∀ v f, ringSize s id ≤ v → Leaves (.ringSqTail t id v f) s fun s' =>
      s'.ring id = { s.ring id with enable := false } ∧ bitOf s' Reg.evtAlarmLatch 0 2 = true ∧
      (id = .supervisor → s'.sec.session = none) ∧ SameMotion s s' ∧ SamePrint s s' ∧ s'.otp = s.otp) ∧
    (∀ v, cqPast id v s = true →
      exec (.ringCqHead t id v) s = .refused (.unpredictable "RING_CQ_HEAD past the completion tail")) ∧
    (∀ v, cqPast id v s = false → (s.ring id).stalled = none →
      exec (.ringCqHead t id v) s = .next (after t s fun s => s.setRing id { s.ring id with cqHead := v }))

/-- The completion of a command (R66, R68, R69). -/
def Obligations.Completions : Prop :=
  ∀ (s : State) (id : RingId) (c : Running) (st : Status) (result : Nat),
    (s.ring id).running = some c → (s.ring id).mute = false → (s.ring id).stopping = false →
    (cqFull s id = false →
      ((complete id st result s).ring id) =
        { s.ring id with running := none, stalled := none, cqTail := ((s.ring id).cqTail + 1) % ringSize s id,
                         phase := if ((s.ring id).cqTail + 1) % ringSize s id = 0 then !(s.ring id).phase
                                  else (s.ring id).phase } ∧
      .completion id (s.ring id).cqTail c.tag st.code (s.ring id).phase (s.ring id).sqHead result ∈
        (complete id st result s).out ∧
      (s.fld Reg.msixCtl (ringVector s id) 0 0 ≠ 1 → (c.noIrq = false ∨ st ≠ .ok) →
        .msix (ringVector s id) ∈ (complete id st result s).out)) ∧
    (cqFull s id = true →
      ((complete id st result s).ring id) =
        { s.ring id with running := none, stalled := some ⟨c.tag, st.code, result, c.noIrq⟩ } ∧
      (complete id st result s).out = s.out ∧ ringReady (complete id st result s) id = false) ∧
    (∀ other, other ≠ id → (complete id st result s).ring other = s.ring other)

/-- The vector of a completion (R69). -/
def Obligations.CompletionVector : Prop :=
  ∀ (id : RingId) (st : Status) (result : Nat) (c : Running) (s : State), (s.ring id).mute = false →
    (s.ring id).running = some c → cqFull s id = false →
    let quiet : Bool := c.noIrq && st == .ok
    let msg := Out.completion id (s.ring id).cqTail c.tag st.code (s.ring id).phase (s.ring id).sqHead result
    (s.fld Reg.msixCtl (ringVector s id) 0 0 ≠ 1 →
      (complete id st result s).out = s.out ++ (if quiet then [msg] else [msg, .msix (ringVector s id)]) ∧
      (complete id st result s).pci = s.pci) ∧
    (s.fld Reg.msixCtl (ringVector s id) 0 0 = 1 →
      (complete id st result s).out = s.out ++ [msg] ∧
      (complete id st result s).pci.msixPend =
        (if quiet then s.pci.msixPend else s.pci.msixPend ||| (1#256 <<< ringVector s id)))

/-- JOB_OPEN (R73). -/
def Obligations.JobOpen : Prop :=
  ∀ (t jobId req : Nat) (n : Fin 64) (s : State), s.ringsRun = true →
    ((s.jobs[n]).st = .free → (∀ m : Fin 64, m < n → (s.jobs[m]).st ≠ .free) →
      exec (.jobOpen t 0xFF jobId) s = .next (after t s fun s =>
        complete .admission .ok n (s.modJob n fun _ => { Job.free with st := .opened, jobId := jobId }))) ∧
    ((s.jobs[n]).st = .free → exec (.jobOpen t n jobId) s = .next (after t s fun s =>
      complete .admission .ok n (s.modJob n fun _ => { Job.free with st := .opened, jobId := jobId }))) ∧
    ((s.jobs[n]).st ≠ .free →
      exec (.jobOpen t n jobId) s = .next (after t s fun s => complete .admission .noContext 0 s)) ∧
    ((∀ m : Fin 64, (s.jobs[m]).st ≠ .free) →
      exec (.jobOpen t 0xFF jobId) s = .next (after t s fun s => complete .admission .noContext 0 s)) ∧
    (64 ≤ req → req ≤ 0xFE → exec (.jobOpen t req jobId) s = .next (after t s fun s => complete .admission .range 0 s))

/-- JOB_LOAD and JOB_RECORDS (R74, R78, R79). The refusal of a namespace that is not attached is log entry 60. -/
def Obligations.JobLoading : Prop :=
  ∀ (t address : Nat) (ctx : Fin 64) (data : Bytes) (s : State), s.ringsRun = true →
    (∀ offset, (s.jobs[ctx]).st = .opened → 0 < data.length → data.length ≤ 16777216 →
      offset = (s.jobs[ctx]).held.length →
      (48 ≤ (s.jobs[ctx]).held.length + data.length →
        offset + data.length ≤ u32 ((s.jobs[ctx]).held ++ data) 44) →
      inWindow s (.job ctx) address data.length = true →
      exec (.jobLoad t ctx false false address offset data 0) s = .next (after t s fun s =>
        complete (.job ctx) .ok 0 (s.modJob ctx fun j => { j with held := j.held ++ data }))) ∧
    (∀ offset, (s.jobs[ctx]).st = .opened → 0 < data.length → data.length ≤ 16777216 →
      offset = (s.jobs[ctx]).held.length → 48 ≤ (s.jobs[ctx]).held.length + data.length →
      offset + data.length = u32 ((s.jobs[ctx]).held ++ data) 44 → inWindow s (.job ctx) address data.length = true →
      Leaves (.jobLoad t ctx false true address offset data 0) s fun s' => (s'.jobs[ctx]).held = [] ∧
        (∀ n, n ≠ ctx → s'.jobs[n] = s.jobs[n]) ∧
        match checkPackage (s.str.tables.getD .empty) (slotKind s) (s.met.st == .absent) (packagesUsed s)
            ((s.jobs[ctx]).held ++ data) with
        | .inl _ => (s'.jobs[ctx]).st = .opened ∧ (s'.jobs[ctx]).pkg = (s.jobs[ctx]).pkg
        | .inr pk => (s'.jobs[ctx]).st = .loaded ∧ (s'.jobs[ctx]).pkg = some pk ∧ (s'.jobs[ctx]).nextSeq = pk.firstSeq) ∧
    (∀ offset last, (s.jobs[ctx]).st = .opened → 0 < data.length → data.length ≤ 16777216 →
      offset ≠ (s.jobs[ctx]).held.length →
      exec (.jobLoad t ctx false last address offset data 0) s = .next (after t s fun s =>
        complete (.job ctx) .range 0 (s.modJob ctx fun j => { j with held := [] }))) ∧
    (∀ offset last, (s.jobs[ctx]).st ≠ .opened →
      exec (.jobLoad t ctx false last address offset data 0) s = .next (after t s fun s =>
        complete (.job ctx) .badState 0 s)) ∧
    (∀ offset last code, (s.mem.js[storeIndex address]).attached = false →
      exec (.jobLoad t ctx true last address offset data code) s =
        .refused (.unpredictable "JOB_LOAD from a namespace that is not attached")) ∧
    (∀ pk count bytes st i, (s.jobs[ctx]).pkg = some pk → (s.jobs[ctx]).st = .loaded → (s.jobs[ctx]).lastQueued = false →
      recordsOutcome (s.arrive t) (s.jobs[ctx]) pk ctx address count bytes data = .inl (st, i) →
      exec (.jobRecords t ctx address count bytes data) s = .next (after t s fun s => complete (.job ctx) st i s)) ∧
    (∀ pk count bytes rs, (s.jobs[ctx]).pkg = some pk → (s.jobs[ctx]).st = .loaded → (s.jobs[ctx]).lastQueued = false →
      recordsOutcome (s.arrive t) (s.jobs[ctx]) pk ctx address count bytes data = .inr rs →
      Leaves (.jobRecords t ctx address count bytes data) s fun s' =>
        (s'.jobs[ctx]).queue = (s.jobs[ctx]).queue ++ rs ∧ (s'.jobs[ctx]).nextSeq = (s.jobs[ctx]).nextSeq + rs.length ∧
        (s'.jobs[ctx]).st = .loaded ∧ (∀ n, n ≠ ctx → s'.jobs[n] = s.jobs[n]) ∧ SameMotion s s' ∧ SameSecure s s')

/-- JOB_ARM, JOB_CAST_OFF, JOB_ABORT, JOB_CLOSE (R75, R82, R84, R85). That an aborted context is CLOSED at once is log
entry 61. -/
def Obligations.JobLifetime : Prop :=
  ∀ (t : Nat) (ctx : Fin 64) (s : State), s.ringsRun = true →
    (∀ castOn pk, (s.jobs[ctx]).st = .loaded → (s.jobs[ctx]).pkg = some pk →
      firstRefusal (armConds (s.arrive t) ctx pk castOn) = .ok → Leaves (.jobArm t ctx castOn) s fun s' =>
        (s'.jobs[ctx]).st = .armed ∧ (s'.jobs[ctx]).castOn = castOn ∧ (s'.jobs[ctx]).nextSlot = 0 ∧
        (s'.jobs[ctx]).queue = (s.jobs[ctx]).queue ∧ (∀ n, n ≠ ctx → s'.jobs[n] = s.jobs[n]) ∧
        SameMotion s s' ∧ SameSecure s s') ∧
    (∀ castOn, (s.jobs[ctx]).st = .loaded → (s.jobs[ctx]).pkg.isSome = true → s.dev.mode ≠ .print →
      exec (.jobArm t ctx castOn) s = .next (after t s fun s => complete (.job ctx) .badMode 0 s)) ∧
    (∀ castOn, (s.jobs[ctx]).st ≠ .loaded →
      exec (.jobArm t ctx castOn) s = .next (after t s fun s => complete (.job ctx) .badState 0 s)) ∧
    (∀ last pk, (s.jobs[ctx]).st = .armed → (s.jobs[ctx]).pkg = some pk → (s.jobs[ctx]).items = [] →
      Leaves (.jobCastOff t ctx last) s fun s' => (s'.jobs[ctx]).castOff = some last ∧
        (s'.jobs[ctx]).queue = (s.jobs[ctx]).queue.filter (fun q => decide (q.seq ≤ last)) ∧
        (s'.jobs[ctx]).lastQueued = decide (last < (s.jobs[ctx]).nextSeq) ∧ SameMotion s s') ∧
    ((s.jobs[ctx]).st.active = true → Leaves (.jobAbort t (.job ctx) ctx) s fun s' =>
      (s'.jobs[ctx]).st = .closed ∧ (s'.jobs[ctx]).items = [] ∧ (s'.jobs[ctx]).queue = [] ∧
      (s'.jobs[ctx]).jobId = (s.jobs[ctx]).jobId ∧ (∀ x ∈ s'.pac.slots, x.ctx ≠ ctx.val) ∧
      (∀ n, n ≠ ctx → s'.jobs[n] = s.jobs[n]) ∧ SameMotion s s') ∧
    (∀ ring, (s.jobs[ctx]).st = .closed →
      exec (.jobAbort t ring ctx) s = .next (after t s fun s => complete ring .ok 0 s)) ∧
    (∀ ring, (s.jobs[ctx]).st = .opened ∨ (s.jobs[ctx]).st = .loaded → Leaves (.jobClose t ring ctx) s fun s' =>
      s'.jobs[ctx] = Job.free ∧ (∀ n, n ≠ ctx → s'.jobs[n] = s.jobs[n]) ∧ SameMotion s s') ∧
    (∀ ring, (s.jobs[ctx]).st = .printing →
      exec (.jobClose t ring ctx) s = .next (after t s fun s => complete ring .badState 0 s))

/-! ## Composition and codes (chapters 05, 06) -/

/-- SLICE_DEAL, SLICE_COMPLETE, SLICE_TIMEOUT (R107 to R111, R313); ENGINE_REQUEST_TIMEOUT (R131). -/
def Obligations.Composing : Prop :=
  (∀ (t : Nat) (n : Fin 16) (s : State), s.ringsRun = true →
    (s.str.tables = none → exec (.sliceDeal t) s = .next (after t s id)) ∧
    (∀ tb d pk, s.str.tables = some tb →
      (byDeadline (deals (s.arrive t) tb)).find? (fun d => (clusterFor (s.arrive t) d.plane).isSome) = some d →
      clusterFor (s.arrive t) d.plane = some n → (s.jobs[d.ctx]).pkg = some pk → (s.jobs[d.ctx]).st.active = true →
      ((d.again = true ∨ d.plane.val ≠ leadPlane pk) → Leaves (.sliceDeal t) s fun s' =>
        (s'.clusters[n]).slice = some (d.plane.val, d.idx, d.ctx.val) ∧ (s'.clusters[n]).dealtAt = max s.now t ∧
        ⟨d.plane.val, d.idx, some n.val, max s.now t, false⟩ ∈ (s'.jobs[d.ctx]).slices ∧
        (∀ m, m ≠ n → s'.clusters[m] = s.clusters[m]) ∧ (∀ c, c ≠ d.ctx → s'.jobs[c] = s.jobs[c]) ∧
        s'.regs = s.regs ∧ SameMotion s s' ∧ SameLinks s s' ∧ SameHost s s' ∧ SameSystem s s' ∧ SameSecure s s') ∧
      (d.again = false → d.plane.val = leadPlane pk → isAuthority (s.arrive t) d.ctx = true →
        Leaves (.sliceDeal t) s fun s' =>
          slotsBelow pk ((d.idx + 1) * 512) ≤ (s'.jobs[d.ctx]).nextSlot ∨ lastBound (s'.jobs[d.ctx]) = true ∨
            (s'.jobs[d.ctx]).st.active = false)) ∧
    (∀ cycles, (s.clusters[n]).slice = none → exec (.sliceComplete t n cycles) s = .next (after t s id)) ∧
    (∀ cycles p i c, (s.clusters[n]).slice = some (p, i, c) → Leaves (.sliceComplete t n cycles) s fun s' =>
      (s'.clusters[n]).slice = none ∧
      (∀ x ∈ (s'.jobs[Fin.ofNat 64 c]).slices, x.plane = p → x.idx = i → x.complete = true) ∧
      (∀ m, m ≠ Fin.ofNat 64 c → s'.jobs[m] = s.jobs[m]) ∧ SameMotion s s' ∧ s'.otp = s.otp) ∧
    ((s.clusters[n]).slice.isSome = true → (s.clusters[n]).dealtAt + 32000000 ≤ max s.now t →
      Leaves (.sliceTimeout t n) s fun s' => (s'.clusters[n]).slice = none ∧ (s'.clusters[n]).excl = true ∧
        bitOf s' Reg.evtAlarmLatch 0 3 = true ∧ SameMotion s s' ∧ SameSecure s s') ∧
    (max s.now t < (s.clusters[n]).dealtAt + 32000000 → exec (.sliceTimeout t n) s = .next (after t s id))) ∧
  (∀ (t : Nat) (e : Fin 5) (s : State), s.ringsRun = true →
    (∀ r next, lateRequest (s.arrive t) e = some r → r.retried = false →
      (if e.val = 4 then some 4 else encoderFor s.cod.excl e) = some next →
      Leaves (.engineRequestTimeout t e) s fun s' => s'.cod.excl = s.cod.excl ||| (1#5 <<< e.val) ∧
        s'.cod.requests = s.cod.requests.filter (fun x => x != r) ++
          [{ r with engine := next, since := max s.now t, retried := true }] ∧
        bitOf s' Reg.evtAlarmLatch 0 4 = true ∧ s'.jobs = s.jobs ∧ SameMotion s s' ∧ SameSecure s s') ∧
    (∀ r, lateRequest (s.arrive t) e = some r → r.retried = true →
      Leaves (.engineRequestTimeout t e) s fun s' => s'.cod.excl = s.cod.excl ∧
        s'.cod.requests = s.cod.requests.filter (fun x => x != r) ∧
        (∀ it ∈ (s'.jobs[Fin.ofNat 64 r.ctx]).items, it.seq = r.seq → it.codes.getLsbD 9 = true) ∧
        SameMotion s s' ∧ SameSecure s s') ∧
    (∀ r, lateRequest (s.arrive t) e = some r → r.retried = false → e.val ≠ 4 → encoderFor s.cod.excl e = none →
      Leaves (.engineRequestTimeout t e) s fun s' => s'.cod.excl = s.cod.excl ||| (1#5 <<< e.val) ∧
        s'.cod.requests = s.cod.requests.filter (fun x => x != r) ∧
        (∀ it ∈ (s'.jobs[Fin.ofNat 64 r.ctx]).items, it.seq = r.seq → it.codes.getLsbD 9 = true)) ∧
    (lateRequest (s.arrive t) e = none → exec (.engineRequestTimeout t e) s = .next (after t s id)))

/-- VCOMP_UPDATE and VCODE_UPDATE (R112, R113, R132), speeds in whole µm/s rounded down (log entry 62). -/
def Obligations.SupportedSpeeds : Prop :=
  ∀ (t : Nat) (s : State), s.ringsRun = true →
    (∃ c : Cmp, exec (.vcompUpdate t) s = .next (after t s fun s => { s with cmp := c }) ∧
      (s.anyActive = false → c.vbase = 10000000) ∧
      (∀ y m, s.anyActive = true → y = c.cycles.sum → m = windowMove c.cycles.pos s.pac.est.p →
        c.vbase = if 1000000 ≤ m then min 10000000 (if y = 0 then 10000000 else 900 * s.pwr.kcomp * m / y)
                  else s.cmp.vbase) ∧
      c.runwayLow = runwayLow s ∧ (c.runwayLow = false → c.vcomp = c.vbase) ∧
      (c.runwayLow = true → c.vcomp ≤ c.vbase ∧ 100 * c.vcomp ≤ 95 * (webSpeed (s.arrive t)).toNat)) ∧
    (∃ k : Cod, exec (.vcodeUpdate t) s = .next (after t s fun s => { s with cod := k }) ∧
      (s.anyActive = false → k.vcode = 10000000) ∧ k.excl = s.cod.excl ∧ k.slots = s.cod.slots ∧
      (∀ u g m, s.anyActive = true → u = k.syms.sum → g = k.tags.sum → m = windowMove k.syms.pos s.pac.est.p →
        (m < 1000000 → k.vcode = s.cod.vcode) ∧
        (1000000 ≤ m → 0 < u → 0 < g → k.vcode = min 10000000 (min (180 * m / u) (360 * m / g))) ∧
        (1000000 ≤ m → u = 0 → g = 0 → k.vcode = 10000000)))

/-! ## Screening, darning and the fire-supported speed (chapters 07, 08) -/

/-- COURSE_SCREEN. -/
def Obligations.CourseScreen : Prop :=
  ∀ (t : Nat) (p : Fin 8) (s : State), s.ringsRun = true →
    (∀ tb ctx pk pr, s.str.tables = some tb → screenJob (s.arrive t) p = some ctx → (s.jobs[ctx]).pkg = some pk →
      s.planeRec p = some pr → (s.dummy = false ∨ (s.xlk.mirror.gens = [] ∧ s.xlk.mirror.underruns = [])) →
      (screenReady s p (s.jobs[ctx]) pk = true → Leaves (.courseScreen t p) s fun s' =>
        (∃ x, (s'.planes[p]).runway = (s.planes[p]).runway ++ [x] ∧ x.ctx = ctx.val ∧
          x.course = ((s.jobs[ctx]).planes[p]).screened ∧ x.gen = (s.planes[p]).genNo) ∧
        ((s'.jobs[ctx]).planes[p]).screened = ((s.jobs[ctx]).planes[p]).screened + 1 ∧
        (∀ q, q ≠ p → (s'.planes[q]).runway = (s.planes[q]).runway) ∧ (∀ c, c ≠ ctx → s'.jobs[c] = s.jobs[c]) ∧
        SameMotion s s' ∧ s'.otp = s.otp) ∧
      (screenReady s p (s.jobs[ctx]) pk = false → exec (.courseScreen t p) s = .next (after t s id))) ∧
    (s.str.tables = none → exec (.courseScreen t p) s = .next (after t s id))

/-- NZM_UPD_ENTRY, NZM_COMMIT, NZM_DISCARD (R163, R166); GENERATION_INSTALL (R152, R164). -/
def Obligations.NozzleMaps : Prop :=
  (∀ (t : Nat) (w : Word) (s : State), s.ringsRun = true →
    (nzmOpen s = true → (mapEntryOf w).code ≠ 3 → s.nzm.staging.length < 256 →
      exec (.nzmUpdEntry t w) s = .next (after t s fun s =>
        s.modNzm fun n => { n with staging := n.staging ++ [mapEntryOf w] })) ∧
    (nzmOpen s = true → (mapEntryOf w).code ≠ 3 → 256 ≤ s.nzm.staging.length →
      exec (.nzmUpdEntry t w) s = .next (after t s fun s => s.setFld Reg.nzmUpdCtrl 0 16 16 1)) ∧
    (nzmOpen s = false ∨ (mapEntryOf w).code = 3 →
      exec (.nzmUpdEntry t w) s = .next (after t s fun s => s.setFld Reg.nzmUpdCtrl 0 17 17 1)) ∧
    (nzmOpen s = true → s.xlk.role ≠ .dummy → s.nzm.staging ≠ [] → (∀ e ∈ s.nzm.staging, entryValid s e = true) →
      s.nzm.pend.length + s.nzm.staging.length ≤ 16384 →
      exec (.nzmCommit t) s = .next (after t s fun s =>
        s.modNzm fun n => { n with staging := [], pend := n.pend ++ n.staging, busy := false })) ∧
    (nzmOpen s = true → s.xlk.role ≠ .dummy → (∀ e ∈ s.nzm.staging, entryValid s e = true) →
      16384 < s.nzm.pend.length + s.nzm.staging.length →
      exec (.nzmCommit t) s = .next (after t s fun s => s.modNzm fun n => { n with busy := true })) ∧
    (nzmOpen s = true → s.xlk.role ≠ .dummy → s.nzm.staging ≠ [] → (∀ e ∈ s.nzm.staging, entryValid s e = false) →
      s.nzm.pend.length ≤ 16384 →
      exec (.nzmCommit t) s = .next (after t s fun s => (s.modNzm fun n =>
        { n with staging := [], busy := false }).setFld Reg.nzmUpdCtrl 0 17 17 1)) ∧
    (nzmOpen s = true → exec (.nzmDiscard t) s = .next (after t s fun s => s.modNzm fun n => { n with staging := [] })) ∧
    (nzmOpen s = false → exec (.nzmDiscard t) s = .next (after t s fun s => s.setFld Reg.nzmUpdCtrl 0 17 17 1))) ∧
  ((∀ (t : Nat) (p : Fin 8) (tb : StructTables) (s : State), s.ringsRun = true → s.str.tables = some tb →
    s.xlk.role ≠ .dummy →
    (planePending s tb p ≠ [] → installDue s p = true → Leaves (.generationInstall t p) s fun s' =>
      (s'.planes[p]).genNo = (s.planes[p]).genNo + 1 ∧ (s'.planes[p]).sinceInstall = some 0 ∧
      (s'.planes[p]).health =
        ((((planePending s tb p).take 4096).filter fun e => !e.host) ++
          ((planePending s tb p).take 4096).filter fun e => e.host).foldl applyEntry (s.planes[p]).health ∧
      (∀ q, q ≠ p → s'.planes[q] = s.planes[q]) ∧ s'.jobs = s.jobs ∧ SameMotion s s' ∧ SameSecure s s') ∧
    (planePending s tb p = [] → (s.planes[p]).forced = false →
      exec (.generationInstall t p) s = .next (after t s id)) ∧
    (installDue s p = false → exec (.generationInstall t p) s = .next (after t s id))) ∧
  (∀ (l : List (Nat × Nat × Nat)) (es : List MapEntry) (h n : Nat), (∀ e ∈ es, e.host = false) →
    codeIn l h n = 2 → codeIn (es.foldl applyEntry l) h n = 2) ∧
  (∀ (l : List (Nat × Nat × Nat)) (e : MapEntry), e.host = true → codeIn (applyEntry l e) e.head e.nozzle = e.code))

/-- VFIRE_UPDATE (R156). -/
def Obligations.FireSpeed : Prop :=
  ∀ (t : Nat) (s : State), s.ringsRun = true →
    (s.str.tables = none → exec (.vfireUpdate t) s = .next (after t s fun s =>
      s.modNzm fun n => { n with vfire := 10000000, rateUnknown := false })) ∧
    (∀ tb, s.str.tables = some tb → ∃ v u, exec (.vfireUpdate t) s = .next (after t s fun s =>
        s.modNzm fun n => { n with vfire := v, rateUnknown := u }) ∧
      v ≤ 10000000 ∧ (∀ x ∈ runningPlanes s, ∀ w, planeSpeed s tb x.1 x.2 = some w → v ≤ w) ∧
      (v = 10000000 ∨ ∃ x ∈ runningPlanes s, planeSpeed s tb x.1 x.2 = some v) ∧
      (u = true ↔ ∃ x ∈ runningPlanes s, ∃ h ∈ planePrinters s tb x.2, headCeiling s tb h.1 = none))

/-! ## The pacer (chapter 09) and encoder inputs (chapter 15) -/

/-- PAC_ZERO, PAC_SRC_WRITE, GEAR_PUSH, GEAR_SET, GEAR_CLEAR, HANDOVER_ARM, HANDOVER_CANCEL. -/
def Obligations.MasterSettings : Prop :=
  ∀ (t : Nat) (w : Word) (s : State), s.ringsRun = true →
    (s.dev.mode = .standby → srcKind (s.rd Reg.pacSrc) ≠ 3 →
      exec (.pacZero t) s = .next (after t s fun s => s.modPac fun p => { p with zeroPend := true, zeroAfter := none })) ∧
    (s.dev.mode = .standby → srcKind (s.rd Reg.pacSrc) = 3 →
      exec (.pacZero t) s = .next (after t s fun s => s.recordErr Reg.pacErr 0 0x04 .badState)) ∧
    (s.dev.mode = .standby → s.regsSorted = true → Leaves (.pacSrcWrite t w) s fun s' =>
      s'.rd Reg.pacSrc = w &&& Reg.pacSrc.rw ∧ s'.pac.est.locked = false ∧ s'.pac.est.edges = 0 ∧
      (srcKind w ≠ 3 → s'.pac.est.p = masterNow (s.arrive t)) ∧
      (∀ f, srcKind w = 3 → s.xlk.posRef = some f → s'.pac.est.p = f.p) ∧ s'.pac.gears = s.pac.gears ∧ s'.jobs = s.jobs ∧ SameMotion s s') ∧
    (s.dev.mode = .standby → Leaves (.gearSet t) s fun s' =>
      let p := gearPlane s
      (s'.pac.gears[p]).ratio = (s.rd Reg.pacGearRatio).toNat ∧
      (s'.pac.gears[p]).pos (masterNow (s.arrive t)) = (s.pac.gears[p]).pos (masterNow (s.arrive t)) ∧
      (s'.pac.gears[p]).mseg = masterNow (s.arrive t) ∧ (s'.pac.gears[p]).pend = (s.pac.gears[p]).pend ∧
      (∀ q, q ≠ p → s'.pac.gears[q] = s.pac.gears[q]) ∧ s'.pac.est = s.pac.est ∧ s'.regs = s.regs ∧ s'.jobs = s.jobs ∧
      SameMotion s s') ∧
    (s.dev.mode = .standby → exec (.gearClear t) s = .next (after t s fun s => s.modPac fun p =>
      { p with gears := upd p.gears (gearPlane s) fun g => { g with pend := [] } })) ∧
    (s.dev.mode ≠ .standby →
      exec (.pacZero t) s = .next (after t s fun s => s.recordErr Reg.pacErr 0 0x04 .badState) ∧
      exec (.pacSrcWrite t w) s = .next (after t s fun s => s.recordErr Reg.pacErr 0 0x08 .badState) ∧
      exec (.gearSet t) s = .next (after t s fun s => s.recordErr Reg.pacErr 0 0x50 .badState) ∧
      exec (.gearClear t) s = .next (after t s fun s => s.recordErr Reg.pacErr 0 0x50 .badState)) ∧
    (firstRefusal (gearPushConds (s.arrive t)) = .ok → exec (.gearPush t) s = .next (after t s fun s => s.modPac fun p =>
      { p with gears := upd p.gears (gearPlane s) fun g =>
          { g with pend := g.pend ++ [(s.rd64 Reg.pacGearPosLo Reg.pacGearPosHi, (s.rd Reg.pacGearRatio).toNat)] } })) ∧
    (s.modeIn [.standby, .service, .print] = true → 16 ≤ (s.pac.gears[gearPlane s]).pend.length →
      exec (.gearPush t) s = .next (after t s fun s => s.recordErr Reg.pacErr 0 0x50 .busy)) ∧
    (s.modeIn [.standby, .service, .print] = true → (s.pac.gears[gearPlane s]).pend.length < 16 →
      ((s.rd Reg.pacGearRatio).toNat < 0x20000000 ∨ 0x60000000 < (s.rd Reg.pacGearRatio).toNat) →
      exec (.gearPush t) s = .next (after t s fun s => s.recordErr Reg.pacErr 0 0x50 .range)) ∧
    (firstRefusal (handoverConds w (s.arrive t)) = .ok → Leaves (.handoverArm t w) s fun s' =>
      (∃ d, s'.pac.handover = some ⟨w &&& Reg.pacHoSrc.rw, s.rd64 Reg.pacHoPosLo Reg.pacHoPosHi, d⟩) ∧
      s'.pac.est = s.pac.est ∧ s'.regs = s.regs ∧ s'.jobs = s.jobs ∧ SameMotion s s') ∧
    (s.pac.cand.locked = false →
      exec (.handoverArm t w) s = .next (after t s fun s => s.recordErr Reg.pacErr 0 0x38 .notReady)) ∧
    (exec (.handoverCancel t) s = .next (after t s fun s => s.modPac fun p => { p with handover := none }))

/-- ENCODER_INPUT_CHANGE, MINSP_ACCEPT, INDEX_PULSE, LOCK_TIMEOUT (R170, R298 to R300). Which direction counts up is log
entry 32. -/
def Obligations.EncoderEdges : Prop :=
  ∀ (t : Nat) (n : Fin 16) (a b : Bool) (s : State),
    (s.fld Reg.encCfg n 18 18 ≠ 1 → exec (.encoderInputChange t n a b) s = .next (after t s fun s =>
      s.modEnc n fun e => { e with a := a, b := b })) ∧
    (s.fld Reg.encCfg n 18 18 = 1 → s.isDisabled 0x0C n = false → ((s.enc[n]).a ≠ a ∨ (s.enc[n]).b ≠ b) →
      ((a ≠ (s.enc[n]).accA) ≠ (b ≠ (s.enc[n]).accB)) → tooSoon (s.arrive t) n = false →
      Leaves (.encoderInputChange t n a b) s fun s' =>
        (s'.enc[n]).c = (if (quadPhase a b == (quadPhase (s.enc[n]).accA (s.enc[n]).accB + 1) % 4) ≠
            (s.fld Reg.encCfg n 16 16 == 1) then (s.enc[n]).c + 1 else (s.enc[n]).c - 1) ∧
        (s'.enc[n]).accA = a ∧ (s'.enc[n]).accB = b ∧ (∀ m, m ≠ n → s'.enc[m] = s.enc[m])) ∧
    (s.fld Reg.encCfg n 18 18 = 1 → s.isDisabled 0x0C n = false → ((s.enc[n]).a ≠ a ∨ (s.enc[n]).b ≠ b) →
      (tooSoon (s.arrive t) n = true ∨ (a ≠ (s.enc[n]).accA ∧ b ≠ (s.enc[n]).accB)) →
      Leaves (.encoderInputChange t n a b) s fun s' => (s'.enc[n]).c = (s.enc[n]).c ∧
        (s'.rd Reg.encRej n).toNat = min ((s.rd Reg.encRej n).toNat + 1) 0xFFFFFFFF ∧
        (∀ m, m ≠ n → s'.enc[m] = s.enc[m])) ∧
    (s.fld Reg.encCfg n 18 18 = 1 → s.isDisabled 0x0C n = false → tooSoon (s.arrive t) n = false →
      (((s.enc[n]).a ≠ (s.enc[n]).accA) ≠ ((s.enc[n]).b ≠ (s.enc[n]).accB)) → Leaves (.minspAccept t n) s fun s' =>
        ((s'.enc[n]).c = (s.enc[n]).c + 1 ∨ (s'.enc[n]).c = (s.enc[n]).c - 1) ∧ (s'.enc[n]).accA = (s.enc[n]).a ∧
        (s'.enc[n]).accB = (s.enc[n]).b ∧ (∀ m, m ≠ n → s'.enc[m] = s.enc[m])) ∧
    (tooSoon (s.arrive t) n = true → exec (.minspAccept t n) s = .next (after t s id)) ∧
    (∀ ns, s.fld Reg.encCfg n 18 18 = 1 → minsp8 s n ≤ 8 * ns → Leaves (.indexPulse t n ns) s fun s' =>
      (s'.enc[n]).idx = (s.enc[n]).c ∧ (s'.enc[n]).c = (s.enc[n]).c ∧ bitOf s' Reg.encStatus n 0 = true ∧
      (∀ m, m ≠ n → s'.enc[m] = s.enc[m])) ∧
    (∀ ns, (8 * ns < minsp8 s n ∨ s.fld Reg.encCfg n 18 18 ≠ 1) → exec (.indexPulse t n ns) s = .next (after t s fun s =>
      s.modEnc n fun e => { e with i := s.fld Reg.encCfg n 17 17 == 0 })) ∧
    (srcKind (s.rd Reg.pacSrc) = 1 →
      s.pac.est.t8 + s.fld Reg.pacLockCfg 0 31 16 * 8000 < (s.arrive t).press - 60 → s.pac.est.locked = true →
      Leaves (.lockTimeout t) s fun s' => s'.pac.est.locked = false ∧ s'.pac.est.edges = 0 ∧ s'.enc = s.enc) ∧
    (s.pac.est.locked = false → s.pac.cand.locked = false → exec (.lockTimeout t) s = .next (after t s id))

/-- FIRE_COMMAND_SEND, SLOT_INSTANT_PASSED, FIRE_RECOMPUTE (R171, R178 to R181). -/
def Obligations.FireCommands : Prop :=
  ∀ (t : Nat) (p r : Fin 8) (s : State), s.ringsRun = true →
    (s.pac.est.locked = false → exec (.fireCommandSend t p r) s = .next (after t s id)) ∧
    (∀ tb x pk raw, s.str.tables = some tb →
      s.pac.slots.find? (fun x => x.plane == p.val && x.row == r.val && x.st == .waiting) = some x →
      (s.jobs[Fin.ofNat 64 x.ctx]).pkg = some pk → s.pac.est.locked = true → hubArmed s = true → s.dummy = false →
      s.xlk.swap = none → s.isDisabled 0x05 0 = false →
      instantsOf s p (slotTargets s tb (s.jobs[Fin.ofNat 64 x.ctx]) pk p x.row x.course) = some raw →
      (((raw.map (·.2)).min?).getD 0 : Nat) ≤ (s.arrive t).press + 8 * s.fld Reg.pacLead 0 15 0 →
      ((∀ sh, behindHighest s p (slotTargets s tb (s.jobs[Fin.ofNat 64 x.ctx]) pk p x.row x.course) = false →
        latchShift (s.arrive t) pk x raw = some sh → Leaves (.fireCommandSend t p r) s fun s' =>
          (∃ y ∈ s'.pac.slots, y.same x = true ∧ y.st = .sent ∧ y.instants = raw.map (fun i => (i.1, i.2 + sh))) ∧
          (∀ n ∈ x.num, ∃ i pl, .hub n.1 (.fire n.2 i pl) ∈ s'.out)) ∧
       ((behindHighest s p (slotTargets s tb (s.jobs[Fin.ofNat 64 x.ctx]) pk p x.row x.course) = true ∨
          latchShift (s.arrive t) pk x raw = none) → Leaves (.fireCommandSend t p r) s fun s' =>
          (∀ y ∈ s'.pac.slots, x.same y = false) ∧
          (s'.rd Reg.pacMissed p).toNat = min ((s.rd Reg.pacMissed p).toNat + 1) 0xFFFFFFFF))) ∧
    (∀ tb x, s.str.tables = some tb →
      s.pac.slots.find? (fun x => x.plane == p.val && x.row == r.val && x.st == .sent) = some x →
      (x.base ≤ (s.arrive t).press → Leaves (.slotInstantPassed t p r) s fun s' =>
        (∀ y ∈ s'.pac.slots, x.same y = true → y.st = .fired ∧ x.unconfirmed ≠ []) ∧ SameMotion s s') ∧
      ((s.arrive t).press < x.base → exec (.slotInstantPassed t p r) s = .next (after t s id))) ∧
    (Leaves (.fireRecompute t) s fun s' => (∀ y ∈ s'.pac.slots, ∃ x ∈ s.pac.slots, x.same y = true) ∧
      s'.pac.est = s.pac.est ∧ s'.pac.gears = s.pac.gears)

/-- COURSE_TAKE and UNDERRUN_DECISION (R107, R216, R245, R246). -/
def Obligations.CourseTaking : Prop :=
  ∀ (t : Nat) (p : Fin 8) (s : State), s.ringsRun = true →
    (∀ tb c rest, s.str.tables = some tb → (s.planes[p]).runway = c :: rest →
      (s.jobs[Fin.ofNat 64 c.ctx]).st.active = true →
      (scheduledRows c.cells).all (fun r => (rowHubs tb p r).all (hubRoom s)) = true →
      Leaves (.courseTake t p) s fun s' => (s'.planes[p]).runway = rest ∧
        (((s.jobs[Fin.ofNat 64 c.ctx]).planes[p]).passed.contains c.course = false →
          ∃ l, s'.pac.slots = s.pac.slots ++ l ∧ l.map (·.row) = scheduledRows c.cells ∧
            ∀ x ∈ l, x.plane = p.val ∧ x.ctx = c.ctx ∧ x.course = c.course ∧ x.st = .waiting) ∧
        (((s.jobs[Fin.ofNat 64 c.ctx]).planes[p]).passed.contains c.course = true → s'.pac.slots = s.pac.slots) ∧
        (∀ q, q ≠ p → (s'.planes[q]).runway = (s.planes[q]).runway) ∧ SameMotion s s') ∧
    ((s.planes[p]).runway = [] → exec (.courseTake t p) s = .next (after t s id)) ∧
    (∀ tb c pk, s.str.tables = some tb → s.pac.est.locked = true → s.xlk.role ≠ .dummy →
      (List.finRange 64).find? (fun c => underrunDue (s.arrive t) tb p (s.jobs[c])) = some c → (s.jobs[c]).pkg = some pk →
      Leaves (.underrunDecision t p) s fun s' =>
        ((s'.jobs[c]).planes[p]).screened = ((s.jobs[c]).planes[p]).screened + 1 ∧
        (s'.rd Reg.govUnderrun p).toNat = min ((s.rd Reg.govUnderrun p).toNat + 1) 0xFFFFFFFF ∧
        (pk.policy % 2 = 1 → s.modeIn [.service, .print] = true → s'.dev.hold = true)) ∧
    (s.pac.est.locked = false → exec (.underrunDecision t p) s = .next (after t s id))

/-! ## Waveforms, temperatures and energy (chapter 10) -/

/-- WAV_TBL_WRITE, WAV_TBL_READ, WG_ACTIVE_SLOT_WRITE, WAVEFORM_ACK_TIMEOUT (R187, R189, R190); SCALE_UPDATE, TEMP_FRAME, TEMP_STALE, WAV_TEMP_LOST (R193, R195). -/
def Obligations.Waves : Prop :=
  (∀ (t : Nat) (s : State), s.ringsRun = true →
    (firstRefusal (tblRefusals s) = .ok → Leaves (.wavTblWrite t) s fun s' =>
      s'.poolTable (s.fld Reg.wavTblSel 0 9 0) = some (stagingWords s) ∧
      (∀ k, k ≠ s.fld Reg.wavTblSel 0 9 0 → s'.poolTable k = s.poolTable k) ∧ s'.wav.wgs = s.wav.wgs ∧
      s'.regs = s.regs ∧ s'.jobs = s.jobs ∧ SameMotion s s' ∧ SameSecure s s') ∧
    (namedActive s (s.fld Reg.wavTblSel 0 9 0) = true → s.dev.mode = .print →
      exec (.wavTblWrite t) s = .next (after t s fun s => s.recordErr Reg.wavErr 0 0x24 .badState)) ∧
    (namedActive s (s.fld Reg.wavTblSel 0 9 0) = false → s.wav.tblBusy = [] → tblRefused (stagingWords s) = true →
      exec (.wavTblWrite t) s = .next (after t s fun s => s.recordErr Reg.wavErr 0 0x24 .range)) ∧
    (namedActive s (s.fld Reg.wavTblSel 0 9 0) = false → s.wav.tblBusy ≠ [] →
      exec (.wavTblWrite t) s = .next (after t s fun s => s.recordErr Reg.wavErr 0 0x24 .busy)) ∧
    (s.regsSorted = true → Leaves (.wavTblRead t) s fun s' =>
      stagingWords s' = (List.range 32).map (fun i =>
        (((s.poolTable (s.fld Reg.wavTblSel 0 9 0)).getD [])[i]?).getD 0) ∧ s'.wav = s.wav ∧ s'.jobs = s.jobs ∧
      SameMotion s s') ∧
    (∀ w, s.modeIn [.standby, .service] = true → s.wav.wgBusy = [] → Leaves (.wgActiveSlotWrite t w) s fun s' =>
      s'.wg (s.fld Reg.wavWgSel 0 10 0) = { s.wg (s.fld Reg.wavWgSel 0 10 0) with active := bitsOf w 2 0 } ∧
      (∀ k, k ≠ s.fld Reg.wavWgSel 0 10 0 → s'.wg k = s.wg k) ∧ s'.wav.pool = s.wav.pool ∧ s'.regs = s.regs ∧
      s'.jobs = s.jobs ∧ SameMotion s s' ∧ SameSecure s s') ∧
    (∀ w, s.modeIn [.standby, .service] = false →
      exec (.wgActiveSlotWrite t w) s = .next (after t s fun s => s.recordErr Reg.wavErr 0 0x104 .badState)) ∧
    (∀ h : Fin 48, exec (.waveformAckTimeout t h) s = .next (after t s fun s => s.modWav fun v =>
      { v with tblBusy := v.tblBusy.filter fun b => !(b.1 == h.val && decide (b.2.1 + 80000000 ≤ s.now)),
               wgBusy := v.wgBusy.filter fun b => !(b.1 == h.val && decide (b.2.1 + 80000000 ≤ s.now)) }))) ∧
  (∀ (t : Nat) (s : State), s.ringsRun = true →
    (∀ tb, s.str.tables = some tb → s.isDisabled 0x06 0 = false → (tb.wgs.map (·.wg)).Nodup →
      Leaves (.scaleUpdate t) s fun s' =>
        (∀ w ∈ tb.wgs, (s'.wg w.wg).target ≤ 1536 ∧ (s'.wg w.wg).started = true ∧
          (s'.wg w.wg).slots = (s.wg w.wg).slots ∧ (s'.wg w.wg).active = (s.wg w.wg).active ∧
          (s'.wg w.wg).gain = (s.wg w.wg).gain ∧
          ((s.wg w.wg).started = false → (s'.wg w.wg).scale = (s'.wg w.wg).target) ∧
          ((s.wg w.wg).started = true → (s.head w.head).stale = true → (s'.wg w.wg).scale = (s.wg w.wg).scale) ∧
          ((s.wg w.wg).started = true → (s'.wg w.wg).scale ≤ (s.wg w.wg).scale + 16 ∧
            (s.wg w.wg).scale ≤ (s'.wg w.wg).scale + 16)) ∧
        (∀ k, (∀ w ∈ tb.wgs, w.wg ≠ k) → s'.wg k = s.wg k) ∧ s'.regs = s.regs ∧ s'.jobs = s.jobs ∧ SameMotion s s') ∧
    (s.isDisabled 0x06 0 = true → exec (.scaleUpdate t) s = .next (after t s id)) ∧
    (∀ tb (hub : Fin 48) temps, s.str.tables = some tb → (tb.heads.map (·.head)).Nodup →
      Leaves (.tempFrame t hub temps) s fun s' =>
        (∀ h ∈ tb.heads, h.hub = hub.val → ∀ tp, temps[h.port]? = some tp → tp ≠ -32768 →
          (s'.head h.head).temp = some tp ∧ (s'.head h.head).tempAt = max s.now t ∧ (s'.head h.head).stale = false ∧
          (s'.head h.head).lost = false ∧ (s'.head h.head).ident = (s.head h.head).ident) ∧
        (∀ k, (∀ h ∈ tb.heads, h.hub = hub.val → h.head ≠ k) → s'.head k = s.head k) ∧ s'.regs = s.regs ∧
        s'.jobs = s.jobs ∧ SameMotion s s') ∧
    (∀ (hub : Fin 48) temps, s.str.tables = none → exec (.tempFrame t hub temps) s = .next (after t s id)) ∧
    (∀ h : Fin 1024, (s.head h).temp.isSome = true → (s.head h).tempAt + 80000000 < max s.now t →
      exec (.tempStale t h) s = .next (after t s fun s => s.modHead h fun x => { x with stale := true })) ∧
    (∀ h : Fin 1024, max s.now t ≤ (s.head h).tempAt + 80000000 → exec (.tempStale t h) s = .next (after t s id)) ∧
    (∀ h : Fin 1024, (s.head h).temp.isSome = true → (s.head h).lost = false →
      (s.head h).tempAt + 800000000 ≤ max s.now t → Leaves (.wavTempLost t h) s fun s' =>
        (s'.head h).lost = true ∧ (s'.head h).stale = true ∧ bitOf s' Reg.evtAlarmLatch 0 8 = true ∧ SameMotion s s') ∧
    (∀ h : Fin 1024, (s.head h).lost = true → exec (.wavTempLost t h) s = .next (after t s id)))

/-- VENERGY_UPDATE and VHEAT_UPDATE (R200, R201), speeds in whole µm/s rounded down (log entry 62). -/
def Obligations.EnergySpeeds : Prop :=
  ∀ (t : Nat) (s : State), s.ringsRun = true →
    (∀ tb, s.str.tables = some tb → Leaves (.venergyUpdate t) s fun s' =>
      (s.anyActive = false → s'.wav.venergy = 10000000 ∧ s'.wav.limiter = (0, 0)) ∧
      (∀ m, s.anyActive = true → m = windowMove s'.wav.pos.tail (masterNow (s.arrive t)) →
        (m < 1000000 → s'.wav.venergy = s.wav.venergy ∧ s'.wav.limiter = s.wav.limiter) ∧
        (1000000 ≤ m → s'.wav.venergy ≤ 10000000 ∧ ∀ a ∈ tb.acs, 0 < a.limitMw → 0 < acEnergy s' a.ac →
          s'.wav.venergy ≤ 900 * a.limitMw * m * 2 ^ 24 / acEnergy s' a.ac)) ∧
      s'.wav.vheat = s.wav.vheat ∧ s'.jobs = s.jobs ∧ SameMotion s s') ∧
    (s.str.tables = none → exec (.venergyUpdate t) s = .next (after t s id)) ∧
    (∀ (band : Int) (v : Nat), band = (s.fld Reg.wavHeatCfg 0 7 0 : Nat) → v = (webSpeed s).toNat →
      Leaves (.vheatUpdate t) s fun s' =>
        ((∃ h ∈ s.wav.heads, ∃ d, headOver s band h.2 = some d ∧ 0 ≤ d) → s'.wav.vheat = min s.wav.vheat (v * 90 / 100)) ∧
        ((∀ h ∈ s.wav.heads, ∀ d, headOver s band h.2 = some d → d < 0) →
          (∃ h ∈ s.wav.heads, ∃ d, headOver s band h.2 = some d ∧ -band ≤ d) →
          s'.wav.vheat = min s.wav.vheat (v * 98 / 100)) ∧
        ((∀ h ∈ s.wav.heads, ∀ d, headOver s band h.2 = some d → d < -band ∧ d < 0 ∧ d ≤ -2 * band) →
          s'.wav.vheat = min 10000000 (s.wav.vheat + 100000)) ∧
        ((∀ h ∈ s.wav.heads, ∀ d, headOver s band h.2 = some d → d < -band ∧ d < 0) →
          (∃ h ∈ s.wav.heads, ∃ d, headOver s band h.2 = some d ∧ -2 * band < d) → s'.wav.vheat = s.wav.vheat) ∧
        s'.wav.venergy = s.wav.venergy ∧ s'.jobs = s.jobs ∧ SameMotion s s')

/-! ## The Mamen link (chapter 11) -/

/-- LANE_DOWN_RETRAIN, LANE_TRAINING_DONE, HELLO_FRAME, HELLO_TIMEOUT, ACK_FRAME, STATUS_FRAME, SYNC_TIMEOUT,
PCS_ALIGNMENT_LOSS (R208 to R210). -/
def Obligations.LaneStates : Prop :=
  ∀ (t : Nat) (l : Fin 64) (e : EndpointRec) (s : State), s.ringsRun = true → lanePort s l = none → s.laneEp l = some e →
    (qrefOn s l = true → (s.mlk.lanes[l]).st = .down → (s.mlk.lanes[l]).since + 800000000 ≤ max s.now t →
      s.isDisabled 0x07 l = false → exec (.laneDownRetrain t l) s = .next (after t s fun s =>
        s.modLane l fun x => { x with st := .train, since := s.now })) ∧
    (max s.now t < (s.mlk.lanes[l]).since + 800000000 ∨ qrefOn s l = false →
      exec (.laneDownRetrain t l) s = .next (after t s id)) ∧
    ((s.mlk.lanes[l]).st = .train →
      exec (.laneTrainingDone t l true) s = .next (after t s fun s =>
        s.modLane l fun x => { x with st := .hello, since := s.now }) ∧
      exec (.laneTrainingDone t l false) s = .next (after t s fun s => s.modLane l fun x => x.goDown s.now)) ∧
    (∀ h, (s.mlk.lanes[l]).st = .hello → helloFits e l h = false → Leaves (.helloFrame t l h) s fun s' =>
      (s'.mlk.lanes[l]).st = .hello ∧ (s'.mlk.lanes[l]).mismatch = true ∧ .mlk l (.linkcfg 1 l) ∈ s'.out ∧
      ((s.mlk.lanes[l]).mismatch = false → bitOf s' Reg.evtAlarmLatch 0 11 = true) ∧ SameMotion s s') ∧
    (∀ h, (s.mlk.lanes[l]).st = .hello → helloFits e l h = true → (s.mlk.lanes[l]).relNext = 0 →
      (s.mlk.lanes[l]).relOut = [] → (s.mlk.lanes[l]).relWait = [] → Leaves (.helloFrame t l h) s fun s' =>
      (s'.mlk.lanes[l]).st = .hello ∧ (s'.mlk.lanes[l]).mismatch = false ∧ .mlk l (.linkcfg 0 l) ∈ s'.out ∧
      (s'.mlk.lanes[l]).relOut = [⟨0, .linkcfg 0 l, max s.now t, 0⟩] ∧
      (s'.mlk.eps[Fin.ofNat 64 e.idx]).uid = h.unitId ∧ (s'.mlk.eps[Fin.ofNat 64 e.idx]).bufSlots = h.bufSlots ∧
      SameMotion s s' ∧ s'.jobs = s.jobs) ∧
    ((s.mlk.lanes[l]).st = .hello → (s.mlk.lanes[l]).mismatch = false → (s.mlk.lanes[l]).relNext = 0 →
      (s.mlk.lanes[l]).since + 80000000 ≤ max s.now t →
      exec (.helloTimeout t l) s = .next (after t s fun s => s.modLane l fun x => x.goDown s.now)) ∧
    (∀ seq r, (s.mlk.lanes[l]).st = .hello → (s.mlk.lanes[l]).relNext ≠ 0 → (s.mlk.lanes[l]).relOut = [r] → r.seq = seq →
      (s.mlk.lanes[l]).relWait = [] → Leaves (.ackFrame t l seq) s fun s' =>
        (e.kind ≠ 1 → (s'.mlk.lanes[l]).st = .sync) ∧
        (e.kind = 1 → (s'.mlk.lanes[l]).st = .config ∨ (s'.mlk.lanes[l]).st = .sync) ∧ SameMotion s s' ∧ s'.jobs = s.jobs) ∧
    (∀ seq, (s.mlk.lanes[l]).st = .ready → (∀ r ∈ (s.mlk.lanes[l]).relOut, r.seq ≠ seq) →
      exec (.ackFrame t l seq) s = .next (after t s id)) ∧
    (∀ st, st.synced = true → Leaves (.statusFrame t l st) s fun s' =>
      (∀ k ∈ e.lanesOf, (s.mlk.lanes[k]).st = .sync → (s'.mlk.lanes[k]).st = .ready) ∧
      (s'.mlk.eps[Fin.ofNat 64 e.idx]).armed = st.armed ∧ (s'.mlk.eps[Fin.ofNat 64 e.idx]).synced = true ∧
      (s'.mlk.eps[Fin.ofNat 64 e.idx]).accEpoch = (if st.fenced then st.accEpoch else 0xFFFF) ∧ SameMotion s s') ∧
    ((s.mlk.lanes[l]).st = .sync → (s.mlk.lanes[l]).since + 160000000 ≤ max s.now t →
      exec (.syncTimeout t l) s = .next (after t s fun s => s.modLane l fun x => x.goDown s.now)) ∧
    ((s.mlk.lanes[l]).st ≠ .down → Leaves (.pcsAlignmentLoss t l) s fun s' => s'.mlk.lanes[l] = (s.mlk.lanes[l]).goDown (max s.now t) ∧
      ((s.mlk.lanes[l]).st = .ready → bitOf s' Reg.evtAlarmLatch 0 13 = true)) ∧
    ((s.mlk.lanes[l]).st = .down → exec (.pcsAlignmentLoss t l) s = .next (after t s id))

/-- REL_RETRANSMIT, SYNC_SEND, SYNC_RESP_FRAME, KEEPALIVE_SEND, POSREF_SEND, NAK_FRAME, ENDPOINT_MISSING. -/
def Obligations.LinkTraffic : Prop :=
  ∀ (t : Nat) (l : Fin 64) (s : State), s.ringsRun = true →
    (∀ r rest, lanePort s l = none → (s.mlk.lanes[l]).relOut = r :: rest →
      (max s.now t < r.sentAt + 400000 → exec (.relRetransmit t l) s = .next (after t s id)) ∧
      (r.sentAt + 400000 ≤ max s.now t → r.tries < 16 → exec (.relRetransmit t l) s = .next (after t s fun s =>
        (s.modLane l fun x => { x with relOut := { r with sentAt := s.now, tries := r.tries + 1 } :: rest }).emit
          (.mlk l r.frame))) ∧
      (r.sentAt + 400000 ≤ max s.now t → 16 ≤ r.tries → Leaves (.relRetransmit t l) s fun s' =>
        (s'.mlk.lanes[l]).st = .down ∧ (s'.mlk.lanes[l]).relOut = [] ∧ bitOf s' Reg.evtAlarmLatch 0 14 = true)) ∧
    (lanePort s l = none → (s.mlk.lanes[l]).relOut = [] → exec (.relRetransmit t l) s = .next (after t s id)) ∧
    (carriesTime s l = true → exec (.syncSend t l) s = .next (after t s fun s =>
      (s.modLane l fun x => { x with exchange := some ⟨(s.mlk.lanes[l]).syncN, s.press⟩,
                                     syncN := ((s.mlk.lanes[l]).syncN + 1) % 2 ^ 32 }).emit
        (.mlk l (.sync (s.mlk.lanes[l]).syncN s.press)))) ∧
    (carriesTime s l = false → exec (.syncSend t l) s = .next (after t s id)) ∧
    (∀ n h2 h3 t4 t1, (s.mlk.lanes[l]).exchange = some ⟨n, t1⟩ →
      exec (.syncRespFrame t l n h2 h3 t4) s = .next (after t s fun s =>
        (s.modLane l fun y => { y with rtt := unsigned 32 (((t4 : Int) - t1) - ((h3 : Int) - h2)), exchange := none }).emit
          (.mlk l (.follow n (signed 32 (s.rd Reg.mlkAsym l).toNat) t4)))) ∧
    (∀ n h2 h3 t4, (s.mlk.lanes[l]).exchange = none →
      exec (.syncRespFrame t l n h2 h3 t4) s = .next (after t s id)) ∧
    (∀ (hub : Fin 48) e, s.epRec hub = some e → carriesTime s e.lane0 = true →
      exec (.keepaliveSend t hub) s = .next (after t s fun s => s.emit (.hub hub .keepalive))) ∧
    (∃ l, exec (.posrefSend t) s = .next (after t s fun s => { s with out := s.out ++ l }) ∧
      l.length = (s.endpoints.filter fun e => e.kind == 2 && epReady s e).length) ∧
    (∀ cseq count, ∃ o, exec (.nakFrame t l cseq count) s = .next (after t s fun s => { s with out := s.out ++ o }) ∧
      o.length ≤ min count 256) ∧
    (∀ (ep : Fin 64) e, s.epRec ep = some e → epReady s e = false → s.mlk.activatedAt + 8000000000 ≤ max s.now t →
      (s.mlk.eps[ep]).uid = 0 →
      ((s.mlk.eps[ep]).missingRaised = false → Leaves (.endpointMissing t ep) s fun s' =>
        (s'.mlk.eps[ep]).missingRaised = true ∧ bitOf s' Reg.evtAlarmLatch 0 12 = true ∧ SameMotion s s' ∧
        s'.jobs = s.jobs) ∧
      ((s.mlk.eps[ep]).missingRaised = true → exec (.endpointMissing t ep) s = .next (after t s id)))

/-- IDENT_FRAME, REPORT_FRAME, SLOT_FAULT_FRAME, REPORT_TIMEOUT, TAKEOVER_ACK_FRAME, TAKEOVER_REPEAT. -/
def Obligations.HubReports : Prop :=
  ∀ (t : Nat) (hub : Fin 48) (s : State), s.ringsRun = true →
    (∀ l e tb port record h, s.laneEp l = some e → s.str.tables = some tb →
      tb.heads.find? (fun h => e.kind == 1 && h.hub == e.number && h.port == port) = some h →
      Leaves (.identFrame t l port record) s fun s' =>
        (identOk s h record = true → (s'.head h.head).ident = some (identOf record) ∧
          (s'.head h.head).temp = (s.head h.head).temp) ∧
        (identOk s h record = false → s'.wav = s.wav ∧ bitOf s' Reg.evtAlarmLatch 0 10 = true) ∧
        (∀ k, k ≠ h.head → s'.head k = s.head k) ∧ s'.jobs = s.jobs ∧ SameMotion s s') ∧
    (∀ num bitmap x, s.pac.slots.find? (fun x => x.num.contains (hub.val, num % 2 ^ 32) && x.unconfirmed.contains hub.val) = some x →
      Leaves (.reportFrame t hub num 1 bitmap) s fun s' =>
        (∀ y ∈ s'.pac.slots, y.same x = true → y.unconfirmed.contains hub.val = false) ∧
        (bitmap.getLsbD 0 = false → x.plane < 8 →
          (s'.rd Reg.mlkFault x.plane).toNat = min ((s.rd Reg.mlkFault x.plane).toNat + 1) 0xFFFFFFFF)) ∧
    (∀ num x, s.pac.slots.find? (fun x => x.num.contains (hub.val, num) && x.unconfirmed.contains hub.val) = some x →
      (∀ cause ports, Leaves (.slotFaultFrame t hub num cause ports) s fun s' =>
        (num, cause, ports) ∈ (s'.mlk.eps[Fin.ofNat 64 hub.val]).faults ∧ s'.pac = s.pac ∧ s'.jobs = s.jobs ∧ SameMotion s s') ∧
      (s.dummy = false → x.base + s.fld Reg.mlkCfg 0 25 16 * 8000 ≤ (s.arrive t).press →
        Leaves (.reportTimeout t hub num) s fun s' =>
          (∀ y ∈ s'.pac.slots, y.same x = true → y.unconfirmed.contains hub.val = false) ∧
          (x.plane < 8 → (s'.rd Reg.mlkFault x.plane).toNat = min ((s.rd Reg.mlkFault x.plane).toNat + 1) 0xFFFFFFFF)) ∧
      ((s.arrive t).press < x.base + s.fld Reg.mlkCfg 0 25 16 * 8000 →
        exec (.reportTimeout t hub num) s = .next (after t s id))) ∧
    (∀ e at_ wait digest rows, s.epRec hub = some e → (s.mlk.eps[Fin.ofNat 64 hub.val]).takeoverAt = some at_ →
      (Leaves (.takeoverAckFrame t hub 0 wait digest rows) s fun s' =>
        (s'.mlk.eps[Fin.ofNat 64 hub.val]).accEpoch = s.mlk.epoch ∧ (s'.mlk.eps[Fin.ofNat 64 hub.val]).takeoverAt = none ∧
        SameMotion s s') ∧
      exec (.takeoverAckFrame t hub 1 wait digest rows) s = .next (after t s fun s =>
        s.modEp (Fin.ofNat 64 hub.val) fun p => { p with takeoverAt := none }) ∧
      (Leaves (.takeoverAckFrame t hub 2 wait digest rows) s fun s' =>
        (s'.mlk.eps[Fin.ofNat 64 hub.val]).takeoverAt = some (max s.now t + wait * 8) ∧
        s'.xlk.refusedSince = some (s.xlk.refusedSince.getD (max s.now t)) ∧ s'.pac = s.pac ∧ s'.jobs = s.jobs) ∧
      (s.mlk.holds = true → at_ + 40000 ≤ max s.now t → exec (.takeoverRepeat t hub) s = .next (after t s fun s =>
        (s.modEp (Fin.ofNat 64 e.number) fun p => { p with takeoverAt := some s.now }).emit
          (.hub e.number (.takeover s.mlk.epoch)))) ∧
      (max s.now t < at_ + 40000 → exec (.takeoverRepeat t hub) s = .next (after t s id))) ∧
    ((s.mlk.eps[Fin.ofNat 64 hub.val]).takeoverAt = none → exec (.takeoverRepeat t hub) s = .next (after t s id) ∧
      ∀ r w d rows, exec (.takeoverAckFrame t hub r w d rows) s = .next (after t s id))

/-- SCAN_LINE_FRAME, SCAN_LINE_INCOMPLETE, VLANE_UPDATE (R226, R227), speeds in whole µm/s rounded down (log entry 62). -/
def Obligations.ScanLines : Prop :=
  ∀ (t : Nat) (b : Fin 16) (s : State), s.ringsRun = true →
    (∀ f, (s.ins.bridges[b]).gathering = none → ((newLine s b f).add f).full = false →
      exec (.scanLineFrame t b f) s = .next (after t s fun s =>
        s.modBridge b fun x => { x with gathering := some ((newLine s b f).add f) })) ∧
    (∀ f l, (s.ins.bridges[b]).gathering = some l → l.line = f.line → (l.add f).full = false →
      exec (.scanLineFrame t b f) s = .next (after t s fun s =>
        s.modBridge b fun x => { x with gathering := some (l.add f) })) ∧
    (∀ f l, (s.ins.bridges[b]).gathering = some l → l.line = f.line → (l.add f).full = true →
      exec (.scanLineFrame t b f) s = .next (after t s fun s =>
        s.modBridge b fun x => { x with store := x.store ++ [l.add f], gathering := none })) ∧
    (∀ f l, (s.ins.bridges[b]).gathering = some l → l.line ≠ f.line → ((newLine s b f).add f).full = false →
      exec (.scanLineFrame t b f) s = .next (after t s fun s => s.modBridge b fun x =>
        { x with store := x.store ++ [l], gathering := some ((newLine s b f).add f) })) ∧
    (∀ l, (s.ins.bridges[b]).gathering = some l → l.firstAt + 800000 ≤ max s.now t →
      exec (.scanLineIncomplete t b l.line) s = .next (after t s fun s =>
        s.modBridge b fun x => { x with store := x.store ++ [l], gathering := none })) ∧
    (∀ l n, (s.ins.bridges[b]).gathering = some l → max s.now t < l.firstAt + 800000 →
      exec (.scanLineIncomplete t b n) s = .next (after t s id)) ∧
    (∀ octets, Leaves (.vlaneUpdate t octets) s fun s' =>
      (s.anyActive = false → s'.mlk.vlane = 10000000) ∧
      (∀ m, s.anyActive = true → m = windowMove s'.mlk.pos.tail (masterNow (s.arrive t)) →
        (m < 1000000 → s'.mlk.vlane = s.mlk.vlane) ∧
        (1000000 ≤ m → s'.mlk.vlane ≤ 10000000 ∧
          ∀ l, l < 64 → 0 < laneOctets s' l → s'.mlk.vlane ≤ 11250000 * m / laneOctets s' l)) ∧
      s'.mlk.lanes = s.mlk.lanes ∧ s'.mlk.eps = s.mlk.eps ∧ s'.jobs = s.jobs ∧ s'.regs = s.regs ∧ SameMotion s s')

/-! ## Inspection and the speed governor (chapters 12, 13) -/

/-- LINE_ANALYSIS, VERDICT_DEADLINE, VINSP_UPDATE (R229, R241, R243), speeds in whole µm/s rounded down (log entry 62). -/
def Obligations.Inspection : Prop :=
  ∀ (t : Nat) (b : Fin 16) (c : Fin 64) (s : State), s.ringsRun = true →
    (∀ tb e l rest cycles, s.str.tables = some tb → s.epRec (48 + b) = some e → s.isDisabled 0x08 0 = false →
      (s.ins.bridges[b]).store = l :: rest → Leaves (.lineAnalysis t b cycles) s fun s' =>
        (s'.ins.bridges[b]).store = rest ∧ (s'.ins.bridges[b]).gathering = (s.ins.bridges[b]).gathering ∧
        (∀ k, k ≠ b → s'.ins.bridges[k] = s.ins.bridges[k]) ∧
        (l.full = false ∨ l.ready = false ∨ l.firstAt + s.fld Reg.insCfg 0 31 24 * 8000000 < max s.now t →
          s'.ins.counts = s.ins.counts ∧
          (s'.rd Reg.insLinesLost).toNat = min ((s.rd Reg.insLinesLost).toNat + 1) 0xFFFFFFFF) ∧ SameMotion s s') ∧
    (∀ cycles, (s.ins.bridges[b]).store = [] → exec (.lineAnalysis t b cycles) s = .next (after t s id)) ∧
    (∀ pk it d seq, (s.jobs[c]).pkg = some pk → (s.jobs[c]).items.find? (fun it => it.seq == seq) = some it →
      judged pk it = true → it.verdict = none → it.deadline = some d →
      (d ≤ max s.now t → Leaves (.verdictDeadline t c seq) s fun s' =>
        (∀ x ∈ (s'.jobs[c]).items, x.seq = seq → x.verdict.isSome = true) ∧
        (s'.rd Reg.insUnver).toNat = min ((s.rd Reg.insUnver).toNat + 1) 0xFFFFFFFF ∧
        (∀ n, n ≠ c → s'.jobs[n] = s.jobs[n]) ∧ SameMotion s s') ∧
      (max s.now t < d → exec (.verdictDeadline t c seq) s = .next (after t s id))) ∧
    (Leaves (.vinspUpdate t) s fun s' => (inspecting s = false → s'.ins.vinsp = 10000000 ∧ s'.ins.backlog = false) ∧
      (∀ m y, inspecting s = true → m = windowMove s'.ins.pos (masterNow (s.arrive t)) →
        y = (s'.ins.cycles.map (·.2)).sum → 1000000 ≤ m → s'.ins.vinsp ≤ 10000000 ∧
          (0 < y → s'.ins.vinsp ≤ 900 * s.pwr.kins * m / y)) ∧
      s'.ins.counts = s.ins.counts ∧ s'.ins.bridges = s.ins.bridges ∧ s'.regs = s.regs ∧ s'.jobs = s.jobs ∧ SameMotion s s')

/-- GOV_UPDATE, GOV_OVERSPEED, GOV_PEER_SILENT (R251 to R253, R256). -/
def Obligations.Governor : Prop :=
  ∀ (t : Nat) (peer : Fin 256) (s : State), s.ringsRun = true →
    (Leaves (.govUpdate t) s fun s' =>
      (∀ v ∈ govInputs (s.arrive t), s'.gov.vallow ≤ v) ∧ s'.gov.vallow ≤ 10000000 ∧
      (s'.gov.vallow = 10000000 ∨ s'.gov.vallow ∈ govInputs (s.arrive t)) ∧ govMin s ≤ s'.gov.vgov ∧
      (s'.gov.vallow < s.gov.vgov → s'.gov.vgov = max s'.gov.vallow (govMin s)) ∧
      (s.gov.vgov ≤ s'.gov.vallow → s'.gov.vallow * 1000 < s.gov.vgov * (1000 + s.fld Reg.govCfg 0 30 24) →
        s'.gov.vgov = max s.gov.vgov (govMin s)) ∧
      (s'.gov.floor = true ↔ s'.gov.vallow < govMin s) ∧ (s'.gov.floor = true → s'.gov.limiter = 11) ∧
      (s'.gov.floor = true → s.gov.floor = false → bitOf s' Reg.evtAlarmLatch 0 18 = true) ∧
      s'.jobs = s.jobs ∧ s'.pac = s.pac ∧ SameMotion s s') ∧
    (∀ o, s.gov.overspeed = false → s.gov.overSince = some o → o + 160000000 ≤ max s.now t →
      Leaves (.govOverspeed t) s fun s' => s'.gov = { s.gov with overspeed := true } ∧
        (s'.rd Reg.govOverspeed).toNat = min ((s.rd Reg.govOverspeed).toNat + 1) 0xFFFFFFFF ∧
        bitOf s' Reg.evtAlarmLatch 0 17 = true ∧ s'.jobs = s.jobs ∧ SameMotion s s') ∧
    (∀ o, s.gov.overSince = some o → max s.now t < o + 160000000 → exec (.govOverspeed t) s = .next (after t s id)) ∧
    ((∃ p ∈ s.gov.peers, p.1 = peer.val ∧ p.2.2 + 32000000 ≤ max s.now t) → Leaves (.govPeerSilent t peer) s fun s' =>
      s'.gov.peers = s.gov.peers.filter (fun p => p.1 != peer.val) ∧ bitOf s' Reg.evtAlarmLatch 0 19 = true ∧
      s'.jobs = s.jobs ∧ SameMotion s s') ∧
    ((∀ p ∈ s.gov.peers, p.1 = peer.val → max s.now t < p.2.2 + 32000000) →
      exec (.govPeerSilent t peer) s = .next (after t s id))

/-! ## Brushless axes (chapter 14) -/

/-- BA_ENABLE, BA_DISABLE, BA_OPEN, BA_FAULT_CLR; BA_SETPOINT, AXIS_HOME of KIND 1, its timeout, and GUARD_PERIOD_END. -/
def Obligations.Brushless : Prop :=
  (∀ (t : Nat) (n : Fin 8) (s : State),
    (firstRefusal (baEnableConds (s.arrive t) n) = .ok →
      exec (.baEnable t n) s = .next (after t s fun s => s.modBa n fun x => x.enable s.now) ∧
      Leaves (.baEnable t n) s fun s' => (s'.ba[n]).en = true ∧ (∀ m, m ≠ n → s'.ba[m] = s.ba[m]) ∧
        ((s.ba[n]).st = .off → (s'.ba[n]).st = .magnetise ∧ (s'.ba[n]).psiA = 0 ∧ (s'.ba[n]).psiB = 0 ∧
          (s'.ba[n]).sector = 1 ∧ (s'.ba[n]).magAt = some (max s.now t)) ∧
        ((s.ba[n]).st = .shorted → (s'.ba[n]).st = .run ∧ (s'.ba[n]).r = (s.ba[n]).speed * 65536)) ∧
    (s.modeIn [.standby, .service, .print] = false →
      exec (.baEnable t n) s = .next (after t s fun s => s.recordErr Reg.baErr n (baOffset n 0) .badMode)) ∧
    (s.modeIn [.standby, .service, .print] = true → s.dev.holdN = false →
      exec (.baEnable t n) s = .next (after t s fun s => s.recordErr Reg.baErr n (baOffset n 0) .safety)) ∧
    (s.modeIn [.standby, .service, .print] = true → s.dev.holdN = true → (s.dev.hold = true ∨ (s.ba[n]).fault ≠ 0) →
      exec (.baEnable t n) s = .next (after t s fun s => s.recordErr Reg.baErr n (baOffset n 0) .badState)) ∧
    ((s.ba[n]).en = true → (s.ba[n]).home = none → exec (.baDisable t n) s = .next (after t s fun s => s.modBa n fun x =>
      { x.stop false with en := false })) ∧
    ((s.ba[n]).en = false → exec (.baDisable t n) s = .next (after t s id)) ∧
    ((s.ba[n]).st = .shorted → (s.ba[n]).en = false → exec (.baOpen t n) s = .next (after t s fun s => s.modBa n fun x =>
      { x with st := .off, sector := 0 })) ∧
    ((s.ba[n]).st ≠ .shorted ∨ (s.ba[n]).en = true → exec (.baOpen t n) s = .next (after t s id)) ∧
    (((s.ba[n]).st = .off ∨ (s.ba[n]).st = .shorted) → baFaultPresent s n = false →
      exec (.baFaultClr t n) s = .next (after t s fun s => s.modBa n fun x =>
        { x with fault := 0, act := .none, observerSpeed := false })) ∧
    (((s.ba[n]).st ≠ .off ∧ (s.ba[n]).st ≠ .shorted) ∨ baFaultPresent s n = true →
      exec (.baFaultClr t n) s = .next (after t s id))) ∧
  (∀ (t : Nat) (n : Fin 8) (w : Word) (index : Nat) (speed : Int) (timeout : Nat) (s : State), s.ringsRun = true →
    (guarded (s.arrive t) n = true → (signed 32 w.toNat).sign * (s.ba[n]).speed.sign < 0 →
      s.fld Reg.baSpdlim n 15 0 ≤ (s.ba[n]).speed.natAbs →
      exec (.baSetpoint t n w) s = .next (after t s fun s =>
        (s.setFld Reg.baStatus n 5 5 1).recordErr Reg.baErr n (baOffset n 0x0C) .badState)) ∧
    ((guarded (s.arrive t) n = false ∨ 0 ≤ (signed 32 w.toNat).sign * (s.ba[n]).speed.sign ∨
        (s.ba[n]).speed.natAbs < s.fld Reg.baSpdlim n 15 0) → s.regsSorted = true →
      Leaves (.baSetpoint t n w) s fun s' => s'.rd Reg.baSetpointR n = w ∧ (∀ m, m ≠ n → s'.ba[m] = s.ba[m]) ∧
        (signed 32 w.toNat ≠ 0 → (s.ba[n]).en = true → (s.ba[n]).fault = 0 → (s.ba[n]).st = .shorted → s.dev.holdClass < 2 →
          (s'.ba[n]).st = .run ∧ (s'.ba[n]).r = (s.ba[n]).speed * 65536) ∧
        (2 ≤ s.dev.holdClass ∨ (s.ba[n]).en = false → s'.ba = s.ba) ∧ s'.stp = s.stp ∧ s'.dev = s.dev ∧ s'.log = s.log) ∧
    (firstRefusal (baHomeConds s index speed) = .ok → exec (.axisHomeBrushless t index speed timeout) s =
      .next (after t s fun s => s.modBa (Fin.ofNat 8 index) fun x =>
        { x with st := .homing, home := some ⟨speed, s.now + timeout * 8000000, none⟩ })) ∧
    (s.modeIn [.standby, .service] = false → Refuses (.axisHomeBrushless t index speed timeout) t s .badMode) ∧
    (s.modeIn [.standby, .service] = true → (8 ≤ index ∨ axisEnc (s.baRec (index % 8)) = none ∨
        (s.rd Reg.baSpdmax (index % 8)).toNat < speed.natAbs) →
      Refuses (.axisHomeBrushless t index speed timeout) t s .range) ∧
    (∀ h, (s.ba[n]).home = some h → h.found = none → h.deadline ≤ max s.now t → exec (.baHomeTimeout t n) s =
      .next (after t s fun s => complete .supervisor .timeout 0 (s.modBa n fun x =>
        { x with home := none, st := .stopping, brake := false }))) ∧
    (∀ h, (s.ba[n]).home = some h → max s.now t < h.deadline → exec (.baHomeTimeout t n) s = .next (after t s id)) ∧
    (∀ e, s.dev.holdEndAt = some e → e + 80000000000 ≤ max s.now t → exec (.guardPeriodEnd t) s =
      .next (after t s fun s => s.modDev fun d => { d with holdEndAt := none })) ∧
    (∀ e, s.dev.holdEndAt = some e → max s.now t < e + 80000000000 → exec (.guardPeriodEnd t) s = .next (after t s id)))

/-- MAGNETISE_TIMEOUT, LOCKED_ROTOR, BA_DRIVER_FAULT, BA_BUS_FAULT, BA_OVERSPEED_FAULT, BA_SPEED_ERROR_FAULT. -/
def Obligations.BrushlessFaults : Prop :=
  ∀ (t : Nat) (n : Fin 8) (lowNs a : Nat) (s : State),
    let faults (c : Instr) (code : Nat) (act : FaultAct) : Prop :=
      ((s.ba[n]).fault = 0 → (s.ba[n]).en = true → Leaves c s fun s' => (s'.ba[n]).fault = code ∧ (s'.ba[n]).st = .fault ∧
        (s'.ba[n]).act = act ∧ (s'.ba[n]).en = false ∧ bitOf s' Reg.evtAlarmLatch 0 20 = true) ∧
      ((s.ba[n]).fault ≠ 0 → Leaves c s fun s' => (s'.ba[n]).fault = (s.ba[n]).fault ∧ (s'.ba[n]).en = (s.ba[n]).en ∧
        s'.fld Reg.baErr n 31 24 = min 255 (s.fld Reg.baErr n 31 24 + 1) ∧ (act = .opens → (s'.ba[n]).act = .opens) ∧
        (act ≠ .opens → s'.ba = s.ba) ∧ (∀ m, m ≠ n → s'.ba[m] = s.ba[m]) ∧ s'.stp = s.stp)
    let waits (c : Instr) : Prop := exec c s = .next (after t s id)
    (1000 ≤ lowNs → faults (.baDriverFault t n lowNs) 4 .opens) ∧
    (lowNs < 1000 → exec (.baDriverFault t n lowNs) s = .next (after t s fun s =>
      s.modBa n fun x => { x with driverLow := decide (0 < lowNs) })) ∧
    ((s.ba[n]).magAt = some a → (a + 800000000 ≤ max s.now t → faults (.magnetiseTimeout t n) 6 .opens) ∧
      (max s.now t < a + 800000000 → waits (.magnetiseTimeout t n))) ∧
    ((s.ba[n]).lockAt = some a →
      (a + s.fld Reg.baLock n 31 16 * 8000000 ≤ max s.now t → faults (.lockedRotor t n) 3 .opens) ∧
      (max s.now t < a + s.fld Reg.baLock n 31 16 * 8000000 → waits (.lockedRotor t n))) ∧
    ((s.ba[n]).busAt = some a → (a + 8000000 ≤ max s.now t → faults (.baBusFault t n) 5 .opens) ∧
      (max s.now t < a + 8000000 → waits (.baBusFault t n))) ∧
    ((s.ba[n]).overAt = some a → (a + 80000000 ≤ max s.now t → faults (.baOverspeedFault t n) 7 .brake) ∧
      (max s.now t < a + 80000000 → waits (.baOverspeedFault t n))) ∧
    ((s.ba[n]).errAt = some a → (a + 4000000000 ≤ max s.now t → faults (.baSpeedErrorFault t n) 9 .stop) ∧
      (max s.now t < a + 4000000000 → waits (.baSpeedErrorFault t n)))

/-- SD_OUTPUT, DECISION_PERIOD, SPEED_LOOP_TICK. A speed without two samples is a free value (log entry 1). -/
def Obligations.DecisionEngine : Prop :=
  ∀ (t : Nat) (n : Fin 8) (ch : Fin 24) (acc : Int) (s : State),
    (∀ u : Int, u = Int.fdiv (acc * 32768) (max 1 ((s.fld Reg.sdCfg ch 8 0 : Int) ^ 3)) →
      (u.natAbs ≤ s.fld Reg.sdCfg ch 31 16 → Leaves (.sdOutput t ch acc) s fun s' => (s'.sd[ch]).value = u ∧
        (s'.sd[ch]).ovr = false ∧ (s'.sd[ch]).outputs = (s.sd[ch]).outputs + 1 ∧ s'.regs = s.regs ∧ s'.ba = s.ba ∧
        (∀ k, k ≠ ch → s'.sd[k] = s.sd[k])) ∧
      (s.fld Reg.sdCfg ch 31 16 < u.natAbs → (∀ m, (s.ba[(m : Fin 8)]).en = false) →
        Leaves (.sdOutput t ch acc) s fun s' => (s'.sd[ch]).value = (if 0 < u then 32767 else -32768) ∧
          (s'.sd[ch]).ovr = true ∧ (s'.rd Reg.sdOvrcnt ch).toNat =
            (if (s.sd[ch]).ovr then (s.rd Reg.sdOvrcnt ch).toNat else min ((s.rd Reg.sdOvrcnt ch).toNat + 1) 0xFFFFFFFF) ∧
          s'.ba = s.ba ∧ (∀ k, k ≠ ch → s'.sd[k] = s.sd[k]))) ∧
    ((s.ba[n]).st = .fault → (s.ba[n]).act = .opens → Leaves (.decisionPeriod t n) s fun s' =>
      (s'.ba[n]).st = .off ∧ (s'.ba[n]).legs = 0 ∧ (s'.ba[n]).fault = (s.ba[n]).fault ∧ (∀ m, m ≠ n → s'.ba[m] = s.ba[m]) ∧
      s'.regs = s.regs) ∧
    ((s.ba[n]).engine = true → (s.ba[n]).act ≠ .opens → (s.baRec n).isSome = true →
      (∀ i : Int, (i = (baCurrents s n).1 ∨ i = (baCurrents s n).2 ∨ i = (baCurrents s n).1 + (baCurrents s n).2) →
        i.natAbs ≤ (s.rd Reg.baItrip n).toNat) →
      Leaves (.decisionPeriod t n) s fun s' => (s'.ba[n]).legsPrev = (s.ba[n]).legs ∧
        (s'.ba[n]).legs = switching (s'.ba[n]).dpsi (s'.ba[n]).dt (s'.ba[n]).sector (s.ba[n]).legs ∧
        1 ≤ (s'.ba[n]).sector ∧ (s'.ba[n]).sector ≤ 6 ∧ ((s.ba[n]).dt.natAbs ≤ 1 → (s'.ba[n]).dt.natAbs ≤ 1) ∧
        (∀ m, m ≠ n → s'.ba[m] = s.ba[m]) ∧ s'.regs = s.regs) ∧
    (Leaves (.speedLoopTick t n) s fun s' => (∀ m, m ≠ n → s'.ba[m] = s.ba[m]) ∧ s'.sd = s.sd ∧ s'.stp = s.stp ∧
      ((s.baRec n).isSome = true → (s.ba[n]).engine = true → (s.ba[n]).st ≠ .magnetise →
        (s'.ba[n]).tref.natAbs ≤ (s.rd Reg.baTqmax n).toNat))
/-! ## Stepper axes and encoder settings (chapter 15) -/

/-- STP_ENABLE, STP_EN_CLEAR, STP_STOP, STP_HALT, STP_POWER, STP_FAULT_CLR, STP_CLR_UNSURE, STP_SYNC, STP_GEAR_CLEAR. -/
def Obligations.StepperStates : Prop :=
  ∀ (t : Nat) (n : Fin 16) (s : State),
    (firstRefusal (stpEnableConds s n) = .ok → (s.stp[n]).en = false → Leaves (.stpEnable t n) s fun s' =>
      (s'.stp[n]).en = true ∧ (s'.stp[n]).v = 0 ∧ (s'.stp[n]).p = (s.stp[n]).p ∧ (s'.stp[n]).p0 = (s.stp[n]).p ∧
      (s'.stp[n]).c0 = stpCount s n ∧ (s'.stp[n]).plan = none ∧ (s'.stp[n]).reqs = [] ∧ (s'.stp[n]).posUnsure = (s.stp[n]).posUnsure ∧
      (∀ m, m ≠ n → s'.stp[m] = s.stp[m]) ∧ s'.ba = s.ba ∧ s'.regs = s.regs) ∧
    (s.modeIn [.standby, .service, .print] = false →
      exec (.stpEnable t n) s = .next (after t s fun s => s.recordErr Reg.stpErr n (stpOffset n 0) .badMode)) ∧
    (s.modeIn [.standby, .service, .print] = true → s.dev.holdN = false →
      exec (.stpEnable t n) s = .next (after t s fun s => s.recordErr Reg.stpErr n (stpOffset n 0) .safety)) ∧
    (s.modeIn [.standby, .service, .print] = true → s.dev.holdN = true →
      (2 ≤ s.dev.holdClass ∨ (s.stp[n]).fault ≠ 0 ∨ (s.stp[n]).power = false) →
      exec (.stpEnable t n) s = .next (after t s fun s => s.recordErr Reg.stpErr n (stpOffset n 0) .badState)) ∧
    ((s.stp[n]).en = true → Leaves (.stpStop t n) s fun s' => (s'.stp[n]).v = 0 ∧ (s'.stp[n]).plan = none ∧
      (s'.stp[n]).gear = none ∧ (s'.stp[n]).reqs = [] ∧ (s'.stp[n]).home = none ∧ (s'.stp[n]).en = true ∧
      ((s.stp[n]).v ≠ 0 → (s'.stp[n]).posUnsure = true) ∧ ((s.stp[n]).v = 0 → (s'.stp[n]).posUnsure = (s.stp[n]).posUnsure) ∧
      (∀ m, m ≠ n → s'.stp[m] = s.stp[m]) ∧ s'.ba = s.ba) ∧
    ((s.stp[n]).en = true → Leaves (.stpEnClear t n) s fun s' => (s'.stp[n]).v = 0 ∧ (s'.stp[n]).plan = none ∧
      (s'.stp[n]).en = false ∧ ((s.stp[n]).v ≠ 0 → (s'.stp[n]).posUnsure = true) ∧ (∀ m, m ≠ n → s'.stp[m] = s.stp[m]) ∧
      s'.ba = s.ba) ∧
    ((s.stp[n]).en = true → Leaves (.stpHalt t n) s fun s' => (s'.stp[n]).gear = none ∧ (s'.stp[n]).reqs = [] ∧
      (s'.stp[n]).home = none ∧ (s'.stp[n]).en = true ∧ (s'.stp[n]).v = (s.stp[n]).v ∧
      (s'.stp[n]).posUnsure = (s.stp[n]).posUnsure ∧ ((s'.stp[n]).halting = true ↔ (s.stp[n]).v ≠ 0) ∧
      (∀ m, m ≠ n → s'.stp[m] = s.stp[m]) ∧ s'.ba = s.ba) ∧
    (Leaves (.stpPower t n false) s fun s' => (s'.stp[n]).power = false ∧ (s'.stp[n]).chopA.st = .off ∧
      (s'.stp[n]).chopB.st = .off ∧ (∀ m, m ≠ n → s'.stp[m] = s.stp[m]) ∧ s'.ba = s.ba ∧ s'.regs = s.regs) ∧
    ((s.stp[n]).power = false → Leaves (.stpPower t n true) s fun s' => (s'.stp[n]).power = true ∧
      (s'.stp[n]).chopA.dac = stpDac s' n false ∧ (s'.stp[n]).chopB.dac = stpDac s' n true ∧
      ((s'.stp[n]).chopA.st = .drive ↔ stpDac s' n false ≠ 0) ∧ (∀ m, m ≠ n → s'.stp[m] = s.stp[m]) ∧ s'.ba = s.ba ∧
      s'.regs = s.regs) ∧
    ((s.stp[n]).v = 0 → ((s.stp[n]).fault ≠ 1 ∨ (s.stp[n]).driverLow = false) → (s.stp[n]).fault ≠ 4 →
      exec (.stpFaultClr t n) s = .next (after t s fun s => s.modStp n fun x => { x with fault := 0 })) ∧
    ((s.stp[n]).v ≠ 0 ∨ ((s.stp[n]).fault = 1 ∧ (s.stp[n]).driverLow = true) →
      exec (.stpFaultClr t n) s = .next (after t s id)) ∧
    (exec (.stpClrUnsure t n) s = .next (after t s fun s => s.modStp n fun x => { x with posUnsure := false })) ∧
    (exec (.stpGearClear t n) s = .next (after t s fun s => s.modStp n fun x => { x with gearPend := [] })) ∧
    (Leaves (.stpSync t n) s fun s' => (s'.stp[n]).p0 = (s'.stp[n]).p ∧ (s'.stp[n]).c0 = stpCount s n ∧
      (s'.stp[n]).dev = 0 ∧ ((s.stp[n]).v = 0 → (s.stp[n]).f < 2 ^ 40 → (s'.stp[n]).p = (s.stp[n]).p) ∧
      (s'.stp[n]).v = (s.stp[n]).v ∧ (∀ m, m ≠ n → s'.stp[m] = s.stp[m]) ∧ s'.regs = s.regs)

/-- STP_TARGET_COMMIT, STP_VSET_WRITE, STP_GO, STP_MODE_CHANGE, STP_POS_WRITE, STP_GEAR_PUSH, AXIS_HOME of KIND 2, its timeout,
ENC_CFG_WRITE (an ENC_CFG write out of range is ignored: log entry 30). -/
def Obligations.StepperMoves : Prop :=
  ∀ (t : Nat) (n : Fin 16) (w : Word) (index : Nat) (vel : Int) (timeout : Nat) (homePos backoff : Int) (ihome : Nat) (s : State),
    s.ringsRun = true →
    let still (s' : State) : Prop := (s'.stp[n]).p = (s.stp[n]).p ∧ (s'.stp[n]).v = (s.stp[n]).v ∧
      (s'.stp[n]).plan = (s.stp[n]).plan ∧ (s'.stp[n]).en = (s.stp[n]).en ∧ (∀ m, m ≠ n → s'.stp[m] = s.stp[m]) ∧ s'.ba = s.ba
    let commits (s' : State) (r : StpReq) : Prop :=
      (s'.stp[n]).reqs = if (s.stp[n]).en then (s.stp[n]).reqs ++ [(max s.now t + 8000, r)] else (s.stp[n]).reqs
    let v := signed 64 (w.toNat * 2 ^ 32 + (s.rd Reg.stpTargetLo n).toNat)
    (firstRefusal (planConds s n) = .ok → v.natAbs ≤ 2 ^ 46 →
      (stpLimen s n = false ∨ ((stpLimits s n).1 ≤ v ∧ v ≤ (stpLimits s n).2)) → Leaves (.stpTargetCommit t n w) s fun s' =>
        still s' ∧ (s.regsSorted = true → s'.rd Reg.stpTargetHi n = w) ∧ (stpMode s n = 0 → commits s' (.target v)) ∧
        (stpMode s n ≠ 0 → (s'.stp[n]).reqs = (s.stp[n]).reqs)) ∧
    (firstRefusal (planConds s n) = .ok →
      (2 ^ 46 < v.natAbs ∨ (stpLimen s n = true ∧ (v < (stpLimits s n).1 ∨ (stpLimits s n).2 < v))) →
      exec (.stpTargetCommit t n w) s = .next (after t s fun s => s.recordErr Reg.stpErr n (stpOffset n 0x24) .range)) ∧
    ((s.stp[n]).fault ≠ 0 ∨ 2 ≤ s.dev.holdClass →
      exec (.stpTargetCommit t n w) s = .next (after t s fun s => s.recordErr Reg.stpErr n (stpOffset n 0x24) .badState) ∧
      exec (.stpVsetWrite t n w) s = .next (after t s fun s => s.recordErr Reg.stpErr n (stpOffset n 0x1C) .badState) ∧
      (2 ≤ stpMode s n →
        exec (.stpGo t n) s = .next (after t s fun s => s.recordErr Reg.stpErr n (stpOffset n 0) .badState))) ∧
    (firstRefusal (planConds s n) = .ok → Leaves (.stpVsetWrite t n w) s fun s' => still s' ∧
      (s.regsSorted = true → s'.rd Reg.stpVset n = w) ∧ (stpMode s n = 1 → commits s' .vset)) ∧
    (∀ l, stpMode s n = 2 → l = (List.range (s.fld Reg.stpSegs n 8 0)).map (stpSegAt s n) → firstRefusal (planConds s n) = .ok →
      isWebMaster (s.stpRec n) = false → profileBad s n l = false → Leaves (.stpGo t n) s fun s' => still s' ∧
        commits s' (.profile l) ∧ s'.regs = s.regs) ∧
    (stpMode s n = 3 → firstRefusal (planConds s n) = .ok → isWebMaster (s.stpRec n) = false → (s.stp[n]).v = 0 →
      (s.stp[n]).plan = none → Leaves (.stpGo t n) s fun s' => still s' ∧ commits s' .gear ∧ s'.regs = s.regs) ∧
    (stpMode s n < 2 → exec (.stpGo t n) s = .next (after t s id)) ∧
    (bitsOf w 11 8 ≤ 8 → ((s.stp[n]).en = false ∨ bitsOf w 11 8 = bitsOf (s.rd Reg.stpCfg n) 11 8) →
      (isWebMaster (s.stpRec n) = false ∨ bitsOf w 1 0 = 1) → Leaves (.stpModeChange t n w) s fun s' => still s' ∧
        (s.regsSorted = true → s'.rd Reg.stpCfg n = w &&& Reg.stpCfg.rw) ∧
        (bitsOf w 1 0 ≠ bitsOf (s.rd Reg.stpCfg n) 1 0 → commits s' .mode ∧
          (stpMode s n = 3 → (s'.stp[n]).gearPend = [])) ∧
        (bitsOf w 1 0 = bitsOf (s.rd Reg.stpCfg n) 1 0 → s'.stp = s.stp)) ∧
    (8 < bitsOf w 11 8 → (s.stp[n]).en = false → (isWebMaster (s.stpRec n) = false ∨ bitsOf w 1 0 = 1) →
      exec (.stpModeChange t n w) s = .next (after t s fun s => s.recordErr Reg.stpErr n (stpOffset n 0x08) .range)) ∧
    (∀ hi, (s.stp[n]).v = 0 → (s.stp[n]).plan = none → 0 ≤ (s.stp[n]).p → (s.stp[n]).p < 2 ^ 32 → (s.stp[n]).f < 2 ^ 40 →
      w.toNat < 2 ^ 13 → Leaves (.stpPosWrite t n hi w) s fun s' =>
        (s'.stp[n]).p = (if hi then (w.toNat : Int) * 2 ^ 32 + (s.stp[n]).p else (w.toNat : Int)) ∧ (s'.stp[n]).p0 = (s'.stp[n]).p ∧
        (s'.stp[n]).c0 = stpCount s n ∧ (∀ m, m ≠ n → s'.stp[m] = s.stp[m]) ∧ s'.regs = s.regs) ∧
    (∀ hi, (s.stp[n]).plan ≠ none → Leaves (.stpPosWrite t n hi w) s fun s' => s'.fld Reg.stpErr n 7 0 = 3 ∧
      s'.fld Reg.stpErr n 23 8 = stpOffset n (if hi then 0x2C else 0x28) ∧ (s'.stp[n]).p0 = (s.stp[n]).p0) ∧
    ((s.stp[n]).gearPend.length < 8 → s.rd64 Reg.stpGearCntLo Reg.stpGearCntHi n ≠ gearCount s n →
      exec (.stpGearPush t n) s = .next (after t s fun s => s.modStp n fun x => { x with
        gearPend := x.gearPend ++ [(s.rd64 Reg.stpGearCntLo Reg.stpGearCntHi n, signed 32 (s.rd Reg.stpGearRatio n).toNat)] })) ∧
    (8 ≤ (s.stp[n]).gearPend.length →
      exec (.stpGearPush t n) s = .next (after t s fun s => s.recordErr Reg.stpErr n (stpOffset n 0x6C) .busy)) ∧
    ((s.stp[n]).gearPend.length < 8 → s.rd64 Reg.stpGearCntLo Reg.stpGearCntHi n = gearCount s n →
      exec (.stpGearPush t n) s = .next (after t s fun s => s.recordErr Reg.stpErr n (stpOffset n 0x6C) .range)) ∧
    (firstRefusal (stpHomeConds s index vel timeout backoff ihome) = .ok →
      Leaves (.axisHomeStepper t index vel timeout homePos backoff ihome) s fun s' =>
        (s'.stp[Fin.ofNat 16 index]).home = some ⟨vel, max s.now t + timeout * 8000000, homePos, backoff, ihome, false, 0⟩ ∧
        (s'.stp[Fin.ofNat 16 index]).reqs = [] ∧ (∀ m, m ≠ Fin.ofNat 16 index → s'.stp[m] = s.stp[m]) ∧ s'.ba = s.ba ∧
        s'.supRing = s.supRing) ∧
    (s.modeIn [.standby, .service] = false → Refuses (.axisHomeStepper t index vel timeout homePos backoff ihome) t s .badMode) ∧
    (s.modeIn [.standby, .service] = true → (16 ≤ index ∨ vel = 0 ∨ timeout < 1 ∨ 600000 < timeout ∨ ihome < 1 ∨ 255 < ihome) →
      Refuses (.axisHomeStepper t index vel timeout homePos backoff ihome) t s .range) ∧
    (∀ h, (s.stp[n]).home = some h → h.backing = false → h.deadline ≤ max s.now t → Leaves (.stpHomeTimeout t n) s fun s' =>
      (s'.stp[n]).home = none ∧ (s'.stp[n]).v = 0 ∧ (s'.stp[n]).plan = none ∧ (s'.stp[n]).posUnsure = (s.stp[n]).posUnsure ∧
      s'.supRing.running = none ∧ (∀ m, m ≠ n → s'.stp[m] = s.stp[m]) ∧ s'.ba = s.ba) ∧
    (∀ h, (s.stp[n]).home = some h → max s.now t < h.deadline → exec (.stpHomeTimeout t n) s = .next (after t s id)) ∧
    (encInUse s n = false → 2 ≤ bitsOf w 11 0 → bitsOf w 11 0 ≤ 4000 → Leaves (.encCfgWrite t n w) s fun s' =>
      (s.regsSorted = true → s'.rd Reg.encCfg n = w &&& Reg.encCfg.rw) ∧ (s'.enc[n]).c = (s.enc[n]).c ∧
      (s.fld Reg.encCfg n 18 18 = 0 → bitsOf w 18 18 = 1 → (s'.enc[n]).accA = (s.enc[n]).a ∧ (s'.enc[n]).accB = (s.enc[n]).b) ∧
      (∀ m, m ≠ n → s'.enc[m] = s.enc[m]) ∧ s'.stp = s.stp) ∧
    (encInUse s n = true → exec (.encCfgWrite t n w) s = .next (after t s id))

/-- STEPPER_UPDATE, CHOPPER_TRIP, CHOPPER_OFF_TIME_END, DRIVE_PHASE_TIMEOUT, HOLD_DELAY_EXPIRY, STP_DRIVER_FAULT. A
threshold of DAC times 2 mV is log entry 30. -/
def Obligations.StepperRuns : Prop :=
  ∀ (t : Nat) (n : Fin 16) (phaseB : Bool) (mv lowNs : Nat) (s : State),
    let c := chopOf s n phaseB
    let faulted (s' : State) (code : Nat) : Prop := (s'.stp[n]).fault = code ∧ (s'.stp[n]).en = false ∧ (s'.stp[n]).v = 0 ∧
      ((s.stp[n]).v ≠ 0 → (s'.stp[n]).posUnsure = true) ∧ bitOf s' Reg.evtAlarmLatch 0 20 = true
    ((s.stpRec n).isNone = true → exec (.stepperUpdate t n) s = .next (after t s id)) ∧
    (∀ r, s.stpRec n = some r → axisEnc (some r) = none → (s.stp[n]).en = true → (s.stp[n]).v = 0 → (s.stp[n]).f < 2 ^ 40 →
      (s.stp[n]).plan = none → (s.stp[n]).gear = none → (s.stp[n]).reqs = [] → (s.stp[n]).home = none →
      Leaves (.stepperUpdate t n) s fun s' => (s'.stp[n]).p = (s.stp[n]).p ∧ (s'.stp[n]).v = 0 ∧ (s'.stp[n]).en = true ∧
        (s'.stp[n]).clamps = 0 ∧ (s'.stp[n]).fault = (s.stp[n]).fault ∧ (∀ m, m ≠ n → s'.stp[m] = s.stp[m]) ∧ s'.ba = s.ba) ∧
    (c.st = .drive → c.since + s.fld Reg.stpChop n 7 0 * 80 ≤ max s.now t → c.dac * 2000 < mv →
      exec (.chopperTrip t n phaseB mv) s = .next (after t s fun s =>
        setChop n phaseB { c with st := .slow, since := s.now, full := 0 } s)) ∧
    (c.st ≠ .drive ∨ mv ≤ c.dac * 2000 ∨ max s.now t < c.since + s.fld Reg.stpChop n 7 0 * 80 →
      exec (.chopperTrip t n phaseB mv) s = .next (after t s id)) ∧
    (c.st = .slow → c.dac ≠ 0 → c.since + (decayTimes s n).1 ≤ max s.now t → (decayTimes s n).2 ≠ 0 →
      exec (.chopperOffTimeEnd t n phaseB) s = .next (after t s fun s =>
        setChop n phaseB { c with st := .fast, since := s.now } s)) ∧
    ((c.st = .slow ∧ c.dac ≠ 0 ∧ c.since + (decayTimes s n).1 ≤ max s.now t ∧ (decayTimes s n).2 = 0) ∨
        (c.st = .fast ∧ c.since + (decayTimes s n).2 ≤ max s.now t) →
      exec (.chopperOffTimeEnd t n phaseB) s = .next (after t s (driveStart n phaseB))) ∧
    ((c.st = .slow ∧ c.dac ≠ 0 ∧ max s.now t < c.since + (decayTimes s n).1) ∨ c.st = .drive ∨ c.st = .off →
      exec (.chopperOffTimeEnd t n phaseB) s = .next (after t s id)) ∧
    (c.st = .drive → c.since + 800000 ≤ max s.now t → (c.dac < 16 ∨ c.full < 7) →
      exec (.drivePhaseTimeout t n phaseB) s = .next (after t s fun s =>
        setChop n phaseB { c with st := .slow, since := s.now, full := if 16 ≤ c.dac then c.full + 1 else 0 } s)) ∧
    (c.st = .drive → c.since + 800000 ≤ max s.now t → 16 ≤ c.dac → 7 ≤ c.full → (s.stp[n]).en = true → (s.stp[n]).fault = 0 →
      Leaves (.drivePhaseTimeout t n phaseB) s fun s' => faulted s' 2 ∧ (s'.stp[n]).power = false) ∧
    (max s.now t < c.since + 800000 → exec (.drivePhaseTimeout t n phaseB) s = .next (after t s id)) ∧
    (∀ z, (s.stp[n]).zeroSince = some z → (s.stp[n]).v = 0 → (s.stp[n]).plan = none → (s.stp[n]).reqs = [] →
      z + s.fld Reg.stpCur n 31 16 * 8000000 ≤ max s.now t → exec (.holdDelayExpiry t n) s =
        .next (after t s fun s => s.modStp n fun x => { x with holdCur := true })) ∧
    (∀ z, (s.stp[n]).zeroSince = some z → max s.now t < z + s.fld Reg.stpCur n 31 16 * 8000000 →
      exec (.holdDelayExpiry t n) s = .next (after t s id)) ∧
    (1000 ≤ lowNs → (s.stp[n]).en = true → (s.stp[n]).fault = 0 → Leaves (.stpDriverFault t n lowNs) s fun s' =>
      faulted s' 1 ∧ (s'.stp[n]).power = false) ∧
    (1000 ≤ lowNs → (s.stp[n]).fault ≠ 0 → Leaves (.stpDriverFault t n lowNs) s fun s' =>
      (s'.stp[n]).fault = (s.stp[n]).fault ∧ s'.fld Reg.stpErr n 31 24 = min 255 (s.fld Reg.stpErr n 31 24 + 1) ∧
      (∀ m, m ≠ n → s'.stp[m] = s.stp[m]) ∧ s'.ba = s.ba) ∧
    (lowNs < 1000 → exec (.stpDriverFault t n lowNs) s = .next (after t s fun s =>
      s.modStp n fun x => { x with driverLow := decide (0 < lowNs) }))
/-! ## Power, memory and the job store (chapters 16, 17) -/

/-- POWER_ESTIMATE, GRANT_ALLOCATION, CLUSTER_POWER_ON_DONE, OPERATING_POINT_CHANGE_DONE. The plan while D is not known is
log entry 40; SENSOR_CONVERSION. -/
def Obligations.Power : Prop :=
  (∀ (t : Nat) (sample : PowerSample) (n : Fin 16) (s : State),
    (Leaves (.powerEstimate t sample) s fun s' =>
      s'.pwr.samples = keep16 (max s.now t) ((max s.now t, sample.total, floorSample sample) :: s.pwr.samples) ∧
      (∀ x ∈ s'.pwr.samples, x.2.2 ≤ s'.pwr.floor) ∧ (∃ x ∈ s'.pwr.samples, x.2.2 = s'.pwr.floor) ∧
      (∀ x ∈ s'.pwr.samples, max s.now t ≤ x.1 + 128000000) ∧ s'.regs = s.regs ∧ s'.jobs = s.jobs ∧ SameMotion s s') ∧
    (Leaves (.grantAllocation t) s fun s' =>
      let dem := demands (s.arrive t)
      let mins := (minGrants dem).sum
      s'.pwr.kitty = 1000 * s.fld Reg.pwrCap 0 7 0 - s.pwr.floor - 1000 * s.fld Reg.pwrCap 0 21 16 ∧
      s'.pwr.gCmp + s'.pwr.gIns + s'.pwr.gDma + s'.pwr.gFab ≤ max s'.pwr.kitty mins ∧
      (0 < dem.getD 0 0 → 2400 ≤ s'.pwr.gCmp) ∧ (0 < dem.getD 1 0 → 600 ≤ s'.pwr.gIns) ∧
      s'.pwr.gCmp ≤ max (dem.getD 0 0) 2400 ∧ s'.pwr.gIns ≤ max (dem.getD 1 0) 600 ∧ s'.pwr.gDma ≤ dem.getD 2 0 ∧
      s'.pwr.gFab ≤ dem.getD 3 0 ∧ (s.cmp.demand ≠ none → s'.pwr.planOp ≤ opMax s ∧ opMw s'.pwr.planOp * s'.pwr.planN ≤ s'.pwr.gCmp) ∧
      s'.pwr.planN ≤ availableCount s ∧ s'.pwr.kins = 1000 * min 8 (s'.pwr.gIns / 600) ∧
      (s'.pwr.overCap = true ↔ 1000 * s.fld Reg.pwrCap 0 7 0 < s.pwr.floor + 1000 * s.fld Reg.pwrCap 0 21 16 + mins) ∧
      (s'.pwr.overCap = true → s.pwr.overCap = false → bitOf s' Reg.evtAlarmLatch 0 21 = true) ∧ s'.jobs = s.jobs ∧
      SameMotion s s') ∧
    ((s.clusters[n]).power = .rising → (s.clusters[n]).since + 200000 ≤ max s.now t →
      Leaves (.clusterPowerOnDone t n) s fun s' => (s'.clusters[n]).power = .on ∧
        (s'.clusters[n]).granted = (s.clusters[n]).granted ∧ (∀ m, m ≠ n → s'.clusters[m] = s.clusters[m]) ∧ s'.jobs = s.jobs ∧
        s'.regs = s.regs) ∧
    ((s.clusters[n]).power ≠ .rising ∨ max s.now t < (s.clusters[n]).since + 200000 →
      exec (.clusterPowerOnDone t n) s = .next (after t s id)) ∧
    (∀ op, (s.clusters[n]).opNext = some op → (s.clusters[n]).slice = none → (s.clusters[n]).power = .on →
      (s.clusters[n]).since + 80000 ≤ max s.now t → Leaves (.operatingPointChangeDone t n) s fun s' =>
        (s'.clusters[n]).op = op ∧ (s'.clusters[n]).opNext = none ∧ (∀ m, m ≠ n → s'.clusters[m] = s.clusters[m]) ∧
        s'.jobs = s.jobs ∧ s'.regs = s.regs) ∧
    ((s.clusters[n]).slice.isSome = true ∨ max s.now t < (s.clusters[n]).since + 80000 →
      exec (.operatingPointChangeDone t n) s = .next (after t s id))) ∧
  (∀ (t : Nat) (n : Fin 16) (temp : Int) (s : State),
    (s.pwr.discard.getLsbD (n / 4) = true → exec (.sensorConversion t n temp) s = .next (after t s fun s =>
      s.modPwr fun p => { p with discard := p.discard &&& ~~~(1#4 <<< (n.val / 4)) })) ∧
    (s.pwr.discard.getLsbD (n / 4) = false → -640 ≤ temp → temp ≤ 2400 → Leaves (.sensorConversion t n temp) s fun s' =>
      let code := max 0 (min 0xFFE (temp + 1024 + sensorTrim s n))
      ((s'.pwr.sensors[n]).code : Int) = code ∧ (s'.pwr.sensors[n]).valid = true ∧ (s'.pwr.sensors[n]).ovr = false ∧
      (1840 ≤ code - 1024 → (s'.pwr.sensors[n]).hot = true) ∧ (code - 1024 < 1760 → (s'.pwr.sensors[n]).hot = false) ∧
      (2000 ≤ code - 1024 → (s'.pwr.sensors[n]).shut = true) ∧ (code - 1024 < 1760 → (s'.pwr.sensors[n]).shut = false) ∧
      (1760 ≤ code - 1024 → code - 1024 < 1840 → (s'.pwr.sensors[n]).hot = (s.pwr.sensors[n]).hot) ∧
      ((s'.pwr.sensors[n]).shut = true → (s.pwr.sensors[n]).shut = false → (s'.clusters[n]).power = .off ∧
        (s'.clusters[n]).slice = none ∧ bitOf s' Reg.evtAlarmLatch 0 22 = true) ∧
      s'.pwr.discard = s.pwr.discard ∧ (∀ m, m ≠ n → s'.pwr.sensors[m] = s.pwr.sensors[m])) ∧
    (s.pwr.discard.getLsbD (n / 4) = false → (temp < -640 ∨ 2400 < temp) → Leaves (.sensorConversion t n temp) s fun s' =>
      (s'.pwr.sensors[n]).code = 0xFFF ∧ (s'.pwr.sensors[n]).ovr = true ∧ s'.fld Reg.pwrTs n 16 16 = 1 ∧
      (s'.pwr.sensors[n]).last = (s.pwr.sensors[n]).last ∧ s'.pwr.discard.getLsbD (n / 4) = true ∧
      (∀ m, m ≠ n → s'.pwr.sensors[m] = s.pwr.sensors[m])))

/-- SRAM_PATROL_SCRUB, HBM_PATROL, MARCH_RUN, MARCH_BANK_DONE, WIPE_VERIFY_DONE, HBM_REFRESH_DOUBLE. Which course or item held
a lost word is a free value (log entry 1); JS_ATTACH, JS_DETACH, NVME_READ_TIMEOUT. -/
def Obligations.Memories : Prop :=
  (∀ (t : Nat) (bank : Fin 128) (stack : Fin 4) (word addr first count alg mode spares : Nat) (celsius : Int) (skipped : Bool)
      (outcome : MarchOutcome) (env : BootEnv) (s : State), s.ringsRun = true →
    let b := s.mem.banks[bank]
    let seen := ((b.rows.find? fun r => r.1 == word / 256).map (·.2)).getD 0
    (word < 131072 → exec (.sramPatrolScrub t bank word .clean env) s = .next (after t s fun s =>
      s.modBank bank fun b => { b with poisoned := b.poisoned.filter (· != word) })) ∧
    (word < 131072 → Leaves (.sramPatrolScrub t bank word .correctable env) s fun s' =>
      (s'.mem.banks[bank]).ce = min 65535 (b.ce + 1) ∧
      (s'.rd Reg.memCeTotal).toNat = min ((s.rd Reg.memCeTotal).toNat + 1) 0xFFFFFFFF ∧
      (seen = 3 → b.spares < 4 → (s'.mem.banks[bank]).spares = b.spares + 1 ∧ (s'.mem.banks[bank]).st = b.st) ∧
      (seen = 3 → 4 ≤ b.spares → b.st = .ok → (s'.mem.banks[bank]).st = .degraded ∧ bitOf s' Reg.evtAlarmLatch 0 23 = true) ∧
      (seen ≠ 3 → (s'.mem.banks[bank]).spares = b.spares ∧ (s'.mem.banks[bank]).st = b.st) ∧
      (s'.mem.banks[bank]).poisoned = b.poisoned ∧ (∀ m, m ≠ bank → s'.mem.banks[m] = s.mem.banks[m]) ∧ SamePrint s s' ∧
      SameMotion s s') ∧
    (word < 131072 → bank.val < 124 → Leaves (.sramPatrolScrub t bank word .uncorrectable env) s fun s' =>
      (s'.mem.banks[bank]).ue = min 255 (b.ue + 1) ∧ word ∈ (s'.mem.banks[bank]).poisoned ∧
      s'.mem.lastUe = (bank.val, word, false) ∧
      (s'.rd Reg.memUeTotal).toNat = min ((s.rd Reg.memUeTotal).toNat + 1) 0xFFFFFFFF) ∧
    (addr < 103079215104 → exec (.hbmPatrol t addr .clean) s = .next (after t s id) ∧
      exec (.hbmPatrol t addr .correctable) s = .next (after t s fun s => s.count Reg.hbmCe (addr / 25769803776)) ∧
      Leaves (.hbmPatrol t addr .uncorrectable) s fun s' => s'.mem.hbmLastUe = addr ∧
        (s'.rd Reg.hbmUe (addr / 25769803776)).toNat = min ((s.rd Reg.hbmUe (addr / 25769803776)).toNat + 1) 0xFFFFFFFF) ∧
    (exec (.hbmRefreshDouble t stack celsius) s = .next (after t s fun s => s.modMem fun m =>
      { m with hbm := upd m.hbm stack fun k => { k with temp := celsius, refresh2x := decide (85 < celsius) } })) ∧
    (first ≤ 127 → 1 ≤ count → first + count ≤ 128 → 1 ≤ alg → alg ≤ 3 → mode ≤ 1 → s.mem.march = none →
      (mode = 1 ∨ (s.dev.mode = .service ∧ first + count ≤ 120)) →
      exec (.marchRun t first count alg mode) s = .next (after t s fun s => s.modMem fun m =>
        { m with march := some ⟨first, count, alg, mode == 0, [0, 0, 0, 0]⟩ })) ∧
    (127 < first ∨ count < 1 ∨ 128 < first + count ∨ alg < 1 ∨ 3 < alg ∨ 1 < mode →
      Refuses (.marchRun t first count alg mode) t s .range) ∧
    (first ≤ 127 → 1 ≤ count → first + count ≤ 128 → 1 ≤ alg → alg ≤ 3 → mode = 0 →
      (s.mem.march.isSome = true → Refuses (.marchRun t first count alg mode) t s .busy) ∧
      (s.mem.march = none → s.dev.mode ≠ .service → Refuses (.marchRun t first count alg mode) t s .badMode) ∧
      (s.mem.march = none → s.dev.mode = .service → 120 < first + count →
        Refuses (.marchRun t first count alg mode) t s .badState)) ∧
    (∀ m, s.mem.march = some m → m.bank < 128 → outcome ≠ .failed → Leaves (.marchBankDone t outcome spares skipped) s fun s' =>
      let n := Fin.ofNat 128 m.bank
      (s'.mem.banks[n]).march = marchIdx outcome + 1 ∧ (s'.mem.banks[n]).st = (s.mem.banks[n]).st ∧
      (m.left ≤ 1 → s'.mem.march = none ∧ s'.supRing.running = none) ∧
      (1 < m.left → s'.mem.march = some { m with bank := m.bank + 1, left := m.left - 1, counts := marchCount m outcome skipped }) ∧
      (m.destructive = true → (s'.mem.banks[n]).poisoned = []) ∧ (∀ k, k ≠ n → s'.mem.banks[k] = s.mem.banks[k]) ∧
      SamePrint s s' ∧ SameMotion s s') ∧
    (∀ m, s.mem.march = some m → m.bank < 128 → Leaves (.marchBankDone t .failed spares skipped) s fun s' =>
      (s'.mem.banks[Fin.ofNat 128 m.bank]).st = .failed) ∧
    (s.mem.march = none → exec (.marchBankDone t outcome spares skipped) s = .next (after t s id)) ∧
    (s.mem.wiping = false → ∀ ok, exec (.wipeVerifyDone t ok) s = .next (after t s id)) ∧
    (s.mem.wiping = true → Leaves (.wipeVerifyDone t true) s fun s' => s'.mem.wiping = false ∧ s'.mem.wipeFail = s.mem.wipeFail) ∧
    (s.mem.wiping = true → s.mem.wipeTries = 0 → exec (.wipeVerifyDone t false) s = .next (after t s fun s =>
      s.modMem fun m => { m with wipeTries := 1 })) ∧
    (s.mem.wiping = true → s.mem.wipeTries ≠ 0 → Leaves (.wipeVerifyDone t false) s fun s' =>
      s'.mem.wiping = false ∧ s'.mem.wipeFail = true ∧ bitOf s' Reg.evtAlarmLatch 0 25 = true)) ∧
  (∀ (t : Nat) (w : Word) (present info : Bool) (lba cap : Nat) (ctx : Fin 64) (s : State), s.ringsRun = true →
    (s.modeIn [.configure, .standby, .service] = true → s.pci.rpUp = true → present = true → bitsOf w 15 0 ≠ 0 →
      bitsOf w 18 16 < s.pci.rpCtrls → (lba = 9 ∨ lba = 12) →
      (info = false → exec (.jsAttach t w present lba cap info) s = .next (after t s fun s => s.modJs (jsSel s) fun x =>
        { x with attached := true, ctrl := bitsOf w 18 16, nsid := bitsOf w 15 0, cap := min cap (2 ^ 48), lba := lba - 9 })) ∧
      (info = true → exec (.jsAttach t w present lba cap info) s = .next (after t s fun s =>
        s.recordErr Reg.memErr 0 0x44 .format))) ∧
    (s.modeIn [.configure, .standby, .service] = true → s.pci.rpUp = false →
      exec (.jsAttach t w present lba cap info) s = .next (after t s fun s => s.recordErr Reg.memErr 0 0x44 .notReady)) ∧
    (s.modeIn [.configure, .standby, .service] = true → s.pci.rpUp = true → (present = false ∨ (lba ≠ 9 ∧ lba ≠ 12)) →
      exec (.jsAttach t w present lba cap info) s = .next (after t s fun s => s.recordErr Reg.memErr 0 0x44 .range)) ∧
    (s.modeIn [.configure, .standby, .service] = true → jsInUse s (jsSel s) = false →
      exec (.jsDetach t w) s = .next (after t s fun s => s.modJs (jsSel s) fun x =>
        { x with attached := false, ctrl := bitsOf w 18 16, nsid := bitsOf w 15 0, cap := 0, lba := 0 })) ∧
    (s.modeIn [.configure, .standby, .service] = true → jsInUse s (jsSel s) = true →
      exec (.jsDetach t w) s = .next (after t s fun s => s.recordErr Reg.memErr 0 0x44 .badState)) ∧
    (∀ x, (s.jobs[ctx]).nvmeWait = some x → (x + 40000000000 ≤ max s.now t → exec (.nvmeReadTimeout t ctx) s =
        .next (after t s fun s => complete (.job ctx) .timeout 0 (s.modJob ctx fun j => { j with nvmeWait := none, held := [] }))) ∧
      (max s.now t < x + 40000000000 → exec (.nvmeReadTimeout t ctx) s = .next (after t s id))))

/-! ## Data movers (chapter 18) -/

/-- DMA_START, DMA_ABORT, DMA_DB_RD, DMA_DB_WR, DMA_READBACK_DONE, DMA_ERROR. How much of the write list is left beyond the
present descriptor is a free value (log entry 1); DMA_BURST_COMPLETE, DMA_REQUEST_LINE, TOKEN_BUCKET_REFILL. -/
def Obligations.DataMovers : Prop :=
  (∀ (t : Nat) (ch : Fin 32) (d : DmaDesc) (readSide : Bool) (err : DmaError) (s : State), s.ringsRun = true →
    let c := s.dma[ch]
    let others (s' : State) : Prop := (∀ m, m ≠ ch → s'.dma[m] = s.dma[m]) ∧ SamePrint s s' ∧ SameMotion s s'
    let stops (s' : State) (code side : Nat) : Prop := (s'.dma[ch]).st = .aborting ∧ (s'.dma[ch]).code = code ∧
      (s'.dma[ch]).side = side ∧ (s'.dma[ch]).discard = c.rd.bytes - c.wr.bytes ∧ (s'.dma[ch]).rd.pend = false ∧
      (s'.dma[ch]).wr.pend = false ∧ (c.wr.atEnd = true → (s'.dma[ch]).residue = 0) ∧ s'.out = (s.arrive t).out ∧ others s'
    ((c.st = .idle ∨ c.st = .done ∨ c.st = .stopped) → s.isDisabled 0x0D ch = false →
      ¬(s.fld Reg.dmaCfg ch 16 16 = 1 ∧ s.fld Reg.dmaCfg ch 12 8 = ch.val) → Leaves (.dmaStart t ch) s fun s' =>
        (s'.dma[ch]).st = (if s.fld Reg.dmaCfg ch 16 16 = 1 then .armed else .run) ∧
        (s'.dma[ch]).rd = sideAt (dmaPointer s Reg.dmaRdlistLo Reg.dmaRdlistHi ch) ∧
        (s'.dma[ch]).wr = sideAt (dmaPointer s Reg.dmaWrlistLo Reg.dmaWrlistHi ch) ∧ s'.regs = s.regs ∧ others s') ∧
    (c.st ≠ .idle → c.st ≠ .done → c.st ≠ .stopped → exec (.dmaStart t ch) s = .next (after t s fun s =>
      s.recordErr Reg.dmaErr 0 (dmaOffset ch 0) .badState)) ∧
    ((c.st = .idle ∨ c.st = .done ∨ c.st = .stopped) → s.isDisabled 0x0D ch = false → s.fld Reg.dmaCfg ch 16 16 = 1 →
      s.fld Reg.dmaCfg ch 12 8 = ch.val → exec (.dmaStart t ch) s = .next (after t s fun s =>
        s.recordErr Reg.dmaErr 0 (dmaOffset ch 0) .range)) ∧
    ((c.st = .run ∨ c.st = .wait ∨ c.st = .armed) →
      Leaves (.dmaAbort t ch) s (fun s' => stops s' 0x0D 0 ∧ s'.regs = s.regs) ∧
      Leaves (.dmaError t ch readSide err) s (fun s' => stops s' (dmaErrorCode err).code (if readSide then 1 else 0))) ∧
    (c.st ≠ .run → c.st ≠ .wait → c.st ≠ .armed → exec (.dmaAbort t ch) s = .next (after t s id) ∧
      (err ≠ .nvmeError → exec (.dmaError t ch readSide err) s = .next (after t s id))) ∧
    ((c.st = .run ∨ c.st = .wait ∨ c.st = .armed ∨ c.st = .done) →
      (c.rd.atEnd = false → exec (.dmaDbRd t ch d) s = .next (after t s fun s =>
        s.modDma ch fun c => { c with rd := { c.rd with pend := true } })) ∧
      (c.wr.atEnd = false → exec (.dmaDbWr t ch d) s = .next (after t s fun s =>
        s.modDma ch fun c => { c with wr := { c.wr with pend := true } })) ∧
      (c.rd.atEnd = true → d.isLink = true → descError s ch false d = none → Leaves (.dmaDbRd t ch d) s fun s' =>
        (s'.dma[ch]).rd = { c.rd with atEnd := false, addr := d.addr, space := d.space } ∧ (s'.dma[ch]).wr = c.wr ∧
        ((s'.dma[ch]).st = .run ∨ (s'.dma[ch]).st = .wait) ∧ s'.regs = s.regs ∧ others s') ∧
      (c.wr.atEnd = true → d.isLink = true → descError s ch true d = none → Leaves (.dmaDbWr t ch d) s fun s' =>
        (s'.dma[ch]).wr = { c.wr with atEnd := false, addr := d.addr, space := d.space } ∧ (s'.dma[ch]).rd = c.rd ∧
        ((s'.dma[ch]).st = .run ∨ (s'.dma[ch]).st = .wait) ∧ s'.regs = s.regs ∧ others s') ∧
      (c.rd.atEnd = true → d.isLink = false → descError s ch false d = none →
        exec (.dmaDbRd t ch d) s = .next (after t s id))) ∧
    (c.st = .stopped → exec (.dmaDbRd t ch d) s = .next (after t s id) ∧ exec (.dmaDbWr t ch d) s = .next (after t s id)) ∧
    (c.st = .aborting → Leaves (.dmaReadbackDone t ch) s fun s' => s'.dma[ch] = { c with st := .stopped } ∧ s'.regs = s.regs ∧
      others s' ∧ ∃ l, s'.out = (s.arrive t).out ++ l) ∧
    (c.st = .run → c.rd.atEnd = true → c.wr.atEnd = true → c.rd.bytes = c.wr.bytes → Leaves (.dmaReadbackDone t ch) s fun s' =>
      s'.dma[ch] = { c with st := .done, written := 0 } ∧
      (s'.rd Reg.dmaDones ch).toNat = min ((s.rd Reg.dmaDones ch).toNat + 1) 0xFFFFFFFF ∧
      (∀ m, m ≠ ch → (s.dma[m]).st = .armed → s.fld Reg.dmaCfg m 12 8 = ch.val → (s'.dma[m]).st = .run) ∧
      (∀ m, m ≠ ch → ((s.dma[m]).st ≠ .armed ∨ s.fld Reg.dmaCfg m 12 8 ≠ ch.val) → s'.dma[m] = s.dma[m]) ∧ SamePrint s s' ∧
      SameMotion s s') ∧
    (c.st ≠ .aborting → c.st ≠ .run → exec (.dmaReadbackDone t ch) s = .next (after t s id))) ∧
  (∀ (t : Nat) (ch : Fin 32) (b : DmaBurst) (line : Nat) (s : State), s.ringsRun = true →
    let c := s.dma[ch]
    (c.st ≠ .run → c.st ≠ .wait → exec (.dmaBurstComplete t ch b) s = .next (after t s id)) ∧
    (Leaves (.dmaBurstComplete t ch b) s fun s' =>
      (c.wr.bytes ≤ c.rd.bytes → c.rd.bytes ≤ c.wr.bytes + 65536 →
        (s'.dma[ch]).wr.bytes ≤ (s'.dma[ch]).rd.bytes ∧ (s'.dma[ch]).rd.bytes ≤ (s'.dma[ch]).wr.bytes + 65536) ∧
      (∀ m, m ≠ ch → s'.dma[m] = s.dma[m]) ∧ s'.regs = s.regs ∧ SamePrint s s' ∧ SameMotion s s') ∧
    (∀ d bytes, c.st = .run → c.wr.desc = some d → 0 < bytes → burstFits s ch c.wr d bytes = true → bytes + c.wr.bytes ≤ c.rd.bytes →
      (0 < s.pwr.dmaBucket.tokens → Leaves (.dmaBurstComplete t ch ⟨false, bytes, []⟩) s fun s' =>
        (s'.dma[ch]).wr.bytes = c.wr.bytes + bytes ∧ (s'.dma[ch]).rd = c.rd ∧
        s'.pwr.dmaBucket.tokens = s.pwr.dmaBucket.tokens - bytes ∧ (s'.dma[ch]).written.getLsbD d.space = decide (d.space < 4)) ∧
      (s.pwr.dmaBucket.tokens = 0 → Leaves (.dmaBurstComplete t ch ⟨false, bytes, []⟩) s fun s' =>
        (s'.dma[ch]).wr = c.wr ∧ (s'.dma[ch]).rd = c.rd ∧ s'.pwr = s.pwr)) ∧
    (∀ d, c.st = .run → c.rd.desc = some d → d.space = 3 → d.arg = line → Leaves (.dmaRequestLine t ch line) s fun s' =>
      (s'.dma[ch]).rd = { c.rd with req := true } ∧ (∀ m, m ≠ ch → s'.dma[m] = s.dma[m]) ∧ s'.regs = s.regs) ∧
    (c.st ≠ .run → c.st ≠ .wait → exec (.dmaRequestLine t ch line) s = .next (after t s id)) ∧
    (exec (.tokenBucketRefill t false) s = .next (after t s fun s => s.modPwr fun p => { p with dmaBucket :=
      { p.dmaBucket with at8 := s.now, tokens := (min p.dmaBucket.perMs
          (p.dmaBucket.tokens + p.dmaBucket.perMs * (s.now - p.dmaBucket.at8) / 8000000)) } })) ∧
    (s.xlk.bulkWait = [] → exec (.tokenBucketRefill t true) s = .next (after t s fun s => s.modPwr fun p => { p with fabBucket :=
      { p.fabBucket with at8 := s.now, tokens := (min p.fabBucket.perMs
          (p.fabBucket.tokens + p.fabBucket.perMs * (s.now - p.fabBucket.at8) / 8000000)) } })))

/-! ## The Xeuri fabric (chapter 19) -/

/-- XLK_HELLO_FRAME, XLK_HELLO_TIMEOUT, BULKDATA_FRAME, and LANE_TRAINING_DONE, LANE_DOWN_RETRAIN, PCS_ALIGNMENT_LOSS,
REL_RETRANSMIT and ACK_FRAME on the lanes of fabric ports. -/
def Obligations.FabricPorts : Prop :=
  ∀ (t : Nat) (n : Fin 32) (lane : Fin 64) (h : XlkHello) (seq src dst hops bytes : Nat) (s : State), s.ringsRun = true →
    let p := s.xlk.ports[n]
    let others (s' : State) : Prop := (∀ m, m ≠ n → (s'.xlk.ports[m]).st = (s.xlk.ports[m]).st) ∧ SamePrint s s' ∧ SameMotion s s'
    ((p.st = .hello ∨ p.st = .up) → h.proto ≤ 2 → Leaves (.xlkHelloFrame t n h) s fun s' => (s'.xlk.ports[n]).st = .up ∧
      (s'.xlk.ports[n]).neigh = h.addr ∧ (s'.xlk.ports[n]).neighUid = h.unitId ∧ (s'.xlk.ports[n]).rootId = h.rootId ∧
      (s'.xlk.ports[n]).rootDist = h.rootDist ∧ (s'.xlk.ports[n]).mismatch = false ∧
      (s'.xlk.ports[n]).lastHello = max s.now t ∧ others s') ∧
    ((p.st = .hello ∨ p.st = .up) → 2 < h.proto → exec (.xlkHelloFrame t n h) s = .next (after t s fun s =>
      s.modPort n fun p => { p with mismatch := true, lastHello := s.now })) ∧
    (p.st ≠ .hello → p.st ≠ .up → exec (.xlkHelloFrame t n h) s = .next (after t s id) ∧
      exec (.xlkHelloTimeout t n) s = .next (after t s id)) ∧
    ((p.st = .hello ∨ p.st = .up) → max p.since p.lastHello + 2400000 ≤ max s.now t → Leaves (.xlkHelloTimeout t n) s fun s' =>
      (s'.xlk.ports[n]).st = .down ∧ (s'.xlk.ports[n]).since = max s.now t ∧
      (p.st = .hello → (s'.xlk.ports[n]).rel = p.rel) ∧ others s') ∧
    (max s.now t < max p.since p.lastHello + 2400000 → exec (.xlkHelloTimeout t n) s = .next (after t s id)) ∧
    (lanePort s lane = some n →
      (p.st = .train → Leaves (.laneTrainingDone t lane false) s fun s' => (s'.xlk.ports[n]).st = .down ∧ others s') ∧
      (p.st = .train → (∀ k ∈ fabricLanes s n, k = lane.val ∨ k ∈ p.trained) → Leaves (.laneTrainingDone t lane true) s fun s' =>
        (s'.xlk.ports[n]).st = .hello ∧ s'.regs = s.regs ∧ others s') ∧
      (p.st ≠ .down → Leaves (.pcsAlignmentLoss t lane) s fun s' => (s'.xlk.ports[n]).st = .down ∧ others s') ∧
      (p.st = .down → exec (.pcsAlignmentLoss t lane) s = .next (after t s id)) ∧
      (qrefOn s lane = true → p.st = .down → p.since + 800000000 ≤ max s.now t → s.isDisabled 0x09 n = false →
        exec (.laneDownRetrain t lane) s = .next (after t s fun s => s.modPort n fun p => { p with st := .train, since := s.now })) ∧
      (max s.now t < p.since + 800000000 → exec (.laneDownRetrain t lane) s = .next (after t s id)) ∧
      (∀ r rest, p.rel = r :: rest → p.st = .up →
        (r.sentAt + 400000 ≤ max s.now t → r.tries < 16 → Leaves (.relRetransmit t lane) s fun s' =>
          (s'.xlk.ports[n]).rel = { r with sentAt := max s.now t, tries := r.tries + 1 } :: rest ∧
          s'.out = [.xlk (frameLane s n r.dst r.frame) r.dst r.frame] ∧ s'.regs = s.regs ∧ others s') ∧
        (r.sentAt + 400000 ≤ max s.now t → 16 ≤ r.tries → Leaves (.relRetransmit t lane) s fun s' =>
          (s'.xlk.ports[n]).st = .down ∧ others s') ∧
        (max s.now t < r.sentAt + 400000 → exec (.relRetransmit t lane) s = .next (after t s id))) ∧
      (∀ a r b, s.laneEp lane = none → (s.mlk.lanes[lane]).relOut = [] → p.relWait = [] → p.rel = a ++ r :: b → r.seq = seq →
        (∀ x ∈ a, x.seq ≠ seq) → Leaves (.ackFrame t lane seq) s fun s' => (s'.xlk.ports[n]).rel = b ∧ others s')) ∧
    ((s.xlk.addr = some dst ∨ dst = 0xFFFE) → dst ≠ 0xFFFF → exec (.bulkdataFrame t n src dst hops bytes) s = .next (after t s id)) ∧
    (s.xlk.addr ≠ some dst → dst ≠ 0xFFFE → dst ≠ 0xFFFF → (hops = 0 ∨ route s dst = none) →
      exec (.bulkdataFrame t n src dst hops bytes) s = .next (after t s fun s => s.count Reg.xlkDrop)) ∧
    (s.xlk.addr ≠ some dst → dst ≠ 0xFFFE → dst ≠ 0xFFFF → 0 < hops → (route s dst).isSome = true →
      (0 < s.pwr.fabBucket.tokens → Leaves (.bulkdataFrame t n src dst hops bytes) s fun s' =>
        s'.pwr.fabBucket.tokens = s.pwr.fabBucket.tokens - bytes ∧ s'.xlk.bulkWait = s.xlk.bulkWait ∧ s'.regs = s.regs) ∧
      (s.pwr.fabBucket.tokens = 0 → exec (.bulkdataFrame t n src dst hops bytes) s = .next (after t s fun s =>
        s.modXlk fun x => { x with bulkWait := x.bulkWait ++ [(src, dst, hops - 1, bytes)] }))) ∧
    ((route s src).bind (·.2.head?) ≠ some n.val → exec (.bulkdataFrame t n src 0xFFFF hops bytes) s = .next (after t s id))

/-- ROOT_CONVERGED, ASSIGN_FRAME, ADDRESS_HOLD_EXPIRY, LINKSTATE_SEND, LINKSTATE_FRAME, FABRIC_RESCAN, RESCAN_FRAME. -/
def Obligations.FabricAddresses : Prop :=
  ∀ (t : Nat) (found : List (Nat × Nat)) (busy : Bool) (uid addr gen src : Nat) (entries : List LinkEntry) (s : State),
    s.ringsRun = true →
    (s.xlk.rootId = some (unitId s) → s.xlk.rootKnown = false → s.xlk.rootSince + 16000000 ≤ max s.now t →
      Leaves (.rootConverged t found) s fun s' => s'.xlk.root = true ∧ s'.xlk.timeSynced = true ∧ s'.xlk.rootKnown = true ∧
        (s.xlk.held = [] → s'.xlk.addr = some 0) ∧ SamePrint s s' ∧ SameMotion s s') ∧
    (s.xlk.rootId.isSome = true → s.xlk.rootId ≠ some (unitId s) → s.xlk.rootKnown = false →
      s.xlk.rootSince + 16000000 ≤ max s.now t → exec (.rootConverged t found) s = .next (after t s fun s =>
        s.modXlk fun x => { x with rootKnown := true })) ∧
    (s.xlk.rootId = none ∨ s.xlk.rootKnown = true ∨ max s.now t < s.xlk.rootSince + 16000000 →
      exec (.rootConverged t found) s = .next (after t s id)) ∧
    (s.xlk.topoGen ≤ gen → addr < 256 → Leaves (.assignFrame t uid addr gen) s fun s' => s'.xlk.topoGen = gen ∧
      (∃ h ∈ s'.xlk.held, h.uid = uid ∧ h.addr = addr) ∧ (∀ h ∈ s'.xlk.held, h.addr = addr → h.uid = uid) ∧
      s'.xlk.addr = (if uid = unitId s then some addr else s.xlk.addr) ∧ s'.regs = s.regs ∧ SamePrint s s' ∧ SameMotion s s') ∧
    (gen < s.xlk.topoGen → exec (.assignFrame t uid addr gen) s = .next (after t s id) ∧
      exec (.linkstateFrame t src gen entries) s = .next (after t s id)) ∧
    (Leaves (.addressHoldExpiry t uid) s fun s' => (∀ h, h ∈ s'.xlk.held ↔
      h ∈ s.xlk.held ∧ ¬(h.uid = uid ∧ ∃ l, h.lostAt = some l ∧ l + 80000000000 ≤ max s.now t)) ∧ s'.xlk.addr = s.xlk.addr ∧
      s'.regs = s.regs ∧ SamePrint s s' ∧ SameMotion s s') ∧
    (s.xlk.addr.isSome = true → Leaves (.linkstateSend t) s fun s' => s'.out = (upPorts s).map (fun n =>
      .xlk (frameLane s n 0xFFFF (.linkstate s.xlk.topoGen (linkEntries s))) 0xFFFF (.linkstate s.xlk.topoGen (linkEntries s))) ∧
      s'.regs = s.regs ∧ SamePrint s s' ∧ SameMotion s s') ∧
    (s.xlk.addr = none → exec (.linkstateSend t) s = .next (after t s id)) ∧
    (s.xlk.topoGen ≤ gen → src < 256 → Leaves (.linkstateFrame t src gen entries) s fun s' =>
      s'.xlk.links = (s.xlk.links.filter fun l => l.src != src) ++ [⟨src, gen, entries⟩] ∧ s'.regs = s.regs ∧ SamePrint s s' ∧
      SameMotion s s') ∧
    (s.modeIn [.configure, .standby] = false → Refuses (.fabricRescan t found busy) t s .badMode) ∧
    (s.modeIn [.configure, .standby] = true → (s.xlk.addr = none ∨ busy = true ∨ s.anyActive = true ∨ s.xlk.role = .lead ∨
      s.xlk.role = .dummy) → Refuses (.fabricRescan t found busy) t s .badState) ∧
    (firstRefusal (rescanConds s busy) = .ok → s.xlk.root = false → exec (.fabricRescan t found busy) s = .next (after t s fun s =>
      complete .supervisor (if 255 < found.length then .fabricFull else .ok) (found.length + 1) s)) ∧
    (firstRefusal (rescanConds s busy) = .ok → s.xlk.root = true → Leaves (.fabricRescan t found busy) s fun s' =>
      s'.xlk.topoGen = s.xlk.topoGen + 1 ∧ s'.xlk.addr = some 0 ∧ s'.supRing.running = none ∧ SamePrint s s' ∧ SameMotion s s') ∧
    (s.xlk.topoGen < gen → exec (.rescanFrame t gen) s = .next (after t s fun s => s.modXlk fun x => { x with
      topoGen := gen, addr := none, held := [], links := [], full := false, rootSince := s.now, rootKnown := false })) ∧
    (gen ≤ s.xlk.topoGen → exec (.rescanFrame t gen) s = .next (after t s id))

/-- XLK_SYNC_SEND, XLK_SYNC_FRAME, SYNC_FOLLOW_TIMEOUT, TIME_PPS_EDGE, POSITION_BROADCAST, POSITION_FRAME, POSITION_SILENCE.
What a broadcast position does while a handover is armed or a job runs is not claimed here. -/
def Obligations.FabricTime : Prop :=
  ∀ (t : Nat) (n : Fin 32) (k t1 h2 h3 t4 highNs : Nat) (a : Int) (f : PositionFrame) (s : State), s.ringsRun = true →
    let err : Int := exchangeTheta t1 h2 h3 t4 - (s.arrive t).pressBase
    let same (s' : State) : Prop := s'.regs = s.regs ∧ SamePrint s s' ∧ SameMotion s s'
    (Leaves (.xlkSyncSend t) s fun s' => s'.xlk.exchange = some ⟨s.xlk.syncN, (s.arrive t).press⟩ ∧
      s'.xlk.syncN = (s.xlk.syncN + 1) % 2 ^ 32 ∧ s'.out = (upPorts s).map (fun m =>
        .xlk (frameLane s m 0xFFFE (.sync s.xlk.syncN (s.arrive t).press)) 0xFFFE (.sync s.xlk.syncN (s.arrive t).press)) ∧ same s') ∧
    (exec (.xlkSyncFrame t n (.sync k t1)) s = .next (after t s fun s =>
      s.emit (.xlk (frameLane s n 0xFFFE (.syncResp k s.now s.now)) 0xFFFE (.syncResp k s.now s.now)))) ∧
    ((∃ e, s.xlk.exchange = some e ∧ e.n = k) → exec (.xlkSyncFrame t n (.resp k h2 h3 t4)) s = .next (after t s fun s =>
      s.emit (.xlk (frameLane s n 0xFFFE (.syncFollow k t4)) 0xFFFE (.syncFollow k t4)))) ∧
    ((∀ e, s.xlk.exchange = some e → e.n ≠ k) → exec (.xlkSyncFrame t n (.resp k h2 h3 t4)) s = .next (after t s id)) ∧
    (parentPort s ≠ some n.val → exec (.xlkSyncFrame t n (.follow k a t1 h2 h3 t4)) s = .next (after t s id)) ∧
    (parentPort s = some n.val → s.xlk.timeSynced = false →
      (err.natAbs ≤ 8 → Leaves (.xlkSyncFrame t n (.follow k a t1 h2 h3 t4)) s fun s' => s'.xlk.goodEx = s.xlk.goodEx + 1 ∧
        (s'.xlk.timeSynced = true ↔ 8 ≤ s.xlk.goodEx + 1) ∧ s'.pressBase = (s.arrive t).pressBase ∧ s'.xlk.lastFollow = max s.now t ∧
        same s') ∧
      (8 < err.natAbs → s.anyActive = false → Leaves (.xlkSyncFrame t n (.follow k a t1 h2 h3 t4)) s fun s' =>
        s'.pressBase = (s.arrive t).pressBase + err ∧ s'.xlk.goodEx = 0 ∧ s'.xlk.timeSynced = false ∧ same s') ∧
      (8 < err.natAbs → s.anyActive = true → Leaves (.xlkSyncFrame t n (.follow k a t1 h2 h3 t4)) s fun s' =>
        s'.pressBase = (s.arrive t).pressBase ∧ s'.xlk.timeSynced = false ∧ bitOf s' Reg.evtAlarmLatch 0 28 = true ∧
        SamePrint s s' ∧ SameMotion s s')) ∧
    (parentPort s = some n.val → s.xlk.timeSynced = true → Leaves (.xlkSyncFrame t n (.follow k a t1 h2 h3 t4)) s fun s' =>
      s'.pressBase = (s.arrive t).pressBase ∧ s'.xlk.slew.natAbs ≤ 1600000 ∧
      (s'.xlk.timeSynced = false ↔ (32 < err.natAbs ∧ 1 ≤ s.xlk.badEx)) ∧ SamePrint s s' ∧ SameMotion s s') ∧
    (s.xlk.root = false → s.xlk.lastFollow + 8000000 ≤ max s.now t → s.xlk.timeSynced = true →
      Leaves (.syncFollowTimeout t) s fun s' => s'.xlk.timeSynced = false ∧ bitOf s' Reg.evtAlarmLatch 0 29 = true ∧
        s'.pressBase = (s.arrive t).pressBase ∧ SamePrint s s' ∧ SameMotion s s') ∧
    (s.xlk.root = true ∨ max s.now t < s.xlk.lastFollow + 8000000 ∨ s.xlk.timeSynced = false →
      exec (.syncFollowTimeout t) s = .next (after t s id)) ∧
    (highNs < 100 → exec (.timePpsEdge t highNs) s = .next (after t s id)) ∧
    (100 ≤ highNs → Leaves (.timePpsEdge t highNs) s fun s' => s'.lsi.ppsTime = (s.arrive t).press - 60 ∧
      s'.lsi.ppsLast = some (max s.now t) ∧ (s.xlk.root = false → s'.regs = s.regs ∧ s'.xlk.slew = (s.arrive t).xlk.slew) ∧
      (∀ p, s.xlk.root = true → s.xlk.ppsAt = some p →
        (((((s.arrive t).press - 60 : Nat) : Int) - p - 8000000000).natAbs ≤ 8000000 →
          s'.fld Reg.lsiPpsStatus 0 15 0 = min 0xFFFF (s.fld Reg.lsiPpsStatus 0 15 0 + 1)) ∧
        (8000000 < ((((s.arrive t).press - 60 : Nat) : Int) - p - 8000000000).natAbs →
          s'.fld Reg.lsiPpsStatus 0 31 16 = min 0xFFFF (s.fld Reg.lsiPpsStatus 0 31 16 + 1) ∧
          s'.xlk.slew = (s.arrive t).xlk.slew)) ∧ SamePrint s s' ∧ SameMotion s s') ∧
    (s.fld Reg.xlkCfg 0 2 2 = 1 → (srcKind (s.rd Reg.pacSrc) = 1 ∨ srcKind (s.rd Reg.pacSrc) = 2) → s.xlk.addr.isSome = true →
      Leaves (.positionBroadcast t) s fun s' => s'.out.length = (upPorts s).length ∧
        (∀ o ∈ s'.out, ∃ l, o = .xlk l 0xFFFF (.position ⟨ownAddr s, s.pac.est.t8, s.pac.est.p, s.pac.est.z, s.pac.est.v,
          s.pac.est.locked⟩)) ∧ same s') ∧
    (s.fld Reg.xlkCfg 0 2 2 ≠ 1 ∨ (srcKind (s.rd Reg.pacSrc) ≠ 1 ∧ srcKind (s.rd Reg.pacSrc) ≠ 2) ∨ s.xlk.addr = none →
      exec (.positionBroadcast t) s = .next (after t s id)) ∧
    (srcKind (s.rd Reg.pacSrc) = 3 → bitsOf (s.rd Reg.pacSrc) 15 8 = f.src → srcKind (s.rd Reg.pacHoSrc) ≠ 3 →
      s.pac.handover = none → s.anyActive = false → Leaves (.positionFrame t f) s fun s' => s'.pac.est.p = f.p ∧
        s'.pac.est.v = f.v ∧ s'.pac.est.t8 = f.t8 ∧ (f.locked = false → s'.pac.est.locked = false) ∧
        (f.locked = true → s'.pac.est.lockCnt = min 64 (s.pac.est.lockCnt + 1)) ∧ s'.xlk.posRef = some f) ∧
    (¬(srcKind (s.rd Reg.pacSrc) = 3 ∧ bitsOf (s.rd Reg.pacSrc) 15 8 = f.src) →
      ¬(srcKind (s.rd Reg.pacHoSrc) = 3 ∧ bitsOf (s.rd Reg.pacHoSrc) 15 8 = f.src) →
      exec (.positionFrame t f) s = .next (after t s id)) ∧
    (s.xlk.posRef = none ∨ max s.now t < s.xlk.posAt + 32000 → exec (.positionSilence t) s = .next (after t s id)) ∧
    (s.xlk.posRef.isSome = true → s.xlk.posAt + 32000 ≤ max s.now t → srcKind (s.rd Reg.pacSrc) = 3 →
      Leaves (.positionSilence t) s fun s' => s'.pac.est.locked = false ∧ s'.pac.est.p = s.pac.est.p ∧ s'.jobs = s.jobs ∧
        SameMotion s s')
/-! ## Spans, groups and pairs (chapter 19) -/

/-- PEER_STATE_SEND, PEER_STATE_FRAME, BIND_FRAME, BIND_REQ_FRAME, RCHECK_FRAME, PARTIAL_FRAME, PARTIAL_TIMEOUT. -/
def Obligations.SpanRecords : Prop :=
  ∀ (t : Nat) (f : PeerState) (c : Fin 64) (lidx rpt count first crc src seq planes codes : Nat) (es : List BindEntry)
      (pk : Bool) (s : State), s.ringsRun = true →
    (s.xlk.addr.isSome = true → Leaves (.peerStateSend t) s fun s' => s'.out.length = (upPorts s).length ∧
      (∀ o ∈ s'.out, ∃ l, o = .xlk l 0xFFFF (.peerState s.gov.vallow (peerRoleCode s) (planeMasks s))) ∧ s'.regs = s.regs ∧
      SamePrint s s' ∧ SameMotion s s') ∧
    (s.xlk.addr = none → exec (.peerStateSend t) s = .next (after t s id)) ∧
    (inPeerSet s f.addr = true → Leaves (.peerStateFrame t f) s fun s' =>
      s'.gov.peers = (s.gov.peers.filter fun p => p.1 != f.addr) ++ [(f.addr, f.vallow, max s.now t)] ∧
      s'.xlk.peers = (s.xlk.peers.filter fun p => p.1 != f.addr) ++ [(f.addr, f.role, f.masks, f.vallow, max s.now t)] ∧
      s'.regs = s.regs ∧ s'.jobs = s.jobs ∧ SameMotion s s') ∧
    (inPeerSet s f.addr = false → exec (.peerStateFrame t f) s = .next (after t s id)) ∧
    (∀ q, (s.jobs[c]).pkg = some q → isAuthority s c = false → s.dummy = false → Leaves (.bindFrame t c lidx rpt es) s fun s' =>
      (∀ i e, es[i]? = some e → (s.jobs[c]).nextSlot ≤ rpt * max 1 q.lanes.length + lidx + i →
        (((rpt * max 1 q.lanes.length + lidx + i) % max 1 q.lanes.length,
          (rpt * max 1 q.lanes.length + lidx + i) / max 1 q.lanes.length,
          if e.blank then none else some e.seq) ∈ (s'.jobs[c]).bindings)) ∧
      (s'.jobs[c]).items = (s.jobs[c]).items ∧ (∀ m, m ≠ c → s'.jobs[m] = s.jobs[m]) ∧ s'.regs = s.regs ∧ SameMotion s s') ∧
    (isAuthority s c = true → exec (.bindFrame t c lidx rpt es) s = .next (after t s id)) ∧
    (∀ q tb, s.str.tables = some tb → (s.jobs[c]).pkg = some q → isAuthority s c = true → (s.jobs[c]).st.active = true →
      Leaves (.bindReqFrame t c lidx rpt) s fun s' =>
        rpt * max 1 q.lanes.length + lidx + 1 ≤ (s'.jobs[c]).nextSlot ∨ lastBound (s'.jobs[c]) = true ∨
          (s'.jobs[c]).st.active = false) ∧
    (isAuthority s c = false ∨ (s.jobs[c]).st.active = false → exec (.bindReqFrame t c lidx rpt) s = .next (after t s id)) ∧
    (s.dummy = false → exec (.rcheckFrame t c pk count first crc) s = .next (after t s id)) ∧
    (s.dummy = true →
      (rcheckAgrees s (c.val, pk, count, first, crc) = some true → pk = true → exec (.rcheckFrame t c pk count first crc) s =
        .next (after t s fun s => s.modXlk fun x => { x with checked := x.checked ||| (1#64 <<< c.val) })) ∧
      (rcheckAgrees s (c.val, pk, count, first, crc) = some true → pk = false →
        exec (.rcheckFrame t c pk count first crc) s = .next (after t s id)) ∧
      (rcheckAgrees s (c.val, pk, count, first, crc) = some false → Leaves (.rcheckFrame t c pk count first crc) s fun s' =>
        s'.xlk.unfit.getLsbD c = true ∧ bitOf s' Reg.evtAlarmLatch 0 31 = true ∧ SamePrint s s' ∧ SameMotion s s') ∧
      (rcheckAgrees s (c.val, pk, count, first, crc) = none → exec (.rcheckFrame t c pk count first crc) s =
        .next (after t s fun s => s.modXlk fun x => { x with rchecks := x.rchecks ++ [(c.val, pk, count, first, crc)] }))) ∧
    (isAuthority s c = false ∨ (∃ q, (s.jobs[c]).finalSeq = some q ∧ seq ≤ q) →
      exec (.partialFrame t src c seq planes codes) s = .next (after t s id)) ∧
    (isAuthority s c = true → (∀ q, (s.jobs[c]).finalSeq = some q → q < seq) →
      exec (.partialFrame t src c seq planes codes) s = .next (after t s fun s => settleJob c (s.modXlk fun x =>
        { x with partials := (x.partials.filter fun y => !(y.ctx == c.val && y.seq == seq)) ++
            [{ partialsOf s c seq with planes := (partialsOf s c seq).planes ||| planes,
                                       codes := (partialsOf s c seq).codes ||| codes,
                                       got := (src :: (partialsOf s c seq).got).eraseDups }] }))) ∧
    ((∃ it ∈ (s.jobs[c]).items, it.seq = seq ∧ it.outcome = none ∧ ∃ d, it.ownFinal = some d ∧ d + 800000000 ≤ max s.now t) →
      silentPeers s c seq ≠ [] → ∃ w : PartialWait, w.ctx = (partialsOf s c seq).ctx ∧ w.seq = (partialsOf s c seq).seq ∧
        w.codes = (partialsOf s c seq).codes ||| 64 ∧ (∀ p ∈ silentPeers s c seq, p.1 ∈ w.got ∧ w.planes ||| p.2 = w.planes) ∧
        exec (.partialTimeout t c seq) s = .next (after t s fun s => settleJob c (s.modXlk fun x =>
          { x with partials := (x.partials.filter fun y => !(y.ctx == c.val && y.seq == seq)) ++ [w] }))) ∧
    ((∀ it ∈ (s.jobs[c]).items, it.seq = seq → ∀ d, it.ownFinal = some d → max s.now t < d + 800000000) ∨ silentPeers s c seq = [] →
      exec (.partialTimeout t c seq) s = .next (after t s id))

/-- HEARTBEAT_SEND, HEARTBEAT_FRAME, COMPARE_FRAME, MIRROR_FRAME, SWAP_FRAME, HEARTBEAT_LOSS, TAKEOVER_REFUSED_ABANDON,
LEAD_REQ_EDGE, LEAD_REQ_CONFLICT, PAIR_ROLE with both actions. -/
def Obligations.Pairs : Prop :=
  ∀ (t : Nat) (hb : Heartbeat) (ds : List Nat) (x : Int) (epoch highNs : Nat) (high : Bool) (step : SwapStep) (fr : MirrorFrame)
      (r : CalRecord) (ax : List AxisMirror) (s : State), s.ringsRun = true →
    (paired s = false → exec (.heartbeatSend t) s = .next (after t s id) ∧ exec (.heartbeatFrame t hb) s = .next (after t s id) ∧
      exec (.compareFrame t ds) s = .next (after t s id)) ∧
    (paired s = true → s.xlk.role ≠ .lead → (route s s.peerAddr).isSome = true → s.peerAddr ≠ 0xFFFF →
      Leaves (.heartbeatSend t) s fun s' => ∃ l b, s'.out = [.xlk l s.peerAddr (.heartbeat b)] ∧ b.unitId = unitId s ∧
        b.leadReq = s.xlk.reqLocal ∧ b.hold = s.dev.hold ∧ b.epoch = s.mlk.epoch ∧
        (s.xlk.role = .dummy → b.role = 3) ∧ (s.xlk.role = .soloLead → b.role = 2) ∧ (s.xlk.role = .forming → b.role = 1) ∧
        (s.xlk.role ≠ .dummy → b.fit = false) ∧ s'.regs = s.regs ∧ SamePrint s s' ∧ SameMotion s s') ∧
    (paired s = true → (route s s.peerAddr).isSome = true → Leaves (.heartbeatSend t) s fun s' => SamePrint s s' ∧ SameMotion s s') ∧
    (paired s = true → hb.unitId ≠ s.peerUid → exec (.heartbeatFrame t hb) s = .next (after t s id)) ∧
    (paired s = true → hb.unitId = s.peerUid → (s.xlk.role = .none ∨ s.xlk.role = .forming) → s.mlk.holds = false → hb.role ≠ 2 →
      (s.xlk.reqLocal = true → hb.leadReq = false → Leaves (.heartbeatFrame t hb) s fun s' => s'.xlk.role = .lead ∧
        s'.mlk.holds = true ∧ s'.mlk.epoch = formingEpoch s ∧ s'.xlk.lastHb = some (max s.now t)) ∧
      (s.xlk.reqLocal = false → hb.leadReq = true → Leaves (.heartbeatFrame t hb) s fun s' => s'.xlk.role = .dummy ∧
        s'.mlk.holds = false ∧ (∀ n, (s'.ba[(n : Fin 8)]).en = false) ∧ (∀ n, (s'.stp[(n : Fin 16)]).en = false)) ∧
      (s.xlk.reqLocal = hb.leadReq → Leaves (.heartbeatFrame t hb) s fun s' => s'.xlk.role = .forming ∧ SameMotion s s')) ∧
    (paired s = true → hb.unitId = s.peerUid → s.xlk.role = .lead → s.xlk.swap = none → hb.role = 2 →
      Leaves (.heartbeatFrame t hb) s fun s' => s'.xlk.role = .conflict) ∧
    (paired s = true → Leaves (.compareFrame t ds) s fun s' => (∀ w, w < 7 →
      (s'.xlk.diff.getLsbD w = true ↔ ds.getD w 0 ≠ (ownDigests (s.arrive t)).getD w 0)) ∧
      (∀ w, w < 7 → ds.getD w 0 ≠ (ownDigests (s.arrive t)).getD w 0 → s.xlk.diff.getLsbD w = false →
        bitOf s' Reg.evtAlarmLatch 0 30 = true) ∧
      (s.dummy = true → s'.xlk.diff ≠ 0 → s'.xlk.unfit = s.xlk.unfit ||| heldMask s) ∧
      (s.dummy = false → s'.xlk.unfit = s.xlk.unfit ∧ s'.calStore = s.calStore) ∧ s'.xlk.role = s.xlk.role ∧ SamePrint s s' ∧
      SameMotion s s') ∧
    (s.dummy = false → s.xlk.swap = none → exec (.mirrorFrame t fr) s = .next (after t s id)) ∧
    (s.dummy = true → Leaves (.mirrorFrame t (.axes ax)) s (fun s' => (∀ y ∈ ax, y ∈ s'.xlk.mirror.axes) ∧
        s'.regs = s.regs ∧ SamePrint s s' ∧ SameMotion s s') ∧
      Leaves (.mirrorFrame t (.cal r)) s (fun s' => r ∈ s'.calStore ∧
        (∀ q ∈ s'.calStore, q.kind = r.kind → q.index = r.index → q = r) ∧ SameMotion s s')) ∧
    (s.xlk.role = .lead → s.xlk.swap = none → exec (.swapFrame t x epoch step) s = .next (after t s id)) ∧
    (s.dummy = true → s.xlk.swap = none → Leaves (.swapFrame t x epoch .offer) s fun s' => s'.xlk.role = .lead ∧
      s'.mlk.holds = true ∧ s'.mlk.epoch = epoch) ∧
    (s.xlk.lastHb = none ∨ peerAlive (s.arrive t) = true → exec (.heartbeatLoss t) s = .next (after t s id)) ∧
    (s.xlk.lastHb.isSome = true → peerAlive (s.arrive t) = false → s.xlk.role = .lead → Leaves (.heartbeatLoss t) s fun s' =>
      s'.xlk.role = .soloLead ∧ s'.xlk.swap = none ∧ bitOf s' Reg.evtAlarmLatch 1 2 = true ∧ SamePrint s s' ∧ SameMotion s s') ∧
    (s.xlk.lastHb.isSome = true → peerAlive (s.arrive t) = false → s.dummy = true → s.anyActive = false → s.xlk.diff = 0 →
      Leaves (.heartbeatLoss t) s fun s' => s'.xlk.role = .lead ∧ s'.mlk.holds = true ∧
        s'.mlk.epoch = nextEpoch s.xlk.peerEpoch ∧ bitOf s' Reg.evtAlarmLatch 1 0 = true ∧
        (s'.rd Reg.xlkFailovers).toNat = min ((s.rd Reg.xlkFailovers).toNat + 1) 0xFFFFFFFF) ∧
    (∀ d, s.xlk.failingOver = true → s.xlk.refusedSince = some d → d + 512000 ≤ max s.now t →
      Leaves (.takeoverRefusedAbandon t) s fun s' => s'.xlk.role = .dummy ∧ s'.xlk.failingOver = false ∧ s'.mlk.holds = false ∧
        (∀ n, (s'.ba[(n : Fin 8)]).en = false) ∧ (∀ n, (s'.stp[(n : Fin 16)]).en = false) ∧
        bitOf s' Reg.evtAlarmLatch 1 1 = true) ∧
    (s.xlk.failingOver = false ∨ s.xlk.refusedSince = none → exec (.takeoverRefusedAbandon t) s = .next (after t s id)) ∧
    (highNs < 100000 → exec (.leadReqEdge t high highNs) s = .next (after t s id)) ∧
    (100000 ≤ highNs → Leaves (.leadReqEdge t high highNs) s fun s' => s'.xlk.reqLocal = high ∧ s'.lsi.leadPin = high ∧
      s'.xlk.role = s.xlk.role ∧ s'.mlk = s.mlk ∧
      (high = true → s.xlk.reqLocal = false → s.dummy = true → s.xlk.reqPeer = false → s.xlk.swap = none →
        peerAlive (s.arrive t) = true → s.fld Reg.xlkPairCfg 0 1 1 = 0 → s'.fld Reg.xlkPairStatus 0 8 8 = 1) ∧
      SamePrint s s' ∧ SameMotion s s') ∧
    (∀ d, paired s = true → peerAlive (s.arrive t) = true → s.xlk.equalSince = some d → d + 8000000 ≤ max s.now t →
      Leaves (.leadReqConflict t) s fun s' => s'.xlk.role = .conflict ∧
        (s.modeIn [.service, .print] = true → s'.dev.holdCause.getLsbD 4 = true ∧ s'.dev.hold = true)) ∧
    (paired s = false ∨ s.xlk.equalSince = none → exec (.leadReqConflict t) s = .next (after t s id)) ∧
    (s.modeIn [.standby, .service, .print] = false → Refuses (.pairRoleSwap t) t s .badMode ∧ Refuses (.pairRoleRecompare t) t s .badMode) ∧
    (s.modeIn [.standby, .service, .print] = true → s.xlk.role ≠ .lead → Refuses (.pairRoleSwap t) t s .badState ∧
      Refuses (.pairRoleRecompare t) t s .badState) ∧
    (s.modeIn [.standby, .service, .print] = true → s.xlk.role = .lead → swapRefused s = true →
      Refuses (.pairRoleSwap t) t s .badState) ∧
    (s.modeIn [.standby, .service, .print] = true → s.xlk.role = .lead → swapRefused s = false →
      Leaves (.pairRoleSwap t) s fun s' => ∃ w, s'.xlk.swap = some w ∧ w.mine = true ∧ w.accepted = false ∧ w.byCommand = true ∧
        w.epoch = nextEpoch s.mlk.epoch ∧ s'.xlk.role = .lead ∧ s'.supRing = s.supRing ∧ SamePrint s s' ∧ SameMotion s s') ∧
    (s.modeIn [.standby, .service, .print] = true → s.xlk.role = .lead → Leaves (.pairRoleRecompare t) s fun s' =>
      s'.supRing.running = none ∧ s'.xlk.role = .lead ∧ s'.xlk.swap = s.xlk.swap ∧ SamePrint s s' ∧ SameMotion s s')
/-! ## Security (chapter 20) -/

/-- SESSION_OPEN in both phases, SESSION_CLOSE, SESSION_IDLE_TIMEOUT, AUTH_FAIL_COMPLETION, LC_ADVANCE. -/
def Obligations.Sessions : Prop :=
  ∀ (t addr chalId target a : Nat) (x y r g : Bytes) (burn : BurnResult) (env : BootEnv) (s : State), s.ringsRun = true →
    (s.sec.trngReady = true → Leaves (.sessionOpenChallenge t addr) s fun s' => ∃ rec l, rec.length = 64 ∧
      s'.sec.challenge = some ⟨s.sec.chalNext, max s.now t, rec⟩ ∧ s'.sec.chalNext = (s.sec.chalNext + 1) % 2 ^ 32 ∧
      s'.out = .hostWrite addr rec :: l ∧ s'.supRing.running = none ∧ s'.sec.tamper = s.sec.tamper ∧ SamePrint s s' ∧
      SameMotion s s') ∧
    (s.sec.trngReady = false → exec (.sessionOpenChallenge t addr) s = .next (after t s fun s =>
      s.modSec fun z => { z with entropyWait := some (.challenge addr, s.now) })) ∧
    (∃ ok : Bool, exec (.sessionOpenResponse t chalId x y r g) s = .next (after t s fun s => s.modSec fun z =>
        { z with challenge := none, timed := z.timed ++ [(.phase1 ok, s.now)] }) ∧
      (ok = true → regionFinal s 1 = true ∧ 1 ≤ lifeCycle s ∧ lifeCycle s ≤ 3 ∧
        ∃ c, s.sec.challenge = some c ∧ c.id = chalId ∧ max s.now t < c.issuedAt + 480000000000)) ∧
    (Leaves (.sessionClose t) s fun s' => s'.sec.session = none ∧ s'.supRing.running = none ∧ s'.otp = s.otp ∧ SamePrint s s' ∧
      SameMotion s s') ∧
    (∀ z, s.sec.session = some z → sensitiveRuns s = false →
      (z.lastAct + s.fld Reg.secCfg 0 15 0 * 8000000000 ≤ max s.now t → exec (.sessionIdleTimeout t) s = .next (after t s fun s =>
        s.modSec fun q => { q with session := none })) ∧
      (max s.now t < z.lastAct + s.fld Reg.secCfg 0 15 0 * 8000000000 → exec (.sessionIdleTimeout t) s = .next (after t s id))) ∧
    ((∀ e ∈ s.sec.timed, max s.now t < e.2 + 16000000) → exec (.authFailCompletion t) s = .next (after t s id)) ∧
    (a + 16000000 ≤ max s.now t →
      (s.sec.timed = [(.refusal, a)] → exec (.authFailCompletion t) s = .next (after t s fun s =>
        complete .supervisor .authFail 0 (s.modSec fun z => { z with timed := [] }))) ∧
      (s.sec.timed = [(.phase1 true, a)] → s.supRing.mute = false → s.supRing.stopping = false →
        Leaves (.authFailCompletion t) s fun s' =>
        s'.sec.timed = [] ∧ (∃ z, s'.sec.session = some z ∧ z.num = s.sec.sessions + 1) ∧ s'.supRing.running = none ∧ s'.otp = s.otp ∧
        SamePrint s s' ∧ SameMotion s s')) ∧
    (sensitiveRefused s = true → exec (.lcAdvance t target burn env) s = .next (after t s fun s => s.modSec fun z =>
      { z with timed := z.timed ++ [(.refusal, s.now)] })) ∧
    (sensitiveRefused s = false → (s.anyAxisEn = true ∨ s.anyActive = true ∨ lcAllowed s target = false) →
      exec (.lcAdvance t target burn env) s = .next (after t s fun s => complete .supervisor .badState 0 (used s))) ∧
    (sensitiveRefused s = false → s.anyAxisEn = false → s.anyActive = false → lcAllowed s target = true → burn.failed = 0 →
      Leaves (.lcAdvance t target burn env) s fun s' => lifeCycle s' = target ∧ s'.sec.session = none ∧
        (∀ w, w ≠ 128 → (w < 96 ∨ 127 < w ∨ target ≠ 4) → otpWord s' w = otpWord s w))

/-- OTP_BURN, OTP_FINALISE, OTP_RD_ADDR, OTP_READ_DONE, TAMPER_INPUT and the detectors, SEC_TAMPER_CLEAR. The cells' answer is an
operand of the burn. -/
def Obligations.OtpAndTamper : Prop :=
  ∀ (t word region rail mv permille a lowUs : Nat) (w8 : Fin 256) (n : Fin 4) (value : Word) (met : Bool) (celsius : Int)
      (b b2 : BurnResult) (s : State), s.ringsRun = true →
    let tampers (c : Instr) (bit : Nat) : Prop := s.dev.rstN = true → Leaves c s fun s' => s'.sec.tamper.getLsbD bit = true ∧
      (∀ k, s.sec.tamper.getLsbD k = true → s'.sec.tamper.getLsbD k = true) ∧ (∀ k, (s'.cod.slots[(k : Fin 32)]).valid = false) ∧
      s'.sec.session = none ∧ s'.mem.wiping = true ∧ bitOf s' Reg.evtAlarmLatch 1 3 = true ∧ s'.otp = s.otp ∧
      (s.modeIn [.service, .print] = true → s'.dev.hold = true ∧ s'.dev.holdCause.getLsbD 7 = true)
    (sensitiveRefused s = true →
      exec (.otpBurn t word value b) s = .next (after t s fun s => s.modSec fun z =>
        { z with timed := z.timed ++ [(.refusal, s.now)] }) ∧
      exec (.otpFinalise t region b b2) s = .next (after t s fun s => s.modSec fun z =>
        { z with timed := z.timed ++ [(.refusal, s.now)] })) ∧
    (sensitiveRefused s = false →
      (word = 128 ∨ (130 ≤ word ∧ word ≤ 143) ∨ (160 ≤ word ∧ word ≤ 175) ∨ 240 ≤ word → exec (.otpBurn t word value b) s =
        .next (after t s fun s => complete .supervisor .range 0 (used s))) ∧
      (144 ≤ word → word ≤ 159 → exec (.otpBurn t word value b) s =
        .next (after t s fun s => complete .supervisor .sealed 0 (used s))) ∧
      (word ≤ 31 → lifeCycle s ≠ 0 → exec (.otpBurn t word value b) s =
        .next (after t s fun s => complete .supervisor .badState 0 (used s))) ∧
      (firstRefusal (burnConds s word) = .ok → keysRise s.otp = true → Leaves (.otpBurn t word value b) s fun s' =>
        otpWord s' word = otpWord s word ||| (burnBits s word value &&& ~~~b.failed) ∧
        (∀ k, k ≠ word → otpWord s' k = otpWord s k) ∧ (b.cut = false → s'.supRing.running = none) ∧
        (b.cut = true → s'.sec.timed = s.sec.timed ++ [(.refusal, max s.now t)]) ∧ SamePrint s s' ∧ SameMotion s s') ∧
      (5 < region → exec (.otpFinalise t region b b2) s = .next (after t s fun s => complete .supervisor .range 0 (used s))) ∧
      (region ≤ 5 → regionFinal s region = true → exec (.otpFinalise t region b b2) s =
        .next (after t s fun s => complete .supervisor .badState 0 (used s))) ∧
      (region ≤ 5 → regionFinal s region = false → b.failed = 0 → b2.failed = 0 → Leaves (.otpFinalise t region b b2) s fun s' =>
        regionFinal s' region = true ∧ (∀ k, k ≠ 240 + 2 * region → k ≠ 241 + 2 * region → otpWord s' k = otpWord s k) ∧
        SamePrint s s' ∧ SameMotion s s')) ∧
    (exec (.otpRdAddr t w8) s = .next (after t s fun s => (s.wr Reg.otpRdAddr 0 (BitVec.ofNat 32 w8)).modSec fun z =>
      { z with otpRead := some s.now, otpReady := false })) ∧
    (s.sec.otpRead = some a → (a + 12800 ≤ max s.now t → exec (.otpReadDone t) s = .next (after t s fun s => s.modSec fun z =>
        { z with otpRead := none, otpReady := true, otpData := (if 96 ≤ s.fld Reg.otpRdAddr 0 7 0 ∧ s.fld Reg.otpRdAddr 0 7 0 ≤ 127
                                                                then 0 else otpWord s (s.fld Reg.otpRdAddr 0 7 0)) })) ∧
      (max s.now t < a + 12800 → exec (.otpReadDone t) s = .next (after t s id))) ∧
    (s.fld Reg.secTamperCfg 0 n n = 1 → s.fld Reg.secTamperCfg 0 11 4 ≤ lowUs → tampers (.tamperInput t n lowUs) n) ∧
    (s.fld Reg.secTamperCfg 0 n n ≠ 1 ∨ lowUs < s.fld Reg.secTamperCfg 0 11 4 → exec (.tamperInput t n lowUs) s =
      .next (after t s id)) ∧
    (railOut rail mv = true → railArmed s rail = true → (rail ≠ 0 ∨ 500 ≤ mv) → tampers (.voltageDetector t rail mv) 4) ∧
    (railOut rail mv = false ∨ railArmed s rail = false → exec (.voltageDetector t rail mv) s = .next (after t s id)) ∧
    (mv < 500 → s.dev.rstN = true → Leaves (.voltageDetector t 0 mv) s fun s' => s'.dev.rstN = false ∧ s'.otp = s.otp ∧
      s'.jobs = State.reset.jobs) ∧
    (lifeCycle s ≠ 0 → 100 < permille → (met = true → s.met.st ≠ .absent) → (met = false → s.lsi.pllLock ≠ 0) →
      tampers (.clockDetector t met permille) 5) ∧
    (permille ≤ 100 → exec (.clockDetector t met permille) s = .next (after t s id)) ∧
    (lifeCycle s ≠ 0 → (celsius < -45 ∨ 135 < celsius) → tampers (.temperatureDetector t celsius) 6) ∧
    (-45 ≤ celsius → celsius ≤ 135 → exec (.temperatureDetector t celsius) s = .next (after t s id)) ∧
    (sensitiveRefused s = false → exec (.secTamperClear t value) s = .next (after t s fun s => s.modSec fun z =>
      { z with tamper := z.tamper &&& ~~~(BitVec.ofNat 7 value.toNat) })) ∧
    (sensitiveRefused s = true → exec (.secTamperClear t value) s = .next (after t s fun s =>
      s.recordErr Reg.secErr 0 0x008 .authFail))

/-- Over all commands: what OTP holds is an invariant of every step. -/
def Obligations.OtpOnlySet : Prop :=
  ∀ (s s' : State), step s = .next s' →
    (∀ (w : Nat) (v : Word), otpWord s w &&& v = v → otpWord s' w &&& v = v) ∧ (∀ n, n ≤ lifeCycle s → n ≤ lifeCycle s')
/-! ## The sealed partition (chapter 21) -/

/-- WEIGHING_POLL, WEIGHING_FRAME, NONE_FRAME, ERROR_FRAME, WEIGHING_REPLY_TIMEOUT, CHANNEL_RESET. The KIND of the first
weighing's event record is a free value (log entry 58). -/
def Obligations.WeighingChannels : Prop :=
  ∀ (t code : Nat) (port : Fin 4) (c : Fin 16) (w : Weighing) (s : State),
    let x := s.met.chs[c]
    let others (s' : State) : Prop := (∀ m, m ≠ c → s'.met.chs[m] = s.met.chs[m]) ∧ s'.met.st = s.met.st ∧ s'.met.c = s.met.c ∧
      s'.met.prices = s.met.prices ∧ s'.otp = s.otp ∧ SamePrint s s' ∧ SameMotion s s'
    (∀ k, portsRun s = true → s.met.polled[port] = none → nextChannel s port = some k → Leaves (.weighingPoll t port) s fun s' =>
      s'.met.polled[port] = some (k, max s.now t) ∧ s'.met.next[port] = (k + 1) % 4 ∧
      s'.out = [.metSerial port (s.met.chcfg[Fin.ofNat 16 k]).addr (((s.met.chs[Fin.ofNat 16 k]).last).getD 0xFFFFFFFF)] ∧
      s'.met.chs = s.met.chs ∧ s'.regs = s.regs ∧ SamePrint s s' ∧ SameMotion s s') ∧
    (portsRun s = false ∨ s.met.polled[port] ≠ none ∨ nextChannel s port = none →
      exec (.weighingPoll t port) s = .next (after t s id)) ∧
    (portsRun s = false → ∀ ok, exec (.weighingFrame t c ok w) s = .next (after t s id) ∧
      exec (.noneFrame t c ok) s = .next (after t s id) ∧ exec (.errorFrame t c ok code) s = .next (after t s id)) ∧
    (portsRun s = true →
      (let bad := after t s (modCh c fun x => { x with err := min 255 (x.err + 1) })
       exec (.weighingFrame t c false w) s = .next bad ∧ exec (.noneFrame t c false) s = .next bad ∧
         exec (.errorFrame t c false code) s = .next bad) ∧
      (exec (.noneFrame t c true) s = .next (after t s (replied c))) ∧
      (Leaves (.noneFrame t c true) s fun s' => s'.met.chs[c] = { x with missing := 0, silent := false } ∧ others s') ∧
      (Leaves (.errorFrame t c true code) s fun s' => s'.met.chs[c] = { x with missing := 0, silent := false, code := code } ∧
        others s') ∧
      (∀ l, x.last = some l → x.queue.length < 64 → w.wseq = (l + 1) % 2 ^ 32 → w.wseq ≠ l → Leaves (.weighingFrame t c true w) s fun s' =>
        s'.met.chs[c] = { x with missing := 0, silent := false, last := some w.wseq, queue := x.queue ++ [w] } ∧
        s'.met.anum = s.met.anum ∧ others s') ∧
      (∀ l, x.last = some l → w.wseq = l → Leaves (.weighingFrame t c true w) s fun s' =>
        s'.met.chs[c] = { x with missing := 0, silent := false } ∧ s'.met.anum = s.met.anum ∧ others s') ∧
      (∀ l, x.last = some l → w.wseq ≠ l → w.wseq ≠ (l + 1) % 2 ^ 32 → Leaves (.weighingFrame t c true w) s fun s' =>
        s'.met.chs[c] = { x with missing := 0, silent := false, fault := true } ∧ bitOf s' Reg.evtAlarmLatch 1 6 = true ∧
        others s') ∧
      (x.last = none → x.queue.length < 64 → Leaves (.weighingFrame t c true w) s fun s' =>
        s'.met.chs[c] = { x with missing := 0, silent := false, last := some w.wseq, queue := x.queue ++ [w] } ∧
        s'.met.anum = s.met.anum + 1 ∧ others s')) ∧
    (∀ a, s.met.polled[Fin.ofNat 4 (c.val / 4)] = some (c.val, a) →
      (replyDue s (Fin.ofNat 4 (c.val / 4)).val a ≤ max s.now t → Leaves (.weighingReplyTimeout t c) s fun s' =>
        s'.met.chs[c] = { x with missing := x.missing + 1, silent := x.silent || decide (2 ≤ x.missing) } ∧
        s'.met.polled[Fin.ofNat 4 (c.val / 4)] = none ∧ s'.regs = s.regs ∧ others s') ∧
      (max s.now t < replyDue s (Fin.ofNat 4 (c.val / 4)).val a → exec (.weighingReplyTimeout t c) s = .next (after t s id))) ∧
    (s.ringsRun = true → s.met.busy = false → s.met.st ≠ .absent → 64 ≤ evtFree s → Leaves (.channelReset t c) s fun s' =>
      s'.met.chs[c] = { x with queue := [], fault := false, last := none } ∧ s'.met.anum = s.met.anum + 1 ∧
      s'.met.busy = false ∧ s'.fld Reg.metMbxCtrl 0 2 2 = 1 ∧ others s')

/-- MET_STARTUP_CHECK, LOCKSTEP_MISMATCH, CLK_MET_DEVIATION, MET_SEAL_N_EDGE, PRICE_SET, LANE_MAP, AUDIT_RELEASE, PARAM_WRITE,
SEAL_FINALISE, RECONCILE. -/
def Obligations.SealedPartition : Prop :=
  ∀ (t k permille heldNs ctx anum block index : Nat) (high loss ok : Bool) (es : List (Nat × Nat)) (rec approval : Bytes) (s : State),
    let bits := counterBits s
    let ready := s.ringsRun = true ∧ s.met.busy = false
    let done (s' : State) : Prop := s'.met.busy = false ∧ s'.fld Reg.metMbxCtrl 0 2 2 = 1 ∧
      s'.met.rsp = [BitVec.ofNat 32 (s.fld Reg.metMbxReq 0 31 16)] ∧ SamePrint s s' ∧ SameMotion s s'
    let answers (c : Instr) (st : Status) : Prop := exec c s = .next (after t s fun s =>
      mbxAnswer st (s.modMet fun m => { m with mailboxTag := s.fld Reg.metMbxReq 0 31 16 }))
    (s.met.st = .starting →
      (16 * bits ≤ k → k ≤ 16 * bits + 16 → Leaves (.metStartupCheck t true k) s fun s' => s'.met.c = k ∧
        s'.met.st = openState s ∧ s'.met.anum = s.met.anum + 1 ∧ SamePrint s s' ∧ SameMotion s s') ∧
      ((k < 16 * bits ∨ 16 * bits + 16 < k) → Leaves (.metStartupCheck t true k) s fun s' => s'.met.st = .locked ∧
        s'.met.cause = .counter ∧ bitOf s' Reg.evtAlarmLatch 1 5 = true ∧ s'.otp = s.otp ∧ SamePrint s s' ∧ SameMotion s s') ∧
      (Leaves (.metStartupCheck t false k) s fun s' => s'.met.st = .locked ∧ s'.met.cause = .flash ∧ s'.otp = s.otp ∧
        SamePrint s s' ∧ SameMotion s s')) ∧
    (s.met.st ≠ .starting → exec (.metStartupCheck t ok k) s = .next (after t s id)) ∧
    (s.met.st ≠ .absent → Leaves (.lockstepMismatch t) s fun s' => s'.met.st = .locked ∧
      (s'.met.cause = .lockstep ∨ s'.met.cause = .clock)) ∧
    (s.met.st = .absent → exec (.lockstepMismatch t) s = .next (after t s id) ∧
      exec (.clkMetDeviation t permille) s = .next (after t s id)) ∧
    (s.met.st ≠ .absent → permille ≤ 50 → exec (.clkMetDeviation t permille) s = .next (after t s fun s =>
      s.modLsi fun l => { l with metOk := true })) ∧
    (s.met.st ≠ .absent → 50 < permille → Leaves (.clkMetDeviation t permille) s fun s' => s'.met.st = .locked ∧
      s'.lsi.metOk = false ∧ SamePrint s s' ∧ SameMotion s s') ∧
    (heldNs < 10000000 ∨ high = s.met.sealPin → exec (.metSealNEdge t high heldNs) s = .next (after t s id)) ∧
    (10000000 ≤ heldNs → high ≠ s.met.sealPin → s.met.st ≠ .absent → Leaves (.metSealNEdge t high heldNs) s fun s' =>
      s'.met.sealPin = high ∧ s'.met.anum = s.met.anum + 1 ∧
      (s.met.st ≠ .starting → s.met.st ≠ .locked → s'.met.st = (if high then (if regionFinal s 4 then .sealedSt else .unsealed) else .broken)) ∧
      (s.met.st = .starting ∨ s.met.st = .locked → s'.met.st = s.met.st) ∧ s'.otp = s.otp ∧ SamePrint s s' ∧ SameMotion s s') ∧
    (s.ringsRun = true → s.met.busy = true → exec (.priceSet t es) s = .next (after t s id) ∧
      exec (.laneMap t ctx es) s = .next (after t s id) ∧ exec (.auditRelease t anum loss) s = .next (after t s id) ∧
      exec (.paramWrite t block index rec) s = .next (after t s id) ∧ exec (.sealFinalise t approval true) s = .next (after t s id) ∧
      exec (.reconcile t) s = .next (after t s id) ∧ exec (.channelReset t k) s = .next (after t s id)) ∧
    (ready → s.met.st = .absent → answers (.priceSet t es) .badState ∧ answers (.laneMap t ctx es) .badState ∧
      answers (.auditRelease t anum loss) .badState ∧ answers (.channelReset t k) .badState) ∧
    (ready → sensitiveRefused s = true → ∀ c : Instr, (c = .paramWrite t block index rec ∨ c = .sealFinalise t approval true ∨
        c = .reconcile t) → exec c s = .next (after t s fun s =>
          (s.modMet fun m => { m with mailboxTag := s.fld Reg.metMbxReq 0 31 16, busy := true }).modSec fun z =>
            { z with timed := z.timed ++ [(.mailbox, s.now)] })) ∧
    (ready → s.met.st ≠ .absent → firstRefusal (priceConds es s) = .ok → Leaves (.priceSet t es) s fun s' =>
      s'.met.prices = setPrices es s.met.prices ∧ s'.met.anum = s.met.anum + 1 ∧ s'.met.c = s.met.c ∧ done s') ∧
    (ready → s.met.st ≠ .absent → (es.length = 0 ∨ 30 < es.length) → answers (.priceSet t es) .range) ∧
    (ready → s.met.st ≠ .absent → 0 < es.length → es.length ≤ 30 → (∀ e ∈ es, e.2 ≤ 1000000000) →
      (setPrices es s.met.prices).length ≤ 65536 → evtFree s < 64 → answers (.priceSet t es) .busy) ∧
    (ready → s.met.st ≠ .absent → firstRefusal (laneMapConds ctx es s) = .ok → Leaves (.laneMap t ctx es) s fun s' =>
      s'.met.laneMap = setLanes ctx es s.met.laneMap ∧ s'.met.anum = s.met.anum + 1 ∧ s'.met.c = s.met.c ∧ done s') ∧
    (ready → s.met.st ≠ .absent → Leaves (.auditRelease t anum loss) s fun s' =>
      (loss = false → s'.met.events = s.met.events.filter fun r => decide (anum < AuditRec.num r)) ∧
      (loss = true → s'.met.loss = false) ∧ (loss = false → s'.met.loss = s.met.loss) ∧ done s') ∧
    (ready → s.met.st = .broken → sensitiveRefused s = false → sealedRuns s = false → evtFree s ≥ 64 → s.met.c < 8192 →
      (paramOk s block index rec = true → Leaves (.paramWrite t block index rec) s fun s' => s'.met.c = s.met.c + 1 ∧
        (block = 0 → s'.met.sfdef[Fin.ofNat 16 index] = parseSfDef rec) ∧ (block = 1 → s'.met.chcfg[Fin.ofNat 16 index] = parseChCfg rec) ∧
        (block = 2 → s'.met.glob = parseGlob rec) ∧
        ((s.met.c + 1) % 16 = 0 → (otpWord s' (160 + ((s.met.c + 1) / 16 - 1) / 32)).getLsbD (((s.met.c + 1) / 16 - 1) % 32) = true) ∧
        ((s.met.c + 1) % 16 ≠ 0 → s'.otp = s.otp) ∧ done s') ∧
      (regionFinal s 4 = false → approval.length = 16 → s.met.digest.length ≤ 48 →
        (Leaves (.sealFinalise t approval true) s fun s' => regionFinal s' 4 = true ∧ s'.met.c = s.met.c + 1 ∧ done s') ∧
        (Leaves (.sealFinalise t approval false) s fun s' => regionFinal s' 4 = false ∧ s'.met.c = s.met.c ∧
          s'.met.rsp = [BitVec.ofNat 32 (s.fld Reg.metMbxReq 0 31 16 + 2 ^ 16 * 0x0A)])) ∧
      (regionFinal s 4 = true → ∀ b, Leaves (.sealFinalise t approval b) s fun s' => s'.otp = s.otp ∧
        s'.met.rsp = [BitVec.ofNat 32 (s.fld Reg.metMbxReq 0 31 16 + 2 ^ 16 * 0x03)]) ∧
      (16 * bits < 8192 → Leaves (.reconcile t) s fun s' => s'.met.c = 16 * bits + 1 ∧ s'.met.st = openState s ∧
        s'.met.cause = .none ∧ s'.otp = s.otp ∧ done s'))
/-! ## Calibration and updates (chapters 22, 23) -/

/-- CAL_RUN, CAL_MEASUREMENT_DONE, CAL_RUN_TIMEOUT, CAL_READ. -/
def Obligations.Calibration : Prop :=
  ∀ (t kind flags index speed gauge addr : Nat) (arg mean yerr xerr : Int) (pre ok : Bool) (m : CalMeasure) (r : CalRun) (s : State),
    let kept (s' : State) (st : Nat) : Prop := s'.cal.run = none ∧ s'.cal.lastStatus = st ∧ s'.cal.lastKind = r.kind ∧
      s'.cal.lastIndex = r.index ∧ s'.calStore = s.calStore ∧ SamePrint s s' ∧ SameMotion s s'
    (s.ringsRun = true →
      (firstRefusal (calConds s kind flags index arg speed gauge pre) = .ok →
        exec (.calRun t kind flags index arg speed gauge pre) s = .next (after t s fun s =>
          { s with cal := { s.cal with run := some ⟨kind, index, flags == 1, arg, speed, gauge, s.now⟩ } })) ∧
      (1 < flags → Refuses (.calRun t kind flags index arg speed gauge pre) t s .format ∧
        Refuses (.calRead t kind flags index addr) t s .format) ∧
      (flags ≤ 1 → (kind = 0 ∨ 7 < kind) → Refuses (.calRun t kind flags index arg speed gauge pre) t s .range ∧
        Refuses (.calRead t kind flags index addr) t s .range) ∧
      (flags ≤ 1 → kind = 7 → index < 16 → -640 ≤ arg → arg ≤ 2400 → speed = 0 → gauge = 0 →
        (s.dev.mode ≠ .standby → Refuses (.calRun t kind flags index arg speed gauge pre) t s .badMode) ∧
        (s.dev.mode = .standby → s.cal.run.isSome = true → Refuses (.calRun t kind flags index arg speed gauge pre) t s .busy) ∧
        (s.dev.mode = .standby → s.cal.run = none → (s.dummy = true ∨ pre = false) →
          Refuses (.calRun t kind flags index arg speed gauge pre) t s .badState)) ∧
      (flags = 0 → index < calLocations kind → s.calRec kind index = none →
        Refuses (.calRead t kind flags index addr) t s .notReady) ∧
      (∀ q, flags = 0 → index < calLocations kind → s.calRec kind index = some q →
        exec (.calRead t kind flags index addr) s = .next (after t s fun s =>
          complete .supervisor .ok (calBytes q).length (s.emit (.hostWrite addr (calBytes q)))))) ∧
    (s.cal.run = none → exec (.calMeasurementDone t m ok) s = .next (after t s id) ∧
      exec (.calRunTimeout t) s = .next (after t s id)) ∧
    (s.cal.run = some r →
      (Leaves (.calMeasurementDone t .preconditionLost ok) s fun s' => kept s' 0x03) ∧
      (r.since + 480000000000 ≤ max s.now t → Leaves (.calRunTimeout t) s fun s' => kept s' 0x0C) ∧
      (max s.now t < r.since + 480000000000 → exec (.calRunTimeout t) s = .next (after t s id)) ∧
      (∀ data i, m ≠ .preconditionLost → calResult s r m = some (data, some i) →
        Leaves (.calMeasurementDone t m ok) s fun s' => kept s' 0x10 ∧ ∃ q, s'.cal.lastRecord = some q ∧ q.data = data) ∧
      (∀ data, m ≠ .preconditionLost → calResult s r m = some (data, none) →
        (r.dry = true → Leaves (.calMeasurementDone t m ok) s fun s' => kept s' 0x00) ∧
        (r.dry = false → ok = false → Leaves (.calMeasurementDone t m ok) s fun s' => kept s' 0x0A) ∧
        (r.dry = false → ok = true → Leaves (.calMeasurementDone t m ok) s fun s' => ∃ q ∈ s'.calStore,
          q.kind = r.kind ∧ q.index = r.index ∧ q.data = data ∧ (∀ o ∈ s.calStore, o.rseq < q.rseq) ∧
          (∀ o, o ∈ s'.calStore ↔ o = q ∨ (o ∈ s.calStore ∧ ¬(o.kind = r.kind ∧ o.index = r.index))) ∧ s'.cal.run = none ∧
          s'.cal.lastStatus = 0 ∧ s'.jobs = s.jobs)) ∧
      (r.kind = 7 → Leaves (.calMeasurementDone t (.dieSensor mean) ok) s fun s' => ∃ q, s'.cal.lastRecord = some q ∧
        q.data = [r.arg + 1024 - mean] ∧ (s'.cal.lastStatus = 0x10 ↔ 80 < (r.arg + 1024 - mean).natAbs)) ∧
      (r.kind = 5 → r.arg = 0 → s.calRec 5 r.index = none → Leaves (.calMeasurementDone t (.current mean) ok) s fun s' =>
        ∃ q, s'.cal.lastRecord = some q ∧ q.data = [mean, 65536] ∧ (s'.cal.lastStatus = 0x10 ↔ 2048 < mean.natAbs)) ∧
      (r.kind = 1 → Leaves (.calMeasurementDone t (.headRegistration yerr xerr) ok) s fun s' => ∃ q, s'.cal.lastRecord = some q ∧
        q.data.head? = some (signed 8 (s.fld Reg.pacHphase r.index 7 0) -
          Int.fdiv (2 * yerr * 64 * r.gauge + 25400000) 50800000)))

/-- UPD_BEGIN, UPD_BLOCK, UPD_END, UPD_TRANSFER_TIMEOUT, UPD_ACTIVATE, UPD_REVERT, UPD_CONFIRM, TRIAL_EXPIRY, UPD_REC_GO and the
frames of RECOVERY_UART. -/
def Obligations.Updates : Prop :=
  ∀ (t cls length offset : Nat) (row : CheckRow) (header data : Bytes) (x : Transfer) (i : Image) (env : BootEnv) (ok : Bool)
      (s : State),
    let slots (s' : State) : Prop := s'.fw.fwiStaged = s.fw.fwiStaged ∧ s'.fw.mtiStaged = s.fw.mtiStaged ∧ s'.str = s.str ∧
      s'.fw.fwiActive = s.fw.fwiActive ∧ s'.fw.mtiActive = s.fw.mtiActive
    (s.ringsRun = true →
      (s.fw.xfer.isSome = true ∨ s.str.load.isSome = true → Refuses (.updBegin t cls length header) t s .busy) ∧
      (s.fw.xfer = none → s.str.load = none →
        (cls = 0 ∨ 3 < cls → Refuses (.updBegin t cls length header) t s .range) ∧
        (1 ≤ cls → cls ≤ 3 → headerRow header (imageCtx s cls length) ≠ 0 → Leaves (.updBegin t cls length header) s fun s' =>
          s'.fw.xfer = none ∧ s'.fw.errRow = headerRow header (imageCtx s cls length) ∧ s'.supRing.running = none ∧ slots s') ∧
        (1 ≤ cls → cls ≤ 3 → headerRow header (imageCtx s cls length) = 0 → Leaves (.updBegin t cls length header) s fun s' =>
          s'.fw.xfer = some { cls := cls, length := length, data := header.take (256 + 4 * u16 header 36), lastAt := max s.now t } ∧
          (cls ≠ 1 ∨ u32 header 32 ≤ 4194304 → slots s') ∧ (cls = 1 → 4194304 < u32 header 32 → s'.fw.fwiStaged = none)) ∧
        Refuses (.updBlock t offset data) t s .badState ∧ Refuses (.updEnd t) t s .badState) ∧
      (s.fw.xfer = some x →
        (blockStatus x offset data = .ok → exec (.updBlock t offset data) s = .next (after t s fun s =>
          complete .supervisor .ok 0 (s.modFw fun u => { u with xfer := some { x with data := x.data ++ data, lastAt := s.now } }))) ∧
        (blockStatus x offset data ≠ .ok → Leaves (.updBlock t offset data) s fun s' => s'.fw.xfer = none ∧
          s'.supRing.running = none ∧ slots s') ∧
        (endStatus s x ≠ .ok → Leaves (.updEnd t) s fun s' => s'.fw.xfer = none ∧ s'.supRing.running = none ∧ slots s') ∧
        (endStatus s x = .ok → 1 ≤ x.cls → x.cls ≤ 3 → Leaves (.updEnd t) s fun s' => s'.fw.xfer = none ∧
          stagedOf s' x.cls = some ⟨x.data⟩ ∧ (∀ k, 1 ≤ k → k ≤ 3 → k ≠ x.cls → stagedOf s' k = stagedOf s k))) ∧
      (sensitiveRefused s = true → ∀ c : Instr, (c = .updActivate t cls row env ∨ c = .updRevert t cls row env) →
        exec c s = .next (after t s fun s => s.modSec fun z => { z with timed := z.timed ++ [(.refusal, s.now)] })) ∧
      (sensitiveRefused s = false →
        (cls = 0 ∨ 3 < cls → exec (.updActivate t cls row env) s = .next (after t s fun s => complete .supervisor .range 0 (used s)) ∧
          exec (.updRevert t cls row env) s = .next (after t s fun s => complete .supervisor .range 0 (used s))) ∧
        (1 ≤ cls → cls ≤ 3 →
          (stagedOf s cls = none → exec (.updActivate t cls row env) s =
            .next (after t s fun s => complete .supervisor .notReady 0 (used s))) ∧
          (prevOf s cls = none → exec (.updRevert t cls row env) s =
            .next (after t s fun s => complete .supervisor .notReady 0 (used s))) ∧
          (cls = 2 → s.dev.mode ≠ .standby → (prevOf s cls).isSome = true → exec (.updRevert t cls row env) s =
            .next (after t s fun s => complete .supervisor .badMode 0 (used s)))) ∧
        (∀ a p, s.fw.mtiStaged = some a → s.fw.mtiActive = p → s.met.st = .broken → sealedRuns s = false → s.met.c < 8192 →
          64 ≤ evtFree s → s.fw.xfer = none →
          (Leaves (.updActivate t 3 0 env) s fun s' => s'.fw.mtiActive = some a ∧ s'.fw.mtiPrev = p ∧ s'.fw.mtiPend = true ∧
            s'.met.c = s.met.c + 1 ∧ s'.supRing.running = none) ∧
          (Leaves (.updActivate t 3 9 env) s fun s' => s'.fw.mtiStaged = none ∧ s'.fw.mtiActive = p ∧ s'.met.c = s.met.c)) ∧
        (∀ a p, s.fw.mtiPrev = some a → s.fw.mtiActive = p → s.met.st = .broken → sealedRuns s = false → s.met.c < 8192 →
          64 ≤ evtFree s → Leaves (.updRevert t 3 0 env) s fun s' => s'.fw.mtiActive = some a ∧ s'.fw.mtiPrev = p ∧
            s'.met.c = s.met.c + 1) ∧
        (s.fw.fwiStaged = some i → s.fw.rejected = false → s.fw.xfer = none → s.anyAxisEn = false → s.anyActive = false →
          s.xlk.role ≠ .lead → protoApart s i.proto = false → Leaves (.updActivate t 1 0 env) s fun s' =>
            s'.fld Reg.devResetCause 0 3 3 = 1 ∧ s'.jobs = State.reset.jobs ∧ s'.otp = s.otp)) ∧
      (s.fw.trial = false → Refuses (.updConfirm t 1 ok) t s .badState) ∧
      (s.str.active = none → Refuses (.updConfirm t 2 ok) t s .notReady) ∧
      (cls ≠ 1 → cls ≠ 2 → Refuses (.updConfirm t cls ok) t s .range) ∧
      (s.fw.trial = true → Leaves (.updConfirm t 1 true) s fun s' => s'.fw.trial = false ∧ s'.fw.trialAt = none ∧
        s'.supRing.running = none ∧ slots s')) ∧
    (s.fw.xfer = some x → (x.lastAt + 80000000000 ≤ max s.now t → exec (.updTransferTimeout t) s = .next (after t s fun s =>
        s.modFw fun u => { u with xfer := none })) ∧
      (max s.now t < x.lastAt + 80000000000 → exec (.updTransferTimeout t) s = .next (after t s id))) ∧
    (∀ a, s.fw.trial = true → s.fw.trialAt = some a → (max s.now t < a + 960000000000 → exec (.trialExpiry t env) s =
        .next (after t s id)) ∧
      (a + 960000000000 ≤ max s.now t → s.dev.mode = .standby → Leaves (.trialExpiry t env) s fun s' => s'.fw.expired = true ∧
        s'.anyAxisEn = false ∧ s'.dev.warmPending = some ⟨max s.now t + 16000000000⟩)) ∧
    (s.dev.mode ≠ .recovery → exec (.updRecGo t row header env) s = .next (after t s id) ∧
      exec (.recoveryUartBegin t length header ok) s = .next (after t s id) ∧
      exec (.recoveryUartBlock t offset data ok) s = .next (after t s id) ∧
      exec (.recoveryUartEnd t ok env) s = .next (after t s id)) ∧
    (s.dev.mode = .recovery →
      (lifeCycle s = 4 → exec (.updRecGo t row header env) s = .next (after t s fun s => s.modFw fun u => { u with recCode := 0x06 })) ∧
      (lifeCycle s ≠ 4 → row ≠ 0 → exec (.updRecGo t row header env) s = .next (after t s fun s =>
        s.modFw fun u => { u with recCode := (rowStatus row).code })) ∧
      (lifeCycle s ≠ 4 → (List.range 6).find? (regionBad s) = none → env.secureMarchOk = false →
        Leaves (.updRecGo t 0 header env) s fun s' => s'.fw.fwiActive = some ⟨header⟩ ∧ s'.fw.fwiPrev = none ∧
          s'.dev.mode = .recovery ∧ s'.dev.reason = 2) ∧
      (s.sec.policy.getLsbD 1 = false → lifeCycle s ≠ 4 →
        (headerRow header (imageCtx s 1 length) = 0 → exec (.recoveryUartBegin t length header true) s = .next (after t s fun s =>
          (s.modFw fun u => { u with uart := some (newTransfer s 1 length header) }).emit (.uartReply 0))) ∧
        (s.fw.uart = none → exec (.recoveryUartBlock t offset data true) s = .next (after t s fun s => s.emit (.uartReply 0x03)) ∧
          exec (.recoveryUartEnd t true env) s = .next (after t s fun s => s.emit (.uartReply 0x03))) ∧
        (s.fw.uart = some x →
          (4096 < data.length → exec (.recoveryUartBlock t offset data true) s = .next (after t s fun s =>
            (s.modFw fun u => { u with uart := none }).emit (.uartReply 0x04))) ∧
          (data.length ≤ 4096 → blockStatus x offset data = .ok → exec (.recoveryUartBlock t offset data true) s =
            .next (after t s fun s => (s.modFw fun u => { u with uart := some { x with data := x.data ++ data, lastAt := s.now } }).emit
              (.uartReply 0))) ∧
          (x.data.length ≠ x.length → exec (.recoveryUartEnd t true env) s = .next (after t s fun s =>
            (s.modFw fun u => { u with uart := none }).emit (.uartReply 0x04))) ∧
          (endStatus s x = .ok → Leaves (.recoveryUartEnd t true env) s fun s' => s'.otp = s.otp ∧ s'.fw.fwiStaged = none))))
/-! ## Logs and semaphores (chapter 24) -/

/-- LOG_ADMISSION, ITEM_HOLD_EXPIRY, SUMMARY_TIMER. -/
def Obligations.LogAdmission : Prop :=
  ∀ (t seq : Nat) (ctx : Fin 64) (s : State),
    (s.ringsRun = false → exec (.logAdmission t) s = .next (after t s id)) ∧
    (s.ringsRun = true → (∀ n : Fin 64, (s.jobs[n]).pkg = none) →
      (∀ r rest, s.log.waitAlarms = r :: rest → r.payload.len ≤ s.logFree → Leaves (.logAdmission t) s fun s' =>
        ∃ more, s'.log.ring = s.log.ring ++ { r with lseq := s.log.nextLseq } :: more) ∧
      (s.logFree < 56 → Leaves (.logAdmission t) s fun s' => s'.log.ring = s.log.ring ∧ s'.log.nextLseq = s.log.nextLseq ∧
        s'.jobs = s.jobs) ∧
      (∀ r, s.log.waitAlarms = [] → s.log.waitSummaries = [] → s.log.waitAudit = [r] → s.log.backlog = [] →
        Leaves (.logAdmission t) s fun s' =>
          (s.logSize / 64 ≤ s.logFree ∧ r.payload.len ≤ s.logFree →
            s'.log.ring = s.log.ring ++ [{ r with lseq := s.log.nextLseq }] ∧ s'.log.waitAudit = []) ∧
          (s.logFree < s.logSize / 64 ∨ s.logFree < r.payload.len →
            s'.log.ring = s.log.ring ∧ s'.log.waitAudit = [r]))) ∧
    (∀ front e back o since, s.log.backlog = front ++ e :: back → e.ctx = ctx.val → e.seq = seq →
      (∀ x ∈ front ++ back, ¬(x.ctx = ctx.val ∧ x.seq = seq)) → e.st = .final o since false →
      (s.fld Reg.logCfg 0 31 22 * 8000000 ≤ max s.now t - since →
        exec (.itemHoldExpiry t ctx seq) s = .next (after t s fun s => s.modLog fun l => { l with backlog := front ++
          { e with st := .final { o with outcome := 9, codes := o.codes ||| 0x200#16 } since true } :: back })) ∧
      (max s.now t - since < s.fld Reg.logCfg 0 31 22 * 8000000 →
        exec (.itemHoldExpiry t ctx seq) s = .next (after t s id))) ∧
    (s.log.drops.dropping = false → s.log.traceDrops.dropping = false →
      exec (.summaryTimer t) s = .next (after t s id)) ∧
    (s.log.drops.dropping = true → s.log.traceDrops.dropping = false →
      ((s.arrive t).press < max s.log.drops.lastSummary (8 * s.log.drops.first) + 8000000000 →
        exec (.summaryTimer t) s = .next (after t s id)) ∧
      (max s.log.drops.lastSummary (8 * s.log.drops.first) + 8000000000 ≤ (s.arrive t).press →
        s.log.waitAlarms = [] → s.log.waitSummaries = [] → 56 ≤ s.logFree → Leaves (.summaryTimer t) s fun s' =>
          s'.log.drops.dropped = 0 ∧ s'.log.drops.codes = [] ∧ s'.log.drops.dropping = true ∧
          ∃ r, s'.log.ring = s.log.ring ++ [r] ∧ r.cls = .diag ∧ r.code = 0xFFFF ∧ r.inst = 0xFFFF ∧
            r.lseq = s.log.nextLseq ∧ r.payload = .summary s.log.drops.dropped (topCode s.log.drops.codes).1
              (topCode s.log.drops.codes).2 s.log.drops.first s.log.drops.last))

/-- LOG_DRAIN, LOG_READBACK_RETRY, LOG_CTRL_ENABLE, LOG_CTRL_DISABLE, LOG_HOST_RD, COALESCE_TIMEOUT. -/
def Obligations.LogDrain : Prop :=
  ∀ (t value : Nat) (ok lost : Bool) (r : LogRec) (rest : List LogRec) (s : State), s.ringsRun = true →
    let size := 2 ^ s.fld Reg.logHostSize 0 4 0
    let pad := if size < s.log.wr % size + r.payload.len then size - s.log.wr % size else 0
    let last := s.log.wr + pad + r.payload.len
    (s.log.en = false → (∀ n, exec (.logDrain t n ok lost) s = .next (after t s id)) ∧
      exec (.logReadbackRetry t ok) s = .next (after t s id) ∧
      exec (.logHostRd t value) s = .next (after t s id)) ∧
    (s.log.en = true → s.isDisabled 0x0E 0 = false → s.log.ring = r :: rest →
      (s.log.retry = none →
        (s.log.rd + size < last + 8 → ∀ n, exec (.logDrain t n ok false) s = .next (after t s id)) ∧
        (last + 8 ≤ s.log.rd + size →
          (Leaves (.logDrain t 1 true false) s fun s' => s'.log.ring = rest ∧ s'.log.host = s.log.host ++ [(r, last)] ∧
            s'.log.wr = last ∧ s'.log.rd = s.log.rd ∧ ∃ more, s'.out =
              (if 0 < pad then [Out.hostPad (s.log.wr % size) pad] else []) ++
                Out.hostRecord ((s.log.wr + pad) % size) ((s.log.wr + pad) / size % 2 == 0) r :: more) ∧
          (Leaves (.logDrain t 1 false false) s fun s' => s'.log.ring = s.log.ring ∧ s'.log.host = s.log.host ∧
            s'.log.wr = s.log.wr ∧ s'.log.retry = some (1, max s.now t) ∧ bitOf s' Reg.logStatus 0 6 = true)) ∧
        (∀ o e, r.payload = .outcome o → s.log.backlog = [e] → e.st = .admitted o r.lseq → Leaves (.logDrain t 0 ok true) s fun s' => ∃ x y, s'.log.ring = x :: (rest ++ [y]) ∧ x.code = 42 ∧
            x.lseq = r.lseq ∧ x.payload = .args (BitVec.ofNat 64 r.lseq) (BitVec.ofNat 64 r.lseq) 0 0 ∧
            y.reissue = true ∧ y.lseq = s.log.nextLseq ∧
            y.payload = .outcome { o with outcome := 9, codes := o.codes ||| 0x200#16 })) ∧
      (∀ at_, s.log.retry = some (1, at_) →
        (∀ n, exec (.logDrain t n ok lost) s = .next (after t s id)) ∧
        (max s.now t < at_ + 8000000 → exec (.logReadbackRetry t ok) s = .next (after t s id)) ∧
        (at_ + 8000000 ≤ max s.now t → last + 8 ≤ s.log.rd + size → Leaves (.logReadbackRetry t true) s fun s' =>
          s'.log.retry = none ∧ s'.log.wr = last ∧ s'.log.ring = rest))) ∧
    (exec (.logCtrlEnable t) s = .next (after t s fun s => s.modLog fun l =>
      { l with ring := l.host.map (·.1) ++ l.ring, host := [], en := true, retry := none, wr := 0, rd := 0 })) ∧
    (exec (.logCtrlDisable t) s = .next (after t s fun s => s.modLog fun l =>
      { l with ring := l.host.map (·.1) ++ l.ring, host := [], en := false, retry := none })) ∧
    (s.log.en = true →
      (∀ e later, s.log.host = (r, e) :: later → s.log.rd < e → e < s.log.rd + size → e ≤ s.log.wr →
        (∀ x ∈ later, e < x.2) → (∀ n : Fin 64, (s.jobs[n]).pkg = none) →
        (∀ x ∈ s.log.backlog, ∀ o since held, x.st ≠ .final o since held) → Leaves (.logHostRd t (e % size)) s fun s' =>
          s'.log.rd = e ∧ s'.log.host = later ∧
          ∀ x, x ∈ s'.log.backlog ↔ x ∈ s.log.backlog ∧ ∀ o, x.st ≠ .admitted o r.lseq) ∧
      (size ≤ value ∨ s.log.wr < rdOffset s value → exec (.logHostRd t value) s = .refused (.unpredictable "LOG_HOST_RD"))) ∧
    (s.log.coalFirst = none → exec (.coalesceTimeout t) s = .next (after t s id)) ∧
    (∀ a, s.log.coalFirst = some a →
      (max s.now t < a + s.fld Reg.logCfg 0 21 12 * 8000 → exec (.coalesceTimeout t) s = .next (after t s id)) ∧
      (a + s.fld Reg.logCfg 0 21 12 * 8000 ≤ max s.now t → 0 < s.log.coalCount →
        exec (.coalesceTimeout t) s = .next (after t s fun s =>
          (s.modLog fun l => { l with coalCount := 0, coalFirst := none }).msix (s.fld Reg.evtVec 0 15 8))))

/-- SEM_ACQUIRE, SEM_RELEASE, and the register write that spells them (R459). -/
def Obligations.Semaphores : Prop :=
  ∀ (t : Nat) (n : Fin 64) (f i g : Byte) (value : Word) (s : State), s.ringsRun = true →
    ((s.sems[n]).st = .free → exec (.semAcquire t n f i g) s = .next (after t s fun s =>
      { s with sems := s.sems.set n { st := .owned, code := 0x00, func := f, inst := i, tag := g } })) ∧
    ((s.sems[n]).st = .broken → exec (.semAcquire t n f i g) s = .next (after t s fun s =>
      { s with sems := s.sems.set n { st := .owned, code := 0x0F, func := f, inst := i, tag := g } })) ∧
    ((s.sems[n]).st = .owned → exec (.semAcquire t n f i g) s = .next (after t s id)) ∧
    ((s.sems[n]).st = .owned → (s.sems[n]).func = f → (s.sems[n]).inst = i → (s.sems[n]).tag = g →
      exec (.semRelease t n f i g) s = .next (after t s fun s =>
        { s with sems := s.sems.set n { s.sems[n] with st := .free } })) ∧
    (((s.sems[n]).st ≠ .owned ∨ (s.sems[n]).func ≠ f ∨ (s.sems[n]).inst ≠ i ∨ (s.sems[n]).tag ≠ g) →
      exec (.semRelease t n f i g) s = .next (after t s id)) ∧
    (value.getLsbD 31 = true → value.getLsbD 30 = false → exec (.registerWrite t (0x460200 + 4 * n) value) s =
      exec (.semAcquire t n (value.extractLsb' 16 8) (value.extractLsb' 8 8) (value.extractLsb' 0 8)) s) ∧
    (value.getLsbD 31 = false → value.getLsbD 30 = true → exec (.registerWrite t (0x460200 + 4 * n) value) s =
      exec (.semRelease t n (value.extractLsb' 16 8) (value.extractLsb' 8 8) (value.extractLsb' 0 8)) s) ∧
    (∀ (f' i' g' : Byte) (rest : List Instr), (s.sems[n]).st = .free → ∃ u v,
      step { s with pending := .semAcquire t n f i g :: .semAcquire t n f' i' g' :: rest } = .next u ∧ step u = .next v ∧
      v.pending = rest ∧ v.sems[n] = { st := .owned, code := 0x00, func := f, inst := i, tag := g }) ∧
    (value.getLsbD 31 = value.getLsbD 30 → exec (.registerWrite t (0x460200 + 4 * n) value) s = .next (after t s id))
/-! ## Pins, clocks, the host link and the low-speed interfaces (chapters 26 to 28) -/

/-- FLR, PERST_N_ASSERT, PERST_N_RELEASE, ENDPOINT_LINK_DOWN, PCIE_COMPLETION_TIMEOUT, ROOT_PORT_LINK_LOSS,
ROOT_PORT_LINK_UP. -/
def Obligations.HostLink : Prop :=
  ∀ (t speed width controllers : Nat) (onFetch : Bool) (rid : RingId) (s : State),
    let cleared (s' : State) : Prop := s'.supRing.enable = false ∧ s'.admRing.enable = false ∧
      (∀ n : Fin 64, (s'.jobRings[n]).enable = false) ∧ s'.sems = s.sems.map Sem.break ∧
      s'.dma = Vector.replicate 32 Dma.reset ∧ s'.sec.session = none ∧ s'.log.en = false ∧
      s'.log.ring = s.log.host.map (·.1) ++ s.log.ring ∧ s'.log.backlog = s.log.backlog ∧ s'.jobs = s.jobs ∧
      s'.met = s.met ∧ s'.dev.mode = s.dev.mode ∧ s'.otp = s.otp ∧ s'.calStore = s.calStore
    (s.modeIn [.service, .print] = false →
      (Leaves (.flr t) s fun s' => cleared s' ∧ bitOf s' Reg.pciResets 0 2 = true) ∧
      (s.dev.rstN = true → Leaves (.perstNAssert t) s fun s' => cleared s' ∧ bitOf s' Reg.pciResets 0 1 = true ∧
        s'.lsi.perstN = false ∧ s'.pci.linkUp = false)) ∧
    (s.dev.rstN = false →
      exec (.perstNAssert t) s = .next (after t s fun s =>
        { s.modLsi fun l => { l with perstN := false } with
          pci := { s.pci with linkUp := false, speed := 0, width := 0 } }) ∧
      exec (.perstNRelease t speed width) s = .next (after t s fun s => s.modLsi fun l => { l with perstN := true })) ∧
    (s.dev.rstN = true → 0 < speed → exec (.perstNRelease t speed width) s = .next (after t s fun s =>
      { s.modLsi fun l => { l with perstN := true } with
        pci := { s.pci with linkUp := true, speed := speed, width := width } })) ∧
    (exec (.endpointLinkDown t) s = .next (after t s fun s =>
      { s.setFld Reg.pciResets 0 0 0 1 with pci := { s.pci with linkUp := false, speed := 0, width := 0 } })) ∧
    (s.ringsRun = true →
      ((s.ring rid).enable = false → exec (.pcieCompletionTimeout t (.inl rid) true) s = .next (after t s id)) ∧
      ((s.ring rid).enable = true → Leaves (.pcieCompletionTimeout t (.inl rid) true) s fun s' => (s'.ring rid).enable = false ∧
        (s'.ring rid).sqTail = (s.ring rid).sqTail ∧ bitOf s' Reg.evtAlarmLatch 0 2 = true ∧ s'.jobs = s.jobs) ∧
      ((s.ring rid).running.isSome = true → Leaves (.pcieCompletionTimeout t (.inl rid) false) s fun s' =>
        (s'.ring rid).enable = false ∧ (s'.ring rid).running = none ∧ bitOf s' Reg.evtAlarmLatch 0 2 = true ∧ s'.jobs = s.jobs) ∧
      (∀ n : Fin 32, (s.dma[n]).live = true → Leaves (.pcieCompletionTimeout t (.inr (.inl n)) onFetch) s fun s' =>
        (s'.dma[n]).st = .aborting ∧ (s'.dma[n]).code = 0x0C ∧ s'.jobs = s.jobs) ∧
      (s.log.en = false → exec (.pcieCompletionTimeout t (.inr (.inr ())) onFetch) s = .next (after t s id))) ∧
    (Leaves (.rootPortLinkLoss t) s fun s' => s'.pci.rpUp = false ∧
      (∀ n : Fin 32, (s'.mem.js[n]).attached = (s.mem.js[n]).attached ∧
        ((s.mem.js[n]).attached = true → (s'.mem.js[n]).ioErr = true)) ∧
      (∀ c : Fin 64, (s'.jobs[c]).nvmeWait = none)) ∧
    (s.ringsRun = true → s.isDisabled 0x10 0 = false → exec (.rootPortLinkUp t speed width controllers) s =
      .next (after t s fun s => { s with pci :=
        { s.pci with rpUp := true, rpSpeed := speed, rpWidth := width, rpCtrls := min 8 controllers } }))

/-- PIO_FUNC_WRITE, GPIO_INPUT_EDGE, QREF_LOSS, QREF_RESTORED, I2C_GO, I2C_TRANSFER_DONE, I2C_SCL_TIMEOUT, UART_RECEIVE,
TAP_INSTRUCTION. -/
def Obligations.LowSpeed : Prop :=
  ∀ (t received : Nat) (m : Fin 64) (quad : Fin 16) (port : Fin 2) (value : Word) (ch : Byte) (high nack arb stopOk parityOk : Bool)
      (s : State),
    let f := bitsOf value 7 0
    let g := s.lsi.gpio[m]
    let refused (st : Status) : Prop := exec (.pioFuncWrite t m value) s = .next (after t s fun s =>
      s.recordErr Reg.pioErr 0 (0x100 + 4 * m) st)
    let level (parked : Bool) : Prop := exec (.gpioInputEdge t m high) s = .next (after t s fun s => s.modLsi fun l =>
      { l with gpio := l.gpio.set m { g with level := high, prev := if parked then none else some high } })
    (s.ringsRun = true →
      (s.modeIn [.standby, .service, .print] = false → refused .badMode) ∧
      (s.modeIn [.standby, .service, .print] = true → (enPinBusy s (pinFunc s m) || enPinBusy s f) = true → refused .badState) ∧
      (s.modeIn [.standby, .service, .print] = true → enPinBusy s (pinFunc s m) = false → enPinBusy s f = false →
        (pinFuncReserved f = true → refused .range) ∧
        (∀ k : Fin 64, k ≠ m → 1 < f → pinFunc s k = f → refused .range) ∧
        (f ≤ 1 → bitsOf value 9 8 ≤ 2 → exec (.pioFuncWrite t m value) s = .next (after t s fun s =>
          (s.wr Reg.pioFunc m (value &&& 0x3FFF#32)).modLsi fun l =>
            { l with gpio := l.gpio.set m { g with parked := false, prev := none } }))) ∧
      (g.parked = true → level true) ∧
      (g.parked = false → g.prev = some high → level false) ∧
      (g.parked = false → pinFunc s m ≠ 0 → level false) ∧
      (g.parked = false → g.prev = some (!high) → pinFunc s m = 0 →
        (s.fld Reg.pioFunc m 13 12 = 3 ∨ s.fld Reg.pioFunc m 13 12 = (if high then 1 else 2)) →
        Leaves (.gpioInputEdge t m high) s fun s' => bitOf s' Reg.pioEdge (m / 32) (m % 32) = true ∧
          s'.lsi.gpio[m] = { g with level := high, prev := some high } ∧ s'.jobs = s.jobs)) ∧
    (s.ringsRun = false → exec (.qrefLoss t quad) s = .next (after t s fun s =>
      (s.setFld Reg.clkLoss 0 (16 + quad) (16 + quad) 1).modLsi fun l => { l with qref := l.qref &&& ~~~(1#16 <<< quad.val) })) ∧
    (s.ringsRun = true → Leaves (.qrefLoss t quad) s fun s' => s'.lsi.qref.getLsbD quad = false ∧
      (∀ q : Fin 16, q ≠ quad → s'.lsi.qref.getLsbD q = s.lsi.qref.getLsbD q) ∧ bitOf s' Reg.clkLoss 0 (16 + quad) = true ∧
      (∀ l : Fin 64, l.val / 4 = quad.val → fabricPorts s = [] → (s.laneEp l).isSome = true →
        (s'.mlk.lanes[l]).st = .down) ∧
      (∀ l : Fin 64, l.val / 4 ≠ quad.val → fabricPorts s = [] → (s'.mlk.lanes[l]).st = (s.mlk.lanes[l]).st)) ∧
    (exec (.qrefRestored t quad) s = .next (after t s fun s => s.modLsi fun l =>
      { l with qref := l.qref ||| (1#16 <<< quad.val) })) ∧
    (s.ringsRun = true → s.isDisabled 0x0F port = false →
      ((s.lsi.i2c[port]).busy = true → exec (.i2cGo t port value) s = .next (after t s fun s =>
        s.recordErr Reg.lsiErr 0 (0x004 + 0x10 * port) .busy)) ∧
      ((s.lsi.i2c[port]).busy = false → 64 < bitsOf value 15 8 ∨ 64 < bitsOf value 7 0 →
        exec (.i2cGo t port value) s = .next (after t s fun s => s.recordErr Reg.lsiErr 0 (0x004 + 0x10 * port) .range)) ∧
      ((s.lsi.i2c[port]).busy = false → bitsOf value 15 8 ≤ 64 → bitsOf value 7 0 ≤ 64 → s.fld Reg.lsiI2cCfg port 31 31 = 1 →
        Leaves (.i2cGo t port value) s fun s' => (s'.lsi.i2c[port]).busy = true ∧
          (s'.lsi.i2c[port]).tx = (s.lsi.i2c[port]).tx - bitsOf value 15 8 ∧
          s'.out = [.i2c port (bitsOf value 22 16) (bitsOf value 15 8) (bitsOf value 7 0)])) ∧
    (s.ringsRun = true → (s.lsi.i2c[port]).busy = false →
      exec (.i2cTransferDone t port nack arb received) s = .next (after t s id) ∧
      exec (.i2cSclTimeout t port) s = .next (after t s id)) ∧
    (s.ringsRun = true → (s.lsi.i2c[port]).busy = true →
      (Leaves (.i2cTransferDone t port nack arb received) s fun s' => (s'.lsi.i2c[port]).busy = false ∧
        (s'.lsi.i2c[port]).rx = min 64 ((s.lsi.i2c[port]).rx + received) ∧
        (nack = true → bitOf s' Reg.lsiI2cStatus port 3 = true) ∧ (arb = true → bitOf s' Reg.lsiI2cStatus port 2 = true) ∧
        (nack = false → arb = false → s'.regs = s.regs)) ∧
      (Leaves (.i2cSclTimeout t port) s fun s' => (s'.lsi.i2c[port]).busy = false ∧
        bitOf s' Reg.lsiI2cStatus port 1 = true)) ∧
    (s.ringsRun = true → s.fld Reg.lsiUartCfg port 31 31 = 1 → s.isDisabled 0x0F (port + 2) = false →
      (stopOk = false → exec (.uartReceive t port ch stopOk parityOk) s = .next (after t s fun s =>
        s.setFld Reg.lsiUartStatus port 30 30 1)) ∧
      (stopOk = true → s.fld Reg.lsiUartCfg port 25 24 ≠ 0 → parityOk = false →
        exec (.uartReceive t port ch stopOk parityOk) s = .next (after t s fun s => s.setFld Reg.lsiUartStatus port 29 29 1)) ∧
      (stopOk = true → parityOk = true → 256 ≤ (s.lsi.uart[port]).rx.length →
        exec (.uartReceive t port ch stopOk parityOk) s = .next (after t s fun s => s.setFld Reg.lsiUartStatus port 31 31 1)) ∧
      (stopOk = true → parityOk = true → (s.lsi.uart[port]).rx.length < 256 →
        exec (.uartReceive t port ch stopOk parityOk) s = .next (after t s fun s => s.modLsi fun l =>
          { l with uart := l.uart.set port { s.lsi.uart[port] with rx := (s.lsi.uart[port]).rx ++ [ch] } }))) ∧
    (lifeCycle s ≤ 1 → exec (.tapInstruction t .debug) s = .next (after t s fun s => s.modLsi fun l => { l with tap := .debug })) ∧
    (lifeCycle s = 2 → s.sec.policy.getLsbD 0 = false → exec (.tapInstruction t .debug) s = .next (after t s fun s =>
      s.modLsi fun l => { l with tap := .bypass })) ∧
    (lifeCycle s = 2 → s.sec.policy.getLsbD 0 = true → ∀ i, exec (.tapInstruction t i) s = .next (after t s id)) ∧
    (lifeCycle s ≤ 1 → ∀ i, i = .extest ∨ i = .clamp → exec (.tapInstruction t i) s = .next (after t s fun s => s.modLsi fun l =>
      { l with tap := if s.dev.rstN then .bypass else if i = .extest then .extest else .clamp }))

/-! ## Register access and reset (chapters 03 and 25) -/

/-- REGISTER_WRITE and READ_CLEAR. -/
def Obligations.RegisterAccess : Prop :=
  ∀ (t addr : Nat) (value : Word) (s : State),
    (s.dev.mode = .boot → exec (.registerWrite t addr value) s = .next (after t s id) ∧
      exec (.readClear t addr) s = .next (after t s fun s => s.emit (.readValue addr 0))) ∧
    (s.ringsRun = true →
      (∀ i : Fin 2, exec (.registerWrite t (0x470008 + 4 * i) value) s = .next (after t s fun s => s.wr Reg.pioOut i value)) ∧
      (∀ i : Fin 8, exec (.registerWrite t (0x30040 + 4 * i) value) s = .next (after t s fun s =>
        s.wr Reg.evtAlarmLatch i (s.rd Reg.evtAlarmLatch i &&& ~~~value))) ∧
      (s.log.en = true → exec (.registerWrite t 0x450008 value) s = .next (after t s fun s =>
        s.setFld Reg.logStatus 0 5 5 1)) ∧
      (sensitiveRefused s = true → exec (.registerWrite t 0x400004 value) s = .next (after t s fun s =>
        s.recordErr Reg.secErr 0 4 .authFail)) ∧
      (0x4A0000 ≤ addr → addr < 0x4000000 → exec (.registerWrite t addr value) s = .next (after t s id) ∧
        exec (.readClear t addr) s = .next (after t s id)) ∧
      (exec (.readClear t 0x450028) s = .next (after t s fun s =>
        (s.wr Reg.logDropDiag 0 0).emit (.readValue 0x450028 (s.rd Reg.logDropDiag 0))))) ∧
    (s.ringsRun = true → s.regsSorted = true → Leaves (.readClear t 0x450028) s fun s' => s'.rd Reg.logDropDiag 0 = 0)

/-- The canonical order of the maps and what reset leaves. -/
def Obligations.ResetState : Prop :=
  State.reset.dev.mode = .boot ∧ State.reset.regsSorted = true ∧ keysRise State.reset.otp = true ∧
    (∀ r i, State.reset.rd r i = r.reset) ∧ State.reset.supRing.enable = false ∧ State.reset.admRing.enable = false ∧
    (∀ n : Fin 64, (State.reset.jobRings[n]).enable = false ∧ (State.reset.jobs[n]).st = .free ∧
      (State.reset.sems[n]).st = .free ∧ (State.reset.mlk.lanes[n]).st = .down) ∧
    State.reset.str.active = none ∧ State.reset.sec.session = none ∧ State.reset.press = 0 ∧ State.reset.pending = []
end

