-- ==== Sys2Proof/Laws/State.lean ====
section
/-! SUPPORT. Laws of State: what each update of the state leaves and what it sets, one lemma for each field. -/

namespace Sys2Proof.Machine

@[simp] theorem State.advance_free (s : State) (t : Nat) : (s.advance t).free = s.free := rfl
@[simp] theorem State.advance_out (s : State) (t : Nat) : (s.advance t).out = s.out := rfl
@[simp] theorem State.advance_regs (s : State) (t : Nat) : (s.advance t).regs = s.regs := rfl
@[simp] theorem State.advance_dev (s : State) (t : Nat) : (s.advance t).dev = s.dev := rfl
@[simp] theorem State.advance_str (s : State) (t : Nat) : (s.advance t).str = s.str := rfl
@[simp] theorem State.advance_supRing (s : State) (t : Nat) : (s.advance t).supRing = s.supRing := rfl
@[simp] theorem State.advance_admRing (s : State) (t : Nat) : (s.advance t).admRing = s.admRing := rfl
@[simp] theorem State.advance_jobRings (s : State) (t : Nat) : (s.advance t).jobRings = s.jobRings := rfl
@[simp] theorem State.advance_jobs (s : State) (t : Nat) : (s.advance t).jobs = s.jobs := rfl
@[simp] theorem State.advance_cmp (s : State) (t : Nat) : (s.advance t).cmp = s.cmp := rfl
@[simp] theorem State.advance_clusters (s : State) (t : Nat) : (s.advance t).clusters = s.clusters := rfl
@[simp] theorem State.advance_cod (s : State) (t : Nat) : (s.advance t).cod = s.cod := rfl
@[simp] theorem State.advance_planes (s : State) (t : Nat) : (s.advance t).planes = s.planes := rfl
@[simp] theorem State.advance_nzm (s : State) (t : Nat) : (s.advance t).nzm = s.nzm := rfl
@[simp] theorem State.advance_pac (s : State) (t : Nat) : (s.advance t).pac = s.pac := rfl
@[simp] theorem State.advance_wav (s : State) (t : Nat) : (s.advance t).wav = s.wav := rfl
@[simp] theorem State.advance_log (s : State) (t : Nat) : (s.advance t).log = s.log := rfl
@[simp] theorem State.advance_sems (s : State) (t : Nat) : (s.advance t).sems = s.sems := rfl
@[simp] theorem State.advance_pci (s : State) (t : Nat) : (s.advance t).pci = s.pci := rfl
@[simp] theorem State.advance_mlk (s : State) (t : Nat) : (s.advance t).mlk = s.mlk := rfl
@[simp] theorem State.advance_ins (s : State) (t : Nat) : (s.advance t).ins = s.ins := rfl
@[simp] theorem State.advance_gov (s : State) (t : Nat) : (s.advance t).gov = s.gov := rfl
@[simp] theorem State.advance_ba (s : State) (t : Nat) : (s.advance t).ba = s.ba := rfl
@[simp] theorem State.advance_sd (s : State) (t : Nat) : (s.advance t).sd = s.sd := rfl
@[simp] theorem State.advance_stp (s : State) (t : Nat) : (s.advance t).stp = s.stp := rfl
@[simp] theorem State.advance_enc (s : State) (t : Nat) : (s.advance t).enc = s.enc := rfl
@[simp] theorem State.advance_pwr (s : State) (t : Nat) : (s.advance t).pwr = s.pwr := rfl
@[simp] theorem State.advance_mem (s : State) (t : Nat) : (s.advance t).mem = s.mem := rfl
@[simp] theorem State.advance_dma (s : State) (t : Nat) : (s.advance t).dma = s.dma := rfl
@[simp] theorem State.advance_sec (s : State) (t : Nat) : (s.advance t).sec = s.sec := rfl
@[simp] theorem State.advance_met (s : State) (t : Nat) : (s.advance t).met = s.met := rfl
@[simp] theorem State.advance_cal (s : State) (t : Nat) : (s.advance t).cal = s.cal := rfl
@[simp] theorem State.advance_fw (s : State) (t : Nat) : (s.advance t).fw = s.fw := rfl
@[simp] theorem State.advance_lsi (s : State) (t : Nat) : (s.advance t).lsi = s.lsi := rfl
@[simp] theorem State.advance_otp (s : State) (t : Nat) : (s.advance t).otp = s.otp := rfl
@[simp] theorem State.advance_calStore (s : State) (t : Nat) : (s.advance t).calStore = s.calStore := rfl
@[simp] theorem State.advance_pending (s : State) (t : Nat) : (s.advance t).pending = s.pending := rfl

@[simp] theorem State.arrive_free (s : State) (t : Nat) : (s.arrive t).free = s.free := rfl
@[simp] theorem State.arrive_regs (s : State) (t : Nat) : (s.arrive t).regs = s.regs := rfl
@[simp] theorem State.arrive_dev (s : State) (t : Nat) : (s.arrive t).dev = s.dev := rfl
@[simp] theorem State.arrive_str (s : State) (t : Nat) : (s.arrive t).str = s.str := rfl
@[simp] theorem State.arrive_supRing (s : State) (t : Nat) : (s.arrive t).supRing = s.supRing := rfl
@[simp] theorem State.arrive_admRing (s : State) (t : Nat) : (s.arrive t).admRing = s.admRing := rfl
@[simp] theorem State.arrive_jobRings (s : State) (t : Nat) : (s.arrive t).jobRings = s.jobRings := rfl
@[simp] theorem State.arrive_jobs (s : State) (t : Nat) : (s.arrive t).jobs = s.jobs := rfl
@[simp] theorem State.arrive_cmp (s : State) (t : Nat) : (s.arrive t).cmp = s.cmp := rfl
@[simp] theorem State.arrive_clusters (s : State) (t : Nat) : (s.arrive t).clusters = s.clusters := rfl
@[simp] theorem State.arrive_cod (s : State) (t : Nat) : (s.arrive t).cod = s.cod := rfl
@[simp] theorem State.arrive_planes (s : State) (t : Nat) : (s.arrive t).planes = s.planes := rfl
@[simp] theorem State.arrive_nzm (s : State) (t : Nat) : (s.arrive t).nzm = s.nzm := rfl
@[simp] theorem State.arrive_pac (s : State) (t : Nat) : (s.arrive t).pac = s.pac := rfl
@[simp] theorem State.arrive_wav (s : State) (t : Nat) : (s.arrive t).wav = s.wav := rfl
@[simp] theorem State.arrive_log (s : State) (t : Nat) : (s.arrive t).log = s.log := rfl
@[simp] theorem State.arrive_sems (s : State) (t : Nat) : (s.arrive t).sems = s.sems := rfl
@[simp] theorem State.arrive_pci (s : State) (t : Nat) : (s.arrive t).pci = s.pci := rfl
@[simp] theorem State.arrive_mlk (s : State) (t : Nat) : (s.arrive t).mlk = s.mlk := rfl
@[simp] theorem State.arrive_ins (s : State) (t : Nat) : (s.arrive t).ins = s.ins := rfl
@[simp] theorem State.arrive_gov (s : State) (t : Nat) : (s.arrive t).gov = s.gov := rfl
@[simp] theorem State.arrive_ba (s : State) (t : Nat) : (s.arrive t).ba = s.ba := rfl
@[simp] theorem State.arrive_sd (s : State) (t : Nat) : (s.arrive t).sd = s.sd := rfl
@[simp] theorem State.arrive_stp (s : State) (t : Nat) : (s.arrive t).stp = s.stp := rfl
@[simp] theorem State.arrive_enc (s : State) (t : Nat) : (s.arrive t).enc = s.enc := rfl
@[simp] theorem State.arrive_pwr (s : State) (t : Nat) : (s.arrive t).pwr = s.pwr := rfl
@[simp] theorem State.arrive_mem (s : State) (t : Nat) : (s.arrive t).mem = s.mem := rfl
@[simp] theorem State.arrive_dma (s : State) (t : Nat) : (s.arrive t).dma = s.dma := rfl
@[simp] theorem State.arrive_sec (s : State) (t : Nat) : (s.arrive t).sec = s.sec := rfl
@[simp] theorem State.arrive_met (s : State) (t : Nat) : (s.arrive t).met = s.met := rfl
@[simp] theorem State.arrive_cal (s : State) (t : Nat) : (s.arrive t).cal = s.cal := rfl
@[simp] theorem State.arrive_fw (s : State) (t : Nat) : (s.arrive t).fw = s.fw := rfl
@[simp] theorem State.arrive_lsi (s : State) (t : Nat) : (s.arrive t).lsi = s.lsi := rfl
@[simp] theorem State.arrive_otp (s : State) (t : Nat) : (s.arrive t).otp = s.otp := rfl
@[simp] theorem State.arrive_calStore (s : State) (t : Nat) : (s.arrive t).calStore = s.calStore := rfl
@[simp] theorem State.arrive_pending (s : State) (t : Nat) : (s.arrive t).pending = s.pending := rfl

@[simp] theorem State.emit_now (s : State) (o : Out) : (s.emit o).now = s.now := rfl
@[simp] theorem State.emit_pressBase (s : State) (o : Out) : (s.emit o).pressBase = s.pressBase := rfl
@[simp] theorem State.emit_free (s : State) (o : Out) : (s.emit o).free = s.free := rfl
@[simp] theorem State.emit_regs (s : State) (o : Out) : (s.emit o).regs = s.regs := rfl
@[simp] theorem State.emit_dev (s : State) (o : Out) : (s.emit o).dev = s.dev := rfl
@[simp] theorem State.emit_str (s : State) (o : Out) : (s.emit o).str = s.str := rfl
@[simp] theorem State.emit_supRing (s : State) (o : Out) : (s.emit o).supRing = s.supRing := rfl
@[simp] theorem State.emit_admRing (s : State) (o : Out) : (s.emit o).admRing = s.admRing := rfl
@[simp] theorem State.emit_jobRings (s : State) (o : Out) : (s.emit o).jobRings = s.jobRings := rfl
@[simp] theorem State.emit_jobs (s : State) (o : Out) : (s.emit o).jobs = s.jobs := rfl
@[simp] theorem State.emit_cmp (s : State) (o : Out) : (s.emit o).cmp = s.cmp := rfl
@[simp] theorem State.emit_clusters (s : State) (o : Out) : (s.emit o).clusters = s.clusters := rfl
@[simp] theorem State.emit_cod (s : State) (o : Out) : (s.emit o).cod = s.cod := rfl
@[simp] theorem State.emit_planes (s : State) (o : Out) : (s.emit o).planes = s.planes := rfl
@[simp] theorem State.emit_nzm (s : State) (o : Out) : (s.emit o).nzm = s.nzm := rfl
@[simp] theorem State.emit_pac (s : State) (o : Out) : (s.emit o).pac = s.pac := rfl
@[simp] theorem State.emit_wav (s : State) (o : Out) : (s.emit o).wav = s.wav := rfl
@[simp] theorem State.emit_log (s : State) (o : Out) : (s.emit o).log = s.log := rfl
@[simp] theorem State.emit_sems (s : State) (o : Out) : (s.emit o).sems = s.sems := rfl
@[simp] theorem State.emit_pci (s : State) (o : Out) : (s.emit o).pci = s.pci := rfl
@[simp] theorem State.emit_mlk (s : State) (o : Out) : (s.emit o).mlk = s.mlk := rfl
@[simp] theorem State.emit_ins (s : State) (o : Out) : (s.emit o).ins = s.ins := rfl
@[simp] theorem State.emit_gov (s : State) (o : Out) : (s.emit o).gov = s.gov := rfl
@[simp] theorem State.emit_ba (s : State) (o : Out) : (s.emit o).ba = s.ba := rfl
@[simp] theorem State.emit_sd (s : State) (o : Out) : (s.emit o).sd = s.sd := rfl
@[simp] theorem State.emit_stp (s : State) (o : Out) : (s.emit o).stp = s.stp := rfl
@[simp] theorem State.emit_enc (s : State) (o : Out) : (s.emit o).enc = s.enc := rfl
@[simp] theorem State.emit_pwr (s : State) (o : Out) : (s.emit o).pwr = s.pwr := rfl
@[simp] theorem State.emit_mem (s : State) (o : Out) : (s.emit o).mem = s.mem := rfl
@[simp] theorem State.emit_dma (s : State) (o : Out) : (s.emit o).dma = s.dma := rfl
@[simp] theorem State.emit_xlk (s : State) (o : Out) : (s.emit o).xlk = s.xlk := rfl
@[simp] theorem State.emit_sec (s : State) (o : Out) : (s.emit o).sec = s.sec := rfl
@[simp] theorem State.emit_met (s : State) (o : Out) : (s.emit o).met = s.met := rfl
@[simp] theorem State.emit_cal (s : State) (o : Out) : (s.emit o).cal = s.cal := rfl
@[simp] theorem State.emit_fw (s : State) (o : Out) : (s.emit o).fw = s.fw := rfl
@[simp] theorem State.emit_lsi (s : State) (o : Out) : (s.emit o).lsi = s.lsi := rfl
@[simp] theorem State.emit_otp (s : State) (o : Out) : (s.emit o).otp = s.otp := rfl
@[simp] theorem State.emit_calStore (s : State) (o : Out) : (s.emit o).calStore = s.calStore := rfl
@[simp] theorem State.emit_pending (s : State) (o : Out) : (s.emit o).pending = s.pending := rfl

@[simp] theorem State.wr_now (s : State) (r : RegSpec) (i : Nat) (v : Word) : (s.wr r i v).now = s.now := rfl
@[simp] theorem State.wr_pressBase (s : State) (r : RegSpec) (i : Nat) (v : Word) : (s.wr r i v).pressBase = s.pressBase := rfl
@[simp] theorem State.wr_free (s : State) (r : RegSpec) (i : Nat) (v : Word) : (s.wr r i v).free = s.free := rfl
@[simp] theorem State.wr_out (s : State) (r : RegSpec) (i : Nat) (v : Word) : (s.wr r i v).out = s.out := rfl
@[simp] theorem State.wr_dev (s : State) (r : RegSpec) (i : Nat) (v : Word) : (s.wr r i v).dev = s.dev := rfl
@[simp] theorem State.wr_str (s : State) (r : RegSpec) (i : Nat) (v : Word) : (s.wr r i v).str = s.str := rfl
@[simp] theorem State.wr_supRing (s : State) (r : RegSpec) (i : Nat) (v : Word) : (s.wr r i v).supRing = s.supRing := rfl
@[simp] theorem State.wr_admRing (s : State) (r : RegSpec) (i : Nat) (v : Word) : (s.wr r i v).admRing = s.admRing := rfl
@[simp] theorem State.wr_jobRings (s : State) (r : RegSpec) (i : Nat) (v : Word) : (s.wr r i v).jobRings = s.jobRings := rfl
@[simp] theorem State.wr_jobs (s : State) (r : RegSpec) (i : Nat) (v : Word) : (s.wr r i v).jobs = s.jobs := rfl
@[simp] theorem State.wr_cmp (s : State) (r : RegSpec) (i : Nat) (v : Word) : (s.wr r i v).cmp = s.cmp := rfl
@[simp] theorem State.wr_clusters (s : State) (r : RegSpec) (i : Nat) (v : Word) : (s.wr r i v).clusters = s.clusters := rfl
@[simp] theorem State.wr_cod (s : State) (r : RegSpec) (i : Nat) (v : Word) : (s.wr r i v).cod = s.cod := rfl
@[simp] theorem State.wr_planes (s : State) (r : RegSpec) (i : Nat) (v : Word) : (s.wr r i v).planes = s.planes := rfl
@[simp] theorem State.wr_nzm (s : State) (r : RegSpec) (i : Nat) (v : Word) : (s.wr r i v).nzm = s.nzm := rfl
@[simp] theorem State.wr_pac (s : State) (r : RegSpec) (i : Nat) (v : Word) : (s.wr r i v).pac = s.pac := rfl
@[simp] theorem State.wr_wav (s : State) (r : RegSpec) (i : Nat) (v : Word) : (s.wr r i v).wav = s.wav := rfl
@[simp] theorem State.wr_log (s : State) (r : RegSpec) (i : Nat) (v : Word) : (s.wr r i v).log = s.log := rfl
@[simp] theorem State.wr_sems (s : State) (r : RegSpec) (i : Nat) (v : Word) : (s.wr r i v).sems = s.sems := rfl
@[simp] theorem State.wr_pci (s : State) (r : RegSpec) (i : Nat) (v : Word) : (s.wr r i v).pci = s.pci := rfl
@[simp] theorem State.wr_mlk (s : State) (r : RegSpec) (i : Nat) (v : Word) : (s.wr r i v).mlk = s.mlk := rfl
@[simp] theorem State.wr_ins (s : State) (r : RegSpec) (i : Nat) (v : Word) : (s.wr r i v).ins = s.ins := rfl
@[simp] theorem State.wr_gov (s : State) (r : RegSpec) (i : Nat) (v : Word) : (s.wr r i v).gov = s.gov := rfl
@[simp] theorem State.wr_ba (s : State) (r : RegSpec) (i : Nat) (v : Word) : (s.wr r i v).ba = s.ba := rfl
@[simp] theorem State.wr_sd (s : State) (r : RegSpec) (i : Nat) (v : Word) : (s.wr r i v).sd = s.sd := rfl
@[simp] theorem State.wr_stp (s : State) (r : RegSpec) (i : Nat) (v : Word) : (s.wr r i v).stp = s.stp := rfl
@[simp] theorem State.wr_enc (s : State) (r : RegSpec) (i : Nat) (v : Word) : (s.wr r i v).enc = s.enc := rfl
@[simp] theorem State.wr_pwr (s : State) (r : RegSpec) (i : Nat) (v : Word) : (s.wr r i v).pwr = s.pwr := rfl
@[simp] theorem State.wr_mem (s : State) (r : RegSpec) (i : Nat) (v : Word) : (s.wr r i v).mem = s.mem := rfl
@[simp] theorem State.wr_dma (s : State) (r : RegSpec) (i : Nat) (v : Word) : (s.wr r i v).dma = s.dma := rfl
@[simp] theorem State.wr_xlk (s : State) (r : RegSpec) (i : Nat) (v : Word) : (s.wr r i v).xlk = s.xlk := rfl
@[simp] theorem State.wr_sec (s : State) (r : RegSpec) (i : Nat) (v : Word) : (s.wr r i v).sec = s.sec := rfl
@[simp] theorem State.wr_met (s : State) (r : RegSpec) (i : Nat) (v : Word) : (s.wr r i v).met = s.met := rfl
@[simp] theorem State.wr_cal (s : State) (r : RegSpec) (i : Nat) (v : Word) : (s.wr r i v).cal = s.cal := rfl
@[simp] theorem State.wr_fw (s : State) (r : RegSpec) (i : Nat) (v : Word) : (s.wr r i v).fw = s.fw := rfl
@[simp] theorem State.wr_lsi (s : State) (r : RegSpec) (i : Nat) (v : Word) : (s.wr r i v).lsi = s.lsi := rfl
@[simp] theorem State.wr_otp (s : State) (r : RegSpec) (i : Nat) (v : Word) : (s.wr r i v).otp = s.otp := rfl
@[simp] theorem State.wr_calStore (s : State) (r : RegSpec) (i : Nat) (v : Word) : (s.wr r i v).calStore = s.calStore := rfl
@[simp] theorem State.wr_pending (s : State) (r : RegSpec) (i : Nat) (v : Word) : (s.wr r i v).pending = s.pending := rfl

@[simp] theorem State.setFld_now (s : State) (r : RegSpec) (i hi lo v : Nat) : (s.setFld r i hi lo v).now = s.now := rfl
@[simp] theorem State.setFld_pressBase (s : State) (r : RegSpec) (i hi lo v : Nat) : (s.setFld r i hi lo v).pressBase = s.pressBase := rfl
@[simp] theorem State.setFld_free (s : State) (r : RegSpec) (i hi lo v : Nat) : (s.setFld r i hi lo v).free = s.free := rfl
@[simp] theorem State.setFld_out (s : State) (r : RegSpec) (i hi lo v : Nat) : (s.setFld r i hi lo v).out = s.out := rfl
@[simp] theorem State.setFld_dev (s : State) (r : RegSpec) (i hi lo v : Nat) : (s.setFld r i hi lo v).dev = s.dev := rfl
@[simp] theorem State.setFld_str (s : State) (r : RegSpec) (i hi lo v : Nat) : (s.setFld r i hi lo v).str = s.str := rfl
@[simp] theorem State.setFld_supRing (s : State) (r : RegSpec) (i hi lo v : Nat) : (s.setFld r i hi lo v).supRing = s.supRing := rfl
@[simp] theorem State.setFld_admRing (s : State) (r : RegSpec) (i hi lo v : Nat) : (s.setFld r i hi lo v).admRing = s.admRing := rfl
@[simp] theorem State.setFld_jobRings (s : State) (r : RegSpec) (i hi lo v : Nat) : (s.setFld r i hi lo v).jobRings = s.jobRings := rfl
@[simp] theorem State.setFld_jobs (s : State) (r : RegSpec) (i hi lo v : Nat) : (s.setFld r i hi lo v).jobs = s.jobs := rfl
@[simp] theorem State.setFld_cmp (s : State) (r : RegSpec) (i hi lo v : Nat) : (s.setFld r i hi lo v).cmp = s.cmp := rfl
@[simp] theorem State.setFld_clusters (s : State) (r : RegSpec) (i hi lo v : Nat) : (s.setFld r i hi lo v).clusters = s.clusters := rfl
@[simp] theorem State.setFld_cod (s : State) (r : RegSpec) (i hi lo v : Nat) : (s.setFld r i hi lo v).cod = s.cod := rfl
@[simp] theorem State.setFld_planes (s : State) (r : RegSpec) (i hi lo v : Nat) : (s.setFld r i hi lo v).planes = s.planes := rfl
@[simp] theorem State.setFld_nzm (s : State) (r : RegSpec) (i hi lo v : Nat) : (s.setFld r i hi lo v).nzm = s.nzm := rfl
@[simp] theorem State.setFld_pac (s : State) (r : RegSpec) (i hi lo v : Nat) : (s.setFld r i hi lo v).pac = s.pac := rfl
@[simp] theorem State.setFld_wav (s : State) (r : RegSpec) (i hi lo v : Nat) : (s.setFld r i hi lo v).wav = s.wav := rfl
@[simp] theorem State.setFld_log (s : State) (r : RegSpec) (i hi lo v : Nat) : (s.setFld r i hi lo v).log = s.log := rfl
@[simp] theorem State.setFld_sems (s : State) (r : RegSpec) (i hi lo v : Nat) : (s.setFld r i hi lo v).sems = s.sems := rfl
@[simp] theorem State.setFld_pci (s : State) (r : RegSpec) (i hi lo v : Nat) : (s.setFld r i hi lo v).pci = s.pci := rfl
@[simp] theorem State.setFld_mlk (s : State) (r : RegSpec) (i hi lo v : Nat) : (s.setFld r i hi lo v).mlk = s.mlk := rfl
@[simp] theorem State.setFld_ins (s : State) (r : RegSpec) (i hi lo v : Nat) : (s.setFld r i hi lo v).ins = s.ins := rfl
@[simp] theorem State.setFld_gov (s : State) (r : RegSpec) (i hi lo v : Nat) : (s.setFld r i hi lo v).gov = s.gov := rfl
@[simp] theorem State.setFld_ba (s : State) (r : RegSpec) (i hi lo v : Nat) : (s.setFld r i hi lo v).ba = s.ba := rfl
@[simp] theorem State.setFld_sd (s : State) (r : RegSpec) (i hi lo v : Nat) : (s.setFld r i hi lo v).sd = s.sd := rfl
@[simp] theorem State.setFld_stp (s : State) (r : RegSpec) (i hi lo v : Nat) : (s.setFld r i hi lo v).stp = s.stp := rfl
@[simp] theorem State.setFld_enc (s : State) (r : RegSpec) (i hi lo v : Nat) : (s.setFld r i hi lo v).enc = s.enc := rfl
@[simp] theorem State.setFld_pwr (s : State) (r : RegSpec) (i hi lo v : Nat) : (s.setFld r i hi lo v).pwr = s.pwr := rfl
@[simp] theorem State.setFld_mem (s : State) (r : RegSpec) (i hi lo v : Nat) : (s.setFld r i hi lo v).mem = s.mem := rfl
@[simp] theorem State.setFld_dma (s : State) (r : RegSpec) (i hi lo v : Nat) : (s.setFld r i hi lo v).dma = s.dma := rfl
@[simp] theorem State.setFld_xlk (s : State) (r : RegSpec) (i hi lo v : Nat) : (s.setFld r i hi lo v).xlk = s.xlk := rfl
@[simp] theorem State.setFld_sec (s : State) (r : RegSpec) (i hi lo v : Nat) : (s.setFld r i hi lo v).sec = s.sec := rfl
@[simp] theorem State.setFld_met (s : State) (r : RegSpec) (i hi lo v : Nat) : (s.setFld r i hi lo v).met = s.met := rfl
@[simp] theorem State.setFld_cal (s : State) (r : RegSpec) (i hi lo v : Nat) : (s.setFld r i hi lo v).cal = s.cal := rfl
@[simp] theorem State.setFld_fw (s : State) (r : RegSpec) (i hi lo v : Nat) : (s.setFld r i hi lo v).fw = s.fw := rfl
@[simp] theorem State.setFld_lsi (s : State) (r : RegSpec) (i hi lo v : Nat) : (s.setFld r i hi lo v).lsi = s.lsi := rfl
@[simp] theorem State.setFld_otp (s : State) (r : RegSpec) (i hi lo v : Nat) : (s.setFld r i hi lo v).otp = s.otp := rfl
@[simp] theorem State.setFld_calStore (s : State) (r : RegSpec) (i hi lo v : Nat) : (s.setFld r i hi lo v).calStore = s.calStore := rfl
@[simp] theorem State.setFld_pending (s : State) (r : RegSpec) (i hi lo v : Nat) : (s.setFld r i hi lo v).pending = s.pending := rfl

@[simp] theorem State.recordErr_now (s : State) (r : RegSpec) (i o : Nat) (st : Status) : (s.recordErr r i o st).now = s.now := rfl
@[simp] theorem State.recordErr_pressBase (s : State) (r : RegSpec) (i o : Nat) (st : Status) : (s.recordErr r i o st).pressBase = s.pressBase := rfl
@[simp] theorem State.recordErr_free (s : State) (r : RegSpec) (i o : Nat) (st : Status) : (s.recordErr r i o st).free = s.free := rfl
@[simp] theorem State.recordErr_out (s : State) (r : RegSpec) (i o : Nat) (st : Status) : (s.recordErr r i o st).out = s.out := rfl
@[simp] theorem State.recordErr_dev (s : State) (r : RegSpec) (i o : Nat) (st : Status) : (s.recordErr r i o st).dev = s.dev := rfl
@[simp] theorem State.recordErr_str (s : State) (r : RegSpec) (i o : Nat) (st : Status) : (s.recordErr r i o st).str = s.str := rfl
@[simp] theorem State.recordErr_supRing (s : State) (r : RegSpec) (i o : Nat) (st : Status) : (s.recordErr r i o st).supRing = s.supRing := rfl
@[simp] theorem State.recordErr_admRing (s : State) (r : RegSpec) (i o : Nat) (st : Status) : (s.recordErr r i o st).admRing = s.admRing := rfl
@[simp] theorem State.recordErr_jobRings (s : State) (r : RegSpec) (i o : Nat) (st : Status) : (s.recordErr r i o st).jobRings = s.jobRings := rfl
@[simp] theorem State.recordErr_jobs (s : State) (r : RegSpec) (i o : Nat) (st : Status) : (s.recordErr r i o st).jobs = s.jobs := rfl
@[simp] theorem State.recordErr_cmp (s : State) (r : RegSpec) (i o : Nat) (st : Status) : (s.recordErr r i o st).cmp = s.cmp := rfl
@[simp] theorem State.recordErr_clusters (s : State) (r : RegSpec) (i o : Nat) (st : Status) : (s.recordErr r i o st).clusters = s.clusters := rfl
@[simp] theorem State.recordErr_cod (s : State) (r : RegSpec) (i o : Nat) (st : Status) : (s.recordErr r i o st).cod = s.cod := rfl
@[simp] theorem State.recordErr_planes (s : State) (r : RegSpec) (i o : Nat) (st : Status) : (s.recordErr r i o st).planes = s.planes := rfl
@[simp] theorem State.recordErr_nzm (s : State) (r : RegSpec) (i o : Nat) (st : Status) : (s.recordErr r i o st).nzm = s.nzm := rfl
@[simp] theorem State.recordErr_pac (s : State) (r : RegSpec) (i o : Nat) (st : Status) : (s.recordErr r i o st).pac = s.pac := rfl
@[simp] theorem State.recordErr_wav (s : State) (r : RegSpec) (i o : Nat) (st : Status) : (s.recordErr r i o st).wav = s.wav := rfl
@[simp] theorem State.recordErr_log (s : State) (r : RegSpec) (i o : Nat) (st : Status) : (s.recordErr r i o st).log = s.log := rfl
@[simp] theorem State.recordErr_sems (s : State) (r : RegSpec) (i o : Nat) (st : Status) : (s.recordErr r i o st).sems = s.sems := rfl
@[simp] theorem State.recordErr_pci (s : State) (r : RegSpec) (i o : Nat) (st : Status) : (s.recordErr r i o st).pci = s.pci := rfl
@[simp] theorem State.recordErr_mlk (s : State) (r : RegSpec) (i o : Nat) (st : Status) : (s.recordErr r i o st).mlk = s.mlk := rfl
@[simp] theorem State.recordErr_ins (s : State) (r : RegSpec) (i o : Nat) (st : Status) : (s.recordErr r i o st).ins = s.ins := rfl
@[simp] theorem State.recordErr_gov (s : State) (r : RegSpec) (i o : Nat) (st : Status) : (s.recordErr r i o st).gov = s.gov := rfl
@[simp] theorem State.recordErr_ba (s : State) (r : RegSpec) (i o : Nat) (st : Status) : (s.recordErr r i o st).ba = s.ba := rfl
@[simp] theorem State.recordErr_sd (s : State) (r : RegSpec) (i o : Nat) (st : Status) : (s.recordErr r i o st).sd = s.sd := rfl
@[simp] theorem State.recordErr_stp (s : State) (r : RegSpec) (i o : Nat) (st : Status) : (s.recordErr r i o st).stp = s.stp := rfl
@[simp] theorem State.recordErr_enc (s : State) (r : RegSpec) (i o : Nat) (st : Status) : (s.recordErr r i o st).enc = s.enc := rfl
@[simp] theorem State.recordErr_pwr (s : State) (r : RegSpec) (i o : Nat) (st : Status) : (s.recordErr r i o st).pwr = s.pwr := rfl
@[simp] theorem State.recordErr_mem (s : State) (r : RegSpec) (i o : Nat) (st : Status) : (s.recordErr r i o st).mem = s.mem := rfl
@[simp] theorem State.recordErr_dma (s : State) (r : RegSpec) (i o : Nat) (st : Status) : (s.recordErr r i o st).dma = s.dma := rfl
@[simp] theorem State.recordErr_xlk (s : State) (r : RegSpec) (i o : Nat) (st : Status) : (s.recordErr r i o st).xlk = s.xlk := rfl
@[simp] theorem State.recordErr_sec (s : State) (r : RegSpec) (i o : Nat) (st : Status) : (s.recordErr r i o st).sec = s.sec := rfl
@[simp] theorem State.recordErr_met (s : State) (r : RegSpec) (i o : Nat) (st : Status) : (s.recordErr r i o st).met = s.met := rfl
@[simp] theorem State.recordErr_cal (s : State) (r : RegSpec) (i o : Nat) (st : Status) : (s.recordErr r i o st).cal = s.cal := rfl
@[simp] theorem State.recordErr_fw (s : State) (r : RegSpec) (i o : Nat) (st : Status) : (s.recordErr r i o st).fw = s.fw := rfl
@[simp] theorem State.recordErr_lsi (s : State) (r : RegSpec) (i o : Nat) (st : Status) : (s.recordErr r i o st).lsi = s.lsi := rfl
@[simp] theorem State.recordErr_otp (s : State) (r : RegSpec) (i o : Nat) (st : Status) : (s.recordErr r i o st).otp = s.otp := rfl
@[simp] theorem State.recordErr_calStore (s : State) (r : RegSpec) (i o : Nat) (st : Status) : (s.recordErr r i o st).calStore = s.calStore := rfl
@[simp] theorem State.recordErr_pending (s : State) (r : RegSpec) (i o : Nat) (st : Status) : (s.recordErr r i o st).pending = s.pending := rfl

@[simp] theorem State.count_now (s : State) (r : RegSpec) (i k : Nat) : (s.count r i k).now = s.now := rfl
@[simp] theorem State.count_pressBase (s : State) (r : RegSpec) (i k : Nat) : (s.count r i k).pressBase = s.pressBase := rfl
@[simp] theorem State.count_free (s : State) (r : RegSpec) (i k : Nat) : (s.count r i k).free = s.free := rfl
@[simp] theorem State.count_out (s : State) (r : RegSpec) (i k : Nat) : (s.count r i k).out = s.out := rfl
@[simp] theorem State.count_dev (s : State) (r : RegSpec) (i k : Nat) : (s.count r i k).dev = s.dev := rfl
@[simp] theorem State.count_str (s : State) (r : RegSpec) (i k : Nat) : (s.count r i k).str = s.str := rfl
@[simp] theorem State.count_supRing (s : State) (r : RegSpec) (i k : Nat) : (s.count r i k).supRing = s.supRing := rfl
@[simp] theorem State.count_admRing (s : State) (r : RegSpec) (i k : Nat) : (s.count r i k).admRing = s.admRing := rfl
@[simp] theorem State.count_jobRings (s : State) (r : RegSpec) (i k : Nat) : (s.count r i k).jobRings = s.jobRings := rfl
@[simp] theorem State.count_jobs (s : State) (r : RegSpec) (i k : Nat) : (s.count r i k).jobs = s.jobs := rfl
@[simp] theorem State.count_cmp (s : State) (r : RegSpec) (i k : Nat) : (s.count r i k).cmp = s.cmp := rfl
@[simp] theorem State.count_clusters (s : State) (r : RegSpec) (i k : Nat) : (s.count r i k).clusters = s.clusters := rfl
@[simp] theorem State.count_cod (s : State) (r : RegSpec) (i k : Nat) : (s.count r i k).cod = s.cod := rfl
@[simp] theorem State.count_planes (s : State) (r : RegSpec) (i k : Nat) : (s.count r i k).planes = s.planes := rfl
@[simp] theorem State.count_nzm (s : State) (r : RegSpec) (i k : Nat) : (s.count r i k).nzm = s.nzm := rfl
@[simp] theorem State.count_pac (s : State) (r : RegSpec) (i k : Nat) : (s.count r i k).pac = s.pac := rfl
@[simp] theorem State.count_wav (s : State) (r : RegSpec) (i k : Nat) : (s.count r i k).wav = s.wav := rfl
@[simp] theorem State.count_log (s : State) (r : RegSpec) (i k : Nat) : (s.count r i k).log = s.log := rfl
@[simp] theorem State.count_sems (s : State) (r : RegSpec) (i k : Nat) : (s.count r i k).sems = s.sems := rfl
@[simp] theorem State.count_pci (s : State) (r : RegSpec) (i k : Nat) : (s.count r i k).pci = s.pci := rfl
@[simp] theorem State.count_mlk (s : State) (r : RegSpec) (i k : Nat) : (s.count r i k).mlk = s.mlk := rfl
@[simp] theorem State.count_ins (s : State) (r : RegSpec) (i k : Nat) : (s.count r i k).ins = s.ins := rfl
@[simp] theorem State.count_gov (s : State) (r : RegSpec) (i k : Nat) : (s.count r i k).gov = s.gov := rfl
@[simp] theorem State.count_ba (s : State) (r : RegSpec) (i k : Nat) : (s.count r i k).ba = s.ba := rfl
@[simp] theorem State.count_sd (s : State) (r : RegSpec) (i k : Nat) : (s.count r i k).sd = s.sd := rfl
@[simp] theorem State.count_stp (s : State) (r : RegSpec) (i k : Nat) : (s.count r i k).stp = s.stp := rfl
@[simp] theorem State.count_enc (s : State) (r : RegSpec) (i k : Nat) : (s.count r i k).enc = s.enc := rfl
@[simp] theorem State.count_pwr (s : State) (r : RegSpec) (i k : Nat) : (s.count r i k).pwr = s.pwr := rfl
@[simp] theorem State.count_mem (s : State) (r : RegSpec) (i k : Nat) : (s.count r i k).mem = s.mem := rfl
@[simp] theorem State.count_dma (s : State) (r : RegSpec) (i k : Nat) : (s.count r i k).dma = s.dma := rfl
@[simp] theorem State.count_xlk (s : State) (r : RegSpec) (i k : Nat) : (s.count r i k).xlk = s.xlk := rfl
@[simp] theorem State.count_sec (s : State) (r : RegSpec) (i k : Nat) : (s.count r i k).sec = s.sec := rfl
@[simp] theorem State.count_met (s : State) (r : RegSpec) (i k : Nat) : (s.count r i k).met = s.met := rfl
@[simp] theorem State.count_cal (s : State) (r : RegSpec) (i k : Nat) : (s.count r i k).cal = s.cal := rfl
@[simp] theorem State.count_fw (s : State) (r : RegSpec) (i k : Nat) : (s.count r i k).fw = s.fw := rfl
@[simp] theorem State.count_lsi (s : State) (r : RegSpec) (i k : Nat) : (s.count r i k).lsi = s.lsi := rfl
@[simp] theorem State.count_otp (s : State) (r : RegSpec) (i k : Nat) : (s.count r i k).otp = s.otp := rfl
@[simp] theorem State.count_calStore (s : State) (r : RegSpec) (i k : Nat) : (s.count r i k).calStore = s.calStore := rfl
@[simp] theorem State.count_pending (s : State) (r : RegSpec) (i k : Nat) : (s.count r i k).pending = s.pending := rfl

@[simp] theorem State.setRing_now (s : State) (id : RingId) (r : Ring) : (s.setRing id r).now = s.now := by cases id <;> rfl
@[simp] theorem State.setRing_pressBase (s : State) (id : RingId) (r : Ring) : (s.setRing id r).pressBase = s.pressBase := by cases id <;> rfl
@[simp] theorem State.setRing_free (s : State) (id : RingId) (r : Ring) : (s.setRing id r).free = s.free := by cases id <;> rfl
@[simp] theorem State.setRing_out (s : State) (id : RingId) (r : Ring) : (s.setRing id r).out = s.out := by cases id <;> rfl
@[simp] theorem State.setRing_regs (s : State) (id : RingId) (r : Ring) : (s.setRing id r).regs = s.regs := by cases id <;> rfl
@[simp] theorem State.setRing_dev (s : State) (id : RingId) (r : Ring) : (s.setRing id r).dev = s.dev := by cases id <;> rfl
@[simp] theorem State.setRing_str (s : State) (id : RingId) (r : Ring) : (s.setRing id r).str = s.str := by cases id <;> rfl
@[simp] theorem State.setRing_jobs (s : State) (id : RingId) (r : Ring) : (s.setRing id r).jobs = s.jobs := by cases id <;> rfl
@[simp] theorem State.setRing_cmp (s : State) (id : RingId) (r : Ring) : (s.setRing id r).cmp = s.cmp := by cases id <;> rfl
@[simp] theorem State.setRing_clusters (s : State) (id : RingId) (r : Ring) : (s.setRing id r).clusters = s.clusters := by cases id <;> rfl
@[simp] theorem State.setRing_cod (s : State) (id : RingId) (r : Ring) : (s.setRing id r).cod = s.cod := by cases id <;> rfl
@[simp] theorem State.setRing_planes (s : State) (id : RingId) (r : Ring) : (s.setRing id r).planes = s.planes := by cases id <;> rfl
@[simp] theorem State.setRing_nzm (s : State) (id : RingId) (r : Ring) : (s.setRing id r).nzm = s.nzm := by cases id <;> rfl
@[simp] theorem State.setRing_pac (s : State) (id : RingId) (r : Ring) : (s.setRing id r).pac = s.pac := by cases id <;> rfl
@[simp] theorem State.setRing_wav (s : State) (id : RingId) (r : Ring) : (s.setRing id r).wav = s.wav := by cases id <;> rfl
@[simp] theorem State.setRing_log (s : State) (id : RingId) (r : Ring) : (s.setRing id r).log = s.log := by cases id <;> rfl
@[simp] theorem State.setRing_sems (s : State) (id : RingId) (r : Ring) : (s.setRing id r).sems = s.sems := by cases id <;> rfl
@[simp] theorem State.setRing_pci (s : State) (id : RingId) (r : Ring) : (s.setRing id r).pci = s.pci := by cases id <;> rfl
@[simp] theorem State.setRing_mlk (s : State) (id : RingId) (r : Ring) : (s.setRing id r).mlk = s.mlk := by cases id <;> rfl
@[simp] theorem State.setRing_ins (s : State) (id : RingId) (r : Ring) : (s.setRing id r).ins = s.ins := by cases id <;> rfl
@[simp] theorem State.setRing_gov (s : State) (id : RingId) (r : Ring) : (s.setRing id r).gov = s.gov := by cases id <;> rfl
@[simp] theorem State.setRing_ba (s : State) (id : RingId) (r : Ring) : (s.setRing id r).ba = s.ba := by cases id <;> rfl
@[simp] theorem State.setRing_sd (s : State) (id : RingId) (r : Ring) : (s.setRing id r).sd = s.sd := by cases id <;> rfl
@[simp] theorem State.setRing_stp (s : State) (id : RingId) (r : Ring) : (s.setRing id r).stp = s.stp := by cases id <;> rfl
@[simp] theorem State.setRing_enc (s : State) (id : RingId) (r : Ring) : (s.setRing id r).enc = s.enc := by cases id <;> rfl
@[simp] theorem State.setRing_pwr (s : State) (id : RingId) (r : Ring) : (s.setRing id r).pwr = s.pwr := by cases id <;> rfl
@[simp] theorem State.setRing_mem (s : State) (id : RingId) (r : Ring) : (s.setRing id r).mem = s.mem := by cases id <;> rfl
@[simp] theorem State.setRing_dma (s : State) (id : RingId) (r : Ring) : (s.setRing id r).dma = s.dma := by cases id <;> rfl
@[simp] theorem State.setRing_xlk (s : State) (id : RingId) (r : Ring) : (s.setRing id r).xlk = s.xlk := by cases id <;> rfl
@[simp] theorem State.setRing_sec (s : State) (id : RingId) (r : Ring) : (s.setRing id r).sec = s.sec := by cases id <;> rfl
@[simp] theorem State.setRing_met (s : State) (id : RingId) (r : Ring) : (s.setRing id r).met = s.met := by cases id <;> rfl
@[simp] theorem State.setRing_cal (s : State) (id : RingId) (r : Ring) : (s.setRing id r).cal = s.cal := by cases id <;> rfl
@[simp] theorem State.setRing_fw (s : State) (id : RingId) (r : Ring) : (s.setRing id r).fw = s.fw := by cases id <;> rfl
@[simp] theorem State.setRing_lsi (s : State) (id : RingId) (r : Ring) : (s.setRing id r).lsi = s.lsi := by cases id <;> rfl
@[simp] theorem State.setRing_otp (s : State) (id : RingId) (r : Ring) : (s.setRing id r).otp = s.otp := by cases id <;> rfl
@[simp] theorem State.setRing_calStore (s : State) (id : RingId) (r : Ring) : (s.setRing id r).calStore = s.calStore := by cases id <;> rfl
@[simp] theorem State.setRing_pending (s : State) (id : RingId) (r : Ring) : (s.setRing id r).pending = s.pending := by cases id <;> rfl

@[simp] theorem State.modJob_now (s : State) (n : Fin 64) (f : Job → Job) : (s.modJob n f).now = s.now := rfl
@[simp] theorem State.modJob_pressBase (s : State) (n : Fin 64) (f : Job → Job) : (s.modJob n f).pressBase = s.pressBase := rfl
@[simp] theorem State.modJob_free (s : State) (n : Fin 64) (f : Job → Job) : (s.modJob n f).free = s.free := rfl
@[simp] theorem State.modJob_out (s : State) (n : Fin 64) (f : Job → Job) : (s.modJob n f).out = s.out := rfl
@[simp] theorem State.modJob_regs (s : State) (n : Fin 64) (f : Job → Job) : (s.modJob n f).regs = s.regs := rfl
@[simp] theorem State.modJob_dev (s : State) (n : Fin 64) (f : Job → Job) : (s.modJob n f).dev = s.dev := rfl
@[simp] theorem State.modJob_str (s : State) (n : Fin 64) (f : Job → Job) : (s.modJob n f).str = s.str := rfl
@[simp] theorem State.modJob_supRing (s : State) (n : Fin 64) (f : Job → Job) : (s.modJob n f).supRing = s.supRing := rfl
@[simp] theorem State.modJob_admRing (s : State) (n : Fin 64) (f : Job → Job) : (s.modJob n f).admRing = s.admRing := rfl
@[simp] theorem State.modJob_jobRings (s : State) (n : Fin 64) (f : Job → Job) : (s.modJob n f).jobRings = s.jobRings := rfl
@[simp] theorem State.modJob_jobs (s : State) (n : Fin 64) (f : Job → Job) : (s.modJob n f).jobs = upd s.jobs n f := rfl
@[simp] theorem State.modJob_cmp (s : State) (n : Fin 64) (f : Job → Job) : (s.modJob n f).cmp = s.cmp := rfl
@[simp] theorem State.modJob_clusters (s : State) (n : Fin 64) (f : Job → Job) : (s.modJob n f).clusters = s.clusters := rfl
@[simp] theorem State.modJob_cod (s : State) (n : Fin 64) (f : Job → Job) : (s.modJob n f).cod = s.cod := rfl
@[simp] theorem State.modJob_planes (s : State) (n : Fin 64) (f : Job → Job) : (s.modJob n f).planes = s.planes := rfl
@[simp] theorem State.modJob_nzm (s : State) (n : Fin 64) (f : Job → Job) : (s.modJob n f).nzm = s.nzm := rfl
@[simp] theorem State.modJob_pac (s : State) (n : Fin 64) (f : Job → Job) : (s.modJob n f).pac = s.pac := rfl
@[simp] theorem State.modJob_wav (s : State) (n : Fin 64) (f : Job → Job) : (s.modJob n f).wav = s.wav := rfl
@[simp] theorem State.modJob_log (s : State) (n : Fin 64) (f : Job → Job) : (s.modJob n f).log = s.log := rfl
@[simp] theorem State.modJob_sems (s : State) (n : Fin 64) (f : Job → Job) : (s.modJob n f).sems = s.sems := rfl
@[simp] theorem State.modJob_pci (s : State) (n : Fin 64) (f : Job → Job) : (s.modJob n f).pci = s.pci := rfl
@[simp] theorem State.modJob_mlk (s : State) (n : Fin 64) (f : Job → Job) : (s.modJob n f).mlk = s.mlk := rfl
@[simp] theorem State.modJob_ins (s : State) (n : Fin 64) (f : Job → Job) : (s.modJob n f).ins = s.ins := rfl
@[simp] theorem State.modJob_gov (s : State) (n : Fin 64) (f : Job → Job) : (s.modJob n f).gov = s.gov := rfl
@[simp] theorem State.modJob_ba (s : State) (n : Fin 64) (f : Job → Job) : (s.modJob n f).ba = s.ba := rfl
@[simp] theorem State.modJob_sd (s : State) (n : Fin 64) (f : Job → Job) : (s.modJob n f).sd = s.sd := rfl
@[simp] theorem State.modJob_stp (s : State) (n : Fin 64) (f : Job → Job) : (s.modJob n f).stp = s.stp := rfl
@[simp] theorem State.modJob_enc (s : State) (n : Fin 64) (f : Job → Job) : (s.modJob n f).enc = s.enc := rfl
@[simp] theorem State.modJob_pwr (s : State) (n : Fin 64) (f : Job → Job) : (s.modJob n f).pwr = s.pwr := rfl
@[simp] theorem State.modJob_mem (s : State) (n : Fin 64) (f : Job → Job) : (s.modJob n f).mem = s.mem := rfl
@[simp] theorem State.modJob_dma (s : State) (n : Fin 64) (f : Job → Job) : (s.modJob n f).dma = s.dma := rfl
@[simp] theorem State.modJob_xlk (s : State) (n : Fin 64) (f : Job → Job) : (s.modJob n f).xlk = s.xlk := rfl
@[simp] theorem State.modJob_sec (s : State) (n : Fin 64) (f : Job → Job) : (s.modJob n f).sec = s.sec := rfl
@[simp] theorem State.modJob_met (s : State) (n : Fin 64) (f : Job → Job) : (s.modJob n f).met = s.met := rfl
@[simp] theorem State.modJob_cal (s : State) (n : Fin 64) (f : Job → Job) : (s.modJob n f).cal = s.cal := rfl
@[simp] theorem State.modJob_fw (s : State) (n : Fin 64) (f : Job → Job) : (s.modJob n f).fw = s.fw := rfl
@[simp] theorem State.modJob_lsi (s : State) (n : Fin 64) (f : Job → Job) : (s.modJob n f).lsi = s.lsi := rfl
@[simp] theorem State.modJob_otp (s : State) (n : Fin 64) (f : Job → Job) : (s.modJob n f).otp = s.otp := rfl
@[simp] theorem State.modJob_calStore (s : State) (n : Fin 64) (f : Job → Job) : (s.modJob n f).calStore = s.calStore := rfl
@[simp] theorem State.modJob_pending (s : State) (n : Fin 64) (f : Job → Job) : (s.modJob n f).pending = s.pending := rfl

@[simp] theorem State.modPlane_now (s : State) (p : Fin 8) (f : PlaneSt → PlaneSt) : (s.modPlane p f).now = s.now := rfl
@[simp] theorem State.modPlane_pressBase (s : State) (p : Fin 8) (f : PlaneSt → PlaneSt) : (s.modPlane p f).pressBase = s.pressBase := rfl
@[simp] theorem State.modPlane_free (s : State) (p : Fin 8) (f : PlaneSt → PlaneSt) : (s.modPlane p f).free = s.free := rfl
@[simp] theorem State.modPlane_out (s : State) (p : Fin 8) (f : PlaneSt → PlaneSt) : (s.modPlane p f).out = s.out := rfl
@[simp] theorem State.modPlane_regs (s : State) (p : Fin 8) (f : PlaneSt → PlaneSt) : (s.modPlane p f).regs = s.regs := rfl
@[simp] theorem State.modPlane_dev (s : State) (p : Fin 8) (f : PlaneSt → PlaneSt) : (s.modPlane p f).dev = s.dev := rfl
@[simp] theorem State.modPlane_str (s : State) (p : Fin 8) (f : PlaneSt → PlaneSt) : (s.modPlane p f).str = s.str := rfl
@[simp] theorem State.modPlane_supRing (s : State) (p : Fin 8) (f : PlaneSt → PlaneSt) : (s.modPlane p f).supRing = s.supRing := rfl
@[simp] theorem State.modPlane_admRing (s : State) (p : Fin 8) (f : PlaneSt → PlaneSt) : (s.modPlane p f).admRing = s.admRing := rfl
@[simp] theorem State.modPlane_jobRings (s : State) (p : Fin 8) (f : PlaneSt → PlaneSt) : (s.modPlane p f).jobRings = s.jobRings := rfl
@[simp] theorem State.modPlane_jobs (s : State) (p : Fin 8) (f : PlaneSt → PlaneSt) : (s.modPlane p f).jobs = s.jobs := rfl
@[simp] theorem State.modPlane_cmp (s : State) (p : Fin 8) (f : PlaneSt → PlaneSt) : (s.modPlane p f).cmp = s.cmp := rfl
@[simp] theorem State.modPlane_clusters (s : State) (p : Fin 8) (f : PlaneSt → PlaneSt) : (s.modPlane p f).clusters = s.clusters := rfl
@[simp] theorem State.modPlane_cod (s : State) (p : Fin 8) (f : PlaneSt → PlaneSt) : (s.modPlane p f).cod = s.cod := rfl
@[simp] theorem State.modPlane_planes (s : State) (p : Fin 8) (f : PlaneSt → PlaneSt) : (s.modPlane p f).planes = upd s.planes p f := rfl
@[simp] theorem State.modPlane_nzm (s : State) (p : Fin 8) (f : PlaneSt → PlaneSt) : (s.modPlane p f).nzm = s.nzm := rfl
@[simp] theorem State.modPlane_pac (s : State) (p : Fin 8) (f : PlaneSt → PlaneSt) : (s.modPlane p f).pac = s.pac := rfl
@[simp] theorem State.modPlane_wav (s : State) (p : Fin 8) (f : PlaneSt → PlaneSt) : (s.modPlane p f).wav = s.wav := rfl
@[simp] theorem State.modPlane_log (s : State) (p : Fin 8) (f : PlaneSt → PlaneSt) : (s.modPlane p f).log = s.log := rfl
@[simp] theorem State.modPlane_sems (s : State) (p : Fin 8) (f : PlaneSt → PlaneSt) : (s.modPlane p f).sems = s.sems := rfl
@[simp] theorem State.modPlane_pci (s : State) (p : Fin 8) (f : PlaneSt → PlaneSt) : (s.modPlane p f).pci = s.pci := rfl
@[simp] theorem State.modPlane_mlk (s : State) (p : Fin 8) (f : PlaneSt → PlaneSt) : (s.modPlane p f).mlk = s.mlk := rfl
@[simp] theorem State.modPlane_ins (s : State) (p : Fin 8) (f : PlaneSt → PlaneSt) : (s.modPlane p f).ins = s.ins := rfl
@[simp] theorem State.modPlane_gov (s : State) (p : Fin 8) (f : PlaneSt → PlaneSt) : (s.modPlane p f).gov = s.gov := rfl
@[simp] theorem State.modPlane_ba (s : State) (p : Fin 8) (f : PlaneSt → PlaneSt) : (s.modPlane p f).ba = s.ba := rfl
@[simp] theorem State.modPlane_sd (s : State) (p : Fin 8) (f : PlaneSt → PlaneSt) : (s.modPlane p f).sd = s.sd := rfl
@[simp] theorem State.modPlane_stp (s : State) (p : Fin 8) (f : PlaneSt → PlaneSt) : (s.modPlane p f).stp = s.stp := rfl
@[simp] theorem State.modPlane_enc (s : State) (p : Fin 8) (f : PlaneSt → PlaneSt) : (s.modPlane p f).enc = s.enc := rfl
@[simp] theorem State.modPlane_pwr (s : State) (p : Fin 8) (f : PlaneSt → PlaneSt) : (s.modPlane p f).pwr = s.pwr := rfl
@[simp] theorem State.modPlane_mem (s : State) (p : Fin 8) (f : PlaneSt → PlaneSt) : (s.modPlane p f).mem = s.mem := rfl
@[simp] theorem State.modPlane_dma (s : State) (p : Fin 8) (f : PlaneSt → PlaneSt) : (s.modPlane p f).dma = s.dma := rfl
@[simp] theorem State.modPlane_xlk (s : State) (p : Fin 8) (f : PlaneSt → PlaneSt) : (s.modPlane p f).xlk = s.xlk := rfl
@[simp] theorem State.modPlane_sec (s : State) (p : Fin 8) (f : PlaneSt → PlaneSt) : (s.modPlane p f).sec = s.sec := rfl
@[simp] theorem State.modPlane_met (s : State) (p : Fin 8) (f : PlaneSt → PlaneSt) : (s.modPlane p f).met = s.met := rfl
@[simp] theorem State.modPlane_cal (s : State) (p : Fin 8) (f : PlaneSt → PlaneSt) : (s.modPlane p f).cal = s.cal := rfl
@[simp] theorem State.modPlane_fw (s : State) (p : Fin 8) (f : PlaneSt → PlaneSt) : (s.modPlane p f).fw = s.fw := rfl
@[simp] theorem State.modPlane_lsi (s : State) (p : Fin 8) (f : PlaneSt → PlaneSt) : (s.modPlane p f).lsi = s.lsi := rfl
@[simp] theorem State.modPlane_otp (s : State) (p : Fin 8) (f : PlaneSt → PlaneSt) : (s.modPlane p f).otp = s.otp := rfl
@[simp] theorem State.modPlane_calStore (s : State) (p : Fin 8) (f : PlaneSt → PlaneSt) : (s.modPlane p f).calStore = s.calStore := rfl
@[simp] theorem State.modPlane_pending (s : State) (p : Fin 8) (f : PlaneSt → PlaneSt) : (s.modPlane p f).pending = s.pending := rfl

@[simp] theorem State.modLog_now (s : State) (f : LogState → LogState) : (s.modLog f).now = s.now := rfl
@[simp] theorem State.modLog_pressBase (s : State) (f : LogState → LogState) : (s.modLog f).pressBase = s.pressBase := rfl
@[simp] theorem State.modLog_free (s : State) (f : LogState → LogState) : (s.modLog f).free = s.free := rfl
@[simp] theorem State.modLog_out (s : State) (f : LogState → LogState) : (s.modLog f).out = s.out := rfl
@[simp] theorem State.modLog_regs (s : State) (f : LogState → LogState) : (s.modLog f).regs = s.regs := rfl
@[simp] theorem State.modLog_dev (s : State) (f : LogState → LogState) : (s.modLog f).dev = s.dev := rfl
@[simp] theorem State.modLog_str (s : State) (f : LogState → LogState) : (s.modLog f).str = s.str := rfl
@[simp] theorem State.modLog_supRing (s : State) (f : LogState → LogState) : (s.modLog f).supRing = s.supRing := rfl
@[simp] theorem State.modLog_admRing (s : State) (f : LogState → LogState) : (s.modLog f).admRing = s.admRing := rfl
@[simp] theorem State.modLog_jobRings (s : State) (f : LogState → LogState) : (s.modLog f).jobRings = s.jobRings := rfl
@[simp] theorem State.modLog_jobs (s : State) (f : LogState → LogState) : (s.modLog f).jobs = s.jobs := rfl
@[simp] theorem State.modLog_cmp (s : State) (f : LogState → LogState) : (s.modLog f).cmp = s.cmp := rfl
@[simp] theorem State.modLog_clusters (s : State) (f : LogState → LogState) : (s.modLog f).clusters = s.clusters := rfl
@[simp] theorem State.modLog_cod (s : State) (f : LogState → LogState) : (s.modLog f).cod = s.cod := rfl
@[simp] theorem State.modLog_planes (s : State) (f : LogState → LogState) : (s.modLog f).planes = s.planes := rfl
@[simp] theorem State.modLog_nzm (s : State) (f : LogState → LogState) : (s.modLog f).nzm = s.nzm := rfl
@[simp] theorem State.modLog_pac (s : State) (f : LogState → LogState) : (s.modLog f).pac = s.pac := rfl
@[simp] theorem State.modLog_wav (s : State) (f : LogState → LogState) : (s.modLog f).wav = s.wav := rfl
@[simp] theorem State.modLog_log (s : State) (f : LogState → LogState) : (s.modLog f).log = f s.log := rfl
@[simp] theorem State.modLog_sems (s : State) (f : LogState → LogState) : (s.modLog f).sems = s.sems := rfl
@[simp] theorem State.modLog_pci (s : State) (f : LogState → LogState) : (s.modLog f).pci = s.pci := rfl
@[simp] theorem State.modLog_mlk (s : State) (f : LogState → LogState) : (s.modLog f).mlk = s.mlk := rfl
@[simp] theorem State.modLog_ins (s : State) (f : LogState → LogState) : (s.modLog f).ins = s.ins := rfl
@[simp] theorem State.modLog_gov (s : State) (f : LogState → LogState) : (s.modLog f).gov = s.gov := rfl
@[simp] theorem State.modLog_ba (s : State) (f : LogState → LogState) : (s.modLog f).ba = s.ba := rfl
@[simp] theorem State.modLog_sd (s : State) (f : LogState → LogState) : (s.modLog f).sd = s.sd := rfl
@[simp] theorem State.modLog_stp (s : State) (f : LogState → LogState) : (s.modLog f).stp = s.stp := rfl
@[simp] theorem State.modLog_enc (s : State) (f : LogState → LogState) : (s.modLog f).enc = s.enc := rfl
@[simp] theorem State.modLog_pwr (s : State) (f : LogState → LogState) : (s.modLog f).pwr = s.pwr := rfl
@[simp] theorem State.modLog_mem (s : State) (f : LogState → LogState) : (s.modLog f).mem = s.mem := rfl
@[simp] theorem State.modLog_dma (s : State) (f : LogState → LogState) : (s.modLog f).dma = s.dma := rfl
@[simp] theorem State.modLog_xlk (s : State) (f : LogState → LogState) : (s.modLog f).xlk = s.xlk := rfl
@[simp] theorem State.modLog_sec (s : State) (f : LogState → LogState) : (s.modLog f).sec = s.sec := rfl
@[simp] theorem State.modLog_met (s : State) (f : LogState → LogState) : (s.modLog f).met = s.met := rfl
@[simp] theorem State.modLog_cal (s : State) (f : LogState → LogState) : (s.modLog f).cal = s.cal := rfl
@[simp] theorem State.modLog_fw (s : State) (f : LogState → LogState) : (s.modLog f).fw = s.fw := rfl
@[simp] theorem State.modLog_lsi (s : State) (f : LogState → LogState) : (s.modLog f).lsi = s.lsi := rfl
@[simp] theorem State.modLog_otp (s : State) (f : LogState → LogState) : (s.modLog f).otp = s.otp := rfl
@[simp] theorem State.modLog_calStore (s : State) (f : LogState → LogState) : (s.modLog f).calStore = s.calStore := rfl
@[simp] theorem State.modLog_pending (s : State) (f : LogState → LogState) : (s.modLog f).pending = s.pending := rfl

@[simp] theorem State.modPac_now (s : State) (f : Pac → Pac) : (s.modPac f).now = s.now := rfl
@[simp] theorem State.modPac_pressBase (s : State) (f : Pac → Pac) : (s.modPac f).pressBase = s.pressBase := rfl
@[simp] theorem State.modPac_free (s : State) (f : Pac → Pac) : (s.modPac f).free = s.free := rfl
@[simp] theorem State.modPac_out (s : State) (f : Pac → Pac) : (s.modPac f).out = s.out := rfl
@[simp] theorem State.modPac_regs (s : State) (f : Pac → Pac) : (s.modPac f).regs = s.regs := rfl
@[simp] theorem State.modPac_dev (s : State) (f : Pac → Pac) : (s.modPac f).dev = s.dev := rfl
@[simp] theorem State.modPac_str (s : State) (f : Pac → Pac) : (s.modPac f).str = s.str := rfl
@[simp] theorem State.modPac_supRing (s : State) (f : Pac → Pac) : (s.modPac f).supRing = s.supRing := rfl
@[simp] theorem State.modPac_admRing (s : State) (f : Pac → Pac) : (s.modPac f).admRing = s.admRing := rfl
@[simp] theorem State.modPac_jobRings (s : State) (f : Pac → Pac) : (s.modPac f).jobRings = s.jobRings := rfl
@[simp] theorem State.modPac_jobs (s : State) (f : Pac → Pac) : (s.modPac f).jobs = s.jobs := rfl
@[simp] theorem State.modPac_cmp (s : State) (f : Pac → Pac) : (s.modPac f).cmp = s.cmp := rfl
@[simp] theorem State.modPac_clusters (s : State) (f : Pac → Pac) : (s.modPac f).clusters = s.clusters := rfl
@[simp] theorem State.modPac_cod (s : State) (f : Pac → Pac) : (s.modPac f).cod = s.cod := rfl
@[simp] theorem State.modPac_planes (s : State) (f : Pac → Pac) : (s.modPac f).planes = s.planes := rfl
@[simp] theorem State.modPac_nzm (s : State) (f : Pac → Pac) : (s.modPac f).nzm = s.nzm := rfl
@[simp] theorem State.modPac_pac (s : State) (f : Pac → Pac) : (s.modPac f).pac = f s.pac := rfl
@[simp] theorem State.modPac_wav (s : State) (f : Pac → Pac) : (s.modPac f).wav = s.wav := rfl
@[simp] theorem State.modPac_log (s : State) (f : Pac → Pac) : (s.modPac f).log = s.log := rfl
@[simp] theorem State.modPac_sems (s : State) (f : Pac → Pac) : (s.modPac f).sems = s.sems := rfl
@[simp] theorem State.modPac_pci (s : State) (f : Pac → Pac) : (s.modPac f).pci = s.pci := rfl
@[simp] theorem State.modPac_mlk (s : State) (f : Pac → Pac) : (s.modPac f).mlk = s.mlk := rfl
@[simp] theorem State.modPac_ins (s : State) (f : Pac → Pac) : (s.modPac f).ins = s.ins := rfl
@[simp] theorem State.modPac_gov (s : State) (f : Pac → Pac) : (s.modPac f).gov = s.gov := rfl
@[simp] theorem State.modPac_ba (s : State) (f : Pac → Pac) : (s.modPac f).ba = s.ba := rfl
@[simp] theorem State.modPac_sd (s : State) (f : Pac → Pac) : (s.modPac f).sd = s.sd := rfl
@[simp] theorem State.modPac_stp (s : State) (f : Pac → Pac) : (s.modPac f).stp = s.stp := rfl
@[simp] theorem State.modPac_enc (s : State) (f : Pac → Pac) : (s.modPac f).enc = s.enc := rfl
@[simp] theorem State.modPac_pwr (s : State) (f : Pac → Pac) : (s.modPac f).pwr = s.pwr := rfl
@[simp] theorem State.modPac_mem (s : State) (f : Pac → Pac) : (s.modPac f).mem = s.mem := rfl
@[simp] theorem State.modPac_dma (s : State) (f : Pac → Pac) : (s.modPac f).dma = s.dma := rfl
@[simp] theorem State.modPac_xlk (s : State) (f : Pac → Pac) : (s.modPac f).xlk = s.xlk := rfl
@[simp] theorem State.modPac_sec (s : State) (f : Pac → Pac) : (s.modPac f).sec = s.sec := rfl
@[simp] theorem State.modPac_met (s : State) (f : Pac → Pac) : (s.modPac f).met = s.met := rfl
@[simp] theorem State.modPac_cal (s : State) (f : Pac → Pac) : (s.modPac f).cal = s.cal := rfl
@[simp] theorem State.modPac_fw (s : State) (f : Pac → Pac) : (s.modPac f).fw = s.fw := rfl
@[simp] theorem State.modPac_lsi (s : State) (f : Pac → Pac) : (s.modPac f).lsi = s.lsi := rfl
@[simp] theorem State.modPac_otp (s : State) (f : Pac → Pac) : (s.modPac f).otp = s.otp := rfl
@[simp] theorem State.modPac_calStore (s : State) (f : Pac → Pac) : (s.modPac f).calStore = s.calStore := rfl
@[simp] theorem State.modPac_pending (s : State) (f : Pac → Pac) : (s.modPac f).pending = s.pending := rfl

@[simp] theorem State.modSec_now (s : State) (f : Sec → Sec) : (s.modSec f).now = s.now := rfl
@[simp] theorem State.modSec_pressBase (s : State) (f : Sec → Sec) : (s.modSec f).pressBase = s.pressBase := rfl
@[simp] theorem State.modSec_free (s : State) (f : Sec → Sec) : (s.modSec f).free = s.free := rfl
@[simp] theorem State.modSec_out (s : State) (f : Sec → Sec) : (s.modSec f).out = s.out := rfl
@[simp] theorem State.modSec_regs (s : State) (f : Sec → Sec) : (s.modSec f).regs = s.regs := rfl
@[simp] theorem State.modSec_dev (s : State) (f : Sec → Sec) : (s.modSec f).dev = s.dev := rfl
@[simp] theorem State.modSec_str (s : State) (f : Sec → Sec) : (s.modSec f).str = s.str := rfl
@[simp] theorem State.modSec_supRing (s : State) (f : Sec → Sec) : (s.modSec f).supRing = s.supRing := rfl
@[simp] theorem State.modSec_admRing (s : State) (f : Sec → Sec) : (s.modSec f).admRing = s.admRing := rfl
@[simp] theorem State.modSec_jobRings (s : State) (f : Sec → Sec) : (s.modSec f).jobRings = s.jobRings := rfl
@[simp] theorem State.modSec_jobs (s : State) (f : Sec → Sec) : (s.modSec f).jobs = s.jobs := rfl
@[simp] theorem State.modSec_cmp (s : State) (f : Sec → Sec) : (s.modSec f).cmp = s.cmp := rfl
@[simp] theorem State.modSec_clusters (s : State) (f : Sec → Sec) : (s.modSec f).clusters = s.clusters := rfl
@[simp] theorem State.modSec_cod (s : State) (f : Sec → Sec) : (s.modSec f).cod = s.cod := rfl
@[simp] theorem State.modSec_planes (s : State) (f : Sec → Sec) : (s.modSec f).planes = s.planes := rfl
@[simp] theorem State.modSec_nzm (s : State) (f : Sec → Sec) : (s.modSec f).nzm = s.nzm := rfl
@[simp] theorem State.modSec_pac (s : State) (f : Sec → Sec) : (s.modSec f).pac = s.pac := rfl
@[simp] theorem State.modSec_wav (s : State) (f : Sec → Sec) : (s.modSec f).wav = s.wav := rfl
@[simp] theorem State.modSec_log (s : State) (f : Sec → Sec) : (s.modSec f).log = s.log := rfl
@[simp] theorem State.modSec_sems (s : State) (f : Sec → Sec) : (s.modSec f).sems = s.sems := rfl
@[simp] theorem State.modSec_pci (s : State) (f : Sec → Sec) : (s.modSec f).pci = s.pci := rfl
@[simp] theorem State.modSec_mlk (s : State) (f : Sec → Sec) : (s.modSec f).mlk = s.mlk := rfl
@[simp] theorem State.modSec_ins (s : State) (f : Sec → Sec) : (s.modSec f).ins = s.ins := rfl
@[simp] theorem State.modSec_gov (s : State) (f : Sec → Sec) : (s.modSec f).gov = s.gov := rfl
@[simp] theorem State.modSec_ba (s : State) (f : Sec → Sec) : (s.modSec f).ba = s.ba := rfl
@[simp] theorem State.modSec_sd (s : State) (f : Sec → Sec) : (s.modSec f).sd = s.sd := rfl
@[simp] theorem State.modSec_stp (s : State) (f : Sec → Sec) : (s.modSec f).stp = s.stp := rfl
@[simp] theorem State.modSec_enc (s : State) (f : Sec → Sec) : (s.modSec f).enc = s.enc := rfl
@[simp] theorem State.modSec_pwr (s : State) (f : Sec → Sec) : (s.modSec f).pwr = s.pwr := rfl
@[simp] theorem State.modSec_mem (s : State) (f : Sec → Sec) : (s.modSec f).mem = s.mem := rfl
@[simp] theorem State.modSec_dma (s : State) (f : Sec → Sec) : (s.modSec f).dma = s.dma := rfl
@[simp] theorem State.modSec_xlk (s : State) (f : Sec → Sec) : (s.modSec f).xlk = s.xlk := rfl
@[simp] theorem State.modSec_sec (s : State) (f : Sec → Sec) : (s.modSec f).sec = f s.sec := rfl
@[simp] theorem State.modSec_met (s : State) (f : Sec → Sec) : (s.modSec f).met = s.met := rfl
@[simp] theorem State.modSec_cal (s : State) (f : Sec → Sec) : (s.modSec f).cal = s.cal := rfl
@[simp] theorem State.modSec_fw (s : State) (f : Sec → Sec) : (s.modSec f).fw = s.fw := rfl
@[simp] theorem State.modSec_lsi (s : State) (f : Sec → Sec) : (s.modSec f).lsi = s.lsi := rfl
@[simp] theorem State.modSec_otp (s : State) (f : Sec → Sec) : (s.modSec f).otp = s.otp := rfl
@[simp] theorem State.modSec_calStore (s : State) (f : Sec → Sec) : (s.modSec f).calStore = s.calStore := rfl
@[simp] theorem State.modSec_pending (s : State) (f : Sec → Sec) : (s.modSec f).pending = s.pending := rfl

@[simp] theorem State.modCod_now (s : State) (f : Cod → Cod) : (s.modCod f).now = s.now := rfl
@[simp] theorem State.modCod_pressBase (s : State) (f : Cod → Cod) : (s.modCod f).pressBase = s.pressBase := rfl
@[simp] theorem State.modCod_free (s : State) (f : Cod → Cod) : (s.modCod f).free = s.free := rfl
@[simp] theorem State.modCod_out (s : State) (f : Cod → Cod) : (s.modCod f).out = s.out := rfl
@[simp] theorem State.modCod_regs (s : State) (f : Cod → Cod) : (s.modCod f).regs = s.regs := rfl
@[simp] theorem State.modCod_dev (s : State) (f : Cod → Cod) : (s.modCod f).dev = s.dev := rfl
@[simp] theorem State.modCod_str (s : State) (f : Cod → Cod) : (s.modCod f).str = s.str := rfl
@[simp] theorem State.modCod_supRing (s : State) (f : Cod → Cod) : (s.modCod f).supRing = s.supRing := rfl
@[simp] theorem State.modCod_admRing (s : State) (f : Cod → Cod) : (s.modCod f).admRing = s.admRing := rfl
@[simp] theorem State.modCod_jobRings (s : State) (f : Cod → Cod) : (s.modCod f).jobRings = s.jobRings := rfl
@[simp] theorem State.modCod_jobs (s : State) (f : Cod → Cod) : (s.modCod f).jobs = s.jobs := rfl
@[simp] theorem State.modCod_cmp (s : State) (f : Cod → Cod) : (s.modCod f).cmp = s.cmp := rfl
@[simp] theorem State.modCod_clusters (s : State) (f : Cod → Cod) : (s.modCod f).clusters = s.clusters := rfl
@[simp] theorem State.modCod_cod (s : State) (f : Cod → Cod) : (s.modCod f).cod = f s.cod := rfl
@[simp] theorem State.modCod_planes (s : State) (f : Cod → Cod) : (s.modCod f).planes = s.planes := rfl
@[simp] theorem State.modCod_nzm (s : State) (f : Cod → Cod) : (s.modCod f).nzm = s.nzm := rfl
@[simp] theorem State.modCod_pac (s : State) (f : Cod → Cod) : (s.modCod f).pac = s.pac := rfl
@[simp] theorem State.modCod_wav (s : State) (f : Cod → Cod) : (s.modCod f).wav = s.wav := rfl
@[simp] theorem State.modCod_log (s : State) (f : Cod → Cod) : (s.modCod f).log = s.log := rfl
@[simp] theorem State.modCod_sems (s : State) (f : Cod → Cod) : (s.modCod f).sems = s.sems := rfl
@[simp] theorem State.modCod_pci (s : State) (f : Cod → Cod) : (s.modCod f).pci = s.pci := rfl
@[simp] theorem State.modCod_mlk (s : State) (f : Cod → Cod) : (s.modCod f).mlk = s.mlk := rfl
@[simp] theorem State.modCod_ins (s : State) (f : Cod → Cod) : (s.modCod f).ins = s.ins := rfl
@[simp] theorem State.modCod_gov (s : State) (f : Cod → Cod) : (s.modCod f).gov = s.gov := rfl
@[simp] theorem State.modCod_ba (s : State) (f : Cod → Cod) : (s.modCod f).ba = s.ba := rfl
@[simp] theorem State.modCod_sd (s : State) (f : Cod → Cod) : (s.modCod f).sd = s.sd := rfl
@[simp] theorem State.modCod_stp (s : State) (f : Cod → Cod) : (s.modCod f).stp = s.stp := rfl
@[simp] theorem State.modCod_enc (s : State) (f : Cod → Cod) : (s.modCod f).enc = s.enc := rfl
@[simp] theorem State.modCod_pwr (s : State) (f : Cod → Cod) : (s.modCod f).pwr = s.pwr := rfl
@[simp] theorem State.modCod_mem (s : State) (f : Cod → Cod) : (s.modCod f).mem = s.mem := rfl
@[simp] theorem State.modCod_dma (s : State) (f : Cod → Cod) : (s.modCod f).dma = s.dma := rfl
@[simp] theorem State.modCod_xlk (s : State) (f : Cod → Cod) : (s.modCod f).xlk = s.xlk := rfl
@[simp] theorem State.modCod_sec (s : State) (f : Cod → Cod) : (s.modCod f).sec = s.sec := rfl
@[simp] theorem State.modCod_met (s : State) (f : Cod → Cod) : (s.modCod f).met = s.met := rfl
@[simp] theorem State.modCod_cal (s : State) (f : Cod → Cod) : (s.modCod f).cal = s.cal := rfl
@[simp] theorem State.modCod_fw (s : State) (f : Cod → Cod) : (s.modCod f).fw = s.fw := rfl
@[simp] theorem State.modCod_lsi (s : State) (f : Cod → Cod) : (s.modCod f).lsi = s.lsi := rfl
@[simp] theorem State.modCod_otp (s : State) (f : Cod → Cod) : (s.modCod f).otp = s.otp := rfl
@[simp] theorem State.modCod_calStore (s : State) (f : Cod → Cod) : (s.modCod f).calStore = s.calStore := rfl
@[simp] theorem State.modCod_pending (s : State) (f : Cod → Cod) : (s.modCod f).pending = s.pending := rfl

@[simp] theorem State.modMem_now (s : State) (f : Mem → Mem) : (s.modMem f).now = s.now := rfl
@[simp] theorem State.modMem_pressBase (s : State) (f : Mem → Mem) : (s.modMem f).pressBase = s.pressBase := rfl
@[simp] theorem State.modMem_free (s : State) (f : Mem → Mem) : (s.modMem f).free = s.free := rfl
@[simp] theorem State.modMem_out (s : State) (f : Mem → Mem) : (s.modMem f).out = s.out := rfl
@[simp] theorem State.modMem_regs (s : State) (f : Mem → Mem) : (s.modMem f).regs = s.regs := rfl
@[simp] theorem State.modMem_dev (s : State) (f : Mem → Mem) : (s.modMem f).dev = s.dev := rfl
@[simp] theorem State.modMem_str (s : State) (f : Mem → Mem) : (s.modMem f).str = s.str := rfl
@[simp] theorem State.modMem_supRing (s : State) (f : Mem → Mem) : (s.modMem f).supRing = s.supRing := rfl
@[simp] theorem State.modMem_admRing (s : State) (f : Mem → Mem) : (s.modMem f).admRing = s.admRing := rfl
@[simp] theorem State.modMem_jobRings (s : State) (f : Mem → Mem) : (s.modMem f).jobRings = s.jobRings := rfl
@[simp] theorem State.modMem_jobs (s : State) (f : Mem → Mem) : (s.modMem f).jobs = s.jobs := rfl
@[simp] theorem State.modMem_cmp (s : State) (f : Mem → Mem) : (s.modMem f).cmp = s.cmp := rfl
@[simp] theorem State.modMem_clusters (s : State) (f : Mem → Mem) : (s.modMem f).clusters = s.clusters := rfl
@[simp] theorem State.modMem_cod (s : State) (f : Mem → Mem) : (s.modMem f).cod = s.cod := rfl
@[simp] theorem State.modMem_planes (s : State) (f : Mem → Mem) : (s.modMem f).planes = s.planes := rfl
@[simp] theorem State.modMem_nzm (s : State) (f : Mem → Mem) : (s.modMem f).nzm = s.nzm := rfl
@[simp] theorem State.modMem_pac (s : State) (f : Mem → Mem) : (s.modMem f).pac = s.pac := rfl
@[simp] theorem State.modMem_wav (s : State) (f : Mem → Mem) : (s.modMem f).wav = s.wav := rfl
@[simp] theorem State.modMem_log (s : State) (f : Mem → Mem) : (s.modMem f).log = s.log := rfl
@[simp] theorem State.modMem_sems (s : State) (f : Mem → Mem) : (s.modMem f).sems = s.sems := rfl
@[simp] theorem State.modMem_pci (s : State) (f : Mem → Mem) : (s.modMem f).pci = s.pci := rfl
@[simp] theorem State.modMem_mlk (s : State) (f : Mem → Mem) : (s.modMem f).mlk = s.mlk := rfl
@[simp] theorem State.modMem_ins (s : State) (f : Mem → Mem) : (s.modMem f).ins = s.ins := rfl
@[simp] theorem State.modMem_gov (s : State) (f : Mem → Mem) : (s.modMem f).gov = s.gov := rfl
@[simp] theorem State.modMem_ba (s : State) (f : Mem → Mem) : (s.modMem f).ba = s.ba := rfl
@[simp] theorem State.modMem_sd (s : State) (f : Mem → Mem) : (s.modMem f).sd = s.sd := rfl
@[simp] theorem State.modMem_stp (s : State) (f : Mem → Mem) : (s.modMem f).stp = s.stp := rfl
@[simp] theorem State.modMem_enc (s : State) (f : Mem → Mem) : (s.modMem f).enc = s.enc := rfl
@[simp] theorem State.modMem_pwr (s : State) (f : Mem → Mem) : (s.modMem f).pwr = s.pwr := rfl
@[simp] theorem State.modMem_mem (s : State) (f : Mem → Mem) : (s.modMem f).mem = f s.mem := rfl
@[simp] theorem State.modMem_dma (s : State) (f : Mem → Mem) : (s.modMem f).dma = s.dma := rfl
@[simp] theorem State.modMem_xlk (s : State) (f : Mem → Mem) : (s.modMem f).xlk = s.xlk := rfl
@[simp] theorem State.modMem_sec (s : State) (f : Mem → Mem) : (s.modMem f).sec = s.sec := rfl
@[simp] theorem State.modMem_met (s : State) (f : Mem → Mem) : (s.modMem f).met = s.met := rfl
@[simp] theorem State.modMem_cal (s : State) (f : Mem → Mem) : (s.modMem f).cal = s.cal := rfl
@[simp] theorem State.modMem_fw (s : State) (f : Mem → Mem) : (s.modMem f).fw = s.fw := rfl
@[simp] theorem State.modMem_lsi (s : State) (f : Mem → Mem) : (s.modMem f).lsi = s.lsi := rfl
@[simp] theorem State.modMem_otp (s : State) (f : Mem → Mem) : (s.modMem f).otp = s.otp := rfl
@[simp] theorem State.modMem_calStore (s : State) (f : Mem → Mem) : (s.modMem f).calStore = s.calStore := rfl
@[simp] theorem State.modMem_pending (s : State) (f : Mem → Mem) : (s.modMem f).pending = s.pending := rfl

@[simp] theorem State.modIns_now (s : State) (f : Ins → Ins) : (s.modIns f).now = s.now := rfl
@[simp] theorem State.modIns_pressBase (s : State) (f : Ins → Ins) : (s.modIns f).pressBase = s.pressBase := rfl
@[simp] theorem State.modIns_free (s : State) (f : Ins → Ins) : (s.modIns f).free = s.free := rfl
@[simp] theorem State.modIns_out (s : State) (f : Ins → Ins) : (s.modIns f).out = s.out := rfl
@[simp] theorem State.modIns_regs (s : State) (f : Ins → Ins) : (s.modIns f).regs = s.regs := rfl
@[simp] theorem State.modIns_dev (s : State) (f : Ins → Ins) : (s.modIns f).dev = s.dev := rfl
@[simp] theorem State.modIns_str (s : State) (f : Ins → Ins) : (s.modIns f).str = s.str := rfl
@[simp] theorem State.modIns_supRing (s : State) (f : Ins → Ins) : (s.modIns f).supRing = s.supRing := rfl
@[simp] theorem State.modIns_admRing (s : State) (f : Ins → Ins) : (s.modIns f).admRing = s.admRing := rfl
@[simp] theorem State.modIns_jobRings (s : State) (f : Ins → Ins) : (s.modIns f).jobRings = s.jobRings := rfl
@[simp] theorem State.modIns_jobs (s : State) (f : Ins → Ins) : (s.modIns f).jobs = s.jobs := rfl
@[simp] theorem State.modIns_cmp (s : State) (f : Ins → Ins) : (s.modIns f).cmp = s.cmp := rfl
@[simp] theorem State.modIns_clusters (s : State) (f : Ins → Ins) : (s.modIns f).clusters = s.clusters := rfl
@[simp] theorem State.modIns_cod (s : State) (f : Ins → Ins) : (s.modIns f).cod = s.cod := rfl
@[simp] theorem State.modIns_planes (s : State) (f : Ins → Ins) : (s.modIns f).planes = s.planes := rfl
@[simp] theorem State.modIns_nzm (s : State) (f : Ins → Ins) : (s.modIns f).nzm = s.nzm := rfl
@[simp] theorem State.modIns_pac (s : State) (f : Ins → Ins) : (s.modIns f).pac = s.pac := rfl
@[simp] theorem State.modIns_wav (s : State) (f : Ins → Ins) : (s.modIns f).wav = s.wav := rfl
@[simp] theorem State.modIns_log (s : State) (f : Ins → Ins) : (s.modIns f).log = s.log := rfl
@[simp] theorem State.modIns_sems (s : State) (f : Ins → Ins) : (s.modIns f).sems = s.sems := rfl
@[simp] theorem State.modIns_pci (s : State) (f : Ins → Ins) : (s.modIns f).pci = s.pci := rfl
@[simp] theorem State.modIns_mlk (s : State) (f : Ins → Ins) : (s.modIns f).mlk = s.mlk := rfl
@[simp] theorem State.modIns_ins (s : State) (f : Ins → Ins) : (s.modIns f).ins = f s.ins := rfl
@[simp] theorem State.modIns_gov (s : State) (f : Ins → Ins) : (s.modIns f).gov = s.gov := rfl
@[simp] theorem State.modIns_ba (s : State) (f : Ins → Ins) : (s.modIns f).ba = s.ba := rfl
@[simp] theorem State.modIns_sd (s : State) (f : Ins → Ins) : (s.modIns f).sd = s.sd := rfl
@[simp] theorem State.modIns_stp (s : State) (f : Ins → Ins) : (s.modIns f).stp = s.stp := rfl
@[simp] theorem State.modIns_enc (s : State) (f : Ins → Ins) : (s.modIns f).enc = s.enc := rfl
@[simp] theorem State.modIns_pwr (s : State) (f : Ins → Ins) : (s.modIns f).pwr = s.pwr := rfl
@[simp] theorem State.modIns_mem (s : State) (f : Ins → Ins) : (s.modIns f).mem = s.mem := rfl
@[simp] theorem State.modIns_dma (s : State) (f : Ins → Ins) : (s.modIns f).dma = s.dma := rfl
@[simp] theorem State.modIns_xlk (s : State) (f : Ins → Ins) : (s.modIns f).xlk = s.xlk := rfl
@[simp] theorem State.modIns_sec (s : State) (f : Ins → Ins) : (s.modIns f).sec = s.sec := rfl
@[simp] theorem State.modIns_met (s : State) (f : Ins → Ins) : (s.modIns f).met = s.met := rfl
@[simp] theorem State.modIns_cal (s : State) (f : Ins → Ins) : (s.modIns f).cal = s.cal := rfl
@[simp] theorem State.modIns_fw (s : State) (f : Ins → Ins) : (s.modIns f).fw = s.fw := rfl
@[simp] theorem State.modIns_lsi (s : State) (f : Ins → Ins) : (s.modIns f).lsi = s.lsi := rfl
@[simp] theorem State.modIns_otp (s : State) (f : Ins → Ins) : (s.modIns f).otp = s.otp := rfl
@[simp] theorem State.modIns_calStore (s : State) (f : Ins → Ins) : (s.modIns f).calStore = s.calStore := rfl
@[simp] theorem State.modIns_pending (s : State) (f : Ins → Ins) : (s.modIns f).pending = s.pending := rfl

@[simp] theorem State.modDev_now (s : State) (f : Dev → Dev) : (s.modDev f).now = s.now := rfl
@[simp] theorem State.modDev_pressBase (s : State) (f : Dev → Dev) : (s.modDev f).pressBase = s.pressBase := rfl
@[simp] theorem State.modDev_free (s : State) (f : Dev → Dev) : (s.modDev f).free = s.free := rfl
@[simp] theorem State.modDev_out (s : State) (f : Dev → Dev) : (s.modDev f).out = s.out := rfl
@[simp] theorem State.modDev_regs (s : State) (f : Dev → Dev) : (s.modDev f).regs = s.regs := rfl
@[simp] theorem State.modDev_dev (s : State) (f : Dev → Dev) : (s.modDev f).dev = f s.dev := rfl
@[simp] theorem State.modDev_str (s : State) (f : Dev → Dev) : (s.modDev f).str = s.str := rfl
@[simp] theorem State.modDev_supRing (s : State) (f : Dev → Dev) : (s.modDev f).supRing = s.supRing := rfl
@[simp] theorem State.modDev_admRing (s : State) (f : Dev → Dev) : (s.modDev f).admRing = s.admRing := rfl
@[simp] theorem State.modDev_jobRings (s : State) (f : Dev → Dev) : (s.modDev f).jobRings = s.jobRings := rfl
@[simp] theorem State.modDev_jobs (s : State) (f : Dev → Dev) : (s.modDev f).jobs = s.jobs := rfl
@[simp] theorem State.modDev_cmp (s : State) (f : Dev → Dev) : (s.modDev f).cmp = s.cmp := rfl
@[simp] theorem State.modDev_clusters (s : State) (f : Dev → Dev) : (s.modDev f).clusters = s.clusters := rfl
@[simp] theorem State.modDev_cod (s : State) (f : Dev → Dev) : (s.modDev f).cod = s.cod := rfl
@[simp] theorem State.modDev_planes (s : State) (f : Dev → Dev) : (s.modDev f).planes = s.planes := rfl
@[simp] theorem State.modDev_nzm (s : State) (f : Dev → Dev) : (s.modDev f).nzm = s.nzm := rfl
@[simp] theorem State.modDev_pac (s : State) (f : Dev → Dev) : (s.modDev f).pac = s.pac := rfl
@[simp] theorem State.modDev_wav (s : State) (f : Dev → Dev) : (s.modDev f).wav = s.wav := rfl
@[simp] theorem State.modDev_log (s : State) (f : Dev → Dev) : (s.modDev f).log = s.log := rfl
@[simp] theorem State.modDev_sems (s : State) (f : Dev → Dev) : (s.modDev f).sems = s.sems := rfl
@[simp] theorem State.modDev_pci (s : State) (f : Dev → Dev) : (s.modDev f).pci = s.pci := rfl
@[simp] theorem State.modDev_mlk (s : State) (f : Dev → Dev) : (s.modDev f).mlk = s.mlk := rfl
@[simp] theorem State.modDev_ins (s : State) (f : Dev → Dev) : (s.modDev f).ins = s.ins := rfl
@[simp] theorem State.modDev_gov (s : State) (f : Dev → Dev) : (s.modDev f).gov = s.gov := rfl
@[simp] theorem State.modDev_ba (s : State) (f : Dev → Dev) : (s.modDev f).ba = s.ba := rfl
@[simp] theorem State.modDev_sd (s : State) (f : Dev → Dev) : (s.modDev f).sd = s.sd := rfl
@[simp] theorem State.modDev_stp (s : State) (f : Dev → Dev) : (s.modDev f).stp = s.stp := rfl
@[simp] theorem State.modDev_enc (s : State) (f : Dev → Dev) : (s.modDev f).enc = s.enc := rfl
@[simp] theorem State.modDev_pwr (s : State) (f : Dev → Dev) : (s.modDev f).pwr = s.pwr := rfl
@[simp] theorem State.modDev_mem (s : State) (f : Dev → Dev) : (s.modDev f).mem = s.mem := rfl
@[simp] theorem State.modDev_dma (s : State) (f : Dev → Dev) : (s.modDev f).dma = s.dma := rfl
@[simp] theorem State.modDev_xlk (s : State) (f : Dev → Dev) : (s.modDev f).xlk = s.xlk := rfl
@[simp] theorem State.modDev_sec (s : State) (f : Dev → Dev) : (s.modDev f).sec = s.sec := rfl
@[simp] theorem State.modDev_met (s : State) (f : Dev → Dev) : (s.modDev f).met = s.met := rfl
@[simp] theorem State.modDev_cal (s : State) (f : Dev → Dev) : (s.modDev f).cal = s.cal := rfl
@[simp] theorem State.modDev_fw (s : State) (f : Dev → Dev) : (s.modDev f).fw = s.fw := rfl
@[simp] theorem State.modDev_lsi (s : State) (f : Dev → Dev) : (s.modDev f).lsi = s.lsi := rfl
@[simp] theorem State.modDev_otp (s : State) (f : Dev → Dev) : (s.modDev f).otp = s.otp := rfl
@[simp] theorem State.modDev_calStore (s : State) (f : Dev → Dev) : (s.modDev f).calStore = s.calStore := rfl
@[simp] theorem State.modDev_pending (s : State) (f : Dev → Dev) : (s.modDev f).pending = s.pending := rfl

@[simp] theorem State.modWav_now (s : State) (f : Wav → Wav) : (s.modWav f).now = s.now := rfl
@[simp] theorem State.modWav_pressBase (s : State) (f : Wav → Wav) : (s.modWav f).pressBase = s.pressBase := rfl
@[simp] theorem State.modWav_free (s : State) (f : Wav → Wav) : (s.modWav f).free = s.free := rfl
@[simp] theorem State.modWav_out (s : State) (f : Wav → Wav) : (s.modWav f).out = s.out := rfl
@[simp] theorem State.modWav_regs (s : State) (f : Wav → Wav) : (s.modWav f).regs = s.regs := rfl
@[simp] theorem State.modWav_dev (s : State) (f : Wav → Wav) : (s.modWav f).dev = s.dev := rfl
@[simp] theorem State.modWav_str (s : State) (f : Wav → Wav) : (s.modWav f).str = s.str := rfl
@[simp] theorem State.modWav_supRing (s : State) (f : Wav → Wav) : (s.modWav f).supRing = s.supRing := rfl
@[simp] theorem State.modWav_admRing (s : State) (f : Wav → Wav) : (s.modWav f).admRing = s.admRing := rfl
@[simp] theorem State.modWav_jobRings (s : State) (f : Wav → Wav) : (s.modWav f).jobRings = s.jobRings := rfl
@[simp] theorem State.modWav_jobs (s : State) (f : Wav → Wav) : (s.modWav f).jobs = s.jobs := rfl
@[simp] theorem State.modWav_cmp (s : State) (f : Wav → Wav) : (s.modWav f).cmp = s.cmp := rfl
@[simp] theorem State.modWav_clusters (s : State) (f : Wav → Wav) : (s.modWav f).clusters = s.clusters := rfl
@[simp] theorem State.modWav_cod (s : State) (f : Wav → Wav) : (s.modWav f).cod = s.cod := rfl
@[simp] theorem State.modWav_planes (s : State) (f : Wav → Wav) : (s.modWav f).planes = s.planes := rfl
@[simp] theorem State.modWav_nzm (s : State) (f : Wav → Wav) : (s.modWav f).nzm = s.nzm := rfl
@[simp] theorem State.modWav_pac (s : State) (f : Wav → Wav) : (s.modWav f).pac = s.pac := rfl
@[simp] theorem State.modWav_wav (s : State) (f : Wav → Wav) : (s.modWav f).wav = f s.wav := rfl
@[simp] theorem State.modWav_log (s : State) (f : Wav → Wav) : (s.modWav f).log = s.log := rfl
@[simp] theorem State.modWav_sems (s : State) (f : Wav → Wav) : (s.modWav f).sems = s.sems := rfl
@[simp] theorem State.modWav_pci (s : State) (f : Wav → Wav) : (s.modWav f).pci = s.pci := rfl
@[simp] theorem State.modWav_mlk (s : State) (f : Wav → Wav) : (s.modWav f).mlk = s.mlk := rfl
@[simp] theorem State.modWav_ins (s : State) (f : Wav → Wav) : (s.modWav f).ins = s.ins := rfl
@[simp] theorem State.modWav_gov (s : State) (f : Wav → Wav) : (s.modWav f).gov = s.gov := rfl
@[simp] theorem State.modWav_ba (s : State) (f : Wav → Wav) : (s.modWav f).ba = s.ba := rfl
@[simp] theorem State.modWav_sd (s : State) (f : Wav → Wav) : (s.modWav f).sd = s.sd := rfl
@[simp] theorem State.modWav_stp (s : State) (f : Wav → Wav) : (s.modWav f).stp = s.stp := rfl
@[simp] theorem State.modWav_enc (s : State) (f : Wav → Wav) : (s.modWav f).enc = s.enc := rfl
@[simp] theorem State.modWav_pwr (s : State) (f : Wav → Wav) : (s.modWav f).pwr = s.pwr := rfl
@[simp] theorem State.modWav_mem (s : State) (f : Wav → Wav) : (s.modWav f).mem = s.mem := rfl
@[simp] theorem State.modWav_dma (s : State) (f : Wav → Wav) : (s.modWav f).dma = s.dma := rfl
@[simp] theorem State.modWav_xlk (s : State) (f : Wav → Wav) : (s.modWav f).xlk = s.xlk := rfl
@[simp] theorem State.modWav_sec (s : State) (f : Wav → Wav) : (s.modWav f).sec = s.sec := rfl
@[simp] theorem State.modWav_met (s : State) (f : Wav → Wav) : (s.modWav f).met = s.met := rfl
@[simp] theorem State.modWav_cal (s : State) (f : Wav → Wav) : (s.modWav f).cal = s.cal := rfl
@[simp] theorem State.modWav_fw (s : State) (f : Wav → Wav) : (s.modWav f).fw = s.fw := rfl
@[simp] theorem State.modWav_lsi (s : State) (f : Wav → Wav) : (s.modWav f).lsi = s.lsi := rfl
@[simp] theorem State.modWav_otp (s : State) (f : Wav → Wav) : (s.modWav f).otp = s.otp := rfl
@[simp] theorem State.modWav_calStore (s : State) (f : Wav → Wav) : (s.modWav f).calStore = s.calStore := rfl
@[simp] theorem State.modWav_pending (s : State) (f : Wav → Wav) : (s.modWav f).pending = s.pending := rfl

@[simp] theorem State.modMlk_now (s : State) (f : Mlk → Mlk) : (s.modMlk f).now = s.now := rfl
@[simp] theorem State.modMlk_pressBase (s : State) (f : Mlk → Mlk) : (s.modMlk f).pressBase = s.pressBase := rfl
@[simp] theorem State.modMlk_free (s : State) (f : Mlk → Mlk) : (s.modMlk f).free = s.free := rfl
@[simp] theorem State.modMlk_out (s : State) (f : Mlk → Mlk) : (s.modMlk f).out = s.out := rfl
@[simp] theorem State.modMlk_regs (s : State) (f : Mlk → Mlk) : (s.modMlk f).regs = s.regs := rfl
@[simp] theorem State.modMlk_dev (s : State) (f : Mlk → Mlk) : (s.modMlk f).dev = s.dev := rfl
@[simp] theorem State.modMlk_str (s : State) (f : Mlk → Mlk) : (s.modMlk f).str = s.str := rfl
@[simp] theorem State.modMlk_supRing (s : State) (f : Mlk → Mlk) : (s.modMlk f).supRing = s.supRing := rfl
@[simp] theorem State.modMlk_admRing (s : State) (f : Mlk → Mlk) : (s.modMlk f).admRing = s.admRing := rfl
@[simp] theorem State.modMlk_jobRings (s : State) (f : Mlk → Mlk) : (s.modMlk f).jobRings = s.jobRings := rfl
@[simp] theorem State.modMlk_jobs (s : State) (f : Mlk → Mlk) : (s.modMlk f).jobs = s.jobs := rfl
@[simp] theorem State.modMlk_cmp (s : State) (f : Mlk → Mlk) : (s.modMlk f).cmp = s.cmp := rfl
@[simp] theorem State.modMlk_clusters (s : State) (f : Mlk → Mlk) : (s.modMlk f).clusters = s.clusters := rfl
@[simp] theorem State.modMlk_cod (s : State) (f : Mlk → Mlk) : (s.modMlk f).cod = s.cod := rfl
@[simp] theorem State.modMlk_planes (s : State) (f : Mlk → Mlk) : (s.modMlk f).planes = s.planes := rfl
@[simp] theorem State.modMlk_nzm (s : State) (f : Mlk → Mlk) : (s.modMlk f).nzm = s.nzm := rfl
@[simp] theorem State.modMlk_pac (s : State) (f : Mlk → Mlk) : (s.modMlk f).pac = s.pac := rfl
@[simp] theorem State.modMlk_wav (s : State) (f : Mlk → Mlk) : (s.modMlk f).wav = s.wav := rfl
@[simp] theorem State.modMlk_log (s : State) (f : Mlk → Mlk) : (s.modMlk f).log = s.log := rfl
@[simp] theorem State.modMlk_sems (s : State) (f : Mlk → Mlk) : (s.modMlk f).sems = s.sems := rfl
@[simp] theorem State.modMlk_pci (s : State) (f : Mlk → Mlk) : (s.modMlk f).pci = s.pci := rfl
@[simp] theorem State.modMlk_mlk (s : State) (f : Mlk → Mlk) : (s.modMlk f).mlk = f s.mlk := rfl
@[simp] theorem State.modMlk_ins (s : State) (f : Mlk → Mlk) : (s.modMlk f).ins = s.ins := rfl
@[simp] theorem State.modMlk_gov (s : State) (f : Mlk → Mlk) : (s.modMlk f).gov = s.gov := rfl
@[simp] theorem State.modMlk_ba (s : State) (f : Mlk → Mlk) : (s.modMlk f).ba = s.ba := rfl
@[simp] theorem State.modMlk_sd (s : State) (f : Mlk → Mlk) : (s.modMlk f).sd = s.sd := rfl
@[simp] theorem State.modMlk_stp (s : State) (f : Mlk → Mlk) : (s.modMlk f).stp = s.stp := rfl
@[simp] theorem State.modMlk_enc (s : State) (f : Mlk → Mlk) : (s.modMlk f).enc = s.enc := rfl
@[simp] theorem State.modMlk_pwr (s : State) (f : Mlk → Mlk) : (s.modMlk f).pwr = s.pwr := rfl
@[simp] theorem State.modMlk_mem (s : State) (f : Mlk → Mlk) : (s.modMlk f).mem = s.mem := rfl
@[simp] theorem State.modMlk_dma (s : State) (f : Mlk → Mlk) : (s.modMlk f).dma = s.dma := rfl
@[simp] theorem State.modMlk_xlk (s : State) (f : Mlk → Mlk) : (s.modMlk f).xlk = s.xlk := rfl
@[simp] theorem State.modMlk_sec (s : State) (f : Mlk → Mlk) : (s.modMlk f).sec = s.sec := rfl
@[simp] theorem State.modMlk_met (s : State) (f : Mlk → Mlk) : (s.modMlk f).met = s.met := rfl
@[simp] theorem State.modMlk_cal (s : State) (f : Mlk → Mlk) : (s.modMlk f).cal = s.cal := rfl
@[simp] theorem State.modMlk_fw (s : State) (f : Mlk → Mlk) : (s.modMlk f).fw = s.fw := rfl
@[simp] theorem State.modMlk_lsi (s : State) (f : Mlk → Mlk) : (s.modMlk f).lsi = s.lsi := rfl
@[simp] theorem State.modMlk_otp (s : State) (f : Mlk → Mlk) : (s.modMlk f).otp = s.otp := rfl
@[simp] theorem State.modMlk_calStore (s : State) (f : Mlk → Mlk) : (s.modMlk f).calStore = s.calStore := rfl
@[simp] theorem State.modMlk_pending (s : State) (f : Mlk → Mlk) : (s.modMlk f).pending = s.pending := rfl

@[simp] theorem State.modLane_now (s : State) (l : Fin 64) (f : Lane → Lane) : (s.modLane l f).now = s.now := rfl
@[simp] theorem State.modLane_pressBase (s : State) (l : Fin 64) (f : Lane → Lane) : (s.modLane l f).pressBase = s.pressBase := rfl
@[simp] theorem State.modLane_free (s : State) (l : Fin 64) (f : Lane → Lane) : (s.modLane l f).free = s.free := rfl
@[simp] theorem State.modLane_out (s : State) (l : Fin 64) (f : Lane → Lane) : (s.modLane l f).out = s.out := rfl
@[simp] theorem State.modLane_regs (s : State) (l : Fin 64) (f : Lane → Lane) : (s.modLane l f).regs = s.regs := rfl
@[simp] theorem State.modLane_dev (s : State) (l : Fin 64) (f : Lane → Lane) : (s.modLane l f).dev = s.dev := rfl
@[simp] theorem State.modLane_str (s : State) (l : Fin 64) (f : Lane → Lane) : (s.modLane l f).str = s.str := rfl
@[simp] theorem State.modLane_supRing (s : State) (l : Fin 64) (f : Lane → Lane) : (s.modLane l f).supRing = s.supRing := rfl
@[simp] theorem State.modLane_admRing (s : State) (l : Fin 64) (f : Lane → Lane) : (s.modLane l f).admRing = s.admRing := rfl
@[simp] theorem State.modLane_jobRings (s : State) (l : Fin 64) (f : Lane → Lane) : (s.modLane l f).jobRings = s.jobRings := rfl
@[simp] theorem State.modLane_jobs (s : State) (l : Fin 64) (f : Lane → Lane) : (s.modLane l f).jobs = s.jobs := rfl
@[simp] theorem State.modLane_cmp (s : State) (l : Fin 64) (f : Lane → Lane) : (s.modLane l f).cmp = s.cmp := rfl
@[simp] theorem State.modLane_clusters (s : State) (l : Fin 64) (f : Lane → Lane) : (s.modLane l f).clusters = s.clusters := rfl
@[simp] theorem State.modLane_cod (s : State) (l : Fin 64) (f : Lane → Lane) : (s.modLane l f).cod = s.cod := rfl
@[simp] theorem State.modLane_planes (s : State) (l : Fin 64) (f : Lane → Lane) : (s.modLane l f).planes = s.planes := rfl
@[simp] theorem State.modLane_nzm (s : State) (l : Fin 64) (f : Lane → Lane) : (s.modLane l f).nzm = s.nzm := rfl
@[simp] theorem State.modLane_pac (s : State) (l : Fin 64) (f : Lane → Lane) : (s.modLane l f).pac = s.pac := rfl
@[simp] theorem State.modLane_wav (s : State) (l : Fin 64) (f : Lane → Lane) : (s.modLane l f).wav = s.wav := rfl
@[simp] theorem State.modLane_log (s : State) (l : Fin 64) (f : Lane → Lane) : (s.modLane l f).log = s.log := rfl
@[simp] theorem State.modLane_sems (s : State) (l : Fin 64) (f : Lane → Lane) : (s.modLane l f).sems = s.sems := rfl
@[simp] theorem State.modLane_pci (s : State) (l : Fin 64) (f : Lane → Lane) : (s.modLane l f).pci = s.pci := rfl
@[simp] theorem State.modLane_ins (s : State) (l : Fin 64) (f : Lane → Lane) : (s.modLane l f).ins = s.ins := rfl
@[simp] theorem State.modLane_gov (s : State) (l : Fin 64) (f : Lane → Lane) : (s.modLane l f).gov = s.gov := rfl
@[simp] theorem State.modLane_ba (s : State) (l : Fin 64) (f : Lane → Lane) : (s.modLane l f).ba = s.ba := rfl
@[simp] theorem State.modLane_sd (s : State) (l : Fin 64) (f : Lane → Lane) : (s.modLane l f).sd = s.sd := rfl
@[simp] theorem State.modLane_stp (s : State) (l : Fin 64) (f : Lane → Lane) : (s.modLane l f).stp = s.stp := rfl
@[simp] theorem State.modLane_enc (s : State) (l : Fin 64) (f : Lane → Lane) : (s.modLane l f).enc = s.enc := rfl
@[simp] theorem State.modLane_pwr (s : State) (l : Fin 64) (f : Lane → Lane) : (s.modLane l f).pwr = s.pwr := rfl
@[simp] theorem State.modLane_mem (s : State) (l : Fin 64) (f : Lane → Lane) : (s.modLane l f).mem = s.mem := rfl
@[simp] theorem State.modLane_dma (s : State) (l : Fin 64) (f : Lane → Lane) : (s.modLane l f).dma = s.dma := rfl
@[simp] theorem State.modLane_xlk (s : State) (l : Fin 64) (f : Lane → Lane) : (s.modLane l f).xlk = s.xlk := rfl
@[simp] theorem State.modLane_sec (s : State) (l : Fin 64) (f : Lane → Lane) : (s.modLane l f).sec = s.sec := rfl
@[simp] theorem State.modLane_met (s : State) (l : Fin 64) (f : Lane → Lane) : (s.modLane l f).met = s.met := rfl
@[simp] theorem State.modLane_cal (s : State) (l : Fin 64) (f : Lane → Lane) : (s.modLane l f).cal = s.cal := rfl
@[simp] theorem State.modLane_fw (s : State) (l : Fin 64) (f : Lane → Lane) : (s.modLane l f).fw = s.fw := rfl
@[simp] theorem State.modLane_lsi (s : State) (l : Fin 64) (f : Lane → Lane) : (s.modLane l f).lsi = s.lsi := rfl
@[simp] theorem State.modLane_otp (s : State) (l : Fin 64) (f : Lane → Lane) : (s.modLane l f).otp = s.otp := rfl
@[simp] theorem State.modLane_calStore (s : State) (l : Fin 64) (f : Lane → Lane) : (s.modLane l f).calStore = s.calStore := rfl
@[simp] theorem State.modLane_pending (s : State) (l : Fin 64) (f : Lane → Lane) : (s.modLane l f).pending = s.pending := rfl

@[simp] theorem State.modEp_now (s : State) (e : Fin 64) (f : Endpoint → Endpoint) : (s.modEp e f).now = s.now := rfl
@[simp] theorem State.modEp_pressBase (s : State) (e : Fin 64) (f : Endpoint → Endpoint) : (s.modEp e f).pressBase = s.pressBase := rfl
@[simp] theorem State.modEp_free (s : State) (e : Fin 64) (f : Endpoint → Endpoint) : (s.modEp e f).free = s.free := rfl
@[simp] theorem State.modEp_out (s : State) (e : Fin 64) (f : Endpoint → Endpoint) : (s.modEp e f).out = s.out := rfl
@[simp] theorem State.modEp_regs (s : State) (e : Fin 64) (f : Endpoint → Endpoint) : (s.modEp e f).regs = s.regs := rfl
@[simp] theorem State.modEp_dev (s : State) (e : Fin 64) (f : Endpoint → Endpoint) : (s.modEp e f).dev = s.dev := rfl
@[simp] theorem State.modEp_str (s : State) (e : Fin 64) (f : Endpoint → Endpoint) : (s.modEp e f).str = s.str := rfl
@[simp] theorem State.modEp_supRing (s : State) (e : Fin 64) (f : Endpoint → Endpoint) : (s.modEp e f).supRing = s.supRing := rfl
@[simp] theorem State.modEp_admRing (s : State) (e : Fin 64) (f : Endpoint → Endpoint) : (s.modEp e f).admRing = s.admRing := rfl
@[simp] theorem State.modEp_jobRings (s : State) (e : Fin 64) (f : Endpoint → Endpoint) : (s.modEp e f).jobRings = s.jobRings := rfl
@[simp] theorem State.modEp_jobs (s : State) (e : Fin 64) (f : Endpoint → Endpoint) : (s.modEp e f).jobs = s.jobs := rfl
@[simp] theorem State.modEp_cmp (s : State) (e : Fin 64) (f : Endpoint → Endpoint) : (s.modEp e f).cmp = s.cmp := rfl
@[simp] theorem State.modEp_clusters (s : State) (e : Fin 64) (f : Endpoint → Endpoint) : (s.modEp e f).clusters = s.clusters := rfl
@[simp] theorem State.modEp_cod (s : State) (e : Fin 64) (f : Endpoint → Endpoint) : (s.modEp e f).cod = s.cod := rfl
@[simp] theorem State.modEp_planes (s : State) (e : Fin 64) (f : Endpoint → Endpoint) : (s.modEp e f).planes = s.planes := rfl
@[simp] theorem State.modEp_nzm (s : State) (e : Fin 64) (f : Endpoint → Endpoint) : (s.modEp e f).nzm = s.nzm := rfl
@[simp] theorem State.modEp_pac (s : State) (e : Fin 64) (f : Endpoint → Endpoint) : (s.modEp e f).pac = s.pac := rfl
@[simp] theorem State.modEp_wav (s : State) (e : Fin 64) (f : Endpoint → Endpoint) : (s.modEp e f).wav = s.wav := rfl
@[simp] theorem State.modEp_log (s : State) (e : Fin 64) (f : Endpoint → Endpoint) : (s.modEp e f).log = s.log := rfl
@[simp] theorem State.modEp_sems (s : State) (e : Fin 64) (f : Endpoint → Endpoint) : (s.modEp e f).sems = s.sems := rfl
@[simp] theorem State.modEp_pci (s : State) (e : Fin 64) (f : Endpoint → Endpoint) : (s.modEp e f).pci = s.pci := rfl
@[simp] theorem State.modEp_ins (s : State) (e : Fin 64) (f : Endpoint → Endpoint) : (s.modEp e f).ins = s.ins := rfl
@[simp] theorem State.modEp_gov (s : State) (e : Fin 64) (f : Endpoint → Endpoint) : (s.modEp e f).gov = s.gov := rfl
@[simp] theorem State.modEp_ba (s : State) (e : Fin 64) (f : Endpoint → Endpoint) : (s.modEp e f).ba = s.ba := rfl
@[simp] theorem State.modEp_sd (s : State) (e : Fin 64) (f : Endpoint → Endpoint) : (s.modEp e f).sd = s.sd := rfl
@[simp] theorem State.modEp_stp (s : State) (e : Fin 64) (f : Endpoint → Endpoint) : (s.modEp e f).stp = s.stp := rfl
@[simp] theorem State.modEp_enc (s : State) (e : Fin 64) (f : Endpoint → Endpoint) : (s.modEp e f).enc = s.enc := rfl
@[simp] theorem State.modEp_pwr (s : State) (e : Fin 64) (f : Endpoint → Endpoint) : (s.modEp e f).pwr = s.pwr := rfl
@[simp] theorem State.modEp_mem (s : State) (e : Fin 64) (f : Endpoint → Endpoint) : (s.modEp e f).mem = s.mem := rfl
@[simp] theorem State.modEp_dma (s : State) (e : Fin 64) (f : Endpoint → Endpoint) : (s.modEp e f).dma = s.dma := rfl
@[simp] theorem State.modEp_xlk (s : State) (e : Fin 64) (f : Endpoint → Endpoint) : (s.modEp e f).xlk = s.xlk := rfl
@[simp] theorem State.modEp_sec (s : State) (e : Fin 64) (f : Endpoint → Endpoint) : (s.modEp e f).sec = s.sec := rfl
@[simp] theorem State.modEp_met (s : State) (e : Fin 64) (f : Endpoint → Endpoint) : (s.modEp e f).met = s.met := rfl
@[simp] theorem State.modEp_cal (s : State) (e : Fin 64) (f : Endpoint → Endpoint) : (s.modEp e f).cal = s.cal := rfl
@[simp] theorem State.modEp_fw (s : State) (e : Fin 64) (f : Endpoint → Endpoint) : (s.modEp e f).fw = s.fw := rfl
@[simp] theorem State.modEp_lsi (s : State) (e : Fin 64) (f : Endpoint → Endpoint) : (s.modEp e f).lsi = s.lsi := rfl
@[simp] theorem State.modEp_otp (s : State) (e : Fin 64) (f : Endpoint → Endpoint) : (s.modEp e f).otp = s.otp := rfl
@[simp] theorem State.modEp_calStore (s : State) (e : Fin 64) (f : Endpoint → Endpoint) : (s.modEp e f).calStore = s.calStore := rfl
@[simp] theorem State.modEp_pending (s : State) (e : Fin 64) (f : Endpoint → Endpoint) : (s.modEp e f).pending = s.pending := rfl

@[simp] theorem State.modXlk_now (s : State) (f : Xlk → Xlk) : (s.modXlk f).now = s.now := rfl
@[simp] theorem State.modXlk_pressBase (s : State) (f : Xlk → Xlk) : (s.modXlk f).pressBase = s.pressBase := rfl
@[simp] theorem State.modXlk_free (s : State) (f : Xlk → Xlk) : (s.modXlk f).free = s.free := rfl
@[simp] theorem State.modXlk_out (s : State) (f : Xlk → Xlk) : (s.modXlk f).out = s.out := rfl
@[simp] theorem State.modXlk_regs (s : State) (f : Xlk → Xlk) : (s.modXlk f).regs = s.regs := rfl
@[simp] theorem State.modXlk_dev (s : State) (f : Xlk → Xlk) : (s.modXlk f).dev = s.dev := rfl
@[simp] theorem State.modXlk_str (s : State) (f : Xlk → Xlk) : (s.modXlk f).str = s.str := rfl
@[simp] theorem State.modXlk_supRing (s : State) (f : Xlk → Xlk) : (s.modXlk f).supRing = s.supRing := rfl
@[simp] theorem State.modXlk_admRing (s : State) (f : Xlk → Xlk) : (s.modXlk f).admRing = s.admRing := rfl
@[simp] theorem State.modXlk_jobRings (s : State) (f : Xlk → Xlk) : (s.modXlk f).jobRings = s.jobRings := rfl
@[simp] theorem State.modXlk_jobs (s : State) (f : Xlk → Xlk) : (s.modXlk f).jobs = s.jobs := rfl
@[simp] theorem State.modXlk_cmp (s : State) (f : Xlk → Xlk) : (s.modXlk f).cmp = s.cmp := rfl
@[simp] theorem State.modXlk_clusters (s : State) (f : Xlk → Xlk) : (s.modXlk f).clusters = s.clusters := rfl
@[simp] theorem State.modXlk_cod (s : State) (f : Xlk → Xlk) : (s.modXlk f).cod = s.cod := rfl
@[simp] theorem State.modXlk_planes (s : State) (f : Xlk → Xlk) : (s.modXlk f).planes = s.planes := rfl
@[simp] theorem State.modXlk_nzm (s : State) (f : Xlk → Xlk) : (s.modXlk f).nzm = s.nzm := rfl
@[simp] theorem State.modXlk_pac (s : State) (f : Xlk → Xlk) : (s.modXlk f).pac = s.pac := rfl
@[simp] theorem State.modXlk_wav (s : State) (f : Xlk → Xlk) : (s.modXlk f).wav = s.wav := rfl
@[simp] theorem State.modXlk_log (s : State) (f : Xlk → Xlk) : (s.modXlk f).log = s.log := rfl
@[simp] theorem State.modXlk_sems (s : State) (f : Xlk → Xlk) : (s.modXlk f).sems = s.sems := rfl
@[simp] theorem State.modXlk_pci (s : State) (f : Xlk → Xlk) : (s.modXlk f).pci = s.pci := rfl
@[simp] theorem State.modXlk_mlk (s : State) (f : Xlk → Xlk) : (s.modXlk f).mlk = s.mlk := rfl
@[simp] theorem State.modXlk_ins (s : State) (f : Xlk → Xlk) : (s.modXlk f).ins = s.ins := rfl
@[simp] theorem State.modXlk_gov (s : State) (f : Xlk → Xlk) : (s.modXlk f).gov = s.gov := rfl
@[simp] theorem State.modXlk_ba (s : State) (f : Xlk → Xlk) : (s.modXlk f).ba = s.ba := rfl
@[simp] theorem State.modXlk_sd (s : State) (f : Xlk → Xlk) : (s.modXlk f).sd = s.sd := rfl
@[simp] theorem State.modXlk_stp (s : State) (f : Xlk → Xlk) : (s.modXlk f).stp = s.stp := rfl
@[simp] theorem State.modXlk_enc (s : State) (f : Xlk → Xlk) : (s.modXlk f).enc = s.enc := rfl
@[simp] theorem State.modXlk_pwr (s : State) (f : Xlk → Xlk) : (s.modXlk f).pwr = s.pwr := rfl
@[simp] theorem State.modXlk_mem (s : State) (f : Xlk → Xlk) : (s.modXlk f).mem = s.mem := rfl
@[simp] theorem State.modXlk_dma (s : State) (f : Xlk → Xlk) : (s.modXlk f).dma = s.dma := rfl
@[simp] theorem State.modXlk_xlk (s : State) (f : Xlk → Xlk) : (s.modXlk f).xlk = f s.xlk := rfl
@[simp] theorem State.modXlk_sec (s : State) (f : Xlk → Xlk) : (s.modXlk f).sec = s.sec := rfl
@[simp] theorem State.modXlk_met (s : State) (f : Xlk → Xlk) : (s.modXlk f).met = s.met := rfl
@[simp] theorem State.modXlk_cal (s : State) (f : Xlk → Xlk) : (s.modXlk f).cal = s.cal := rfl
@[simp] theorem State.modXlk_fw (s : State) (f : Xlk → Xlk) : (s.modXlk f).fw = s.fw := rfl
@[simp] theorem State.modXlk_lsi (s : State) (f : Xlk → Xlk) : (s.modXlk f).lsi = s.lsi := rfl
@[simp] theorem State.modXlk_otp (s : State) (f : Xlk → Xlk) : (s.modXlk f).otp = s.otp := rfl
@[simp] theorem State.modXlk_calStore (s : State) (f : Xlk → Xlk) : (s.modXlk f).calStore = s.calStore := rfl
@[simp] theorem State.modXlk_pending (s : State) (f : Xlk → Xlk) : (s.modXlk f).pending = s.pending := rfl

@[simp] theorem State.modPort_now (s : State) (n : Fin 32) (f : Port → Port) : (s.modPort n f).now = s.now := rfl
@[simp] theorem State.modPort_pressBase (s : State) (n : Fin 32) (f : Port → Port) : (s.modPort n f).pressBase = s.pressBase := rfl
@[simp] theorem State.modPort_free (s : State) (n : Fin 32) (f : Port → Port) : (s.modPort n f).free = s.free := rfl
@[simp] theorem State.modPort_out (s : State) (n : Fin 32) (f : Port → Port) : (s.modPort n f).out = s.out := rfl
@[simp] theorem State.modPort_regs (s : State) (n : Fin 32) (f : Port → Port) : (s.modPort n f).regs = s.regs := rfl
@[simp] theorem State.modPort_dev (s : State) (n : Fin 32) (f : Port → Port) : (s.modPort n f).dev = s.dev := rfl
@[simp] theorem State.modPort_str (s : State) (n : Fin 32) (f : Port → Port) : (s.modPort n f).str = s.str := rfl
@[simp] theorem State.modPort_supRing (s : State) (n : Fin 32) (f : Port → Port) : (s.modPort n f).supRing = s.supRing := rfl
@[simp] theorem State.modPort_admRing (s : State) (n : Fin 32) (f : Port → Port) : (s.modPort n f).admRing = s.admRing := rfl
@[simp] theorem State.modPort_jobRings (s : State) (n : Fin 32) (f : Port → Port) : (s.modPort n f).jobRings = s.jobRings := rfl
@[simp] theorem State.modPort_jobs (s : State) (n : Fin 32) (f : Port → Port) : (s.modPort n f).jobs = s.jobs := rfl
@[simp] theorem State.modPort_cmp (s : State) (n : Fin 32) (f : Port → Port) : (s.modPort n f).cmp = s.cmp := rfl
@[simp] theorem State.modPort_clusters (s : State) (n : Fin 32) (f : Port → Port) : (s.modPort n f).clusters = s.clusters := rfl
@[simp] theorem State.modPort_cod (s : State) (n : Fin 32) (f : Port → Port) : (s.modPort n f).cod = s.cod := rfl
@[simp] theorem State.modPort_planes (s : State) (n : Fin 32) (f : Port → Port) : (s.modPort n f).planes = s.planes := rfl
@[simp] theorem State.modPort_nzm (s : State) (n : Fin 32) (f : Port → Port) : (s.modPort n f).nzm = s.nzm := rfl
@[simp] theorem State.modPort_pac (s : State) (n : Fin 32) (f : Port → Port) : (s.modPort n f).pac = s.pac := rfl
@[simp] theorem State.modPort_wav (s : State) (n : Fin 32) (f : Port → Port) : (s.modPort n f).wav = s.wav := rfl
@[simp] theorem State.modPort_log (s : State) (n : Fin 32) (f : Port → Port) : (s.modPort n f).log = s.log := rfl
@[simp] theorem State.modPort_sems (s : State) (n : Fin 32) (f : Port → Port) : (s.modPort n f).sems = s.sems := rfl
@[simp] theorem State.modPort_pci (s : State) (n : Fin 32) (f : Port → Port) : (s.modPort n f).pci = s.pci := rfl
@[simp] theorem State.modPort_mlk (s : State) (n : Fin 32) (f : Port → Port) : (s.modPort n f).mlk = s.mlk := rfl
@[simp] theorem State.modPort_ins (s : State) (n : Fin 32) (f : Port → Port) : (s.modPort n f).ins = s.ins := rfl
@[simp] theorem State.modPort_gov (s : State) (n : Fin 32) (f : Port → Port) : (s.modPort n f).gov = s.gov := rfl
@[simp] theorem State.modPort_ba (s : State) (n : Fin 32) (f : Port → Port) : (s.modPort n f).ba = s.ba := rfl
@[simp] theorem State.modPort_sd (s : State) (n : Fin 32) (f : Port → Port) : (s.modPort n f).sd = s.sd := rfl
@[simp] theorem State.modPort_stp (s : State) (n : Fin 32) (f : Port → Port) : (s.modPort n f).stp = s.stp := rfl
@[simp] theorem State.modPort_enc (s : State) (n : Fin 32) (f : Port → Port) : (s.modPort n f).enc = s.enc := rfl
@[simp] theorem State.modPort_pwr (s : State) (n : Fin 32) (f : Port → Port) : (s.modPort n f).pwr = s.pwr := rfl
@[simp] theorem State.modPort_mem (s : State) (n : Fin 32) (f : Port → Port) : (s.modPort n f).mem = s.mem := rfl
@[simp] theorem State.modPort_dma (s : State) (n : Fin 32) (f : Port → Port) : (s.modPort n f).dma = s.dma := rfl
@[simp] theorem State.modPort_sec (s : State) (n : Fin 32) (f : Port → Port) : (s.modPort n f).sec = s.sec := rfl
@[simp] theorem State.modPort_met (s : State) (n : Fin 32) (f : Port → Port) : (s.modPort n f).met = s.met := rfl
@[simp] theorem State.modPort_cal (s : State) (n : Fin 32) (f : Port → Port) : (s.modPort n f).cal = s.cal := rfl
@[simp] theorem State.modPort_fw (s : State) (n : Fin 32) (f : Port → Port) : (s.modPort n f).fw = s.fw := rfl
@[simp] theorem State.modPort_lsi (s : State) (n : Fin 32) (f : Port → Port) : (s.modPort n f).lsi = s.lsi := rfl
@[simp] theorem State.modPort_otp (s : State) (n : Fin 32) (f : Port → Port) : (s.modPort n f).otp = s.otp := rfl
@[simp] theorem State.modPort_calStore (s : State) (n : Fin 32) (f : Port → Port) : (s.modPort n f).calStore = s.calStore := rfl
@[simp] theorem State.modPort_pending (s : State) (n : Fin 32) (f : Port → Port) : (s.modPort n f).pending = s.pending := rfl

@[simp] theorem State.modLsi_now (s : State) (f : Lsi → Lsi) : (s.modLsi f).now = s.now := rfl
@[simp] theorem State.modLsi_pressBase (s : State) (f : Lsi → Lsi) : (s.modLsi f).pressBase = s.pressBase := rfl
@[simp] theorem State.modLsi_free (s : State) (f : Lsi → Lsi) : (s.modLsi f).free = s.free := rfl
@[simp] theorem State.modLsi_out (s : State) (f : Lsi → Lsi) : (s.modLsi f).out = s.out := rfl
@[simp] theorem State.modLsi_regs (s : State) (f : Lsi → Lsi) : (s.modLsi f).regs = s.regs := rfl
@[simp] theorem State.modLsi_dev (s : State) (f : Lsi → Lsi) : (s.modLsi f).dev = s.dev := rfl
@[simp] theorem State.modLsi_str (s : State) (f : Lsi → Lsi) : (s.modLsi f).str = s.str := rfl
@[simp] theorem State.modLsi_supRing (s : State) (f : Lsi → Lsi) : (s.modLsi f).supRing = s.supRing := rfl
@[simp] theorem State.modLsi_admRing (s : State) (f : Lsi → Lsi) : (s.modLsi f).admRing = s.admRing := rfl
@[simp] theorem State.modLsi_jobRings (s : State) (f : Lsi → Lsi) : (s.modLsi f).jobRings = s.jobRings := rfl
@[simp] theorem State.modLsi_jobs (s : State) (f : Lsi → Lsi) : (s.modLsi f).jobs = s.jobs := rfl
@[simp] theorem State.modLsi_cmp (s : State) (f : Lsi → Lsi) : (s.modLsi f).cmp = s.cmp := rfl
@[simp] theorem State.modLsi_clusters (s : State) (f : Lsi → Lsi) : (s.modLsi f).clusters = s.clusters := rfl
@[simp] theorem State.modLsi_cod (s : State) (f : Lsi → Lsi) : (s.modLsi f).cod = s.cod := rfl
@[simp] theorem State.modLsi_planes (s : State) (f : Lsi → Lsi) : (s.modLsi f).planes = s.planes := rfl
@[simp] theorem State.modLsi_nzm (s : State) (f : Lsi → Lsi) : (s.modLsi f).nzm = s.nzm := rfl
@[simp] theorem State.modLsi_pac (s : State) (f : Lsi → Lsi) : (s.modLsi f).pac = s.pac := rfl
@[simp] theorem State.modLsi_wav (s : State) (f : Lsi → Lsi) : (s.modLsi f).wav = s.wav := rfl
@[simp] theorem State.modLsi_log (s : State) (f : Lsi → Lsi) : (s.modLsi f).log = s.log := rfl
@[simp] theorem State.modLsi_sems (s : State) (f : Lsi → Lsi) : (s.modLsi f).sems = s.sems := rfl
@[simp] theorem State.modLsi_pci (s : State) (f : Lsi → Lsi) : (s.modLsi f).pci = s.pci := rfl
@[simp] theorem State.modLsi_mlk (s : State) (f : Lsi → Lsi) : (s.modLsi f).mlk = s.mlk := rfl
@[simp] theorem State.modLsi_ins (s : State) (f : Lsi → Lsi) : (s.modLsi f).ins = s.ins := rfl
@[simp] theorem State.modLsi_gov (s : State) (f : Lsi → Lsi) : (s.modLsi f).gov = s.gov := rfl
@[simp] theorem State.modLsi_ba (s : State) (f : Lsi → Lsi) : (s.modLsi f).ba = s.ba := rfl
@[simp] theorem State.modLsi_sd (s : State) (f : Lsi → Lsi) : (s.modLsi f).sd = s.sd := rfl
@[simp] theorem State.modLsi_stp (s : State) (f : Lsi → Lsi) : (s.modLsi f).stp = s.stp := rfl
@[simp] theorem State.modLsi_enc (s : State) (f : Lsi → Lsi) : (s.modLsi f).enc = s.enc := rfl
@[simp] theorem State.modLsi_pwr (s : State) (f : Lsi → Lsi) : (s.modLsi f).pwr = s.pwr := rfl
@[simp] theorem State.modLsi_mem (s : State) (f : Lsi → Lsi) : (s.modLsi f).mem = s.mem := rfl
@[simp] theorem State.modLsi_dma (s : State) (f : Lsi → Lsi) : (s.modLsi f).dma = s.dma := rfl
@[simp] theorem State.modLsi_xlk (s : State) (f : Lsi → Lsi) : (s.modLsi f).xlk = s.xlk := rfl
@[simp] theorem State.modLsi_sec (s : State) (f : Lsi → Lsi) : (s.modLsi f).sec = s.sec := rfl
@[simp] theorem State.modLsi_met (s : State) (f : Lsi → Lsi) : (s.modLsi f).met = s.met := rfl
@[simp] theorem State.modLsi_cal (s : State) (f : Lsi → Lsi) : (s.modLsi f).cal = s.cal := rfl
@[simp] theorem State.modLsi_fw (s : State) (f : Lsi → Lsi) : (s.modLsi f).fw = s.fw := rfl
@[simp] theorem State.modLsi_lsi (s : State) (f : Lsi → Lsi) : (s.modLsi f).lsi = f s.lsi := rfl
@[simp] theorem State.modLsi_otp (s : State) (f : Lsi → Lsi) : (s.modLsi f).otp = s.otp := rfl
@[simp] theorem State.modLsi_calStore (s : State) (f : Lsi → Lsi) : (s.modLsi f).calStore = s.calStore := rfl
@[simp] theorem State.modLsi_pending (s : State) (f : Lsi → Lsi) : (s.modLsi f).pending = s.pending := rfl

@[simp] theorem State.modFw_now (s : State) (f : Upd → Upd) : (s.modFw f).now = s.now := rfl
@[simp] theorem State.modFw_pressBase (s : State) (f : Upd → Upd) : (s.modFw f).pressBase = s.pressBase := rfl
@[simp] theorem State.modFw_free (s : State) (f : Upd → Upd) : (s.modFw f).free = s.free := rfl
@[simp] theorem State.modFw_out (s : State) (f : Upd → Upd) : (s.modFw f).out = s.out := rfl
@[simp] theorem State.modFw_regs (s : State) (f : Upd → Upd) : (s.modFw f).regs = s.regs := rfl
@[simp] theorem State.modFw_dev (s : State) (f : Upd → Upd) : (s.modFw f).dev = s.dev := rfl
@[simp] theorem State.modFw_str (s : State) (f : Upd → Upd) : (s.modFw f).str = s.str := rfl
@[simp] theorem State.modFw_supRing (s : State) (f : Upd → Upd) : (s.modFw f).supRing = s.supRing := rfl
@[simp] theorem State.modFw_admRing (s : State) (f : Upd → Upd) : (s.modFw f).admRing = s.admRing := rfl
@[simp] theorem State.modFw_jobRings (s : State) (f : Upd → Upd) : (s.modFw f).jobRings = s.jobRings := rfl
@[simp] theorem State.modFw_jobs (s : State) (f : Upd → Upd) : (s.modFw f).jobs = s.jobs := rfl
@[simp] theorem State.modFw_cmp (s : State) (f : Upd → Upd) : (s.modFw f).cmp = s.cmp := rfl
@[simp] theorem State.modFw_clusters (s : State) (f : Upd → Upd) : (s.modFw f).clusters = s.clusters := rfl
@[simp] theorem State.modFw_cod (s : State) (f : Upd → Upd) : (s.modFw f).cod = s.cod := rfl
@[simp] theorem State.modFw_planes (s : State) (f : Upd → Upd) : (s.modFw f).planes = s.planes := rfl
@[simp] theorem State.modFw_nzm (s : State) (f : Upd → Upd) : (s.modFw f).nzm = s.nzm := rfl
@[simp] theorem State.modFw_pac (s : State) (f : Upd → Upd) : (s.modFw f).pac = s.pac := rfl
@[simp] theorem State.modFw_wav (s : State) (f : Upd → Upd) : (s.modFw f).wav = s.wav := rfl
@[simp] theorem State.modFw_log (s : State) (f : Upd → Upd) : (s.modFw f).log = s.log := rfl
@[simp] theorem State.modFw_sems (s : State) (f : Upd → Upd) : (s.modFw f).sems = s.sems := rfl
@[simp] theorem State.modFw_pci (s : State) (f : Upd → Upd) : (s.modFw f).pci = s.pci := rfl
@[simp] theorem State.modFw_mlk (s : State) (f : Upd → Upd) : (s.modFw f).mlk = s.mlk := rfl
@[simp] theorem State.modFw_ins (s : State) (f : Upd → Upd) : (s.modFw f).ins = s.ins := rfl
@[simp] theorem State.modFw_gov (s : State) (f : Upd → Upd) : (s.modFw f).gov = s.gov := rfl
@[simp] theorem State.modFw_ba (s : State) (f : Upd → Upd) : (s.modFw f).ba = s.ba := rfl
@[simp] theorem State.modFw_sd (s : State) (f : Upd → Upd) : (s.modFw f).sd = s.sd := rfl
@[simp] theorem State.modFw_stp (s : State) (f : Upd → Upd) : (s.modFw f).stp = s.stp := rfl
@[simp] theorem State.modFw_enc (s : State) (f : Upd → Upd) : (s.modFw f).enc = s.enc := rfl
@[simp] theorem State.modFw_pwr (s : State) (f : Upd → Upd) : (s.modFw f).pwr = s.pwr := rfl
@[simp] theorem State.modFw_mem (s : State) (f : Upd → Upd) : (s.modFw f).mem = s.mem := rfl
@[simp] theorem State.modFw_dma (s : State) (f : Upd → Upd) : (s.modFw f).dma = s.dma := rfl
@[simp] theorem State.modFw_xlk (s : State) (f : Upd → Upd) : (s.modFw f).xlk = s.xlk := rfl
@[simp] theorem State.modFw_sec (s : State) (f : Upd → Upd) : (s.modFw f).sec = s.sec := rfl
@[simp] theorem State.modFw_met (s : State) (f : Upd → Upd) : (s.modFw f).met = s.met := rfl
@[simp] theorem State.modFw_cal (s : State) (f : Upd → Upd) : (s.modFw f).cal = s.cal := rfl
@[simp] theorem State.modFw_fw (s : State) (f : Upd → Upd) : (s.modFw f).fw = f s.fw := rfl
@[simp] theorem State.modFw_lsi (s : State) (f : Upd → Upd) : (s.modFw f).lsi = s.lsi := rfl
@[simp] theorem State.modFw_otp (s : State) (f : Upd → Upd) : (s.modFw f).otp = s.otp := rfl
@[simp] theorem State.modFw_calStore (s : State) (f : Upd → Upd) : (s.modFw f).calStore = s.calStore := rfl
@[simp] theorem State.modFw_pending (s : State) (f : Upd → Upd) : (s.modFw f).pending = s.pending := rfl

@[simp] theorem State.modPwr_now (s : State) (f : Pwr → Pwr) : (s.modPwr f).now = s.now := rfl
@[simp] theorem State.modPwr_pressBase (s : State) (f : Pwr → Pwr) : (s.modPwr f).pressBase = s.pressBase := rfl
@[simp] theorem State.modPwr_free (s : State) (f : Pwr → Pwr) : (s.modPwr f).free = s.free := rfl
@[simp] theorem State.modPwr_out (s : State) (f : Pwr → Pwr) : (s.modPwr f).out = s.out := rfl
@[simp] theorem State.modPwr_regs (s : State) (f : Pwr → Pwr) : (s.modPwr f).regs = s.regs := rfl
@[simp] theorem State.modPwr_dev (s : State) (f : Pwr → Pwr) : (s.modPwr f).dev = s.dev := rfl
@[simp] theorem State.modPwr_str (s : State) (f : Pwr → Pwr) : (s.modPwr f).str = s.str := rfl
@[simp] theorem State.modPwr_supRing (s : State) (f : Pwr → Pwr) : (s.modPwr f).supRing = s.supRing := rfl
@[simp] theorem State.modPwr_admRing (s : State) (f : Pwr → Pwr) : (s.modPwr f).admRing = s.admRing := rfl
@[simp] theorem State.modPwr_jobRings (s : State) (f : Pwr → Pwr) : (s.modPwr f).jobRings = s.jobRings := rfl
@[simp] theorem State.modPwr_jobs (s : State) (f : Pwr → Pwr) : (s.modPwr f).jobs = s.jobs := rfl
@[simp] theorem State.modPwr_cmp (s : State) (f : Pwr → Pwr) : (s.modPwr f).cmp = s.cmp := rfl
@[simp] theorem State.modPwr_clusters (s : State) (f : Pwr → Pwr) : (s.modPwr f).clusters = s.clusters := rfl
@[simp] theorem State.modPwr_cod (s : State) (f : Pwr → Pwr) : (s.modPwr f).cod = s.cod := rfl
@[simp] theorem State.modPwr_planes (s : State) (f : Pwr → Pwr) : (s.modPwr f).planes = s.planes := rfl
@[simp] theorem State.modPwr_nzm (s : State) (f : Pwr → Pwr) : (s.modPwr f).nzm = s.nzm := rfl
@[simp] theorem State.modPwr_pac (s : State) (f : Pwr → Pwr) : (s.modPwr f).pac = s.pac := rfl
@[simp] theorem State.modPwr_wav (s : State) (f : Pwr → Pwr) : (s.modPwr f).wav = s.wav := rfl
@[simp] theorem State.modPwr_log (s : State) (f : Pwr → Pwr) : (s.modPwr f).log = s.log := rfl
@[simp] theorem State.modPwr_sems (s : State) (f : Pwr → Pwr) : (s.modPwr f).sems = s.sems := rfl
@[simp] theorem State.modPwr_pci (s : State) (f : Pwr → Pwr) : (s.modPwr f).pci = s.pci := rfl
@[simp] theorem State.modPwr_mlk (s : State) (f : Pwr → Pwr) : (s.modPwr f).mlk = s.mlk := rfl
@[simp] theorem State.modPwr_ins (s : State) (f : Pwr → Pwr) : (s.modPwr f).ins = s.ins := rfl
@[simp] theorem State.modPwr_gov (s : State) (f : Pwr → Pwr) : (s.modPwr f).gov = s.gov := rfl
@[simp] theorem State.modPwr_ba (s : State) (f : Pwr → Pwr) : (s.modPwr f).ba = s.ba := rfl
@[simp] theorem State.modPwr_sd (s : State) (f : Pwr → Pwr) : (s.modPwr f).sd = s.sd := rfl
@[simp] theorem State.modPwr_stp (s : State) (f : Pwr → Pwr) : (s.modPwr f).stp = s.stp := rfl
@[simp] theorem State.modPwr_enc (s : State) (f : Pwr → Pwr) : (s.modPwr f).enc = s.enc := rfl
@[simp] theorem State.modPwr_pwr (s : State) (f : Pwr → Pwr) : (s.modPwr f).pwr = f s.pwr := rfl
@[simp] theorem State.modPwr_mem (s : State) (f : Pwr → Pwr) : (s.modPwr f).mem = s.mem := rfl
@[simp] theorem State.modPwr_dma (s : State) (f : Pwr → Pwr) : (s.modPwr f).dma = s.dma := rfl
@[simp] theorem State.modPwr_xlk (s : State) (f : Pwr → Pwr) : (s.modPwr f).xlk = s.xlk := rfl
@[simp] theorem State.modPwr_sec (s : State) (f : Pwr → Pwr) : (s.modPwr f).sec = s.sec := rfl
@[simp] theorem State.modPwr_met (s : State) (f : Pwr → Pwr) : (s.modPwr f).met = s.met := rfl
@[simp] theorem State.modPwr_cal (s : State) (f : Pwr → Pwr) : (s.modPwr f).cal = s.cal := rfl
@[simp] theorem State.modPwr_fw (s : State) (f : Pwr → Pwr) : (s.modPwr f).fw = s.fw := rfl
@[simp] theorem State.modPwr_lsi (s : State) (f : Pwr → Pwr) : (s.modPwr f).lsi = s.lsi := rfl
@[simp] theorem State.modPwr_otp (s : State) (f : Pwr → Pwr) : (s.modPwr f).otp = s.otp := rfl
@[simp] theorem State.modPwr_calStore (s : State) (f : Pwr → Pwr) : (s.modPwr f).calStore = s.calStore := rfl
@[simp] theorem State.modPwr_pending (s : State) (f : Pwr → Pwr) : (s.modPwr f).pending = s.pending := rfl

@[simp] theorem State.modCluster_now (s : State) (n : Fin 16) (f : Cluster → Cluster) : (s.modCluster n f).now = s.now := rfl
@[simp] theorem State.modCluster_pressBase (s : State) (n : Fin 16) (f : Cluster → Cluster) : (s.modCluster n f).pressBase = s.pressBase := rfl
@[simp] theorem State.modCluster_free (s : State) (n : Fin 16) (f : Cluster → Cluster) : (s.modCluster n f).free = s.free := rfl
@[simp] theorem State.modCluster_out (s : State) (n : Fin 16) (f : Cluster → Cluster) : (s.modCluster n f).out = s.out := rfl
@[simp] theorem State.modCluster_regs (s : State) (n : Fin 16) (f : Cluster → Cluster) : (s.modCluster n f).regs = s.regs := rfl
@[simp] theorem State.modCluster_dev (s : State) (n : Fin 16) (f : Cluster → Cluster) : (s.modCluster n f).dev = s.dev := rfl
@[simp] theorem State.modCluster_str (s : State) (n : Fin 16) (f : Cluster → Cluster) : (s.modCluster n f).str = s.str := rfl
@[simp] theorem State.modCluster_supRing (s : State) (n : Fin 16) (f : Cluster → Cluster) : (s.modCluster n f).supRing = s.supRing := rfl
@[simp] theorem State.modCluster_admRing (s : State) (n : Fin 16) (f : Cluster → Cluster) : (s.modCluster n f).admRing = s.admRing := rfl
@[simp] theorem State.modCluster_jobRings (s : State) (n : Fin 16) (f : Cluster → Cluster) : (s.modCluster n f).jobRings = s.jobRings := rfl
@[simp] theorem State.modCluster_jobs (s : State) (n : Fin 16) (f : Cluster → Cluster) : (s.modCluster n f).jobs = s.jobs := rfl
@[simp] theorem State.modCluster_cmp (s : State) (n : Fin 16) (f : Cluster → Cluster) : (s.modCluster n f).cmp = s.cmp := rfl
@[simp] theorem State.modCluster_clusters (s : State) (n : Fin 16) (f : Cluster → Cluster) : (s.modCluster n f).clusters = upd s.clusters n f := rfl
@[simp] theorem State.modCluster_cod (s : State) (n : Fin 16) (f : Cluster → Cluster) : (s.modCluster n f).cod = s.cod := rfl
@[simp] theorem State.modCluster_planes (s : State) (n : Fin 16) (f : Cluster → Cluster) : (s.modCluster n f).planes = s.planes := rfl
@[simp] theorem State.modCluster_nzm (s : State) (n : Fin 16) (f : Cluster → Cluster) : (s.modCluster n f).nzm = s.nzm := rfl
@[simp] theorem State.modCluster_pac (s : State) (n : Fin 16) (f : Cluster → Cluster) : (s.modCluster n f).pac = s.pac := rfl
@[simp] theorem State.modCluster_wav (s : State) (n : Fin 16) (f : Cluster → Cluster) : (s.modCluster n f).wav = s.wav := rfl
@[simp] theorem State.modCluster_log (s : State) (n : Fin 16) (f : Cluster → Cluster) : (s.modCluster n f).log = s.log := rfl
@[simp] theorem State.modCluster_sems (s : State) (n : Fin 16) (f : Cluster → Cluster) : (s.modCluster n f).sems = s.sems := rfl
@[simp] theorem State.modCluster_pci (s : State) (n : Fin 16) (f : Cluster → Cluster) : (s.modCluster n f).pci = s.pci := rfl
@[simp] theorem State.modCluster_mlk (s : State) (n : Fin 16) (f : Cluster → Cluster) : (s.modCluster n f).mlk = s.mlk := rfl
@[simp] theorem State.modCluster_ins (s : State) (n : Fin 16) (f : Cluster → Cluster) : (s.modCluster n f).ins = s.ins := rfl
@[simp] theorem State.modCluster_gov (s : State) (n : Fin 16) (f : Cluster → Cluster) : (s.modCluster n f).gov = s.gov := rfl
@[simp] theorem State.modCluster_ba (s : State) (n : Fin 16) (f : Cluster → Cluster) : (s.modCluster n f).ba = s.ba := rfl
@[simp] theorem State.modCluster_sd (s : State) (n : Fin 16) (f : Cluster → Cluster) : (s.modCluster n f).sd = s.sd := rfl
@[simp] theorem State.modCluster_stp (s : State) (n : Fin 16) (f : Cluster → Cluster) : (s.modCluster n f).stp = s.stp := rfl
@[simp] theorem State.modCluster_enc (s : State) (n : Fin 16) (f : Cluster → Cluster) : (s.modCluster n f).enc = s.enc := rfl
@[simp] theorem State.modCluster_pwr (s : State) (n : Fin 16) (f : Cluster → Cluster) : (s.modCluster n f).pwr = s.pwr := rfl
@[simp] theorem State.modCluster_mem (s : State) (n : Fin 16) (f : Cluster → Cluster) : (s.modCluster n f).mem = s.mem := rfl
@[simp] theorem State.modCluster_dma (s : State) (n : Fin 16) (f : Cluster → Cluster) : (s.modCluster n f).dma = s.dma := rfl
@[simp] theorem State.modCluster_xlk (s : State) (n : Fin 16) (f : Cluster → Cluster) : (s.modCluster n f).xlk = s.xlk := rfl
@[simp] theorem State.modCluster_sec (s : State) (n : Fin 16) (f : Cluster → Cluster) : (s.modCluster n f).sec = s.sec := rfl
@[simp] theorem State.modCluster_met (s : State) (n : Fin 16) (f : Cluster → Cluster) : (s.modCluster n f).met = s.met := rfl
@[simp] theorem State.modCluster_cal (s : State) (n : Fin 16) (f : Cluster → Cluster) : (s.modCluster n f).cal = s.cal := rfl
@[simp] theorem State.modCluster_fw (s : State) (n : Fin 16) (f : Cluster → Cluster) : (s.modCluster n f).fw = s.fw := rfl
@[simp] theorem State.modCluster_lsi (s : State) (n : Fin 16) (f : Cluster → Cluster) : (s.modCluster n f).lsi = s.lsi := rfl
@[simp] theorem State.modCluster_otp (s : State) (n : Fin 16) (f : Cluster → Cluster) : (s.modCluster n f).otp = s.otp := rfl
@[simp] theorem State.modCluster_calStore (s : State) (n : Fin 16) (f : Cluster → Cluster) : (s.modCluster n f).calStore = s.calStore := rfl
@[simp] theorem State.modCluster_pending (s : State) (n : Fin 16) (f : Cluster → Cluster) : (s.modCluster n f).pending = s.pending := rfl

@[simp] theorem State.modGov_now (s : State) (f : Gov → Gov) : (s.modGov f).now = s.now := rfl
@[simp] theorem State.modGov_pressBase (s : State) (f : Gov → Gov) : (s.modGov f).pressBase = s.pressBase := rfl
@[simp] theorem State.modGov_free (s : State) (f : Gov → Gov) : (s.modGov f).free = s.free := rfl
@[simp] theorem State.modGov_out (s : State) (f : Gov → Gov) : (s.modGov f).out = s.out := rfl
@[simp] theorem State.modGov_regs (s : State) (f : Gov → Gov) : (s.modGov f).regs = s.regs := rfl
@[simp] theorem State.modGov_dev (s : State) (f : Gov → Gov) : (s.modGov f).dev = s.dev := rfl
@[simp] theorem State.modGov_str (s : State) (f : Gov → Gov) : (s.modGov f).str = s.str := rfl
@[simp] theorem State.modGov_supRing (s : State) (f : Gov → Gov) : (s.modGov f).supRing = s.supRing := rfl
@[simp] theorem State.modGov_admRing (s : State) (f : Gov → Gov) : (s.modGov f).admRing = s.admRing := rfl
@[simp] theorem State.modGov_jobRings (s : State) (f : Gov → Gov) : (s.modGov f).jobRings = s.jobRings := rfl
@[simp] theorem State.modGov_jobs (s : State) (f : Gov → Gov) : (s.modGov f).jobs = s.jobs := rfl
@[simp] theorem State.modGov_cmp (s : State) (f : Gov → Gov) : (s.modGov f).cmp = s.cmp := rfl
@[simp] theorem State.modGov_clusters (s : State) (f : Gov → Gov) : (s.modGov f).clusters = s.clusters := rfl
@[simp] theorem State.modGov_cod (s : State) (f : Gov → Gov) : (s.modGov f).cod = s.cod := rfl
@[simp] theorem State.modGov_planes (s : State) (f : Gov → Gov) : (s.modGov f).planes = s.planes := rfl
@[simp] theorem State.modGov_nzm (s : State) (f : Gov → Gov) : (s.modGov f).nzm = s.nzm := rfl
@[simp] theorem State.modGov_pac (s : State) (f : Gov → Gov) : (s.modGov f).pac = s.pac := rfl
@[simp] theorem State.modGov_wav (s : State) (f : Gov → Gov) : (s.modGov f).wav = s.wav := rfl
@[simp] theorem State.modGov_log (s : State) (f : Gov → Gov) : (s.modGov f).log = s.log := rfl
@[simp] theorem State.modGov_sems (s : State) (f : Gov → Gov) : (s.modGov f).sems = s.sems := rfl
@[simp] theorem State.modGov_pci (s : State) (f : Gov → Gov) : (s.modGov f).pci = s.pci := rfl
@[simp] theorem State.modGov_mlk (s : State) (f : Gov → Gov) : (s.modGov f).mlk = s.mlk := rfl
@[simp] theorem State.modGov_ins (s : State) (f : Gov → Gov) : (s.modGov f).ins = s.ins := rfl
@[simp] theorem State.modGov_gov (s : State) (f : Gov → Gov) : (s.modGov f).gov = f s.gov := rfl
@[simp] theorem State.modGov_ba (s : State) (f : Gov → Gov) : (s.modGov f).ba = s.ba := rfl
@[simp] theorem State.modGov_sd (s : State) (f : Gov → Gov) : (s.modGov f).sd = s.sd := rfl
@[simp] theorem State.modGov_stp (s : State) (f : Gov → Gov) : (s.modGov f).stp = s.stp := rfl
@[simp] theorem State.modGov_enc (s : State) (f : Gov → Gov) : (s.modGov f).enc = s.enc := rfl
@[simp] theorem State.modGov_pwr (s : State) (f : Gov → Gov) : (s.modGov f).pwr = s.pwr := rfl
@[simp] theorem State.modGov_mem (s : State) (f : Gov → Gov) : (s.modGov f).mem = s.mem := rfl
@[simp] theorem State.modGov_dma (s : State) (f : Gov → Gov) : (s.modGov f).dma = s.dma := rfl
@[simp] theorem State.modGov_xlk (s : State) (f : Gov → Gov) : (s.modGov f).xlk = s.xlk := rfl
@[simp] theorem State.modGov_sec (s : State) (f : Gov → Gov) : (s.modGov f).sec = s.sec := rfl
@[simp] theorem State.modGov_met (s : State) (f : Gov → Gov) : (s.modGov f).met = s.met := rfl
@[simp] theorem State.modGov_cal (s : State) (f : Gov → Gov) : (s.modGov f).cal = s.cal := rfl
@[simp] theorem State.modGov_fw (s : State) (f : Gov → Gov) : (s.modGov f).fw = s.fw := rfl
@[simp] theorem State.modGov_lsi (s : State) (f : Gov → Gov) : (s.modGov f).lsi = s.lsi := rfl
@[simp] theorem State.modGov_otp (s : State) (f : Gov → Gov) : (s.modGov f).otp = s.otp := rfl
@[simp] theorem State.modGov_calStore (s : State) (f : Gov → Gov) : (s.modGov f).calStore = s.calStore := rfl
@[simp] theorem State.modGov_pending (s : State) (f : Gov → Gov) : (s.modGov f).pending = s.pending := rfl

@[simp] theorem State.modDma_now (s : State) (n : Fin 32) (f : Dma → Dma) : (s.modDma n f).now = s.now := rfl
@[simp] theorem State.modDma_pressBase (s : State) (n : Fin 32) (f : Dma → Dma) : (s.modDma n f).pressBase = s.pressBase := rfl
@[simp] theorem State.modDma_free (s : State) (n : Fin 32) (f : Dma → Dma) : (s.modDma n f).free = s.free := rfl
@[simp] theorem State.modDma_out (s : State) (n : Fin 32) (f : Dma → Dma) : (s.modDma n f).out = s.out := rfl
@[simp] theorem State.modDma_regs (s : State) (n : Fin 32) (f : Dma → Dma) : (s.modDma n f).regs = s.regs := rfl
@[simp] theorem State.modDma_dev (s : State) (n : Fin 32) (f : Dma → Dma) : (s.modDma n f).dev = s.dev := rfl
@[simp] theorem State.modDma_str (s : State) (n : Fin 32) (f : Dma → Dma) : (s.modDma n f).str = s.str := rfl
@[simp] theorem State.modDma_supRing (s : State) (n : Fin 32) (f : Dma → Dma) : (s.modDma n f).supRing = s.supRing := rfl
@[simp] theorem State.modDma_admRing (s : State) (n : Fin 32) (f : Dma → Dma) : (s.modDma n f).admRing = s.admRing := rfl
@[simp] theorem State.modDma_jobRings (s : State) (n : Fin 32) (f : Dma → Dma) : (s.modDma n f).jobRings = s.jobRings := rfl
@[simp] theorem State.modDma_jobs (s : State) (n : Fin 32) (f : Dma → Dma) : (s.modDma n f).jobs = s.jobs := rfl
@[simp] theorem State.modDma_cmp (s : State) (n : Fin 32) (f : Dma → Dma) : (s.modDma n f).cmp = s.cmp := rfl
@[simp] theorem State.modDma_clusters (s : State) (n : Fin 32) (f : Dma → Dma) : (s.modDma n f).clusters = s.clusters := rfl
@[simp] theorem State.modDma_cod (s : State) (n : Fin 32) (f : Dma → Dma) : (s.modDma n f).cod = s.cod := rfl
@[simp] theorem State.modDma_planes (s : State) (n : Fin 32) (f : Dma → Dma) : (s.modDma n f).planes = s.planes := rfl
@[simp] theorem State.modDma_nzm (s : State) (n : Fin 32) (f : Dma → Dma) : (s.modDma n f).nzm = s.nzm := rfl
@[simp] theorem State.modDma_pac (s : State) (n : Fin 32) (f : Dma → Dma) : (s.modDma n f).pac = s.pac := rfl
@[simp] theorem State.modDma_wav (s : State) (n : Fin 32) (f : Dma → Dma) : (s.modDma n f).wav = s.wav := rfl
@[simp] theorem State.modDma_log (s : State) (n : Fin 32) (f : Dma → Dma) : (s.modDma n f).log = s.log := rfl
@[simp] theorem State.modDma_sems (s : State) (n : Fin 32) (f : Dma → Dma) : (s.modDma n f).sems = s.sems := rfl
@[simp] theorem State.modDma_pci (s : State) (n : Fin 32) (f : Dma → Dma) : (s.modDma n f).pci = s.pci := rfl
@[simp] theorem State.modDma_mlk (s : State) (n : Fin 32) (f : Dma → Dma) : (s.modDma n f).mlk = s.mlk := rfl
@[simp] theorem State.modDma_ins (s : State) (n : Fin 32) (f : Dma → Dma) : (s.modDma n f).ins = s.ins := rfl
@[simp] theorem State.modDma_gov (s : State) (n : Fin 32) (f : Dma → Dma) : (s.modDma n f).gov = s.gov := rfl
@[simp] theorem State.modDma_ba (s : State) (n : Fin 32) (f : Dma → Dma) : (s.modDma n f).ba = s.ba := rfl
@[simp] theorem State.modDma_sd (s : State) (n : Fin 32) (f : Dma → Dma) : (s.modDma n f).sd = s.sd := rfl
@[simp] theorem State.modDma_stp (s : State) (n : Fin 32) (f : Dma → Dma) : (s.modDma n f).stp = s.stp := rfl
@[simp] theorem State.modDma_enc (s : State) (n : Fin 32) (f : Dma → Dma) : (s.modDma n f).enc = s.enc := rfl
@[simp] theorem State.modDma_pwr (s : State) (n : Fin 32) (f : Dma → Dma) : (s.modDma n f).pwr = s.pwr := rfl
@[simp] theorem State.modDma_mem (s : State) (n : Fin 32) (f : Dma → Dma) : (s.modDma n f).mem = s.mem := rfl
@[simp] theorem State.modDma_dma (s : State) (n : Fin 32) (f : Dma → Dma) : (s.modDma n f).dma = upd s.dma n f := rfl
@[simp] theorem State.modDma_xlk (s : State) (n : Fin 32) (f : Dma → Dma) : (s.modDma n f).xlk = s.xlk := rfl
@[simp] theorem State.modDma_sec (s : State) (n : Fin 32) (f : Dma → Dma) : (s.modDma n f).sec = s.sec := rfl
@[simp] theorem State.modDma_met (s : State) (n : Fin 32) (f : Dma → Dma) : (s.modDma n f).met = s.met := rfl
@[simp] theorem State.modDma_cal (s : State) (n : Fin 32) (f : Dma → Dma) : (s.modDma n f).cal = s.cal := rfl
@[simp] theorem State.modDma_fw (s : State) (n : Fin 32) (f : Dma → Dma) : (s.modDma n f).fw = s.fw := rfl
@[simp] theorem State.modDma_lsi (s : State) (n : Fin 32) (f : Dma → Dma) : (s.modDma n f).lsi = s.lsi := rfl
@[simp] theorem State.modDma_otp (s : State) (n : Fin 32) (f : Dma → Dma) : (s.modDma n f).otp = s.otp := rfl
@[simp] theorem State.modDma_calStore (s : State) (n : Fin 32) (f : Dma → Dma) : (s.modDma n f).calStore = s.calStore := rfl
@[simp] theorem State.modDma_pending (s : State) (n : Fin 32) (f : Dma → Dma) : (s.modDma n f).pending = s.pending := rfl

@[simp] theorem State.modMet_now (s : State) (f : Met → Met) : (s.modMet f).now = s.now := rfl
@[simp] theorem State.modMet_pressBase (s : State) (f : Met → Met) : (s.modMet f).pressBase = s.pressBase := rfl
@[simp] theorem State.modMet_free (s : State) (f : Met → Met) : (s.modMet f).free = s.free := rfl
@[simp] theorem State.modMet_out (s : State) (f : Met → Met) : (s.modMet f).out = s.out := rfl
@[simp] theorem State.modMet_regs (s : State) (f : Met → Met) : (s.modMet f).regs = s.regs := rfl
@[simp] theorem State.modMet_dev (s : State) (f : Met → Met) : (s.modMet f).dev = s.dev := rfl
@[simp] theorem State.modMet_str (s : State) (f : Met → Met) : (s.modMet f).str = s.str := rfl
@[simp] theorem State.modMet_supRing (s : State) (f : Met → Met) : (s.modMet f).supRing = s.supRing := rfl
@[simp] theorem State.modMet_admRing (s : State) (f : Met → Met) : (s.modMet f).admRing = s.admRing := rfl
@[simp] theorem State.modMet_jobRings (s : State) (f : Met → Met) : (s.modMet f).jobRings = s.jobRings := rfl
@[simp] theorem State.modMet_jobs (s : State) (f : Met → Met) : (s.modMet f).jobs = s.jobs := rfl
@[simp] theorem State.modMet_cmp (s : State) (f : Met → Met) : (s.modMet f).cmp = s.cmp := rfl
@[simp] theorem State.modMet_clusters (s : State) (f : Met → Met) : (s.modMet f).clusters = s.clusters := rfl
@[simp] theorem State.modMet_cod (s : State) (f : Met → Met) : (s.modMet f).cod = s.cod := rfl
@[simp] theorem State.modMet_planes (s : State) (f : Met → Met) : (s.modMet f).planes = s.planes := rfl
@[simp] theorem State.modMet_nzm (s : State) (f : Met → Met) : (s.modMet f).nzm = s.nzm := rfl
@[simp] theorem State.modMet_pac (s : State) (f : Met → Met) : (s.modMet f).pac = s.pac := rfl
@[simp] theorem State.modMet_wav (s : State) (f : Met → Met) : (s.modMet f).wav = s.wav := rfl
@[simp] theorem State.modMet_log (s : State) (f : Met → Met) : (s.modMet f).log = s.log := rfl
@[simp] theorem State.modMet_sems (s : State) (f : Met → Met) : (s.modMet f).sems = s.sems := rfl
@[simp] theorem State.modMet_pci (s : State) (f : Met → Met) : (s.modMet f).pci = s.pci := rfl
@[simp] theorem State.modMet_mlk (s : State) (f : Met → Met) : (s.modMet f).mlk = s.mlk := rfl
@[simp] theorem State.modMet_ins (s : State) (f : Met → Met) : (s.modMet f).ins = s.ins := rfl
@[simp] theorem State.modMet_gov (s : State) (f : Met → Met) : (s.modMet f).gov = s.gov := rfl
@[simp] theorem State.modMet_ba (s : State) (f : Met → Met) : (s.modMet f).ba = s.ba := rfl
@[simp] theorem State.modMet_sd (s : State) (f : Met → Met) : (s.modMet f).sd = s.sd := rfl
@[simp] theorem State.modMet_stp (s : State) (f : Met → Met) : (s.modMet f).stp = s.stp := rfl
@[simp] theorem State.modMet_enc (s : State) (f : Met → Met) : (s.modMet f).enc = s.enc := rfl
@[simp] theorem State.modMet_pwr (s : State) (f : Met → Met) : (s.modMet f).pwr = s.pwr := rfl
@[simp] theorem State.modMet_mem (s : State) (f : Met → Met) : (s.modMet f).mem = s.mem := rfl
@[simp] theorem State.modMet_dma (s : State) (f : Met → Met) : (s.modMet f).dma = s.dma := rfl
@[simp] theorem State.modMet_xlk (s : State) (f : Met → Met) : (s.modMet f).xlk = s.xlk := rfl
@[simp] theorem State.modMet_sec (s : State) (f : Met → Met) : (s.modMet f).sec = s.sec := rfl
@[simp] theorem State.modMet_met (s : State) (f : Met → Met) : (s.modMet f).met = f s.met := rfl
@[simp] theorem State.modMet_cal (s : State) (f : Met → Met) : (s.modMet f).cal = s.cal := rfl
@[simp] theorem State.modMet_fw (s : State) (f : Met → Met) : (s.modMet f).fw = s.fw := rfl
@[simp] theorem State.modMet_lsi (s : State) (f : Met → Met) : (s.modMet f).lsi = s.lsi := rfl
@[simp] theorem State.modMet_otp (s : State) (f : Met → Met) : (s.modMet f).otp = s.otp := rfl
@[simp] theorem State.modMet_calStore (s : State) (f : Met → Met) : (s.modMet f).calStore = s.calStore := rfl
@[simp] theorem State.modMet_pending (s : State) (f : Met → Met) : (s.modMet f).pending = s.pending := rfl

@[simp] theorem State.modStr_now (s : State) (f : StrSt → StrSt) : (s.modStr f).now = s.now := rfl
@[simp] theorem State.modStr_pressBase (s : State) (f : StrSt → StrSt) : (s.modStr f).pressBase = s.pressBase := rfl
@[simp] theorem State.modStr_free (s : State) (f : StrSt → StrSt) : (s.modStr f).free = s.free := rfl
@[simp] theorem State.modStr_out (s : State) (f : StrSt → StrSt) : (s.modStr f).out = s.out := rfl
@[simp] theorem State.modStr_regs (s : State) (f : StrSt → StrSt) : (s.modStr f).regs = s.regs := rfl
@[simp] theorem State.modStr_dev (s : State) (f : StrSt → StrSt) : (s.modStr f).dev = s.dev := rfl
@[simp] theorem State.modStr_str (s : State) (f : StrSt → StrSt) : (s.modStr f).str = f s.str := rfl
@[simp] theorem State.modStr_supRing (s : State) (f : StrSt → StrSt) : (s.modStr f).supRing = s.supRing := rfl
@[simp] theorem State.modStr_admRing (s : State) (f : StrSt → StrSt) : (s.modStr f).admRing = s.admRing := rfl
@[simp] theorem State.modStr_jobRings (s : State) (f : StrSt → StrSt) : (s.modStr f).jobRings = s.jobRings := rfl
@[simp] theorem State.modStr_jobs (s : State) (f : StrSt → StrSt) : (s.modStr f).jobs = s.jobs := rfl
@[simp] theorem State.modStr_cmp (s : State) (f : StrSt → StrSt) : (s.modStr f).cmp = s.cmp := rfl
@[simp] theorem State.modStr_clusters (s : State) (f : StrSt → StrSt) : (s.modStr f).clusters = s.clusters := rfl
@[simp] theorem State.modStr_cod (s : State) (f : StrSt → StrSt) : (s.modStr f).cod = s.cod := rfl
@[simp] theorem State.modStr_planes (s : State) (f : StrSt → StrSt) : (s.modStr f).planes = s.planes := rfl
@[simp] theorem State.modStr_nzm (s : State) (f : StrSt → StrSt) : (s.modStr f).nzm = s.nzm := rfl
@[simp] theorem State.modStr_pac (s : State) (f : StrSt → StrSt) : (s.modStr f).pac = s.pac := rfl
@[simp] theorem State.modStr_wav (s : State) (f : StrSt → StrSt) : (s.modStr f).wav = s.wav := rfl
@[simp] theorem State.modStr_log (s : State) (f : StrSt → StrSt) : (s.modStr f).log = s.log := rfl
@[simp] theorem State.modStr_sems (s : State) (f : StrSt → StrSt) : (s.modStr f).sems = s.sems := rfl
@[simp] theorem State.modStr_pci (s : State) (f : StrSt → StrSt) : (s.modStr f).pci = s.pci := rfl
@[simp] theorem State.modStr_mlk (s : State) (f : StrSt → StrSt) : (s.modStr f).mlk = s.mlk := rfl
@[simp] theorem State.modStr_ins (s : State) (f : StrSt → StrSt) : (s.modStr f).ins = s.ins := rfl
@[simp] theorem State.modStr_gov (s : State) (f : StrSt → StrSt) : (s.modStr f).gov = s.gov := rfl
@[simp] theorem State.modStr_ba (s : State) (f : StrSt → StrSt) : (s.modStr f).ba = s.ba := rfl
@[simp] theorem State.modStr_sd (s : State) (f : StrSt → StrSt) : (s.modStr f).sd = s.sd := rfl
@[simp] theorem State.modStr_stp (s : State) (f : StrSt → StrSt) : (s.modStr f).stp = s.stp := rfl
@[simp] theorem State.modStr_enc (s : State) (f : StrSt → StrSt) : (s.modStr f).enc = s.enc := rfl
@[simp] theorem State.modStr_pwr (s : State) (f : StrSt → StrSt) : (s.modStr f).pwr = s.pwr := rfl
@[simp] theorem State.modStr_mem (s : State) (f : StrSt → StrSt) : (s.modStr f).mem = s.mem := rfl
@[simp] theorem State.modStr_dma (s : State) (f : StrSt → StrSt) : (s.modStr f).dma = s.dma := rfl
@[simp] theorem State.modStr_xlk (s : State) (f : StrSt → StrSt) : (s.modStr f).xlk = s.xlk := rfl
@[simp] theorem State.modStr_sec (s : State) (f : StrSt → StrSt) : (s.modStr f).sec = s.sec := rfl
@[simp] theorem State.modStr_met (s : State) (f : StrSt → StrSt) : (s.modStr f).met = s.met := rfl
@[simp] theorem State.modStr_cal (s : State) (f : StrSt → StrSt) : (s.modStr f).cal = s.cal := rfl
@[simp] theorem State.modStr_fw (s : State) (f : StrSt → StrSt) : (s.modStr f).fw = s.fw := rfl
@[simp] theorem State.modStr_lsi (s : State) (f : StrSt → StrSt) : (s.modStr f).lsi = s.lsi := rfl
@[simp] theorem State.modStr_otp (s : State) (f : StrSt → StrSt) : (s.modStr f).otp = s.otp := rfl
@[simp] theorem State.modStr_calStore (s : State) (f : StrSt → StrSt) : (s.modStr f).calStore = s.calStore := rfl
@[simp] theorem State.modStr_pending (s : State) (f : StrSt → StrSt) : (s.modStr f).pending = s.pending := rfl

@[simp] theorem State.modBa_now (s : State) (n : Fin 8) (f : Ba → Ba) : (s.modBa n f).now = s.now := rfl
@[simp] theorem State.modBa_pressBase (s : State) (n : Fin 8) (f : Ba → Ba) : (s.modBa n f).pressBase = s.pressBase := rfl
@[simp] theorem State.modBa_free (s : State) (n : Fin 8) (f : Ba → Ba) : (s.modBa n f).free = s.free := rfl
@[simp] theorem State.modBa_out (s : State) (n : Fin 8) (f : Ba → Ba) : (s.modBa n f).out = s.out := rfl
@[simp] theorem State.modBa_regs (s : State) (n : Fin 8) (f : Ba → Ba) : (s.modBa n f).regs = s.regs := rfl
@[simp] theorem State.modBa_dev (s : State) (n : Fin 8) (f : Ba → Ba) : (s.modBa n f).dev = s.dev := rfl
@[simp] theorem State.modBa_str (s : State) (n : Fin 8) (f : Ba → Ba) : (s.modBa n f).str = s.str := rfl
@[simp] theorem State.modBa_supRing (s : State) (n : Fin 8) (f : Ba → Ba) : (s.modBa n f).supRing = s.supRing := rfl
@[simp] theorem State.modBa_admRing (s : State) (n : Fin 8) (f : Ba → Ba) : (s.modBa n f).admRing = s.admRing := rfl
@[simp] theorem State.modBa_jobRings (s : State) (n : Fin 8) (f : Ba → Ba) : (s.modBa n f).jobRings = s.jobRings := rfl
@[simp] theorem State.modBa_jobs (s : State) (n : Fin 8) (f : Ba → Ba) : (s.modBa n f).jobs = s.jobs := rfl
@[simp] theorem State.modBa_cmp (s : State) (n : Fin 8) (f : Ba → Ba) : (s.modBa n f).cmp = s.cmp := rfl
@[simp] theorem State.modBa_clusters (s : State) (n : Fin 8) (f : Ba → Ba) : (s.modBa n f).clusters = s.clusters := rfl
@[simp] theorem State.modBa_cod (s : State) (n : Fin 8) (f : Ba → Ba) : (s.modBa n f).cod = s.cod := rfl
@[simp] theorem State.modBa_planes (s : State) (n : Fin 8) (f : Ba → Ba) : (s.modBa n f).planes = s.planes := rfl
@[simp] theorem State.modBa_nzm (s : State) (n : Fin 8) (f : Ba → Ba) : (s.modBa n f).nzm = s.nzm := rfl
@[simp] theorem State.modBa_pac (s : State) (n : Fin 8) (f : Ba → Ba) : (s.modBa n f).pac = s.pac := rfl
@[simp] theorem State.modBa_wav (s : State) (n : Fin 8) (f : Ba → Ba) : (s.modBa n f).wav = s.wav := rfl
@[simp] theorem State.modBa_log (s : State) (n : Fin 8) (f : Ba → Ba) : (s.modBa n f).log = s.log := rfl
@[simp] theorem State.modBa_sems (s : State) (n : Fin 8) (f : Ba → Ba) : (s.modBa n f).sems = s.sems := rfl
@[simp] theorem State.modBa_pci (s : State) (n : Fin 8) (f : Ba → Ba) : (s.modBa n f).pci = s.pci := rfl
@[simp] theorem State.modBa_mlk (s : State) (n : Fin 8) (f : Ba → Ba) : (s.modBa n f).mlk = s.mlk := rfl
@[simp] theorem State.modBa_ins (s : State) (n : Fin 8) (f : Ba → Ba) : (s.modBa n f).ins = s.ins := rfl
@[simp] theorem State.modBa_gov (s : State) (n : Fin 8) (f : Ba → Ba) : (s.modBa n f).gov = s.gov := rfl
@[simp] theorem State.modBa_ba (s : State) (n : Fin 8) (f : Ba → Ba) : (s.modBa n f).ba = upd s.ba n f := rfl
@[simp] theorem State.modBa_sd (s : State) (n : Fin 8) (f : Ba → Ba) : (s.modBa n f).sd = s.sd := rfl
@[simp] theorem State.modBa_stp (s : State) (n : Fin 8) (f : Ba → Ba) : (s.modBa n f).stp = s.stp := rfl
@[simp] theorem State.modBa_enc (s : State) (n : Fin 8) (f : Ba → Ba) : (s.modBa n f).enc = s.enc := rfl
@[simp] theorem State.modBa_pwr (s : State) (n : Fin 8) (f : Ba → Ba) : (s.modBa n f).pwr = s.pwr := rfl
@[simp] theorem State.modBa_mem (s : State) (n : Fin 8) (f : Ba → Ba) : (s.modBa n f).mem = s.mem := rfl
@[simp] theorem State.modBa_dma (s : State) (n : Fin 8) (f : Ba → Ba) : (s.modBa n f).dma = s.dma := rfl
@[simp] theorem State.modBa_xlk (s : State) (n : Fin 8) (f : Ba → Ba) : (s.modBa n f).xlk = s.xlk := rfl
@[simp] theorem State.modBa_sec (s : State) (n : Fin 8) (f : Ba → Ba) : (s.modBa n f).sec = s.sec := rfl
@[simp] theorem State.modBa_met (s : State) (n : Fin 8) (f : Ba → Ba) : (s.modBa n f).met = s.met := rfl
@[simp] theorem State.modBa_cal (s : State) (n : Fin 8) (f : Ba → Ba) : (s.modBa n f).cal = s.cal := rfl
@[simp] theorem State.modBa_fw (s : State) (n : Fin 8) (f : Ba → Ba) : (s.modBa n f).fw = s.fw := rfl
@[simp] theorem State.modBa_lsi (s : State) (n : Fin 8) (f : Ba → Ba) : (s.modBa n f).lsi = s.lsi := rfl
@[simp] theorem State.modBa_otp (s : State) (n : Fin 8) (f : Ba → Ba) : (s.modBa n f).otp = s.otp := rfl
@[simp] theorem State.modBa_calStore (s : State) (n : Fin 8) (f : Ba → Ba) : (s.modBa n f).calStore = s.calStore := rfl
@[simp] theorem State.modBa_pending (s : State) (n : Fin 8) (f : Ba → Ba) : (s.modBa n f).pending = s.pending := rfl

@[simp] theorem State.modStp_now (s : State) (n : Fin 16) (f : Stp → Stp) : (s.modStp n f).now = s.now := rfl
@[simp] theorem State.modStp_pressBase (s : State) (n : Fin 16) (f : Stp → Stp) : (s.modStp n f).pressBase = s.pressBase := rfl
@[simp] theorem State.modStp_free (s : State) (n : Fin 16) (f : Stp → Stp) : (s.modStp n f).free = s.free := rfl
@[simp] theorem State.modStp_out (s : State) (n : Fin 16) (f : Stp → Stp) : (s.modStp n f).out = s.out := rfl
@[simp] theorem State.modStp_regs (s : State) (n : Fin 16) (f : Stp → Stp) : (s.modStp n f).regs = s.regs := rfl
@[simp] theorem State.modStp_dev (s : State) (n : Fin 16) (f : Stp → Stp) : (s.modStp n f).dev = s.dev := rfl
@[simp] theorem State.modStp_str (s : State) (n : Fin 16) (f : Stp → Stp) : (s.modStp n f).str = s.str := rfl
@[simp] theorem State.modStp_supRing (s : State) (n : Fin 16) (f : Stp → Stp) : (s.modStp n f).supRing = s.supRing := rfl
@[simp] theorem State.modStp_admRing (s : State) (n : Fin 16) (f : Stp → Stp) : (s.modStp n f).admRing = s.admRing := rfl
@[simp] theorem State.modStp_jobRings (s : State) (n : Fin 16) (f : Stp → Stp) : (s.modStp n f).jobRings = s.jobRings := rfl
@[simp] theorem State.modStp_jobs (s : State) (n : Fin 16) (f : Stp → Stp) : (s.modStp n f).jobs = s.jobs := rfl
@[simp] theorem State.modStp_cmp (s : State) (n : Fin 16) (f : Stp → Stp) : (s.modStp n f).cmp = s.cmp := rfl
@[simp] theorem State.modStp_clusters (s : State) (n : Fin 16) (f : Stp → Stp) : (s.modStp n f).clusters = s.clusters := rfl
@[simp] theorem State.modStp_cod (s : State) (n : Fin 16) (f : Stp → Stp) : (s.modStp n f).cod = s.cod := rfl
@[simp] theorem State.modStp_planes (s : State) (n : Fin 16) (f : Stp → Stp) : (s.modStp n f).planes = s.planes := rfl
@[simp] theorem State.modStp_nzm (s : State) (n : Fin 16) (f : Stp → Stp) : (s.modStp n f).nzm = s.nzm := rfl
@[simp] theorem State.modStp_pac (s : State) (n : Fin 16) (f : Stp → Stp) : (s.modStp n f).pac = s.pac := rfl
@[simp] theorem State.modStp_wav (s : State) (n : Fin 16) (f : Stp → Stp) : (s.modStp n f).wav = s.wav := rfl
@[simp] theorem State.modStp_log (s : State) (n : Fin 16) (f : Stp → Stp) : (s.modStp n f).log = s.log := rfl
@[simp] theorem State.modStp_sems (s : State) (n : Fin 16) (f : Stp → Stp) : (s.modStp n f).sems = s.sems := rfl
@[simp] theorem State.modStp_pci (s : State) (n : Fin 16) (f : Stp → Stp) : (s.modStp n f).pci = s.pci := rfl
@[simp] theorem State.modStp_mlk (s : State) (n : Fin 16) (f : Stp → Stp) : (s.modStp n f).mlk = s.mlk := rfl
@[simp] theorem State.modStp_ins (s : State) (n : Fin 16) (f : Stp → Stp) : (s.modStp n f).ins = s.ins := rfl
@[simp] theorem State.modStp_gov (s : State) (n : Fin 16) (f : Stp → Stp) : (s.modStp n f).gov = s.gov := rfl
@[simp] theorem State.modStp_ba (s : State) (n : Fin 16) (f : Stp → Stp) : (s.modStp n f).ba = s.ba := rfl
@[simp] theorem State.modStp_sd (s : State) (n : Fin 16) (f : Stp → Stp) : (s.modStp n f).sd = s.sd := rfl
@[simp] theorem State.modStp_stp (s : State) (n : Fin 16) (f : Stp → Stp) : (s.modStp n f).stp = upd s.stp n f := rfl
@[simp] theorem State.modStp_enc (s : State) (n : Fin 16) (f : Stp → Stp) : (s.modStp n f).enc = s.enc := rfl
@[simp] theorem State.modStp_pwr (s : State) (n : Fin 16) (f : Stp → Stp) : (s.modStp n f).pwr = s.pwr := rfl
@[simp] theorem State.modStp_mem (s : State) (n : Fin 16) (f : Stp → Stp) : (s.modStp n f).mem = s.mem := rfl
@[simp] theorem State.modStp_dma (s : State) (n : Fin 16) (f : Stp → Stp) : (s.modStp n f).dma = s.dma := rfl
@[simp] theorem State.modStp_xlk (s : State) (n : Fin 16) (f : Stp → Stp) : (s.modStp n f).xlk = s.xlk := rfl
@[simp] theorem State.modStp_sec (s : State) (n : Fin 16) (f : Stp → Stp) : (s.modStp n f).sec = s.sec := rfl
@[simp] theorem State.modStp_met (s : State) (n : Fin 16) (f : Stp → Stp) : (s.modStp n f).met = s.met := rfl
@[simp] theorem State.modStp_cal (s : State) (n : Fin 16) (f : Stp → Stp) : (s.modStp n f).cal = s.cal := rfl
@[simp] theorem State.modStp_fw (s : State) (n : Fin 16) (f : Stp → Stp) : (s.modStp n f).fw = s.fw := rfl
@[simp] theorem State.modStp_lsi (s : State) (n : Fin 16) (f : Stp → Stp) : (s.modStp n f).lsi = s.lsi := rfl
@[simp] theorem State.modStp_otp (s : State) (n : Fin 16) (f : Stp → Stp) : (s.modStp n f).otp = s.otp := rfl
@[simp] theorem State.modStp_calStore (s : State) (n : Fin 16) (f : Stp → Stp) : (s.modStp n f).calStore = s.calStore := rfl
@[simp] theorem State.modStp_pending (s : State) (n : Fin 16) (f : Stp → Stp) : (s.modStp n f).pending = s.pending := rfl

@[simp] theorem State.modEnc_now (s : State) (n : Fin 16) (f : Enc → Enc) : (s.modEnc n f).now = s.now := rfl
@[simp] theorem State.modEnc_pressBase (s : State) (n : Fin 16) (f : Enc → Enc) : (s.modEnc n f).pressBase = s.pressBase := rfl
@[simp] theorem State.modEnc_free (s : State) (n : Fin 16) (f : Enc → Enc) : (s.modEnc n f).free = s.free := rfl
@[simp] theorem State.modEnc_out (s : State) (n : Fin 16) (f : Enc → Enc) : (s.modEnc n f).out = s.out := rfl
@[simp] theorem State.modEnc_regs (s : State) (n : Fin 16) (f : Enc → Enc) : (s.modEnc n f).regs = s.regs := rfl
@[simp] theorem State.modEnc_dev (s : State) (n : Fin 16) (f : Enc → Enc) : (s.modEnc n f).dev = s.dev := rfl
@[simp] theorem State.modEnc_str (s : State) (n : Fin 16) (f : Enc → Enc) : (s.modEnc n f).str = s.str := rfl
@[simp] theorem State.modEnc_supRing (s : State) (n : Fin 16) (f : Enc → Enc) : (s.modEnc n f).supRing = s.supRing := rfl
@[simp] theorem State.modEnc_admRing (s : State) (n : Fin 16) (f : Enc → Enc) : (s.modEnc n f).admRing = s.admRing := rfl
@[simp] theorem State.modEnc_jobRings (s : State) (n : Fin 16) (f : Enc → Enc) : (s.modEnc n f).jobRings = s.jobRings := rfl
@[simp] theorem State.modEnc_jobs (s : State) (n : Fin 16) (f : Enc → Enc) : (s.modEnc n f).jobs = s.jobs := rfl
@[simp] theorem State.modEnc_cmp (s : State) (n : Fin 16) (f : Enc → Enc) : (s.modEnc n f).cmp = s.cmp := rfl
@[simp] theorem State.modEnc_clusters (s : State) (n : Fin 16) (f : Enc → Enc) : (s.modEnc n f).clusters = s.clusters := rfl
@[simp] theorem State.modEnc_cod (s : State) (n : Fin 16) (f : Enc → Enc) : (s.modEnc n f).cod = s.cod := rfl
@[simp] theorem State.modEnc_planes (s : State) (n : Fin 16) (f : Enc → Enc) : (s.modEnc n f).planes = s.planes := rfl
@[simp] theorem State.modEnc_nzm (s : State) (n : Fin 16) (f : Enc → Enc) : (s.modEnc n f).nzm = s.nzm := rfl
@[simp] theorem State.modEnc_pac (s : State) (n : Fin 16) (f : Enc → Enc) : (s.modEnc n f).pac = s.pac := rfl
@[simp] theorem State.modEnc_wav (s : State) (n : Fin 16) (f : Enc → Enc) : (s.modEnc n f).wav = s.wav := rfl
@[simp] theorem State.modEnc_log (s : State) (n : Fin 16) (f : Enc → Enc) : (s.modEnc n f).log = s.log := rfl
@[simp] theorem State.modEnc_sems (s : State) (n : Fin 16) (f : Enc → Enc) : (s.modEnc n f).sems = s.sems := rfl
@[simp] theorem State.modEnc_pci (s : State) (n : Fin 16) (f : Enc → Enc) : (s.modEnc n f).pci = s.pci := rfl
@[simp] theorem State.modEnc_mlk (s : State) (n : Fin 16) (f : Enc → Enc) : (s.modEnc n f).mlk = s.mlk := rfl
@[simp] theorem State.modEnc_ins (s : State) (n : Fin 16) (f : Enc → Enc) : (s.modEnc n f).ins = s.ins := rfl
@[simp] theorem State.modEnc_gov (s : State) (n : Fin 16) (f : Enc → Enc) : (s.modEnc n f).gov = s.gov := rfl
@[simp] theorem State.modEnc_ba (s : State) (n : Fin 16) (f : Enc → Enc) : (s.modEnc n f).ba = s.ba := rfl
@[simp] theorem State.modEnc_sd (s : State) (n : Fin 16) (f : Enc → Enc) : (s.modEnc n f).sd = s.sd := rfl
@[simp] theorem State.modEnc_stp (s : State) (n : Fin 16) (f : Enc → Enc) : (s.modEnc n f).stp = s.stp := rfl
@[simp] theorem State.modEnc_enc (s : State) (n : Fin 16) (f : Enc → Enc) : (s.modEnc n f).enc = upd s.enc n f := rfl
@[simp] theorem State.modEnc_pwr (s : State) (n : Fin 16) (f : Enc → Enc) : (s.modEnc n f).pwr = s.pwr := rfl
@[simp] theorem State.modEnc_mem (s : State) (n : Fin 16) (f : Enc → Enc) : (s.modEnc n f).mem = s.mem := rfl
@[simp] theorem State.modEnc_dma (s : State) (n : Fin 16) (f : Enc → Enc) : (s.modEnc n f).dma = s.dma := rfl
@[simp] theorem State.modEnc_xlk (s : State) (n : Fin 16) (f : Enc → Enc) : (s.modEnc n f).xlk = s.xlk := rfl
@[simp] theorem State.modEnc_sec (s : State) (n : Fin 16) (f : Enc → Enc) : (s.modEnc n f).sec = s.sec := rfl
@[simp] theorem State.modEnc_met (s : State) (n : Fin 16) (f : Enc → Enc) : (s.modEnc n f).met = s.met := rfl
@[simp] theorem State.modEnc_cal (s : State) (n : Fin 16) (f : Enc → Enc) : (s.modEnc n f).cal = s.cal := rfl
@[simp] theorem State.modEnc_fw (s : State) (n : Fin 16) (f : Enc → Enc) : (s.modEnc n f).fw = s.fw := rfl
@[simp] theorem State.modEnc_lsi (s : State) (n : Fin 16) (f : Enc → Enc) : (s.modEnc n f).lsi = s.lsi := rfl
@[simp] theorem State.modEnc_otp (s : State) (n : Fin 16) (f : Enc → Enc) : (s.modEnc n f).otp = s.otp := rfl
@[simp] theorem State.modEnc_calStore (s : State) (n : Fin 16) (f : Enc → Enc) : (s.modEnc n f).calStore = s.calStore := rfl
@[simp] theorem State.modEnc_pending (s : State) (n : Fin 16) (f : Enc → Enc) : (s.modEnc n f).pending = s.pending := rfl

@[simp] theorem State.modNzm_now (s : State) (f : Nzm → Nzm) : (s.modNzm f).now = s.now := rfl
@[simp] theorem State.modNzm_pressBase (s : State) (f : Nzm → Nzm) : (s.modNzm f).pressBase = s.pressBase := rfl
@[simp] theorem State.modNzm_free (s : State) (f : Nzm → Nzm) : (s.modNzm f).free = s.free := rfl
@[simp] theorem State.modNzm_out (s : State) (f : Nzm → Nzm) : (s.modNzm f).out = s.out := rfl
@[simp] theorem State.modNzm_regs (s : State) (f : Nzm → Nzm) : (s.modNzm f).regs = s.regs := rfl
@[simp] theorem State.modNzm_dev (s : State) (f : Nzm → Nzm) : (s.modNzm f).dev = s.dev := rfl
@[simp] theorem State.modNzm_str (s : State) (f : Nzm → Nzm) : (s.modNzm f).str = s.str := rfl
@[simp] theorem State.modNzm_supRing (s : State) (f : Nzm → Nzm) : (s.modNzm f).supRing = s.supRing := rfl
@[simp] theorem State.modNzm_admRing (s : State) (f : Nzm → Nzm) : (s.modNzm f).admRing = s.admRing := rfl
@[simp] theorem State.modNzm_jobRings (s : State) (f : Nzm → Nzm) : (s.modNzm f).jobRings = s.jobRings := rfl
@[simp] theorem State.modNzm_jobs (s : State) (f : Nzm → Nzm) : (s.modNzm f).jobs = s.jobs := rfl
@[simp] theorem State.modNzm_cmp (s : State) (f : Nzm → Nzm) : (s.modNzm f).cmp = s.cmp := rfl
@[simp] theorem State.modNzm_clusters (s : State) (f : Nzm → Nzm) : (s.modNzm f).clusters = s.clusters := rfl
@[simp] theorem State.modNzm_cod (s : State) (f : Nzm → Nzm) : (s.modNzm f).cod = s.cod := rfl
@[simp] theorem State.modNzm_planes (s : State) (f : Nzm → Nzm) : (s.modNzm f).planes = s.planes := rfl
@[simp] theorem State.modNzm_nzm (s : State) (f : Nzm → Nzm) : (s.modNzm f).nzm = f s.nzm := rfl
@[simp] theorem State.modNzm_pac (s : State) (f : Nzm → Nzm) : (s.modNzm f).pac = s.pac := rfl
@[simp] theorem State.modNzm_wav (s : State) (f : Nzm → Nzm) : (s.modNzm f).wav = s.wav := rfl
@[simp] theorem State.modNzm_log (s : State) (f : Nzm → Nzm) : (s.modNzm f).log = s.log := rfl
@[simp] theorem State.modNzm_sems (s : State) (f : Nzm → Nzm) : (s.modNzm f).sems = s.sems := rfl
@[simp] theorem State.modNzm_pci (s : State) (f : Nzm → Nzm) : (s.modNzm f).pci = s.pci := rfl
@[simp] theorem State.modNzm_mlk (s : State) (f : Nzm → Nzm) : (s.modNzm f).mlk = s.mlk := rfl
@[simp] theorem State.modNzm_ins (s : State) (f : Nzm → Nzm) : (s.modNzm f).ins = s.ins := rfl
@[simp] theorem State.modNzm_gov (s : State) (f : Nzm → Nzm) : (s.modNzm f).gov = s.gov := rfl
@[simp] theorem State.modNzm_ba (s : State) (f : Nzm → Nzm) : (s.modNzm f).ba = s.ba := rfl
@[simp] theorem State.modNzm_sd (s : State) (f : Nzm → Nzm) : (s.modNzm f).sd = s.sd := rfl
@[simp] theorem State.modNzm_stp (s : State) (f : Nzm → Nzm) : (s.modNzm f).stp = s.stp := rfl
@[simp] theorem State.modNzm_enc (s : State) (f : Nzm → Nzm) : (s.modNzm f).enc = s.enc := rfl
@[simp] theorem State.modNzm_pwr (s : State) (f : Nzm → Nzm) : (s.modNzm f).pwr = s.pwr := rfl
@[simp] theorem State.modNzm_mem (s : State) (f : Nzm → Nzm) : (s.modNzm f).mem = s.mem := rfl
@[simp] theorem State.modNzm_dma (s : State) (f : Nzm → Nzm) : (s.modNzm f).dma = s.dma := rfl
@[simp] theorem State.modNzm_xlk (s : State) (f : Nzm → Nzm) : (s.modNzm f).xlk = s.xlk := rfl
@[simp] theorem State.modNzm_sec (s : State) (f : Nzm → Nzm) : (s.modNzm f).sec = s.sec := rfl
@[simp] theorem State.modNzm_met (s : State) (f : Nzm → Nzm) : (s.modNzm f).met = s.met := rfl
@[simp] theorem State.modNzm_cal (s : State) (f : Nzm → Nzm) : (s.modNzm f).cal = s.cal := rfl
@[simp] theorem State.modNzm_fw (s : State) (f : Nzm → Nzm) : (s.modNzm f).fw = s.fw := rfl
@[simp] theorem State.modNzm_lsi (s : State) (f : Nzm → Nzm) : (s.modNzm f).lsi = s.lsi := rfl
@[simp] theorem State.modNzm_otp (s : State) (f : Nzm → Nzm) : (s.modNzm f).otp = s.otp := rfl
@[simp] theorem State.modNzm_calStore (s : State) (f : Nzm → Nzm) : (s.modNzm f).calStore = s.calStore := rfl
@[simp] theorem State.modNzm_pending (s : State) (f : Nzm → Nzm) : (s.modNzm f).pending = s.pending := rfl

@[simp] theorem State.arrive_now (s : State) (t : Nat) : (s.arrive t).now = max s.now t := rfl
@[simp] theorem State.arrive_out (s : State) (t : Nat) : (s.arrive t).out = [] := rfl
@[simp] theorem State.emit_out (s : State) (o : Out) : (s.emit o).out = s.out ++ [o] := rfl

end Sys2Proof.Machine
end

