-- ==== Sys2Proof/Laws/Ops.lean ====
section
/-! SUPPORT. Laws of the shared operations: what `run`, `ringCmd`, `admitCmd`, `refuseOr`, `msix` and `complete` can do. -/

namespace Sys2Proof.Machine

/-! ## The form of a meaning -/

/-- A meaning of the common form always answers a next state. -/
theorem run_eq (t : Nat) (s : State) (f : State → State) :
    run t s f = .next { f (s.arrive t) with now := max s.now t, pending := s.pending } := rfl

/-- What a next state of the common form keeps: the queue, and time runs on to the command's instant. -/
theorem run_keeps {t : Nat} {s s' : State} {f : State → State} (h : run t s f = .next s') :
    s'.pending = s.pending ∧ s'.now = max s.now t := by
  rw [run_eq] at h
  injection h with h
  subst h
  exact ⟨rfl, rfl⟩

/-- The same of a meaning with a host error. -/
theorem runUnless_keeps {bad : State → Bool} {what : String} {t : Nat} {s s' : State} {f : State → State}
    (h : runUnless bad what t s f = .next s') : s'.pending = s.pending ∧ s'.now = max s.now t := by
  unfold runUnless at h
  split at h
  · cases h
  · exact run_keeps h

/-- The same of a ring command. -/
theorem ringCmd_keeps {t : Nat} {s s' : State} {f : State → State} (h : ringCmd t s f = .next s') :
    s'.pending = s.pending ∧ s'.now = max s.now t := run_keeps h

@[simp] theorem State.arrive_ringsRun (s : State) (t : Nat) : (s.arrive t).ringsRun = s.ringsRun := rfl
@[simp] theorem State.arrive_modeIn (s : State) (t : Nat) (l : List Mode) : (s.arrive t).modeIn l = s.modeIn l := rfl
@[simp] theorem State.arrive_rd (s : State) (t : Nat) (r : RegSpec) (i : Nat) : (s.arrive t).rd r i = s.rd r i := rfl
@[simp] theorem State.arrive_fld (s : State) (t : Nat) (r : RegSpec) (i hi lo : Nat) :
    (s.arrive t).fld r i hi lo = s.fld r i hi lo := rfl
@[simp] theorem State.arrive_ring (s : State) (t : Nat) (id : RingId) : (s.arrive t).ring id = s.ring id := by
  cases id <;> rfl

/-- A ring command where rings run has its effect. -/
theorem ringCmd_eq {t : Nat} {s : State} {f : State → State} (h : s.ringsRun = true) : ringCmd t s f = run t s f := by
  simp [ringCmd, run, h]

/-! ## Refusals -/

@[simp] theorem firstRefusal_nil : firstRefusal [] = .ok := rfl
@[simp] theorem firstRefusal_false (st : Status) (l : List (Bool × Status)) : firstRefusal ((false, st) :: l) = firstRefusal l := rfl
@[simp] theorem firstRefusal_true (st : Status) (l : List (Bool × Status)) : firstRefusal ((true, st) :: l) = st := rfl

/-- Without a refusal a write acts. -/
theorem refuseOr_ok {conds : List (Bool × Status)} (r : RegSpec) (i o : Nat) (f : State → State) (s : State)
    (h : firstRefusal conds = .ok) : refuseOr conds r i o f s = f s := by simp [refuseOr, h]

/-- With a refusal it is recorded, and nothing else happens. -/
theorem refuseOr_refused {conds : List (Bool × Status)} {st : Status} (r : RegSpec) (i o : Nat) (f : State → State) (s : State)
    (h : firstRefusal conds = st) (hs : st ≠ .ok) : refuseOr conds r i o f s = s.recordErr r i o st := by
  subst h
  unfold refuseOr
  split
  · contradiction
  · rfl

/-- Without a refusal a command acts. -/
theorem admitCmd_ok {conds : List (Bool × Status)} (id : RingId) (f : State → State) (s : State)
    (h : firstRefusal conds = .ok) : admitCmd id conds f s = f s := by simp [admitCmd, h]

/-- With a refusal it completes with the status, and nothing else happens. -/
theorem admitCmd_refused {conds : List (Bool × Status)} {st : Status} (id : RingId) (f : State → State) (s : State)
    (h : firstRefusal conds = st) (hs : st ≠ .ok) : admitCmd id conds f s = complete id st 0 s := by
  subst h
  unfold admitCmd
  split
  · contradiction
  · rfl

/-! ## Messages and completions -/

@[simp] theorem State.msix_now (s : State) (v : Nat) : (s.msix v).now = s.now := by unfold State.msix; split <;> rfl
@[simp] theorem State.msix_pressBase (s : State) (v : Nat) : (s.msix v).pressBase = s.pressBase := by unfold State.msix; split <;> rfl
@[simp] theorem State.msix_free (s : State) (v : Nat) : (s.msix v).free = s.free := by unfold State.msix; split <;> rfl
@[simp] theorem State.msix_regs (s : State) (v : Nat) : (s.msix v).regs = s.regs := by unfold State.msix; split <;> rfl
@[simp] theorem State.msix_dev (s : State) (v : Nat) : (s.msix v).dev = s.dev := by unfold State.msix; split <;> rfl
@[simp] theorem State.msix_str (s : State) (v : Nat) : (s.msix v).str = s.str := by unfold State.msix; split <;> rfl
@[simp] theorem State.msix_supRing (s : State) (v : Nat) : (s.msix v).supRing = s.supRing := by unfold State.msix; split <;> rfl
@[simp] theorem State.msix_admRing (s : State) (v : Nat) : (s.msix v).admRing = s.admRing := by unfold State.msix; split <;> rfl
@[simp] theorem State.msix_jobRings (s : State) (v : Nat) : (s.msix v).jobRings = s.jobRings := by unfold State.msix; split <;> rfl
@[simp] theorem State.msix_jobs (s : State) (v : Nat) : (s.msix v).jobs = s.jobs := by unfold State.msix; split <;> rfl
@[simp] theorem State.msix_cmp (s : State) (v : Nat) : (s.msix v).cmp = s.cmp := by unfold State.msix; split <;> rfl
@[simp] theorem State.msix_clusters (s : State) (v : Nat) : (s.msix v).clusters = s.clusters := by unfold State.msix; split <;> rfl
@[simp] theorem State.msix_cod (s : State) (v : Nat) : (s.msix v).cod = s.cod := by unfold State.msix; split <;> rfl
@[simp] theorem State.msix_planes (s : State) (v : Nat) : (s.msix v).planes = s.planes := by unfold State.msix; split <;> rfl
@[simp] theorem State.msix_nzm (s : State) (v : Nat) : (s.msix v).nzm = s.nzm := by unfold State.msix; split <;> rfl
@[simp] theorem State.msix_pac (s : State) (v : Nat) : (s.msix v).pac = s.pac := by unfold State.msix; split <;> rfl
@[simp] theorem State.msix_wav (s : State) (v : Nat) : (s.msix v).wav = s.wav := by unfold State.msix; split <;> rfl
@[simp] theorem State.msix_log (s : State) (v : Nat) : (s.msix v).log = s.log := by unfold State.msix; split <;> rfl
@[simp] theorem State.msix_sems (s : State) (v : Nat) : (s.msix v).sems = s.sems := by unfold State.msix; split <;> rfl
@[simp] theorem State.msix_mlk (s : State) (v : Nat) : (s.msix v).mlk = s.mlk := by unfold State.msix; split <;> rfl
@[simp] theorem State.msix_ins (s : State) (v : Nat) : (s.msix v).ins = s.ins := by unfold State.msix; split <;> rfl
@[simp] theorem State.msix_gov (s : State) (v : Nat) : (s.msix v).gov = s.gov := by unfold State.msix; split <;> rfl
@[simp] theorem State.msix_ba (s : State) (v : Nat) : (s.msix v).ba = s.ba := by unfold State.msix; split <;> rfl
@[simp] theorem State.msix_sd (s : State) (v : Nat) : (s.msix v).sd = s.sd := by unfold State.msix; split <;> rfl
@[simp] theorem State.msix_stp (s : State) (v : Nat) : (s.msix v).stp = s.stp := by unfold State.msix; split <;> rfl
@[simp] theorem State.msix_enc (s : State) (v : Nat) : (s.msix v).enc = s.enc := by unfold State.msix; split <;> rfl
@[simp] theorem State.msix_pwr (s : State) (v : Nat) : (s.msix v).pwr = s.pwr := by unfold State.msix; split <;> rfl
@[simp] theorem State.msix_mem (s : State) (v : Nat) : (s.msix v).mem = s.mem := by unfold State.msix; split <;> rfl
@[simp] theorem State.msix_dma (s : State) (v : Nat) : (s.msix v).dma = s.dma := by unfold State.msix; split <;> rfl
@[simp] theorem State.msix_xlk (s : State) (v : Nat) : (s.msix v).xlk = s.xlk := by unfold State.msix; split <;> rfl
@[simp] theorem State.msix_sec (s : State) (v : Nat) : (s.msix v).sec = s.sec := by unfold State.msix; split <;> rfl
@[simp] theorem State.msix_met (s : State) (v : Nat) : (s.msix v).met = s.met := by unfold State.msix; split <;> rfl
@[simp] theorem State.msix_cal (s : State) (v : Nat) : (s.msix v).cal = s.cal := by unfold State.msix; split <;> rfl
@[simp] theorem State.msix_fw (s : State) (v : Nat) : (s.msix v).fw = s.fw := by unfold State.msix; split <;> rfl
@[simp] theorem State.msix_lsi (s : State) (v : Nat) : (s.msix v).lsi = s.lsi := by unfold State.msix; split <;> rfl
@[simp] theorem State.msix_otp (s : State) (v : Nat) : (s.msix v).otp = s.otp := by unfold State.msix; split <;> rfl
@[simp] theorem State.msix_calStore (s : State) (v : Nat) : (s.msix v).calStore = s.calStore := by unfold State.msix; split <;> rfl
@[simp] theorem State.msix_pending (s : State) (v : Nat) : (s.msix v).pending = s.pending := by unfold State.msix; split <;> rfl

@[simp] theorem writeCompletion_now (id : RingId) (c : Completion) (s : State) : (writeCompletion id c s).now = s.now := by unfold writeCompletion; simp only []; split <;> simp
@[simp] theorem writeCompletion_pressBase (id : RingId) (c : Completion) (s : State) : (writeCompletion id c s).pressBase = s.pressBase := by unfold writeCompletion; simp only []; split <;> simp
@[simp] theorem writeCompletion_free (id : RingId) (c : Completion) (s : State) : (writeCompletion id c s).free = s.free := by unfold writeCompletion; simp only []; split <;> simp
@[simp] theorem writeCompletion_regs (id : RingId) (c : Completion) (s : State) : (writeCompletion id c s).regs = s.regs := by unfold writeCompletion; simp only []; split <;> simp
@[simp] theorem writeCompletion_dev (id : RingId) (c : Completion) (s : State) : (writeCompletion id c s).dev = s.dev := by unfold writeCompletion; simp only []; split <;> simp
@[simp] theorem writeCompletion_str (id : RingId) (c : Completion) (s : State) : (writeCompletion id c s).str = s.str := by unfold writeCompletion; simp only []; split <;> simp
@[simp] theorem writeCompletion_jobs (id : RingId) (c : Completion) (s : State) : (writeCompletion id c s).jobs = s.jobs := by unfold writeCompletion; simp only []; split <;> simp
@[simp] theorem writeCompletion_cmp (id : RingId) (c : Completion) (s : State) : (writeCompletion id c s).cmp = s.cmp := by unfold writeCompletion; simp only []; split <;> simp
@[simp] theorem writeCompletion_clusters (id : RingId) (c : Completion) (s : State) : (writeCompletion id c s).clusters = s.clusters := by unfold writeCompletion; simp only []; split <;> simp
@[simp] theorem writeCompletion_cod (id : RingId) (c : Completion) (s : State) : (writeCompletion id c s).cod = s.cod := by unfold writeCompletion; simp only []; split <;> simp
@[simp] theorem writeCompletion_planes (id : RingId) (c : Completion) (s : State) : (writeCompletion id c s).planes = s.planes := by unfold writeCompletion; simp only []; split <;> simp
@[simp] theorem writeCompletion_nzm (id : RingId) (c : Completion) (s : State) : (writeCompletion id c s).nzm = s.nzm := by unfold writeCompletion; simp only []; split <;> simp
@[simp] theorem writeCompletion_pac (id : RingId) (c : Completion) (s : State) : (writeCompletion id c s).pac = s.pac := by unfold writeCompletion; simp only []; split <;> simp
@[simp] theorem writeCompletion_wav (id : RingId) (c : Completion) (s : State) : (writeCompletion id c s).wav = s.wav := by unfold writeCompletion; simp only []; split <;> simp
@[simp] theorem writeCompletion_log (id : RingId) (c : Completion) (s : State) : (writeCompletion id c s).log = s.log := by unfold writeCompletion; simp only []; split <;> simp
@[simp] theorem writeCompletion_sems (id : RingId) (c : Completion) (s : State) : (writeCompletion id c s).sems = s.sems := by unfold writeCompletion; simp only []; split <;> simp
@[simp] theorem writeCompletion_mlk (id : RingId) (c : Completion) (s : State) : (writeCompletion id c s).mlk = s.mlk := by unfold writeCompletion; simp only []; split <;> simp
@[simp] theorem writeCompletion_ins (id : RingId) (c : Completion) (s : State) : (writeCompletion id c s).ins = s.ins := by unfold writeCompletion; simp only []; split <;> simp
@[simp] theorem writeCompletion_gov (id : RingId) (c : Completion) (s : State) : (writeCompletion id c s).gov = s.gov := by unfold writeCompletion; simp only []; split <;> simp
@[simp] theorem writeCompletion_ba (id : RingId) (c : Completion) (s : State) : (writeCompletion id c s).ba = s.ba := by unfold writeCompletion; simp only []; split <;> simp
@[simp] theorem writeCompletion_sd (id : RingId) (c : Completion) (s : State) : (writeCompletion id c s).sd = s.sd := by unfold writeCompletion; simp only []; split <;> simp
@[simp] theorem writeCompletion_stp (id : RingId) (c : Completion) (s : State) : (writeCompletion id c s).stp = s.stp := by unfold writeCompletion; simp only []; split <;> simp
@[simp] theorem writeCompletion_enc (id : RingId) (c : Completion) (s : State) : (writeCompletion id c s).enc = s.enc := by unfold writeCompletion; simp only []; split <;> simp
@[simp] theorem writeCompletion_pwr (id : RingId) (c : Completion) (s : State) : (writeCompletion id c s).pwr = s.pwr := by unfold writeCompletion; simp only []; split <;> simp
@[simp] theorem writeCompletion_mem (id : RingId) (c : Completion) (s : State) : (writeCompletion id c s).mem = s.mem := by unfold writeCompletion; simp only []; split <;> simp
@[simp] theorem writeCompletion_dma (id : RingId) (c : Completion) (s : State) : (writeCompletion id c s).dma = s.dma := by unfold writeCompletion; simp only []; split <;> simp
@[simp] theorem writeCompletion_xlk (id : RingId) (c : Completion) (s : State) : (writeCompletion id c s).xlk = s.xlk := by unfold writeCompletion; simp only []; split <;> simp
@[simp] theorem writeCompletion_sec (id : RingId) (c : Completion) (s : State) : (writeCompletion id c s).sec = s.sec := by unfold writeCompletion; simp only []; split <;> simp
@[simp] theorem writeCompletion_met (id : RingId) (c : Completion) (s : State) : (writeCompletion id c s).met = s.met := by unfold writeCompletion; simp only []; split <;> simp
@[simp] theorem writeCompletion_cal (id : RingId) (c : Completion) (s : State) : (writeCompletion id c s).cal = s.cal := by unfold writeCompletion; simp only []; split <;> simp
@[simp] theorem writeCompletion_fw (id : RingId) (c : Completion) (s : State) : (writeCompletion id c s).fw = s.fw := by unfold writeCompletion; simp only []; split <;> simp
@[simp] theorem writeCompletion_lsi (id : RingId) (c : Completion) (s : State) : (writeCompletion id c s).lsi = s.lsi := by unfold writeCompletion; simp only []; split <;> simp
@[simp] theorem writeCompletion_otp (id : RingId) (c : Completion) (s : State) : (writeCompletion id c s).otp = s.otp := by unfold writeCompletion; simp only []; split <;> simp
@[simp] theorem writeCompletion_calStore (id : RingId) (c : Completion) (s : State) : (writeCompletion id c s).calStore = s.calStore := by unfold writeCompletion; simp only []; split <;> simp
@[simp] theorem writeCompletion_pending (id : RingId) (c : Completion) (s : State) : (writeCompletion id c s).pending = s.pending := by unfold writeCompletion; simp only []; split <;> simp

@[simp] theorem touchSession_now (c : Option Running) (s : State) : (touchSession c s).now = s.now := by unfold touchSession; split <;> rfl
@[simp] theorem touchSession_pressBase (c : Option Running) (s : State) : (touchSession c s).pressBase = s.pressBase := by unfold touchSession; split <;> rfl
@[simp] theorem touchSession_free (c : Option Running) (s : State) : (touchSession c s).free = s.free := by unfold touchSession; split <;> rfl
@[simp] theorem touchSession_regs (c : Option Running) (s : State) : (touchSession c s).regs = s.regs := by unfold touchSession; split <;> rfl
@[simp] theorem touchSession_dev (c : Option Running) (s : State) : (touchSession c s).dev = s.dev := by unfold touchSession; split <;> rfl
@[simp] theorem touchSession_str (c : Option Running) (s : State) : (touchSession c s).str = s.str := by unfold touchSession; split <;> rfl
@[simp] theorem touchSession_jobs (c : Option Running) (s : State) : (touchSession c s).jobs = s.jobs := by unfold touchSession; split <;> rfl
@[simp] theorem touchSession_cmp (c : Option Running) (s : State) : (touchSession c s).cmp = s.cmp := by unfold touchSession; split <;> rfl
@[simp] theorem touchSession_clusters (c : Option Running) (s : State) : (touchSession c s).clusters = s.clusters := by unfold touchSession; split <;> rfl
@[simp] theorem touchSession_cod (c : Option Running) (s : State) : (touchSession c s).cod = s.cod := by unfold touchSession; split <;> rfl
@[simp] theorem touchSession_planes (c : Option Running) (s : State) : (touchSession c s).planes = s.planes := by unfold touchSession; split <;> rfl
@[simp] theorem touchSession_nzm (c : Option Running) (s : State) : (touchSession c s).nzm = s.nzm := by unfold touchSession; split <;> rfl
@[simp] theorem touchSession_pac (c : Option Running) (s : State) : (touchSession c s).pac = s.pac := by unfold touchSession; split <;> rfl
@[simp] theorem touchSession_wav (c : Option Running) (s : State) : (touchSession c s).wav = s.wav := by unfold touchSession; split <;> rfl
@[simp] theorem touchSession_log (c : Option Running) (s : State) : (touchSession c s).log = s.log := by unfold touchSession; split <;> rfl
@[simp] theorem touchSession_sems (c : Option Running) (s : State) : (touchSession c s).sems = s.sems := by unfold touchSession; split <;> rfl
@[simp] theorem touchSession_mlk (c : Option Running) (s : State) : (touchSession c s).mlk = s.mlk := by unfold touchSession; split <;> rfl
@[simp] theorem touchSession_ins (c : Option Running) (s : State) : (touchSession c s).ins = s.ins := by unfold touchSession; split <;> rfl
@[simp] theorem touchSession_gov (c : Option Running) (s : State) : (touchSession c s).gov = s.gov := by unfold touchSession; split <;> rfl
@[simp] theorem touchSession_ba (c : Option Running) (s : State) : (touchSession c s).ba = s.ba := by unfold touchSession; split <;> rfl
@[simp] theorem touchSession_sd (c : Option Running) (s : State) : (touchSession c s).sd = s.sd := by unfold touchSession; split <;> rfl
@[simp] theorem touchSession_stp (c : Option Running) (s : State) : (touchSession c s).stp = s.stp := by unfold touchSession; split <;> rfl
@[simp] theorem touchSession_enc (c : Option Running) (s : State) : (touchSession c s).enc = s.enc := by unfold touchSession; split <;> rfl
@[simp] theorem touchSession_pwr (c : Option Running) (s : State) : (touchSession c s).pwr = s.pwr := by unfold touchSession; split <;> rfl
@[simp] theorem touchSession_mem (c : Option Running) (s : State) : (touchSession c s).mem = s.mem := by unfold touchSession; split <;> rfl
@[simp] theorem touchSession_dma (c : Option Running) (s : State) : (touchSession c s).dma = s.dma := by unfold touchSession; split <;> rfl
@[simp] theorem touchSession_xlk (c : Option Running) (s : State) : (touchSession c s).xlk = s.xlk := by unfold touchSession; split <;> rfl
@[simp] theorem touchSession_met (c : Option Running) (s : State) : (touchSession c s).met = s.met := by unfold touchSession; split <;> rfl
@[simp] theorem touchSession_cal (c : Option Running) (s : State) : (touchSession c s).cal = s.cal := by unfold touchSession; split <;> rfl
@[simp] theorem touchSession_fw (c : Option Running) (s : State) : (touchSession c s).fw = s.fw := by unfold touchSession; split <;> rfl
@[simp] theorem touchSession_lsi (c : Option Running) (s : State) : (touchSession c s).lsi = s.lsi := by unfold touchSession; split <;> rfl
@[simp] theorem touchSession_otp (c : Option Running) (s : State) : (touchSession c s).otp = s.otp := by unfold touchSession; split <;> rfl
@[simp] theorem touchSession_calStore (c : Option Running) (s : State) : (touchSession c s).calStore = s.calStore := by unfold touchSession; split <;> rfl
@[simp] theorem touchSession_pending (c : Option Running) (s : State) : (touchSession c s).pending = s.pending := by unfold touchSession; split <;> rfl

/-- A completion moves rings, the session, and what leaves the block; nothing else. -/
@[simp] theorem complete_now (id : RingId) (st : Status) (r : Nat) (s : State) : (complete id st r s).now = s.now := by unfold complete; simp only [] ; (repeat' split) <;> simp
@[simp] theorem complete_pressBase (id : RingId) (st : Status) (r : Nat) (s : State) : (complete id st r s).pressBase = s.pressBase := by unfold complete; simp only [] ; (repeat' split) <;> simp
@[simp] theorem complete_free (id : RingId) (st : Status) (r : Nat) (s : State) : (complete id st r s).free = s.free := by unfold complete; simp only [] ; (repeat' split) <;> simp
@[simp] theorem complete_regs (id : RingId) (st : Status) (r : Nat) (s : State) : (complete id st r s).regs = s.regs := by unfold complete; simp only [] ; (repeat' split) <;> simp
@[simp] theorem complete_dev (id : RingId) (st : Status) (r : Nat) (s : State) : (complete id st r s).dev = s.dev := by unfold complete; simp only [] ; (repeat' split) <;> simp
@[simp] theorem complete_str (id : RingId) (st : Status) (r : Nat) (s : State) : (complete id st r s).str = s.str := by unfold complete; simp only [] ; (repeat' split) <;> simp
@[simp] theorem complete_jobs (id : RingId) (st : Status) (r : Nat) (s : State) : (complete id st r s).jobs = s.jobs := by unfold complete; simp only [] ; (repeat' split) <;> simp
@[simp] theorem complete_cmp (id : RingId) (st : Status) (r : Nat) (s : State) : (complete id st r s).cmp = s.cmp := by unfold complete; simp only [] ; (repeat' split) <;> simp
@[simp] theorem complete_clusters (id : RingId) (st : Status) (r : Nat) (s : State) : (complete id st r s).clusters = s.clusters := by unfold complete; simp only [] ; (repeat' split) <;> simp
@[simp] theorem complete_cod (id : RingId) (st : Status) (r : Nat) (s : State) : (complete id st r s).cod = s.cod := by unfold complete; simp only [] ; (repeat' split) <;> simp
@[simp] theorem complete_planes (id : RingId) (st : Status) (r : Nat) (s : State) : (complete id st r s).planes = s.planes := by unfold complete; simp only [] ; (repeat' split) <;> simp
@[simp] theorem complete_nzm (id : RingId) (st : Status) (r : Nat) (s : State) : (complete id st r s).nzm = s.nzm := by unfold complete; simp only [] ; (repeat' split) <;> simp
@[simp] theorem complete_pac (id : RingId) (st : Status) (r : Nat) (s : State) : (complete id st r s).pac = s.pac := by unfold complete; simp only [] ; (repeat' split) <;> simp
@[simp] theorem complete_wav (id : RingId) (st : Status) (r : Nat) (s : State) : (complete id st r s).wav = s.wav := by unfold complete; simp only [] ; (repeat' split) <;> simp
@[simp] theorem complete_log (id : RingId) (st : Status) (r : Nat) (s : State) : (complete id st r s).log = s.log := by unfold complete; simp only [] ; (repeat' split) <;> simp
@[simp] theorem complete_sems (id : RingId) (st : Status) (r : Nat) (s : State) : (complete id st r s).sems = s.sems := by unfold complete; simp only [] ; (repeat' split) <;> simp
@[simp] theorem complete_mlk (id : RingId) (st : Status) (r : Nat) (s : State) : (complete id st r s).mlk = s.mlk := by unfold complete; simp only [] ; (repeat' split) <;> simp
@[simp] theorem complete_ins (id : RingId) (st : Status) (r : Nat) (s : State) : (complete id st r s).ins = s.ins := by unfold complete; simp only [] ; (repeat' split) <;> simp
@[simp] theorem complete_gov (id : RingId) (st : Status) (r : Nat) (s : State) : (complete id st r s).gov = s.gov := by unfold complete; simp only [] ; (repeat' split) <;> simp
@[simp] theorem complete_ba (id : RingId) (st : Status) (r : Nat) (s : State) : (complete id st r s).ba = s.ba := by unfold complete; simp only [] ; (repeat' split) <;> simp
@[simp] theorem complete_sd (id : RingId) (st : Status) (r : Nat) (s : State) : (complete id st r s).sd = s.sd := by unfold complete; simp only [] ; (repeat' split) <;> simp
@[simp] theorem complete_stp (id : RingId) (st : Status) (r : Nat) (s : State) : (complete id st r s).stp = s.stp := by unfold complete; simp only [] ; (repeat' split) <;> simp
@[simp] theorem complete_enc (id : RingId) (st : Status) (r : Nat) (s : State) : (complete id st r s).enc = s.enc := by unfold complete; simp only [] ; (repeat' split) <;> simp
@[simp] theorem complete_pwr (id : RingId) (st : Status) (r : Nat) (s : State) : (complete id st r s).pwr = s.pwr := by unfold complete; simp only [] ; (repeat' split) <;> simp
@[simp] theorem complete_mem (id : RingId) (st : Status) (r : Nat) (s : State) : (complete id st r s).mem = s.mem := by unfold complete; simp only [] ; (repeat' split) <;> simp
@[simp] theorem complete_dma (id : RingId) (st : Status) (r : Nat) (s : State) : (complete id st r s).dma = s.dma := by unfold complete; simp only [] ; (repeat' split) <;> simp
@[simp] theorem complete_xlk (id : RingId) (st : Status) (r : Nat) (s : State) : (complete id st r s).xlk = s.xlk := by unfold complete; simp only [] ; (repeat' split) <;> simp
@[simp] theorem complete_met (id : RingId) (st : Status) (r : Nat) (s : State) : (complete id st r s).met = s.met := by unfold complete; simp only [] ; (repeat' split) <;> simp
@[simp] theorem complete_cal (id : RingId) (st : Status) (r : Nat) (s : State) : (complete id st r s).cal = s.cal := by unfold complete; simp only [] ; (repeat' split) <;> simp
@[simp] theorem complete_fw (id : RingId) (st : Status) (r : Nat) (s : State) : (complete id st r s).fw = s.fw := by unfold complete; simp only [] ; (repeat' split) <;> simp
@[simp] theorem complete_lsi (id : RingId) (st : Status) (r : Nat) (s : State) : (complete id st r s).lsi = s.lsi := by unfold complete; simp only [] ; (repeat' split) <;> simp
@[simp] theorem complete_otp (id : RingId) (st : Status) (r : Nat) (s : State) : (complete id st r s).otp = s.otp := by unfold complete; simp only [] ; (repeat' split) <;> simp
@[simp] theorem complete_calStore (id : RingId) (st : Status) (r : Nat) (s : State) : (complete id st r s).calStore = s.calStore := by unfold complete; simp only [] ; (repeat' split) <;> simp
@[simp] theorem complete_pending (id : RingId) (st : Status) (r : Nat) (s : State) : (complete id st r s).pending = s.pending := by unfold complete; simp only [] ; (repeat' split) <;> simp

end Sys2Proof.Machine
end

