-- ==== Sys2Proof/WellFormed.lean ====
section
/-! DEFINITION. WellFormed: operands of commands that can arrive, beyond what their types say: fields keep the width that
the spec gives them, and lists keep their bounds. -/

namespace Sys2Proof

/-- A number fits in `n` bits. -/
def fits (n v : Nat) : Bool := decide (v < 2 ^ n)

/-- A signed number fits in `n` bits. -/
def sfits (n : Nat) (v : Int) : Bool := decide (-(2 : Int) ^ (n - 1) ≤ v ∧ v < 2 ^ (n - 1))

/-- A check row is 0 or a row of Table 23.2. -/
def rowOk (r : CheckRow) : Bool := decide (r ≤ 9)

/-- A start-up environment. -/
def BootEnv.wf (e : BootEnv) : Bool :=
  rowOk e.activeFwiRow && rowOk e.prevFwiRow && rowOk e.structRow && decide (e.nvmeControllers ≤ 8) &&
    fits 4 e.pcieSpeed && fits 5 e.pcieWidth && fits 4 e.rpSpeed && fits 5 e.rpWidth

/-- What a ring fetches. -/
def Fetch.wf : Fetch → Bool
  | .descriptor op tag _ _ => fits 16 op && fits 16 tag
  | _ => true

/-- A DMA descriptor (Tables 18.1, 18.2). -/
def DmaDesc.wf (d : DmaDesc) : Bool :=
  fits 64 d.addr && fits 32 d.len && fits 2 d.space && fits 6 d.arg && fits 22 d.reserved

/-- One weighing (Table 21.2). -/
def Weighing.wf (w : Weighing) : Bool :=
  fits 32 w.wseq && sfits 32 w.net && sfits 32 w.tare && fits 32 w.interval && fits 8 w.wflags && fits 32 w.itime

/-- Width and list conditions of a command's operands. -/
def Instr.wf : Instr → Bool
  | .rstNRelease _ env | .bootWatchdogExpiry _ env | .devWarmReset _ _ env | .warmResetBrakeDone _ env
  | .trialExpiry _ env => env.wf
  | .modeSet _ m => fits 8 m
  | .funcReinit _ f i _ => fits 16 f && fits 16 i
  | .holdReq _ c => fits 2 c
  | .strLoadBegin _ l _ => fits 32 l
  | .strLoadBlock _ o d => fits 32 o && decide (1 ≤ d.length ∧ d.length ≤ 65536)
  | .strActivate _ s => fits 8 s
  | .strActivationDone _ r _ => rowOk r
  | .ringSqTail _ _ v f => fits 32 v && f.wf
  | .ringCqHead _ _ v => fits 32 v
  | .jobOpen _ c j => fits 8 c && fits 64 j
  | .jobLoad _ _ _ _ a o d r => fits 64 a && fits 32 o && fits 8 r && decide (d.length < 2 ^ 32)
  | .jobArm _ _ c => sfits 64 c
  | .jobRecords _ _ a c b _ => fits 64 a && fits 32 c && fits 32 b
  | .jobCastOff _ _ l => fits 64 l
  | .keyInstall _ s k c l => fits 8 s && fits 8 k && fits 64 c && decide (l.length = 16)
  | .syncRespFrame _ _ n a b c => fits 32 n && fits 64 a && fits 64 b && fits 64 c
  | .ackFrame _ _ s => fits 16 s
  | .identFrame _ _ p r => decide (p < 32) && decide (r.length = 64)
  | .reportFrame _ _ f c _ => fits 32 f && decide (1 ≤ c ∧ c ≤ 64)
  | .slotFaultFrame _ _ s c _ => fits 32 s && fits 8 c
  | .nakFrame _ _ s c => fits 16 s && decide (1 ≤ c ∧ c ≤ 256)
  | .tempFrame _ _ l => decide (l.length = 32) && l.all (sfits 16)
  | .sdOutput _ _ a => sfits 25 a
  | .axisHomeBrushless _ i v tmo => fits 8 i && sfits 32 v && fits 32 tmo
  | .axisHomeStepper _ i v tmo h b c => fits 8 i && sfits 32 v && fits 32 tmo && sfits 64 h && sfits 32 b && fits 8 c
  | .marchRun _ f c a m => fits 8 f && fits 8 c && fits 8 a && fits 8 m
  | .dmaDbRd _ _ d | .dmaDbWr _ _ d => d.wf
  | .dmaBurstComplete _ _ b => b.descs.all DmaDesc.wf && decide (b.bytes ≤ 4096)
  | .weighingFrame _ _ _ w => w.wf
  | .otpBurn _ w _ _ => fits 8 w
  | .lcAdvance _ t _ env => fits 8 t && env.wf
  | .otpFinalise _ r _ _ => fits 8 r
  | .calRun _ k f i a s g _ => fits 8 k && fits 8 f && fits 16 i && sfits 32 a && fits 32 s && fits 16 g
  | .calRead _ k f i a => fits 8 k && fits 8 f && fits 16 i && fits 64 a
  | .updBegin _ c l _ => fits 8 c && fits 32 l
  | .updBlock _ o d => fits 32 o && decide (1 ≤ d.length ∧ d.length ≤ 65536)
  | .updActivate _ c r env | .updRevert _ c r env => fits 8 c && rowOk r && env.wf
  | .updConfirm _ c _ => fits 8 c
  | .updRecGo _ r _ env => rowOk r && env.wf
  | .recoveryUartBlock _ o d _ => fits 32 o && decide (1 ≤ d.length ∧ d.length ≤ 4096)
  | .readClear _ a => decide (a % 4 = 0)
  | .registerWrite _ a _ => decide (a % 4 = 0)
  | _ => true

end Sys2Proof
end

