-- ==== Sys2Proof/Tests/Slice0.lean ====
section
/-! SUPPORT. Tests: ill-formed operands that the checks refuse, witnesses of the hypotheses of every statement, and single
commands on small states with results worked out from the spec. -/

namespace Sys2Proof.Tests

open Sys2Proof Sys2Proof.Machine Sys2Proof.Claim

/-! ## States -/

/-- The state after reset in a mode. -/
def inMode (m : Mode) : State := { State.reset with dev := { State.reset.dev with mode := m, rstN := true } }

/-- CONFIGURE. -/
def sConf : State := inMode .configure
/-- STANDBY. -/
def sStby : State := inMode .standby
/-- SERVICE. -/
def sServ : State := inMode .service
/-- PRINT. -/
def sPrint : State := inMode .print

/-- A start-up environment in which everything is found sound. -/
def goodEnv : BootEnv :=
  { secureMarchOk := true, exchangeMarchOk := true, flashTableOk := true, reachesStep7 := true, activeFwiRow := 0,
    prevFwiRow := 0, structRow := 0, structInstallOk := true, metFlashOk := true, wipeVerifyOk := true, nvmeControllers := 0,
    pcieSpeed := 4, pcieWidth := 16, rpSpeed := 0, rpWidth := 0, calRepaired := [], calLost := [] }

/-- The same with a secure SRAM that fails its march. -/
def badEnv : BootEnv := { goodEnv with secureMarchOk := false }

/-- Register words over the reset values. -/
def withRegs (l : List (Nat × Word)) (s : State) : State := { s with regs := l }

/-- Bytes from numbers. -/
def bytes (l : List Nat) : Bytes := l.map (BitVec.ofNat 8)

/-! ### A small structure and a small package -/

/-- A small structure body: one plane of 8 wales with one row, one hub, one bridge, one fabric port and two axes. -/
def body : Bytes :=
  bytes [83, 84, 73, 49, 1, 0, 11, 0, 144, 6] ++ List.replicate 6 0 ++ bytes [1, 0, 1, 0, 192, 0, 0, 0, 0, 2, 0, 0, 64,
    0, 0, 0, 2, 0, 1, 0, 192, 2, 0, 0, 0, 1, 0, 0, 8, 0, 0, 0, 3, 0, 1, 0, 192, 3, 0, 0, 16, 0, 0, 0, 1, 0, 0, 0, 4, 0,
    1, 0, 0, 4, 0, 0, 96, 0, 0, 0, 2, 0, 0, 0, 5, 0, 1, 0, 128, 4, 0, 0, 32, 0, 0, 0, 1, 0, 0, 0, 9, 0, 1, 0, 192, 4, 0,
    0, 16, 0, 0, 0, 1, 0, 0, 0, 10, 0, 1, 0, 0, 5, 0, 0, 16, 0, 0, 0, 1, 0, 0, 0, 12, 0, 1, 0, 64, 5, 0, 0, 64, 0, 0, 0,
    16, 0, 0, 0, 13, 0, 1, 0, 128, 5, 0, 0, 144, 0, 0, 0, 6, 0, 0, 0, 14, 0, 1, 0, 64, 6, 0, 0, 32, 0, 0, 0, 2, 0, 0, 0,
    16, 0, 1, 0, 128, 6, 0, 0, 16, 0, 0, 0, 1, 0, 0, 0, 1] ++ List.replicate 7 0 ++
  bytes [2] ++ List.replicate 8 0 ++ bytes [255] ++ List.replicate 7 0 ++
  bytes [255] ++ List.replicate 6 0 ++ bytes [3, 0, 1] ++ List.replicate 6 0 ++
  bytes [255] ++ List.replicate 7 0 ++ bytes [255] ++ List.replicate 7 0 ++
  bytes [255] ++ List.replicate 7 0 ++ bytes [255] ++ List.replicate 7 0 ++
  bytes [255] ++ List.replicate 7 0 ++ bytes [255] ++ List.replicate 7 0 ++
  bytes [255] ++ List.replicate 7 0 ++ bytes [255] ++ List.replicate 7 0 ++
  bytes [255] ++ List.replicate 7 0 ++ bytes [255] ++ List.replicate 7 0 ++
  bytes [255] ++ List.replicate 7 0 ++ bytes [255] ++ List.replicate 7 0 ++
  bytes [255] ++ List.replicate 7 0 ++ bytes [255] ++ List.replicate 7 0 ++
  bytes [255] ++ List.replicate 7 0 ++ bytes [255] ++ List.replicate 7 0 ++
  bytes [255] ++ List.replicate 7 0 ++ bytes [255] ++ List.replicate 7 0 ++
  bytes [255] ++ List.replicate 7 0 ++ bytes [255] ++ List.replicate 7 0 ++
  bytes [255] ++ List.replicate 7 0 ++ bytes [255] ++ List.replicate 7 0 ++
  bytes [255] ++ List.replicate 7 0 ++ bytes [255] ++ List.replicate 7 0 ++
  bytes [255] ++ List.replicate 7 0 ++ bytes [255] ++ List.replicate 7 0 ++
  bytes [255] ++ List.replicate 7 0 ++ bytes [255] ++ List.replicate 7 0 ++
  bytes [255] ++ List.replicate 7 0 ++ bytes [255] ++ List.replicate 7 0 ++
  bytes [255] ++ List.replicate 7 0 ++ bytes [255] ++ List.replicate 7 0 ++
  bytes [255] ++ List.replicate 7 0 ++ bytes [255] ++ List.replicate 7 0 ++
  bytes [255] ++ List.replicate 7 0 ++ bytes [255] ++ List.replicate 7 0 ++
  bytes [255] ++ List.replicate 7 0 ++ bytes [255] ++ List.replicate 7 0 ++
  bytes [255] ++ List.replicate 7 0 ++ bytes [255] ++ List.replicate 7 0 ++
  bytes [255] ++ List.replicate 7 0 ++ bytes [255] ++ List.replicate 7 0 ++
  bytes [255] ++ List.replicate 7 0 ++ bytes [255] ++ List.replicate 7 0 ++
  bytes [255] ++ List.replicate 7 0 ++ bytes [255] ++ List.replicate 7 0 ++
  bytes [255] ++ List.replicate 7 0 ++ bytes [255] ++ List.replicate 7 0 ++
  bytes [255] ++ List.replicate 7 0 ++ bytes [255] ++ List.replicate 7 0 ++
  bytes [255] ++ List.replicate 7 0 ++ bytes [255] ++ List.replicate 7 0 ++
  bytes [255] ++ List.replicate 7 0 ++ bytes [255] ++ List.replicate 7 0 ++
  bytes [255] ++ List.replicate 7 0 ++ bytes [255] ++ List.replicate 7 0 ++
  bytes [255] ++ List.replicate 7 0 ++ bytes [255] ++ List.replicate 7 0 ++
  bytes [255] ++ List.replicate 6 0 ++ bytes [1, 1, 2, 0, 176, 4, 0, 0, 8] ++ List.replicate 249 0 ++
  bytes [1] ++ List.replicate 61 0 ++ bytes [1, 1, 0, 0, 0] ++ List.replicate 7 255 ++
  List.replicate 20 0 ++ bytes [232, 3, 0, 0, 232, 3, 0, 0, 232, 3, 0, 0, 232, 3, 0, 0, 2, 1, 0, 0, 1] ++ List.replicate
    7 255 ++ bytes [0, 0, 0, 0, 128, 132, 30, 0, 0, 0, 0, 0, 16, 39] ++
  List.replicate 66 0 ++ bytes [8, 0, 0, 0, 255, 255, 0, 0, 160, 134, 1] ++ List.replicate 47 0 ++ bytes [8] ++
  List.replicate 65 0 ++ bytes [232, 3] ++ List.replicate 54 0 ++ bytes [1] ++
  List.replicate 63 0 ++ bytes [1, 255] ++ List.replicate 16 0 ++ bytes [32, 0, 0, 0, 0, 0, 2, 255] ++
  List.replicate 8 0 ++ bytes [32] ++ List.replicate 7 0 ++ bytes [32, 0, 0, 0, 0, 0, 3, 255] ++
  List.replicate 8 0 ++ bytes [64] ++ List.replicate 7 0 ++ bytes [32, 0, 0, 0, 0, 0, 4, 0, 0, 0, 0, 4, 0, 0, 0, 0, 96] ++
  List.replicate 7 0 ++ bytes [32, 0, 0, 0, 0, 0, 5, 255] ++ List.replicate 8 0 ++ bytes [128] ++
  List.replicate 7 0 ++ bytes [32, 0, 0, 0, 0, 0, 6, 255] ++ List.replicate 8 0 ++ bytes [160] ++
  List.replicate 7 0 ++ bytes [32] ++ List.replicate 53 0 ++ bytes [1, 0, 0, 0, 0, 1] ++
  List.replicate 10 0 ++ bytes [2, 0, 1, 0, 255, 255] ++ List.replicate 42 0 ++ bytes [160, 0, 10, 0, 2, 3] ++
  List.replicate 10 0

/-- Its tables. -/
def tbl : StructTables :=
  { lanes := [⟨1, 0, 0, 0⟩, ⟨2, 0, 0, 0⟩, ⟨0, 255, 0, 0⟩, ⟨0, 255, 0, 0⟩, ⟨3, 0, 1, 0⟩] ++ List.replicate 59 ⟨0, 255, 0, 0⟩,
    planes := [⟨1, 1, 2, 0, 1200, 8, 0, 0, 0⟩] ++ List.replicate 7 ⟨0, 0, 0, 0, 0, 0, 0, 0, 0⟩,
    rows := [⟨0, 0, 1, 0⟩],
    endpoints := [⟨1, 1, 0, 0 :: List.replicate 7 255, 0, 0, [1000, 1000, 1000, 1000]⟩,
                  ⟨2, 1, 0, 1 :: List.replicate 7 255, 2000000, 10000, [0, 0, 0, 0]⟩],
    heads := [⟨0, 0, 0, 0, 0, 0, 0, 8, 0, 0xFFFF, 100000⟩], nmaps := [], stitches := [], deals := [],
    wgs := [⟨0, 0, 0, 8, 0⟩], acs := [⟨0, 0, 0, 0, 1000⟩], clusters := 1 :: List.replicate 15 0,
    hbm := [⟨1, 255, 0, 0, 2097152⟩, ⟨2, 255, 0, 2097152, 2097152⟩, ⟨3, 255, 0, 4194304, 2097152⟩,
            ⟨4, 0, 1024, 6291456, 2097152⟩, ⟨5, 255, 0, 8388608, 2097152⟩, ⟨6, 255, 0, 10485760, 2097152⟩],
    axes := [⟨1, 0, 0, 0, 0, 1⟩, ⟨2, 0, 1, 0, 255, 255⟩], pins := [], power := ⟨160, 10, 2, 3, 0⟩ }

/-- An image of it: a header and CRC table of zeros, then the body. -/
def img : Image := ⟨List.replicate 256 0 ++ body⟩

/-- A job package: plane 0, 1200 dpi, repeats of 100 mm, one lane of 10 mm, no section. -/
def pkgBytes : Bytes :=
  bytes [0x4A, 0x4F, 0x42, 0x31, 1, 0, 1, 0, 0, 1, 0, 0, 0xB0, 4, 0, 0, 0, 0xE1, 0xF5, 5, 0, 0, 0, 0, 0, 0xE1, 0xF5, 5] ++
  bytes [0, 0, 0, 0, 1, 0, 0, 0, 0, 0, 0, 0, 0, 1, 0, 0, 80, 0, 0, 0] ++ List.replicate 20 0 ++
  bytes [0x80, 0x96, 0x98, 0] ++ List.replicate 8 0

/-- What it says. -/
def pkg : Package :=
  { planes := 1, policy := 0, gaugeKind := 0, gauge := 1200, rpt := 100000000, height := 100000000, firstSeq := 1,
    maxRecord := 256, lanes := [⟨0, 10000000, 0⟩], grounds := [], fields := [], atlases := [], images := [], counters := [],
    gens := [], macs := [], screens := [], appear := none }

/-- A state with the structure active. -/
def withTbl (s : State) : State := { s with str := { s.str with tables := some tbl, active := some img } }

/-! ### Modes, resets, structures (chapters 02 and 03) -/

/-- STANDBY with the hold that HOLD_N started, with HOLD_N high or still low. -/
def sHeld (n : Bool) : State :=
  { sStby with dev := { sStby.dev with hold := true, holdClass := 3, holdCause := 1, holdN := n } }
/-- PRINT in a hold of class 2. -/
def sHeldP : State := { sPrint with dev := { sPrint.dev with hold := true, holdClass := 2, holdCause := 1 } }
/-- A CONFIGURE that HOLD_N asserted finds; STANDBY with HOLD_N asserted. -/
def sHoldN : State := { sStby with dev := { sStby.dev with holdN := false } }
/-- Reset with an FWI image in the active slot. -/
def sImaged : State := { State.reset with fw := { State.reset.fw with fwiActive := some ⟨[]⟩ } }
/-- A forced reset that waits; a boot whose watchdog runs. -/
def sWarm : State := { sStby with dev := { sStby.dev with warmPending := some ⟨5⟩ } }
/-- The boot watchdog runs. -/
def sDog : State := { State.reset with dev := { State.reset.dev with watchdogAt := some 5, rstN := true } }
/-- An enabled axis in STANDBY. -/
def sAxis : State := { sStby with ba := sStby.ba.set 0 { Ba.reset with en := true } }
/-- A command waits for entropy. -/
def sEntropy : State := { sStby with sec := { sStby.sec with entropyWait := some (.challenge 0, 0) } }
/-- The entropy source is ready and the SECRET region finalised. -/
def sTrng : State := { sStby with sec := { sStby.sec with trngReady := true }, otp := [(128, 1#32), (244, 1#32), (245, 1#32)] }
/-- SECRET finalised, no entropy. -/
def sNoTrng : State := { sStby with otp := [(128, 1#32), (244, 1#32), (245, 1#32)] }
/-- A structure transfer: one byte of two has arrived; both have. -/
def xfer1 : Transfer := { cls := 2, length := 2, data := [0], lastAt := 0 }
/-- Both have. -/
def xfer2 : Transfer := { cls := 2, length := 2, data := [0, 0], lastAt := 0 }
/-- An open structure transfer. -/
def sXfer (x : Transfer) : State := { sStby with str := { sStby.str with load := some x } }
/-- An image waits in the staged slot. -/
def sStaged : State := { sConf with str := { sConf.str with staged := some ⟨[]⟩ } }
/-- PRINT with an image in the staged slot. -/
def sStagedP : State := { sPrint with str := { sPrint.str with staged := some ⟨[]⟩ } }
/-- An activation in progress. -/
def sActivating : State := { sStaged with dev := { sStaged.dev with activating := some ⟨0, 0, false⟩ } }

/-! ### Rings and jobs (chapter 04) -/

/-- A running ring with a command. -/
def busyRing : Ring := { Ring.reset with enable := true, running := some ⟨0x1001, 7, false, 0⟩ }
/-- The same with NO_IRQ. -/
def quietRing : Ring := { busyRing with running := some ⟨0x1001, 7, true, 0⟩ }
/-- The three kinds of ring as given. -/
def sRings (r : Ring) : State := { sStby with supRing := r, admRing := r, jobRings := Vector.replicate 64 r }
/-- Running rings without a command. -/
def sRingsOn : State := sRings { Ring.reset with enable := true }
/-- Rings with a full completion queue (16 entries). -/
def sRingsFull : State := sRings { busyRing with cqTail := 15 }
/-- Running rings with their vector unmasked. -/
def sRingsOpen (r : Ring) : State := withRegs [(Reg.msixCtl.addr 0, 0#32)] (sRings r)
/-- A job in a state, with its package. -/
def job (st : JobSt) : Job := { Job.free with st := st, jobId := 9, pkg := some pkg }
/-- Context 0 holds the job in a mode. -/
def sJob (m : Mode) (st : JobSt) : State := { withTbl (inMode m) with jobs := State.reset.jobs.set 0 (job st) }
/-- Context 0 is OPEN with nothing loaded. -/
def sOpened : State := { withTbl sStby with jobs := State.reset.jobs.set 0 { Job.free with st := .opened } }
/-- No context is FREE. -/
def sNoFree : State := { sStby with jobs := Vector.replicate 64 (job .loaded) }
/-- One record of no values under sequence number 0. -/
def recBytes : Bytes := List.replicate 8 0 ++ bytes [16, 0] ++ List.replicate 6 0
/-- The state of a press that prints: locked, composed far ahead. -/
def sArm : State :=
  let s := sJob .print .loaded
  { s with pac := { s.pac with est := { s.pac.est with locked := true } },
           wav := { s.wav with wgs := [] } }

/-! ### Logs (chapter 24) -/

/-- A log record. -/
def rec1 : LogRec := { cls := .diag, held := false, reissue := false, code := 40, inst := 0, lseq := 7, time := 3, payload := .args 0 0 0 0 }
/-- The outcome of item 5 of context 0. -/
def out1 : OutcomeRec := { seq := 5, rpt := 0, ctx := 0, lane := 0, outcome := 0, planes := 0, codes := 0, time := 0 }
/-- Its record. -/
def recOut : LogRec := { rec1 with cls := .item, payload := .outcome out1 }
/-- Its backlog entry. -/
def back (st : BackState) : BackEntry := { ctx := 0, seq := 5, st := st }
/-- STANDBY with log state. -/
def sLog (f : LogState → LogState) : State := sStby.modLog f
/-- A log region of 16 bytes: nothing fits. -/
def smallLog (s : State) : State :=
  { s with str := { s.str with tables := some { tbl with hbm := tbl.hbm.map fun r => if r.kind == 5 then { r with size := 40 } else r } } }
/-- An alarm waits. -/
def sLogAlarm : State := sLog fun l => { l with waitAlarms := [rec1] }
/-- Audit waits. -/
def sLogAudit : State := sLog fun l => { l with waitAudit := [rec1] }
/-- DIAG records have been dropped. -/
def sDropped (n : Nat) : State := sLog fun l => { l with drops := { l.drops with dropping := true, dropped := 3, codes := [(40, 3)], first := n, last := n } }
/-- The drain runs and these records wait. -/
def sDrain (l : List LogRec) : State := sLog fun x => { x with en := true, ring := l, backlog := [back (.admitted out1 7)] }
/-- One record has been written to the host. -/
def sHostRec : State := sLog fun x => { x with en := true, host := [(rec1, 56)], wr := 56 }

/-! ### Pins and interfaces (chapters 26 to 28) -/

/-- A DMA channel that runs. -/
def sDmaLive : State := { sStby with dma := sStby.dma.set 0 { Dma.reset with st := .run } }
/-- Job spaces attached. -/
def sAttached : State := sStby.modMem fun m => { m with js := Vector.replicate 32 { m.js[0] with attached := true } }
/-- A pin that is not parked, with its last level. -/
def sPin (func : Nat) (prev : Option Bool) : State :=
  withRegs [(Reg.pioFunc.addr 0, BitVec.ofNat 32 func)] (sStby.modLsi fun l => { l with gpio := l.gpio.set 0 { l.gpio[0] with parked := false, prev := prev } })
/-- I2C port 0 busy, or enabled. -/
def sI2c : State := sStby.modLsi fun l => { l with i2c := l.i2c.set 0 { l.i2c[0] with busy := true } }

/-! ### Composition and screening (chapters 05 to 08) -/

/-- The structure without its fabric lane. -/
def tblP : StructTables := { tbl with lanes := tbl.lanes.set 4 ⟨0, 255, 0, 0⟩ }
/-- A state with it. -/
def withTblP (s : State) : State := { s with str := { s.str with tables := some tblP, active := some img } }
/-- A printing job with a record, and what else a test sets. -/
def sRun (f : Job → Job) : State :=
  { withTbl sPrint with
    jobs := State.reset.jobs.set 0 (f { job .printing with queue := [⟨1, false, []⟩], nextSeq := 1 })
    clusters := State.reset.clusters.set 0 { Cluster.reset with power := .on, granted := true } }
/-- One item in its slot. -/
def item1 : Item :=
  { seq := 1, rpt := 0, slotNo := 0, lane := 0, skip := false, values := [], codes := 0, planes := 0, anyFired := false,
    verdict := none, deadline := none, ownFinal := none, lacking := false, sealedBind := none, outcome := none }
/-- Progress of a plane with its error-diffusion state of the plane's width. -/
def plane0 : JobPlane := { Job.free.planes[0] with castOn := some 0 }
/-- A job whose slice 0 is composed. -/
def jComposed (j : Job) : Job := { j with nextSlot := 1, slices := [⟨0, 0, none, 0, true⟩], items := [item1], planes := j.planes.set 0 { plane0 with nextSlice := 1 } }
/-- The same with its slice at work. -/
def jDealt (j : Job) : Job := { jComposed j with slices := [⟨0, 0, some 0, 0, false⟩] }
/-- A slice waits to be dealt again. -/
def jDealAgain (j : Job) : Job := { jComposed j with slices := [⟨0, 0, none, 0, false⟩] }
/-- Cluster 0 at work. -/
def atWork (s : State) : State := { s with clusters := s.clusters.set 0 { Cluster.reset with power := .on, granted := true, slice := some (0, 0, 0) } }
/-- An engine request, and a press with it. -/
def sReq (e : Nat) (again : Bool) (x : BitVec 5) : State :=
  let s := sRun jComposed
  { s with cod := { s.cod with requests := [⟨e, 0, 1, 0, 0, again⟩], excl := x } }
/-- Windows with 2 mm of web. -/
def sWin (s : State) : State :=
  { s with pac := { s.pac with est := { s.pac.est with p := 2000000 * 65536 } },
           cmp := { s.cmp with cycles := ⟨[(0, 3000000)], [(0, 0)]⟩ },
           cod := { s.cod with syms := ⟨[(0, 500)], [(0, 0)]⟩, tags := ⟨[(0, 700)], [(0, 0)]⟩ } }

/-! ### Nozzle maps, pacing, waveforms (chapters 08 to 10) -/

/-- A state with staged and pending map entries. -/
def sNzm (stage pend : List MapEntry) (s : State) : State := s.modNzm fun n => { n with staging := stage, pend := pend }
/-- A good entry of the host, one of inspection, one for a nozzle that does not exist. -/
def entH : MapEntry := ⟨0, 1, 1, true⟩
/-- Of inspection. -/
def entI : MapEntry := ⟨0, 1, 1, false⟩
/-- Of no nozzle. -/
def entBad : MapEntry := ⟨9, 1, 1, true⟩
/-- The web at 1 m/s, locked. -/
def moving (s : State) : State :=
  { s with pac := { s.pac with est := { s.pac.est with v := 4294967296, locked := true, p := 2000000 * 65536 } } }
/-- A fire slot of plane 0 on hub 0. -/
def slot1 : FireSlot :=
  { plane := 0, row := 0, ctx := 0, course := 0, gen := 0, st := .waiting, num := [(0, 0)], instants := [], latched := false,
    shift := 0, late := false, plays := [], wales := [⟨1, 0, some (0, 0)⟩], unconfirmed := [0] }
/-- A press with fire slots. -/
def sSlots (l : List FireSlot) (s : State) : State := s.modPac fun p => { p with slots := l }
/-- A screened course on plane 0. -/
def course1 : RunwayCourse := { ctx := 0, course := 0, gen := 0, cells := [⟨1, 0, some (0, 0)⟩], ed := [] }
/-- A runway. -/
def sRunway (l : List RunwayCourse) (s : State) : State := s.modPlane 0 fun x => { x with runway := l }
/-- Course 0 was passed. -/
def jPassed0 (j : Job) : Job := { jComposed j with planes := j.planes.set 0 { plane0 with nextSlice := 1, passed := [0] } }
/-- Encoder 0 on, with given levels. -/
def sEnc (a b : Bool) (last : Option Nat) : State :=
  withRegs [(Reg.encCfg.addr 0, 0x40001#32)] (sStby.modEnc 0 fun e => { e with a := a, b := b, accA := false, accB := false, lastAcc := last })
/-- The candidate source is locked. -/
def sCand (s : State) : State := { s with pac := { s.pac with cand := { s.pac.cand with locked := true } } }

/-- STANDBY with staging words and pool state. -/
def sWav (words : List Nat) (s : State) : State :=
  withRegs (words.zipIdx.map fun w => (Reg.wavTblWord.addr w.2, BitVec.ofNat 32 w.1)) s
/-- A waveform group whose active slot names table 0. -/
def named (s : State) : State :=
  s.modWav fun v => { v with wgs := [(0, { WgSt.reset with slots := 0x80000000#32 :: List.replicate 7 0 })] }
/-- Head 0 with an identity and a temperature. -/
def sHead (temp : Option Int) (stale lost : Bool) (s : State) : State :=
  s.modHead 0 fun h => { h with temp := temp, stale := stale, lost := lost, ident := some ⟨1000, 0, 0, 0, 100, 100000⟩ }

/-! ### The link (chapter 11) -/

/-- STANDBY with the structure, lane 0 (hub 0) and lane 1 (bridge 0) in a state. -/
def sLane (st : LaneSt) (f : Lane → Lane) : State :=
  ({ withTblP sStby with lsi := { sStby.lsi with qref := 0xFFFF } } : State).modMlk fun m => { m with lanes := (m.lanes.set 0 (f { m.lanes[0] with st := st })).set 1 (f { m.lanes[1] with st := st }) }
/-- A HELLO that fits hub 0. -/
def hello0 : MlkHello :=
  { kind := 1, number := 0, laneIdx := 0, proto := 1, uplink := 0, caps := 0, unitId := 9, present := 1, bufSlots := 8, channels := 4,
    supplies := 1 }
/-- A STATUS. -/
def status1 (synced fenced : Bool) : HubStatus := ⟨true, synced, fenced, 3, 0, 0, 0, 0⟩
/-- Hub 0 and bridge 0. -/
def hubE : EndpointRec := ⟨1, 1, 0, 0 :: List.replicate 7 255, 0, 0, [1000, 1000, 1000, 1000]⟩
/-- Bridge 0. -/
def brgE : EndpointRec := ⟨2, 1, 0, 1 :: List.replicate 7 255, 2000000, 10000, [0, 0, 0, 0]⟩
/-- A scan line in two frames. -/
def scan1 : ScanFrame := ⟨3, false, 0, 8, 0, 0, [(1, 1, 1)]⟩
/-- All of it. -/
def scan8 : ScanFrame := ⟨3, false, 0, 8, 0, 0, List.replicate 8 (1, 1, 1)⟩
/-- Bridge 0 gathers a line. -/
def sScan (f : ScanFrame) : State :=
  let s := withTblP sStby
  s.modBridge 0 fun x => { x with gathering := some ((newLine s 0 f).add f) }
/-- An IDENT record is checked by its own CRC; zeros fail it. A press with slot 1 of hub 0 on its way. -/
def sSent : State := sSlots [{ slot1 with st := .sent, instants := [(0, 5)] }] (withTblP sPrint)
/-- Hub 0 waits for a TAKEOVER_ACK. -/
def sTakeover (h : Bool) : State :=
  ((sLane .ready id).modEp 0 fun e => { e with takeoverAt := some 5 }).modMlk fun m => { m with holds := h }

/-! ### Inspection, governor, brushless axes (chapters 12 to 14) -/

/-- Bridge 0 holds a line, whole or not. -/
def sLine (f : ScanFrame) (n : Nat) (ready : Bool) : State :=
  let s := withTblP (sRun jComposed)
  s.modBridge 0 fun x => { x with store := [{ ((newLine s 0 f).add f) with firstAt := n, ready := ready }] }
/-- An item waits for its verdict. -/
def sVerdict : State :=
  sRun fun j => { jComposed j with pkg := some { pkg with policy := 2 }, items := [{ item1 with deadline := some 9 }] }
/-- A governor at a speed. -/
def sGov (f : Gov → Gov) : State := { withTblP sPrint with gov := f sPrint.gov }
/-- Axis 0 as given, its channels with a sample each. -/
def sBa (m : Mode) (f : Ba → Ba) : State :=
  { withTblP (inMode m) with ba := sStby.ba.set 0 (f Ba.reset),
                             sd := Vector.replicate 24 { sStby.sd[0] with hadValid := true } }

/-! ### Stepper axes, power, memory (chapters 15 to 17) -/

/-- Stepper axis 0 as given. -/
def sStp (m : Mode) (f : Stp → Stp) : State := { withTblP (inMode m) with stp := sStby.stp.set 0 (f sStby.stp[0]) }
/-- With register words. -/
def sStpR (l : List (Nat × Word)) (f : Stp → Stp) : State := withRegs l (sStp .standby f)
/-- Cluster 0 as given. -/
def sClu (f : Cluster → Cluster) : State :=
  { withTblP sPrint with clusters := sStby.clusters.set 0 (f { Cluster.reset with granted := true }) }
/-- The memories as given. -/
def sMem (m : Mode) (f : Mem → Mem) : State := (inMode m).modMem f
/-- The root port is up with a controller. -/
def sRp : State := { sStby with pci := { sStby.pci with rpUp := true, rpCtrls := 2 } }
/-- The structure with stepper axis 0 without an encoder, or marked as web master. -/
def tblAxis (enc flags : Nat) : StructTables := { tblP with axes := [⟨1, 0, 0, 0, 0, 1⟩, ⟨2, 0, enc, flags, 255, 255⟩] }
/-- A state with it. -/
def withAxis (enc flags : Nat) (s : State) : State := { s with str := { s.str with tables := some (tblAxis enc flags) } }

end Sys2Proof.Tests
end

section
/-! Stepping the queue: what a command, a step and a run of steps do to the queue and to device time. -/
namespace Sys2Proof.Machine

/-- A meaning of the common form hands on the queue it was given, and time does not run backwards. -/
theorem run_inOrder {t : Nat} {s s' : State} {f : State → State} (h : run t s f = .next s') :
    s'.pending = s.pending ∧ s.now ≤ s'.now := by
  obtain ⟨hq, hnow⟩ := run_keeps h
  exact ⟨hq, hnow ▸ le_max_left _ _⟩

/-- The same of a meaning with a host error. -/
theorem runUnless_inOrder {bad : State → Bool} {what : String} {t : Nat} {s s' : State} {f : State → State}
    (h : runUnless bad what t s f = .next s') : s'.pending = s.pending ∧ s.now ≤ s'.now := by
  obtain ⟨hq, hnow⟩ := runUnless_keeps h
  exact ⟨hq, hnow ▸ le_max_left _ _⟩

/-- A register write is LOG_HOST_RD, RING_CQ_HEAD of some ring, or a meaning of the common form. -/
theorem execRegisterWrite_inOrder {t addr : Nat} {value : Word} {s s' : State}
    (h : execRegisterWrite t addr value s = .next s') : s'.pending = s.pending ∧ s.now ≤ s'.now := by
  unfold execRegisterWrite at h
  split_ifs at h
  · exact runUnless_inOrder h
  · exact runUnless_inOrder h
  · exact runUnless_inOrder h
  · exact runUnless_inOrder h
  · exact run_inOrder h

/-- Every command that answers a next state leaves the queue behind it as it was, and time does not run backwards: three
can stop on a host error, a register write may be one of these, and every other command is of the common form. -/
theorem exec_inOrder {c : Instr} {s s' : State} (h : exec c s = .next s') :
    s'.pending = s.pending ∧ s.now ≤ s'.now := by
  cases c with
  | ringCqHead | jobLoad | logHostRd =>
    dsimp only [exec] at h
    exact runUnless_inOrder h
  | registerWrite => exact execRegisterWrite_inOrder h
  | _ =>
    dsimp only [exec] at h
    exact run_inOrder h

/-! ## Steps -/

/-- With a command at the front, a step is that command on the state with the queue's rest. -/
theorem step_cons (c : Instr) (rest : List Instr) (s : State) :
    step { s with pending := c :: rest } = exec c { s with pending := rest } := rfl

/-- With an empty queue, a step is one edge of CLK_RT. -/
theorem step_nil {s : State} (h : s.pending = []) : step s = .next (s.arrive (s.now + 20)) := by
  simp [step, h, State.idle]

/-- A step takes the command at the front of the queue, if there is one, and time does not run backwards. -/
theorem step_inOrder {s s' : State} (h : step s = .next s') : s'.pending = s.pending.tail ∧ s.now ≤ s'.now := by
  obtain hq | ⟨c, rest, hq⟩ : s.pending = [] ∨ ∃ c rest, s.pending = c :: rest := by cases s.pending <;> simp
  · rw [step_nil hq] at h
    injection h with h
    subst h
    exact ⟨by simp [hq], le_max_left _ _⟩
  · have hs : s = { s with pending := c :: rest } := by rw [← hq]
    rw [hs, step_cons] at h
    obtain ⟨hrest, hnow⟩ := exec_inOrder h
    exact ⟨by simpa [hq] using hrest, hnow⟩

/-! ## Runs of steps -/

/-- The next state of a step, where it has one. -/
def stepNext (s : State) : Option State :=
  match step s with
  | .next y => some y
  | _ => none

theorem stepNext_eq_some {s s' : State} : stepNext s = some s' ↔ step s = .next s' := by
  unfold stepNext
  split <;> simp_all

/-- Steps that start from no state reach none. -/
theorem iterate_stepNext_none (n : Nat) : (Option.bind · stepNext)^[n] none = none :=
  Function.iterate_fixed rfl n

/-- `n` steps that all have a next state take the first `n` commands of the queue, and time does not run backwards. -/
theorem iterate_stepNext_inOrder (n : Nat) {s s' : State}
    (h : (Option.bind · stepNext)^[n] (some s) = some s') :
    s'.pending = s.pending.drop n ∧ s.now ≤ s'.now := by
  induction n generalizing s with
  | zero =>
    obtain rfl : s = s' := by simpa using h
    simp
  | succ n ih =>
    rw [Function.iterate_succ_apply, Option.bind_some] at h
    cases hs : stepNext s with
    | none => simp [hs, iterate_stepNext_none] at h
    | some s₁ =>
      rw [hs] at h
      obtain ⟨hq, hnow⟩ := step_inOrder (stepNext_eq_some.mp hs)
      obtain ⟨hq', hnow'⟩ := ih h
      exact ⟨by rw [hq', hq, List.drop_tail], hnow.trans hnow'⟩

/-- Settles O1: by the definition of `step` on a queue with a front, and on an empty one. -/
theorem stepRunsFront : Obligations.StepRunsFront :=
  ⟨step_cons, fun _ => step_nil⟩

/-- Settles O2: by induction on the number of steps, each of which takes the front of the queue. -/
theorem queueInOrder : Obligations.QueueInOrder :=
  fun n _ _ h => iterate_stepNext_inOrder n h

end Sys2Proof.Machine
end

section
/-! The view of the state that start-up turns on, and what the operations of start-up leave of it. -/
namespace Sys2Proof.Machine

/-! ## Register words -/

/-- A store at another key leaves a word as it was. -/
theorem regLookup_regInsert_of_ne {k k' : Nat} (h : k ≠ k') (v d : Word) (l : List (Nat × Word)) :
    regLookup k (regInsert k' v d l) = regLookup k l := by
  induction l with
  | nil => unfold regInsert; split <;> simp [regLookup, h]
  | cons e l ih =>
    obtain ⟨j, w⟩ := e
    unfold regInsert
    split_ifs with _ _ hj
    · rfl
    · simp [regLookup, h]
    · simp [regLookup, hj ▸ h]
    · simp [regLookup, h, hj ▸ h]
    · simp [regLookup, ih]

/-- A word other than the reset value is found where it was stored. -/
theorem regLookup_regInsert_self {v d : Word} (h : v ≠ d) (k : Nat) (l : List (Nat × Word)) :
    regLookup k (regInsert k v d l) = some v := by
  induction l with
  | nil => simp [regInsert, regLookup, h]
  | cons e l ih =>
    obtain ⟨j, w⟩ := e
    unfold regInsert
    split_ifs with _ hj
    · simp [regLookup]
    · simp [regLookup]
    · simp [regLookup, hj, ih]

/-- A word that a filter drops is not found. -/
theorem regLookup_filter_eq_none {p : Nat × Word → Bool} {k : Nat} (h : ∀ v, p (k, v) = false) (l : List (Nat × Word)) :
    regLookup k (l.filter p) = none := by
  induction l with
  | nil => rfl
  | cons e l ih =>
    obtain ⟨j, w⟩ := e
    by_cases hj : k = j
    · subst hj
      simp [h, ih]
    · cases hp : p (j, w) <;> simp [hp, regLookup, hj, ih]

/-- A write to another register leaves a register as it was. -/
theorem rd_wr_of_ne {r q : RegSpec} {i j : Nat} (h : r.addr i ≠ q.addr j) (v : Word) (s : State) :
    (s.wr q j v).rd r i = s.rd r i := by
  simp [State.rd, State.wr, regLookup_regInsert_of_ne h]

/-- A register reads what was written, if that is not its reset value. -/
theorem rd_wr_self {r : RegSpec} {v : Word} (h : v ≠ r.reset) (i : Nat) (s : State) : (s.wr r i v).rd r i = v := by
  simp [State.rd, State.wr, regLookup_regInsert_self h]

theorem State.modDev_rd (s : State) (f : Dev → Dev) (r : RegSpec) (i : Nat) : (s.modDev f).rd r i = s.rd r i := rfl

/-! ## The view -/

/-- What start-up is judged by: the mode and its companions, the image slots, both clocks and DEV_RESET_CAUSE. -/
structure StartView where
  dev : Dev
  str : StrSt
  fw : Upd
  now : Nat
  pressBase : Int
  cause : Word

/-- The view of a state. -/
def State.startView (s : State) : StartView :=
  { dev := s.dev, str := s.str, fw := s.fw, now := s.now, pressBase := s.pressBase, cause := s.rd Reg.devResetCause }

section
variable {s s' : State} (h : s'.startView = s.startView)
include h
theorem dev_of_startView : s'.dev = s.dev := congrArg StartView.dev h
theorem str_of_startView : s'.str = s.str := congrArg StartView.str h
theorem fw_of_startView : s'.fw = s.fw := congrArg StartView.fw h
theorem now_of_startView : s'.now = s.now := congrArg StartView.now h
theorem pressBase_of_startView : s'.pressBase = s.pressBase := congrArg StartView.pressBase h
theorem cause_of_startView : s'.rd Reg.devResetCause = s.rd Reg.devResetCause := congrArg StartView.cause h
end

@[simp] theorem startView_modLog (s : State) (f : LogState → LogState) : (s.modLog f).startView = s.startView := rfl
@[simp] theorem startView_modCod (s : State) (f : Cod → Cod) : (s.modCod f).startView = s.startView := rfl
@[simp] theorem startView_modMem (s : State) (f : Mem → Mem) : (s.modMem f).startView = s.startView := rfl
@[simp] theorem startView_modSec (s : State) (f : Sec → Sec) : (s.modSec f).startView = s.startView := rfl
@[simp] theorem startView_modXlk (s : State) (f : Xlk → Xlk) : (s.modXlk f).startView = s.startView := rfl
@[simp] theorem startView_modLsi (s : State) (f : Lsi → Lsi) : (s.modLsi f).startView = s.startView := rfl

/-- A write to another register than DEV_RESET_CAUSE leaves the view. -/
theorem startView_wr {r : RegSpec} {i : Nat} (h : 0x14 < r.base) (v : Word) (s : State) :
    (s.wr r i v).startView = s.startView := by
  have hne : Reg.devResetCause.addr 0 ≠ r.addr i := by
    simp only [RegSpec.addr, Reg.devResetCause]
    omega
  simp [State.startView, rd_wr_of_ne hne]

@[simp] theorem startView_msix (s : State) (v : Nat) : (s.msix v).startView = s.startView := by
  unfold State.msix
  split <;> rfl

/-- Operations that each leave the view leave it one after the other. -/
theorem startView_foldl {α : Type} {f : State → α → State} (h : ∀ s x, (f s x).startView = s.startView) (l : List α)
    (s : State) : (l.foldl f s).startView = s.startView := by
  induction l generalizing s with
  | nil => rfl
  | cons x l ih => rw [List.foldl_cons, ih, h]

/-! ## Alarms and records -/

@[simp] theorem startView_latchAlarm (code : Nat) (s : State) : (latchAlarm code s).startView = s.startView := by
  unfold latchAlarm
  simp only []
  split
  · rfl
  · rw [startView_msix, startView_wr (by decide)]

@[simp] theorem startView_admitRec (r : LogRec) (s : State) : (admitRec r s).startView = s.startView := rfl

@[simp] theorem startView_alarmArgs (a : Alarm) (inst : Nat) (a0 a1 a2 : Int) (s : State) :
    (alarmArgs a inst a0 a1 a2 s).startView = s.startView := by
  unfold alarmArgs
  simp only []
  split_ifs
  · simp
  · simp
  · simp
  · rw [State.setFld, startView_wr (by decide), startView_latchAlarm]

@[simp] theorem startView_alarm (a : Alarm) (inst : Nat) (s : State) : (alarm a inst s).startView = s.startView :=
  startView_alarmArgs a inst 0 0 0 s

@[simp] theorem startView_writeSummary (cls : LogClass) (s : State) : (writeSummary cls s).startView = s.startView := by
  unfold writeSummary
  simp only []
  split_ifs <;> simp

@[simp] theorem startView_diagNote (code inst : Nat) (s : State) : (diagNote code inst s).startView = s.startView := rfl

@[simp] theorem startView_diag (d : Diag) (inst : Nat) (a0 a1 a2 : Int) (s : State) :
    (diag d inst a0 a1 a2 s).startView = s.startView := by
  unfold diag
  simp only []
  split_ifs
  · rw [State.count, startView_wr (by decide), startView_modLog]
  · simp
  · simp

@[simp] theorem startView_admitList (bound : State → Nat) (l : List LogRec) (s : State) :
    (admitList bound l s).2.startView = s.startView := by
  induction l generalizing s with
  | nil => rfl
  | cons r l ih =>
    unfold admitList
    split
    · rw [ih, startView_admitRec]
    · rfl

@[simp] theorem startView_admitItems (l : List BackEntry) (s : State) : (admitItems l s).2.startView = s.startView := by
  induction l generalizing s with
  | nil => rfl
  | cons e l ih =>
    unfold admitItems
    split
    · split
      · exact ih _
      · rfl
    · exact ih s

@[simp] theorem startView_admitWaiting (s : State) : (admitWaiting s).startView = s.startView := by
  simp [admitWaiting]

/-! ## The steps of start-up -/

@[simp] theorem startView_ceaseRoot (s : State) : (ceaseRoot s).startView = s.startView := by
  unfold ceaseRoot
  split <;> simp

@[simp] theorem startView_electRoot (s : State) : (electRoot s).startView = s.startView := by
  unfold electRoot
  simp only []
  split_ifs <;> simp

@[simp] theorem startView_deriveSlots (s : State) : (deriveSlots s).startView = s.startView := by
  unfold deriveSlots
  split
  · rw [startView_foldl]
    exact fun _ _ => rfl
  · rfl

@[simp] theorem startView_startWipe (ok : Bool) (s : State) : (startWipe ok s).startView = s.startView := by
  unfold startWipe
  split <;> simp

@[simp] theorem startView_calReports (repaired lost : List (Nat × Nat)) (s : State) :
    (calReports repaired lost s).startView = s.startView := by
  unfold calReports
  simp only []
  rw [startView_foldl, startView_foldl]
  · simp
  · intro s x
    rw [startView_alarmArgs]
    rfl

@[simp] theorem startView_startReports (env : BootEnv) (s : State) : (startReports env s).startView = s.startView := by
  unfold startReports
  simp only [startView_calReports]
  split <;> split <;> simp

@[simp] theorem startView_parkPins (s : State) : (parkPins s).startView = s.startView := by
  unfold parkPins
  rw [startView_foldl, startView_modLsi]
  exact fun s m => startView_wr (by decide) _ s

@[simp] theorem startView_firmwareUp (env : BootEnv) (s : State) : (firmwareUp env s).startView = s.startView := rfl

end Sys2Proof.Machine
end

section
/-! Start-up from RST_N_RELEASE (Table 3.3): where the boot ROM and firmware end. -/
namespace Sys2Proof.Machine

/-! ## The release of RST_N -/

/-- The bit of DEV_RESET_CAUSE that a release of RST_N leaves: 0 when AON has just powered, 1 otherwise. -/
def releaseCause (s : State) : Nat := if s.fld Reg.devResetCause 0 0 0 = 1 then 0 else 1

/-- The cause is chosen by bit 0 as it stood. -/
theorem releaseCause_eq (s : State) : releaseCause s = if Claim.bitOf s Reg.devResetCause 0 0 then 0 else 1 := by
  refine if_congr ?_ rfl rfl
  simp [State.fld, bitsOf, Claim.bitOf, BitVec.getLsbD, Nat.testBit_zero]

/-- The block after the main power-on of a release, with the host link as it trains. -/
def poweredOn (env : BootEnv) (s : State) : State :=
  let c := (cleared true s).modDev fun d => { d with fwiSlot := 0, failed := if d.fwiSlot = 1 then 0 else d.failed }
  { c with pci := { c.pci with linkUp := c.lsi.perstN && env.pcieSpeed != 0,
                               speed := if c.lsi.perstN then env.pcieSpeed else 0,
                               width := if c.lsi.perstN then env.pcieWidth else 0 } }

/-- What a release of RST_N starts up from. -/
def released (env : BootEnv) (s : State) : State := markReset (releaseCause s) (poweredOn env s)

/-- RST_N_RELEASE while RST_N is low is a start-up. -/
theorem exec_rstNRelease {s : State} (h : s.dev.rstN = false) (t : Nat) (env : BootEnv) :
    exec (.rstNRelease t env) s =
      .next { boot env (released env (s.arrive t)) with now := max s.now t, pending := s.pending } := by
  change execRstNRelease t env s = _
  simp [execRstNRelease, run, h, released, poweredOn, releaseCause]

theorem released_otp (env : BootEnv) (s : State) : (released env s).otp = s.otp := rfl
theorem released_fw (env : BootEnv) (s : State) : (released env s).fw = s.fw.kept := rfl
theorem released_str_active (env : BootEnv) (s : State) : (released env s).str.active = s.str.active := rfl
theorem released_now (env : BootEnv) (s : State) : (released env s).now = s.now := rfl
theorem released_rstN (env : BootEnv) (s : State) : (released env s).dev.rstN = true := rfl
theorem released_fwiSlot (env : BootEnv) (s : State) : (released env s).dev.fwiSlot = 0 := rfl

/-- A main power-on takes a count of failed starts of the active slot on, and starts the count of the other slot again. -/
theorem released_failed_le (env : BootEnv) (s : State) : (released env s).dev.failed ≤ s.dev.failed := by
  change (if s.dev.fwiSlot = 1 then 0 else s.dev.failed) ≤ s.dev.failed
  split <;> omega

/-- A main power-on clears DEV_RESET_CAUSE. -/
theorem poweredOn_devResetCause (env : BootEnv) (s : State) : (poweredOn env s).rd Reg.devResetCause = 0 := by
  have hdrop : ∀ v : Word, powerKept.any (fun k => k.holds ((0x14, v) : Nat × Word).1) = false := fun _ => rfl
  have hregs : (poweredOn env s).regs = s.regs.filter fun r => powerKept.any fun k => k.holds r.1 := rfl
  have hnone : regLookup (Reg.devResetCause.addr 0) (poweredOn env s).regs = none := by
    rw [hregs]
    exact regLookup_filter_eq_none hdrop _
  rw [State.rd, hnone]
  rfl

/-- A cause is marked in a DEV_RESET_CAUSE that holds none. -/
theorem markReset_getLsbD {s : State} {b : Nat} (hb : b < 2) (h : s.rd Reg.devResetCause = 0) :
    ((markReset b s).rd Reg.devResetCause).getLsbD b = true := by
  have hset : ∀ b < 2, setBits 0 b b 1 ≠ Reg.devResetCause.reset ∧ (setBits 0 b b 1).getLsbD b = true := by decide
  obtain ⟨hne, hbit⟩ := hset b hb
  rw [markReset, State.setFld, h, rd_wr_self hne, hbit]

/-- A release marks its cause. -/
theorem released_devResetCause (env : BootEnv) (s : State) :
    ((released env s).rd Reg.devResetCause).getLsbD (releaseCause s) = true := by
  refine markReset_getLsbD ?_ (poweredOn_devResetCause env s)
  unfold releaseCause
  split <;> decide

/-! ## The checks of the boot ROM -/

/-- Whether a region's digest fails is a matter of the OTP alone. -/
theorem regionBad_congr {s s' : State} (h : s'.otp = s.otp) : regionBad s' = regionBad s := by
  have hotp : ∀ x : State, regionBad x = regionBad { State.reset with otp := x.otp } := fun _ => rfl
  rw [hotp s', h, ← hotp s]

/-- A secure SRAM beyond repair ends start-up in RECOVERY with reason 2 (R48). -/
theorem boot_of_secureMarch_failed {env : BootEnv} {s : State} (hotp : (List.range 6).find? (regionBad s) = none)
    (hsec : env.secureMarchOk = false) :
    boot env s = enterRecovery 4 2 0 (s.modSec fun x => { x with policy := otpWord s 129 }) := by
  rw [← regionBad_congr (State.modSec_otp s fun x => { x with policy := otpWord s 129 })] at hotp
  simp [boot, hotp, hsec]

/-- Without a pending switch the active image runs while it is sound, not on trial and has not failed twice. -/
theorem chooseFwi_active {env : BootEnv} {s : State} (hact : s.fw.pendActivate = false) (hrev : s.fw.pendRevert = false)
    (htrial : s.fw.trial = false) (hslot : s.dev.fwiSlot = 0) (hfail : s.dev.failed < 2)
    (himg : s.fw.fwiActive.isSome = true) (hrow : env.activeFwiRow = 0) : chooseFwi env s = some s := by
  have hsw : switchRoles s = s := by simp [switchRoles, hact, hrev]
  simp [chooseFwi, hsw, htrial, hslot, hfail, slotRuns, himg, hrow]

/-! ## Firmware -/

/-- Without an active structure slot step 8 only raises STR_INVALID. -/
theorem startActivation_none {s : State} (h : s.str.active = none) (row : CheckRow) (ok : Bool) :
    startActivation row ok s = alarm .strInvalid noInst s := by
  simp [startActivation, h]

/-- Entering CONFIGURE parks the pins and sets the mode. -/
theorem startView_enterConfigure (s : State) :
    (enterConfigure s).startView = (s.modDev fun d => { d with mode := .configure }).startView :=
  startView_parkPins _

/-- Step 7 is reached: the boot watchdog stops, and a trial starts its 120 s (R441). -/
def reachStage7 (s : State) : State :=
  let s := s.modDev fun d => { d with stage := 7, watchdogAt := none }
  s.modFw fun u => { u with trialAt := if u.trial then some s.now else none }

/-- Firmware in CONFIGURE, where press time starts at 0 (R11). -/
def inConfigure (s : State) : State := reachStage7 (enterConfigure { s with pressBase := s.now })

theorem reachStage7_dev (s : State) : (reachStage7 s).dev = { s.dev with stage := 7, watchdogAt := none } := rfl
theorem reachStage7_str (s : State) : (reachStage7 s).str = s.str := rfl
theorem reachStage7_pressBase (s : State) : (reachStage7 s).pressBase = s.pressBase := rfl
theorem reachStage7_cause (s : State) : (reachStage7 s).rd Reg.devResetCause = s.rd Reg.devResetCause := rfl

theorem inConfigure_dev (s : State) :
    (inConfigure s).dev = { s.dev with mode := .configure, stage := 7, watchdogAt := none } := by
  rw [inConfigure, reachStage7_dev, dev_of_startView (startView_enterConfigure _)]
  rfl

theorem inConfigure_str (s : State) : (inConfigure s).str = s.str := by
  rw [inConfigure, reachStage7_str, str_of_startView (startView_enterConfigure _)]
  rfl

theorem inConfigure_pressBase (s : State) : (inConfigure s).pressBase = s.now := by
  rw [inConfigure, reachStage7_pressBase, pressBase_of_startView (startView_enterConfigure _)]
  rfl

theorem inConfigure_cause (s : State) : (inConfigure s).rd Reg.devResetCause = s.rd Reg.devResetCause := by
  rw [inConfigure, reachStage7_cause, cause_of_startView (startView_enterConfigure _)]
  rfl

/-- After it has entered CONFIGURE firmware elects a root, reports, and activates what there is to activate. -/
theorem reachConfigure_eq (env : BootEnv) (s : State) :
    reachConfigure env s = startActivation env.structRow env.structInstallOk
      (admitWaiting (startReports env (electRoot (inConfigure s)))) := by
  unfold reachConfigure inConfigure reachStage7
  rfl

/-- Without an active structure slot firmware stays in CONFIGURE: what follows elects a root and reports. -/
theorem startView_reachConfigure {s : State} (h : s.str.active = none) (env : BootEnv) :
    (reachConfigure env s).startView = (inConfigure s).startView := by
  have hrep : (admitWaiting (startReports env (electRoot (inConfigure s)))).startView = (inConfigure s).startView := by
    rw [startView_admitWaiting, startView_startReports, startView_electRoot]
  have hactive : (admitWaiting (startReports env (electRoot (inConfigure s)))).str.active = none := by
    rw [str_of_startView hrep, inConfigure_str, h]
  rw [reachConfigure_eq, startActivation_none hactive, startView_alarm, hrep]

/-! ## From the release to the end of start-up -/

/-- The boot ROM has read the policy bits and wiped the secure SRAM (steps 3 and 4). -/
def romDone (env : BootEnv) (s : State) : State :=
  startWipe env.wipeVerifyOk (s.modSec fun x => { x with policy := otpWord s 129 })

theorem startView_romDone (env : BootEnv) (s : State) : (romDone env s).startView = s.startView := by
  rw [romDone, startView_startWipe, startView_modSec]

/-- Firmware runs, and the boot watchdog with it (step 6). -/
def inFirmware (env : BootEnv) (s : State) : State :=
  firmwareUp env (s.modDev fun d => { d with stage := 6, watchdogAt := some (s.now + 5 * sec8) })

theorem startView_inFirmware (env : BootEnv) (s : State) :
    (inFirmware env s).startView =
      (s.modDev fun d => { d with stage := 6, watchdogAt := some (s.now + 5 * sec8) }).startView :=
  startView_firmwareUp env _

/-- Without a fault the boot ROM starts the image it chooses, and firmware reaches CONFIGURE. -/
theorem boot_of_sound {env : BootEnv} {s s₁ : State} (hotp : (List.range 6).find? (regionBad s) = none)
    (hsec : env.secureMarchOk = true) (hexch : env.exchangeMarchOk = true) (hflash : env.flashTableOk = true)
    (hreach : env.reachesStep7 = true) (hfwi : chooseFwi env (romDone env s) = some s₁) :
    boot env s = reachConfigure env (inFirmware env s₁) := by
  rw [romDone] at hfwi
  rw [← regionBad_congr (State.modSec_otp s fun x => { x with policy := otpWord s 129 })] at hotp
  simp [boot, hotp, hsec, hexch, hflash, hreach, hfwi, inFirmware]

/-- A device that a release of RST_N brings to CONFIGURE: the checks of Table 3.3 pass, the active image is neither on trial
nor failing, and no structure slot is active. -/
structure SoundStart (env : BootEnv) (s : State) : Prop where
  otp : (List.range 6).find? (regionBad s) = none
  secureMarch : env.secureMarchOk = true
  exchangeMarch : env.exchangeMarchOk = true
  flashTable : env.flashTableOk = true
  reaches : env.reachesStep7 = true
  row : env.activeFwiRow = 0
  image : s.fw.fwiActive.isSome = true
  noTrial : s.fw.trial = false
  noActivate : s.fw.pendActivate = false
  noRevert : s.fw.pendRevert = false
  failed : s.dev.failed < 2
  noStructure : s.str.active = none

/-- A device as it comes out of reset, with an image in its active slot, starts up soundly where everything is found sound. -/
theorem soundStart_reset {env : BootEnv} (hsec : env.secureMarchOk = true) (hexch : env.exchangeMarchOk = true)
    (hflash : env.flashTableOk = true) (hreach : env.reachesStep7 = true) (hrow : env.activeFwiRow = 0) (i : Image) :
    SoundStart env (State.reset.modFw fun u => { u with fwiActive := some i }) where
  otp := by
    rw [regionBad_congr (State.modFw_otp State.reset _)]
    decide
  secureMarch := hsec
  exchangeMarch := hexch
  flashTable := hflash
  reaches := hreach
  row := hrow
  image := rfl
  noTrial := rfl
  noActivate := rfl
  noRevert := rfl
  failed := Nat.two_pos
  noStructure := rfl

/-- On a sound start the boot ROM chooses the active image. -/
theorem chooseFwi_of_soundStart {env : BootEnv} {s : State} (h : SoundStart env s) :
    chooseFwi env (romDone env (released env s)) = some (romDone env (released env s)) := by
  have hfw : (romDone env (released env s)).fw = s.fw.kept := fw_of_startView (startView_romDone env _)
  have hdev : (romDone env (released env s)).dev = (released env s).dev := dev_of_startView (startView_romDone env _)
  apply chooseFwi_active
  · rw [hfw]; exact h.noActivate
  · rw [hfw]; exact h.noRevert
  · rw [hfw]; exact h.noTrial
  · rw [hdev, released_fwiSlot]
  · rw [hdev]; exact (released_failed_le env s).trans_lt h.failed
  · rw [hfw]; exact h.image
  · exact h.row

/-- The block as firmware begins on a release of RST_N. -/
def firmwareStart (env : BootEnv) (s : State) : State := inFirmware env (romDone env (released env s))

theorem firmwareStart_rstN (env : BootEnv) (s : State) : (firmwareStart env s).dev.rstN = true := by
  rw [firmwareStart, dev_of_startView (startView_inFirmware env _), State.modDev_dev,
    dev_of_startView (startView_romDone env _), released_rstN]

theorem firmwareStart_str_active (env : BootEnv) (s : State) : (firmwareStart env s).str.active = s.str.active := by
  rw [firmwareStart, str_of_startView (startView_inFirmware env _), State.modDev_str,
    str_of_startView (startView_romDone env _), released_str_active]

theorem firmwareStart_now (env : BootEnv) (s : State) : (firmwareStart env s).now = s.now := by
  rw [firmwareStart, now_of_startView (startView_inFirmware env _), State.modDev_now,
    now_of_startView (startView_romDone env _), released_now]

theorem firmwareStart_cause (env : BootEnv) (s : State) :
    (firmwareStart env s).rd Reg.devResetCause = (released env s).rd Reg.devResetCause := by
  rw [firmwareStart, cause_of_startView (startView_inFirmware env _), State.modDev_rd,
    cause_of_startView (startView_romDone env _)]

/-- A sound start ends in CONFIGURE. -/
theorem startView_boot_released {env : BootEnv} {s : State} (h : SoundStart env s) :
    (boot env (released env s)).startView = (inConfigure (firmwareStart env s)).startView := by
  have hotp : (List.range 6).find? (regionBad (released env s)) = none := by
    rw [regionBad_congr (released_otp env s), h.otp]
  have hnone : (firmwareStart env s).str.active = none := by rw [firmwareStart_str_active, h.noStructure]
  rw [boot_of_sound hotp h.secureMarch h.exchangeMarch h.flashTable h.reaches (chooseFwi_of_soundStart h)]
  exact startView_reachConfigure hnone env

/-- Settles O7: a start from RST_N_RELEASE follows the boot ROM's checks step by step; what firmware does after it has
entered CONFIGURE leaves the view of start-up as it is. -/
theorem startUp : Obligations.StartUp := by
  intro t s env hrst hotp
  have hotp' : (List.range 6).find? (regionBad (s.arrive t)) = none := by rwa [regionBad_congr (State.arrive_otp s t)]
  constructor
  · intro hsec hexch hflash hreach hrow himg htrial hact hrev hfail _ hstr
    have hview := startView_boot_released (s := s.arrive t)
      ⟨hotp', hsec, hexch, hflash, hreach, hrow, himg, htrial, hact, hrev, hfail, hstr⟩
    have hdev := dev_of_startView hview
    rw [inConfigure_dev] at hdev
    refine ⟨_, exec_rstNRelease hrst t env, ?_, ?_, ?_, ?_, ?_⟩
    · exact congrArg Dev.mode hdev
    · exact (congrArg Dev.rstN hdev).trans (firmwareStart_rstN env _)
    · exact congrArg Dev.stage hdev
    · have hpress : (boot env (released env (s.arrive t))).pressBase = (max s.now t : Nat) := by
        rw [pressBase_of_startView hview, inConfigure_pressBase, firmwareStart_now]
        rfl
      simp [State.press, hpress]
    · have hbit := released_devResetCause env (s.arrive t)
      rwa [← firmwareStart_cause, ← inConfigure_cause, ← cause_of_startView hview, releaseCause_eq] at hbit
  · intro hsec
    refine ⟨_, exec_rstNRelease hrst t env, ?_⟩
    rw [boot_of_secureMarch_failed (by rwa [regionBad_congr (released_otp env _)]) hsec]
    exact ⟨rfl, rfl, rfl, rfl⟩

end Sys2Proof.Machine
end

section
/-! The structure loader (R39, R40): what the commands of a transfer do. -/
namespace Sys2Proof.Machine

open Sys2Proof.Claim

/-! ## The effect of a command, as a claim names it -/

/-- A meaning of the common form leaves what any effect leaves that agrees with its own on the state at arrival. -/
theorem run_eq_after {t : Nat} {s : State} {f g : State → State} (h : f (s.arrive t) = g (s.arrive t)) :
    run t s f = .next (after t s g) := by
  rw [run_eq, h]
  rfl

/-- The same of a ring command where rings run. -/
theorem ringCmd_eq_after {t : Nat} {s : State} {f g : State → State} (hr : s.ringsRun = true)
    (h : f (s.arrive t) = g (s.arrive t)) : ringCmd t s f = .next (after t s g) := by
  rw [ringCmd_eq hr, run_eq_after h]

/-! ## STR_LOAD_BEGIN -/

/-- With no structure transfer open STR_LOAD_BEGIN is decided by the header's rows. -/
theorem exec_strLoadBegin {s : State} (hr : s.ringsRun = true) (hopen : strOpen s = false)
    (hdis : s.isDisabled 0x01 0 = false) (t length : Nat) (header : Bytes) :
    exec (.strLoadBegin t length header) s = .next (after t s fun s =>
      if headerRow header (imageCtx s 2 length) = 0 then
        complete .supervisor .ok 0
          (s.modStr fun x => { x with err := ⟨0, 0, 0⟩, load := some (newTransfer s 2 length header) })
      else complete .supervisor (rowStatus (headerRow header (imageCtx s 2 length))) 0
        (s.modStr fun x => { x with err := ⟨0, 0, 0⟩ })) := by
  change execStrLoadBegin t length header s = _
  refine ringCmd_eq_after hr ?_
  have hopen' : strOpen (s.arrive t) = false := hopen
  have hdis' : (s.arrive t).isDisabled 0x01 0 = false := hdis
  have hctx : imageCtx ((s.arrive t).modStr fun x => { x with err := ⟨0, 0, 0⟩ }) 2 length =
      imageCtx (s.arrive t) 2 length := rfl
  simp only [hopen', hdis', hctx, Bool.false_eq_true, if_false]
  split
  case h_1 h0 =>
    rw [if_pos h0]
    rfl
  case h_2 hne => rw [if_neg hne]

/-! ## What a block and the end of a transfer are judged by -/

/-- A block that continues the transfer and stays within its length is judged by the CRC words alone. -/
theorem blockStatus_of_continues {x : Transfer} {data : Bytes} (hpos : 0 < data.length) (hmax : data.length ≤ 65536)
    (hfit : x.data.length + data.length ≤ x.length) :
    blockStatus x x.data.length data =
      if crcOk (x.data ++ data) (decide (x.data.length + data.length = x.length)) then .ok else .integrity := by
  have hne : data ≠ [] := List.ne_nil_of_length_pos hpos
  simp [blockStatus, hne, hmax.not_gt, hfit.not_gt]

/-- A block out of order is refused with RANGE. -/
theorem blockStatus_of_offset_ne {x : Transfer} {offset : Nat} (h : offset ≠ x.data.length) (data : Bytes) :
    blockStatus x offset data = .range := if_pos (.inl h)

/-- A complete image that is signed passes. -/
theorem endStatus_of_signed {s : State} {x : Transfer} (hlen : x.data.length = x.length)
    (hsig : signatureOk x.data (classDigest s x.cls) = true) : endStatus s x = .ok := by
  simp [endStatus, hlen, hsig]

/-- A complete image that is not signed is refused with INTEGRITY. -/
theorem endStatus_of_unsigned {s : State} {x : Transfer} (hlen : x.data.length = x.length)
    (hsig : signatureOk x.data (classDigest s x.cls) = false) : endStatus s x = .integrity := by
  simp [endStatus, hlen, hsig]

/-! ## STR_LOAD_BLOCK -/

section
variable {s : State} {x : Transfer} (hr : s.ringsRun = true) (hx : s.str.load = some x)
include hr hx

/-- A block without a refusal is kept. -/
theorem exec_strLoadBlock_of_ok {offset : Nat} {data : Bytes} (h : blockStatus x offset data = .ok) (t : Nat) :
    exec (.strLoadBlock t offset data) s = .next (after t s fun s =>
      complete .supervisor .ok 0 (s.modStr fun y => { y with load := some (x.add s.now data) })) := by
  change execStrLoadBlock t offset data s = _
  refine ringCmd_eq_after hr ?_
  simp only [State.arrive_str, hx, h]

/-- A refused block ends the transfer with its status. -/
theorem exec_strLoadBlock_of_refused {offset : Nat} {data : Bytes} {st : Status} (h : blockStatus x offset data = st)
    (hst : st ≠ .ok) (t : Nat) :
    exec (.strLoadBlock t offset data) s = .next (after t s fun s =>
      complete .supervisor st 0 (s.modStr fun y => { y with load := none })) := by
  subst h
  change execStrLoadBlock t offset data s = _
  refine ringCmd_eq_after hr ?_
  simp only [State.arrive_str, hx]

/-- A block that continues the transfer is kept, or ends the transfer with INTEGRITY. -/
theorem exec_strLoadBlock_of_continues {data : Bytes} (hpos : 0 < data.length) (hmax : data.length ≤ 65536)
    (hfit : x.data.length + data.length ≤ x.length) (t : Nat) :
    exec (.strLoadBlock t x.data.length data) s = .next (after t s fun s =>
      if crcOk (x.data ++ data) (decide (x.data.length + data.length = x.length)) then
        complete .supervisor .ok 0 (s.modStr fun y => { y with load := some (x.add s.now data) })
      else complete .supervisor .integrity 0 (s.modStr fun y => { y with load := none })) := by
  have hstatus := blockStatus_of_continues hpos hmax hfit
  by_cases hcrc : crcOk (x.data ++ data) (decide (x.data.length + data.length = x.length)) = true
  · rw [if_pos hcrc] at hstatus
    simp only [if_pos hcrc, exec_strLoadBlock_of_ok hr hx hstatus]
  · rw [if_neg hcrc] at hstatus
    simp only [if_neg hcrc, exec_strLoadBlock_of_refused hr hx hstatus (by decide)]

/-! ## STR_LOAD_END -/

/-- An image that is not signed ends with INTEGRITY. -/
theorem exec_strLoadEnd_of_unsigned (hlen : x.data.length = x.length)
    (hsig : signatureOk x.data (classDigest s x.cls) = false) (t : Nat) :
    exec (.strLoadEnd t) s = .next (after t s fun s =>
      complete .supervisor .integrity 0 (s.modStr fun y => { y with load := none })) := by
  change execStrLoadEnd t s = _
  refine ringCmd_eq_after hr ?_
  have hend : endStatus ((s.arrive t).modStr fun y => { y with load := none }) x = .integrity :=
    endStatus_of_unsigned hlen hsig
  simp only [State.arrive_str, hx, hend]

/-- A signed image with a sound body goes to the staged slot. -/
theorem exec_strLoadEnd_of_sound (hlen : x.data.length = x.length)
    (hsig : signatureOk x.data (classDigest s x.cls) = true) {tb : StructTables}
    (hbody : checkBody (Image.body ⟨x.data⟩) = .inr tb) (t : Nat) :
    exec (.strLoadEnd t) s = .next (after t s fun s =>
      complete .supervisor .ok 0 (s.modStr fun y => { y with load := none, staged := some ⟨x.data⟩ })) := by
  change execStrLoadEnd t s = _
  refine ringCmd_eq_after hr ?_
  have hend : endStatus ((s.arrive t).modStr fun y => { y with load := none }) x = .ok := endStatus_of_signed hlen hsig
  simp only [State.arrive_str, hx, hend, hbody]
  rfl

/-- A signed image whose body is refused leaves the refusal in STR_ERR. -/
theorem exec_strLoadEnd_of_unsound (hlen : x.data.length = x.length)
    (hsig : signatureOk x.data (classDigest s x.cls) = true) {e : BodyErr}
    (hbody : checkBody (Image.body ⟨x.data⟩) = .inl e) (t : Nat) :
    exec (.strLoadEnd t) s = .next (after t s fun s =>
      complete .supervisor e.st 0 (s.modStr fun y => { y with load := none, err := ⟨e.record, e.offset, e.sect⟩ })) := by
  change execStrLoadEnd t s = _
  refine ringCmd_eq_after hr ?_
  have hend : endStatus ((s.arrive t).modStr fun y => { y with load := none }) x = .ok := endStatus_of_signed hlen hsig
  simp only [State.arrive_str, hx, hend, hbody]
  rfl

/-- The end of a complete transfer: the staged slot takes the image exactly when it is signed and its body sound. -/
theorem leaves_strLoadEnd (hlen : x.data.length = x.length) (t : Nat) :
    Leaves (.strLoadEnd t) s fun s' => s'.str.load = none ∧ s'.str.active = s.str.active ∧
      s'.str.staged = if signatureOk x.data (classDigest s x.cls) && (checkBody (Image.body ⟨x.data⟩)).isRight
        then some ⟨x.data⟩ else s.str.staged := by
  cases hsig : signatureOk x.data (classDigest s x.cls) with
  | false =>
    refine ⟨_, exec_strLoadEnd_of_unsigned hr hx hlen hsig t, ?_⟩
    simp [after]
  | true =>
    cases hbody : checkBody (Image.body ⟨x.data⟩) with
    | inl e =>
      refine ⟨_, exec_strLoadEnd_of_unsound hr hx hlen hsig hbody t, ?_⟩
      simp [after]
    | inr tb =>
      refine ⟨_, exec_strLoadEnd_of_sound hr hx hlen hsig hbody t, ?_⟩
      simp [after]

end

/-! ## STR_TRANSFER_TIMEOUT -/

/-- A transfer with no command for 10 s is discarded. -/
theorem exec_strTransferTimeout {s : State} {x : Transfer} {t : Nat} (hx : s.str.load = some x)
    (hold : x.lastAt + 10 * sec8 ≤ max s.now t) :
    exec (.strTransferTimeout t) s = .next (after t s fun s => s.modStr fun y => { y with load := none }) := by
  change execStrTransferTimeout t s = _
  refine run_eq_after ?_
  have hstale : ((s.arrive t).str.load.any fun y => y.stale (s.arrive t).now) = true := by
    rw [State.arrive_str, State.arrive_now, hx, Option.any_some]
    exact decide_eq_true hold
  exact if_pos hstale

end Sys2Proof.Machine
end

section
/-! Structure activation (R41, R42, R439), and obligation O9. -/
namespace Sys2Proof.Machine

open Sys2Proof.Claim

/-! ## STR_ACTIVATE -/

/-- A frame to a hub leaves the view of start-up, and with it device time, as it was. -/
theorem startView_pushRel (l : Fin 64) (f : MlkTx) (s : State) : (pushRel l f s).startView = s.startView := by
  unfold pushRel
  simp only []
  split <;> rfl

theorem startView_sendHubRel (h : EndpointRec) (f : MlkTx) (s : State) : (sendHubRel h f s).startView = s.startView := by
  unfold sendHubRel
  split
  · exact startView_pushRel h.lane0 f s
  · rfl

theorem startView_sendHubMode (armed : Bool) (s : State) : (sendHubMode armed s).startView = s.startView :=
  startView_foldl (fun s h => startView_sendHubRel h _ s) _ s

theorem dropStructure_now (s : State) : (dropStructure s).now = s.now := by
  change (sendHubMode false s).now = s.now
  exact now_of_startView (startView_sendHubMode false s)

/-- Step 1 of Table 2.13, dated by the state that it begins from. -/
theorem beginActivation_eq (slot : Nat) (byModeSet : Bool) (s : State) :
    beginActivation slot byModeSet s = parkPins ((dropStructure s).modDev fun d =>
      { d with activating := some ⟨slot, s.now, byModeSet⟩, mode := .configure }) := by
  rw [← dropStructure_now s]
  rfl

/-- An admitted sensitive command acts on the state with its session in use. -/
theorem sensitive_eq {s : State} (h : sensitiveRefused s = false) (f : State → State) : sensitive f s = f (used s) := by
  rw [sensitive, h]
  rfl

/-- An admitted STR_ACTIVATE is decided by its conditions on the state at arrival. -/
theorem exec_strActivate {s : State} (hr : s.ringsRun = true) (hadm : sensitiveRefused s = false) (t slot : Nat) :
    exec (.strActivate t slot) s = .next (after t s fun s' =>
      admitCmd .supervisor (activateConds s slot) (beginActivation slot false) (used s')) := by
  change execStrActivate t slot s = _
  refine ringCmd_eq_after hr ?_
  have hadm' : sensitiveRefused (s.arrive t) = false := hadm
  rw [strActivateCmd, sensitive_eq hadm']
  rfl

/-- Under the conditions of R41 STR_ACTIVATE is not refused. -/
theorem firstRefusal_activateConds_ok {s : State} {slot : Nat} (hslot : slot < 2)
    (hmode : s.modeIn [.configure, .standby] = true) (hjobs : contextsBusy s = false) (hax : s.anyAxisEn = false)
    (himg : (strSlot s slot).isSome = true) (hact : s.dev.activating = none) :
    firstRefusal (activateConds s slot) = .ok := by
  have hnone : (strSlot s slot).isNone = false := Option.isNone_eq_false_iff.mpr himg
  have hrange : ¬ 1 < slot := by omega
  simp [activateConds, hmode, hjobs, hax, hnone, hact, hrange]

/-- In PRINT STR_ACTIVATE is refused with BAD_MODE. -/
theorem firstRefusal_activateConds_print {s : State} (hmode : s.dev.mode = .print) (slot : Nat) :
    firstRefusal (activateConds s slot) = .badMode := by
  simp [activateConds, State.modeIn, hmode]

/-! ## STR_ACTIVATION_DONE -/

section
variable {s : State} {a : Activation} (ha : s.dev.activating = some a)
include ha

/-- Without a refusal STR_ACTIVATION_DONE installs the tables, switches the slots (R42) and enters STANDBY. -/
theorem exec_strActivationDone_of_inr {row : CheckRow} {ok : Bool} {tb : StructTables}
    (hres : activationResult s a.slot row ok = .inr tb) (t : Nat) :
    exec (.strActivationDone t row ok) s = .next (after t s fun s => complete .supervisor .ok 0
      (enterStandby ((installStructure tb (s.modDev fun d => { d with activating := none })).modStr (switchSlots a.slot)))) := by
  change execStrActivationDone t row ok s = _
  refine run_eq_after ?_
  have hres' : activationResult ((s.arrive t).modDev fun d => { d with activating := none }) a.slot row ok = .inr tb := hres
  simp only [State.arrive_dev, ha, hres']

/-- With a refusal it completes with that code; a failing row of Table 23.2 also empties the slot (R439). -/
theorem exec_strActivationDone_of_inl {row : CheckRow} {ok : Bool} {st : Status}
    (hres : activationResult s a.slot row ok = .inl st) (t : Nat) :
    exec (.strActivationDone t row ok) s = .next (after t s fun s => complete .supervisor st 0
      (when (row != 0) (fun s => s.modStr (emptySlot a.slot)) (s.modDev fun d => { d with activating := none }))) := by
  change execStrActivationDone t row ok s = _
  refine run_eq_after ?_
  have hres' : activationResult ((s.arrive t).modDev fun d => { d with activating := none }) a.slot row ok = .inl st := hres
  simp only [State.arrive_dev, ha, hres']

/-- A sound image is installed, and the slots switch (R42). -/
theorem exec_strActivationDone_of_sound {i : Image} {tb : StructTables} (hi : strSlot s a.slot = some i)
    (hbody : checkBody i.body = .inr tb) (t : Nat) :
    exec (.strActivationDone t 0 true) s = .next (after t s fun s => complete .supervisor .ok 0
      (enterStandby ((installStructure tb (s.modDev fun d => { d with activating := none })).modStr (switchSlots a.slot)))) := by
  have hres : activationResult s a.slot 0 true = .inr tb := by
    simp [activationResult, hi, imageTables, hbody]
  exact exec_strActivationDone_of_inr ha hres t

/-- A failure in step 3 completes with INTEGRITY. -/
theorem exec_strActivationDone_of_installFailed (t : Nat) :
    exec (.strActivationDone t 0 false) s = .next (after t s fun s =>
      complete .supervisor .integrity 0 (s.modDev fun d => { d with activating := none })) := by
  have hres : activationResult s a.slot 0 false = .inl .integrity := by
    simp [activationResult]
  exact exec_strActivationDone_of_inl ha hres t

/-- An image that fails a row of Table 23.2 leaves its slot empty and completes with the row's code (R439). -/
theorem exec_strActivationDone_of_row {row : CheckRow} (hrow : row ≠ 0) (t : Nat) (ok : Bool) :
    exec (.strActivationDone t row ok) s = .next (after t s fun s => complete .supervisor (rowStatus row) 0
      ((s.modDev fun d => { d with activating := none }).modStr (emptySlot a.slot))) := by
  have hres : activationResult s a.slot row ok = .inl (rowStatus row) := if_pos hrow
  have hne : (row != 0) = true := bne_iff_ne.mpr hrow
  rw [exec_strActivationDone_of_inl ha hres, hne]
  rfl

end

/-! ## The obligation -/

/-- Settles O9: each clause is the meaning of its command under the clause's conditions. -/
theorem structures : Obligations.Structures := by
  refine ⟨fun t s => ⟨?_, ?_, ?_, ?_, ?_, ?_⟩, fun t s => ⟨?_, ?_, ?_, ?_, ?_⟩⟩
  · intro length header hr hopen hdis
    exact exec_strLoadBegin hr hopen hdis t length header
  · rintro x _ data hr hx rfl hpos hmax hfit
    exact exec_strLoadBlock_of_continues hr hx hpos hmax hfit t
  · intro x offset data hr hx hne
    exact exec_strLoadBlock_of_refused hr hx (blockStatus_of_offset_ne hne data) (by decide) t
  · intro x hr hx hlen hsig
    exact exec_strLoadEnd_of_unsigned hr hx hlen hsig t
  · intro x hr hx hlen
    obtain ⟨s', hnext, hload, hactive, hstaged⟩ := leaves_strLoadEnd hr hx hlen t
    refine ⟨s', hnext, hload, hactive, ?_, fun hbody hsig => by simpa [hbody, hsig] using hstaged⟩
    split at hstaged
    case isTrue h =>
      obtain ⟨hsig, hbody⟩ := Bool.and_eq_true_iff.mp h
      exact .inr ⟨hstaged, hbody, hsig⟩
    case isFalse => exact .inl hstaged
  · intro x hx hold
    exact exec_strTransferTimeout hx hold
  · intro slot hr hadm hslot hmode hjobs hax himg hact
    rw [exec_strActivate hr hadm]
    simp only [admitCmd_ok _ _ _ (firstRefusal_activateConds_ok hslot hmode hjobs hax himg hact), beginActivation_eq]
    rfl
  · intro slot hr hadm hmode
    rw [exec_strActivate hr hadm]
    simp only [admitCmd_refused _ _ _ (firstRefusal_activateConds_print hmode slot) (by decide)]
  · intro a i tb ha hi hbody
    exact exec_strActivationDone_of_sound ha hi hbody t
  · intro a ha
    exact exec_strActivationDone_of_installFailed ha t
  · intro a row ok ha hrow
    exact exec_strActivationDone_of_row ha hrow t ok

end Sys2Proof.Machine
end

section
/-! MODE_SET (R44 to R46), and obligation O3. -/
namespace Sys2Proof.Machine

open Sys2Proof.Claim

/-! ## What decides MODE_SET -/

/-- Without a refusal MODE_SET leaves what its transition leaves. -/
theorem exec_modeSet_of_ok {s : State} {t target : Nat} {g : State → State} (hr : s.ringsRun = true)
    (hc : firstRefusal (modeConds s target) = .ok) (hg : modeTo target (s.arrive t) = g (s.arrive t)) :
    exec (.modeSet t target) s = .next (after t s g) := by
  change execModeSet t target s = _
  refine ringCmd_eq_after hr ?_
  have hc' : firstRefusal (modeConds (s.arrive t) target) = .ok := hc
  rw [admitCmd_ok _ _ _ hc', hg]

/-- With a refusal it completes with the status. -/
theorem refuses_modeSet {s : State} {target : Nat} {st : Status} (hr : s.ringsRun = true)
    (hc : firstRefusal (modeConds s target) = st) (hst : st ≠ .ok) (t : Nat) : Refuses (.modeSet t target) t s st := by
  change execModeSet t target s = _
  refine ringCmd_eq_after hr ?_
  have hc' : firstRefusal (modeConds (s.arrive t) target) = st := hc
  exact admitCmd_refused _ _ _ hc' hst

/-- CONFIGURE, STANDBY, SERVICE and PRINT are targets. -/
theorem target_inRange {target : Nat} (hpos : 0 < target) (hlt : target < 5) :
    (target == 0 || decide (5 ≤ target)) = false :=
  Bool.or_eq_false_iff.mpr ⟨beq_eq_false_iff_ne.mpr hpos.ne', decide_eq_false hlt.not_ge⟩

/-- The present mode is not refused while no activation runs. -/
theorem firstRefusal_modeConds_present {s : State} {target : Nat} (hmode : target = s.dev.mode.code)
    (hpos : 0 < target) (hlt : target < 5) (hact : s.dev.activating = none) :
    firstRefusal (modeConds s target) = .ok := by
  have hrange : (target == 0 || decide (5 ≤ target)) = false := target_inRange hpos hlt
  have hsame : (target == s.dev.mode.code) = true := beq_iff_eq.mpr hmode
  simp [modeConds, hrange, hsame, hact]

/-- A transition of Table 3.1 is not refused while its conditions are met and no activation runs. -/
theorem firstRefusal_modeConds_step {s : State} {target : Nat} (hpos : 0 < target) (hlt : target < 5)
    (hstep : modeStep s.dev.mode target = true) (hpin : 3 ≤ target → s.dev.holdN = true)
    (hfree : modeBlocked s target = false) (hact : s.dev.activating = none) :
    firstRefusal (modeConds s target) = .ok := by
  have hrange : (target == 0 || decide (5 ≤ target)) = false := target_inRange hpos hlt
  have hsafe : ((target == 3 || target == 4) && !(target == s.dev.mode.code) && !s.dev.holdN) = false := by
    by_cases h : 3 ≤ target
    · simp [hpin h]
    · have h3 : target ≠ 3 := by omega
      have h4 : target ≠ 4 := by omega
      simp [h3, h4]
  simp [modeConds, hrange, hsafe, hstep, hfree, hact]

/-- BOOT, RECOVERY and unknown targets are refused with RANGE. -/
theorem firstRefusal_modeConds_range {target : Nat} (h : target = 0 ∨ 5 ≤ target) (s : State) :
    firstRefusal (modeConds s target) = .range := by
  have hrange : (target == 0 || decide (5 ≤ target)) = true := by simpa using h
  simp [modeConds, hrange]

/-- A transition that Table 3.1 lacks is refused with BAD_MODE. -/
theorem firstRefusal_modeConds_badMode {s : State} {target : Nat} (hpos : 0 < target) (hlt : target < 5)
    (hsame : target ≠ s.dev.mode.code) (hstep : modeStep s.dev.mode target = false) :
    firstRefusal (modeConds s target) = .badMode := by
  have hrange : (target == 0 || decide (5 ≤ target)) = false := target_inRange hpos hlt
  have hother : (target == s.dev.mode.code) = false := beq_eq_false_iff_ne.mpr hsame
  simp [modeConds, hrange, hother, hstep]

/-- SERVICE and PRINT are refused with SAFETY while HOLD_N is asserted. -/
theorem firstRefusal_modeConds_safety {s : State} {target : Nat} (ht : target = 3 ∨ target = 4)
    (hmode : s.dev.mode = .standby) (hpin : s.dev.holdN = false) :
    firstRefusal (modeConds s target) = .safety := by
  obtain rfl | rfl := ht <;> simp [modeConds, hmode, hpin, Mode.code, modeStep]

/-! ## The transitions -/

/-- A pin that is not asserted as a mode is entered sets no cause (R46). -/
theorem entryCauses_of_pins {s : State} (hn : s.dev.holdN = true) (hf : s.dev.fireEn = true) : entryCauses s = s := by
  simp [entryCauses, hn, hf]

/-- Telling the hubs and completing leave the mode and its companions as a transition has set them. -/
theorem complete_sendHubMode_dev (armed : Bool) (f : Dev → Dev) (s : State) :
    (complete .supervisor .ok 0 (sendHubMode armed (s.modDev f))).dev = f s.dev := by
  rw [complete_dev, dev_of_startView (startView_sendHubMode armed _)]
  rfl

/-- The present mode as target changes nothing. -/
theorem modeTo_present {s : State} {target : Nat} (h : target = s.dev.mode.code) :
    modeTo target s = complete .supervisor .ok 0 s := if_pos h

section
variable {s : State}

/-- From STANDBY with its pins in order MODE_SET enters SERVICE. -/
theorem modeTo_service (hmode : s.dev.mode = .standby) (hn : s.dev.holdN = true) (hf : s.dev.fireEn = true) :
    modeTo 3 s = complete .supervisor .ok 0 (sendHubMode true (s.modDev fun d => { d with mode := .service })) := by
  have hto : modeTo 3 s =
      entryCauses (complete .supervisor .ok 0 (sendHubMode true (s.modDev fun d => { d with mode := .service }))) := by
    simp [modeTo, hmode, Mode.code]
  rw [hto, entryCauses_of_pins]
  · rwa [complete_sendHubMode_dev]
  · rwa [complete_sendHubMode_dev]

/-- From STANDBY with its pins in order MODE_SET enters PRINT. -/
theorem modeTo_print (hmode : s.dev.mode = .standby) (hn : s.dev.holdN = true) (hf : s.dev.fireEn = true) :
    modeTo 4 s = complete .supervisor .ok 0 (sendHubMode true (s.modDev fun d => { d with mode := .print })) := by
  have hto : modeTo 4 s =
      entryCauses (complete .supervisor .ok 0 (sendHubMode true (s.modDev fun d => { d with mode := .print }))) := by
    simp [modeTo, hmode, Mode.code]
  rw [hto, entryCauses_of_pins]
  · rwa [complete_sendHubMode_dev]
  · rwa [complete_sendHubMode_dev]

/-- From SERVICE and PRINT MODE_SET goes back to STANDBY. -/
theorem modeTo_standby (hmode : s.dev.mode = .service ∨ s.dev.mode = .print) :
    modeTo 2 s = complete .supervisor .ok 0 (sendHubMode false (s.modDev fun d => { d with mode := .standby })) := by
  obtain hmode | hmode := hmode <;> simp [modeTo, hmode, Mode.code]

end

/-- Settles O3: each target is judged by the conditions of R45 in their order, and a target that passes is one of the
transitions above. -/
theorem modeSet : Obligations.ModeSet := by
  intro t s hr hact
  refine ⟨?_, ?_, ?_, ?_, ?_, ?_, ?_, ?_⟩
  · intro hmode hcause hn hf
    refine exec_modeSet_of_ok hr ?_ (modeTo_service (s := s.arrive t) hmode hn hf)
    exact firstRefusal_modeConds_step (by decide) (by decide) (by rw [hmode]; rfl) (fun _ => hn)
      (by simp [modeBlocked, hmode, hcause]) hact
  · intro hmode hcause hn hf hpair
    refine exec_modeSet_of_ok hr ?_ (modeTo_print (s := s.arrive t) hmode hn hf)
    exact firstRefusal_modeConds_step (by decide) (by decide) (by rw [hmode]; rfl) (fun _ => hn)
      (by simp [modeBlocked, hmode, hcause, hf, hpair]) hact
  · intro hmode hhold hserv
    refine exec_modeSet_of_ok hr ?_ (modeTo_standby (s := s.arrive t) (.inl hmode))
    exact firstRefusal_modeConds_step (by decide) (by decide) (by rw [hmode]; rfl) (by omega)
      (by simp [modeBlocked, hmode, hhold, hserv]) hact
  · intro hmode hhold hjobs
    refine exec_modeSet_of_ok hr ?_ (modeTo_standby (s := s.arrive t) (.inr hmode))
    exact firstRefusal_modeConds_step (by decide) (by decide) (by rw [hmode]; rfl) (by omega)
      (by simp [modeBlocked, hmode, hhold, hjobs]) hact
  · intro hmode _
    have hcode : 3 = s.dev.mode.code := by rw [hmode]; rfl
    exact exec_modeSet_of_ok hr (firstRefusal_modeConds_present hcode (by decide) (by decide) hact)
      (modeTo_present (s := s.arrive t) hcode)
  · intro target htarget
    exact refuses_modeSet hr (firstRefusal_modeConds_range htarget s) (by decide) t
  · intro hmode
    exact refuses_modeSet hr (firstRefusal_modeConds_badMode (by decide) (by decide) (by rw [hmode]; decide)
      (by rw [hmode]; rfl)) (by decide) t
  · intro hmode hn
    exact refuses_modeSet hr (firstRefusal_modeConds_safety (.inr rfl) hmode hn) (by decide) t

end Sys2Proof.Machine
end

section
/-! Holds (R54), and obligation O4. -/
namespace Sys2Proof.Machine

open Sys2Proof.Claim

/-- Rings run in SERVICE and PRINT. -/
theorem ringsRun_of_modeIn {s : State} (h : s.modeIn [.service, .print] = true) : s.ringsRun = true := by
  obtain hmode | hmode : s.dev.mode = .service ∨ s.dev.mode = .print := by simpa [State.modeIn] using h
  · simp [State.ringsRun, hmode]
  · simp [State.ringsRun, hmode]

/-- With no axis enabled a hold of any class stops none. -/
theorem motionFor_of_disabled {s : State} (hba : ∀ n : Fin 8, (s.ba[n]).en = false)
    (hstp : ∀ n : Fin 16, (s.stp[n]).en = false) (cls : Nat) : motionFor cls s = s := by
  unfold motionFor
  split
  · rfl
  · simp only []
    have hfix : (List.finRange 8).foldl (fun s n => if (s.ba[n]).en then baStop n (cls == 3) s else s) s = s :=
      List.foldl_fixed' (fun n => if_neg (by rw [hba n]; decide)) _
    rw [hfix]
    exact List.foldl_fixed' (fun n => if_neg (by rw [hstp n]; decide)) _

/-- In a hold, a cause of a higher class raises the hold's class, and motion stops as that class asks (R54). -/
theorem holdCause_of_higher {s : State} {bit : Nat} (hmode : s.modeIn [.service, .print] = true)
    (hhold : s.dev.hold = true) (hlt : s.dev.holdClass < causeClass s bit) :
    holdCause bit s = motionFor (causeClass s bit)
      ((latchCause bit s).modDev fun d => { d with holdClass := causeClass s bit }) := by
  have hhold' : (latchCause bit s).dev.hold = true := hhold
  have hlt' : (latchCause bit s).dev.holdClass < causeClass (latchCause bit s) bit := hlt
  rw [holdCause, if_pos hmode]
  simp only [hhold', hlt', if_true]
  rfl

/-- In a hold, HOLD_REQ raises the hold to the class that DEV_CTRL shows once HOLD_REQ_CLASS is written, if that is
higher. -/
theorem exec_holdReq_of_higher {s : State} {cls c : Nat} (hmode : s.modeIn [.service, .print] = true)
    (hhold : s.dev.hold = true) (hc : causeClass (s.setFld Reg.devCtrl 0 5 4 cls) 6 = c) (hlt : s.dev.holdClass < c)
    (t : Nat) :
    exec (.holdReq t cls) s = .next (after t s fun s => motionFor c
      ((latchCause 6 (s.setFld Reg.devCtrl 0 5 4 cls)).modDev fun d => { d with holdClass := c })) := by
  subst hc
  change execHoldReq t cls s = _
  refine run_eq_after ?_
  have hr : (s.arrive t).ringsRun = true := ringsRun_of_modeIn hmode
  exact (if_pos hr).trans (holdCause_of_higher (s := (s.arrive t).setFld Reg.devCtrl 0 5 4 cls) hmode hhold hlt)

/-- SERVICE in a hold of class 1 for FIRE_EN, with a DEV_CTRL that holds class 3 behind DEV_RESET_CAUSE in the list of
register words, against the order of their addresses. -/
def holdOutOfOrder : State :=
  { State.reset with
    dev := { Dev.reset with mode := .service, rstN := true, fireEn := false, hold := true, holdClass := 1,
                            holdCause := 2#8 }
    regs := [(0x14, 1#32), (0x0C, 0x30#32)] }

/-- A write of the reset class 1 passes the word by, and DEV_CTRL still shows class 3. -/
theorem holdOutOfOrder_causeClass : causeClass (holdOutOfOrder.setFld Reg.devCtrl 0 5 4 1) 6 = 3 := by
  have hwrite : holdOutOfOrder.setFld Reg.devCtrl 0 5 4 1 = holdOutOfOrder := rfl
  rw [hwrite]
  decide

/-- So HOLD_REQ with class 1 raises the hold to class 3. -/
theorem leaves_holdReq_holdOutOfOrder : Leaves (.holdReq 0 1) holdOutOfOrder fun s' => s'.dev.holdClass = 3 := by
  refine ⟨_, exec_holdReq_of_higher rfl rfl holdOutOfOrder_causeClass (by decide) 0, ?_⟩
  rw [after, motionFor_of_disabled (by decide) (by decide)]
  rfl

/-- Refutes O4: the clauses on HOLD_REQ do not ask for register words in their canonical order (`State.regsSorted`). Out of
that order HOLD_REQ_CLASS may not read back as written, and then a HOLD_REQ of class 1 raises a hold of class 1. -/
theorem not_holdsStartAndEnd : ¬ Obligations.HoldsStartAndEnd := by
  intro h
  obtain ⟨_, hrunning⟩ := h
  obtain ⟨_, hlatches⟩ := hrunning 0 holdOutOfOrder rfl
  have hkeeps := hlatches 1 (by decide) rfl (by decide)
  obtain ⟨s', hraises, hclass⟩ := leaves_holdReq_holdOutOfOrder
  rw [hkeeps] at hraises
  injection hraises with hstate
  subst hstate
  exact absurd hclass (by decide)

end Sys2Proof.Machine
end

section
/-! Resets (R47, R59, R460), and obligations O5 and O60. -/
namespace Sys2Proof.Machine

open Sys2Proof.Claim

/-! ## RST_N_ASSERT and AON_POWER_ON -/

/-- A word that a filter keeps is found as before. -/
theorem regLookup_filter_of_kept {p : Nat × Word → Bool} {k : Nat} (h : ∀ v, p (k, v) = true) (l : List (Nat × Word)) :
    regLookup k (l.filter p) = regLookup k l := by
  induction l with
  | nil => rfl
  | cons e l ih =>
    obtain ⟨j, w⟩ := e
    by_cases hj : k = j
    · subst hj
      simp [h, regLookup]
    · cases hp : p (j, w) <;> simp [hp, regLookup, hj, ih]

/-- A main power-on keeps the register words of AON. -/
theorem cleared_rd_of_kept {r : RegSpec} {i : Nat} (h : (powerKept.any fun k => k.holds (r.addr i)) = true) (s : State) :
    (cleared true s).rd r i = s.rd r i := by
  have hregs : (cleared true s).regs = s.regs.filter fun w => powerKept.any fun k => k.holds w.1 := rfl
  rw [State.rd, State.rd, hregs, regLookup_filter_of_kept fun _ => h]

/-- A main power-on returns every other register to its reset value. -/
theorem cleared_rd_of_not_kept {r : RegSpec} {i : Nat} (h : (powerKept.any fun k => k.holds (r.addr i)) = false) (s : State) :
    (cleared true s).rd r i = r.reset := by
  have hregs : (cleared true s).regs = s.regs.filter fun w => powerKept.any fun k => k.holds w.1 := rfl
  rw [State.rd, hregs, regLookup_filter_eq_none fun _ => h]
  rfl

/-- The core as RST_N holds it in reset. -/
def heldInReset (s : State) : State := (cleared true s).modDev fun d => { d with rstN := false }

/-- RST_N_ASSERT clears what a main power-on clears, and holds the core in reset. -/
theorem exec_rstNAssert (t ns : Nat) (s : State) : exec (.rstNAssert t ns) s = .next (after t s heldInReset) := rfl

/-- A reset disables every job ring and frees every context. -/
theorem heldInReset_job (s : State) (n : Fin 64) :
    ((heldInReset s).jobRings[n]).enable = false ∧ ((heldInReset s).jobs[n]).st = .free := by
  have hring : (heldInReset s).jobRings = Vector.replicate 64 .reset := rfl
  have hjob : (heldInReset s).jobs = Vector.replicate 64 .free := rfl
  simp only [hring, hjob, Fin.getElem_fin, Vector.getElem_replicate]
  exact ⟨rfl, rfl⟩

/-- The block as AON comes up without VBAT. -/
def aonPowered (s : State) : State :=
  let c := cleared true s
  { c with regs := [], dev := { c.dev with rstN := false }, sems := Vector.replicate 64 .free,
           stp := c.stp.map fun x => { Stp.reset with driverLow := x.driverLow },
           sec := { Sec.reset with rtcBase := -((s.now / sec8 : Nat) : Int) },
           lsi := { c.lsi with xtalOk := false } }

/-- AON_POWER_ON clears what VBAT alone has kept, and marks bit 0 of DEV_RESET_CAUSE. -/
theorem exec_aonPowerOn (t : Nat) (s : State) :
    exec (.aonPowerOn t) s = .next (after t s fun s => markReset 0 (aonPowered s)) := rfl

/-- Where every register holds its reset value, marking bit 0 of DEV_RESET_CAUSE leaves that word alone in the map. -/
theorem markReset_zero_regs {s : State} (h : s.regs = []) : (markReset 0 s).regs = [(0x14, 1#32)] := by
  have hcause : s.rd Reg.devResetCause = 0 := by
    rw [State.rd, h]
    rfl
  have hword : setBits 0 0 0 1 = 1#32 := by decide
  rw [markReset, State.setFld, hcause, hword, State.wr, h]
  rfl

/-- Settles O5: what a reset leaves is a main power-on with the core held in reset; of the register words, a filter keeps
those of AON. -/
theorem resetKeeps : Obligations.ResetKeeps := by
  intro t s
  constructor
  · intro ns
    refine ⟨_, exec_rstNAssert t ns s, rfl, rfl, rfl, rfl, fun n => heldInReset_job (s.arrive t) n, rfl, rfl, rfl, rfl, rfl,
      rfl, rfl, rfl, rfl, rfl, ?_, ?_⟩
    · exact cleared_rd_of_kept (by decide) (s.arrive t)
    · exact cleared_rd_of_not_kept (by decide) (s.arrive t)
  · exact ⟨_, exec_aonPowerOn t s, rfl, rfl, rfl, rfl, markReset_zero_regs rfl⟩

/-- Settles O60: the reset state stores no register word, and each of its vectors repeats one element. -/
theorem resetState : Obligations.ResetState := by
  refine ⟨rfl, rfl, by decide, fun _ _ => rfl, rfl, rfl, fun n => ?_, rfl, rfl, rfl, rfl⟩
  simp only [State.reset, Mlk.reset, Fin.getElem_fin, Vector.getElem_replicate]
  exact ⟨rfl, rfl, rfl, rfl⟩

end Sys2Proof.Machine
end

section
/-! KEY_INSTALL (R127, R386), and obligation O8. -/
namespace Sys2Proof.Machine

open Sys2Proof.Claim

/-- In RETURN the security core never loads SECRET, so a KEY_INSTALL that is admitted returns BAD_STATE (R386). -/
theorem exec_keyInstall_of_return {s : State} {slot kind : Nat} (hr : s.ringsRun = true)
    (hadm : sensitiveRefused s = false) (hlife : lifeCycle s = 3) (hslot : slot ≤ 31) (hkind : kind ≤ 3) (t context : Nat)
    (label : Bytes) :
    exec (.keyInstall t slot kind context label) s = .next (after t s fun s => complete .supervisor .badState 0 (used s)) := by
  change execKeyInstall t slot kind context label s = _
  refine ringCmd_eq_after hr ?_
  have hadm' : sensitiveRefused (s.arrive t) = false := hadm
  have hlife' : lifeCycle (used (s.arrive t)) = 3 := hlife
  have hrange : ¬ (31 < slot ∨ 3 < kind) := by omega
  rw [sensitive_eq hadm']
  exact admitCmd_refused _ _ _ (by simp [keyConds, hrange, hlife']) (by decide)

/-- A device in RETURN with SECRET finalised, its TRNG ready and a session open. -/
def returnInSession : State :=
  { State.reset with
    dev := { Dev.reset with mode := .standby, rstN := true }
    sec := { Sec.reset with session := some { num := 1, lastAct := 0 }, trngReady := true }
    otp := [(128, 7#32), (244, 1#32)] }

/-- Refutes O8: the clauses on KEY_INSTALL do not ask for a life cycle before RETURN. In RETURN with a session open the
command is admitted, and returns BAD_STATE instead of filling the slot (R386). -/
theorem not_entropyAndKeys : ¬ Obligations.EntropyAndKeys := by
  intro h
  obtain ⟨_, hkeys⟩ := h
  obtain ⟨hfill, _⟩ := hkeys 0 0 1 0 [] returnInSession rfl rfl
  obtain ⟨hready, _⟩ := hfill (by decide) (by decide) (by decide) (by decide) rfl
  obtain ⟨_, hinstalls⟩ := hready rfl rfl
  have hinstalled := hinstalls (by decide)
  rw [exec_keyInstall_of_return rfl rfl rfl (by decide) (by decide)] at hinstalled
  injection hinstalled with hstate
  have htable := congrArg (fun s : State => s.cod.table) hstate
  simp only [after, complete_cod] at htable
  exact absurd htable (by decide)

end Sys2Proof.Machine
end

section
/-! Rings and completions (R66, R68, R69), and obligations O11 and O12. -/
namespace Sys2Proof.Machine

/-! ## Reading a ring -/

@[simp] theorem State.setRing_ring_same (s : State) (id : RingId) (r : Ring) : (s.setRing id r).ring id = r := by
  cases id with
  | supervisor | admission => rfl
  | job n => simp [State.ring, State.setRing]

theorem State.setRing_ring_of_ne {id other : RingId} (h : other ≠ id) (s : State) (r : Ring) :
    (s.setRing id r).ring other = s.ring other := by
  cases id with
  | supervisor => cases other with
    | supervisor => contradiction
    | admission | job => rfl
  | admission => cases other with
    | admission => contradiction
    | supervisor | job => rfl
  | job n => cases other with
    | supervisor | admission => rfl
    | job m =>
      have hne : n.val ≠ m.val := fun e => h (by rw [Fin.ext e])
      simp [State.ring, State.setRing, Vector.getElem_set_ne, hne]

@[simp] theorem State.emit_ring (s : State) (o : Out) (id : RingId) : (s.emit o).ring id = s.ring id := by
  cases id <;> rfl

@[simp] theorem State.modSec_ring (s : State) (f : Sec → Sec) (id : RingId) : (s.modSec f).ring id = s.ring id := by
  cases id <;> rfl

@[simp] theorem State.msix_ring (s : State) (v : Nat) (id : RingId) : (s.msix v).ring id = s.ring id := by
  cases id <;> simp [State.ring]

/-! ## What follows from the register words -/

section
variable {s s' : State} (h : s'.regs = s.regs)
include h

theorem rd_of_regs (r : RegSpec) (i : Nat) : s'.rd r i = s.rd r i := by rw [State.rd, State.rd, h]

theorem fld_of_regs (r : RegSpec) (i hi lo : Nat) : s'.fld r i hi lo = s.fld r i hi lo := by
  rw [State.fld, State.fld, rd_of_regs h]

theorem ringCfg_of_regs (id : RingId) : ringCfg s' id = ringCfg s id := by
  cases id <;> exact rd_of_regs h _ _

theorem ringSize_of_regs (id : RingId) : ringSize s' id = ringSize s id := by
  rw [ringSize, ringSize, ringCfg_of_regs h]

theorem ringVector_of_regs (id : RingId) : ringVector s' id = ringVector s id := by
  rw [ringVector, ringVector, ringCfg_of_regs h]

end

/-! ## Writing a completion -/

/-- The entry as it leaves the block. -/
def entryOut (id : RingId) (c : Completion) (r : Ring) : Out :=
  .completion id r.cqTail c.tag c.status r.phase r.sqHead c.result

/-- The completion in its entry, and the tail one on (R66, R68). -/
def entered (id : RingId) (c : Completion) (s : State) : State :=
  let r := s.ring id
  let next := (r.cqTail + 1) % ringSize s id
  (s.emit (entryOut id c r)).setRing id
    { r with cqTail := next, phase := if next = 0 then !r.phase else r.phase, stalled := none }

@[simp] theorem entered_regs (id : RingId) (c : Completion) (s : State) : (entered id c s).regs = s.regs := by
  simp [entered]

@[simp] theorem entered_pci (id : RingId) (c : Completion) (s : State) : (entered id c s).pci = s.pci := by
  simp [entered]

/-- A completion is entered, and the ring's vector follows unless NO_IRQ applies. -/
theorem writeCompletion_eq (id : RingId) (c : Completion) (s : State) :
    writeCompletion id c s =
      if c.noIrq && c.status == 0 then entered id c s else (entered id c s).msix (ringVector s id) := by
  have hregs : (entered id c s).regs = s.regs := entered_regs id c s
  rw [← ringVector_of_regs hregs]
  rfl

theorem writeCompletion_ring_same (id : RingId) (c : Completion) (s : State) :
    (writeCompletion id c s).ring id =
      { s.ring id with cqTail := ((s.ring id).cqTail + 1) % ringSize s id,
                       phase := if ((s.ring id).cqTail + 1) % ringSize s id = 0 then !(s.ring id).phase
                                else (s.ring id).phase,
                       stalled := none } := by
  rw [writeCompletion_eq]
  split <;> simp [entered]

theorem writeCompletion_ring_of_ne {id other : RingId} (h : other ≠ id) (c : Completion) (s : State) :
    (writeCompletion id c s).ring other = s.ring other := by
  rw [writeCompletion_eq]
  split <;> simp [entered, State.setRing_ring_of_ne h]

@[simp] theorem entered_out (id : RingId) (c : Completion) (s : State) :
    (entered id c s).out = s.out ++ [entryOut id c (s.ring id)] := by
  simp [entered, State.emit]

theorem msix_unmasked {s : State} {v : Nat} (h : s.fld Reg.msixCtl v 0 0 ≠ 1) : s.msix v = s.emit (.msix v) := if_neg h

theorem msix_masked {s : State} {v : Nat} (h : s.fld Reg.msixCtl v 0 0 = 1) :
    s.msix v = { s with pci := { s.pci with msixPend := s.pci.msixPend ||| (1#256 <<< v) } } := if_pos h

/-- With the vector unmasked its message follows the entry, unless NO_IRQ applies. -/
theorem writeCompletion_unmasked {id : RingId} {s : State} (h : s.fld Reg.msixCtl (ringVector s id) 0 0 ≠ 1)
    (c : Completion) :
    (writeCompletion id c s).out = s.out ++ (if c.noIrq && c.status == 0 then [entryOut id c (s.ring id)]
      else [entryOut id c (s.ring id), .msix (ringVector s id)]) ∧
    (writeCompletion id c s).pci = s.pci := by
  have h' : (entered id c s).fld Reg.msixCtl (ringVector s id) 0 0 ≠ 1 := by rwa [fld_of_regs (entered_regs id c s)]
  rw [writeCompletion_eq, msix_unmasked h']
  split <;> simp [State.emit]

/-- With the vector masked its pending bit is set in place of the message. -/
theorem writeCompletion_masked {id : RingId} {s : State} (h : s.fld Reg.msixCtl (ringVector s id) 0 0 = 1)
    (c : Completion) :
    (writeCompletion id c s).out = s.out ++ [entryOut id c (s.ring id)] ∧
    (writeCompletion id c s).pci.msixPend = if c.noIrq && c.status == 0 then s.pci.msixPend
      else s.pci.msixPend ||| (1#256 <<< ringVector s id) := by
  have h' : (entered id c s).fld Reg.msixCtl (ringVector s id) 0 0 = 1 := by rwa [fld_of_regs (entered_regs id c s)]
  rw [writeCompletion_eq, msix_masked h']
  split <;> simp

/-! ## The end of a command -/

/-- The ring of a command that has ended. -/
def Ring.ended (r : Ring) : Ring := { r with running := none, enable := r.enable && !r.stopping, stopping := false }

/-- A ring that is not stopping only gives up its command. -/
theorem Ring.ended_of_not_stopping {r : Ring} (h : r.stopping = false) : r.ended = { r with running := none } := by
  simp [Ring.ended, h]

/-- The state of a command that has ended, before its completion: a supervisor ring that stops closes the session. -/
def ended (id : RingId) (s : State) : State :=
  let s' := s.setRing id (s.ring id).ended
  let s' := if (s.ring id).stopping && id == .supervisor then { s' with sec := { s'.sec with session := none } } else s'
  if id == .supervisor then touchSession (s.ring id).running s' else s'

/-- The end of a command moves its ring, and of the rest the security state alone. -/
theorem ended_eq (id : RingId) (s : State) : ∃ x, ended id s = (s.setRing id (s.ring id).ended).modSec fun _ => x := by
  unfold ended touchSession
  simp only []
  split_ifs <;> exact ⟨_, rfl⟩

@[simp] theorem ended_regs (id : RingId) (s : State) : (ended id s).regs = s.regs := by
  obtain ⟨x, hx⟩ := ended_eq id s
  simp [hx]

@[simp] theorem ended_out (id : RingId) (s : State) : (ended id s).out = s.out := by
  obtain ⟨x, hx⟩ := ended_eq id s
  simp [hx]

@[simp] theorem ended_pci (id : RingId) (s : State) : (ended id s).pci = s.pci := by
  obtain ⟨x, hx⟩ := ended_eq id s
  simp [hx]

@[simp] theorem ended_ring_same (id : RingId) (s : State) : (ended id s).ring id = (s.ring id).ended := by
  obtain ⟨x, hx⟩ := ended_eq id s
  simp [hx]

theorem ended_ring_of_ne {id other : RingId} (h : other ≠ id) (s : State) : (ended id s).ring other = s.ring other := by
  obtain ⟨x, hx⟩ := ended_eq id s
  simp [hx, State.setRing_ring_of_ne h]

@[simp] theorem ringSize_ended (id : RingId) (s : State) : ringSize (ended id s) id = ringSize s id :=
  ringSize_of_regs (ended_regs id s) id

@[simp] theorem ringVector_ended (id : RingId) (s : State) : ringVector (ended id s) id = ringVector s id :=
  ringVector_of_regs (ended_regs id s) id

@[simp] theorem cqFull_ended (id : RingId) (s : State) : cqFull (ended id s) id = cqFull s id := by
  simp [cqFull, Ring.ended]

/-- The entry of a completion is that of the ring as the command ran. -/
theorem entryOut_ended (id : RingId) (c : Completion) (r : Ring) : entryOut id c r.ended = entryOut id c r := rfl

/-! ## The completion of a running command -/

/-- The completion of a running command. -/
def completionOf (c : Running) (st : Status) (result : Nat) : Completion := ⟨c.tag, st.code, result, c.noIrq⟩

theorem completionOf_noIrq (c : Running) (st : Status) (result : Nat) : (completionOf c st result).noIrq = c.noIrq := rfl

/-- Of the status codes OK alone is 0. -/
theorem completionOf_status_beq (c : Running) (st : Status) (result : Nat) :
    ((completionOf c st result).status == 0) = (st == .ok) := by cases st <;> rfl

section
variable {s : State} {id : RingId} {c : Running} (hrun : (s.ring id).running = some c)
  (hmute : (s.ring id).mute = false) (st : Status) (result : Nat)
include hrun hmute

/-- A command that ends has its completion written, or waiting while the completion queue is full. -/
theorem complete_eq : complete id st result s =
    if cqFull s id then (ended id s).setRing id { (s.ring id).ended with stalled := some (completionOf c st result) }
    else writeCompletion id (completionOf c st result) (ended id s) := by
  rw [← cqFull_ended, ← ended_ring_same]
  unfold complete
  simp only [hmute, hrun, Bool.false_eq_true, if_false]
  unfold ended
  simp only [hmute, hrun, Ring.ended]
  rfl

theorem complete_of_full (h : cqFull s id = true) : complete id st result s =
    (ended id s).setRing id { (s.ring id).ended with stalled := some (completionOf c st result) } := by
  rw [complete_eq hrun hmute, if_pos h]

theorem complete_of_room (h : cqFull s id = false) :
    complete id st result s = writeCompletion id (completionOf c st result) (ended id s) := by
  rw [complete_eq hrun hmute, if_neg (Bool.eq_false_iff.mp h)]

/-- Where the queue has room and the vector is unmasked, the entry leaves, and the message unless NO_IRQ and OK (R69). -/
theorem complete_unmasked (h : cqFull s id = false) (hmask : s.fld Reg.msixCtl (ringVector s id) 0 0 ≠ 1) :
    (complete id st result s).out = s.out ++ (if c.noIrq && st == .ok
      then [entryOut id (completionOf c st result) (s.ring id)]
      else [entryOut id (completionOf c st result) (s.ring id), .msix (ringVector s id)]) ∧
    (complete id st result s).pci = s.pci := by
  have hmask' : (ended id s).fld Reg.msixCtl (ringVector (ended id s) id) 0 0 ≠ 1 := by
    rwa [fld_of_regs (ended_regs id s), ringVector_ended]
  obtain ⟨hout, hpci⟩ := writeCompletion_unmasked hmask' (completionOf c st result)
  rw [complete_of_room hrun hmute st result h, hout, hpci]
  simp only [ended_out, ended_pci, ended_ring_same, ringVector_ended, completionOf_status_beq, completionOf_noIrq,
    entryOut_ended, and_self]

/-- Where it is masked, the entry leaves, and the pending bit is set unless NO_IRQ and OK (R69, R457). -/
theorem complete_masked (h : cqFull s id = false) (hmask : s.fld Reg.msixCtl (ringVector s id) 0 0 = 1) :
    (complete id st result s).out = s.out ++ [entryOut id (completionOf c st result) (s.ring id)] ∧
    (complete id st result s).pci.msixPend = if c.noIrq && st == .ok then s.pci.msixPend
      else s.pci.msixPend ||| (1#256 <<< ringVector s id) := by
  have hmask' : (ended id s).fld Reg.msixCtl (ringVector (ended id s) id) 0 0 = 1 := by
    rwa [fld_of_regs (ended_regs id s), ringVector_ended]
  obtain ⟨hout, hpend⟩ := writeCompletion_masked hmask' (completionOf c st result)
  rw [complete_of_room hrun hmute st result h, hout, hpend]
  simp only [ended_out, ended_pci, ended_ring_same, ringVector_ended, completionOf_status_beq, completionOf_noIrq,
    entryOut_ended, and_self]

/-- Where the queue has room the entry leaves, whatever becomes of the message. -/
theorem entryOut_mem_complete (h : cqFull s id = false) :
    entryOut id (completionOf c st result) (s.ring id) ∈ (complete id st result s).out := by
  by_cases hmask : s.fld Reg.msixCtl (ringVector s id) 0 0 = 1
  · rw [(complete_masked hrun hmute st result h hmask).1]
    simp
  · rw [(complete_unmasked hrun hmute st result h hmask).1]
    split <;> simp

end

/-- A completion leaves every other ring as it was. -/
theorem complete_ring_of_ne {id other : RingId} {s : State} {c : Running} (h : other ≠ id)
    (hrun : (s.ring id).running = some c) (hmute : (s.ring id).mute = false) (st : Status) (result : Nat) :
    (complete id st result s).ring other = s.ring other := by
  rw [complete_eq hrun hmute]
  split
  · rw [State.setRing_ring_of_ne h, ended_ring_of_ne h]
  · rw [writeCompletion_ring_of_ne h, ended_ring_of_ne h]

/-! ## The obligations -/

/-- Settles O12: the entry and the message are what the writing of a completion lets out, and the pending bit is what it
sets in place of the message. -/
theorem completionVector : Obligations.CompletionVector := by
  intro id st result c s hmute hrun hroom
  exact ⟨complete_unmasked hrun hmute st result hroom, complete_masked hrun hmute st result hroom⟩

/-- Settles O11: a completion with room is written to the ring's entry, one without waits in the ring and keeps it from
taking a descriptor; the vector is that of O12. -/
theorem completions : Obligations.Completions := by
  intro s id c st result hrun hmute hstop
  have hended := Ring.ended_of_not_stopping hstop
  refine ⟨fun hroom => ⟨?_, entryOut_mem_complete hrun hmute st result hroom, fun hmask hloud => ?_⟩,
    fun hfull => ?_, fun other hne => complete_ring_of_ne hne hrun hmute st result⟩
  · rw [complete_of_room hrun hmute st result hroom, writeCompletion_ring_same, ended_ring_same, ringSize_ended, hended]
  · have hquiet : (c.noIrq && st == .ok) = false := by
      obtain h | h := hloud <;> simp [h]
    rw [(complete_unmasked hrun hmute st result hroom hmask).1, hquiet]
    simp
  · rw [complete_of_full hrun hmute st result hfull, hended]
    refine ⟨State.setRing_ring_same .., by simp, ?_⟩
    simp [ringReady]

end Sys2Proof.Machine
end

section
/-! Register bits, alarm latches, and the state without its reports: what alarms, records, outcomes and frames leave. -/
namespace Sys2Proof.Machine

open Sys2Proof.Claim

/-! ## A bit of a register word -/

theorem bitsOf_eq_one_iff (w : Word) (b : Nat) : bitsOf w b b = 1 ↔ w.getLsbD b = true := by
  simp [bitsOf, BitVec.getLsbD, Nat.testBit_eq_decide_div_mod_eq]

/-- A bit that has been set reads 1. -/
theorem setBits_getLsbD (w : Word) {b : Nat} (hb : b < 32) : (setBits w b b 1).getLsbD b = true := by
  have hpos : 0 < 2 ^ b := Nat.two_pow_pos b
  have hquot : (w.toNat - w.toNat / 2 ^ b % 2 * 2 ^ b + 2 ^ b) / 2 ^ b % 2 = 1 := by
    rw [Nat.add_div_right _ hpos, Nat.mul_comm, Nat.sub_mul_div]
    omega
  simp [setBits, bitsOf, BitVec.getLsbD_ofNat, hb, Nat.testBit_eq_decide_div_mod_eq, hquot]

/-! ## The alarm latch -/

/-- The latch bit of an alarm is set once it has been raised. -/
theorem latchAlarm_bitOf {code : Nat} (s : State) :
    bitOf (latchAlarm code s) Reg.evtAlarmLatch (code / 32) (code % 32) = true := by
  unfold latchAlarm
  simp only []
  split
  case isTrue h => exact (bitsOf_eq_one_iff _ _).mp h
  case isFalse =>
    have hbit := setBits_getLsbD (s.rd Reg.evtAlarmLatch (code / 32)) (Nat.mod_lt code (by decide : 0 < 32))
    have hne : setBits (s.rd Reg.evtAlarmLatch (code / 32)) (code % 32) (code % 32) 1 ≠ Reg.evtAlarmLatch.reset := by
      intro h
      rw [h] at hbit
      simp [Reg.evtAlarmLatch] at hbit
    rw [bitOf, rd_of_regs (State.msix_regs _ _), rd_wr_self hne, hbit]

/-- Raising an alarm leaves its latch bit set, whatever becomes of its record. -/
theorem alarm_bitOf (a : Alarm) (inst : Nat) (s : State) :
    bitOf (alarm a inst s) Reg.evtAlarmLatch (a.code / 32) (a.code % 32) = true := by
  have hlatch := latchAlarm_bitOf (code := a.code) s
  have hstatus : Reg.evtAlarmLatch.addr (a.code / 32) ≠ Reg.evtStatus.addr 0 := by
    simp only [RegSpec.addr, Reg.evtAlarmLatch, Reg.evtStatus]
    omega
  unfold alarm alarmArgs
  simp only []
  split_ifs
  · exact hlatch
  · exact hlatch
  · exact hlatch
  · rw [bitOf, State.setFld, rd_wr_of_ne hstatus]
    exact hlatch

/-! ## The state without its reports -/

/-- The state with what reports write set aside: register words, the log path, the fabric, MSI-X pending bits, the
counter of free values, and what leaves the block. -/
def State.sansReports (s : State) : State :=
  { s with free := 0, out := [], regs := [], log := .reset, pci := .reset, xlk := .reset }

section
variable {s s' : State} (h : s'.sansReports = s.sansReports)
include h

/-- What does not read the reports is the same in both. -/
theorem eq_of_sansReports {α : Type} {g : State → α} (hg : ∀ x, g x.sansReports = g x) : g s' = g s := by
  rw [← hg s', h, hg]

theorem jobs_of_sansReports : s'.jobs = s.jobs := eq_of_sansReports h (g := State.jobs) fun _ => rfl

theorem ring_of_sansReports (id : RingId) : s'.ring id = s.ring id :=
  eq_of_sansReports h (g := (State.ring · id)) fun _ => by cases id <;> rfl

theorem sec_of_sansReports : s'.sec = s.sec := eq_of_sansReports h (g := State.sec) fun _ => rfl

theorem sameMotion_of_sansReports : SameMotion s s' := by
  have heq := eq_of_sansReports h (g := fun x => (x.ba, x.sd, x.stp, x.enc)) fun _ => rfl
  simpa only [SameMotion, Prod.mk.injEq] using heq

theorem samePrint_of_sansReports : SamePrint s s' := by
  have heq := eq_of_sansReports h
    (g := fun x => (x.jobs, x.cmp, x.clusters, x.cod, x.planes, x.nzm, x.pac, x.wav, x.ins, x.gov)) fun _ => rfl
  simpa only [SamePrint, Prod.mk.injEq] using heq

theorem sameSecure_of_sansReports : SameSecure s s' := by
  have heq := eq_of_sansReports h (g := fun x => (x.sec, x.otp, x.met, x.cal, x.calStore, x.fw)) fun _ => rfl
  simpa only [SameSecure, Prod.mk.injEq] using heq

end

@[simp] theorem sansReports_emit (s : State) (o : Out) : (s.emit o).sansReports = s.sansReports := rfl
@[simp] theorem sansReports_wr (s : State) (r : RegSpec) (i : Nat) (v : Word) : (s.wr r i v).sansReports = s.sansReports := rfl
@[simp] theorem sansReports_count (s : State) (r : RegSpec) (i k : Nat) : (s.count r i k).sansReports = s.sansReports := rfl
@[simp] theorem sansReports_modLog (s : State) (f : LogState → LogState) : (s.modLog f).sansReports = s.sansReports := rfl
@[simp] theorem sansReports_modXlk (s : State) (f : Xlk → Xlk) : (s.modXlk f).sansReports = s.sansReports := rfl
@[simp] theorem sansReports_modPort (s : State) (n : Fin 32) (f : Port → Port) : (s.modPort n f).sansReports = s.sansReports := rfl
@[simp] theorem sansReports_admitRec (r : LogRec) (s : State) : (admitRec r s).sansReports = s.sansReports := rfl

@[simp] theorem sansReports_msix (s : State) (v : Nat) : (s.msix v).sansReports = s.sansReports := by
  unfold State.msix
  split <;> rfl

/-- Reports one after the other leave what each leaves. -/
theorem sansReports_foldl {α : Type} {f : State → α → State} (h : ∀ s x, (f s x).sansReports = s.sansReports) (l : List α)
    (s : State) : (l.foldl f s).sansReports = s.sansReports := by
  induction l generalizing s with
  | nil => rfl
  | cons x l ih => rw [List.foldl_cons, ih, h]

/-! ## Alarms and records -/

@[simp] theorem sansReports_latchAlarm (code : Nat) (s : State) : (latchAlarm code s).sansReports = s.sansReports := by
  unfold latchAlarm
  simp only []
  split <;> simp

@[simp] theorem sansReports_alarm (a : Alarm) (inst : Nat) (s : State) : (alarm a inst s).sansReports = s.sansReports := by
  unfold alarm alarmArgs
  simp only []
  split_ifs <;> simp [State.setFld]

@[simp] theorem sansReports_writeSummary (cls : LogClass) (s : State) : (writeSummary cls s).sansReports = s.sansReports := by
  unfold writeSummary
  simp only []
  split_ifs <;> simp

@[simp] theorem sansReports_diagNote (code inst : Nat) (s : State) : (diagNote code inst s).sansReports = s.sansReports := rfl

@[simp] theorem sansReports_diag (d : Diag) (inst : Nat) (a0 a1 a2 : Int) (s : State) :
    (diag d inst a0 a1 a2 s).sansReports = s.sansReports := by
  unfold diag
  simp only []
  split_ifs <;> simp

@[simp] theorem sansReports_admitList (bound : State → Nat) (l : List LogRec) (s : State) :
    (admitList bound l s).2.sansReports = s.sansReports := by
  induction l generalizing s with
  | nil => rfl
  | cons r l ih =>
    unfold admitList
    split
    · rw [ih, sansReports_admitRec]
    · rfl

@[simp] theorem sansReports_admitItems (l : List BackEntry) (s : State) :
    (admitItems l s).2.sansReports = s.sansReports := by
  induction l generalizing s with
  | nil => rfl
  | cons e l ih =>
    unfold admitItems
    split
    · split
      · exact ih _
      · rfl
    · exact ih s

@[simp] theorem sansReports_admitWaiting (s : State) : (admitWaiting s).sansReports = s.sansReports := by
  simp [admitWaiting]

@[simp] theorem sansReports_raiseAudit (a : AuditRec) (s : State) : (raiseAudit a s).sansReports = s.sansReports :=
  sansReports_admitWaiting _

@[simp] theorem sansReports_raiseItem (o : OutcomeRec) (s : State) : (raiseItem o s).sansReports = s.sansReports :=
  sansReports_admitWaiting _

/-! ## Frames of the fabric -/

@[simp] theorem sansReports_sendPort (n : Fin 32) (dst : Nat) (f : XlkTx) (s : State) :
    (sendPort n dst f s).sansReports = s.sansReports := by
  unfold sendPort
  simp only []
  split_ifs <;> simp

@[simp] theorem sansReports_sendXlk (dst : Nat) (f : XlkTx) (s : State) : (sendXlk dst f s).sansReports = s.sansReports := by
  unfold sendXlk
  split
  · exact sansReports_foldl (fun s n => sansReports_sendPort n dst f s) _ s
  · split <;> simp

@[simp] theorem sansReports_sendRcheck (ctx : Nat) (package : Bool) (count firstSeq crc : Nat) (s : State) :
    (sendRcheck ctx package count firstSeq crc s).sansReports = s.sansReports := by
  unfold sendRcheck
  split <;> simp

@[simp] theorem sansReports_takeRcheck (r : Nat × Bool × Nat × Nat × Nat) (s : State) :
    (takeRcheck r s).sansReports = s.sansReports := by
  unfold takeRcheck
  split
  · split <;> simp
  · simp [markUnfit]
  · simp

@[simp] theorem sansReports_retryRchecks (ctx : Nat) (s : State) : (retryRchecks ctx s).sansReports = s.sansReports := by
  unfold retryRchecks
  simp only []
  rw [sansReports_foldl fun s r => sansReports_takeRcheck r s, sansReports_modXlk]

end Sys2Proof.Machine
end

section
/-! The ring registers (R67, R70, R71, R383, R389), and obligation O10. -/
namespace Sys2Proof.Machine

open Sys2Proof.Claim

/-! ## A ring at arrival, and written twice -/

@[simp] theorem State.setRing_setRing (s : State) (id : RingId) (r r' : Ring) :
    (s.setRing id r).setRing id r' = s.setRing id r' := by
  cases id with
  | supervisor | admission => rfl
  | job n => simp [State.setRing]

@[simp] theorem State.arrive_ringSize (s : State) (t : Nat) (id : RingId) : ringSize (s.arrive t) id = ringSize s id :=
  ringSize_of_regs rfl id

@[simp] theorem State.setRing_ringSize (s : State) (id : RingId) (r : Ring) : ringSize (s.setRing id r) id = ringSize s id :=
  ringSize_of_regs (State.setRing_regs ..) id

@[simp] theorem State.arrive_inWindow (s : State) (t : Nat) (id : RingId) (addr len : Nat) :
    inWindow (s.arrive t) id addr len = inWindow s id addr len := rfl

@[simp] theorem State.arrive_ringBases (s : State) (t : Nat) (id : RingId) :
    ringBases (s.arrive t) id = ringBases s id := rfl

@[simp] theorem State.arrive_cqPast (s : State) (t v : Nat) (id : RingId) : cqPast id v (s.arrive t) = cqPast id v s := rfl

/-- What a command leaves depends on its effect at arrival alone. -/
theorem after_congr {t : Nat} {s : State} {f g : State → State} (h : f (s.arrive t) = g (s.arrive t)) :
    after t s f = after t s g := by rw [after, h, after]

/-! ## A meaning that can stop on a host error -/

theorem runUnless_refused {bad : State → Bool} {t : Nat} {s : State} (h : bad (s.arrive t) = true) (what : String)
    (f : State → State) : runUnless bad what t s f = .refused (.unpredictable what) := if_pos h

theorem runUnless_acts {bad : State → Bool} {t : Nat} {s : State} (h : bad (s.arrive t) = false) (what : String)
    (f : State → State) : runUnless bad what t s f = run t s f := if_neg (Bool.eq_false_iff.mp h)

/-! ## What stays as it was, twice over -/

theorem sameMotion_trans {s s' s'' : State} (h : SameMotion s s') (h' : SameMotion s' s'') : SameMotion s s'' := by
  simp_all [SameMotion]

theorem samePrint_trans {s s' s'' : State} (h : SamePrint s s') (h' : SamePrint s' s'') : SamePrint s s'' := by
  simp_all [SamePrint]

/-! ## Closing the session -/

/-- Closing the session moves the security state and what runs in the device; no session is left. -/
theorem closeSession_eq (s : State) :
    ∃ x d, closeSession s = (s.modSec fun _ => x).modDev (fun _ => d) ∧ x.session = none := by
  refine ⟨(closeSession s).sec, (closeSession s).dev, ?_, ?_⟩ <;>
  · unfold closeSession
    simp only []
    split_ifs <;> rfl

/-- Closing the session of the supervisor ring alone. -/
theorem when_closeSession_eq (id : RingId) (s : State) :
    ∃ x d, when (id == .supervisor) closeSession s = (s.modSec fun _ => x).modDev (fun _ => d) ∧
      (id = .supervisor → x.session = none) := by
  by_cases h : id = .supervisor
  · obtain ⟨x, d, heq, hnone⟩ := closeSession_eq s
    exact ⟨x, d, by simpa [when, h] using heq, fun _ => hnone⟩
  · exact ⟨s.sec, s.dev, by simp [when, h]; rfl, fun e => absurd e h⟩

/-! ## A ring error -/

theorem sansReports_setRing (s : State) (id : RingId) (r : Ring) :
    (s.setRing id r).sansReports = s.sansReports.setRing id r := by cases id <;> rfl

theorem sansReports_modSec (s : State) (f : Sec → Sec) : (s.modSec f).sansReports = s.sansReports.modSec f := rfl

theorem sansReports_modDev (s : State) (f : Dev → Dev) : (s.modDev f).sansReports = s.sansReports.modDev f := rfl

@[simp] theorem sansReports_ringSetStatus (s : State) (id : RingId) (bit : Nat) :
    (ringSetStatus s id bit).sansReports = s.sansReports := by cases id <;> rfl

/-- A ring that stops, with what the closing of a session leaves of the security and device state. -/
def stopped (id : RingId) (x : Sec) (d : Dev) (s : State) : State :=
  ((s.setRing id { s.ring id with enable := false }).modSec fun _ => x).modDev fun _ => d

@[simp] theorem stopped_ring (id : RingId) (x : Sec) (d : Dev) (s : State) :
    (stopped id x d s).ring id = { s.ring id with enable := false } := by
  cases id <;> simp [stopped, State.ring, State.setRing]

theorem stopped_otp (id : RingId) (x : Sec) (d : Dev) (s : State) : (stopped id x d s).otp = s.otp := by simp [stopped]

theorem stopped_sameMotion (id : RingId) (x : Sec) (d : Dev) (s : State) : SameMotion s (stopped id x d s) := by
  simp [SameMotion, stopped]

theorem stopped_samePrint (id : RingId) (x : Sec) (d : Dev) (s : State) : SamePrint s (stopped id x d s) := by
  simp [SamePrint, stopped]

/-- A ring stops; the session of the supervisor ring closes with it (R389). -/
theorem closed_eq_stopped (id : RingId) (s : State) :
    ∃ x d, when (id == .supervisor) closeSession (s.setRing id { s.ring id with enable := false }) = stopped id x d s ∧
      (id = .supervisor → x.session = none) :=
  when_closeSession_eq id _

/-- But for its reports a ring error stops its ring, and the session of the supervisor ring closes with it (R71). -/
theorem ringError_sansReports (id : RingId) (bit : Nat) (s : State) :
    ∃ x d, (ringError id bit s).sansReports = (stopped id x d s).sansReports ∧ (id = .supervisor → x.session = none) := by
  obtain ⟨x, d, heq, hnone⟩ := closed_eq_stopped id (ringSetStatus s id bit)
  refine ⟨x, d, ?_, hnone⟩
  have hring : (ringSetStatus s id bit).ring id = s.ring id := ring_of_sansReports (sansReports_ringSetStatus s id bit) id
  unfold ringError
  simp only [sansReports_alarm, heq]
  simp only [stopped, sansReports_modDev, sansReports_modSec, sansReports_setRing, sansReports_ringSetStatus, hring]

/-! ## RING_ENABLE and RING_DISABLE -/

section
variable {s : State} (hr : s.ringsRun = true) (t : Nat) (id : RingId)
include hr

/-- A ring with both queues inside its window starts (R70, R383). -/
theorem exec_ringEnable (hsq : inWindow s id (ringBases s id).1 (64 * ringSize s id) = true)
    (hcq : inWindow s id (ringBases s id).2 (16 * ringSize s id) = true) :
    exec (.ringEnable t id) s = .next (after t s (ringStart id)) := by
  change execRingEnable t id s = _
  refine ringCmd_eq_after hr ?_
  simp [hsq, hcq]

/-- A ring that runs no command stops (R70, R389). -/
theorem exec_ringDisable_of_idle (hidle : (s.ring id).running = none) :
    exec (.ringDisable t id) s = .next (after t s fun s =>
      when (id == .supervisor) closeSession (s.setRing id { s.ring id with enable := false })) := by
  change execRingDisable t id s = _
  refine ringCmd_eq_after hr ?_
  simp [ringStop, hidle]

/-- A ring that runs a command stops when it completes (R70). -/
theorem exec_ringDisable_of_running (hrun : (s.ring id).running.isSome = true) :
    exec (.ringDisable t id) s = .next (after t s fun s => s.setRing id { s.ring id with stopping := true }) := by
  change execRingDisable t id s = _
  refine ringCmd_eq_after hr ?_
  simp [ringStop, hrun]

/-- The supervisor ring stops with its session. -/
theorem leaves_ringDisable_supervisor (hidle : s.supRing.running = none) :
    Leaves (.ringDisable t .supervisor) s fun s' => s'.supRing = { s.supRing with enable := false } ∧
      s'.sec.session = none ∧ SameMotion s s' ∧ SamePrint s s' := by
  refine ⟨_, exec_ringDisable_of_idle hr t .supervisor hidle, ?_⟩
  obtain ⟨x, d, heq, hnone⟩ := closed_eq_stopped .supervisor (s.arrive t)
  simp only [after, heq]
  exact ⟨stopped_ring .supervisor x d (s.arrive t), hnone rfl, stopped_sameMotion .supervisor x d (s.arrive t),
    stopped_samePrint .supervisor x d (s.arrive t)⟩

/-! ## RING_SQ_TAIL -/

/-- A tail past the ring is a ring error (R71). -/
theorem exec_ringSqTail_of_past {v : Nat} (h : ringSize s id ≤ v) (f : Fetch) :
    exec (.ringSqTail t id v f) s = .next (after t s (ringError id 0)) := by
  change execRingSqTail t id v f s = _
  refine ringCmd_eq_after hr ?_
  simp [h]

/-- A tail within the ring is stored, and the ring looks at its queue (R66). -/
theorem exec_ringSqTail_of_within {v : Nat} (h : v < ringSize s id) (f : Fetch) :
    exec (.ringSqTail t id v f) s = .next (after t s fun s =>
      ringFetch id f (s.setRing id { s.ring id with sqTail := v })) := by
  change execRingSqTail t id v f s = _
  refine ringCmd_eq_after hr ?_
  simp [h.not_ge]

end

/-- A ring that cannot take a descriptor takes none. -/
theorem ringFetch_of_not_ready {s : State} {id : RingId} (h : ringReady s id = false) (f : Fetch) :
    ringFetch id f s = s := by
  simp [ringFetch, h]

/-- A ring that can take one runs a descriptor of an opcode that it accepts. -/
theorem ringFetch_of_ready {s : State} {id : RingId} {op : Nat} (h : ringReady s id = true) (hop : opcodeOn id op = true)
    (tag : Nat) (n : Bool) :
    ringFetch id (.descriptor op tag n true) s = s.setRing id
      { s.ring id with sqHead := ((s.ring id).sqHead + 1) % ringSize s id, running := some ⟨op, tag, n, s.now⟩ } := by
  simp [ringFetch, h, takeDescriptor, hop]

/-- A tail past the ring stops the ring and latches RING_FAULT; the session of the supervisor ring closes (R71). -/
theorem leaves_ringSqTail_of_past {s : State} {id : RingId} {v : Nat} (hr : s.ringsRun = true) (h : ringSize s id ≤ v)
    (t : Nat) (f : Fetch) :
    Leaves (.ringSqTail t id v f) s fun s' =>
      s'.ring id = { s.ring id with enable := false } ∧ bitOf s' Reg.evtAlarmLatch 0 2 = true ∧
      (id = .supervisor → s'.sec.session = none) ∧ SameMotion s s' ∧ SamePrint s s' ∧ s'.otp = s.otp := by
  refine ⟨_, exec_ringSqTail_of_past hr t id h f, ?_⟩
  obtain ⟨x, d, heq, hnone⟩ := ringError_sansReports id 0 (s.arrive t)
  have hring : (ringError id 0 (s.arrive t)).ring id = { s.ring id with enable := false } := by
    rw [ring_of_sansReports heq id, stopped_ring, State.arrive_ring]
  have hsec : (ringError id 0 (s.arrive t)).sec = x := sec_of_sansReports heq
  have hotp : (ringError id 0 (s.arrive t)).otp = s.otp :=
    (eq_of_sansReports heq (g := State.otp) fun _ => rfl).trans (stopped_otp id x d (s.arrive t))
  have hmotion : SameMotion (s.arrive t) (ringError id 0 (s.arrive t)) :=
    sameMotion_trans (stopped_sameMotion id x d (s.arrive t)) (sameMotion_of_sansReports heq)
  have hprint : SamePrint (s.arrive t) (ringError id 0 (s.arrive t)) :=
    samePrint_trans (stopped_samePrint id x d (s.arrive t)) (samePrint_of_sansReports heq)
  refine ⟨?_, alarm_bitOf .ringFault _ _, fun hid => ?_, hmotion, hprint, hotp⟩
  · cases id <;> exact hring
  · exact (congrArg Sec.session hsec).trans (hnone hid)

/-! ## RING_CQ_HEAD -/

section
variable {s : State} {id : RingId} {v : Nat} (hr : s.ringsRun = true) (t : Nat)
include hr

/-- A head past the completion tail is refused (R7). -/
theorem exec_ringCqHead_of_past (h : cqPast id v s = true) :
    exec (.ringCqHead t id v) s = .refused (.unpredictable "RING_CQ_HEAD past the completion tail") := by
  change execRingCqHead t id v s = _
  exact runUnless_refused (by simp [hr, h]) _ _

/-- A head up to the completion tail is stored; with no completion that waits, that is all (R68). -/
theorem exec_ringCqHead (h : cqPast id v s = false) (hwait : (s.ring id).stalled = none) :
    exec (.ringCqHead t id v) s = .next (after t s fun s => s.setRing id { s.ring id with cqHead := v }) := by
  change execRingCqHead t id v s = _
  have hgood : ((s.arrive t).ringsRun && cqPast id v (s.arrive t)) = false := by simp [h]
  unfold execRingCqHead
  rw [runUnless_acts hgood]
  refine run_eq_after ?_
  simp [hr, cqRelease, hwait]

end

/-! ## The obligation -/

/-- Settles O10: each clause is the meaning of its register under the clause's conditions; a tail past the ring is a ring
error, which but for its reports stops the ring and closes the session of the supervisor ring. -/
theorem ringRegisters : Obligations.RingRegisters := by
  intro t s id hr
  refine ⟨exec_ringEnable hr t id, ?_, ?_, exec_ringDisable_of_running hr t id, ?_, ?_, ?_, ?_, ?_⟩
  · intro hidle hne
    rw [exec_ringDisable_of_idle hr t id hidle]
    simp [when, hne]
  · rintro hidle rfl
    exact leaves_ringDisable_supervisor hr t hidle
  · intro v f hv hoff
    rw [exec_ringSqTail_of_within hr t id hv]
    exact congrArg _ (after_congr (ringFetch_of_not_ready (by simp [ringReady, hoff]) f))
  · intro v op tag n hv hen hstop hrun hwait hne hop
    rw [exec_ringSqTail_of_within hr t id hv]
    refine congrArg _ (after_congr ?_)
    rw [ringFetch_of_ready (by simp [ringReady, hen, hstop, hrun, hwait, hne]) hop]
    simp
  · exact fun v f hv => leaves_ringSqTail_of_past hr hv t f
  · exact fun v => exec_ringCqHead_of_past hr t
  · exact fun v => exec_ringCqHead hr t

end Sys2Proof.Machine
end

section
/-! JOB_OPEN (R73), and obligation O13. -/
namespace Sys2Proof.Machine

open Sys2Proof.Claim

/-! ## The context that JOB_OPEN takes -/

/-- The first index that qualifies is found. -/
theorem find?_finRange_eq_some {k : Nat} {p : Fin k → Bool} {n : Fin k} (hn : p n = true) (hmin : ∀ m < n, p m = false) :
    (List.finRange k).find? p = some n := by
  refine List.find?_eq_some_iff_getElem.mpr ⟨hn, n, by simp, by simp, fun j hj => ?_⟩
  rw [List.getElem_finRange, hmin _ hj]
  rfl

/-- A request for any context gets the lowest FREE one. -/
theorem openCtx_any {s : State} {n : Fin 64} (hfree : (s.jobs[n]).st = .free)
    (hmin : ∀ m : Fin 64, m < n → (s.jobs[m]).st ≠ .free) : openCtx s 0xFF = some n :=
  find?_finRange_eq_some (by rw [hfree]; rfl) fun m hm => by
    rw [beq_eq_false_iff_ne.mpr (hmin m hm), Bool.false_and]

/-- A request that names a FREE context gets it. -/
theorem openCtx_named {s : State} {n : Fin 64} (hfree : (s.jobs[n]).st = .free) : openCtx s n = some n :=
  find?_finRange_eq_some (by rw [hfree]; simp) fun m hm => by
    have hother : (m.val == n.val) = false := beq_eq_false_iff_ne.mpr (Nat.ne_of_lt hm)
    have hnamed : (n.val == 0xFF) = false := beq_eq_false_iff_ne.mpr (by omega)
    rw [hother, hnamed, Bool.or_false, Bool.and_false]

/-- A request gets none when no context that it may take is FREE. -/
theorem openCtx_none {s : State} {req : Nat} (h : ∀ m : Fin 64, req = 0xFF ∨ m.val = req → (s.jobs[m]).st ≠ .free) :
    openCtx s req = none := by
  refine List.find?_eq_none.mpr fun m _ => ?_
  have hm := h m
  simp only [Bool.and_eq_true, Bool.or_eq_true, beq_iff_eq]
  tauto

/-! ## The command -/

section
variable {s : State} (hr : s.ringsRun = true) (t : Nat) {req : Nat}
include hr

/-- JOB_OPEN opens the context that it takes. -/
theorem exec_jobOpen_of_some {n : Fin 64} (hreq : req < 64 ∨ req = 0xFF) (h : openCtx s req = some n) (jobId : Nat) :
    exec (.jobOpen t req jobId) s = .next (after t s fun s =>
      complete .admission .ok n (s.modJob n fun _ => { Job.free with st := .opened, jobId := jobId })) := by
  change execJobOpen t req jobId s = _
  refine ringCmd_eq_after hr ?_
  have hrange : ¬ (64 ≤ req ∧ req ≠ 0xFF) := by omega
  have htake : openCtx (s.arrive t) req = some n := h
  simp only [hrange, if_false, htake]

/-- Without a context to take it answers NO_CONTEXT. -/
theorem exec_jobOpen_of_none (hreq : req < 64 ∨ req = 0xFF) (h : openCtx s req = none) (jobId : Nat) :
    exec (.jobOpen t req jobId) s = .next (after t s fun s => complete .admission .noContext 0 s) := by
  change execJobOpen t req jobId s = _
  refine ringCmd_eq_after hr ?_
  have hrange : ¬ (64 ≤ req ∧ req ≠ 0xFF) := by omega
  have htake : openCtx (s.arrive t) req = none := h
  simp only [hrange, if_false, htake]

/-- A request that names no context is refused with RANGE. -/
theorem exec_jobOpen_of_range (hlow : 64 ≤ req) (hhigh : req ≤ 0xFE) (jobId : Nat) :
    exec (.jobOpen t req jobId) s = .next (after t s fun s => complete .admission .range 0 s) := by
  change execJobOpen t req jobId s = _
  refine ringCmd_eq_after hr ?_
  exact if_pos ⟨hlow, by omega⟩

end

/-- Settles O13: JOB_OPEN is decided by the context that it takes, the first that is FREE and asked for. -/
theorem jobOpen : Obligations.JobOpen := by
  intro t jobId req n s hr
  refine ⟨fun hfree hmin => ?_, fun hfree => ?_, fun hbusy => ?_, fun hbusy => ?_, fun hlow hhigh => ?_⟩
  · exact exec_jobOpen_of_some hr t (.inr rfl) (openCtx_any hfree hmin) jobId
  · exact exec_jobOpen_of_some hr t (.inl n.isLt) (openCtx_named hfree) jobId
  · refine exec_jobOpen_of_none hr t (.inl n.isLt) (openCtx_none fun m hm => ?_) jobId
    obtain h | h := hm
    · omega
    · rwa [Fin.ext h]
  · exact exec_jobOpen_of_none hr t (.inr rfl) (openCtx_none fun m _ => hbusy m) jobId
  · exact exec_jobOpen_of_range hr t hlow hhigh jobId

end Sys2Proof.Machine
end

section
/-! JOB_LOAD and JOB_RECORDS (R74, R78, R79, R508), and obligation O14. -/
namespace Sys2Proof.Machine

open Sys2Proof.Claim

/-! ## One job context -/

theorem upd_getElem_self {α : Type} {n : Nat} (v : Vector α n) (i : Fin n) (f : α → α) : (upd v i f)[i] = f v[i] := by
  simp [upd]

theorem upd_getElem_of_ne {α : Type} {n : Nat} {i j : Fin n} (h : j ≠ i) (v : Vector α n) (f : α → α) :
    (upd v i f)[j] = v[j] := by
  have hne : i.val ≠ j.val := fun e => h (Fin.ext e.symm)
  simp [upd, Vector.getElem_set_ne, hne]

theorem after_jobs (t : Nat) (s : State) (f : State → State) : (after t s f).jobs = (f (s.arrive t)).jobs := rfl

theorem sameMotion_after {t : Nat} {s : State} {f : State → State} (h : SameMotion (s.arrive t) (f (s.arrive t))) :
    SameMotion s (after t s f) := h

theorem sameSecure_after {t : Nat} {s : State} {f : State → State} (h : SameSecure (s.arrive t) (f (s.arrive t))) :
    SameSecure s (after t s f) := h

theorem modJob_sameMotion (n : Fin 64) (f : Job → Job) (s : State) : SameMotion s (s.modJob n f) := by
  simp [SameMotion]

theorem modJob_sameSecure (n : Fin 64) (f : Job → Job) (s : State) : SameSecure s (s.modJob n f) := by
  simp [SameSecure]

/-! ## The completion of a job command -/

/-- The completion of a ring other than the supervisor ring leaves the security state. -/
theorem complete_sec_of_ne {id : RingId} (h : id ≠ .supervisor) (st : Status) (r : Nat) (s : State) :
    (complete id st r s).sec = s.sec := by
  unfold complete
  simp only [beq_eq_false_iff_ne.mpr h, Bool.and_false, Bool.false_eq_true, if_false]
  split_ifs
  · simp
  · simp
  · rw [writeCompletion_sec, State.setRing_sec]

theorem complete_sameMotion (id : RingId) (st : Status) (r : Nat) (s : State) : SameMotion s (complete id st r s) := by
  simp [SameMotion]

theorem complete_job_sameSecure (n : Fin 64) (st : Status) (r : Nat) (s : State) :
    SameSecure s (complete (.job n) st r s) := by
  simp [SameSecure, complete_sec_of_ne]

theorem sameSecure_trans {s s' s'' : State} (h : SameSecure s s') (h' : SameSecure s' s'') : SameSecure s s'' := by
  simp_all [SameSecure]

/-! ## What decides a JOB_LOAD from host memory -/

section
variable {s : State} {ctx : Fin 64} {last : Bool} {address offset : Nat} {data : Bytes}

/-- A JOB_LOAD that continues what is held, and stays within the package, is not refused. -/
theorem firstRefusal_loadConds_ok (hst : (s.jobs[ctx]).st = .opened) (hpos : 0 < data.length)
    (hmax : data.length ≤ 16777216) (hoff : offset = (s.jobs[ctx]).held.length)
    (hlast : last = true → 48 ≤ (s.jobs[ctx]).held.length + data.length ∧
      offset + data.length = u32 ((s.jobs[ctx]).held ++ data) 44)
    (hfit : 48 ≤ (s.jobs[ctx]).held.length + data.length → offset + data.length ≤ u32 ((s.jobs[ctx]).held ++ data) 44)
    (hwin : inWindow s (.job ctx) address data.length = true) :
    firstRefusal (loadConds s ctx false last address offset data 0) = .ok := by
  have hlen : ¬ (data.length = 0 ∨ 16777216 < data.length) := by omega
  have hend : (last && (!decide (48 ≤ ((s.jobs[ctx]).held ++ data).length) ||
      offset + data.length != u32 ((s.jobs[ctx]).held ++ data) 44)) = false := by
    cases last with
    | false => rfl
    | true =>
      obtain ⟨hknown, hpkg⟩ := hlast rfl
      simp only [List.length_append, hknown, hpkg, decide_true, Bool.not_true, bne_self_eq_false, Bool.or_self,
        Bool.and_false]
  have hover : (decide (48 ≤ ((s.jobs[ctx]).held ++ data).length) &&
      decide (u32 ((s.jobs[ctx]).held ++ data) 44 < offset + data.length)) = false := by
    rw [List.length_append, Bool.and_eq_false_iff, decide_eq_false_iff_not, decide_eq_false_iff_not]
    by_cases hknown : 48 ≤ (s.jobs[ctx]).held.length + data.length
    · exact .inr (hfit hknown).not_gt
    · exact .inl hknown
  simp only [loadConds, hst, hlen, hend, hover, hwin, ← hoff, bne_self_eq_false, decide_false, Bool.not_true,
    Bool.and_false, Bool.false_and, firstRefusal_false, firstRefusal_nil]

/-- A gap or a repeat in OPEN is refused with RANGE. -/
theorem firstRefusal_loadConds_gap (hst : (s.jobs[ctx]).st = .opened) (hpos : 0 < data.length)
    (hmax : data.length ≤ 16777216) (hoff : offset ≠ (s.jobs[ctx]).held.length) :
    firstRefusal (loadConds s ctx false last address offset data 0) = .range := by
  have hlen : ¬ (data.length = 0 ∨ 16777216 < data.length) := by omega
  have hgap : (offset != (s.jobs[ctx]).held.length) = true := bne_iff_ne.mpr hoff
  simp only [loadConds, hst, hlen, hgap, bne_self_eq_false, decide_false, firstRefusal_false, firstRefusal_true]

/-- Outside OPEN it is refused with BAD_STATE. -/
theorem firstRefusal_loadConds_badState (hst : (s.jobs[ctx]).st ≠ .opened) :
    firstRefusal (loadConds s ctx false last address offset data 0) = .badState := by
  have hne : ((s.jobs[ctx]).st != .opened) = true := bne_iff_ne.mpr hst
  simp only [loadConds, hne, firstRefusal_true]

/-- Without a refusal the bytes of a JOB_LOAD from host memory are taken. -/
theorem exec_jobLoad_of_ok (hr : s.ringsRun = true)
    (hc : firstRefusal (loadConds s ctx false last address offset data 0) = .ok) (t : Nat) :
    exec (.jobLoad t ctx false last address offset data 0) s = .next (after t s (loadBytes ctx last data)) := by
  change execJobLoad t ctx false last address offset data 0 s = _
  have hc' : firstRefusal (loadConds (s.arrive t) ctx false last address offset data 0) = .ok := hc
  unfold execJobLoad
  rw [runUnless_acts (by simp [loadUnattached])]
  refine run_eq_after ?_
  simp [hr, hc']

/-- With a refusal it completes with the status, and in OPEN what is held is discarded. -/
theorem exec_jobLoad_of_refused (hr : s.ringsRun = true) {st : Status}
    (hc : firstRefusal (loadConds s ctx false last address offset data 0) = st) (hne : st ≠ .ok) (t : Nat) :
    exec (.jobLoad t ctx false last address offset data 0) s = .next (after t s fun s => complete (.job ctx) st 0
      (if (s.jobs[ctx]).st = .opened then s.modJob ctx fun j => { j with held := [] } else s)) := by
  change execJobLoad t ctx false last address offset data 0 s = _
  have hc' : firstRefusal (loadConds (s.arrive t) ctx false last address offset data 0) = st := hc
  unfold execJobLoad
  rw [runUnless_acts (by simp [loadUnattached])]
  refine run_eq_after ?_
  simp only [State.arrive_ringsRun, hr, Bool.false_and, Bool.false_eq_true, if_true, if_false, hc']

/-- From a namespace that is not attached it is a host error (R7). -/
theorem exec_jobLoad_unattached (hr : s.ringsRun = true) (h : (s.mem.js[storeIndex address]).attached = false)
    (t code : Nat) :
    exec (.jobLoad t ctx true last address offset data code) s =
      .refused (.unpredictable "JOB_LOAD from a namespace that is not attached") := by
  change execJobLoad t ctx true last address offset data code s = _
  have hbad : loadUnattached true address (s.arrive t) = true := by
    rw [loadUnattached, State.arrive_ringsRun, hr, State.arrive_mem, h]
    rfl
  exact runUnless_refused hbad _ _

end

/-! ## What the bytes of a package do -/

/-- Bytes that do not end the package are held. -/
theorem loadBytes_of_more (ctx : Fin 64) (data : Bytes) (s : State) :
    loadBytes ctx false data s = complete (.job ctx) .ok 0 (s.modJob ctx fun j => { j with held := j.held ++ data }) := by
  simp only [loadBytes, Bool.false_eq_true, if_false]
  rfl

/-- What `loadBytes` judges a complete package by. -/
def packageCheck (s : State) (ctx : Fin 64) (data : Bytes) : Status ⊕ Package :=
  checkPackage (s.str.tables.getD .empty) (slotKind s) (s.met.st == .absent) (packagesUsed s) ((s.jobs[ctx]).held ++ data)

section
variable {s : State} {ctx : Fin 64} {data : Bytes}

/-- A package that fails a check leaves the context OPEN with nothing held. -/
theorem loadBytes_of_bad {st : Status} (h : packageCheck s ctx data = .inl st) :
    loadBytes ctx true data s = complete (.job ctx) st 0 (s.modJob ctx fun j => { j with held := [] }) := by
  unfold packageCheck at h
  simp only [loadBytes, if_true, h]

/-- A package that passes is accepted. -/
theorem loadBytes_of_good {pk : Package} (h : packageCheck s ctx data = .inr pk) :
    loadBytes ctx true data s =
      complete (.job ctx) .ok 0 (acceptPackage ctx ((s.jobs[ctx]).held ++ data) pk s) := by
  unfold packageCheck at h
  simp only [loadBytes, if_true, h]

end

/-- But for its reports an accepted package makes its context LOADED. -/
theorem acceptPackage_sansReports (ctx : Fin 64) (bytes : Bytes) (pk : Package) (s : State) :
    (acceptPackage ctx bytes pk s).sansReports = (s.modJob ctx fun j =>
      { j with st := .loaded, pkg := some pk, held := [], nextSeq := pk.firstSeq }).sansReports := by
  simp [acceptPackage]

/-! ## JOB_RECORDS -/

/-- But for its reports a batch enters the record queue. -/
theorem queueBatch_sansReports (ctx : Fin 64) (first : Nat) (rs : List Record) (crc : Nat) (s : State) :
    (queueBatch ctx first rs crc s).sansReports = (s.modJob ctx fun j =>
      { j with queue := j.queue ++ rs, nextSeq := j.nextSeq + rs.length,
               lastQueued := j.lastQueued ||
                 (j.castOff.map fun l => decide (l < j.nextSeq + rs.length)).getD false }).sansReports := by
  simp [queueBatch]

section
variable {s : State} {ctx : Fin 64} {t address count bytes : Nat} {data : Bytes} {pk : Package} (hr : s.ringsRun = true)
  (hpk : (s.jobs[ctx]).pkg = some pk) (hst : (s.jobs[ctx]).st = .loaded) (hlast : (s.jobs[ctx]).lastQueued = false)
include hr hpk hst hlast

/-- A refused batch queues nothing, and RESULT is the index of the first failing record. -/
theorem exec_jobRecords_of_inl {st : Status} {i : Nat}
    (hout : recordsOutcome (s.arrive t) (s.jobs[ctx]) pk ctx address count bytes data = .inl (st, i)) :
    exec (.jobRecords t ctx address count bytes data) s = .next (after t s fun s => complete (.job ctx) st i s) := by
  change execJobRecords t ctx address count bytes data s = _
  refine ringCmd_eq_after hr ?_
  have hmay : ([JobSt.loaded, .armed, .printing].contains (s.jobs[ctx]).st && !(s.jobs[ctx]).lastQueued) = true := by
    rw [hst, hlast]
    decide
  simp only [State.arrive_jobs, hmay, hpk, hout]

/-- An accepted batch is queued, and RESULT is the next sequence number. -/
theorem exec_jobRecords_of_inr {rs : List Record}
    (hout : recordsOutcome (s.arrive t) (s.jobs[ctx]) pk ctx address count bytes data = .inr rs) :
    exec (.jobRecords t ctx address count bytes data) s = .next (after t s fun s =>
      complete (.job ctx) .ok ((s.jobs[ctx]).nextSeq + rs.length)
        (queueBatch ctx (s.jobs[ctx]).nextSeq rs (Config.crc32c (data.take bytes)) s)) := by
  change execJobRecords t ctx address count bytes data s = _
  refine ringCmd_eq_after hr ?_
  have hmay : ([JobSt.loaded, .armed, .printing].contains (s.jobs[ctx]).st && !(s.jobs[ctx]).lastQueued) = true := by
    rw [hst, hlast]
    decide
  simp only [State.arrive_jobs, hmay, hpk, hout]

end

/-! ## The obligation -/

/-- What the last JOB_LOAD of a package leaves. -/
theorem leaves_jobLoad_last {s : State} {ctx : Fin 64} {address offset : Nat} {data : Bytes} (hr : s.ringsRun = true)
    (hst : (s.jobs[ctx]).st = .opened)
    (hc : firstRefusal (loadConds s ctx false true address offset data 0) = .ok) (t : Nat) :
    Leaves (.jobLoad t ctx false true address offset data 0) s fun s' => (s'.jobs[ctx]).held = [] ∧
      (∀ n, n ≠ ctx → s'.jobs[n] = s.jobs[n]) ∧
      (∀ st, packageCheck s ctx data = .inl st →
        (s'.jobs[ctx]).st = .opened ∧ (s'.jobs[ctx]).pkg = (s.jobs[ctx]).pkg) ∧
      (∀ pk, packageCheck s ctx data = .inr pk →
        (s'.jobs[ctx]).st = .loaded ∧ (s'.jobs[ctx]).pkg = some pk ∧ (s'.jobs[ctx]).nextSeq = pk.firstSeq) := by
  refine ⟨_, exec_jobLoad_of_ok hr hc t, ?_⟩
  simp only [after_jobs]
  cases hcheck : packageCheck s ctx data with
  | inl st =>
    have hcheck' : packageCheck (s.arrive t) ctx data = .inl st := hcheck
    simp only [loadBytes_of_bad hcheck', complete_jobs, State.modJob_jobs, State.arrive_jobs, upd_getElem_self, hst]
    exact ⟨trivial, fun n hn => upd_getElem_of_ne hn _ _, fun _ _ => ⟨trivial, trivial⟩, nofun⟩
  | inr pk =>
    have hcheck' : packageCheck (s.arrive t) ctx data = .inr pk := hcheck
    simp only [loadBytes_of_good hcheck', complete_jobs, jobs_of_sansReports (acceptPackage_sansReports ..),
      State.modJob_jobs, State.arrive_jobs, upd_getElem_self]
    refine ⟨trivial, fun n hn => upd_getElem_of_ne hn _ _, nofun, ?_⟩
    rintro pk' ⟨⟩
    exact ⟨trivial, rfl, rfl⟩

/-- What an accepted batch leaves. -/
theorem leaves_jobRecords {s : State} {ctx : Fin 64} {t address count bytes : Nat} {data : Bytes} {pk : Package}
    {rs : List Record} (hr : s.ringsRun = true) (hpk : (s.jobs[ctx]).pkg = some pk) (hst : (s.jobs[ctx]).st = .loaded)
    (hlast : (s.jobs[ctx]).lastQueued = false)
    (hout : recordsOutcome (s.arrive t) (s.jobs[ctx]) pk ctx address count bytes data = .inr rs) :
    Leaves (.jobRecords t ctx address count bytes data) s fun s' =>
      (s'.jobs[ctx]).queue = (s.jobs[ctx]).queue ++ rs ∧ (s'.jobs[ctx]).nextSeq = (s.jobs[ctx]).nextSeq + rs.length ∧
      (s'.jobs[ctx]).st = .loaded ∧ (∀ n, n ≠ ctx → s'.jobs[n] = s.jobs[n]) ∧ SameMotion s s' ∧ SameSecure s s' := by
  refine ⟨_, exec_jobRecords_of_inr hr hpk hst hlast hout, ?_⟩
  have hqueued := queueBatch_sansReports ctx (s.jobs[ctx]).nextSeq rs (Config.crc32c (data.take bytes)) (s.arrive t)
  have hmotion := sameMotion_trans (modJob_sameMotion ..) (sameMotion_of_sansReports hqueued)
  have hsecure := sameSecure_trans (modJob_sameSecure ..) (sameSecure_of_sansReports hqueued)
  simp only [after_jobs, complete_jobs, jobs_of_sansReports hqueued, State.modJob_jobs, State.arrive_jobs,
    upd_getElem_self, hst]
  exact ⟨trivial, trivial, trivial, fun n hn => upd_getElem_of_ne hn _ _,
    sameMotion_after (sameMotion_trans hmotion (complete_sameMotion ..)),
    sameSecure_after (sameSecure_trans hsecure (complete_job_sameSecure ..))⟩

/-- Settles O14: a JOB_LOAD is decided by its conditions in their order, a complete package by its checks, and a batch by
its outcome; but for its reports an accepted package or batch writes its context alone. -/
theorem jobLoading : Obligations.JobLoading := by
  intro t address ctx data s hr
  refine ⟨?_, ?_, ?_, ?_, ?_, ?_, ?_⟩
  · intro offset hst hpos hmax hoff hfit hwin
    rw [exec_jobLoad_of_ok (last := false) hr (firstRefusal_loadConds_ok hst hpos hmax hoff nofun hfit hwin)]
    exact congrArg _ (after_congr (loadBytes_of_more ..))
  · intro offset hst hpos hmax hoff hknown hend hwin
    have hc := firstRefusal_loadConds_ok (last := true) hst hpos hmax hoff (fun _ => ⟨hknown, hend⟩) (fun _ => hend.le) hwin
    obtain ⟨s', hnext, hheld, hothers, hbad, hgood⟩ := leaves_jobLoad_last hr hst hc t
    refine ⟨s', hnext, hheld, hothers, ?_⟩
    split
    case h_1 st h => exact hbad st h
    case h_2 pk h => exact hgood pk h
  · intro offset last hst hpos hmax hoff
    rw [exec_jobLoad_of_refused hr (firstRefusal_loadConds_gap hst hpos hmax hoff) (by decide)]
    exact congrArg _ (after_congr (by rw [if_pos (by exact hst)]))
  · intro offset last hst
    rw [exec_jobLoad_of_refused hr (firstRefusal_loadConds_badState hst) (by decide)]
    exact congrArg _ (after_congr (by rw [if_neg (by exact hst)]))
  · intro offset last code hdetached
    exact exec_jobLoad_unattached hr hdetached t code
  · intro pk count bytes st i hpk hst hlast hout
    exact exec_jobRecords_of_inl hr hpk hst hlast hout
  · intro pk count bytes rs hpk hst hlast hout
    exact leaves_jobRecords hr hpk hst hlast hout

end Sys2Proof.Machine
end

section
/-! The closing of items: what outcomes leave (R83, R84, R87), and what an abort and a cast-off leave. -/
namespace Sys2Proof.Machine

open Sys2Proof.Claim

/-! ## The state without its outcomes -/

/-- A job without its counters of outcomes and its outcomes that wait for an entry. -/
def Job.sansOutcomes (j : Job) : Job :=
  { j with okCount := 0, defectCount := 0, voidCount := 0, finalSeq := none, entryWait := [] }

/-- The state without its reports and with what the outcomes of one context, and the ends of its underrun runs, write set
aside: the context's counters, the partition and the planes. -/
def State.sansOutcomes (ctx : Fin 64) (s : State) : State :=
  let s := s.sansReports
  { s with met := .reset, planes := Vector.replicate 8 .reset, jobs := upd s.jobs ctx Job.sansOutcomes }

section
variable {ctx : Fin 64} {s s' : State} (h : s'.sansOutcomes ctx = s.sansOutcomes ctx)
include h

/-- What does not read the outcomes is the same in both. -/
theorem eq_of_sansOutcomes {α : Type} {g : State → α} (hg : ∀ x, g (x.sansOutcomes ctx) = g x) : g s' = g s := by
  rw [← hg s', h, hg]

theorem sameMotion_of_sansOutcomes : SameMotion s s' := by
  have heq := eq_of_sansOutcomes h (g := fun x => (x.ba, x.sd, x.stp, x.enc)) fun _ => rfl
  simpa only [SameMotion, Prod.mk.injEq] using heq

theorem pac_of_sansOutcomes : s'.pac = s.pac := eq_of_sansOutcomes h (g := State.pac) fun _ => rfl

theorem job_of_sansOutcomes : (s'.jobs[ctx]).sansOutcomes = (s.jobs[ctx]).sansOutcomes := by
  have hjob : ∀ x : State, (x.sansOutcomes ctx).jobs[ctx] = (x.jobs[ctx]).sansOutcomes := fun x => upd_getElem_self ..
  rw [← hjob, h, hjob]

theorem otherJob_of_sansOutcomes {n : Fin 64} (hn : n ≠ ctx) : s'.jobs[n] = s.jobs[n] :=
  eq_of_sansOutcomes h (g := fun x => x.jobs[n]) fun _ => upd_getElem_of_ne hn _ _

end

theorem sansOutcomes_of_sansReports {s s' : State} (h : s'.sansReports = s.sansReports) (ctx : Fin 64) :
    s'.sansOutcomes ctx = s.sansOutcomes ctx := by
  rw [State.sansOutcomes, h, State.sansOutcomes]

theorem upd_upd {α : Type} {n : Nat} (v : Vector α n) (i : Fin n) (f g : α → α) :
    upd (upd v i f) i g = upd v i fun x => g (f x) := by
  simp [upd]

/-- A context of which only its outcomes change. -/
theorem sansOutcomes_modJob {ctx : Fin 64} {f : Job → Job} {s : State}
    (h : (f s.jobs[ctx]).sansOutcomes = (s.jobs[ctx]).sansOutcomes) :
    (s.modJob ctx f).sansOutcomes ctx = s.sansOutcomes ctx := by
  have hjobs : upd (upd s.jobs ctx f) ctx Job.sansOutcomes = upd s.jobs ctx Job.sansOutcomes := by
    rw [upd_upd, upd, h, upd]
  exact congrArg (fun v => { s.sansOutcomes ctx with jobs := v }) hjobs

/-! ## Items close -/

theorem sansOutcomes_closeSealed (ctx : Fin 64) (o : OutcomeRec) (b : SealedBind) (s : State) :
    (closeSealed o b s).sansOutcomes ctx = s.sansOutcomes ctx :=
  sansOutcomes_of_sansReports (sansReports_raiseAudit _ _) ctx

theorem sansReports_reportOutcome (ctx : Fin 64) (o : OutcomeRec) (s : State) :
    (reportOutcome ctx o s).sansReports = s.sansReports := by
  unfold reportOutcome
  split
  · rfl
  · split <;> simp

/-- The closing of an item writes outcomes alone. -/
theorem sansOutcomes_closeItem (ctx : Fin 64) (o : OutcomeRec) (sb : Option SealedBind) (s : State) :
    (closeItem ctx o sb s).sansOutcomes ctx = s.sansOutcomes ctx := by
  unfold closeItem
  simp only []
  have hxlk : ∀ (x : State) (y : Xlk), { x with xlk := y }.sansOutcomes ctx = x.sansOutcomes ctx := fun _ _ => rfl
  rw [sansOutcomes_of_sansReports (sansReports_reportOutcome _ _ _) ctx, hxlk, sansOutcomes_modJob rfl]
  cases sb with
  | none => rfl
  | some b => exact sansOutcomes_closeSealed ctx o b s

theorem sansOutcomes_closeFront (ctx : Fin 64) (l : List Item) (s : State) :
    (closeFront ctx l s).2.sansOutcomes ctx = s.sansOutcomes ctx := by
  induction l generalizing s with
  | nil => rfl
  | cons it l ih =>
    unfold closeFront
    split
    · rw [ih, sansOutcomes_closeItem]
    · rfl

theorem sansOutcomes_takeEntries (ctx : Fin 64) (l : List OutcomeRec) (s : State) :
    (takeEntries ctx l s).2.sansOutcomes ctx = s.sansOutcomes ctx := by
  induction l generalizing s with
  | nil => rfl
  | cons o l ih =>
    unfold takeEntries
    split
    · rfl
    · rw [ih, sansOutcomes_closeItem]

@[simp] theorem sansReports_voidQueue (ctx : Fin 64) (codes : BitVec 16) (l : List Record) (s : State) :
    (voidQueue ctx codes l s).2.sansReports = s.sansReports := by
  induction l generalizing s with
  | nil => rfl
  | cons r l ih => exact ih _

/-! ## Runs of underrun courses end -/

theorem sansOutcomes_endRun (ctx : Fin 64) (p : Fin 8) (s : State) : (endRun p s).sansOutcomes ctx = s.sansOutcomes ctx := by
  unfold endRun
  split
  · exact sansOutcomes_of_sansReports (sansReports_diag ..) ctx
  · rfl

theorem sansOutcomes_foldl {α : Type} {ctx : Fin 64} {f : State → α → State}
    (h : ∀ s x, (f s x).sansOutcomes ctx = s.sansOutcomes ctx) (l : List α) (s : State) :
    (l.foldl f s).sansOutcomes ctx = s.sansOutcomes ctx := by
  induction l generalizing s with
  | nil => rfl
  | cons x l ih => rw [List.foldl_cons, ih, h]

theorem sansOutcomes_endRuns (ctx : Fin 64) (s : State) : (endRuns ctx s).sansOutcomes ctx = s.sansOutcomes ctx := by
  refine sansOutcomes_foldl (fun s p => ?_) _ s
  split
  · split
    · exact sansOutcomes_endRun ctx p s
    · rfl
  · rfl

/-! ## An abort -/

theorem sansReports_toSlotHubs (x : FireSlot) (f : Nat → MlkTx) (s : State) : (toSlotHubs x f s).sansReports = s.sansReports :=
  sansReports_foldl (fun (s : State) (h : Nat × Nat) => sansReports_emit s (.hub h.1 (f h.2))) x.num s

/-- What is in flight of a context leaves the print path. -/
def withdrawn (ctx : Fin 64) (s : State) : State :=
  { s with pac := { s.pac with slots := s.pac.slots.filter fun x => x.ctx != ctx.val },
           planes := s.planes.map fun p => { p with runway := p.runway.filter fun c => c.ctx != ctx.val,
                                                    screenCtx := if p.screenCtx = some ctx.val then none else p.screenCtx },
           clusters := s.clusters.map fun c => match c.slice with
             | some x => if x.2.2 = ctx.val then { c with slice := none, since := s.now } else c
             | none => c,
           cod := { s.cod with requests := s.cod.requests.filter fun r => r.ctx != ctx.val } }

theorem withdrawn_jobs (ctx : Fin 64) (s : State) : (withdrawn ctx s).jobs = s.jobs := rfl

theorem withdrawn_sameMotion (ctx : Fin 64) (s : State) : SameMotion s (withdrawn ctx s) := ⟨rfl, rfl, rfl, rfl⟩

/-- A context that an abort has closed. -/
def Job.aborted (wait : List OutcomeRec) (j : Job) : Job :=
  { j with st := .closed, items := [], queue := [], slices := [], entryWait := wait, bindings := [] }

/-- But for outcomes an abort sends frames to cancel slots, withdraws what is in flight and closes the context. -/
theorem abortJob_eq (ctx : Fin 64) (s : State) :
    ∃ (x y : State) (wait : List OutcomeRec), abortJob ctx s = y.modJob ctx (Job.aborted wait) ∧
      x.sansOutcomes ctx = s.sansOutcomes ctx ∧ y.sansOutcomes ctx = (withdrawn ctx x).sansOutcomes ctx := by
  obtain ⟨r, hr⟩ : ∃ r, abortJob ctx s = r := ⟨_, rfl⟩
  rw [hr]
  unfold abortJob at hr
  extract_lets s₁ mine s₂ cod pac s₃ j items at hr
  have hcancel : s₂.sansOutcomes ctx = s₁.sansOutcomes ctx := by
    refine sansOutcomes_of_sansReports (sansReports_foldl (fun s x => ?_) _ s₁) ctx
    split
    · exact sansReports_toSlotHubs x _ s
    · rfl
  have hruns : s₁.sansOutcomes ctx = s.sansOutcomes ctx := sansOutcomes_endRuns ctx s
  have hwithdrawn : s₃ = withdrawn ctx s₂ := rfl
  clear_value items j s₃ pac cod s₂ mine s₁
  refine ⟨s₂, _, _, hr.symm, hcancel.trans hruns, ?_⟩
  rw [sansOutcomes_takeEntries, sansOutcomes_of_sansReports (sansReports_voidQueue ..), sansOutcomes_closeFront, hwithdrawn]

/-- What an abort leaves. -/
theorem abortJob_leaves (ctx : Fin 64) (s : State) :
    ((abortJob ctx s).jobs[ctx]).st = .closed ∧ ((abortJob ctx s).jobs[ctx]).items = [] ∧
      ((abortJob ctx s).jobs[ctx]).queue = [] ∧ ((abortJob ctx s).jobs[ctx]).jobId = (s.jobs[ctx]).jobId ∧
      (∀ x ∈ (abortJob ctx s).pac.slots, x.ctx ≠ ctx.val) ∧
      (∀ n, n ≠ ctx → (abortJob ctx s).jobs[n] = s.jobs[n]) ∧ SameMotion s (abortJob ctx s) := by
  obtain ⟨x, y, wait, heq, hx, hy⟩ := abortJob_eq ctx s
  have hslots : y.pac.slots = x.pac.slots.filter fun z => z.ctx != ctx.val := congrArg Pac.slots (pac_of_sansOutcomes hy)
  have hjob : (y.jobs[ctx]).sansOutcomes = (s.jobs[ctx]).sansOutcomes := by
    rw [job_of_sansOutcomes hy, withdrawn_jobs, job_of_sansOutcomes hx]
  have hid : (y.jobs[ctx]).jobId = (s.jobs[ctx]).jobId := by
    simpa only [Job.sansOutcomes] using congrArg Job.jobId hjob
  rw [heq]
  simp only [State.modJob_jobs, State.modJob_pac, upd_getElem_self]
  refine ⟨rfl, rfl, rfl, hid, fun z hz => ?_, fun n hn => ?_, ?_⟩
  · rw [hslots, List.mem_filter, bne_iff_ne] at hz
    exact hz.2
  · rw [upd_getElem_of_ne hn, otherJob_of_sansOutcomes hy hn, withdrawn_jobs, otherJob_of_sansOutcomes hx hn]
  · have hflight := sameMotion_trans (sameMotion_of_sansOutcomes hx) (withdrawn_sameMotion ctx x)
    exact sameMotion_trans hflight (sameMotion_trans (sameMotion_of_sansOutcomes hy) (modJob_sameMotion ..))

/-! ## A cast-off before anything is bound -/

theorem closeJob_of_armed {ctx : Fin 64} {s : State} (h : (s.jobs[ctx]).st = .armed) : closeJob ctx s = s := by
  unfold closeJob
  simp only [h]

theorem drainCheck_of_armed {ctx : Fin 64} {s : State} (h : (s.jobs[ctx]).st = .armed) : drainCheck ctx s = s := by
  unfold drainCheck
  simp only [h]

/-- Settling an armed job without items writes outcomes alone. -/
theorem sansOutcomes_settleJob {ctx : Fin 64} {s : State} (hst : (s.jobs[ctx]).st = .armed)
    (hitems : (s.jobs[ctx]).items = []) : (settleJob ctx s).sansOutcomes ctx = s.sansOutcomes ctx := by
  have hclose : ∀ x : State, x.sansOutcomes ctx = s.sansOutcomes ctx →
      (closeJob ctx x).sansOutcomes ctx = s.sansOutcomes ctx := fun x hx => by
    rw [closeJob_of_armed ((congrArg Job.st (job_of_sansOutcomes hx)).trans hst), hx]
  unfold settleJob
  simp only []
  split
  · rfl
  · rfl
  · simp only [hitems, List.map_nil, closeFront]
    refine hclose _ ?_
    rw [sansOutcomes_modJob rfl, sansOutcomes_takeEntries, sansOutcomes_modJob (by simp only [Job.sansOutcomes, hitems])]

/-- A context that is cast off at `last`. -/
def Job.castOffAt (last : Nat) (items : List Item) (ended : List OutcomeRec) (j : Job) : Job :=
  { j with castOff := some last, lastQueued := decide (last < j.nextSeq),
           queue := j.queue.filter fun q => decide (q.seq ≤ last), items := items, entryWait := j.entryWait ++ ended }

/-- What a cast-off of an armed job without items leaves. -/
theorem castOffAt_leaves {ctx : Fin 64} {s : State} (hst : (s.jobs[ctx]).st = .armed)
    (hitems : (s.jobs[ctx]).items = []) (last : Nat) :
    ((castOffAt ctx last s).jobs[ctx]).castOff = some last ∧
      ((castOffAt ctx last s).jobs[ctx]).queue = (s.jobs[ctx]).queue.filter (fun q => decide (q.seq ≤ last)) ∧
      ((castOffAt ctx last s).jobs[ctx]).lastQueued = decide (last < (s.jobs[ctx]).nextSeq) ∧
      SameMotion s (castOffAt ctx last s) := by
  obtain ⟨r, hr⟩ : ∃ r, castOffAt ctx last s = r := ⟨_, rfl⟩
  rw [hr]
  unfold castOffAt at hr
  extract_lets j v s₁ at hr
  have hvoid : v.2.sansReports = s.sansReports := sansReports_voidQueue ..
  have hcast : s₁.jobs[ctx] = Job.castOffAt last ((s.jobs[ctx]).items.map (blankBeyond last s ctx)) v.1 s.jobs[ctx] := by
    simp only [s₁, State.modJob_jobs, upd_getElem_self, jobs_of_sansReports hvoid, Job.castOffAt]
  have hmotion : SameMotion s s₁ := sameMotion_trans (sameMotion_of_sansReports hvoid) (modJob_sameMotion ..)
  have hst₁ : (s₁.jobs[ctx]).st = .armed := by rw [hcast, ← hst]; rfl
  have hitems₁ : (s₁.jobs[ctx]).items = [] := by rw [hcast, hitems]; rfl
  clear_value s₁
  have hsettled := sansOutcomes_settleJob hst₁ hitems₁
  have hjob : ((settleJob ctx s₁).jobs[ctx]).sansOutcomes = (s₁.jobs[ctx]).sansOutcomes := job_of_sansOutcomes hsettled
  have hst₂ : ((settleJob ctx s₁).jobs[ctx]).st = .armed := (congrArg Job.st hjob).trans hst₁
  rw [drainCheck_of_armed hst₂] at hr
  subst hr
  rw [hcast] at hjob
  exact ⟨congrArg Job.castOff hjob, congrArg Job.queue hjob, congrArg Job.lastQueued hjob,
    sameMotion_trans hmotion (sameMotion_of_sansOutcomes hsettled)⟩

end Sys2Proof.Machine
end

section
/-! JOB_ARM, JOB_CAST_OFF, JOB_ABORT and JOB_CLOSE (R75, R82, R84, R85), and obligation O15. -/
namespace Sys2Proof.Machine

open Sys2Proof.Claim

/-! ## The commands -/

section
variable {s : State} {ctx : Fin 64} (hr : s.ringsRun = true) (t : Nat)
include hr

/-- A LOADED context without a refusal is armed (R75). -/
theorem exec_jobArm_of_ok {castOn : Int} {pk : Package} (hst : (s.jobs[ctx]).st = .loaded)
    (hpk : (s.jobs[ctx]).pkg = some pk) (hc : firstRefusal (armConds (s.arrive t) ctx pk castOn) = .ok) :
    exec (.jobArm t ctx castOn) s = .next (after t s fun s => complete (.job ctx) .ok 0 (armJob ctx castOn s)) := by
  change execJobArm t ctx castOn s = _
  refine ringCmd_eq_after hr ?_
  simp only [State.arrive_jobs, hst, hpk, admitCmd_ok _ _ _ hc]

/-- Outside PRINT arming is refused with BAD_MODE. -/
theorem exec_jobArm_of_mode (hst : (s.jobs[ctx]).st = .loaded) (hpk : (s.jobs[ctx]).pkg.isSome = true)
    (hmode : s.dev.mode ≠ .print) (castOn : Int) :
    exec (.jobArm t ctx castOn) s = .next (after t s fun s => complete (.job ctx) .badMode 0 s) := by
  obtain ⟨pk, hpk⟩ := Option.isSome_iff_exists.mp hpk
  change execJobArm t ctx castOn s = _
  refine ringCmd_eq_after hr ?_
  have hne : ((s.arrive t).dev.mode != .print) = true := bne_iff_ne.mpr hmode
  have hc : firstRefusal (armConds (s.arrive t) ctx pk castOn) = .badMode := by
    simp only [armConds, hne, firstRefusal_true]
  simp only [State.arrive_jobs, hst, hpk, admitCmd_refused _ _ _ hc (by decide)]

/-- Outside LOADED it is refused with BAD_STATE. -/
theorem exec_jobArm_of_state (hst : (s.jobs[ctx]).st ≠ .loaded) (castOn : Int) :
    exec (.jobArm t ctx castOn) s = .next (after t s fun s => complete (.job ctx) .badState 0 s) := by
  change execJobArm t ctx castOn s = _
  refine ringCmd_eq_after hr ?_
  simp only [State.arrive_jobs]
  split
  · contradiction
  · rfl

/-- An armed job without items is cast off at the sequence number asked for (R82). -/
theorem exec_jobCastOff {pk : Package} (hst : (s.jobs[ctx]).st = .armed) (hpk : (s.jobs[ctx]).pkg = some pk)
    (hitems : (s.jobs[ctx]).items = []) (last : Nat) :
    exec (.jobCastOff t ctx last) s =
      .next (after t s fun s => complete (.job ctx) .ok last (castOffAt ctx last s)) := by
  change execJobCastOff t ctx last s = _
  refine ringCmd_eq_after hr ?_
  have hused : max last ((composedSeq (s.jobs[ctx]) pk).getD 0) = last := by
    rw [composedSeq, hitems]
    simp
  have hmay : ((s.jobs[ctx]).st == .armed || (s.jobs[ctx]).st == .printing) = true := by
    rw [hst]
    decide
  simp only [State.arrive_jobs, hmay, hpk, hused]

/-- A running job is aborted from its own ring (R84). -/
theorem exec_jobAbort_of_active (hst : (s.jobs[ctx]).st.active = true) :
    exec (.jobAbort t (.job ctx) ctx) s = .next (after t s fun s => complete (.job ctx) .ok 0 (abortJob ctx s)) := by
  change execJobAbort t (.job ctx) ctx s = _
  refine ringCmd_eq_after hr ?_
  simp only [State.arrive_jobs, hst, reduceCtorEq, false_and, if_true, if_false]

/-- A closed context stays as it is (R84). -/
theorem exec_jobAbort_of_closed (hst : (s.jobs[ctx]).st = .closed) (ring : RingId) :
    exec (.jobAbort t ring ctx) s = .next (after t s fun s => complete ring .ok 0 s) := by
  change execJobAbort t ring ctx s = _
  refine ringCmd_eq_after hr ?_
  simp only [State.arrive_jobs, hst, JobSt.active, Bool.false_eq_true, if_true, if_false]

/-- An OPEN or LOADED context is freed (R85). -/
theorem exec_jobClose_of_ok (hst : (s.jobs[ctx]).st = .opened ∨ (s.jobs[ctx]).st = .loaded) (ring : RingId) :
    exec (.jobClose t ring ctx) s = .next (after t s fun s => complete ring .ok 0 (freeJob ctx s)) := by
  change execJobClose t ring ctx s = _
  refine ringCmd_eq_after hr ?_
  refine admitCmd_ok _ _ _ ?_
  have hnot : (!([JobSt.opened, .loaded, .closed].contains (s.jobs[ctx]).st)) = false ∧
      ((s.jobs[ctx]).st == .closed) = false := by
    obtain h | h := hst <;> rw [h] <;> decide
  simp only [closeConds, State.arrive_jobs, hnot, Bool.false_and, firstRefusal_false, firstRefusal_nil]

/-- A printing one is refused with BAD_STATE. -/
theorem exec_jobClose_of_printing (hst : (s.jobs[ctx]).st = .printing) (ring : RingId) :
    exec (.jobClose t ring ctx) s = .next (after t s fun s => complete ring .badState 0 s) := by
  change execJobClose t ring ctx s = _
  refine ringCmd_eq_after hr ?_
  refine admitCmd_refused _ _ _ ?_ (by decide)
  have hnot : (!([JobSt.opened, .loaded, .closed].contains (s.jobs[ctx]).st)) = true := by
    rw [hst]
    decide
  simp only [closeConds, State.arrive_jobs, hnot, firstRefusal_true]

end

/-! ## What arming and freeing write -/

theorem after_pac (t : Nat) (s : State) (f : State → State) : (after t s f).pac = (f (s.arrive t)).pac := rfl

/-- A context that has been armed. -/
def Job.armedAt (castOn : Int) (v : Nat) (p : Int) (j : Job) : Job :=
  { j with st := .armed, castOn := castOn, armSpeed := v, armPos := p, nextSlot := 0, planes := Vector.replicate 8 .reset }

theorem armJob_jobs (ctx : Fin 64) (castOn : Int) (s : State) :
    (armJob ctx castOn s).jobs = upd s.jobs ctx (Job.armedAt castOn (min capSpeed (webSpeed s).toNat) s.pac.est.p) := rfl

theorem armJob_sameMotion (ctx : Fin 64) (castOn : Int) (s : State) : SameMotion s (armJob ctx castOn s) :=
  ⟨rfl, rfl, rfl, rfl⟩

theorem armJob_sameSecure (ctx : Fin 64) (castOn : Int) (s : State) : SameSecure s (armJob ctx castOn s) :=
  ⟨rfl, rfl, rfl, rfl, rfl, rfl⟩

theorem freeJob_jobs (ctx : Fin 64) (s : State) : (freeJob ctx s).jobs = upd s.jobs ctx fun _ => Job.free := rfl

theorem freeJob_sameMotion (ctx : Fin 64) (s : State) : SameMotion s (freeJob ctx s) := ⟨rfl, rfl, rfl, rfl⟩

/-! ## The obligation -/

section
variable {s : State} {ctx : Fin 64} (hr : s.ringsRun = true) (t : Nat)
include hr

theorem leaves_jobArm {castOn : Int} {pk : Package} (hst : (s.jobs[ctx]).st = .loaded)
    (hpk : (s.jobs[ctx]).pkg = some pk) (hc : firstRefusal (armConds (s.arrive t) ctx pk castOn) = .ok) :
    Leaves (.jobArm t ctx castOn) s fun s' =>
      (s'.jobs[ctx]).st = .armed ∧ (s'.jobs[ctx]).castOn = castOn ∧ (s'.jobs[ctx]).nextSlot = 0 ∧
      (s'.jobs[ctx]).queue = (s.jobs[ctx]).queue ∧ (∀ n, n ≠ ctx → s'.jobs[n] = s.jobs[n]) ∧
      SameMotion s s' ∧ SameSecure s s' := by
  refine ⟨_, exec_jobArm_of_ok hr t hst hpk hc, ?_⟩
  simp only [after_jobs, complete_jobs, armJob_jobs, State.arrive_jobs, upd_getElem_self]
  exact ⟨rfl, rfl, rfl, rfl, fun n hn => upd_getElem_of_ne hn _ _,
    sameMotion_after (sameMotion_trans (armJob_sameMotion ..) (complete_sameMotion ..)),
    sameSecure_after (sameSecure_trans (armJob_sameSecure ..) (complete_job_sameSecure ..))⟩

theorem leaves_jobCastOff {pk : Package} (hst : (s.jobs[ctx]).st = .armed) (hpk : (s.jobs[ctx]).pkg = some pk)
    (hitems : (s.jobs[ctx]).items = []) (last : Nat) :
    Leaves (.jobCastOff t ctx last) s fun s' => (s'.jobs[ctx]).castOff = some last ∧
      (s'.jobs[ctx]).queue = (s.jobs[ctx]).queue.filter (fun q => decide (q.seq ≤ last)) ∧
      (s'.jobs[ctx]).lastQueued = decide (last < (s.jobs[ctx]).nextSeq) ∧ SameMotion s s' := by
  refine ⟨_, exec_jobCastOff hr t hst hpk hitems last, ?_⟩
  obtain ⟨hcast, hqueue, hlast, hmotion⟩ := castOffAt_leaves (s := s.arrive t) hst hitems last
  simp only [after_jobs, complete_jobs]
  exact ⟨hcast, hqueue, hlast, sameMotion_after (sameMotion_trans hmotion (complete_sameMotion ..))⟩

theorem leaves_jobAbort (hst : (s.jobs[ctx]).st.active = true) : Leaves (.jobAbort t (.job ctx) ctx) s fun s' =>
    (s'.jobs[ctx]).st = .closed ∧ (s'.jobs[ctx]).items = [] ∧ (s'.jobs[ctx]).queue = [] ∧
    (s'.jobs[ctx]).jobId = (s.jobs[ctx]).jobId ∧ (∀ x ∈ s'.pac.slots, x.ctx ≠ ctx.val) ∧
    (∀ n, n ≠ ctx → s'.jobs[n] = s.jobs[n]) ∧ SameMotion s s' := by
  refine ⟨_, exec_jobAbort_of_active hr t hst, ?_⟩
  obtain ⟨hclosed, hitems, hqueue, hid, hslots, hothers, hmotion⟩ := abortJob_leaves ctx (s.arrive t)
  simp only [after_jobs, after_pac, complete_jobs, complete_pac]
  exact ⟨hclosed, hitems, hqueue, hid, hslots, hothers,
    sameMotion_after (sameMotion_trans hmotion (complete_sameMotion ..))⟩

theorem leaves_jobClose (hst : (s.jobs[ctx]).st = .opened ∨ (s.jobs[ctx]).st = .loaded) (ring : RingId) :
    Leaves (.jobClose t ring ctx) s fun s' =>
      s'.jobs[ctx] = Job.free ∧ (∀ n, n ≠ ctx → s'.jobs[n] = s.jobs[n]) ∧ SameMotion s s' := by
  refine ⟨_, exec_jobClose_of_ok hr t hst ring, ?_⟩
  simp only [after_jobs, complete_jobs, freeJob_jobs, State.arrive_jobs, upd_getElem_self]
  exact ⟨trivial, fun n hn => upd_getElem_of_ne hn _ _,
    sameMotion_after (sameMotion_trans (freeJob_sameMotion ..) (complete_sameMotion ..))⟩

end

/-- Settles O15: arming and freeing write their context; an abort and a cast-off do so too, but for the outcomes of its
items, which leave the rest of the context, the other contexts and the motion hardware as they were. -/
theorem jobLifetime : Obligations.JobLifetime := by
  intro t ctx s hr
  refine ⟨?_, ?_, ?_, ?_, ?_, ?_, ?_, ?_⟩
  · exact fun castOn pk hst hpk hc => leaves_jobArm hr t hst hpk hc
  · exact fun castOn hst hpk hmode => exec_jobArm_of_mode hr t hst hpk hmode castOn
  · exact fun castOn hst => exec_jobArm_of_state hr t hst castOn
  · exact fun last pk hst hpk hitems => leaves_jobCastOff hr t hst hpk hitems last
  · exact leaves_jobAbort hr t
  · exact fun ring hst => exec_jobAbort_of_closed hr t hst ring
  · exact fun ring hst => leaves_jobClose hr t hst ring
  · exact fun ring hst => exec_jobClose_of_printing hr t hst ring

end Sys2Proof.Machine
end

section
/-! What operations leave, seen through a view of the state. -/
namespace Sys2Proof.Machine

open Sys2Proof.Claim

/-- What each of a series of operations leaves, the series leaves. -/
theorem foldl_leaves {α β : Type} {g : State → β} {f : State → α → State} (h : ∀ s x, g (f s x) = g s) (l : List α)
    (s : State) : g (l.foldl f s) = g s := by
  induction l generalizing s with
  | nil => rfl
  | cons x l ih => rw [List.foldl_cons, ih, h]

/-- The motion hardware. -/
abbrev MotionHardware : Type := Vector Ba 8 × Vector Sd 24 × Vector Stp 16 × Vector Enc 16

/-- The motion hardware of a state. -/
def State.motion (s : State) : MotionHardware := (s.ba, s.sd, s.stp, s.enc)

theorem sameMotion_iff {s s' : State} : SameMotion s s' ↔ s'.motion = s.motion := by
  simp only [SameMotion, State.motion, Prod.mk.injEq]

/-- A counter that starts at 0 counts one more and saturates. -/
theorem rd_count {r : RegSpec} (h : r.reset = 0#32) (i : Nat) (s : State) :
    ((s.count r i).rd r i).toNat = min ((s.rd r i).toNat + 1) 0xFFFFFFFF := by
  have hword : (BitVec.ofNat 32 (min ((s.rd r i).toNat + 1) 0xFFFFFFFF)).toNat = min ((s.rd r i).toNat + 1) 0xFFFFFFFF := by
    rw [BitVec.toNat_ofNat]
    omega
  rw [State.count, rd_wr_self, hword]
  intro hzero
  rw [hzero, h] at hword
  simp only [BitVec.toNat_ofNat] at hword
  omega

theorem after_ins (t : Nat) (s : State) (f : State → State) : (after t s f).ins = (f (s.arrive t)).ins := rfl

theorem after_rd (t : Nat) (s : State) (f : State → State) (r : RegSpec) (i : Nat) :
    (after t s f).rd r i = (f (s.arrive t)).rd r i := rfl

theorem after_motion (t : Nat) (s : State) (f : State → State) : (after t s f).motion = (f (s.arrive t)).motion := rfl

theorem after_wav (t : Nat) (s : State) (f : State → State) : (after t s f).wav = (f (s.arrive t)).wav := rfl

end Sys2Proof.Machine
end

section
/-! The composition- and code-supported speeds (R112, R113, R132), and obligation O17. -/
namespace Sys2Proof.Machine

open Sys2Proof.Claim

/-! ## The start-up rule of a speed limit -/

theorem windowSpeed_idle (m v new : Nat) : windowSpeed false m v new = 10000000 := rfl

theorem windowSpeed_active (m v new : Nat) :
    windowSpeed true m v new = if 1000000 ≤ m then min 10000000 new else v := rfl

theorem windowSpeed_of_short {m : Nat} (h : m < 1000000) (v new : Nat) : windowSpeed true m v new = v := by
  rw [windowSpeed_active, if_neg (by omega)]

theorem windowSpeed_of_long {m : Nat} (h : 1000000 ≤ m) (v new : Nat) : windowSpeed true m v new = min 10000000 new := by
  rw [windowSpeed_active, if_pos h]

@[simp] theorem State.arrive_anyActive (s : State) (t : Nat) : (s.arrive t).anyActive = s.anyActive := rfl

/-! ## The updates -/

section
variable {s : State} (hr : s.ringsRun = true) (t : Nat)
include hr

/-- What VCOMP_UPDATE leaves of the composition block (R112, R113). -/
theorem exec_vcompUpdate :
    ∃ c : Cmp, exec (.vcompUpdate t) s = .next (after t s fun s => { s with cmp := c }) ∧
      (s.anyActive = false → c.vbase = 10000000) ∧
      (∀ y m, s.anyActive = true → y = c.cycles.sum → m = windowMove c.cycles.pos s.pac.est.p →
        c.vbase = if 1000000 ≤ m then min 10000000 (if y = 0 then 10000000 else 900 * s.pwr.kcomp * m / y)
                  else s.cmp.vbase) ∧
      c.runwayLow = runwayLow s ∧ (c.runwayLow = false → c.vcomp = c.vbase) ∧
      (c.runwayLow = true → c.vcomp ≤ c.vbase ∧ 100 * c.vcomp ≤ 95 * (webSpeed (s.arrive t)).toNat) := by
  refine ⟨_, (ringCmd_eq_after hr rfl : execVcompUpdate t s = _), ?_, ?_, rfl, ?_, ?_⟩
  · intro hidle
    simp only [State.arrive_anyActive, hidle, windowSpeed_idle]
  · intro y m hact hy hm
    simp only [State.arrive_anyActive, hact, windowSpeed_active]
    rw [hy, hm]
    rfl
  · intro hlow
    exact if_neg (Bool.eq_false_iff.mp hlow)
  · intro hlow
    replace hlow : runwayLow (s.arrive t) = true := hlow
    simp only [hlow, if_true]
    omega

/-- What VCODE_UPDATE leaves of the code engines (R112, R132). -/
theorem exec_vcodeUpdate :
    ∃ k : Cod, exec (.vcodeUpdate t) s = .next (after t s fun s => { s with cod := k }) ∧
      (s.anyActive = false → k.vcode = 10000000) ∧ k.excl = s.cod.excl ∧ k.slots = s.cod.slots ∧
      (∀ u g m, s.anyActive = true → u = k.syms.sum → g = k.tags.sum → m = windowMove k.syms.pos s.pac.est.p →
        (m < 1000000 → k.vcode = s.cod.vcode) ∧
        (1000000 ≤ m → 0 < u → 0 < g → k.vcode = min 10000000 (min (180 * m / u) (360 * m / g))) ∧
        (1000000 ≤ m → u = 0 → g = 0 → k.vcode = 10000000)) := by
  refine ⟨_, (ringCmd_eq_after hr rfl : execVcodeUpdate t s = _), ?_⟩
  refine ⟨?_, rfl, rfl, ?_⟩
  · intro hidle
    simp only [State.arrive_anyActive, hidle, windowSpeed_idle]
  · rintro _ _ _ hact rfl rfl rfl
    simp only [State.arrive_anyActive, hact]
    refine ⟨fun hm => windowSpeed_of_short hm .., fun hm hu hg => ?_, fun hm hu hg => ?_⟩
    · exact (windowSpeed_of_long hm ..).trans (congrArg (min _) (congrArg₂ min (if_neg hu.ne') (if_neg hg.ne')))
    · exact (windowSpeed_of_long hm ..).trans (congrArg (min _) (congrArg₂ min (if_pos hu) (if_pos hg)))

end

/-- Settles O17: both updates write their own block alone, and their speeds follow the start-up rule of R112. -/
theorem supportedSpeeds : Obligations.SupportedSpeeds :=
  fun t _ hr => ⟨exec_vcompUpdate hr t, exec_vcodeUpdate hr t⟩

end Sys2Proof.Machine
end

section
/-! The energy-supported and head-thermal speeds (R112, R200, R201), and obligation O26. -/
namespace Sys2Proof.Machine

open Sys2Proof.Claim

/-! ## The least term -/

theorem exists_leastTerm {l : List ((Nat × Nat) × Nat)} {x : (Nat × Nat) × Nat} (hx : x ∈ l) :
    ∃ y, leastTerm l = some y ∧ y.2 ≤ x.2 := by
  induction l with
  | nil => cases hx
  | cons z l ih =>
    unfold leastTerm
    obtain rfl | hl := List.mem_cons.mp hx
    · split
      · split
        · exact ⟨x, rfl, le_rfl⟩
        · exact ⟨_, rfl, by omega⟩
      · exact ⟨x, rfl, le_rfl⟩
    · obtain ⟨w, hw, hle⟩ := ih hl
      simp only [hw]
      split
      · exact ⟨z, rfl, by omega⟩
      · exact ⟨w, rfl, hle⟩

/-- The energy-supported speed is at most every term of R200. -/
theorem energySpeed_le {l : List ((Nat × Nat) × Nat)} {x : (Nat × Nat) × Nat} (hx : x ∈ l) :
    min 10000000 (((leastTerm (l.filter fun x => decide (x.2 < capSpeed))).map (·.2)).getD capSpeed) ≤ x.2 := by
  by_cases hcap : x.2 < capSpeed
  · have hmem : x ∈ l.filter fun x => decide (x.2 < capSpeed) := List.mem_filter.mpr ⟨hx, decide_eq_true hcap⟩
    obtain ⟨y, hy, hle⟩ := exists_leastTerm hmem
    rw [hy]
    exact (min_le_right ..).trans hle
  · exact (min_le_left ..).trans (not_lt.mp hcap)

/-! ## OVER bits and hot heads are reports -/

theorem sansReports_overAll (kind : Nat) (old : List (Nat × Nat × Bool)) (l : List (Nat × Nat × Nat)) (s : State) :
    (overAll kind old l s).2.sansReports = s.sansReports := by
  induction l generalizing s with
  | nil => rfl
  | cons x l ih =>
    unfold overAll overStep
    simp only [ih]
    split <;> simp

/-! ## VENERGY_UPDATE -/

/-- The energy window without what lies further back than 16 ms. -/
def energyWindow (s : State) : State :=
  s.modWav fun v => { v with energy := keep16 s.now v.energy, pos := keep16 s.now v.pos }

/-- Limit and energy of each amplifier channel. -/
def channelUses (tb : StructTables) (s : State) : List (Nat × Nat × Nat) :=
  tb.acs.map fun a => (a.ac, a.limitMw, acEnergy s a.ac)

/-- Limit and energy of each hub supply. -/
def supplyUses (tb : StructTables) (s : State) : List (Nat × Nat × Nat) :=
  (supplies tb).map fun q => (q.1, q.2, supEnergy s tb q.1)

/-- The terms of R200 for a master advance: those of the channels, then those of the supplies. -/
def energyTerms (tb : StructTables) (mv : Nat) (s : State) : List ((Nat × Nat) × Nat) :=
  ((channelUses tb s).filterMap fun a => (energyTerm a.2.1 mv a.2.2).map fun v => ((1, a.1), v)) ++
    (supplyUses tb s).filterMap fun q => (energyTerm q.2.1 mv q.2.2).map fun v => ((2, q.1), v)

/-- An amplifier channel with a limit that used energy gives a term. -/
theorem mem_energyTerms {tb : StructTables} {a : AcRec} {s : State} (ha : a ∈ tb.acs) (hlim : 0 < a.limitMw)
    (he : 0 < acEnergy s a.ac) (mv : Nat) :
    ((1, a.ac), 900 * a.limitMw * mv * 2 ^ 24 / acEnergy s a.ac) ∈ energyTerms tb mv s := by
  refine List.mem_append_left _ (List.mem_filterMap.mpr ⟨_, List.mem_map_of_mem ha, ?_⟩)
  have hterm : ¬(acEnergy s a.ac = 0 ∨ a.limitMw = 0) := by omega
  rw [energyTerm, if_neg hterm]
  rfl

section
variable {s : State} (hr : s.ringsRun = true) (t : Nat)
include hr

/-- But for AC_OVER records VENERGY_UPDATE takes the window's terms into the waveform engine (R200). -/
theorem exec_venergyUpdate {tb : StructTables} (htb : s.str.tables = some tb) {m : Int} (hm : m = masterNow (s.arrive t))
    {mv : Nat} (hmv : mv = windowMove (energyWindow (s.arrive t)).wav.pos m)
    {least : Option ((Nat × Nat) × Nat)}
    (hl : least = leastTerm ((energyTerms tb mv (energyWindow (s.arrive t))).filter fun x => decide (x.2 < capSpeed))) :
    ∃ (x : State) (acp sup : List (Nat × Nat × Bool)), x.sansReports = (energyWindow (s.arrive t)).sansReports ∧
      exec (.venergyUpdate t) s = .next (after t s fun _ => x.modWav fun v =>
        { v with pos := (x.now, m) :: v.pos, acPower := acp, supPower := sup,
                 venergy := windowSpeed x.anyActive mv v.venergy ((least.map (·.2)).getD capSpeed),
                 limiter := if !x.anyActive then (0, 0) else if 1000000 ≤ mv then (least.map (·.1)).getD (0, 0)
                            else v.limiter }) := by
  subst hm hmv hl
  let w := energyWindow (s.arrive t)
  let a := overAll 1 w.wav.acPower (channelUses tb w) w
  let b := overAll 2 a.2.wav.supPower (supplyUses tb w) a.2
  refine ⟨b.2, a.1, b.1, ?_, (ringCmd_eq_after hr ?_ : execVenergyUpdate t s = _)⟩
  · rw [sansReports_overAll, sansReports_overAll]
  · simp only [State.arrive_str, htb]
    rfl

theorem leaves_venergyUpdate {tb : StructTables} (htb : s.str.tables = some tb) :
    Leaves (.venergyUpdate t) s fun s' =>
      (s.anyActive = false → s'.wav.venergy = 10000000 ∧ s'.wav.limiter = (0, 0)) ∧
      (∀ m, s.anyActive = true → m = windowMove s'.wav.pos.tail (masterNow (s.arrive t)) →
        (m < 1000000 → s'.wav.venergy = s.wav.venergy ∧ s'.wav.limiter = s.wav.limiter) ∧
        (1000000 ≤ m → s'.wav.venergy ≤ 10000000 ∧ ∀ a ∈ tb.acs, 0 < a.limitMw → 0 < acEnergy s' a.ac →
          s'.wav.venergy ≤ 900 * a.limitMw * m * 2 ^ 24 / acEnergy s' a.ac)) ∧
      s'.wav.vheat = s.wav.vheat ∧ s'.jobs = s.jobs ∧ SameMotion s s' := by
  obtain ⟨x, acp, sup, hx, hexec⟩ := exec_venergyUpdate hr t htb rfl rfl rfl
  have hwav : x.wav = (energyWindow (s.arrive t)).wav := eq_of_sansReports hx (g := State.wav) fun _ => rfl
  have hmotion : SameMotion (energyWindow (s.arrive t)) x := sameMotion_of_sansReports hx
  have hjobs : x.jobs = (energyWindow (s.arrive t)).jobs := jobs_of_sansReports hx
  have hact : x.anyActive = s.anyActive := eq_of_sansReports hx (g := State.anyActive) fun _ => rfl
  refine ⟨_, hexec, ?_⟩
  simp only [after_wav, State.modWav_wav, hwav, hact]
  refine ⟨fun hidle => ?_, ?_, rfl, hjobs, hmotion⟩
  · rw [hidle]
    exact ⟨rfl, rfl⟩
  · rintro _ hbusy rfl
    rw [hbusy]
    refine ⟨fun hm => ⟨windowSpeed_of_short hm .., if_neg (not_le.mpr hm)⟩, fun hm => ?_⟩
    rw [List.tail_cons] at hm ⊢
    rw [windowSpeed_of_long hm]
    refine ⟨min_le_left .., fun a ha hlim he => ?_⟩
    have he' : acEnergy (energyWindow (s.arrive t)) a.ac = acEnergy x a.ac := by rw [acEnergy, acEnergy, hwav]
    exact energySpeed_le (mem_energyTerms ha hlim (he' ▸ he) _) |>.trans_eq (by rw [he']; rfl)

theorem exec_venergyUpdate_of_none (htb : s.str.tables = none) : exec (.venergyUpdate t) s = .next (after t s id) :=
  (ringCmd_eq_after hr (by simp only [State.arrive_str, htb, id]) : execVenergyUpdate t s = _)

end

/-! ## VHEAT_UPDATE -/

/-- A head at T_MAX or more is named once in its episode (R201). -/
def noteHot (s : State) (r : Nat × Int) : State :=
  if (s.head r.1).hot then s else alarm .wavHeadHot r.1 (s.modHead r.1 fun h => { h with hot := true })

/-- The state without its reports and without the heads' own records. -/
def State.sansHeads (s : State) : State := s.sansReports.modWav fun v => { v with heads := [] }

theorem sansHeads_noteHot (s : State) (r : Nat × Int) : (noteHot s r).sansHeads = s.sansHeads := by
  unfold noteHot State.sansHeads
  split
  · rfl
  · rw [sansReports_alarm]
    rfl

/-- The temperatures that VHEAT_UPDATE compares, relative to T_MAX. -/
def heatReads (s : State) (band : Int) : List (Nat × Int) :=
  s.wav.heads.filterMap fun h => (headOver s band h.2).map fun d => (h.1, d)

theorem mem_heatReads {s : State} {band : Int} {r : Nat × Int} :
    r ∈ heatReads s band ↔ ∃ h ∈ s.wav.heads, ∃ d, headOver s band h.2 = some d ∧ (h.1, d) = r := by
  simp [heatReads]

theorem forall_heatReads {s : State} {band : Int} {P : Int → Prop}
    (h : ∀ h ∈ s.wav.heads, ∀ d, headOver s band h.2 = some d → P d) : ∀ r ∈ heatReads s band, P r.2 := by
  intro r hr
  obtain ⟨x, hx, d, hd, rfl⟩ := mem_heatReads.mp hr
  exact h x hx d hd

/-- The head-thermal speed that follows from a web speed, the present limit and the temperatures (R201). -/
def heatSpeed (band : Int) (v v0 : Nat) (reads : List (Nat × Int)) : Nat :=
  if !(reads.filter fun r => decide (0 ≤ r.2)).isEmpty then min v0 (v * 90 / 100)
  else if reads.any (fun r => decide (-band ≤ r.2)) then min v0 (v * 98 / 100)
  else if reads.all (fun r => decide (r.2 ≤ -2 * band)) then min capSpeed (v0 + 100000)
  else v0

section
variable {band : Int} {v v0 : Nat} {reads : List (Nat × Int)}

theorem heatSpeed_of_hot (h : ∃ r ∈ reads, 0 ≤ r.2) : heatSpeed band v v0 reads = min v0 (v * 90 / 100) := by
  refine if_pos ?_
  simpa using h

theorem heatSpeed_of_warm (hcool : ∀ r ∈ reads, r.2 < 0) (h : ∃ r ∈ reads, -band ≤ r.2) :
    heatSpeed band v v0 reads = min v0 (v * 98 / 100) := by
  refine (if_neg ?_).trans (if_pos ?_)
  · simpa using hcool
  · simpa using h

theorem heatSpeed_of_cold (h : ∀ r ∈ reads, r.2 < -band ∧ r.2 < 0 ∧ r.2 ≤ -2 * band) :
    heatSpeed band v v0 reads = min capSpeed (v0 + 100000) := by
  refine (if_neg ?_).trans ((if_neg ?_).trans (if_pos ?_))
  · simpa using fun a b hr => (h (a, b) hr).2.1
  · simpa using fun a b hr => (h (a, b) hr).1
  · simpa using fun a b hr => (h (a, b) hr).2.2

theorem heatSpeed_of_between (hcool : ∀ r ∈ reads, r.2 < -band ∧ r.2 < 0) (h : ∃ r ∈ reads, -2 * band < r.2) :
    heatSpeed band v v0 reads = v0 := by
  refine (if_neg ?_).trans ((if_neg ?_).trans (if_neg ?_))
  · simpa using fun a b hr => (hcool (a, b) hr).2
  · simpa using fun a b hr => (hcool (a, b) hr).1
  · simpa using h

end

section
variable {s : State} (hr : s.ringsRun = true) (t : Nat)
include hr

/-- But for reports and the heads' own records VHEAT_UPDATE sets the head-thermal speed (R201). -/
theorem leaves_vheatUpdate_speed : Leaves (.vheatUpdate t) s fun s' =>
    s'.wav.vheat = heatSpeed (s.fld Reg.wavHeatCfg 0 7 0 : Nat) (webSpeed s).toNat s.wav.vheat
      (heatReads s (s.fld Reg.wavHeatCfg 0 7 0 : Nat)) ∧
    s'.wav.venergy = s.wav.venergy ∧ s'.jobs = s.jobs ∧ SameMotion s s' := by
  let band : Int := (s.fld Reg.wavHeatCfg 0 7 0 : Nat)
  let hot := (heatReads s band).filter fun r => decide (0 ≤ r.2)
  let slow := (s.arrive t).modWav fun w =>
    { w with vheat := heatSpeed band (webSpeed s).toNat s.wav.vheat (heatReads s band) }
  have hfold : (hot.foldl noteHot slow).sansHeads = slow.sansHeads := foldl_leaves sansHeads_noteHot hot slow
  have hwav : (hot.foldl noteHot slow).wav.venergy = slow.wav.venergy ∧ (hot.foldl noteHot slow).wav.vheat = slow.wav.vheat :=
    ⟨congrArg (·.wav.venergy) hfold, congrArg (·.wav.vheat) hfold⟩
  have hjobs : (hot.foldl noteHot slow).jobs = slow.jobs := (congrArg State.jobs hfold :)
  have hmotion : SameMotion slow (hot.foldl noteHot slow) :=
    sameMotion_iff.mpr (congrArg State.motion hfold :)
  exact ⟨_, (ringCmd_eq hr : execVheatUpdate t s = _), hwav.2, hwav.1, hjobs, hmotion⟩

end

/-- Settles O26: v_energy is at most each of its terms, since it is the least of those below the ceiling; v_heat is decided
by the hottest of the heads that have a temperature. -/
theorem energySpeeds : Obligations.EnergySpeeds := by
  intro t s hr
  refine ⟨fun tb htb => leaves_venergyUpdate hr t htb, exec_venergyUpdate_of_none hr t, ?_⟩
  rintro _ _ rfl rfl
  obtain ⟨s', hexec, hheat, henergy, hjobs, hmotion⟩ := leaves_vheatUpdate_speed hr t
  refine ⟨s', hexec, ?_, ?_, ?_, ?_, henergy, hjobs, hmotion⟩
  · rintro ⟨h, hh, d, hd, hle⟩
    rw [hheat, heatSpeed_of_hot ⟨_, mem_heatReads.mpr ⟨h, hh, d, hd, rfl⟩, hle⟩]
  · rintro hcool ⟨h, hh, d, hd, hle⟩
    rw [hheat, heatSpeed_of_warm (forall_heatReads hcool) ⟨_, mem_heatReads.mpr ⟨h, hh, d, hd, rfl⟩, hle⟩]
  · intro hcold
    rw [hheat, heatSpeed_of_cold (forall_heatReads hcold)]
    rfl
  · rintro hcool ⟨h, hh, d, hd, hlt⟩
    rw [hheat, heatSpeed_of_between (forall_heatReads hcool) ⟨_, mem_heatReads.mpr ⟨h, hh, d, hd, rfl⟩, hlt⟩]

end Sys2Proof.Machine
end

section
/-! Scan lines and the lane-bandwidth speed (R112, R226, R227), and obligation O30. -/
namespace Sys2Proof.Machine

open Sys2Proof.Claim

/-! ## Lines of a bridge -/

/-- Two updates of a bridge are one. -/
theorem modBridge_modBridge (b : Fin 16) (f g : Bridge → Bridge) (s : State) :
    (s.modBridge b f).modBridge b g = s.modBridge b fun x => g (f x) := by
  simp only [State.modBridge, upd_upd]

/-- A new line is as full as its frame makes it, whenever it arrives. -/
theorem full_add_newLine (s s' : State) (b : Fin 16) (f : ScanFrame) :
    ((newLine s b f).add f).full = ((newLine s' b f).add f).full := rfl

section
variable {s : State} {b : Fin 16} (hr : s.ringsRun = true) (t : Nat)
include hr

/-- The first frame of a line that it does not complete. -/
theorem exec_scanLineFrame_of_first {f : ScanFrame} (hg : (s.ins.bridges[b]).gathering = none)
    (hfull : ((newLine s b f).add f).full = false) :
    exec (.scanLineFrame t b f) s = .next (after t s fun s =>
      s.modBridge b fun x => { x with gathering := some ((newLine s b f).add f) }) := by
  refine (ringCmd_eq_after hr ?_ : execScanLineFrame t b f s = _)
  rw [full_add_newLine s (s.arrive t)] at hfull
  simp only [State.arrive_ins, hg, hfull, Bool.false_eq_true, if_false]

/-- A frame of the line being gathered. -/
theorem exec_scanLineFrame_of_same {f : ScanFrame} {l : ScanLine} (hg : (s.ins.bridges[b]).gathering = some l)
    (hline : l.line = f.line) :
    exec (.scanLineFrame t b f) s = .next (after t s fun s =>
      if (l.add f).full then passLine b (l.add f) s else s.modBridge b fun x => { x with gathering := some (l.add f) }) := by
  refine (ringCmd_eq_after hr ?_ : execScanLineFrame t b f s = _)
  simp only [State.arrive_ins, hg, hline, if_true]

/-- The first frame of the next line passes the old one on. -/
theorem exec_scanLineFrame_of_next {f : ScanFrame} {l : ScanLine} (hg : (s.ins.bridges[b]).gathering = some l)
    (hline : l.line ≠ f.line) (hfull : ((newLine s b f).add f).full = false) :
    exec (.scanLineFrame t b f) s = .next (after t s fun s => s.modBridge b fun x =>
      { x with store := x.store ++ [l], gathering := some ((newLine s b f).add f) }) := by
  refine (ringCmd_eq_after hr ?_ : execScanLineFrame t b f s = _)
  rw [full_add_newLine s (s.arrive t)] at hfull
  simp only [State.arrive_ins, hg, hline, if_false, hfull, Bool.false_eq_true, passLine, modBridge_modBridge]

theorem exec_scanLineIncomplete_of_due {l : ScanLine} (hg : (s.ins.bridges[b]).gathering = some l)
    (hdue : l.firstAt + 800000 ≤ max s.now t) :
    exec (.scanLineIncomplete t b l.line) s = .next (after t s (passLine b l)) := by
  refine (ringCmd_eq_after hr ?_ : execScanLineIncomplete t b l.line s = _)
  simp only [State.arrive_ins, hg]
  exact if_pos ⟨trivial, hdue⟩

theorem exec_scanLineIncomplete_of_early {l : ScanLine} (hg : (s.ins.bridges[b]).gathering = some l)
    (hearly : max s.now t < l.firstAt + 800000) (n : Nat) :
    exec (.scanLineIncomplete t b n) s = .next (after t s id) := by
  refine (ringCmd_eq_after hr ?_ : execScanLineIncomplete t b n s = _)
  simp only [State.arrive_ins, hg]
  exact if_neg fun h => absurd h.2 (not_le.mpr hearly)

end

/-! ## The lane-bandwidth speed -/

/-- The least term of R227 over the lanes that carried octets, for a master advance. -/
def laneSpeed (s : State) (mv : Nat) : Nat :=
  (((List.range 64).filterMap fun l => laneTerm mv (laneOctets s l)).min?).getD capSpeed

theorem laneSpeed_le {s : State} {l : Nat} (hl : l < 64) (hpos : 0 < laneOctets s l) (mv : Nat) :
    laneSpeed s mv ≤ 11250000 * mv / laneOctets s l :=
  List.min?_getD_le_of_mem (List.mem_filterMap.mpr ⟨l, List.mem_range.mpr hl, if_neg hpos.ne'⟩)

/-- VLANE_UPDATE decides the lane-bandwidth speed by the window that it leaves. -/
theorem leaves_vlaneUpdate_speed {s : State} (hr : s.ringsRun = true) (t : Nat) (octets : List (Nat × Nat)) :
    Leaves (.vlaneUpdate t octets) s fun s' =>
      (∀ mv, mv = windowMove s'.mlk.pos.tail (masterNow (s.arrive t)) →
        s'.mlk.vlane = windowSpeed s.anyActive mv s.mlk.vlane (laneSpeed s' mv)) ∧
      s'.mlk.lanes = s.mlk.lanes ∧ s'.mlk.eps = s.mlk.eps ∧ s'.jobs = s.jobs ∧ s'.regs = s.regs ∧ SameMotion s s' :=
  ⟨_, (ringCmd_eq hr : execVlaneUpdate t octets s = _), fun _ h => h ▸ rfl, rfl, rfl, rfl, rfl, rfl, rfl, rfl, rfl⟩

theorem leaves_vlaneUpdate {s : State} (hr : s.ringsRun = true) (t : Nat) (octets : List (Nat × Nat)) :
    Leaves (.vlaneUpdate t octets) s fun s' =>
      (s.anyActive = false → s'.mlk.vlane = 10000000) ∧
      (∀ m, s.anyActive = true → m = windowMove s'.mlk.pos.tail (masterNow (s.arrive t)) →
        (m < 1000000 → s'.mlk.vlane = s.mlk.vlane) ∧
        (1000000 ≤ m → s'.mlk.vlane ≤ 10000000 ∧
          ∀ l, l < 64 → 0 < laneOctets s' l → s'.mlk.vlane ≤ 11250000 * m / laneOctets s' l)) ∧
      s'.mlk.lanes = s.mlk.lanes ∧ s'.mlk.eps = s.mlk.eps ∧ s'.jobs = s.jobs ∧ s'.regs = s.regs ∧ SameMotion s s' := by
  obtain ⟨s', hexec, hspeed, hkept⟩ := leaves_vlaneUpdate_speed hr t octets
  refine ⟨s', hexec, fun hidle => ?_, fun m hbusy hm => ?_, hkept⟩
  · rw [hspeed _ rfl, hidle, windowSpeed_idle]
  · rw [hspeed m hm, hbusy]
    refine ⟨fun hshort => windowSpeed_of_short hshort .., fun hlong => ?_⟩
    rw [windowSpeed_of_long hlong]
    exact ⟨min_le_left .., fun l hl hpos => (min_le_right ..).trans (laneSpeed_le hl hpos m)⟩

/-- Settles O30: a frame joins, begins or completes a line of its bridge alone, and v_lane is at most the least term. -/
theorem scanLines : Obligations.ScanLines := by
  intro t b s hr
  refine ⟨?_, ?_, ?_, ?_, ?_, ?_, leaves_vlaneUpdate hr t⟩
  · exact fun f hg hfull => exec_scanLineFrame_of_first hr t hg hfull
  · intro f l hg hline hfull
    rw [exec_scanLineFrame_of_same hr t hg hline, hfull]
    rfl
  · intro f l hg hline hfull
    rw [exec_scanLineFrame_of_same hr t hg hline, hfull]
    rfl
  · exact fun f l hg hline hfull => exec_scanLineFrame_of_next hr t hg hline hfull
  · exact fun l hg hdue => exec_scanLineIncomplete_of_due hr t hg hdue
  · exact fun l n hg hearly => exec_scanLineIncomplete_of_early hr t hg hearly n

end Sys2Proof.Machine
end

section
/-! Counters and runways: reports, outcomes and settlements leave the runways of the planes and the words of the counters
that count underruns, lost lines and missing verdicts (R181, R229, R241, R246). -/
namespace Sys2Proof.Machine

/-! ## The view -/

/-- The addresses of GOV_UNDERRUN, INS_LINES_LOST and INS_UNVER. -/
def tallyKey (k : Nat) : Bool := decide (0x10820 ≤ k ∧ k < 0x10840 ∨ k = 0x2C0020 ∨ k = 0x2C0024)

/-- The words of the counters, and the runways. -/
structure Standing where
  words : List (Nat × Word)
  runways : Vector (List RunwayCourse) 8

/-- The counters and runways of a state. -/
def State.standing (s : State) : Standing :=
  { words := s.regs.filter fun e => tallyKey e.1, runways := s.planes.map (·.runway) }

/-- A counter's register reads the same in states of the same standing. -/
theorem rd_of_standing {s s' : State} (h : s'.standing = s.standing) {r : RegSpec} {i : Nat}
    (hk : tallyKey (r.addr i) = true) : s'.rd r i = s.rd r i := by
  have hwords : ∀ x : State, regLookup (r.addr i) x.standing.words = regLookup (r.addr i) x.regs := fun x =>
    regLookup_filter_of_kept (p := fun e => tallyKey e.1) (fun _ => hk) x.regs
  rw [State.rd, ← hwords, h, hwords, State.rd]

theorem runway_of_standing {s s' : State} (h : s'.standing = s.standing) (q : Fin 8) :
    (s'.planes[q]).runway = (s.planes[q]).runway := by
  simpa [State.standing] using congrArg (·.runways[q]) h

/-- A store at a key that a filter drops leaves the filtered map. -/
theorem filter_regInsert {p : Nat × Word → Bool} {k : Nat} (h : ∀ v, p (k, v) = false) (v d : Word)
    (l : List (Nat × Word)) : (regInsert k v d l).filter p = l.filter p := by
  induction l with
  | nil => unfold regInsert; split <;> simp [h]
  | cons e l ih =>
    obtain ⟨j, w⟩ := e
    unfold regInsert
    split_ifs with _ _ hj
    · rfl
    · simp [h]
    · simp [← hj, h]
    · simp [← hj, h]
    · simp [List.filter_cons, ih]

/-- A write to another register than a counter leaves the standing. -/
theorem standing_wr {r : RegSpec} {i : Nat} (h : tallyKey (r.addr i) = false) (v : Word) (s : State) :
    (s.wr r i v).standing = s.standing :=
  congrArg (Standing.mk · _) (filter_regInsert (p := fun e => tallyKey e.1) (fun _ => h) v r.reset s.regs)

theorem standing_count {r : RegSpec} {i : Nat} (h : tallyKey (r.addr i) = false) (k : Nat) (s : State) :
    (s.count r i k).standing = s.standing := standing_wr h _ s

/-- A change to a plane that keeps its runway leaves the standing. -/
theorem standing_modPlane {p : Fin 8} {f : PlaneSt → PlaneSt} (h : ∀ x, (f x).runway = x.runway) (s : State) :
    (s.modPlane p f).standing = s.standing := by
  have hmap : (upd s.planes p f).map (·.runway) = s.planes.map (·.runway) := by
    ext q hq
    by_cases hpq : p.val = q
    · subst hpq
      simp [upd, h]
    · simp [upd, Vector.getElem_set_ne, hpq]
  simp only [State.standing, State.modPlane, hmap]

@[simp] theorem standing_modLog (s : State) (f : LogState → LogState) : (s.modLog f).standing = s.standing := rfl
@[simp] theorem standing_modJob (s : State) (n : Fin 64) (f : Job → Job) : (s.modJob n f).standing = s.standing := rfl
@[simp] theorem standing_admitRec (r : LogRec) (s : State) : (admitRec r s).standing = s.standing := rfl
@[simp] theorem standing_diagNote (code inst : Nat) (s : State) : (diagNote code inst s).standing = s.standing := rfl

@[simp] theorem standing_msix (s : State) (v : Nat) : (s.msix v).standing = s.standing := by
  unfold State.msix
  split <;> rfl

/-! ## Alarms and records -/

theorem Alarm.code_lt (a : Alarm) : a.code < 256 := by
  cases a <;> decide

theorem standing_latchAlarm {code : Nat} (h : code < 256) (s : State) : (latchAlarm code s).standing = s.standing := by
  have hkey : tallyKey (Reg.evtAlarmLatch.addr (code / 32)) = false := by
    refine decide_eq_false ?_
    simp only [RegSpec.addr, Reg.evtAlarmLatch]
    omega
  unfold latchAlarm
  simp only []
  split
  · rfl
  · rw [standing_msix, standing_wr hkey]

@[simp] theorem standing_alarmArgs (a : Alarm) (inst : Nat) (a0 a1 a2 : Int) (s : State) :
    (alarmArgs a inst a0 a1 a2 s).standing = s.standing := by
  have hlatch := standing_latchAlarm a.code_lt s
  unfold alarmArgs
  simp only []
  split_ifs
  · exact hlatch
  · exact hlatch
  · exact hlatch
  · rw [State.setFld, standing_wr (by decide), hlatch]

@[simp] theorem standing_alarm (a : Alarm) (inst : Nat) (s : State) : (alarm a inst s).standing = s.standing :=
  standing_alarmArgs a inst 0 0 0 s

@[simp] theorem standing_writeSummary (cls : LogClass) (s : State) : (writeSummary cls s).standing = s.standing := by
  unfold writeSummary
  simp only []
  split_ifs <;> rfl

@[simp] theorem standing_diag (d : Diag) (inst : Nat) (a0 a1 a2 : Int) (s : State) :
    (diag d inst a0 a1 a2 s).standing = s.standing := by
  unfold diag
  simp only []
  split_ifs
  · rw [standing_count (by decide), standing_modLog]
  · rw [standing_diagNote, standing_admitRec, standing_modLog, standing_writeSummary]
  · rfl

@[simp] theorem standing_admitList (bound : State → Nat) (l : List LogRec) (s : State) :
    (admitList bound l s).2.standing = s.standing := by
  induction l generalizing s with
  | nil => rfl
  | cons r l ih =>
    unfold admitList
    split
    · rw [ih, standing_admitRec]
    · rfl

@[simp] theorem standing_admitItems (l : List BackEntry) (s : State) : (admitItems l s).2.standing = s.standing := by
  induction l generalizing s with
  | nil => rfl
  | cons e l ih =>
    unfold admitItems
    split
    · split
      · exact ih _
      · rfl
    · exact ih s

@[simp] theorem standing_admitWaiting (s : State) : (admitWaiting s).standing = s.standing := by
  simp [admitWaiting]

theorem standing_raiseAudit (a : AuditRec) (s : State) : (raiseAudit a s).standing = s.standing :=
  standing_admitWaiting _

theorem standing_raiseItem (o : OutcomeRec) (s : State) : (raiseItem o s).standing = s.standing :=
  standing_admitWaiting _

/-! ## Frames of the fabric -/

theorem standing_sendPort (n : Fin 32) (dst : Nat) (f : XlkTx) (s : State) : (sendPort n dst f s).standing = s.standing := by
  unfold sendPort
  simp only []
  split_ifs <;> rfl

@[simp] theorem standing_sendXlk (dst : Nat) (f : XlkTx) (s : State) : (sendXlk dst f s).standing = s.standing := by
  unfold sendXlk
  split
  · exact foldl_leaves (fun s n => standing_sendPort n dst f s) _ s
  · split
    · exact standing_sendPort ..
    · exact standing_count (by decide) 1 s

@[simp] theorem standing_mirror (f : MirrorFrame) (s : State) : (mirror f s).standing = s.standing := by
  unfold mirror
  split
  · exact standing_sendXlk ..
  · rfl

/-! ## Outcomes -/

theorem standing_closeSealed (o : OutcomeRec) (b : SealedBind) (s : State) : (closeSealed o b s).standing = s.standing :=
  standing_raiseAudit _ _

theorem standing_reportOutcome (ctx : Fin 64) (o : OutcomeRec) (s : State) :
    (reportOutcome ctx o s).standing = s.standing := by
  unfold reportOutcome
  split
  · rfl
  · split
    · exact standing_sendXlk ..
    · exact standing_raiseItem ..

theorem standing_closeItem (ctx : Fin 64) (o : OutcomeRec) (sb : Option SealedBind) (s : State) :
    (closeItem ctx o sb s).standing = s.standing := by
  have hxlk : ∀ (x : State) (y : Xlk), { x with xlk := y }.standing = x.standing := fun _ _ => rfl
  unfold closeItem
  simp only []
  rw [standing_reportOutcome, hxlk, standing_modJob]
  cases sb with
  | none => rfl
  | some b => exact standing_closeSealed o b s

theorem standing_closeFront (ctx : Fin 64) (l : List Item) (s : State) : (closeFront ctx l s).2.standing = s.standing := by
  induction l generalizing s with
  | nil => rfl
  | cons it l ih =>
    unfold closeFront
    split
    · rw [ih, standing_closeItem]
    · rfl

theorem standing_takeEntries (ctx : Fin 64) (l : List OutcomeRec) (s : State) :
    (takeEntries ctx l s).2.standing = s.standing := by
  induction l generalizing s with
  | nil => rfl
  | cons o l ih =>
    unfold takeEntries
    split
    · rfl
    · rw [ih, standing_closeItem]

theorem standing_voidQueue (ctx : Fin 64) (codes : BitVec 16) (l : List Record) (s : State) :
    (voidQueue ctx codes l s).2.standing = s.standing := by
  induction l generalizing s with
  | nil => rfl
  | cons r l ih => exact ih _

/-! ## Runs of underrun courses end -/

@[simp] theorem standing_endRun (p : Fin 8) (s : State) : (endRun p s).standing = s.standing := by
  unfold endRun
  split
  · rw [standing_diag]
    refine standing_modPlane ?_ s
    exact fun _ => rfl
  · rfl

theorem standing_endRuns (ctx : Fin 64) (s : State) : (endRuns ctx s).standing = s.standing := by
  refine foldl_leaves (fun s p => ?_) _ s
  split
  · split
    · exact standing_endRun p s
    · rfl
  · rfl

/-! ## A job is settled -/

/-- A job that has not drained stays as it is; one that has ends its runs of underruns and is CLOSED (R83). -/
theorem closeJob_eq (ctx : Fin 64) (s : State) :
    closeJob ctx s = s ∨ closeJob ctx s = endRuns ctx (s.modJob ctx fun j => { j with st := .closed }) := by
  unfold closeJob
  simp only []
  split
  · split_ifs
    · exact .inr rfl
    · exact .inl rfl
  · exact .inl rfl

theorem standing_closeJob (ctx : Fin 64) (s : State) : (closeJob ctx s).standing = s.standing := by
  obtain h | h := closeJob_eq ctx s
  · rw [h]
  · rw [h, standing_endRuns, standing_modJob]

theorem standing_settleJob (ctx : Fin 64) (s : State) : (settleJob ctx s).standing = s.standing := by
  unfold settleJob
  simp only []
  split
  · rfl
  · rfl
  · rw [standing_closeJob, standing_modJob, standing_takeEntries, standing_modJob, standing_closeFront]

theorem standing_drainCheck (ctx : Fin 64) (s : State) : (drainCheck ctx s).standing = s.standing := by
  unfold drainCheck
  simp only []
  split
  · split
    · rw [standing_settleJob, standing_modJob]
    · rfl
  · rfl

end Sys2Proof.Machine
end

section
/-! The settling of a job (R83, R87): what the closing of its items and of the job itself leave. -/
namespace Sys2Proof.Machine

open Sys2Proof.Claim

/-! ## The state without what settling a job writes -/

/-- A job without its outcomes, its items and its state. -/
def Job.sansSettling (j : Job) : Job := { j.sansOutcomes with st := .free, items := [] }

/-- The state with what settling one job writes set aside: reports, the partition, the planes' runs of underruns, and the
job's outcomes, items and state. -/
def State.sansSettling (ctx : Fin 64) (s : State) : State :=
  { s.sansReports with met := .reset, planes := Vector.replicate 8 .reset, jobs := upd s.jobs ctx Job.sansSettling }

section
variable {ctx : Fin 64} {s s' : State} (h : s'.sansSettling ctx = s.sansSettling ctx)
include h

/-- What does not read what settling writes is the same in both. -/
theorem eq_of_sansSettling {α : Type} {g : State → α} (hg : ∀ x, g (x.sansSettling ctx) = g x) : g s' = g s := by
  rw [← hg s', h, hg]

theorem sameMotion_of_sansSettling : SameMotion s s' :=
  sameMotion_iff.mpr (eq_of_sansSettling h (g := State.motion) fun _ => rfl)

theorem pac_of_sansSettling : s'.pac = s.pac := eq_of_sansSettling h (g := State.pac) fun _ => rfl

theorem otp_of_sansSettling : s'.otp = s.otp := eq_of_sansSettling h (g := State.otp) fun _ => rfl

theorem job_of_sansSettling : (s'.jobs[ctx]).sansSettling = (s.jobs[ctx]).sansSettling := by
  have hjob : ∀ x : State, (x.sansSettling ctx).jobs[ctx] = (x.jobs[ctx]).sansSettling := fun x => upd_getElem_self ..
  rw [← hjob, h, hjob]

theorem planes_of_sansSettling : (s'.jobs[ctx]).planes = (s.jobs[ctx]).planes :=
  (congrArg Job.planes (job_of_sansSettling h) :)

theorem otherJob_of_sansSettling {n : Fin 64} (hn : n ≠ ctx) : s'.jobs[n] = s.jobs[n] :=
  eq_of_sansSettling h (g := fun x => x.jobs[n]) fun _ => upd_getElem_of_ne hn _ _

end

theorem sansSettling_of_sansReports {s s' : State} (h : s'.sansReports = s.sansReports) (ctx : Fin 64) :
    s'.sansSettling ctx = s.sansSettling ctx := by
  rw [State.sansSettling, h, jobs_of_sansReports h, State.sansSettling]

theorem sansSettling_of_sansOutcomes {ctx : Fin 64} {s s' : State} (h : s'.sansOutcomes ctx = s.sansOutcomes ctx) :
    s'.sansSettling ctx = s.sansSettling ctx := by
  have hview : ∀ x : State, x.sansSettling ctx = (x.sansOutcomes ctx).sansSettling ctx := fun x =>
    congrArg (fun v => { x.sansReports with met := .reset, planes := Vector.replicate 8 .reset, jobs := v })
      (upd_upd x.jobs ctx Job.sansOutcomes Job.sansSettling).symm
  rw [hview, h, ← hview]

/-- A context of which settling writes all that changes. -/
theorem sansSettling_modJob {ctx : Fin 64} {f : Job → Job} {s : State}
    (h : (f s.jobs[ctx]).sansSettling = (s.jobs[ctx]).sansSettling) :
    (s.modJob ctx f).sansSettling ctx = s.sansSettling ctx := by
  have hjobs : upd (upd s.jobs ctx f) ctx Job.sansSettling = upd s.jobs ctx Job.sansSettling := by
    rw [upd_upd, upd, h, upd]
  exact congrArg (fun v => { s.sansSettling ctx with jobs := v }) hjobs

/-! ## What settling does -/

theorem closeFront_suffix (ctx : Fin 64) (l : List Item) (s : State) : (closeFront ctx l s).1 <:+ l := by
  induction l generalizing s with
  | nil => exact List.suffix_rfl
  | cons it l ih =>
    unfold closeFront
    split
    · exact (ih _).trans (List.suffix_cons it l)
    · exact List.suffix_rfl

/-- An item that is finished is the same item with the same verdict. -/
theorem finishItem_keeps (s : State) (ctx : Fin 64) (it : Item) :
    (finishItem s ctx it).seq = it.seq ∧ (finishItem s ctx it).verdict = it.verdict := by
  unfold finishItem
  simp only []
  split <;> exact ⟨rfl, rfl⟩

/-- Settling a job closes items, keeps others under their numbers and verdicts, takes entries for outcomes, and closes the
job when it has drained. -/
theorem settleJob_cases (ctx : Fin 64) (s : State) :
    settleJob ctx s = s ∨ ∃ (x y : State) (left : List Item) (wait : List OutcomeRec),
      x.sansOutcomes ctx = s.sansOutcomes ctx ∧
      y.sansOutcomes ctx = (x.modJob ctx fun j => { j with items := left }).sansOutcomes ctx ∧
      (∀ it ∈ left, ∃ z ∈ (s.jobs[ctx]).items, it.seq = z.seq ∧ it.verdict = z.verdict) ∧
      settleJob ctx s = closeJob ctx (y.modJob ctx fun j => { j with entryWait := wait }) := by
  unfold settleJob
  simp only []
  split
  · exact .inl rfl
  · exact .inl rfl
  · refine .inr ⟨_, _, _, _, sansOutcomes_closeFront .., sansOutcomes_takeEntries .., fun it hit => ?_, rfl⟩
    obtain ⟨z, hz, rfl⟩ := List.mem_map.mp ((closeFront_suffix ..).subset hit)
    refine ⟨z, hz, ?_⟩
    split_ifs
    · exact ⟨rfl, rfl⟩
    · exact finishItem_keeps s ctx z
    · exact ⟨rfl, rfl⟩

theorem sansSettling_closeJob (ctx : Fin 64) (s : State) : (closeJob ctx s).sansSettling ctx = s.sansSettling ctx := by
  obtain h | h := closeJob_eq ctx s
  · rw [h]
  · rw [h, sansSettling_of_sansOutcomes (sansOutcomes_endRuns ..), sansSettling_modJob rfl]

theorem sansSettling_settleJob (ctx : Fin 64) (s : State) : (settleJob ctx s).sansSettling ctx = s.sansSettling ctx := by
  obtain h | ⟨x, y, left, wait, hx, hy, -, h⟩ := settleJob_cases ctx s
  · rw [h]
  · rw [h, sansSettling_closeJob, sansSettling_modJob rfl, sansSettling_of_sansOutcomes hy, sansSettling_modJob rfl,
      sansSettling_of_sansOutcomes hx]

theorem sansSettling_drainCheck (ctx : Fin 64) (s : State) : (drainCheck ctx s).sansSettling ctx = s.sansSettling ctx := by
  unfold drainCheck
  simp only []
  split
  · split
    · rw [sansSettling_settleJob, sansSettling_modJob rfl]
    · rfl
  · rfl

theorem items_closeJob (ctx : Fin 64) (s : State) : ((closeJob ctx s).jobs[ctx]).items = (s.jobs[ctx]).items := by
  obtain h | h := closeJob_eq ctx s
  · rw [h]
  · have hruns := congrArg Job.items (job_of_sansOutcomes
      (sansOutcomes_endRuns ctx (s.modJob ctx fun j => { j with st := .closed })))
    simpa only [h, State.modJob_jobs, upd_getElem_self, Job.sansOutcomes] using hruns

/-- The items of a settled job were its items before, with their verdicts. -/
theorem exists_item_of_settleJob {ctx : Fin 64} {s : State} {it : Item} (h : it ∈ ((settleJob ctx s).jobs[ctx]).items) :
    ∃ z ∈ (s.jobs[ctx]).items, it.seq = z.seq ∧ it.verdict = z.verdict := by
  obtain heq | ⟨x, y, left, wait, hx, hy, hleft, heq⟩ := settleJob_cases ctx s
  · rw [heq] at h
    exact ⟨it, h, rfl, rfl⟩
  · have hitems : (y.jobs[ctx]).items = left := by
      simpa only [State.modJob_jobs, upd_getElem_self, Job.sansOutcomes] using
        congrArg Job.items (job_of_sansOutcomes hy)
    rw [heq, items_closeJob] at h
    simp only [State.modJob_jobs, upd_getElem_self, hitems] at h
    exact hleft it h

end Sys2Proof.Machine
end

section
/-! Lines, verdicts and the inspection-supported speed (R112, R229, R241, R243), and obligation O31. -/
namespace Sys2Proof.Machine

open Sys2Proof.Claim

/-! ## What analysis leaves -/

/-- The scan bridges and the motion hardware. -/
def State.scans (s : State) : Vector Bridge 16 × MotionHardware := (s.ins.bridges, s.motion)

/-- What has been scanned and counted, and the motion hardware. -/
def State.scanned (s : State) : List NozCount × Vector Bridge 16 × MotionHardware :=
  (s.ins.counts, s.scans)

theorem sansReports_alarmArgs (a : Alarm) (inst : Nat) (a0 a1 a2 : Int) (s : State) :
    (alarmArgs a inst a0 a1 a2 s).sansReports = s.sansReports := by
  unfold alarmArgs
  simp only []
  split_ifs <;> simp [State.setFld]

theorem scans_putAcc (v : VerdictAcc) (s : State) : (putAcc v s).scans = s.scans := rfl

theorem scans_movePending (s : State) : (movePending s).scans = s.scans := rfl

theorem scans_placeDead (tb : StructTables) (p : Fin 8) (h n count : Nat) (s : State) :
    (placeDead tb p h n count s).scans = s.scans := by
  unfold placeDead
  simp only []
  rw [scans_movePending]
  exact eq_of_sansReports ((sansReports_alarmArgs ..).trans (sansReports_count ..)) (g := State.scans) fun _ => rfl

theorem scans_ambiguous (p : Fin 8) (pixel : Nat) (here : NozCount → Bool) (s : State) :
    (ambiguous p pixel here s).scans = s.scans := by
  unfold ambiguous
  simp only []
  split
  · rfl
  · exact eq_of_sansReports ((sansReports_diag ..).trans (sansReports_count ..)) (g := State.scans) fun _ => rfl

theorem scans_evaluate (tb : StructTables) (p : Fin 8) (pixel : Nat) (wales : List Nat) (c : NozCount) (s : State) :
    (evaluate tb p pixel wales c s).scans = s.scans := by
  unfold evaluate
  simp only []
  split
  · rfl
  split
  · exact scans_ambiguous ..
  split
  · exact foldl_leaves (fun s x => scans_placeDead ..) _ _
  · rfl

theorem scans_countInk (tb : StructTables) (p : Fin 8) (pixel : Nat) (wales : List Nat) (deficit : Bool) (n : Nat × Nat)
    (s : State) : (countInk tb p pixel wales deficit n s).scans = s.scans := by
  unfold countInk
  simp only []
  split
  · exact scans_evaluate ..
  · rfl

theorem scans_analysePixel (tb : StructTables) (e : EndpointRec) (lines : List ScanLine) (l : ScanLine)
    (job : Fin 64 × Package × AppearRec) (s : State) (i : Nat) : (analysePixel tb e lines l job s i).scans = s.scans := by
  unfold analysePixel
  simp only []
  refine (foldl_leaves (fun s it => scans_putAcc _ s) _ _).trans (foldl_leaves (fun s x => ?_) _ s)
  exact foldl_leaves (fun s n => scans_countInk ..) _ s

theorem scans_analyseLine (tb : StructTables) (e : EndpointRec) (lines : List ScanLine) (l : ScanLine) (s : State) :
    (analyseLine tb e lines l s).scans = s.scans := by
  refine foldl_leaves (fun s job => ?_) _ s
  split
  · exact foldl_leaves (fun s i => scans_analysePixel ..) _ s
  · rfl

/-! ## Verdicts -/

theorem scanned_settleJob (ctx : Fin 64) (s : State) : (settleJob ctx s).scanned = s.scanned :=
  eq_of_sansSettling (sansSettling_settleJob ctx s) (g := State.scanned) fun _ => rfl

theorem scanned_judgeItem (ctx : Fin 64) (pk : Package) (late : Bool) (it : Item) (s : State) :
    (judgeItem ctx pk late it s).scanned = s.scanned := by
  unfold judgeItem when
  simp only []
  split <;> rfl

theorem standing_judgeItem (ctx : Fin 64) (pk : Package) (late : Bool) (it : Item) (s : State) :
    (judgeItem ctx pk late it s).standing = s.standing := by
  unfold judgeItem when
  simp only []
  split
  · exact standing_count (by decide) _ _
  · rfl

theorem otherJob_judgeItem {ctx n : Fin 64} (h : n ≠ ctx) (pk : Package) (late : Bool) (it : Item) (s : State) :
    (judgeItem ctx pk late it s).jobs[n] = s.jobs[n] := by
  unfold judgeItem when
  simp only []
  split <;> exact upd_getElem_of_ne h _ _

/-- Judging an item gives it a verdict and leaves the other items of its job. -/
theorem items_judgeItem (ctx : Fin 64) (pk : Package) (late : Bool) (it : Item) (s : State) :
    ∃ up : Item → Item, (∀ x, (up x).verdict.isSome = true) ∧
      ((judgeItem ctx pk late it s).jobs[ctx]).items =
        (s.jobs[ctx]).items.map fun x => if x.seq = it.seq then up x else x := by
  unfold judgeItem when
  simp only []
  split <;> exact ⟨_, fun _ => rfl, congrArg Job.items (upd_getElem_self ..)⟩

theorem verdict_judgeItem {ctx : Fin 64} {pk : Package} {late : Bool} {it z : Item} {s : State}
    (hz : z ∈ ((judgeItem ctx pk late it s).jobs[ctx]).items) (hseq : z.seq = it.seq) : z.verdict.isSome = true := by
  obtain ⟨up, hup, heq⟩ := items_judgeItem ctx pk late it s
  rw [heq] at hz
  obtain ⟨x, -, rfl⟩ := List.mem_map.mp hz
  split at hseq
  next h => rw [if_pos h]; exact hup x
  next h => exact absurd hseq h

theorem scanned_judgeScanned (s : State) (ctx : Fin 64) : (judgeScanned ctx s).scanned = s.scanned := by
  unfold judgeScanned
  simp only []
  split
  · split
    · rfl
    · rw [scanned_settleJob]
      exact foldl_leaves (fun s it => scanned_judgeItem ..) _ s
  · rfl

theorem standing_judgeScanned (s : State) (ctx : Fin 64) : (judgeScanned ctx s).standing = s.standing := by
  unfold judgeScanned
  simp only []
  split
  · split
    · rfl
    · rw [standing_settleJob]
      exact foldl_leaves (fun s it => standing_judgeItem ..) _ s
  · rfl

/-- Every job's scanned items take their verdicts. -/
def judgeAll (s : State) : State := (List.finRange 64).foldl (fun s c => judgeScanned c s) s

theorem scanned_judgeAll (s : State) : (judgeAll s).scanned = s.scanned := foldl_leaves scanned_judgeScanned _ s

theorem counts_of_scanned {x y : State} (h : x.scanned = y.scanned) : x.ins.counts = y.ins.counts :=
  (congrArg Prod.fst h :)

theorem scans_of_scanned {x y : State} (h : x.scanned = y.scanned) : x.scans = y.scans := (congrArg Prod.snd h :)

theorem standing_judgeAll (s : State) : (judgeAll s).standing = s.standing := foldl_leaves standing_judgeScanned _ s

/-! ## Lines -/

/-- A line that analysis does not take up: incomplete, of a bridge that was not READY, too old, or already passed. -/
def lineLost (s : State) (b : Fin 16) (e : EndpointRec) (l : ScanLine) : Bool :=
  !l.full || !l.ready || decide (l.firstAt + s.fld Reg.insCfg 0 31 24 * ms8 < s.now) ||
    (s.ins.bridges[b]).highest.any fun h => decide (lineY s e l (linePlane s) ≤ h)

/-- A bridge whose oldest line was taken from its store. -/
def Bridge.takeLine (l : ScanLine) (rest : List ScanLine) (x : Bridge) : Bridge :=
  { x with store := rest, recent := (l :: x.recent).take 8, mono := !l.rgb, active := true }

/-- The oldest line taken from its bridge's store, with the cycles that it cost. -/
def lineTaken (b : Fin 16) (l : ScanLine) (rest : List ScanLine) (cycles : Nat) (s : State) : State :=
  (s.modBridge b (Bridge.takeLine l rest)).modIns fun x => { x with cycles := (s.now, cycles) :: x.cycles }

/-- A line taken, lost or analysed. -/
def lineAnalysed (b : Fin 16) (tb : StructTables) (e : EndpointRec) (l : ScanLine) (rest : List ScanLine) (cycles : Nat)
    (s : State) : State :=
  if lineLost s b e l then (lineTaken b l rest cycles s).count Reg.insLinesLost
  else (analyseLine tb e ((s.ins.bridges[b]).recent ++ l :: rest) l (lineTaken b l rest cycles s)).modBridge b
    fun x => { x with highest := some (lineY s e l (linePlane s)) }

section
variable {s : State} {b : Fin 16} {l : ScanLine} {rest : List ScanLine} (hr : s.ringsRun = true)
include hr

theorem exec_lineAnalysis {tb : StructTables} {e : EndpointRec} (htb : s.str.tables = some tb)
    (he : s.epRec (48 + b) = some e) (hdis : s.isDisabled 0x08 0 = false)
    (hstore : (s.ins.bridges[b]).store = l :: rest) (t cycles : Nat) :
    exec (.lineAnalysis t b cycles) s =
      .next (after t s fun s => judgeAll (lineAnalysed b tb e l rest cycles s)) := by
  refine (ringCmd_eq_after hr ?_ : execLineAnalysis t b cycles s = _)
  have he' : (s.arrive t).epRec (48 + b) = some e := he
  have hdis' : (s.arrive t).isDisabled 0x08 0 = false := hdis
  simp only [State.arrive_str, State.arrive_ins, htb, he', hdis', hstore, Bool.false_eq_true, if_false]
  rfl

theorem exec_lineAnalysis_of_empty (hstore : (s.ins.bridges[b]).store = []) (t cycles : Nat) :
    exec (.lineAnalysis t b cycles) s = .next (after t s id) := by
  refine (ringCmd_eq_after hr ?_ : execLineAnalysis t b cycles s = _)
  simp only [State.arrive_ins, hstore, ite_self]
  split
  · contradiction
  · rfl

end

theorem bridges_of_scans {x y : State} (h : x.scans = y.scans) : x.ins.bridges = y.ins.bridges :=
  (congrArg Prod.fst h :)

theorem motion_of_scans {x y : State} (h : x.scans = y.scans) : x.motion = y.motion := (congrArg Prod.snd h :)

/-- A line analysed leaves its bridge's store without it and every other bridge as it was. -/
theorem bridges_lineAnalysed (b : Fin 16) (tb : StructTables) (e : EndpointRec) (l : ScanLine) (rest : List ScanLine)
    (cycles : Nat) (s : State) : ∃ f : Bridge → Bridge, (∀ x, (f x).store = rest ∧ (f x).gathering = x.gathering) ∧
      (lineAnalysed b tb e l rest cycles s).ins.bridges = upd s.ins.bridges b f := by
  have htaken : (lineTaken b l rest cycles s).ins.bridges = upd s.ins.bridges b (Bridge.takeLine l rest) := rfl
  unfold lineAnalysed
  split
  · exact ⟨Bridge.takeLine l rest, fun _ => ⟨rfl, rfl⟩, htaken⟩
  · refine ⟨fun x => { Bridge.takeLine l rest x with highest := some (lineY s e l (linePlane s)) }, fun _ => ⟨rfl, rfl⟩, ?_⟩
    simp only [State.modBridge, bridges_of_scans (scans_analyseLine ..), htaken, upd_upd]

theorem motion_lineAnalysed (b : Fin 16) (tb : StructTables) (e : EndpointRec) (l : ScanLine) (rest : List ScanLine)
    (cycles : Nat) (s : State) : (lineAnalysed b tb e l rest cycles s).motion = s.motion := by
  unfold lineAnalysed
  split
  · rfl
  · exact (motion_of_scans (scans_analyseLine ..) :)

/-- A line lost is counted and counts at no nozzle. -/
theorem lineAnalysed_of_lost {b : Fin 16} {e : EndpointRec} {l : ScanLine} {s : State} (h : lineLost s b e l = true)
    (tb : StructTables) (rest : List ScanLine) (cycles : Nat) :
    lineAnalysed b tb e l rest cycles s = (lineTaken b l rest cycles s).count Reg.insLinesLost := if_pos h

section
variable {s : State} {b : Fin 16} {l : ScanLine} {rest : List ScanLine} (hr : s.ringsRun = true)
include hr

theorem leaves_lineAnalysis {tb : StructTables} {e : EndpointRec} (htb : s.str.tables = some tb)
    (he : s.epRec (48 + b) = some e) (hdis : s.isDisabled 0x08 0 = false)
    (hstore : (s.ins.bridges[b]).store = l :: rest) (t cycles : Nat) :
    Leaves (.lineAnalysis t b cycles) s fun s' =>
      (s'.ins.bridges[b]).store = rest ∧ (s'.ins.bridges[b]).gathering = (s.ins.bridges[b]).gathering ∧
      (∀ k, k ≠ b → s'.ins.bridges[k] = s.ins.bridges[k]) ∧
      (l.full = false ∨ l.ready = false ∨ l.firstAt + s.fld Reg.insCfg 0 31 24 * 8000000 < max s.now t →
        s'.ins.counts = s.ins.counts ∧
        (s'.rd Reg.insLinesLost).toNat = min ((s.rd Reg.insLinesLost).toNat + 1) 0xFFFFFFFF) ∧ SameMotion s s' := by
  obtain ⟨f, hf, hline⟩ := bridges_lineAnalysed b tb e l rest cycles (s.arrive t)
  refine ⟨_, exec_lineAnalysis hr htb he hdis hstore t cycles, ?_⟩
  simp only [sameMotion_iff, after_ins, after_rd, after_motion]
  have hscanned := scanned_judgeAll (lineAnalysed b tb e l rest cycles (s.arrive t))
  have hscans := scans_of_scanned hscanned
  have hlines := rd_of_standing (standing_judgeAll (lineAnalysed b tb e l rest cycles (s.arrive t)))
    (r := Reg.insLinesLost) (i := 0) (by decide)
  simp only [bridges_of_scans hscans, hline, motion_of_scans hscans, motion_lineAnalysed]
  refine ⟨?_, ?_, fun k hk => upd_getElem_of_ne hk .., fun hlost => ?_, rfl⟩
  · rw [upd_getElem_self, (hf _).1]
  · rw [upd_getElem_self, (hf _).2]
    rfl
  · have hlost' : lineLost (s.arrive t) b e l = true := by
      obtain h | h | h := hlost
      · simp [lineLost, h]
      · simp [lineLost, h]
      · have hold : decide (l.firstAt + (s.arrive t).fld Reg.insCfg 0 31 24 * ms8 < (s.arrive t).now) = true :=
          decide_eq_true h
        simp only [lineLost, hold, Bool.or_true, Bool.true_or]
    rw [counts_of_scanned hscanned, hlines, lineAnalysed_of_lost hlost', rd_count rfl]
    exact ⟨rfl, rfl⟩

end

/-! ## The deadline of a verdict -/

section
variable {s : State} {c : Fin 64} {pk : Package} {it : Item} {seq d : Nat} (hr : s.ringsRun = true)
  (hpk : (s.jobs[c]).pkg = some pk) (hfind : (s.jobs[c]).items.find? (fun it => it.seq == seq) = some it)
  (hjudged : judged pk it = true) (hnone : it.verdict = none) (hdl : it.deadline = some d)
include hr hpk hfind hjudged hnone hdl

theorem exec_verdictDeadline (t : Nat) :
    exec (.verdictDeadline t c seq) s = .next (after t s
      (if d ≤ max s.now t then fun s => settleJob c (judgeItem c pk true it (s.count Reg.insUnver)) else id)) := by
  refine (ringCmd_eq_after hr ?_ : execVerdictDeadline t c seq s = _)
  simp only [State.arrive_jobs, hpk, hfind, hjudged, hnone, hdl]
  by_cases h : d ≤ max s.now t
  · rw [if_pos h]
    exact if_pos ⟨trivial, rfl, decide_eq_true h⟩
  · rw [if_neg h]
    exact if_neg fun hall => h (of_decide_eq_true hall.2.2)

theorem leaves_verdictDeadline {t : Nat} (hdue : d ≤ max s.now t) :
    Leaves (.verdictDeadline t c seq) s fun s' =>
      (∀ x ∈ (s'.jobs[c]).items, x.seq = seq → x.verdict.isSome = true) ∧
      (s'.rd Reg.insUnver).toNat = min ((s.rd Reg.insUnver).toNat + 1) 0xFFFFFFFF ∧
      (∀ n, n ≠ c → s'.jobs[n] = s.jobs[n]) ∧ SameMotion s s' := by
  have hseq : it.seq = seq := by simpa using List.find?_some hfind
  have hexec := exec_verdictDeadline hr hpk hfind hjudged hnone hdl t
  rw [if_pos hdue] at hexec
  refine ⟨_, hexec, fun x hx hxs => ?_, ?_, fun n hn => ?_, ?_⟩
  · obtain ⟨z, hz, hzs, hzv⟩ := exists_item_of_settleJob hx
    rw [hzv]
    exact verdict_judgeItem hz (by rw [← hzs, hxs, hseq])
  · calc ((settleJob c (judgeItem c pk true it ((s.arrive t).count Reg.insUnver))).rd Reg.insUnver).toNat
      _ = (((s.arrive t).count Reg.insUnver).rd Reg.insUnver).toNat := by
          rw [rd_of_standing ((standing_settleJob ..).trans (standing_judgeItem ..)) (by decide)]
      _ = _ := rd_count rfl 0 _
  · exact (otherJob_of_sansSettling (sansSettling_settleJob ..) hn).trans (otherJob_judgeItem hn ..)
  · refine sameMotion_iff.mpr ?_
    have hscanned := (scanned_settleJob c (judgeItem c pk true it ((s.arrive t).count Reg.insUnver))).trans
      (scanned_judgeItem ..)
    exact (congrArg (·.2.2) hscanned :)

end

/-! ## The inspection-supported speed -/

/-- VINSP_UPDATE decides the inspection-supported speed by the window that it leaves. -/
theorem leaves_vinspUpdate_speed {s : State} (hr : s.ringsRun = true) (t : Nat) :
    Leaves (.vinspUpdate t) s fun s' =>
      (∀ mv y, mv = windowMove s'.ins.pos (masterNow (s.arrive t)) → y = (s'.ins.cycles.map (·.2)).sum →
        s'.ins.vinsp ≤ windowSpeed (inspecting s) mv s.ins.vinsp (if y = 0 then capSpeed else 900 * s.pwr.kins * mv / y) ∧
        (inspecting s = false → s'.ins.vinsp = 10000000 ∧ s'.ins.backlog = false)) ∧
      s'.ins.counts = s.ins.counts ∧ s'.ins.bridges = s.ins.bridges ∧ s'.regs = s.regs ∧ s'.jobs = s.jobs ∧
      SameMotion s s' := by
  refine ⟨_, (ringCmd_eq hr : execVinspUpdate t s = _), ?_, rfl, rfl, rfl, rfl, rfl, rfl, rfl, rfl⟩
  rintro mv y rfl rfl
  have hins : inspecting (s.arrive t) = inspecting s := rfl
  constructor
  · simp only [State.modIns, hins]
    split
    · exact min_le_left ..
    · exact le_rfl
  · intro hidle
    simp only [State.modIns, hins, hidle]
    exact ⟨rfl, rfl⟩

theorem leaves_vinspUpdate {s : State} (hr : s.ringsRun = true) (t : Nat) :
    Leaves (.vinspUpdate t) s fun s' => (inspecting s = false → s'.ins.vinsp = 10000000 ∧ s'.ins.backlog = false) ∧
      (∀ m y, inspecting s = true → m = windowMove s'.ins.pos (masterNow (s.arrive t)) →
        y = (s'.ins.cycles.map (·.2)).sum → 1000000 ≤ m → s'.ins.vinsp ≤ 10000000 ∧
          (0 < y → s'.ins.vinsp ≤ 900 * s.pwr.kins * m / y)) ∧
      s'.ins.counts = s.ins.counts ∧ s'.ins.bridges = s.ins.bridges ∧ s'.regs = s.regs ∧ s'.jobs = s.jobs ∧
      SameMotion s s' := by
  obtain ⟨s', hexec, hspeed, hkept⟩ := leaves_vinspUpdate_speed hr t
  refine ⟨s', hexec, fun hidle => (hspeed _ _ rfl rfl).2 hidle, fun m y hbusy hm hy hlong => ?_, hkept⟩
  have hle := (hspeed m y hm hy).1
  rw [hbusy, windowSpeed_of_long hlong] at hle
  refine ⟨hle.trans (min_le_left ..), fun hpos => ?_⟩
  rw [if_neg hpos.ne'] at hle
  exact hle.trans (min_le_right ..)

/-- Settles O31: a lost line and a missing verdict are counted once and change nothing else, and v_insp is at most the cap
and the share of its window. -/
theorem inspection : Obligations.Inspection := by
  intro t b c s hr
  refine ⟨?_, ?_, ?_, leaves_vinspUpdate hr t⟩
  · exact fun tb e l rest cycles htb he hdis hstore => leaves_lineAnalysis hr htb he hdis hstore t cycles
  · exact fun cycles hstore => exec_lineAnalysis_of_empty hr hstore t cycles
  · intro pk it d seq hpk hfind hjudged hnone hdl
    refine ⟨fun hdue => leaves_verdictDeadline hr hpk hfind hjudged hnone hdl hdue, fun hearly => ?_⟩
    rw [exec_verdictDeadline hr hpk hfind hjudged hnone hdl, if_neg (not_le.mpr hearly)]

end Sys2Proof.Machine
end

section
/-! Courses are taken from the runway (R107, R149): a waiting slot for each scheduled row. -/
namespace Sys2Proof.Machine

open Sys2Proof.Claim

/-! ## The print path -/

/-- The fire slots and, of what the taking of a course leaves, the runways and the motion hardware. -/
structure PrintPath where
  slots : List FireSlot
  runways : Vector (List RunwayCourse) 8
  motion : MotionHardware

/-- The print path of a state. -/
def State.printPath (s : State) : PrintPath :=
  { slots := s.pac.slots, runways := s.planes.map (·.runway), motion := s.motion }

/-- What settling and the ends of underrun runs leave. -/
theorem printPath_of_sansSettling {ctx : Fin 64} {s s' : State} (h : s'.sansSettling ctx = s.sansSettling ctx)
    (hs : s'.standing = s.standing) : s'.printPath = s.printPath := by
  have hslots : s'.pac.slots = s.pac.slots := congrArg Pac.slots (pac_of_sansSettling h)
  have hrunways : s'.planes.map (·.runway) = s.planes.map (·.runway) := congrArg Standing.runways hs
  simp only [State.printPath, hslots, hrunways, sameMotion_iff.mp (sameMotion_of_sansSettling h)]

theorem printPath_settleJob (ctx : Fin 64) (s : State) : (settleJob ctx s).printPath = s.printPath :=
  printPath_of_sansSettling (sansSettling_settleJob ctx s) (standing_settleJob ctx s)

theorem printPath_endRun (p : Fin 8) (s : State) : (endRun p s).printPath = s.printPath :=
  printPath_of_sansSettling (sansSettling_of_sansOutcomes (sansOutcomes_endRun 0 p s)) (standing_endRun p s)

theorem printPath_bufferCourse (p : Fin 8) (b : BufCourse) (s : State) : (bufferCourse p b s).printPath = s.printPath := rfl

/-! ## The rows of a course -/

theorem printPath_numberAll (l : List Nat) (s : State) : (numberAll l s).2.printPath = s.printPath := by
  induction l generalizing s with
  | nil => rfl
  | cons h l ih => exact ih _

theorem printPath_sendCourse (cells : List WaleOut) (h : HeadRec) (slot : Nat) (s : State) :
    (sendCourse cells h slot s).printPath = s.printPath := by
  unfold sendCourse
  split
  · rfl
  · simp only []
    split <;> rfl

theorem printPath_streamSlot (tb : StructTables) (x : FireSlot) (s : State) :
    (streamSlot tb x s).printPath = s.printPath := by
  refine foldl_leaves (fun s h => ?_) _ s
  split
  · exact printPath_sendCourse ..
  · rfl

/-- A slot that waits with a row of a course. -/
def WaitsFor (p : Nat) (c : RunwayCourse) (x : FireSlot) : Prop :=
  x.plane = p ∧ x.ctx = c.ctx ∧ x.course = c.course ∧ x.st = .waiting

/-- The slot of a row of a course, before any firing is decided. -/
def rowSlot (p : Nat) (c : RunwayCourse) (row : Nat) (num : List (Nat × Nat)) : FireSlot :=
  { plane := p, row := row, ctx := c.ctx, course := c.course, gen := c.gen, st := .waiting, num := num, instants := [],
    latched := false, shift := 0, late := false, plays := [], wales := c.cells, unconfirmed := [] }

/-- A row that is taken adds its waiting slot. -/
theorem printPath_takeRow (tb : StructTables) (p : Nat) (c : RunwayCourse) (row : Nat) (s : State) :
    (takeRow tb p c row s).printPath =
      { s.printPath with slots := s.printPath.slots ++ [rowSlot p c row (numberAll (rowHubs tb p row) s).1] } := by
  refine (printPath_streamSlot ..).trans ?_
  rw [← printPath_numberAll (rowHubs tb p row) s]
  rfl

/-- The rows of a course add one waiting slot each, in their order. -/
theorem printPath_takeRows (tb : StructTables) (p : Nat) (c : RunwayCourse) (rows : List Nat) (s : State) :
    ∃ l : List FireSlot, l.map (·.row) = rows ∧ (∀ x ∈ l, WaitsFor p c x) ∧
      (rows.foldl (fun s r => takeRow tb p c r s) s).printPath = { s.printPath with slots := s.printPath.slots ++ l } := by
  induction rows generalizing s with
  | nil => exact ⟨[], rfl, nofun, by simp⟩
  | cons r rows ih =>
    obtain ⟨l, hrows, hl, hfold⟩ := ih (takeRow tb p c r s)
    refine ⟨rowSlot p c r (numberAll (rowHubs tb p r) s).1 :: l, by rw [List.map_cons, hrows]; rfl,
      List.forall_mem_cons.mpr ⟨⟨rfl, rfl, rfl, rfl⟩, hl⟩, ?_⟩
    rw [List.foldl_cons, hfold, printPath_takeRow]
    simp

/-! ## A course leaves the runway -/

/-- The course at the head of a runway leaves it; slots, other runways and motion stay. -/
theorem printPath_popRunway (p : Fin 8) (c : RunwayCourse) (s : State) :
    (popRunway p c s).printPath = { s.printPath with runways := upd s.printPath.runways p (·.drop 1) } := by
  have hmap : ∀ v : List RunwayCourse, (upd s.planes p fun x => { x with runway := v }).map (·.runway) =
      upd (s.planes.map (·.runway)) p fun _ => v := fun v => by
    simp [upd, Vector.map_set]
  have hrest : upd (s.planes.map (·.runway)) p (fun _ => (s.planes[p]).runway.drop 1) =
      upd (s.planes.map (·.runway)) p (·.drop 1) := by
    simp [upd]
  exact congrArg (PrintPath.mk _ · _) ((hmap _).trans hrest)

theorem printPath_takeCourse (tb : StructTables) (p : Fin 8) (c : RunwayCourse) (s : State) :
    ∃ l, (((s.jobs[Fin.ofNat 64 c.ctx]).planes[p]).passed.contains c.course = false →
        l.map (·.row) = scheduledRows c.cells ∧ ∀ x ∈ l, WaitsFor p c x) ∧
      (((s.jobs[Fin.ofNat 64 c.ctx]).planes[p]).passed.contains c.course = true → l = []) ∧
      (takeCourse tb p c s).printPath =
        { s.printPath with slots := s.printPath.slots ++ l, runways := upd s.printPath.runways p (·.drop 1) } := by
  have hpop : (popRunway p c (endRun p s)).printPath =
      { s.printPath with runways := upd s.printPath.runways p (·.drop 1) } := by
    rw [printPath_popRunway, printPath_endRun]
  unfold takeCourse
  extract_lets ctx j gone s₁ s₂
  have hbuffered : s₂.printPath = { s.printPath with runways := upd s.printPath.runways p (·.drop 1) } := by
    rw [← hpop]
    simp only [s₂]
    split
    · exact printPath_bufferCourse ..
    · rfl
  clear_value s₂ s₁
  split
  next h =>
    refine ⟨[], fun hnot => absurd (h.symm.trans hnot) (by decide), fun _ => rfl, ?_⟩
    rw [printPath_settleJob, hbuffered, List.append_nil]
  next h =>
    obtain ⟨l, hrows, hl, hpath⟩ := printPath_takeRows tb p c (scheduledRows c.cells) s₂
    exact ⟨l, fun _ => ⟨hrows, hl⟩, fun hgone => absurd hgone h, by rw [hpath, hbuffered]⟩

/-! ## COURSE_TAKE -/

section
variable {s : State} {p : Fin 8} {c : RunwayCourse} {rest : List RunwayCourse} (hr : s.ringsRun = true)
include hr

theorem exec_courseTake {tb : StructTables} (htb : s.str.tables = some tb) (hrun : (s.planes[p]).runway = c :: rest)
    (hact : (s.jobs[Fin.ofNat 64 c.ctx]).st.active = true)
    (hroom : (scheduledRows c.cells).all (fun r => (rowHubs tb p r).all (hubRoom s)) = true) (t : Nat) :
    exec (.courseTake t p) s = .next (after t s (takeCourse tb p c)) := by
  refine (ringCmd_eq_after hr ?_ : execCourseTake t p s = _)
  simp only [State.arrive_str, State.arrive_planes, htb, hrun]
  exact if_pos ⟨hact, hroom⟩

theorem exec_courseTake_of_empty (hrun : (s.planes[p]).runway = []) (t : Nat) :
    exec (.courseTake t p) s = .next (after t s id) := by
  refine (ringCmd_eq_after hr ?_ : execCourseTake t p s = _)
  simp only [State.arrive_planes, hrun]
  split
  · contradiction
  · rfl

theorem leaves_courseTake {tb : StructTables} (htb : s.str.tables = some tb) (hrun : (s.planes[p]).runway = c :: rest)
    (hact : (s.jobs[Fin.ofNat 64 c.ctx]).st.active = true)
    (hroom : (scheduledRows c.cells).all (fun r => (rowHubs tb p r).all (hubRoom s)) = true) (t : Nat) :
    Leaves (.courseTake t p) s fun s' => (s'.planes[p]).runway = rest ∧
      (((s.jobs[Fin.ofNat 64 c.ctx]).planes[p]).passed.contains c.course = false →
        ∃ l, s'.pac.slots = s.pac.slots ++ l ∧ l.map (·.row) = scheduledRows c.cells ∧
          ∀ x ∈ l, x.plane = p.val ∧ x.ctx = c.ctx ∧ x.course = c.course ∧ x.st = .waiting) ∧
      (((s.jobs[Fin.ofNat 64 c.ctx]).planes[p]).passed.contains c.course = true → s'.pac.slots = s.pac.slots) ∧
      (∀ q, q ≠ p → (s'.planes[q]).runway = (s.planes[q]).runway) ∧ SameMotion s s' := by
  refine ⟨_, exec_courseTake hr htb hrun hact hroom t, ?_⟩
  obtain ⟨l, htaken, hgone, hpath⟩ := printPath_takeCourse tb p c (s.arrive t)
  have hslots : (takeCourse tb p c (s.arrive t)).pac.slots = s.pac.slots ++ l := congrArg PrintPath.slots hpath
  have hrunway : ∀ q : Fin 8, ((takeCourse tb p c (s.arrive t)).planes[q]).runway =
      (upd s.printPath.runways p (·.drop 1))[q] := fun q => by
    simpa [State.printPath] using congrArg (fun v => v.runways[q]) hpath
  have hrunways : ∀ q : Fin 8, s.printPath.runways[q] = (s.planes[q]).runway := fun q => by simp [State.printPath]
  refine ⟨?_, fun h => ⟨l, hslots, htaken h⟩, fun h => ?_, fun q hq => ?_, ?_⟩
  · refine (hrunway p).trans ?_
    rw [upd_getElem_self, hrunways, hrun]
    rfl
  · refine hslots.trans ?_
    rw [hgone h, List.append_nil]
  · exact (hrunway q).trans ((upd_getElem_of_ne hq ..).trans (hrunways q))
  · exact sameMotion_iff.mpr (congrArg PrintPath.motion hpath)

end

end Sys2Proof.Machine
end

section
/-! Holds (R54): what a hold leaves of counters, of the courses of jobs and of the device's mode. -/
namespace Sys2Proof.Machine

/-! ## The view -/

/-- The words of the counters, the slots and courses of every job, and the device block. -/
structure Ledger where
  words : List (Nat × Word)
  courses : Vector (Nat × Vector JobPlane 8) 64
  dev : Dev

/-- What a job has bound and printed. -/
def Job.courses (j : Job) : Nat × Vector JobPlane 8 := (j.nextSlot, j.planes)

/-- The ledger of a state. -/
def State.ledger (s : State) : Ledger :=
  { words := s.standing.words, courses := s.jobs.map Job.courses, dev := s.dev }

theorem courses_of_ledger {s s' : State} (h : s'.ledger = s.ledger) (n : Fin 64) :
    (s'.jobs[n]).courses = (s.jobs[n]).courses := by
  simpa [State.ledger] using congrArg (·.courses[n]) h

theorem rd_of_ledger {s s' : State} (h : s'.ledger = s.ledger) {r : RegSpec} {i : Nat}
    (hk : tallyKey (r.addr i) = true) : s'.rd r i = s.rd r i := by
  have hwords : ∀ x : State, regLookup (r.addr i) x.ledger.words = regLookup (r.addr i) x.regs := fun x =>
    regLookup_filter_of_kept (p := fun e => tallyKey e.1) (fun _ => hk) x.regs
  rw [State.rd, ← hwords, h, hwords, State.rd]

theorem dev_of_ledger {s s' : State} (h : s'.ledger = s.ledger) : s'.dev = s.dev := congrArg Ledger.dev h

/-- The settling of one job leaves the ledger. -/
theorem ledger_of_sansSettling {ctx : Fin 64} {s s' : State} (h : s'.sansSettling ctx = s.sansSettling ctx)
    (hs : s'.standing = s.standing) : s'.ledger = s.ledger := by
  have hcourses : s'.jobs.map Job.courses = s.jobs.map Job.courses := by
    ext1 n hn
    rw [Vector.getElem_map, Vector.getElem_map]
    by_cases hctx : (⟨n, hn⟩ : Fin 64) = ctx
    · subst hctx
      exact (congrArg Job.courses (job_of_sansSettling h) :)
    · exact congrArg Job.courses (otherJob_of_sansSettling h hctx)
  have hdev : s'.dev = s.dev := eq_of_sansSettling h (g := State.dev) fun _ => rfl
  simp only [State.ledger, hs, hcourses, hdev]

theorem ledger_of_sansOutcomes {ctx : Fin 64} {s s' : State} (h : s'.sansOutcomes ctx = s.sansOutcomes ctx)
    (hs : s'.standing = s.standing) : s'.ledger = s.ledger :=
  ledger_of_sansSettling (sansSettling_of_sansOutcomes h) hs

theorem ledger_of_sansReports {s s' : State} (h : s'.sansReports = s.sansReports) (hs : s'.standing = s.standing) :
    s'.ledger = s.ledger :=
  ledger_of_sansOutcomes (sansOutcomes_of_sansReports h 0) hs

/-- A change to a job that keeps its slots and courses leaves the ledger. -/
theorem ledger_modJob {f : Job → Job} (h : ∀ j, (f j).courses = j.courses) (n : Fin 64) (s : State) :
    (s.modJob n f).ledger = s.ledger := by
  have hcourses : (upd s.jobs n f).map Job.courses = s.jobs.map Job.courses := by
    ext1 m hm
    rw [Vector.getElem_map, Vector.getElem_map]
    by_cases hmn : (⟨m, hm⟩ : Fin 64) = n
    · subst hmn
      exact (congrArg Job.courses (upd_getElem_self s.jobs ⟨m, hm⟩ f)).trans (h _)
    · exact congrArg Job.courses (upd_getElem_of_ne hmn _ _)
  simp only [State.ledger, State.modJob, hcourses]
  rfl

theorem ledger_complete (id : RingId) (st : Status) (r : Nat) (s : State) : (complete id st r s).ledger = s.ledger := by
  simp only [State.ledger, State.standing, complete_regs, complete_jobs, complete_dev]

theorem ledger_alarm (a : Alarm) (inst : Nat) (s : State) : (alarm a inst s).ledger = s.ledger :=
  ledger_of_sansReports (sansReports_alarm ..) (standing_alarm ..)

/-! ## Frames to the hubs -/

theorem ledger_pushRel (l : Fin 64) (f : MlkTx) (s : State) : (pushRel l f s).ledger = s.ledger := by
  unfold pushRel
  simp only []
  split <;> rfl

theorem ledger_sendHubRel (h : EndpointRec) (f : MlkTx) (s : State) : (sendHubRel h f s).ledger = s.ledger := by
  unfold sendHubRel
  split
  · exact ledger_pushRel ..
  · rfl

theorem ledger_sendStops (s : State) : (sendStops s).ledger = s.ledger := by
  refine (foldl_leaves (fun s h => ledger_sendHubRel ..) _ _).trans ?_
  refine foldl_leaves (fun s h => ?_) _ s
  rfl

/-! ## Aborts -/

theorem ledger_withdrawn (ctx : Fin 64) (s : State) : (withdrawn ctx s).ledger = s.ledger := rfl

theorem ledger_abortJob (ctx : Fin 64) (s : State) : (abortJob ctx s).ledger = s.ledger := by
  unfold abortJob
  extract_lets s₁ mine s₂ cod pac s₃ j items
  have hruns : s₁.ledger = s.ledger := ledger_of_sansOutcomes (sansOutcomes_endRuns ..) (standing_endRuns ..)
  have hcancel : s₂.ledger = s₁.ledger := by
    refine foldl_leaves (fun s x => ?_) _ s₁
    split
    · refine foldl_leaves (fun s h => ?_) _ s
      rfl
    · rfl
  have hwithdrawn : s₃ = withdrawn ctx s₂ := rfl
  clear_value items j s₃ pac cod s₂ mine s₁
  refine (ledger_modJob ?_ ctx _).trans ?_
  · exact fun _ => rfl
  rw [ledger_of_sansOutcomes (sansOutcomes_takeEntries ..) (standing_takeEntries ..),
    ledger_of_sansReports (sansReports_voidQueue ..) (standing_voidQueue ..),
    ledger_of_sansOutcomes (sansOutcomes_closeFront ..) (standing_closeFront ..), hwithdrawn, ledger_withdrawn, hcancel,
    hruns]

theorem ledger_abortActive (s : State) : (abortActive s).ledger = s.ledger := by
  refine foldl_leaves (fun s c => ?_) _ s
  split
  · exact ledger_abortJob ..
  · rfl

theorem ledger_endService (s : State) : (endService s).ledger = s.ledger := by
  unfold endService
  extract_lets cal s₁
  have hrun : s₁.ledger = s.ledger := by
    simp only [s₁]
    split
    · exact ledger_complete ..
    · rfl
  clear_value s₁ cal
  rw [← hrun]
  split
  · split
    · exact ledger_complete ..
    · rfl
  · rfl

/-! ## Motion stops -/

theorem ledger_endHome (homing : Bool) (st : Status) (r : Nat) (s : State) : (endHome homing st r s).ledger = s.ledger := by
  unfold endHome
  split
  · exact ledger_complete ..
  · rfl

theorem ledger_baStop (n : Fin 8) (brake : Bool) (s : State) : (baStop n brake s).ledger = s.ledger :=
  ledger_endHome ..

theorem ledger_loseLock (s : State) : (loseLock s).ledger = s.ledger := by
  unfold loseLock when
  simp only []
  split
  · split
    · exact ledger_alarm ..
    · rfl
  · rfl

theorem ledger_stpStopNow (n : Fin 16) (s : State) : (stpStopNow n s).ledger = s.ledger := by
  unfold stpStopNow when dropStepperLock
  simp only []
  split
  · split
    · exact (ledger_loseLock _).trans (ledger_endHome ..)
    · exact ledger_endHome ..
  · exact ledger_endHome ..

theorem ledger_stpRampStop (n : Fin 16) (s : State) : (stpRampStop n s).ledger = s.ledger := ledger_endHome ..

theorem ledger_motionFor (cls : Nat) (s : State) : (motionFor cls s).ledger = s.ledger := by
  unfold motionFor
  simp only []
  split
  · rfl
  · refine (foldl_leaves (fun s n => ?_) _ _).trans (foldl_leaves (fun s n => ?_) _ s)
    · split_ifs
      · exact ledger_stpStopNow ..
      · exact ledger_stpRampStop ..
      · rfl
    · split
      · exact ledger_baStop ..
      · rfl

/-! ## A cause of a hold -/

theorem ledger_enterHold (cls : Nat) (s : State) : (enterHold cls s).ledger =
    (s.modDev fun d => { d with hold := true, holdClass := cls, holdAt := s.press }).ledger := by
  unfold enterHold
  simp only []
  rw [ledger_motionFor, ledger_endService, ledger_abortActive, ledger_sendStops]

/-- A cause of a hold leaves the words of the counters and the courses of the jobs. -/
theorem ledger_holdCause (bit : Nat) (s : State) : ∃ d : Dev,
    (holdCause bit s).ledger = { s.ledger with dev := d } ∧ (s.modeIn [.service, .print] = true → d.hold = true) := by
  unfold holdCause
  simp only []
  split_ifs with hmode hhold hclass
  · exact ⟨_, ledger_motionFor .., fun _ => hhold⟩
  · exact ⟨_, rfl, fun _ => hhold⟩
  · exact ⟨_, ledger_enterHold .., fun _ => rfl⟩
  · exact ⟨_, rfl, fun h => absurd h hmode⟩

end Sys2Proof.Machine
end

section
/-! Underruns (R171, R216, R245, R246), and obligation O24. -/
namespace Sys2Proof.Machine

open Sys2Proof.Claim

/-! ## What the steps of an underrun leave -/

theorem ledger_modPlane (p : Fin 8) (f : PlaneSt → PlaneSt) (s : State) : (s.modPlane p f).ledger = s.ledger := rfl

theorem ledger_bufferCourse (p : Fin 8) (b : BufCourse) (s : State) : (bufferCourse p b s).ledger = s.ledger := rfl

theorem ledger_hashCourse (ctx : Fin 64) (pk : Package) (p k : Nat) (levels : List Nat) (s : State) :
    (hashCourse ctx pk p k levels s).ledger = s.ledger := by
  unfold hashCourse
  split
  · refine ledger_modJob ?_ ctx s
    exact fun _ => rfl
  · rfl

theorem ledger_flagCourse (ctx : Fin 64) (p : Fin 8) (k code : Nat) (s : State) :
    (flagCourse ctx p k code s).ledger = s.ledger := by
  unfold flagCourse
  split
  · refine ledger_modJob ?_ ctx s
    exact fun _ => rfl
  · rfl

theorem ledger_endRun (p : Fin 8) (s : State) : (endRun p s).ledger = s.ledger :=
  ledger_of_sansOutcomes (sansOutcomes_endRun 0 p s) (standing_endRun p s)

theorem ledger_extendRun (p : Fin 8) (ctx k : Nat) (s : State) : (extendRun p ctx k s).ledger = s.ledger := by
  unfold extendRun
  split
  · split
    · exact ledger_modPlane ..
    · exact (ledger_modPlane ..).trans (ledger_endRun ..)
  · exact ledger_modPlane ..

theorem ledger_mirror (f : MirrorFrame) (s : State) : (mirror f s).ledger = s.ledger := by
  refine ledger_of_sansReports ?_ (standing_mirror f s)
  unfold mirror
  split
  · exact sansReports_sendXlk ..
  · rfl

theorem ledger_settleJob (ctx : Fin 64) (s : State) : (settleJob ctx s).ledger = s.ledger :=
  ledger_of_sansSettling (sansSettling_settleJob ctx s) (standing_settleJob ctx s)

/-! ## The underrun -/

/-- A job whose plane has passed over a course without it. -/
def Job.skip (p : Fin 8) (k : Nat) (empty : Bool) (j : Job) : Job :=
  { j with planes := upd j.planes p fun jp => { jp with screened := k + 1, taken := if empty then k + 1 else jp.taken } }

theorem ledger_skipCourse (ctx : Fin 64) (p : Fin 8) (k : Nat) (s : State) :
    ∃ empty, (skipCourse ctx p k s).ledger = (s.modJob ctx (Job.skip p k empty)).ledger := by
  have hkey : tallyKey (Reg.scrEdrst.addr p) = false := by
    revert p
    decide
  unfold skipCourse
  extract_lets empty s₁ s₂
  have hhash : s₂.ledger = s₁.ledger := by
    simp only [s₂]
    split
    · exact ledger_hashCourse ..
    · rfl
  refine ⟨empty, ?_⟩
  rw [ledger_of_sansReports (sansReports_count ..) (standing_count hkey ..), ledger_modPlane, hhash]
  rfl

/-- A course not complete at its decision is passed over and counted, and its job held or settled. -/
theorem ledger_underrun (ctx : Fin 64) (p : Fin 8) (pk : Package) (k : Nat) (s : State) :
    ∃ (empty : Bool) (x : State) (d : Dev), x.ledger = (s.modJob ctx (Job.skip p k empty)).ledger ∧
      (underrun ctx p pk k s).ledger = { (x.count Reg.govUnderrun p).ledger with dev := d } ∧
      (pk.policy % 2 = 1 → s.modeIn [.service, .print] = true → d.hold = true) := by
  obtain ⟨empty, hskip⟩ := ledger_skipCourse ctx p k s
  have hrun := (ledger_extendRun p ctx k (skipCourse ctx p k s)).trans hskip
  unfold underrun
  extract_lets pos s₁ s₂ s₃ s₄
  have hcounted : s₄.ledger = (s₁.count Reg.govUnderrun p).ledger := by
    simp only [s₄, s₃, s₂]
    rw [ledger_mirror, ledger_bufferCourse, ledger_flagCourse]
  have hrun' : s₁.ledger = (s.modJob ctx (Job.skip p k empty)).ledger := hrun
  have hdev : s₄.dev = s.dev := (dev_of_ledger hcounted).trans (dev_of_ledger hrun' :)
  clear_value s₄ s₃ s₂ s₁
  split
  next hpolicy =>
    obtain ⟨d, hhold, hset⟩ := ledger_holdCause 3 s₄
    refine ⟨empty, s₁, d, hrun', by rw [hhold, hcounted], fun _ hmode => hset ?_⟩
    rw [State.modeIn, hdev]
    exact hmode
  next hpolicy =>
    exact ⟨empty, s₁, _, hrun', (ledger_settleJob ..).trans hcounted, fun h => absurd h hpolicy⟩

theorem govUnderrun_isTally (p : Fin 8) : tallyKey (Reg.govUnderrun.addr p) = true := by
  revert p
  decide

theorem underrun_leaves (ctx : Fin 64) (p : Fin 8) (pk : Package) (k : Nat) (s : State) :
    (((underrun ctx p pk k s).jobs[ctx]).planes[p]).screened = k + 1 ∧
      ((underrun ctx p pk k s).rd Reg.govUnderrun p).toNat = min ((s.rd Reg.govUnderrun p).toNat + 1) 0xFFFFFFFF ∧
      (pk.policy % 2 = 1 → s.modeIn [.service, .print] = true → (underrun ctx p pk k s).dev.hold = true) := by
  obtain ⟨empty, x, d, hx, hz, hhold⟩ := ledger_underrun ctx p pk k s
  have hwith : ({ x.count Reg.govUnderrun p with dev := d } : State).ledger =
      { (x.count Reg.govUnderrun p).ledger with dev := d } := rfl
  rw [← hwith] at hz
  have hcourses : ((underrun ctx p pk k s).jobs[ctx]).courses = Job.courses (Job.skip p k empty s.jobs[ctx]) :=
    (courses_of_ledger hz ctx).trans ((courses_of_ledger hx ctx).trans (congrArg Job.courses (upd_getElem_self ..)))
  have hplane : ((underrun ctx p pk k s).jobs[ctx]).planes = (Job.skip p k empty s.jobs[ctx]).planes :=
    (congrArg Prod.snd hcourses :)
  refine ⟨?_, ?_, fun hpolicy hmode => ?_⟩
  · rw [hplane, Job.skip, upd_getElem_self]
  · rw [rd_of_ledger hz (govUnderrun_isTally p)]
    refine (rd_count rfl p x).trans ?_
    rw [rd_of_ledger hx (govUnderrun_isTally p)]
    rfl
  · rw [dev_of_ledger hz]
    exact hhold hpolicy hmode

/-! ## UNDERRUN_DECISION -/

section
variable {s : State} {p : Fin 8} (hr : s.ringsRun = true)
include hr

theorem exec_underrunDecision {tb : StructTables} {c : Fin 64} {pk : Package} {t : Nat} (htb : s.str.tables = some tb)
    (hlock : s.pac.est.locked = true) (hrole : s.xlk.role ≠ .dummy)
    (hdue : (List.finRange 64).find? (fun c => underrunDue (s.arrive t) tb p (s.jobs[c])) = some c)
    (hpk : (s.jobs[c]).pkg = some pk) :
    exec (.underrunDecision t p) s = .next (after t s (underrun c p pk ((s.jobs[c]).planes[p]).screened)) := by
  refine (ringCmd_eq_after hr ?_ : execUnderrunDecision t p s = _)
  have hlead : ((s.arrive t).pac.est.locked && (s.arrive t).xlk.role != .dummy) = true := by
    rw [State.arrive_pac, hlock, Bool.true_and, bne_iff_ne]
    exact hrole
  simp only [State.arrive_str, State.arrive_jobs, htb, hlead, hdue, hpk]

theorem exec_underrunDecision_of_unlocked (hlock : s.pac.est.locked = false) (t : Nat) :
    exec (.underrunDecision t p) s = .next (after t s id) := by
  refine (ringCmd_eq_after hr ?_ : execUnderrunDecision t p s = _)
  simp only [State.arrive_pac, hlock, Bool.false_and]
  split
  · contradiction
  · rfl

end

/-- Settles O24: a course taken leaves its runway for one waiting slot per scheduled row, and one that is not complete at
its decision is passed over and counted. -/
theorem courseTaking : Obligations.CourseTaking := by
  intro t p s hr
  refine ⟨?_, ?_, ?_, ?_⟩
  · exact fun tb c rest htb hrun hact hroom => leaves_courseTake hr htb hrun hact hroom t
  · exact fun hrun => exec_courseTake_of_empty hr hrun t
  · intro tb c pk htb hlock hrole hdue hpk
    exact ⟨_, exec_underrunDecision hr htb hlock hrole hdue hpk, underrun_leaves ..⟩
  · exact fun hlock => exec_underrunDecision_of_unlocked hr hlock t

end Sys2Proof.Machine
end

section
/-! Screening a course (R107, R164, R370), and obligation O18. -/
namespace Sys2Proof.Machine

open Sys2Proof.Claim

/-! ## What the steps of screening leave -/

theorem sansSettling_modPlane (ctx : Fin 64) (p : Fin 8) (f : PlaneSt → PlaneSt) (s : State) :
    (s.modPlane p f).sansSettling ctx = s.sansSettling ctx := rfl

theorem sansSettling_flagWales (ctx : Fin 64) (p : Fin 8) (k code : Nat) (wales : List Nat) (s : State) :
    (flagWales ctx p k code wales s).sansSettling ctx = s.sansSettling ctx := by
  unfold flagWales
  split
  · exact sansSettling_modJob rfl
  · rfl

theorem standing_flagWales (ctx : Fin 64) (p : Fin 8) (k code : Nat) (wales : List Nat) (s : State) :
    (flagWales ctx p k code wales s).standing = s.standing := by
  unfold flagWales
  split
  · exact standing_modJob ..
  · rfl

theorem sansSettling_hashCourse (ctx : Fin 64) (pk : Package) (p k : Nat) (levels : List Nat) (s : State) :
    (hashCourse ctx pk p k levels s).sansSettling ctx = s.sansSettling ctx := by
  unfold hashCourse
  split
  · exact sansSettling_modJob rfl
  · rfl

theorem standing_hashCourse (ctx : Fin 64) (pk : Package) (p k : Nat) (levels : List Nat) (s : State) :
    (hashCourse ctx pk p k levels s).standing = s.standing := by
  unfold hashCourse
  split
  · exact standing_modJob ..
  · rfl

theorem sansSettling_noteUndarned (ctx : Fin 64) (p : Fin 8) (c : ScreenCtx) (k w : Nat) (s : State) :
    (noteUndarned ctx p c k w s).sansSettling ctx = s.sansSettling ctx := by
  have hflag := (sansSettling_flagWales ctx p k 4 [w] (s.count Reg.nzmUndarned p)).trans
    (sansSettling_of_sansReports (sansReports_count ..) ctx)
  unfold noteUndarned
  simp only []
  split
  · exact hflag
  · rw [sansSettling_of_sansReports (sansReports_diag ..), sansSettling_modPlane, hflag]

theorem standing_noteUndarned (ctx : Fin 64) (p : Fin 8) (c : ScreenCtx) (k w : Nat) (s : State) :
    (noteUndarned ctx p c k w s).standing = s.standing := by
  have hkey : tallyKey (Reg.nzmUndarned.addr p) = false := by
    revert p
    decide
  have hflag := (standing_flagWales ctx p k 4 [w] (s.count Reg.nzmUndarned p)).trans (standing_count hkey 1 s)
  unfold noteUndarned
  simp only []
  split
  · exact hflag
  · rw [standing_diag, standing_modPlane, hflag]
    exact fun _ => rfl

/-! ## The next course of a plane -/

/-- A job with the course `k` of a plane screened. -/
def Job.screenedTo (p : Fin 8) (k : Nat) (errs : List Int) (slices : List Slice) (j : Job) : Job :=
  { j with planes := upd j.planes p fun jp => { jp with screened := k + 1, edCur := errs }, slices := slices }

/-- A plane with one more course in its runway. -/
def PlaneSt.appendCourse (ctx : Nat) (c : RunwayCourse) (x : PlaneSt) : PlaneSt :=
  { x with runway := x.runway ++ [c], sinceInstall := x.sinceInstall.map (· + 1), screenCtx := some ctx, skipNext := false }

/-- Screening appends the next course, screened under the plane's generation, and flags and settles items of the job. -/
theorem screenNext_eq (tb : StructTables) (ctx : Fin 64) (p : Fin 8) (pk : Package) (pr : PlaneRec) (s : State) :
    ∃ (x : RunwayCourse) (errs : List Int) (slices : List Slice), x.ctx = ctx.val ∧
      x.course = ((s.jobs[ctx]).planes[p]).screened ∧ x.gen = (s.planes[p]).genNo ∧
      (screenNext tb ctx p pk pr s).sansSettling ctx =
        (s.modJob ctx (Job.screenedTo p ((s.jobs[ctx]).planes[p]).screened errs slices)).sansSettling ctx ∧
      (screenNext tb ctx p pk pr s).standing = (s.modPlane p (PlaneSt.appendCourse ctx x)).standing := by
  unfold screenNext
  extract_lets j k c x cur here r s₁ s₂ s₃
  obtain ⟨slices, hjob⟩ : ∃ slices, s₁ = s.modJob ctx (Job.screenedTo p k r.errs slices) := ⟨(s.jobs[ctx]).slices.filter
    fun y => !(y.plane == p.val && y.complete && decide ((y.idx + 1) * sliceCourses ≤ k + 1)), rfl⟩
  have hplane : s₂ = s₁.modPlane p (PlaneSt.appendCourse ctx
      { ctx := ctx, course := k, gen := x.genNo, cells := r.cells, ed := r.errs }) := rfl
  have hsettling : s₃.sansSettling ctx = s₂.sansSettling ctx :=
    foldl_leaves (g := State.sansSettling ctx) (fun s w => sansSettling_noteUndarned ctx p c k w s) _ s₂
  have hstanding : s₃.standing = s₂.standing := foldl_leaves (fun s w => standing_noteUndarned ctx p c k w s) _ s₂
  refine ⟨_, r.errs, slices, rfl, rfl, rfl, ?_, (?_ : _ = (s.modPlane p (PlaneSt.appendCourse ctx
    { ctx := ctx, course := k, gen := x.genNo, cells := r.cells, ed := r.errs })).standing)⟩
  · rw [sansSettling_drainCheck, sansSettling_hashCourse, hsettling, hplane, sansSettling_modPlane, hjob]
  · rw [standing_drainCheck, standing_hashCourse, hstanding, hplane, hjob]
    rfl

/-- What screening the next course leaves. -/
theorem screenNext_leaves (tb : StructTables) (ctx : Fin 64) (p : Fin 8) (pk : Package) (pr : PlaneRec) (s : State) :
    (∃ x, ((screenNext tb ctx p pk pr s).planes[p]).runway = (s.planes[p]).runway ++ [x] ∧ x.ctx = ctx.val ∧
        x.course = ((s.jobs[ctx]).planes[p]).screened ∧ x.gen = (s.planes[p]).genNo) ∧
      (((screenNext tb ctx p pk pr s).jobs[ctx]).planes[p]).screened = ((s.jobs[ctx]).planes[p]).screened + 1 ∧
      (∀ q, q ≠ p → ((screenNext tb ctx p pk pr s).planes[q]).runway = (s.planes[q]).runway) ∧
      (∀ c, c ≠ ctx → (screenNext tb ctx p pk pr s).jobs[c] = s.jobs[c]) ∧
      SameMotion s (screenNext tb ctx p pk pr s) ∧ (screenNext tb ctx p pk pr s).otp = s.otp := by
  obtain ⟨x, errs, slices, hctx, hcourse, hgen, hsettling, hstanding⟩ := screenNext_eq tb ctx p pk pr s
  refine ⟨⟨x, ?_, hctx, hcourse, hgen⟩, ?_, fun q hq => ?_, fun c hc => ?_, ?_, ?_⟩
  · rw [runway_of_standing hstanding, State.modPlane_planes, upd_getElem_self]
    rfl
  · rw [planes_of_sansSettling hsettling, State.modJob_jobs, upd_getElem_self, Job.screenedTo, upd_getElem_self]
  · rw [runway_of_standing hstanding, State.modPlane_planes, upd_getElem_of_ne hq]
  · rw [otherJob_of_sansSettling hsettling hc, State.modJob_jobs, upd_getElem_of_ne hc]
  · exact sameMotion_trans (modJob_sameMotion ..) (sameMotion_of_sansSettling hsettling)
  · exact (otp_of_sansSettling hsettling).trans rfl

/-! ## COURSE_SCREEN -/

/-- With nothing mirrored for it the dummy screens as the lead does. -/
theorem shadowNext_of_unmirrored {s : State} (hgens : s.xlk.mirror.gens = []) (hruns : s.xlk.mirror.underruns = [])
    (tb : StructTables) (ctx : Fin 64) (p : Fin 8) (pk : Package) (pr : PlaneRec) :
    shadowNext tb ctx p pk pr (installMirrored tb p ctx s) =
      if screenReady s p (s.jobs[ctx]) pk then screenNext tb ctx p pk pr s else s := by
  have hinstall : installMirrored tb p ctx s = s := by
    simp only [installMirrored, hgens, List.find?_nil]
  have hrun : mirroredUnderrun s p ctx ((s.jobs[ctx]).planes[p]).screened = false := by
    simp only [mirroredUnderrun, hruns, List.any_nil]
  simp only [shadowNext, hinstall, hrun, Bool.false_eq_true, if_false]

section
variable {s : State} {p : Fin 8} (hr : s.ringsRun = true)
include hr

theorem exec_courseScreen {tb : StructTables} {ctx : Fin 64} {pk : Package} {pr : PlaneRec} {t : Nat}
    (htb : s.str.tables = some tb) (hjob : screenJob (s.arrive t) p = some ctx) (hpk : (s.jobs[ctx]).pkg = some pk)
    (hpr : s.planeRec p = some pr)
    (hlead : s.dummy = false ∨ (s.xlk.mirror.gens = [] ∧ s.xlk.mirror.underruns = [])) :
    exec (.courseScreen t p) s = .next (after t s
      (if screenReady s p (s.jobs[ctx]) pk then screenNext tb ctx p pk pr else id)) := by
  refine (ringCmd_eq_after hr ?_ : execCourseScreen t p s = _)
  have hpr' : (s.arrive t).planeRec p = some pr := hpr
  have hready : screenReady (s.arrive t) p (s.jobs[ctx]) pk = screenReady s p (s.jobs[ctx]) pk := rfl
  have hdummy : (s.arrive t).dummy = s.dummy := rfl
  have happly : (if screenReady s p (s.jobs[ctx]) pk then screenNext tb ctx p pk pr else id) (s.arrive t) =
      if screenReady s p (s.jobs[ctx]) pk then screenNext tb ctx p pk pr (s.arrive t) else s.arrive t := by
    split <;> rfl
  simp only [State.arrive_str, State.arrive_jobs, htb, hjob, hpk, hpr', hready, hdummy, happly]
  split
  next h =>
    obtain hnot | ⟨hgens, hruns⟩ := hlead
    · exact absurd (h.symm.trans hnot) (by decide)
    · exact shadowNext_of_unmirrored (s := s.arrive t) hgens hruns tb ctx p pk pr
  next => rfl

theorem exec_courseScreen_of_unloaded (htb : s.str.tables = none) (t : Nat) :
    exec (.courseScreen t p) s = .next (after t s id) := by
  refine (ringCmd_eq_after hr ?_ : execCourseScreen t p s = _)
  simp only [State.arrive_str, htb, id]

end

/-- Settles O18: a course that is ready enters the runway of its plane and moves its job on by one, and nothing else of
runways, jobs or motion changes. -/
theorem courseScreen : Obligations.CourseScreen := by
  intro t p s hr
  refine ⟨fun tb ctx pk pr htb hjob hpk hpr hlead => ?_, fun htb => exec_courseScreen_of_unloaded hr htb t⟩
  have hexec := exec_courseScreen hr htb hjob hpk hpr hlead
  refine ⟨fun hready => ?_, fun hready => ?_⟩
  · rw [if_pos hready] at hexec
    exact ⟨_, hexec, screenNext_leaves tb ctx p pk pr (s.arrive t)⟩
  · rw [hexec, hready]
    rfl

end Sys2Proof.Machine
end

section
/-! Binding up to a slice of the lead plane (R107, R108): every slot below its end is decided, or there is none to decide. -/
namespace Sys2Proof.Machine

open Sys2Proof.Claim

/-! ## What reports leave of the jobs -/

theorem jobs_backlogEpisode (s : State) : (backlogEpisode s).jobs = s.jobs := by
  unfold backlogEpisode
  split
  · split
    · rfl
    · exact jobs_of_sansReports (sansReports_alarm ..)
  · rfl

theorem jobs_checkTxn (s : State) : (checkTxn s).jobs = s.jobs := by
  unfold checkTxn
  split
  · split
    · rfl
    · rw [jobs_of_sansReports (sansReports_alarm ..)]
      rfl
  · rfl

theorem jobs_reserveEntry (ctx seq : Nat) (s : State) : (reserveEntry ctx seq s).jobs = s.jobs := rfl

/-! ## A slot is decided -/

theorem nextSlot_bindRecord (ctx : Fin 64) (t : StructTables) (pk : Package) (slotNo : Nat) (r : Record) (s : State) :
    ((bindRecord ctx t pk slotNo r s).jobs[ctx]).nextSlot = slotNo + 1 := by
  unfold bindRecord
  extract_lets n rpt lane j c
  split
  split
  extract_lets item s₁ s₂
  have hbound : (s₁.jobs[ctx]).nextSlot = slotNo + 1 := congrArg Job.nextSlot (upd_getElem_self ..)
  have hreserved : s₂.jobs = s₁.jobs := by
    simp only [s₂]
    split
    · rw [jobs_backlogEpisode, jobs_reserveEntry]
    · rfl
  clear_value s₂ s₁
  simp only [jobs_checkTxn, hreserved, hbound]

theorem nextSlot_holdCause (bit : Nat) (s : State) (n : Fin 64) :
    ((holdCause bit s).jobs[n]).nextSlot = (s.jobs[n]).nextSlot := by
  obtain ⟨d, hhold, -⟩ := ledger_holdCause bit s
  have hwith : ({ s with dev := d } : State).ledger = { s.ledger with dev := d } := rfl
  rw [← hwith] at hhold
  exact (congrArg Prod.fst (courses_of_ledger hhold n) :)

theorem nextSlot_blankSlot (ctx : Fin 64) (pk : Package) (slotNo : Nat) (s : State) :
    ((blankSlot ctx pk slotNo s).jobs[ctx]).nextSlot = slotNo + 1 := by
  unfold blankSlot
  simp only []
  split
  · rw [nextSlot_holdCause, State.modJob_jobs, upd_getElem_self]
  · simp only [jobs_of_sansReports (sansReports_diag ..), State.modJob_jobs, upd_getElem_self]

theorem nextSlot_decideSlot (ctx : Fin 64) (t : StructTables) (pk : Package) (slotNo : Nat) (s : State) :
    ((decideSlot ctx t pk slotNo s).2.jobs[ctx]).nextSlot = slotNo + 1 := by
  unfold decideSlot
  simp only []
  split
  · exact nextSlot_bindRecord ..
  · exact nextSlot_blankSlot ..

/-! ## Slots up to a bound -/

/-- A job with nothing to bind below a slot: the slots are bound, the last record is, or the job has ended. -/
def Job.BoundTo (upTo : Nat) (j : Job) : Prop := upTo ≤ j.nextSlot ∨ lastBound j = true ∨ j.st.active = false

theorem boundTo_decideSlots (ctx : Fin 64) (t : StructTables) (pk : Package) (upTo fuel : Nat) (s : State)
    (hfuel : upTo ≤ (s.jobs[ctx]).nextSlot + fuel) : ((decideSlots ctx t pk upTo fuel s).2.jobs[ctx]).BoundTo upTo := by
  induction fuel generalizing s with
  | zero => exact .inl hfuel
  | succ fuel ih =>
    unfold decideSlots
    simp only []
    split
    next h => simpa [Job.BoundTo] using h
    next =>
      refine ih _ ?_
      rw [nextSlot_decideSlot]
      omega

theorem boundTo_bindUpTo (ctx : Fin 64) (t : StructTables) (pk : Package) (upTo : Nat) (s : State) :
    ((bindUpTo ctx t pk upTo s).jobs[ctx]).BoundTo upTo := by
  unfold bindUpTo
  extract_lets first
  have hbound := boundTo_decideSlots ctx t pk upTo (upTo - first) s (by omega)
  have hsent : ∀ (as : List Nat) (fs : List XlkTx) (x : State),
      (as.foldl (fun s a => fs.foldl (fun s f => sendXlk a f s) s) x).jobs = x.jobs := fun as fs x =>
    foldl_leaves (g := State.jobs) (fun s a => foldl_leaves (g := State.jobs)
      (fun s f => jobs_of_sansReports (sansReports_sendXlk a f s)) fs s) as x
  simp only [hsent]
  exact hbound

end Sys2Proof.Machine
end

section
/-! Slices are dealt, completed and lost (R107 to R109, R111, R313). -/
namespace Sys2Proof.Machine

open Sys2Proof.Claim

/-! ## A slice is dealt -/

/-- A slice dealt to a cluster, once the slots before its end are bound where it is the lead plane's. -/
def dealSlice (tb : StructTables) (pk : Package) (n : Fin 16) (d : Deal) (s : State) : State :=
  if ((bindForSlice tb pk d s).jobs[d.ctx]).st.active then dealTo n d (bindForSlice tb pk d s) else bindForSlice tb pk d s

theorem bindForSlice_of_bound {pk : Package} {d : Deal} (h : d.again = true ∨ d.plane.val ≠ leadPlane pk) (tb : StructTables)
    (s : State) : bindForSlice tb pk d s = s := if_pos h

theorem bindForSlice_of_authority {pk : Package} {d : Deal} {s : State} (hagain : d.again = false)
    (hlead : d.plane.val = leadPlane pk) (hauth : isAuthority s d.ctx = true) (tb : StructTables) :
    bindForSlice tb pk d s = bindUpTo d.ctx tb pk (slotsBelow pk ((d.idx + 1) * 512)) s := by
  have hnot : ¬(d.again = true ∨ d.plane.val ≠ leadPlane pk) := by simp [hagain, hlead]
  simp only [bindForSlice, if_neg hnot, hauth, if_true, sliceCourses]

/-- The dealing of a slice binds nothing and ends no job. -/
theorem boundTo_dealTo (n : Fin 16) (d : Deal) (upTo : Nat) (s : State) (h : (s.jobs[d.ctx]).BoundTo upTo) :
    ((dealTo n d s).jobs[d.ctx]).BoundTo upTo := by
  simpa only [dealTo, Job.BoundTo, lastBound, State.modCluster_jobs, State.modJob_jobs, upd_getElem_self] using h

theorem boundTo_dealSlice {pk : Package} {d : Deal} {s : State} (hagain : d.again = false)
    (hlead : d.plane.val = leadPlane pk) (hauth : isAuthority s d.ctx = true) (tb : StructTables) (n : Fin 16) :
    ((dealSlice tb pk n d s).jobs[d.ctx]).BoundTo (slotsBelow pk ((d.idx + 1) * 512)) := by
  have hbound := boundTo_bindUpTo d.ctx tb pk (slotsBelow pk ((d.idx + 1) * 512)) s
  rw [← bindForSlice_of_authority hagain hlead hauth tb] at hbound
  unfold dealSlice
  split
  · exact boundTo_dealTo n d _ _ hbound
  · exact hbound

theorem dealSlice_of_bound {pk : Package} {n : Fin 16} {d : Deal} {s : State}
    (h : d.again = true ∨ d.plane.val ≠ leadPlane pk) (hact : (s.jobs[d.ctx]).st.active = true) (tb : StructTables) :
    dealSlice tb pk n d s = dealTo n d s := by
  rw [dealSlice, bindForSlice_of_bound h, if_pos hact]

section
variable {s : State} (hr : s.ringsRun = true)
include hr

theorem exec_sliceDeal_of_unloaded (htb : s.str.tables = none) (t : Nat) :
    exec (.sliceDeal t) s = .next (after t s id) := by
  refine (ringCmd_eq_after hr ?_ : execSliceDeal t s = _)
  simp only [State.arrive_str, htb, id]

section
variable {t : Nat} {tb : StructTables} {d : Deal} {n : Fin 16} {pk : Package} (htb : s.str.tables = some tb)
  (hd : (byDeadline (deals (s.arrive t) tb)).find? (fun d => (clusterFor (s.arrive t) d.plane).isSome) = some d)
  (hn : clusterFor (s.arrive t) d.plane = some n) (hpk : (s.jobs[d.ctx]).pkg = some pk)
include htb hd hn hpk

theorem exec_sliceDeal : exec (.sliceDeal t) s = .next (after t s (dealSlice tb pk n d)) := by
  refine (ringCmd_eq_after hr ?_ : execSliceDeal t s = _)
  simp only [State.arrive_str, State.arrive_jobs, htb, hd, hn, hpk, dealSlice]

theorem leaves_sliceDeal (hact : (s.jobs[d.ctx]).st.active = true) (h : d.again = true ∨ d.plane.val ≠ leadPlane pk) :
    Leaves (.sliceDeal t) s fun s' =>
      (s'.clusters[n]).slice = some (d.plane.val, d.idx, d.ctx.val) ∧ (s'.clusters[n]).dealtAt = max s.now t ∧
      ⟨d.plane.val, d.idx, some n.val, max s.now t, false⟩ ∈ (s'.jobs[d.ctx]).slices ∧
      (∀ m, m ≠ n → s'.clusters[m] = s.clusters[m]) ∧ (∀ c, c ≠ d.ctx → s'.jobs[c] = s.jobs[c]) ∧
      s'.regs = s.regs ∧ SameMotion s s' ∧ SameLinks s s' ∧ SameHost s s' ∧ SameSystem s s' ∧ SameSecure s s' := by
  have hexec := exec_sliceDeal hr htb hd hn hpk
  rw [after_congr (g := dealTo n d) (dealSlice_of_bound (s := s.arrive t) h hact tb)] at hexec
  refine ⟨_, hexec, ?_⟩
  have hcluster : ∀ f : Cluster → Cluster, (upd s.clusters n f)[n] = f s.clusters[n] := fun f => upd_getElem_self ..
  have hjob : ∀ f : Job → Job, (upd s.jobs d.ctx f)[d.ctx] = f s.jobs[d.ctx] := fun f => upd_getElem_self ..
  refine ⟨congrArg Cluster.slice (hcluster _), congrArg Cluster.dealtAt (hcluster _), ?_, fun m hm => upd_getElem_of_ne hm ..,
    fun c hc => upd_getElem_of_ne hc .., rfl, ⟨rfl, rfl, rfl, rfl⟩, ⟨rfl, _, rfl⟩, ⟨rfl, rfl, rfl, rfl, rfl, rfl⟩,
    ⟨rfl, rfl, rfl, rfl, rfl⟩, ⟨rfl, rfl, rfl, rfl, rfl, rfl⟩⟩
  rw [after_jobs]
  simp only [dealTo, State.modCluster_jobs, State.modJob_jobs, State.arrive_jobs, hjob]
  exact List.mem_append_right _ (List.mem_singleton.mpr rfl)

end

/-! ## A slice is complete -/

theorem exec_sliceComplete_of_idle {n : Fin 16} (h : (s.clusters[n]).slice = none) (t cycles : Nat) :
    exec (.sliceComplete t n cycles) s = .next (after t s id) := by
  refine (ringCmd_eq_after hr ?_ : execSliceComplete t n cycles s = _)
  simp only [State.arrive_clusters, h, id]

end

/-- A job with a slice of a plane complete. -/
def Job.completeSlice (p i : Nat) (j : Job) : Job :=
  { j with slices := j.slices.map fun x => if x.plane = p ∧ x.idx = i then { x with complete := true } else x }

theorem Job.complete_of_mem_completeSlice {p i : Nat} {j : Job} {x : Slice} (h : x ∈ (j.completeSlice p i).slices)
    (hp : x.plane = p) (hi : x.idx = i) : x.complete = true := by
  obtain ⟨y, -, rfl⟩ := List.mem_map.mp h
  split_ifs at hp hi ⊢ with hy
  · rfl
  · exact absurd ⟨hp, hi⟩ hy

/-- A cluster that is freed gives its slice back; jobs, motion and OTP stay. -/
theorem clusterFreed_slice (n : Fin 16) (s : State) : ((clusterFreed n s).clusters[n]).slice = none := by
  have hcluster : (clusterFreed n s).clusters = upd s.clusters n fun c =>
      if c.granted then { c with slice := none, since := s.now }
      else { c with slice := none, since := s.now, power := .off, opNext := none } := rfl
  simp only [hcluster, upd_getElem_self]
  split <;> rfl

theorem clusterFreed_jobs (n : Fin 16) (s : State) : (clusterFreed n s).jobs = s.jobs := rfl

theorem clusterFreed_motion (n : Fin 16) (s : State) : (clusterFreed n s).motion = s.motion := rfl

theorem clusterFreed_otp (n : Fin 16) (s : State) : (clusterFreed n s).otp = s.otp := rfl

section
variable {s : State} (hr : s.ringsRun = true)
include hr

/-- SLICE_COMPLETE marks the slice, frees the cluster and settles the job if that was its last slice. -/
theorem exec_sliceComplete {n : Fin 16} {p i c : Nat} (h : (s.clusters[n]).slice = some (p, i, c)) (t cycles : Nat) :
    ∃ x : State, exec (.sliceComplete t n cycles) s =
        .next (after t s fun _ => drainCheck (Fin.ofNat 64 c) (clusterFreed n x)) ∧
      x.jobs = upd s.jobs (Fin.ofNat 64 c) (Job.completeSlice p i) ∧ x.motion = s.motion ∧ x.otp = s.otp := by
  change ∃ x : State, execSliceComplete t n cycles s = _ ∧ _
  unfold execSliceComplete
  simp only [ringCmd_eq hr, run_eq, State.arrive_clusters, h]
  split <;> exact ⟨_, rfl, rfl, rfl, rfl⟩

theorem leaves_sliceComplete {n : Fin 16} {p i c : Nat} (h : (s.clusters[n]).slice = some (p, i, c)) (t cycles : Nat) :
    Leaves (.sliceComplete t n cycles) s fun s' =>
      (s'.clusters[n]).slice = none ∧
      (∀ x ∈ (s'.jobs[Fin.ofNat 64 c]).slices, x.plane = p → x.idx = i → x.complete = true) ∧
      (∀ m, m ≠ Fin.ofNat 64 c → s'.jobs[m] = s.jobs[m]) ∧ SameMotion s s' ∧ s'.otp = s.otp := by
  obtain ⟨x, hexec, hjobs, hmotion, hotp⟩ := exec_sliceComplete hr h t cycles
  have hdrain := sansSettling_drainCheck (Fin.ofNat 64 c) (clusterFreed n x)
  have hslices : ((drainCheck (Fin.ofNat 64 c) (clusterFreed n x)).jobs[Fin.ofNat 64 c]).slices =
      ((s.jobs[Fin.ofNat 64 c]).completeSlice p i).slices := by
    have hjob := (congrArg Job.slices (job_of_sansSettling hdrain) :)
    simpa only [Job.sansSettling, Job.sansOutcomes, clusterFreed_jobs, hjobs, upd_getElem_self] using hjob
  refine ⟨_, hexec, ?_, fun y hy hp hi => ?_, fun m hm => ?_, ?_, ?_⟩
  · have hclusters : (drainCheck (Fin.ofNat 64 c) (clusterFreed n x)).clusters = (clusterFreed n x).clusters :=
      eq_of_sansSettling hdrain (g := State.clusters) fun _ => rfl
    exact (congrArg (fun v => (v[n]).slice) hclusters).trans (clusterFreed_slice n x)
  · refine Job.complete_of_mem_completeSlice (j := s.jobs[Fin.ofNat 64 c]) ?_ hp hi
    rw [← hslices]
    exact hy
  · refine (otherJob_of_sansSettling hdrain hm).trans ?_
    simp only [clusterFreed_jobs, hjobs, upd_getElem_of_ne hm]
  · refine sameMotion_iff.mpr ?_
    exact (sameMotion_iff.mp (sameMotion_of_sansSettling hdrain)).trans ((clusterFreed_motion n x).trans hmotion)
  · exact (otp_of_sansSettling hdrain).trans ((clusterFreed_otp n x).trans hotp)

/-! ## A slice is lost -/

theorem exec_sliceTimeout_of_early {n : Fin 16} {t : Nat} (h : max s.now t < (s.clusters[n]).dealtAt + 32000000) :
    exec (.sliceTimeout t n) s = .next (after t s id) := by
  refine (ringCmd_eq_after hr ?_ : execSliceTimeout t n s = _)
  exact if_neg fun hdue => absurd hdue.2 (not_le.mpr h)

theorem exec_sliceTimeout_of_due {n : Fin 16} {t : Nat} (hslice : (s.clusters[n]).slice.isSome = true)
    (h : (s.clusters[n]).dealtAt + 32000000 ≤ max s.now t) :
    exec (.sliceTimeout t n) s = .next (after t s (loseSlice n)) :=
  (ringCmd_eq_after hr (if_pos ⟨hslice, h⟩) : execSliceTimeout t n s = _)

end

/-- A slice that is dropped leaves its cluster and changes jobs and clusters alone. -/
theorem dropSlice_leaves (n : Fin 16) (s : State) : ((dropSlice n s).clusters[n]).slice = none ∧
    SameMotion s (dropSlice n s) ∧ SameSecure s (dropSlice n s) := by
  unfold dropSlice
  split
  next h => exact ⟨h, ⟨rfl, rfl, rfl, rfl⟩, rfl, rfl, rfl, rfl, rfl, rfl⟩
  next => exact ⟨congrArg Cluster.slice (upd_getElem_self ..), ⟨rfl, rfl, rfl, rfl⟩, rfl, rfl, rfl, rfl, rfl, rfl⟩

/-- A cluster that is excluded. -/
def Cluster.exclude (c : Cluster) : Cluster := { c with excl := true }

/-- A slice that is lost leaves its cluster excluded and latches CC_FAULT. -/
theorem loseSlice_leaves (n : Fin 16) (s : State) :
    ((loseSlice n s).clusters[n]).slice = none ∧ ((loseSlice n s).clusters[n]).excl = true ∧
      bitOf (loseSlice n s) Reg.evtAlarmLatch 0 3 = true ∧ SameMotion s (loseSlice n s) ∧ SameSecure s (loseSlice n s) := by
  obtain ⟨hslice, hmotion, hsecure⟩ := dropSlice_leaves n s
  have halarm : (loseSlice n s).sansReports = ((dropSlice n s).modCluster n Cluster.exclude).sansReports :=
    sansReports_alarm ..
  have hclusters : (loseSlice n s).clusters = upd (dropSlice n s).clusters n Cluster.exclude :=
    eq_of_sansReports halarm (g := State.clusters) fun _ => rfl
  refine ⟨?_, ?_, alarm_bitOf .ccFault n _, ?_, ?_⟩
  · simp only [hclusters, upd_getElem_self, Cluster.exclude, hslice]
  · simp only [hclusters, upd_getElem_self, Cluster.exclude]
  · have hexcl : SameMotion s ((dropSlice n s).modCluster n Cluster.exclude) := hmotion
    exact sameMotion_trans hexcl (sameMotion_of_sansReports halarm)
  · have hexcl : SameSecure s ((dropSlice n s).modCluster n Cluster.exclude) := hsecure
    exact sameSecure_trans hexcl (sameSecure_of_sansReports halarm)

end Sys2Proof.Machine
end

section
/-! Late code engines (R130, R131), and obligation O16. -/
namespace Sys2Proof.Machine

open Sys2Proof.Claim

/-! ## A request that is late -/

/-- A request taken from the engines. -/
def Cod.drop (r : EngineReq) (k : Cod) : Cod := { k with requests := k.requests.filter fun x => x != r }

/-- A request taken from an engine, which is excluded with CODE_FAULT. -/
def excludeEngine (e : Fin 5) (r : EngineReq) (s : State) : State :=
  alarm .codFault e ((s.modCod (Cod.drop r)).modCod fun k => { k with excl := k.excl ||| (1#5 <<< e.val) })

/-- But for reports the exclusion of an engine writes the code block alone. -/
theorem sansReports_excludeEngine (e : Fin 5) (r : EngineReq) (s : State) : (excludeEngine e r s).sansReports =
    ((s.modCod (Cod.drop r)).modCod fun k => { k with excl := k.excl ||| (1#5 <<< e.val) }).sansReports :=
  sansReports_alarm ..

/-- The code block with an engine excluded for a late request. -/
theorem cod_excludeEngine (e : Fin 5) (r : EngineReq) (s : State) :
    (excludeEngine e r s).cod.excl = s.cod.excl ||| (1#5 <<< e.val) ∧
      (excludeEngine e r s).cod.requests = s.cod.requests.filter fun x => x != r := by
  have hcod := eq_of_sansReports (sansReports_excludeEngine e r s) (g := State.cod) fun _ => rfl
  rw [hcod]
  exact ⟨rfl, rfl⟩

theorem jobs_excludeEngine (e : Fin 5) (r : EngineReq) (s : State) : (excludeEngine e r s).jobs = s.jobs :=
  (jobs_of_sansReports (sansReports_excludeEngine e r s) :)

/-- The engine that a late request of an engine goes to (R131). -/
def nextEngine (s : State) (e : Fin 5) : Option Nat := if e.val = 4 then some 4 else encoderFor s.cod.excl e

/-- The outcome of a late request: a retry that is late, or one that no engine is left for, fails its field. -/
def lateEngine (e : Fin 5) (r : EngineReq) (s : State) : State :=
  if r.retried then failField (Fin.ofNat 64 r.ctx) r.seq r.field 8 (s.modCod (Cod.drop r))
  else match nextEngine s e with
    | some next => (excludeEngine e r s).modCod fun k =>
        { k with requests := k.requests ++ [{ r with engine := next, since := (excludeEngine e r s).now, retried := true }] }
    | none => failField (Fin.ofNat 64 r.ctx) r.seq r.field 8 (excludeEngine e r s)

theorem exec_engineRequestTimeout {s : State} (hr : s.ringsRun = true) {t : Nat} {e : Fin 5} {r : EngineReq}
    (hlate : lateRequest (s.arrive t) e = some r) :
    exec (.engineRequestTimeout t e) s = .next (after t s (lateEngine e r)) := by
  refine (ringCmd_eq_after hr ?_ : execEngineRequestTimeout t e s = _)
  simp only [hlate]
  rfl

theorem exec_engineRequestTimeout_of_none {s : State} (hr : s.ringsRun = true) {t : Nat} {e : Fin 5}
    (hlate : lateRequest (s.arrive t) e = none) : exec (.engineRequestTimeout t e) s = .next (after t s id) := by
  refine (ringCmd_eq_after hr ?_ : execEngineRequestTimeout t e s = _)
  simp only [hlate, id]

/-! ## A field fails -/

/-- A job with a field of an item failed: its value is gone and the item carries code 9. -/
def Job.failItem (seq field : Nat) (j : Job) : Job :=
  { j with items := j.items.map fun it => if it.seq = seq then
      { it with values := it.values.filter fun v => v.1 != field, codes := it.codes ||| codeBit 9 } else it }

theorem Job.code_of_mem_failItem {seq field : Nat} {j : Job} {it : Item} (h : it ∈ (j.failItem seq field).items)
    (hseq : it.seq = seq) : it.codes.getLsbD 9 = true := by
  obtain ⟨x, -, rfl⟩ := List.mem_map.mp h
  split_ifs at hseq ⊢ with hx
  · simp [codeBit]
  · exact absurd hseq hx

theorem fieldError_of_engine (ctx : Fin 64) (seq field sub : Nat) (s : State) : fieldError ctx seq field 7 sub s =
    ((diag .fieldError ctx seq field ((7 + 256 * sub : Nat) : Int) (s.count Reg.cmpFieldErr)).count Reg.codFail).modCod
      fun c => { c with lastFail := (ctx, sub, field) } := rfl

/-- A field that fails is reported, written to its item and remembered as the code block's last failure. -/
theorem failField_eq (ctx : Fin 64) (seq field sub : Nat) (s : State) :
    ∃ x : State, x.sansReports = (s.modJob ctx (Job.failItem seq field)).sansReports ∧
      failField ctx seq field sub s = x.modCod fun c => { c with lastFail := (ctx, sub, field) } := by
  have herror := fieldError_of_engine ctx seq field sub (s.modJob ctx (Job.failItem seq field))
  refine ⟨_, ?_, herror⟩
  rw [sansReports_count, sansReports_diag, sansReports_count]

theorem failField_leaves (ctx : Fin 64) (seq field sub : Nat) (s : State) :
    (failField ctx seq field sub s).cod.excl = s.cod.excl ∧ (failField ctx seq field sub s).cod.requests = s.cod.requests ∧
      (∀ it ∈ ((failField ctx seq field sub s).jobs[ctx]).items, it.seq = seq → it.codes.getLsbD 9 = true) ∧
      SameMotion s (failField ctx seq field sub s) ∧ SameSecure s (failField ctx seq field sub s) := by
  obtain ⟨x, hx, heq⟩ := failField_eq ctx seq field sub s
  have hcod : x.cod = s.cod := (eq_of_sansReports hx (g := State.cod) fun _ => rfl).trans rfl
  have hmotion : SameMotion s x := sameMotion_trans (modJob_sameMotion ..) (sameMotion_of_sansReports hx)
  have hsecure : SameSecure s x := sameSecure_trans (modJob_sameSecure ..) (sameSecure_of_sansReports hx)
  rw [heq]
  refine ⟨(congrArg Cod.excl hcod :), (congrArg Cod.requests hcod :), fun it hit hseq => ?_, hmotion, hsecure⟩
  simp only [State.modCod_jobs, jobs_of_sansReports hx, State.modJob_jobs, upd_getElem_self] at hit
  exact Job.code_of_mem_failItem hit hseq

/-! ## The outcomes of a late request -/

theorem excludeEngine_sameMotion (e : Fin 5) (r : EngineReq) (s : State) : SameMotion s (excludeEngine e r s) :=
  (sameMotion_of_sansReports (sansReports_excludeEngine e r s) :)

theorem excludeEngine_sameSecure (e : Fin 5) (r : EngineReq) (s : State) : SameSecure s (excludeEngine e r s) :=
  (sameSecure_of_sansReports (sansReports_excludeEngine e r s) :)

theorem excludeEngine_now (e : Fin 5) (r : EngineReq) (s : State) : (excludeEngine e r s).now = s.now :=
  eq_of_sansReports (sansReports_excludeEngine e r s) (g := State.now) fun _ => rfl

section
variable {s : State} {e : Fin 5} {r : EngineReq}

theorem lateEngine_of_retried (h : r.retried = true) :
    lateEngine e r s = failField (Fin.ofNat 64 r.ctx) r.seq r.field 8 (s.modCod (Cod.drop r)) := if_pos h

section
variable (hfirst : r.retried = false)
include hfirst

theorem lateEngine_of_none (h : nextEngine s e = none) :
    lateEngine e r s = failField (Fin.ofNat 64 r.ctx) r.seq r.field 8 (excludeEngine e r s) := by
  simp only [lateEngine, hfirst, h, Bool.false_eq_true, if_false]

theorem lateEngine_of_some {next : Nat} (h : nextEngine s e = some next) :
    lateEngine e r s = (excludeEngine e r s).modCod fun k =>
      { k with requests := k.requests ++ [{ r with engine := next, since := s.now, retried := true }] } := by
  simp only [lateEngine, hfirst, h, Bool.false_eq_true, if_false, excludeEngine_now]

/-- A request that is late for the first time excludes its engine and goes to the next one. -/
theorem lateEngine_leaves {next : Nat} (h : nextEngine s e = some next) :
    (lateEngine e r s).cod.excl = s.cod.excl ||| (1#5 <<< e.val) ∧
      (lateEngine e r s).cod.requests = s.cod.requests.filter (fun x => x != r) ++
        [{ r with engine := next, since := s.now, retried := true }] ∧
      bitOf (lateEngine e r s) Reg.evtAlarmLatch 0 4 = true ∧ (lateEngine e r s).jobs = s.jobs ∧
      SameMotion s (lateEngine e r s) ∧ SameSecure s (lateEngine e r s) := by
  obtain ⟨hexcl, hrequests⟩ := cod_excludeEngine e r s
  rw [lateEngine_of_some hfirst h]
  refine ⟨hexcl, ?_, alarm_bitOf .codFault e _, jobs_excludeEngine e r s, excludeEngine_sameMotion e r s,
    excludeEngine_sameSecure e r s⟩
  rw [← hrequests]
  rfl

/-- With no engine left for it, a late request is gone, and its item carries code 9. -/
theorem lateEngine_lost (h : nextEngine s e = none) :
    (lateEngine e r s).cod.excl = s.cod.excl ||| (1#5 <<< e.val) ∧
      (lateEngine e r s).cod.requests = s.cod.requests.filter (fun x => x != r) ∧
      (∀ it ∈ ((lateEngine e r s).jobs[Fin.ofNat 64 r.ctx]).items, it.seq = r.seq → it.codes.getLsbD 9 = true) := by
  obtain ⟨hexcl, hrequests⟩ := cod_excludeEngine e r s
  obtain ⟨hexcl', hrequests', hitems, -⟩ := failField_leaves (Fin.ofNat 64 r.ctx) r.seq r.field 8 (excludeEngine e r s)
  rw [lateEngine_of_none hfirst h]
  exact ⟨hexcl'.trans hexcl, hrequests'.trans hrequests, hitems⟩

end

/-- A retry that is late is gone, and its item carries code 9. -/
theorem lateEngine_retried (h : r.retried = true) :
    (lateEngine e r s).cod.excl = s.cod.excl ∧
      (lateEngine e r s).cod.requests = s.cod.requests.filter (fun x => x != r) ∧
      (∀ it ∈ ((lateEngine e r s).jobs[Fin.ofNat 64 r.ctx]).items, it.seq = r.seq → it.codes.getLsbD 9 = true) ∧
      SameMotion s (lateEngine e r s) ∧ SameSecure s (lateEngine e r s) := by
  rw [lateEngine_of_retried h]
  exact failField_leaves ..

end

/-! ## The obligation -/

/-- Settles O16: a slice goes to its cluster once the slots before its end are decided, a slice or a request that is late
excludes what had it, and a request that no engine is left for fails its item. -/
theorem composing : Obligations.Composing := by
  refine ⟨fun t n s hr => ⟨?_, ?_, ?_, ?_, ?_, ?_⟩, fun t e s hr => ⟨?_, ?_, ?_, ?_⟩⟩
  · exact fun htb => exec_sliceDeal_of_unloaded hr htb t
  · intro tb d pk htb hd hn hpk hact
    refine ⟨leaves_sliceDeal hr htb hd hn hpk hact, fun hagain hlead hauth => ?_⟩
    exact ⟨_, exec_sliceDeal hr htb hd hn hpk, boundTo_dealSlice hagain hlead hauth tb n⟩
  · exact fun cycles h => exec_sliceComplete_of_idle hr h t cycles
  · exact fun cycles p i c h => leaves_sliceComplete hr h t cycles
  · exact fun hslice hdue => ⟨_, exec_sliceTimeout_of_due hr hslice hdue, loseSlice_leaves n (s.arrive t)⟩
  · exact fun hearly => exec_sliceTimeout_of_early hr hearly
  · exact fun r next hlate hfirst hnext =>
      ⟨_, exec_engineRequestTimeout hr hlate, lateEngine_leaves (s := s.arrive t) hfirst hnext⟩
  · exact fun r hlate hretry => ⟨_, exec_engineRequestTimeout hr hlate, lateEngine_retried (s := s.arrive t) hretry⟩
  · intro r hlate hfirst hsymbol hnone
    have hnext : nextEngine (s.arrive t) e = none := (if_neg hsymbol).trans hnone
    exact ⟨_, exec_engineRequestTimeout hr hlate, lateEngine_lost hfirst hnext⟩
  · exact fun hlate => exec_engineRequestTimeout_of_none hr hlate

end Sys2Proof.Machine
end

section
/-! Updates of the nozzle map (R163, R166): staging, commit and discard. -/
namespace Sys2Proof.Machine

open Sys2Proof.Claim

/-! ## A commit that finds room -/

/-- Entries that all name nozzles of the structure leave no error. -/
theorem commitEntries_of_valid {good : List MapEntry} (h : good ≠ []) (s : State) :
    commitEntries good [] s = s.modNzm fun n => { n with staging := [], pend := n.pend ++ good, busy := false } := by
  simp [commitEntries, h]

/-- Entries of which none names a nozzle of the structure leave the pending list as it was. -/
theorem commitEntries_of_invalid {bad : List MapEntry} (h : bad ≠ []) (s : State) :
    commitEntries [] bad s =
      (s.modNzm fun n => { n with staging := [], busy := false }).setFld Reg.nzmUpdCtrl 0 17 17 1 := by
  simp [commitEntries, h, nzmSet]

/-! ## The commands -/

@[simp] theorem State.arrive_nzmOpen (s : State) (t : Nat) : nzmOpen (s.arrive t) = nzmOpen s := rfl

section
variable {s : State} (hr : s.ringsRun = true) (t : Nat)
include hr

theorem exec_nzmUpdEntry_of_room {w : Word} (hopen : nzmOpen s = true) (hcode : (mapEntryOf w).code ≠ 3)
    (hroom : s.nzm.staging.length < 256) :
    exec (.nzmUpdEntry t w) s = .next (after t s fun s =>
      s.modNzm fun n => { n with staging := n.staging ++ [mapEntryOf w] }) := by
  refine (ringCmd_eq_after hr ?_ : execNzmUpdEntry t w s = _)
  simp [hopen, hcode, not_le.mpr hroom]

theorem exec_nzmUpdEntry_of_full {w : Word} (hopen : nzmOpen s = true) (hcode : (mapEntryOf w).code ≠ 3)
    (hfull : 256 ≤ s.nzm.staging.length) :
    exec (.nzmUpdEntry t w) s = .next (after t s fun s => s.setFld Reg.nzmUpdCtrl 0 16 16 1) := by
  refine (ringCmd_eq_after hr ?_ : execNzmUpdEntry t w s = _)
  simp [hopen, hcode, hfull, nzmSet]

theorem exec_nzmUpdEntry_of_refused {w : Word} (h : nzmOpen s = false ∨ (mapEntryOf w).code = 3) :
    exec (.nzmUpdEntry t w) s = .next (after t s fun s => s.setFld Reg.nzmUpdCtrl 0 17 17 1) := by
  refine (ringCmd_eq_after hr ?_ : execNzmUpdEntry t w s = _)
  exact if_pos (by simpa using h)

/-- In the modes that change the map, and outside the dummy, a commit is decided by the room of the pending list. -/
theorem exec_nzmCommit {good bad : List MapEntry} {g : State → State} (hopen : nzmOpen s = true)
    (hrole : s.xlk.role ≠ .dummy) (hgood : s.nzm.staging.filter (entryValid s) = good)
    (hbad : (s.nzm.staging.filter fun e => !entryValid s e) = bad)
    (hg : (if 16384 < s.nzm.pend.length + good.length then (s.arrive t).modNzm fun n => { n with busy := true }
      else commitEntries good bad (s.arrive t)) = g (s.arrive t)) :
    exec (.nzmCommit t) s = .next (after t s g) := by
  refine (ringCmd_eq_after hr ?_ : execNzmCommit t s = _)
  have hopens : ¬(!nzmOpen (s.arrive t) || (s.arrive t).xlk.role == .dummy) = true := by
    have hlead : (s.arrive t).xlk.role ≠ .dummy := hrole
    simpa [hopen] using hlead
  subst hgood hbad
  exact (if_neg hopens).trans hg

/-- A commit of valid entries alone. -/
theorem exec_nzmCommit_of_valid {g : State → State} (hopen : nzmOpen s = true) (hrole : s.xlk.role ≠ .dummy)
    (hvalid : ∀ e ∈ s.nzm.staging, entryValid s e = true)
    (hg : (if 16384 < s.nzm.pend.length + s.nzm.staging.length then
        (s.arrive t).modNzm fun n => { n with busy := true }
      else commitEntries s.nzm.staging [] (s.arrive t)) = g (s.arrive t)) :
    exec (.nzmCommit t) s = .next (after t s g) :=
  exec_nzmCommit hr t hopen hrole (List.filter_eq_self.mpr hvalid)
    (List.filter_eq_nil_iff.mpr fun e he => by simp [hvalid e he]) hg

theorem exec_nzmCommit_of_room (hopen : nzmOpen s = true) (hrole : s.xlk.role ≠ .dummy) (hne : s.nzm.staging ≠ [])
    (hvalid : ∀ e ∈ s.nzm.staging, entryValid s e = true)
    (hroom : s.nzm.pend.length + s.nzm.staging.length ≤ 16384) :
    exec (.nzmCommit t) s = .next (after t s fun s =>
      s.modNzm fun n => { n with staging := [], pend := n.pend ++ n.staging, busy := false }) :=
  exec_nzmCommit_of_valid hr t hopen hrole hvalid
    ((if_neg (not_lt.mpr hroom)).trans (commitEntries_of_valid hne (s.arrive t)))

theorem exec_nzmCommit_of_busy (hopen : nzmOpen s = true) (hrole : s.xlk.role ≠ .dummy)
    (hvalid : ∀ e ∈ s.nzm.staging, entryValid s e = true)
    (hfull : 16384 < s.nzm.pend.length + s.nzm.staging.length) :
    exec (.nzmCommit t) s = .next (after t s fun s => s.modNzm fun n => { n with busy := true }) :=
  exec_nzmCommit_of_valid hr t hopen hrole hvalid (if_pos hfull)

theorem exec_nzmCommit_of_invalid (hopen : nzmOpen s = true) (hrole : s.xlk.role ≠ .dummy) (hne : s.nzm.staging ≠ [])
    (hinvalid : ∀ e ∈ s.nzm.staging, entryValid s e = false) (hroom : s.nzm.pend.length ≤ 16384) :
    exec (.nzmCommit t) s = .next (after t s fun s =>
      (s.modNzm fun n => { n with staging := [], busy := false }).setFld Reg.nzmUpdCtrl 0 17 17 1) := by
  have hgood : s.nzm.staging.filter (entryValid s) = [] :=
    List.filter_eq_nil_iff.mpr fun e he => by simp [hinvalid e he]
  have hbad : (s.nzm.staging.filter fun e => !entryValid s e) = s.nzm.staging :=
    List.filter_eq_self.mpr fun e he => by simp [hinvalid e he]
  exact exec_nzmCommit hr t hopen hrole hgood hbad
    ((if_neg (not_lt.mpr hroom)).trans (commitEntries_of_invalid hne (s.arrive t)))

theorem exec_nzmDiscard_of_open (hopen : nzmOpen s = true) :
    exec (.nzmDiscard t) s = .next (after t s fun s => s.modNzm fun n => { n with staging := [] }) := by
  refine (ringCmd_eq_after hr ?_ : execNzmDiscard t s = _)
  exact if_pos hopen

theorem exec_nzmDiscard_of_closed (hclosed : nzmOpen s = false) :
    exec (.nzmDiscard t) s = .next (after t s fun s => s.setFld Reg.nzmUpdCtrl 0 17 17 1) := by
  refine (ringCmd_eq_after hr ?_ : execNzmDiscard t s = _)
  exact if_neg (Bool.eq_false_iff.mp hclosed)

end

end Sys2Proof.Machine
end

section
/-! Health codes and generations of a plane (R152, R164), and obligation O19. -/
namespace Sys2Proof.Machine

open Sys2Proof.Claim

/-! ## One entry in a list of codes -/

/-- An entry of inspection leaves a nozzle that is DEAD_HOST. -/
theorem applyEntry_of_deadHost {l : List (Nat × Nat × Nat)} {e : MapEntry} (hhost : e.host = false)
    (hdead : codeIn l e.head e.nozzle = 2) : applyEntry l e = l := by
  simp [applyEntry, hhost, hdead]

/-- The codes of the other nozzles as an entry leaves them. -/
theorem codeIn_applyEntry_of_ne {e : MapEntry} {h n : Nat} (hne : ¬(e.head = h ∧ e.nozzle = n))
    (l : List (Nat × Nat × Nat)) : codeIn (applyEntry l e) h n = codeIn l h n := by
  have hrest : ((l.filter fun x => !(x.1 == e.head && x.2.1 == e.nozzle)).find? fun x => x.1 == h && x.2.1 == n) =
      l.find? fun x => x.1 == h && x.2.1 == n := by
    rw [List.find?_filter]
    congr 1
    funext x
    grind
  have hlast : [(e.head, e.nozzle, e.code)].find? (fun x => x.1 == h && x.2.1 == n) = none := by
    simpa using hne
  unfold applyEntry
  split
  · rfl
  · simp only []
    split
    · rw [codeIn, hrest, codeIn]
    · rw [codeIn, List.find?_append, hrest, hlast, Option.or_none, codeIn]

/-- An entry that is not held back by DEAD_HOST gives its nozzle its code. -/
theorem codeIn_applyEntry_self {e : MapEntry} (hhost : e.host = true) (l : List (Nat × Nat × Nat)) :
    codeIn (applyEntry l e) e.head e.nozzle = e.code := by
  have hrest : ((l.filter fun x => !(x.1 == e.head && x.2.1 == e.nozzle)).find? fun x =>
      x.1 == e.head && x.2.1 == e.nozzle) = none :=
    List.find?_eq_none.mpr fun _ hx => by
      simpa only [Bool.not_eq_true', Bool.not_eq_true] using (List.mem_filter.mp hx).2
  simp only [applyEntry, hhost, Bool.not_true, Bool.false_and, Bool.false_eq_true, if_false]
  split
  next hzero => rw [codeIn, hrest, hzero]; rfl
  next => rw [codeIn, List.find?_append, hrest]; simp

/-- Entries of inspection never change a nozzle that is DEAD_HOST (R152). -/
theorem codeIn_foldl_applyEntry_of_deadHost {es : List MapEntry} (hes : ∀ e ∈ es, e.host = false)
    {l : List (Nat × Nat × Nat)} {h n : Nat} (hdead : codeIn l h n = 2) : codeIn (es.foldl applyEntry l) h n = 2 := by
  induction es generalizing l with
  | nil => exact hdead
  | cons e es ih =>
    obtain ⟨hhost, hrest⟩ := List.forall_mem_cons.mp hes
    refine ih hrest ?_
    by_cases hsame : e.head = h ∧ e.nozzle = n
    · obtain ⟨rfl, rfl⟩ := hsame
      rwa [applyEntry_of_deadHost hhost hdead]
    · rwa [codeIn_applyEntry_of_ne hsame]

/-! ## What an install leaves -/

/-- The state with what an install writes beside the plane set aside: the reports, the map path and inspection. -/
def State.sansMapping (s : State) : State := { s.sansReports with nzm := .reset, ins := .reset }

section
variable {s s' : State} (h : s'.sansMapping = s.sansMapping)
include h

/-- What reads neither the reports nor the map path nor inspection is the same in both. -/
theorem eq_of_sansMapping {α : Type} {g : State → α} (hg : ∀ x, g x.sansMapping = g x) : g s' = g s := by
  rw [← hg s', h, hg]

theorem planes_of_sansMapping : s'.planes = s.planes := eq_of_sansMapping h (g := State.planes) fun _ => rfl

theorem jobs_of_sansMapping : s'.jobs = s.jobs := eq_of_sansMapping h (g := State.jobs) fun _ => rfl

theorem sameMotion_of_sansMapping : SameMotion s s' :=
  sameMotion_iff.mpr (eq_of_sansMapping h (g := State.motion) fun _ => rfl)

theorem sameSecure_of_sansMapping : SameSecure s s' := by
  have heq := eq_of_sansMapping h (g := fun x => (x.sec, x.otp, x.met, x.cal, x.calStore, x.fw)) fun _ => rfl
  simpa only [SameSecure, Prod.mk.injEq] using heq

end

theorem sansMapping_of_sansReports {s s' : State} (h : s'.sansReports = s.sansReports) :
    s'.sansMapping = s.sansMapping := by
  rw [State.sansMapping, h, State.sansMapping]

theorem sansMapping_modNzm (s : State) (f : Nzm → Nzm) : (s.modNzm f).sansMapping = s.sansMapping := rfl

theorem sansMapping_movePending (s : State) : (movePending s).sansMapping = s.sansMapping := rfl

theorem sansMapping_resetPixel (tb : StructTables) (pr : PlaneRec) (p w : Nat) (s : State) :
    (resetPixel tb pr p w s).sansMapping = s.sansMapping := rfl

theorem sansReports_mirror (f : MirrorFrame) (s : State) : (mirror f s).sansReports = s.sansReports := by
  unfold mirror
  split
  · exact sansReports_sendXlk ..
  · rfl

theorem sansMapping_modPlane_congr {s s' : State} (h : s'.sansMapping = s.sansMapping) (p : Fin 8)
    (f : PlaneSt → PlaneSt) : (s'.modPlane p f).sansMapping = (s.modPlane p f).sansMapping :=
  congrArg (State.modPlane · p f) h

/-! ## A generation on a plane -/

/-- The entries of a generation in the order in which they apply: those of inspection first. -/
def installOrder (es : List MapEntry) : List MapEntry := (es.filter fun e => !e.host) ++ es.filter fun e => e.host

theorem State.modPlane_modPlane (p : Fin 8) (f g : PlaneSt → PlaneSt) (s : State) :
    (s.modPlane p f).modPlane p g = s.modPlane p fun _ => g ((s.modPlane p f).planes[p]) := by
  simp [State.modPlane, upd]

/-- A plane with a generation installed, beside the generations that are kept. -/
def PlaneSt.withGeneration (g : Generation) (kept : List Generation) (x : PlaneSt) : PlaneSt :=
  { x with health := g.health, methods := g.methods, genNo := g.number, sinceInstall := some 0, undarned := [],
           gens := kept ++ [g] }

/-- An install writes its plane alone: its number, its health codes, and the course count from 0. -/
theorem installGen_eq (tb : StructTables) (p : Fin 8) (number : Nat) (es : List MapEntry) (s : State) :
    ∃ x : PlaneSt, x.genNo = number ∧ x.sinceInstall = some 0 ∧
      x.health = (installOrder es).foldl applyEntry (s.planes[p]).health ∧
      (installGen tb p number es s).sansMapping = (s.modPlane p fun _ => x).sansMapping := by
  unfold installGen
  extract_lets all s₁ x order health c methods changed kept s₂ s₃
  have hx : x.health = (s.planes[p]).health := by
    unfold x s₁ latchRegs
    rw [State.modPlane_planes, upd_getElem_self]
  have hpixels : s₃.sansMapping = s₂.sansMapping := by
    unfold s₃
    split
    next pr _ => exact foldl_leaves (fun s w => sansMapping_resetPixel tb pr p w s) changed s₂
    next => rfl
  have hplane : s₂ = s.modPlane p fun _ =>
      x.withGeneration { number := number, health := health, methods := methods } kept :=
    State.modPlane_modPlane p _ _ s
  refine ⟨x.withGeneration { number := number, health := health, methods := methods } kept, rfl, rfl, ?_, ?_⟩
  · rw [← hx]
    rfl
  · rw [sansMapping_of_sansReports (sansReports_diag ..), hpixels, hplane]

/-! ## GENERATION_INSTALL -/

@[simp] theorem State.arrive_planePending (s : State) (t : Nat) (tb : StructTables) (p : Nat) :
    planePending (s.arrive t) tb p = planePending s tb p := rfl

/-- The next generation of a plane from its pending entries: it is installed, and the dummy is told. -/
def installPending (tb : StructTables) (p : Fin 8) (s : State) : State :=
  let es := (planePending s tb p).take 4096
  let s' := movePending (s.modNzm fun n =>
    { n with pend := (n.pend.filter fun e => headPlane tb e.head != some p.val) ++ (planePending s tb p).drop 4096 })
  (genFrames p (installCourse s' p) ((s.planes[p]).genNo + 1) (installOrder es).length ((installOrder es).map mapWord)).foldl
    (fun s f => mirror f s) (installGen tb p ((s.planes[p]).genNo + 1) es s')

theorem installPending_eq (tb : StructTables) (p : Fin 8) (s : State) :
    ∃ x : PlaneSt, x.genNo = (s.planes[p]).genNo + 1 ∧ x.sinceInstall = some 0 ∧
      x.health = (installOrder ((planePending s tb p).take 4096)).foldl applyEntry (s.planes[p]).health ∧
      (installPending tb p s).sansMapping = (s.modPlane p fun _ => x).sansMapping := by
  unfold installPending
  extract_lets es s'
  have hentries : s'.sansMapping = s.sansMapping := (sansMapping_movePending _).trans (sansMapping_modNzm ..)
  obtain ⟨x, hnumber, hcount, hhealth, hinstall⟩ := installGen_eq tb p ((s.planes[p]).genNo + 1) es s'
  refine ⟨x, hnumber, hcount, hhealth, ?_⟩
  rw [foldl_leaves fun s f => sansMapping_of_sansReports (sansReports_mirror f s), hinstall,
    sansMapping_modPlane_congr hentries]

/-- What the next generation of a plane leaves. -/
theorem installPending_leaves (tb : StructTables) (p : Fin 8) (s : State) :
    ((installPending tb p s).planes[p]).genNo = (s.planes[p]).genNo + 1 ∧
      ((installPending tb p s).planes[p]).sinceInstall = some 0 ∧
      ((installPending tb p s).planes[p]).health =
        (installOrder ((planePending s tb p).take 4096)).foldl applyEntry (s.planes[p]).health ∧
      (∀ q, q ≠ p → (installPending tb p s).planes[q] = s.planes[q]) ∧ (installPending tb p s).jobs = s.jobs ∧
      SameMotion s (installPending tb p s) ∧ SameSecure s (installPending tb p s) := by
  obtain ⟨x, hnumber, hcount, hhealth, hinstall⟩ := installPending_eq tb p s
  have hplanes := planes_of_sansMapping hinstall
  have hplane : (installPending tb p s).planes[p] = x := by
    rw [hplanes, State.modPlane_planes, upd_getElem_self]
  rw [hplane]
  refine ⟨hnumber, hcount, hhealth, fun q hq => ?_, (jobs_of_sansMapping hinstall :),
    (sameMotion_of_sansMapping hinstall :), (sameSecure_of_sansMapping hinstall :)⟩
  rw [hplanes, State.modPlane_planes, upd_getElem_of_ne hq]

section
variable {s : State} {tb : StructTables} {p : Fin 8} (hr : s.ringsRun = true) (htb : s.str.tables = some tb) (t : Nat)
include hr htb

theorem exec_generationInstall_of_due (hrole : s.xlk.role ≠ .dummy) (hpend : planePending s tb p ≠ [])
    (hdue : installDue s p = true) : exec (.generationInstall t p) s = .next (after t s (installPending tb p)) := by
  refine (ringCmd_eq_after hr ?_ : execGenerationInstall t p s = _)
  simp only [State.arrive_str, htb]
  refine if_neg ?_
  rintro (hdummy | ⟨hnone, -⟩ | hearly)
  · exact hrole hdummy
  · exact hpend (by simpa using hnone)
  · exact Bool.false_ne_true (((Bool.not_eq_true' _).mp hearly).symm.trans hdue)

/-- With nothing pending and no forced install, or too early, GENERATION_INSTALL does nothing. -/
theorem exec_generationInstall_of_idle
    (h : (planePending s tb p = [] ∧ (s.planes[p]).forced = false) ∨ installDue s p = false) :
    exec (.generationInstall t p) s = .next (after t s id) := by
  refine (ringCmd_eq_after hr ?_ : execGenerationInstall t p s = _)
  simp only [State.arrive_str, htb]
  refine if_pos (Or.inr (h.imp (fun ⟨hpend, hforced⟩ => ⟨?_, congrArg not hforced⟩) fun hearly => congrArg not hearly))
  rw [State.arrive_planePending, hpend, List.take_nil, List.isEmpty_nil]

end

/-- Settles O19: the host's entries pass through staging and the pending list to a generation, which changes its plane
alone and never lets inspection overwrite DEAD_HOST. -/
theorem nozzleMaps : Obligations.NozzleMaps := by
  refine ⟨fun t w s hr => ⟨?_, ?_, ?_, ?_, ?_, ?_, ?_, ?_⟩, fun t p tb s hr htb hrole => ⟨?_, ?_, ?_⟩, ?_, ?_⟩
  · exact exec_nzmUpdEntry_of_room hr t
  · exact exec_nzmUpdEntry_of_full hr t
  · exact exec_nzmUpdEntry_of_refused hr t
  · exact exec_nzmCommit_of_room hr t
  · exact exec_nzmCommit_of_busy hr t
  · exact exec_nzmCommit_of_invalid hr t
  · exact exec_nzmDiscard_of_open hr t
  · exact exec_nzmDiscard_of_closed hr t
  · exact fun hpend hdue =>
      ⟨_, exec_generationInstall_of_due hr htb t hrole hpend hdue, installPending_leaves tb p (s.arrive t)⟩
  · exact fun hpend hforced => exec_generationInstall_of_idle hr htb t (.inl ⟨hpend, hforced⟩)
  · exact fun hearly => exec_generationInstall_of_idle hr htb t (.inr hearly)
  · exact fun _ _ _ _ hes hdead => codeIn_foldl_applyEntry_of_deadHost hes hdead
  · exact fun l _ hhost => codeIn_applyEntry_self hhost l

end Sys2Proof.Machine
end

section
/-! The fire-supported speed (R155, R156), and obligation O20. -/
namespace Sys2Proof.Machine

open Sys2Proof.Claim

/-- The running least value of a list from a ceiling is one of them, and no greater than any. -/
theorem isLeast_foldl_min (c : Nat) (l : List Nat) : IsLeast {v | v ∈ c :: l} (l.foldl min c) :=
  List.min?_eq_some_iff.mp List.min?_cons'

/-- The speed that the planes of the running jobs support. -/
def printSpeed (s : State) (tb : StructTables) : Nat :=
  ((runningPlanes s).filterMap fun x => planeSpeed s tb x.1 x.2).foldl min capSpeed

/-- Whether some head that can print on those planes has no known ceiling. -/
def ceilingUnknown (s : State) (tb : StructTables) : Bool :=
  (runningPlanes s).any fun x => (planePrinters s tb x.2).any fun h => (headCeiling s tb h.1).isNone

theorem printSpeed_isLeast (s : State) (tb : StructTables) :
    IsLeast {v | v = 10000000 ∨ ∃ x ∈ runningPlanes s, planeSpeed s tb x.1 x.2 = some v} (printSpeed s tb) := by
  simpa only [printSpeed, capSpeed, List.mem_cons, List.mem_filterMap] using
    isLeast_foldl_min capSpeed ((runningPlanes s).filterMap fun x => planeSpeed s tb x.1 x.2)

theorem ceilingUnknown_iff (s : State) (tb : StructTables) : ceilingUnknown s tb = true ↔
    ∃ x ∈ runningPlanes s, ∃ h ∈ planePrinters s tb x.2, headCeiling s tb h.1 = none := by
  simp only [ceilingUnknown, List.any_eq_true, Option.isNone_iff_eq_none]

section
variable {s : State} (hr : s.ringsRun = true) (t : Nat)
include hr

theorem exec_vfireUpdate_of_unloaded (htb : s.str.tables = none) : exec (.vfireUpdate t) s = .next (after t s fun s =>
    s.modNzm fun n => { n with vfire := 10000000, rateUnknown := false }) := by
  refine (ringCmd_eq_after hr ?_ : execVfireUpdate t s = _)
  simp only [State.arrive_str, htb, capSpeed]

theorem exec_vfireUpdate {tb : StructTables} (htb : s.str.tables = some tb) :
    exec (.vfireUpdate t) s = .next (after t s fun s' =>
      s'.modNzm fun n => { n with vfire := printSpeed s tb, rateUnknown := ceilingUnknown s tb }) := by
  refine (ringCmd_eq_after hr ?_ : execVfireUpdate t s = _)
  simp only [State.arrive_str, htb]
  rfl

end

/-- Settles O20: VFIRE_UPDATE writes the least of the ceiling and the speeds of the running planes, and whether a
ceiling is unknown. -/
theorem fireSpeed : Obligations.FireSpeed := by
  refine fun t s hr => ⟨exec_vfireUpdate_of_unloaded hr t, fun tb htb => ?_⟩
  obtain ⟨hmem, hle⟩ := printSpeed_isLeast s tb
  exact ⟨_, _, exec_vfireUpdate hr t htb, hle (.inl rfl), fun x hx _ hw => hle (.inr ⟨x, hx, hw⟩), hmem,
    ceilingUnknown_iff s tb⟩

end Sys2Proof.Machine
end

section
/-! Register words in their canonical order (R461): what a write leaves readable. -/
namespace Sys2Proof.Machine

/-- In a map whose keys rise, a key below the first is not found. -/
theorem regLookup_eq_none_of_lt {k : Nat} {l : List (Nat × Word)} (hrise : keysRise l = true)
    (hlt : ∀ e ∈ l.head?, k < e.1) : regLookup k l = none := by
  induction l with
  | nil => rfl
  | cons e l ih =>
    have hk : k < e.1 := hlt e rfl
    rw [regLookup, if_neg hk.ne]
    cases l with
    | nil => rfl
    | cons e' l =>
      simp only [keysRise, Bool.and_eq_true, decide_eq_true_eq] at hrise
      obtain ⟨hlt', hrest⟩ := hrise
      refine ih hrest fun x hx => ?_
      obtain rfl : e' = x := by simpa using hx
      exact hk.trans hlt'

/-- In a map whose keys rise, a stored word is found, or counts as the default when it is that. -/
theorem regLookup_regInsert_getD {l : List (Nat × Word)} (hrise : keysRise l = true) (k : Nat) (v d : Word) :
    (regLookup k (regInsert k v d l)).getD d = v := by
  by_cases hv : v = d
  case neg => rw [regLookup_regInsert_self hv, Option.getD_some]
  case pos =>
    subst hv
    induction l with
    | nil => simp [regInsert, regLookup]
    | cons e l ih =>
      have htail : keysRise l = true ∧ ∀ x ∈ l.head?, e.1 < x.1 := by
        cases l with
        | nil => exact ⟨rfl, nofun⟩
        | cons e' l => simpa [keysRise, and_comm] using hrise
      obtain ⟨hrest, hhead⟩ := htail
      obtain ⟨j, w⟩ := e
      simp only [regInsert, if_true]
      split_ifs with hlt heq
      · rw [regLookup_eq_none_of_lt hrise (by simpa using hlt), Option.getD_none]
      · subst heq
        rw [regLookup_eq_none_of_lt hrest hhead, Option.getD_none]
      · rw [regLookup, if_neg heq, ih hrest]

/-- A register reads what was written to it. -/
theorem rd_wr_of_sorted {s : State} (h : s.regsSorted = true) (r : RegSpec) (i : Nat) (v : Word) :
    (s.wr r i v).rd r i = v :=
  regLookup_regInsert_getD h (r.addr i) v r.reset

end Sys2Proof.Machine
end

section
/-! Settings of the master and its gears (R168, R173 to R175, R182, R183), and obligation O21. -/
namespace Sys2Proof.Machine

open Sys2Proof.Claim

/-! ## Writes that R182 may refuse -/

section
variable {s : State} {t : Nat} {conds : State → List (Bool × Status)} (hr : s.ringsRun = true)
include hr

/-- A write that no condition refuses acts. -/
theorem pacWrite_acts (h : firstRefusal (conds (s.arrive t)) = .ok) (offset : Nat) (f : State → State) :
    ringCmd t s (fun s => pacRefuse (conds s) offset f s) = .next (after t s f) :=
  ringCmd_eq_after hr (refuseOr_ok _ _ _ _ _ h)

/-- One that a condition refuses leaves its offset and the status in PAC_ERR. -/
theorem pacWrite_refused {st : Status} (h : firstRefusal (conds (s.arrive t)) = st) (hst : st ≠ .ok) (offset : Nat)
    (f : State → State) : ringCmd t s (fun s => pacRefuse (conds s) offset f s) =
      .next (after t s fun s => s.recordErr Reg.pacErr 0 offset st) :=
  ringCmd_eq_after hr (refuseOr_refused _ _ _ _ _ h hst)

end

/-- What only STANDBY allows, STANDBY does not refuse. -/
theorem firstRefusal_of_standby {s : State} (h : s.dev.mode = .standby) (l : List (Bool × Status)) :
    firstRefusal ((s.dev.mode != .standby, .badState) :: l) = firstRefusal l := by
  simp [h]

/-- Every other mode refuses it with BAD_STATE. -/
theorem firstRefusal_of_not_standby {s : State} (h : s.dev.mode ≠ .standby) (l : List (Bool × Status)) :
    firstRefusal ((s.dev.mode != .standby, .badState) :: l) = .badState := by
  simp [firstRefusal, h]

/-! ## The zero and the source -/

section
variable {s : State} (hr : s.ringsRun = true) (hm : s.dev.mode = .standby) (t : Nat)
include hr hm

theorem exec_pacZero (hkind : srcKind (s.rd Reg.pacSrc) ≠ 3) : exec (.pacZero t) s = .next (after t s fun s =>
    s.modPac fun p => { p with zeroPend := true, zeroAfter := none }) := by
  refine (pacWrite_acts hr ?_ 0x04 _ : execPacZero t s = _)
  rw [firstRefusal_of_standby (s := s.arrive t) hm, State.arrive_rd]
  simp [firstRefusal, hkind]

theorem exec_pacZero_of_fabric (hkind : srcKind (s.rd Reg.pacSrc) = 3) : exec (.pacZero t) s =
    .next (after t s fun s => s.recordErr Reg.pacErr 0 0x04 .badState) := by
  refine (pacWrite_refused (st := .badState) hr ?_ (by decide) 0x04 _ : execPacZero t s = _)
  rw [firstRefusal_of_standby (s := s.arrive t) hm, State.arrive_rd]
  simp [firstRefusal, hkind]

theorem exec_pacSrcWrite (w : Word) : exec (.pacSrcWrite t w) s = .next (after t s (newSource w)) :=
  (pacWrite_acts hr (firstRefusal_of_standby (s := s.arrive t) hm []) 0x08 _ : execPacSrcWrite t w s = _)

theorem exec_gearSet : exec (.gearSet t) s = .next (after t s gearInstall) :=
  (pacWrite_acts hr (firstRefusal_of_standby (s := s.arrive t) hm []) 0x50 _ : execGearSet t s = _)

theorem exec_gearClear : exec (.gearClear t) s = .next (after t s gearEmpty) :=
  (pacWrite_acts hr (firstRefusal_of_standby (s := s.arrive t) hm []) 0x50 _ : execGearClear t s = _)

end

/-- A new source starts from "first edge" at the broadcast position for KIND 3, and else at the present one. -/
theorem newSource_est (w : Word) (s : State) :
    ∃ m, (newSource w s).pac.est =
        { Est.reset with p := m, z := m, t8 := s.press, base := m, zeroCount := sourceZero s w } ∧
      (srcKind w ≠ 3 → m = masterNow s) ∧ (∀ f, srcKind w = 3 → s.xlk.posRef = some f → m = f.p) := by
  refine ⟨_, rfl, fun hkind => ?_, fun f hkind href => ?_⟩
  · split
    next h _ => exact absurd h hkind
    next => rfl
  · simp only [hkind, href]

theorem leaves_pacSrcWrite {s : State} (hr : s.ringsRun = true) (hm : s.dev.mode = .standby) (hsort : s.regsSorted = true)
    (t : Nat) (w : Word) : Leaves (.pacSrcWrite t w) s fun s' =>
      s'.rd Reg.pacSrc = w &&& Reg.pacSrc.rw ∧ s'.pac.est.locked = false ∧ s'.pac.est.edges = 0 ∧
      (srcKind w ≠ 3 → s'.pac.est.p = masterNow (s.arrive t)) ∧
      (∀ f, srcKind w = 3 → s.xlk.posRef = some f → s'.pac.est.p = f.p) ∧ s'.pac.gears = s.pac.gears ∧
      s'.jobs = s.jobs ∧ SameMotion s s' := by
  obtain ⟨m, hest, hhere, hfabric⟩ := newSource_est w (s.arrive t)
  refine ⟨_, exec_pacSrcWrite hr hm t w, rd_wr_of_sorted (s := (s.arrive t).modPac _) hsort .., ?_, ?_, fun hkind => ?_,
    fun f hkind href => ?_, rfl, rfl, rfl, rfl, rfl, rfl⟩
  · rw [after_pac, hest]
    rfl
  · rw [after_pac, hest]
    rfl
  · rw [after_pac, hest]
    exact hhere hkind
  · rw [after_pac, hest]
    exact hfabric f hkind href

/-! ## Gears -/

/-- At the master position where a gear takes an entry, its plane stands where it stood. -/
theorem Gear.pos_take (g : Gear) (m : Int) (ratio : Nat) : (g.take m ratio).pos m = g.pos m := by
  simp [Gear.take, Gear.pos, floorDiv]

theorem leaves_gearSet {s : State} (hr : s.ringsRun = true) (hm : s.dev.mode = .standby) (t : Nat) :
    Leaves (.gearSet t) s fun s' =>
      let p := gearPlane s
      (s'.pac.gears[p]).ratio = (s.rd Reg.pacGearRatio).toNat ∧
      (s'.pac.gears[p]).pos (masterNow (s.arrive t)) = (s.pac.gears[p]).pos (masterNow (s.arrive t)) ∧
      (s'.pac.gears[p]).mseg = masterNow (s.arrive t) ∧ (s'.pac.gears[p]).pend = (s.pac.gears[p]).pend ∧
      (∀ q, q ≠ p → s'.pac.gears[q] = s.pac.gears[q]) ∧ s'.pac.est = s.pac.est ∧ s'.regs = s.regs ∧ s'.jobs = s.jobs ∧
      SameMotion s s' := by
  refine ⟨_, exec_gearSet hr hm t, ?_⟩
  extract_lets p
  have hgear : ((after t s gearInstall).pac.gears[p]) =
      (s.pac.gears[p]).take (masterNow (s.arrive t)) (s.rd Reg.pacGearRatio).toNat := upd_getElem_self ..
  have hother : ∀ q, q ≠ p → (after t s gearInstall).pac.gears[q] = s.pac.gears[q] := fun q hq => upd_getElem_of_ne hq ..
  beta_reduce
  rw [hgear]
  exact ⟨rfl, Gear.pos_take .., rfl, rfl, hother, rfl, rfl, rfl, rfl, rfl, rfl, rfl⟩

section
variable {s : State} (hr : s.ringsRun = true) (t : Nat)
include hr

theorem exec_gearPush (h : firstRefusal (gearPushConds (s.arrive t)) = .ok) :
    exec (.gearPush t) s = .next (after t s gearAppend) :=
  (pacWrite_acts hr h 0x50 _ : execGearPush t s = _)

theorem exec_gearPush_refused {st : Status} (h : firstRefusal (gearPushConds (s.arrive t)) = st) (hst : st ≠ .ok) :
    exec (.gearPush t) s = .next (after t s fun s => s.recordErr Reg.pacErr 0 0x50 st) :=
  (pacWrite_refused hr h hst 0x50 _ : execGearPush t s = _)

end

/-- With 16 entries pending a further one is refused with BUSY (R174). -/
theorem gearPushConds_of_full {s : State} (hm : s.modeIn [.standby, .service, .print] = true)
    (hfull : 16 ≤ (s.pac.gears[gearPlane s]).pend.length) : firstRefusal (gearPushConds s) = .busy := by
  simp only [gearPushConds, hm, Bool.not_true, firstRefusal_false, decide_eq_true hfull, firstRefusal_true]

/-- A ratio outside 0.5 to 1.5 is refused with RANGE (R174). -/
theorem gearPushConds_of_ratio {s : State} (hm : s.modeIn [.standby, .service, .print] = true)
    (hroom : (s.pac.gears[gearPlane s]).pend.length < 16)
    (hratio : (s.rd Reg.pacGearRatio).toNat < 0x20000000 ∨ 0x60000000 < (s.rd Reg.pacGearRatio).toNat) :
    firstRefusal (gearPushConds s) = .range := by
  simp only [gearPushConds, hm, Bool.not_true, firstRefusal_false, decide_eq_false (Nat.not_le.mpr hroom),
    decide_eq_true hratio, firstRefusal_true]

/-! ## The handover -/

section
variable {s : State} (hr : s.ringsRun = true) (t : Nat) (w : Word)
include hr

theorem exec_handoverArm (h : firstRefusal (handoverConds w (s.arrive t)) = .ok) :
    exec (.handoverArm t w) s = .next (after t s (handoverSet w)) :=
  (pacWrite_acts hr h 0x38 _ : execHandoverArm t w s = _)

theorem exec_handoverArm_of_unlocked (h : s.pac.cand.locked = false) :
    exec (.handoverArm t w) s = .next (after t s fun s => s.recordErr Reg.pacErr 0 0x38 .notReady) := by
  refine (pacWrite_refused (st := .notReady) hr ?_ (by decide) 0x38 _ : execHandoverArm t w s = _)
  simp [handoverConds, h]

end

/-! ## Outside STANDBY -/

section
variable {s : State} (hr : s.ringsRun = true) (hm : s.dev.mode ≠ .standby) (t : Nat)
include hr hm

theorem exec_settings_of_not_standby (w : Word) :
    exec (.pacZero t) s = .next (after t s fun s => s.recordErr Reg.pacErr 0 0x04 .badState) ∧
    exec (.pacSrcWrite t w) s = .next (after t s fun s => s.recordErr Reg.pacErr 0 0x08 .badState) ∧
    exec (.gearSet t) s = .next (after t s fun s => s.recordErr Reg.pacErr 0 0x50 .badState) ∧
    exec (.gearClear t) s = .next (after t s fun s => s.recordErr Reg.pacErr 0 0x50 .badState) := by
  have hbad := firstRefusal_of_not_standby (s := s.arrive t) hm
  exact ⟨(pacWrite_refused hr (hbad _) (by decide) 0x04 _ : execPacZero t s = _),
    (pacWrite_refused hr (hbad _) (by decide) 0x08 _ : execPacSrcWrite t w s = _),
    (pacWrite_refused hr (hbad _) (by decide) 0x50 _ : execGearSet t s = _),
    (pacWrite_refused hr (hbad _) (by decide) 0x50 _ : execGearClear t s = _)⟩

end

/-- Settles O21: each command is decided by its conditions in their order, and one that acts writes the pacer alone, and
PAC_SRC for a new source. -/
theorem masterSettings : Obligations.MasterSettings := by
  intro t w s hr
  refine ⟨fun hm => exec_pacZero hr hm t, fun hm => exec_pacZero_of_fabric hr hm t,
    fun hm hsort => leaves_pacSrcWrite hr hm hsort t w, fun hm => leaves_gearSet hr hm t, fun hm => exec_gearClear hr hm t,
    fun hm => exec_settings_of_not_standby hr hm t w, fun h => exec_gearPush hr t h, fun hm hfull => ?_,
    fun hm hroom hratio => ?_, fun h => ?_, fun h => exec_handoverArm_of_unlocked hr t w h, ?_⟩
  · exact exec_gearPush_refused hr t (gearPushConds_of_full (s := s.arrive t) hm hfull) (by decide)
  · exact exec_gearPush_refused hr t (gearPushConds_of_ratio (s := s.arrive t) hm hroom hratio) (by decide)
  · exact ⟨_, exec_handoverArm hr t w h, ⟨_, rfl⟩, rfl, rfl, rfl, rfl, rfl, rfl, rfl⟩
  · refine (ringCmd_eq_after hr ?_ : execHandoverCancel t s = _)
    rfl

end Sys2Proof.Machine
end

section
/-! Reports seen from outside: what the closing of items and jobs lets out, and the register words it leaves. -/
namespace Sys2Proof.Machine

/-! ## The relation -/

/-- The addresses of LOG_DROP_DIAG and XLK_DROP, which count records and frames that were dropped. -/
def reportKey (k : Nat) : Bool := decide (k = 0x450028 ∨ k = 0x300014)

/-- From the first state to the second, reports alone have left the block: what had left it before stays, more may follow,
and of the register words only the counters of dropped reports change. -/
structure Reported (s s' : State) : Prop where
  out : s.out <+: s'.out
  words : ∀ k, reportKey k = false → regLookup k s'.regs = regLookup k s.regs

theorem Reported.of_eq {s s' : State} (hout : s'.out = s.out) (hregs : s'.regs = s.regs) : Reported s s' :=
  ⟨hout ▸ List.prefix_rfl, fun _ _ => by rw [hregs]⟩

theorem Reported.refl (s : State) : Reported s s := .of_eq rfl rfl

theorem Reported.trans {s s' s'' : State} (h : Reported s s') (h' : Reported s' s'') : Reported s s'' :=
  ⟨h.out.trans h'.out, fun k hk => (h'.words k hk).trans (h.words k hk)⟩

theorem Reported.foldl {α : Type} {f : State → α → State} (h : ∀ s x, Reported s (f s x)) (l : List α) (s : State) :
    Reported s (l.foldl f s) := by
  induction l generalizing s with
  | nil => exact .refl s
  | cons x l ih => exact (h s x).trans (ih _)

/-- What follows an update that lets nothing out and writes no register word. -/
theorem Reported.of_same {s x s' : State} (h : Reported x s') (hout : x.out = s.out) (hregs : x.regs = s.regs) :
    Reported s s' :=
  (Reported.of_eq hout hregs).trans h

/-- A register other than the counters of dropped reports reads as before. -/
theorem Reported.rd {s s' : State} (h : Reported s s') {r : RegSpec} {i : Nat} (hk : reportKey (r.addr i) = false) :
    s'.rd r i = s.rd r i := by
  rw [State.rd, h.words _ hk, State.rd]

theorem reported_emit (s : State) (o : Out) : Reported s (s.emit o) := ⟨List.prefix_append .., fun _ _ => rfl⟩

theorem reported_count {r : RegSpec} {i : Nat} (h : reportKey (r.addr i) = true) (n : Nat) (s : State) :
    Reported s (s.count r i n) := by
  refine ⟨List.prefix_rfl, fun k hk => regLookup_regInsert_of_ne ?_ ..⟩
  rintro rfl
  exact Bool.noConfusion (hk.symm.trans h)

/-! ## Records -/

/-- A summary is written to the log path alone. -/
theorem writeSummary_eq (cls : LogClass) (s : State) : ∃ log, writeSummary cls s = { s with log := log } := by
  unfold writeSummary
  simp only []
  split_ifs <;> exact ⟨_, rfl⟩

/-- A DIAG event is written to the log path, or counted among those dropped. -/
theorem diag_cases (d : Diag) (inst : Nat) (a0 a1 a2 : Int) (s : State) :
    ∃ log, diag d inst a0 a1 a2 s = { s with log := log } ∨
      diag d inst a0 a1 a2 s = ({ s with log := log } : State).count Reg.logDropDiag := by
  obtain ⟨log, hsummary⟩ := writeSummary_eq .diag s
  unfold diag
  rw [hsummary]
  simp only []
  split_ifs
  · exact ⟨_, .inr rfl⟩
  · exact ⟨_, .inl rfl⟩
  · exact ⟨_, .inl rfl⟩

theorem reported_diag (d : Diag) (inst : Nat) (a0 a1 a2 : Int) (s : State) : Reported s (diag d inst a0 a1 a2 s) := by
  obtain ⟨log, h | h⟩ := diag_cases d inst a0 a1 a2 s
  · rw [h]
    exact .of_eq rfl rfl
  · rw [h]
    exact Reported.of_same (reported_count (r := Reg.logDropDiag) (i := 0) (by decide) ..) rfl rfl

theorem reported_admitList (bound : State → Nat) (l : List LogRec) (s : State) : Reported s (admitList bound l s).2 := by
  induction l generalizing s with
  | nil => exact .refl s
  | cons r l ih =>
    unfold admitList
    split
    · exact Reported.of_same (ih (admitRec r s)) rfl rfl
    · exact .refl s

theorem reported_admitItems (l : List BackEntry) (s : State) : Reported s (admitItems l s).2 := by
  induction l generalizing s with
  | nil => exact .refl s
  | cons e l ih =>
    unfold admitItems
    split
    · next o since held _ =>
      split
      · exact Reported.of_same (ih (admitRec _ s)) rfl rfl
      · exact .refl s
    · exact ih s

theorem reported_modLog (f : LogState → LogState) (s : State) : Reported s (s.modLog f) := .of_eq rfl rfl

theorem reported_admitWaiting (s : State) : Reported s (admitWaiting s) := by
  unfold admitWaiting
  refine Reported.trans ?_ (reported_modLog ..)
  refine Reported.trans ?_ (reported_admitItems ..)
  refine Reported.trans ?_ (reported_modLog ..)
  refine Reported.trans ?_ (reported_admitList ..)
  refine Reported.trans ?_ (reported_modLog ..)
  refine Reported.trans ?_ (reported_admitList ..)
  refine Reported.trans ?_ (reported_modLog ..)
  exact reported_admitList ..

theorem reported_raiseAudit (a : AuditRec) (s : State) : Reported s (raiseAudit a s) :=
  (reported_modLog ..).trans (reported_admitWaiting _)

theorem reported_raiseItem (o : OutcomeRec) (s : State) : Reported s (raiseItem o s) :=
  (reported_modLog ..).trans (reported_admitWaiting _)

/-! ## Frames of the fabric -/

theorem reported_sendPort (n : Fin 32) (dst : Nat) (f : XlkTx) (s : State) : Reported s (sendPort n dst f s) := by
  unfold sendPort
  simp only []
  split_ifs
  · exact reported_emit ..
  · exact .of_eq rfl rfl
  · exact Reported.of_same (reported_emit ..) rfl rfl

theorem reported_sendXlk (dst : Nat) (f : XlkTx) (s : State) : Reported s (sendXlk dst f s) := by
  unfold sendXlk
  split
  · exact Reported.foldl (fun s n => reported_sendPort n dst f s) _ s
  · split
    · exact reported_sendPort ..
    · exact reported_count (by decide) ..

/-! ## Items and jobs close -/

theorem reported_reportOutcome (ctx : Fin 64) (o : OutcomeRec) (s : State) : Reported s (reportOutcome ctx o s) := by
  unfold reportOutcome
  split
  · exact .refl s
  · split
    · exact reported_sendXlk ..
    · exact reported_raiseItem ..

theorem reported_closeItem (ctx : Fin 64) (o : OutcomeRec) (sb : Option SealedBind) (s : State) :
    Reported s (closeItem ctx o sb s) := by
  unfold closeItem
  extract_lets s₁ s₂
  have hsealed : Reported s s₁ := by
    cases sb with
    | none => exact .refl s
    | some b => exact Reported.of_same (reported_raiseAudit ..) rfl rfl
  clear_value s₁
  exact hsealed.trans (Reported.of_same (reported_reportOutcome ..) rfl rfl)

theorem reported_closeFront (ctx : Fin 64) (l : List Item) (s : State) : Reported s (closeFront ctx l s).2 := by
  induction l generalizing s with
  | nil => exact .refl s
  | cons it l ih =>
    unfold closeFront
    split
    · exact (reported_closeItem ..).trans (ih _)
    · exact .refl s

theorem reported_takeEntries (ctx : Fin 64) (l : List OutcomeRec) (s : State) : Reported s (takeEntries ctx l s).2 := by
  induction l generalizing s with
  | nil => exact .refl s
  | cons o l ih =>
    unfold takeEntries
    split
    · exact .refl s
    · exact (reported_closeItem ..).trans (ih _)

theorem reported_endRun (p : Fin 8) (s : State) : Reported s (endRun p s) := by
  unfold endRun
  split
  · exact Reported.of_same (reported_diag ..) rfl rfl
  · exact .refl s

theorem reported_endRuns (ctx : Fin 64) (s : State) : Reported s (endRuns ctx s) := by
  refine Reported.foldl (fun s p => ?_) _ s
  split
  · split
    · exact reported_endRun p s
    · exact .refl s
  · exact .refl s

theorem reported_closeJob (ctx : Fin 64) (s : State) : Reported s (closeJob ctx s) := by
  obtain h | h := closeJob_eq ctx s
  · rw [h]
    exact .refl s
  · rw [h]
    exact Reported.of_same (reported_endRuns ..) rfl rfl

theorem reported_modJob (n : Fin 64) (f : Job → Job) (s : State) : Reported s (s.modJob n f) := .of_eq rfl rfl

theorem reported_settleJob (ctx : Fin 64) (s : State) : Reported s (settleJob ctx s) := by
  unfold settleJob
  simp only []
  split
  · exact .refl s
  · exact .refl s
  · refine Reported.trans ?_ (reported_closeJob ..)
    refine Reported.trans ?_ (reported_modJob ..)
    refine Reported.trans ?_ (reported_takeEntries ..)
    refine Reported.trans ?_ (reported_modJob ..)
    exact reported_closeFront ..

theorem reported_drainCheck (ctx : Fin 64) (s : State) : Reported s (drainCheck ctx s) := by
  unfold drainCheck
  simp only []
  split
  · split
    · exact (reported_modJob ..).trans (reported_settleJob ..)
    · exact .refl s
  · exact .refl s

end Sys2Proof.Machine
end

section
/-! Fire slots (R171, R172, R179 to R181): their identities, and what missing, deciding and sending leave of the pacer. -/
namespace Sys2Proof.Machine

open Sys2Proof.Claim

/-! ## Identities -/

/-- What tells a slot from every other: plane, row, context and course. -/
def FireSlot.ident (x : FireSlot) : Nat × Nat × Nat × Nat := (x.plane, x.row, x.ctx, x.course)

theorem FireSlot.same_iff {x y : FireSlot} : x.same y = true ↔ x.ident = y.ident := by
  simp [FireSlot.same, FireSlot.ident, and_assoc]

/-- The identities of the slots that stand in the pacer. -/
def Pac.idents (p : Pac) : List (Nat × Nat × Nat × Nat) := p.slots.map (·.ident)

/-- A slot put in the place of those of its identity keeps every identity. -/
theorem idents_putSlot (x : FireSlot) (s : State) : (putSlot x s).pac.idents = s.pac.idents := by
  have hident : ∀ y : FireSlot, (if x.same y then x else y).ident = y.ident := fun y => by
    split
    next h => exact FireSlot.same_iff.mp h
    next => rfl
  simp [putSlot, State.modPac, Pac.idents, hident]

/-- A slot whose identity stands in the pacer stands there once it has been put. -/
theorem mem_putSlot {x : FireSlot} {s : State} (h : x.ident ∈ s.pac.idents) : x ∈ (putSlot x s).pac.slots := by
  obtain ⟨y, hy, hident⟩ := List.mem_map.mp h
  exact List.mem_map.mpr ⟨y, hy, if_pos (FireSlot.same_iff.mpr hident.symm)⟩

/-! ## What flags, notes and marks write -/

/-- Flagging items writes jobs alone. -/
theorem flagWales_eq (ctx : Fin 64) (p : Fin 8) (k code : Nat) (wales : List Nat) (s : State) :
    ∃ jobs, flagWales ctx p k code wales s = { s with jobs := jobs } := by
  unfold flagWales
  split
  · exact ⟨_, rfl⟩
  · exact ⟨_, rfl⟩

theorem flagCourse_eq (ctx : Fin 64) (p : Fin 8) (k code : Nat) (s : State) :
    ∃ jobs, flagCourse ctx p k code s = { s with jobs := jobs } := by
  unfold flagCourse
  split
  · exact ⟨_, rfl⟩
  · exact ⟨_, rfl⟩

/-- A DIAG event writes the log path and register words alone. -/
theorem diag_eq (d : Diag) (inst : Nat) (a0 a1 a2 : Int) (s : State) :
    ∃ log regs, diag d inst a0 a1 a2 s = { s with log := log, regs := regs } := by
  obtain ⟨log, h | h⟩ := diag_cases d inst a0 a1 a2 s
  · exact ⟨log, _, h⟩
  · exact ⟨log, _, h⟩

/-- A frame for a slot's hubs is let out, and nothing else happens. -/
theorem toSlotHubs_eq (x : FireSlot) (f : Nat → MlkTx) (s : State) : ∃ out, toSlotHubs x f s = { s with out := out } := by
  unfold toSlotHubs
  generalize x.num = l
  induction l generalizing s with
  | nil => exact ⟨s.out, rfl⟩
  | cons n l ih =>
    obtain ⟨out, h⟩ := ih (s.emit (.hub n.1 (f n.2)))
    exact ⟨out, h⟩

/-! ## A slot is missed -/

/-- What a miss writes before the job is settled: the slot is gone, counted, noted and its items flagged. -/
theorem missSlot_eq (x : FireSlot) (s : State) : ∃ y : State, missSlot x s = settleJob (Fin.ofNat 64 x.ctx) y ∧
    y.pac = { s.pac with slots := s.pac.slots.filter fun z => !x.same z } ∧
    ∀ k, reportKey k = false → regLookup k y.regs = regLookup k (s.count Reg.pacMissed x.plane).regs := by
  have hcancel : ∃ out, (if x.st = .sent then toSlotHubs x .cancel s else s) = { s with out := out } := by
    split
    · exact toSlotHubs_eq ..
    · exact ⟨s.out, rfl⟩
  obtain ⟨out, hcancel⟩ := hcancel
  unfold missSlot
  rw [hcancel]
  extract_lets s₁ s₂ s₃ ctx
  obtain ⟨jobs, hflag⟩ := flagWales_eq ctx (Fin.ofNat 8 x.plane) x.course 2 x.printed s₃
  obtain ⟨log, regs, hdiag⟩ := diag_eq .courseMissed x.plane x.row x.course 0 (s₂.count Reg.pacMissed x.plane)
  have hwords := (reported_diag .courseMissed x.plane x.row x.course 0 (s₂.count Reg.pacMissed x.plane)).words
  have hs₃ : s₃ = markBuffer x true [] { s₂.count Reg.pacMissed x.plane with log := log, regs := regs } :=
    congrArg (markBuffer x true []) hdiag
  rw [hdiag] at hwords
  rw [hflag, hs₃]
  exact ⟨_, rfl, rfl, hwords⟩

/-- Missing a slot takes it out of the pacer and leaves the rest of the pacer. -/
theorem missSlot_pac (x : FireSlot) (s : State) :
    (missSlot x s).pac = { s.pac with slots := s.pac.slots.filter fun z => !x.same z } := by
  obtain ⟨y, heq, hpac, -⟩ := missSlot_eq x s
  rw [heq, pac_of_sansSettling (sansSettling_settleJob ..), hpac]

/-- Of the register words but those that count dropped reports, missing a slot writes PAC_MISSED of its plane. -/
theorem missSlot_rd (x : FireSlot) (s : State) {r : RegSpec} {i : Nat} (hk : reportKey (r.addr i) = false) :
    (missSlot x s).rd r i = (s.count Reg.pacMissed x.plane).rd r i := by
  obtain ⟨y, heq, -, hwords⟩ := missSlot_eq x s
  rw [heq, (reported_settleJob ..).rd hk, State.rd, hwords _ hk, State.rd]

theorem mem_missSlot {x y : FireSlot} {s : State} :
    y ∈ (missSlot x s).pac.slots ↔ y ∈ s.pac.slots ∧ x.same y = false := by
  simp [missSlot_pac]

/-! ## What deciding and sending leave -/

/-- The identities of the slots, the estimator, the gears, and the fabric, by which a dummy is told. -/
structure FireView where
  idents : List (Nat × Nat × Nat × Nat)
  est : Est
  gears : Vector Gear 8
  xlk : Xlk

/-- The view of a state. -/
def State.fireView (s : State) : FireView :=
  { idents := s.pac.idents, est := s.pac.est, gears := s.pac.gears, xlk := s.xlk }

theorem fireView_emit (s : State) (o : Out) : (s.emit o).fireView = s.fireView := rfl

theorem fireView_count (r : RegSpec) (i k : Nat) (s : State) : (s.count r i k).fireView = s.fireView := rfl

theorem fireView_diag (d : Diag) (inst : Nat) (a0 a1 a2 : Int) (s : State) :
    (diag d inst a0 a1 a2 s).fireView = s.fireView := by
  obtain ⟨log, regs, h⟩ := diag_eq d inst a0 a1 a2 s
  rw [h]
  rfl

theorem fireView_flagWales (ctx : Fin 64) (p : Fin 8) (k code : Nat) (wales : List Nat) (s : State) :
    (flagWales ctx p k code wales s).fireView = s.fireView := by
  obtain ⟨jobs, h⟩ := flagWales_eq ctx p k code wales s
  rw [h]
  rfl

theorem fireView_markBuffer (x : FireSlot) (whole : Bool) (noz : List (Nat × Nat)) (s : State) :
    (markBuffer x whole noz s).fireView = s.fireView := rfl

theorem fireView_putSlot (x : FireSlot) (s : State) : (putSlot x s).fireView = s.fireView :=
  congrArg (FireView.mk · s.pac.est s.pac.gears s.xlk) (idents_putSlot x s)

theorem fireView_sendFire (tb : StructTables) (correct : Bool) (x : FireSlot) (s : State) :
    (sendFire tb correct x s).fireView = s.fireView := by
  unfold sendFire
  split
  · rfl
  · exact foldl_leaves (fun s n => fireView_emit ..) _ s

theorem fireView_playConflict (x : FireSlot) (p : Play) (s : State) : (playConflict x p s).fireView = s.fireView := by
  unfold playConflict
  simp only []
  rw [fireView_markBuffer, fireView_diag, fireView_flagWales, fireView_count]

theorem fireView_notePlays (x : FireSlot) (old new : List Play) (s : State) :
    (notePlays x old new s).fireView = s.fireView := by
  refine foldl_leaves (fun s p => ?_) _ s
  simp only []
  split_ifs
  · rw [fireView_count, fireView_playConflict]
  · rw [fireView_count]
  · exact fireView_playConflict ..
  · rfl

/-- Deciding a slot's plays gives the slot with plays. -/
theorem decidePlays_fst (tb : StructTables) (x : FireSlot) (s : State) :
    ∃ plays, (decidePlays tb x s).1 = { x with plays := plays } := ⟨_, rfl⟩

theorem fireView_decidePlays (tb : StructTables) (x : FireSlot) (s : State) :
    (decidePlays tb x s).2.fireView = s.fireView := by
  refine (fireView_notePlays ..).trans (foldl_leaves (fun s y => ?_) _ s)
  simp only []
  split
  · rfl
  · rw [fireView_sendFire, fireView_notePlays, fireView_putSlot]

theorem fireView_lateSlot (x : FireSlot) (s : State) : (lateSlot x s).fireView = s.fireView := by
  unfold lateSlot
  split
  · rfl
  · rw [fireView_diag, fireView_count, fireView_putSlot]

/-! ## Slots only thin out -/

/-- From the first state to the second no slot has come, and the estimator and the gears have stayed. -/
structure Thinned (s s' : State) : Prop where
  idents : s'.pac.idents ⊆ s.pac.idents
  est : s'.pac.est = s.pac.est
  gears : s'.pac.gears = s.pac.gears

theorem Thinned.of_fireView {s s' : State} (h : s'.fireView = s.fireView) : Thinned s s' :=
  have hidents : s'.pac.idents = s.pac.idents := congrArg FireView.idents h
  ⟨fun _ hi => hidents ▸ hi, congrArg FireView.est h, congrArg FireView.gears h⟩

theorem Thinned.of_pac {s s' : State} (h : s'.pac = s.pac) : Thinned s s' :=
  ⟨fun _ hi => h ▸ hi, by rw [h], by rw [h]⟩

theorem Thinned.trans {s s' s'' : State} (h : Thinned s s') (h' : Thinned s' s'') : Thinned s s'' :=
  ⟨List.Subset.trans h'.idents h.idents, h'.est.trans h.est, h'.gears.trans h.gears⟩

theorem Thinned.foldl {α : Type} {f : State → α → State} (h : ∀ s x, Thinned s (f s x)) (l : List α) (s : State) :
    Thinned s (l.foldl f s) := by
  induction l generalizing s with
  | nil => exact .of_pac rfl
  | cons x l ih => exact (h s x).trans (ih _)

/-- Every slot that is left is one that stood there. -/
theorem Thinned.mem {s s' : State} (h : Thinned s s') {y : FireSlot} (hy : y ∈ s'.pac.slots) :
    ∃ x ∈ s.pac.slots, x.same y = true := by
  obtain ⟨x, hx, hident⟩ := List.mem_map.mp (h.idents (List.mem_map_of_mem hy))
  exact ⟨x, hx, FireSlot.same_iff.mpr hident⟩

theorem thinned_missSlot (x : FireSlot) (s : State) : Thinned s (missSlot x s) := by
  refine ⟨?_, by rw [missSlot_pac], by rw [missSlot_pac]⟩
  rw [missSlot_pac]
  exact List.map_subset _ (List.filter_subset_self _)

/-- What writes jobs alone does so when repeated. -/
theorem foldl_jobs {α : Type} {f : State → α → State} (h : ∀ s x, ∃ jobs, f s x = { s with jobs := jobs }) (l : List α)
    (s : State) : ∃ jobs, l.foldl f s = { s with jobs := jobs } := by
  induction l generalizing s with
  | nil => exact ⟨s.jobs, rfl⟩
  | cons x l ih =>
    obtain ⟨jobs, hx⟩ := h s x
    obtain ⟨jobs', hl⟩ := ih (f s x)
    rw [List.foldl_cons, hl, hx]
    exact ⟨jobs', rfl⟩

/-- What the unlocked master passes is missed and flagged: but for the slots missed, jobs alone are written (R171). -/
theorem unlockedPass_eq {s : State} {tb : StructTables} (hlock : s.pac.est.locked = false) (htb : s.str.tables = some tb) :
    ∃ jobs, unlockedPass s =
      { (s.pac.slots.filter fun x => x.st == .waiting &&
          ((slotDue s tb x).map fun m => decide (m ≤ s.pac.est.p)).getD false).foldl (fun s x => missSlot x s) s with
        jobs := jobs } := by
  unfold unlockedPass
  simp only [hlock, htb]
  refine foldl_jobs (fun s c => ?_) _ _
  split
  · refine foldl_jobs (fun s p => foldl_jobs (fun s k => ?_) _ s) _ s
    obtain ⟨jobs, h⟩ := flagCourse_eq c p k 2
      (s.modJob c fun j => { j with planes := upd j.planes p fun jp => { jp with passed := jp.passed ++ [k] } })
    exact ⟨jobs, h⟩
  · exact ⟨_, rfl⟩

theorem thinned_unlockedPass (s : State) : Thinned s (unlockedPass s) := by
  cases hlock : s.pac.est.locked with
  | true =>
    refine .of_pac ?_
    simp only [unlockedPass, hlock]
  | false =>
    cases htb : s.str.tables with
    | none =>
      refine .of_pac ?_
      simp only [unlockedPass, hlock, htb]
    | some tb =>
      obtain ⟨jobs, h⟩ := unlockedPass_eq hlock htb
      rw [h]
      exact (Thinned.foldl (fun s x => thinned_missSlot x s) _ s).trans (.of_pac rfl)

theorem thinned_correctSlot (tb : StructTables) (pk : Package) (x : FireSlot) (raw : List (Nat × Nat)) (s : State) :
    Thinned s (correctSlot tb pk x raw s) := by
  unfold correctSlot
  simp only []
  split
  · exact thinned_missSlot ..
  · split
    · refine .of_fireView ?_
      rw [fireView_sendFire, fireView_putSlot, ← fireView_decidePlays tb (x.at raw _) s]
      unfold when
      split <;> rfl
    · exact .of_fireView (fireView_lateSlot ..)

theorem thinned_recomputeSlot (tb : StructTables) (x : FireSlot) (s : State) : Thinned s (recomputeSlot tb x s) := by
  unfold recomputeSlot
  simp only []
  split
  · exact .of_pac rfl
  · split
    · exact thinned_correctSlot ..
    · exact .of_pac rfl

end Sys2Proof.Machine
end

section
/-! Fire commands (R178 to R181), and obligation O23. -/
namespace Sys2Proof.Machine

open Sys2Proof.Claim

/-! ## A command leaves -/

/-- What a frame for each of a list of hubs lets out. -/
theorem foldl_emit_out {α : Type} (f : α → Out) (l : List α) (s : State) :
    (l.foldl (fun s n => s.emit (f n)) s).out = s.out ++ l.map f := by
  induction l generalizing s with
  | nil => simp
  | cons n l ih =>
    rw [List.foldl_cons, ih]
    simp [State.emit]

theorem sendFire_pac (tb : StructTables) (correct : Bool) (x : FireSlot) (s : State) :
    (sendFire tb correct x s).pac = s.pac := by
  unfold sendFire
  split
  · rfl
  · refine foldl_leaves (g := State.pac) (fun s n => ?_) _ s
    rfl

/-- A slot's FIRE goes to each of its hubs. -/
theorem mem_sendFire_out {tb : StructTables} {x : FireSlot} {s : State} (h : s.dummy = false) {n : Nat × Nat}
    (hn : n ∈ x.num) :
    .hub n.1 (.fire n.2 (hubInstants tb n.1 x.instants) (hubPlays tb n.1 x.plays)) ∈ (sendFire tb false x s).out := by
  simp only [sendFire, h, Bool.false_eq_true, if_false]
  rw [foldl_emit_out]
  exact List.mem_append_right _ (List.mem_map.mpr ⟨n, hn, rfl⟩)

/-- A first firing changes jobs and reports, and not the pacer. -/
theorem firstFired_pac (ctx : Fin 64) (s : State) : (firstFired ctx s).pac = s.pac :=
  (pac_of_sansSettling (sansSettling_drainCheck ..)).trans (State.modJob_pac ..)

theorem reported_firstFired (ctx : Fin 64) (s : State) : Reported s (firstFired ctx s) :=
  (reported_modJob ..).trans (reported_drainCheck ..)

/-- A slot sent stands in the pacer as sent, and its FIRE has gone to each of its hubs. -/
theorem sendSlot_leaves (tb : StructTables) {x : FireSlot} {s : State} (hx : x.ident ∈ s.pac.idents)
    (hdummy : s.dummy = false) :
    ∃ y, y ∈ (sendSlot tb x s).pac.slots ∧ y.ident = x.ident ∧ y.st = .sent ∧ y.instants = x.instants ∧
      ∀ n ∈ x.num, .hub n.1 (.fire n.2 (hubInstants tb n.1 y.instants) (hubPlays tb n.1 y.plays)) ∈
        (sendSlot tb x s).out := by
  obtain ⟨plays, hplays⟩ := decidePlays_fst tb x s
  have hview := fireView_decidePlays tb x s
  unfold sendSlot
  simp only [hplays]
  generalize (decidePlays tb x s).2 = s₁ at hview ⊢
  have hcounted : (when x.latched (fun s => s.count Reg.pacLatched x.plane) s₁).fireView = s.fireView := by
    refine Eq.trans ?_ hview
    unfold when
    split <;> rfl
  generalize when x.latched (fun s => s.count Reg.pacLatched x.plane) s₁ = s₂ at hcounted ⊢
  let y : FireSlot := { x with plays := plays, st := .sent, unconfirmed := x.num.map (·.1) }
  have hidents : s₂.pac.idents = s.pac.idents := congrArg FireView.idents hcounted
  have hdummy' : (putSlot y s₂).dummy = false := (congrArg (fun v => v.xlk.role == .dummy) hcounted).trans hdummy
  refine ⟨y, ?_, rfl, rfl, rfl, fun n hn => ?_⟩
  · rw [firstFired_pac, sendFire_pac]
    exact mem_putSlot (hidents ▸ hx)
  · exact (reported_firstFired ..).out.subset (mem_sendFire_out hdummy' hn)

/-! ## FIRE_COMMAND_SEND -/

/-- Instants do not depend on when they are asked for. -/
theorem instantsOf_arrive (s : State) (t : Nat) (p : Fin 8) (l : List (Nat × Int)) :
    instantsOf (s.arrive t) p l = instantsOf s p l := by
  have hinstant : ∀ y, fireInstant (s.arrive t) p y = fireInstant s p y := fun _ => rfl
  induction l with
  | nil => rfl
  | cons h l ih => simp only [instantsOf, hinstant, ih]

section
variable {s : State} {t : Nat} {p r : Fin 8} (hr : s.ringsRun = true)
include hr

theorem exec_fireCommandSend_of_unlocked (hlock : s.pac.est.locked = false) :
    exec (.fireCommandSend t p r) s = .next (after t s id) := by
  refine (ringCmd_eq_after hr ?_ : execFireCommandSend t p r s = _)
  simp only [State.arrive_pac, hlock, Bool.false_and]
  split
  · split
    · rfl
    · rfl
  · rfl

/-- The row's next slot, within PAC_LEAD, is decided. -/
theorem exec_fireCommandSend {tb : StructTables} {x : FireSlot} {pk : Package} {raw : List (Nat × Nat)}
    (htb : s.str.tables = some tb)
    (hx : s.pac.slots.find? (fun x => x.plane == p.val && x.row == r.val && x.st == .waiting) = some x)
    (hpk : (s.jobs[Fin.ofNat 64 x.ctx]).pkg = some pk) (hlock : s.pac.est.locked = true) (harm : hubArmed s = true)
    (hdummy : s.dummy = false) (hswap : s.xlk.swap = none) (hen : s.isDisabled 0x05 0 = false)
    (hraw : instantsOf s p (slotTargets s tb (s.jobs[Fin.ofNat 64 x.ctx]) pk p x.row x.course) = some raw)
    (hlead : (((raw.map (·.2)).min?).getD 0 : Nat) ≤ (s.arrive t).press + 8 * s.fld Reg.pacLead 0 15 0) :
    exec (.fireCommandSend t p r) s = .next (after t s
      (fireSlot tb pk x (slotTargets s tb (s.jobs[Fin.ofNat 64 x.ctx]) pk p x.row x.course) raw)) := by
  refine (ringCmd_eq_after hr ?_ : execFireCommandSend t p r s = _)
  have hfires : (s.pac.est.locked && hubArmed (s.arrive t) && !(s.arrive t).dummy &&
      !swapLeaves (s.arrive t) tb x && !(s.arrive t).isDisabled 0x05 0) = true := by
    have hkeep : swapLeaves (s.arrive t) tb x = false := by
      have hswap' : (s.arrive t).xlk.swap = none := hswap
      simp only [swapLeaves, hswap']
    have harm' : hubArmed (s.arrive t) = true := harm
    have hdummy' : (s.arrive t).dummy = false := hdummy
    have hen' : (s.arrive t).isDisabled 0x05 0 = false := hen
    simp [hlock, harm', hdummy', hkeep, hen']
  have htargets : slotTargets (s.arrive t) = slotTargets s := rfl
  simp only [State.arrive_str, State.arrive_jobs, State.arrive_pac, htb, hx, hpk, htargets, instantsOf_arrive, hraw,
    hfires]
  exact if_pos hlead

end

section
variable {tb : StructTables} {pk : Package} {x : FireSlot} {p : Fin 8} {targets : List (Nat × Int)}
  {raw : List (Nat × Nat)} {s : State} (hp : x.plane = p.val)
include hp

/-- A slot that may fire is sent with its instants moved by the latch shift. -/
theorem fireSlot_of_sent {sh : Nat} (hahead : behindHighest s p targets = false)
    (hshift : latchShift s pk x raw = some sh) :
    fireSlot tb pk x targets raw s = sendSlot tb (x.at raw sh) s := by
  simp only [fireSlot, hp, Fin.ofNat_val_eq_self, hahead, hshift, Bool.false_eq_true, if_false]

/-- One that lies behind, or that latching refuses, is missed. -/
theorem fireSlot_of_missed (h : behindHighest s p targets = true ∨ latchShift s pk x raw = none) :
    fireSlot tb pk x targets raw s = missSlot x s := by
  simp only [fireSlot, hp, Fin.ofNat_val_eq_self]
  obtain hbehind | hshift := h
  · exact if_pos hbehind
  · simp only [hshift, ite_self]

end

theorem pacMissed_not_report (p : Fin 8) : reportKey (Reg.pacMissed.addr p) = false := by
  revert p
  decide

/-- A missed slot is gone, and PAC_MISSED of its plane counts it. -/
theorem missSlot_leaves {x : FireSlot} {p : Fin 8} (hp : x.plane = p.val) (s : State) :
    (∀ y ∈ (missSlot x s).pac.slots, x.same y = false) ∧
      ((missSlot x s).rd Reg.pacMissed p).toNat = min ((s.rd Reg.pacMissed p).toNat + 1) 0xFFFFFFFF := by
  refine ⟨fun y hy => (mem_missSlot.mp hy).2, ?_⟩
  rw [missSlot_rd x s (pacMissed_not_report p), hp]
  exact rd_count rfl p s

/-! ## SLOT_INSTANT_PASSED -/

/-- The pacer and the motion hardware. -/
def State.pacMotion (s : State) : Pac × MotionHardware := (s.pac, s.motion)

theorem pacMotion_misplace (x : FireSlot) (s : State) : (misplace x s).pacMotion = s.pacMotion := by
  unfold misplace
  extract_lets s₁ s₂
  obtain ⟨jobs, hflag⟩ := flagWales_eq (Fin.ofNat 64 x.ctx) (Fin.ofNat 8 x.plane) x.course 2 x.printed s₂
  rw [hflag]
  simp only [s₂]
  split <;> rfl

theorem pacMotion_chargeSlot (x : FireSlot) (s : State) : (chargeSlot x s).pacMotion = s.pacMotion := by
  unfold chargeSlot
  split <;> rfl

theorem pacMotion_notePrinted (x : FireSlot) (s : State) : (notePrinted x s).pacMotion = s.pacMotion := by
  unfold notePrinted
  split <;> rfl

/-- What a passed instant writes before its slot goes: neither the pacer nor motion. -/
theorem slotPassed_eq (tb : StructTables) (x : FireSlot) (s : State) : ∃ y : State, y.pacMotion = s.pacMotion ∧
    slotPassed tb x s = settleJob (Fin.ofNat 64 x.ctx)
      (if x.unconfirmed.isEmpty then y.modPac fun p => { p with slots := p.slots.filter fun z => !x.same z }
       else putSlot { x with st := .fired } y) := by
  unfold slotPassed
  extract_lets s₁ s₂ s₃
  have hjudged : s₁.pacMotion = s.pacMotion := by
    simp only [s₁]
    split
    · split
      · exact pacMotion_misplace x s
      · rfl
    · rfl
  exact ⟨s₂, (pacMotion_notePrinted ..).trans ((pacMotion_chargeSlot ..).trans hjudged), rfl⟩

theorem slotPassed_leaves (tb : StructTables) (x : FireSlot) (s : State) :
    (∀ y ∈ (slotPassed tb x s).pac.slots, x.same y = true → y.st = .fired ∧ x.unconfirmed ≠ []) ∧
      SameMotion s (slotPassed tb x s) := by
  obtain ⟨z, hview, heq⟩ := slotPassed_eq tb x s
  have hmotion : z.motion = s.motion := congrArg Prod.snd hview
  rw [heq, pac_of_sansSettling (sansSettling_settleJob ..)]
  refine ⟨fun y hy hsame => ?_, sameMotion_iff.mpr ?_⟩
  · cases hconf : x.unconfirmed.isEmpty with
    | true =>
      rw [if_pos hconf] at hy
      have hnot := (List.mem_filter.mp hy).2
      simp [hsame] at hnot
    | false =>
      rw [if_neg (by simp [hconf])] at hy
      obtain ⟨w, -, rfl⟩ := List.mem_map.mp hy
      refine ⟨?_, by simpa using hconf⟩
      split
      · rfl
      · next hother =>
        rw [if_neg hother] at hsame
        exact absurd hsame hother
  · rw [sameMotion_iff.mp (sameMotion_of_sansSettling (sansSettling_settleJob ..)), ← hmotion]
    split <;> rfl

section
variable {s : State} {t : Nat} {p r : Fin 8} {tb : StructTables} {x : FireSlot} (hr : s.ringsRun = true)
  (htb : s.str.tables = some tb)
  (hx : s.pac.slots.find? (fun x => x.plane == p.val && x.row == r.val && x.st == .sent) = some x)
include hr htb hx

theorem exec_slotInstantPassed (hpast : x.base ≤ (s.arrive t).press) :
    exec (.slotInstantPassed t p r) s = .next (after t s (slotPassed tb x)) := by
  refine (ringCmd_eq_after hr ?_ : execSlotInstantPassed t p r s = _)
  simp only [State.arrive_str, State.arrive_pac, htb, hx]
  exact if_pos hpast

theorem exec_slotInstantPassed_of_early (hearly : (s.arrive t).press < x.base) :
    exec (.slotInstantPassed t p r) s = .next (after t s id) := by
  refine (ringCmd_eq_after hr ?_ : execSlotInstantPassed t p r s = _)
  simp only [State.arrive_str, State.arrive_pac, htb, hx]
  exact if_neg (Nat.not_le.mpr hearly)

end

/-! ## FIRE_RECOMPUTE -/

/-- What FIRE_RECOMPUTE does: a locked master corrects each slot whose command has left, an unlocked one misses what it
passes. -/
def recompute (s : State) : State :=
  match s.str.tables, s.pac.est.locked with
  | some tb, true =>
    (s.pac.slots.filter fun x => x.st == .sent && decide (s.press < x.base)).foldl (fun s x =>
      match s.pac.slots.find? fun y => y.same x with
      | some y => recomputeSlot tb y s
      | none => s) s
  | _, _ => unlockedPass s

theorem exec_fireRecompute {s : State} (hr : s.ringsRun = true) (t : Nat) :
    exec (.fireRecompute t) s = .next (after t s recompute) := by
  refine (ringCmd_eq_after hr ?_ : execFireRecompute t s = _)
  rfl

theorem thinned_recompute (s : State) : Thinned s (recompute s) := by
  unfold recompute
  split
  · refine Thinned.foldl (fun s x => ?_) _ s
    split
    · exact thinned_recomputeSlot ..
    · exact .of_pac rfl
  · exact thinned_unlockedPass s

/-- Settles O23: a waiting slot within PAC_LEAD is sent or missed, a sent one whose instant has passed is fired or gone, and
recomputing only takes slots away. -/
theorem fireCommands : Obligations.FireCommands := by
  intro t p r s hr
  refine ⟨fun hlock => exec_fireCommandSend_of_unlocked hr hlock, ?_, fun tb x htb hx => ⟨fun hpast => ?_, fun hearly => ?_⟩,
    ?_⟩
  · intro tb x pk raw htb hx hpk hlock harm hdummy hswap hen hraw hlead
    have hexec := exec_fireCommandSend hr htb hx hpk hlock harm hdummy hswap hen hraw hlead
    have hplane : x.plane = p.val := by
      have hfound := List.find?_some hx
      simp only [Bool.and_eq_true, beq_iff_eq] at hfound
      obtain ⟨⟨hplane, -⟩, -⟩ := hfound
      exact hplane
    refine ⟨fun sh hahead hshift => ?_, fun hmissed => ?_⟩
    · have hident : (x.at raw sh).ident ∈ (s.arrive t).pac.idents :=
        List.mem_map.mpr ⟨x, List.mem_of_find?_eq_some hx, rfl⟩
      obtain ⟨y, hy, hsame, hst, hinst, hframes⟩ := sendSlot_leaves tb hident hdummy
      rw [← fireSlot_of_sent (s := s.arrive t) hplane hahead hshift] at hy hframes
      exact ⟨_, hexec, ⟨y, hy, FireSlot.same_iff.mpr hsame, hst, hinst⟩, fun n hn => ⟨_, _, hframes n hn⟩⟩
    · obtain ⟨hgone, hcount⟩ := missSlot_leaves hplane (s.arrive t)
      rw [← fireSlot_of_missed (tb := tb) (s := s.arrive t) hplane hmissed] at hgone hcount
      exact ⟨_, hexec, hgone, hcount⟩
  · obtain ⟨hfired, hmotion⟩ := slotPassed_leaves tb x (s.arrive t)
    exact ⟨_, exec_slotInstantPassed hr htb hx hpast, hfired, hmotion⟩
  · exact exec_slotInstantPassed_of_early hr htb hx hearly
  · have hthin := thinned_recompute (s.arrive t)
    exact ⟨_, exec_fireRecompute hr t, fun y hy => hthin.mem hy, hthin.est, hthin.gears⟩

end Sys2Proof.Machine
end

section
/-! Encoder edges (R168, R170, R298 to R300), and obligation O22. -/
namespace Sys2Proof.Machine

open Sys2Proof.Claim

/-! ## INDEX_PULSE -/

/-- What an index edge held for MINSP does before a zero that waits for it: the count is latched, INDEX is set, and axes
that seek their home see the count. -/
def indexLatched (n : Fin 16) (s : State) : State :=
  let s := s.modEnc n fun e => { e with i := s.fld Reg.encCfg n 17 17 == 0 }
  let c := (s.enc[n]).c
  let s := (s.modEnc n fun e => { e with idx := c }).setFld Reg.encStatus n 0 0 1
  (List.finRange 8).foldl (fun s (a : Fin 8) =>
    if axisEnc (s.baRec a) = some n then s.modBa a fun x =>
      { x with home := x.home.map fun h => if h.found.isNone then { h with found := some c } else h }
    else s) s

theorem exec_indexPulse {s : State} {n : Fin 16} {ns : Nat} (hen : s.fld Reg.encCfg n 18 18 = 1)
    (hheld : minsp8 s n ≤ 8 * ns) (t : Nat) :
    exec (.indexPulse t n ns) s = .next (after t s fun s => indexZero n (indexLatched n s)) := by
  refine (run_eq_after ?_ : execIndexPulse t n ns s = _)
  exact if_pos ⟨hen, hheld⟩

/-- A zero that waits for the index edge of the master encoder takes effect at it where IDXOFF is 0 (R168, R428). -/
theorem indexZero_of_waiting {s : State} {n : Fin 16} (hpend : s.pac.zeroPend = true) (hafter : s.pac.zeroAfter = none)
    (hkind : srcKind (s.rd Reg.pacSrc) = 1) (hindex : srcIndex (s.rd Reg.pacSrc) = n)
    (hon : bitsOf (s.rd Reg.pacSrc) 17 17 = 1) (hoff : idxOff s n = 0) :
    indexZero n s = masterMoved (doZero (s.enc[n]).c 0 s) := by
  simp only [indexZero, hpend, hafter, hkind, hindex, hon, hoff, and_self, if_true, lt_irrefl, if_false]
  simp [floorDiv]

/-! ## The master moves while nothing runs -/

/-- A map that fixes each element fixes the vector. -/
theorem vector_map_eq_self {α : Type} {n : Nat} {v : Vector α n} {f : α → α} (h : ∀ i : Fin n, f v[i] = v[i]) :
    v.map f = v := by
  ext1 i hi
  rw [Vector.getElem_map]
  exact h ⟨i, hi⟩

section
variable {s : State} (hjobs : ∀ c : Fin 64, (s.jobs[c]).st.active = false)
include hjobs

theorem freezeCast_of_idle : freezeCast s = s := by
  refine congrArg (fun v => { s with jobs := v }) (vector_map_eq_self fun c => ?_)
  exact if_neg fun h => Bool.noConfusion ((hjobs c).symm.trans h.1)

theorem passItems_of_idle : passItems s = s := by
  refine congrArg (fun v => { s with jobs := v }) (vector_map_eq_self fun c => ?_)
  simp only [hjobs c]

theorem anyActive_of_idle : s.anyActive = false := by
  rw [State.anyActive, List.any_eq_false]
  intro j hj
  obtain ⟨c, hc, rfl⟩ := List.mem_iff_getElem.mp hj
  simpa using hjobs ⟨c, by simpa using hc⟩

theorem checkReverse_of_idle : checkReverse s = s :=
  if_neg fun h => by simp [anyActive_of_idle hjobs] at h

/-- With no job running, no handover armed and no gear entry pending, a move of the master does no more than pass what it
passes while unlocked. -/
theorem masterMoved_of_idle (hho : s.pac.handover = none) (hgears : ∀ p : Fin 8, (s.pac.gears[p]).pend = []) :
    masterMoved s = unlockedPass (s.modPac fun p => { p with highest := max p.highest p.est.p }) := by
  have hreach : (s.modPac fun p => { p with gears := p.gears.map fun g => gearReach p.est.p g g.pend }) = s := by
    refine congrArg (fun v => s.modPac fun p => { p with gears := v }) (vector_map_eq_self fun p => ?_)
    rw [hgears p, gearReach, ← hgears p]
  have hswitch : handoverSwitch s = s := by simp only [handoverSwitch, hho]
  simp only [masterMoved, freezeCast_of_idle hjobs, hreach, hswitch, checkReverse_of_idle hjobs, passItems_of_idle hjobs]

end

/-! ## A slot of a plane that no device has -/

/-- The plane whose PAC_MISSED word would be ENC_STATUS of encoder 0. -/
def strayPlane : Nat := 425953

/-- A structure with one head, in row 0 of plane 1. -/
def strayTables : StructTables :=
  { lanes := [], planes := [], rows := [], endpoints := [], heads := [⟨0, 0, 0, 1, 0, 0, 0, 8, 0, 0xFFFF, 100000⟩],
    nmaps := [], stitches := [], deals := [], wgs := [], acs := [], clusters := [], hbm := [], axes := [], pins := [],
    power := ⟨160, 10, 2, 3, 0⟩ }

/-- A package for plane 1 at 1200 courses per inch. -/
def strayPackage : Package :=
  { planes := 2, policy := 0, gaugeKind := 0, gauge := 1200, rpt := 100000000, height := 100000000, firstSeq := 1,
    maxRecord := 256, lanes := [], grounds := [], fields := [], atlases := [], images := [], counters := [], gens := [],
    macs := [], screens := [], appear := none }

/-- A waiting slot of the stray plane. -/
def straySlot : FireSlot :=
  { plane := strayPlane, row := 0, ctx := 0, course := 0, gen := 0, st := .waiting, num := [], instants := [],
    latched := false, shift := 0, late := false, plays := [], wales := [], unconfirmed := [] }

/-- STANDBY with the stray slot waiting and a zero of the master, encoder 0, that waits for its index. -/
def strayState : State :=
  { State.reset with
    dev := { Dev.reset with mode := .standby, rstN := true }
    regs := [(Reg.pacSrc.addr 0, 0x20001#32), (Reg.encCfg.addr 0, 0x40008#32)]
    str := { StrSt.reset with tables := some strayTables }
    jobs := Vector.replicate 64 { Job.free with pkg := some strayPackage }
    pac := { Pac.reset with zeroPend := true, slots := [straySlot] } }

/-- The stray state at the index edge, with the master zeroed. -/
def strayZeroed : State :=
  { indexLatched 0 (strayState.arrive 0) with pac := { Pac.reset with slots := [straySlot] } }

/-- The master stood at 0 with every gear at its reset, so the zero only ends its wait. -/
theorem doZero_strayState : doZero 0 0 (indexLatched 0 (strayState.arrive 0)) = strayZeroed := by
  have hgears : zeroGears 0 Pac.reset.gears = Pac.reset.gears := vector_map_eq_self (by decide)
  exact congrArg (fun v => { strayZeroed with pac := { strayZeroed.pac with gears := v } }) hgears

theorem indexZero_strayState : indexZero 0 (indexLatched 0 (strayState.arrive 0)) = unlockedPass strayZeroed := by
  rw [indexZero_of_waiting (by decide) (by decide) (by decide) (by decide) (by decide) (by decide)]
  refine (congrArg masterMoved doZero_strayState).trans ?_
  exact masterMoved_of_idle (by decide) (by decide) (by decide)

/-- The slot is due as the master stands at 0. -/
theorem strayZeroed_due : (strayZeroed.pac.slots.filter fun x => x.st == .waiting &&
    ((slotDue strayZeroed strayTables x).map fun m => decide (m ≤ strayZeroed.pac.est.p)).getD false) = [straySlot] := by
  decide

/-- The missed slot counts in ENC_STATUS, and INDEX reads 0. -/
theorem unlockedPass_strayZeroed_index : bitOf (unlockedPass strayZeroed) Reg.encStatus 0 0 = false := by
  obtain ⟨jobs, hpass⟩ := unlockedPass_eq (s := strayZeroed) (tb := strayTables) (by decide) rfl
  have hword : (unlockedPass strayZeroed).rd Reg.encStatus 0 = (missSlot straySlot strayZeroed).rd Reg.encStatus 0 := by
    rw [hpass, strayZeroed_due]
    rfl
  rw [bitOf, hword, missSlot_rd _ _ (by decide)]
  decide

/-- Refutes O22: the clause on INDEX_PULSE does not ask for fire slots of planes 0 to 7. The PAC_MISSED word of a slot of
plane 425,953 is ENC_STATUS of encoder 0. A zero that takes effect at the index edge lets the unlocked master pass that
slot, and the count of the miss clears the INDEX bit that the edge has set. -/
theorem not_encoderEdges : ¬ Obligations.EncoderEdges := by
  intro h
  obtain ⟨-, -, -, -, -, hindex, -⟩ := h 0 0 false false strayState
  obtain ⟨s', hexec, -, -, hbit, -⟩ := hindex 20 (by decide) (by decide)
  rw [exec_indexPulse (by decide) (by decide)] at hexec
  injection hexec with hstate
  subst hstate
  have hclear : bitOf (indexZero 0 (indexLatched 0 (strayState.arrive 0))) Reg.encStatus 0 0 = false := by
    rw [indexZero_strayState, unlockedPass_strayZeroed_index]
  exact Bool.noConfusion (hclear.symm.trans hbit)

end Sys2Proof.Machine
end

section
/-! Register words stay in their canonical order (R461), and what a series of operations leaves, each at its own key. -/
namespace Sys2Proof.Machine

/-! ## The order of register words -/

/-- Each key lies below every later one. -/
theorem keysRise_iff_pairwise (l : List (Nat × Word)) : keysRise l = true ↔ l.Pairwise fun a b => a.1 < b.1 := by
  have htrans : IsTrans (Nat × Word) fun a b => a.1 < b.1 := ⟨fun _ _ _ => Nat.lt_trans⟩
  rw [← List.isChain_iff_pairwise]
  induction l with
  | nil => simp [keysRise]
  | cons a l ih =>
    cases l with
    | nil => simp [keysRise]
    | cons b l => simp only [keysRise, Bool.and_eq_true, decide_eq_true_eq, List.isChain_cons_cons, ih]

theorem eq_or_mem_of_mem_regInsert {k : Nat} {v d : Word} {l : List (Nat × Word)} {e : Nat × Word}
    (h : e ∈ regInsert k v d l) : e = (k, v) ∨ e ∈ l := by
  induction l with
  | nil =>
    rw [regInsert] at h
    split_ifs at h
    · cases h
    · exact .inl (List.mem_singleton.mp h)
  | cons x l ih =>
    rw [regInsert] at h
    split_ifs at h
    · exact .inr h
    · exact List.mem_cons.mp h
    · exact .inr (List.mem_cons_of_mem _ h)
    · exact (List.mem_cons.mp h).imp_right (List.mem_cons_of_mem _)
    · obtain rfl | h := List.mem_cons.mp h
      · exact .inr List.mem_cons_self
      · exact (ih h).imp_right (List.mem_cons_of_mem _)

theorem keysRise_regInsert {l : List (Nat × Word)} (h : keysRise l = true) (k : Nat) (v d : Word) :
    keysRise (regInsert k v d l) = true := by
  rw [keysRise_iff_pairwise] at h ⊢
  induction l with
  | nil =>
    rw [regInsert]
    split_ifs
    · exact .nil
    · exact List.pairwise_singleton ..
  | cons x l ih =>
    obtain ⟨hx, hl⟩ := List.pairwise_cons.mp h
    rw [regInsert]
    split_ifs with hlt hv heq
    · exact h
    · refine List.pairwise_cons.mpr ⟨fun e he => ?_, h⟩
      obtain rfl | he := List.mem_cons.mp he
      · exact hlt
      · exact hlt.trans (hx e he)
    · exact hl
    · subst heq
      exact List.pairwise_cons.mpr ⟨hx, hl⟩
    · refine List.pairwise_cons.mpr ⟨fun e he => ?_, ih hl⟩
      obtain rfl | he := eq_or_mem_of_mem_regInsert he
      · exact lt_of_le_of_ne (not_lt.mp hlt) (Ne.symm heq)
      · exact hx e he

/-- A write keeps the order. -/
theorem regsSorted_wr {s : State} (h : s.regsSorted = true) (r : RegSpec) (i : Nat) (v : Word) :
    (s.wr r i v).regsSorted = true := keysRise_regInsert h ..

/-! ## A series of operations, each at its own key -/

section
variable {α β κ : Type} {key : α → κ} {g : State → κ → β} {f : State → α → State}
  (hframe : ∀ s x k, key x ≠ k → g (f s x) k = g s k)
include hframe

/-- What lies at a key of none of them stays. -/
theorem foldl_at_of_ne {l : List α} {k : κ} (h : ∀ x ∈ l, key x ≠ k) (s : State) : g (l.foldl f s) k = g s k := by
  induction l generalizing s with
  | nil => rfl
  | cons x l ih =>
    rw [List.foldl_cons, ih fun y hy => h y (List.mem_cons_of_mem x hy)]
    exact hframe s x k (h x List.mem_cons_self)

/-- When keys differ, what lies at the key of one of them is what that one makes of it, in a state of which `P` holds as of
every state on the way. -/
theorem foldl_at_key {P : State → Prop} (hP : ∀ s x, P s → P (f s x)) {l : List α} (hnd : (l.map key).Nodup) {x : α}
    (hx : x ∈ l) {s : State} (hs : P s) :
    ∃ y, P y ∧ g y (key x) = g s (key x) ∧ g (l.foldl f s) (key x) = g (f y x) (key x) := by
  induction l generalizing s with
  | nil => cases hx
  | cons z l ih =>
    rw [List.map_cons, List.nodup_cons] at hnd
    obtain ⟨hz, hnd⟩ := hnd
    have hne : ∀ y ∈ l, key y ≠ key z := fun y hy he => hz (he ▸ List.mem_map_of_mem hy)
    obtain rfl | hx := List.mem_cons.mp hx
    · exact ⟨s, hs, rfl, foldl_at_of_ne hframe hne _⟩
    · obtain ⟨y, hy, hsame, hlast⟩ := ih hnd hx (hP s z hs)
      exact ⟨y, hy, hsame.trans (hframe s z _ (hne x hx).symm), hlast⟩

end

end Sys2Proof.Machine
end

section
/-! Waveform groups, heads and pool tables: what writing one leaves, and what sending waveform frames leaves (R190). -/
namespace Sys2Proof.Machine

/-! ## Lists by key -/

@[simp] theorem find?_assocSet_self {α : Type} (k : Nat) (v : α) (l : List (Nat × α)) :
    (assocSet k v l).find? (fun e => e.1 == k) = some (k, v) := by
  induction l with
  | nil => simp [assocSet]
  | cons x l ih =>
    rw [assocSet]
    split_ifs with hlt heq
    · simp
    · simp
    · rw [List.find?_cons_of_neg (by simpa using Ne.symm heq), ih]

theorem find?_assocSet_of_ne {α : Type} {k j : Nat} (h : j ≠ k) (v : α) (l : List (Nat × α)) :
    (assocSet k v l).find? (fun e => e.1 == j) = l.find? fun e => e.1 == j := by
  have hk : (k == j) = false := by simpa using h.symm
  induction l with
  | nil => simp only [assocSet, List.find?_cons, hk]
  | cons x l ih =>
    rw [assocSet]
    split_ifs with hlt heq
    · simp only [List.find?_cons, hk]
    · subst heq
      simp only [List.find?_cons, hk]
    · rw [List.find?_cons, List.find?_cons, ih]

/-! ## One group, one head, one table -/

@[simp] theorem State.modWg_wg_self (s : State) (n : Nat) (f : WgSt → WgSt) : (s.modWg n f).wg n = f (s.wg n) := by
  rw [State.wg, State.modWg, State.modWav_wav, find?_assocSet_self]
  rfl

theorem State.modWg_wg_of_ne {n k : Nat} (h : k ≠ n) (s : State) (f : WgSt → WgSt) : (s.modWg n f).wg k = s.wg k := by
  rw [State.wg, State.modWg, State.modWav_wav, find?_assocSet_of_ne h]
  rfl

@[simp] theorem State.modHead_head_self (s : State) (n : Nat) (f : HeadSt → HeadSt) :
    (s.modHead n f).head n = f (s.head n) := by
  rw [State.head, State.modHead, State.modWav_wav, find?_assocSet_self]
  rfl

theorem State.modHead_head_of_ne {n k : Nat} (h : k ≠ n) (s : State) (f : HeadSt → HeadSt) :
    (s.modHead n f).head k = s.head k := by
  rw [State.head, State.modHead, State.modWav_wav, find?_assocSet_of_ne h]
  rfl

@[simp] theorem State.arrive_poolTable (s : State) (t n : Nat) : (s.arrive t).poolTable n = s.poolTable n := rfl

theorem State.wg_of_wgs {s s' : State} (h : s'.wav.wgs = s.wav.wgs) (n : Nat) : s'.wg n = s.wg n := by
  rw [State.wg, State.wg, h]

theorem State.head_of_heads {s s' : State} (h : s'.wav.heads = s.wav.heads) (n : Nat) : s'.head n = s.head n := by
  rw [State.head, State.head, h]

/-! ## Waveform frames -/

theorem pushRel_eq (l : Fin 64) (f : MlkTx) (s : State) : ∃ mlk out, pushRel l f s = { s with mlk := mlk, out := out } := by
  unfold pushRel
  simp only []
  split <;> exact ⟨_, _, rfl⟩

/-- Frames pushed one after the other write the link and what leaves the block alone. -/
theorem foldl_pushRel_eq (l : Fin 64) (fs : List MlkTx) (s : State) :
    ∃ mlk out, fs.foldl (fun s f => pushRel l f s) s = { s with mlk := mlk, out := out } := by
  induction fs generalizing s with
  | nil => exact ⟨_, _, rfl⟩
  | cons f fs ih =>
    obtain ⟨mlk, out, hf⟩ := pushRel_eq l f s
    rw [List.foldl_cons, hf]
    exact ih _

/-- Sending what a change owes the hubs writes the link and what leaves the block alone. -/
theorem sendWaves_eq (old : State) (table : Option Nat) (s : State) :
    ∃ mlk out, (sendWaves old table s).2 = { s with mlk := mlk, out := out } := by
  refine List.foldlRecOn
    (motive := fun r : List (Nat × Nat × Nat) × State => ∃ mlk out, r.2 = { s with mlk := mlk, out := out }) (hubEps s) _
    ⟨_, _, rfl⟩ fun r hr h _ => ?_
  obtain ⟨b, x⟩ := r
  obtain ⟨mlk, out, rfl : x = _⟩ := hr
  simp only []
  split_ifs
  · exact ⟨_, _, rfl⟩
  · exact foldl_pushRel_eq ..

/-- What a table write leaves: the pool takes the table, and the hubs that are sent it hold BUSY. -/
theorem putTable_eq (tbl : Nat) (w : List Word) (s : State) : ∃ mlk out busy, putTable tbl w s =
    { s with mlk := mlk, out := out, wav := { s.wav with pool := assocSet tbl w s.wav.pool, tblBusy := busy } } := by
  unfold putTable
  simp only []
  obtain ⟨mlk, out, hsend⟩ := sendWaves_eq s (some tbl) (s.modWav fun v => { v with pool := assocSet tbl w v.pool })
  rw [hsend]
  exact ⟨_, _, _, rfl⟩

/-- What a change of a group leaves: the group's state, and the hubs that are sent it hold BUSY. -/
theorem wgChange_eq (n : Nat) (f : WgSt → WgSt) (s : State) : ∃ mlk out busy, wgChange n f s =
    { s.modWg n f with mlk := mlk, out := out, wav := { (s.modWg n f).wav with wgBusy := busy } } := by
  unfold wgChange
  simp only []
  obtain ⟨mlk, out, hsend⟩ := sendWaves_eq s none (s.modWg n f)
  rw [hsend]
  exact ⟨_, _, _, rfl⟩

theorem wgChange_wgs (n : Nat) (f : WgSt → WgSt) (s : State) : (wgChange n f s).wav.wgs = (s.modWg n f).wav.wgs := by
  obtain ⟨mlk, out, busy, h⟩ := wgChange_eq n f s
  rw [h]

end Sys2Proof.Machine
end

section
/-! Waveform tables and active slots (R187, R189, R190). -/
namespace Sys2Proof.Machine

open Sys2Proof.Claim

/-! ## The staging words -/

/-- Staging words written one by one read as written. -/
theorem stagingWords_foldl_wr {s : State} (h : s.regsSorted = true) (v : Nat → Word) :
    stagingWords ((List.range 32).foldl (fun s i => s.wr Reg.wavTblWord i (v i)) s) = (List.range 32).map v := by
  refine List.map_congr_left fun i hi => ?_
  have hframe : ∀ (s : State) (j k : Nat), j ≠ k → (s.wr Reg.wavTblWord j (v j)).rd Reg.wavTblWord k =
      s.rd Reg.wavTblWord k := fun s j k hne => rd_wr_of_ne (by simp only [RegSpec.addr, Reg.wavTblWord]; omega) (v j) s
  have hnd : ((List.range 32).map id).Nodup := by rw [List.map_id]; exact List.nodup_range
  obtain ⟨y, hy, -, hlast⟩ := foldl_at_key (g := fun s k => s.rd Reg.wavTblWord k) (key := id) hframe
    (P := (·.regsSorted = true)) (fun s j hs => regsSorted_wr hs ..) hnd hi h
  exact hlast.trans (rd_wr_of_sorted hy ..)

theorem stagingWords_readTable {s : State} (h : s.regsSorted = true) : stagingWords (readTable s) =
    (List.range 32).map (tblWord ((s.poolTable (s.fld Reg.wavTblSel 0 9 0)).getD [])) := by
  rw [readTable]
  exact stagingWords_foldl_wr h (tblWord _)

theorem stagingWords_after (t : Nat) (s : State) (f : State → State) :
    stagingWords (after t s f) = stagingWords (f (s.arrive t)) := List.map_congr_left fun i _ => after_rd t s f _ i

/-- What does not read the register words, a copy of a table leaves. -/
theorem readTable_leaves {β : Type} {g : State → β} (hg : ∀ s r i v, g (State.wr s r i v) = g s) (s : State) :
    g (readTable s) = g s := by
  rw [readTable]
  exact foldl_leaves (fun s i => hg s Reg.wavTblWord i _) (List.range 32) s

section
variable {s : State} (hr : s.ringsRun = true) (t : Nat)
include hr

/-! ## WAV_TBL_WRITE -/

theorem exec_wavTblWrite_of_ok (h : firstRefusal (tblRefusals s) = .ok) :
    exec (.wavTblWrite t) s = .next (after t s tblAccept) :=
  (ringCmd_eq_after hr (refuseOr_ok _ _ _ _ _ h) : execWavTblWrite t s = _)

theorem exec_wavTblWrite_of_refused {st : Status} (h : firstRefusal (tblRefusals s) = st) (hst : st ≠ .ok) :
    exec (.wavTblWrite t) s = .next (after t s fun s => s.recordErr Reg.wavErr 0 0x24 st) :=
  (ringCmd_eq_after hr (refuseOr_refused (conds := tblRefusals (s.arrive t)) _ _ _ _ _ h hst) : execWavTblWrite t s = _)

theorem leaves_wavTblWrite (h : firstRefusal (tblRefusals s) = .ok) : Leaves (.wavTblWrite t) s fun s' =>
    s'.poolTable (s.fld Reg.wavTblSel 0 9 0) = some (stagingWords s) ∧
    (∀ k, k ≠ s.fld Reg.wavTblSel 0 9 0 → s'.poolTable k = s.poolTable k) ∧ s'.wav.wgs = s.wav.wgs ∧
    s'.regs = s.regs ∧ s'.jobs = s.jobs ∧ SameMotion s s' ∧ SameSecure s s' := by
  refine ⟨_, exec_wavTblWrite_of_ok hr t h, ?_⟩
  obtain ⟨mlk, out, busy, hput⟩ := putTable_eq (s.fld Reg.wavTblSel 0 9 0) (stagingWords s) (s.arrive t)
  have hacc : tblAccept (s.arrive t) = _ := hput
  simp only [after, hacc]
  refine ⟨?_, fun k hk => ?_, rfl, rfl, rfl, ⟨rfl, rfl, rfl, rfl⟩, ⟨rfl, rfl, rfl, rfl, rfl, rfl⟩⟩
  · exact congrArg (Option.map (·.2)) (find?_assocSet_self ..)
  · exact congrArg (Option.map (·.2)) (find?_assocSet_of_ne hk ..)

/-! ## WAV_TBL_READ -/

theorem exec_wavTblRead : exec (.wavTblRead t) s = .next (after t s readTable) :=
  (ringCmd_eq_after hr rfl : execWavTblRead t s = _)

theorem leaves_wavTblRead (hsort : s.regsSorted = true) : Leaves (.wavTblRead t) s fun s' =>
    stagingWords s' = (List.range 32).map (fun i =>
      (((s.poolTable (s.fld Reg.wavTblSel 0 9 0)).getD [])[i]?).getD 0) ∧ s'.wav = s.wav ∧ s'.jobs = s.jobs ∧
    SameMotion s s' := by
  refine ⟨_, exec_wavTblRead hr t, ?_, ?_, ?_, ?_⟩
  · rw [stagingWords_after, stagingWords_readTable (s := s.arrive t) hsort, State.arrive_poolTable, State.arrive_fld]
    rfl
  · rw [after_wav, readTable_leaves (g := State.wav) fun _ _ _ _ => rfl, State.arrive_wav]
  · rw [after_jobs, readTable_leaves (g := State.jobs) fun _ _ _ _ => rfl, State.arrive_jobs]
  · rw [sameMotion_iff, after_motion, readTable_leaves (g := State.motion) fun _ _ _ _ => rfl]
    rfl

/-! ## WG_ACTIVE_SLOT_WRITE -/

theorem exec_wgActiveSlotWrite_of_ok (w : Word) (h : firstRefusal (wgRefusals s) = .ok) :
    exec (.wgActiveSlotWrite t w) s = .next (after t s
      (wgChange (s.fld Reg.wavWgSel 0 10 0) fun x => { x with active := bitsOf w 2 0 })) :=
  (ringCmd_eq_after hr (refuseOr_ok (conds := wgRefusals (s.arrive t)) _ _ _ _ _ h) : execWgActiveSlotWrite t w s = _)

theorem exec_wgActiveSlotWrite_of_refused (w : Word) {st : Status} (h : firstRefusal (wgRefusals s) = st) (hst : st ≠ .ok) :
    exec (.wgActiveSlotWrite t w) s = .next (after t s fun s => s.recordErr Reg.wavErr 0 0x104 st) :=
  (ringCmd_eq_after hr (refuseOr_refused (conds := wgRefusals (s.arrive t)) _ _ _ _ _ h hst) :
    execWgActiveSlotWrite t w s = _)

theorem leaves_wgActiveSlotWrite (w : Word) (h : firstRefusal (wgRefusals s) = .ok) :
    Leaves (.wgActiveSlotWrite t w) s fun s' =>
      s'.wg (s.fld Reg.wavWgSel 0 10 0) = { s.wg (s.fld Reg.wavWgSel 0 10 0) with active := bitsOf w 2 0 } ∧
      (∀ k, k ≠ s.fld Reg.wavWgSel 0 10 0 → s'.wg k = s.wg k) ∧ s'.wav.pool = s.wav.pool ∧ s'.regs = s.regs ∧
      s'.jobs = s.jobs ∧ SameMotion s s' ∧ SameSecure s s' := by
  let f : WgSt → WgSt := fun x => { x with active := bitsOf w 2 0 }
  let n := s.fld Reg.wavWgSel 0 10 0
  obtain ⟨mlk, out, busy, hchange⟩ := wgChange_eq n f (s.arrive t)
  have hwgs : (after t s (wgChange n f)).wav.wgs = ((s.arrive t).modWg n f).wav.wgs := wgChange_wgs ..
  refine ⟨after t s (wgChange n f), exec_wgActiveSlotWrite_of_ok hr t w h, ?_, fun k hk => ?_, ?_⟩
  · exact (State.wg_of_wgs hwgs n).trans (State.modWg_wg_self ..)
  · exact (State.wg_of_wgs hwgs k).trans (State.modWg_wg_of_ne hk ..)
  · simp only [after, hchange]
    exact ⟨rfl, rfl, rfl, ⟨rfl, rfl, rfl, rfl⟩, ⟨rfl, rfl, rfl, rfl, rfl, rfl⟩⟩

/-! ## WAVEFORM_ACK_TIMEOUT -/

/-- A hub that was sent a change 10 ms ago or earlier holds BUSY no longer (R190). -/
theorem exec_waveformAckTimeout (h : Fin 48) : exec (.waveformAckTimeout t h) s = .next (after t s fun s => s.modWav fun v =>
    { v with tblBusy := v.tblBusy.filter fun b => !(b.1 == h.val && decide (b.2.1 + 80000000 ≤ s.now)),
             wgBusy := v.wgBusy.filter fun b => !(b.1 == h.val && decide (b.2.1 + 80000000 ≤ s.now)) }) :=
  (ringCmd_eq_after hr rfl : execWaveformAckTimeout t h s = _)

end

/-! ## What refuses a write -/

section
variable {s : State}

theorem tblRefusals_of_named (h : namedActive s (s.fld Reg.wavTblSel 0 9 0) = true) (hm : s.dev.mode = .print) :
    firstRefusal (tblRefusals s) = .badState := by
  simp [tblRefusals, h, State.modeIn, hm]

section
variable (h : namedActive s (s.fld Reg.wavTblSel 0 9 0) = false)
include h

theorem tblRefusals_of_busy (hbusy : s.wav.tblBusy ≠ []) : firstRefusal (tblRefusals s) = .busy := by
  have hbusy' : s.wav.tblBusy.isEmpty = false := by simpa using hbusy
  simp [tblRefusals, h, hbusy']

theorem tblRefusals_of_refused (hbusy : s.wav.tblBusy = []) (hbad : tblRefused (stagingWords s) = true) :
    firstRefusal (tblRefusals s) = .range := by
  simp [tblRefusals, h, hbusy, hbad]

end

theorem wgRefusals_ok (hm : s.modeIn [.standby, .service] = true) (hbusy : s.wav.wgBusy = []) :
    firstRefusal (wgRefusals s) = .ok := by
  simp [wgRefusals, hm, hbusy]

theorem wgRefusals_of_mode (hm : s.modeIn [.standby, .service] = false) : firstRefusal (wgRefusals s) = .badState := by
  simp [wgRefusals, hm]

end

end Sys2Proof.Machine
end

section
/-! Drive scales and head temperatures (R193, R195), and obligation O25. -/
namespace Sys2Proof.Machine

open Sys2Proof.Claim

/-! ## SCALE_UPDATE -/

/-- How an update may leave a group's target and scale, by whether the group's head is STALE (R193). -/
def WgSt.ScalesTo (w w' : WgSt) (stale : Bool) : Prop :=
  w'.target ≤ 1536 ∧ w'.started = true ∧ w'.slots = w.slots ∧ w'.active = w.active ∧ w'.gain = w.gain ∧
    (w.started = false → w'.scale = w'.target) ∧ (w.started = true → stale = true → w'.scale = w.scale) ∧
    (w.started = true → w'.scale ≤ w.scale + 16 ∧ w.scale ≤ w'.scale + 16)

theorem scaleStep_target_le (s : State) (n : Nat) (w : WgSt) (h : HeadSt) : (scaleStep s n w h).1.target ≤ 1536 := by
  unfold scaleStep
  cases scaleMax s n with
  | none => exact min_le_left ..
  | some m => exact (min_le_left ..).trans (min_le_left ..)

theorem scaleStep_scale (s : State) (n : Nat) (w : WgSt) (h : HeadSt) : (scaleStep s n w h).1.scale =
    if !w.started then (scaleStep s n w h).1.target else if h.stale then w.scale
    else if w.scale ≤ (scaleStep s n w h).1.target then min (scaleStep s n w h).1.target (w.scale + 16)
    else max (scaleStep s n w h).1.target (w.scale - 16) := rfl

theorem scalesTo_scaleStep (s : State) (n : Nat) (w : WgSt) (h : HeadSt) : w.ScalesTo (scaleStep s n w h).1 h.stale := by
  refine ⟨scaleStep_target_le s n w h, rfl, rfl, rfl, rfl, fun hnew => ?_, fun hold hstale => ?_, fun hold => ?_⟩
  · simp only [scaleStep_scale, hnew, Bool.not_false, if_true]
  · simp only [scaleStep_scale, hold, hstale, Bool.not_true, Bool.false_eq_true, if_false, if_true]
  · simp only [scaleStep_scale, hold, Bool.not_true, Bool.false_eq_true, if_false]
    split_ifs <;> omega

/-- One group of the structure takes its new target and scale. -/
def scaleGroup (s : State) (w : WgRec) : State :=
  let r := scaleStep s w.wg (s.wg w.wg) (s.head w.head)
  (s.modWg w.wg fun _ => r.1).modWav fun v =>
    { v with scaleClamp := v.scaleClamp || r.2.1, peakLim := v.peakLim || r.2.2 }

theorem scaleGroup_wgs (s : State) (w : WgRec) : (scaleGroup s w).wav.wgs =
    (s.modWg w.wg fun _ => (scaleStep s w.wg (s.wg w.wg) (s.head w.head)).1).wav.wgs := rfl

theorem scaleGroup_wg_self (s : State) (w : WgRec) :
    (scaleGroup s w).wg w.wg = (scaleStep s w.wg (s.wg w.wg) (s.head w.head)).1 :=
  (State.wg_of_wgs (scaleGroup_wgs s w) _).trans (State.modWg_wg_self ..)

theorem scaleGroup_wg_of_ne (s : State) (w : WgRec) (k : Nat) (h : w.wg ≠ k) : (scaleGroup s w).wg k = s.wg k :=
  (State.wg_of_wgs (scaleGroup_wgs s w) k).trans (State.modWg_wg_of_ne h.symm ..)

section
variable {s : State} (hr : s.ringsRun = true) (t : Nat)
include hr

theorem exec_scaleUpdate {tb : StructTables} (htb : s.str.tables = some tb) (hon : s.isDisabled 0x06 0 = false) :
    exec (.scaleUpdate t) s = .next (after t s fun s =>
      tb.wgs.foldl scaleGroup (s.modWav fun v => { v with scaleClamp := false, peakLim := false })) := by
  refine (ringCmd_eq_after hr ?_ : execScaleUpdate t s = _)
  have hon' : (s.arrive t).isDisabled 0x06 0 = false := hon
  simp only [State.arrive_str, htb, hon']
  rfl

theorem exec_scaleUpdate_of_disabled (hoff : s.isDisabled 0x06 0 = true) :
    exec (.scaleUpdate t) s = .next (after t s id) := by
  refine (ringCmd_eq_after hr ?_ : execScaleUpdate t s = _)
  have hoff' : (s.arrive t).isDisabled 0x06 0 = true := hoff
  simp only [hoff', id]
  split
  · rfl
  · rfl
  · contradiction

theorem leaves_scaleUpdate {tb : StructTables} (htb : s.str.tables = some tb) (hon : s.isDisabled 0x06 0 = false)
    (hnd : (tb.wgs.map (·.wg)).Nodup) : Leaves (.scaleUpdate t) s fun s' =>
      (∀ w ∈ tb.wgs, (s.wg w.wg).ScalesTo (s'.wg w.wg) (s.head w.head).stale) ∧
      (∀ k, (∀ w ∈ tb.wgs, w.wg ≠ k) → s'.wg k = s.wg k) ∧ s'.regs = s.regs ∧ s'.jobs = s.jobs ∧
      SameMotion s s' := by
  refine ⟨_, exec_scaleUpdate hr t htb hon, fun w hw => ?_, fun k hk => ?_, ?_, ?_, ?_⟩
  · obtain ⟨y, hheads, hwg, hlast⟩ := foldl_at_key (g := State.wg) scaleGroup_wg_of_ne (P := fun y => y.head = s.head)
      (fun _ _ hs => hs) hnd hw (s := (s.arrive t).modWav fun v => { v with scaleClamp := false, peakLim := false }) rfl
    have hw' := hlast.trans (scaleGroup_wg_self y w)
    rw [hwg, hheads] at hw'
    exact (congrArg (fun x => (s.wg w.wg).ScalesTo x (s.head w.head).stale) hw').mpr (scalesTo_scaleStep ..)
  · exact foldl_at_of_ne (g := State.wg) scaleGroup_wg_of_ne hk _
  · exact foldl_leaves (g := State.regs) (f := scaleGroup) (fun _ _ => rfl) ..
  · exact foldl_leaves (g := State.jobs) (f := scaleGroup) (fun _ _ => rfl) ..
  · exact sameMotion_iff.mpr (foldl_leaves (g := State.motion) (f := scaleGroup) (fun _ _ => rfl) ..)

end

/-! ## TEMP_FRAME -/

/-- A head takes the entry of its port, unless that says that there is none (R195). -/
def takeTemp (temps : List Int) (s : State) (h : HeadRec) : State :=
  match temps[h.port]? with
  | some tp => if tp = -32768 then s else s.modHead h.head fun x => x.report tp s.now
  | none => s

/-- A head takes its entry by a report, or nothing happens. -/
theorem takeTemp_cases (temps : List Int) (s : State) (h : HeadRec) : takeTemp temps s h = s ∨
    ∃ tp, takeTemp temps s h = s.modHead h.head fun x => x.report tp s.now := by
  unfold takeTemp
  split
  · split_ifs
    · exact .inl rfl
    · exact .inr ⟨_, rfl⟩
  · exact .inl rfl

theorem takeTemp_head_of_ne (temps : List Int) (s : State) (h : HeadRec) (k : Nat) (hne : h.head ≠ k) :
    (takeTemp temps s h).head k = s.head k := by
  obtain heq | ⟨tp, heq⟩ := takeTemp_cases temps s h
  · rw [heq]
  · rw [heq, State.modHead_head_of_ne hne.symm]

theorem takeTemp_head_self {temps : List Int} {h : HeadRec} {tp : Int} (htp : temps[h.port]? = some tp) (hne : tp ≠ -32768)
    (s : State) : (takeTemp temps s h).head h.head = (s.head h.head).report tp s.now := by
  simp only [takeTemp, htp, if_neg hne, State.modHead_head_self]

/-- What does not read the waveform engine, the taking of a temperature leaves. -/
theorem takeTemp_leaves {β : Type} {g : State → β} (hg : ∀ s f, g (State.modWav s f) = g s) (temps : List Int) (s : State)
    (h : HeadRec) : g (takeTemp temps s h) = g s := by
  obtain heq | ⟨tp, heq⟩ := takeTemp_cases temps s h
  · rw [heq]
  · rw [heq, State.modHead, hg]

section
variable {s : State} (hr : s.ringsRun = true) (t : Nat)
include hr

theorem exec_tempFrame {tb : StructTables} (htb : s.str.tables = some tb) (hub : Fin 48) (temps : List Int) :
    exec (.tempFrame t hub temps) s = .next (after t s fun s =>
      (tb.heads.filter fun h => h.hub == hub.val).foldl (takeTemp temps) s) := by
  refine (ringCmd_eq_after hr ?_ : execTempFrame t hub temps s = _)
  simp only [State.arrive_str, htb]
  rfl

theorem exec_tempFrame_of_unloaded (htb : s.str.tables = none) (hub : Fin 48) (temps : List Int) :
    exec (.tempFrame t hub temps) s = .next (after t s id) :=
  (ringCmd_eq_after hr (by simp only [State.arrive_str, htb, id]) : execTempFrame t hub temps s = _)

theorem leaves_tempFrame {tb : StructTables} (htb : s.str.tables = some tb) (hnd : (tb.heads.map (·.head)).Nodup)
    (hub : Fin 48) (temps : List Int) : Leaves (.tempFrame t hub temps) s fun s' =>
      (∀ h ∈ tb.heads, h.hub = hub.val → ∀ tp, temps[h.port]? = some tp → tp ≠ -32768 →
        s'.head h.head = (s.head h.head).report tp (max s.now t)) ∧
      (∀ k, (∀ h ∈ tb.heads, h.hub = hub.val → h.head ≠ k) → s'.head k = s.head k) ∧ s'.regs = s.regs ∧
      s'.jobs = s.jobs ∧ SameMotion s s' := by
  have hmem : ∀ h, h ∈ tb.heads.filter (fun h => h.hub == hub.val) ↔ h ∈ tb.heads ∧ h.hub = hub.val := by simp
  refine ⟨_, exec_tempFrame hr t htb hub temps, fun h hh hhub tp htp hne => ?_, fun k hk => ?_, ?_, ?_, ?_⟩
  · have hnd' := hnd.sublist ((List.filter_sublist (p := fun h : HeadRec => h.hub == hub.val)).map (·.head))
    obtain ⟨y, hnow, hhead, hlast⟩ := foldl_at_key (g := State.head) (takeTemp_head_of_ne temps)
      (P := fun y => y.now = max s.now t) (fun s h hs => (takeTemp_leaves (g := State.now) (fun _ _ => rfl) temps s h).trans hs)
      hnd' ((hmem h).mpr ⟨hh, hhub⟩) (s := s.arrive t) rfl
    rw [takeTemp_head_self htp hne, hhead, hnow] at hlast
    exact hlast
  · refine foldl_at_of_ne (g := State.head) (takeTemp_head_of_ne temps) (fun h hh => ?_) _
    obtain ⟨hin, hhub⟩ := (hmem h).mp hh
    exact hk h hin hhub
  · exact foldl_leaves (g := State.regs) (takeTemp_leaves (fun _ _ => rfl) temps) ..
  · exact foldl_leaves (g := State.jobs) (takeTemp_leaves (fun _ _ => rfl) temps) ..
  · exact sameMotion_iff.mpr (foldl_leaves (g := State.motion) (takeTemp_leaves (fun _ _ => rfl) temps) ..)

/-! ## TEMP_STALE -/

theorem exec_tempStale_of_late {h : Fin 1024} (htemp : (s.head h).temp.isSome = true)
    (hlate : (s.head h).tempAt + 80000000 < max s.now t) :
    exec (.tempStale t h) s = .next (after t s fun s => s.modHead h fun x => { x with stale := true }) :=
  (ringCmd_eq_after hr (if_pos ⟨htemp, hlate⟩) : execTempStale t h s = _)

theorem exec_tempStale_of_early {h : Fin 1024} (hearly : max s.now t ≤ (s.head h).tempAt + 80000000) :
    exec (.tempStale t h) s = .next (after t s id) :=
  (ringCmd_eq_after hr (if_neg fun ⟨_, hlate⟩ => hearly.not_gt hlate) : execTempStale t h s = _)

/-! ## WAV_TEMP_LOST -/

theorem exec_wavTempLost_of_due {h : Fin 1024} (htemp : (s.head h).temp.isSome = true) (hlost : (s.head h).lost = false)
    (hdue : (s.head h).tempAt + 800000000 ≤ max s.now t) :
    exec (.wavTempLost t h) s = .next (after t s fun s =>
      alarm .wavTempLost h (s.modHead h fun x => { x with lost := true, stale := true })) :=
  (ringCmd_eq_after hr (if_pos ⟨htemp, (Bool.not_eq_true' _).mpr hlost, hdue⟩) : execWavTempLost t h s = _)

theorem exec_wavTempLost_of_lost {h : Fin 1024} (hlost : (s.head h).lost = true) :
    exec (.wavTempLost t h) s = .next (after t s id) :=
  (ringCmd_eq_after hr (if_neg fun ⟨_, hkept, _⟩ => Bool.noConfusion (hlost.symm.trans ((Bool.not_eq_true' _).mp hkept))) :
    execWavTempLost t h s = _)

theorem leaves_wavTempLost {h : Fin 1024} (htemp : (s.head h).temp.isSome = true) (hlost : (s.head h).lost = false)
    (hdue : (s.head h).tempAt + 800000000 ≤ max s.now t) : Leaves (.wavTempLost t h) s fun s' =>
      (s'.head h).lost = true ∧ (s'.head h).stale = true ∧ bitOf s' Reg.evtAlarmLatch 0 8 = true ∧ SameMotion s s' := by
  refine ⟨_, exec_wavTempLost_of_due hr t htemp hlost hdue, ?_⟩
  let marked := (s.arrive t).modHead h fun x => { x with lost := true, stale := true }
  have halarm : (alarm .wavTempLost h marked).sansReports = marked.sansReports := sansReports_alarm ..
  have hwav : (alarm .wavTempLost h marked).wav = marked.wav := eq_of_sansReports halarm (g := State.wav) fun _ => rfl
  have hhead : (alarm .wavTempLost h marked).head h = { s.head h with lost := true, stale := true } :=
    (State.head_of_heads (congrArg Wav.heads hwav) h).trans (State.modHead_head_self ..)
  exact ⟨congrArg HeadSt.lost hhead, congrArg HeadSt.stale hhead, alarm_bitOf .wavTempLost h marked,
    (sameMotion_of_sansReports halarm :)⟩

end

/-! ## The obligation -/

/-- Settles O25: table, group and head lists are read by key, so that a write at one key leaves the others; groups and heads of
the structure are visited once each, since their numbers differ. That a table never written reads as zeros is log entry 71,
and that TEMP is taken in any state of its lane is log entry 68. -/
theorem waves : Obligations.Waves := by
  constructor
  · intro t s hr
    refine ⟨leaves_wavTblWrite hr t, fun hnamed hm => ?_, fun hfree hidle hbad => ?_, fun hfree hbusy => ?_,
      leaves_wavTblRead hr t, fun w hm hidle => ?_, fun w hm => ?_, exec_waveformAckTimeout hr t⟩
    · exact exec_wavTblWrite_of_refused hr t (tblRefusals_of_named hnamed hm) (by decide)
    · exact exec_wavTblWrite_of_refused hr t (tblRefusals_of_refused hfree hidle hbad) (by decide)
    · exact exec_wavTblWrite_of_refused hr t (tblRefusals_of_busy hfree hbusy) (by decide)
    · exact leaves_wgActiveSlotWrite hr t w (wgRefusals_ok hm hidle)
    · exact exec_wgActiveSlotWrite_of_refused hr t w (wgRefusals_of_mode hm) (by decide)
  · intro t s hr
    refine ⟨fun tb htb hon hnd => leaves_scaleUpdate hr t htb hon hnd, exec_scaleUpdate_of_disabled hr t, ?_,
      fun hub temps htb => exec_tempFrame_of_unloaded hr t htb hub temps, fun _ => exec_tempStale_of_late hr t,
      fun _ => exec_tempStale_of_early hr t, fun _ => leaves_wavTempLost hr t, fun _ => exec_wavTempLost_of_lost hr t⟩
    intro tb hub temps htb hnd
    obtain ⟨s', hexec, hreport, hrest⟩ := leaves_tempFrame hr t htb hnd hub temps
    refine ⟨s', hexec, fun h hh hhub tp htp hne => ?_, hrest⟩
    rw [hreport h hh hhub tp htp hne]
    exact ⟨rfl, rfl, rfl, rfl, rfl⟩

end Sys2Proof.Machine
end

section
/-! Lanes and endpoints of the link (chapter 11): what sending, streaming and settling leave of them. -/
namespace Sys2Proof.Machine

open Sys2Proof.Claim

/-! ## Alarms -/

/-- An alarm writes the log path, register words, MSI-X pending bits and what leaves the block alone. -/
theorem alarmArgs_eq (a : Alarm) (inst : Nat) (a0 a1 a2 : Int) (s : State) : ∃ log regs pci out,
    alarmArgs a inst a0 a1 a2 s = { s with log := log, regs := regs, pci := pci, out := out } := by
  have hlatch : ∃ regs pci out, latchAlarm a.code s = { s with regs := regs, pci := pci, out := out } := by
    unfold latchAlarm State.msix
    simp only []
    split_ifs <;> exact ⟨_, _, _, rfl⟩
  obtain ⟨regs, pci, out, hlatch⟩ := hlatch
  unfold alarmArgs
  rw [hlatch]
  simp only []
  split_ifs <;> exact ⟨_, _, _, _, rfl⟩

theorem alarmArgs_xlk (a : Alarm) (inst : Nat) (a0 a1 a2 : Int) (s : State) : (alarmArgs a inst a0 a1 a2 s).xlk = s.xlk := by
  obtain ⟨log, regs, pci, out, h⟩ := alarmArgs_eq a inst a0 a1 a2 s
  rw [h]

/-- An alarm latches its bit, and says in EVT_STATUS when its record is lost. -/
theorem alarmArgs_regs (a : Alarm) (inst : Nat) (a0 a1 a2 : Int) (s : State) :
    (alarmArgs a inst a0 a1 a2 s).regs = (latchAlarm a.code s).regs ∨
      (alarmArgs a inst a0 a1 a2 s).regs = ((latchAlarm a.code s).setFld Reg.evtStatus 0 1 1 1).regs := by
  unfold alarmArgs
  simp only []
  split_ifs
  · exact .inl rfl
  · exact .inl rfl
  · exact .inl rfl
  · exact .inr rfl

theorem alarmArgs_bitOf (a : Alarm) (inst : Nat) (a0 a1 a2 : Int) (s : State) :
    bitOf (alarmArgs a inst a0 a1 a2 s) Reg.evtAlarmLatch (a.code / 32) (a.code % 32) = true := by
  have hstatus : Reg.evtAlarmLatch.addr (a.code / 32) ≠ Reg.evtStatus.addr 0 := by
    simp only [RegSpec.addr, Reg.evtAlarmLatch, Reg.evtStatus]
    omega
  rw [← latchAlarm_bitOf s, bitOf, bitOf]
  obtain h | h := alarmArgs_regs a inst a0 a1 a2 s
  · rw [rd_of_regs h]
  · rw [rd_of_regs h, State.setFld, rd_wr_of_ne hstatus]

/-- What has left the block before an alarm is raised stays. -/
theorem out_prefix_alarmArgs (a : Alarm) (inst : Nat) (a0 a1 a2 : Int) (s : State) :
    s.out <+: (alarmArgs a inst a0 a1 a2 s).out := by
  have hlatch : s.out <+: (latchAlarm a.code s).out := by
    unfold latchAlarm State.msix
    simp only []
    split_ifs
    · exact List.prefix_rfl
    · exact List.prefix_rfl
    · exact List.prefix_append ..
  unfold alarmArgs
  simp only []
  split_ifs <;> exact hlatch

/-! ## The view -/

/-- Replacing an element by one of the same image leaves the images. -/
theorem map_upd_of_keeps {α β : Type} {n : Nat} {f : α → α} {g : α → β} (h : ∀ x, g (f x) = g x) (v : Vector α n)
    (i : Fin n) : (upd v i f).map g = v.map g := by
  ext j hj
  by_cases hij : i.val = j
  · subst hij
    simp [upd, h]
  · simp [upd, Vector.getElem_set_ne, hij]

/-- The lanes' states, what each endpoint has said in STATUS, the takeovers under way, and the motion hardware. -/
structure LinkView where
  states : Vector LaneSt 64
  reports : Vector (Bool × Bool × Nat) 64
  takeovers : Vector (Option Nat) 64
  motion : MotionHardware

/-- What an endpoint has said in STATUS: ARMED, SYNCED and the epoch it accepts. -/
def Endpoint.report (p : Endpoint) : Bool × Bool × Nat := (p.armed, p.synced, p.accEpoch)

/-- The view of a state. -/
def State.linkView (s : State) : LinkView :=
  { states := s.mlk.lanes.map (·.st), reports := s.mlk.eps.map (·.report), takeovers := s.mlk.eps.map (·.takeoverAt),
    motion := s.motion }

section
variable {s s' : State} (h : s'.linkView = s.linkView)
include h

theorem laneSt_of_linkView (l : Fin 64) : (s'.mlk.lanes[l]).st = (s.mlk.lanes[l]).st := by
  simpa [State.linkView] using congrArg (·.states[l]) h

theorem report_of_linkView (e : Fin 64) : (s'.mlk.eps[e]).report = (s.mlk.eps[e]).report := by
  simpa [State.linkView] using congrArg (·.reports[e]) h

theorem takeover_of_linkView (e : Fin 64) : (s'.mlk.eps[e]).takeoverAt = (s.mlk.eps[e]).takeoverAt := by
  simpa [State.linkView] using congrArg (·.takeovers[e]) h

theorem sameMotion_of_linkView : SameMotion s s' := sameMotion_iff.mpr (congrArg LinkView.motion h)

end

theorem linkView_modLane {f : Lane → Lane} (h : ∀ x, (f x).st = x.st := by exact fun _ => rfl) {l : Fin 64} {s : State} :
    (s.modLane l f).linkView = s.linkView :=
  congrArg (fun v => { s.linkView with states := v }) (map_upd_of_keeps h s.mlk.lanes l)

theorem linkView_modEp {f : Endpoint → Endpoint} (hrep : ∀ p, (f p).report = p.report := by exact fun _ => rfl)
    (htake : ∀ p, (f p).takeoverAt = p.takeoverAt := by exact fun _ => rfl) {e : Fin 64} {s : State} : (s.modEp e f).linkView = s.linkView := by
  simp only [State.linkView, State.modEp, map_upd_of_keeps hrep, map_upd_of_keeps htake]
  rfl

theorem linkView_of_sansReports {s s' : State} (h : s'.sansReports = s.sansReports) : s'.linkView = s.linkView :=
  eq_of_sansReports h (g := State.linkView) fun _ => rfl

theorem linkView_of_sansSettling {ctx : Fin 64} {s s' : State} (h : s'.sansSettling ctx = s.sansSettling ctx) :
    s'.linkView = s.linkView :=
  eq_of_sansSettling h (g := State.linkView) fun _ => rfl

/-! ## Sending -/

theorem linkView_emit (s : State) (o : Out) : (s.emit o).linkView = s.linkView := rfl

theorem linkView_pushRel (l : Fin 64) (f : MlkTx) (s : State) : (pushRel l f s).linkView = s.linkView := by
  unfold pushRel
  simp only []
  split
  · exact (linkView_emit ..).trans (linkView_modLane)
  · exact linkView_modLane

theorem linkView_sendHubRel (h : EndpointRec) (f : MlkTx) (s : State) : (sendHubRel h f s).linkView = s.linkView := by
  unfold sendHubRel
  split
  · exact linkView_pushRel ..
  · rfl

theorem linkView_sendCourse (cells : List WaleOut) (h : HeadRec) (slot : Nat) (s : State) :
    (sendCourse cells h slot s).linkView = s.linkView := by
  unfold sendCourse
  split
  · rfl
  · simp only []
    split
    · rfl
    · exact (linkView_emit ..).trans (linkView_modLane)

theorem linkView_numberSlot (h : Nat) (s : State) : (numberSlot h s).2.linkView = s.linkView :=
  linkView_modEp

/-- Streaming a hub's waiting slots again numbers slots and sends frames. -/
theorem linkView_restream (tb : StructTables) (hub : Nat) (s : State) : (restream tb hub s).linkView = s.linkView := by
  refine foldl_leaves (fun s x => ?_) _ s
  refine (foldl_leaves (fun s h => linkView_sendCourse ..) _ _).trans ?_
  exact linkView_numberSlot hub s

end Sys2Proof.Machine
end

section
/-! Confirmed and unconfirmed slots (R222, R371, R374), and lanes that go down (R208, R210). -/
namespace Sys2Proof.Machine

open Sys2Proof.Claim

/-! ## Register words -/

/-- The register words but for the counters of dropped reports. -/
def State.words (s : State) (k : Nat) : Option Word := if reportKey k then none else regLookup k s.regs

theorem words_of_reported {s s' : State} (h : Reported s s') : s'.words = s.words := by
  funext k
  unfold State.words
  split
  · rfl
  · next hk => exact h.words k (Bool.eq_false_iff.mpr hk)

theorem rd_of_words {s s' : State} (h : s'.words = s.words) {r : RegSpec} {i : Nat} (hk : reportKey (r.addr i) = false) :
    s'.rd r i = s.rd r i := by
  have hword : ∀ x : State, x.words (r.addr i) = regLookup (r.addr i) x.regs := fun x => by
    rw [State.words, hk]
    rfl
  rw [State.rd, State.rd, ← hword, ← hword, h]

/-! ## A planned swap ends -/

/-- The member that offered a planned swap has ended it: it is the dummy, with its axes parked. -/
def swapEnded (w : Swap) (s : State) : State :=
  let s := (sendXlk s.peerAddr (.swap w.x w.epoch .done) s).modXlk fun x =>
    { x with role := .dummy, swap := none, unfit := BitVec.ofNat 64 x.peerUnfit, checked := BitVec.allOnes 64,
             peerEpoch := w.epoch }
  parkAxes (s.modMlk fun m => { m with holds := false, epoch := w.epoch })

theorem swapDone_cases (s : State) : swapDone s = s ∨
    ∃ w, swapDone s = swapEnded w s ∨ swapDone s = complete .supervisor .ok w.epoch (swapEnded w s) := by
  unfold swapDone
  split
  · split
    · simp only []
      split
      · exact .inr ⟨_, .inr rfl⟩
      · exact .inr ⟨_, .inl rfl⟩
    · exact .inl rfl
  · exact .inl rfl

theorem parkAxes_leaves (s : State) :
    (parkAxes s).pac = s.pac ∧ (parkAxes s).mlk = s.mlk ∧ (parkAxes s).words = s.words := ⟨rfl, rfl, rfl⟩

theorem swapEnded_leaves (w : Swap) (s : State) : (swapEnded w s).pac = s.pac ∧
    (swapEnded w s).mlk.lanes = s.mlk.lanes ∧ (swapEnded w s).words = s.words := by
  let sent := sendXlk s.peerAddr (.swap w.x w.epoch .done) s
  have hsend : sent.sansReports = s.sansReports := sansReports_sendXlk ..
  have hpac : sent.pac = s.pac := eq_of_sansReports hsend (g := State.pac) fun _ => rfl
  have hlanes : sent.mlk.lanes = s.mlk.lanes := eq_of_sansReports hsend (g := fun x => x.mlk.lanes) fun _ => rfl
  have hwords : sent.words = s.words := words_of_reported (reported_sendXlk ..)
  obtain ⟨hpac', hmlk', hwords'⟩ := parkAxes_leaves ((sent.modXlk fun x =>
    { x with role := .dummy, swap := none, unfit := BitVec.ofNat 64 x.peerUnfit, checked := BitVec.allOnes 64,
             peerEpoch := w.epoch }).modMlk fun m => { m with holds := false, epoch := w.epoch })
  exact ⟨hpac'.trans hpac, (congrArg Mlk.lanes hmlk').trans hlanes, hwords'.trans hwords⟩

/-- The end of a planned swap leaves the slots, the lanes and the register words. -/
theorem swapDone_leaves (s : State) :
    (swapDone s).pac = s.pac ∧ (swapDone s).mlk.lanes = s.mlk.lanes ∧ (swapDone s).words = s.words := by
  obtain h | ⟨w, h | h⟩ := swapDone_cases s
  · rw [h]
    exact ⟨rfl, rfl, rfl⟩
  · rw [h]
    exact swapEnded_leaves w s
  · obtain ⟨hpac, hlanes, hwords⟩ := swapEnded_leaves w s
    have hregs := complete_regs .supervisor .ok w.epoch (swapEnded w s)
    rw [h, complete_pac, complete_mlk, ← hwords]
    exact ⟨hpac, hlanes, funext fun k => by rw [State.words, hregs, State.words]⟩

/-! ## A hub is done with a slot -/

/-- A slot that a hub need not confirm any more. -/
def FireSlot.without (x : FireSlot) (hub : Nat) : FireSlot := { x with unconfirmed := x.unconfirmed.filter (· != hub) }

theorem FireSlot.not_mem_without (x : FireSlot) (hub : Nat) : (x.without hub).unconfirmed.contains hub = false := by
  simp [FireSlot.without]

/-- A fired slot that its last hub has confirmed, gone from the pacer and confirmed to the dummy. -/
def slotConfirmed (x : FireSlot) (s : State) : State :=
  mirror (.confirm x.plane x.row x.ctx x.course)
    (s.modPac fun p => { p with slots := p.slots.filter fun z => !x.same z })

theorem hubDone_cases (x : FireSlot) (hub : Nat) (s : State) : hubDone x hub s = putSlot (x.without hub) s ∨
    hubDone x hub s = swapDone (settleJob (Fin.ofNat 64 x.ctx) (slotConfirmed x s)) := by
  unfold hubDone
  simp only []
  split
  · exact .inr rfl
  · exact .inl rfl

/-- A hub's confirmation leaves the lanes and the register words. -/
theorem hubDone_leaves (x : FireSlot) (hub : Nat) (s : State) :
    (hubDone x hub s).mlk.lanes = s.mlk.lanes ∧ (hubDone x hub s).words = s.words := by
  obtain h | h := hubDone_cases x hub s
  · rw [h]
    exact ⟨rfl, rfl⟩
  · obtain ⟨-, hlanes, hwords⟩ := swapDone_leaves (settleJob (Fin.ofNat 64 x.ctx) (slotConfirmed x s))
    have hsettle := eq_of_sansSettling (sansSettling_settleJob (Fin.ofNat 64 x.ctx) (slotConfirmed x s))
      (g := fun x => x.mlk.lanes) fun _ => rfl
    have hmirror : (slotConfirmed x s).mlk.lanes = s.mlk.lanes :=
      eq_of_sansReports (sansReports_mirror ..) (g := fun x => x.mlk.lanes) fun _ => rfl
    have hreport : Reported s (slotConfirmed x s) := by
      unfold slotConfirmed mirror
      split
      · exact Reported.of_same (reported_sendXlk ..) rfl rfl
      · exact .of_eq rfl rfl
    rw [h, hlanes, hwords, hsettle, hmirror, words_of_reported (reported_settleJob ..), words_of_reported hreport]
    exact ⟨rfl, rfl⟩

/-- No slot of the identity waits for the hub any more. -/
theorem hubDone_confirmed {x y : FireSlot} {hub : Nat} {s : State} (hy : y ∈ (hubDone x hub s).pac.slots)
    (hsame : y.same x = true) : y.unconfirmed.contains hub = false := by
  obtain h | h := hubDone_cases x hub s
  · rw [h] at hy
    obtain ⟨z, -, rfl⟩ := List.mem_map.mp hy
    by_cases hxz : (x.without hub).same z = true
    · rw [if_pos hxz]
      exact x.not_mem_without hub
    · rw [if_neg hxz] at hsame
      exact absurd (FireSlot.same_iff.mpr (FireSlot.same_iff.mp hsame).symm) hxz
  · exfalso
    obtain ⟨hpac, -, -⟩ := swapDone_leaves (settleJob (Fin.ofNat 64 x.ctx) (slotConfirmed x s))
    have hsettle := pac_of_sansSettling (sansSettling_settleJob (Fin.ofNat 64 x.ctx) (slotConfirmed x s))
    have hslots : (slotConfirmed x s).pac.slots = s.pac.slots.filter fun z => !x.same z :=
      eq_of_sansReports (sansReports_mirror ..) (g := fun x => x.pac.slots) fun _ => rfl
    rw [h, hpac, hsettle, hslots, List.mem_filter] at hy
    have hback : x.same y = true := FireSlot.same_iff.mpr (FireSlot.same_iff.mp hsame).symm
    simp [hback] at hy

/-! ## A slot is unconfirmed -/

/-- An unconfirmed slot is counted in MLK_FAULT of its plane and noted, and its hub is done with it. -/
theorem unconfirm_eq (x : FireSlot) (hub : Nat) (s : State) : ∃ y : State, unconfirm x hub s = hubDone x hub y ∧
    y.pac = s.pac ∧ y.mlk.lanes = s.mlk.lanes ∧ y.words = (s.count Reg.mlkFault x.plane).words := by
  unfold unconfirm
  extract_lets e num f heads on s₁ s₂ cause s₃
  obtain ⟨jobs, hflag⟩ := flagWales_eq (Fin.ofNat 64 x.ctx) (Fin.ofNat 8 x.plane) x.course 2 (on.map (·.1)) s₃
  obtain ⟨log, regs, hdiag⟩ := diag_eq .slotFault hub num x.course (x.plane + 256 * x.row + 65536 * cause : Nat) s₂
  have hwords : s₃.words = s₂.words := words_of_reported (reported_diag ..)
  have hs₃ : s₃ = { s₂ with log := log, regs := regs } := hdiag
  refine ⟨_, rfl, ?_, ?_, ?_⟩
  · rw [hflag, hs₃]
    rfl
  · rw [hflag, hs₃]
    rfl
  · rw [hflag]
    exact hwords

theorem unconfirm_leaves (x : FireSlot) (hub : Nat) (s : State) : (unconfirm x hub s).mlk.lanes = s.mlk.lanes ∧
    (unconfirm x hub s).words = (s.count Reg.mlkFault x.plane).words := by
  obtain ⟨y, heq, -, hlanes, hwords⟩ := unconfirm_eq x hub s
  obtain ⟨hlanes', hwords'⟩ := hubDone_leaves x hub y
  rw [heq, hlanes', hwords']
  exact ⟨hlanes, hwords⟩

/-- A slot that is unconfirmed no longer waits for the hub. -/
theorem unconfirm_confirmed {x y : FireSlot} {hub : Nat} {s : State} (hy : y ∈ (unconfirm x hub s).pac.slots)
    (hsame : y.same x = true) : y.unconfirmed.contains hub = false := by
  obtain ⟨z, heq, -⟩ := unconfirm_eq x hub s
  rw [heq] at hy
  exact hubDone_confirmed hy hsame

theorem mlkFault_not_report {p : Nat} (h : p < 8) : reportKey (Reg.mlkFault.addr p) = false := by
  refine decide_eq_false ?_
  simp only [RegSpec.addr, Reg.mlkFault]
  omega

/-- A slot that is unconfirmed is counted once in MLK_FAULT of its plane. -/
theorem unconfirm_fault {x : FireSlot} (hp : x.plane < 8) (hub : Nat) (s : State) :
    ((unconfirm x hub s).rd Reg.mlkFault x.plane).toNat = min ((s.rd Reg.mlkFault x.plane).toNat + 1) 0xFFFFFFFF := by
  obtain ⟨-, hwords⟩ := unconfirm_leaves x hub s
  rw [rd_of_words hwords (mlkFault_not_report hp), rd_count rfl]

/-! ## Lanes go down -/

/-- The lanes, and the alarm latches. -/
def State.lanesAndLatch (s : State) : Vector Lane 64 × Word := (s.mlk.lanes, s.rd Reg.evtAlarmLatch 0)

theorem unconfirm_lanesAndLatch (x : FireSlot) (hub : Nat) (s : State) :
    (unconfirm x hub s).lanesAndLatch = s.lanesAndLatch := by
  obtain ⟨hlanes, hwords⟩ := unconfirm_leaves x hub s
  have hne : Reg.evtAlarmLatch.addr 0 ≠ Reg.mlkFault.addr x.plane := by
    simp only [RegSpec.addr, Reg.evtAlarmLatch, Reg.mlkFault]
    omega
  have hlatch : (unconfirm x hub s).rd Reg.evtAlarmLatch 0 = s.rd Reg.evtAlarmLatch 0 := by
    rw [rd_of_words hwords (by decide), State.count, rd_wr_of_ne hne]
  rw [State.lanesAndLatch, hlanes, hlatch, State.lanesAndLatch]

theorem loseSlots_lanesAndLatch (hub : Nat) (s : State) : (loseSlots hub s).lanesAndLatch = s.lanesAndLatch := by
  refine foldl_leaves (fun s x => ?_) _ s
  split
  · exact unconfirm_lanesAndLatch ..
  · rfl

/-- A lane that was not READY goes down and nothing else happens. -/
theorem laneDown_of_not_ready {l : Fin 64} {s : State} (h : (s.mlk.lanes[l]).st ≠ .ready) :
    laneDown l s = s.modLane l fun x => x.goDown s.now := by
  unfold laneDown
  simp only []
  split
  · contradiction
  · rfl

/-- A lane that goes down leaves the other lanes. -/
theorem laneDown_lanes (l : Fin 64) (s : State) :
    (laneDown l s).mlk.lanes = upd s.mlk.lanes l fun x => x.goDown s.now := by
  unfold laneDown
  extract_lets was s₁
  split
  case h_1 e _ =>
    extract_lets s₂
    have halarm : s₂.mlk = s₁.mlk := eq_of_sansReports (sansReports_alarmArgs ..) (g := State.mlk) fun _ => rfl
    split
    · exact (congrArg Prod.fst (loseSlots_lanesAndLatch ..)).trans (congrArg Mlk.lanes halarm)
    · exact congrArg Mlk.lanes halarm
  · rfl

/-- A lane of an endpoint that was READY raises MLK_LINK_DOWN as it goes down. -/
theorem laneDown_bitOf {l : Fin 64} {e : EndpointRec} {s : State} (hready : (s.mlk.lanes[l]).st = .ready)
    (he : s.laneEp l = some e) : bitOf (laneDown l s) Reg.evtAlarmLatch 0 13 = true := by
  have he' : (s.modLane l fun x => x.goDown s.now).laneEp l = some e := he
  have halarm := alarmArgs_bitOf .mlkLinkDown l e.idx 0 0 (s.modLane l fun x => x.goDown s.now)
  unfold laneDown
  simp only [hready, he']
  split
  · exact (congrArg (fun v => v.2.getLsbD 13) (loseSlots_lanesAndLatch ..)).trans halarm
  · exact halarm

end Sys2Proof.Machine
end

section
/-! Retransmission, time exchanges, keepalive and position on the link (R210, R214, R215, R217, R225, R226), and obligation
O28. -/
namespace Sys2Proof.Machine

open Sys2Proof.Claim

/-- What a command leaves depends on its effect on the state at arrival alone. -/
theorem next_after_congr {t : Nat} {s : State} {f g : State → State} (h : f (s.arrive t) = g (s.arrive t)) :
    (.next (after t s f) : Res) = .next (after t s g) := congrArg Host.Outcome.next (after_congr h)

/-! ## REL_RETRANSMIT -/

section
variable {s : State} (hr : s.ringsRun = true) (t : Nat) {l : Fin 64} (hport : lanePort s l = none)
include hr hport

/-- On a lane of the link the oldest unacknowledged frame decides. -/
theorem exec_relRetransmit {r : RelFrame} {rest : List RelFrame} (hrel : (s.mlk.lanes[l]).relOut = r :: rest) :
    exec (.relRetransmit t l) s = .next (after t s fun s =>
      if s.now < r.sentAt + 400000 then s
      else if 16 ≤ r.tries then alarm .mlkLinkReset l (laneDown l s)
      else (s.modLane l fun x => { x with relOut := { r with sentAt := s.now, tries := r.tries + 1 } :: rest }).emit
        (.mlk l r.frame)) := by
  refine (ringCmd_eq_after hr ?_ : execRelRetransmit t l s = _)
  have hport' : lanePort (s.arrive t) l = none := hport
  have hrel' : ((s.arrive t).mlk.lanes[l]).relOut = r :: rest := hrel
  simp only [hport', hrel']
  rfl

theorem exec_relRetransmit_of_early {r : RelFrame} {rest : List RelFrame} (hrel : (s.mlk.lanes[l]).relOut = r :: rest)
    (hearly : max s.now t < r.sentAt + 400000) : exec (.relRetransmit t l) s = .next (after t s id) :=
  (exec_relRetransmit hr t hport hrel).trans (next_after_congr (if_pos hearly))

theorem exec_relRetransmit_of_due {r : RelFrame} {rest : List RelFrame} (hrel : (s.mlk.lanes[l]).relOut = r :: rest)
    (hdue : r.sentAt + 400000 ≤ max s.now t) (htries : r.tries < 16) :
    exec (.relRetransmit t l) s = .next (after t s fun s =>
      (s.modLane l fun x => { x with relOut := { r with sentAt := s.now, tries := r.tries + 1 } :: rest }).emit
        (.mlk l r.frame)) :=
  (exec_relRetransmit hr t hport hrel).trans
    (next_after_congr ((if_neg hdue.not_gt).trans (if_neg htries.not_ge)))

/-- A lane whose oldest frame has been sent 16 times again without success goes down. -/
theorem leaves_relRetransmit_of_failed {r : RelFrame} {rest : List RelFrame} (hrel : (s.mlk.lanes[l]).relOut = r :: rest)
    (hdue : r.sentAt + 400000 ≤ max s.now t) (htries : 16 ≤ r.tries) : Leaves (.relRetransmit t l) s fun s' =>
      (s'.mlk.lanes[l]).st = .down ∧ (s'.mlk.lanes[l]).relOut = [] ∧ bitOf s' Reg.evtAlarmLatch 0 14 = true := by
  have hexec : exec (.relRetransmit t l) s = .next (after t s fun s => alarm .mlkLinkReset l (laneDown l s)) :=
    (exec_relRetransmit hr t hport hrel).trans
      (next_after_congr ((if_neg hdue.not_gt).trans (if_pos htries)))
  refine ⟨_, hexec, ?_⟩
  have halarm : (alarm .mlkLinkReset l (laneDown l (s.arrive t))).mlk = (laneDown l (s.arrive t)).mlk :=
    eq_of_sansReports (sansReports_alarm ..) (g := State.mlk) fun _ => rfl
  have hlanes := (congrArg Mlk.lanes halarm).trans (laneDown_lanes l (s.arrive t))
  have hlane : (alarm .mlkLinkReset l (laneDown l (s.arrive t))).mlk.lanes[l] = (s.mlk.lanes[l]).goDown (max s.now t) := by
    rw [hlanes]
    exact upd_getElem_self ..
  exact ⟨congrArg Lane.st hlane, congrArg Lane.relOut hlane, alarm_bitOf .mlkLinkReset l (laneDown l (s.arrive t))⟩

theorem exec_relRetransmit_of_nil (hrel : (s.mlk.lanes[l]).relOut = []) :
    exec (.relRetransmit t l) s = .next (after t s id) := by
  refine (ringCmd_eq_after hr ?_ : execRelRetransmit t l s = _)
  have hport' : lanePort (s.arrive t) l = none := hport
  have hrel' : ((s.arrive t).mlk.lanes[l]).relOut = [] := hrel
  simp only [hport', hrel', id]

end

/-! ## Time exchanges -/

section
variable {s : State} (hr : s.ringsRun = true) (t : Nat) (l : Fin 64)
include hr

theorem exec_syncSend (hcarries : carriesTime s l = true) : exec (.syncSend t l) s = .next (after t s fun s =>
    (s.modLane l fun x => { x with exchange := some ⟨(s.mlk.lanes[l]).syncN, s.press⟩,
                                   syncN := ((s.mlk.lanes[l]).syncN + 1) % 2 ^ 32 }).emit
      (.mlk l (.sync (s.mlk.lanes[l]).syncN s.press))) := by
  have hcarries' : carriesTime (s.arrive t) l = true := hcarries
  refine (ringCmd_eq_after hr ?_ : execSyncSend t l s = _)
  exact if_pos hcarries'

theorem exec_syncSend_of_silent (hsilent : carriesTime s l = false) : exec (.syncSend t l) s = .next (after t s id) := by
  have hsilent' : ¬carriesTime (s.arrive t) l = true := Bool.eq_false_iff.mp hsilent
  refine (ringCmd_eq_after hr ?_ : execSyncSend t l s = _)
  exact if_neg hsilent'

theorem exec_syncRespFrame {n t1 : Nat} (hopen : (s.mlk.lanes[l]).exchange = some ⟨n, t1⟩) (h2 h3 t4 : Nat) :
    exec (.syncRespFrame t l n h2 h3 t4) s = .next (after t s fun s =>
      (s.modLane l fun y => { y with rtt := unsigned 32 (((t4 : Int) - t1) - ((h3 : Int) - h2)), exchange := none }).emit
        (.mlk l (.follow n (signed 32 (s.rd Reg.mlkAsym l).toNat) t4))) := by
  refine (ringCmd_eq_after hr ?_ : execSyncRespFrame t l n h2 h3 t4 s = _)
  have hopen' : ((s.arrive t).mlk.lanes[l]).exchange = some ⟨n, t1⟩ := hopen
  simp only [hopen', if_true]

theorem exec_syncRespFrame_of_none (hnone : (s.mlk.lanes[l]).exchange = none) (n h2 h3 t4 : Nat) :
    exec (.syncRespFrame t l n h2 h3 t4) s = .next (after t s id) := by
  refine (ringCmd_eq_after hr ?_ : execSyncRespFrame t l n h2 h3 t4 s = _)
  have hnone' : ((s.arrive t).mlk.lanes[l]).exchange = none := hnone
  simp only [hnone', id]

end

/-! ## Frames that change nothing else -/

/-- A frame for each of a list of receivers, which does not depend on what has left the block, is let out and nothing else
happens. -/
theorem foldl_emit_eq {α : Type} {f : State → α → Out} (hf : ∀ s o x, f (State.emit s o) x = f s x) (l : List α)
    (s : State) : l.foldl (fun s x => s.emit (f s x)) s = { s with out := s.out ++ l.map (f s) } := by
  induction l generalizing s with
  | nil => simp
  | cons x l ih =>
    rw [List.foldl_cons, ih, funext (hf s (f s x))]
    simp [State.emit]

/-- The POSREF of a bridge. -/
def posref (s : State) (e : EndpointRec) : Out :=
  .mlk e.lane0 (.posref s.press (floorDiv (masterNow s) 65536) (webSpeed s))

/-- A NAKed frame is sent again or not. -/
theorem resendCourse_eq (tb : StructTables) (l : Fin 64) (cseq : Nat) (s : State) :
    ∃ o, resendCourse tb l cseq s = { s with out := s.out ++ o } ∧ o.length ≤ 1 := by
  have hnone : ∃ o, s = { s with out := s.out ++ o } ∧ o.length ≤ 1 := ⟨[], by simp, by simp⟩
  unfold resendCourse
  split
  · exact hnone
  · split
    · exact hnone
    · split
      · exact hnone
      · split
        · exact ⟨[_], rfl, le_rfl⟩
        · exact hnone

theorem foldl_resendCourse_eq (tb : StructTables) (l : Fin 64) (cseqs : List Nat) (s : State) :
    ∃ o, cseqs.foldl (fun s c => resendCourse tb l c s) s = { s with out := s.out ++ o } ∧ o.length ≤ cseqs.length := by
  induction cseqs generalizing s with
  | nil => exact ⟨[], by simp, le_rfl⟩
  | cons c cseqs ih =>
    obtain ⟨o, hc, ho⟩ := resendCourse_eq tb l c s
    obtain ⟨o', hrest, ho'⟩ := ih (resendCourse tb l c s)
    refine ⟨o ++ o', ?_, ?_⟩
    · rw [List.foldl_cons, hrest, hc, List.append_assoc]
    · simp only [List.length_append, List.length_cons]
      omega

section
variable {s : State} (hr : s.ringsRun = true) (t : Nat)
include hr

theorem exec_keepaliveSend {hub : Fin 48} {e : EndpointRec} (he : s.epRec hub = some e)
    (hcarries : carriesTime s e.lane0 = true) :
    exec (.keepaliveSend t hub) s = .next (after t s fun s => s.emit (.hub hub .keepalive)) := by
  refine (ringCmd_eq_after hr ?_ : execKeepaliveSend t hub s = _)
  have he' : (s.arrive t).epRec hub = some e := he
  have hcarries' : carriesTime (s.arrive t) e.lane0 = true := hcarries
  simp only [he', hcarries', if_true]

theorem exec_posrefSend : ∃ o, exec (.posrefSend t) s = .next (after t s fun s => { s with out := s.out ++ o }) ∧
    o.length = (s.endpoints.filter fun e => e.kind == 2 && epReady s e).length := by
  refine ⟨_, (ringCmd_eq_after hr ?_ : execPosrefSend t s = _), List.length_map (posref (s.arrive t))⟩
  exact foldl_emit_eq (f := posref) (fun _ _ _ => rfl) _ (s.arrive t)

theorem exec_nakFrame (l : Fin 64) (cseq count : Nat) : ∃ o,
    exec (.nakFrame t l cseq count) s = .next (after t s fun s => { s with out := s.out ++ o }) ∧
      o.length ≤ min count 256 := by
  cases htb : s.str.tables with
  | none =>
    refine ⟨[], (ringCmd_eq_after hr ?_ : execNakFrame t l cseq count s = _), Nat.zero_le _⟩
    have htb' : (s.arrive t).str.tables = none := htb
    simp only [htb', List.append_nil]
  | some tb =>
    obtain ⟨o, hfold, ho⟩ := foldl_resendCourse_eq tb l
      ((List.range (min count 256)).map fun i => (cseq + i) % 65536) (s.arrive t)
    refine ⟨o, (ringCmd_eq_after hr ?_ : execNakFrame t l cseq count s = _), by simpa using ho⟩
    rw [List.foldl_map] at hfold
    have htb' : (s.arrive t).str.tables = some tb := htb
    simp only [htb', hfold]

/-! ## ENDPOINT_MISSING -/

theorem leaves_endpointMissing {ep : Fin 64} {e : EndpointRec} (he : s.epRec ep = some e) (hready : epReady s e = false)
    (hdue : s.mlk.activatedAt + 8000000000 ≤ max s.now t) (huid : (s.mlk.eps[ep]).uid = 0)
    (hnew : (s.mlk.eps[ep]).missingRaised = false) : Leaves (.endpointMissing t ep) s fun s' =>
      (s'.mlk.eps[ep]).missingRaised = true ∧ bitOf s' Reg.evtAlarmLatch 0 12 = true ∧ SameMotion s s' ∧
      s'.jobs = s.jobs := by
  let marked := (s.arrive t).modEp ep fun p => { p with missingRaised := true }
  have hexec : exec (.endpointMissing t ep) s = .next (after t s fun s =>
      alarm .mlkEndpointMissing ep (s.modEp ep fun p => { p with missingRaised := true })) := by
    refine (ringCmd_eq_after hr ?_ : execEndpointMissing t ep s = _)
    have he' : (s.arrive t).epRec ep = some e := he
    simp only [he']
    exact if_pos ⟨by rw [show epReady (s.arrive t) e = false from hready]; rfl, hdue,
      by rw [State.arrive_mlk, hnew]; rfl, huid⟩
  have halarm : (alarm .mlkEndpointMissing ep marked).sansReports = marked.sansReports := sansReports_alarm ..
  have hmlk : (alarm .mlkEndpointMissing ep marked).mlk = marked.mlk :=
    eq_of_sansReports halarm (g := State.mlk) fun _ => rfl
  have hep : marked.mlk.eps[ep] = { s.mlk.eps[ep] with missingRaised := true } := upd_getElem_self ..
  refine ⟨_, hexec, ?_, alarm_bitOf .mlkEndpointMissing ep marked, (sameMotion_of_sansReports halarm :),
    (jobs_of_sansReports halarm :)⟩
  exact (congrArg (fun m => (m.eps[ep]).missingRaised) hmlk).trans (congrArg Endpoint.missingRaised hep)

theorem exec_endpointMissing_of_raised {ep : Fin 64} {e : EndpointRec} (he : s.epRec ep = some e)
    (hraised : (s.mlk.eps[ep]).missingRaised = true) : exec (.endpointMissing t ep) s = .next (after t s id) := by
  refine (ringCmd_eq_after hr ?_ : execEndpointMissing t ep s = _)
  have he' : (s.arrive t).epRec ep = some e := he
  simp only [he']
  refine if_neg fun ⟨_, _, hnew, _⟩ => ?_
  rw [State.arrive_mlk, hraised] at hnew
  exact Bool.noConfusion hnew

end

/-! ## The obligation -/

/-- Settles O28: each clause is the meaning of its command under the clause's conditions; a lane that gives up a frame goes
down and drops its frames. -/
theorem linkTraffic : Obligations.LinkTraffic := by
  intro t l s hr
  refine ⟨fun r rest hport hrel => ⟨exec_relRetransmit_of_early hr t hport hrel, exec_relRetransmit_of_due hr t hport hrel,
      leaves_relRetransmit_of_failed hr t hport hrel⟩, exec_relRetransmit_of_nil hr t, exec_syncSend hr t l,
    exec_syncSend_of_silent hr t l, fun n h2 h3 t4 t1 hopen => exec_syncRespFrame hr t l hopen h2 h3 t4,
    fun n h2 h3 t4 hnone => exec_syncRespFrame_of_none hr t l hnone n h2 h3 t4, fun hub e => exec_keepaliveSend hr t,
    exec_posrefSend hr t, exec_nakFrame hr t l, fun ep e he hready hdue huid =>
      ⟨leaves_endpointMissing hr t he hready hdue huid, exec_endpointMissing_of_raised hr t he⟩⟩

end Sys2Proof.Machine
end

section
/-! Bring-up of a lane (R208 to R210, R486), and obligation O27. -/
namespace Sys2Proof.Machine

open Sys2Proof.Claim

/-! ## One lane, one endpoint -/

@[simp] theorem State.modLane_lane_self (s : State) (l : Fin 64) (f : Lane → Lane) :
    (s.modLane l f).mlk.lanes[l] = f s.mlk.lanes[l] := upd_getElem_self ..

@[simp] theorem State.modLane_eps (s : State) (l : Fin 64) (f : Lane → Lane) : (s.modLane l f).mlk.eps = s.mlk.eps := rfl

@[simp] theorem State.modEp_ep_self (s : State) (e : Fin 64) (f : Endpoint → Endpoint) :
    (s.modEp e f).mlk.eps[e] = f s.mlk.eps[e] := upd_getElem_self ..

@[simp] theorem State.modEp_lanes (s : State) (e : Fin 64) (f : Endpoint → Endpoint) :
    (s.modEp e f).mlk.lanes = s.mlk.lanes := rfl

/-- With room a reliable frame leaves at once. -/
theorem pushRel_of_room {l : Fin 64} {s : State} (hroom : (s.mlk.lanes[l]).relOut.length < 64)
    (hwait : (s.mlk.lanes[l]).relWait = []) (f : MlkTx) : pushRel l f s =
      (s.modLane l fun x => { x with relNext := (x.relNext + 1) % 65536, relOut := x.relOut ++ [⟨x.relNext, f, s.now, 0⟩] }).emit
        (.mlk l f) :=
  if_pos ⟨hroom, by rw [hwait]; rfl⟩

/-! ## LANE_DOWN_RETRAIN, LANE_TRAINING_DONE and the timeouts -/

section
variable {s : State} (hr : s.ringsRun = true) (t : Nat) {l : Fin 64} {e : EndpointRec} (hport : lanePort s l = none)
  (he : s.laneEp l = some e)
include hr

include hport in
/-- A lane without its reference clock stays as it is; one with it trains again 100 ms after it went down. -/
theorem exec_laneDownRetrain : exec (.laneDownRetrain t l) s = .next (after t s fun s =>
    if qrefOn s l = false then s
    else if (s.laneEp l).isSome ∧ (s.mlk.lanes[l]).st = .down ∧ (s.mlk.lanes[l]).since + 800000000 ≤ s.now ∧
      s.isDisabled 0x07 l = false then laneTo .train l s else s) := by
  refine (ringCmd_eq_after hr ?_ : execLaneDownRetrain t l s = _)
  have hport' : lanePort (s.arrive t) l = none := hport
  simp only [hport', Bool.not_eq_true']
  rfl

include hport he in
theorem exec_laneDownRetrain_of_due (hclock : qrefOn s l = true) (hst : (s.mlk.lanes[l]).st = .down)
    (hdue : (s.mlk.lanes[l]).since + 800000000 ≤ max s.now t) (hon : s.isDisabled 0x07 l = false) :
    exec (.laneDownRetrain t l) s = .next (after t s fun s =>
      s.modLane l fun x => { x with st := .train, since := s.now }) := by
  have hclock' : ¬qrefOn (s.arrive t) l = false := ne_false_of_eq_true hclock
  have hin : ((s.arrive t).laneEp l).isSome = true := Option.isSome_of_eq_some he
  exact (exec_laneDownRetrain hr t hport).trans
    (next_after_congr ((if_neg hclock').trans (if_pos ⟨hin, hst, hdue, hon⟩)))

include hport in
theorem exec_laneDownRetrain_of_early
    (hearly : max s.now t < (s.mlk.lanes[l]).since + 800000000 ∨ qrefOn s l = false) :
    exec (.laneDownRetrain t l) s = .next (after t s id) := by
  refine (exec_laneDownRetrain hr t hport).trans (next_after_congr ?_)
  by_cases hclock : qrefOn (s.arrive t) l = false
  · exact if_pos hclock
  · exact (if_neg hclock).trans (if_neg fun ⟨_, _, hdue, _⟩ => hearly.elim (fun h => h.not_ge hdue) hclock)

include hport in
theorem exec_laneTrainingDone (hst : (s.mlk.lanes[l]).st = .train) :
    exec (.laneTrainingDone t l true) s = .next (after t s fun s =>
      s.modLane l fun x => { x with st := .hello, since := s.now }) ∧
    exec (.laneTrainingDone t l false) s = .next (after t s fun s => s.modLane l fun x => x.goDown s.now) := by
  have hport' : lanePort (s.arrive t) l = none := hport
  have hst' : ((s.arrive t).mlk.lanes[l]).st = .train := hst
  constructor
  · refine (ringCmd_eq_after hr ?_ : execLaneTrainingDone t l true s = _)
    simp only [hport', hst', if_true]
    rfl
  · refine (ringCmd_eq_after hr ?_ : execLaneTrainingDone t l false s = _)
    have hdown := laneDown_of_not_ready (l := l) (s := s.arrive t) (by rw [hst']; decide)
    simp only [hport', hst', if_true, Bool.false_eq_true, if_false, hdown]

theorem exec_helloTimeout (hst : (s.mlk.lanes[l]).st = .hello) (hfits : (s.mlk.lanes[l]).mismatch = false)
    (hnone : (s.mlk.lanes[l]).relNext = 0) (hdue : (s.mlk.lanes[l]).since + 80000000 ≤ max s.now t) :
    exec (.helloTimeout t l) s = .next (after t s fun s => s.modLane l fun x => x.goDown s.now) := by
  refine (ringCmd_eq_after hr ?_ : execHelloTimeout t l s = _)
  have hst' : ((s.arrive t).mlk.lanes[l]).st = .hello := hst
  refine Eq.trans ?_ (laneDown_of_not_ready (by rw [hst']; decide))
  exact if_pos ⟨hst, (Bool.not_eq_true' _).mpr hfits, hnone, hdue⟩

theorem exec_syncTimeout (hst : (s.mlk.lanes[l]).st = .sync) (hdue : (s.mlk.lanes[l]).since + 160000000 ≤ max s.now t) :
    exec (.syncTimeout t l) s = .next (after t s fun s => s.modLane l fun x => x.goDown s.now) := by
  refine (ringCmd_eq_after hr ?_ : execSyncTimeout t l s = _)
  have hst' : ((s.arrive t).mlk.lanes[l]).st = .sync := hst
  refine Eq.trans ?_ (laneDown_of_not_ready (by rw [hst']; decide))
  exact if_pos ⟨hst, hdue⟩

/-! ## PCS_ALIGNMENT_LOSS -/

include hport he in
theorem leaves_pcsAlignmentLoss (hst : (s.mlk.lanes[l]).st ≠ .down) : Leaves (.pcsAlignmentLoss t l) s fun s' =>
    s'.mlk.lanes[l] = (s.mlk.lanes[l]).goDown (max s.now t) ∧
      ((s.mlk.lanes[l]).st = .ready → bitOf s' Reg.evtAlarmLatch 0 13 = true) := by
  have hexec : exec (.pcsAlignmentLoss t l) s = .next (after t s (laneDown l)) := by
    refine (ringCmd_eq_after hr ?_ : execPcsAlignmentLoss t l s = _)
    have hport' : lanePort (s.arrive t) l = none := hport
    simp only [hport']
    exact if_pos ⟨Option.isSome_of_eq_some he, hst⟩
  refine ⟨_, hexec, ?_, fun hready => (laneDown_bitOf (s := s.arrive t) hready he :)⟩
  exact (congrArg (fun v => v[l]) (laneDown_lanes l (s.arrive t))).trans (upd_getElem_self ..)

include hport in
theorem exec_pcsAlignmentLoss_of_down (hst : (s.mlk.lanes[l]).st = .down) :
    exec (.pcsAlignmentLoss t l) s = .next (after t s id) := by
  refine (ringCmd_eq_after hr ?_ : execPcsAlignmentLoss t l s = _)
  have hport' : lanePort (s.arrive t) l = none := hport
  simp only [hport']
  exact if_neg fun ⟨_, hne⟩ => hne hst

/-! ## HELLO_FRAME -/

include he in
theorem leaves_helloFrame_of_mismatch {h : MlkHello} (hst : (s.mlk.lanes[l]).st = .hello)
    (hfits : helloFits e l h = false) : Leaves (.helloFrame t l h) s fun s' =>
      (s'.mlk.lanes[l]).st = .hello ∧ (s'.mlk.lanes[l]).mismatch = true ∧ .mlk l (.linkcfg 1 l) ∈ s'.out ∧
      ((s.mlk.lanes[l]).mismatch = false → bitOf s' Reg.evtAlarmLatch 0 11 = true) ∧ SameMotion s s' := by
  let answered := ((s.arrive t).modLane l fun x => { x with mismatch := true }).emit (.mlk l (.linkcfg 1 l))
  have hexec : exec (.helloFrame t l h) s = .next (after t s (helloMismatch l)) := by
    refine (ringCmd_eq_after hr ?_ : execHelloFrame t l h s = _)
    have he' : (s.arrive t).laneEp l = some e := he
    have hst' : ((s.arrive t).mlk.lanes[l]).st = .hello := hst
    simp only [he', hst', hfits, Bool.false_eq_true, if_false]
  have hlane : answered.mlk.lanes[l] = { s.mlk.lanes[l] with mismatch := true } := upd_getElem_self ..
  have hst' : (answered.mlk.lanes[l]).st = .hello := (congrArg Lane.st hlane).trans hst
  have hmism : (answered.mlk.lanes[l]).mismatch = true := congrArg Lane.mismatch hlane
  have hsent : .mlk l (.linkcfg 1 l) ∈ answered.out := List.mem_append_right _ (List.mem_singleton_self _)
  refine ⟨_, hexec, ?_⟩
  cases hwas : (s.mlk.lanes[l]).mismatch with
  | true =>
    have hstate : helloMismatch l (s.arrive t) = answered := if_neg (by rw [State.arrive_mlk, hwas]; decide)
    rw [after_congr (g := fun _ => answered) hstate]
    exact ⟨hst', hmism, hsent, nofun, rfl, rfl, rfl, rfl⟩
  | false =>
    have hstate : helloMismatch l (s.arrive t) = alarm .mlkEndpointMismatch l answered :=
      if_pos (by rw [State.arrive_mlk, hwas]; decide)
    have halarm : (alarm .mlkEndpointMismatch l answered).sansReports = answered.sansReports := sansReports_alarm ..
    have hmlk : (alarm .mlkEndpointMismatch l answered).mlk = answered.mlk :=
      eq_of_sansReports halarm (g := State.mlk) fun _ => rfl
    rw [after_congr (g := fun _ => alarm .mlkEndpointMismatch l answered) hstate]
    exact ⟨(congrArg (fun m => (m.lanes[l]).st) hmlk).trans hst', (congrArg (fun m => (m.lanes[l]).mismatch) hmlk).trans hmism,
      (out_prefix_alarmArgs ..).subset hsent, fun _ => alarm_bitOf .mlkEndpointMismatch l answered,
      (sameMotion_of_sansReports halarm :)⟩

include he in
theorem leaves_helloFrame_of_fits {h : MlkHello} (hst : (s.mlk.lanes[l]).st = .hello) (hfits : helloFits e l h = true)
    (hnew : (s.mlk.lanes[l]).relNext = 0) (hout : (s.mlk.lanes[l]).relOut = []) (hwait : (s.mlk.lanes[l]).relWait = []) :
    Leaves (.helloFrame t l h) s fun s' =>
      (s'.mlk.lanes[l]).st = .hello ∧ (s'.mlk.lanes[l]).mismatch = false ∧ .mlk l (.linkcfg 0 l) ∈ s'.out ∧
      (s'.mlk.lanes[l]).relOut = [⟨0, .linkcfg 0 l, max s.now t, 0⟩] ∧
      (s'.mlk.eps[Fin.ofNat 64 e.idx]).uid = h.unitId ∧ (s'.mlk.eps[Fin.ofNat 64 e.idx]).bufSlots = h.bufSlots ∧
      SameMotion s s' ∧ s'.jobs = s.jobs := by
  have hexec : exec (.helloFrame t l h) s = .next (after t s (helloMatch e l h)) := by
    refine (ringCmd_eq_after hr ?_ : execHelloFrame t l h s = _)
    have he' : (s.arrive t).laneEp l = some e := he
    have hst' : ((s.arrive t).mlk.lanes[l]).st = .hello := hst
    simp only [he', hst', hfits, if_true]
  let noted := ((s.arrive t).modEp (Fin.ofNat 64 e.idx) fun p =>
    { p with uid := h.unitId, present := h.present, bufSlots := h.bufSlots, mono := h.caps / 2 % 2 == 1 }).modLane l
      fun x => { x with mismatch := false }
  have hlane : noted.mlk.lanes[l] = { s.mlk.lanes[l] with mismatch := false } := upd_getElem_self ..
  have hep : (noted.mlk.eps[Fin.ofNat 64 e.idx]) = { s.mlk.eps[Fin.ofNat 64 e.idx] with
      uid := h.unitId, present := h.present, bufSlots := h.bufSlots, mono := h.caps / 2 % 2 == 1 } := upd_getElem_self ..
  let sent := (noted.modLane l fun x => { x with
    relNext := (x.relNext + 1) % 65536, relOut := x.relOut ++ [⟨x.relNext, .linkcfg 0 l, max s.now t, 0⟩] }).emit
      (.mlk l (.linkcfg 0 l))
  have hroom : (noted.mlk.lanes[l]).relOut.length < 64 := by rw [hlane, hout]; decide
  have hstate : helloMatch e l h (s.arrive t) = sent :=
    (if_pos ((congrArg Lane.relNext hlane).trans hnew)).trans (pushRel_of_room hroom (by rw [hlane, hwait]) _)
  have hlane' : sent.mlk.lanes[l] = { s.mlk.lanes[l] with
      mismatch := false, relNext := 1, relOut := [⟨0, .linkcfg 0 l, max s.now t, 0⟩] } := by
    refine (upd_getElem_self ..).trans ?_
    rw [hlane, hout, hnew]
    rfl
  refine ⟨_, hexec, ?_⟩
  rw [after_congr (g := fun _ => sent) hstate]
  exact ⟨(congrArg Lane.st hlane').trans hst, congrArg Lane.mismatch hlane', List.mem_append_right _ (List.mem_singleton_self _),
    congrArg Lane.relOut hlane', congrArg Endpoint.uid hep, congrArg Endpoint.bufSlots hep, ⟨rfl, rfl, rfl, rfl⟩, rfl⟩

end

/-! ## ACK_FRAME -/

/-- An acknowledgement that names no unacknowledged frame does nothing. -/
theorem takeAck_of_unknown {l : Fin 64} {seq : Nat} {s : State} (hnone : ∀ r ∈ (s.mlk.lanes[l]).relOut, r.seq ≠ seq) :
    takeAck l seq s = s := by
  refine if_neg ?_
  simpa using hnone

/-- The acknowledgement of a lane's only frame leaves none, and of the rest the waveform engine's busy marks alone change. -/
theorem takeAck_of_last {l : Fin 64} {r : RelFrame} {s : State} (hrel : (s.mlk.lanes[l]).relOut = [r])
    (hwait : (s.mlk.lanes[l]).relWait = []) :
    ∃ wav, takeAck l r.seq s = { s.modLane l fun x => { x with relOut := [] } with wav := wav } := by
  have hdrop : (s.modLane l fun x => { x with relOut := x.relOut.drop 1 }) =
      s.modLane l fun x => { x with relOut := [] } := by
    simp only [State.modLane, upd, hrel, List.drop_one, List.tail_cons]
  have hwait' : ((s.modLane l fun x => { x with relOut := [] }).mlk.lanes[l]).relWait = [] := by
    rw [State.modLane_lane_self, hwait]
  unfold takeAck
  simp only [hrel, List.any_cons, beq_self_eq_true, Bool.true_or, if_true, List.takeWhile_cons, bne_self_eq_false,
    Bool.false_eq_true, if_false, List.length_nil, Nat.zero_add, hdrop, hwait', drainRel]
  split
  · split
    · exact ⟨_, rfl⟩
    · exact ⟨_, rfl⟩
  · exact ⟨_, rfl⟩

/-- The frames of CONFIG, and the step to SYNC, write the link and what leaves the block alone. -/
theorem linkConfigured_eq (e : EndpointRec) (l : Fin 64) (s : State) :
    ∃ mlk out, linkConfigured e l s = { s with mlk := mlk, out := out } := by
  unfold linkConfigured
  split
  · extract_lets s₁ s₂
    have hframes : ∃ mlk out, s₂ = { s with mlk := mlk, out := out } := by
      simp only [s₂]
      split
      · obtain ⟨mlk, out, h⟩ := foldl_pushRel_eq l (configFrames s₁ e.number) s₁
        exact ⟨mlk, out, h⟩
      · exact ⟨_, _, rfl⟩
    obtain ⟨mlk, out, hframes⟩ := hframes
    unfold configDone
    simp only []
    split
    · rw [hframes]
      exact ⟨_, _, rfl⟩
    · exact ⟨mlk, out, hframes⟩
  · exact ⟨_, _, rfl⟩

theorem laneTo_st (st : LaneSt) (l : Fin 64) (s : State) : ((laneTo st l s).mlk.lanes[l]).st = st :=
  congrArg Lane.st (State.modLane_lane_self ..)

theorem linkConfigured_st_of_bridge {e : EndpointRec} (h : e.kind ≠ 1) (l : Fin 64) (s : State) :
    ((linkConfigured e l s).mlk.lanes[l]).st = .sync := by
  rw [linkConfigured, if_neg h, laneTo_st]

/-- A hub's lane is in CONFIG while frames sent in it are unacknowledged, else in SYNC. -/
theorem linkConfigured_st_of_hub {e : EndpointRec} (h : e.kind = 1) (l : Fin 64) (s : State) :
    ((linkConfigured e l s).mlk.lanes[l]).st = .config ∨ ((linkConfigured e l s).mlk.lanes[l]).st = .sync := by
  unfold linkConfigured
  rw [if_pos h]
  extract_lets s₁ s₂
  have hst : (s₂.mlk.lanes[l]).st = .config := by
    refine Eq.trans ?_ (laneTo_st .config l s)
    simp only [s₂]
    split
    · exact laneSt_of_linkView (foldl_leaves (fun s f => linkView_pushRel ..) _ _) l
    · rfl
  unfold configDone
  simp only []
  split
  · exact .inr (laneTo_st ..)
  · exact .inl hst

section
variable {s : State} (hr : s.ringsRun = true) (t : Nat) {l : Fin 64} {e : EndpointRec} (hport : lanePort s l = none)
  (he : s.laneEp l = some e)
include hr hport he

/-- The acknowledgement of LINKCFG ends HELLO. -/
theorem leaves_ackFrame_of_linkcfg {r : RelFrame} {seq : Nat} (hst : (s.mlk.lanes[l]).st = .hello)
    (hsent : (s.mlk.lanes[l]).relNext ≠ 0) (hrel : (s.mlk.lanes[l]).relOut = [r]) (hseq : r.seq = seq)
    (hwait : (s.mlk.lanes[l]).relWait = []) : Leaves (.ackFrame t l seq) s fun s' =>
      (e.kind ≠ 1 → (s'.mlk.lanes[l]).st = .sync) ∧
      (e.kind = 1 → (s'.mlk.lanes[l]).st = .config ∨ (s'.mlk.lanes[l]).st = .sync) ∧ SameMotion s s' ∧ s'.jobs = s.jobs := by
  subst hseq
  obtain ⟨wav, htake⟩ := takeAck_of_last (s := s.arrive t) hrel hwait
  let taken : State := { (s.arrive t).modLane l fun x => { x with relOut := [] } with wav := wav }
  have htake' : takeAck l r.seq (s.arrive t) = taken := htake
  have hlane : taken.mlk.lanes[l] = { s.mlk.lanes[l] with relOut := [] } := upd_getElem_self ..
  have hexec : exec (.ackFrame t l r.seq) s = .next (after t s fun _ => linkConfigured e l taken) := by
    refine (ringCmd_eq_after hr ?_ : execAckFrame t l r.seq s = _)
    have hport' : lanePort (s.arrive t) l = none := hport
    have he' : taken.laneEp l = some e := he
    have hst' : (taken.mlk.lanes[l]).st = .hello := (congrArg Lane.st hlane).trans hst
    have hempty : (taken.mlk.lanes[l]).relNext ≠ 0 ∧ (taken.mlk.lanes[l]).relOut.isEmpty = true := by
      rw [hlane]
      exact ⟨hsent, rfl⟩
    simp only [hport', htake', he', hst', if_pos hempty]
  obtain ⟨mlk, out, hstate⟩ := linkConfigured_eq e l taken
  have hmotion : (linkConfigured e l taken).motion = s.motion := by rw [hstate]; rfl
  have hjobs : (linkConfigured e l taken).jobs = s.jobs := by rw [hstate]; rfl
  exact ⟨_, hexec, fun h => linkConfigured_st_of_bridge h l taken, fun h => linkConfigured_st_of_hub h l taken,
    sameMotion_iff.mpr hmotion, hjobs⟩

theorem exec_ackFrame_of_unknown {seq : Nat} (hst : (s.mlk.lanes[l]).st = .ready)
    (hnone : ∀ r ∈ (s.mlk.lanes[l]).relOut, r.seq ≠ seq) : exec (.ackFrame t l seq) s = .next (after t s id) := by
  refine (ringCmd_eq_after hr ?_ : execAckFrame t l seq s = _)
  have hport' : lanePort (s.arrive t) l = none := hport
  have htake : takeAck l seq (s.arrive t) = s.arrive t := takeAck_of_unknown hnone
  have he' : (s.arrive t).laneEp l = some e := he
  have hst' : ((s.arrive t).mlk.lanes[l]).st = .ready := hst
  simp only [hport', htake, he', hst', id]

end

/-! ## STATUS_FRAME -/

/-- The lanes' states, what each endpoint has said in STATUS, and the motion hardware. -/
def State.statusView (s : State) : Vector LaneSt 64 × Vector (Bool × Bool × Nat) 64 × MotionHardware :=
  (s.linkView.states, s.linkView.reports, s.linkView.motion)

theorem statusView_of_linkView {s s' : State} (h : s'.linkView = s.linkView) : s'.statusView = s.statusView := by
  rw [State.statusView, h, State.statusView]

theorem statusView_sendTakeover (h : EndpointRec) (s : State) : (sendTakeover h s).statusView = s.statusView :=
  congrArg (fun v => (s.linkView.states, v, s.linkView.motion)) (map_upd_of_keeps (by exact fun _ => rfl) s.mlk.eps _)

/-- Claiming an epoch and fencing hubs to it leaves what the endpoints have said. -/
theorem statusView_claimEpoch (n : Nat) (s : State) : (claimEpoch n s).statusView = s.statusView := by
  refine (foldl_leaves (fun s h => ?_) _ _).trans rfl
  split
  · exact statusView_sendTakeover ..
  · rfl

theorem statusView_fenceHub (e : EndpointRec) (s : State) : (fenceHub e s).statusView = s.statusView := by
  unfold fenceHub
  simp only []
  split_ifs
  · rfl
  · rfl
  · exact statusView_sendTakeover ..
  · exact statusView_claimEpoch ..
  · exact statusView_claimEpoch ..
  · rfl

/-- A lane in SYNC becomes READY. -/
def laneSynced (s : State) (l : Fin 64) : State := if (s.mlk.lanes[l]).st = .sync then laneTo .ready l s else s

/-- Of the state, lanes alone change as lanes become READY. -/
theorem laneSynced_eq (s : State) (l : Fin 64) : ∃ lanes, laneSynced s l = { s with mlk := { s.mlk with lanes := lanes } } := by
  unfold laneSynced
  split
  · exact ⟨_, rfl⟩
  · exact ⟨_, rfl⟩

theorem laneSynced_ready {k : Fin 64} {s : State} (h : (s.mlk.lanes[k]).st = .ready) (l : Fin 64) :
    ((laneSynced s l).mlk.lanes[k]).st = .ready := by
  unfold laneSynced
  split
  · by_cases hk : k = l
    · rw [hk, laneTo_st]
    · exact (congrArg Lane.st (upd_getElem_of_ne hk ..)).trans h
  · exact h

theorem laneSynced_sync {k : Fin 64} {s : State} (h : (s.mlk.lanes[k]).st = .sync) (l : Fin 64) :
    ((laneSynced s l).mlk.lanes[k]).st = .sync ∨ ((laneSynced s l).mlk.lanes[k]).st = .ready := by
  unfold laneSynced
  split
  · by_cases hk : k = l
    · exact .inr (by rw [hk, laneTo_st])
    · exact .inl ((congrArg Lane.st (upd_getElem_of_ne hk ..)).trans h)
  · exact .inl h

/-- Of the lanes visited, those in SYNC become READY, and a lane that is READY stays so. -/
theorem foldl_laneSynced_ready {lanes : List (Fin 64)} {k : Fin 64} {s : State}
    (h : (s.mlk.lanes[k]).st = .ready ∨ (s.mlk.lanes[k]).st = .sync ∧ k ∈ lanes) :
    ((lanes.foldl laneSynced s).mlk.lanes[k]).st = .ready := by
  induction lanes generalizing s with
  | nil => exact h.resolve_right fun ⟨_, hk⟩ => List.not_mem_nil hk
  | cons l lanes ih =>
    refine ih ?_
    obtain hready | ⟨hsync, hk⟩ := h
    · exact .inl (laneSynced_ready hready l)
    · obtain rfl | hk := List.mem_cons.mp hk
      · left
        rw [laneSynced, if_pos hsync, laneTo_st]
      · exact (laneSynced_sync hsync l).symm.imp_right fun h => ⟨h, hk⟩

/-- Once its lanes are READY, an endpoint that reports SYNCED starts its slot numbers, and a hub is streamed its slots. -/
theorem linkView_endpointReady (e : EndpointRec) (s : State) :
    (endpointReady e s).linkView = (e.lanesOf.foldl laneSynced s).linkView := by
  have hlanes : e.lanesOf.foldl (fun s l => if (s.mlk.lanes[l]).st = .sync then laneTo .ready l s else s) s =
      e.lanesOf.foldl laneSynced s := rfl
  unfold endpointReady
  rw [hlanes]
  generalize e.lanesOf.foldl laneSynced s = x
  have hdiag : ∀ c, (when c (diag .mlkEndpointUp e.idx 0 0 0) x).linkView = x.linkView := fun c => by
    unfold when
    split
    · exact linkView_of_sansReports (sansReports_diag ..)
    · rfl
  simp only []
  split
  · split
    · exact (linkView_restream ..).trans (Eq.trans linkView_modEp (hdiag _))
    · exact Eq.trans linkView_modEp (hdiag _)
  · rfl

section
variable {s : State} (hr : s.ringsRun = true) (t : Nat) {l : Fin 64} {e : EndpointRec} (he : s.laneEp l = some e)
include hr he

theorem leaves_statusFrame {st : HubStatus} (hsynced : st.synced = true) : Leaves (.statusFrame t l st) s fun s' =>
    (∀ k ∈ e.lanesOf, (s.mlk.lanes[k]).st = .sync → (s'.mlk.lanes[k]).st = .ready) ∧
    (s'.mlk.eps[Fin.ofNat 64 e.idx]).armed = st.armed ∧ (s'.mlk.eps[Fin.ofNat 64 e.idx]).synced = true ∧
    (s'.mlk.eps[Fin.ofNat 64 e.idx]).accEpoch = (if st.fenced then st.accEpoch else 0xFFFF) ∧ SameMotion s s' := by
  let i : Fin 64 := Fin.ofNat 64 e.idx
  let noted := (s.arrive t).modEp i fun p => { p with
    armed := st.armed, synced := st.synced, bufFree := st.bufFree, accEpoch := if st.fenced then st.accEpoch else 0xFFFF }
  let ready := endpointReady e noted
  let fenced := if e.kind = 1 then fenceHub e ready else ready
  have hexec : exec (.statusFrame t l st) s = .next (after t s fun _ => fenced) := by
    refine (ringCmd_eq_after hr ?_ : execStatusFrame t l st s = _)
    have he' : (s.arrive t).laneEp l = some e := he
    simp only [he', hsynced, if_true]
    simp only [fenced, ready, noted, hsynced]
    rfl
  have hview : fenced.statusView = (e.lanesOf.foldl laneSynced noted).statusView := by
    refine Eq.trans ?_ (statusView_of_linkView (linkView_endpointReady e noted))
    simp only [fenced]
    split
    · exact statusView_fenceHub e ready
    · rfl
  have hrest : ((e.lanesOf.foldl laneSynced noted).mlk.eps, (e.lanesOf.foldl laneSynced noted).motion) =
      (noted.mlk.eps, noted.motion) := by
    refine foldl_leaves (g := fun x => (x.mlk.eps, x.motion)) (fun x k => ?_) _ noted
    obtain ⟨lanes, h⟩ := laneSynced_eq x k
    rw [h]
    rfl
  have hstates : ∀ k : Fin 64, (fenced.mlk.lanes[k]).st = ((e.lanesOf.foldl laneSynced noted).mlk.lanes[k]).st := fun k => by
    simpa [State.statusView, State.linkView] using congrArg (fun v => v.1[k]) hview
  have hreport : (fenced.mlk.eps[i]).report = (noted.mlk.eps[i]).report := by
    have h : (fenced.mlk.eps[i]).report = ((e.lanesOf.foldl laneSynced noted).mlk.eps[i]).report := by
      simpa [State.statusView, State.linkView] using congrArg (fun v => v.2.1[i]) hview
    exact h.trans (congrArg (fun v => (v.1[i]).report) hrest)
  have hmotion : fenced.motion = s.motion :=
    (congrArg (fun v => v.2.2) hview : _).trans (congrArg Prod.snd hrest)
  have hsaid : (noted.mlk.eps[i]).report = (st.armed, true, if st.fenced then st.accEpoch else 0xFFFF) := by
    rw [State.modEp_ep_self, ← hsynced]
    rfl
  rw [hsaid] at hreport
  refine ⟨_, hexec, fun k hk hsync => (hstates k).trans (foldl_laneSynced_ready (.inr ⟨hsync, hk⟩)),
    congrArg Prod.fst hreport, congrArg (fun v => v.2.1) hreport, congrArg (fun v => v.2.2) hreport,
    sameMotion_iff.mpr hmotion⟩

end

/-! ## The obligation -/

/-- Settles O27: a lane moves by its timers, its training, the HELLO and STATUS of its endpoint and the acknowledgement of
LINKCFG, and a loss of alignment takes it down whatever its state; what else happens as a lane goes down or an endpoint comes
up, alarms and slots that are lost or streamed again, leaves the lanes' states. That STATUS is taken in any state of its lane
is log entry 68. -/
theorem laneStates : Obligations.LaneStates := by
  intro t l e s hr hport he
  exact ⟨exec_laneDownRetrain_of_due hr t hport he, exec_laneDownRetrain_of_early hr t hport, exec_laneTrainingDone hr t hport,
    fun h => leaves_helloFrame_of_mismatch hr t he, fun h => leaves_helloFrame_of_fits hr t he, exec_helloTimeout hr t,
    fun seq r => leaves_ackFrame_of_linkcfg hr t hport he, fun seq => exec_ackFrame_of_unknown hr t hport he,
    fun st => leaves_statusFrame hr t he, exec_syncTimeout hr t, leaves_pcsAlignmentLoss hr t hport he,
    exec_pcsAlignmentLoss_of_down hr t hport⟩

end Sys2Proof.Machine
end

section
/-! What hubs report (R207, R220, R222) and takeovers (R223, R224), and obligation O29. -/
namespace Sys2Proof.Machine

open Sys2Proof.Claim

/-! ## IDENT_FRAME -/

/-- An identity record has been acknowledged on its lane (R214). -/
def identAcked (l : Fin 64) (s : State) : State :=
  (s.modLane l fun x => { x with upNext := (x.upNext + 1) % 65536 }).emit (.mlk l (.ack (s.mlk.lanes[l]).upNext))

section
variable {s : State} (hr : s.ringsRun = true) (t : Nat)
include hr

theorem exec_identFrame {l : Fin 64} {e : EndpointRec} {tb : StructTables} {port : Nat} {h : HeadRec}
    (he : s.laneEp l = some e) (htb : s.str.tables = some tb)
    (hh : tb.heads.find? (fun h => e.kind == 1 && h.hub == e.number && h.port == port) = some h) (record : Bytes) :
    exec (.identFrame t l port record) s = .next (after t s fun s =>
      if identOk s h record then (identAcked l s).modHead h.head fun x => { x with ident := some (identOf record) }
      else alarm .mlkIdentBad h.head (identAcked l s)) := by
  refine (ringCmd_eq_after hr ?_ : execIdentFrame t l port record s = _)
  have he' : (s.arrive t).laneEp l = some e := he
  have htb' : (s.arrive t).str.tables = some tb := htb
  simp only [he', htb', hh]
  rfl

theorem leaves_identFrame {l : Fin 64} {e : EndpointRec} {tb : StructTables} {port : Nat} {h : HeadRec}
    (he : s.laneEp l = some e) (htb : s.str.tables = some tb)
    (hh : tb.heads.find? (fun h => e.kind == 1 && h.hub == e.number && h.port == port) = some h) (record : Bytes) :
    Leaves (.identFrame t l port record) s fun s' =>
      (identOk s h record = true → (s'.head h.head).ident = some (identOf record) ∧
        (s'.head h.head).temp = (s.head h.head).temp) ∧
      (identOk s h record = false → s'.wav = s.wav ∧ bitOf s' Reg.evtAlarmLatch 0 10 = true) ∧
      (∀ k, k ≠ h.head → s'.head k = s.head k) ∧ s'.jobs = s.jobs ∧ SameMotion s s' := by
  have hexec := exec_identFrame hr t he htb hh record
  have hsame : identOk (s.arrive t) h record = identOk s h record := rfl
  let acked := identAcked l (s.arrive t)
  cases hok : identOk s h record with
  | true =>
    let stored := acked.modHead h.head fun x => { x with ident := some (identOf record) }
    have hhead : stored.head h.head = { s.head h.head with ident := some (identOf record) } := State.modHead_head_self ..
    have hother : ∀ k, k ≠ h.head → stored.head k = s.head k := fun k hk => State.modHead_head_of_ne hk ..
    refine ⟨_, hexec.trans (next_after_congr (g := fun _ => stored) (if_pos (hsame.trans hok))), ?_⟩
    exact ⟨fun _ => ⟨congrArg HeadSt.ident hhead, (congrArg HeadSt.temp hhead :)⟩, nofun, hother, rfl, rfl, rfl, rfl, rfl⟩
  | false =>
    let raised := alarm .mlkIdentBad h.head acked
    have hbad : ¬identOk (s.arrive t) h record = true := by
      rw [hsame, hok]
      decide
    have halarm : raised.sansReports = acked.sansReports := sansReports_alarm ..
    have hwav : raised.wav = s.wav := eq_of_sansReports halarm (g := State.wav) fun _ => rfl
    refine ⟨_, hexec.trans (next_after_congr (g := fun _ => raised) (if_neg hbad)), ?_⟩
    exact ⟨nofun, fun _ => ⟨hwav, alarm_bitOf .mlkIdentBad h.head acked⟩,
      fun k _ => State.head_of_heads (congrArg Wav.heads hwav) k, (jobs_of_sansReports halarm :),
      (sameMotion_of_sansReports halarm :)⟩

end

/-! ## Reports of slots -/

/-- Acknowledging a frame of a hub writes the link and what leaves the block alone. -/
theorem ackHub_eq (hub : Nat) (s : State) : ∃ mlk out, ackHub hub s = { s with mlk := mlk, out := out } := by
  unfold ackHub
  split <;> exact ⟨_, _, rfl⟩

theorem foldl_modLane_eq (f : Lane → Lane) (lanes : List (Fin 64)) (s : State) :
    ∃ mlk, lanes.foldl (fun s l => s.modLane l f) s = { s with mlk := mlk } := by
  induction lanes generalizing s with
  | nil => exact ⟨_, rfl⟩
  | cons l lanes ih =>
    obtain ⟨mlk, h⟩ := ih (s.modLane l f)
    exact ⟨mlk, h⟩

/-- A slot that a hub reports is confirmed, or counts as unconfirmed. -/
theorem reportSlot_eq {hub num : Nat} {x : FireSlot} {s : State}
    (hx : s.pac.slots.find? (fun x => x.num.contains (hub, num) && x.unconfirmed.contains hub) = some x) (ok : Bool) :
    ∃ y : State, y.regs = s.regs ∧ reportSlot hub num ok s = if ok then hubDone x hub y else unconfirm x hub y := by
  unfold reportSlot
  obtain ⟨mlk, hlanes⟩ := foldl_modLane_eq
    (fun x => { x with courses := x.courses.filter fun c => !(c.hub == hub && c.slot == num) })
    (((s.epRec hub).map EndpointRec.lanesOf).getD []) s
  simp only [hlanes, hx]
  cases ok
  · simp only [Bool.false_eq_true, if_false]
    exact ⟨{ s with mlk := mlk }, rfl, rfl⟩
  · simp only [if_true]
    refine ⟨_, ?_, rfl⟩
    rfl

section
variable {s : State} (hr : s.ringsRun = true) (t : Nat) (hub : Fin 48) {x : FireSlot}
include hr

theorem exec_reportFrame_one (num : Nat) (bitmap : BitVec 64) : exec (.reportFrame t hub num 1 bitmap) s =
    .next (after t s fun s => reportSlot hub (num % 2 ^ 32) (bitmap.getLsbD 0) (ackHub hub s)) :=
  (ringCmd_eq_after hr rfl : execReportFrame t hub num 1 bitmap s = _)

theorem leaves_reportFrame {num : Nat} (hx : s.pac.slots.find?
      (fun x => x.num.contains (hub.val, num % 2 ^ 32) && x.unconfirmed.contains hub.val) = some x) (bitmap : BitVec 64) :
    Leaves (.reportFrame t hub num 1 bitmap) s fun s' =>
      (∀ y ∈ s'.pac.slots, y.same x = true → y.unconfirmed.contains hub.val = false) ∧
      (bitmap.getLsbD 0 = false → x.plane < 8 →
        (s'.rd Reg.mlkFault x.plane).toNat = min ((s.rd Reg.mlkFault x.plane).toNat + 1) 0xFFFFFFFF) := by
  refine ⟨_, exec_reportFrame_one hr t hub num bitmap, ?_⟩
  obtain ⟨mlk, out, hack⟩ := ackHub_eq hub (s.arrive t)
  have hx' : (ackHub hub (s.arrive t)).pac.slots.find?
      (fun x => x.num.contains (hub.val, num % 2 ^ 32) && x.unconfirmed.contains hub.val) = some x := by
    rw [hack]
    exact hx
  obtain ⟨y, hregs, hreport⟩ := reportSlot_eq hx' (bitmap.getLsbD 0)
  rw [hack] at hregs
  rw [after_congr (g := fun _ => _) hreport]
  cases hbit : bitmap.getLsbD 0 with
  | true => exact ⟨fun z hz hsame => hubDone_confirmed hz hsame, nofun⟩
  | false =>
    refine ⟨fun z hz hsame => unconfirm_confirmed hz hsame, fun _ hp => ?_⟩
    have hfault := unconfirm_fault hp hub y
    rw [rd_of_regs hregs] at hfault
    exact hfault

/-! ## SLOT_FAULT_FRAME and REPORT_TIMEOUT -/

theorem leaves_slotFaultFrame {num : Nat} (hx : s.pac.slots.find?
      (fun x => x.num.contains (hub.val, num) && x.unconfirmed.contains hub.val) = some x) (cause : Nat) (ports : Word) :
    Leaves (.slotFaultFrame t hub num cause ports) s fun s' =>
      (num, cause, ports) ∈ (s'.mlk.eps[Fin.ofNat 64 hub.val]).faults ∧ s'.pac = s.pac ∧ s'.jobs = s.jobs ∧
      SameMotion s s' := by
  have hany : s.pac.slots.any (fun x => x.num.contains (hub.val, num) && x.unconfirmed.contains hub.val) = true :=
    List.any_eq_true.mpr (List.find?_isSome.mp (Option.isSome_of_eq_some hx))
  obtain ⟨mlk, out, hack⟩ := ackHub_eq hub (s.arrive t)
  let kept := ({ s.arrive t with mlk := mlk, out := out } : State).modEp (Fin.ofNat 64 hub) fun p =>
    { p with faults := p.faults.filter (fun g => g.1 != num) ++ [(num, cause, ports)] }
  have hexec : exec (.slotFaultFrame t hub num cause ports) s = .next (after t s fun _ => kept) := by
    refine (ringCmd_eq_after hr ?_ : execSlotFaultFrame t hub num cause ports s = _)
    simp only [hack]
    exact if_pos hany
  refine ⟨_, hexec, ?_, rfl, rfl, rfl, rfl, rfl, rfl⟩
  have hep := State.modEp_ep_self { s.arrive t with mlk := mlk, out := out } (Fin.ofNat 64 hub) fun p =>
    { p with faults := p.faults.filter (fun g => g.1 != num) ++ [(num, cause, ports)] }
  exact (congrArg (fun p => (num, cause, ports) ∈ p.faults) hep).mpr
    (List.mem_append_right _ (List.mem_singleton_self _))

theorem exec_reportTimeout {num : Nat} (hx : s.pac.slots.find?
      (fun x => x.num.contains (hub.val, num) && x.unconfirmed.contains hub.val) = some x) :
    exec (.reportTimeout t hub num) s = .next (after t s fun s =>
      if s.dummy = false ∧ x.base + s.fld Reg.mlkCfg 0 25 16 * 8000 ≤ s.press then unconfirm x hub s else s) := by
  refine (ringCmd_eq_after hr ?_ : execReportTimeout t hub num s = _)
  have hx' : (s.arrive t).pac.slots.find?
      (fun x => x.num.contains (hub.val, num) && x.unconfirmed.contains hub.val) = some x := hx
  simp only [hx', Bool.not_eq_true']
  rfl

theorem leaves_reportTimeout {num : Nat} (hx : s.pac.slots.find?
      (fun x => x.num.contains (hub.val, num) && x.unconfirmed.contains hub.val) = some x) (hdummy : s.dummy = false)
    (hdue : x.base + s.fld Reg.mlkCfg 0 25 16 * 8000 ≤ (s.arrive t).press) : Leaves (.reportTimeout t hub num) s fun s' =>
      (∀ y ∈ s'.pac.slots, y.same x = true → y.unconfirmed.contains hub.val = false) ∧
      (x.plane < 8 → (s'.rd Reg.mlkFault x.plane).toNat = min ((s.rd Reg.mlkFault x.plane).toNat + 1) 0xFFFFFFFF) := by
  have hexec : exec (.reportTimeout t hub num) s = .next (after t s (unconfirm x hub)) :=
    (exec_reportTimeout hr t hub hx).trans (next_after_congr (if_pos ⟨hdummy, hdue⟩))
  exact ⟨_, hexec, fun y hy hsame => unconfirm_confirmed hy hsame, fun hp => (unconfirm_fault hp hub (s.arrive t) :)⟩

theorem exec_reportTimeout_of_early {num : Nat} (hx : s.pac.slots.find?
      (fun x => x.num.contains (hub.val, num) && x.unconfirmed.contains hub.val) = some x)
    (hearly : (s.arrive t).press < x.base + s.fld Reg.mlkCfg 0 25 16 * 8000) :
    exec (.reportTimeout t hub num) s = .next (after t s id) :=
  (exec_reportTimeout hr t hub hx).trans (next_after_congr (if_neg fun ⟨_, hdue⟩ => hearly.not_ge hdue))

end

/-! ## Takeovers -/

/-- Failover slots leave the list, the rest wait again; jobs settle. -/
theorem linkView_takeoverRow (tb : StructTables) (r : TakeoverRow) (s : State) :
    (takeoverRow tb r s).linkView = s.linkView := by
  refine foldl_leaves (fun s x => ?_) _ s
  extract_lets fired gone s₁ s₂
  split
  · refine (linkView_of_sansSettling (sansSettling_settleJob ..)).trans ?_
    simp only [s₂]
    split
    · obtain ⟨jobs, h⟩ := flagWales_eq (Fin.ofNat 64 x.ctx) (Fin.ofNat 8 x.plane) x.course 6 x.printed s₁
      rw [h]
      rfl
    · rfl
  · split
    · rfl
    · rfl

/-- A hub that has accepted the epoch is sent what it lacks. -/
theorem linkView_takeoverAccepted (e : EndpointRec) (digest : Nat) (rows : List TakeoverRow) (s : State) :
    (takeoverAccepted e digest rows s).linkView =
      (s.modEp (Fin.ofNat 64 e.idx) fun p => { p with accEpoch := s.mlk.epoch, takeoverAt := none }).linkView := by
  unfold takeoverAccepted
  extract_lets s₁
  split
  · rfl
  · next tb _ =>
    extract_lets s₂ s₃ s₄
    have hrows : s₂.linkView = s₁.linkView := foldl_leaves (fun s r => linkView_takeoverRow tb r s) rows s₁
    have hover : s₃.linkView = s₂.linkView := by
      simp only [s₃]
      split <;> rfl
    have htables : s₄.linkView = s₃.linkView := by
      simp only [s₄]
      split
      · rfl
      · refine (linkView_of_sansReports (sansReports_alarm ..)).trans (foldl_leaves (fun s f => ?_) _ _)
        split
        · exact linkView_pushRel ..
        · rfl
    rw [linkView_sendHubRel, linkView_restream, htables, hover, hrows]

section
variable {s : State} (hr : s.ringsRun = true) (t : Nat) {hub : Fin 48} {e : EndpointRec} {at_ : Nat}
  (he : s.epRec hub = some e) (hat : (s.mlk.eps[Fin.ofNat 64 hub.val]).takeoverAt = some at_)
include hr he hat

theorem exec_takeoverAckFrame (result wait digest : Nat) (rows : List TakeoverRow) :
    exec (.takeoverAckFrame t hub result wait digest rows) s = .next (after t s fun s =>
      if result = 0 then takeoverAccepted e digest rows s
      else if result = 1 then s.modEp (Fin.ofNat 64 hub) fun p => { p with takeoverAt := none }
      else (s.modEp (Fin.ofNat 64 hub) fun p => { p with takeoverAt := some (s.now + wait * 8) }).modXlk fun x =>
        { x with refusedSince := some (x.refusedSince.getD s.now) }) := by
  refine (ringCmd_eq_after hr ?_ : execTakeoverAckFrame t hub result wait digest rows s = _)
  have he' : (s.arrive t).epRec hub = some e := he
  have hat' : ((s.arrive t).mlk.eps[Fin.ofNat 64 hub.val]).takeoverAt = some at_ := hat
  simp only [he', hat']
  rfl

theorem leaves_takeoverAckFrame_of_accepted (wait digest : Nat) (rows : List TakeoverRow) :
    Leaves (.takeoverAckFrame t hub 0 wait digest rows) s fun s' =>
      (s'.mlk.eps[Fin.ofNat 64 hub.val]).accEpoch = s.mlk.epoch ∧ (s'.mlk.eps[Fin.ofNat 64 hub.val]).takeoverAt = none ∧
      SameMotion s s' := by
  have hidx : Fin.ofNat 64 e.idx = Fin.ofNat 64 hub.val := by
    rw [eq_of_beq (List.find?_some (p := fun r : EndpointRec => r.idx == hub.val) he)]
  have hview := linkView_takeoverAccepted e digest rows (s.arrive t)
  rw [hidx] at hview
  refine ⟨_, exec_takeoverAckFrame hr t he hat 0 wait digest rows, ?_, ?_, ?_⟩
  · refine (congrArg (fun r => r.2.2) (report_of_linkView hview (Fin.ofNat 64 hub.val)) :).trans ?_
    rw [State.modEp_ep_self]
    rfl
  · refine (takeover_of_linkView hview (Fin.ofNat 64 hub.val) :).trans ?_
    rw [State.modEp_ep_self]
  · exact (sameMotion_of_linkView hview :)

theorem exec_takeoverAckFrame_of_refused (wait digest : Nat) (rows : List TakeoverRow) :
    exec (.takeoverAckFrame t hub 1 wait digest rows) s = .next (after t s fun s =>
      s.modEp (Fin.ofNat 64 hub.val) fun p => { p with takeoverAt := none }) :=
  exec_takeoverAckFrame hr t he hat 1 wait digest rows

theorem leaves_takeoverAckFrame_of_wait (wait digest : Nat) (rows : List TakeoverRow) :
    Leaves (.takeoverAckFrame t hub 2 wait digest rows) s fun s' =>
      (s'.mlk.eps[Fin.ofNat 64 hub.val]).takeoverAt = some (max s.now t + wait * 8) ∧
      s'.xlk.refusedSince = some (s.xlk.refusedSince.getD (max s.now t)) ∧ s'.pac = s.pac ∧ s'.jobs = s.jobs := by
  have hep := State.modEp_ep_self (s.arrive t) (Fin.ofNat 64 hub.val) fun p =>
    { p with takeoverAt := some (max s.now t + wait * 8) }
  exact ⟨_, exec_takeoverAckFrame hr t he hat 2 wait digest rows, congrArg Endpoint.takeoverAt hep, rfl, rfl, rfl⟩

theorem exec_takeoverRepeat : exec (.takeoverRepeat t hub) s = .next (after t s fun s =>
    if s.mlk.holds = true ∧ at_ + 40000 ≤ s.now then sendTakeover e s else s) := by
  refine (ringCmd_eq_after hr ?_ : execTakeoverRepeat t hub s = _)
  have he' : (s.arrive t).epRec hub = some e := he
  have hat' : ((s.arrive t).mlk.eps[Fin.ofNat 64 hub.val]).takeoverAt = some at_ := hat
  simp only [he', hat']
  rfl

theorem exec_takeoverRepeat_of_due (hholds : s.mlk.holds = true) (hdue : at_ + 40000 ≤ max s.now t) :
    exec (.takeoverRepeat t hub) s = .next (after t s fun s =>
      (s.modEp (Fin.ofNat 64 e.number) fun p => { p with takeoverAt := some s.now }).emit
        (.hub e.number (.takeover s.mlk.epoch))) :=
  (exec_takeoverRepeat hr t he hat).trans (next_after_congr (if_pos ⟨hholds, hdue⟩))

theorem exec_takeoverRepeat_of_early (hearly : max s.now t < at_ + 40000) :
    exec (.takeoverRepeat t hub) s = .next (after t s id) :=
  (exec_takeoverRepeat hr t he hat).trans (next_after_congr (if_neg fun ⟨_, hdue⟩ => hearly.not_ge hdue))

end

/-- Without a takeover under way neither its repetition nor an answer to it does anything. -/
theorem exec_takeover_of_none {s : State} (hr : s.ringsRun = true) (t : Nat) {hub : Fin 48}
    (hnone : (s.mlk.eps[Fin.ofNat 64 hub.val]).takeoverAt = none) :
    exec (.takeoverRepeat t hub) s = .next (after t s id) ∧
      ∀ r w d rows, exec (.takeoverAckFrame t hub r w d rows) s = .next (after t s id) := by
  have hnone' : ((s.arrive t).mlk.eps[Fin.ofNat 64 hub.val]).takeoverAt = none := hnone
  refine ⟨(ringCmd_eq_after hr ?_ : execTakeoverRepeat t hub s = _), fun r w d rows =>
    (ringCmd_eq_after hr ?_ : execTakeoverAckFrame t hub r w d rows s = _)⟩
  · rw [hnone']
    cases (s.arrive t).epRec hub <;> rfl
  · rw [hnone']
    cases (s.arrive t).epRec hub <;> rfl

/-! ## The obligation -/

/-- Settles O29: an identity record is judged by R207 and stored for its head alone; a report, or its absence, ends a slot's
wait for the hub and counts what is unconfirmed; an accepted takeover leaves the hub with this device's epoch, whatever is
streamed to it again. -/
theorem hubReports : Obligations.HubReports := by
  intro t hub s hr
  refine ⟨fun l e tb port record h he htb hh => leaves_identFrame hr t he htb hh record,
    fun num bitmap x hx => leaves_reportFrame hr t hub hx bitmap, fun num x hx =>
      ⟨leaves_slotFaultFrame hr t hub hx, leaves_reportTimeout hr t hub hx, exec_reportTimeout_of_early hr t hub hx⟩,
    fun e at_ wait digest rows he hat => ⟨leaves_takeoverAckFrame_of_accepted hr t he hat wait digest rows,
      exec_takeoverAckFrame_of_refused hr t he hat wait digest rows, leaves_takeoverAckFrame_of_wait hr t he hat wait digest rows,
      exec_takeoverRepeat_of_due hr t he hat, exec_takeoverRepeat_of_early hr t he hat⟩, exec_takeover_of_none hr t⟩

end Sys2Proof.Machine
end

section
/-! The ports of the fabric (chapter 19): what frames, elections and addresses leave of them. -/
namespace Sys2Proof.Machine

open Sys2Proof.Claim

/-! ## One port -/

@[simp] theorem State.modPort_port_self (s : State) (n : Fin 32) (f : Port → Port) :
    (s.modPort n f).xlk.ports[n] = f s.xlk.ports[n] := upd_getElem_self ..

theorem State.modPort_port_of_ne {n m : Fin 32} (h : m ≠ n) (s : State) (f : Port → Port) :
    (s.modPort n f).xlk.ports[m] = s.xlk.ports[m] := upd_getElem_of_ne h ..

/-- An update of a port depends on the port alone. -/
theorem State.modPort_congr {n : Fin 32} {f g : Port → Port} {s : State} (h : f s.xlk.ports[n] = g s.xlk.ports[n]) :
    s.modPort n f = s.modPort n g := by
  have hports : upd s.xlk.ports n f = upd s.xlk.ports n g := by rw [upd, h, upd]
  exact congrArg (fun v => s.modXlk fun x => { x with ports := v }) hports

/-! ## The view -/

/-- A port without its reliable frames. -/
def Port.sansFrames (p : Port) : Port := { p with relNext := 0, rel := [], relWait := [] }

/-- The state without its reports, and the ports without their reliable frames. -/
def State.fabricView (s : State) : State × Vector Port 32 := (s.sansReports, s.xlk.ports.map (·.sansFrames))

theorem sansReports_of_fabricView {s s' : State} (h : s'.fabricView = s.fabricView) : s'.sansReports = s.sansReports :=
  congrArg Prod.fst h

theorem port_of_fabricView {s s' : State} (h : s'.fabricView = s.fabricView) (n : Fin 32) :
    (s'.xlk.ports[n]).sansFrames = (s.xlk.ports[n]).sansFrames := by
  simpa [State.fabricView] using congrArg (fun v => v.2[n]) h

/-- A change of a port's reliable frames leaves the view. -/
theorem fabricView_modPort {f : Port → Port} (h : ∀ p, (f p).sansFrames = p.sansFrames := by exact fun _ => rfl)
    {n : Fin 32} {s : State} : (s.modPort n f).fabricView = s.fabricView :=
  congrArg (fun v => (s.sansReports, v)) (map_upd_of_keeps h s.xlk.ports n)

theorem fabricView_emit (s : State) (o : Out) : (s.emit o).fabricView = s.fabricView := rfl

theorem fabricView_alarm (a : Alarm) (inst : Nat) (s : State) : (alarm a inst s).fabricView = s.fabricView := by
  rw [State.fabricView, sansReports_alarm, alarm, alarmArgs_xlk, State.fabricView]

/-! ## Frames -/

theorem fabricView_sendPort (n : Fin 32) (dst : Nat) (f : XlkTx) (s : State) :
    (sendPort n dst f s).fabricView = s.fabricView := by
  unfold sendPort
  simp only []
  split_ifs
  · rfl
  · exact fabricView_modPort
  · exact (fabricView_emit ..).trans fabricView_modPort

theorem fabricView_sendXlk (dst : Nat) (f : XlkTx) (s : State) : (sendXlk dst f s).fabricView = s.fabricView := by
  unfold sendXlk
  split
  · exact foldl_leaves (fun s n => fabricView_sendPort n dst f s) _ s
  · split
    · exact fabricView_sendPort ..
    · rfl

theorem fabricView_sendLinkState (s : State) : (sendLinkState s).fabricView = s.fabricView := by
  unfold sendLinkState
  split
  · exact fabricView_sendXlk ..
  · rfl

theorem fabricView_resendPort (n : Fin 32) (s : State) : (resendPort n s).fabricView = s.fabricView :=
  (foldl_leaves (fun s r => fabricView_emit ..) _ _).trans fabricView_modPort

/-- On a port the sending of an unreliable frame lets it out, and nothing else happens. -/
theorem sendPort_of_unreliable {f : XlkTx} (h : f.rel = false) (n : Fin 32) (dst : Nat) (s : State) :
    sendPort n dst f s = s.emit (.xlk (frameLane s n dst f) dst f) := by
  simp only [sendPort, h, Bool.not_false, if_true]

/-! ## Elections and addresses -/

theorem fabricView_noteReach (s : State) : (noteReach s).fabricView = s.fabricView := rfl

theorem fabricView_ceaseRoot (s : State) : (ceaseRoot s).fabricView = s.fabricView := by
  unfold ceaseRoot
  split
  · exact fabricView_alarm ..
  · rfl

theorem fabricView_electRoot (s : State) : (electRoot s).fabricView = s.fabricView := by
  unfold electRoot
  simp only []
  split_ifs
  · rfl
  · rfl
  · exact fabricView_ceaseRoot _

/-- What follows a change of a port's state leaves the ports. -/
theorem fabricView_portChanged (s : State) : (portChanged s).fabricView = s.fabricView := by
  rw [portChanged, fabricView_electRoot, fabricView_noteReach, fabricView_sendLinkState]

theorem fabricView_fabricFull (s : State) : (fabricFull s).fabricView = s.fabricView := by
  unfold fabricFull
  split
  · rfl
  · exact fabricView_alarm ..

theorem fabricView_assignUnit (uid : Nat) (s : State) : (assignUnit uid s).fabricView = s.fabricView := by
  unfold assignUnit
  simp only []
  split
  · exact fabricView_sendXlk ..
  · exact fabricView_fabricFull _

/-! ## A port goes down -/

/-- A port that is down, with its unacknowledged reliable frames kept (R381). -/
def Port.goDown (p : Port) (now : Nat) : Port := { Port.reset with since := now, rel := p.rel, relWait := p.relWait }

theorem portDown_of_not_up {n : Fin 32} {s : State} (h : (s.xlk.ports[n]).st ≠ .up) :
    portDown n s = s.modPort n fun p => p.goDown s.now := if_neg h

theorem fabricView_portDown (n : Fin 32) (s : State) :
    (portDown n s).fabricView = (s.modPort n fun p => p.goDown s.now).fabricView := by
  unfold portDown
  simp only []
  split
  · exact fabricView_portChanged _
  · rfl

/-! ## What a command leaves beside one port -/

/-- The other ports keep their states, and the print path and the motion hardware stay. -/
def SameBeside (n : Fin 32) (s s' : State) : Prop :=
  (∀ m, m ≠ n → (s'.xlk.ports[m]).st = (s.xlk.ports[m]).st) ∧ SamePrint s s' ∧ SameMotion s s'

/-- A command after which all but one port looks as it did leaves what stands beside that port. -/
theorem sameBeside_of_fabricView {n : Fin 32} {f : Port → Port} {s s' : State}
    (h : s'.fabricView = (s.modPort n f).fabricView) : SameBeside n s s' := by
  have hreports : s'.sansReports = s.sansReports := (sansReports_of_fabricView h).trans (sansReports_modPort ..)
  refine ⟨fun m hm => ?_, samePrint_of_sansReports hreports, sameMotion_of_sansReports hreports⟩
  have hport := congrArg Port.st (port_of_fabricView h m)
  rw [State.modPort_port_of_ne hm] at hport
  exact hport

theorem portSt_of_fabricView {n : Fin 32} {f : Port → Port} {s s' : State}
    (h : s'.fabricView = (s.modPort n f).fabricView) : (s'.xlk.ports[n]).st = (f s.xlk.ports[n]).st := by
  have hport := congrArg Port.st (port_of_fabricView h n)
  rw [State.modPort_port_self] at hport
  exact hport

end Sys2Proof.Machine
end

section
/-! Fabric ports, their lanes and bulk frames (R210, R311, R355 to R358, R381), and obligation O42. -/
namespace Sys2Proof.Machine

open Sys2Proof.Claim

/-! ## XLK_HELLO_FRAME -/

/-- A HELLO that fits has been heard: the port is UP; the root addresses a neighbour without an address. -/
def helloHeard (n : Fin 32) (h : XlkHello) (s : State) : State :=
  let up := if (s.xlk.ports[n]).st = .up then electRoot (noteReach (takeHello n h s))
    else portChanged (resendPort n (portTo .up n (takeHello n h s)))
  let addressed := if up.xlk.root ∧ h.addr = 0xFFFE then assignUnit h.unitId up else up
  if addressed.xlk.addr.isNone ∧ h.full then fabricFull addressed else addressed

/-- What a HELLO says of the neighbour, on a port that is UP. -/
def Port.heard (p : Port) (h : XlkHello) (now since : Nat) : Port :=
  { p with st := .up, since := since, lastHello := now, mismatch := false, neigh := h.addr, neighUid := h.unitId,
           rootId := h.rootId, rootDist := h.rootDist, full := h.full, proto := h.proto }

theorem fabricView_helloHeard (n : Fin 32) (h : XlkHello) (s : State) : ∃ since,
    (helloHeard n h s).fabricView = (s.modPort n fun p => p.heard h s.now since).fabricView := by
  unfold helloHeard
  extract_lets up addressed
  have haddressed : addressed.fabricView = up.fabricView := by
    simp only [addressed]
    split
    · exact fabricView_assignUnit ..
    · rfl
  have hfull : (if addressed.xlk.addr.isNone ∧ h.full then fabricFull addressed else addressed).fabricView =
      up.fabricView := by
    rw [← haddressed]
    split
    · exact fabricView_fabricFull _
    · rfl
  rw [hfull]
  simp only [up]
  split
  · next hup =>
    refine ⟨(s.xlk.ports[n]).since, ?_⟩
    rw [fabricView_electRoot, fabricView_noteReach]
    have hports : takeHello n h s = s.modPort n fun p => p.heard h s.now (s.xlk.ports[n]).since :=
      State.modPort_congr (by rw [Port.heard, ← hup])
    rw [hports]
  · refine ⟨s.now, ?_⟩
    rw [fabricView_portChanged, fabricView_resendPort]
    have hports : portTo .up n (takeHello n h s) = s.modPort n fun p => p.heard h s.now s.now := by
      simp [portTo, takeHello, State.modPort, State.modXlk, upd_upd, Port.heard]
    rw [hports]

section
variable {s : State} (hr : s.ringsRun = true) (t : Nat) {n : Fin 32}
include hr

/-- A port that listens for HELLO. -/
theorem exec_xlkHelloFrame (hst : (s.xlk.ports[n]).st = .hello ∨ (s.xlk.ports[n]).st = .up) (h : XlkHello) :
    exec (.xlkHelloFrame t n h) s = .next (after t s fun s =>
      if 2 < h.proto then s.modPort n fun p => { p with mismatch := true, lastHello := s.now } else helloHeard n h s) :=
  (ringCmd_eq_after hr (if_neg fun ⟨hhello, hup⟩ => hst.elim hhello hup) : execXlkHelloFrame t n h s = _)

theorem leaves_xlkHelloFrame {h : XlkHello} (hst : (s.xlk.ports[n]).st = .hello ∨ (s.xlk.ports[n]).st = .up)
    (hproto : h.proto ≤ 2) : Leaves (.xlkHelloFrame t n h) s fun s' => (s'.xlk.ports[n]).st = .up ∧
      (s'.xlk.ports[n]).neigh = h.addr ∧ (s'.xlk.ports[n]).neighUid = h.unitId ∧ (s'.xlk.ports[n]).rootId = h.rootId ∧
      (s'.xlk.ports[n]).rootDist = h.rootDist ∧ (s'.xlk.ports[n]).mismatch = false ∧
      (s'.xlk.ports[n]).lastHello = max s.now t ∧ SameBeside n s s' := by
  obtain ⟨since, hview⟩ := fabricView_helloHeard n h (s.arrive t)
  have hport := port_of_fabricView hview n
  rw [State.modPort_port_self] at hport
  refine ⟨_, (exec_xlkHelloFrame hr t hst h).trans (next_after_congr (g := helloHeard n h) (if_neg hproto.not_gt)), ?_⟩
  exact ⟨(congrArg Port.st hport :), (congrArg Port.neigh hport :), (congrArg Port.neighUid hport :),
    (congrArg Port.rootId hport :), (congrArg Port.rootDist hport :), (congrArg Port.mismatch hport :),
    (congrArg Port.lastHello hport :), (sameBeside_of_fabricView hview :)⟩

theorem exec_xlkHelloFrame_of_proto {h : XlkHello} (hst : (s.xlk.ports[n]).st = .hello ∨ (s.xlk.ports[n]).st = .up)
    (hproto : 2 < h.proto) : exec (.xlkHelloFrame t n h) s = .next (after t s fun s =>
      s.modPort n fun p => { p with mismatch := true, lastHello := s.now }) :=
  (exec_xlkHelloFrame hr t hst h).trans (next_after_congr (if_pos hproto))

/-! ## XLK_HELLO_TIMEOUT -/

theorem leaves_xlkHelloTimeout (hst : (s.xlk.ports[n]).st = .hello ∨ (s.xlk.ports[n]).st = .up)
    (hdue : max (s.xlk.ports[n]).since (s.xlk.ports[n]).lastHello + 2400000 ≤ max s.now t) :
    Leaves (.xlkHelloTimeout t n) s fun s' => (s'.xlk.ports[n]).st = .down ∧ (s'.xlk.ports[n]).since = max s.now t ∧
      ((s.xlk.ports[n]).st = .hello → (s'.xlk.ports[n]).rel = (s.xlk.ports[n]).rel) ∧ SameBeside n s s' := by
  have hexec : exec (.xlkHelloTimeout t n) s = .next (after t s (portDown n)) :=
    (ringCmd_eq_after hr (if_pos ⟨hst, hdue⟩) : execXlkHelloTimeout t n s = _)
  have hview := fabricView_portDown n (s.arrive t)
  have hport := port_of_fabricView hview n
  rw [State.modPort_port_self] at hport
  refine ⟨_, hexec, (congrArg Port.st hport :), (congrArg Port.since hport :), fun hhello => ?_,
    (sameBeside_of_fabricView hview :)⟩
  have hhello' : ((s.arrive t).xlk.ports[n]).st = .hello := hhello
  have hdown := portDown_of_not_up (n := n) (s := s.arrive t) (by rw [hhello']; decide)
  refine (congrArg (fun x : State => (x.xlk.ports[n]).rel) hdown : _).trans ?_
  rw [State.modPort_port_self]
  rfl

theorem exec_xlkHelloTimeout_of_early
    (hearly : max s.now t < max (s.xlk.ports[n]).since (s.xlk.ports[n]).lastHello + 2400000) :
    exec (.xlkHelloTimeout t n) s = .next (after t s id) :=
  (ringCmd_eq_after hr (if_neg fun ⟨_, hdue⟩ => hearly.not_ge hdue) : execXlkHelloTimeout t n s = _)

/-- A port that is DOWN or in TRAIN hears no HELLO and misses none. -/
theorem exec_xlkHello_of_deaf (hhello : (s.xlk.ports[n]).st ≠ .hello) (hup : (s.xlk.ports[n]).st ≠ .up) (h : XlkHello) :
    exec (.xlkHelloFrame t n h) s = .next (after t s id) ∧ exec (.xlkHelloTimeout t n) s = .next (after t s id) :=
  ⟨(ringCmd_eq_after hr (if_pos ⟨hhello, hup⟩) : execXlkHelloFrame t n h s = _),
    (ringCmd_eq_after hr (if_neg fun ⟨hst, _⟩ => hst.elim hhello hup) : execXlkHelloTimeout t n s = _)⟩

end

/-! ## Lanes of a port -/

/-- An acknowledgement removes all frames up to its number. -/
theorem portAck_eq {n : Fin 32} {s : State} {a b : List XRel} {r : XRel} (hwait : (s.xlk.ports[n]).relWait = [])
    (hrel : (s.xlk.ports[n]).rel = a ++ r :: b) (hfirst : ∀ x ∈ a, x.seq ≠ r.seq) :
    portAck r.seq n s = s.modPort n fun p => { p with rel := b, relWait := [] } := by
  have hany : (s.xlk.ports[n]).rel.any (fun x => x.seq == r.seq) = true :=
    List.any_eq_true.mpr ⟨r, by rw [hrel]; simp, beq_self_eq_true _⟩
  have hleft : ((s.xlk.ports[n]).rel.dropWhile fun x => x.seq != r.seq).drop 1 = b := by
    rw [hrel, List.dropWhile_append_of_pos (by simpa using hfirst)]
    simp
  simp only [portAck, hany, if_true, hleft, hwait, drainPort]

section
variable {s : State} (hr : s.ringsRun = true) (t : Nat) {n : Fin 32} {lane : Fin 64} (hport : lanePort s lane = some n)
include hr hport

theorem exec_laneTrainingDone_of_port (ok : Bool) :
    exec (.laneTrainingDone t lane ok) s = .next (after t s (portTrained lane ok n)) := by
  refine (ringCmd_eq_after hr ?_ : execLaneTrainingDone t lane ok s = _)
  have hport' : lanePort (s.arrive t) lane = some n := hport
  simp only [hport']

theorem leaves_laneTrainingDone_of_failed (hst : (s.xlk.ports[n]).st = .train) :
    Leaves (.laneTrainingDone t lane false) s fun s' => (s'.xlk.ports[n]).st = .down ∧ SameBeside n s s' := by
  have hst' : ((s.arrive t).xlk.ports[n]).st = .train := hst
  have hdown : portTrained lane false n (s.arrive t) = portDown n (s.arrive t) := by
    simp only [portTrained, hst', ne_eq, not_true, if_false, Bool.not_false, if_true]
  have hview := fabricView_portDown n (s.arrive t)
  exact ⟨_, (exec_laneTrainingDone_of_port hr t hport false).trans (next_after_congr (g := portDown n) hdown),
    (portSt_of_fabricView hview :), (sameBeside_of_fabricView hview :)⟩

/-- Once its last lane has trained, a port listens for HELLO. -/
theorem leaves_laneTrainingDone_of_last (hst : (s.xlk.ports[n]).st = .train)
    (hlast : ∀ k ∈ fabricLanes s n, k = lane.val ∨ k ∈ (s.xlk.ports[n]).trained) :
    Leaves (.laneTrainingDone t lane true) s fun s' =>
      (s'.xlk.ports[n]).st = .hello ∧ s'.regs = s.regs ∧ SameBeside n s s' := by
  let noted := (s.arrive t).modPort n fun p => { p with trained := (lane.val :: p.trained).eraseDups }
  have hall : (fabricLanes noted n).all (fun k => (noted.xlk.ports[n]).trained.contains k) = true := by
    refine List.all_eq_true.mpr fun k hk => List.contains_iff_mem.mpr ?_
    rw [State.modPort_port_self]
    exact List.mem_eraseDups.mpr (List.mem_cons.mpr (hlast k hk))
  have hst' : ((s.arrive t).xlk.ports[n]).st = .train := hst
  have htrained : portTrained lane true n (s.arrive t) = portTo .hello n noted := by
    simp only [portTrained, hst', ne_eq, not_true, if_false, Bool.not_true, Bool.false_eq_true]
    exact if_pos hall
  have hview : (portTo .hello n noted).fabricView = ((s.arrive t).modPort n fun p =>
      { p with trained := (lane.val :: p.trained).eraseDups, st := .hello, since := max s.now t }).fabricView := by
    have hports : portTo .hello n noted = (s.arrive t).modPort n fun p =>
        { p with trained := (lane.val :: p.trained).eraseDups, st := .hello, since := max s.now t } := by
      simp [portTo, noted, State.modPort, State.modXlk, upd_upd]
    rw [hports]
  exact ⟨_, (exec_laneTrainingDone_of_port hr t hport true).trans
    (next_after_congr (g := fun _ => portTo .hello n noted) htrained), (portSt_of_fabricView hview :), rfl,
    (sameBeside_of_fabricView hview :)⟩

theorem leaves_pcsAlignmentLoss_of_port (hst : (s.xlk.ports[n]).st ≠ .down) :
    Leaves (.pcsAlignmentLoss t lane) s fun s' => (s'.xlk.ports[n]).st = .down ∧ SameBeside n s s' := by
  have hexec : exec (.pcsAlignmentLoss t lane) s = .next (after t s (portDown n)) := by
    refine (ringCmd_eq_after hr ?_ : execPcsAlignmentLoss t lane s = _)
    have hport' : lanePort (s.arrive t) lane = some n := hport
    simp only [hport']
    exact if_pos hst
  have hview := fabricView_portDown n (s.arrive t)
  exact ⟨_, hexec, (portSt_of_fabricView hview :), (sameBeside_of_fabricView hview :)⟩

theorem exec_pcsAlignmentLoss_of_portDown (hst : (s.xlk.ports[n]).st = .down) :
    exec (.pcsAlignmentLoss t lane) s = .next (after t s id) := by
  refine (ringCmd_eq_after hr ?_ : execPcsAlignmentLoss t lane s = _)
  have hport' : lanePort (s.arrive t) lane = some n := hport
  simp only [hport']
  exact if_neg (not_not.mpr hst)

/-- A port without its reference clock stays as it is; one with it trains again 100 ms after it went down. -/
theorem exec_laneDownRetrain_of_port : exec (.laneDownRetrain t lane) s = .next (after t s fun s =>
    if qrefOn s lane = false then s
    else if (s.xlk.ports[n]).st = .down ∧ (s.xlk.ports[n]).since + 800000000 ≤ s.now ∧ s.isDisabled 0x09 n = false
      then portTo .train n s else s) := by
  refine (ringCmd_eq_after hr ?_ : execLaneDownRetrain t lane s = _)
  have hport' : lanePort (s.arrive t) lane = some n := hport
  simp only [hport', Bool.not_eq_true']
  rfl

theorem exec_laneDownRetrain_of_portDue (hclock : qrefOn s lane = true) (hst : (s.xlk.ports[n]).st = .down)
    (hdue : (s.xlk.ports[n]).since + 800000000 ≤ max s.now t) (hon : s.isDisabled 0x09 n = false) :
    exec (.laneDownRetrain t lane) s = .next (after t s fun s =>
      s.modPort n fun p => { p with st := .train, since := s.now }) := by
  have hclock' : ¬qrefOn (s.arrive t) lane = false := ne_false_of_eq_true hclock
  exact (exec_laneDownRetrain_of_port hr t hport).trans
    (next_after_congr ((if_neg hclock').trans (if_pos ⟨hst, hdue, hon⟩)))

theorem exec_laneDownRetrain_of_portEarly (hearly : max s.now t < (s.xlk.ports[n]).since + 800000000) :
    exec (.laneDownRetrain t lane) s = .next (after t s id) := by
  refine (exec_laneDownRetrain_of_port hr t hport).trans (next_after_congr ?_)
  by_cases hclock : qrefOn (s.arrive t) lane = false
  · exact if_pos hclock
  · exact (if_neg hclock).trans (if_neg fun ⟨_, hdue, _⟩ => hearly.not_ge hdue)

/-! ## Reliable frames of a port -/

/-- On a port that is UP the oldest unacknowledged frame decides. -/
theorem exec_relRetransmit_of_port {r : XRel} {rest : List XRel} (hrel : (s.xlk.ports[n]).rel = r :: rest)
    (hst : (s.xlk.ports[n]).st = .up) : exec (.relRetransmit t lane) s = .next (after t s fun s =>
      if s.now < r.sentAt + 400000 then s
      else if 16 ≤ r.tries then portDown n s
      else (s.modPort n fun p => { p with rel := { r with sentAt := s.now, tries := r.tries + 1 } :: rest }).emit
        (.xlk (frameLane s n r.dst r.frame) r.dst r.frame)) := by
  refine (ringCmd_eq_after hr ?_ : execRelRetransmit t lane s = _)
  have hport' : lanePort (s.arrive t) lane = some n := hport
  have hrel' : ((s.arrive t).xlk.ports[n]).rel = r :: rest := hrel
  have hst' : ((s.arrive t).xlk.ports[n]).st = .up := hst
  simp only [hport', portRetry, hrel', hst', ne_eq, not_true, false_or]
  rfl

theorem leaves_relRetransmit_of_portDue {r : XRel} {rest : List XRel} (hrel : (s.xlk.ports[n]).rel = r :: rest)
    (hst : (s.xlk.ports[n]).st = .up) (hdue : r.sentAt + 400000 ≤ max s.now t) (htries : r.tries < 16) :
    Leaves (.relRetransmit t lane) s fun s' =>
      (s'.xlk.ports[n]).rel = { r with sentAt := max s.now t, tries := r.tries + 1 } :: rest ∧
      s'.out = [.xlk (frameLane s n r.dst r.frame) r.dst r.frame] ∧ s'.regs = s.regs ∧ SameBeside n s s' := by
  let again : Port → Port := fun p => { p with rel := { r with sentAt := max s.now t, tries := r.tries + 1 } :: rest }
  let sent := ((s.arrive t).modPort n again).emit (.xlk (frameLane s n r.dst r.frame) r.dst r.frame)
  have hview : sent.fabricView = ((s.arrive t).modPort n again).fabricView := fabricView_emit ..
  have hrel' : sent.xlk.ports[n] = again s.xlk.ports[n] := State.modPort_port_self (s.arrive t) n again
  exact ⟨_, (exec_relRetransmit_of_port hr t hport hrel hst).trans
    (next_after_congr (g := fun _ => sent) ((if_neg hdue.not_gt).trans (if_neg htries.not_ge))),
    congrArg Port.rel hrel', rfl, rfl, (sameBeside_of_fabricView hview :)⟩

/-- A port whose oldest frame has been sent 16 times again without success goes down. -/
theorem leaves_relRetransmit_of_portFailed {r : XRel} {rest : List XRel} (hrel : (s.xlk.ports[n]).rel = r :: rest)
    (hst : (s.xlk.ports[n]).st = .up) (hdue : r.sentAt + 400000 ≤ max s.now t) (htries : 16 ≤ r.tries) :
    Leaves (.relRetransmit t lane) s fun s' => (s'.xlk.ports[n]).st = .down ∧ SameBeside n s s' := by
  have hview := fabricView_portDown n (s.arrive t)
  exact ⟨_, (exec_relRetransmit_of_port hr t hport hrel hst).trans
    (next_after_congr (g := portDown n) ((if_neg hdue.not_gt).trans (if_pos htries))),
    (portSt_of_fabricView hview :), (sameBeside_of_fabricView hview :)⟩

theorem exec_relRetransmit_of_portEarly {r : XRel} {rest : List XRel} (hrel : (s.xlk.ports[n]).rel = r :: rest)
    (hst : (s.xlk.ports[n]).st = .up) (hearly : max s.now t < r.sentAt + 400000) :
    exec (.relRetransmit t lane) s = .next (after t s id) :=
  (exec_relRetransmit_of_port hr t hport hrel hst).trans (next_after_congr (if_pos hearly))

theorem leaves_ackFrame_of_port {a b : List XRel} {r : XRel} {seq : Nat} (hlane : s.laneEp lane = none)
    (hidle : (s.mlk.lanes[lane]).relOut = []) (hwait : (s.xlk.ports[n]).relWait = [])
    (hrel : (s.xlk.ports[n]).rel = a ++ r :: b) (hseq : r.seq = seq) (hfirst : ∀ x ∈ a, x.seq ≠ seq) :
    Leaves (.ackFrame t lane seq) s fun s' => (s'.xlk.ports[n]).rel = b ∧ SameBeside n s s' := by
  subst hseq
  let acked := (s.arrive t).modPort n fun p => { p with rel := b, relWait := [] }
  have hexec : exec (.ackFrame t lane r.seq) s = .next (after t s fun _ => acked) := by
    refine (ringCmd_eq_after hr ?_ : execAckFrame t lane r.seq s = _)
    have hport' : lanePort (s.arrive t) lane = some n := hport
    have hack : portAck r.seq n (s.arrive t) = acked := portAck_eq hwait hrel hfirst
    have hidle' : (acked.mlk.lanes[lane]).relOut = [] := hidle
    have htake : takeAck lane r.seq acked = acked := takeAck_of_unknown (by rw [hidle']; nofun)
    have hlane' : acked.laneEp lane = none := hlane
    simp only [hport', hack, htake, hlane']
  have hport' : acked.xlk.ports[n] = { s.xlk.ports[n] with rel := b, relWait := [] } := upd_getElem_self ..
  have hview : acked.fabricView = ((s.arrive t).modPort n fun p => { p with rel := b, relWait := [] }).fabricView := rfl
  exact ⟨_, hexec, congrArg Port.rel hport', (sameBeside_of_fabricView hview :)⟩

end

/-! ## BULKDATA_FRAME -/

theorem sendPort_regs (n : Fin 32) (dst : Nat) (f : XlkTx) (s : State) : (sendPort n dst f s).regs = s.regs := by
  unfold sendPort
  simp only []
  split_ifs <;> rfl

theorem sendPort_bulkWait (n : Fin 32) (dst : Nat) (f : XlkTx) (s : State) :
    (sendPort n dst f s).xlk.bulkWait = s.xlk.bulkWait := by
  unfold sendPort
  simp only []
  split_ifs <;> rfl

/-- A frame for one address that has a route leaves on one port. -/
theorem sendXlk_of_route {dst : Nat} {s : State} (hone : dst ≠ 0xFFFF) (hroute : (route s dst).isSome = true) (f : XlkTx) :
    ∃ n, sendXlk dst f s = sendPort n dst f s := by
  obtain ⟨⟨cost, hops⟩, h⟩ := Option.isSome_iff_exists.mp hroute
  exact ⟨_, by simp only [sendXlk, if_neg hone, h]; rfl⟩

section
variable {s : State} (hr : s.ringsRun = true) (t : Nat) (n : Fin 32) (src : Nat) {dst : Nat} (hops bytes : Nat)
include hr

theorem exec_bulkdataFrame (hone : dst ≠ 0xFFFF) : exec (.bulkdataFrame t n src dst hops bytes) s =
    .next (after t s fun s => if s.xlk.addr = some dst ∨ dst = 0xFFFE then s
      else if hops = 0 ∨ (route s dst).isNone then s.count Reg.xlkDrop
      else sendBulk src dst (hops - 1) bytes s) :=
  (ringCmd_eq_after hr (if_neg hone) : execBulkdataFrame t n src dst hops bytes s = _)

theorem exec_bulkdataFrame_of_own (hmine : s.xlk.addr = some dst ∨ dst = 0xFFFE) (hone : dst ≠ 0xFFFF) :
    exec (.bulkdataFrame t n src dst hops bytes) s = .next (after t s id) :=
  (exec_bulkdataFrame hr t n src hops bytes hone).trans (next_after_congr (if_pos hmine))

theorem exec_bulkdataFrame_of_dropped (hother : s.xlk.addr ≠ some dst) (hlink : dst ≠ 0xFFFE) (hone : dst ≠ 0xFFFF)
    (hlost : hops = 0 ∨ route s dst = none) : exec (.bulkdataFrame t n src dst hops bytes) s =
      .next (after t s fun s => s.count Reg.xlkDrop) := by
  have hlost' : hops = 0 ∨ (route (s.arrive t) dst).isNone = true := hlost.imp_right Option.isNone_iff_eq_none.mpr
  exact (exec_bulkdataFrame hr t n src hops bytes hone).trans
    (next_after_congr ((if_neg fun h => h.elim hother hlink).trans (if_pos hlost')))

theorem exec_bulkdataFrame_of_forwarded (hother : s.xlk.addr ≠ some dst) (hlink : dst ≠ 0xFFFE) (hone : dst ≠ 0xFFFF)
    (hhops : 0 < hops) (hroute : (route s dst).isSome = true) : exec (.bulkdataFrame t n src dst hops bytes) s =
      .next (after t s (sendBulk src dst (hops - 1) bytes)) := by
  have hkept : ¬(hops = 0 ∨ (route (s.arrive t) dst).isNone = true) := fun h =>
    h.elim hhops.ne' fun h => by
      rw [Option.isNone_iff_eq_none] at h
      have hsome : (route (s.arrive t) dst).isSome = true := hroute
      rw [h] at hsome
      exact Bool.noConfusion hsome
  exact (exec_bulkdataFrame hr t n src hops bytes hone).trans
    (next_after_congr ((if_neg fun h => h.elim hother hlink).trans (if_neg hkept)))

theorem leaves_bulkdataFrame_of_tokens (hother : s.xlk.addr ≠ some dst) (hlink : dst ≠ 0xFFFE) (hone : dst ≠ 0xFFFF)
    (hhops : 0 < hops) (hroute : (route s dst).isSome = true) (htokens : 0 < s.pwr.fabBucket.tokens) :
    Leaves (.bulkdataFrame t n src dst hops bytes) s fun s' =>
      s'.pwr.fabBucket.tokens = s.pwr.fabBucket.tokens - bytes ∧ s'.xlk.bulkWait = s.xlk.bulkWait ∧ s'.regs = s.regs := by
  let drawn := (s.arrive t).modPwr fun p =>
    { p with fabBucket := { p.fabBucket with tokens := p.fabBucket.tokens - bytes } }
  have hroute' : (route drawn dst).isSome = true := hroute
  obtain ⟨m, hsend⟩ := sendXlk_of_route hone hroute' (.bulk src (hops - 1) bytes)
  have hbulk : sendBulk src dst (hops - 1) bytes (s.arrive t) = sendPort m dst (.bulk src (hops - 1) bytes) drawn :=
    (if_neg htokens.ne').trans hsend
  have hpwr : (sendPort m dst (.bulk src (hops - 1) bytes) drawn).pwr = drawn.pwr :=
    eq_of_sansReports (sansReports_sendPort ..) (g := State.pwr) fun _ => rfl
  exact ⟨_, (exec_bulkdataFrame_of_forwarded hr t n src hops bytes hother hlink hone hhops hroute).trans
    (next_after_congr (g := fun _ => _) hbulk), (congrArg (fun p => p.fabBucket.tokens) hpwr :),
    (sendPort_bulkWait m dst _ drawn :), (sendPort_regs m dst _ drawn :)⟩

theorem exec_bulkdataFrame_of_empty (hother : s.xlk.addr ≠ some dst) (hlink : dst ≠ 0xFFFE) (hone : dst ≠ 0xFFFF)
    (hhops : 0 < hops) (hroute : (route s dst).isSome = true) (hempty : s.pwr.fabBucket.tokens = 0) :
    exec (.bulkdataFrame t n src dst hops bytes) s = .next (after t s fun s =>
      s.modXlk fun x => { x with bulkWait := x.bulkWait ++ [(src, dst, hops - 1, bytes)] }) :=
  (exec_bulkdataFrame_of_forwarded hr t n src hops bytes hother hlink hone hhops hroute).trans
    (next_after_congr (if_pos hempty))

/-- A broadcast that did not come by the route to its sender is not accepted. -/
theorem exec_bulkdataFrame_of_stray (hstray : (route s src).bind (·.2.head?) ≠ some n.val) :
    exec (.bulkdataFrame t n src 0xFFFF hops bytes) s = .next (after t s id) := by
  refine (ringCmd_eq_after hr ?_ : execBulkdataFrame t n src 0xFFFF hops bytes s = _)
  exact (if_pos rfl).trans (if_pos hstray)

end

/-! ## The obligation -/

/-- Settles O42: what frames, elections and addresses do beside leaves every port but for its reliable frames, so that each
command moves the state of one port alone; a bulk frame is decided by its destination, its hops, its route and the bucket.
That a HELLO of another PROTO on a port that is UP only sets MISMATCH is log entry 70. -/
theorem fabricPorts_settled : Obligations.FabricPorts := by
  intro t n lane h seq src dst hops bytes s hr p others
  refine ⟨leaves_xlkHelloFrame hr t, exec_xlkHelloFrame_of_proto hr t, fun hhello hup => exec_xlkHello_of_deaf hr t hhello hup h,
    leaves_xlkHelloTimeout hr t, exec_xlkHelloTimeout_of_early hr t, fun hport => ?_,
    exec_bulkdataFrame_of_own hr t n src hops bytes, exec_bulkdataFrame_of_dropped hr t n src hops bytes,
    fun hother hlink hone hhops hroute =>
      ⟨leaves_bulkdataFrame_of_tokens hr t n src hops bytes hother hlink hone hhops hroute,
        exec_bulkdataFrame_of_empty hr t n src hops bytes hother hlink hone hhops hroute⟩,
    exec_bulkdataFrame_of_stray hr t n src hops bytes⟩
  exact ⟨leaves_laneTrainingDone_of_failed hr t hport, leaves_laneTrainingDone_of_last hr t hport,
    leaves_pcsAlignmentLoss_of_port hr t hport, exec_pcsAlignmentLoss_of_portDown hr t hport,
    exec_laneDownRetrain_of_portDue hr t hport, exec_laneDownRetrain_of_portEarly hr t hport,
    fun r rest hrel hst => ⟨leaves_relRetransmit_of_portDue hr t hport hrel hst,
      leaves_relRetransmit_of_portFailed hr t hport hrel hst, exec_relRetransmit_of_portEarly hr t hport hrel hst⟩,
    fun a r b => leaves_ackFrame_of_port hr t hport⟩

end Sys2Proof.Machine
end

section
/-! Press time (R217, R218, R361, R362, R504): exchanges with neighbours, their errors, and the edges of TIME_PPS. -/
namespace Sys2Proof.Machine

open Sys2Proof.Claim

/-! ## What a command leaves beside press time -/

/-- Register words, the print path and the motion hardware stay. -/
def SameBesideTime (s s' : State) : Prop := s'.regs = s.regs ∧ SamePrint s s' ∧ SameMotion s s'

theorem SameBesideTime.refl (s : State) : SameBesideTime s s :=
  ⟨rfl, ⟨rfl, rfl, rfl, rfl, rfl, rfl, rfl, rfl, rfl, rfl⟩, rfl, rfl, rfl, rfl⟩

theorem alarm_xlk (a : Alarm) (inst : Nat) (s : State) : (alarm a inst s).xlk = s.xlk := alarmArgs_xlk a inst 0 0 0 s

theorem alarm_pressBase (a : Alarm) (inst : Nat) (s : State) : (alarm a inst s).pressBase = s.pressBase := by
  obtain ⟨log, regs, pci, out, h⟩ := alarmArgs_eq a inst 0 0 0 s
  rw [alarm, h]

/-- An alarm leaves the print path and the motion hardware. -/
theorem samePrint_alarm (a : Alarm) (inst : Nat) (s : State) : SamePrint s (alarm a inst s) :=
  samePrint_of_sansReports (sansReports_alarm ..)

theorem sameMotion_alarm (a : Alarm) (inst : Nat) (s : State) : SameMotion s (alarm a inst s) :=
  sameMotion_of_sansReports (sansReports_alarm ..)

/-! ## XLK_SYNC_SEND and XLK_SYNC_FRAME -/

/-- An unreliable frame that does not depend on what has left leaves on each of a list of ports, and nothing else happens. -/
theorem foldl_sendPort_of_unreliable {f : State → XlkTx} (hrel : ∀ s, (f s).rel = false)
    (hf : ∀ s o, f (State.emit s o) = f s) (dst : Nat) (l : List (Fin 32)) (s : State) :
    l.foldl (fun s n => sendPort n dst (f s) s) s =
      { s with out := s.out ++ l.map fun n : Fin 32 => .xlk (frameLane s n dst (f s)) dst (f s) } := by
  have hsend : (fun s (n : Fin 32) => sendPort n dst (f s) s) =
      fun s (n : Fin 32) => State.emit s (.xlk (frameLane s n dst (f s)) dst (f s)) := by
    funext s n
    exact sendPort_of_unreliable (hrel s) n dst s
  rw [hsend]
  refine foldl_emit_eq (fun s o n => ?_) l s
  rw [hf]
  rfl

section
variable {s : State} (hr : s.ringsRun = true) (t : Nat)
include hr

theorem leaves_xlkSyncSend : Leaves (.xlkSyncSend t) s fun s' =>
    s'.xlk.exchange = some ⟨s.xlk.syncN, (s.arrive t).press⟩ ∧ s'.xlk.syncN = (s.xlk.syncN + 1) % 2 ^ 32 ∧
      s'.out = (upPorts s).map (fun m =>
        .xlk (frameLane s m 0xFFFE (.sync s.xlk.syncN (s.arrive t).press)) 0xFFFE (.sync s.xlk.syncN (s.arrive t).press)) ∧
      SameBesideTime s s' := by
  let begun := (s.arrive t).modXlk fun x =>
    { x with exchange := some ⟨s.xlk.syncN, (s.arrive t).press⟩, syncN := (s.xlk.syncN + 1) % 2 ^ 32 }
  have hsent := foldl_sendPort_of_unreliable (f := fun s' => .sync s.xlk.syncN s'.press) (fun _ => rfl) (fun _ _ => rfl)
    0xFFFE (upPorts s) begun
  exact ⟨_, (ringCmd_eq_after hr (g := fun _ => { begun with
    out := begun.out ++ (upPorts s).map fun m : Fin 32 =>
      .xlk (frameLane begun m 0xFFFE (.sync s.xlk.syncN begun.press)) 0xFFFE (.sync s.xlk.syncN begun.press) }) hsent :
    execXlkSyncSend t s = _), rfl, rfl, rfl, (SameBesideTime.refl s :)⟩

section
variable (n : Fin 32)

theorem exec_xlkSyncFrame_sync (k t1 : Nat) : exec (.xlkSyncFrame t n (.sync k t1)) s = .next (after t s fun s =>
    s.emit (.xlk (frameLane s n 0xFFFE (.syncResp k s.now s.now)) 0xFFFE (.syncResp k s.now s.now))) :=
  (ringCmd_eq_after hr (sendPort_of_unreliable (f := .syncResp k _ _) rfl n 0xFFFE (s.arrive t)) :
    execXlkSyncFrame t n (.sync k t1) s = _)

theorem exec_xlkSyncFrame_resp {k : Nat} (hopen : ∃ e, s.xlk.exchange = some e ∧ e.n = k) (h2 h3 t4 : Nat) :
    exec (.xlkSyncFrame t n (.resp k h2 h3 t4)) s = .next (after t s fun s =>
      s.emit (.xlk (frameLane s n 0xFFFE (.syncFollow k t4)) 0xFFFE (.syncFollow k t4))) := by
  obtain ⟨e, he, hn⟩ := hopen
  have hany : ((s.arrive t).xlk.exchange.any fun e => e.n == k) = true := by
    have he' : (s.arrive t).xlk.exchange = some e := he
    rw [he', Option.any_some, hn, beq_self_eq_true]
  refine (ringCmd_eq_after hr ?_ : execXlkSyncFrame t n (.resp k h2 h3 t4) s = _)
  exact (if_pos hany).trans (sendPort_of_unreliable rfl n 0xFFFE (s.arrive t))

theorem exec_xlkSyncFrame_resp_of_other {k : Nat} (hother : ∀ e, s.xlk.exchange = some e → e.n ≠ k) (h2 h3 t4 : Nat) :
    exec (.xlkSyncFrame t n (.resp k h2 h3 t4)) s = .next (after t s id) := by
  have hany : ¬((s.arrive t).xlk.exchange.any fun e => e.n == k) = true := fun h => by
    obtain ⟨e, he, hn⟩ := (Option.any_eq_true ..).mp h
    exact hother e he (beq_iff_eq.mp hn)
  exact (ringCmd_eq_after hr (g := id) (if_neg hany) : execXlkSyncFrame t n (.resp k h2 h3 t4) s = _)

variable {n : Fin 32} (k : Nat) (a : Int) (t1 h2 h3 t4 : Nat)

theorem exec_xlkSyncFrame_follow (hparent : parentPort s = some n.val) :
    exec (.xlkSyncFrame t n (.follow k a t1 h2 h3 t4)) s = .next (after t s (takeFollow t1 h2 h3 t4)) := by
  have hparent' : parentPort (s.arrive t) = some n.val := hparent
  exact (ringCmd_eq_after hr (if_pos hparent') : execXlkSyncFrame t n (.follow k a t1 h2 h3 t4) s = _)

theorem exec_xlkSyncFrame_follow_of_other (hparent : parentPort s ≠ some n.val) :
    exec (.xlkSyncFrame t n (.follow k a t1 h2 h3 t4)) s = .next (after t s id) := by
  have hparent' : parentPort (s.arrive t) ≠ some n.val := hparent
  exact (ringCmd_eq_after hr (g := id) (if_neg hparent') : execXlkSyncFrame t n (.follow k a t1 h2 h3 t4) s = _)

end

end

/-! ## A device that is not synced -/

/-- A good exchange is counted; the eighth in a row synchronises the device. -/
theorem stepTime_of_near {err : Int} (h : err.natAbs ≤ 8) (s : State) :
    stepTime err s = s.modXlk fun x =>
      { x with goodEx := x.goodEx + 1, timeSynced := if 8 ≤ x.goodEx + 1 then true else x.timeSynced,
               badEx := if 8 ≤ x.goodEx + 1 then 0 else x.badEx } := by
  rw [stepTime, if_pos h]
  by_cases hgood : 8 ≤ s.xlk.goodEx + 1 <;> simp [State.modXlk, hgood]

theorem stepTime_of_idle {err : Int} {s : State} (h : 8 < err.natAbs) (hidle : s.anyActive = false) :
    stepTime err s = { s.modXlk fun x => { x with goodEx := 0 } with pressBase := s.pressBase + err } := by
  have hidle' : ¬(s.modXlk fun x => { x with goodEx := 0 }).anyActive = true := Bool.eq_false_iff.mp hidle
  exact (if_neg h.not_ge).trans (if_neg hidle')

theorem stepTime_of_active {err : Int} {s : State} (h : 8 < err.natAbs) (hactive : s.anyActive = true) :
    stepTime err s = alarm .xlkTimeStepBlocked noInst (s.modXlk fun x => { x with goodEx := 0 }) := by
  have hactive' : (s.modXlk fun x => { x with goodEx := 0 }).anyActive = true := hactive
  exact (if_neg h.not_ge).trans (if_pos hactive')

/-! ## A device that is synced -/

/-- The rate of the slew is set, and an exchange beyond 4 ns is counted. -/
def slewed (err : Int) (s : State) : State :=
  s.modXlk fun x => { x with badEx := if 32 < err.natAbs then x.badEx + 1 else 0,
                             slew := max (-1600000) (min 1600000 (err * 8000)), slewUntil := some (s.now + 125 * us8) }

theorem slewTime_eq (err : Int) (s : State) :
    slewTime err s = if 32 < err.natAbs ∧ 1 ≤ s.xlk.badEx then loseTime (slewed err s) else slewed err s := by
  have hbad : 2 ≤ (slewed err s).xlk.badEx ↔ 32 < err.natAbs ∧ 1 ≤ s.xlk.badEx := by
    simp only [slewed, State.modXlk]
    split_ifs <;> omega
  exact if_congr hbad rfl rfl

/-- TIME_SYNCED and its counts are cleared, and press time no longer slews. -/
def unsynced (s : State) : State := s.modXlk fun x => { x with timeSynced := false, goodEx := 0, badEx := 0, slew := 0 }

theorem loseTime_of_synced {s : State} (h : s.xlk.timeSynced = true) :
    loseTime s = alarm .xlkTimeLost noInst (unsynced s) := if_pos h

theorem loseTime_of_unsynced {s : State} (h : s.xlk.timeSynced = false) : loseTime s = s := by
  simp [loseTime, h]

section
variable {s : State} (hr : s.ringsRun = true) (t : Nat) {n : Fin 32} (hparent : parentPort s = some n.val)
  (k : Nat) (a : Int) (t1 h2 h3 t4 : Nat)
include hr hparent

/-- What the follow-up of a parent says has been noted. -/
def followed (theta : Int) (s : State) : State := s.modXlk fun x => { x with theta := theta, lastFollow := s.now }

theorem exec_xlkSyncFrame_follow_of_unsynced (hsync : s.xlk.timeSynced = false) :
    exec (.xlkSyncFrame t n (.follow k a t1 h2 h3 t4)) s = .next (after t s fun s =>
      stepTime (exchangeTheta t1 h2 h3 t4 - s.pressBase) (followed (exchangeTheta t1 h2 h3 t4) s)) := by
  have hsync' : ¬(followed (exchangeTheta t1 h2 h3 t4) (s.arrive t)).xlk.timeSynced = true := Bool.eq_false_iff.mp hsync
  exact (exec_xlkSyncFrame_follow hr t k a t1 h2 h3 t4 hparent).trans (next_after_congr (if_neg hsync'))

theorem leaves_xlkSyncFrame_of_near (hsync : s.xlk.timeSynced = false)
    (herr : (exchangeTheta t1 h2 h3 t4 - (s.arrive t).pressBase).natAbs ≤ 8) :
    Leaves (.xlkSyncFrame t n (.follow k a t1 h2 h3 t4)) s fun s' => s'.xlk.goodEx = s.xlk.goodEx + 1 ∧
      (s'.xlk.timeSynced = true ↔ 8 ≤ s.xlk.goodEx + 1) ∧ s'.pressBase = (s.arrive t).pressBase ∧
      s'.xlk.lastFollow = max s.now t ∧ SameBesideTime s s' := by
  refine ⟨_, (exec_xlkSyncFrame_follow_of_unsynced hr t hparent k a t1 h2 h3 t4 hsync).trans
    (next_after_congr (g := fun _ => _) (stepTime_of_near herr _)), rfl, ?_, rfl, rfl, (SameBesideTime.refl s :)⟩
  change (if 8 ≤ s.xlk.goodEx + 1 then true else s.xlk.timeSynced) = true ↔ _
  simp [hsync]

theorem leaves_xlkSyncFrame_of_idle (hsync : s.xlk.timeSynced = false)
    (herr : 8 < (exchangeTheta t1 h2 h3 t4 - (s.arrive t).pressBase).natAbs) (hidle : s.anyActive = false) :
    Leaves (.xlkSyncFrame t n (.follow k a t1 h2 h3 t4)) s fun s' =>
      s'.pressBase = (s.arrive t).pressBase + (exchangeTheta t1 h2 h3 t4 - (s.arrive t).pressBase) ∧ s'.xlk.goodEx = 0 ∧
      s'.xlk.timeSynced = false ∧ SameBesideTime s s' := by
  refine ⟨_, (exec_xlkSyncFrame_follow_of_unsynced hr t hparent k a t1 h2 h3 t4 hsync).trans
    (next_after_congr (g := fun _ => _) (stepTime_of_idle herr hidle)), rfl, rfl, hsync, (SameBesideTime.refl s :)⟩

theorem leaves_xlkSyncFrame_of_active (hsync : s.xlk.timeSynced = false)
    (herr : 8 < (exchangeTheta t1 h2 h3 t4 - (s.arrive t).pressBase).natAbs) (hactive : s.anyActive = true) :
    Leaves (.xlkSyncFrame t n (.follow k a t1 h2 h3 t4)) s fun s' => s'.pressBase = (s.arrive t).pressBase ∧
      s'.xlk.timeSynced = false ∧ bitOf s' Reg.evtAlarmLatch 0 28 = true ∧ SamePrint s s' ∧ SameMotion s s' := by
  let counted := (followed (exchangeTheta t1 h2 h3 t4) (s.arrive t)).modXlk fun x => { x with goodEx := 0 }
  refine ⟨_, (exec_xlkSyncFrame_follow_of_unsynced hr t hparent k a t1 h2 h3 t4 hsync).trans
    (next_after_congr (g := fun _ => _) (stepTime_of_active herr hactive)),
    (alarm_pressBase .xlkTimeStepBlocked noInst counted :), ?_, alarm_bitOf .xlkTimeStepBlocked noInst counted,
    (samePrint_alarm .xlkTimeStepBlocked noInst counted :), (sameMotion_alarm .xlkTimeStepBlocked noInst counted :)⟩
  exact (congrArg Xlk.timeSynced (alarm_xlk .xlkTimeStepBlocked noInst counted) :).trans hsync

/-- A synced device slews toward its parent, and loses TIME_SYNCED at the second exchange beyond 4 ns. -/
theorem leaves_xlkSyncFrame_of_synced (hsync : s.xlk.timeSynced = true) :
    Leaves (.xlkSyncFrame t n (.follow k a t1 h2 h3 t4)) s fun s' =>
      s'.pressBase = (s.arrive t).pressBase ∧ s'.xlk.slew.natAbs ≤ 1600000 ∧
      (s'.xlk.timeSynced = false ↔
        (32 < (exchangeTheta t1 h2 h3 t4 - (s.arrive t).pressBase).natAbs ∧ 1 ≤ s.xlk.badEx)) ∧
      SamePrint s s' ∧ SameMotion s s' := by
  generalize hterr : exchangeTheta t1 h2 h3 t4 - (s.arrive t).pressBase = err
  let noted := followed (exchangeTheta t1 h2 h3 t4) (s.arrive t)
  have htaken : takeFollow t1 h2 h3 t4 (s.arrive t) =
      if 32 < err.natAbs ∧ 1 ≤ s.xlk.badEx then loseTime (slewed err noted) else slewed err noted := by
    have hsync' : noted.xlk.timeSynced = true := hsync
    rw [← hterr]
    exact (if_pos hsync').trans (slewTime_eq ..)
  have hexec := exec_xlkSyncFrame_follow hr t k a t1 h2 h3 t4 hparent
  have hslew : (slewed err noted).xlk.slew.natAbs ≤ 1600000 := by
    simp only [slewed, State.modXlk]
    omega
  by_cases hbad : 32 < err.natAbs ∧ 1 ≤ s.xlk.badEx
  · have hsync' : (slewed err noted).xlk.timeSynced = true := hsync
    let lost := unsynced (slewed err noted)
    have hxlk := alarm_xlk .xlkTimeLost noInst lost
    refine ⟨_, hexec.trans (next_after_congr (g := fun _ => _)
        (htaken.trans ((if_pos hbad).trans (loseTime_of_synced hsync')))),
      (alarm_pressBase .xlkTimeLost noInst lost :), ?_, iff_of_true (congrArg Xlk.timeSynced hxlk) hbad,
      (samePrint_alarm .xlkTimeLost noInst lost :), (sameMotion_alarm .xlkTimeLost noInst lost :)⟩
    exact (congrArg (fun x : Xlk => x.slew.natAbs) hxlk :).trans_le (Nat.zero_le _)
  · refine ⟨_, hexec.trans (next_after_congr (g := fun _ => _) (htaken.trans (if_neg hbad))), rfl, hslew,
      iff_of_false (ne_false_of_eq_true hsync) hbad, ((SameBesideTime.refl s).2 :)⟩

end

/-! ## SYNC_FOLLOW_TIMEOUT -/

section
variable {s : State} (hr : s.ringsRun = true) (t : Nat)
include hr

theorem leaves_syncFollowTimeout (hroot : s.xlk.root = false) (hdue : s.xlk.lastFollow + 8000000 ≤ max s.now t)
    (hsync : s.xlk.timeSynced = true) : Leaves (.syncFollowTimeout t) s fun s' => s'.xlk.timeSynced = false ∧
      bitOf s' Reg.evtAlarmLatch 0 29 = true ∧ s'.pressBase = (s.arrive t).pressBase ∧ SamePrint s s' ∧ SameMotion s s' := by
  have hroot' : (!(s.arrive t).xlk.root) = true := by
    have h : (s.arrive t).xlk.root = false := hroot
    rw [h, Bool.not_false]
  have hsync' : (s.arrive t).xlk.timeSynced = true := hsync
  let lost := unsynced (s.arrive t)
  exact ⟨_, (ringCmd_eq_after hr (g := fun _ => _) ((if_pos ⟨hroot', hdue⟩).trans (loseTime_of_synced hsync')) :
      execSyncFollowTimeout t s = _), (congrArg Xlk.timeSynced (alarm_xlk .xlkTimeLost noInst lost) :),
    alarm_bitOf .xlkTimeLost noInst lost, (alarm_pressBase .xlkTimeLost noInst lost :),
    (samePrint_alarm .xlkTimeLost noInst lost :), (sameMotion_alarm .xlkTimeLost noInst lost :)⟩

theorem exec_syncFollowTimeout_of_kept
    (hkept : s.xlk.root = true ∨ max s.now t < s.xlk.lastFollow + 8000000 ∨ s.xlk.timeSynced = false) :
    exec (.syncFollowTimeout t) s = .next (after t s id) := by
  have hid : (if (!(s.arrive t).xlk.root) = true ∧ (s.arrive t).xlk.lastFollow + ms8 ≤ (s.arrive t).now
      then loseTime (s.arrive t) else s.arrive t) = s.arrive t := by
    split
    · next hdue =>
      obtain ⟨hroot, hlate⟩ := hdue
      obtain hroot' | hearly | hsync := hkept
      · exact Bool.noConfusion (((Bool.not_eq_true' _).mp hroot).symm.trans hroot')
      · exact absurd hlate hearly.not_ge
      · exact loseTime_of_unsynced hsync
    · rfl
  exact (ringCmd_eq_after hr (g := id) hid : execSyncFollowTimeout t s = _)

end

/-! ## TIME_PPS_EDGE -/

/-- A field reads what it has been set to. -/
theorem bitsOf_setBits (w : Word) {hi lo v : Nat} (hlo : lo ≤ hi) (hhi : hi < 32) (hv : v < 2 ^ (hi - lo + 1)) :
    bitsOf (setBits w hi lo v) hi lo = v := by
  obtain ⟨m, hm⟩ := Nat.exists_eq_add_of_le (show hi - lo + 1 + lo ≤ 32 by omega)
  have hword : 2 ^ 32 = 2 ^ lo * 2 ^ (hi - lo + 1) * 2 ^ m := by
    rw [hm, pow_add, pow_add, Nat.mul_comm (2 ^ (hi - lo + 1))]
  have hpos : 0 < 2 ^ lo := Nat.two_pow_pos lo
  have hrest : w.toNat / 2 ^ lo - w.toNat / 2 ^ lo % 2 ^ (hi - lo + 1) =
      2 ^ (hi - lo + 1) * (w.toNat / 2 ^ lo / 2 ^ (hi - lo + 1)) := by
    have := Nat.div_add_mod (w.toNat / 2 ^ lo) (2 ^ (hi - lo + 1))
    omega
  rw [setBits, bitsOf, bitsOf, BitVec.toNat_ofNat, Nat.mod_eq_of_lt hv, hword, Nat.mul_assoc, Nat.mod_mul_right_div_self,
    Nat.mod_mul_right_mod, Nat.add_mul_div_right _ _ hpos, Nat.mul_comm _ (2 ^ lo), Nat.sub_mul_div, hrest,
    Nat.mul_add_mod, Nat.mod_eq_of_lt hv]

/-- A saturating 16-bit count that starts at 0 counts one more. -/
theorem fld_count16 {r : RegSpec} (hreset : r.reset = 0#32) {lo : Nat} (hlo : lo ≤ 16) (s : State) :
    (count16 r lo s).fld r 0 (lo + 15) lo = min 0xFFFF (s.fld r 0 (lo + 15) lo + 1) := by
  have hfield := bitsOf_setBits (s.rd r 0) (hi := lo + 15) (lo := lo) (v := min 0xFFFF (s.fld r 0 (lo + 15) lo + 1))
    (by omega) (by omega) (by rw [show lo + 15 - lo + 1 = 16 by omega]; omega)
  have hword : setBits (s.rd r 0) (lo + 15) lo (min 0xFFFF (s.fld r 0 (lo + 15) lo + 1)) ≠ r.reset := fun h => by
    rw [h, hreset] at hfield
    simp only [bitsOf, BitVec.toNat_ofNat, Nat.zero_mod, Nat.zero_div] at hfield
    omega
  rw [count16, State.setFld, State.fld, rd_wr_self hword, hfield]

/-- What an interval of TIME_PPS measures beyond 1 s. -/
def ppsError (at_ : Int) (s : State) : Int := match s.xlk.ppsAt with
  | some p => at_ - p - 8000000000
  | none => 8000000000

/-- A bad interval is counted, and leaves the rate of press time. -/
theorem ppsRoot_of_bad {at_ : Int} {s : State} (h : 8000000 < (ppsError at_ s).natAbs) :
    ppsRoot at_ s = count16 Reg.lsiPpsStatus 16 (s.modXlk fun x => { x with ppsAt := some at_ }) := if_pos h

/-- A good interval is counted; it may correct the rate of press time. -/
theorem ppsRoot_of_good {at_ : Int} {s : State} (h : (ppsError at_ s).natAbs ≤ 8000000) : ∃ xlk,
    ppsRoot at_ s = { count16 Reg.lsiPpsStatus 0 (s.modXlk fun x => { x with ppsAt := some at_ }) with xlk := xlk } := by
  have hbad : ppsRoot at_ s = _ := if_neg h.not_gt
  rw [hbad]
  simp only []
  split
  · exact ⟨_, rfl⟩
  · exact ⟨_, rfl⟩

/-- An edge of TIME_PPS has been seen. -/
def ppsSeen (s : State) : State := { s with lsi := { s.lsi with ppsTime := s.press - 60, ppsLast := some s.now, ppsPin := true } }

section
variable {s : State} (hr : s.ringsRun = true) (t : Nat) {highNs : Nat}
include hr

theorem exec_timePpsEdge_of_short (hshort : highNs < 100) : exec (.timePpsEdge t highNs) s = .next (after t s id) :=
  (ringCmd_eq_after hr (if_pos hshort) : execTimePpsEdge t highNs s = _)

theorem exec_timePpsEdge (hlong : 100 ≤ highNs) : exec (.timePpsEdge t highNs) s = .next (after t s fun s =>
    if s.xlk.root then ppsRoot (s.press - 60 : Nat) (ppsSeen s) else ppsSeen s) :=
  (ringCmd_eq_after hr (if_neg hlong.not_gt) : execTimePpsEdge t highNs s = _)

theorem leaves_timePpsEdge (hlong : 100 ≤ highNs) : Leaves (.timePpsEdge t highNs) s fun s' =>
    s'.lsi.ppsTime = (s.arrive t).press - 60 ∧ s'.lsi.ppsLast = some (max s.now t) ∧
    (s.xlk.root = false → s'.regs = s.regs ∧ s'.xlk.slew = (s.arrive t).xlk.slew) ∧
    (∀ p, s.xlk.root = true → s.xlk.ppsAt = some p →
      (((((s.arrive t).press - 60 : Nat) : Int) - p - 8000000000).natAbs ≤ 8000000 →
        s'.fld Reg.lsiPpsStatus 0 15 0 = min 0xFFFF (s.fld Reg.lsiPpsStatus 0 15 0 + 1)) ∧
      (8000000 < ((((s.arrive t).press - 60 : Nat) : Int) - p - 8000000000).natAbs →
        s'.fld Reg.lsiPpsStatus 0 31 16 = min 0xFFFF (s.fld Reg.lsiPpsStatus 0 31 16 + 1) ∧
        s'.xlk.slew = (s.arrive t).xlk.slew)) ∧ SamePrint s s' ∧ SameMotion s s' := by
  let at_ : Int := ((s.arrive t).press - 60 : Nat)
  have herror : ∀ p, s.xlk.ppsAt = some p → ppsError at_ (ppsSeen (s.arrive t)) = at_ - p - 8000000000 := fun p hp => by
    have hp' : (ppsSeen (s.arrive t)).xlk.ppsAt = some p := hp
    simp only [ppsError, hp']
  have hexec := exec_timePpsEdge hr t hlong
  cases hroot : s.xlk.root with
  | false =>
    have hroot' : ¬(s.arrive t).xlk.root = true := Bool.eq_false_iff.mp hroot
    exact ⟨_, hexec.trans (next_after_congr (g := ppsSeen) (if_neg hroot')), rfl, rfl, fun _ => ⟨rfl, rfl⟩, nofun,
      ((SameBesideTime.refl s).2 :)⟩
  | true =>
    have hroot' : (s.arrive t).xlk.root = true := hroot
    let begun := (ppsSeen (s.arrive t)).modXlk fun x => { x with ppsAt := some at_ }
    obtain hgood | hbad := le_or_gt (ppsError at_ (ppsSeen (s.arrive t))).natAbs 8000000
    · obtain ⟨xlk, hpps⟩ := ppsRoot_of_good hgood
      refine ⟨_, hexec.trans (next_after_congr (g := fun _ => _) ((if_pos hroot').trans hpps)), rfl, rfl, nofun,
        fun p _ hp => ⟨fun _ => (fld_count16 (r := Reg.lsiPpsStatus) rfl (Nat.zero_le 16) begun :), fun hbad => ?_⟩,
        ((SameBesideTime.refl s).2 :)⟩
      rw [herror p hp] at hgood
      exact absurd hgood hbad.not_ge
    · refine ⟨_, hexec.trans (next_after_congr (g := fun _ => _) ((if_pos hroot').trans (ppsRoot_of_bad hbad))), rfl, rfl,
        nofun, fun p _ hp => ⟨fun hgood => ?_, fun _ => ⟨(fld_count16 (r := Reg.lsiPpsStatus) rfl le_rfl begun :), rfl⟩⟩,
        ((SameBesideTime.refl s).2 :)⟩
      rw [herror p hp] at hbad
      exact absurd hgood hbad.not_ge

end

end Sys2Proof.Machine
end

section
/-! The master position of the fabric (R363): what a miss, a pass and a settling leave of the position last heard. -/
namespace Sys2Proof.Machine

open Sys2Proof.Claim

/-! ## Records and frames -/

theorem xlk_admitList (bound : State → Nat) (l : List LogRec) (s : State) : (admitList bound l s).2.xlk = s.xlk := by
  induction l generalizing s with
  | nil => rfl
  | cons r l ih =>
    unfold admitList
    split
    · exact ih (admitRec r s)
    · rfl

theorem xlk_admitItems (l : List BackEntry) (s : State) : (admitItems l s).2.xlk = s.xlk := by
  induction l generalizing s with
  | nil => rfl
  | cons e l ih =>
    unfold admitItems
    split
    · split
      · exact ih _
      · rfl
    · exact ih s

theorem xlk_modLog (f : LogState → LogState) (s : State) : (s.modLog f).xlk = s.xlk := rfl

theorem xlk_admitWaiting (s : State) : (admitWaiting s).xlk = s.xlk := by
  simp only [admitWaiting, xlk_modLog, xlk_admitList, xlk_admitItems]

theorem xlk_raiseAudit (a : AuditRec) (s : State) : (raiseAudit a s).xlk = s.xlk := xlk_admitWaiting _

theorem xlk_raiseItem (o : OutcomeRec) (s : State) : (raiseItem o s).xlk = s.xlk := xlk_admitWaiting _

theorem posRef_sendPort (n : Fin 32) (dst : Nat) (f : XlkTx) (s : State) :
    (sendPort n dst f s).xlk.posRef = s.xlk.posRef := by
  unfold sendPort
  simp only []
  split_ifs <;> rfl

theorem posRef_sendXlk (dst : Nat) (f : XlkTx) (s : State) : (sendXlk dst f s).xlk.posRef = s.xlk.posRef := by
  unfold sendXlk
  split
  · exact foldl_leaves (g := fun s => s.xlk.posRef) (fun s n => posRef_sendPort n dst f s) _ s
  · split
    · exact posRef_sendPort ..
    · rfl

/-! ## Items and jobs close -/

theorem posRef_reportOutcome (ctx : Fin 64) (o : OutcomeRec) (s : State) :
    (reportOutcome ctx o s).xlk.posRef = s.xlk.posRef := by
  unfold reportOutcome
  split
  · rfl
  · split
    · exact posRef_sendXlk ..
    · rw [xlk_raiseItem]

theorem posRef_closeItem (ctx : Fin 64) (o : OutcomeRec) (sb : Option SealedBind) (s : State) :
    (closeItem ctx o sb s).xlk.posRef = s.xlk.posRef := by
  unfold closeItem
  extract_lets s₁ s₂
  have hsealed : s₁.xlk = s.xlk := by
    cases sb with
    | none => rfl
    | some b => exact (xlk_raiseAudit .. : (closeSealed o b s).xlk = _)
  clear_value s₁
  rw [posRef_reportOutcome]
  exact (congrArg Xlk.posRef hsealed :)

theorem posRef_closeFront (ctx : Fin 64) (l : List Item) (s : State) :
    (closeFront ctx l s).2.xlk.posRef = s.xlk.posRef := by
  induction l generalizing s with
  | nil => rfl
  | cons it l ih =>
    unfold closeFront
    split
    · rw [ih, posRef_closeItem]
    · rfl

theorem posRef_takeEntries (ctx : Fin 64) (l : List OutcomeRec) (s : State) :
    (takeEntries ctx l s).2.xlk.posRef = s.xlk.posRef := by
  induction l generalizing s with
  | nil => rfl
  | cons o l ih =>
    unfold takeEntries
    split
    · rfl
    · rw [ih, posRef_closeItem]

theorem posRef_diag (d : Diag) (inst : Nat) (a0 a1 a2 : Int) (s : State) :
    (diag d inst a0 a1 a2 s).xlk.posRef = s.xlk.posRef := by
  obtain ⟨log, regs, h⟩ := diag_eq d inst a0 a1 a2 s
  rw [h]

theorem posRef_endRun (p : Fin 8) (s : State) : (endRun p s).xlk.posRef = s.xlk.posRef := by
  unfold endRun
  split
  · rw [posRef_diag]
    rfl
  · rfl

theorem posRef_endRuns (ctx : Fin 64) (s : State) : (endRuns ctx s).xlk.posRef = s.xlk.posRef := by
  unfold endRuns
  refine foldl_leaves (g := fun s => s.xlk.posRef) (fun s p => ?_) _ s
  split
  · split
    · exact posRef_endRun p s
    · rfl
  · rfl

theorem posRef_closeJob (ctx : Fin 64) (s : State) : (closeJob ctx s).xlk.posRef = s.xlk.posRef := by
  obtain h | h := closeJob_eq ctx s
  · rw [h]
  · rw [h, posRef_endRuns]
    rfl

theorem posRef_modJob (n : Fin 64) (f : Job → Job) (s : State) : (s.modJob n f).xlk.posRef = s.xlk.posRef := rfl

theorem posRef_settleJob (ctx : Fin 64) (s : State) : (settleJob ctx s).xlk.posRef = s.xlk.posRef := by
  unfold settleJob
  simp only []
  split
  · rfl
  · rfl
  · rw [posRef_closeJob, posRef_modJob, posRef_takeEntries, posRef_modJob, posRef_closeFront]

/-! ## Slots are missed -/

theorem posRef_missSlot (x : FireSlot) (s : State) : (missSlot x s).xlk.posRef = s.xlk.posRef := by
  unfold missSlot
  extract_lets s₁ s₂ s₃ ctx
  have hcancel : s₁.xlk = s.xlk := by
    simp only [s₁]
    split
    · obtain ⟨out, h⟩ := toSlotHubs_eq x .cancel s
      rw [h]
    · rfl
  obtain ⟨jobs, hflag⟩ := flagWales_eq ctx (Fin.ofNat 8 x.plane) x.course 2 x.printed s₃
  rw [posRef_settleJob, hflag]
  exact (posRef_diag ..).trans (congrArg Xlk.posRef hcancel)

theorem posRef_unlockedPass (s : State) : (unlockedPass s).xlk.posRef = s.xlk.posRef := by
  cases hlock : s.pac.est.locked with
  | true => simp only [unlockedPass, hlock]
  | false =>
    cases htb : s.str.tables with
    | none => simp only [unlockedPass, hlock, htb]
    | some tb =>
      obtain ⟨jobs, h⟩ := unlockedPass_eq hlock htb
      rw [h]
      exact foldl_leaves (g := fun s => s.xlk.posRef) (fun s x => posRef_missSlot x s) _ s

/-- The master's lock misses slots and does no more (R171). -/
theorem relock_eq (s : State) : ∃ late : List FireSlot, relock s = late.foldl (fun s x => missSlot x s) s := by
  unfold relock
  split
  · exact ⟨[], rfl⟩
  · exact ⟨_, rfl⟩

theorem posRef_relock (s : State) : (relock s).xlk.posRef = s.xlk.posRef := by
  obtain ⟨late, h⟩ := relock_eq s
  rw [h]
  exact foldl_leaves (g := fun s => s.xlk.posRef) (fun s x => posRef_missSlot x s) _ s

theorem thinned_relock (s : State) : Thinned s (relock s) := by
  obtain ⟨late, h⟩ := relock_eq s
  rw [h]
  exact Thinned.foldl (fun s x => thinned_missSlot x s) _ s

/-! ## A new estimate while nothing runs -/

theorem active_of_anyActive {s : State} (h : s.anyActive = false) (c : Fin 64) : (s.jobs[c]).st.active = false := by
  rw [State.anyActive, List.any_eq_false] at h
  exact Bool.eq_false_iff.mpr (h _ (Vector.mem_toList_iff.mpr (Vector.getElem_mem c.isLt)))

/-- With no job running and no handover armed, a move of the master passes gear entries and what it passes while
unlocked. -/
theorem masterMoved_of_resting {s : State} (hidle : s.anyActive = false) (hho : s.pac.handover = none) :
    masterMoved s = unlockedPass (s.modPac fun p =>
      { p with gears := p.gears.map fun g => gearReach p.est.p g g.pend, highest := max p.highest p.est.p }) := by
  have hjobs := active_of_anyActive hidle
  let reached := s.modPac fun p => { p with gears := p.gears.map fun g => gearReach p.est.p g g.pend }
  have hjobs' : ∀ c : Fin 64, (reached.jobs[c]).st.active = false := hjobs
  have hswitch : handoverSwitch reached = reached := by
    have hho' : reached.pac.handover = none := hho
    simp only [handoverSwitch, hho']
  have hmoved : passItems (checkReverse (handoverSwitch reached)) = reached := by
    rw [hswitch, checkReverse_of_idle hjobs', passItems_of_idle hjobs']
  have hstages : masterMoved s = unlockedPass ((passItems (checkReverse (handoverSwitch reached))).modPac fun p =>
      { p with highest := max p.highest p.est.p }) := by
    rw [masterMoved, freezeCast_of_idle hjobs]
  rw [hstages, hmoved]
  rfl

/-- With no job running and no handover armed, the new estimate stands, and the position last heard stays. -/
theorem takeEst_of_resting {s : State} (hidle : s.anyActive = false) (hho : s.pac.handover = none) (e : Est) (lost : Bool) :
    (takeEst e lost s).pac.est = e ∧ (takeEst e lost s).xlk.posRef = s.xlk.posRef := by
  let taken := s.modPac fun p => { p with est := e }
  let reached := taken.modPac fun p =>
    { p with gears := p.gears.map fun g => gearReach p.est.p g g.pend, highest := max p.highest p.est.p }
  have hmoved : masterMoved taken = unlockedPass reached := masterMoved_of_resting hidle hho
  have hrelock : ∀ b y, Thinned y (when b relock y) ∧ (when b relock y).xlk.posRef = y.xlk.posRef := fun b y => by
    cases b with
    | false => exact ⟨.of_pac rfl, rfl⟩
    | true => exact ⟨thinned_relock y, posRef_relock y⟩
  have htake : takeEst e lost s =
      when ((unlockedPass reached).pac.est.locked && !s.pac.est.locked) relock (unlockedPass reached) := by
    have hidle' : taken.anyActive = false := hidle
    have hho' : taken.pac.handover = none := hho
    simp only [takeEst, taken, hidle', hho', Bool.and_false, when, Bool.false_eq_true, if_false, Option.isSome_none, hmoved]
  obtain ⟨hthin, hposRef⟩ := hrelock ((unlockedPass reached).pac.est.locked && !s.pac.est.locked) (unlockedPass reached)
  rw [htake]
  exact ⟨hthin.est.trans (thinned_unlockedPass reached).est, hposRef.trans (posRef_unlockedPass reached)⟩

/-! ## The view of a silent master -/

/-- The master's estimator, the jobs and the motion hardware. -/
def State.masterView (s : State) : Est × Vector Job 64 × MotionHardware := (s.pac.est, s.jobs, s.motion)

theorem masterView_alarm (a : Alarm) (inst : Nat) (s : State) : (alarm a inst s).masterView = s.masterView :=
  eq_of_sansReports (sansReports_alarm ..) (g := State.masterView) fun _ => rfl

theorem masterView_handoverFail (s : State) : (handoverFail s).masterView = s.masterView := masterView_alarm ..

/-- An alarm leaves every register but its latch and EVT_STATUS. -/
theorem rd_alarm {a : Alarm} {r : RegSpec} {i : Nat} (hlatch : r.addr i ≠ Reg.evtAlarmLatch.addr (a.code / 32))
    (hstatus : r.addr i ≠ Reg.evtStatus.addr 0) (inst : Nat) (s : State) : (alarm a inst s).rd r i = s.rd r i := by
  have hword : (latchAlarm a.code s).rd r i = s.rd r i := by
    unfold latchAlarm State.msix
    simp only []
    split_ifs
    · rfl
    · exact rd_wr_of_ne hlatch ..
    · exact rd_wr_of_ne hlatch ..
  obtain h | h := alarmArgs_regs a inst 0 0 0 s
  · rw [alarm, rd_of_regs h, hword]
  · rw [alarm, rd_of_regs h, State.setFld, rd_wr_of_ne hstatus, hword]

/-- The loss of lock restarts the estimator. -/
theorem masterView_loseLock (s : State) : (loseLock s).masterView = (s.pac.est.restart, s.jobs, s.motion) := by
  unfold loseLock when
  split
  · dsimp only
    split
    · exact masterView_alarm ..
    · rfl
  · rfl

end Sys2Proof.Machine
end

section
/-! Broadcast, hearing and silence of the master position (R363), and obligation O44. -/
namespace Sys2Proof.Machine

open Sys2Proof.Claim

section
variable {s : State} (hr : s.ringsRun = true) (t : Nat)
include hr

/-! ## POSITION_BROADCAST -/

/-- The device's own master position. -/
def ownPosition (s : State) : PositionFrame :=
  ⟨ownAddr s, s.pac.est.t8, s.pac.est.p, s.pac.est.z, s.pac.est.v, s.pac.est.locked⟩

theorem leaves_positionBroadcast (hsrc : s.fld Reg.xlkCfg 0 2 2 = 1)
    (hkind : srcKind (s.rd Reg.pacSrc) = 1 ∨ srcKind (s.rd Reg.pacSrc) = 2) (haddr : s.xlk.addr.isSome = true) :
    Leaves (.positionBroadcast t) s fun s' => s'.out.length = (upPorts s).length ∧
      (∀ o ∈ s'.out, ∃ l, o = .xlk l 0xFFFF (.position (ownPosition s))) ∧ SameBesideTime s s' := by
  have hsent := foldl_sendPort_of_unreliable (f := fun _ => .position (ownPosition s)) (fun _ => rfl) (fun _ _ => rfl)
    0xFFFF (upPorts s) (s.arrive t)
  refine ⟨_, (ringCmd_eq_after hr (g := fun _ => _) ((if_pos ⟨hsrc, hkind, haddr⟩).trans ((if_pos rfl).trans hsent)) :
    execPositionBroadcast t s = _), ?_, fun o ho => ?_, (SameBesideTime.refl s :)⟩
  · exact List.length_map ..
  · obtain ⟨n, -, rfl⟩ := List.mem_map.mp (show o ∈ (upPorts s).map _ from ho)
    exact ⟨_, rfl⟩

theorem exec_positionBroadcast_of_silent (hsilent : s.fld Reg.xlkCfg 0 2 2 ≠ 1 ∨
    (srcKind (s.rd Reg.pacSrc) ≠ 1 ∧ srcKind (s.rd Reg.pacSrc) ≠ 2) ∨ s.xlk.addr = none) :
    exec (.positionBroadcast t) s = .next (after t s id) := by
  refine (ringCmd_eq_after hr (g := id) (if_neg fun h => ?_) : execPositionBroadcast t s = _)
  obtain ⟨hsrc, hkind, haddr⟩ := h
  obtain hsrc' | ⟨hone, htwo⟩ | hnone := hsilent
  · exact hsrc' hsrc
  · exact hkind.elim hone htwo
  · have hnone' : (s.arrive t).xlk.addr = none := hnone
    rw [hnone'] at haddr
    exact Bool.noConfusion haddr

/-! ## POSITION_FRAME -/

variable {f : PositionFrame}

/-- A broadcast of the master's source, and not of the handover's, gives the master its estimate. -/
theorem exec_positionFrame_of_master (hkind : srcKind (s.rd Reg.pacSrc) = 3) (hfrom : bitsOf (s.rd Reg.pacSrc) 15 8 = f.src)
    (hcand : srcKind (s.rd Reg.pacHoSrc) ≠ 3) : exec (.positionFrame t f) s = .next (after t s fun s =>
      takeEst (s.pac.est.heed f) (s.pac.est.locked && !(s.pac.est.heed f).locked)
        (s.modXlk fun x => { x with posRef := some f, posAt := s.now })) := by
  have hmine : srcKind ((s.arrive t).rd Reg.pacSrc) = 3 ∧ bitsOf ((s.arrive t).rd Reg.pacSrc) 15 8 = f.src := ⟨hkind, hfrom⟩
  have hcand' : ¬(srcKind ((s.arrive t).rd Reg.pacHoSrc) = 3 ∧ bitsOf ((s.arrive t).rd Reg.pacHoSrc) 15 8 = f.src) :=
    fun h => hcand h.1
  refine (ringCmd_eq_after hr ?_ : execPositionFrame t f s = _)
  simp only [if_pos hmine, if_neg hcand', if_pos (Or.inl hmine)]
  rfl

theorem leaves_positionFrame (hkind : srcKind (s.rd Reg.pacSrc) = 3) (hfrom : bitsOf (s.rd Reg.pacSrc) 15 8 = f.src)
    (hcand : srcKind (s.rd Reg.pacHoSrc) ≠ 3) (hho : s.pac.handover = none) (hidle : s.anyActive = false) :
    Leaves (.positionFrame t f) s fun s' => s'.pac.est.p = f.p ∧ s'.pac.est.v = f.v ∧ s'.pac.est.t8 = f.t8 ∧
      (f.locked = false → s'.pac.est.locked = false) ∧
      (f.locked = true → s'.pac.est.lockCnt = min 64 (s.pac.est.lockCnt + 1)) ∧ s'.xlk.posRef = some f := by
  let heard := (s.arrive t).modXlk fun x => { x with posRef := some f, posAt := max s.now t }
  obtain ⟨hest, hposRef⟩ := takeEst_of_resting (s := heard) hidle hho (s.pac.est.heed f)
    (s.pac.est.locked && !(s.pac.est.heed f).locked)
  refine ⟨_, exec_positionFrame_of_master hr t hkind hfrom hcand, (congrArg Est.p hest :), (congrArg Est.v hest :),
    (congrArg Est.t8 hest :), fun hlocked => ?_, fun hlocked => ?_, hposRef⟩
  · refine (congrArg Est.locked hest :).trans ?_
    simp only [Est.heed, hlocked, Bool.false_and]
  · refine (congrArg Est.lockCnt hest :).trans ?_
    simp only [Est.heed, hlocked, if_true]

theorem exec_positionFrame_of_other (hmine : ¬(srcKind (s.rd Reg.pacSrc) = 3 ∧ bitsOf (s.rd Reg.pacSrc) 15 8 = f.src))
    (hcand : ¬(srcKind (s.rd Reg.pacHoSrc) = 3 ∧ bitsOf (s.rd Reg.pacHoSrc) 15 8 = f.src)) :
    exec (.positionFrame t f) s = .next (after t s id) := by
  have hmine' : ¬(srcKind ((s.arrive t).rd Reg.pacSrc) = 3 ∧ bitsOf ((s.arrive t).rd Reg.pacSrc) 15 8 = f.src) := hmine
  have hcand' : ¬(srcKind ((s.arrive t).rd Reg.pacHoSrc) = 3 ∧ bitsOf ((s.arrive t).rd Reg.pacHoSrc) 15 8 = f.src) := hcand
  refine (ringCmd_eq_after hr (g := id) ?_ : execPositionFrame t f s = _)
  simp only [if_neg hmine', if_neg hcand', if_neg (not_or.mpr ⟨hmine', hcand'⟩), id]

/-! ## POSITION_SILENCE -/

theorem exec_positionSilence_of_early (hearly : s.xlk.posRef = none ∨ max s.now t < s.xlk.posAt + 32000) :
    exec (.positionSilence t) s = .next (after t s id) := by
  have hearly' : (s.arrive t).xlk.posRef.isNone = true ∨ (s.arrive t).now < (s.arrive t).xlk.posAt + 4 * us8 :=
    hearly.imp_left Option.isNone_iff_eq_none.mpr
  exact (ringCmd_eq_after hr (g := id) (if_pos hearly') : execPositionSilence t s = _)

/-- The handover's candidate hears nothing either. -/
def candSilent (s : State) : State :=
  if srcKind (s.rd Reg.pacHoSrc) = 3 then
    let s := s.modPac fun p => { p with cand := p.cand.restart }
    if s.pac.handover.isSome then handoverFail s else s
  else s

omit hr in
theorem masterView_candSilent (s : State) : (candSilent s).masterView = s.masterView := by
  unfold candSilent
  split
  · dsimp only
    split
    · exact masterView_handoverFail _
    · rfl
  · rfl

omit hr in
theorem rd_candSilent (s : State) : (candSilent s).rd Reg.pacSrc = s.rd Reg.pacSrc := by
  unfold candSilent
  split
  · dsimp only
    split
    · exact rd_alarm (by decide) (by decide) ..
    · rfl
  · rfl

theorem leaves_positionSilence (hheard : s.xlk.posRef.isSome = true) (hdue : s.xlk.posAt + 32000 ≤ max s.now t)
    (hkind : srcKind (s.rd Reg.pacSrc) = 3) : Leaves (.positionSilence t) s fun s' =>
      s'.pac.est.locked = false ∧ s'.pac.est.p = s.pac.est.p ∧ s'.jobs = s.jobs ∧ SameMotion s s' := by
  have hnow : ¬((s.arrive t).xlk.posRef.isNone = true ∨ (s.arrive t).now < (s.arrive t).xlk.posAt + 4 * us8) := fun h =>
    h.elim (fun hnone => by
      have hnone' : s.xlk.posRef = none := Option.isNone_iff_eq_none.mp hnone
      rw [hnone'] at hheard
      exact Bool.noConfusion hheard) hdue.not_gt
  have hkind' : srcKind ((candSilent (s.arrive t)).rd Reg.pacSrc) = 3 := by
    rw [rd_candSilent]
    exact hkind
  have hexec : exec (.positionSilence t) s = .next (after t s fun s => loseLock (candSilent s)) :=
    (ringCmd_eq_after hr (g := fun s => loseLock (candSilent s)) ((if_neg hnow).trans (if_pos hkind')) :
      execPositionSilence t s = _)
  have hcand := masterView_candSilent (s.arrive t)
  have hview : (loseLock (candSilent (s.arrive t))).masterView = (s.pac.est.restart, s.jobs, s.motion) := by
    refine (masterView_loseLock _).trans ?_
    exact congrArg (fun v : Est × Vector Job 64 × MotionHardware => (v.1.restart, v.2)) hcand
  exact ⟨_, hexec, (congrArg (fun v => v.1.locked) hview :), (congrArg (fun v => v.1.p) hview :),
    (congrArg (fun v => v.2.1) hview :), (sameMotion_iff.mpr (congrArg (fun v => v.2.2) hview) :)⟩

end

/-! ## The obligation -/

/-- Settles O44: each clause is the meaning of its command under the clause's conditions; an error of press time is counted,
stepped or slewed, and a master position of the fabric is taken as the state of the estimator. That SYNC leaves on each port
that is UP and is answered with H2 = H3 is log entry 35; that the root counts TIME_PPS whatever PPS_EN says is log entry
70. -/
theorem fabricTime : Obligations.FabricTime := by
  intro t n k t1 h2 h3 t4 highNs a f s hr err same
  exact ⟨leaves_xlkSyncSend hr t, exec_xlkSyncFrame_sync hr t n k t1, fun hopen => exec_xlkSyncFrame_resp hr t n hopen h2 h3 t4,
    fun hother => exec_xlkSyncFrame_resp_of_other hr t n hother h2 h3 t4,
    exec_xlkSyncFrame_follow_of_other hr t k a t1 h2 h3 t4,
    fun hparent hsync => ⟨leaves_xlkSyncFrame_of_near hr t hparent k a t1 h2 h3 t4 hsync,
      leaves_xlkSyncFrame_of_idle hr t hparent k a t1 h2 h3 t4 hsync,
      leaves_xlkSyncFrame_of_active hr t hparent k a t1 h2 h3 t4 hsync⟩,
    fun hparent => leaves_xlkSyncFrame_of_synced hr t hparent k a t1 h2 h3 t4,
    leaves_syncFollowTimeout hr t, exec_syncFollowTimeout_of_kept hr t, exec_timePpsEdge_of_short hr t,
    leaves_timePpsEdge hr t, leaves_positionBroadcast hr t, exec_positionBroadcast_of_silent hr t,
    leaves_positionFrame hr t, exec_positionFrame_of_other hr t, exec_positionSilence_of_early hr t,
    leaves_positionSilence hr t⟩

end Sys2Proof.Machine
end

section
/-! The speed governor (R251 to R253, R256): its updates, overruns and silent peers, and obligation O32. -/
namespace Sys2Proof.Machine

open Sys2Proof.Claim

/-! ## Allowed and governed speed -/

/-- The allowed speed v_allow: the least of the ceiling and the inputs of Table 13.1 (R252). -/
def allowedSpeed (s : State) : Nat := (govInputs s).foldl min capSpeed

theorem allowedSpeed_isLeast (s : State) : IsLeast {v | v = 10000000 ∨ v ∈ govInputs s} (allowedSpeed s) := by
  simpa only [allowedSpeed, capSpeed, List.mem_cons] using isLeast_foldl_min capSpeed (govInputs s)

/-- An allowed speed below the governed speed is taken at once. -/
theorem nextGov_of_fall {s : State} {allow : Nat} (h : allow < s.gov.vgov) : nextGov s allow = (allow, none) := if_pos h

/-- An allowed speed inside the rising band leaves the governed speed as it is. -/
theorem nextGov_of_band {s : State} {allow : Nat} (hle : s.gov.vgov ≤ allow)
    (hband : allow * 1000 < s.gov.vgov * (1000 + s.fld Reg.govCfg 0 30 24)) : nextGov s allow = (s.gov.vgov, none) :=
  (if_neg hle.not_gt).trans (if_neg hband.not_ge)

/-- The governor follows the inputs of a state (R252, R253). -/
structure GovernedBy (s : State) (g : Gov) : Prop where
  vallow : g.vallow = allowedSpeed s
  vgov : g.vgov = max (nextGov s g.vallow).1 (govMin s)
  floor : g.floor = true ↔ g.vallow < govMin s
  limiter : g.floor = true → g.limiter = 11

theorem GovernedBy.vgov_of_fall {s : State} {g : Gov} (h : GovernedBy s g) (hfall : g.vallow < s.gov.vgov) :
    g.vgov = max g.vallow (govMin s) := by
  rw [h.vgov, nextGov_of_fall hfall]

theorem GovernedBy.vgov_of_band {s : State} {g : Gov} (h : GovernedBy s g) (hle : s.gov.vgov ≤ g.vallow)
    (hband : g.vallow * 1000 < s.gov.vgov * (1000 + s.fld Reg.govCfg 0 30 24)) :
    g.vgov = max s.gov.vgov (govMin s) := by
  rw [h.vgov, nextGov_of_band hle hband]

/-! ## The watch on overruns -/

/-- The watch writes its own marks in the governor and nothing else. -/
theorem watchSpeed_eq (s : State) : ∃ grace above below high, watchSpeed s =
    { s with gov := { s.gov with graceUntil := grace, overSince := above, underSince := below, overspeed := high } } := by
  obtain h | h : watchSpeed s = _ ∨ watchSpeed s = _ := ite_eq_or_eq ..
  · exact ⟨_, _, _, false, h⟩
  · exact ⟨_, _, _, s.gov.overspeed, h⟩

/-- The watch leaves speeds, limiter and floor, and all beside the governor. -/
theorem watchSpeed_governedBy {s₀ s : State} {f : Gov → Gov} (h : GovernedBy s₀ (f s.gov)) :
    ∃ g, GovernedBy s₀ g ∧ watchSpeed (s.modGov f) = { s with gov := g } := by
  obtain ⟨hallow, hgov, hfloor, hlimiter⟩ := h
  obtain ⟨grace, above, below, high, hwatch⟩ := watchSpeed_eq (s.modGov f)
  exact ⟨{ f s.gov with graceUntil := grace, overSince := above, underSince := below, overspeed := high },
    ⟨hallow, hgov, hfloor, hlimiter⟩, hwatch⟩

/-! ## GOV_UPDATE -/

/-- GOV_FLOOR is raised as the allowed speed falls below VMIN. -/
def floorWarned (s : State) : State :=
  when (decide (allowedSpeed s < govMin s) && !s.gov.floor) (alarm .govFloor noInst) s

theorem sansReports_floorWarned (s : State) : (floorWarned s).sansReports = s.sansReports := by
  unfold floorWarned when
  split
  · exact sansReports_alarm ..
  · rfl

theorem floorWarned_bitOf {s : State} (hlow : allowedSpeed s < govMin s) (hfloor : s.gov.floor = false) :
    bitOf (floorWarned s) Reg.evtAlarmLatch 0 18 = true := by
  rw [floorWarned, decide_eq_true hlow, hfloor]
  exact alarm_bitOf .govFloor noInst s

/-- What GOV_UPDATE writes in the governor before the watch, `warned` being the state after the alarm. -/
def inputsTaken (s warned : State) (g : Gov) : Gov :=
  let allow := allowedSpeed s
  let low := decide (allow < govMin s)
  let v := max (nextGov s allow).1 (govMin s)
  { g with vallow := allow, vgov := v, vpeer := peerSpeed warned,
           limiter := if low then 11 else (((govInputs s).idxOf? allow).map (· + 1)).getD 8,
           floor := low, upSince := (nextGov s allow).2, driving := govDrives warned, duty := govDuty warned v,
           graceUntil := if decide (v < s.gov.vgov) then some (warned.now + warned.fld Reg.govCfg 0 3 0 * 500 * ms8)
             else g.graceUntil }

theorem inputsTaken_governedBy (s warned : State) (g : Gov) : GovernedBy s (inputsTaken s warned g) :=
  ⟨rfl, rfl, decide_eq_true_iff, fun hlow => if_pos hlow⟩

theorem execGovUpdate_eq (t : Nat) (s : State) : execGovUpdate t s =
    ringCmd t s fun s => watchSpeed ((floorWarned s).modGov (inputsTaken s (floorWarned s))) := by
  refine congrArg (ringCmd t s) (funext fun s => ?_)
  dsimp only
  exact congrArg watchSpeed rfl

section
variable {s : State} (hr : s.ringsRun = true) (t : Nat)
include hr

/-- GOV_UPDATE raises GOV_FLOOR where it is due and writes the governor, which then follows the inputs. The state after the
alarm is given by an equation, so that nothing beside the alarm's own laws looks into it. -/
theorem exec_govUpdate : ∃ g warned, GovernedBy (s.arrive t) g ∧ floorWarned (s.arrive t) = warned ∧
    exec (.govUpdate t) s = .next (after t s fun _ => { warned with gov := g }) := by
  obtain ⟨g, hg, hwatch⟩ := watchSpeed_governedBy
    (inputsTaken_governedBy (s.arrive t) (floorWarned (s.arrive t)) (floorWarned (s.arrive t)).gov)
  exact ⟨g, _, hg, rfl, (execGovUpdate_eq t s).trans (ringCmd_eq_after hr hwatch)⟩

theorem leaves_govUpdate : Leaves (.govUpdate t) s fun s' =>
    (∀ v ∈ govInputs (s.arrive t), s'.gov.vallow ≤ v) ∧ s'.gov.vallow ≤ 10000000 ∧
      (s'.gov.vallow = 10000000 ∨ s'.gov.vallow ∈ govInputs (s.arrive t)) ∧ govMin s ≤ s'.gov.vgov ∧
      (s'.gov.vallow < s.gov.vgov → s'.gov.vgov = max s'.gov.vallow (govMin s)) ∧
      (s.gov.vgov ≤ s'.gov.vallow → s'.gov.vallow * 1000 < s.gov.vgov * (1000 + s.fld Reg.govCfg 0 30 24) →
        s'.gov.vgov = max s.gov.vgov (govMin s)) ∧
      (s'.gov.floor = true ↔ s'.gov.vallow < govMin s) ∧ (s'.gov.floor = true → s'.gov.limiter = 11) ∧
      (s'.gov.floor = true → s.gov.floor = false → bitOf s' Reg.evtAlarmLatch 0 18 = true) ∧
      s'.jobs = s.jobs ∧ s'.pac = s.pac ∧ SameMotion s s' := by
  obtain ⟨g, warned, hg, hwarned, hexec⟩ := exec_govUpdate hr t
  obtain ⟨hmem, hle⟩ := allowedSpeed_isLeast (s.arrive t)
  rw [← hg.vallow] at hmem hle
  have hmin : govMin s ≤ g.vgov := hg.vgov.symm.le.trans' (le_max_right ..)
  have halarm : g.floor = true → s.gov.floor = false → bitOf warned Reg.evtAlarmLatch 0 18 = true := by
    intro hset hclear
    have hlow := hg.floor.mp hset
    rw [hg.vallow] at hlow
    rw [← hwarned]
    exact floorWarned_bitOf hlow hclear
  have hsans : warned.sansReports = (s.arrive t).sansReports := by
    rw [← hwarned]
    exact sansReports_floorWarned _
  obtain ⟨hjobs, -, -, -, -, -, hpac, -⟩ := samePrint_of_sansReports hsans
  exact ⟨_, hexec, fun v hv => hle (.inr hv), hle (.inl rfl), hmem, hmin, hg.vgov_of_fall, hg.vgov_of_band, hg.floor,
    hg.limiter, halarm, hjobs, hpac, (sameMotion_of_sansReports hsans :)⟩

/-! ## GOV_OVERSPEED -/

/-- Until the master has been above the limit for 20 ms nothing happens. -/
theorem exec_govOverspeed_of_early {o : Nat} (hover : s.gov.overSince = some o) (hearly : max s.now t < o + 160000000) :
    exec (.govOverspeed t) s = .next (after t s id) := by
  refine (ringCmd_eq_after hr (g := id) (if_neg fun h => ?_) : execGovOverspeed t s = _)
  have hany := (Bool.and_eq_true_iff.mp h).2
  have hover' : (s.arrive t).gov.overSince = some o := hover
  rw [hover', Option.any_some, decide_eq_true_iff] at hany
  exact hearly.not_ge hany

/-- After 20 ms above the limit the episode is marked, counted and raised as an alarm. -/
theorem leaves_govOverspeed {o : Nat} (hclear : s.gov.overspeed = false) (hover : s.gov.overSince = some o)
    (hdue : o + 160000000 ≤ max s.now t) : Leaves (.govOverspeed t) s fun s' =>
      s'.gov = { s.gov with overspeed := true } ∧
        (s'.rd Reg.govOverspeed).toNat = min ((s.rd Reg.govOverspeed).toNat + 1) 0xFFFFFFFF ∧
        bitOf s' Reg.evtAlarmLatch 0 17 = true ∧ s'.jobs = s.jobs ∧ SameMotion s s' := by
  have hcond : (!(s.arrive t).gov.overspeed &&
      (s.arrive t).gov.overSince.any fun o => decide (o + 20 * ms8 ≤ (s.arrive t).now)) = true := by
    have hclear' : (s.arrive t).gov.overspeed = false := hclear
    have hover' : (s.arrive t).gov.overSince = some o := hover
    rw [hclear', hover', Option.any_some, Bool.not_false, Bool.true_and]
    exact decide_eq_true hdue
  let marked := (s.arrive t).modGov fun g => { g with overspeed := true }
  let counted := marked.count Reg.govOverspeed
  have hcount : ((alarm .govOverspeed noInst counted).rd Reg.govOverspeed).toNat =
      min ((marked.rd Reg.govOverspeed).toNat + 1) 0xFFFFFFFF := by
    rw [rd_alarm (by decide) (by decide), rd_count rfl]
  obtain ⟨hjobs, -, -, -, -, -, -, -, -, hgov⟩ := samePrint_alarm .govOverspeed noInst counted
  exact ⟨_, (ringCmd_eq_after hr (g := fun _ => _) (if_pos hcond) : execGovOverspeed t s = _), hgov, hcount,
    alarm_bitOf .govOverspeed noInst counted, hjobs, (sameMotion_alarm .govOverspeed noInst counted :)⟩

/-! ## GOV_PEER_SILENT -/

variable {peer : Fin 256}

/-- A device that has been silent for 4 ms is left out and named. -/
theorem leaves_govPeerSilent (hsilent : ∃ p ∈ s.gov.peers, p.1 = peer.val ∧ p.2.2 + 32000000 ≤ max s.now t) :
    Leaves (.govPeerSilent t peer) s fun s' => s'.gov.peers = s.gov.peers.filter (fun p => p.1 != peer.val) ∧
      bitOf s' Reg.evtAlarmLatch 0 19 = true ∧ s'.jobs = s.jobs ∧ SameMotion s s' := by
  obtain ⟨p, hp, hpeer, hdue⟩ := hsilent
  have hany : ((s.arrive t).gov.peers.any fun p =>
      p.1 == peer.val && decide (p.2.2 + 4 * ms8 ≤ (s.arrive t).now)) = true :=
    List.any_eq_true.mpr ⟨p, hp, Bool.and_eq_true_iff.mpr ⟨beq_iff_eq.mpr hpeer, decide_eq_true hdue⟩⟩
  let heard := (s.arrive t).modGov fun g => { g with peers := g.peers.filter fun p => p.1 != peer.val }
  obtain ⟨hjobs, -, -, -, -, -, -, -, -, hgov⟩ := samePrint_alarm .govPeerSilent peer heard
  exact ⟨_, (ringCmd_eq_after hr (g := fun _ => _) (if_pos hany) : execGovPeerSilent t peer s = _),
    (congrArg Gov.peers hgov :), alarm_bitOf .govPeerSilent peer heard, hjobs,
    (sameMotion_alarm .govPeerSilent peer heard :)⟩

/-- A device from which something has come within 4 ms, or that is left out already, is not named. -/
theorem exec_govPeerSilent_of_heard (hheard : ∀ p ∈ s.gov.peers, p.1 = peer.val → max s.now t < p.2.2 + 32000000) :
    exec (.govPeerSilent t peer) s = .next (after t s id) := by
  refine (ringCmd_eq_after hr (g := id) (if_neg fun h => ?_) : execGovPeerSilent t peer s = _)
  obtain ⟨p, hp, hsilent⟩ := List.any_eq_true.mp h
  obtain ⟨hpeer, hdue⟩ := Bool.and_eq_true_iff.mp hsilent
  exact (hheard p hp (beq_iff_eq.mp hpeer)).not_ge (of_decide_eq_true hdue)

end

/-! ## The obligation -/

/-- Settles O32: v_allow is the least of the ceiling and the inputs, v_gov falls to it at once or stays inside the rising
band, and each timeout acts once its instant has passed. That overruns are watched at the governor's updates is log entry
55. -/
theorem governor : Obligations.Governor := fun t _ _ hr =>
  ⟨leaves_govUpdate hr t, fun _ hclear hover hdue => leaves_govOverspeed hr t hclear hover hdue,
    fun _ hover hearly => exec_govOverspeed_of_early hr t hover hearly, leaves_govPeerSilent hr t,
    exec_govPeerSilent_of_heard hr t⟩

end Sys2Proof.Machine
end

section
/-! What a cause of a hold leaves (R54 to R56, R271, R291): of the alarms that have latched, and of an axis that is
disabled. -/
namespace Sys2Proof.Machine

open Sys2Proof.Claim

/-! ## Alarms stay latched -/

/-- Setting a clear bit adds it to the word. -/
theorem setBits_one_eq_or {w : Word} {b : Nat} (h : w.getLsbD b = false) :
    setBits w b b 1 = w ||| BitVec.twoPow 32 b := by
  have hclear : bitsOf w b b = 0 := by
    simpa [bitsOf, BitVec.getLsbD, Nat.testBit_eq_decide_div_mod_eq] using h
  have hdisjoint : w &&& BitVec.twoPow 32 b = 0#32 := by
    rw [BitVec.and_twoPow, h]
    rfl
  have hword : setBits w b b 1 = w + BitVec.twoPow 32 b := by
    apply BitVec.eq_of_toNat_eq
    simp [setBits, hclear, BitVec.toNat_twoPow]
  rw [hword, BitVec.add_eq_or_of_and_eq_zero _ _ hdisjoint]

/-- From the first state to the second, no alarm has been cleared. -/
def LatchKept (s s' : State) : Prop :=
  ∀ i < 8, ∀ b, bitOf s Reg.evtAlarmLatch i b = true → bitOf s' Reg.evtAlarmLatch i b = true

theorem LatchKept.refl (s : State) : LatchKept s s := fun _ _ _ => id

theorem LatchKept.trans {s s' s'' : State} (h : LatchKept s s') (h' : LatchKept s' s'') : LatchKept s s'' :=
  fun i hi b hb => h' i hi b (h i hi b hb)

theorem LatchKept.of_rd {s s' : State} (h : ∀ i < 8, s'.rd Reg.evtAlarmLatch i = s.rd Reg.evtAlarmLatch i) :
    LatchKept s s' :=
  fun i hi b hb => by rwa [bitOf, h i hi]

theorem LatchKept.of_regs {s s' : State} (h : s'.regs = s.regs) : LatchKept s s' := .of_rd fun i _ => rd_of_regs h _ i

/-- Latching an alarm sets its bit and clears none. -/
theorem latchKept_latchAlarm (code : Nat) (s : State) : LatchKept s (latchAlarm code s) := by
  have hpos : code % 32 < 32 := Nat.mod_lt _ (by decide)
  unfold latchAlarm
  simp only []
  split
  · exact .refl s
  next hclear =>
    have hoff : (s.rd Reg.evtAlarmLatch (code / 32)).getLsbD (code % 32) = false := by
      rwa [bitsOf_eq_one_iff, Bool.not_eq_true] at hclear
    intro i _ b hb
    rw [bitOf, rd_of_regs (State.msix_regs ..)]
    by_cases hi : i = code / 32
    · subst hi
      have hne : setBits (s.rd Reg.evtAlarmLatch (code / 32)) (code % 32) (code % 32) 1 ≠ Reg.evtAlarmLatch.reset := by
        intro h
        have hbit := setBits_getLsbD (s.rd Reg.evtAlarmLatch (code / 32)) hpos
        rw [h] at hbit
        simp [Reg.evtAlarmLatch] at hbit
      rw [rd_wr_self hne, setBits_one_eq_or hoff, BitVec.getLsbD_or]
      exact Bool.or_eq_true_iff.mpr (.inl hb)
    · have haddr : Reg.evtAlarmLatch.addr i ≠ Reg.evtAlarmLatch.addr (code / 32) := by
        simp only [RegSpec.addr, Reg.evtAlarmLatch]
        omega
      rwa [rd_wr_of_ne haddr]

theorem latchKept_alarmArgs (a : Alarm) (inst : Nat) (a0 a1 a2 : Int) (s : State) :
    LatchKept s (alarmArgs a inst a0 a1 a2 s) := by
  refine (latchKept_latchAlarm a.code s).trans (.of_rd fun i _ => ?_)
  obtain h | h := alarmArgs_regs a inst a0 a1 a2 s
  · rw [rd_of_regs h]
  · have hstatus : Reg.evtAlarmLatch.addr i ≠ Reg.evtStatus.addr 0 := by
      simp only [RegSpec.addr, Reg.evtAlarmLatch, Reg.evtStatus]
      omega
    rw [rd_of_regs h, State.setFld, rd_wr_of_ne hstatus]

/-! ## What a hold leaves before motion stops -/

/-- The motion hardware, and the register words but for the counters of dropped reports. -/
def State.motionWords (s : State) : MotionHardware × (Nat → Option Word) := (s.motion, s.words)

theorem motionWords_of_eq {s s' : State} (hmotion : SameMotion s s') (hwords : s'.words = s.words) :
    s'.motionWords = s.motionWords := by
  rw [State.motionWords, sameMotion_iff.mp hmotion, hwords, State.motionWords]

theorem ba_of_motionWords {s s' : State} (h : s'.motionWords = s.motionWords) : s'.ba = s.ba :=
  congrArg (fun v => v.1.1) h

theorem latchKept_of_motionWords {s s' : State} (h : s'.motionWords = s.motionWords) : LatchKept s s' := by
  refine .of_rd fun i hi => rd_of_words (congrArg Prod.snd h) (decide_eq_false ?_)
  simp only [RegSpec.addr, Reg.evtAlarmLatch]
  omega

theorem words_of_regs {s s' : State} (h : s'.regs = s.regs) : s'.words = s.words :=
  funext fun k => by rw [State.words, h, State.words]

theorem motionWords_complete (id : RingId) (st : Status) (r : Nat) (s : State) :
    (complete id st r s).motionWords = s.motionWords :=
  motionWords_of_eq (complete_sameMotion ..) (words_of_regs (complete_regs ..))

theorem motionWords_sendHubRel (h : EndpointRec) (f : MlkTx) (s : State) :
    (sendHubRel h f s).motionWords = s.motionWords := by
  unfold sendHubRel
  split
  · obtain ⟨mlk, out, hpush⟩ := pushRel_eq h.lane0 f s
    rw [hpush]
    rfl
  · rfl

theorem motionWords_sendStops (s : State) : (sendStops s).motionWords = s.motionWords := by
  refine (foldl_leaves (fun s h => motionWords_sendHubRel ..) _ _).trans ?_
  refine foldl_leaves (fun s h => ?_) _ s
  rfl

theorem words_voidQueue (ctx : Fin 64) (codes : BitVec 16) (l : List Record) (s : State) :
    (voidQueue ctx codes l s).2.words = s.words := by
  induction l generalizing s with
  | nil => rfl
  | cons r l ih => exact ih _

theorem words_withdrawn (ctx : Fin 64) (s : State) : (withdrawn ctx s).words = s.words := rfl

theorem words_abortJob (ctx : Fin 64) (s : State) : (abortJob ctx s).words = s.words := by
  unfold abortJob
  extract_lets s₁ mine s₂ cod pac s₃ j items
  have hruns : s₁.words = s.words := words_of_reported (reported_endRuns ..)
  have hcancel : s₂.words = s₁.words := by
    refine foldl_leaves (fun s x => ?_) _ s₁
    split
    · refine foldl_leaves (fun s h => ?_) _ s
      rfl
    · rfl
  have hwithdrawn : s₃ = withdrawn ctx s₂ := rfl
  clear_value items j s₃ pac cod s₂ mine s₁
  rw [words_of_reported (reported_modJob ..), words_of_reported (reported_takeEntries ..), words_voidQueue,
    words_of_reported (reported_closeFront ..), hwithdrawn, words_withdrawn, hcancel, hruns]

theorem motionWords_abortActive (s : State) : (abortActive s).motionWords = s.motionWords := by
  refine foldl_leaves (fun s c => ?_) _ s
  split
  · obtain ⟨-, -, -, -, -, -, hmotion⟩ := abortJob_leaves c s
    exact motionWords_of_eq hmotion (words_abortJob c s)
  · rfl

theorem motionWords_endService (s : State) : (endService s).motionWords = s.motionWords := by
  unfold endService
  extract_lets cal s₁
  have hrun : s₁.motionWords = s.motionWords := by
    simp only [s₁]
    split
    · exact motionWords_complete ..
    · rfl
  clear_value s₁ cal
  rw [← hrun]
  split
  · split
    · exact motionWords_complete ..
    · rfl
  · rfl

/-! ## Motion stops -/

theorem endHome_cases (homing : Bool) (st : Status) (r : Nat) (s : State) :
    endHome homing st r s = s ∨ endHome homing st r s = complete .supervisor st r s := by
  cases homing
  · exact .inl rfl
  · exact .inr rfl

theorem motionWords_endHome (homing : Bool) (st : Status) (r : Nat) (s : State) :
    (endHome homing st r s).motionWords = s.motionWords := by
  obtain h | h := endHome_cases homing st r s
  · rw [h]
  · rw [h, motionWords_complete]

/-- From the first state to the second, a brushless axis is as it was and no alarm has been cleared. -/
def AxisKept (n : Fin 8) (s s' : State) : Prop := s'.ba[n] = s.ba[n] ∧ LatchKept s s'

theorem AxisKept.refl (n : Fin 8) (s : State) : AxisKept n s s := ⟨rfl, .refl s⟩

theorem AxisKept.trans {n : Fin 8} {s s' s'' : State} (h : AxisKept n s s') (h' : AxisKept n s' s'') : AxisKept n s s'' :=
  ⟨h'.1.trans h.1, h.2.trans h'.2⟩

theorem axisKept_of_motionWords {s s' : State} (h : s'.motionWords = s.motionWords) (n : Fin 8) : AxisKept n s s' :=
  ⟨by rw [ba_of_motionWords h], latchKept_of_motionWords h⟩

theorem axisKept_alarmArgs (n : Fin 8) (a : Alarm) (inst : Nat) (a0 a1 a2 : Int) (s : State) :
    AxisKept n s (alarmArgs a inst a0 a1 a2 s) := by
  obtain ⟨hba, -⟩ := sameMotion_of_sansReports (sansReports_alarmArgs a inst a0 a1 a2 s)
  exact ⟨by rw [hba], latchKept_alarmArgs a inst a0 a1 a2 s⟩

theorem axisKept_loseLock (n : Fin 8) (s : State) : AxisKept n s (loseLock s) := by
  unfold loseLock when
  simp only []
  split
  · split
    · exact axisKept_alarmArgs n _ _ _ _ _ _
    · exact .refl n s
  · exact .refl n s

/-- Ending a stepper's homing, whatever has been done to the stepper. -/
theorem axisKept_endHome_modStp (n : Fin 8) (m : Fin 16) (f : Stp → Stp) (homing : Bool) (s : State) :
    AxisKept n s (endHome homing .aborted 0 ((stpCatchUp m s).modStp m f)) :=
  (axisKept_of_motionWords (motionWords_endHome ..) n : AxisKept n ((stpCatchUp m s).modStp m f) _)

theorem axisKept_stpStopNow (n : Fin 8) (m : Fin 16) (s : State) : AxisKept n s (stpStopNow m s) := by
  unfold stpStopNow when dropStepperLock
  simp only []
  split
  · split
    · exact (axisKept_endHome_modStp ..).trans (axisKept_loseLock n _)
    · exact axisKept_endHome_modStp ..
  · exact axisKept_endHome_modStp ..

theorem axisKept_stpRampStop (n : Fin 8) (m : Fin 16) (s : State) : AxisKept n s (stpRampStop m s) :=
  axisKept_endHome_modStp ..

theorem axisKept_baStop {n m : Fin 8} (h : n ≠ m) (brake : Bool) (s : State) : AxisKept n s (baStop m brake s) := by
  have hstopped : AxisKept n s (s.modBa m fun x => x.stop brake) := ⟨upd_getElem_of_ne h _ _, .of_regs rfl⟩
  exact hstopped.trans (axisKept_of_motionWords (motionWords_endHome ..) n)

/-- A stop of the enabled axes leaves an axis that is not. -/
theorem axisKept_motionFor {n : Fin 8} {s : State} (h : (s.ba[n]).en = false) (cls : Nat) :
    AxisKept n s (motionFor cls s) := by
  unfold motionFor
  simp only []
  split
  · exact .refl n s
  · refine AxisKept.trans (List.foldlRecOn (motive := fun x => AxisKept n s x) _ _ (.refl n s) fun x hx m _ => ?_)
      (List.foldlRecOn (motive := fun x => AxisKept n _ x) _ _ (.refl n _) fun x hx m _ => ?_)
    · split
      next hen =>
        refine hx.trans (axisKept_baStop ?_ ..)
        rintro rfl
        rw [hx.1, h] at hen
        contradiction
      · exact hx
    · split_ifs
      · exact hx.trans (axisKept_stpStopNow n m x)
      · exact hx.trans (axisKept_stpRampStop n m x)
      · exact hx

/-! ## A cause of a hold -/

theorem axisKept_enterHold {n : Fin 8} {s : State} (h : (s.ba[n]).en = false) (cls : Nat) :
    AxisKept n s (enterHold cls s) := by
  have hstopped : (endService (abortActive (sendStops
      (s.modDev fun d => { d with hold := true, holdClass := cls, holdAt := s.press })))).motionWords = s.motionWords := by
    rw [motionWords_endService, motionWords_abortActive, motionWords_sendStops]
    rfl
  have hkept := axisKept_of_motionWords hstopped n
  exact hkept.trans (axisKept_motionFor (by rw [hkept.1, h]) cls)

/-- A cause of a hold leaves an axis that is disabled, and the alarms. -/
theorem axisKept_holdCause {n : Fin 8} {s : State} (h : (s.ba[n]).en = false) (bit : Nat) :
    AxisKept n s (holdCause bit s) := by
  unfold holdCause
  simp only []
  split_ifs
  · exact axisKept_motionFor (s := (latchCause bit s).modDev _) h _
  · exact .refl n s
  · exact axisKept_enterHold (s := latchCause bit s) h _
  · exact .refl n s

end Sys2Proof.Machine
end

section
/-! One brushless axis of the state: what a change to it leaves. -/
namespace Sys2Proof.Machine

open Sys2Proof.Claim

theorem modBa_ba_self (s : State) (n : Fin 8) (f : Ba → Ba) : (s.modBa n f).ba[n] = f s.ba[n] := upd_getElem_self ..

theorem modBa_ba_of_ne {n m : Fin 8} (h : m ≠ n) (s : State) (f : Ba → Ba) : (s.modBa n f).ba[m] = s.ba[m] :=
  upd_getElem_of_ne h ..

theorem modBa_modBa (s : State) (n : Fin 8) (f g : Ba → Ba) : (s.modBa n f).modBa n g = s.modBa n fun x => g (f x) := by
  rw [State.modBa, State.modBa_ba, upd_upd]
  rfl

/-- A change that gives an axis back as it stands changes nothing. -/
theorem modBa_of_fixed {s : State} {n : Fin 8} {f : Ba → Ba} (h : f s.ba[n] = s.ba[n]) : s.modBa n f = s := by
  rw [State.modBa, upd, h, Fin.getElem_fin, Vector.set_getElem_self]

/-- Two changes that agree on an axis as it stands agree. -/
theorem modBa_congr {s : State} {n : Fin 8} {f g : Ba → Ba} (h : f s.ba[n] = g s.ba[n]) : s.modBa n f = s.modBa n g := by
  rw [State.modBa, upd, h, State.modBa, upd]

theorem after_ba (t : Nat) (s : State) (f : State → State) : (after t s f).ba = (f (s.arrive t)).ba := rfl

end Sys2Proof.Machine
end

section
/-! Faults of a brushless axis (R270, R274, R275), and obligation O34. -/
namespace Sys2Proof.Machine

open Sys2Proof.Claim

/-! ## An axis faults -/

/-- An axis that a fault has latched on. -/
def Ba.faulted (code : Nat) (act : FaultAct) (x : Ba) : Ba :=
  { x with fault := code, act := act, st := .fault, en := false, brake := act == .brake, home := none, magAt := none }

/-- An axis with a fault latched, to which OPEN has been applied. -/
def Ba.opened (x : Ba) : Ba := { x with st := .fault, act := .opens }

/-- One more event that a latched fault has met, up to 255. -/
def countLatched (n : Fin 8) (s : State) : State := s.setFld Reg.baErr n 31 24 (min 255 (s.fld Reg.baErr n 31 24 + 1))

theorem fld_countLatched (n : Fin 8) (s : State) :
    (countLatched n s).fld Reg.baErr n 31 24 = min 255 (s.fld Reg.baErr n 31 24 + 1) := by
  have hfield := bitsOf_setBits (s.rd Reg.baErr n) (hi := 31) (lo := 24) (v := min 255 (s.fld Reg.baErr n 31 24 + 1))
    (by decide) (by decide) (by omega)
  have hword : setBits (s.rd Reg.baErr n) 31 24 (min 255 (s.fld Reg.baErr n 31 24 + 1)) ≠ Reg.baErr.reset := fun h => by
    rw [h] at hfield
    simp only [Reg.baErr, bitsOf, BitVec.toNat_ofNat] at hfield
    omega
  rw [countLatched, State.setFld, State.fld, rd_wr_self hword, hfield]

section
variable {n : Fin 8} {s : State} (code : Nat) (act : FaultAct)

/-- On an axis with a fault latched the event is counted, and OPEN alone is applied (R275). -/
theorem baFault_of_latched (h : (s.ba[n]).fault ≠ 0) : baFault n code act s =
    if act = .opens then (countLatched n s).modBa n Ba.opened else countLatched n s :=
  if_pos h

/-- An enabled axis without a fault takes the fault, and MOT_FAULT latches. -/
theorem baFault_of_enabled (h : (s.ba[n]).fault = 0) (hen : (s.ba[n]).en = true) :
    (baFault n code act s).ba[n] = (s.ba[n]).faulted code act ∧
      bitOf (baFault n code act s) Reg.evtAlarmLatch 0 20 = true := by
  obtain ⟨x, hx⟩ : ∃ x, x = endHome (s.ba[n]).home.isSome .aborted 0 (s.modBa n (Ba.faulted code act)) := ⟨_, rfl⟩
  have hfault : baFault n code act s = holdCause 5 (alarmArgs .motFault n code 0 0 x) := by
    rw [hx]
    exact (if_neg (not_not.mpr h)).trans (if_pos hen)
  have hba : x.ba[n] = (s.ba[n]).faulted code act := by
    rw [hx, ba_of_motionWords (motionWords_endHome ..)]
    exact modBa_ba_self ..
  have halarm := axisKept_alarmArgs n .motFault n code 0 0 x
  have hhold : AxisKept n (alarmArgs .motFault n code 0 0 x) (holdCause 5 (alarmArgs .motFault n code 0 0 x)) :=
    axisKept_holdCause (by rw [halarm.1, hba]; rfl) 5
  rw [hfault]
  exact ⟨hhold.1.trans (halarm.1.trans hba), hhold.2 0 (by decide) 20 (alarmArgs_bitOf .motFault n code 0 0 x)⟩

end

/-! ## The events of Table 14.3 -/

/-- A fault's event: it latches on an enabled axis that has no fault, and is counted on an axis that has one. -/
def Faults (n : Fin 8) (s : State) (c : Instr) (code : Nat) (act : FaultAct) : Prop :=
  ((s.ba[n]).fault = 0 → (s.ba[n]).en = true → Leaves c s fun s' => (s'.ba[n]).fault = code ∧ (s'.ba[n]).st = .fault ∧
    (s'.ba[n]).act = act ∧ (s'.ba[n]).en = false ∧ bitOf s' Reg.evtAlarmLatch 0 20 = true) ∧
  ((s.ba[n]).fault ≠ 0 → Leaves c s fun s' => (s'.ba[n]).fault = (s.ba[n]).fault ∧ (s'.ba[n]).en = (s.ba[n]).en ∧
    s'.fld Reg.baErr n 31 24 = min 255 (s.fld Reg.baErr n 31 24 + 1) ∧ (act = .opens → (s'.ba[n]).act = .opens) ∧
    (act ≠ .opens → s'.ba = s.ba) ∧ (∀ m, m ≠ n → s'.ba[m] = s.ba[m]) ∧ s'.stp = s.stp)

section
variable {n : Fin 8} {t : Nat} {s : State} {c : Instr} {code : Nat} {act : FaultAct}

/-- A command that ends in the fault, of a state in which the axis's fault and EN stand as they stood before. -/
theorem faults_of_exec_eq {y : State} (hexec : exec c s = .next (after t s fun _ => baFault n code act y))
    (hfault : (y.ba[n]).fault = (s.ba[n]).fault) (hen : (y.ba[n]).en = (s.ba[n]).en) (hregs : y.regs = s.regs)
    (hstp : y.stp = s.stp) (hba : act ≠ .opens → y.ba = s.ba) (hother : ∀ m, m ≠ n → y.ba[m] = s.ba[m]) :
    Faults n s c code act := by
  refine ⟨fun hclear hon => ⟨_, hexec, ?_⟩, fun hlatched => ⟨_, hexec, ?_⟩⟩
  · obtain ⟨hfaulted, hlatch⟩ := baFault_of_enabled code act (hfault.trans hclear) (hen.trans hon)
    rw [after_ba, hfaulted]
    exact ⟨rfl, rfl, rfl, rfl, hlatch⟩
  · have hcount : (countLatched n y).fld Reg.baErr n 31 24 = min 255 (s.fld Reg.baErr n 31 24 + 1) := by
      rw [fld_countLatched, fld_of_regs hregs]
    rw [baFault_of_latched code act (hfault ▸ hlatched)]
    split_ifs with hopens
    · refine ⟨?_, ?_, hcount, fun _ => ?_, fun h => absurd hopens h, fun m hm => ?_, hstp⟩
      · rw [after_ba, modBa_ba_self]
        exact hfault
      · rw [after_ba, modBa_ba_self]
        exact hen
      · rw [after_ba, modBa_ba_self]
        rfl
      · exact (modBa_ba_of_ne hm ..).trans (hother m hm)
    · exact ⟨hfault, hen, hcount, fun h => absurd h hopens, hba, hother, hstp⟩

/-- A command whose effect is the fault. -/
theorem faults_of_exec (hexec : exec c s = .next (after t s (baFault n code act))) : Faults n s c code act :=
  faults_of_exec_eq (y := s.arrive t) hexec rfl rfl rfl rfl (fun _ => rfl) fun _ _ => rfl

end

/-- A command whose effect is a timed fault, while its condition holds: it faults the axis once the condition has held for
long enough, and before that does nothing. -/
theorem faults_of_timedFault {n : Fin 8} {t a len code : Nat} {act : FaultAct} {s : State} {c : Instr} {f : State → State}
    (hexec : exec c s = run t s f) (hf : f (s.arrive t) = timedFault n (some a) len code act (s.arrive t)) :
    (a + len ≤ max s.now t → Faults n s c code act) ∧ (max s.now t < a + len → exec c s = .next (after t s id)) :=
  ⟨fun hdue => faults_of_exec (hexec.trans (run_eq_after (hf.trans (if_pos hdue)))),
    fun hearly => hexec.trans (run_eq_after (hf.trans (if_neg hearly.not_ge)))⟩

/-- A driver's fault pin counts once it has been low for 1 µs. -/
theorem faults_baDriverFault {t : Nat} {n : Fin 8} {lowNs : Nat} {s : State} (hlong : 1000 ≤ lowNs) :
    Faults n s (.baDriverFault t n lowNs) 4 .opens := by
  refine faults_of_exec_eq (y := (s.arrive t).modBa n fun x => { x with driverLow := decide (0 < lowNs) })
    (run_eq_after (if_pos hlong) : execBaDriverFault t n lowNs s = .next (after t s fun _ => _)) ?_ ?_ rfl rfl
    (fun h => absurd rfl h) fun m hm => modBa_ba_of_ne hm ..
  · rw [modBa_ba_self]
    rfl
  · rw [modBa_ba_self]
    rfl

/-! ## The obligation -/

/-- Settles O34: each event is the fault of Table 14.3 once its condition has held for the table's time, and a fault either
latches on the axis or is counted. -/
theorem brushlessFaults : Obligations.BrushlessFaults := by
  intro t n lowNs a s
  refine ⟨faults_baDriverFault, fun hshort => (run_eq_after (if_neg hshort.not_ge) : execBaDriverFault t n lowNs s = _),
    fun hmag => faults_of_timedFault (rfl : execMagnetiseTimeout t n s = run t s _) ?_,
    fun hlock => faults_of_timedFault (rfl : execLockedRotor t n s = run t s _) ?_,
    fun hbus => faults_of_timedFault (rfl : execBaBusFault t n s = run t s _) ?_,
    fun hover => faults_of_timedFault (rfl : execBaOverspeedFault t n s = run t s _) ?_,
    fun herr => faults_of_timedFault (rfl : execBaSpeedErrorFault t n s = run t s _) ?_⟩
  · have hmag' : ((s.arrive t).ba[n]).magAt = some a := hmag
    simp only [hmag']
    rfl
  · exact congrArg (timedFault n · _ _ _ _) hlock
  · exact congrArg (timedFault n · _ _ _ _) hbus
  · exact congrArg (timedFault n · _ _ _ _) hover
  · exact congrArg (timedFault n · _ _ _ _) herr

end Sys2Proof.Machine
end

section
/-! Sigma-delta outputs (R261, R262). -/
namespace Sys2Proof.Machine

open Sys2Proof.Claim

/-! ## A channel -/

/-- A channel keeps its sample where that is valid. -/
def Sd.kept (c : Sd) : Sd := if c.valid then { c with lastValid := c.value, hadValid := true } else c

theorem Sd.kept_value (c : Sd) : c.kept.value = c.value := by unfold Sd.kept; split <;> rfl
theorem Sd.kept_ovr (c : Sd) : c.kept.ovr = c.ovr := by unfold Sd.kept; split <;> rfl
theorem Sd.kept_outputs (c : Sd) : c.kept.outputs = c.outputs := by unfold Sd.kept; split <;> rfl
theorem Sd.kept_ovrAt (c : Sd) : c.kept.ovrAt = c.ovrAt := by unfold Sd.kept; split <;> rfl

/-- A channel after an output within OVRTH. -/
def Sd.within (u : Int) (c : Sd) : Sd :=
  { c with value := u, ovr := false, outputs := c.outputs + 1, badLeft := c.badLeft - 1, ovrAt := none }

/-- A channel after an output beyond OVRTH. -/
def Sd.beyond (u : Int) (now : Nat) (c : Sd) : Sd :=
  { c with value := if 0 < u then 32767 else -32768, ovr := true, outputs := c.outputs + 1, badLeft := 4,
           ovrAt := some (c.ovrAt.getD now) }

/-! ## SD_OUTPUT in parts -/

/-- The faults of the axes whose channel has stood beyond OVRTH for too long (Table 14.3). -/
def sdFaults (ch : Fin 24) (ovrAt : Option Nat) (s : State) : State :=
  match ovrAt with
  | none => s
  | some since => (List.finRange 8).foldl (fun s n =>
      if (s.ba[n]).en ∧ (baChannels s n).contains ch.val ∧ 2 * baPeriod s n * 8 < s.now - since then baFault n 2 .opens s
      else s) s

/-- An overrange is counted as it begins. -/
def sdCounted (ch : Fin 24) (ovr : Bool) (s : State) : State :=
  if ovr && !(s.sd[ch]).ovr then s.count Reg.sdOvrcnt ch else s

/-- A channel takes an output. -/
def sdTaken (ch : Fin 24) (c : Sd) (s : State) : State := { s with sd := upd s.sd ch fun _ => c.kept }

theorem sdTaken_self (ch : Fin 24) (c : Sd) (s : State) : (sdTaken ch c s).sd[ch] = c.kept := upd_getElem_self ..

theorem sdTaken_of_ne {ch k : Fin 24} (h : k ≠ ch) (c : Sd) (s : State) : (sdTaken ch c s).sd[k] = s.sd[k] :=
  upd_getElem_of_ne h ..

theorem sdCounted_ba (ch : Fin 24) (ovr : Bool) (s : State) : (sdCounted ch ovr s).ba = s.ba := by
  unfold sdCounted
  split <;> rfl

theorem sdCounted_sd (ch : Fin 24) (ovr : Bool) (s : State) : (sdCounted ch ovr s).sd = s.sd := by
  unfold sdCounted
  split <;> rfl

/-- An overrange is counted once, as OVR sets. -/
theorem sdCounted_count (ch : Fin 24) (s : State) : ((sdCounted ch true s).rd Reg.sdOvrcnt ch).toNat =
    if (s.sd[ch]).ovr then (s.rd Reg.sdOvrcnt ch).toNat else min ((s.rd Reg.sdOvrcnt ch).toNat + 1) 0xFFFFFFFF := by
  unfold sdCounted
  cases (s.sd[ch]).ovr with
  | true => rfl
  | false => exact rd_count rfl ch s

theorem after_sd (t : Nat) (s : State) (f : State → State) : (after t s f).sd = (f (s.arrive t)).sd := rfl

theorem execSdOutput_eq (t : Nat) (ch : Fin 24) (acc : Int) (s : State) : execSdOutput t ch acc s = run t s fun s =>
    let u := floorDiv (acc * 32768) (max 1 ((s.fld Reg.sdCfg ch 8 0 : Int) ^ 3))
    let ovr := decide (s.fld Reg.sdCfg ch 31 16 < u.natAbs)
    let c := if ovr then (s.sd[ch]).beyond u (sdCounted ch ovr s).now else (s.sd[ch]).within u
    sdFaults ch c.kept.ovrAt (sdTaken ch c (sdCounted ch ovr s)) := rfl

/-- An axis that is disabled takes no fault of a channel. -/
theorem sdFaults_of_disabled {s : State} (h : ∀ m : Fin 8, (s.ba[m]).en = false) (ch : Fin 24) (ovrAt : Option Nat) :
    sdFaults ch ovrAt s = s := by
  cases ovrAt with
  | none => rfl
  | some since =>
    refine List.foldlRecOn (motive := fun x => x = s) _ _ rfl fun x hx m _ => ?_
    subst hx
    refine if_neg fun hfault => ?_
    rw [h m] at hfault
    exact absurd hfault.1 (by decide)

section
variable {t : Nat} {ch : Fin 24} {acc u : Int} {s : State}
  (hu : u = Int.fdiv (acc * 32768) (max 1 ((s.fld Reg.sdCfg ch 8 0 : Int) ^ 3)))
include hu

theorem exec_sdOutput_within (hin : u.natAbs ≤ s.fld Reg.sdCfg ch 31 16) :
    exec (.sdOutput t ch acc) s = .next (after t s fun s => sdTaken ch ((s.sd[ch]).within u) s) := by
  refine (execSdOutput_eq t ch acc s).trans (run_eq_after ?_)
  have hu' : floorDiv (acc * 32768) (max 1 (((s.arrive t).fld Reg.sdCfg ch 8 0 : Int) ^ 3)) = u := hu.symm
  have hovr : decide ((s.arrive t).fld Reg.sdCfg ch 31 16 < u.natAbs) = false := decide_eq_false hin.not_gt
  simp only [hu', hovr, Bool.false_eq_true, if_false, Sd.kept_ovrAt]
  rfl

/-- While no axis is enabled an output beyond OVRTH reaches nothing but its channel and the count. -/
theorem exec_sdOutput_beyond (hout : s.fld Reg.sdCfg ch 31 16 < u.natAbs) (hen : ∀ m : Fin 8, (s.ba[m]).en = false) :
    exec (.sdOutput t ch acc) s = .next (after t s fun s =>
      sdTaken ch ((s.sd[ch]).beyond u (sdCounted ch true s).now) (sdCounted ch true s)) := by
  refine (execSdOutput_eq t ch acc s).trans (run_eq_after ?_)
  have hu' : floorDiv (acc * 32768) (max 1 (((s.arrive t).fld Reg.sdCfg ch 8 0 : Int) ^ 3)) = u := hu.symm
  have hovr : decide ((s.arrive t).fld Reg.sdCfg ch 31 16 < u.natAbs) = true := decide_eq_true hout
  have hba : (sdCounted ch true (s.arrive t)).ba = s.ba := sdCounted_ba ..
  simp only [hu', hovr, if_true]
  refine sdFaults_of_disabled (fun m => ?_) ch _
  exact (congrArg (fun v : Vector Ba 8 => v[m].en) hba).trans (hen m)

theorem leaves_sdOutput_within (hin : u.natAbs ≤ s.fld Reg.sdCfg ch 31 16) :
    Leaves (.sdOutput t ch acc) s fun s' => (s'.sd[ch]).value = u ∧ (s'.sd[ch]).ovr = false ∧
      (s'.sd[ch]).outputs = (s.sd[ch]).outputs + 1 ∧ s'.regs = s.regs ∧ s'.ba = s.ba ∧
      (∀ k, k ≠ ch → s'.sd[k] = s.sd[k]) := by
  refine ⟨_, exec_sdOutput_within hu hin, ?_⟩
  simp only [after_sd, sdTaken_self, Sd.kept_value, Sd.kept_ovr, Sd.kept_outputs]
  exact ⟨rfl, rfl, rfl, rfl, rfl, fun k hk => sdTaken_of_ne hk ..⟩

theorem leaves_sdOutput_beyond (hout : s.fld Reg.sdCfg ch 31 16 < u.natAbs) (hen : ∀ m : Fin 8, (s.ba[m]).en = false) :
    Leaves (.sdOutput t ch acc) s fun s' => (s'.sd[ch]).value = (if 0 < u then 32767 else -32768) ∧
      (s'.sd[ch]).ovr = true ∧ (s'.rd Reg.sdOvrcnt ch).toNat =
        (if (s.sd[ch]).ovr then (s.rd Reg.sdOvrcnt ch).toNat else min ((s.rd Reg.sdOvrcnt ch).toNat + 1) 0xFFFFFFFF) ∧
      s'.ba = s.ba ∧ (∀ k, k ≠ ch → s'.sd[k] = s.sd[k]) := by
  refine ⟨_, exec_sdOutput_beyond hu hout hen, ?_⟩
  simp only [after_sd, sdTaken_self, Sd.kept_value, Sd.kept_ovr]
  refine ⟨rfl, rfl, sdCounted_count ch (s.arrive t), sdCounted_ba .., fun k hk => ?_⟩
  rw [sdTaken_of_ne hk, sdCounted_sd]
  rfl

end

end Sys2Proof.Machine
end

section
/-! The decision engine and the speed loop (R264 to R269, R275), and obligation O35. -/
namespace Sys2Proof.Machine

open Sys2Proof.Claim

/-! ## The comparators -/

/-- A flux vector lies in one of six sectors (R265). -/
theorem fluxSector_mem (a b : Int) : 1 ≤ fluxSector a b ∧ fluxSector a b ≤ 6 := by
  unfold fluxSector
  split_ifs <;> decide

/-- The torque comparator stays at -1, 0 or 1 (R266). -/
theorem torqueCmp_natAbs_le {old : Int} (h : old.natAbs ≤ 1) (ht e : Int) : (torqueCmp ht e old).natAbs ≤ 1 := by
  unfold torqueCmp
  split_ifs
  · decide
  · decide
  · decide
  · exact h

/-! ## The decision engine -/

/-- What a decision leaves of the axis it is for: Table 14.1 gives the legs. -/
structure Decided (x y : Ba) : Prop where
  legsPrev : y.legsPrev = x.legs
  legs : y.legs = switching y.dpsi y.dt y.sector x.legs
  sector : 1 ≤ y.sector ∧ y.sector ≤ 6
  dt : x.dt.natAbs ≤ 1 → y.dt.natAbs ≤ 1

/-- A pass of the engine replaces the axis by what it has decided. -/
theorem decideStep_eq (n : Fin 8) (s : State) : ∃ y, decideStep n s = s.modBa n (fun _ => y) ∧ Decided s.ba[n] y := by
  obtain ⟨⟨ia, ib⟩, hcur⟩ : ∃ i, baCurrents s n = i := ⟨_, rfl⟩
  obtain ⟨r, hr⟩ : ∃ r, decideStep n s = r := ⟨_, rfl⟩
  rw [hr]
  unfold decideStep at hr
  rw [hcur] at hr
  dsimp -zeta only at hr
  extract_lets x t td imin l la lb lc vdc va vb iba rs leak a b te fr hf k dpsi tref dt lockTq lockAt prev d decided
    entered at hr
  have hdecided : Decided s.ba[n] decided := ⟨rfl, rfl, fluxSector_mem a b, fun h => torqueCmp_natAbs_le h ..⟩
  refine ⟨entered, hr.symm, ?_⟩
  simp only [entered]
  split
  · exact ⟨hdecided.legsPrev, hdecided.legs, hdecided.sector, hdecided.dt⟩
  · exact hdecided

/-- The timer of the bus voltage. -/
def Ba.busTimed (b : Option Nat) (x : Ba) : Ba := { x with busAt := b }

theorem busTimer_eq (n : Fin 8) (s : State) : ∃ b, busTimer n s = s.modBa n (Ba.busTimed b) :=
  ⟨_, modBa_congr rfl⟩

/-- An axis that OPEN has taken to OFF. -/
def Ba.openedOff (x : Ba) : Ba := { x with st := .off, legs := 0, legsPrev := 0, sector := 0, dt := 0, tref := 0, lockAt := none }

section
variable {t : Nat} {n : Fin 8} {s : State}

theorem exec_decisionPeriod_of_opens (hst : (s.ba[n]).st = .fault) (hact : (s.ba[n]).act = .opens) :
    ∃ b, exec (.decisionPeriod t n) s = .next (after t s fun s => (s.modBa n (Ba.busTimed b)).modBa n Ba.openedOff) := by
  obtain ⟨b, hb⟩ := busTimer_eq n (s.arrive t)
  refine ⟨b, (run_eq_after ?_ : execDecisionPeriod t n s = _)⟩
  simp only [hb]
  refine if_pos ?_
  rw [modBa_ba_self]
  exact ⟨hst, hact⟩

theorem leaves_decisionPeriod_of_opens (hst : (s.ba[n]).st = .fault) (hact : (s.ba[n]).act = .opens) :
    Leaves (.decisionPeriod t n) s fun s' => (s'.ba[n]).st = .off ∧ (s'.ba[n]).legs = 0 ∧
      (s'.ba[n]).fault = (s.ba[n]).fault ∧ (∀ m, m ≠ n → s'.ba[m] = s.ba[m]) ∧ s'.regs = s.regs := by
  obtain ⟨b, hexec⟩ := exec_decisionPeriod_of_opens (t := t) hst hact
  refine ⟨_, hexec, ?_⟩
  simp only [after_ba, modBa_ba_self]
  exact ⟨rfl, rfl, rfl, fun m hm => (modBa_ba_of_ne hm ..).trans (modBa_ba_of_ne hm ..), rfl⟩

/-- Without an overcurrent the engine of an axis makes its decision. -/
theorem exec_decisionPeriod_of_engine (hengine : (s.ba[n]).engine = true) (hact : (s.ba[n]).act ≠ .opens)
    (hrec : (s.baRec n).isSome = true)
    (htrip : ∀ i : Int, (i = (baCurrents s n).1 ∨ i = (baCurrents s n).2 ∨ i = (baCurrents s n).1 + (baCurrents s n).2) →
      i.natAbs ≤ (s.rd Reg.baItrip n).toNat) :
    ∃ b, exec (.decisionPeriod t n) s = .next (after t s fun s => decideStep n (s.modBa n (Ba.busTimed b))) := by
  obtain ⟨b, hb⟩ := busTimer_eq n (s.arrive t)
  obtain ⟨y, hy⟩ : ∃ y, y = (s.arrive t).modBa n (Ba.busTimed b) := ⟨_, rfl⟩
  have hself : y.ba[n] = Ba.busTimed b s.ba[n] := hy ▸ modBa_ba_self ..
  have hruns : (y.ba[n]).engine = true := hself ▸ hengine
  have hin : ¬((y.rd Reg.baItrip n).toNat < (baCurrents y n).1.natAbs ∨
      (y.rd Reg.baItrip n).toNat < (baCurrents y n).2.natAbs ∨
      (y.rd Reg.baItrip n).toNat < ((baCurrents y n).1 + (baCurrents y n).2).natAbs) := by
    subst hy
    rintro (h | h | h)
    · exact (htrip _ (.inl rfl)).not_gt h
    · exact (htrip _ (.inr (.inl rfl))).not_gt h
    · exact (htrip _ (.inr (.inr rfl))).not_gt h
  refine ⟨b, (run_eq_after ?_ : execDecisionPeriod t n s = _)⟩
  simp only [hb, ← hy, hin, hruns, decide_false, Bool.false_and, Bool.false_eq_true, if_false, if_true]
  refine (if_neg fun h => ?_).trans (if_neg ?_)
  · rw [hself] at h
    exact hact h.2
  · rintro (hoff | hnone)
    · rw [Ba.engine, hoff] at hruns
      contradiction
    · have hrec' : (y.baRec n).isSome = true := hy ▸ hrec
      rw [Option.isNone_iff_eq_none.mp hnone] at hrec'
      contradiction

theorem leaves_decisionPeriod_of_engine (hengine : (s.ba[n]).engine = true) (hact : (s.ba[n]).act ≠ .opens)
    (hrec : (s.baRec n).isSome = true)
    (htrip : ∀ i : Int, (i = (baCurrents s n).1 ∨ i = (baCurrents s n).2 ∨ i = (baCurrents s n).1 + (baCurrents s n).2) →
      i.natAbs ≤ (s.rd Reg.baItrip n).toNat) :
    Leaves (.decisionPeriod t n) s fun s' => (s'.ba[n]).legsPrev = (s.ba[n]).legs ∧
      (s'.ba[n]).legs = switching (s'.ba[n]).dpsi (s'.ba[n]).dt (s'.ba[n]).sector (s.ba[n]).legs ∧
      1 ≤ (s'.ba[n]).sector ∧ (s'.ba[n]).sector ≤ 6 ∧ ((s.ba[n]).dt.natAbs ≤ 1 → (s'.ba[n]).dt.natAbs ≤ 1) ∧
      (∀ m, m ≠ n → s'.ba[m] = s.ba[m]) ∧ s'.regs = s.regs := by
  obtain ⟨b, hexec⟩ := exec_decisionPeriod_of_engine (t := t) hengine hact hrec htrip
  obtain ⟨y, hy, hdecided⟩ := decideStep_eq n ((s.arrive t).modBa n (Ba.busTimed b))
  rw [modBa_ba_self] at hdecided
  obtain ⟨hprev, hlegs, ⟨hlow, hhigh⟩, hdt⟩ := hdecided
  refine ⟨_, hexec, ?_⟩
  have hregs : (decideStep n ((s.arrive t).modBa n (Ba.busTimed b))).regs = s.regs :=
    (congrArg State.regs hy).trans rfl
  simp only [after_ba, hy, modBa_ba_self]
  exact ⟨hprev, hlegs, hlow, hhigh, hdt, fun m hm => (modBa_ba_of_ne hm ..).trans (modBa_ba_of_ne hm ..), hregs⟩

end

/-! ## The speed loop -/

/-- From the first state to the second, nothing of the motion hardware but one axis and the encoders has changed. -/
structure LoopKept (n : Fin 8) (s s' : State) : Prop where
  others : ∀ m, m ≠ n → s'.ba[m] = s.ba[m]
  sd : s'.sd = s.sd
  stp : s'.stp = s.stp

theorem LoopKept.trans {n : Fin 8} {s s' s'' : State} (h : LoopKept n s s') (h' : LoopKept n s' s'') : LoopKept n s s'' :=
  ⟨fun m hm => (h'.others m hm).trans (h.others m hm), h'.sd.trans h.sd, h'.stp.trans h.stp⟩

theorem LoopKept.of_motion {n : Fin 8} {s s' : State} (h : SameMotion s s') : LoopKept n s s' := by
  obtain ⟨hba, hsd, hstp, -⟩ := h
  exact ⟨fun m _ => by rw [hba], hsd, hstp⟩

theorem loopKept_modBa (n : Fin 8) (f : Ba → Ba) (s : State) : LoopKept n s (s.modBa n f) :=
  ⟨fun _ hm => modBa_ba_of_ne hm .., rfl, rfl⟩

/-- A state in which free values have been drawn. -/
def State.drawn (s : State) (free : Nat) : State := { s with free := free }

/-- Measuring the speed and timing what watches it changes neither an axis's state nor whether its engine runs; it may draw
a free value (log entry 1). -/
theorem speedTimers_measureSpeed_eq (n : Fin 8) (s : State) : ∃ free f,
    speedTimers n (measureSpeed n s) = (s.drawn free).modBa n f ∧
      ∀ x, (f x).st = x.st ∧ (f x).engine = x.engine := by
  have hmeasure : ∃ free v, measureSpeed n s = (s.drawn free).modBa n fun x => { x with speed := v } := by
    unfold measureSpeed
    simp only []
    split
    · exact ⟨s.free, _, rfl⟩
    · exact ⟨_, _, rfl⟩
  obtain ⟨free, v, hmeasure⟩ := hmeasure
  refine ⟨free, ?_⟩
  rw [hmeasure, speedTimers, modBa_modBa]
  exact ⟨_, rfl, fun x => ⟨rfl, rfl⟩⟩

/-- The torque reference is clamped to TQMAX (R269). -/
theorem torqueLoop_eq (n : Fin 8) (s : State) : ∃ tref integ,
    torqueLoop n s = s.modBa n (fun x => { x with tref := tref, integ := integ }) ∧
      tref.natAbs ≤ (s.rd Reg.baTqmax n).toNat := by
  refine ⟨_, _, rfl, ?_⟩
  omega

/-- What a tick of the speed loop leaves: nothing but its axis, whose torque reference stays within TQMAX where the loop
runs. -/
structure LoopRan (n : Fin 8) (s s' : State) : Prop where
  kept : LoopKept n s s'
  tref : (s.baRec n).isSome = true → (s.ba[n]).engine = true → (s.ba[n]).st ≠ .magnetise →
    (s'.ba[n]).tref.natAbs ≤ (s.rd Reg.baTqmax n).toNat

theorem LoopKept.modBa {n : Fin 8} {s y : State} (h : LoopKept n s y) (f : Ba → Ba) : LoopKept n s (y.modBa n f) :=
  h.trans (loopKept_modBa n f y)

theorem LoopRan.of_modBa {n : Fin 8} {s y : State} (h : LoopKept n s y) {f : Ba → Ba}
    (hf : (f y.ba[n]).tref.natAbs ≤ (s.rd Reg.baTqmax n).toNat) : LoopRan n s (y.modBa n f) :=
  ⟨h.modBa f, fun _ _ _ => by rwa [modBa_ba_self]⟩

/-- An axis whose homing run has ended. -/
def Ba.homed (x : Ba) : Ba := { x with st := .run, home := none }

/-- The end of a homing run leaves the torque reference. -/
theorem LoopRan.homed {n : Fin 8} {s y : State} (h : LoopRan n s y) (st : Status) (r : Nat) (w : Word) :
    LoopRan n s (complete .supervisor st r ((y.modBa n Ba.homed).wr Reg.baSetpointR n w)) := by
  have hended := complete_sameMotion .supervisor st r ((y.modBa n Ba.homed).wr Reg.baSetpointR n w)
  refine ⟨(h.kept.modBa Ba.homed).trans (.of_motion hended), fun hrec hengine hst => ?_⟩
  rw [hended.1, State.wr_ba, modBa_ba_self]
  exact h.tref hrec hengine hst

/-- At the current limit the torque reference is TQMAX against the speed. -/
theorem natAbs_neg_sign_mul_le (v : Int) (k : Nat) : (-v.sign * (k : Int)).natAbs ≤ k := by
  rw [Int.natAbs_mul, Int.natAbs_neg, Int.natAbs_natCast]
  have hsign : v.sign.natAbs ≤ 1 := by
    rw [Int.natAbs_sign]
    split <;> decide
  exact (Nat.mul_le_mul_right k hsign).trans (Nat.one_mul k).le

/-- A tick of the speed loop, over its branches: no axis, an engine that stands, SHORTED at low speed, the current limit of
BRAKE, and the ramp with the torque loop, where a homing run may end. -/
theorem exec_speedLoopTick (t : Nat) (n : Fin 8) (s : State) : ∃ y,
    exec (.speedLoopTick t n) s = .next (after t s fun _ => y) ∧ LoopRan n s y := by
  obtain ⟨free, f, hmeasured, hf⟩ := speedTimers_measureSpeed_eq n (s.arrive t)
  obtain ⟨z, hz⟩ : ∃ z, z = ((s.arrive t).drawn free).modBa n f := ⟨_, rfl⟩
  have hself : z.ba[n] = f s.ba[n] := hz ▸ modBa_ba_self ..
  have hkept : LoopKept n s z := by
    rw [hz]
    exact (LoopKept.of_motion ⟨rfl, rfl, rfl, rfl⟩ : LoopKept n s ((s.arrive t).drawn free)).modBa f
  have htq : z.rd Reg.baTqmax n = s.rd Reg.baTqmax n := hz ▸ rfl
  refine ⟨_, (run_eq_after rfl : execSpeedLoopTick t n s = _), ?_⟩
  rw [hmeasured, ← hz]
  dsimp -zeta only
  split
  next hnone =>
    refine ⟨.of_motion ⟨rfl, rfl, rfl, rfl⟩, fun hrec => ?_⟩
    have hnone' : (s.baRec n).isNone = true := hnone
    rw [Option.isNone_iff_eq_none.mp hnone'] at hrec
    contradiction
  next =>
    extract_lets z' x x' w low held r limited
    split
    next hstands =>
      refine ⟨hkept, fun _ hengine hst => ?_⟩
      obtain ⟨hstf, henginef⟩ := hf s.ba[n]
      simp only [x, z', hself, hstf, henginef, hengine, Bool.not_true, Bool.false_or, beq_iff_eq] at hstands
      exact absurd hstands hst
    next =>
      have hw : LoopKept n s w := hkept.modBa _
      have hwtq : w.rd Reg.baTqmax n = s.rd Reg.baTqmax n := htq
      have htorque : LoopRan n s limited := by
        obtain ⟨tref, integ, heq, hle⟩ := torqueLoop_eq n (w.modBa n fun x => { x with r := r, govLimit := (baTarget w n).2 })
        have hlimited : limited = _ := heq
        rw [hlimited]
        exact .of_modBa (hw.modBa _) (hwtq ▸ hle)
      clear_value limited w x'
      split
      · exact .of_modBa hw (Nat.zero_le _)
      · split
        · refine .of_modBa hw ?_
          rw [hwtq]
          exact natAbs_neg_sign_mul_le ..
        · split
          · split
            · split
              · exact htorque.homed ..
              · exact htorque
            · exact htorque
          · exact htorque

theorem leaves_speedLoopTick (t : Nat) (n : Fin 8) (s : State) : Leaves (.speedLoopTick t n) s fun s' =>
    (∀ m, m ≠ n → s'.ba[m] = s.ba[m]) ∧ s'.sd = s.sd ∧ s'.stp = s.stp ∧
      ((s.baRec n).isSome = true → (s.ba[n]).engine = true → (s.ba[n]).st ≠ .magnetise →
        (s'.ba[n]).tref.natAbs ≤ (s.rd Reg.baTqmax n).toNat) := by
  obtain ⟨y, hexec, ⟨hothers, hsd, hstp⟩, htref⟩ := exec_speedLoopTick t n s
  exact ⟨_, hexec, hothers, hsd, hstp, htref⟩

/-! ## The obligation -/

/-- Settles O35: a channel's output, a decision and a tick of the speed loop each leave what R261 to R269 give. That a
speed without two samples yet is a free value is log entry 1. -/
theorem decisionEngine : Obligations.DecisionEngine := fun t n _ _ _ =>
  ⟨fun _ hu => ⟨leaves_sdOutput_within hu, leaves_sdOutput_beyond hu⟩, leaves_decisionPeriod_of_opens,
    leaves_decisionPeriod_of_engine, leaves_speedLoopTick t n _⟩

end Sys2Proof.Machine
end

section
/-! States and moves of a brushless axis (R270 to R273, R276, R468), and obligation O33. -/
namespace Sys2Proof.Machine

open Sys2Proof.Claim

/-! ## BA_ENABLE -/

theorem Ba.enable_of_off {x : Ba} (h : x.st = .off) (now : Nat) : (x.enable now).st = .magnetise ∧
    (x.enable now).psiA = 0 ∧ (x.enable now).psiB = 0 ∧ (x.enable now).sector = 1 ∧ (x.enable now).magAt = some now := by
  unfold Ba.enable
  rw [h]
  exact ⟨rfl, rfl, rfl, rfl, rfl⟩

theorem Ba.enable_of_shorted {x : Ba} (h : x.st = .shorted) (now : Nat) :
    (x.enable now).st = .run ∧ (x.enable now).r = x.speed * 65536 := by
  unfold Ba.enable
  rw [h]
  exact ⟨rfl, rfl⟩

theorem Ba.enable_en (x : Ba) (now : Nat) : (x.enable now).en = true := by
  unfold Ba.enable
  split <;> rfl

section
variable {s : State} {n : Fin 8}

theorem firstRefusal_baEnableConds_badMode (h : s.modeIn [.standby, .service, .print] = false) :
    firstRefusal (baEnableConds s n) = .badMode := by
  simp [baEnableConds, h]

theorem firstRefusal_baEnableConds_safety (h : s.modeIn [.standby, .service, .print] = true) (hpin : s.dev.holdN = false) :
    firstRefusal (baEnableConds s n) = .safety := by
  simp [baEnableConds, h, hpin]

theorem firstRefusal_baEnableConds_badState (h : s.modeIn [.standby, .service, .print] = true) (hpin : s.dev.holdN = true)
    (hbad : s.dev.hold = true ∨ (s.ba[n]).fault ≠ 0) : firstRefusal (baEnableConds s n) = .badState := by
  have hcond : (s.dev.hold || (s.ba[n]).fault != 0 || s.xlk.role == .dummy || s.isDisabled 0x0A n) = true := by
    obtain hhold | hfault := hbad
    · simp [hhold]
    · rw [bne_iff_ne.mpr hfault, Bool.or_true, Bool.true_or, Bool.true_or]
  simp only [baEnableConds, h, hpin, hcond]
  rfl

end

section
variable (t : Nat) {s : State} {n : Fin 8}

theorem exec_baEnable (h : firstRefusal (baEnableConds (s.arrive t) n) = .ok) :
    exec (.baEnable t n) s = .next (after t s fun s => s.modBa n fun x => x.enable s.now) :=
  (run_eq_after (refuseOr_ok _ _ _ _ _ h) : execBaEnable t n s = _)

theorem exec_baEnable_of_refused {st : Status} (h : firstRefusal (baEnableConds (s.arrive t) n) = st) (hst : st ≠ .ok) :
    exec (.baEnable t n) s = .next (after t s fun s => s.recordErr Reg.baErr n (baOffset n 0) st) :=
  (run_eq_after (refuseOr_refused _ _ _ _ _ h hst) : execBaEnable t n s = _)

theorem leaves_baEnable (h : firstRefusal (baEnableConds (s.arrive t) n) = .ok) :
    Leaves (.baEnable t n) s fun s' => (s'.ba[n]).en = true ∧ (∀ m, m ≠ n → s'.ba[m] = s.ba[m]) ∧
      ((s.ba[n]).st = .off → (s'.ba[n]).st = .magnetise ∧ (s'.ba[n]).psiA = 0 ∧ (s'.ba[n]).psiB = 0 ∧
        (s'.ba[n]).sector = 1 ∧ (s'.ba[n]).magAt = some (max s.now t)) ∧
      ((s.ba[n]).st = .shorted → (s'.ba[n]).st = .run ∧ (s'.ba[n]).r = (s.ba[n]).speed * 65536) := by
  refine ⟨_, exec_baEnable t h, ?_⟩
  simp only [after_ba, modBa_ba_self]
  exact ⟨Ba.enable_en .., fun m hm => modBa_ba_of_ne hm .., fun hoff => Ba.enable_of_off hoff _,
    fun hshorted => Ba.enable_of_shorted hshorted _⟩

/-! ## BA_DISABLE, BA_OPEN and BA_FAULT_CLR -/

theorem exec_baDisable (hen : (s.ba[n]).en = true) (hhome : (s.ba[n]).home = none) :
    exec (.baDisable t n) s = .next (after t s fun s => s.modBa n fun x => { x.stop false with en := false }) := by
  refine (run_eq_after ((if_pos hen).trans ?_) : execBaDisable t n s = _)
  have hhome' : ((s.arrive t).ba[n]).home = none := hhome
  rw [baStop, hhome']
  exact modBa_modBa ..

theorem exec_baDisable_of_disabled (hen : (s.ba[n]).en = false) : exec (.baDisable t n) s = .next (after t s id) :=
  (run_eq_after (g := id) (if_neg (Bool.eq_false_iff.mp hen)) : execBaDisable t n s = _)

theorem exec_baOpen (hst : (s.ba[n]).st = .shorted) (hen : (s.ba[n]).en = false) :
    exec (.baOpen t n) s = .next (after t s fun s => s.modBa n fun x => { x with st := .off, sector := 0 }) := by
  refine (run_eq_after ?_ : execBaOpen t n s = _)
  refine modBa_congr ?_
  exact if_pos ⟨hst, (Bool.not_eq_true' _).mpr hen⟩

theorem exec_baOpen_of_other (h : (s.ba[n]).st ≠ .shorted ∨ (s.ba[n]).en = true) :
    exec (.baOpen t n) s = .next (after t s id) := by
  refine (run_eq_after (g := id) (modBa_of_fixed (if_neg ?_)) : execBaOpen t n s = _)
  rintro ⟨hst, hen⟩
  obtain h | h := h
  · exact h hst
  · exact Bool.false_ne_true (((Bool.not_eq_true' _).mp hen).symm.trans h)

theorem exec_baFaultClr (hst : (s.ba[n]).st = .off ∨ (s.ba[n]).st = .shorted) (hgone : baFaultPresent s n = false) :
    exec (.baFaultClr t n) s = .next (after t s fun s => s.modBa n fun x =>
      { x with fault := 0, act := .none, observerSpeed := false }) := by
  have hgone' : baFaultPresent (s.arrive t) n = false := hgone
  refine (run_eq_after ?_ : execBaFaultClr t n s = _)
  exact if_pos ⟨hst, (Bool.not_eq_true' _).mpr hgone'⟩

theorem exec_baFaultClr_of_other (h : ((s.ba[n]).st ≠ .off ∧ (s.ba[n]).st ≠ .shorted) ∨ baFaultPresent s n = true) :
    exec (.baFaultClr t n) s = .next (after t s id) := by
  refine (run_eq_after (g := id) (if_neg ?_) : execBaFaultClr t n s = _)
  rintro ⟨hst, hgone⟩
  obtain ⟨hoff, hshorted⟩ | h := h
  · exact hst.elim hoff hshorted
  · have hgone' : (!baFaultPresent s n) = true := hgone
    rw [h] at hgone'
    contradiction

end

/-! ## BA_SETPOINT -/

/-- An axis that a setpoint has started again. -/
def Ba.restarted (x : Ba) : Ba := { x with st := .run, r := if x.st = .shorted then x.speed * 65536 else x.r, brake := false }

/-- A setpoint starts an axis again that is enabled and stands SHORTED, or stops other than at the current limit. -/
def SetpointStarts (n : Fin 8) (w : Word) (s : State) : Prop :=
  signed 32 w.toNat ≠ 0 ∧ (s.ba[n]).en = true ∧ (s.ba[n]).fault = 0 ∧
    ((s.ba[n]).st = .shorted ∨ ((s.ba[n]).st = .stopping ∧ !(s.ba[n]).brake)) ∧ s.dev.holdClass < 2

section
variable {t : Nat} {n : Fin 8} {w : Word} {s : State} (hr : s.ringsRun = true)
include hr

theorem exec_baSetpoint_of_reversal (hguard : guarded (s.arrive t) n = true)
    (hsign : (signed 32 w.toNat).sign * (s.ba[n]).speed.sign < 0)
    (hfast : s.fld Reg.baSpdlim n 15 0 ≤ (s.ba[n]).speed.natAbs) :
    exec (.baSetpoint t n w) s = .next (after t s fun s =>
      (s.setFld Reg.baStatus n 5 5 1).recordErr Reg.baErr n (baOffset n 0x0C) .badState) := by
  refine (run_eq_after ?_ : execBaSetpoint t n w s = _)
  refine (if_neg ?_).trans (if_pos ?_)
  · rw [State.arrive_ringsRun, hr]
    decide
  · rw [hguard, Bool.true_and]
    exact Bool.and_eq_true_iff.mpr ⟨decide_eq_true hsign, decide_eq_true hfast⟩

variable (hplain : guarded (s.arrive t) n = false ∨ 0 ≤ (signed 32 w.toNat).sign * (s.ba[n]).speed.sign ∨
  (s.ba[n]).speed.natAbs < s.fld Reg.baSpdlim n 15 0)
include hplain

omit hr in
theorem not_reversal : ¬(guarded (s.arrive t) n && decide ((signed 32 w.toNat).sign * (s.ba[n]).speed.sign < 0) &&
    decide (s.fld Reg.baSpdlim n 15 0 ≤ (s.ba[n]).speed.natAbs)) = true := by
  intro hreversal
  obtain ⟨hboth, hfast⟩ := Bool.and_eq_true_iff.mp hreversal
  obtain ⟨hguard, hsign⟩ := Bool.and_eq_true_iff.mp hboth
  obtain h | h | h := hplain
  · exact Bool.false_ne_true (h.symm.trans hguard)
  · exact (of_decide_eq_true hsign).not_ge h
  · exact (of_decide_eq_true hfast).not_gt h

theorem exec_baSetpoint_of_starts (h : SetpointStarts n w s) : exec (.baSetpoint t n w) s =
    .next (after t s fun s => (s.wr Reg.baSetpointR n w).modBa n Ba.restarted) := by
  refine (run_eq_after ?_ : execBaSetpoint t n w s = _)
  exact (if_neg (by rw [State.arrive_ringsRun, hr]; decide)).trans ((if_neg (not_reversal hplain)).trans (if_pos h))

theorem exec_baSetpoint_of_stays (h : ¬SetpointStarts n w s) : exec (.baSetpoint t n w) s =
    .next (after t s fun s => s.wr Reg.baSetpointR n w) := by
  refine (run_eq_after ?_ : execBaSetpoint t n w s = _)
  exact (if_neg (by rw [State.arrive_ringsRun, hr]; decide)).trans ((if_neg (not_reversal hplain)).trans (if_neg h))

theorem leaves_baSetpoint (hsort : s.regsSorted = true) :
    Leaves (.baSetpoint t n w) s fun s' => s'.rd Reg.baSetpointR n = w ∧ (∀ m, m ≠ n → s'.ba[m] = s.ba[m]) ∧
      (signed 32 w.toNat ≠ 0 → (s.ba[n]).en = true → (s.ba[n]).fault = 0 → (s.ba[n]).st = .shorted → s.dev.holdClass < 2 →
        (s'.ba[n]).st = .run ∧ (s'.ba[n]).r = (s.ba[n]).speed * 65536) ∧
      (2 ≤ s.dev.holdClass ∨ (s.ba[n]).en = false → s'.ba = s.ba) ∧ s'.stp = s.stp ∧ s'.dev = s.dev ∧ s'.log = s.log := by
  have hword : ((s.arrive t).wr Reg.baSetpointR n w).rd Reg.baSetpointR n = w := rd_wr_of_sorted (s := s.arrive t) hsort ..
  by_cases hstarts : SetpointStarts n w s
  · refine ⟨_, exec_baSetpoint_of_starts hr hplain hstarts, hword, fun m hm => modBa_ba_of_ne hm .., fun _ _ _ hst _ => ?_,
      fun h => ?_, rfl, rfl, rfl⟩
    · rw [after_ba, modBa_ba_self]
      exact ⟨rfl, if_pos hst⟩
    · obtain ⟨-, hen, -, -, hclass⟩ := hstarts
      obtain h | h := h
      · exact absurd hclass h.not_gt
      · exact absurd (h.symm.trans hen) Bool.false_ne_true
  · exact ⟨_, exec_baSetpoint_of_stays hr hplain hstarts, hword, fun _ _ => rfl,
      fun hv hen hfault hst hclass => absurd ⟨hv, hen, hfault, .inl hst, hclass⟩ hstarts, fun _ => rfl, rfl, rfl, rfl⟩

end

/-! ## AXIS_HOME of a brushless axis -/

section
variable {t index timeout : Nat} {speed : Int} {s : State} (hr : s.ringsRun = true)
include hr

theorem exec_axisHomeBrushless (h : firstRefusal (baHomeConds s index speed) = .ok) :
    exec (.axisHomeBrushless t index speed timeout) s = .next (after t s fun s => s.modBa (Fin.ofNat 8 index) fun x =>
      { x with st := .homing, home := some ⟨speed, s.now + timeout * 8000000, none⟩ }) :=
  (ringCmd_eq_after hr (admitCmd_ok _ _ _ h) : execAxisHomeBrushless t index speed timeout s = _)

theorem refuses_axisHomeBrushless {st : Status} (h : firstRefusal (baHomeConds s index speed) = st) (hst : st ≠ .ok) :
    Refuses (.axisHomeBrushless t index speed timeout) t s st :=
  (ringCmd_eq_after hr (admitCmd_refused _ _ _ h hst) : execAxisHomeBrushless t index speed timeout s = _)

end

section
variable {index : Nat} {speed : Int} {s : State}

theorem firstRefusal_baHomeConds_badMode (h : s.modeIn [.standby, .service] = false) :
    firstRefusal (baHomeConds s index speed) = .badMode := by
  simp [baHomeConds, h]

theorem firstRefusal_baHomeConds_range (h : s.modeIn [.standby, .service] = true)
    (hrange : 8 ≤ index ∨ axisEnc (s.baRec (index % 8)) = none ∨ (s.rd Reg.baSpdmax (index % 8)).toNat < speed.natAbs) :
    firstRefusal (baHomeConds s index speed) = .range := by
  have hval : (Fin.ofNat 8 index).val = index % 8 := rfl
  have hcond : (decide (8 ≤ index) || (axisEnc (s.baRec (Fin.ofNat 8 index))).isNone ||
      decide ((s.rd Reg.baSpdmax (Fin.ofNat 8 index)).toNat < speed.natAbs)) = true := by
    rw [hval]
    obtain h | h | h := hrange
    · rw [decide_eq_true h, Bool.true_or, Bool.true_or]
    · rw [h, Option.isNone_none, Bool.or_true, Bool.true_or]
    · rw [decide_eq_true h, Bool.or_true]
  simp only [baHomeConds, h, hcond]
  rfl

end

/-! ## BA_HOME_TIMEOUT and GUARD_PERIOD_END -/

section
variable {t : Nat} {n : Fin 8} {s : State}

theorem exec_baHomeTimeout {h : BaHome} (hhome : (s.ba[n]).home = some h) (hfound : h.found = none)
    (hdue : h.deadline ≤ max s.now t) : exec (.baHomeTimeout t n) s = .next (after t s fun s =>
      complete .supervisor .timeout 0 (s.modBa n fun x => { x with home := none, st := .stopping, brake := false })) := by
  have hhome' : ((s.arrive t).ba[n]).home = some h := hhome
  refine (run_eq_after ?_ : execBaHomeTimeout t n s = _)
  simp only [hhome']
  exact if_pos ⟨Option.isNone_iff_eq_none.mpr hfound, hdue⟩

theorem exec_baHomeTimeout_of_early {h : BaHome} (hhome : (s.ba[n]).home = some h) (hearly : max s.now t < h.deadline) :
    exec (.baHomeTimeout t n) s = .next (after t s id) := by
  have hhome' : ((s.arrive t).ba[n]).home = some h := hhome
  refine (run_eq_after ?_ : execBaHomeTimeout t n s = _)
  simp only [hhome']
  exact if_neg fun hdue => hearly.not_ge hdue.2

theorem exec_guardPeriodEnd {e : Nat} (hend : s.dev.holdEndAt = some e) (hover : e + 80000000000 ≤ max s.now t) :
    exec (.guardPeriodEnd t) s = .next (after t s fun s => s.modDev fun d => { d with holdEndAt := none }) := by
  refine (run_eq_after ?_ : execGuardPeriodEnd t s = _)
  refine if_neg ?_
  rw [State.arrive_dev, hend]
  exact fun hruns => hover.not_gt (of_decide_eq_true hruns)

theorem exec_guardPeriodEnd_of_early {e : Nat} (hend : s.dev.holdEndAt = some e) (hearly : max s.now t < e + 80000000000) :
    exec (.guardPeriodEnd t) s = .next (after t s id) := by
  refine (run_eq_after (g := id) (if_pos ?_) : execGuardPeriodEnd t s = _)
  rw [State.arrive_dev, hend]
  exact decide_eq_true hearly

end

/-! ## The obligation -/

/-- Settles O33: each move of a brushless axis, with the refusals of R270, R272 and R273. -/
theorem brushless : Obligations.Brushless := by
  refine ⟨fun t n s => ⟨fun h => ⟨exec_baEnable t h, leaves_baEnable t h⟩,
    fun hmode => exec_baEnable_of_refused t (firstRefusal_baEnableConds_badMode (s := s.arrive t) hmode) (by decide),
    fun hmode hpin =>
      exec_baEnable_of_refused t (firstRefusal_baEnableConds_safety (s := s.arrive t) hmode hpin) (by decide),
    fun hmode hpin hbad =>
      exec_baEnable_of_refused t (firstRefusal_baEnableConds_badState (s := s.arrive t) hmode hpin hbad) (by decide),
    exec_baDisable t, exec_baDisable_of_disabled t, exec_baOpen t, exec_baOpen_of_other t, exec_baFaultClr t,
    exec_baFaultClr_of_other t⟩, fun t n w index speed timeout s hr => ?_⟩
  exact ⟨exec_baSetpoint_of_reversal hr, leaves_baSetpoint hr, exec_axisHomeBrushless hr,
    fun hmode => refuses_axisHomeBrushless hr (firstRefusal_baHomeConds_badMode hmode) (by decide),
    fun hmode hrange => refuses_axisHomeBrushless hr (firstRefusal_baHomeConds_range hmode hrange) (by decide),
    fun _ => exec_baHomeTimeout, fun _ => exec_baHomeTimeout_of_early, fun _ => exec_guardPeriodEnd,
    fun _ => exec_guardPeriodEnd_of_early⟩

end Sys2Proof.Machine
end

section
/-! OTP (R391 to R396): what every operation but a burn leaves of it. -/
namespace Sys2Proof.Machine

@[simp] theorem otp_ite (c : Prop) [Decidable c] (a b : State) : (if c then a else b).otp = if c then a.otp else b.otp :=
  apply_ite State.otp c a b
@[simp] theorem otp_foldl {α : Type} {f : State → α → State} (h : ∀ s x, (f s x).otp = s.otp) (l : List α)
    (s : State) : (l.foldl f s).otp = s.otp := by
  induction l generalizing s with
  | nil => rfl
  | cons x l ih => rw [List.foldl_cons, ih, h]
@[simp] theorem cleared_otp (power : Bool) (s : State) : (cleared power s).otp = s.otp := rfl

@[simp] theorem enterRecovery_otp (stage reason detail : Nat) (s : State) :
    (enterRecovery stage reason detail s).otp = s.otp := rfl

@[simp] theorem deriveSlots_otp (s : State) : (deriveSlots s).otp = s.otp := by
  unfold deriveSlots
  split
  · exact otp_foldl (fun _ _ => by rfl) _ _
  · rfl

@[simp] theorem latchAlarm_otp (code : Nat) (s : State) : (latchAlarm code s).otp = s.otp := by simp [latchAlarm]

@[simp] theorem admitRec_otp (r : LogRec) (s : State) : (admitRec r s).otp = s.otp := rfl

@[simp] theorem alarmArgs_otp (a : Alarm) (inst : Nat) (a0 a1 a2 : Int) (s : State) :
    (alarmArgs a inst a0 a1 a2 s).otp = s.otp := by simp [alarmArgs]

@[simp] theorem alarm_otp (a : Alarm) (inst : Nat) (s : State) : (alarm a inst s).otp = s.otp := by simp [alarm]

@[simp] theorem startWipe_otp (ok : Bool) (s : State) : (startWipe ok s).otp = s.otp := by simp [startWipe]

@[simp] theorem switchRoles_otp (s : State) : (switchRoles s).otp = s.otp := by simp [switchRoles]

@[simp] theorem fallBack_otp (s : State) : (fallBack s).otp = s.otp := rfl

/-- The slot that starts is chosen without a burn. -/
theorem chooseFwi_otp (env : BootEnv) (s s' : State) (h : chooseFwi env s = some s') : s'.otp = s.otp := by
  have hs : (switchRoles s).otp = s.otp := switchRoles_otp s
  unfold chooseFwi at h
  simp only [] at h
  split at h
  · split at h
    · split at h
      · cases h
        rw [fallBack_otp, hs]
      · cases h
    · cases h
      exact hs
  · split at h
    · cases h
      exact hs
    · split at h
      · cases h
        exact hs
      · cases h

@[simp] theorem parkPins_otp (s : State) : (parkPins s).otp = s.otp := by
  unfold parkPins
  rw [otp_foldl]
  · simp
  intro s x
  simp

@[simp] theorem enterConfigure_otp (s : State) : (enterConfigure s).otp = s.otp := by simp [enterConfigure]

@[simp] theorem ceaseRoot_otp (s : State) : (ceaseRoot s).otp = s.otp := by simp [ceaseRoot]

@[simp] theorem electRoot_otp (s : State) : (electRoot s).otp = s.otp := by simp [electRoot]

@[simp] theorem enterStandby_otp (s : State) : (enterStandby s).otp = s.otp := rfl

@[simp] theorem State.modWg_otp (s : State) (n : Nat) (f : WgSt → WgSt) : (State.modWg s n f).otp = s.otp := rfl

@[simp] theorem calApply_otp (r : CalRecord) (s : State) : (calApply r s).otp = s.otp := by
  unfold calApply
  split <;> simp

@[simp] theorem writeSummary_otp (cls : LogClass) (s : State) :
    (writeSummary cls s).otp = s.otp := by simp [writeSummary]

@[simp] theorem diagNote_otp (code inst : Nat) (s : State) : (diagNote code inst s).otp = s.otp := rfl

@[simp] theorem diag_otp (d : Diag) (inst : Nat) (a0 a1 a2 : Int) (s : State) :
    (diag d inst a0 a1 a2 s).otp = s.otp := by simp [diag]

@[simp] theorem calActivate_otp (t : StructTables) (s : State) :
    (calActivate t s).otp = s.otp := by simp [calActivate]

@[simp] theorem applyPins_otp (pins : List PinRec) (s : State) : (applyPins pins s).otp = s.otp := by
  unfold applyPins
  rw [otp_foldl]
  · simp
  intro s x
  simp

@[simp] theorem switchDomains_otp (t : StructTables) (s : State) : (switchDomains t s).otp = s.otp := rfl

@[simp] theorem scanPitches_otp (t : StructTables) (s : State) :
    (scanPitches t s).otp = s.otp := by simp [scanPitches]

@[simp] theorem latchRegs_otp (p : Fin 8) (s : State) : (latchRegs p s).otp = s.otp := rfl

@[simp] theorem activatePlanes_otp (t : StructTables) (s : State) : (activatePlanes t s).otp = s.otp := by
  unfold activatePlanes
  simp only []
  rw [otp_foldl (fun s x => by simp), otp_foldl (fun s x => by simp), State.wr_otp]
  exact otp_foldl (fun _ _ => by rfl) _ _

@[simp] theorem when_otp (c : Bool) (f : State → State) (s : State) :
    (when c f s).otp = if c then (f s).otp else s.otp := otp_ite _ _ _

@[simp] theorem loseLock_otp (s : State) : (loseLock s).otp = s.otp := by simp [loseLock]

@[simp] theorem dropStepperLock_otp (n : Nat) (s : State) :
    (dropStepperLock n s).otp = s.otp := by simp [dropStepperLock]

@[simp] theorem State.draw_otp (s : State) : (State.draw s).2.otp = s.otp := rfl

@[simp] theorem installStructure_otp (t : StructTables) (s : State) :
    (installStructure t s).otp = s.otp := by simp [installStructure]

@[simp] theorem startActivation_otp (row : CheckRow) (installOk : Bool) (s : State) :
    (startActivation row installOk s).otp = s.otp := by
  unfold startActivation
  split <;> simp

@[simp] theorem admitList_otp (bound : State → Nat) (l : List LogRec) (s : State) :
    (admitList bound l s).2.otp = s.otp := by
  induction l generalizing s with
  | nil => rfl
  | cons r l ih => unfold admitList; split <;> simp [ih]

@[simp] theorem admitItems_otp (l : List BackEntry) (s : State) : (admitItems l s).2.otp = s.otp := by
  induction l generalizing s with
  | nil => rfl
  | cons e l ih =>
    unfold admitItems
    split
    · split <;> simp [ih]
    · exact ih s

@[simp] theorem admitWaiting_otp (s : State) : (admitWaiting s).otp = s.otp := by simp [admitWaiting]

@[simp] theorem calReports_otp (repaired lost : List (Nat × Nat)) (s : State) :
    (calReports repaired lost s).otp = s.otp := by simp [calReports]

@[simp] theorem startReports_otp (env : BootEnv) (s : State) : (startReports env s).otp = s.otp := by
  unfold startReports
  simp only []
  split <;> simp

@[simp] theorem reachConfigure_otp (env : BootEnv) (s : State) : (reachConfigure env s).otp = s.otp := by
  rw [reachConfigure_eq, startActivation_otp, admitWaiting_otp, startReports_otp, electRoot_otp, inConfigure, reachStage7,
    State.modFw_otp, State.modDev_otp, enterConfigure_otp]

@[simp] theorem firmwareUp_otp (env : BootEnv) (s : State) : (firmwareUp env s).otp = s.otp := rfl

@[simp] theorem boot_otp (env : BootEnv) (s : State) : (boot env s).otp = s.otp := by
  have key : ∀ s₁ : State, s₁.otp = s.otp → (match (if env.flashTableOk then chooseFwi env s₁ else none) with
      | none => enterRecovery 5 3 0 s₁
      | some s =>
        let s := s.modDev fun d => { d with stage := 6, watchdogAt := some (s.now + 5 * sec8) }
        if env.reachesStep7 then reachConfigure env (firmwareUp env s) else s).otp = s.otp := fun s₁ h₁ => by
    cases hf : (if env.flashTableOk then chooseFwi env s₁ else none) with
    | none => exact h₁
    | some s₂ =>
      have h₂ : s₂.otp = s.otp := by
        split at hf
        · exact (chooseFwi_otp env _ _ hf).trans h₁
        · cases hf
      simp [h₂]
  rw [boot]
  split
  · exact enterRecovery_otp _ _ _ _
  · split
    · exact enterRecovery_otp _ _ _ _
    · split
      · exact enterRecovery_otp _ _ _ _
      · exact key _ (startWipe_otp _ _)

@[simp] theorem markReset_otp (bit : Nat) (s : State) : (markReset bit s).otp = s.otp := rfl

@[simp] theorem warmStart_otp (bit : Nat) (env : BootEnv) (s : State) :
    (warmStart bit env s).otp = s.otp := by simp [warmStart]

@[simp] theorem endHome_otp (homing : Bool) (st : Status) (result : Nat) (s : State) :
    (endHome homing st result s).otp = s.otp := by simp [endHome]

@[simp] theorem baStop_otp (n : Fin 8) (brake : Bool) (s : State) : (baStop n brake s).otp = s.otp := by simp [baStop]

@[simp] theorem stpCatchUp_otp (n : Fin 16) (s : State) : (stpCatchUp n s).otp = s.otp := rfl

@[simp] theorem stpStopNow_otp (n : Fin 16) (s : State) : (stpStopNow n s).otp = s.otp := by simp [stpStopNow]

@[simp] theorem stpRampStop_otp (n : Fin 16) (s : State) : (stpRampStop n s).otp = s.otp := by simp [stpRampStop]

@[simp] theorem motionFor_otp (cls : Nat) (s : State) : (motionFor cls s).otp = s.otp := by simp [motionFor]

@[simp] theorem endService_otp (s : State) : (endService s).otp = s.otp := by
  unfold endService
  simp only []
  (repeat' split) <;> simp

@[simp] theorem endRun_otp (p : Fin 8) (s : State) : (endRun p s).otp = s.otp := by
  unfold endRun
  split <;> simp

@[simp] theorem endRuns_otp (ctx : Fin 64) (s : State) : (endRuns ctx s).otp = s.otp := by
  unfold endRuns
  rw [otp_foldl]
  intro s x
  split <;> simp

@[simp] theorem toSlotHubs_otp (x : FireSlot) (f : Nat → MlkTx) (s : State) : (toSlotHubs x f s).otp = s.otp := by
  unfold toSlotHubs
  exact otp_foldl (fun _ _ => by rfl) _ _

@[simp] theorem raiseAudit_otp (a : AuditRec) (s : State) : (raiseAudit a s).otp = s.otp := by simp [raiseAudit]

@[simp] theorem closeSealed_otp (o : OutcomeRec) (b : SealedBind) (s : State) :
    (closeSealed o b s).otp = s.otp := by simp [closeSealed]

@[simp] theorem sendPort_otp (n : Fin 32) (dst : Nat) (f : XlkTx) (s : State) :
    (sendPort n dst f s).otp = s.otp := by simp [sendPort]

@[simp] theorem sendPorts_otp (l : List (Fin 32)) (dst : Nat) (f : XlkTx) (s : State) :
    (sendPorts l dst f s).otp = s.otp := by simp [sendPorts]

@[simp] theorem sendXlk_otp (dst : Nat) (f : XlkTx) (s : State) : (sendXlk dst f s).otp = s.otp := by
  unfold sendXlk
  (repeat' split) <;> simp

@[simp] theorem fillEntry_otp (o : OutcomeRec) (s : State) : (fillEntry o s).otp = s.otp := rfl

@[simp] theorem raiseItem_otp (o : OutcomeRec) (s : State) : (raiseItem o s).otp = s.otp := by simp [raiseItem]

@[simp] theorem reportOutcome_otp (ctx : Fin 64) (o : OutcomeRec) (s : State) :
    (reportOutcome ctx o s).otp = s.otp := by
  unfold reportOutcome
  (repeat' split) <;> simp

@[simp] theorem closeItem_otp (ctx : Fin 64) (o : OutcomeRec) (sb : Option SealedBind) (s : State) :
    (closeItem ctx o sb s).otp = s.otp := by
  unfold closeItem
  split <;> simp

@[simp] theorem closeFront_otp (ctx : Fin 64) (l : List Item) (s : State) : (closeFront ctx l s).2.otp = s.otp := by
  induction l generalizing s with
  | nil => rfl
  | cons it l ih => unfold closeFront; split <;> simp [ih]

@[simp] theorem unboundOutcome_otp (ctx : Fin 64) (codes : BitVec 16) (r : Record) (s : State) :
    (unboundOutcome ctx codes r s).2.otp = s.otp := rfl

@[simp] theorem voidQueue_otp (ctx : Fin 64) (codes : BitVec 16) (l : List Record) (s : State) :
    (voidQueue ctx codes l s).2.otp = s.otp := by
  induction l generalizing s with
  | nil => rfl
  | cons r l ih => simp [voidQueue, ih]

@[simp] theorem takeEntries_otp (ctx : Fin 64) (l : List OutcomeRec) (s : State) :
    (takeEntries ctx l s).2.otp = s.otp := by
  induction l generalizing s with
  | nil => rfl
  | cons o l ih => unfold takeEntries; split <;> simp [ih]

@[simp] theorem abortJob_otp (ctx : Fin 64) (s : State) : (abortJob ctx s).otp = s.otp := by simp [abortJob]

@[simp] theorem abortActive_otp (s : State) : (abortActive s).otp = s.otp := by simp [abortActive]

@[simp] theorem pushRel_otp (l : Fin 64) (f : MlkTx) (s : State) : (pushRel l f s).otp = s.otp := by simp [pushRel]

@[simp] theorem sendHubRel_otp (h : EndpointRec) (f : MlkTx) (s : State) :
    (sendHubRel h f s).otp = s.otp := by simp [sendHubRel]

@[simp] theorem sendHubMode_otp (armed : Bool) (s : State) :
    (sendHubMode armed s).otp = s.otp := by simp [sendHubMode]

@[simp] theorem sendStops_otp (s : State) : (sendStops s).otp = s.otp := by
  unfold sendStops
  rw [sendHubMode_otp]
  exact otp_foldl (fun _ _ => by rfl) _ _

@[simp] theorem enterHold_otp (cls : Nat) (s : State) : (enterHold cls s).otp = s.otp := by simp [enterHold]

@[simp] theorem stopAndDisable_otp (s : State) : (stopAndDisable s).otp = s.otp := by simp [stopAndDisable]

@[simp] theorem forceReset_otp (env : BootEnv) (s : State) : (forceReset env s).otp = s.otp := by
  unfold forceReset
  split <;> simp

@[simp] theorem admitCmd_otp (id : RingId) (conds : List (Bool × Status)) (f : State → State) (s : State) :
    (admitCmd id conds f s).otp = if firstRefusal conds = .ok then (f s).otp else s.otp := by
  unfold admitCmd
  split <;> simp_all

@[simp] theorem dropStructure_otp (s : State) : (dropStructure s).otp = s.otp := by simp [dropStructure]

@[simp] theorem beginActivation_otp (slot : Nat) (byModeSet : Bool) (s : State) :
    (beginActivation slot byModeSet s).otp = s.otp := by simp [beginActivation]

@[simp] theorem latchCause_otp (bit : Nat) (s : State) : (latchCause bit s).otp = s.otp := rfl

@[simp] theorem holdCause_otp (bit : Nat) (s : State) : (holdCause bit s).otp = s.otp := by simp [holdCause]

@[simp] theorem entryCauses_otp (s : State) : (entryCauses s).otp = s.otp := by simp [entryCauses]

@[simp] theorem modeTo_otp (target : Nat) (s : State) : (modeTo target s).otp = s.otp := by
  unfold modeTo
  (repeat' split) <;> simp

@[simp] theorem dropSlice_otp (n : Fin 16) (s : State) : (dropSlice n s).otp = s.otp := by
  unfold dropSlice
  split <;> simp

@[simp] theorem clearPipeline_otp (p : Fin 8) (s : State) : (clearPipeline p s).otp = s.otp := rfl

@[simp] theorem clearPacer_otp (s : State) : (clearPacer s).otp = s.otp := rfl

@[simp] theorem clearWaves_otp (s : State) : (clearWaves s).otp = s.otp := by simp [clearWaves]

@[simp] theorem markBuffer_otp (x : FireSlot) (wholeRow : Bool) (noz : List (Nat × Nat)) (s : State) :
    (markBuffer x wholeRow noz s).otp = s.otp := rfl

@[simp] theorem parkAxes_otp (s : State) : (parkAxes s).otp = s.otp := rfl

@[simp] theorem swapDone_otp (s : State) : (swapDone s).otp = s.otp := by
  unfold swapDone
  split <;> simp

@[simp] theorem closeJob_otp (ctx : Fin 64) (s : State) : (closeJob ctx s).otp = s.otp := by
  unfold closeJob
  simp only []
  split <;> simp

@[simp] theorem settleJob_otp (ctx : Fin 64) (s : State) : (settleJob ctx s).otp = s.otp := by
  unfold settleJob
  simp only []
  split <;> simp

@[simp] theorem mirror_otp (f : MirrorFrame) (s : State) : (mirror f s).otp = s.otp := by simp [mirror]

@[simp] theorem putSlot_otp (x : FireSlot) (s : State) : (putSlot x s).otp = s.otp := rfl

@[simp] theorem hubDone_otp (x : FireSlot) (hub : Nat) (s : State) :
    (hubDone x hub s).otp = s.otp := by simp [hubDone]

@[simp] theorem flagItems_otp (ctx : Fin 64) (code : Nat) (plane : Option Nat) (sel : Item → Bool) (s : State) :
    (flagItems ctx code plane sel s).otp = s.otp := rfl

@[simp] theorem flagWales_otp (ctx : Fin 64) (p : Fin 8) (k code : Nat) (wales : List Nat) (s : State) :
    (flagWales ctx p k code wales s).otp = s.otp := by
  unfold flagWales
  split <;> simp

@[simp] theorem unconfirm_otp (x : FireSlot) (hub : Nat) (s : State) :
    (unconfirm x hub s).otp = s.otp := by simp [unconfirm]

@[simp] theorem loseSlots_otp (hub : Nat) (s : State) : (loseSlots hub s).otp = s.otp := by
  unfold loseSlots
  rw [otp_foldl]
  intro s x
  split <;> simp

@[simp] theorem laneDown_otp (l : Fin 64) (s : State) : (laneDown l s).otp = s.otp := by
  unfold laneDown
  simp only []
  split <;> simp

@[simp] theorem clearInspection_otp (s : State) : (clearInspection s).otp = s.otp := rfl

@[simp] theorem noteReach_otp (s : State) : (noteReach s).otp = s.otp := rfl

@[simp] theorem sendLinkState_otp (s : State) : (sendLinkState s).otp = s.otp := by simp [sendLinkState]

@[simp] theorem portChanged_otp (s : State) : (portChanged s).otp = s.otp := by simp [portChanged]

@[simp] theorem portDown_otp (n : Fin 32) (s : State) : (portDown n s).otp = s.otp := by simp [portDown]

@[simp] theorem clearBa_otp (n : Fin 8) (s : State) : (clearBa n s).otp = s.otp := by
  unfold clearBa
  simp only []
  split <;> simp

@[simp] theorem dmaStopped_otp (n : Fin 32) (s : State) : (dmaStopped n s).otp = s.otp := by
  rw [dmaStopped, State.msix_otp, State.modDma_otp]
  split
  · exact State.emit_otp _ _
  · rfl

@[simp] theorem dmaStop_otp (n : Fin 32) (code : Status) (side : Nat) (s : State) :
    (dmaStop n code side s).otp = s.otp := by simp [dmaStop]

@[simp] theorem stopServing_otp (inst : Nat) (s : State) : (stopServing inst s).otp = s.otp := by simp [stopServing]

@[simp] theorem clearPort_otp (inst : Nat) (s : State) : (clearPort inst s).otp = s.otp := by simp [clearPort]

@[simp] theorem endLoad_otp (ctx : Fin 64) (st : Status) (s : State) :
    (endLoad ctx st s).otp = s.otp := by simp [endLoad]

@[simp] theorem clearRootPort_otp (s : State) : (clearRootPort s).otp = s.otp := by simp [clearRootPort]

@[simp] theorem clearFunc_otp (code inst : Nat) (s : State) : (clearFunc code inst s).otp = s.otp := by
  unfold clearFunc
  split
  all_goals simp

@[simp] theorem breakSemsOf_otp (func inst : Nat) (s : State) : (breakSemsOf func inst s).otp = s.otp := rfl

@[simp] theorem disableFunc_otp (code inst : Nat) (s : State) : (disableFunc code inst s).otp = s.otp := by
  unfold disableFunc
  split <;> simp

@[simp] theorem holdClear_otp (s : State) : (holdClear s).otp = s.otp := by simp [holdClear]

@[simp] theorem freshBytes_otp (n : Nat) (s : State) : (freshBytes n s).2.otp = s.otp := by
  induction n generalizing s with
  | zero => rfl
  | succ n ih => simp [freshBytes, ih]

@[simp] theorem issueChallenge_otp (addr : Nat) (s : State) :
    (issueChallenge addr s).otp = s.otp := by simp [issueChallenge]

@[simp] theorem installKey_otp (slot kind context : Nat) (label : Bytes) (s : State) :
    (installKey slot kind context label s).otp = s.otp := by simp [installKey]

@[simp] theorem resumeWait_otp (s : State) : (resumeWait s).otp = s.otp := by
  unfold resumeWait
  simp only []
  (repeat' split) <;> simp

@[simp] theorem sensitive_otp {f : State → State} (hf : ∀ s, (f s).otp = s.otp) (s : State) :
    (sensitive f s).otp = s.otp := by
  unfold sensitive
  split
  · rfl
  · exact hf _

@[simp] theorem strActivateCmd_otp (slot : Nat) (s : State) :
    (strActivateCmd slot s).otp = s.otp := by simp [strActivateCmd]

@[simp] theorem ringSetStatus_otp (s : State) (id : RingId) (bit : Nat) : (ringSetStatus s id bit).otp = s.otp := by
  unfold ringSetStatus
  split <;> simp

@[simp] theorem closeSession_otp (s : State) : (closeSession s).otp = s.otp := by simp [closeSession]

@[simp] theorem ringError_otp (id : RingId) (bit : Nat) (s : State) :
    (ringError id bit s).otp = s.otp := by simp [ringError]

@[simp] theorem takeDescriptor_otp (id : RingId) (op tag : Nat) (noIrq reservedZero : Bool) (s : State) :
    (takeDescriptor id op tag noIrq reservedZero s).otp = s.otp := by simp [takeDescriptor]

@[simp] theorem ringFetch_otp (id : RingId) (f : Fetch) (s : State) : (ringFetch id f s).otp = s.otp := by
  unfold ringFetch
  split <;> simp

@[simp] theorem ringStart_otp (id : RingId) (s : State) : (ringStart id s).otp = s.otp := by simp [ringStart]

@[simp] theorem ringStop_otp (id : RingId) (s : State) : (ringStop id s).otp = s.otp := by simp [ringStop]

@[simp] theorem cqRelease_otp (ring : RingId) (value : Nat) (s : State) : (cqRelease ring value s).otp = s.otp := by
  unfold cqRelease
  simp only []
  split <;> simp

@[simp] theorem markUnfit_otp (ctx : Nat) (s : State) : (markUnfit ctx s).otp = s.otp := rfl

@[simp] theorem takeRcheck_otp (r : Nat × Bool × Nat × Nat × Nat) (s : State) : (takeRcheck r s).otp = s.otp := by
  unfold takeRcheck
  split <;> simp

@[simp] theorem retryRchecks_otp (ctx : Nat) (s : State) : (retryRchecks ctx s).otp = s.otp := by simp [retryRchecks]

@[simp] theorem sendRcheck_otp (ctx : Nat) (package : Bool) (count firstSeq crc : Nat) (s : State) :
    (sendRcheck ctx package count firstSeq crc s).otp = s.otp := by simp [sendRcheck]

@[simp] theorem acceptPackage_otp (ctx : Fin 64) (bytes : Bytes) (pk : Package) (s : State) :
    (acceptPackage ctx bytes pk s).otp = s.otp := by simp [acceptPackage]

@[simp] theorem loadBytes_otp (ctx : Fin 64) (last : Bool) (data : Bytes) (s : State) :
    (loadBytes ctx last data s).otp = s.otp := by
  unfold loadBytes
  simp only []
  (repeat' split) <;> simp

@[simp] theorem armJob_otp (ctx : Fin 64) (castOn : Int) (s : State) : (armJob ctx castOn s).otp = s.otp := rfl

@[simp] theorem queueBatch_otp (ctx : Fin 64) (first : Nat) (rs : List Record) (crc : Nat) (s : State) :
    (queueBatch ctx first rs crc s).otp = s.otp := by simp [queueBatch]

@[simp] theorem drainCheck_otp (ctx : Fin 64) (s : State) : (drainCheck ctx s).otp = s.otp := by
  unfold drainCheck
  simp only []
  split <;> simp

@[simp] theorem castOffAt_otp (ctx : Fin 64) (last : Nat) (s : State) :
    (castOffAt ctx last s).otp = s.otp := by simp [castOffAt]

@[simp] theorem freeJob_otp (ctx : Fin 64) (s : State) : (freeJob ctx s).otp = s.otp := rfl

@[simp] theorem askBindings_otp (s : State) : (askBindings s).otp = s.otp := by
  unfold askBindings
  rw [otp_foldl]
  intro s x
  simp only []
  (repeat' split) <;> simp

@[simp] theorem fieldError_otp (ctx : Fin 64) (seq field reason sub : Nat) (s : State) :
    (fieldError ctx seq field reason sub s).otp = s.otp := by simp [fieldError]

theorem buildOne_otp (ctx : Fin 64) (c : BuildCtx) (t : StructTables) (acc : BuiltItem × State) (x : FieldRec × Nat) :
    (buildOne ctx c t acc x).2.otp = acc.2.otp := by
  unfold buildOne
  simp only []
  split
  · rfl
  · simp
  · split <;> simp

@[simp] theorem buildItem_otp (ctx : Fin 64) (c : BuildCtx) (t : StructTables) (lane : Nat) (s : State) :
    (buildItem ctx c t lane s).2.otp = s.otp := by
  unfold buildItem
  simp only []
  have h : ∀ (l : List (FieldRec × Nat)) (b : BuiltItem × State), (l.foldl (buildOne ctx c t) b).2.otp = b.2.otp := by
    intro l
    induction l with
    | nil => exact fun _ => rfl
    | cons x l ih => exact fun b => (ih _).trans (buildOne_otp ctx c t b x)
  exact h _ _

@[simp] theorem dupEvents_otp (ctx : Fin 64) (seq : Nat) (l : List Nat) (es : List (Nat × Bytes)) (s : State) :
    (dupEvents ctx seq l es s).otp = s.otp := by
  induction es generalizing l s with
  | nil => rfl
  | cons v es ih => rw [dupEvents, ih]; split <;> simp

@[simp] theorem takeWeighing_otp (ctx : Fin 64) (lane : Nat) (s : State) :
    (takeWeighing ctx lane s).2.otp = s.otp := by
  unfold takeWeighing
  (repeat' split) <;> simp

@[simp] theorem bindSealed_otp (ctx : Fin 64) (t : StructTables) (pk : Package) (rpt lane : Nat) (values : List
    (Nat × Bytes)) (s : State) :
    (bindSealed ctx t pk rpt lane values s).2.otp = s.otp := by
  have h := takeWeighing_otp ctx lane s
  unfold bindSealed
  simp only []
  split
  · rename_i heq
    rw [heq] at h
    exact h
  · rename_i heq
    rw [heq] at h
    split <;> exact h

@[simp] theorem bindSealedFields_otp (ctx : Fin 64) (t : StructTables) (pk : Package) (rpt lane : Nat)
    (r : Record) (s : State) :
    (bindSealedFields ctx t pk rpt lane r s).2.2.2.otp = s.otp := by
  have h := bindSealed_otp ctx t pk rpt lane r.values s
  unfold bindSealedFields
  simp only []
  split
  · rfl
  · split
    · rename_i heq
      rw [heq] at h
      rw [otp_foldl (fun s x => by simp)]
      exact h
    · rename_i heq
      rw [heq] at h
      split
      · rw [otp_foldl (fun s x => by simp)]
        exact h
      · exact h

@[simp] theorem backlogEpisode_otp (s : State) : (backlogEpisode s).otp = s.otp := by simp [backlogEpisode]

@[simp] theorem reserveEntry_otp (ctx seq : Nat) (s : State) : (reserveEntry ctx seq s).otp = s.otp := rfl

@[simp] theorem checkTxn_otp (s : State) : (checkTxn s).otp = s.otp := by simp [checkTxn]

@[simp] theorem bindRecord_otp (ctx : Fin 64) (t : StructTables) (pk : Package) (slotNo : Nat) (r : Record)
    (s : State) :
    (bindRecord ctx t pk slotNo r s).otp = s.otp := by
  unfold bindRecord
  split <;> simp

@[simp] theorem blankSlot_otp (ctx : Fin 64) (pk : Package) (slotNo : Nat) (s : State) :
    (blankSlot ctx pk slotNo s).otp = s.otp := by simp [blankSlot]

@[simp] theorem decideSlot_otp (ctx : Fin 64) (t : StructTables) (pk : Package) (slotNo : Nat) (s : State) :
    (decideSlot ctx t pk slotNo s).2.otp = s.otp := by
  unfold decideSlot
  split <;> simp

@[simp] theorem decideSlots_otp (ctx : Fin 64) (t : StructTables) (pk : Package) (upTo n : Nat) (s : State) :
    (decideSlots ctx t pk upTo n s).2.otp = s.otp := by
  induction n generalizing s with
  | zero => rfl
  | succ n ih => unfold decideSlots; simp only []; split <;> simp [ih]

@[simp] theorem bindUpTo_otp (ctx : Fin 64) (t : StructTables) (pk : Package) (upTo : Nat) (s : State) :
    (bindUpTo ctx t pk upTo s).otp = s.otp := by simp [bindUpTo]

@[simp] theorem lackRecord_otp (ctx : Fin 64) (pk : Package) (slotNo seq : Nat) (s : State) :
    (lackRecord ctx pk slotNo seq s).otp = s.otp := rfl

@[simp] theorem applyBinding_otp (ctx : Fin 64) (t : StructTables) (pk : Package) (slotNo : Nat) (b : Option Nat)
    (s : State) :
    (applyBinding ctx t pk slotNo b s).otp = s.otp := by
  unfold applyBinding
  (repeat' split) <;> simp

@[simp] theorem applySlots_otp (ctx : Fin 64) (t : StructTables) (pk : Package) (upTo n : Nat) (s : State) :
    (applySlots ctx t pk upTo n s).otp = s.otp := by
  induction n generalizing s with
  | zero => rfl
  | succ n ih =>
    unfold applySlots
    simp only []
    split
    · rfl
    · split <;> simp [ih]

@[simp] theorem bindForSlice_otp (t : StructTables) (pk : Package) (d : Deal) (s : State) :
    (bindForSlice t pk d s).otp = s.otp := by simp [bindForSlice]

@[simp] theorem dealTo_otp (n : Fin 16) (d : Deal) (s : State) : (dealTo n d s).otp = s.otp := rfl

@[simp] theorem failField_otp (ctx : Fin 64) (seq field sub : Nat) (s : State) :
    (failField ctx seq field sub s).otp = s.otp := by simp [failField]

@[simp] theorem refreshClusters_otp (s : State) : (refreshClusters s).otp = s.otp := rfl

@[simp] theorem loseSlice_otp (n : Fin 16) (s : State) : (loseSlice n s).otp = s.otp := by simp [loseSlice]

@[simp] theorem extendRun_otp (p : Fin 8) (ctx k : Nat) (s : State) : (extendRun p ctx k s).otp = s.otp := by
  unfold extendRun
  split <;> simp

@[simp] theorem hashCourse_otp (ctx : Fin 64) (pk : Package) (p k : Nat) (levels : List Nat) (s : State) :
    (hashCourse ctx pk p k levels s).otp = s.otp := by
  unfold hashCourse
  split <;> simp

@[simp] theorem skipCourse_otp (ctx : Fin 64) (p : Fin 8) (k : Nat) (s : State) :
    (skipCourse ctx p k s).otp = s.otp := by
  unfold skipCourse
  simp only []
  split <;> simp

@[simp] theorem flagCourse_otp (ctx : Fin 64) (p : Fin 8) (k code : Nat) (s : State) :
    (flagCourse ctx p k code s).otp = s.otp := by
  unfold flagCourse
  split <;> simp

@[simp] theorem bufferCourse_otp (p : Fin 8) (b : BufCourse) (s : State) : (bufferCourse p b s).otp = s.otp := rfl

@[simp] theorem underrun_otp (ctx : Fin 64) (p : Fin 8) (pk : Package) (k : Nat) (s : State) :
    (underrun ctx p pk k s).otp = s.otp := by simp [underrun]

@[simp] theorem noteUndarned_otp (ctx : Fin 64) (p : Fin 8) (c : ScreenCtx) (k w : Nat) (s : State) :
    (noteUndarned ctx p c k w s).otp = s.otp := by simp [noteUndarned]

@[simp] theorem screenNext_otp (tb : StructTables) (ctx : Fin 64) (p : Fin 8) (pk : Package) (pr : PlaneRec)
    (s : State) :
    (screenNext tb ctx p pk pr s).otp = s.otp := by simp [screenNext]

@[simp] theorem shadowNext_otp (tb : StructTables) (ctx : Fin 64) (p : Fin 8) (pk : Package) (pr : PlaneRec)
    (s : State) :
    (shadowNext tb ctx p pk pr s).otp = s.otp := by simp [shadowNext]

@[simp] theorem resetPixel_otp (tb : StructTables) (pr : PlaneRec) (p w : Nat) (s : State) :
    (resetPixel tb pr p w s).otp = s.otp := rfl

@[simp] theorem installGen_otp (tb : StructTables) (p : Fin 8) (number : Nat) (es : List MapEntry) (s : State) :
    (installGen tb p number es s).otp = s.otp := by
  unfold installGen
  simp only [diag_otp]
  split
  · rw [otp_foldl (fun s x => by simp)]
    simp
  · simp

@[simp] theorem rollback_otp (p : Fin 8) (ctx : Fin 64) (k : Nat) (s : State) : (rollback p ctx k s).otp = s.otp := by
  unfold rollback
  simp only []
  split
  · rfl
  · rw [State.modJob_otp, State.modPlane_otp]
    exact otp_foldl (fun s x => by split <;> simp) _ _

@[simp] theorem installMirrored_otp (tb : StructTables) (p : Fin 8) (ctx : Fin 64) (s : State) :
    (installMirrored tb p ctx s).otp = s.otp := by
  unfold installMirrored
  split <;> simp

@[simp] theorem nzmSet_otp (bit : Nat) (s : State) : (nzmSet bit s).otp = s.otp := rfl

@[simp] theorem commitEntries_otp (good bad : List MapEntry) (s : State) :
    (commitEntries good bad s).otp = s.otp := by simp [commitEntries]

@[simp] theorem movePending_otp (s : State) : (movePending s).otp = s.otp := rfl

@[simp] theorem baFault_otp (n : Fin 8) (code : Nat) (act : FaultAct) (s : State) :
    (baFault n code act s).otp = s.otp := by simp [baFault]

@[simp] theorem driveStart_otp (n : Fin 16) (phaseB : Bool) (s : State) : (driveStart n phaseB s).otp = s.otp := rfl

@[simp] theorem setPower_otp (n : Fin 16) (on : Bool) (s : State) :
    (setPower n on s).otp = s.otp := by simp [setPower]

@[simp] theorem zeroMaster_otp (count z m0 : Int) (s : State) : (zeroMaster count z m0 s).otp = s.otp := rfl

@[simp] theorem handoverFail_otp (s : State) : (handoverFail s).otp = s.otp := by simp [handoverFail]

@[simp] theorem freezeCast_otp (s : State) : (freezeCast s).otp = s.otp := rfl

@[simp] theorem passItems_otp (s : State) : (passItems s).otp = s.otp := rfl

@[simp] theorem checkReverse_otp (s : State) : (checkReverse s).otp = s.otp := by simp [checkReverse]

@[simp] theorem handoverSwitch_otp (s : State) : (handoverSwitch s).otp = s.otp := by
  unfold handoverSwitch
  split <;> simp

@[simp] theorem missSlot_otp (x : FireSlot) (s : State) : (missSlot x s).otp = s.otp := by simp [missSlot]

@[simp] theorem unlockedPass_otp (s : State) : (unlockedPass s).otp = s.otp := by
  unfold unlockedPass
  split
  · simp only []
    rw [otp_foldl, otp_foldl (fun s x => by simp)]
    intro s c
    split
    · refine otp_foldl (fun s p => ?_) _ _
      exact otp_foldl (fun s k => by simp) _ _
    · rfl
  · rfl

@[simp] theorem masterMoved_otp (s : State) : (masterMoved s).otp = s.otp := by simp [masterMoved]

@[simp] theorem relock_otp (s : State) : (relock s).otp = s.otp := by
  unfold relock
  split <;> simp

@[simp] theorem takeEst_otp (e : Est) (lost : Bool) (s : State) : (takeEst e lost s).otp = s.otp := by simp [takeEst]

@[simp] theorem pacStepper_otp (n : Fin 16) (s : State) : (pacStepper n s).otp = s.otp := by simp [pacStepper]

@[simp] theorem stpFault_otp (n : Fin 16) (code : Nat) (s : State) :
    (stpFault n code s).otp = s.otp := by simp [stpFault]

@[simp] theorem rejectEdge_otp (n : Fin 16) (s : State) : (rejectEdge n s).otp = s.otp := by simp [rejectEdge]

@[simp] theorem doZero_otp (count m0 : Int) (s : State) : (doZero count m0 s).otp = s.otp := rfl

@[simp] theorem pacEdge_otp (n : Fin 16) (count : Int) (down : Bool) (s : State) :
    (pacEdge n count down s).otp = s.otp := by
  unfold pacEdge
  (repeat' split) <;> simp

@[simp] theorem gearsFollow_otp (n : Fin 16) (s : State) : (gearsFollow n s).otp = s.otp := rfl

@[simp] theorem acceptChange_otp (n : Fin 16) (s : State) : (acceptChange n s).otp = s.otp := by simp [acceptChange]

@[simp] theorem encSample_otp (n : Fin 16) (s : State) : (encSample n s).otp = s.otp := by simp [encSample]

@[simp] theorem indexZero_otp (n : Fin 16) (s : State) : (indexZero n s).otp = s.otp := by simp [indexZero]

@[simp] theorem refuseOr_otp (conds : List (Bool × Status)) (r : RegSpec) (i offset : Nat) (f : State → State)
    (s : State) : (refuseOr conds r i offset f s).otp = if firstRefusal conds = .ok then (f s).otp else s.otp := by
  unfold refuseOr
  split <;> simp_all

@[simp] theorem pacRefuse_otp (conds : List (Bool × Status)) (offset : Nat) (f : State → State) (s : State)
    (hf : ∀ s, (f s).otp = s.otp) :
    (pacRefuse conds offset f s).otp = s.otp := by simp [*, pacRefuse]

@[simp] theorem newSource_otp (value : Word) (s : State) : (newSource value s).otp = s.otp := rfl

@[simp] theorem gearAppend_otp (s : State) : (gearAppend s).otp = s.otp := rfl

@[simp] theorem gearInstall_otp (s : State) : (gearInstall s).otp = s.otp := rfl

@[simp] theorem gearEmpty_otp (s : State) : (gearEmpty s).otp = s.otp := rfl

@[simp] theorem handoverSet_otp (value : Word) (s : State) : (handoverSet value s).otp = s.otp := rfl

@[simp] theorem sendFire_otp (tb : StructTables) (correct : Bool) (x : FireSlot) (s : State) :
    (sendFire tb correct x s).otp = s.otp := by
  unfold sendFire
  split
  · rfl
  · exact otp_foldl (fun _ _ => by rfl) _ _

@[simp] theorem playConflict_otp (x : FireSlot) (p : Play) (s : State) :
    (playConflict x p s).otp = s.otp := by simp [playConflict]

@[simp] theorem notePlays_otp (x : FireSlot) (old new : List Play) (s : State) :
    (notePlays x old new s).otp = s.otp := by simp [notePlays]

@[simp] theorem decidePlays_otp (tb : StructTables) (x : FireSlot) (s : State) :
    (decidePlays tb x s).2.otp = s.otp := by simp [decidePlays]

@[simp] theorem firstFired_otp (ctx : Fin 64) (s : State) : (firstFired ctx s).otp = s.otp := by simp [firstFired]

@[simp] theorem sendSlot_otp (tb : StructTables) (x : FireSlot) (s : State) : (sendSlot tb x s).otp = s.otp := by
  unfold sendSlot
  simp

@[simp] theorem fireSlot_otp (tb : StructTables) (pk : Package) (x : FireSlot) (targets : List (Nat × Int))
    (raw : List (Nat × Nat)) (s : State) :
    (fireSlot tb pk x targets raw s).otp = s.otp := by
  unfold fireSlot
  (repeat' split) <;> simp

@[simp] theorem lateSlot_otp (x : FireSlot) (s : State) : (lateSlot x s).otp = s.otp := by simp [lateSlot]

@[simp] theorem correctSlot_otp (tb : StructTables) (pk : Package) (x : FireSlot) (raw : List (Nat × Nat))
    (s : State) :
    (correctSlot tb pk x raw s).otp = s.otp := by
  unfold correctSlot
  simp only []
  split
  · simp
  · split <;> simp

@[simp] theorem recomputeSlot_otp (tb : StructTables) (x : FireSlot) (s : State) :
    (recomputeSlot tb x s).otp = s.otp := by
  unfold recomputeSlot
  simp only []
  (repeat' split) <;> simp

@[simp] theorem misplace_otp (x : FireSlot) (s : State) : (misplace x s).otp = s.otp := by simp [misplace]

@[simp] theorem notePrinted_otp (x : FireSlot) (s : State) : (notePrinted x s).otp = s.otp := by
  unfold notePrinted
  split <;> simp

@[simp] theorem chargeSlot_otp (x : FireSlot) (s : State) : (chargeSlot x s).otp = s.otp := by
  unfold chargeSlot
  split <;> simp

@[simp] theorem slotPassed_otp (tb : StructTables) (x : FireSlot) (s : State) : (slotPassed tb x s).otp = s.otp := by
  unfold slotPassed
  split <;> simp

@[simp] theorem popRunway_otp (p : Fin 8) (c : RunwayCourse) (s : State) : (popRunway p c s).otp = s.otp := rfl

@[simp] theorem numberSlot_otp (h : Nat) (s : State) : (numberSlot h s).2.otp = s.otp := rfl

@[simp] theorem numberAll_otp (l : List Nat) (s : State) : (numberAll l s).2.otp = s.otp := by
  induction l generalizing s with
  | nil => rfl
  | cons h l ih => simp [numberAll, ih]

@[simp] theorem sendCourse_otp (cells : List WaleOut) (h : HeadRec) (slot : Nat) (s : State) :
    (sendCourse cells h slot s).otp = s.otp := by
  unfold sendCourse
  split <;> simp

@[simp] theorem streamSlot_otp (tb : StructTables) (x : FireSlot) (s : State) : (streamSlot tb x s).otp = s.otp := by
  unfold streamSlot
  rw [otp_foldl]
  intro s x
  split <;> simp

@[simp] theorem takeRow_otp (tb : StructTables) (p : Nat) (c : RunwayCourse) (row : Nat) (s : State) :
    (takeRow tb p c row s).otp = s.otp := by simp [takeRow]

@[simp] theorem takeCourse_otp (tb : StructTables) (p : Fin 8) (c : RunwayCourse) (s : State) :
    (takeCourse tb p c s).otp = s.otp := by
  unfold takeCourse
  simp only []
  (repeat' split) <;> simp

@[simp] theorem sendWaves_otp (old : State) (table : Option Nat) (s : State) :
    (sendWaves old table s).2.otp = s.otp := by
  obtain ⟨mlk, out, h⟩ := sendWaves_eq old table s
  rw [h]

@[simp] theorem putTable_otp (tbl : Nat) (w : List Word) (s : State) :
    (putTable tbl w s).otp = s.otp := by simp [putTable]

@[simp] theorem tblAccept_otp (s : State) : (tblAccept s).otp = s.otp := by simp [tblAccept]

@[simp] theorem readTable_otp (s : State) : (readTable s).otp = s.otp := by
  unfold readTable
  exact otp_foldl (fun _ _ => by rfl) _ _

@[simp] theorem wgChange_otp (n : Nat) (f : WgSt → WgSt) (s : State) :
    (wgChange n f s).otp = s.otp := by simp [wgChange]

@[simp] theorem State.modHead_otp (s : State) (h : Nat) (f : HeadSt → HeadSt) :
    (State.modHead s h f).otp = s.otp := rfl

@[simp] theorem overStep_otp (kind idx limit e : Nat) (was : Bool) (s : State) :
    (overStep kind idx limit e was s).2.otp = s.otp := by simp [overStep]

@[simp] theorem overAll_otp (kind : Nat) (old : List (Nat × Nat × Bool)) (l : List (Nat × Nat × Nat)) (s : State) :
    (overAll kind old l s).2.otp = s.otp := by
  induction l generalizing s with
  | nil => rfl
  | cons x l ih => simp [overAll, ih]

@[simp] theorem portTo_otp (st : PortSt) (n : Fin 32) (s : State) : (portTo st n s).otp = s.otp := rfl

@[simp] theorem laneTo_otp (st : LaneSt) (l : Fin 64) (s : State) : (laneTo st l s).otp = s.otp := rfl

@[simp] theorem portTrained_otp (l : Nat) (ok : Bool) (n : Fin 32) (s : State) :
    (portTrained l ok n s).otp = s.otp := by simp [portTrained]

@[simp] theorem helloMatch_otp (e : EndpointRec) (l : Fin 64) (h : MlkHello) (s : State) :
    (helloMatch e l h s).otp = s.otp := by simp [helloMatch]

@[simp] theorem helloMismatch_otp (l : Fin 64) (s : State) :
    (helloMismatch l s).otp = s.otp := by simp [helloMismatch]

@[simp] theorem drainPort_otp (n : Fin 32) (l : List (Nat × XlkTx)) (s : State) : (drainPort n l s).otp = s.otp := by
  induction l generalizing s with
  | nil => rfl
  | cons x l ih => simp [drainPort, ih]

@[simp] theorem portAck_otp (seq : Nat) (n : Fin 32) (s : State) : (portAck seq n s).otp = s.otp := by simp [portAck]

@[simp] theorem drainRel_otp (l : Fin 64) (es : List MlkTx) (s : State) : (drainRel l es s).otp = s.otp := by
  induction es generalizing s with
  | nil => rfl
  | cons f es ih => unfold drainRel; split <;> simp [ih]

@[simp] theorem takeAck_otp (l : Fin 64) (seq : Nat) (s : State) : (takeAck l seq s).otp = s.otp := by
  unfold takeAck
  simp only []
  (repeat' split) <;> simp

@[simp] theorem configDone_otp (l : Fin 64) (s : State) : (configDone l s).otp = s.otp := by simp [configDone]

@[simp] theorem linkConfigured_otp (e : EndpointRec) (l : Fin 64) (s : State) :
    (linkConfigured e l s).otp = s.otp := by simp [linkConfigured]

@[simp] theorem restream_otp (tb : StructTables) (hub : Nat) (s : State) :
    (restream tb hub s).otp = s.otp := by simp [restream]

@[simp] theorem endpointReady_otp (e : EndpointRec) (s : State) : (endpointReady e s).otp = s.otp := by
  unfold endpointReady
  simp only []
  (repeat' split) <;> simp

@[simp] theorem sendTakeover_otp (h : EndpointRec) (s : State) : (sendTakeover h s).otp = s.otp := rfl

@[simp] theorem claimEpoch_otp (e : Nat) (s : State) : (claimEpoch e s).otp = s.otp := by simp [claimEpoch]

@[simp] theorem fenceHub_otp (e : EndpointRec) (s : State) : (fenceHub e s).otp = s.otp := by simp [fenceHub]

@[simp] theorem reportSlot_otp (hub num : Nat) (ok : Bool) (s : State) : (reportSlot hub num ok s).otp = s.otp := by
  unfold reportSlot
  simp only []
  have h : ∀ (l : List (Fin 64)) (f : Fin 64 → Lane → Lane) (s : State),
      (l.foldl (fun s l => s.modLane l (f l)) s).otp = s.otp :=
    fun l f s => otp_foldl (fun s l => by simp) _ _
  split
  · split
    · simp [h]
    · simp [h]
  · exact otp_foldl (fun _ _ => by rfl) _ _

@[simp] theorem ackHub_otp (hub : Nat) (s : State) : (ackHub hub s).otp = s.otp := by
  unfold ackHub
  split <;> simp

@[simp] theorem resendCourse_otp (tb : StructTables) (l : Fin 64) (cseq : Nat) (s : State) :
    (resendCourse tb l cseq s).otp = s.otp := by
  unfold resendCourse
  (repeat' split) <;> simp

@[simp] theorem portRetry_otp (n : Fin 32) (s : State) : (portRetry n s).otp = s.otp := by
  unfold portRetry
  split <;> simp

@[simp] theorem takeoverRow_otp (tb : StructTables) (r : TakeoverRow) (s : State) :
    (takeoverRow tb r s).otp = s.otp := by
  unfold takeoverRow
  rw [otp_foldl]
  intro s x
  simp only []
  (repeat' split) <;> simp

@[simp] theorem takeoverAccepted_otp (e : EndpointRec) (digest : Nat) (rows : List TakeoverRow) (s : State) :
    (takeoverAccepted e digest rows s).otp = s.otp := by
  unfold takeoverAccepted
  simp only []
  split <;> simp

@[simp] theorem State.modBridge_otp (s : State) (b : Fin 16) (f : Bridge → Bridge) :
    (State.modBridge s b f).otp = s.otp := rfl

@[simp] theorem passLine_otp (b : Fin 16) (l : ScanLine) (s : State) : (passLine b l s).otp = s.otp := rfl

@[simp] theorem putCount_otp (c : NozCount) (s : State) : (putCount c s).otp = s.otp := rfl

@[simp] theorem ambiguous_otp (p : Fin 8) (pixel : Nat) (here : NozCount → Bool) (s : State) :
    (ambiguous p pixel here s).otp = s.otp := by simp [ambiguous]

@[simp] theorem placeDead_otp (tb : StructTables) (p : Fin 8) (h n count : Nat) (s : State) :
    (placeDead tb p h n count s).otp = s.otp := by simp [placeDead]

@[simp] theorem evaluate_otp (tb : StructTables) (p : Fin 8) (pixel : Nat) (wales : List Nat) (c : NozCount)
    (s : State) :
    (evaluate tb p pixel wales c s).otp = s.otp := by simp [evaluate]

@[simp] theorem countInk_otp (tb : StructTables) (p : Fin 8) (pixel : Nat) (wales : List Nat) (deficit : Bool)
    (n : Nat × Nat) (s : State) :
    (countInk tb p pixel wales deficit n s).otp = s.otp := by simp [countInk]

@[simp] theorem putAcc_otp (v : VerdictAcc) (s : State) : (putAcc v s).otp = s.otp := rfl

@[simp] theorem analysePixel_otp (tb : StructTables) (e : EndpointRec) (lines : List ScanLine) (l : ScanLine)
    (job : Fin 64 × Package × AppearRec) (s : State) (i : Nat) :
    (analysePixel tb e lines l job s i).otp = s.otp := by
  unfold analysePixel
  rw [otp_foldl]
  · simp
  intro s x
  simp

@[simp] theorem analyseLine_otp (tb : StructTables) (e : EndpointRec) (lines : List ScanLine) (l : ScanLine)
    (s : State) :
    (analyseLine tb e lines l s).otp = s.otp := by simp [analyseLine]

@[simp] theorem judgeItem_otp (ctx : Fin 64) (pk : Package) (late : Bool) (it : Item) (s : State) :
    (judgeItem ctx pk late it s).otp = s.otp := by
  unfold judgeItem when
  simp only []
  split <;> simp

@[simp] theorem judgeScanned_otp (ctx : Fin 64) (s : State) : (judgeScanned ctx s).otp = s.otp := by
  unfold judgeScanned
  split <;> simp

@[simp] theorem watchSpeed_otp (s : State) : (watchSpeed s).otp = s.otp := by simp [watchSpeed]

@[simp] theorem busTimer_otp (n : Fin 8) (s : State) : (busTimer n s).otp = s.otp := rfl

@[simp] theorem decideStep_otp (n : Fin 8) (s : State) : (decideStep n s).otp = s.otp := rfl

@[simp] theorem speedTimers_otp (n : Fin 8) (s : State) : (speedTimers n s).otp = s.otp := rfl

@[simp] theorem measureSpeed_otp (n : Fin 8) (s : State) : (measureSpeed n s).otp = s.otp := by
  unfold measureSpeed
  simp only []
  split <;> simp

@[simp] theorem torqueLoop_otp (n : Fin 8) (s : State) : (torqueLoop n s).otp = s.otp := rfl

@[simp] theorem timedFault_otp (n : Fin 8) (at_ : Option Nat) (len code : Nat) (act : FaultAct) (s : State) :
    (timedFault n at_ len code act s).otp = s.otp := by
  unfold timedFault
  split <;> simp

@[simp] theorem planPosition_otp (n : Fin 16) (t : Int) (s : State) : (planPosition n t s).otp = s.otp := rfl

@[simp] theorem planVelocity_otp (n : Fin 16) (s : State) : (planVelocity n s).otp = s.otp := by
  delta planVelocity
  extract_lets vm v0
  split
  extract_lets x
  split
  extract_lets
  split
  · rw [State.setFld_otp, State.modStp_otp, State.modStp_otp]
  · rw [State.modStp_otp, State.modStp_otp]

@[simp] theorem startGear_otp (n : Fin 16) (s : State) : (startGear n s).otp = s.otp := rfl

@[simp] theorem applyReq_otp (n : Fin 16) (r : StpReq) (s : State) : (applyReq n r s).otp = s.otp := by
  unfold applyReq
  (repeat' split) <;> simp

@[simp] theorem dueReqs_otp (n : Fin 16) (s : State) : (dueReqs n s).otp = s.otp := by
  unfold dueReqs
  simp only []
  split <;> simp

@[simp] theorem takeTarget_otp (n : Fin 16) (s : State) : (takeTarget n s).2.otp = s.otp := by
  unfold takeTarget
  simp only []
  (repeat' split) <;> simp

@[simp] theorem setVelocity_otp (n : Fin 16) (tgt : Int) (s : State) : (setVelocity n tgt s).otp = s.otp := rfl

@[simp] theorem captureRef_otp (n : Fin 16) (s : State) : (captureRef n s).otp = s.otp := rfl

@[simp] theorem homeEnd_otp (n : Fin 16) (h : StpHome) (s : State) : (homeEnd n h s).otp = s.otp := by simp [homeEnd]

@[simp] theorem homeFound_otp (n : Fin 16) (h : StpHome) (s : State) :
    (homeFound n h s).otp = s.otp := by simp [homeFound]

@[simp] theorem updateChecks_otp (n : Fin 16) (tgt : Option Int) (s : State) :
    (updateChecks n tgt s).otp = s.otp := by
  unfold updateChecks
  simp only []
  split <;> simp

@[simp] theorem wakePhases_otp (n : Fin 16) (s : State) : (wakePhases n s).otp = s.otp := by simp [wakePhases]

@[simp] theorem currentTimer_otp (n : Fin 16) (s : State) : (currentTimer n s).otp = s.otp := rfl

@[simp] theorem commit_otp (n : Fin 16) (r : StpReq) (s : State) : (commit n r s).otp = s.otp := by simp [commit]

@[simp] theorem stpEnableAct_otp (n : Fin 16) (s : State) : (stpEnableAct n s).otp = s.otp := by simp [stpEnableAct]

@[simp] theorem setChop_otp (n : Fin 16) (phaseB : Bool) (c : Chop) (s : State) :
    (setChop n phaseB c s).otp = s.otp := rfl

@[simp] theorem fundCluster_otp (funded : List (Fin 16)) (s : State) (n : Fin 16) :
    (fundCluster funded s n).otp = s.otp := rfl

@[simp] theorem fund_otp (s : State) : (fund s).otp = s.otp := by
  unfold fund
  rw [refreshClusters_otp]
  exact otp_foldl (fun s x => by simp) _ _

@[simp] theorem killCluster_otp (n : Fin 16) (s : State) : (killCluster n s).otp = s.otp := by simp [killCluster]

@[simp] theorem trip_otp (s : State) : (trip s).otp = s.otp := by simp [trip]

@[simp] theorem actOnReading_otp (n : Fin 16) (s : State) : (actOnReading n s).otp = s.otp := by simp [actOnReading]

@[simp] theorem State.modBank_otp (s : State) (n : Fin 128) (f : Bank → Bank) :
    (State.modBank s n f).otp = s.otp := rfl

@[simp] theorem repairRow_otp (n : Fin 128) (row : Nat) (s : State) :
    (repairRow n row s).otp = s.otp := by simp [repairRow]

@[simp] theorem sramCe_otp (n : Fin 128) (word : Nat) (s : State) : (sramCe n word s).otp = s.otp := by simp [sramCe]

@[simp] theorem loseScreened_otp (p : Fin 8) (s : State) : (loseScreened p s).otp = s.otp := by
  unfold loseScreened
  (repeat' split) <;> simp

@[simp] theorem sramUeEffect_otp (n : Nat) (env : BootEnv) (s : State) :
    (sramUeEffect n env s).otp = s.otp := by simp [sramUeEffect]

@[simp] theorem sramUe_otp (n : Fin 128) (word : Nat) (env : BootEnv) (s : State) :
    (sramUe n word env s).otp = s.otp := by simp [sramUe]

@[simp] theorem voidReaders_otp (s : State) : (voidReaders s).otp = s.otp := by simp [voidReaders]

@[simp] theorem loseRunway_otp (p : Fin 8) (c : RunwayCourse) (s : State) : (loseRunway p c s).otp = s.otp := by
  unfold loseRunway
  simp only []
  split <;> simp

@[simp] theorem hbmUeEffect_otp (addr : Nat) (s : State) : (hbmUeEffect addr s).otp = s.otp := by
  unfold hbmUeEffect
  simp only []
  (repeat' split) <;> simp

@[simp] theorem failBank_otp (n : Fin 128) (s : State) : (failBank n s).otp = s.otp := by simp [failBank]

@[simp] theorem State.modJs_otp (s : State) (n : Fin 32) (f : JsIndex → JsIndex) :
    (State.modJs s n f).otp = s.otp := rfl

@[simp] theorem dmaLoad_otp (n : Fin 32) (st : DmaSt) (s : State) : (dmaLoad n st s).otp = s.otp := rfl

@[simp] theorem dmaBegin_otp (n : Fin 32) (s : State) : (dmaBegin n s).otp = s.otp := rfl

@[simp] theorem dmaStartAct_otp (n : Fin 32) (s : State) : (dmaStartAct n s).otp = s.otp := by
  unfold dmaStartAct
  simp

@[simp] theorem dmaAbortAct_otp (n : Fin 32) (s : State) : (dmaAbortAct n s).otp = s.otp := by simp [dmaAbortAct]

@[simp] theorem dmaSettle_otp (n : Fin 32) (s : State) : (dmaSettle n s).otp = s.otp := rfl

@[simp] theorem dmaDoorbell_otp (n : Fin 32) (readSide : Bool) (reread : DmaDesc) (s : State) :
    (dmaDoorbell n readSide reread s).otp = s.otp := by
  unfold dmaDoorbell
  (repeat' split) <;> simp

@[simp] theorem lineMoved_otp (line bytes : Nat) (s : State) :
    (lineMoved line bytes s).otp = s.otp := by simp [lineMoved]

@[simp] theorem readBurst_otp (n : Fin 32) (bytes : Nat) (s : State) : (readBurst n bytes s).otp = s.otp := by
  unfold readBurst
  simp only []
  split <;> simp

@[simp] theorem writeBurst_otp (n : Fin 32) (bytes : Nat) (s : State) : (writeBurst n bytes s).otp = s.otp := by
  unfold writeBurst
  simp only []
  split <;> simp

@[simp] theorem dmaTake_otp (n : Fin 32) (readSide : Bool) (descs : List DmaDesc) (s : State) :
    (dmaTake n readSide descs s).otp = s.otp := by
  unfold dmaTake
  simp only []
  split <;> simp

@[simp] theorem dmaDone_otp (n : Fin 32) (s : State) : (dmaDone n s).otp = s.otp := by simp [dmaDone]

@[simp] theorem takeHello_otp (n : Fin 32) (h : XlkHello) (s : State) : (takeHello n h s).otp = s.otp := rfl

@[simp] theorem resendPort_otp (n : Fin 32) (s : State) : (resendPort n s).otp = s.otp := by
  unfold resendPort
  rw [otp_foldl]
  · simp
  intro s x
  simp

@[simp] theorem holdAddr_otp (uid addr : Nat) (s : State) : (holdAddr uid addr s).otp = s.otp := rfl

@[simp] theorem fabricFull_otp (s : State) : (fabricFull s).otp = s.otp := by simp [fabricFull]

@[simp] theorem assignUnit_otp (uid : Nat) (s : State) : (assignUnit uid s).otp = s.otp := by
  unfold assignUnit
  simp only []
  split <;> simp

@[simp] theorem assignAll_otp (found : List (Nat × Nat)) (s : State) :
    (assignAll found s).otp = s.otp := by simp [assignAll]

@[simp] theorem clearAddresses_otp (gen : Nat) (s : State) : (clearAddresses gen s).otp = s.otp := rfl

@[simp] theorem loseTime_otp (s : State) : (loseTime s).otp = s.otp := by simp [loseTime]

@[simp] theorem slewTime_otp (err : Int) (s : State) : (slewTime err s).otp = s.otp := by
  unfold slewTime
  split <;> simp

@[simp] theorem stepTime_otp (err : Int) (s : State) : (stepTime err s).otp = s.otp := by simp [stepTime]

@[simp] theorem takeFollow_otp (t1 h2 h3 t4 : Nat) (s : State) : (takeFollow t1 h2 h3 t4 s).otp = s.otp := by
  unfold takeFollow
  simp only []
  split <;> simp

@[simp] theorem count16_otp (r : RegSpec) (lo : Nat) (s : State) : (count16 r lo s).otp = s.otp := rfl

@[simp] theorem ppsRoot_otp (at_ : Int) (s : State) : (ppsRoot at_ s).otp = s.otp := by simp [ppsRoot]

@[simp] theorem mirrorAxes_otp (s : State) : (mirrorAxes s).otp = s.otp := by simp [mirrorAxes]

@[simp] theorem mirrorFinals_otp (s : State) : (mirrorFinals s).otp = s.otp := by
  unfold mirrorFinals
  rw [otp_foldl]
  intro s x
  split <;> simp

@[simp] theorem pairConflict_otp (s : State) : (pairConflict s).otp = s.otp := by simp [pairConflict]

@[simp] theorem sendCompare_otp (s : State) : (sendCompare s).otp = s.otp := by simp [sendCompare]

@[simp] theorem formAs_otp (r : Role) (s : State) : (formAs r s).otp = s.otp := by simp [formAs]

@[simp] theorem formLead_otp (s : State) : (formLead s).otp = s.otp := by simp [formLead]

@[simp] theorem formDummy_otp (s : State) : (formDummy s).otp = s.otp := by simp [formDummy]

@[simp] theorem formPair_otp (peerLead : Bool) (s : State) : (formPair peerLead s).otp = s.otp := by simp [formPair]

@[simp] theorem heartbeatRole_otp (s : State) : (heartbeatRole s).otp = s.otp := by
  unfold heartbeatRole
  split <;> simp

@[simp] theorem noteLevels_otp (s : State) : (noteLevels s).otp = s.otp := rfl

@[simp] theorem takeHeartbeat_otp (hb : Heartbeat) (s : State) : (takeHeartbeat hb s).otp = s.otp := rfl

@[simp] theorem startSwap_otp (byCommand : Bool) (s : State) : (startSwap byCommand s).otp = s.otp := by
  unfold startSwap
  simp only []
  split
  · rw [otp_foldl (fun _ _ => by rfl)]
    simp
  · simp

@[simp] theorem mirrorUnderrun_otp (plane : Nat) (ctx : Fin 64) (first last : Nat) (s : State) :
    (mirrorUnderrun plane ctx first last s).otp = s.otp := by simp [mirrorUnderrun]

@[simp] theorem mirrorGen_otp (plane installCourse generation : Nat) (last : Bool) (entries : List Word) (s : State) :
    (mirrorGen plane installCourse generation last entries s).otp = s.otp := by
  unfold mirrorGen
  simp only []
  split <;> simp

@[simp] theorem mirrorConfirm_otp (plane row : Nat) (ctx : Fin 64) (course : Nat) (s : State) :
    (mirrorConfirm plane row ctx course s).otp = s.otp := by simp [mirrorConfirm]

@[simp] theorem mirrorFinal_otp (ctx : Fin 64) (seq : Nat) (s : State) :
    (mirrorFinal ctx seq s).otp = s.otp := by simp [mirrorFinal]

@[simp] theorem mirrorCal_otp (r : CalRecord) (s : State) : (mirrorCal r s).otp = s.otp := by simp [mirrorCal]

@[simp] theorem mirrorAxesOf_otp (l : List AxisMirror) (s : State) : (mirrorAxesOf l s).otp = s.otp := rfl

@[simp] theorem enableMirrored_otp (a : AxisMirror) (s : State) : (enableMirrored a s).otp = s.otp := by
  unfold enableMirrored
  split
  · rfl
  · split <;> simp [refuseOr_otp]

@[simp] theorem settleAll_otp (s : State) : (settleAll s).otp = s.otp := by simp [settleAll]

@[simp] theorem takeLead_otp (epoch : Nat) (s : State) : (takeLead epoch s).otp = s.otp := by simp [takeLead]

@[simp] theorem dropConfirmed_otp (s : State) : (dropConfirmed s).otp = s.otp := rfl

@[simp] theorem failOver_otp (s : State) : (failOver s).otp = s.otp := by simp [failOver]

@[simp] theorem leadLost_otp (s : State) : (leadLost s).otp = s.otp := by simp [leadLost]

@[simp] theorem mbxAnswer_otp (st : Status) (s : State) : (mbxAnswer st s).otp = s.otp := rfl

@[simp] theorem finishTimed_otp (e : Timed) (s : State) : (finishTimed e s).otp = s.otp := by
  unfold finishTimed
  split <;> simp

@[simp] theorem cutShort_otp (s : State) : (cutShort s).otp = s.otp := rfl

@[simp] theorem wipeSecure_otp (s : State) : (wipeSecure s).otp = s.otp := rfl

@[simp] theorem tamperEvent_otp (bit : Nat) (s : State) : (tamperEvent bit s).otp = s.otp := by simp [tamperEvent]

@[simp] theorem showMti_otp (s : State) : (showMti s).otp = s.otp := by
  unfold showMti
  split <;> simp

@[simp] theorem metEvent_otp (kind : Nat) (data : List Int) (s : State) :
    (metEvent kind data s).otp = s.otp := by simp [metEvent]

@[simp] theorem lockPartition_otp (cause : LockCause) (s : State) : (lockPartition cause s).otp = s.otp := by
  unfold lockPartition
  split <;> simp

@[simp] theorem modCh_otp (c : Fin 16) (f : MetCh → MetCh) (s : State) : (modCh c f s).otp = s.otp := rfl

@[simp] theorem replied_otp (c : Fin 16) (s : State) : (replied c s).otp = s.otp := rfl

theorem chFrame_otp {f : State → State} (hf : ∀ s, (f s).otp = s.otp) (c : Fin 16) (crcOk : Bool) (s : State) :
    (chFrame c crcOk f s).otp = s.otp := by
  simp [chFrame, hf]

@[simp] theorem queueWeighing_otp (c : Fin 16) (w : Weighing) (s : State) : (queueWeighing c w s).otp = s.otp := rfl

@[simp] theorem takeFrame_otp (c : Fin 16) (w : Weighing) (s : State) : (takeFrame c w s).otp = s.otp := by
  unfold takeFrame
  split <;> simp

@[simp] theorem voidSealed_otp (s : State) : (voidSealed s).otp = s.otp := by
  unfold voidSealed
  refine otp_foldl (fun s c => ?_) _ _
  rw [State.modJob_otp]
  exact otp_foldl (fun s x => by split <;> simp) _ _

theorem mailbox_otp {f : State → State} (hf : ∀ s, (f s).otp = s.otp) (isSensitive : Bool)
    (conds : State → List (Bool × Status)) (s : State) : (mailbox isSensitive conds f s).otp = s.otp := by
  unfold mailbox
  simp only []
  split
  · rfl
  · split
    · rfl
    · split <;> simp [hf]

@[simp] theorem endRunCal_otp (r : CalRun) (st : Status) (result : Nat) (s : State) :
    (endRunCal r st result s).otp = s.otp := by simp [endRunCal]

@[simp] theorem storeCal_otp (r : CalRecord) (s : State) : (storeCal r s).otp = s.otp := rfl

@[simp] theorem calGeneration_otp (head : Nat) (s : State) : (calGeneration head s).otp = s.otp := by
  unfold calGeneration
  (repeat' split) <;> simp

@[simp] theorem calOk_otp (r : CalRun) (rec_ : CalRecord) (storeOk : Bool) (s : State) :
    (calOk r rec_ storeOk s).otp = s.otp := by simp [calOk]

@[simp] theorem setStaged_otp (cls : Nat) (i : Option Image) (s : State) : (setStaged cls i s).otp = s.otp := by
  unfold setStaged
  split <;> simp

@[simp] theorem noteRow_otp (row : Nat) (s : State) : (noteRow row s).otp = s.otp := rfl

@[simp] theorem endXfer_otp (s : State) : (endXfer s).otp = s.otp := rfl

@[simp] theorem checkedImage_otp (row : CheckRow) (empty f : State → State) (s : State) (hempty : ∀ s,
    (empty s).otp = s.otp) (hf : ∀ s, (f s).otp = s.otp) :
    (checkedImage row empty f s).otp = s.otp := by simp [*, checkedImage]

@[simp] theorem fwiStart_otp (env : BootEnv) (s : State) : (fwiStart env s).otp = s.otp := by simp [fwiStart]

@[simp] theorem emptyPrev_otp (cls : Nat) (s : State) : (emptyPrev cls s).otp = s.otp := by
  unfold emptyPrev
  split <;> simp

@[simp] theorem recover_otp (i : Image) (env : BootEnv) (s : State) :
    (recover i env s).otp = s.otp := by simp [recover]

theorem uartFrame_otp {f : State → State} (hf : ∀ s, (f s).otp = s.otp) (crcOk : Bool) (s : State) :
    (uartFrame crcOk f s).otp = s.otp := by
  simp [uartFrame, hf]

@[simp] theorem drainWrite_otp (size n : Nat) (l : List (LogRec × Nat)) (s : State) :
    (drainWrite size n l s).otp = s.otp := by
  induction l generalizing n s with
  | nil => rfl
  | cons x l ih => rw [drainWrite, ih]; simp

@[simp] theorem raiseLog_otp (s : State) : (raiseLog s).otp = s.otp := by simp [raiseLog]

@[simp] theorem drainAdvance_otp (moved : List (LogRec × Nat)) (rest : List LogRec) (s : State) :
    (drainAdvance moved rest s).otp = s.otp := by
  unfold drainAdvance
  split <;> simp

@[simp] theorem drainRun_otp (n : Nat) (readbackOk : Bool) (s : State) :
    (drainRun n readbackOk s).otp = s.otp := by simp [drainRun]

@[simp] theorem reissue_otp (lseq : Nat) (s : State) : (reissue lseq s).otp = s.otp := by
  unfold reissue
  rw [otp_foldl]
  intro s x
  split <;> simp

@[simp] theorem lostRecord_otp (r : LogRec) (s : State) : (lostRecord r s).otp = s.otp := by
  unfold lostRecord
  split <;> simp

@[simp] theorem loseFirst_otp (s : State) : (loseFirst s).otp = s.otp := by
  unfold loseFirst
  split <;> simp

@[simp] theorem releaseEntries_otp (passed : List LogRec) (s : State) : (releaseEntries passed s).otp = s.otp := rfl

@[simp] theorem muteRing_otp (id : RingId) (s : State) : (muteRing id s).otp = s.otp := by simp [muteRing]

@[simp] theorem breakAllSems_otp (s : State) : (breakAllSems s).otp = s.otp := rfl

@[simp] theorem endpointReset_otp (bit : Nat) (s : State) : (endpointReset bit s).otp = s.otp := by
  rw [endpointReset, holdCause_otp]
  have h : ∀ s : State, ((List.finRange 64).foldl (fun s (n : Fin 64) => muteRing (.job n) s) s).otp = s.otp :=
    fun s => otp_foldl (fun s x => by simp) _ _
  dsimp only [breakAllSems, State.modLog_otp]
  rw [h]
  simp

@[simp] theorem ringTimeout_otp (id : RingId) (onFetch : Bool) (s : State) :
    (ringTimeout id onFetch s).otp = s.otp := by simp [ringTimeout]

@[simp] theorem modI2c_otp (p : Fin 2) (f : I2c → I2c) (s : State) : (modI2c p f s).otp = s.otp := rfl

end Sys2Proof.Machine
end

section
/-! Commands that leave OTP as it was: every one of them but the ten that burn. -/
namespace Sys2Proof.Machine

/-- A meaning that leaves OTP as it was, whatever state it answers. -/
def KeepsOtp (act : State → Res) : Prop := ∀ s s', act s = .next s' → s'.otp = s.otp

theorem keepsOtp_run {t : Nat} {f : State → State} (h : ∀ s, (f s).otp = s.otp) : KeepsOtp fun s => run t s f := by
  intro s s' hs
  cases hs
  exact (h _).trans (State.arrive_otp s t)

theorem keepsOtp_ringCmd {t : Nat} {f : State → State} (h : ∀ s, (f s).otp = s.otp) :
    KeepsOtp fun s => ringCmd t s f :=
  keepsOtp_run fun s => by split <;> simp [h]

theorem keepsOtp_runUnless {bad : State → Bool} {what : String} {t : Nat} {f : State → State}
    (h : ∀ s, (f s).otp = s.otp) : KeepsOtp fun s => runUnless bad what t s f := by
  intro s s' hs
  dsimp only at hs
  unfold runUnless at hs
  split at hs
  · cases hs
  · exact keepsOtp_run h s s' hs

@[simp] theorem sendBulk_otp (src dst hops bytes : Nat) (s : State) : (sendBulk src dst hops bytes s).otp = s.otp := by
  simp [sendBulk]

@[simp] theorem drainBulk_otp (l : List (Nat × Nat × Nat × Nat)) (s : State) : (drainBulk l s).otp = s.otp := by
  induction l generalizing s with
  | nil => rfl
  | cons x l ih => simp [drainBulk, ih]

@[simp] theorem bulkBroadcast_otp (port : Fin 32) (src hops bytes : Nat) (s : State) :
    (bulkBroadcast port src hops bytes s).otp = s.otp := by
  simp [bulkBroadcast]

theorem execHoldNAssert_otp (t : Nat) : KeepsOtp (execHoldNAssert t) := keepsOtp_run fun s => by simp

theorem execHoldNRelease_otp (t highNs : Nat) : KeepsOtp (execHoldNRelease t highNs) := keepsOtp_run fun s => by simp

theorem execFireEnDeassert_otp (t lowNs : Nat) : KeepsOtp (execFireEnDeassert t lowNs) :=
  keepsOtp_run fun s => by simp

theorem execFireEnAssert_otp (t highNs : Nat) : KeepsOtp (execFireEnAssert t highNs) := keepsOtp_run fun s => by simp

theorem execHoldReq_otp (t cls : Nat) : KeepsOtp (execHoldReq t cls) := keepsOtp_run fun s => by simp

theorem execHoldClr_otp (t : Nat) : KeepsOtp (execHoldClr t) := keepsOtp_run fun s => by simp

theorem execSdOutput_otp (t : Nat) (ch : Fin 24) (acc : Int) : KeepsOtp (execSdOutput t ch acc) :=
  keepsOtp_run fun s => by
  dsimp only
  split <;> simp

theorem execDecisionPeriod_otp (t : Nat) (axis : Fin 8) : KeepsOtp (execDecisionPeriod t axis) :=
  keepsOtp_run fun s => by simp

theorem execSpeedLoopTick_otp (t : Nat) (axis : Fin 8) : KeepsOtp (execSpeedLoopTick t axis) :=
  keepsOtp_run fun s => by
  dsimp only
  (repeat' split) <;> simp

theorem execBaEnable_otp (t : Nat) (axis : Fin 8) : KeepsOtp (execBaEnable t axis) := keepsOtp_run fun s => by simp

theorem execBaDisable_otp (t : Nat) (axis : Fin 8) : KeepsOtp (execBaDisable t axis) := keepsOtp_run fun s => by simp

theorem execBaOpen_otp (t : Nat) (axis : Fin 8) : KeepsOtp (execBaOpen t axis) := keepsOtp_run fun s => by simp

theorem execBaFaultClr_otp (t : Nat) (axis : Fin 8) : KeepsOtp (execBaFaultClr t axis) :=
  keepsOtp_run fun s => by simp

theorem execBaSetpoint_otp (t : Nat) (axis : Fin 8) (value : Word) : KeepsOtp (execBaSetpoint t axis value) :=
  keepsOtp_run fun s => by simp

theorem execMagnetiseTimeout_otp (t : Nat) (axis : Fin 8) : KeepsOtp (execMagnetiseTimeout t axis) :=
  keepsOtp_run fun s => by
  split <;> simp

theorem execLockedRotor_otp (t : Nat) (axis : Fin 8) : KeepsOtp (execLockedRotor t axis) :=
  keepsOtp_run fun s => by simp

theorem execBaDriverFault_otp (t : Nat) (axis : Fin 8) (lowNs : Nat) : KeepsOtp (execBaDriverFault t axis lowNs) :=
  keepsOtp_run fun s => by simp

theorem execBaOverspeedFault_otp (t : Nat) (axis : Fin 8) : KeepsOtp (execBaOverspeedFault t axis) :=
  keepsOtp_run fun s => by simp

theorem execBaSpeedErrorFault_otp (t : Nat) (axis : Fin 8) : KeepsOtp (execBaSpeedErrorFault t axis) :=
  keepsOtp_run fun s => by simp

theorem execBaBusFault_otp (t : Nat) (axis : Fin 8) : KeepsOtp (execBaBusFault t axis) :=
  keepsOtp_run fun s => by simp

theorem execGuardPeriodEnd_otp (t : Nat) : KeepsOtp (execGuardPeriodEnd t) := keepsOtp_run fun s => by simp

theorem execAxisHomeBrushless_otp (t index : Nat) (speed : Int) (timeout : Nat) :
    KeepsOtp (execAxisHomeBrushless t index speed timeout) := keepsOtp_ringCmd fun s => by simp

theorem execBaHomeTimeout_otp (t : Nat) (axis : Fin 8) : KeepsOtp (execBaHomeTimeout t axis) :=
  keepsOtp_run fun s => by
  split <;> simp

theorem execWavTblWrite_otp (t : Nat) : KeepsOtp (execWavTblWrite t) := keepsOtp_ringCmd fun s => by simp

theorem execWavTblRead_otp (t : Nat) : KeepsOtp (execWavTblRead t) := keepsOtp_ringCmd fun s => by simp

theorem execWgActiveSlotWrite_otp (t : Nat) (value : Word) : KeepsOtp (execWgActiveSlotWrite t value) :=
  keepsOtp_ringCmd fun s => by simp

theorem execWaveformAckTimeout_otp (t : Nat) (hub : Fin 48) : KeepsOtp (execWaveformAckTimeout t hub) :=
  keepsOtp_ringCmd fun s => by simp

theorem execScaleUpdate_otp (t : Nat) : KeepsOtp (execScaleUpdate t) := keepsOtp_ringCmd fun s => by
  split
  · rfl
  · rfl
  · rw [otp_foldl (fun _ _ => by rfl), State.modWav_otp]

theorem execTempFrame_otp (t : Nat) (hub : Fin 48) (temps : List Int) : KeepsOtp (execTempFrame t hub temps) :=
  keepsOtp_ringCmd fun s => by
  split
  · rfl
  · exact otp_foldl (fun s h => by split <;> simp) _ _

theorem execTempStale_otp (t : Nat) (head : Fin 1024) : KeepsOtp (execTempStale t head) :=
  keepsOtp_ringCmd fun s => by simp

theorem execWavTempLost_otp (t : Nat) (head : Fin 1024) : KeepsOtp (execWavTempLost t head) :=
  keepsOtp_ringCmd fun s => by simp

theorem execVenergyUpdate_otp (t : Nat) : KeepsOtp (execVenergyUpdate t) := keepsOtp_ringCmd fun s => by
  split <;> simp

theorem execVheatUpdate_otp (t : Nat) : KeepsOtp (execVheatUpdate t) := keepsOtp_ringCmd fun s => by simp

theorem execPacZero_otp (t : Nat) : KeepsOtp (execPacZero t) := keepsOtp_ringCmd fun s => by
  unfold pacRefuse
  simp

theorem execPacSrcWrite_otp (t : Nat) (value : Word) : KeepsOtp (execPacSrcWrite t value) :=
  keepsOtp_ringCmd fun s => by
  unfold pacRefuse
  simp

theorem execGearPush_otp (t : Nat) : KeepsOtp (execGearPush t) := keepsOtp_ringCmd fun s => by
  unfold pacRefuse
  simp

theorem execGearSet_otp (t : Nat) : KeepsOtp (execGearSet t) := keepsOtp_ringCmd fun s => by
  unfold pacRefuse
  simp

theorem execGearClear_otp (t : Nat) : KeepsOtp (execGearClear t) := keepsOtp_ringCmd fun s => by
  unfold pacRefuse
  simp

theorem execHandoverArm_otp (t : Nat) (value : Word) : KeepsOtp (execHandoverArm t value) :=
  keepsOtp_ringCmd fun s => by
  unfold pacRefuse
  simp

theorem execHandoverCancel_otp (t : Nat) : KeepsOtp (execHandoverCancel t) := keepsOtp_ringCmd fun s => by simp

theorem execCourseTake_otp (t : Nat) (plane : Fin 8) : KeepsOtp (execCourseTake t plane) :=
  keepsOtp_ringCmd fun s => by
  split <;> simp

theorem execUnderrunDecision_otp (t : Nat) (plane : Fin 8) : KeepsOtp (execUnderrunDecision t plane) :=
  keepsOtp_ringCmd fun s => by
  (repeat' split) <;> simp

theorem execFireCommandSend_otp (t : Nat) (plane row : Fin 8) : KeepsOtp (execFireCommandSend t plane row) :=
  keepsOtp_ringCmd fun s => by
  dsimp only
  (repeat' split) <;> simp

theorem execFireRecompute_otp (t : Nat) : KeepsOtp (execFireRecompute t) := keepsOtp_ringCmd fun s => by
  split
  · exact otp_foldl (fun s x => by split <;> simp) _ _
  · exact unlockedPass_otp _

theorem execSlotInstantPassed_otp (t : Nat) (plane row : Fin 8) : KeepsOtp (execSlotInstantPassed t plane row) :=
  keepsOtp_ringCmd fun s => by
  split <;> simp

theorem execLaneDownRetrain_otp (t : Nat) (lane : Fin 64) : KeepsOtp (execLaneDownRetrain t lane) :=
  keepsOtp_ringCmd fun s => by
  (repeat' split) <;> simp

theorem execLaneTrainingDone_otp (t : Nat) (lane : Fin 64) (ok : Bool) : KeepsOtp (execLaneTrainingDone t lane ok) :=
  keepsOtp_ringCmd fun s => by
  split <;> simp

theorem execHelloFrame_otp (t : Nat) (lane : Fin 64) (hello : MlkHello) : KeepsOtp (execHelloFrame t lane hello) :=
  keepsOtp_ringCmd fun s => by
  split <;> simp

theorem execHelloTimeout_otp (t : Nat) (lane : Fin 64) : KeepsOtp (execHelloTimeout t lane) :=
  keepsOtp_ringCmd fun s => by simp

theorem execAckFrame_otp (t : Nat) (lane : Fin 64) (seq : Nat) : KeepsOtp (execAckFrame t lane seq) :=
  keepsOtp_ringCmd fun s => by
  dsimp only
  (repeat' split) <;> simp

theorem execSyncSend_otp (t : Nat) (lane : Fin 64) : KeepsOtp (execSyncSend t lane) :=
  keepsOtp_ringCmd fun s => by simp

theorem execSyncRespFrame_otp (t : Nat) (lane : Fin 64) (n h2 h3 t4 : Nat) :
    KeepsOtp (execSyncRespFrame t lane n h2 h3 t4) := keepsOtp_ringCmd fun s => by
  split <;> simp

theorem execSyncTimeout_otp (t : Nat) (lane : Fin 64) : KeepsOtp (execSyncTimeout t lane) :=
  keepsOtp_ringCmd fun s => by simp

theorem execIdentFrame_otp (t : Nat) (lane : Fin 64) (port : Nat) (record : Bytes) :
    KeepsOtp (execIdentFrame t lane port record) := keepsOtp_ringCmd fun s => by
  (repeat' split) <;> simp

theorem execStatusFrame_otp (t : Nat) (lane : Fin 64) (st : HubStatus) : KeepsOtp (execStatusFrame t lane st) :=
  keepsOtp_ringCmd fun s => by
  split <;> simp

theorem execReportFrame_otp (t : Nat) (hub : Fin 48) (first count : Nat) (bitmap : BitVec 64) :
    KeepsOtp (execReportFrame t hub first count bitmap) := keepsOtp_ringCmd fun s => by simp

theorem execSlotFaultFrame_otp (t : Nat) (hub : Fin 48) (slot cause : Nat) (ports : Word) :
    KeepsOtp (execSlotFaultFrame t hub slot cause ports) := keepsOtp_ringCmd fun s => by simp

theorem execReportTimeout_otp (t : Nat) (hub : Fin 48) (slot : Nat) : KeepsOtp (execReportTimeout t hub slot) :=
  keepsOtp_ringCmd fun s => by
  split <;> simp

theorem execNakFrame_otp (t : Nat) (lane : Fin 64) (cseq count : Nat) : KeepsOtp (execNakFrame t lane cseq count) :=
  keepsOtp_ringCmd fun s => by
  split <;> simp

theorem execRelRetransmit_otp (t : Nat) (lane : Fin 64) : KeepsOtp (execRelRetransmit t lane) :=
  keepsOtp_ringCmd fun s => by
  split <;> simp

theorem execPcsAlignmentLoss_otp (t : Nat) (lane : Fin 64) : KeepsOtp (execPcsAlignmentLoss t lane) :=
  keepsOtp_ringCmd fun s => by
  split <;> simp

theorem execEndpointMissing_otp (t : Nat) (ep : Fin 64) : KeepsOtp (execEndpointMissing t ep) :=
  keepsOtp_ringCmd fun s => by
  split <;> simp

theorem execTakeoverAckFrame_otp (t : Nat) (hub : Fin 48) (result wait digest : Nat) (rows : List TakeoverRow) :
    KeepsOtp (execTakeoverAckFrame t hub result wait digest rows) := keepsOtp_ringCmd fun s => by
  split <;> simp

theorem execTakeoverRepeat_otp (t : Nat) (hub : Fin 48) : KeepsOtp (execTakeoverRepeat t hub) :=
  keepsOtp_ringCmd fun s => by
  split <;> simp

theorem execKeepaliveSend_otp (t : Nat) (hub : Fin 48) : KeepsOtp (execKeepaliveSend t hub) :=
  keepsOtp_ringCmd fun s => by
  split <;> simp

theorem execPosrefSend_otp (t : Nat) : KeepsOtp (execPosrefSend t) :=
  keepsOtp_ringCmd fun s => otp_foldl (fun _ _ => by rfl) _ _

theorem execScanLineFrame_otp (t : Nat) (bridge : Fin 16) (frame : ScanFrame) :
    KeepsOtp (execScanLineFrame t bridge frame) := keepsOtp_ringCmd fun s => by
  dsimp only
  (repeat' split) <;> simp

theorem execScanLineIncomplete_otp (t : Nat) (bridge : Fin 16) (line : Nat) :
    KeepsOtp (execScanLineIncomplete t bridge line) := keepsOtp_ringCmd fun s => by
  split <;> simp

theorem execVlaneUpdate_otp (t : Nat) (octets : List (Nat × Nat)) : KeepsOtp (execVlaneUpdate t octets) :=
  keepsOtp_ringCmd fun s => by simp

theorem execRingSqTail_otp (t : Nat) (ring : RingId) (value : Nat) (fetch : Fetch) :
    KeepsOtp (execRingSqTail t ring value fetch) := keepsOtp_ringCmd fun s => by simp

theorem execRingEnable_otp (t : Nat) (ring : RingId) : KeepsOtp (execRingEnable t ring) :=
  keepsOtp_ringCmd fun s => by simp

theorem execRingDisable_otp (t : Nat) (ring : RingId) : KeepsOtp (execRingDisable t ring) :=
  keepsOtp_ringCmd fun s => by simp

theorem execRingCqHead_otp (t : Nat) (ring : RingId) (value : Nat) : KeepsOtp (execRingCqHead t ring value) :=
  keepsOtp_runUnless fun s => by split <;> simp

theorem execJobOpen_otp (t ctxReq jobId : Nat) : KeepsOtp (execJobOpen t ctxReq jobId) := keepsOtp_ringCmd fun s => by
  (repeat' split) <;> simp

theorem execJobLoad_otp (t : Nat) (ctx : Fin 64) (fromStore last : Bool) (address offset : Nat) (data : Bytes) (readCode : Nat) :
    KeepsOtp (execJobLoad t ctx fromStore last address offset data readCode) := keepsOtp_runUnless fun s => by
  split
  · split
    · simp
    · split <;> simp
  · rfl

theorem execJobArm_otp (t : Nat) (ctx : Fin 64) (castOn : Int) : KeepsOtp (execJobArm t ctx castOn) :=
  keepsOtp_ringCmd fun s => by
  split <;> simp

theorem execJobRecords_otp (t : Nat) (ctx : Fin 64) (address count bytes : Nat) (data : Bytes) :
    KeepsOtp (execJobRecords t ctx address count bytes data) := keepsOtp_ringCmd fun s => by
  dsimp only
  (repeat' split) <;> simp

theorem execJobCastOff_otp (t : Nat) (ctx : Fin 64) (last : Nat) : KeepsOtp (execJobCastOff t ctx last) :=
  keepsOtp_ringCmd fun s => by
  dsimp only
  split <;> simp

theorem execJobAbort_otp (t : Nat) (ring : RingId) (ctx : Fin 64) : KeepsOtp (execJobAbort t ring ctx) :=
  keepsOtp_ringCmd fun s => by simp

theorem execJobClose_otp (t : Nat) (ring : RingId) (ctx : Fin 64) : KeepsOtp (execJobClose t ring ctx) :=
  keepsOtp_ringCmd fun s => by simp

theorem execPowerEstimate_otp (t : Nat) (sample : PowerSample) : KeepsOtp (execPowerEstimate t sample) :=
  keepsOtp_run fun s => by simp

theorem execGrantAllocation_otp (t : Nat) : KeepsOtp (execGrantAllocation t) := keepsOtp_run fun s => by simp

theorem execClusterPowerOnDone_otp (t : Nat) (cluster : Fin 16) : KeepsOtp (execClusterPowerOnDone t cluster) :=
  keepsOtp_run fun s => by simp

theorem execOperatingPointChangeDone_otp (t : Nat) (cluster : Fin 16) :
    KeepsOtp (execOperatingPointChangeDone t cluster) := keepsOtp_run fun s => by
  dsimp only
  split <;> simp

theorem execSensorConversion_otp (t : Nat) (sensor : Fin 16) (temp16 : Int) :
    KeepsOtp (execSensorConversion t sensor temp16) := keepsOtp_run fun s => by simp

theorem execSliceDeal_otp (t : Nat) : KeepsOtp (execSliceDeal t) := keepsOtp_ringCmd fun s => by
  (repeat' split) <;> simp

theorem execSliceComplete_otp (t : Nat) (cluster : Fin 16) (cycles : Nat) :
    KeepsOtp (execSliceComplete t cluster cycles) := keepsOtp_ringCmd fun s => by
  dsimp only
  split
  · rfl
  · rw [drainCheck_otp, clusterFreed_otp]
    split <;> rfl

theorem execSliceTimeout_otp (t : Nat) (cluster : Fin 16) : KeepsOtp (execSliceTimeout t cluster) :=
  keepsOtp_ringCmd fun s => by simp

theorem execEngineRequestTimeout_otp (t : Nat) (engine : Fin 5) : KeepsOtp (execEngineRequestTimeout t engine) :=
  keepsOtp_ringCmd fun s => by
  dsimp only
  (repeat' split) <;> simp

theorem execVcompUpdate_otp (t : Nat) : KeepsOtp (execVcompUpdate t) := keepsOtp_ringCmd fun s => by simp

theorem execVcodeUpdate_otp (t : Nat) : KeepsOtp (execVcodeUpdate t) := keepsOtp_ringCmd fun s => by simp

theorem execKeyInstall_otp (t slot kind context : Nat) (label : Bytes) :
    KeepsOtp (execKeyInstall t slot kind context label) := keepsOtp_ringCmd fun s => by simp

theorem execNzmUpdEntry_otp (t : Nat) (value : Word) : KeepsOtp (execNzmUpdEntry t value) :=
  keepsOtp_ringCmd fun s => by simp

theorem execNzmCommit_otp (t : Nat) : KeepsOtp (execNzmCommit t) := keepsOtp_ringCmd fun s => by simp

theorem execNzmDiscard_otp (t : Nat) : KeepsOtp (execNzmDiscard t) := keepsOtp_ringCmd fun s => by simp

theorem execGenerationInstall_otp (t : Nat) (plane : Fin 8) : KeepsOtp (execGenerationInstall t plane) :=
  keepsOtp_ringCmd fun s => by
  split <;> simp

theorem execCourseScreen_otp (t : Nat) (plane : Fin 8) : KeepsOtp (execCourseScreen t plane) :=
  keepsOtp_ringCmd fun s => by
  (repeat' split) <;> simp

theorem execVfireUpdate_otp (t : Nat) : KeepsOtp (execVfireUpdate t) := keepsOtp_ringCmd fun s => by
  split <;> simp

theorem execSessionOpenChallenge_otp (t addr : Nat) : KeepsOtp (execSessionOpenChallenge t addr) :=
  keepsOtp_ringCmd fun s => by simp

theorem execSessionOpenResponse_otp (t chalId : Nat) (x y r sg : Bytes) :
    KeepsOtp (execSessionOpenResponse t chalId x y r sg) := keepsOtp_ringCmd fun s => by simp

theorem execSessionClose_otp (t : Nat) : KeepsOtp (execSessionClose t) := keepsOtp_ringCmd fun s => by simp

theorem execSessionIdleTimeout_otp (t : Nat) : KeepsOtp (execSessionIdleTimeout t) := keepsOtp_run fun s => by
  split <;> simp

theorem execOtpRdAddr_otp (t : Nat) (word : Fin 256) : KeepsOtp (execOtpRdAddr t word) :=
  keepsOtp_ringCmd fun s => by simp

theorem execOtpReadDone_otp (t : Nat) : KeepsOtp (execOtpReadDone t) := keepsOtp_run fun s => by
  split <;> simp

theorem execTamperInput_otp (t : Nat) (n : Fin 4) (lowUs : Nat) : KeepsOtp (execTamperInput t n lowUs) :=
  keepsOtp_run fun s => by simp

theorem execVoltageDetector_otp (t rail millivolts : Nat) : KeepsOtp (execVoltageDetector t rail millivolts) :=
  keepsOtp_run fun s => by simp

theorem execClockDetector_otp (t : Nat) (met : Bool) (permille : Nat) : KeepsOtp (execClockDetector t met permille) :=
  keepsOtp_run fun s => by simp

theorem execTemperatureDetector_otp (t : Nat) (celsius : Int) : KeepsOtp (execTemperatureDetector t celsius) :=
  keepsOtp_run fun s => by simp

theorem execSecTamperClear_otp (t : Nat) (value : Word) : KeepsOtp (execSecTamperClear t value) :=
  keepsOtp_ringCmd fun s => by simp

theorem execAuthFailCompletion_otp (t : Nat) : KeepsOtp (execAuthFailCompletion t) := keepsOtp_run fun s => by simp

theorem execLockstepMismatch_otp (t : Nat) : KeepsOtp (execLockstepMismatch t) := keepsOtp_run fun s => by simp

theorem execClkMetDeviation_otp (t permille : Nat) : KeepsOtp (execClkMetDeviation t permille) :=
  keepsOtp_run fun s => by simp

theorem execMetSealNEdge_otp (t : Nat) (high : Bool) (heldNs : Nat) : KeepsOtp (execMetSealNEdge t high heldNs) :=
  keepsOtp_run fun s => by
  dsimp only
  (repeat' split) <;> simp

theorem execWeighingPoll_otp (t : Nat) (port : Fin 4) : KeepsOtp (execWeighingPoll t port) := keepsOtp_run fun s => by
  split <;> simp

theorem execWeighingFrame_otp (t : Nat) (ch : Fin 16) (crcOk : Bool) (w : Weighing) :
    KeepsOtp (execWeighingFrame t ch crcOk w) := keepsOtp_run (chFrame_otp (takeFrame_otp _ _) _ _)

theorem execNoneFrame_otp (t : Nat) (ch : Fin 16) (crcOk : Bool) : KeepsOtp (execNoneFrame t ch crcOk) :=
  keepsOtp_run (chFrame_otp (fun _ => rfl) _ _)

theorem execErrorFrame_otp (t : Nat) (ch : Fin 16) (crcOk : Bool) (code : Nat) :
    KeepsOtp (execErrorFrame t ch crcOk code) := keepsOtp_run (chFrame_otp (fun _ => by rfl) _ _)

theorem execWeighingReplyTimeout_otp (t : Nat) (ch : Fin 16) : KeepsOtp (execWeighingReplyTimeout t ch) :=
  keepsOtp_run fun s => by
  dsimp only
  split <;> simp

theorem execPriceSet_otp (t : Nat) (entries : List (Nat × Nat)) : KeepsOtp (execPriceSet t entries) :=
  keepsOtp_ringCmd (mailbox_otp (fun s => by simp) _ _)

theorem execLaneMap_otp (t ctx : Nat) (entries : List (Nat × Nat)) : KeepsOtp (execLaneMap t ctx entries) :=
  keepsOtp_ringCmd (mailbox_otp (fun s => by simp) _ _)

theorem execChannelReset_otp (t ch : Nat) : KeepsOtp (execChannelReset t ch) :=
  keepsOtp_ringCmd (mailbox_otp (fun s => by simp) _ _)

theorem execAuditRelease_otp (t anum : Nat) (loss : Bool) : KeepsOtp (execAuditRelease t anum loss) :=
  keepsOtp_ringCmd (mailbox_otp (fun s => by dsimp only; split <;> simp) _ _)

theorem execCalRun_otp (t kind flags index : Nat) (arg : Int) (speed gauge : Nat) (precondition : Bool) :
    KeepsOtp (execCalRun t kind flags index arg speed gauge precondition) := keepsOtp_ringCmd fun s => by simp

theorem execCalMeasurementDone_otp (t : Nat) (m : CalMeasure) (storeOk : Bool) :
    KeepsOtp (execCalMeasurementDone t m storeOk) := keepsOtp_run fun s => by
  (repeat' split) <;> simp

theorem execCalRunTimeout_otp (t : Nat) : KeepsOtp (execCalRunTimeout t) := keepsOtp_run fun s => by
  split <;> simp

theorem execCalRead_otp (t kind flags index addr : Nat) : KeepsOtp (execCalRead t kind flags index addr) :=
  keepsOtp_ringCmd fun s => by
  dsimp only
  (repeat' split) <;> simp

theorem execStrLoadBegin_otp (t length : Nat) (header : Bytes) : KeepsOtp (execStrLoadBegin t length header) :=
  keepsOtp_ringCmd fun s => by
  dsimp only
  (repeat' split) <;> simp

theorem execStrLoadBlock_otp (t offset : Nat) (data : Bytes) : KeepsOtp (execStrLoadBlock t offset data) :=
  keepsOtp_ringCmd fun s => by
  (repeat' split) <;> simp

theorem execStrLoadEnd_otp (t : Nat) : KeepsOtp (execStrLoadEnd t) := keepsOtp_ringCmd fun s => by
  dsimp only
  (repeat' split) <;> simp

theorem execStrTransferTimeout_otp (t : Nat) : KeepsOtp (execStrTransferTimeout t) := keepsOtp_run fun s => by simp

theorem execStrActivate_otp (t slot : Nat) : KeepsOtp (execStrActivate t slot) := keepsOtp_ringCmd fun s => by simp

theorem execStrActivationDone_otp (t : Nat) (row : CheckRow) (installOk : Bool) :
    KeepsOtp (execStrActivationDone t row installOk) := keepsOtp_run fun s => by
  dsimp only
  (repeat' split) <;> simp

theorem execRstNRelease_otp (t : Nat) (env : BootEnv) : KeepsOtp (execRstNRelease t env) :=
  keepsOtp_run fun s => by simp

theorem execRstNAssert_otp (t _lowNs : Nat) : KeepsOtp (execRstNAssert t _lowNs) := keepsOtp_run fun s => by simp

theorem execAonPowerOn_otp (t : Nat) : KeepsOtp (execAonPowerOn t) := keepsOtp_run fun s => by simp

theorem execBootWatchdogExpiry_otp (t : Nat) (env : BootEnv) : KeepsOtp (execBootWatchdogExpiry t env) :=
  keepsOtp_run fun s => by simp

theorem execDevWarmReset_otp (t : Nat) (flags : Word) (env : BootEnv) : KeepsOtp (execDevWarmReset t flags env) :=
  keepsOtp_ringCmd fun s => by simp

theorem execWarmResetBrakeDone_otp (t : Nat) (env : BootEnv) : KeepsOtp (execWarmResetBrakeDone t env) :=
  keepsOtp_run fun s => by
  split <;> simp

theorem execModeSet_otp (t target : Nat) : KeepsOtp (execModeSet t target) := keepsOtp_ringCmd fun s => by simp

theorem execTrngReady_otp (t samples : Nat) : KeepsOtp (execTrngReady t samples) := keepsOtp_run fun s => by simp

theorem execEntropyWaitTimeout_otp (t : Nat) : KeepsOtp (execEntropyWaitTimeout t) := keepsOtp_run fun s => by
  split <;> simp

theorem execTrngTestFail_otp (t : Nat) : KeepsOtp (execTrngTestFail t) := keepsOtp_run fun s => by simp

theorem execSecTrngData_otp (t : Nat) : KeepsOtp (execSecTrngData t) := keepsOtp_run fun s => by simp

theorem execSramPatrolScrub_otp (t : Nat) (bank : Fin 128) (word : Nat) (found : PatrolFind) (env : BootEnv) :
    KeepsOtp (execSramPatrolScrub t bank word found env) := keepsOtp_ringCmd fun s => by
  (repeat' split) <;> simp

theorem execHbmPatrol_otp (t addr : Nat) (found : PatrolFind) : KeepsOtp (execHbmPatrol t addr found) :=
  keepsOtp_ringCmd fun s => by
  split <;> simp

theorem execHbmRefreshDouble_otp (t : Nat) (stack : Fin 4) (celsius : Int) :
    KeepsOtp (execHbmRefreshDouble t stack celsius) := keepsOtp_run fun s => by simp

theorem execMarchRun_otp (t first count alg mode : Nat) : KeepsOtp (execMarchRun t first count alg mode) :=
  keepsOtp_ringCmd fun s => by simp

theorem execMarchBankDone_otp (t : Nat) (outcome : MarchOutcome) (spares : Nat) (skipped : Bool) :
    KeepsOtp (execMarchBankDone t outcome spares skipped) := keepsOtp_ringCmd fun s => by
  split <;> simp

theorem execWipeVerifyDone_otp (t : Nat) (ok : Bool) : KeepsOtp (execWipeVerifyDone t ok) :=
  keepsOtp_run fun s => by simp

theorem execJsAttach_otp (t : Nat) (value : Word) (present : Bool) (lbaLog2 capacity : Nat) (protectionInfo : Bool) :
    KeepsOtp (execJsAttach t value present lbaLog2 capacity protectionInfo) := keepsOtp_ringCmd fun s => by simp

theorem execJsDetach_otp (t : Nat) (value : Word) : KeepsOtp (execJsDetach t value) :=
  keepsOtp_ringCmd fun s => by simp

theorem execNvmeReadTimeout_otp (t : Nat) (ctx : Fin 64) : KeepsOtp (execNvmeReadTimeout t ctx) :=
  keepsOtp_ringCmd fun s => by simp

theorem execDmaStart_otp (t : Nat) (ch : Fin 32) : KeepsOtp (execDmaStart t ch) := keepsOtp_ringCmd fun s => by simp

theorem execDmaAbort_otp (t : Nat) (ch : Fin 32) : KeepsOtp (execDmaAbort t ch) := keepsOtp_ringCmd fun s => by simp

theorem execDmaDbRd_otp (t : Nat) (ch : Fin 32) (reread : DmaDesc) : KeepsOtp (execDmaDbRd t ch reread) :=
  keepsOtp_ringCmd fun s => by simp

theorem execDmaDbWr_otp (t : Nat) (ch : Fin 32) (reread : DmaDesc) : KeepsOtp (execDmaDbWr t ch reread) :=
  keepsOtp_ringCmd fun s => by simp

theorem execDmaRequestLine_otp (t : Nat) (ch : Fin 32) (line : Nat) : KeepsOtp (execDmaRequestLine t ch line) :=
  keepsOtp_ringCmd fun s => by simp

theorem execDmaBurstComplete_otp (t : Nat) (ch : Fin 32) (burst : DmaBurst) :
    KeepsOtp (execDmaBurstComplete t ch burst) := keepsOtp_ringCmd fun s => by simp

theorem execDmaReadbackDone_otp (t : Nat) (ch : Fin 32) : KeepsOtp (execDmaReadbackDone t ch) :=
  keepsOtp_ringCmd fun s => by simp

theorem execDmaError_otp (t : Nat) (ch : Fin 32) (readSide : Bool) (err : DmaError) :
    KeepsOtp (execDmaError t ch readSide err) := keepsOtp_ringCmd fun s => by
  dsimp only
  (repeat' split) <;> simp

theorem execTokenBucketRefill_otp (t : Nat) (fab : Bool) : KeepsOtp (execTokenBucketRefill t fab) :=
  keepsOtp_run fun s => by
  dsimp only
  split
  · rw [drainBulk_otp]
    rfl
  · rfl

theorem execStepperUpdate_otp (t : Nat) (axis : Fin 16) : KeepsOtp (execStepperUpdate t axis) :=
  keepsOtp_run fun s => by
  dsimp only
  (repeat' split) <;> simp

theorem execStpTargetCommit_otp (t : Nat) (axis : Fin 16) (value : Word) :
    KeepsOtp (execStpTargetCommit t axis value) := keepsOtp_run fun s => by simp

theorem execStpVsetWrite_otp (t : Nat) (axis : Fin 16) (value : Word) : KeepsOtp (execStpVsetWrite t axis value) :=
  keepsOtp_run fun s => by simp

theorem execStpGo_otp (t : Nat) (axis : Fin 16) : KeepsOtp (execStpGo t axis) := keepsOtp_run fun s => by
  split <;> simp

theorem execStpModeChange_otp (t : Nat) (axis : Fin 16) (value : Word) : KeepsOtp (execStpModeChange t axis value) :=
  keepsOtp_run fun s => by simp

theorem execStpEnable_otp (t : Nat) (axis : Fin 16) : KeepsOtp (execStpEnable t axis) := keepsOtp_run fun s => by simp

theorem execStpEnClear_otp (t : Nat) (axis : Fin 16) : KeepsOtp (execStpEnClear t axis) :=
  keepsOtp_run fun s => by simp

theorem execStpStop_otp (t : Nat) (axis : Fin 16) : KeepsOtp (execStpStop t axis) := keepsOtp_run fun s => by simp

theorem execStpHalt_otp (t : Nat) (axis : Fin 16) : KeepsOtp (execStpHalt t axis) := keepsOtp_run fun s => by simp

theorem execStpPower_otp (t : Nat) (axis : Fin 16) (on : Bool) : KeepsOtp (execStpPower t axis on) :=
  keepsOtp_run fun s => by simp

theorem execStpFaultClr_otp (t : Nat) (axis : Fin 16) : KeepsOtp (execStpFaultClr t axis) :=
  keepsOtp_run fun s => by simp

theorem execStpClrUnsure_otp (t : Nat) (axis : Fin 16) : KeepsOtp (execStpClrUnsure t axis) :=
  keepsOtp_run fun s => by simp

theorem execStpSync_otp (t : Nat) (axis : Fin 16) : KeepsOtp (execStpSync t axis) := keepsOtp_run fun s => by simp

theorem execStpPosWrite_otp (t : Nat) (axis : Fin 16) (hi : Bool) (value : Word) :
    KeepsOtp (execStpPosWrite t axis hi value) := keepsOtp_run fun s => by simp

theorem execStpGearPush_otp (t : Nat) (axis : Fin 16) : KeepsOtp (execStpGearPush t axis) :=
  keepsOtp_run fun s => by simp

theorem execStpGearClear_otp (t : Nat) (axis : Fin 16) : KeepsOtp (execStpGearClear t axis) :=
  keepsOtp_run fun s => by simp

theorem execAxisHomeStepper_otp (t index : Nat) (vel : Int) (timeout : Nat) (homePos backoff : Int) (ihome : Nat) :
    KeepsOtp (execAxisHomeStepper t index vel timeout homePos backoff ihome) := keepsOtp_ringCmd fun s => by
  rw [admitCmd_otp]
  split
  · dsimp only
    simp
  · rfl

theorem execStpHomeTimeout_otp (t : Nat) (axis : Fin 16) : KeepsOtp (execStpHomeTimeout t axis) :=
  keepsOtp_run fun s => by
  split <;> simp

theorem execChopperTrip_otp (t : Nat) (axis : Fin 16) (phaseB : Bool) (microvolts : Nat) :
    KeepsOtp (execChopperTrip t axis phaseB microvolts) := keepsOtp_run fun s => by simp

theorem execChopperOffTimeEnd_otp (t : Nat) (axis : Fin 16) (phaseB : Bool) :
    KeepsOtp (execChopperOffTimeEnd t axis phaseB) := keepsOtp_run fun s => by
  dsimp only
  split <;> simp

theorem execDrivePhaseTimeout_otp (t : Nat) (axis : Fin 16) (phaseB : Bool) :
    KeepsOtp (execDrivePhaseTimeout t axis phaseB) := keepsOtp_run fun s => by simp

theorem execHoldDelayExpiry_otp (t : Nat) (axis : Fin 16) : KeepsOtp (execHoldDelayExpiry t axis) :=
  keepsOtp_run fun s => by
  dsimp only
  split <;> simp

theorem execStpDriverFault_otp (t : Nat) (axis : Fin 16) (lowNs : Nat) : KeepsOtp (execStpDriverFault t axis lowNs) :=
  keepsOtp_run fun s => by simp

theorem execEncCfgWrite_otp (t : Nat) (n : Fin 16) (value : Word) : KeepsOtp (execEncCfgWrite t n value) :=
  keepsOtp_run fun s => by simp

theorem execEncoderInputChange_otp (t : Nat) (n : Fin 16) (a b : Bool) : KeepsOtp (execEncoderInputChange t n a b) :=
  keepsOtp_run fun s => by simp

theorem execMinspAccept_otp (t : Nat) (n : Fin 16) : KeepsOtp (execMinspAccept t n) := keepsOtp_run fun s => by simp

theorem execIndexPulse_otp (t : Nat) (n : Fin 16) (heldNs : Nat) : KeepsOtp (execIndexPulse t n heldNs) :=
  keepsOtp_run fun s => by simp

theorem execLockTimeout_otp (t : Nat) : KeepsOtp (execLockTimeout t) := keepsOtp_run fun s => by simp

theorem execXlkHelloFrame_otp (t : Nat) (port : Fin 32) (hello : XlkHello) :
    KeepsOtp (execXlkHelloFrame t port hello) := keepsOtp_ringCmd fun s => by simp

theorem execXlkHelloTimeout_otp (t : Nat) (port : Fin 32) : KeepsOtp (execXlkHelloTimeout t port) :=
  keepsOtp_ringCmd fun s => by simp

theorem execRootConverged_otp (t : Nat) (found : List (Nat × Nat)) : KeepsOtp (execRootConverged t found) :=
  keepsOtp_ringCmd fun s => by
  dsimp only
  (repeat' split) <;> simp

theorem execAssignFrame_otp (t unitId_ addr topoGen : Nat) : KeepsOtp (execAssignFrame t unitId_ addr topoGen) :=
  keepsOtp_ringCmd fun s => by simp

theorem execAddressHoldExpiry_otp (t unitId_ : Nat) : KeepsOtp (execAddressHoldExpiry t unitId_) :=
  keepsOtp_ringCmd fun s => by simp

theorem execLinkstateSend_otp (t : Nat) : KeepsOtp (execLinkstateSend t) := keepsOtp_ringCmd fun s => by simp

theorem execLinkstateFrame_otp (t src topoGen : Nat) (entries : List LinkEntry) :
    KeepsOtp (execLinkstateFrame t src topoGen entries) := keepsOtp_ringCmd fun s => by simp

theorem execFabricRescan_otp (t : Nat) (found : List (Nat × Nat)) (peerBusy : Bool) :
    KeepsOtp (execFabricRescan t found peerBusy) := keepsOtp_ringCmd fun s => by simp

theorem execRescanFrame_otp (t topoGen : Nat) : KeepsOtp (execRescanFrame t topoGen) :=
  keepsOtp_ringCmd fun s => by simp

theorem execXlkSyncSend_otp (t : Nat) : KeepsOtp (execXlkSyncSend t) := keepsOtp_ringCmd fun s => by simp

theorem execXlkSyncFrame_otp (t : Nat) (port : Fin 32) (frame : SyncFrame) : KeepsOtp (execXlkSyncFrame t port frame) :=
  keepsOtp_ringCmd fun s => by
  split <;> simp

theorem execSyncFollowTimeout_otp (t : Nat) : KeepsOtp (execSyncFollowTimeout t) := keepsOtp_ringCmd fun s => by simp

theorem execTimePpsEdge_otp (t highNs : Nat) : KeepsOtp (execTimePpsEdge t highNs) :=
  keepsOtp_ringCmd fun s => by simp

theorem execPositionBroadcast_otp (t : Nat) : KeepsOtp (execPositionBroadcast t) := keepsOtp_ringCmd fun s => by simp

theorem execPositionFrame_otp (t : Nat) (frame : PositionFrame) : KeepsOtp (execPositionFrame t frame) :=
  keepsOtp_ringCmd fun s => by simp

theorem execPositionSilence_otp (t : Nat) : KeepsOtp (execPositionSilence t) := keepsOtp_ringCmd fun s => by
  dsimp only
  (repeat' split) <;> simp

theorem execPeerStateSend_otp (t : Nat) : KeepsOtp (execPeerStateSend t) := keepsOtp_ringCmd fun s => by simp

theorem execPeerStateFrame_otp (t : Nat) (frame : PeerState) : KeepsOtp (execPeerStateFrame t frame) :=
  keepsOtp_ringCmd fun s => by simp

theorem execBindFrame_otp (t : Nat) (ctx : Fin 64) (laneIdx rpt : Nat) (entries : List BindEntry) :
    KeepsOtp (execBindFrame t ctx laneIdx rpt entries) := keepsOtp_ringCmd fun s => by
  dsimp only
  split <;> simp

theorem execBindReqFrame_otp (t : Nat) (ctx : Fin 64) (laneIdx rpt : Nat) :
    KeepsOtp (execBindReqFrame t ctx laneIdx rpt) := keepsOtp_ringCmd fun s => by
  split <;> simp

theorem execPartialFrame_otp (t src : Nat) (ctx : Fin 64) (seq planes codes : Nat) :
    KeepsOtp (execPartialFrame t src ctx seq planes codes) := keepsOtp_ringCmd fun s => by simp

theorem execPartialTimeout_otp (t : Nat) (ctx : Fin 64) (seq : Nat) : KeepsOtp (execPartialTimeout t ctx seq) :=
  keepsOtp_ringCmd fun s => by simp

theorem execBulkdataFrame_otp (t : Nat) (port : Fin 32) (src dst hops bytes : Nat) :
    KeepsOtp (execBulkdataFrame t port src dst hops bytes) := keepsOtp_ringCmd fun s => by
  split
  · exact bulkBroadcast_otp _ _ _ _ _
  · split
    · rfl
    · split <;> simp

theorem execGovUpdate_otp (t : Nat) : KeepsOtp (execGovUpdate t) := keepsOtp_ringCmd fun s => by simp

theorem execGovOverspeed_otp (t : Nat) : KeepsOtp (execGovOverspeed t) := keepsOtp_ringCmd fun s => by simp

theorem execGovPeerSilent_otp (t : Nat) (peer : Fin 256) : KeepsOtp (execGovPeerSilent t peer) :=
  keepsOtp_ringCmd fun s => by simp

theorem execUpdBegin_otp (t cls length : Nat) (header : Bytes) : KeepsOtp (execUpdBegin t cls length header) :=
  keepsOtp_ringCmd fun s => by
  rw [admitCmd_otp]
  split
  · split <;> simp
  · rfl

theorem execUpdBlock_otp (t offset : Nat) (data : Bytes) : KeepsOtp (execUpdBlock t offset data) :=
  keepsOtp_ringCmd fun s => by
  (repeat' split) <;> simp

theorem execUpdEnd_otp (t : Nat) : KeepsOtp (execUpdEnd t) := keepsOtp_ringCmd fun s => by
  (repeat' split) <;> simp

theorem execUpdTransferTimeout_otp (t : Nat) : KeepsOtp (execUpdTransferTimeout t) := keepsOtp_run fun s => by simp

theorem execTrialExpiry_otp (t : Nat) (env : BootEnv) : KeepsOtp (execTrialExpiry t env) :=
  keepsOtp_run fun s => by simp

theorem execUpdRecGo_otp (t : Nat) (row : CheckRow) (header : Bytes) (env : BootEnv) :
    KeepsOtp (execUpdRecGo t row header env) := keepsOtp_run fun s => by simp

theorem execRecoveryUartBegin_otp (t length : Nat) (header : Bytes) (crcOk : Bool) :
    KeepsOtp (execRecoveryUartBegin t length header crcOk) :=
  keepsOtp_run (uartFrame_otp (fun s => by split <;> simp) _)

theorem execRecoveryUartBlock_otp (t offset : Nat) (data : Bytes) (crcOk : Bool) :
    KeepsOtp (execRecoveryUartBlock t offset data crcOk) := keepsOtp_run (uartFrame_otp (fun s => by
  split
  · rfl
  · split <;> simp) _)

theorem execRecoveryUartEnd_otp (t : Nat) (crcOk : Bool) (env : BootEnv) : KeepsOtp (execRecoveryUartEnd t crcOk env) :=
  keepsOtp_run (uartFrame_otp (fun s => by
  split
  · rfl
  · split <;> simp) _)

theorem execLogAdmission_otp (t : Nat) : KeepsOtp (execLogAdmission t) := keepsOtp_run fun s => by simp

theorem execItemHoldExpiry_otp (t : Nat) (ctx : Fin 64) (seq : Nat) : KeepsOtp (execItemHoldExpiry t ctx seq) :=
  keepsOtp_run fun s => by simp

theorem execSummaryTimer_otp (t : Nat) : KeepsOtp (execSummaryTimer t) := keepsOtp_run fun s => by simp

theorem execLogDrain_otp (t count : Nat) (readbackOk lost : Bool) : KeepsOtp (execLogDrain t count readbackOk lost) :=
  keepsOtp_ringCmd fun s => by simp

theorem execLogReadbackRetry_otp (t : Nat) (readbackOk : Bool) : KeepsOtp (execLogReadbackRetry t readbackOk) :=
  keepsOtp_ringCmd fun s => by
  split <;> simp

theorem execLogCtrlEnable_otp (t : Nat) : KeepsOtp (execLogCtrlEnable t) := keepsOtp_ringCmd fun s => by simp

theorem execLogCtrlDisable_otp (t : Nat) : KeepsOtp (execLogCtrlDisable t) := keepsOtp_ringCmd fun s => by simp

theorem execLogHostRd_otp (t value : Nat) : KeepsOtp (execLogHostRd t value) :=
  keepsOtp_runUnless fun s => by split <;> simp

theorem execCoalesceTimeout_otp (t : Nat) : KeepsOtp (execCoalesceTimeout t) := keepsOtp_ringCmd fun s => by
  split <;> simp

theorem execSemAcquire_otp (t : Nat) (n : Fin 64) (func inst tag : Byte) :
    KeepsOtp (execSemAcquire t n func inst tag) := keepsOtp_ringCmd fun s => by simp

theorem execSemRelease_otp (t : Nat) (n : Fin 64) (func inst tag : Byte) :
    KeepsOtp (execSemRelease t n func inst tag) := keepsOtp_ringCmd fun s => by simp

theorem execLineAnalysis_otp (t : Nat) (bridge : Fin 16) (cycles : Nat) : KeepsOtp (execLineAnalysis t bridge cycles) :=
  keepsOtp_ringCmd fun s => by
  split <;> simp

theorem execVerdictDeadline_otp (t : Nat) (ctx : Fin 64) (seq : Nat) : KeepsOtp (execVerdictDeadline t ctx seq) :=
  keepsOtp_ringCmd fun s => by
  split <;> simp

theorem execVinspUpdate_otp (t : Nat) : KeepsOtp (execVinspUpdate t) := keepsOtp_ringCmd fun s => by simp

theorem execFuncReinit_otp (t func inst : Nat) (restarted : Bool) : KeepsOtp (execFuncReinit t func inst restarted) :=
  keepsOtp_ringCmd fun s => by simp

theorem execPioFuncWrite_otp (t : Nat) (m : Fin 64) (value : Word) : KeepsOtp (execPioFuncWrite t m value) :=
  keepsOtp_ringCmd fun s => by simp

theorem execGpioInputEdge_otp (t : Nat) (m : Fin 64) (high : Bool) : KeepsOtp (execGpioInputEdge t m high) :=
  keepsOtp_ringCmd fun s => by simp

theorem execQrefLoss_otp (t : Nat) (quad : Fin 16) : KeepsOtp (execQrefLoss t quad) := keepsOtp_run fun s => by
  dsimp only
  split
  · rw [otp_foldl]
    · simp
    · intro s k
      split <;> split <;> simp
  · simp

theorem execQrefRestored_otp (t : Nat) (quad : Fin 16) : KeepsOtp (execQrefRestored t quad) :=
  keepsOtp_run fun s => by simp

theorem execFlr_otp (t : Nat) : KeepsOtp (execFlr t) := keepsOtp_run fun s => by simp

theorem execPerstNAssert_otp (t : Nat) : KeepsOtp (execPerstNAssert t) := keepsOtp_run fun s => by
  dsimp only
  (repeat' split) <;> simp

theorem execPerstNRelease_otp (t speed width : Nat) : KeepsOtp (execPerstNRelease t speed width) :=
  keepsOtp_run fun s => by
  dsimp only
  split <;> simp

theorem execEndpointLinkDown_otp (t : Nat) : KeepsOtp (execEndpointLinkDown t) := keepsOtp_run fun s => by simp

theorem execPcieCompletionTimeout_otp (t : Nat) (requester : RingId ⊕ Fin 32 ⊕ Unit) (onFetch : Bool) :
    KeepsOtp (execPcieCompletionTimeout t requester onFetch) := keepsOtp_ringCmd fun s => by
  split <;> simp

theorem execRootPortLinkLoss_otp (t : Nat) : KeepsOtp (execRootPortLinkLoss t) := keepsOtp_run fun s => by simp

theorem execRootPortLinkUp_otp (t speed width controllers : Nat) :
    KeepsOtp (execRootPortLinkUp t speed width controllers) := keepsOtp_run fun s => by simp

theorem execI2cGo_otp (t : Nat) (port : Fin 2) (value : Word) : KeepsOtp (execI2cGo t port value) :=
  keepsOtp_ringCmd fun s => by simp

theorem execI2cTransferDone_otp (t : Nat) (port : Fin 2) (nack arbLost : Bool) (received : Nat) :
    KeepsOtp (execI2cTransferDone t port nack arbLost received) := keepsOtp_ringCmd fun s => by simp

theorem execI2cSclTimeout_otp (t : Nat) (port : Fin 2) : KeepsOtp (execI2cSclTimeout t port) :=
  keepsOtp_ringCmd fun s => by simp

theorem execUartReceive_otp (t : Nat) (port : Fin 2) (ch : Byte) (stopOk parityOk : Bool) :
    KeepsOtp (execUartReceive t port ch stopOk parityOk) := keepsOtp_ringCmd fun s => by
  (repeat' split) <;> simp

theorem execTapInstruction_otp (t : Nat) (instr : TapInstr) : KeepsOtp (execTapInstruction t instr) :=
  keepsOtp_run fun s => by simp

theorem execHeartbeatSend_otp (t : Nat) : KeepsOtp (execHeartbeatSend t) := keepsOtp_ringCmd fun s => by simp

theorem execSwapFrame_otp (t : Nat) (x : Int) (epoch : Nat) (step : SwapStep) :
    KeepsOtp (execSwapFrame t x epoch step) := keepsOtp_ringCmd fun s => by
  split <;> simp

theorem execPairRoleSwap_otp (t : Nat) : KeepsOtp (execPairRoleSwap t) := keepsOtp_ringCmd fun s => by simp

theorem execPairRoleRecompare_otp (t : Nat) : KeepsOtp (execPairRoleRecompare t) := keepsOtp_ringCmd fun s => by simp

theorem execHeartbeatFrame_otp (t : Nat) (hb : Heartbeat) : KeepsOtp (execHeartbeatFrame t hb) :=
  keepsOtp_ringCmd fun s => by simp

theorem execCompareFrame_otp (t : Nat) (digests : List Nat) : KeepsOtp (execCompareFrame t digests) :=
  keepsOtp_ringCmd fun s => by simp

theorem execRcheckFrame_otp (t : Nat) (ctx : Fin 64) (package : Bool) (count firstSeq crc : Nat) :
    KeepsOtp (execRcheckFrame t ctx package count firstSeq crc) := keepsOtp_ringCmd fun s => by simp

theorem execMirrorFrame_otp (t : Nat) (frame : MirrorFrame) : KeepsOtp (execMirrorFrame t frame) :=
  keepsOtp_ringCmd fun s => by
  (repeat' split) <;> simp

theorem execHeartbeatLoss_otp (t : Nat) : KeepsOtp (execHeartbeatLoss t) := keepsOtp_ringCmd fun s => by
  dsimp only
  (repeat' split) <;> simp

theorem execTakeoverRefusedAbandon_otp (t : Nat) : KeepsOtp (execTakeoverRefusedAbandon t) :=
  keepsOtp_ringCmd fun s => by simp

theorem execLeadReqEdge_otp (t : Nat) (high : Bool) (heldNs : Nat) : KeepsOtp (execLeadReqEdge t high heldNs) :=
  keepsOtp_ringCmd fun s => by simp

theorem execLeadReqConflict_otp (t : Nat) : KeepsOtp (execLeadReqConflict t) := keepsOtp_ringCmd fun s => by simp

theorem andThen_otp {act : State → Res} (h : KeepsOtp act) (s : State) : (andThen s act).otp = s.otp := by
  unfold andThen
  cases hs : act s with
  | next s' => exact h s s' hs
  | _ => rfl

theorem foldl_andThen_otp {acts : List (State → Res)} (h : ∀ act ∈ acts, KeepsOtp act) (s : State) :
    (acts.foldl andThen s).otp = s.otp := by
  induction acts generalizing s with
  | nil => rfl
  | cons act acts ih =>
    rw [List.foldl_cons, ih fun a ha => h a (List.mem_cons_of_mem _ ha)]
    exact andThen_otp (h act List.mem_cons_self) s

theorem actions_otp {acts : List (State → Res)} (h : ∀ act ∈ acts, KeepsOtp act) (err : RegSpec) (i : Nat) (s : State) :
    (actions err i acts s).otp = s.otp := by
  unfold actions
  dsimp only
  split
  · rw [State.setFld_otp, foldl_andThen_otp h, State.setFld_otp]
  · rfl

/-- An action chosen by a bit of the value is that action. -/
theorem eq_of_mem_onBit {value : Word} {b : Nat} {act a : State → Res} (h : a ∈ onBit value b act) : a = act := by
  unfold onBit at h
  split at h
  · exact List.mem_singleton.mp h
  · cases h

theorem keepsOtp_onBit {act : State → Res} (h : KeepsOtp act) (value : Word) (b : Nat) :
    ∀ a ∈ onBit value b act, KeepsOtp a := fun _ ha => eq_of_mem_onBit ha ▸ h

theorem keepsOtp_append {l l' : List (State → Res)} (h : ∀ a ∈ l, KeepsOtp a) (h' : ∀ a ∈ l', KeepsOtp a) :
    ∀ a ∈ l ++ l', KeepsOtp a := fun a ha => (List.mem_append.mp ha).elim (h a) (h' a)

theorem keepsOtp_ite {c : Prop} [Decidable c] {l l' : List (State → Res)} (h : ∀ a ∈ l, KeepsOtp a)
    (h' : ∀ a ∈ l', KeepsOtp a) : ∀ a ∈ (if c then l else l'), KeepsOtp a := by
  split
  · exact h
  · exact h'

theorem keepsOtp_nil : ∀ a ∈ ([] : List (State → Res)), KeepsOtp a := fun _ h => absurd h List.not_mem_nil

theorem keepsOtp_singleton {act : State → Res} (h : KeepsOtp act) : ∀ a ∈ [act], KeepsOtp a :=
  fun _ ha => List.mem_singleton.mp ha ▸ h

@[simp] theorem writeDevCtrl_otp (value : Word) (s : State) : (writeDevCtrl value s).otp = s.otp := by
  rw [writeDevCtrl, foldl_andThen_otp, State.setFld_otp]
  exact keepsOtp_append (keepsOtp_onBit (execHoldReq_otp _ _) _ _) (keepsOtp_onBit (execHoldClr_otp _) _ _)

@[simp] theorem writeNzmCtrl_otp (value : Word) (s : State) : (writeNzmCtrl value s).otp = s.otp := by
  rw [writeNzmCtrl]
  split
  · exact nzmSet_otp _ _
  · rw [foldl_andThen_otp, State.wr_otp]
    exact keepsOtp_append (keepsOtp_onBit (execNzmDiscard_otp _) _ _) (keepsOtp_onBit (execNzmCommit_otp _) _ _)

@[simp] theorem newCandidate_otp (value : Word) (s : State) : (newCandidate value s).otp = s.otp := by
  simp [newCandidate]

@[simp] theorem writeWgSlot_otp (m : Nat) (value : Word) (s : State) : (writeWgSlot m value s).otp = s.otp := by
  simp [writeWgSlot]

@[simp] theorem writeWindow_otp (o : Nat) (value : Word) (s : State) : (writeWindow o value s).otp = s.otp := by
  unfold writeWindow
  split <;> rfl

@[simp] theorem writeSemOp_otp (n : Fin 64) (value : Word) (s : State) : (writeSemOp n value s).otp = s.otp := by
  unfold writeSemOp
  dsimp only
  split
  · exact andThen_otp (execSemAcquire_otp _ _ _ _ _) s
  · exact andThen_otp (execSemRelease_otp _ _ _ _ _) s
  · rfl

@[simp] theorem writeDmaCtrl_otp (n : Fin 32) (value : Word) (s : State) : (writeDmaCtrl n value s).otp = s.otp :=
  actions_otp (keepsOtp_append (keepsOtp_onBit (execDmaStart_otp _ _) _ _) (keepsOtp_onBit (execDmaAbort_otp _ _) _ _)) _ _ s

@[simp] theorem writeBaCtrl_otp (n : Fin 8) (value : Word) (s : State) : (writeBaCtrl n value s).otp = s.otp :=
  actions_otp (keepsOtp_append (keepsOtp_append
    (keepsOtp_ite keepsOtp_nil (keepsOtp_ite (keepsOtp_singleton (execBaEnable_otp _ _))
      (keepsOtp_singleton (execBaDisable_otp _ _))))
    (keepsOtp_onBit (execBaFaultClr_otp _ _) _ _)) (keepsOtp_onBit (execBaOpen_otp _ _) _ _)) _ _ s

@[simp] theorem writeStpCtrl_otp (n : Fin 16) (value : Word) (s : State) : (writeStpCtrl n value s).otp = s.otp := by
  have power : ∀ a ∈ (if value.getLsbD 1 == (s.stp[n]).power then [] else [execStpPower s.now n (value.getLsbD 1)]), KeepsOtp a :=
    keepsOtp_ite keepsOtp_nil (keepsOtp_singleton (execStpPower_otp _ _ _))
  have enable : ∀ a ∈ (if value.getLsbD 0 == (s.stp[n]).en then [] else if value.getLsbD 0 then [execStpEnable s.now n]
      else [execStpEnClear s.now n]), KeepsOtp a :=
    keepsOtp_ite keepsOtp_nil (keepsOtp_ite (keepsOtp_singleton (execStpEnable_otp _ _))
      (keepsOtp_singleton (execStpEnClear_otp _ _)))
  refine actions_otp (keepsOtp_ite ?_ ?_) _ _ s
  · exact keepsOtp_append (keepsOtp_append (keepsOtp_singleton (execStpStop_otp _ _)) (keepsOtp_ite keepsOtp_nil enable))
      (keepsOtp_ite keepsOtp_nil power)
  · exact keepsOtp_append (keepsOtp_append (keepsOtp_append (keepsOtp_append (keepsOtp_append
      (keepsOtp_ite (keepsOtp_append power enable) (keepsOtp_append enable power))
      (keepsOtp_onBit (execStpGo_otp _ _) _ _)) (keepsOtp_onBit (execStpHalt_otp _ _) _ _))
      (keepsOtp_onBit (execStpFaultClr_otp _ _) _ _)) (keepsOtp_onBit (execStpClrUnsure_otp _ _) _ _))
      (keepsOtp_onBit (execStpSync_otp _ _) _ _)

theorem writeRingCfg_otp (id : RingId) (r : RegSpec) (i : Nat) (value : Word) (s : State) :
    (writeRingCfg id r i value s).otp = s.otp := by
  unfold writeRingCfg
  extract_lets s₁ s₂
  have h₂ : s₂.otp = s.otp := by
    change (if (s₁.ring id).enable then s₁ else s₁.setFld r i 3 0 (bitsOf value 3 0)).otp = _
    split <;> rfl
  split
  · exact (andThen_otp (execRingEnable_otp _ _) s₂).trans h₂
  · split
    · exact (andThen_otp (execRingDisable_otp _ _) s₂).trans h₂
    · exact h₂

@[simp] theorem pairMember_otp (was : Nat) (s : State) : (pairMember was s).otp = s.otp := by
  unfold pairMember
  split <;> rfl

@[simp] theorem unmask_otp (v : Nat) (s : State) : (unmask v s).otp = s.otp := by
  unfold unmask
  split <;> rfl

@[simp] theorem afterWrite_otp (r : RegSpec) (i : Nat) (old : Word) (s : State) : (afterWrite r i old s).otp = s.otp := by
  unfold afterWrite
  split_ifs <;> simp

@[simp] theorem refuseWrite_otp (r : RegSpec) (addr : Nat) (st : Status) (s : State) :
    (refuseWrite r addr st s).otp = s.otp := by
  have herr : ∀ e : Option (RegSpec × Nat × Nat),
      (match e with
        | some e => s.recordErr e.1 e.2.1 e.2.2 st
        | none => s).otp = s.otp := by
    rintro (_ | e)
    · rfl
    · exact State.recordErr_otp _ _ _ _ _
  rw [refuseWrite, otp_ite, otp_ite, when_otp, when_otp]
  split
  · split <;> rfl
  · split
    · split
      · exact diag_otp _ _ _ _ _ _
      · rfl
    · exact herr _

@[simp] theorem writeWord_otp (r : RegSpec) (i addr : Nat) (value : Word) (s : State) :
    (writeWord r i addr value s).otp = s.otp := by
  unfold writeWord
  split <;> simp

/-- A choice that answers a state answers it on one of its sides. -/
theorem of_ite_eq_some {c : Prop} [Decidable c] {a b : Option State} {s' : State} {P : Prop}
    (h : (if c then a else b) = some s') (ha : a = some s' → P) (hb : b = some s' → P) : P := by
  split at h
  · exact ha h
  · exact hb h

/-- A state that is answered keeps what the answer keeps. -/
theorem otp_of_some_eq {a s s' : State} (ha : a.otp = s.otp) (h : some a = some s') : s'.otp = s.otp :=
  Option.some.inj h ▸ ha

theorem actingPrivileged_otp {addr : Nat} {value : Word} {s s' : State} (h : actingPrivileged addr value s = some s') :
    s'.otp = s.otp :=
  of_ite_eq_some h (otp_of_some_eq (writeDevCtrl_otp _ _)) fun h =>
  of_ite_eq_some h (otp_of_some_eq (andThen_otp (execNzmUpdEntry_otp _ _) s)) fun h =>
  of_ite_eq_some h (fun h => of_ite_eq_some h (otp_of_some_eq (writeNzmCtrl_otp _ _)) nofun) fun h =>
  of_ite_eq_some h (otp_of_some_eq (actions_otp (keepsOtp_append (keepsOtp_onBit (execPacZero_otp _) _ _)
    (keepsOtp_onBit (execHandoverCancel_otp _) _ _)) _ _ s)) fun h =>
  of_ite_eq_some h (otp_of_some_eq (andThen_otp (execPacSrcWrite_otp _ _) s)) fun h =>
  of_ite_eq_some h (otp_of_some_eq (by
    split
    · exact andThen_otp (execHandoverArm_otp _ _) s
    · exact newCandidate_otp _ _)) fun h =>
  of_ite_eq_some h (otp_of_some_eq (actions_otp (keepsOtp_append (keepsOtp_append (keepsOtp_onBit (execGearPush_otp _) _ _)
    (keepsOtp_onBit (execGearSet_otp _) _ _)) (keepsOtp_onBit (execGearClear_otp _) _ _)) _ _ s)) fun h =>
  of_ite_eq_some h (otp_of_some_eq (actions_otp (keepsOtp_append (keepsOtp_onBit (execWavTblWrite_otp _) _ _)
    (keepsOtp_onBit (execWavTblRead_otp _) _ _)) _ _ s)) fun h =>
  of_ite_eq_some h (otp_of_some_eq (andThen_otp (execWgActiveSlotWrite_otp _ _) s)) fun h =>
  of_ite_eq_some h (otp_of_some_eq (writeWgSlot_otp _ _ _)) fun h =>
  of_ite_eq_some h (otp_of_some_eq (by
    split
    · rfl
    · exact andThen_otp (execJsDetach_otp _ _) s)) fun h =>
  of_ite_eq_some h (otp_of_some_eq (by split <;> rfl)) fun h =>
  of_ite_eq_some h (otp_of_some_eq (andThen_otp (execSecTamperClear_otp _ _) s)) fun h =>
  of_ite_eq_some h (otp_of_some_eq (writeWindow_otp _ _ _)) fun h =>
  of_ite_eq_some h (otp_of_some_eq (andThen_otp (execOtpRdAddr_otp _ _) s)) fun h =>
  of_ite_eq_some h (otp_of_some_eq (andThen_otp (by
    split
    · exact execLogCtrlEnable_otp _
    · exact execLogCtrlDisable_otp _) s)) fun h =>
  of_ite_eq_some h (otp_of_some_eq (writeSemOp_otp _ _ _)) fun h =>
  of_ite_eq_some h (otp_of_some_eq (andThen_otp (execPioFuncWrite_otp _ _ _) s)) fun h =>
  of_ite_eq_some h (otp_of_some_eq (andThen_otp (execI2cGo_otp _ _ _) s)) nofun

theorem actingInstance_otp {addr : Nat} {value : Word} {s s' : State} (h : actingInstance addr value s = some s') :
    s'.otp = s.otp := by
  refine of_ite_eq_some h (otp_of_some_eq (writeDmaCtrl_otp _ _ _)) fun h => ?_
  refine of_ite_eq_some h (fun h => ?_) fun h => of_ite_eq_some h (fun h => ?_) fun h =>
    of_ite_eq_some h (otp_of_some_eq (andThen_otp (execEncCfgWrite_otp _ _ _) s)) nofun
  · dsimp only at h
    split at h
    · exact otp_of_some_eq (writeBaCtrl_otp _ _ _) h
    · exact otp_of_some_eq (andThen_otp (execBaSetpoint_otp _ _ _) s) h
    · cases h
  · dsimp only at h
    split at h
    · exact otp_of_some_eq (writeStpCtrl_otp _ _ _) h
    · exact otp_of_some_eq (andThen_otp (execStpModeChange_otp _ _ _) s) h
    · exact otp_of_some_eq (andThen_otp (execStpVsetWrite_otp _ _ _) s) h
    · exact otp_of_some_eq (andThen_otp (execStpTargetCommit_otp _ _ _) s) h
    · exact otp_of_some_eq (andThen_otp (execStpPosWrite_otp _ _ _ _) s) h
    · exact otp_of_some_eq (andThen_otp (execStpPosWrite_otp _ _ _ _) s) h
    · exact otp_of_some_eq (actions_otp (keepsOtp_append (keepsOtp_onBit (execStpGearPush_otp _ _) _ _)
        (keepsOtp_onBit (execStpGearClear_otp _ _) _ _)) _ _ s) h
    · cases h

theorem writeRegister_otp (addr : Nat) (value : Word) (s : State) : (writeRegister addr value s).otp = s.otp := by
  unfold writeRegister
  split
  · rfl
  · split
    · exact actingPrivileged_otp ‹_›
    · split
      · exact actingInstance_otp ‹_›
      · split
        · rfl
        · split
          · exact writeRingCfg_otp _ _ _ _ _
          · split
            · rfl
            · exact writeWord_otp _ _ _ _ _
          · exact writeWord_otp _ _ _ _ _

theorem execRegisterWrite_otp (t addr : Nat) (value : Word) : KeepsOtp (execRegisterWrite t addr value) := by
  intro s s' h
  unfold execRegisterWrite at h
  split_ifs at h
  · exact execLogHostRd_otp _ _ _ _ h
  · exact execRingCqHead_otp _ _ _ _ _ h
  · exact execRingCqHead_otp _ _ _ _ _ h
  · exact execRingCqHead_otp _ _ _ _ _ h
  · exact keepsOtp_run (writeRegister_otp addr value) _ _ h

theorem execReadClear_otp (t addr : Nat) : KeepsOtp (execReadClear t addr) := keepsOtp_run fun s => by
  split
  · rfl
  · split
    · exact andThen_otp (execSecTrngData_otp _) s
    · split
      · split <;> simp
      · rfl

end Sys2Proof.Machine
end

section
/-! Burns, and obligation O49. -/
namespace Sys2Proof.Machine

/-! ## Burns -/

/-- Every bit that an OTP word holds it holds afterwards. -/
def OtpGrows (s s' : State) : Prop := ∀ (w : Nat) (v : Word), otpWord s w &&& v = v → otpWord s' w &&& v = v

theorem OtpGrows.refl (s : State) : OtpGrows s s := fun _ _ h => h

theorem OtpGrows.trans {s s' s'' : State} (h : OtpGrows s s') (h' : OtpGrows s' s'') : OtpGrows s s'' :=
  fun w v hv => h' w v (h w v hv)

theorem OtpGrows.of_otp_eq {s s' : State} (h : s'.otp = s.otp) : OtpGrows s s' := fun w v hv => by
  unfold otpWord at hv ⊢
  rwa [h]

/-- What keeps OTP after a burn keeps what it has burned. -/
theorem OtpGrows.then_otp_eq {s s' s'' : State} (h : OtpGrows s s') (h' : s''.otp = s'.otp) : OtpGrows s s'' :=
  h.trans (.of_otp_eq h')

/-- A burn into a word adds to the bits that the word holds and leaves the other words. -/
theorem otpSet_grows (w : Nat) (bits : Word) (s : State) : OtpGrows s (otpSet w bits s) := by
  intro k v hv
  by_cases hk : k = w
  · subst hk
    by_cases hz : otpWord s k ||| bits = 0
    · obtain ⟨hold, -⟩ := BitVec.or_eq_zero_iff.mp hz
      have hv0 : v = 0 := by rw [← hv, hold]; exact BitVec.zero_and
      rw [hv0]
      exact BitVec.and_zero
    · have hself : otpWord (otpSet k bits s) k = otpWord s k ||| bits := by
        change (regLookup k (regInsert k (otpWord s k ||| bits) 0 s.otp)).getD 0 = _
        rw [regLookup_regInsert_self hz]
        rfl
      rw [hself, BitVec.and_comm, BitVec.and_or_distrib_left, BitVec.and_comm v, hv]
      ext i hi
      simp only [BitVec.getElem_or, BitVec.getElem_and]
      cases v[i] <;> simp
  · have hother : otpWord (otpSet w bits s) k = otpWord s k := by
      change (regLookup k (regInsert w _ 0 s.otp)).getD 0 = _
      rw [regLookup_regInsert_of_ne hk]
      rfl
    rwa [hother]

theorem foldl_grows {α : Type} {f : State → α → State} (h : ∀ s x, OtpGrows s (f s x)) (l : List α) (s : State) :
    OtpGrows s (l.foldl f s) := by
  induction l generalizing s with
  | nil => exact .refl s
  | cons x l ih => exact (h s x).trans (ih _)

theorem burnWord_grows (w : Nat) (value : Word) (b : BurnResult) (s : State) : OtpGrows s (burnWord w value b s) :=
  otpSet_grows w _ s

theorem burnDigest_grows (region : Nat) (lo hi : BurnResult) (s : State) : OtpGrows s (burnDigest region lo hi s) :=
  (burnWord_grows _ _ _ s).trans (burnWord_grows _ _ _ _)

theorem burnCounter_grows (n : Nat) (s : State) : OtpGrows s (burnCounter n s) := otpSet_grows _ _ s

theorem countEvent_grows (s : State) : OtpGrows s (countEvent s) := by
  unfold countEvent when
  dsimp only
  split
  · exact burnCounter_grows _ (s.modMet fun m => { m with c := m.c + 1 })
  · exact .refl s

theorem burnBytes_grows (first : Nat) (bytes : Bytes) (s : State) : OtpGrows s (burnBytes first bytes s) :=
  foldl_grows (fun s _ => burnWord_grows _ _ _ s) _ s

theorem burnPart_grows (first : Nat) (bytes : Bytes) (s : State) : OtpGrows s (burnPart first bytes s) :=
  foldl_grows (fun s _ => (OtpGrows.of_otp_eq (State.draw_otp s)).trans (burnWord_grows _ _ _ _)) _ s

theorem burnThermo_grows (cls n : Nat) (ok : Bool) (s : State) : OtpGrows s (burnThermo cls n ok s) := by
  refine foldl_grows (fun s i => ?_) _ s
  have hs : (if ok then s else s.draw.2).otp = s.otp := by
    split
    · rfl
    · exact State.draw_otp s
  exact (OtpGrows.of_otp_eq hs).trans (burnWord_grows _ _ _ _)

theorem enterLc_grows (target : Nat) (s : State) : OtpGrows s (enterLc target s) := by
  unfold enterLc
  split
  · exact .refl s
  · exact foldl_grows (fun s _ => otpSet_grows _ _ s) _ s
  · exact .refl s

theorem switchMti_grows (f : Upd → Upd) (s : State) : OtpGrows s (switchMti f s) := by
  have h := countEvent_grows (s.modFw fun u => { f u with mtiPend := true })
  exact h.then_otp_eq (by rw [switchMti, complete_otp, metEvent_otp])

/-! ## Burns in a form of commands -/

theorem admitCmd_grows {f : State → State} (hf : ∀ s, OtpGrows s (f s)) (id : RingId) (conds : List (Bool × Status))
    (s : State) : OtpGrows s (admitCmd id conds f s) := by
  unfold admitCmd
  split
  · exact hf s
  · exact .of_otp_eq (complete_otp _ _ _ _)

theorem sensitive_grows {f : State → State} (hf : ∀ s, OtpGrows s (f s)) (s : State) : OtpGrows s (sensitive f s) := by
  unfold sensitive
  split
  · exact .refl s
  · exact hf (s.modSec _)

theorem checkedImage_grows {empty f : State → State} (he : ∀ s, (empty s).otp = s.otp) (hf : ∀ s, OtpGrows s (f s))
    (row : CheckRow) (s : State) : OtpGrows s (checkedImage row empty f s) := by
  unfold checkedImage
  split
  · exact hf s
  · exact .of_otp_eq (by simp [he])

theorem mailbox_grows {f : State → State} (hf : ∀ s, OtpGrows s (f s)) (isSensitive : Bool)
    (conds : State → List (Bool × Status)) (s : State) : OtpGrows s (mailbox isSensitive conds f s) := by
  unfold mailbox
  dsimp only
  split
  · exact .refl s
  · split
    · exact .refl s
    · have hwhen : ∀ s : State, (when isSensitive (fun s => s.modSec fun x =>
          { x with session := x.session.map fun y => { y with lastAct := s.now } }) s).otp = s.otp := fun s => by simp
      split
      · refine OtpGrows.trans ?_ ((hf _).then_otp_eq (mbxAnswer_otp _ _))
        exact .of_otp_eq ((hwhen _).trans (State.modMet_otp _ _))
      · exact .of_otp_eq (by rw [mbxAnswer_otp, hwhen, State.modMet_otp])

/-- A meaning after which every OTP word holds the bits it held. -/
def KeepsBurned (act : State → Res) : Prop := ∀ s s', act s = .next s' → OtpGrows s s'

theorem KeepsOtp.keepsBurned {act : State → Res} (h : KeepsOtp act) : KeepsBurned act := fun s s' hs => .of_otp_eq (h s s' hs)

theorem keepsBurned_run {t : Nat} {f : State → State} (h : ∀ s, OtpGrows s (f s)) : KeepsBurned fun s => run t s f := by
  intro s s' hs
  cases hs
  exact h (s.arrive t)

theorem keepsBurned_ringCmd {t : Nat} {f : State → State} (h : ∀ s, OtpGrows s (f s)) :
    KeepsBurned fun s => ringCmd t s f :=
  keepsBurned_run fun s => by
    split
    · exact h s
    · exact .refl s

/-! ## The commands that burn -/

theorem execLcAdvance_keepsBurned (t target : Nat) (burn : BurnResult) (env : BootEnv) :
    KeepsBurned (execLcAdvance t target burn env) :=
  keepsBurned_ringCmd (sensitive_grows fun s => admitCmd_grows (fun s => by
    have hb := burnWord_grows 128 (BitVec.ofNat 32 (2 ^ (target - 1))) burn s
    dsimp only
    split
    · split
      · exact hb.then_otp_eq (cutShort_otp _)
      · exact hb.then_otp_eq (complete_otp _ _ _ _)
    · exact (hb.trans (enterLc_grows target _)).then_otp_eq (by simp)) _ _ s)

theorem execOtpBurn_keepsBurned (t word : Nat) (value : Word) (burn : BurnResult) :
    KeepsBurned (execOtpBurn t word value burn) :=
  keepsBurned_ringCmd (sensitive_grows fun s => admitCmd_grows (fun s => by
    dsimp only
    split
    · exact (burnWord_grows word value burn s).then_otp_eq (cutShort_otp _)
    · exact (burnWord_grows word value burn s).then_otp_eq (complete_otp _ _ _ _)) _ _ s)

theorem execOtpFinalise_keepsBurned (t region : Nat) (lo hi : BurnResult) : KeepsBurned (execOtpFinalise t region lo hi) :=
  keepsBurned_ringCmd (sensitive_grows fun s => admitCmd_grows (fun s => by
    dsimp only
    split
    · exact (burnDigest_grows region lo hi s).then_otp_eq (cutShort_otp _)
    · exact (burnDigest_grows region lo hi s).then_otp_eq (complete_otp _ _ _ _)) _ _ s)

theorem execMetStartupCheck_keepsBurned (t : Nat) (flashOk : Bool) (c : Nat) :
    KeepsBurned (execMetStartupCheck t flashOk c) :=
  keepsBurned_run fun s => by
    split
    · dsimp only
      split
      · split
        · refine OtpGrows.then_otp_eq ?_ (metEvent_otp _ _ _)
          unfold when
          split
          · exact (OtpGrows.of_otp_eq (showMti_otp s)).trans (burnCounter_grows _ ((showMti s).modMet _))
          · exact .of_otp_eq (showMti_otp s)
        · exact .of_otp_eq (by simp)
      · exact .of_otp_eq (by simp)
    · exact .refl s

theorem execParamWrite_keepsBurned (t block index : Nat) (record : Bytes) :
    KeepsBurned (execParamWrite t block index record) :=
  keepsBurned_ringCmd (mailbox_grows (fun s => (countEvent_grows (s.modMet _)).then_otp_eq (metEvent_otp _ _ _)) _ _)

theorem execSealFinalise_keepsBurned (t : Nat) (approval : Bytes) (burnOk : Bool) :
    KeepsBurned (execSealFinalise t approval burnOk) :=
  keepsBurned_ringCmd fun s => by
    split
    · exact mailbox_grows (fun s => (((burnBytes_grows _ _ s).trans (burnDigest_grows _ _ _ _)).trans
        (countEvent_grows _)).then_otp_eq (metEvent_otp _ _ _)) _ _ s
    · refine OtpGrows.trans ?_ (mailbox_grows OtpGrows.refl _ _ _)
      split
      · exact burnPart_grows _ _ s
      · exact .refl s

theorem execReconcile_keepsBurned (t : Nat) : KeepsBurned (execReconcile t) :=
  keepsBurned_ringCmd (mailbox_grows (fun s =>
    (OtpGrows.of_otp_eq (State.modMet_otp s _)).trans ((countEvent_grows _).then_otp_eq
      ((metEvent_otp _ _ _).trans (State.modMet_otp _ _)))) _ _)

theorem activateClass_grows (cls : Nat) (row : CheckRow) (env : BootEnv) (s : State) :
    OtpGrows s (activateClass cls row env s) := by
  unfold activateClass
  split
  · exact admitCmd_grows (checkedImage_grows (setStaged_otp 1 none) (fun s => .of_otp_eq (by rw [fwiStart_otp, State.modFw_otp])) row) _ _ s
  · exact admitCmd_grows (fun s => .of_otp_eq (strActivateCmd_otp 0 s)) _ _ s
  · exact admitCmd_grows (checkedImage_grows (setStaged_otp 3 none) (switchMti_grows _) row) _ _ s

theorem revertClass_grows (cls : Nat) (row : CheckRow) (env : BootEnv) (s : State) :
    OtpGrows s (revertClass cls row env s) := by
  unfold revertClass
  split
  · exact admitCmd_grows (checkedImage_grows (emptyPrev_otp 1) (fun s => .of_otp_eq (by rw [fwiStart_otp, State.modFw_otp])) row) _ _ s
  · exact admitCmd_grows (fun s => .of_otp_eq (strActivateCmd_otp 1 s)) _ _ s
  · exact admitCmd_grows (checkedImage_grows (emptyPrev_otp 3) (switchMti_grows _) row) _ _ s

theorem execUpdActivate_keepsBurned (t cls : Nat) (row : CheckRow) (env : BootEnv) :
    KeepsBurned (execUpdActivate t cls row env) :=
  keepsBurned_ringCmd (sensitive_grows fun s => admitCmd_grows (activateClass_grows cls row env) _ _ s)

theorem execUpdRevert_keepsBurned (t cls : Nat) (row : CheckRow) (env : BootEnv) :
    KeepsBurned (execUpdRevert t cls row env) :=
  keepsBurned_ringCmd (sensitive_grows fun s => admitCmd_grows (revertClass_grows cls row env) _ _ s)

theorem execUpdConfirm_keepsBurned (t cls : Nat) (burnOk : Bool) : KeepsBurned (execUpdConfirm t cls burnOk) :=
  keepsBurned_ringCmd fun s => admitCmd_grows (fun s => by
    have h := burnThermo_grows cls (((confirmed s cls).map Image.svn).getD 0) burnOk s
    dsimp only
    split
    · exact h.then_otp_eq (by simp)
    · exact h.then_otp_eq (complete_otp _ _ _ _)) _ _ s

/-! ## Every step -/

/-- No command clears a burned bit: ten of them burn, and every other one leaves OTP as it was. -/
theorem exec_keepsBurned (c : Instr) : KeepsBurned (exec c) := by
  cases c with
  | rstNRelease t env => exact (execRstNRelease_otp t env).keepsBurned
  | rstNAssert t lowNs => exact (execRstNAssert_otp t lowNs).keepsBurned
  | bootWatchdogExpiry t env => exact (execBootWatchdogExpiry_otp t env).keepsBurned
  | devWarmReset t flags env => exact (execDevWarmReset_otp t flags env).keepsBurned
  | warmResetBrakeDone t env => exact (execWarmResetBrakeDone_otp t env).keepsBurned
  | modeSet t target => exact (execModeSet_otp t target).keepsBurned
  | funcReinit t func inst restarted => exact (execFuncReinit_otp t func inst restarted).keepsBurned
  | holdNAssert t => exact (execHoldNAssert_otp t).keepsBurned
  | holdNRelease t highNs => exact (execHoldNRelease_otp t highNs).keepsBurned
  | fireEnDeassert t lowNs => exact (execFireEnDeassert_otp t lowNs).keepsBurned
  | fireEnAssert t highNs => exact (execFireEnAssert_otp t highNs).keepsBurned
  | holdReq t cls => exact (execHoldReq_otp t cls).keepsBurned
  | holdClr t => exact (execHoldClr_otp t).keepsBurned
  | trngReady t samples => exact (execTrngReady_otp t samples).keepsBurned
  | entropyWaitTimeout t => exact (execEntropyWaitTimeout_otp t).keepsBurned
  | trngTestFail t => exact (execTrngTestFail_otp t).keepsBurned
  | secTrngData t => exact (execSecTrngData_otp t).keepsBurned
  | strLoadBegin t length header => exact (execStrLoadBegin_otp t length header).keepsBurned
  | strLoadBlock t offset data => exact (execStrLoadBlock_otp t offset data).keepsBurned
  | strLoadEnd t => exact (execStrLoadEnd_otp t).keepsBurned
  | strTransferTimeout t => exact (execStrTransferTimeout_otp t).keepsBurned
  | strActivate t slot => exact (execStrActivate_otp t slot).keepsBurned
  | strActivationDone t row installOk => exact (execStrActivationDone_otp t row installOk).keepsBurned
  | ringSqTail t ring value fetch => exact (execRingSqTail_otp t ring value fetch).keepsBurned
  | ringEnable t ring => exact (execRingEnable_otp t ring).keepsBurned
  | ringDisable t ring => exact (execRingDisable_otp t ring).keepsBurned
  | ringCqHead t ring value => exact (execRingCqHead_otp t ring value).keepsBurned
  | jobOpen t ctxReq jobId => exact (execJobOpen_otp t ctxReq jobId).keepsBurned
  | jobLoad t ctx fromStore last address offset data readCode => exact (execJobLoad_otp t ctx fromStore last address offset data readCode).keepsBurned
  | jobArm t ctx castOn => exact (execJobArm_otp t ctx castOn).keepsBurned
  | jobRecords t ctx address count bytes data => exact (execJobRecords_otp t ctx address count bytes data).keepsBurned
  | jobCastOff t ctx last => exact (execJobCastOff_otp t ctx last).keepsBurned
  | jobAbort t ring ctx => exact (execJobAbort_otp t ring ctx).keepsBurned
  | jobClose t ring ctx => exact (execJobClose_otp t ring ctx).keepsBurned
  | sliceDeal t => exact (execSliceDeal_otp t).keepsBurned
  | engineRequestTimeout t engine => exact (execEngineRequestTimeout_otp t engine).keepsBurned
  | sliceComplete t cluster cycles => exact (execSliceComplete_otp t cluster cycles).keepsBurned
  | sliceTimeout t cluster => exact (execSliceTimeout_otp t cluster).keepsBurned
  | vcompUpdate t => exact (execVcompUpdate_otp t).keepsBurned
  | vcodeUpdate t => exact (execVcodeUpdate_otp t).keepsBurned
  | keyInstall t slot kind context label => exact (execKeyInstall_otp t slot kind context label).keepsBurned
  | courseScreen t plane => exact (execCourseScreen_otp t plane).keepsBurned
  | nzmUpdEntry t value => exact (execNzmUpdEntry_otp t value).keepsBurned
  | nzmCommit t => exact (execNzmCommit_otp t).keepsBurned
  | nzmDiscard t => exact (execNzmDiscard_otp t).keepsBurned
  | generationInstall t plane => exact (execGenerationInstall_otp t plane).keepsBurned
  | vfireUpdate t => exact (execVfireUpdate_otp t).keepsBurned
  | encoderInputChange t n a b => exact (execEncoderInputChange_otp t n a b).keepsBurned
  | minspAccept t n => exact (execMinspAccept_otp t n).keepsBurned
  | lockTimeout t => exact (execLockTimeout_otp t).keepsBurned
  | indexPulse t n heldNs => exact (execIndexPulse_otp t n heldNs).keepsBurned
  | pacZero t => exact (execPacZero_otp t).keepsBurned
  | pacSrcWrite t value => exact (execPacSrcWrite_otp t value).keepsBurned
  | gearPush t => exact (execGearPush_otp t).keepsBurned
  | gearSet t => exact (execGearSet_otp t).keepsBurned
  | gearClear t => exact (execGearClear_otp t).keepsBurned
  | handoverArm t value => exact (execHandoverArm_otp t value).keepsBurned
  | handoverCancel t => exact (execHandoverCancel_otp t).keepsBurned
  | fireCommandSend t plane row => exact (execFireCommandSend_otp t plane row).keepsBurned
  | fireRecompute t => exact (execFireRecompute_otp t).keepsBurned
  | slotInstantPassed t plane row => exact (execSlotInstantPassed_otp t plane row).keepsBurned
  | underrunDecision t plane => exact (execUnderrunDecision_otp t plane).keepsBurned
  | courseTake t plane => exact (execCourseTake_otp t plane).keepsBurned
  | wavTblWrite t => exact (execWavTblWrite_otp t).keepsBurned
  | wavTblRead t => exact (execWavTblRead_otp t).keepsBurned
  | wgActiveSlotWrite t value => exact (execWgActiveSlotWrite_otp t value).keepsBurned
  | waveformAckTimeout t hub => exact (execWaveformAckTimeout_otp t hub).keepsBurned
  | scaleUpdate t => exact (execScaleUpdate_otp t).keepsBurned
  | tempFrame t hub temps => exact (execTempFrame_otp t hub temps).keepsBurned
  | tempStale t head => exact (execTempStale_otp t head).keepsBurned
  | wavTempLost t head => exact (execWavTempLost_otp t head).keepsBurned
  | venergyUpdate t => exact (execVenergyUpdate_otp t).keepsBurned
  | vheatUpdate t => exact (execVheatUpdate_otp t).keepsBurned
  | laneDownRetrain t lane => exact (execLaneDownRetrain_otp t lane).keepsBurned
  | laneTrainingDone t lane ok => exact (execLaneTrainingDone_otp t lane ok).keepsBurned
  | helloFrame t lane hello => exact (execHelloFrame_otp t lane hello).keepsBurned
  | helloTimeout t lane => exact (execHelloTimeout_otp t lane).keepsBurned
  | ackFrame t lane seq => exact (execAckFrame_otp t lane seq).keepsBurned
  | syncSend t lane => exact (execSyncSend_otp t lane).keepsBurned
  | syncRespFrame t lane n h2 h3 t4 => exact (execSyncRespFrame_otp t lane n h2 h3 t4).keepsBurned
  | syncTimeout t lane => exact (execSyncTimeout_otp t lane).keepsBurned
  | identFrame t lane port record => exact (execIdentFrame_otp t lane port record).keepsBurned
  | statusFrame t lane st => exact (execStatusFrame_otp t lane st).keepsBurned
  | reportFrame t hub first count bitmap => exact (execReportFrame_otp t hub first count bitmap).keepsBurned
  | slotFaultFrame t hub slot cause ports => exact (execSlotFaultFrame_otp t hub slot cause ports).keepsBurned
  | reportTimeout t hub slot => exact (execReportTimeout_otp t hub slot).keepsBurned
  | nakFrame t lane cseq count => exact (execNakFrame_otp t lane cseq count).keepsBurned
  | relRetransmit t lane => exact (execRelRetransmit_otp t lane).keepsBurned
  | pcsAlignmentLoss t lane => exact (execPcsAlignmentLoss_otp t lane).keepsBurned
  | endpointMissing t ep => exact (execEndpointMissing_otp t ep).keepsBurned
  | takeoverAckFrame t hub result wait digest rows => exact (execTakeoverAckFrame_otp t hub result wait digest rows).keepsBurned
  | takeoverRepeat t hub => exact (execTakeoverRepeat_otp t hub).keepsBurned
  | keepaliveSend t hub => exact (execKeepaliveSend_otp t hub).keepsBurned
  | posrefSend t => exact (execPosrefSend_otp t).keepsBurned
  | scanLineFrame t bridge frame => exact (execScanLineFrame_otp t bridge frame).keepsBurned
  | scanLineIncomplete t bridge line => exact (execScanLineIncomplete_otp t bridge line).keepsBurned
  | vlaneUpdate t octets => exact (execVlaneUpdate_otp t octets).keepsBurned
  | lineAnalysis t bridge cycles => exact (execLineAnalysis_otp t bridge cycles).keepsBurned
  | verdictDeadline t ctx seq => exact (execVerdictDeadline_otp t ctx seq).keepsBurned
  | vinspUpdate t => exact (execVinspUpdate_otp t).keepsBurned
  | govUpdate t => exact (execGovUpdate_otp t).keepsBurned
  | govOverspeed t => exact (execGovOverspeed_otp t).keepsBurned
  | govPeerSilent t peer => exact (execGovPeerSilent_otp t peer).keepsBurned
  | decisionPeriod t axis => exact (execDecisionPeriod_otp t axis).keepsBurned
  | speedLoopTick t axis => exact (execSpeedLoopTick_otp t axis).keepsBurned
  | sdOutput t ch acc => exact (execSdOutput_otp t ch acc).keepsBurned
  | baEnable t axis => exact (execBaEnable_otp t axis).keepsBurned
  | baDisable t axis => exact (execBaDisable_otp t axis).keepsBurned
  | baOpen t axis => exact (execBaOpen_otp t axis).keepsBurned
  | baFaultClr t axis => exact (execBaFaultClr_otp t axis).keepsBurned
  | baSetpoint t axis value => exact (execBaSetpoint_otp t axis value).keepsBurned
  | magnetiseTimeout t axis => exact (execMagnetiseTimeout_otp t axis).keepsBurned
  | lockedRotor t axis => exact (execLockedRotor_otp t axis).keepsBurned
  | baDriverFault t axis lowNs => exact (execBaDriverFault_otp t axis lowNs).keepsBurned
  | baOverspeedFault t axis => exact (execBaOverspeedFault_otp t axis).keepsBurned
  | baSpeedErrorFault t axis => exact (execBaSpeedErrorFault_otp t axis).keepsBurned
  | baBusFault t axis => exact (execBaBusFault_otp t axis).keepsBurned
  | guardPeriodEnd t => exact (execGuardPeriodEnd_otp t).keepsBurned
  | axisHomeBrushless t index speed timeout => exact (execAxisHomeBrushless_otp t index speed timeout).keepsBurned
  | baHomeTimeout t axis => exact (execBaHomeTimeout_otp t axis).keepsBurned
  | axisHomeStepper t index vel timeout homePos backoff ihome => exact (execAxisHomeStepper_otp t index vel timeout homePos backoff ihome).keepsBurned
  | stpHomeTimeout t axis => exact (execStpHomeTimeout_otp t axis).keepsBurned
  | stepperUpdate t axis => exact (execStepperUpdate_otp t axis).keepsBurned
  | stpTargetCommit t axis value => exact (execStpTargetCommit_otp t axis value).keepsBurned
  | stpVsetWrite t axis value => exact (execStpVsetWrite_otp t axis value).keepsBurned
  | stpGo t axis => exact (execStpGo_otp t axis).keepsBurned
  | stpModeChange t axis value => exact (execStpModeChange_otp t axis value).keepsBurned
  | stpEnable t axis => exact (execStpEnable_otp t axis).keepsBurned
  | stpEnClear t axis => exact (execStpEnClear_otp t axis).keepsBurned
  | stpStop t axis => exact (execStpStop_otp t axis).keepsBurned
  | stpHalt t axis => exact (execStpHalt_otp t axis).keepsBurned
  | stpPower t axis on => exact (execStpPower_otp t axis on).keepsBurned
  | stpFaultClr t axis => exact (execStpFaultClr_otp t axis).keepsBurned
  | stpClrUnsure t axis => exact (execStpClrUnsure_otp t axis).keepsBurned
  | stpSync t axis => exact (execStpSync_otp t axis).keepsBurned
  | stpPosWrite t axis hi value => exact (execStpPosWrite_otp t axis hi value).keepsBurned
  | stpGearPush t axis => exact (execStpGearPush_otp t axis).keepsBurned
  | stpGearClear t axis => exact (execStpGearClear_otp t axis).keepsBurned
  | chopperTrip t axis phaseB microvolts => exact (execChopperTrip_otp t axis phaseB microvolts).keepsBurned
  | chopperOffTimeEnd t axis phaseB => exact (execChopperOffTimeEnd_otp t axis phaseB).keepsBurned
  | drivePhaseTimeout t axis phaseB => exact (execDrivePhaseTimeout_otp t axis phaseB).keepsBurned
  | holdDelayExpiry t axis => exact (execHoldDelayExpiry_otp t axis).keepsBurned
  | stpDriverFault t axis lowNs => exact (execStpDriverFault_otp t axis lowNs).keepsBurned
  | encCfgWrite t n value => exact (execEncCfgWrite_otp t n value).keepsBurned
  | powerEstimate t sample => exact (execPowerEstimate_otp t sample).keepsBurned
  | grantAllocation t => exact (execGrantAllocation_otp t).keepsBurned
  | clusterPowerOnDone t cluster => exact (execClusterPowerOnDone_otp t cluster).keepsBurned
  | operatingPointChangeDone t cluster => exact (execOperatingPointChangeDone_otp t cluster).keepsBurned
  | sensorConversion t sensor temp16 => exact (execSensorConversion_otp t sensor temp16).keepsBurned
  | sramPatrolScrub t bank word found env => exact (execSramPatrolScrub_otp t bank word found env).keepsBurned
  | hbmPatrol t addr found => exact (execHbmPatrol_otp t addr found).keepsBurned
  | marchRun t first count alg mode => exact (execMarchRun_otp t first count alg mode).keepsBurned
  | marchBankDone t outcome spares skipped => exact (execMarchBankDone_otp t outcome spares skipped).keepsBurned
  | wipeVerifyDone t ok => exact (execWipeVerifyDone_otp t ok).keepsBurned
  | jsAttach t value present lbaLog2 capacity protectionInfo => exact (execJsAttach_otp t value present lbaLog2 capacity protectionInfo).keepsBurned
  | jsDetach t value => exact (execJsDetach_otp t value).keepsBurned
  | nvmeReadTimeout t ctx => exact (execNvmeReadTimeout_otp t ctx).keepsBurned
  | dmaStart t ch => exact (execDmaStart_otp t ch).keepsBurned
  | dmaAbort t ch => exact (execDmaAbort_otp t ch).keepsBurned
  | dmaDbRd t ch reread => exact (execDmaDbRd_otp t ch reread).keepsBurned
  | dmaDbWr t ch reread => exact (execDmaDbWr_otp t ch reread).keepsBurned
  | dmaRequestLine t ch line => exact (execDmaRequestLine_otp t ch line).keepsBurned
  | dmaBurstComplete t ch burst => exact (execDmaBurstComplete_otp t ch burst).keepsBurned
  | dmaReadbackDone t ch => exact (execDmaReadbackDone_otp t ch).keepsBurned
  | dmaError t ch readSide err => exact (execDmaError_otp t ch readSide err).keepsBurned
  | xlkHelloFrame t port hello => exact (execXlkHelloFrame_otp t port hello).keepsBurned
  | xlkHelloTimeout t port => exact (execXlkHelloTimeout_otp t port).keepsBurned
  | rootConverged t found => exact (execRootConverged_otp t found).keepsBurned
  | assignFrame t unitId addr topoGen => exact (execAssignFrame_otp t unitId addr topoGen).keepsBurned
  | addressHoldExpiry t unitId => exact (execAddressHoldExpiry_otp t unitId).keepsBurned
  | linkstateSend t => exact (execLinkstateSend_otp t).keepsBurned
  | linkstateFrame t src topoGen entries => exact (execLinkstateFrame_otp t src topoGen entries).keepsBurned
  | fabricRescan t found peerBusy => exact (execFabricRescan_otp t found peerBusy).keepsBurned
  | rescanFrame t topoGen => exact (execRescanFrame_otp t topoGen).keepsBurned
  | xlkSyncSend t => exact (execXlkSyncSend_otp t).keepsBurned
  | xlkSyncFrame t port frame => exact (execXlkSyncFrame_otp t port frame).keepsBurned
  | timePpsEdge t highNs => exact (execTimePpsEdge_otp t highNs).keepsBurned
  | positionBroadcast t => exact (execPositionBroadcast_otp t).keepsBurned
  | positionFrame t frame => exact (execPositionFrame_otp t frame).keepsBurned
  | positionSilence t => exact (execPositionSilence_otp t).keepsBurned
  | peerStateSend t => exact (execPeerStateSend_otp t).keepsBurned
  | peerStateFrame t frame => exact (execPeerStateFrame_otp t frame).keepsBurned
  | bindFrame t ctx laneIdx rpt entries => exact (execBindFrame_otp t ctx laneIdx rpt entries).keepsBurned
  | bindReqFrame t ctx laneIdx rpt => exact (execBindReqFrame_otp t ctx laneIdx rpt).keepsBurned
  | rcheckFrame t ctx package count firstSeq crc => exact (execRcheckFrame_otp t ctx package count firstSeq crc).keepsBurned
  | partialFrame t src ctx seq planes codes => exact (execPartialFrame_otp t src ctx seq planes codes).keepsBurned
  | partialTimeout t ctx seq => exact (execPartialTimeout_otp t ctx seq).keepsBurned
  | heartbeatSend t => exact (execHeartbeatSend_otp t).keepsBurned
  | heartbeatFrame t hb => exact (execHeartbeatFrame_otp t hb).keepsBurned
  | compareFrame t digests => exact (execCompareFrame_otp t digests).keepsBurned
  | mirrorFrame t frame => exact (execMirrorFrame_otp t frame).keepsBurned
  | swapFrame t x epoch step => exact (execSwapFrame_otp t x epoch step).keepsBurned
  | heartbeatLoss t => exact (execHeartbeatLoss_otp t).keepsBurned
  | takeoverRefusedAbandon t => exact (execTakeoverRefusedAbandon_otp t).keepsBurned
  | leadReqEdge t high heldNs => exact (execLeadReqEdge_otp t high heldNs).keepsBurned
  | leadReqConflict t => exact (execLeadReqConflict_otp t).keepsBurned
  | pairRoleSwap t => exact (execPairRoleSwap_otp t).keepsBurned
  | pairRoleRecompare t => exact (execPairRoleRecompare_otp t).keepsBurned
  | sessionOpenChallenge t addr => exact (execSessionOpenChallenge_otp t addr).keepsBurned
  | sessionOpenResponse t chalId x y sigR sigS => exact (execSessionOpenResponse_otp t chalId x y sigR sigS).keepsBurned
  | sessionClose t => exact (execSessionClose_otp t).keepsBurned
  | sessionIdleTimeout t => exact (execSessionIdleTimeout_otp t).keepsBurned
  | authFailCompletion t => exact (execAuthFailCompletion_otp t).keepsBurned
  | lcAdvance t target burn env => exact execLcAdvance_keepsBurned t target burn env
  | otpBurn t word value burn => exact execOtpBurn_keepsBurned t word value burn
  | otpFinalise t region burnLo burnHi => exact execOtpFinalise_keepsBurned t region burnLo burnHi
  | otpRdAddr t word => exact (execOtpRdAddr_otp t word).keepsBurned
  | otpReadDone t => exact (execOtpReadDone_otp t).keepsBurned
  | tamperInput t n lowUs => exact (execTamperInput_otp t n lowUs).keepsBurned
  | voltageDetector t rail millivolts => exact (execVoltageDetector_otp t rail millivolts).keepsBurned
  | clockDetector t met permille => exact (execClockDetector_otp t met permille).keepsBurned
  | temperatureDetector t celsius => exact (execTemperatureDetector_otp t celsius).keepsBurned
  | secTamperClear t value => exact (execSecTamperClear_otp t value).keepsBurned
  | metStartupCheck t flashOk c => exact execMetStartupCheck_keepsBurned t flashOk c
  | weighingPoll t port => exact (execWeighingPoll_otp t port).keepsBurned
  | weighingFrame t ch crcOk w => exact (execWeighingFrame_otp t ch crcOk w).keepsBurned
  | noneFrame t ch crcOk => exact (execNoneFrame_otp t ch crcOk).keepsBurned
  | errorFrame t ch crcOk code => exact (execErrorFrame_otp t ch crcOk code).keepsBurned
  | weighingReplyTimeout t ch => exact (execWeighingReplyTimeout_otp t ch).keepsBurned
  | metSealNEdge t high heldNs => exact (execMetSealNEdge_otp t high heldNs).keepsBurned
  | lockstepMismatch t => exact (execLockstepMismatch_otp t).keepsBurned
  | clkMetDeviation t permille => exact (execClkMetDeviation_otp t permille).keepsBurned
  | priceSet t entries => exact (execPriceSet_otp t entries).keepsBurned
  | laneMap t ctx entries => exact (execLaneMap_otp t ctx entries).keepsBurned
  | channelReset t ch => exact (execChannelReset_otp t ch).keepsBurned
  | auditRelease t anum loss => exact (execAuditRelease_otp t anum loss).keepsBurned
  | paramWrite t block index record => exact execParamWrite_keepsBurned t block index record
  | sealFinalise t approval burnOk => exact execSealFinalise_keepsBurned t approval burnOk
  | reconcile t => exact execReconcile_keepsBurned t
  | calRun t kind flags index arg speed gauge precondition => exact (execCalRun_otp t kind flags index arg speed gauge precondition).keepsBurned
  | calMeasurementDone t m storeOk => exact (execCalMeasurementDone_otp t m storeOk).keepsBurned
  | calRunTimeout t => exact (execCalRunTimeout_otp t).keepsBurned
  | calRead t kind flags index addr => exact (execCalRead_otp t kind flags index addr).keepsBurned
  | updBegin t cls length header => exact (execUpdBegin_otp t cls length header).keepsBurned
  | updBlock t offset data => exact (execUpdBlock_otp t offset data).keepsBurned
  | updEnd t => exact (execUpdEnd_otp t).keepsBurned
  | updActivate t cls row env => exact execUpdActivate_keepsBurned t cls row env
  | updConfirm t cls burnOk => exact execUpdConfirm_keepsBurned t cls burnOk
  | updRevert t cls row env => exact execUpdRevert_keepsBurned t cls row env
  | trialExpiry t env => exact (execTrialExpiry_otp t env).keepsBurned
  | updRecGo t row header env => exact (execUpdRecGo_otp t row header env).keepsBurned
  | recoveryUartBegin t length header crcOk => exact (execRecoveryUartBegin_otp t length header crcOk).keepsBurned
  | recoveryUartBlock t offset data crcOk => exact (execRecoveryUartBlock_otp t offset data crcOk).keepsBurned
  | recoveryUartEnd t crcOk env => exact (execRecoveryUartEnd_otp t crcOk env).keepsBurned
  | logAdmission t => exact (execLogAdmission_otp t).keepsBurned
  | logDrain t count readbackOk lost => exact (execLogDrain_otp t count readbackOk lost).keepsBurned
  | logReadbackRetry t readbackOk => exact (execLogReadbackRetry_otp t readbackOk).keepsBurned
  | logCtrlEnable t => exact (execLogCtrlEnable_otp t).keepsBurned
  | logCtrlDisable t => exact (execLogCtrlDisable_otp t).keepsBurned
  | logHostRd t value => exact (execLogHostRd_otp t value).keepsBurned
  | itemHoldExpiry t ctx seq => exact (execItemHoldExpiry_otp t ctx seq).keepsBurned
  | summaryTimer t => exact (execSummaryTimer_otp t).keepsBurned
  | coalesceTimeout t => exact (execCoalesceTimeout_otp t).keepsBurned
  | semAcquire t n func inst tag => exact (execSemAcquire_otp t n func inst tag).keepsBurned
  | semRelease t n func inst tag => exact (execSemRelease_otp t n func inst tag).keepsBurned
  | pioFuncWrite t m value => exact (execPioFuncWrite_otp t m value).keepsBurned
  | gpioInputEdge t m high => exact (execGpioInputEdge_otp t m high).keepsBurned
  | qrefLoss t quad => exact (execQrefLoss_otp t quad).keepsBurned
  | qrefRestored t quad => exact (execQrefRestored_otp t quad).keepsBurned
  | flr t => exact (execFlr_otp t).keepsBurned
  | perstNAssert t => exact (execPerstNAssert_otp t).keepsBurned
  | pcieCompletionTimeout t requester onFetch => exact (execPcieCompletionTimeout_otp t requester onFetch).keepsBurned
  | rootPortLinkLoss t => exact (execRootPortLinkLoss_otp t).keepsBurned
  | i2cGo t port value => exact (execI2cGo_otp t port value).keepsBurned
  | i2cTransferDone t port nack arbLost received => exact (execI2cTransferDone_otp t port nack arbLost received).keepsBurned
  | i2cSclTimeout t port => exact (execI2cSclTimeout_otp t port).keepsBurned
  | readClear t addr => exact (execReadClear_otp t addr).keepsBurned
  | registerWrite t addr value => exact (execRegisterWrite_otp t addr value).keepsBurned
  | syncFollowTimeout t => exact (execSyncFollowTimeout_otp t).keepsBurned
  | aonPowerOn t => exact (execAonPowerOn_otp t).keepsBurned
  | rootPortLinkUp t speed width controllers => exact (execRootPortLinkUp_otp t speed width controllers).keepsBurned
  | perstNRelease t speed width => exact (execPerstNRelease_otp t speed width).keepsBurned
  | endpointLinkDown t => exact (execEndpointLinkDown_otp t).keepsBurned
  | updTransferTimeout t => exact (execUpdTransferTimeout_otp t).keepsBurned
  | tokenBucketRefill t fab => exact (execTokenBucketRefill_otp t fab).keepsBurned
  | bulkdataFrame t port src dst hops bytes => exact (execBulkdataFrame_otp t port src dst hops bytes).keepsBurned
  | uartReceive t port ch stopOk parityOk => exact (execUartReceive_otp t port ch stopOk parityOk).keepsBurned
  | hbmRefreshDouble t stack celsius => exact (execHbmRefreshDouble_otp t stack celsius).keepsBurned
  | tapInstruction t instr => exact (execTapInstruction_otp t instr).keepsBurned

theorem step_grows {s s' : State} (h : step s = .next s') : OtpGrows s s' := by
  obtain hq | ⟨c, rest, hq⟩ : s.pending = [] ∨ ∃ c rest, s.pending = c :: rest := by cases s.pending <;> simp
  · rw [step_nil hq] at h
    cases h
    exact .of_otp_eq (State.arrive_otp s _)
  · have hs : s = { s with pending := c :: rest } := by rw [← hq]
    rw [hs, step_cons] at h
    have hrest : OtpGrows s { s with pending := rest } := .of_otp_eq rfl
    exact hrest.trans (exec_keepsBurned c _ _ h)

/-- A bit that a word holds stays set. -/
theorem OtpGrows.getLsbD {s s' : State} (h : OtpGrows s s') {w b : Nat} (hb : (otpWord s w).getLsbD b = true) :
    (otpWord s' w).getLsbD b = true := by
  have hlt : b < 32 := BitVec.lt_of_getLsbD hb
  have hone : ∀ x : Word, x &&& BitVec.twoPow 32 b = BitVec.twoPow 32 b ↔ x.getLsbD b = true := fun x => by
    rw [BitVec.and_twoPow]
    split
    · simp [*]
    · simp only [*, Bool.false_eq_true, iff_false]
      intro h0
      have := congrArg (fun y => BitVec.getLsbD y b) h0
      simp [hlt] at this
  exact (hone _).mp (h w _ ((hone _).mpr hb))

/-- With its bits only set, the life cycle only rises. -/
theorem OtpGrows.lifeCycle_le {s s' : State} (h : OtpGrows s s') : lifeCycle s ≤ lifeCycle s' := by
  have h3 := h.getLsbD (w := 128) (b := 3)
  have h2 := h.getLsbD (w := 128) (b := 2)
  have h1 := h.getLsbD (w := 128) (b := 1)
  have h0 := h.getLsbD (w := 128) (b := 0)
  unfold lifeCycle
  dsimp only
  split_ifs <;> simp_all

/-- Settles O49: OTP is written by burns alone, each of which adds to the bits that a word holds; every other command leaves
it as it was. -/
theorem otpOnlySet : Obligations.OtpOnlySet := fun _ _ h =>
  ⟨step_grows h, fun _ hn => hn.trans (step_grows h).lifeCycle_le⟩

end Sys2Proof.Machine
end

section
/-! Semaphores (R459), and obligation O56. -/
namespace Sys2Proof.Machine

open Sys2Proof.Claim

/-! ## The commands -/

/-- Putting back what a semaphore is changes nothing. -/
theorem set_sems_self (n : Fin 64) (s : State) : { s with sems := s.sems.set n s.sems[n] } = s := by
  rw [Fin.getElem_fin, Vector.set_getElem_self]

section
variable {s : State} (hr : s.ringsRun = true) (t : Nat) (n : Fin 64) (f i g : Byte)
include hr

/-- An acquire is decided by what the semaphore is. -/
theorem exec_semAcquire {m : Sem} (h : (s.sems[n]).acquire f i g = m) :
    exec (.semAcquire t n f i g) s = .next (after t s fun s => { s with sems := s.sems.set n m }) := by
  refine (ringCmd_eq_after hr ?_ : execSemAcquire t n f i g s = _)
  subst h
  rfl

/-- A release is decided by what the semaphore is. -/
theorem exec_semRelease {m : Sem} (h : (s.sems[n]).release f i g = m) :
    exec (.semRelease t n f i g) s = .next (after t s fun s => { s with sems := s.sems.set n m }) := by
  refine (ringCmd_eq_after hr ?_ : execSemRelease t n f i g s = _)
  subst h
  rfl

/-- An acquire of an OWNED semaphore does nothing. -/
theorem exec_semAcquire_of_owned (h : (s.sems[n]).st = .owned) :
    exec (.semAcquire t n f i g) s = .next (after t s id) := by
  rw [exec_semAcquire hr t n f i g (m := s.sems[n]) (by simp only [Sem.acquire, h])]
  exact next_after_congr (set_sems_self n (s.arrive t))

/-- A release by another than the owner does nothing. -/
theorem exec_semRelease_of_other
    (h : (s.sems[n]).st ≠ .owned ∨ (s.sems[n]).func ≠ f ∨ (s.sems[n]).inst ≠ i ∨ (s.sems[n]).tag ≠ g) :
    exec (.semRelease t n f i g) s = .next (after t s id) := by
  have hother : ¬((s.sems[n]).st = .owned ∧ (s.sems[n]).func = f ∧ (s.sems[n]).inst = i ∧ (s.sems[n]).tag = g) := by
    rintro ⟨hst, hf, hi, hg⟩
    exact h.elim (· hst) fun h => h.elim (· hf) fun h => h.elim (· hi) (· hg)
  rw [exec_semRelease hr t n f i g (m := s.sems[n]) (if_neg hother)]
  exact next_after_congr (set_sems_self n (s.arrive t))

end

/-! ## A command inside a register write -/

/-- A command that has arrived arrives again at its instant as it stands: press time has slewed already. -/
theorem State.arrive_arrive_now (s : State) (t : Nat) : (s.arrive t).arrive (s.arrive t).now = s.arrive t := by
  have hpos : (0 : Int) < (sec8 : Int) := by decide
  have hfrac : ∀ x : Int, x % (sec8 : Int) / (sec8 : Int) = 0 := fun x =>
    Int.ediv_eq_zero_of_lt (Int.emod_nonneg x hpos.ne') (Int.emod_lt_of_pos x hpos)
  have hstop : ∀ u : Nat, max s.now (max t (min u (max s.now t))) - max s.now t = 0 := fun u => by omega
  cases h : s.xlk.slewUntil <;> simp [State.arrive, State.advance, h, hfrac, hstop]

/-- A command inside a register write leaves what the command on its own leaves. -/
theorem run_andThen (t : Nat) (s : State) {act : Nat → State → Res} {f : State → State}
    (hact : ∀ t s, act t s = run t s f) : run t s (fun s => andThen s (act s.now)) = act t s := by
  have hinner : andThen (s.arrive t) (act (s.arrive t).now) =
      { f (s.arrive t) with now := max (s.arrive t).now (s.arrive t).now, pending := s.pending } := by
    rw [andThen, hact, run_eq, State.arrive_arrive_now]
    rfl
  rw [hact, run_eq, run_eq]
  simp only [hinner]

/-- The address of a semaphore's register selects the semaphore. -/
theorem actingPrivileged_semOp (n : Fin 64) (value : Word) (s : State) :
    actingPrivileged (0x460200 + 4 * n) value s = some (writeSemOp n value s) := by
  have hn := n.isLt
  have hsem : Fin.ofNat 64 ((0x460200 + 4 * n.val - 0x460200) / 4) = n := Fin.ext (by simp)
  unfold actingPrivileged
  simp (disch := omega) only [if_neg, if_pos, hsem]

/-- A write to a semaphore's register does what its ACQ and REL bits say. -/
theorem exec_registerWrite_semOp {s : State} (hr : s.ringsRun = true) (t : Nat) (n : Fin 64) (value : Word) :
    exec (.registerWrite t (0x460200 + 4 * n) value) s = run t s (writeSemOp n value) := by
  have hn := n.isLt
  have hblock : blockResponds (s.arrive t) (0x460200 + 4 * n) = true := by
    have hmode : s.dev.mode ≠ .boot ∧ s.dev.mode ≠ .recovery := by simpa [State.ringsRun] using hr
    unfold blockResponds
    split
    · exact absurd ‹_› hmode.1
    · exact absurd ‹_› hmode.2
    · rfl
  change execRegisterWrite t (0x460200 + 4 * n) value s = _
  unfold execRegisterWrite
  simp (disch := omega) only [if_neg, run_eq, writeRegister, hblock, Bool.not_true, Bool.false_eq_true, ↓reduceIte,
    actingPrivileged_semOp]

/-- A byte of a word, by its bits. -/
theorem ofNat_bitsOf_byte (w : Word) (lo : Nat) : BitVec.ofNat 8 (bitsOf w (lo + 7) lo) = w.extractLsb' lo 8 := by
  apply BitVec.eq_of_toNat_eq
  simp [bitsOf, BitVec.extractLsb'_toNat, Nat.shiftRight_eq_div_pow]

/-- Of two acquires of a FREE semaphore the first has it. -/
theorem step_semAcquire_twice {s : State} (hr : s.ringsRun = true) {n : Fin 64} (hfree : (s.sems[n]).st = .free) (t : Nat)
    (f i g f' i' g' : Byte) (rest : List Instr) :
    ∃ u v, step { s with pending := .semAcquire t n f i g :: .semAcquire t n f' i' g' :: rest } = .next u ∧
      step u = .next v ∧ v.pending = rest ∧ v.sems[n] = { st := .owned, code := 0x00, func := f, inst := i, tag := g } := by
  let owned : Sem := { st := .owned, code := 0x00, func := f, inst := i, tag := g }
  let u (p : List Instr) : State := after t { s with pending := p } fun s => { s with sems := s.sems.set n owned }
  have hu : (u rest).sems[n] = owned := Vector.getElem_set_self n.isLt
  refine ⟨u (.semAcquire t n f' i' g' :: rest), after t (u rest) id, ?_, ?_, rfl, hu⟩
  · rw [step_cons]
    exact exec_semAcquire (s := { s with pending := .semAcquire t n f' i' g' :: rest }) hr t n f i g
      (by simp only [Sem.acquire, hfree]; rfl)
  · exact exec_semAcquire_of_owned (s := u rest) hr t n f' i' g' (congrArg Sem.st hu)

/-- Settles O56: a semaphore is decided by its own state and owner, and a write to its register is the acquire or release
that it spells. -/
theorem semaphores : Obligations.Semaphores := by
  intro t n f i g value s hr
  have hbyte : ∀ lo, BitVec.ofNat 8 (bitsOf value (lo + 7) lo) = value.extractLsb' lo 8 := ofNat_bitsOf_byte value
  refine ⟨fun h => exec_semAcquire hr t n f i g (by simp only [Sem.acquire, h]),
    fun h => exec_semAcquire hr t n f i g (by simp only [Sem.acquire, h]), exec_semAcquire_of_owned hr t n f i g,
    fun hst hf hi hg => exec_semRelease hr t n f i g (if_pos ⟨hst, hf, hi, hg⟩), exec_semRelease_of_other hr t n f i g,
    fun hacq hrel => ?_, fun hacq hrel => ?_, fun f' i' g' rest hfree => step_semAcquire_twice hr hfree t f i g f' i' g' rest,
    fun hbits => ?_⟩
  · rw [exec_registerWrite_semOp hr]
    refine Eq.trans ?_ (run_andThen t s (act := fun t => execSemAcquire t n _ _ _)
      (f := fun s => if s.ringsRun then { s with sems := upd s.sems n fun m => m.acquire _ _ _ } else s) fun _ _ => rfl)
    simp only [run_eq, writeSemOp, hacq, hrel, ← hbyte]
  · rw [exec_registerWrite_semOp hr]
    refine Eq.trans ?_ (run_andThen t s (act := fun t => execSemRelease t n _ _ _)
      (f := fun s => if s.ringsRun then { s with sems := upd s.sems n fun m => m.release _ _ _ } else s) fun _ _ => rfl)
    simp only [run_eq, writeSemOp, hacq, hrel, ← hbyte]
  · rw [exec_registerWrite_semOp hr]
    refine run_eq_after ?_
    unfold writeSemOp
    rw [← hbits]
    cases value.getLsbD 31 <;> rfl

end Sys2Proof.Machine
end

section
/-! What a stepper's move as a pacer source leaves (R167): the motion hardware. -/
namespace Sys2Proof.Machine

open Sys2Proof.Claim

theorem alarm_motion (a : Alarm) (inst : Nat) (s : State) : (alarm a inst s).motion = s.motion :=
  sameMotion_iff.mp (sameMotion_alarm a inst s)

theorem settleJob_motion (ctx : Fin 64) (s : State) : (settleJob ctx s).motion = s.motion :=
  sameMotion_iff.mp (sameMotion_of_sansSettling (sansSettling_settleJob ctx s))

theorem missSlot_motion (x : FireSlot) (s : State) : (missSlot x s).motion = s.motion := by
  obtain ⟨out, hcancel⟩ : ∃ out, (if x.st = .sent then toSlotHubs x .cancel s else s) = { s with out := out } := by
    split
    · exact toSlotHubs_eq ..
    · exact ⟨s.out, rfl⟩
  unfold missSlot
  rw [hcancel]
  extract_lets s₁ s₂ s₃ ctx
  obtain ⟨jobs, hflag⟩ := flagWales_eq ctx (Fin.ofNat 8 x.plane) x.course 2 x.printed s₃
  obtain ⟨log, regs, hdiag⟩ := diag_eq .courseMissed x.plane x.row x.course 0 (s₂.count Reg.pacMissed x.plane)
  rw [settleJob_motion, hflag]
  simp only [s₃, hdiag]
  rfl

theorem unlockedPass_motion (s : State) : (unlockedPass s).motion = s.motion := by
  cases hlock : s.pac.est.locked with
  | true => simp only [unlockedPass, hlock]
  | false =>
    cases htb : s.str.tables with
    | none => simp only [unlockedPass, hlock, htb]
    | some tb =>
      obtain ⟨jobs, h⟩ := unlockedPass_eq hlock htb
      rw [h]
      exact foldl_leaves (g := State.motion) (fun s x => missSlot_motion x s) _ s

theorem relock_motion (s : State) : (relock s).motion = s.motion := by
  obtain ⟨late, h⟩ := relock_eq s
  rw [h]
  exact foldl_leaves (g := State.motion) (fun s x => missSlot_motion x s) _ s

theorem handoverFail_motion (s : State) : (handoverFail s).motion = s.motion := alarm_motion ..

theorem handoverSwitch_motion (s : State) : (handoverSwitch s).motion = s.motion := by
  unfold handoverSwitch
  split
  · rfl
  · extract_lets c m off
    split_ifs
    · rfl
    · rfl
    · exact handoverFail_motion s

theorem checkReverse_motion (s : State) : (checkReverse s).motion = s.motion := by
  unfold checkReverse
  split_ifs
  · exact (congrArg Prod.fst (motionWords_abortActive _)).trans (alarm_motion ..)
  · rfl

theorem masterMoved_motion (s : State) : (masterMoved s).motion = s.motion := by
  unfold masterMoved
  extract_lets s₁ s₂ s₃ s₄
  have hreversed : s₃.motion = s.motion := (checkReverse_motion _).trans (handoverSwitch_motion _)
  exact (unlockedPass_motion _).trans hreversed

/-- A step that runs under a condition leaves what it leaves. -/
theorem when_motion {f : State → State} (h : ∀ s, (f s).motion = s.motion) (b : Bool) (s : State) :
    (when b f s).motion = s.motion := by
  cases b
  · rfl
  · exact h s

theorem takeEst_motion (e : Est) (lost : Bool) (s : State) : (takeEst e lost s).motion = s.motion := by
  unfold takeEst
  extract_lets was s₁ s₂ s₃ s₄
  have hlost : s₃.motion = s.motion := by
    have hwhen : s₂.motion = s.motion := when_motion (fun s => alarm_motion ..) _ s₁
    simp only [s₃]
    split_ifs
    · exact (handoverFail_motion _).trans hwhen
    · exact hwhen
  exact ((when_motion relock_motion _ _).trans (masterMoved_motion _)).trans hlost

theorem pacStepper_motion (n : Fin 16) (s : State) : (pacStepper n s).motion = s.motion := by
  unfold pacStepper
  split
  · rfl
  extract_lets x may w s₁ e s₂ h cand lost s₃
  have hmaster : s₂.motion = s.motion := by
    simp only [s₂]
    split_ifs
    · refine (takeEst_motion ..).trans ?_
      simp only [s₁]
      split_ifs <;> rfl
    · rfl
  rw [← hmaster]
  split_ifs
  · exact handoverFail_motion s₃
  · rfl
  · rfl

end Sys2Proof.Machine
end

section
/-! One stepper axis of the state: what a change to it leaves, and what bringing it up to the present clock does (R280). -/
namespace Sys2Proof.Machine

open Sys2Proof.Claim

theorem modStp_stp_self (s : State) (n : Fin 16) (f : Stp → Stp) : (s.modStp n f).stp[n] = f s.stp[n] := upd_getElem_self ..

theorem modStp_stp_of_ne {n m : Fin 16} (h : m ≠ n) (s : State) (f : Stp → Stp) : (s.modStp n f).stp[m] = s.stp[m] :=
  upd_getElem_of_ne h ..

theorem modStp_modStp (s : State) (n : Fin 16) (f g : Stp → Stp) :
    (s.modStp n f).modStp n g = s.modStp n fun x => g (f x) := by
  rw [State.modStp, State.modStp_stp, upd_upd]
  rfl

/-- A change that gives an axis back as it stands changes nothing. -/
theorem modStp_of_fixed {s : State} {n : Fin 16} {f : Stp → Stp} (h : f s.stp[n] = s.stp[n]) : s.modStp n f = s := by
  rw [State.modStp, upd, h, Fin.getElem_fin, Vector.set_getElem_self]

theorem after_stp (t : Nat) (s : State) (f : State → State) : (after t s f).stp = (f (s.arrive t)).stp := rfl

/-- A state whose motion hardware is that of a change to one axis: the axis is changed, and nothing else of it. -/
theorem axis_of_motion {s s' : State} {n : Fin 16} {f : Stp → Stp} (h : s'.motion = (s.modStp n f).motion) :
    s'.stp[n] = f s.stp[n] ∧ (∀ m, m ≠ n → s'.stp[m] = s.stp[m]) ∧ s'.ba = s.ba := by
  have hstp : s'.stp = (s.modStp n f).stp := congrArg (·.2.2.1) h
  have hba : s'.ba = (s.modStp n f).ba := congrArg (·.1) h
  exact ⟨by rw [hstp, modStp_stp_self], fun m hm => by rw [hstp, modStp_stp_of_ne hm], hba⟩

/-- A further change to the axis. -/
theorem modStp_motion_of_motion {s s' : State} {n : Fin 16} {f : Stp → Stp} (h : s'.motion = (s.modStp n f).motion)
    (g : Stp → Stp) : (s'.modStp n g).motion = (s.modStp n fun x => g (f x)).motion := by
  have hmod : ∀ y z : State, y.motion = z.motion → (y.modStp n g).motion = (z.modStp n g).motion := fun y z hyz => by
    simp only [State.motion, Prod.mk.injEq] at hyz ⊢
    obtain ⟨hba, hsd, hstp, henc⟩ := hyz
    exact ⟨hba, hsd, congrArg (fun v => upd v n g) hstp, henc⟩
  rw [hmod _ _ h, modStp_modStp]

/-- A command of one axis, whose effect changes the motion hardware as a change to that axis does. -/
theorem leaves_axis {c : Instr} {t : Nat} {s : State} {n : Fin 16} {f : Stp → Stp} {g : State → State} {P : State → Prop}
    (hexec : exec c s = run t s g) (hmotion : (g (s.arrive t)).motion = ((s.arrive t).modStp n f).motion)
    (hP : ∀ s' : State, s'.stp[n] = f s.stp[n] → (∀ m, m ≠ n → s'.stp[m] = s.stp[m]) → s'.ba = s.ba →
      s' = after t s g → P s') : Leaves c s P := by
  obtain ⟨hself, hother, hba⟩ := axis_of_motion hmotion
  exact ⟨after t s g, hexec, hP _ hself hother hba rfl⟩

/-- A command whose effect is a change to one axis. -/
theorem leaves_modStp {c : Instr} {t : Nat} {s : State} {n : Fin 16} {f : State → Stp → Stp} {P : State → Prop}
    (hexec : exec c s = .next (after t s fun s => s.modStp n (f s)))
    (hP : ∀ s' : State, s'.stp[n] = f (s.arrive t) s.stp[n] → (∀ m, m ≠ n → s'.stp[m] = s.stp[m]) → s'.ba = s.ba →
      s'.regs = s.regs → P s') : Leaves c s P :=
  ⟨_, hexec, hP _ (modStp_stp_self ..) (fun _ hm => modStp_stp_of_ne hm ..) rfl rfl⟩

/-! ## Catching up -/

/-- An axis at the clock `now`: its position has moved by its velocity. -/
def Stp.caughtUp (mresLog now : Nat) (x : Stp) : Stp :=
  { x.advance mresLog ((now - x.updatedAt) / 20) with updatedAt := x.updatedAt + 20 * ((now - x.updatedAt) / 20) }

theorem stpCatchUp_eq (n : Fin 16) (s : State) : stpCatchUp n s = s.modStp n (Stp.caughtUp (s.mres n) s.now) := rfl

/-- A standing axis stays where it is. -/
theorem advance_of_standing {x : Stp} (hv : x.v = 0) (hf : x.f < 2 ^ 40) (mresLog k : Nat) :
    (x.advance mresLog k).p = x.p ∧ (x.advance mresLog k).f = x.f := by
  have hmoved : floorDiv ((x.f : Int) + x.v * k) (2 ^ 40) = 0 := by
    rw [hv, zero_mul, add_zero, floorDiv]
    exact Int.fdiv_eq_zero_of_lt (Int.natCast_nonneg _) (by exact_mod_cast hf)
  simp only [Stp.advance, hmoved]
  simp [hv]

theorem caughtUp_of_standing {x : Stp} (hv : x.v = 0) (hf : x.f < 2 ^ 40) (mresLog now : Nat) :
    (x.caughtUp mresLog now).p = x.p ∧ (x.caughtUp mresLog now).f = x.f :=
  advance_of_standing hv hf mresLog _

/-- The reference of the deviation taken after a change to the axis. -/
theorem captureRef_modStp (n : Fin 16) (f : Stp → Stp) (s : State) :
    captureRef n (s.modStp n f) = s.modStp n fun x => { f x with c0 := stpCount s n, p0 := (f x).p, dev := 0 } :=
  modStp_modStp ..

end Sys2Proof.Machine
end

section
/-! States of a stepper axis (R283, R291, R294, R297), and obligation O36. -/
namespace Sys2Proof.Machine

open Sys2Proof.Claim

section
variable {t : Nat} {n : Fin 16} {s : State}

/-! ## Enabling -/

theorem firstRefusal_stpEnableConds_badMode (h : s.modeIn [.standby, .service, .print] = false) :
    firstRefusal (stpEnableConds s n) = .badMode := by
  simp [stpEnableConds, h]

theorem firstRefusal_stpEnableConds_safety (h : s.modeIn [.standby, .service, .print] = true) (hhold : s.dev.holdN = false) :
    firstRefusal (stpEnableConds s n) = .safety := by
  simp [stpEnableConds, h, hhold]

theorem firstRefusal_stpEnableConds_badState (h : s.modeIn [.standby, .service, .print] = true) (hhold : s.dev.holdN = true)
    (hstate : 2 ≤ s.dev.holdClass ∨ (s.stp[n]).fault ≠ 0 ∨ (s.stp[n]).power = false) :
    firstRefusal (stpEnableConds s n) = .badState := by
  have hcond : (decide (2 ≤ s.dev.holdClass) || (s.stp[n]).fault != 0 || !(s.stp[n]).power) = true := by
    obtain hclass | hfault | hpower := hstate
    · rw [decide_eq_true hclass, Bool.true_or, Bool.true_or]
    · rw [bne_iff_ne.mpr hfault, Bool.or_true, Bool.true_or]
    · rw [hpower, Bool.not_false, Bool.or_true]
  simp only [stpEnableConds, h, hhold, hcond]
  rfl

theorem exec_stpEnable_of_refused {st : Status} (h : firstRefusal (stpEnableConds s n) = st) (hst : st ≠ .ok) :
    exec (.stpEnable t n) s = .next (after t s fun s => s.recordErr Reg.stpErr n (stpOffset n 0) st) :=
  (run_eq_after (refuseOr_refused _ _ _ _ _ (show firstRefusal (stpEnableConds (s.arrive t) n) = st from h) hst) :
    execStpEnable t n s = _)

/-- An axis that is enabled: standing, without a plan, the deviation's reference at its position and count. -/
def Stp.enabled (now : Nat) (count : Int) (x : Stp) : Stp :=
  { x.drop with en := true, v := 0, clamps := 0, updatedAt := now, zeroSince := some now, c0 := count, p0 := x.p, dev := 0 }

theorem exec_stpEnable_of_ok (h : firstRefusal (stpEnableConds s n) = .ok) (hen : (s.stp[n]).en = false) :
    exec (.stpEnable t n) s =
      .next (after t s fun s => s.modStp n (Stp.enabled s.now (stpCount s n))) := by
  have hoff : ((s.arrive t).stp[n]).en = false := hen
  refine (run_eq_after ?_ : execStpEnable t n s = _)
  rw [refuseOr_ok _ _ _ _ _ (show firstRefusal (stpEnableConds (s.arrive t) n) = .ok from h), stpEnableAct,
    if_neg (by rw [hoff]; decide), captureRef_modStp]
  rfl

/-! ## Stopping -/

/-- An axis that R291's immediate stop has stopped. -/
def Stp.stopped (mresLog now : Nat) (x : Stp) : Stp :=
  { (x.caughtUp mresLog now).stopNow with home := none, zeroSince := some now }

theorem stopped_posUnsure_of_moving {x : Stp} {mresLog now : Nat} (h : x.v ≠ 0) : (x.stopped mresLog now).posUnsure = true := by
  have hmoved : ((x.caughtUp mresLog now).v != 0) = true := bne_iff_ne.mpr h
  exact Bool.or_eq_true_iff.mpr (.inr hmoved)

theorem stopped_posUnsure_of_standing {x : Stp} {mresLog now : Nat} (h : x.v = 0) :
    (x.stopped mresLog now).posUnsure = x.posUnsure := by
  have hstood : ((x.caughtUp mresLog now).v != 0) = false := bne_eq_false_iff_eq.mpr h
  exact (congrArg (x.posUnsure || ·) hstood).trans (Bool.or_false _)

/-- The immediate stop, but for the completion of a homing command and the lock of the pacer, changes the axis alone. -/
theorem stpStopNow_motion (n : Fin 16) (s : State) :
    (stpStopNow n s).motion = (s.modStp n (Stp.stopped (s.mres n) s.now)).motion := by
  have hmotion : ∀ b (y : State), (endHome b .aborted 0 y).motion = y.motion := fun b y =>
    congrArg Prod.fst (motionWords_endHome b .aborted 0 y)
  have hlock : ∀ y : State, (dropStepperLock n y).motion = y.motion := fun y => by
    unfold dropStepperLock loseLock
    split_ifs
    · exact when_motion (fun s => alarm_motion ..) _ _
    · rfl
    · rfl
  unfold stpStopNow
  extract_lets s₁ homing moved s₂
  have hstopped : s₂ = s.modStp n (Stp.stopped (s.mres n) s.now) := modStp_modStp ..
  rw [when_motion hlock, hmotion, hstopped]

theorem leaves_stpStop (h : (s.stp[n]).en = true) {P : State → Prop}
    (hP : ∀ s' : State, s'.stp[n] = (s.stp[n]).stopped (s.mres n) (max s.now t) → (∀ m, m ≠ n → s'.stp[m] = s.stp[m]) →
      s'.ba = s.ba → P s') : Leaves (.stpStop t n) s P := by
  refine leaves_axis (rfl : execStpStop t n s = run t s _) ?_ fun s' hself hother hba _ => hP s' hself hother hba
  exact (congrArg State.motion (if_pos h)).trans ((pacStepper_motion ..).trans (stpStopNow_motion ..))

theorem leaves_stpEnClear (h : (s.stp[n]).en = true) {P : State → Prop}
    (hP : ∀ s' : State, s'.stp[n] = { (s.stp[n]).stopped (s.mres n) (max s.now t) with en := false } →
      (∀ m, m ≠ n → s'.stp[m] = s.stp[m]) → s'.ba = s.ba → P s') : Leaves (.stpEnClear t n) s P := by
  refine leaves_axis (f := fun x => { x.stopped (s.mres n) (max s.now t) with en := false })
    (rfl : execStpEnClear t n s = run t s _) ?_ fun s' hself hother hba _ => hP s' hself hother hba
  exact (congrArg State.motion (if_pos h)).trans
    ((pacStepper_motion ..).trans (modStp_motion_of_motion (stpStopNow_motion n (s.arrive t)) _))

/-- An axis that plans its ramp down. -/
def Stp.haltedAt (mresLog now a : Nat) (x : Stp) : Stp := { (x.caughtUp mresLog now).rampStop a with home := none }

theorem leaves_stpHalt (h : (s.stp[n]).en = true) {P : State → Prop}
    (hP : ∀ s' : State, s'.stp[n] = (s.stp[n]).haltedAt (s.mres n) (max s.now t) (s.rd Reg.stpAmax n).toNat →
      (∀ m, m ≠ n → s'.stp[m] = s.stp[m]) → s'.ba = s.ba → P s') : Leaves (.stpHalt t n) s P := by
  refine leaves_axis (f := Stp.haltedAt (s.mres n) (max s.now t) (s.rd Reg.stpAmax n).toNat)
    (rfl : execStpHalt t n s = run t s _) ?_ fun s' hself hother hba _ => hP s' hself hother hba
  refine (congrArg State.motion (if_pos h)).trans ((congrArg Prod.fst (motionWords_endHome ..)).trans ?_)
  exact congrArg State.motion (modStp_modStp ..)

/-! ## Bridges -/

/-- A phase's chopper as a drive phase starts it. -/
def Chop.started (now d : Nat) (plus : Bool) (c : Chop) : Chop :=
  { c with st := if d = 0 then .slow else .drive, since := now, dac := d, plus := plus }

/-- An axis whose bridges are off. -/
def Stp.unpowered (x : Stp) : Stp :=
  { x with power := false, chopA := { x.chopA with st := .off, full := 0 }, chopB := { x.chopB with st := .off, full := 0 } }

/-- An axis whose phase A, or B, starts a drive phase. -/
def Stp.drivesA (now d : Nat) (plus : Bool) (x : Stp) : Stp := { x with chopA := x.chopA.started now d plus }

/-- The same of phase B. -/
def Stp.drivesB (now d : Nat) (plus : Bool) (x : Stp) : Stp := { x with chopB := x.chopB.started now d plus }

/-- An axis both of whose phases drive. -/
def Stp.powered (now a b : Nat) (plusA plusB : Bool) (x : Stp) : Stp :=
  { x with power := true, chopA := x.chopA.started now a plusA, chopB := x.chopB.started now b plusB }

theorem driveStart_phaseA (n : Fin 16) (s : State) :
    driveStart n false s = s.modStp n (Stp.drivesA s.now (stpDac s n false) (coil (s.stp[n]).e false).2) := rfl

theorem driveStart_phaseB (n : Fin 16) (s : State) :
    driveStart n true s = s.modStp n (Stp.drivesB s.now (stpDac s n true) (coil (s.stp[n]).e true).2) := rfl

/-- A phase's threshold depends on the register words and on the axis's homing, hold current and index alone. -/
theorem stpDac_congr {y z : State} (hregs : y.regs = z.regs) (hhome : (y.stp[n]).home = (z.stp[n]).home)
    (hcur : (y.stp[n]).holdCur = (z.stp[n]).holdCur) (he : (y.stp[n]).e = (z.stp[n]).e) (phaseB : Bool) :
    stpDac y n phaseB = stpDac z n phaseB := by
  simp only [stpDac, stpCurrent, hhome, hcur, he, fld_of_regs hregs]

theorem stpDac_modStp {f : Stp → Stp} (h : (f s.stp[n]).home = (s.stp[n]).home ∧ (f s.stp[n]).holdCur = (s.stp[n]).holdCur ∧
    (f s.stp[n]).e = (s.stp[n]).e) (phaseB : Bool) : stpDac (s.modStp n f) n phaseB = stpDac s n phaseB := by
  obtain ⟨hhome, hcur, he⟩ := h
  refine stpDac_congr (show (s.modStp n f).regs = s.regs from rfl) ?_ ?_ ?_ phaseB <;> rwa [modStp_stp_self]

theorem setPower_off (n : Fin 16) (y : State) : setPower n false y = y.modStp n Stp.unpowered := rfl

/-- Without power, energising drives both phases at the kept index. -/
theorem setPower_on {y : State} (h : (y.stp[n]).power = false) :
    setPower n true y = y.modStp n (Stp.powered y.now (stpDac y n false) (stpDac y n true)
      (coil (y.stp[n]).e false).2 (coil (y.stp[n]).e true).2) := by
  rw [setPower, if_pos rfl, if_neg (by rw [h]; decide), driveStart_phaseA, driveStart_phaseB,
    stpDac_modStp ⟨rfl, rfl, rfl⟩, stpDac_modStp ⟨rfl, rfl, rfl⟩, stpDac_modStp ⟨rfl, rfl, rfl⟩]
  simp only [modStp_stp_self, modStp_modStp]
  rfl

theorem exec_stpPower_off :
    exec (.stpPower t n false) s = .next (after t s fun s => s.modStp n fun x => (x.caughtUp (s.mres n) s.now).unpowered) := by
  refine (run_eq_after ?_ : execStpPower t n false s = _)
  exact modStp_modStp ..

theorem exec_stpPower_on (h : (s.stp[n]).power = false) :
    exec (.stpPower t n true) s = .next (after t s fun s => s.modStp n fun x =>
      (x.caughtUp (s.mres n) s.now).powered s.now (stpDac (stpCatchUp n s) n false) (stpDac (stpCatchUp n s) n true)
        (coil ((stpCatchUp n s).stp[n]).e false).2 (coil ((stpCatchUp n s).stp[n]).e true).2) := by
  refine (run_eq_after ?_ : execStpPower t n true s = _)
  have hoff : ((stpCatchUp n (s.arrive t)).stp[n]).power = false := by
    rw [stpCatchUp_eq, modStp_stp_self]
    exact h
  exact (setPower_on hoff).trans (modStp_modStp ..)

/-! ## Flags and the deviation's reference -/

theorem exec_stpFaultClr_of_gone (hv : (s.stp[n]).v = 0) (hdriver : (s.stp[n]).fault ≠ 1 ∨ (s.stp[n]).driverLow = false)
    (henc : (s.stp[n]).fault ≠ 4) :
    exec (.stpFaultClr t n) s = .next (after t s fun s => s.modStp n fun x => { x with fault := 0 }) := by
  refine (run_eq_after ?_ : execStpFaultClr t n s = _)
  extract_lets x present
  have hgone : present = false := by
    simp only [present]
    split
    next h1 => exact hdriver.resolve_left (not_not.mpr h1)
    next h4 _ => exact absurd h4 henc
    · rfl
  rw [hgone]
  exact if_pos ⟨hv, rfl⟩

theorem exec_stpFaultClr_of_present (h : (s.stp[n]).v ≠ 0 ∨ ((s.stp[n]).fault = 1 ∧ (s.stp[n]).driverLow = true)) :
    exec (.stpFaultClr t n) s = .next (after t s id) := by
  refine (run_eq_after ?_ : execStpFaultClr t n s = _)
  extract_lets x present
  refine if_neg fun hclear => ?_
  obtain ⟨hv, hpresent⟩ := hclear
  obtain hmoves | ⟨hfault, hlow⟩ := h
  · exact hmoves hv
  · have hstays : present = true := by
      have hfault' : x.fault = 1 := hfault
      simp only [present, hfault']
      exact hlow
    rw [hstays] at hpresent
    contradiction

theorem exec_stpSync : exec (.stpSync t n) s = .next (after t s fun s => s.modStp n fun x =>
    { x.caughtUp (s.mres n) s.now with c0 := stpCount s n, p0 := (x.caughtUp (s.mres n) s.now).p, dev := 0 }) :=
  (run_eq_after (captureRef_modStp ..) : execStpSync t n s = _)

end

/-- Settles O36: each command changes its axis alone, as the rule says for it; what it does to the pacer leaves the motion
hardware. -/
theorem stepperStates : Obligations.StepperStates := by
  intro t n s
  refine ⟨fun h hen => leaves_modStp (exec_stpEnable_of_ok h hen) fun s' hself hother hba hregs => ?_,
    fun h => exec_stpEnable_of_refused (firstRefusal_stpEnableConds_badMode h) (by decide),
    fun h hhold => exec_stpEnable_of_refused (firstRefusal_stpEnableConds_safety h hhold) (by decide),
    fun h hhold hstate => exec_stpEnable_of_refused (firstRefusal_stpEnableConds_badState h hhold hstate) (by decide),
    fun h => leaves_stpStop h fun s' hself hother hba => ?_, fun h => leaves_stpEnClear h fun s' hself hother hba => ?_,
    fun h => leaves_stpHalt h fun s' hself hother hba => ?_,
    leaves_modStp exec_stpPower_off fun s' hself hother hba hregs => ?_,
    fun h => leaves_modStp (exec_stpPower_on h) fun s' hself hother hba hregs => ?_, exec_stpFaultClr_of_gone,
    exec_stpFaultClr_of_present, rfl, rfl, leaves_modStp exec_stpSync fun s' hself hother hba hregs => ?_⟩
  · rw [hself]
    exact ⟨rfl, rfl, rfl, rfl, rfl, rfl, rfl, rfl, hother, hba, hregs⟩
  · rw [hself]
    exact ⟨rfl, rfl, rfl, rfl, rfl, h, stopped_posUnsure_of_moving, stopped_posUnsure_of_standing, hother, hba⟩
  · rw [hself]
    exact ⟨rfl, rfl, rfl, stopped_posUnsure_of_moving, hother, hba⟩
  · rw [hself]
    exact ⟨rfl, rfl, rfl, h, rfl, rfl, bne_iff_ne, hother, hba⟩
  · rw [hself]
    exact ⟨rfl, rfl, rfl, hother, hba, hregs⟩
  · have hdac : ∀ b, stpDac s' n b = stpDac (stpCatchUp n (s.arrive t)) n b := fun b => by
      refine stpDac_congr (show s'.regs = (stpCatchUp n (s.arrive t)).regs from hregs) ?_ ?_ ?_ b <;> rw [hself, stpCatchUp_eq, modStp_stp_self] <;> rfl
    rw [hdac, hdac, hself]
    refine ⟨rfl, rfl, rfl, ?_, hother, hba, hregs⟩
    simp only [Stp.powered, Chop.started]
    split_ifs with hzero <;> simp [hzero]
  · rw [hself]
    exact ⟨rfl, rfl, rfl, fun hv hf => (caughtUp_of_standing hv hf (s.mres n) _).1, rfl, hother, hregs⟩

end Sys2Proof.Machine
end

section
/-! A stepper's update, choppers and driver faults (R282 to R284, R296), and obligation O38. -/
namespace Sys2Proof.Machine

open Sys2Proof.Claim

/-! ## What a cause of a hold leaves of a disabled stepper -/

/-- From the first state to the second, a stepper is as it was and no alarm has been cleared. -/
def StpKept (n : Fin 16) (s s' : State) : Prop := s'.stp[n] = s.stp[n] ∧ LatchKept s s'

theorem StpKept.refl (n : Fin 16) (s : State) : StpKept n s s := ⟨rfl, .refl s⟩

theorem StpKept.trans {n : Fin 16} {s s' s'' : State} (h : StpKept n s s') (h' : StpKept n s' s'') : StpKept n s s'' :=
  ⟨h'.1.trans h.1, h.2.trans h'.2⟩

theorem stpKept_of_motionWords {s s' : State} (h : s'.motionWords = s.motionWords) (n : Fin 16) : StpKept n s s' :=
  ⟨congrArg (fun v => v.1.2.2.1[n]) h, latchKept_of_motionWords h⟩

theorem stpKept_alarmArgs (n : Fin 16) (a : Alarm) (inst : Nat) (a0 a1 a2 : Int) (s : State) :
    StpKept n s (alarmArgs a inst a0 a1 a2 s) := by
  obtain ⟨-, -, hstp, -⟩ := sameMotion_of_sansReports (sansReports_alarmArgs a inst a0 a1 a2 s)
  exact ⟨by rw [hstp], latchKept_alarmArgs a inst a0 a1 a2 s⟩

theorem stpKept_dropStepperLock (n : Fin 16) (m : Nat) (s : State) : StpKept n s (dropStepperLock m s) := by
  unfold dropStepperLock loseLock when
  simp only []
  split_ifs
  · exact stpKept_alarmArgs n _ _ _ _ _ _
  · exact .refl n s
  · exact .refl n s
  · exact .refl n s

/-- A stop of another stepper: its axis is changed, and a homing command of it ends. -/
theorem stpKept_endHome_modStp {n m : Fin 16} (h : n ≠ m) (f : Stp → Stp) (homing : Bool) (s : State) :
    StpKept n s (endHome homing .aborted 0 ((stpCatchUp m s).modStp m f)) := by
  have hstopped : StpKept n s ((stpCatchUp m s).modStp m f) :=
    ⟨by rw [modStp_stp_of_ne h, stpCatchUp_eq, modStp_stp_of_ne h], .of_regs rfl⟩
  exact hstopped.trans (stpKept_of_motionWords (motionWords_endHome ..) n)

theorem stpKept_stpStopNow {n m : Fin 16} (h : n ≠ m) (s : State) : StpKept n s (stpStopNow m s) := by
  unfold stpStopNow when
  simp only []
  split
  · exact (stpKept_endHome_modStp h ..).trans (stpKept_dropStepperLock n m _)
  · exact stpKept_endHome_modStp h ..

theorem stpKept_stpRampStop {n m : Fin 16} (h : n ≠ m) (s : State) : StpKept n s (stpRampStop m s) :=
  stpKept_endHome_modStp h ..

theorem stpKept_baStop (n : Fin 16) (m : Fin 8) (brake : Bool) (s : State) : StpKept n s (baStop m brake s) :=
  StpKept.trans ⟨rfl, .of_regs rfl⟩ (stpKept_of_motionWords (motionWords_endHome ..) n)

/-- A stop of the enabled axes leaves a stepper that is not. -/
theorem stpKept_motionFor {n : Fin 16} {s : State} (h : (s.stp[n]).en = false) (cls : Nat) :
    StpKept n s (motionFor cls s) := by
  unfold motionFor
  simp only []
  split
  · exact .refl n s
  · have hbrushless : StpKept n s ((List.finRange 8).foldl (fun s m =>
        if (s.ba[m]).en then baStop m (cls == 3) s else s) s) := by
      refine List.foldlRecOn (motive := fun x => StpKept n s x) _ _ (.refl n s) fun x hx m _ => ?_
      split
      · exact hx.trans (stpKept_baStop n m _ x)
      · exact hx
    refine List.foldlRecOn (motive := fun x => StpKept n s x) _ _ hbrushless fun x hx m _ => ?_
    have hne : (x.stp[m]).en = true → n ≠ m := by
      rintro hen rfl
      rw [hx.1, h] at hen
      contradiction
    split_ifs with hen
    · exact hx.trans (stpKept_stpStopNow (hne hen) x)
    · exact hx.trans (stpKept_stpRampStop (hne hen) x)
    · exact hx

theorem stpKept_enterHold {n : Fin 16} {s : State} (h : (s.stp[n]).en = false) (cls : Nat) :
    StpKept n s (enterHold cls s) := by
  have hstopped : (endService (abortActive (sendStops
      (s.modDev fun d => { d with hold := true, holdClass := cls, holdAt := s.press })))).motionWords = s.motionWords := by
    rw [motionWords_endService, motionWords_abortActive, motionWords_sendStops]
    rfl
  have hkept := stpKept_of_motionWords hstopped n
  exact hkept.trans (stpKept_motionFor (by rw [hkept.1, h]) cls)

/-- A cause of a hold leaves a stepper that is disabled, and the alarms. -/
theorem stpKept_holdCause {n : Fin 16} {s : State} (h : (s.stp[n]).en = false) (bit : Nat) :
    StpKept n s (holdCause bit s) := by
  unfold holdCause
  simp only []
  split_ifs
  · exact stpKept_motionFor (s := (latchCause bit s).modDev _) h _
  · exact .refl n s
  · exact stpKept_enterHold (s := latchCause bit s) h _
  · exact .refl n s

/-! ## A stepper faults -/

/-- One more event that a latched fault has met, up to 255. -/
def countStpLatched (n : Fin 16) (s : State) : State := s.setFld Reg.stpErr n 31 24 (min 255 (s.fld Reg.stpErr n 31 24 + 1))

theorem fld_countStpLatched (n : Fin 16) (s : State) :
    (countStpLatched n s).fld Reg.stpErr n 31 24 = min 255 (s.fld Reg.stpErr n 31 24 + 1) := by
  have hfield := bitsOf_setBits (s.rd Reg.stpErr n) (hi := 31) (lo := 24) (v := min 255 (s.fld Reg.stpErr n 31 24 + 1))
    (by decide) (by decide) (by omega)
  have hword : setBits (s.rd Reg.stpErr n) 31 24 (min 255 (s.fld Reg.stpErr n 31 24 + 1)) ≠ Reg.stpErr.reset := fun h => by
    rw [h] at hfield
    simp only [Reg.stpErr, bitsOf, BitVec.toNat_ofNat] at hfield
    omega
  rw [countStpLatched, State.setFld, State.fld, rd_wr_self hword, hfield]

/-- An axis that a fault of the driver or an open load has latched on: stopped at once, disabled, its bridges off. -/
def Stp.faulted (code mresLog now : Nat) (x : Stp) : Stp :=
  Stp.unpowered { x.stopped mresLog now with fault := code, en := false, holdCur := true }

section
variable {n : Fin 16} {s : State}

theorem stpFault_of_latched (h : (s.stp[n]).fault ≠ 0) (code : Nat) : stpFault n code s = countStpLatched n s := if_pos h

/-- An enabled axis without a fault takes one that turns its bridges off, and MOT_FAULT latches. -/
theorem stpFault_of_enabled {code : Nat} (hcode : code ≤ 2) (h : (s.stp[n]).fault = 0) (hen : (s.stp[n]).en = true) :
    (stpFault n code s).stp[n] = (s.stp[n]).faulted code (s.mres n) s.now ∧
      bitOf (stpFault n code s) Reg.evtAlarmLatch 0 20 = true := by
  obtain ⟨y, hy⟩ : ∃ y, y = pacStepper n (((stpStopNow n s).modStp n
    fun x => { x with fault := code, en := false, holdCur := true }).modStp n Stp.unpowered) := ⟨_, rfl⟩
  have hfault : stpFault n code s = holdCause 5 (alarmArgs .motFault n code 0 0 y) := by
    rw [hy]
    refine (if_neg (not_not.mpr h)).trans ((if_pos hen).trans ?_)
    simp only [if_pos hcode, setPower_off]
  have hmotion : y.motion = (s.modStp n (Stp.faulted code (s.mres n) s.now)).motion := by
    rw [hy, pacStepper_motion]
    exact modStp_motion_of_motion (modStp_motion_of_motion (stpStopNow_motion n s) _) _
  obtain ⟨hself, -, -⟩ := axis_of_motion hmotion
  have halarm := stpKept_alarmArgs n .motFault n code 0 0 y
  have hhold : StpKept n (alarmArgs .motFault n code 0 0 y) (holdCause 5 (alarmArgs .motFault n code 0 0 y)) :=
    stpKept_holdCause (by rw [halarm.1, hself]; rfl) 5
  rw [hfault]
  exact ⟨hhold.1.trans (halarm.1.trans hself), hhold.2 0 (by decide) 20 (alarmArgs_bitOf .motFault n code 0 0 y)⟩

end

section
variable {t : Nat} {n : Fin 16} {s : State}

/-- A command whose effect is such a fault, after a change to the axis that neither moves, stops nor faults it. -/
theorem leaves_stpFault {c : Instr} {code : Nat} (hcode : code ≤ 2) {f : Stp → Stp}
    (hexec : exec c s = .next (after t s fun s => stpFault n code (s.modStp n f)))
    (hf : (f s.stp[n]).fault = (s.stp[n]).fault ∧ (f s.stp[n]).en = (s.stp[n]).en ∧ (f s.stp[n]).v = (s.stp[n]).v)
    (hen : (s.stp[n]).en = true) (hfault : (s.stp[n]).fault = 0) :
    Leaves c s fun s' => ((s'.stp[n]).fault = code ∧ (s'.stp[n]).en = false ∧ (s'.stp[n]).v = 0 ∧
      ((s.stp[n]).v ≠ 0 → (s'.stp[n]).posUnsure = true) ∧ bitOf s' Reg.evtAlarmLatch 0 20 = true) ∧
      (s'.stp[n]).power = false := by
  obtain ⟨hfaultF, henF, hvF⟩ := hf
  have hself : ((s.arrive t).modStp n f).stp[n] = f s.stp[n] := modStp_stp_self ..
  obtain ⟨hstp, hlatch⟩ := stpFault_of_enabled (s := (s.arrive t).modStp n f) hcode (by rw [hself, hfaultF, hfault])
    (by rw [hself, henF, hen])
  refine ⟨_, hexec, ?_⟩
  simp only [after_stp, hstp, hself]
  exact ⟨⟨rfl, rfl, rfl, fun hv => stopped_posUnsure_of_moving (by rwa [hvF]), hlatch⟩, rfl⟩

/-! ## The driver's fault pin -/

theorem exec_stpDriverFault_of_long {lowNs : Nat} (h : 1000 ≤ lowNs) :
    exec (.stpDriverFault t n lowNs) s = .next (after t s fun s =>
      stpFault n 1 (s.modStp n fun x => { x with driverLow := decide (0 < lowNs) })) :=
  (run_eq_after (if_pos h) : execStpDriverFault t n lowNs s = _)

theorem exec_stpDriverFault_of_latched {lowNs : Nat} (hlong : 1000 ≤ lowNs) (h : (s.stp[n]).fault ≠ 0) :
    exec (.stpDriverFault t n lowNs) s = .next (after t s fun s =>
      countStpLatched n (s.modStp n fun x => { x with driverLow := decide (0 < lowNs) })) := by
  rw [exec_stpDriverFault_of_long hlong]
  refine next_after_congr (stpFault_of_latched ?_ 1)
  rwa [modStp_stp_self]

/-! ## Choppers -/

section
variable {phaseB : Bool} {mv : Nat}

theorem exec_chopperTrip_of_over (hdrive : (chopOf s n phaseB).st = .drive)
    (hblank : (chopOf s n phaseB).since + s.fld Reg.stpChop n 7 0 * 80 ≤ max s.now t)
    (hover : (chopOf s n phaseB).dac * 2000 < mv) :
    exec (.chopperTrip t n phaseB mv) s = .next (after t s fun s =>
      setChop n phaseB { chopOf s n phaseB with st := .slow, since := s.now, full := 0 } s) :=
  (run_eq_after (if_pos ⟨hdrive, hblank, hover⟩) : execChopperTrip t n phaseB mv s = _)

theorem exec_chopperTrip_of_not (h : (chopOf s n phaseB).st ≠ .drive ∨ mv ≤ (chopOf s n phaseB).dac * 2000 ∨
    max s.now t < (chopOf s n phaseB).since + s.fld Reg.stpChop n 7 0 * 80) :
    exec (.chopperTrip t n phaseB mv) s = .next (after t s id) := by
  refine (run_eq_after ?_ : execChopperTrip t n phaseB mv s = _)
  refine if_neg ?_
  rintro ⟨hdrive, hblank, hover⟩
  obtain hst | hunder | hearly := h
  · exact hst hdrive
  · exact hunder.not_gt hover
  · exact hearly.not_ge hblank

/-- Slow decay gives way to fast decay. -/
theorem exec_chopperOffTimeEnd_slow_fast (hst : (chopOf s n phaseB).st = .slow) (hdac : (chopOf s n phaseB).dac ≠ 0)
    (hdue : (chopOf s n phaseB).since + (decayTimes s n).1 ≤ max s.now t) (hfast : (decayTimes s n).2 ≠ 0) :
    exec (.chopperOffTimeEnd t n phaseB) s = .next (after t s fun s =>
      setChop n phaseB { chopOf s n phaseB with st := .fast, since := s.now } s) := by
  refine (run_eq_after ?_ : execChopperOffTimeEnd t n phaseB s = _)
  have hst' : (chopOf (s.arrive t) n phaseB).st = .slow := hst
  simp only [hst']
  exact (if_pos (.inr hdue)).trans (if_neg (not_or.mpr ⟨hdac, hfast⟩))

/-- Without fast decay, or after it, the next drive phase starts. -/
theorem exec_chopperOffTimeEnd_drive (h : ((chopOf s n phaseB).st = .slow ∧ (chopOf s n phaseB).dac ≠ 0 ∧
      (chopOf s n phaseB).since + (decayTimes s n).1 ≤ max s.now t ∧ (decayTimes s n).2 = 0) ∨
    ((chopOf s n phaseB).st = .fast ∧ (chopOf s n phaseB).since + (decayTimes s n).2 ≤ max s.now t)) :
    exec (.chopperOffTimeEnd t n phaseB) s = .next (after t s (driveStart n phaseB)) := by
  refine (run_eq_after ?_ : execChopperOffTimeEnd t n phaseB s = _)
  obtain ⟨hst, -, hdue, hfast⟩ | ⟨hst, hdue⟩ := h
  · have hst' : (chopOf (s.arrive t) n phaseB).st = .slow := hst
    simp only [hst']
    exact (if_pos (.inr hdue)).trans (if_pos (.inr hfast))
  · have hst' : (chopOf (s.arrive t) n phaseB).st = .fast := hst
    simp only [hst']
    exact if_pos hdue

theorem exec_chopperOffTimeEnd_early (h : ((chopOf s n phaseB).st = .slow ∧ (chopOf s n phaseB).dac ≠ 0 ∧
      max s.now t < (chopOf s n phaseB).since + (decayTimes s n).1) ∨ (chopOf s n phaseB).st = .drive ∨
    (chopOf s n phaseB).st = .off) : exec (.chopperOffTimeEnd t n phaseB) s = .next (after t s id) := by
  refine (run_eq_after ?_ : execChopperOffTimeEnd t n phaseB s = _)
  obtain ⟨hst, hdac, hearly⟩ | hst | hst := h
  · have hst' : (chopOf (s.arrive t) n phaseB).st = .slow := hst
    simp only [hst']
    exact if_neg (not_or.mpr ⟨hdac, hearly.not_ge⟩)
  · have hst' : (chopOf (s.arrive t) n phaseB).st = .drive := hst
    simp only [hst']
    rfl
  · have hst' : (chopOf (s.arrive t) n phaseB).st = .off := hst
    simp only [hst']
    rfl

/-- A drive phase that has lasted 100 µs. -/
def drivenOut (n : Fin 16) (phaseB : Bool) (s : State) : State :=
  setChop n phaseB { chopOf s n phaseB with
    st := .slow, since := s.now, full := if 16 ≤ (chopOf s n phaseB).dac then (chopOf s n phaseB).full + 1 else 0 } s

theorem exec_drivePhaseTimeout_of_due (hst : (chopOf s n phaseB).st = .drive)
    (hdue : (chopOf s n phaseB).since + 800000 ≤ max s.now t) :
    exec (.drivePhaseTimeout t n phaseB) s = .next (after t s fun s =>
      if 8 ≤ (if 16 ≤ (chopOf s n phaseB).dac then (chopOf s n phaseB).full + 1 else 0) then
        stpFault n 2 (drivenOut n phaseB s) else drivenOut n phaseB s) := by
  refine (run_eq_after ?_ : execDrivePhaseTimeout t n phaseB s = _)
  exact if_pos ⟨hst, hdue⟩

theorem exec_drivePhaseTimeout_of_few (hst : (chopOf s n phaseB).st = .drive)
    (hdue : (chopOf s n phaseB).since + 800000 ≤ max s.now t)
    (hfew : (chopOf s n phaseB).dac < 16 ∨ (chopOf s n phaseB).full < 7) :
    exec (.drivePhaseTimeout t n phaseB) s = .next (after t s (drivenOut n phaseB)) := by
  rw [exec_drivePhaseTimeout_of_due hst hdue]
  refine next_after_congr (if_neg ?_)
  change ¬8 ≤ (if 16 ≤ (chopOf s n phaseB).dac then (chopOf s n phaseB).full + 1 else 0)
  split_ifs <;> omega

/-- The eighth such phase in a row is a fault. -/
theorem exec_drivePhaseTimeout_of_eight (hst : (chopOf s n phaseB).st = .drive)
    (hdue : (chopOf s n phaseB).since + 800000 ≤ max s.now t) (hdac : 16 ≤ (chopOf s n phaseB).dac)
    (hfull : 7 ≤ (chopOf s n phaseB).full) :
    exec (.drivePhaseTimeout t n phaseB) s = .next (after t s fun s => stpFault n 2 (drivenOut n phaseB s)) := by
  rw [exec_drivePhaseTimeout_of_due hst hdue]
  refine next_after_congr (if_pos ?_)
  change 8 ≤ (if 16 ≤ (chopOf s n phaseB).dac then (chopOf s n phaseB).full + 1 else 0)
  rw [if_pos hdac]
  omega

theorem exec_drivePhaseTimeout_early (h : max s.now t < (chopOf s n phaseB).since + 800000) :
    exec (.drivePhaseTimeout t n phaseB) s = .next (after t s id) := by
  refine (run_eq_after ?_ : execDrivePhaseTimeout t n phaseB s = _)
  exact if_neg fun hdue => h.not_ge hdue.2

end

/-! ## Hold current -/

theorem exec_holdDelayExpiry_of_due {z : Nat} (hz : (s.stp[n]).zeroSince = some z) (hv : (s.stp[n]).v = 0)
    (hplan : (s.stp[n]).plan = none) (hreqs : (s.stp[n]).reqs = [])
    (hdue : z + s.fld Reg.stpCur n 31 16 * 8000000 ≤ max s.now t) :
    exec (.holdDelayExpiry t n) s = .next (after t s fun s => s.modStp n fun x => { x with holdCur := true }) := by
  refine (run_eq_after ?_ : execHoldDelayExpiry t n s = _)
  have hz' : ((s.arrive t).stp[n]).zeroSince = some z := hz
  simp only [hz']
  exact if_pos ⟨hv, Option.isNone_iff_eq_none.mpr hplan, List.isEmpty_iff.mpr hreqs, hdue⟩

theorem exec_holdDelayExpiry_early {z : Nat} (hz : (s.stp[n]).zeroSince = some z)
    (hearly : max s.now t < z + s.fld Reg.stpCur n 31 16 * 8000000) :
    exec (.holdDelayExpiry t n) s = .next (after t s id) := by
  refine (run_eq_after ?_ : execHoldDelayExpiry t n s = _)
  have hz' : ((s.arrive t).stp[n]).zeroSince = some z := hz
  simp only [hz']
  exact if_neg fun hdue => hearly.not_ge hdue.2.2.2

/-! ## An update of an axis that stands -/

/-- A change to an axis that leaves its run: position, velocity, EN, clamps and fault. -/
def KeepsRun (f : Stp → Stp) : Prop :=
  ∀ x, (f x).p = x.p ∧ (f x).v = x.v ∧ (f x).en = x.en ∧ (f x).clamps = x.clamps ∧ (f x).fault = x.fault

theorem KeepsRun.comp {f g : Stp → Stp} (hg : KeepsRun g) (hf : KeepsRun f) : KeepsRun fun x => g (f x) := fun x => by
  obtain ⟨hp, hv, hen, hclamps, hfault⟩ := hf x
  obtain ⟨hp', hv', hen', hclamps', hfault'⟩ := hg (f x)
  exact ⟨hp'.trans hp, hv'.trans hv, hen'.trans hen, hclamps'.trans hclamps, hfault'.trans hfault⟩

theorem keepsRun_drivesA (now d : Nat) (plus : Bool) : KeepsRun (Stp.drivesA now d plus) :=
  fun _ => ⟨rfl, rfl, rfl, rfl, rfl⟩

theorem keepsRun_drivesB (now d : Nat) (plus : Bool) : KeepsRun (Stp.drivesB now d plus) :=
  fun _ => ⟨rfl, rfl, rfl, rfl, rfl⟩

/-- A step that may be left out changes the axis as it does, or not at all. -/
theorem modStp_ite {p : Prop} [Decidable p] {f : Stp → Stp} {s y : State} (hf : KeepsRun f) (h : y = s.modStp n f) :
    ∃ g, KeepsRun g ∧ (if p then y else s) = s.modStp n g := by
  by_cases hp : p
  · exact ⟨f, hf, (if_pos hp).trans h⟩
  · exact ⟨id, fun _ => ⟨rfl, rfl, rfl, rfl, rfl⟩, (if_neg hp).trans (modStp_of_fixed rfl).symm⟩

/-- Phases wake without a change to the run. -/
theorem wakePhases_eq (n : Fin 16) (s : State) : ∃ f, KeepsRun f ∧ wakePhases n s = s.modStp n f := by
  unfold wakePhases
  extract_lets x y
  obtain ⟨f, hf, hA⟩ : ∃ f, KeepsRun f ∧ y = s.modStp n f := modStp_ite (keepsRun_drivesA _ _ _) (driveStart_phaseA n s)
  clear_value y
  obtain ⟨g, hg, hB⟩ := modStp_ite (n := n) (s := y) (p := (x.power && x.chopB.st == .slow && x.chopB.dac == 0 &&
    stpDac y n true != 0) = true) (keepsRun_drivesB _ _ _) (driveStart_phaseB n y)
  exact ⟨_, hg.comp hf, by rw [hB, hA, modStp_modStp]⟩

theorem currentTimer_eq (n : Fin 16) (s : State) : ∃ f, KeepsRun f ∧ currentTimer n s = s.modStp n f := by
  refine ⟨_, fun x => ?_, rfl⟩
  split_ifs <;> exact ⟨rfl, rfl, rfl, rfl, rfl⟩

/-- Without homing, clamps or an encoder an axis without a target passes the checks of its update. -/
theorem updateChecks_of_standing (hhome : (s.stp[n]).home = none) (hclamps : (s.stp[n]).clamps = 0)
    (henc : axisEnc (s.stpRec n) = none) : updateChecks n none s = s := by
  unfold updateChecks
  simp only [hhome, hclamps, henc]
  simp

theorem dueReqs_of_nil (h : (s.stp[n]).reqs = []) : dueReqs n s = s := by
  unfold dueReqs
  simp only [h, List.filter_nil, List.getLast?_nil]
  refine modStp_of_fixed ?_
  simp only [h, List.filter_nil]
  rw [← h]

theorem takeTarget_of_idle (hgear : (s.stp[n]).gear = none) (hplan : (s.stp[n]).plan = none) :
    takeTarget n s = (none, s) := by
  unfold takeTarget
  simp only [hgear, hplan]

/-- The axis at the end of such an update, before its current timer and its phases. -/
def Stp.updatedStanding (mresLog now : Nat) (dev : Int) (x : Stp) : Stp :=
  { x.caughtUp mresLog now with v := 0, clamps := 0, dev := dev }

theorem exec_stepperUpdate_of_standing {r : AxisRec} (hrec : s.stpRec n = some r) (henc : axisEnc (some r) = none)
    (hen : (s.stp[n]).en = true) (hplan : (s.stp[n]).plan = none) (hgear : (s.stp[n]).gear = none)
    (hreqs : (s.stp[n]).reqs = []) (hhome : (s.stp[n]).home = none) :
    ∃ dev, exec (.stepperUpdate t n) s = .next (after t s fun s =>
      pacStepper n (wakePhases n (currentTimer n (s.modStp n (Stp.updatedStanding (s.mres n) s.now dev))))) := by
  obtain ⟨y, hy⟩ : ∃ y, y = stpCatchUp n (s.arrive t) := ⟨_, rfl⟩
  have hstp : y.stp[n] = (s.stp[n]).caughtUp (s.mres n) (max s.now t) := by
    rw [hy, stpCatchUp_eq, modStp_stp_self]
    rfl
  have hsome : ¬((s.arrive t).stpRec n).isNone = true := by
    have hrec' : (s.arrive t).stpRec n = some r := hrec
    rw [hrec', Option.isNone_some, Bool.false_eq_true]
    exact id
  obtain ⟨z, hz⟩ : ∃ z, z = y.modStp n fun x => { x with v := 0, clamps := 0 } := ⟨_, rfl⟩
  obtain ⟨w, hw⟩ : ∃ w, w = z.modStp n fun x => { x with dev := stpDev z n } := ⟨_, rfl⟩
  have hchecks : updateChecks n none w = w := by
    refine updateChecks_of_standing ?_ ?_ ?_
    · rw [hw, hz, modStp_stp_self, modStp_stp_self, hstp]
      exact hhome
    · rw [hw, hz, modStp_stp_self, modStp_stp_self]
    · rw [hw, hz, hy]
      exact (congrArg axisEnc hrec).trans henc
  have hend : w = (s.arrive t).modStp n (Stp.updatedStanding ((s.arrive t).mres n) (s.arrive t).now (stpDev z n)) := by
    rw [hw, hz, hy, stpCatchUp_eq, modStp_modStp, modStp_modStp]
    rfl
  refine ⟨stpDev z n, (run_eq_after ?_ : execStepperUpdate t n s = _)⟩
  refine (if_neg hsome).trans ?_
  have hreqs' : (y.stp[n]).reqs = [] := by rw [hstp]; exact hreqs
  have hidle := takeTarget_of_idle (s := y) (n := n) (by rw [hstp]; exact hgear) (by rw [hstp]; exact hplan)
  rw [← hend, ← hchecks, ← hy]
  refine congrArg (fun s => pacStepper n (wakePhases n (currentTimer n s))) ((if_pos (by rw [hstp]; exact hen)).trans ?_)
  simp only [dueReqs_of_nil hreqs', hidle]
  rw [hw, hz]

/-- Such an update leaves the axis where it stands, enabled. -/
theorem leaves_stepperUpdate_of_standing {r : AxisRec} (hrec : s.stpRec n = some r) (henc : axisEnc (some r) = none)
    (hen : (s.stp[n]).en = true) (hv : (s.stp[n]).v = 0) (hf : (s.stp[n]).f < 2 ^ 40) (hplan : (s.stp[n]).plan = none)
    (hgear : (s.stp[n]).gear = none) (hreqs : (s.stp[n]).reqs = []) (hhome : (s.stp[n]).home = none) :
    Leaves (.stepperUpdate t n) s fun s' => (s'.stp[n]).p = (s.stp[n]).p ∧ (s'.stp[n]).v = 0 ∧ (s'.stp[n]).en = true ∧
      (s'.stp[n]).clamps = 0 ∧ (s'.stp[n]).fault = (s.stp[n]).fault ∧ (∀ m, m ≠ n → s'.stp[m] = s.stp[m]) ∧
      s'.ba = s.ba := by
  obtain ⟨dev, hexec⟩ := exec_stepperUpdate_of_standing (t := t) hrec henc hen hplan hgear hreqs hhome
  obtain ⟨y, hy⟩ : ∃ y, y = (s.arrive t).modStp n (Stp.updatedStanding (s.mres n) (max s.now t) dev) := ⟨_, rfl⟩
  obtain ⟨f, hkeepF, htimer⟩ := currentTimer_eq n y
  obtain ⟨g, hkeepG, hphases⟩ := wakePhases_eq n (currentTimer n y)
  have hmotion : (pacStepper n (wakePhases n (currentTimer n y))).motion =
      ((s.arrive t).modStp n fun x => g (f (x.updatedStanding (s.mres n) (max s.now t) dev))).motion := by
    rw [pacStepper_motion, hphases, htimer, hy, modStp_modStp, modStp_modStp]
  obtain ⟨hself, hother, hba⟩ := axis_of_motion hmotion
  obtain ⟨hp, hv', hen', hclamps, hfault⟩ := (hkeepG.comp hkeepF) ((s.stp[n]).updatedStanding (s.mres n) (max s.now t) dev)
  have hend : (after t s fun s => pacStepper n (wakePhases n (currentTimer n
      (s.modStp n (Stp.updatedStanding (s.mres n) s.now dev))))).stp =
      (pacStepper n (wakePhases n (currentTimer n y))).stp := by
    rw [hy]
    rfl
  refine ⟨_, hexec, ?_⟩
  simp only [hend, hself]
  refine ⟨hp.trans (caughtUp_of_standing hv hf (s.mres n) _).1, hv', hen'.trans hen, hclamps, hfault, hother, ?_⟩
  rw [hy] at hba
  exact hba

end

/-- Settles O38: a standing axis has no target and passes its checks; a chopper's end of phase is decided by its state and
the time it has lasted; a fault stops and disables the axis, and what it raises leaves an axis that is disabled. -/
theorem stepperRuns : Obligations.StepperRuns := by
  intro t n phaseB mv lowNs s c faulted
  refine ⟨fun h => ?_, fun r hrec henc hen hv hf hplan hgear hreqs hhome => ?_, exec_chopperTrip_of_over,
    exec_chopperTrip_of_not, exec_chopperOffTimeEnd_slow_fast, exec_chopperOffTimeEnd_drive, exec_chopperOffTimeEnd_early,
    exec_drivePhaseTimeout_of_few, fun hst hdue hdac hfull hen hfault => ?_, exec_drivePhaseTimeout_early,
    fun _ => exec_holdDelayExpiry_of_due, fun _ => exec_holdDelayExpiry_early, fun hlong hen hfault => ?_,
    fun hlong hfault => ?_, fun hshort => ?_⟩
  · refine (run_eq_after ?_ : execStepperUpdate t n s = _)
    exact if_pos h
  · exact leaves_stepperUpdate_of_standing hrec henc hen hv hf hplan hgear hreqs hhome
  · refine leaves_stpFault (by decide) (exec_drivePhaseTimeout_of_eight hst hdue hdac hfull) ?_ hen hfault
    cases phaseB <;> exact ⟨rfl, rfl, rfl⟩
  · exact leaves_stpFault (by decide) (exec_stpDriverFault_of_long hlong) ⟨rfl, rfl, rfl⟩ hen hfault
  · refine ⟨_, exec_stpDriverFault_of_latched hlong hfault, ?_, fld_countStpLatched n _, fun m hm => modStp_stp_of_ne hm .., rfl⟩
    have hself := modStp_stp_self (s.arrive t) n fun x => { x with driverLow := decide (0 < lowNs) }
    exact (congrArg Stp.fault hself :)
  · refine (run_eq_after ?_ : execStpDriverFault t n lowNs s = _)
    exact if_neg hshort.not_ge

end Sys2Proof.Machine
end

section
/-! A completion leaves its ring without a running command (R66). -/
namespace Sys2Proof.Machine

open Sys2Proof.Claim

theorem complete_running (id : RingId) (st : Status) (r : Nat) (s : State) :
    ((complete id st r s).ring id).running = none := by
  unfold complete
  extract_lets ring x sec y z ringZ
  have hx : (x.ring id).running = none := by rw [State.setRing_ring_same]
  have hy : (y.ring id).running = none := by
    simp only [y]
    split
    · cases id <;> exact hx
    · exact hx
  have hz : (z.ring id).running = none := by
    simp only [z, touchSession]
    split_ifs
    · cases id <;> exact hy
    · exact hy
    · exact hy
  split
  · rw [State.setRing_ring_same]
  · simp only []
    split
    · rw [State.setRing_ring_same]
      exact hz
    · rw [writeCompletion_ring_same]
      exact hz

theorem complete_supRing_running (st : Status) (r : Nat) (s : State) :
    (complete .supervisor st r s).supRing.running = none := complete_running .supervisor st r s

end Sys2Proof.Machine
end

section
/-! Moves of a stepper axis (R285 to R289, R294, R295, R298), and obligation O37. -/
namespace Sys2Proof.Machine

open Sys2Proof.Claim

/-! ## A committed write -/

/-- An axis with a write committed, where it is enabled. -/
def Stp.committing (now : Nat) (r : StpReq) (x : Stp) : Stp :=
  if x.en then { x with reqs := x.reqs ++ [(now + 8000, r)] } else x

theorem commit_eq (n : Fin 16) (r : StpReq) (s : State) : commit n r s = s.modStp n (Stp.committing s.now r) := by
  unfold commit
  split_ifs with hen
  · rw [State.modStp, upd, State.modStp, upd, Stp.committing, if_pos hen]
    rfl
  · refine (modStp_of_fixed ?_).symm
    exact if_neg hen

/-- A write that commits leaves the axis's run. -/
theorem committing_run (now : Nat) (r : StpReq) (x : Stp) : (x.committing now r).p = x.p ∧ (x.committing now r).v = x.v ∧
    (x.committing now r).plan = x.plan ∧ (x.committing now r).en = x.en := by
  unfold Stp.committing
  split_ifs <;> exact ⟨rfl, rfl, rfl, rfl⟩

theorem committing_reqs (now : Nat) (r : StpReq) (x : Stp) :
    (x.committing now r).reqs = if x.en then x.reqs ++ [(now + 8000, r)] else x.reqs := by
  unfold Stp.committing
  split_ifs <;> rfl

/-- A plan write that leaves the axis's run, as the claim says it. -/
def KeepsAxis (n : Fin 16) (s s' : State) : Prop := (s'.stp[n]).p = (s.stp[n]).p ∧ (s'.stp[n]).v = (s.stp[n]).v ∧
  (s'.stp[n]).plan = (s.stp[n]).plan ∧ (s'.stp[n]).en = (s.stp[n]).en ∧ (∀ m, m ≠ n → s'.stp[m] = s.stp[m]) ∧ s'.ba = s.ba

theorem KeepsAxis.of_eq {n : Fin 16} {s s' : State} (hstp : s'.stp = s.stp) (hba : s'.ba = s.ba) : KeepsAxis n s s' := by
  rw [KeepsAxis, hstp]
  exact ⟨rfl, rfl, rfl, rfl, fun _ _ => rfl, hba⟩

theorem keepsAxis_modStp {n : Fin 16} {f : Stp → Stp} {s : State} (h : (f s.stp[n]).p = (s.stp[n]).p ∧
    (f s.stp[n]).v = (s.stp[n]).v ∧ (f s.stp[n]).plan = (s.stp[n]).plan ∧ (f s.stp[n]).en = (s.stp[n]).en) :
    KeepsAxis n s (s.modStp n f) := by
  obtain ⟨hp, hv, hplan, hen⟩ := h
  rw [KeepsAxis, modStp_stp_self]
  exact ⟨hp, hv, hplan, hen, fun m hm => modStp_stp_of_ne hm .., rfl⟩

theorem KeepsAxis.trans {n : Fin 16} {s s' s'' : State} (h : KeepsAxis n s s') (h' : KeepsAxis n s' s'') : KeepsAxis n s s'' := by
  obtain ⟨hp, hv, hplan, hen, hother, hba⟩ := h
  obtain ⟨hp', hv', hplan', hen', hother', hba'⟩ := h'
  exact ⟨hp'.trans hp, hv'.trans hv, hplan'.trans hplan, hen'.trans hen, fun m hm => (hother' m hm).trans (hother m hm),
    hba'.trans hba⟩

theorem KeepsAxis.commit {n : Fin 16} {s y : State} (h : KeepsAxis n s y) (r : StpReq) : KeepsAxis n s (commit n r y) := by
  rw [commit_eq]
  exact h.trans (keepsAxis_modStp (committing_run ..))

theorem KeepsAxis.commit_reqs {n : Fin 16} {s y : State} (h : KeepsAxis n s y) (hreqs : (y.stp[n]).reqs = (s.stp[n]).reqs)
    (r : StpReq) : ((Machine.commit n r y).stp[n]).reqs =
      if (s.stp[n]).en then (s.stp[n]).reqs ++ [(y.now + 8000, r)] else (s.stp[n]).reqs := by
  obtain ⟨-, -, -, hen, -, -⟩ := h
  rw [commit_eq, modStp_stp_self, committing_reqs, hreqs, hen]

theorem commit_regs (n : Fin 16) (r : StpReq) (s : State) : (commit n r s).regs = s.regs := by
  rw [commit_eq]
  rfl

/-- A register of another address keeps its field. -/
theorem fld_wr_of_ne {r q : RegSpec} {i j : Nat} (h : r.addr i ≠ q.addr j) (v : Word) (s : State) (hi lo : Nat) :
    (s.wr q j v).fld r i hi lo = s.fld r i hi lo := by
  rw [State.fld, rd_wr_of_ne h, State.fld]

section
variable {t : Nat} {n : Fin 16} {w : Word} {s : State}

/-! ## Plan writes -/

theorem firstRefusal_planConds_badState (h : (s.stp[n]).fault ≠ 0 ∨ 2 ≤ s.dev.holdClass) (l : List (Bool × Status)) :
    firstRefusal (planConds s n ++ l) = .badState := by
  have hcond : ((s.stp[n]).fault != 0 || decide (2 ≤ s.dev.holdClass)) = true := by
    obtain hfault | hclass := h
    · rw [bne_iff_ne.mpr hfault, Bool.true_or]
    · rw [decide_eq_true hclass, Bool.or_true]
  rw [planConds, List.singleton_append, hcond]
  rfl

/-- Plan writes are judged by their own conditions, where no fault is latched and no hold stops plans. -/
theorem firstRefusal_planConds_append (h : firstRefusal (planConds s n) = .ok) (l : List (Bool × Status)) :
    firstRefusal (planConds s n ++ l) = firstRefusal l := by
  cases hcond : ((s.stp[n]).fault != 0 || decide (2 ≤ s.dev.holdClass)) with
  | false =>
    rw [planConds, List.singleton_append, hcond]
    rfl
  | true =>
    rw [planConds, hcond] at h
    contradiction

/-- The position that a write of the HI half commits. -/
def targetOf (s : State) (n : Fin 16) (w : Word) : Int := signed 64 (w.toNat * 2 ^ 32 + (s.rd Reg.stpTargetLo n).toNat)

/-- Whether that position is out of range. -/
def targetBad (s : State) (n : Fin 16) (w : Word) : Bool :=
  !stpRange (targetOf s n w) ||
    (stpLimen s n && decide (targetOf s n w < (stpLimits s n).1 ∨ (stpLimits s n).2 < targetOf s n w))

/-- STP_TARGET_COMMIT under no refusal. -/
def targetCommitted (n : Fin 16) (w : Word) (s : State) : State :=
  if stpMode s n = 0 then commit n (.target (targetOf s n w)) (s.wr Reg.stpTargetHi n w) else s.wr Reg.stpTargetHi n w

theorem stpMode_wr_of_ne {q : RegSpec} (h : Reg.stpCfg.addr n ≠ q.addr n) (v : Word) (s : State) :
    stpMode (s.wr q n v) n = stpMode s n := fld_wr_of_ne h v s 1 0

theorem stpTargetHi_addr_ne : Reg.stpCfg.addr n ≠ Reg.stpTargetHi.addr n := by
  simp only [RegSpec.addr, Reg.stpCfg, Reg.stpTargetHi]
  omega

theorem stpVset_addr_ne : Reg.stpCfg.addr n ≠ Reg.stpVset.addr n := by
  simp only [RegSpec.addr, Reg.stpCfg, Reg.stpVset]
  omega

/-- Two effects that agree on the state agree under the same refusals. -/
theorem refuseOr_congr {conds : List (Bool × Status)} {r : RegSpec} {i o : Nat} {f g : State → State} {s : State}
    (h : f s = g s) : refuseOr conds r i o f s = refuseOr conds r i o g s := by
  unfold refuseOr
  rw [h]

/-- Where rings run a register write of the axis is served. -/
theorem run_of_rings {g : State → State} (hr : s.ringsRun = true) :
    run t s (fun s => if !s.ringsRun then s else g s) = .next (after t s g) := by
  refine run_eq_after (if_neg ?_)
  rw [show (s.arrive t).ringsRun = true from hr]
  decide

theorem exec_stpTargetCommit (hr : s.ringsRun = true) :
    exec (.stpTargetCommit t n w) s = .next (after t s fun s =>
      refuseOr (planConds s n ++ [(targetBad s n w, .range)]) Reg.stpErr n (stpOffset n 0x24) (targetCommitted n w) s) := by
  refine (run_of_rings hr : execStpTargetCommit t n w s = _).trans (next_after_congr ?_)
  refine refuseOr_congr ?_
  rw [targetCommitted, ← stpMode_wr_of_ne stpTargetHi_addr_ne w (s.arrive t)]
  rfl

theorem firstRefusal_target_ok (hplan : firstRefusal (planConds s n) = .ok) (hrange : (targetOf s n w).natAbs ≤ 2 ^ 46)
    (hlimits : stpLimen s n = false ∨ ((stpLimits s n).1 ≤ targetOf s n w ∧ targetOf s n w ≤ (stpLimits s n).2)) :
    firstRefusal (planConds s n ++ [(targetBad s n w, .range)]) = .ok := by
  have hgood : targetBad s n w = false := by
    have hbound : ¬(stpLimen s n = true ∧ (targetOf s n w < (stpLimits s n).1 ∨ (stpLimits s n).2 < targetOf s n w)) := by
      rintro ⟨hlimen, hout⟩
      have hinside := hlimits.resolve_left (by rw [hlimen]; decide)
      omega
    simp only [targetBad, stpRange, hrange, decide_true, Bool.not_true, Bool.false_or]
    simpa using hbound
  rw [firstRefusal_planConds_append hplan, hgood]
  rfl

theorem firstRefusal_target_range (hplan : firstRefusal (planConds s n) = .ok)
    (hrange : 2 ^ 46 < (targetOf s n w).natAbs ∨
      (stpLimen s n = true ∧ (targetOf s n w < (stpLimits s n).1 ∨ (stpLimits s n).2 < targetOf s n w))) :
    firstRefusal (planConds s n ++ [(targetBad s n w, .range)]) = .range := by
  have hbad : targetBad s n w = true := by
    obtain hfar | ⟨hlimen, hout⟩ := hrange
    · rw [targetBad, stpRange, decide_eq_false hfar.not_ge, Bool.not_false, Bool.true_or]
    · rw [targetBad, hlimen, decide_eq_true hout, Bool.and_true, Bool.or_true]
  rw [firstRefusal_planConds_append hplan, hbad]
  rfl

theorem exec_stpVsetWrite (hr : s.ringsRun = true) : exec (.stpVsetWrite t n w) s = .next (after t s fun s =>
    refuseOr (planConds s n) Reg.stpErr n (stpOffset n 0x1C) (fun s =>
      if stpMode s n = 1 then commit n .vset (s.wr Reg.stpVset n w) else s.wr Reg.stpVset n w) s) := by
  refine (run_of_rings hr : execStpVsetWrite t n w s = _).trans (next_after_congr ?_)
  refine refuseOr_congr ?_
  rw [← stpMode_wr_of_ne stpVset_addr_ne w (s.arrive t)]

/-- A write that goes by the axis's mode, of a state in which the motion hardware is as it was. -/
theorem leaves_planWrite {c : Instr} {q : RegSpec} {k : Nat} {r : StpReq}
    (hexec : exec c s = .next (after t s fun s =>
      if stpMode s n = k then commit n r (s.wr q n w) else s.wr q n w)) :
    Leaves c s fun s' => KeepsAxis n s s' ∧ (s.regsSorted = true → s'.rd q n = w) ∧
      (stpMode s n = k → (s'.stp[n]).reqs =
        if (s.stp[n]).en then (s.stp[n]).reqs ++ [(max s.now t + 8000, r)] else (s.stp[n]).reqs) ∧
      (stpMode s n ≠ k → (s'.stp[n]).reqs = (s.stp[n]).reqs) := by
  by_cases hmode : stpMode s n = k
  · have hmode' : stpMode (s.arrive t) n = k := hmode
    refine ⟨_, hexec.trans (next_after_congr (g := fun s => commit n r (s.wr q n w)) (if_pos hmode')), ?_, fun hsorted => ?_,
      fun _ => KeepsAxis.commit_reqs (.of_eq rfl rfl) rfl r, fun hne => absurd hmode hne⟩
    · exact KeepsAxis.commit (.of_eq rfl rfl) r
    · refine (rd_of_regs (commit_regs n r _) ..).trans ?_
      exact rd_wr_of_sorted (s := s.arrive t) hsorted q n w
  · have hmode' : ¬stpMode (s.arrive t) n = k := hmode
    refine ⟨_, hexec.trans (next_after_congr (g := fun s => s.wr q n w) (if_neg hmode')), .of_eq rfl rfl, fun hsorted => ?_,
      fun heq => absurd heq hmode, fun _ => rfl⟩
    exact rd_wr_of_sorted (s := s.arrive t) hsorted q n w

/-! ## GO -/

/-- The segments that GO copies. -/
def goTable (s : State) (n : Fin 16) : List (Nat × Int × Int) := (List.range (s.fld Reg.stpSegs n 8 0)).map (stpSegAt s n)

theorem exec_stpGo_profile (hmode : stpMode s n = 2) : exec (.stpGo t n) s = .next (after t s fun s =>
    refuseOr (planConds s n ++ [(isWebMaster (s.stpRec n), .badState), (profileBad s n (goTable s n), .range)]) Reg.stpErr n
      (stpOffset n 0) (commit n (.profile (goTable s n))) s) := by
  refine (run_eq_after ?_ : execStpGo t n s = _)
  have hmode' : stpMode (s.arrive t) n = 2 := hmode
  simp only [hmode']
  rfl

theorem exec_stpGo_gear (hmode : stpMode s n = 3) : exec (.stpGo t n) s = .next (after t s fun s =>
    refuseOr (planConds s n ++ [(isWebMaster (s.stpRec n) || (s.stp[n]).v != 0 || (s.stp[n]).plan.isSome, .badState)])
      Reg.stpErr n (stpOffset n 0) (commit n .gear) s) := by
  refine (run_eq_after ?_ : execStpGo t n s = _)
  have hmode' : stpMode (s.arrive t) n = 3 := hmode
  simp only [hmode']

theorem exec_stpGo_other (hmode : stpMode s n < 2) : exec (.stpGo t n) s = .next (after t s id) := by
  refine (run_eq_after ?_ : execStpGo t n s = _)
  have hmode' : stpMode (s.arrive t) n < 2 := hmode
  simp only []
  split
  next h => omega
  next h => omega
  · rfl

/-- A GO that commits. -/
theorem leaves_go {c : Instr} {r : StpReq} {f : State → State} (hexec : exec c s = .next (after t s f))
    (hf : f (s.arrive t) = commit n r (s.arrive t)) :
    Leaves c s fun s' => KeepsAxis n s s' ∧ (s'.stp[n]).reqs =
        (if (s.stp[n]).en then (s.stp[n]).reqs ++ [(max s.now t + 8000, r)] else (s.stp[n]).reqs) ∧ s'.regs = s.regs :=
  ⟨_, hexec.trans (next_after_congr (g := commit n r) hf), KeepsAxis.commit (.of_eq rfl rfl) r,
    KeepsAxis.commit_reqs (.of_eq rfl rfl) rfl r, commit_regs n r _⟩

theorem stpMode_lt (s : State) (n : Fin 16) : stpMode s n < 4 := Nat.mod_lt _ (by decide)

theorem exec_stpGo_badState (h : (s.stp[n]).fault ≠ 0 ∨ 2 ≤ s.dev.holdClass) (hmode : 2 ≤ stpMode s n) :
    exec (.stpGo t n) s = .next (after t s fun s => s.recordErr Reg.stpErr n (stpOffset n 0) .badState) := by
  have hlt := stpMode_lt s n
  obtain hmode | hmode : stpMode s n = 2 ∨ stpMode s n = 3 := by omega
  · exact (exec_stpGo_profile hmode).trans (next_after_congr
      (refuseOr_refused _ _ _ _ _ (firstRefusal_planConds_badState (s := s.arrive t) h _) (by decide)))
  · exact (exec_stpGo_gear hmode).trans (next_after_congr
      (refuseOr_refused _ _ _ _ _ (firstRefusal_planConds_badState (s := s.arrive t) h _) (by decide)))

/-! ## A write of STP_CFG -/

/-- Refusals of a write of STP_CFG. -/
def cfgConds (s : State) (n : Fin 16) (w : Word) : List (Bool × Status) :=
  [((s.stp[n]).en && bitsOf w 11 8 != bitsOf (s.rd Reg.stpCfg n) 11 8, .badState),
    (isWebMaster (s.stpRec n) && bitsOf w 1 0 != 1, .badState), (decide (8 < bitsOf w 11 8), .range)]

/-- The word written, and a schedule of gear entries given up with mode 3. -/
def cfgWritten (n : Fin 16) (w : Word) (s : State) : State :=
  if stpMode s n = 3 then (s.wr Reg.stpCfg n (w &&& Reg.stpCfg.rw)).modStp n fun x => { x with gearPend := [] }
  else s.wr Reg.stpCfg n (w &&& Reg.stpCfg.rw)

theorem exec_stpModeChange (hr : s.ringsRun = true) : exec (.stpModeChange t n w) s = .next (after t s fun s =>
    refuseOr (cfgConds s n w) Reg.stpErr n (stpOffset n 0x08) (fun s =>
      if bitsOf w 1 0 = bitsOf (s.rd Reg.stpCfg n) 1 0 then s.wr Reg.stpCfg n (w &&& Reg.stpCfg.rw)
      else commit n .mode (cfgWritten n w s)) s) := by
  refine (run_of_rings hr : execStpModeChange t n w s = _)

theorem firstRefusal_cfgConds (hen : (s.stp[n]).en = false ∨ bitsOf w 11 8 = bitsOf (s.rd Reg.stpCfg n) 11 8)
    (hweb : isWebMaster (s.stpRec n) = false ∨ bitsOf w 1 0 = 1) :
    firstRefusal (cfgConds s n w) = if 8 < bitsOf w 11 8 then .range else .ok := by
  have hfirst : ((s.stp[n]).en && bitsOf w 11 8 != bitsOf (s.rd Reg.stpCfg n) 11 8) = false := by
    obtain h | h := hen
    · rw [h, Bool.false_and]
    · rw [h, bne_self_eq_false, Bool.and_false]
  have hsecond : (isWebMaster (s.stpRec n) && bitsOf w 1 0 != 1) = false := by
    obtain h | h := hweb
    · rw [h, Bool.false_and]
    · rw [h, bne_self_eq_false, Bool.and_false]
  rw [cfgConds, hfirst, hsecond]
  by_cases h : 8 < bitsOf w 11 8
  · rw [if_pos h, decide_eq_true h]
    rfl
  · rw [if_neg h, decide_eq_false h]
    rfl

theorem cfgWritten_leaves (n : Fin 16) (w : Word) (s : State) : KeepsAxis n s (cfgWritten n w s) ∧
    ((cfgWritten n w s).stp[n]).reqs = (s.stp[n]).reqs ∧ (stpMode s n = 3 → ((cfgWritten n w s).stp[n]).gearPend = []) ∧
    (cfgWritten n w s).regs = (s.wr Reg.stpCfg n (w &&& Reg.stpCfg.rw)).regs := by
  unfold cfgWritten
  split_ifs with hgear
  · refine ⟨keepsAxis_modStp (s := s.wr Reg.stpCfg n (w &&& Reg.stpCfg.rw)) ⟨rfl, rfl, rfl, rfl⟩, ?_, fun _ => ?_, rfl⟩
    · rw [modStp_stp_self]
      rfl
    · rw [modStp_stp_self]
  · exact ⟨.of_eq rfl rfl, rfl, fun h => absurd h hgear, rfl⟩

theorem committing_gearPend (now : Nat) (r : StpReq) (x : Stp) : (x.committing now r).gearPend = x.gearPend := by
  unfold Stp.committing
  split_ifs <;> rfl

/-- A write of STP_CFG under no refusal. -/
theorem leaves_stpModeChange (hr : s.ringsRun = true) (hok : firstRefusal (cfgConds s n w) = .ok) :
    Leaves (.stpModeChange t n w) s fun s' => KeepsAxis n s s' ∧
      (s.regsSorted = true → s'.rd Reg.stpCfg n = w &&& Reg.stpCfg.rw) ∧
      (bitsOf w 1 0 ≠ bitsOf (s.rd Reg.stpCfg n) 1 0 → (s'.stp[n]).reqs =
          (if (s.stp[n]).en then (s.stp[n]).reqs ++ [(max s.now t + 8000, .mode)] else (s.stp[n]).reqs) ∧
        (stpMode s n = 3 → (s'.stp[n]).gearPend = [])) ∧
      (bitsOf w 1 0 = bitsOf (s.rd Reg.stpCfg n) 1 0 → s'.stp = s.stp) := by
  have hacts := refuseOr_ok Reg.stpErr n (stpOffset n 0x08) (fun s =>
      if bitsOf w 1 0 = bitsOf (s.rd Reg.stpCfg n) 1 0 then s.wr Reg.stpCfg n (w &&& Reg.stpCfg.rw)
      else commit n .mode (cfgWritten n w s)) (s.arrive t) (show firstRefusal (cfgConds (s.arrive t) n w) = .ok from hok)
  by_cases hmode : bitsOf w 1 0 = bitsOf (s.rd Reg.stpCfg n) 1 0
  · refine ⟨_, (exec_stpModeChange hr).trans (next_after_congr (g := fun s => s.wr Reg.stpCfg n (w &&& Reg.stpCfg.rw))
      (hacts.trans (if_pos hmode))), .of_eq rfl rfl, fun hsorted => ?_, fun hne => absurd hmode hne, fun _ => rfl⟩
    exact rd_wr_of_sorted (s := s.arrive t) hsorted Reg.stpCfg n _
  · obtain ⟨hkeeps, hreqs, hgear, hregs⟩ := cfgWritten_leaves n w (s.arrive t)
    refine ⟨_, (exec_stpModeChange hr).trans (next_after_congr (g := fun s => commit n .mode (cfgWritten n w s))
      (hacts.trans (if_neg hmode))), hkeeps.commit .mode, fun hsorted => ?_, fun _ => ⟨?_, fun h => ?_⟩,
      fun heq => absurd heq hmode⟩
    · refine (rd_of_regs ((commit_regs n .mode _).trans hregs) ..).trans ?_
      exact rd_wr_of_sorted (s := s.arrive t) hsorted Reg.stpCfg n _
    · have hnow : (cfgWritten n w (s.arrive t)).now = max s.now t := by
        unfold cfgWritten
        split_ifs <;> rfl
      rw [← hnow]
      exact hkeeps.commit_reqs hreqs .mode
    · have hself : (commit n .mode (cfgWritten n w (s.arrive t))).stp[n] = _ := congrArg (·.stp[n]) (commit_eq ..)
      refine (congrArg Stp.gearPend (hself.trans (modStp_stp_self ..)) :).trans ?_
      rw [committing_gearPend]
      exact hgear h

/-! ## A write of the position -/

/-- The position with one half replaced. -/
def posWritten (p : Int) (hi : Bool) (w : Word) : Int :=
  signed 64 (if hi then w.toNat * 2 ^ 32 + unsigned 64 p % 2 ^ 32 else unsigned 64 p / 2 ^ 32 * 2 ^ 32 + w.toNat)

theorem posWritten_of_small {p : Int} (hp : 0 ≤ p) (hlt : p < 2 ^ 32) (hi : Bool) (hw : w.toNat < 2 ^ 13) :
    posWritten p hi w = if hi then (w.toNat : Int) * 2 ^ 32 + p else (w.toNat : Int) := by
  obtain ⟨k, rfl⟩ := Int.eq_ofNat_of_zero_le hp
  have hk : k < 2 ^ 32 := by exact_mod_cast hlt
  have hbits : unsigned 64 (k : Int) = k := by
    rw [unsigned]
    omega
  rw [posWritten, hbits, signed]
  cases hi
  · simp only [Bool.false_eq_true, if_false]
    rw [if_pos (by omega)]
    omega
  · simp only [if_true]
    rw [if_pos (by omega)]
    push_cast
    omega

/-- Refusals of such a write. -/
def posConds (s : State) (n : Fin 16) (hi : Bool) (w : Word) : List (Bool × Status) :=
  [((s.stp[n]).v != 0 || (s.stp[n]).plan.isSome, .badState), (!stpRange (posWritten (s.stp[n]).p hi w), .range)]

theorem exec_stpPosWrite (hr : s.ringsRun = true) (hi : Bool) : exec (.stpPosWrite t n hi w) s = .next (after t s fun s =>
    refuseOr (posConds (stpCatchUp n s) n hi w) Reg.stpErr n (stpOffset n (if hi then 0x2C else 0x28)) (fun y =>
      captureRef n (y.modStp n fun x => { x with p := posWritten ((stpCatchUp n s).stp[n]).p hi w })) (stpCatchUp n s)) := by
  refine (run_of_rings hr : execStpPosWrite t n hi w s = _).trans (next_after_congr ?_)
  simp only [posConds, posWritten]

/-! ## Gear entries -/

theorem exec_stpGearPush : exec (.stpGearPush t n) s = .next (after t s fun s =>
    refuseOr [(decide (8 ≤ (s.stp[n]).gearPend.length), .busy),
      (s.rd64 Reg.stpGearCntLo Reg.stpGearCntHi n == gearCount s n, .range)] Reg.stpErr n (stpOffset n 0x6C) (fun y =>
        y.modStp n fun x => { x with gearPend :=
          x.gearPend ++ [(s.rd64 Reg.stpGearCntLo Reg.stpGearCntHi n, signed 32 (y.rd Reg.stpGearRatio n).toNat)] }) s) :=
  (run_eq_after rfl : execStpGearPush t n s = _)

/-- An axis caught up and placed, with the deviation's reference taken there. -/
def Stp.placed (mresLog now : Nat) (p count : Int) (x : Stp) : Stp :=
  { x.caughtUp mresLog now with p := p, c0 := count, p0 := p, dev := 0 }

/-- A write of the position of a standing axis without a plan, in the range of R280. -/
theorem leaves_stpPosWrite (hr : s.ringsRun = true) (hi : Bool) (hv : (s.stp[n]).v = 0) (hplan : (s.stp[n]).plan = none)
    (hp : 0 ≤ (s.stp[n]).p) (hlt : (s.stp[n]).p < 2 ^ 32) (hf : (s.stp[n]).f < 2 ^ 40) (hw : w.toNat < 2 ^ 13) :
    Leaves (.stpPosWrite t n hi w) s fun s' =>
      (s'.stp[n]).p = (if hi then (w.toNat : Int) * 2 ^ 32 + (s.stp[n]).p else (w.toNat : Int)) ∧
        (s'.stp[n]).p0 = (s'.stp[n]).p ∧ (s'.stp[n]).c0 = stpCount s n ∧ (∀ m, m ≠ n → s'.stp[m] = s.stp[m]) ∧
        s'.regs = s.regs := by
  have hstp : (stpCatchUp n (s.arrive t)).stp[n] = (s.stp[n]).caughtUp (s.mres n) (max s.now t) := by
    rw [stpCatchUp_eq, modStp_stp_self]
    rfl
  have hpos : posWritten ((stpCatchUp n (s.arrive t)).stp[n]).p hi w =
      if hi then (w.toNat : Int) * 2 ^ 32 + (s.stp[n]).p else (w.toNat : Int) := by
    rw [hstp, (caughtUp_of_standing hv hf (s.mres n) _).1, posWritten_of_small hp hlt hi hw]
  have hrange : stpRange (posWritten ((stpCatchUp n (s.arrive t)).stp[n]).p hi w) = true := by
    rw [hpos, stpRange]
    refine decide_eq_true ?_
    split_ifs <;> omega
  have hok : firstRefusal (posConds (stpCatchUp n (s.arrive t)) n hi w) = .ok := by
    have hrest : ((stpCatchUp n (s.arrive t)).stp[n].v != 0 || ((stpCatchUp n (s.arrive t)).stp[n]).plan.isSome) = false := by
      rw [hstp]
      exact (congrArg₂ (fun a b => (a != 0 || Option.isSome b)) hv hplan :)
    rw [posConds, hrange, hrest]
    rfl
  have hexec : exec (.stpPosWrite t n hi w) s = .next (after t s fun s => s.modStp n
      (Stp.placed (s.mres n) s.now (posWritten ((stpCatchUp n s).stp[n]).p hi w) (stpCount s n))) := by
    refine (exec_stpPosWrite hr hi).trans (next_after_congr ((refuseOr_ok _ _ _ _ _ hok).trans ?_))
    exact (captureRef_modStp ..).trans (modStp_modStp ..)
  refine leaves_modStp hexec fun s' hself hother hba hregs => ?_
  rw [hself]
  exact ⟨hpos, rfl, rfl, hother, hregs⟩

/-- Setting bits 7..0 leaves bits 23..8. -/
theorem bitsOf_setBits_code (w : Word) (v : Nat) : bitsOf (setBits w 7 0 v) 23 8 = bitsOf w 23 8 := by
  have hlt := w.isLt
  simp only [bitsOf, setBits, BitVec.toNat_ofNat]
  omega

/-- What a block's ERR register holds of a refusal, where it was 0 at reset. -/
theorem fld_recordErr {r : RegSpec} (hreset : r.reset = 0#32) {st : Status} (hst : st.code ≠ 0) {o : Nat} (ho : o ≠ 0)
    (hlt : o < 2 ^ 16) (i : Nat) (s : State) :
    (s.recordErr r i o st).fld r i 7 0 = st.code ∧ (s.recordErr r i o st).fld r i 23 8 = o := by
  have hcode : st.code < 2 ^ 8 := by cases st <;> decide
  have hoffset : (s.setFld r i 23 8 o).rd r i = setBits (s.rd r i) 23 8 o := by
    refine rd_wr_self (fun h => ho ?_) i s
    rw [← bitsOf_setBits (s.rd r i) (hi := 23) (lo := 8) (v := o) (by decide) (by decide) hlt, h, hreset]
    rfl
  have hword : (s.recordErr r i o st).rd r i = setBits (setBits (s.rd r i) 23 8 o) 7 0 st.code := by
    rw [← hoffset]
    refine rd_wr_self (fun h => hst ?_) i _
    rw [← bitsOf_setBits ((s.setFld r i 23 8 o).rd r i) (hi := 7) (lo := 0) (v := st.code) (by decide) (by decide) hcode, h,
      hreset]
    rfl
  rw [State.fld, State.fld, hword]
  exact ⟨bitsOf_setBits _ (by decide) (by decide) hcode,
    (bitsOf_setBits_code ..).trans (bitsOf_setBits _ (by decide) (by decide) hlt)⟩

/-- A write of the position of an axis with a plan. -/
theorem leaves_stpPosWrite_of_plan (hr : s.ringsRun = true) (hi : Bool) (hplan : (s.stp[n]).plan ≠ none) :
    Leaves (.stpPosWrite t n hi w) s fun s' => s'.fld Reg.stpErr n 7 0 = 3 ∧
      s'.fld Reg.stpErr n 23 8 = stpOffset n (if hi then 0x2C else 0x28) ∧ (s'.stp[n]).p0 = (s.stp[n]).p0 := by
  have hstp : (stpCatchUp n (s.arrive t)).stp[n] = (s.stp[n]).caughtUp (s.mres n) (max s.now t) := by
    rw [stpCatchUp_eq, modStp_stp_self]
    rfl
  have hbad : firstRefusal (posConds (stpCatchUp n (s.arrive t)) n hi w) = .badState := by
    have hsome : ((stpCatchUp n (s.arrive t)).stp[n].v != 0 || ((stpCatchUp n (s.arrive t)).stp[n]).plan.isSome) = true := by
      refine Bool.or_eq_true_iff.mpr (.inr ?_)
      rw [hstp]
      exact Option.isSome_iff_ne_none.mpr hplan
    rw [posConds, hsome]
    rfl
  have hoffset : stpOffset n (if hi then 0x2C else 0x28) ≠ 0 ∧ stpOffset n (if hi then 0x2C else 0x28) < 2 ^ 16 := by
    have hn := n.isLt
    unfold stpOffset
    split_ifs <;> omega
  obtain ⟨hcode, hplace⟩ := fld_recordErr (r := Reg.stpErr) rfl (st := .badState) (by decide) hoffset.1 hoffset.2 n
    (stpCatchUp n (s.arrive t))
  refine ⟨_, (exec_stpPosWrite hr hi).trans (next_after_congr
    (g := fun s => (stpCatchUp n s).recordErr Reg.stpErr n (stpOffset n (if hi then 0x2C else 0x28)) .badState)
    (refuseOr_refused _ _ _ _ _ hbad (by decide))), hcode, hplace, ?_⟩
  exact (congrArg Stp.p0 hstp :)

theorem gearConds_eq {b : Bool} (h : (s.rd64 Reg.stpGearCntLo Reg.stpGearCntHi n == gearCount s n) = b) :
    [(decide (8 ≤ (s.stp[n]).gearPend.length), Status.busy),
      (s.rd64 Reg.stpGearCntLo Reg.stpGearCntHi n == gearCount s n, Status.range)] =
    [(decide (8 ≤ (s.stp[n]).gearPend.length), .busy), (b, .range)] := by rw [h]

/-! ## Homing -/

section
variable {index timeout ihome : Nat} {vel homePos backoff : Int}

/-- AXIS_HOME under no refusal starts the approach. -/
theorem leaves_axisHomeStepper (hr : s.ringsRun = true)
    (hok : firstRefusal (stpHomeConds s index vel timeout backoff ihome) = .ok) :
    Leaves (.axisHomeStepper t index vel timeout homePos backoff ihome) s fun s' =>
      (s'.stp[Fin.ofNat 16 index]).home = some ⟨vel, max s.now t + timeout * 8000000, homePos, backoff, ihome, false, 0⟩ ∧
        (s'.stp[Fin.ofNat 16 index]).reqs = [] ∧ (∀ m, m ≠ Fin.ofNat 16 index → s'.stp[m] = s.stp[m]) ∧ s'.ba = s.ba ∧
        s'.supRing = s.supRing := by
  have hok' : firstRefusal (stpHomeConds (s.arrive t) index vel timeout backoff ihome) = .ok := hok
  refine ⟨_, (ringCmd_eq_after (g := fun _ => _) hr (admitCmd_ok _ _ _ hok') :
    execAxisHomeStepper t index vel timeout homePos backoff ihome s = _), ?_⟩
  have hself := modStp_stp_self (stpCatchUp (Fin.ofNat 16 index) (s.arrive t)) (Fin.ofNat 16 index)
  refine ⟨(congrArg Stp.home (hself _) :), (congrArg Stp.reqs (hself _) :), fun m hm => ?_, rfl, rfl⟩
  exact (modStp_stp_of_ne hm ..).trans (modStp_stp_of_ne hm ..)

theorem refuses_axisHomeStepper {st : Status} (hr : s.ringsRun = true)
    (h : firstRefusal (stpHomeConds s index vel timeout backoff ihome) = st) (hst : st ≠ .ok) :
    Refuses (.axisHomeStepper t index vel timeout homePos backoff ihome) t s st :=
  (ringCmd_eq_after hr (admitCmd_refused _ _ _ h hst) :
    execAxisHomeStepper t index vel timeout homePos backoff ihome s = _)

theorem firstRefusal_stpHomeConds_badMode (h : s.modeIn [.standby, .service] = false) :
    firstRefusal (stpHomeConds s index vel timeout backoff ihome) = .badMode := by
  simp [stpHomeConds, h]

theorem firstRefusal_stpHomeConds_range (h : s.modeIn [.standby, .service] = true)
    (hrange : 16 ≤ index ∨ vel = 0 ∨ timeout < 1 ∨ 600000 < timeout ∨ ihome < 1 ∨ 255 < ihome) :
    firstRefusal (stpHomeConds s index vel timeout backoff ihome) = .range := by
  have hcond : (decide (16 ≤ index) || (axisEnc (s.stpRec (Fin.ofNat 16 index))).isNone ||
      decide (vel = 0 ∨ stpVm s (Fin.ofNat 16 index) < vel.natAbs) || decide (0 < backoff.sign * vel.sign) ||
      decide (timeout < 1 ∨ 600000 < timeout) || decide (ihome < 1 ∨ 255 < ihome)) = true := by
    simp only [Bool.or_eq_true, decide_eq_true_eq]
    omega
  simp only [stpHomeConds, h, hcond]
  rfl

end

/-- An axis whose homing has ended at its deadline. -/
def Stp.homeEnded (mresLog now : Nat) (x : Stp) : Stp :=
  { (x.caughtUp mresLog now).drop with v := 0, clamps := 0, home := none, zeroSince := some now }

/-- At its deadline homing ends with the axis standing. -/
theorem leaves_stpHomeTimeout {h : StpHome} (hhome : (s.stp[n]).home = some h) (happroach : h.backing = false)
    (hdue : h.deadline ≤ max s.now t) : Leaves (.stpHomeTimeout t n) s fun s' =>
      (s'.stp[n]).home = none ∧ (s'.stp[n]).v = 0 ∧ (s'.stp[n]).plan = none ∧ (s'.stp[n]).posUnsure = (s.stp[n]).posUnsure ∧
        s'.supRing.running = none ∧ (∀ m, m ≠ n → s'.stp[m] = s.stp[m]) ∧ s'.ba = s.ba := by
  have hhome' : ((s.arrive t).stp[n]).home = some h := hhome
  have hwaits : !h.backing ∧ h.deadline ≤ (s.arrive t).now := ⟨by rw [happroach]; rfl, hdue⟩
  have hexec : exec (.stpHomeTimeout t n) s = .next (after t s fun s =>
      complete .supervisor .timeout 0 (s.modStp n (Stp.homeEnded (s.mres n) s.now))) := by
    refine (run_eq_after ?_ : execStpHomeTimeout t n s = _)
    simp only [hhome']
    exact (if_pos hwaits).trans (congrArg (complete .supervisor .timeout 0) (modStp_modStp ..))
  have hmotion : (complete .supervisor .timeout 0 ((s.arrive t).modStp n (Stp.homeEnded (s.mres n) (max s.now t)))).motion =
      ((s.arrive t).modStp n (Stp.homeEnded (s.mres n) (max s.now t))).motion := congrArg Prod.fst (motionWords_complete ..)
  obtain ⟨hself, hother, hba⟩ := axis_of_motion hmotion
  exact ⟨_, hexec, (congrArg Stp.home hself :), (congrArg Stp.v hself :), (congrArg Stp.plan hself :),
    (congrArg Stp.posUnsure hself :), complete_supRing_running .., hother, hba⟩

theorem exec_stpHomeTimeout_early {h : StpHome} (hhome : (s.stp[n]).home = some h) (hearly : max s.now t < h.deadline) :
    exec (.stpHomeTimeout t n) s = .next (after t s id) := by
  refine (run_eq_after ?_ : execStpHomeTimeout t n s = _)
  have hhome' : ((s.arrive t).stp[n]).home = some h := hhome
  simp only [hhome']
  exact if_neg fun hdue => hearly.not_ge hdue.2

/-! ## Encoder settings -/

/-- What a write of ENC_CFG does: the word, and with EN newly set the levels of the inputs accepted. -/
def encWritten (n : Fin 16) (w : Word) (s : State) : State :=
  if s.fld Reg.encCfg n 18 18 = 0 ∧ bitsOf w 18 18 = 1 then
    { s.wr Reg.encCfg n (w &&& Reg.encCfg.rw) with enc := upd s.enc n fun e => { e with accA := e.a, accB := e.b } }
  else s.wr Reg.encCfg n (w &&& Reg.encCfg.rw)

theorem exec_encCfgWrite : exec (.encCfgWrite t n w) s = .next (after t s fun s =>
    if !s.ringsRun || encInUse s n || decide (bitsOf w 11 0 < 2 ∨ 4000 < bitsOf w 11 0) then s else encWritten n w s) :=
  (run_eq_after rfl : execEncCfgWrite t n w s = _)

theorem exec_encCfgWrite_of_used (h : encInUse s n = true) : exec (.encCfgWrite t n w) s = .next (after t s id) := by
  refine exec_encCfgWrite.trans (next_after_congr (if_pos ?_))
  rw [show encInUse (s.arrive t) n = true from h, Bool.or_true, Bool.true_or]

theorem exec_encCfgWrite_of_idle (hr : s.ringsRun = true) (hidle : encInUse s n = false) (hmin : 2 ≤ bitsOf w 11 0)
    (hmax : bitsOf w 11 0 ≤ 4000) : exec (.encCfgWrite t n w) s = .next (after t s (encWritten n w)) := by
  refine exec_encCfgWrite.trans (next_after_congr (if_neg ?_))
  have hrange : ¬(bitsOf w 11 0 < 2 ∨ 4000 < bitsOf w 11 0) := by omega
  rw [show (s.arrive t).ringsRun = true from hr, show encInUse (s.arrive t) n = false from hidle, decide_eq_false hrange]
  decide

/-- A write of ENC_CFG while the encoder serves nothing. -/
theorem leaves_encCfgWrite (hr : s.ringsRun = true) (hidle : encInUse s n = false) (hmin : 2 ≤ bitsOf w 11 0)
    (hmax : bitsOf w 11 0 ≤ 4000) : Leaves (.encCfgWrite t n w) s fun s' =>
      (s.regsSorted = true → s'.rd Reg.encCfg n = w &&& Reg.encCfg.rw) ∧ (s'.enc[n]).c = (s.enc[n]).c ∧
      (s.fld Reg.encCfg n 18 18 = 0 → bitsOf w 18 18 = 1 → (s'.enc[n]).accA = (s.enc[n]).a ∧ (s'.enc[n]).accB = (s.enc[n]).b) ∧
      (∀ m, m ≠ n → s'.enc[m] = s.enc[m]) ∧ s'.stp = s.stp := by
  have hword : s.regsSorted = true →
      ((s.arrive t).wr Reg.encCfg n (w &&& Reg.encCfg.rw)).rd Reg.encCfg n = w &&& Reg.encCfg.rw := fun hsorted =>
    rd_wr_of_sorted (s := s.arrive t) hsorted Reg.encCfg n _
  have hexec := exec_encCfgWrite_of_idle (t := t) hr hidle hmin hmax
  by_cases hnew : s.fld Reg.encCfg n 18 18 = 0 ∧ bitsOf w 18 18 = 1
  · refine ⟨_, hexec.trans (next_after_congr (g := fun s => { s.wr Reg.encCfg n (w &&& Reg.encCfg.rw) with
      enc := upd s.enc n fun e => { e with accA := e.a, accB := e.b } }) (if_pos hnew)), hword, ?_, fun _ _ => ⟨?_, ?_⟩,
      fun m hm => upd_getElem_of_ne hm .., rfl⟩
    · exact (congrArg Enc.c (upd_getElem_self (s.arrive t).enc n fun e => { e with accA := e.a, accB := e.b }) :)
    · exact (congrArg Enc.accA (upd_getElem_self (s.arrive t).enc n fun e => { e with accA := e.a, accB := e.b }) :)
    · exact (congrArg Enc.accB (upd_getElem_self (s.arrive t).enc n fun e => { e with accA := e.a, accB := e.b }) :)
  · exact ⟨_, hexec.trans (next_after_congr (g := fun s => s.wr Reg.encCfg n (w &&& Reg.encCfg.rw)) (if_neg hnew)), hword, rfl,
      fun hoff hon => absurd ⟨hoff, hon⟩ hnew, fun _ _ => rfl, rfl⟩

end

/-- Settles O37: a plan write is judged by its axis and the hold and commits for an enabled axis, which it does not move; the
position, the gear entries and homing are judged by their own conditions in their order. -/
theorem stepperMoves : Obligations.StepperMoves := by
  intro t n w index vel timeout homePos backoff ihome s hr still commits v
  refine ⟨fun hok hrange hlimits => ?_, fun hok hrange => ?_, fun h => ⟨?_, ?_, exec_stpGo_badState h⟩, fun hok => ?_,
    fun l hmode hl hok hweb hgood => ?_, fun hmode hok hweb hv hplan => ?_, exec_stpGo_other, fun hmres hen hweb => ?_,
    fun hmres hen hweb => ?_, leaves_stpPosWrite hr, leaves_stpPosWrite_of_plan hr, fun hlen hcnt => ?_,
    fun hlen => ?_, fun hlen hcnt => ?_, leaves_axisHomeStepper hr,
    fun hmode => refuses_axisHomeStepper hr (firstRefusal_stpHomeConds_badMode (s := s.arrive t) hmode) (by decide),
    fun hmode hrange => refuses_axisHomeStepper hr (firstRefusal_stpHomeConds_range (s := s.arrive t) hmode hrange) (by decide),
    fun _ => leaves_stpHomeTimeout, fun _ => exec_stpHomeTimeout_early, leaves_encCfgWrite hr, exec_encCfgWrite_of_used⟩
  · refine leaves_planWrite (r := .target (targetOf s n w)) ((exec_stpTargetCommit hr).trans (next_after_congr
      ((refuseOr_ok _ _ _ _ _ (firstRefusal_target_ok (s := s.arrive t) hok hrange hlimits)).trans ?_)))
    rw [targetCommitted, show targetOf (s.arrive t) n w = targetOf s n w from rfl]
  · exact (exec_stpTargetCommit hr).trans (next_after_congr
      (refuseOr_refused _ _ _ _ _ (firstRefusal_target_range (s := s.arrive t) hok hrange) (by decide)))
  · exact (exec_stpTargetCommit hr).trans (next_after_congr
      (refuseOr_refused _ _ _ _ _ (firstRefusal_planConds_badState (s := s.arrive t) h _) (by decide)))
  · have hbad := firstRefusal_planConds_badState (s := s.arrive t) (n := n) h []
    rw [List.append_nil] at hbad
    exact (exec_stpVsetWrite hr).trans (next_after_congr (refuseOr_refused _ _ _ _ _ hbad (by decide)))
  · obtain ⟨s', hexec, hstill, hword, hcommits, -⟩ := leaves_planWrite ((exec_stpVsetWrite hr).trans (next_after_congr
      (g := fun s => if stpMode s n = 1 then commit n .vset (s.wr Reg.stpVset n w) else s.wr Reg.stpVset n w)
      (refuseOr_ok _ _ _ _ _ (show firstRefusal (planConds (s.arrive t) n) = .ok from hok))))
    exact ⟨s', hexec, hstill, hword, hcommits⟩
  · subst hl
    refine leaves_go (exec_stpGo_profile hmode) (refuseOr_ok _ _ _ _ _ ?_)
    refine (firstRefusal_planConds_append (s := s.arrive t) hok _).trans ?_
    rw [show isWebMaster ((s.arrive t).stpRec n) = false from hweb,
      show profileBad (s.arrive t) n (goTable (s.arrive t) n) = false from hgood]
    rfl
  · refine leaves_go (exec_stpGo_gear hmode) (refuseOr_ok _ _ _ _ _ ?_)
    refine (firstRefusal_planConds_append (s := s.arrive t) hok _).trans ?_
    have hfree : (isWebMaster (s.stpRec n) || (s.stp[n]).v != 0 || (s.stp[n]).plan.isSome) = false := by
      rw [hweb, hv, hplan]
      rfl
    rw [show (isWebMaster ((s.arrive t).stpRec n) || ((s.arrive t).stp[n]).v != 0 || ((s.arrive t).stp[n]).plan.isSome) = false
      from hfree]
    rfl
  · refine leaves_stpModeChange hr ((firstRefusal_cfgConds hen hweb).trans (if_neg (by omega)))
  · exact (exec_stpModeChange hr).trans (next_after_congr (refuseOr_refused _ _ _ _ _
      ((firstRefusal_cfgConds (s := s.arrive t) (.inl hen) hweb).trans (if_pos hmres)) (by decide)))
  · refine exec_stpGearPush.trans (next_after_congr (refuseOr_ok _ _ _ _ _ ?_))
    refine (congrArg firstRefusal (gearConds_eq (s := s.arrive t) (b := false) ?_)).trans ?_
    · exact beq_eq_false_iff_ne.mpr hcnt
    · rw [decide_eq_false (show ¬8 ≤ ((s.arrive t).stp[n]).gearPend.length from hlen.not_ge)]
      rfl
  · refine exec_stpGearPush.trans (next_after_congr (refuseOr_refused _ _ _ _ _ ?_ (by decide)))
    rw [decide_eq_true (show 8 ≤ ((s.arrive t).stp[n]).gearPend.length from hlen)]
    rfl
  · refine exec_stpGearPush.trans (next_after_congr (refuseOr_refused _ _ _ _ _ ?_ (by decide)))
    refine (congrArg firstRefusal (gearConds_eq (s := s.arrive t) (b := true) ?_)).trans ?_
    · exact beq_iff_eq.mpr hcnt
    · rw [decide_eq_false (show ¬8 ≤ ((s.arrive t).stp[n]).gearPend.length from hlen.not_ge)]
      rfl

end Sys2Proof.Machine
end

section
/-! DMA channels (R343 to R353, R311), and obligation O41. -/
namespace Sys2Proof.Machine

open Sys2Proof.Claim

theorem modDma_dma_self (s : State) (n : Fin 32) (f : Dma → Dma) : (s.modDma n f).dma[n] = f s.dma[n] := upd_getElem_self ..

theorem modDma_dma_of_ne {n m : Fin 32} (h : m ≠ n) (s : State) (f : Dma → Dma) : (s.modDma n f).dma[m] = s.dma[m] :=
  upd_getElem_of_ne h ..

/-! ## What a channel's events leave -/

/-- The print path of a state, as the claims name it. -/
def State.printFields (s : State) :=
  (s.jobs, s.cmp, s.clusters, s.cod, s.planes, s.nzm, s.pac, s.wav, s.ins, s.gov)

theorem samePrint_iff {s s' : State} : SamePrint s s' ↔ s'.printFields = s.printFields := by
  simp only [SamePrint, State.printFields, Prod.mk.injEq]

/-- Print path and motion hardware stay, and every channel but `n`. -/
def OnlyDma (n : Fin 32) (s s' : State) : Prop :=
  (∀ m, m ≠ n → s'.dma[m] = s.dma[m]) ∧ SamePrint s s' ∧ SameMotion s s'

theorem onlyDma_of_dma {n : Fin 32} {s s' : State} (hdma : s'.dma = s.dma) (hprint : s'.printFields = s.printFields)
    (hmotion : s'.motion = s.motion) : OnlyDma n s s' :=
  ⟨fun m _ => congrArg (fun v : Vector Dma 32 => v[m]) hdma, samePrint_iff.mpr hprint, sameMotion_iff.mpr hmotion⟩

theorem onlyDma_modDma (n : Fin 32) (f : Dma → Dma) (s : State) : OnlyDma n s (s.modDma n f) :=
  ⟨fun _ hm => modDma_dma_of_ne hm .., samePrint_iff.mpr rfl, sameMotion_iff.mpr rfl⟩

theorem OnlyDma.trans {n : Fin 32} {s s' s'' : State} (h : OnlyDma n s s') (h' : OnlyDma n s' s'') : OnlyDma n s s'' := by
  obtain ⟨hdma, hprint, hmotion⟩ := h
  obtain ⟨hdma', hprint', hmotion'⟩ := h'
  rw [samePrint_iff] at hprint hprint'
  rw [sameMotion_iff] at hmotion hmotion'
  exact ⟨fun m hm => (hdma' m hm).trans (hdma m hm), samePrint_iff.mpr (hprint'.trans hprint),
    sameMotion_iff.mpr (hmotion'.trans hmotion)⟩

theorem OnlyDma.modDma {n : Fin 32} {s s' : State} (h : OnlyDma n s s') (f : Dma → Dma) : OnlyDma n s (s'.modDma n f) :=
  h.trans (onlyDma_modDma ..)

/-! ## A channel stops (R349) -/

section
variable {n : Fin 32} {code : Status} {side : Nat} {s : State}

theorem dmaStop_of_not_live (h : (s.dma[n]).live = false) : dmaStop n code side s = s :=
  if_neg (by rw [h]; decide)

/-- What a stopping channel says of its stop; both counts of bytes stay. -/
structure Stopping (c : Dma) (code side : Nat) (c' : Dma) : Prop where
  st : c'.st = .aborting
  code : c'.code = code
  side : c'.side = side
  discard : c'.discard = c.held
  rdPend : c'.rd.pend = false
  wrPend : c'.wr.pend = false
  residue : c.wr.atEnd = true → c'.residue = 0
  rdBytes : c'.rd.bytes = c.rd.bytes
  wrBytes : c'.wr.bytes = c.wr.bytes

/-- The stop of a live channel is a change to it, with one free value drawn. -/
theorem dmaStop_of_live (h : (s.dma[n]).live = true) :
    ∃ f, dmaStop n code side s = s.draw.2.modDma n f ∧ Stopping s.dma[n] code.code side (f s.dma[n]) :=
  ⟨_, if_pos h, rfl, rfl, rfl, rfl, rfl, rfl, fun hend => if_pos hend, rfl, rfl⟩

/-- Whatever holds of a state and of each change to the channel after a draw holds after a stop. -/
theorem dmaStop_induct {P : State → Prop} (h : P s) (hmod : ∀ f, P (s.draw.2.modDma n f)) : P (dmaStop n code side s) := by
  cases hlive : (s.dma[n]).live
  · rwa [dmaStop_of_not_live hlive]
  · obtain ⟨f, hf, -⟩ := dmaStop_of_live (code := code) (side := side) hlive
    rw [hf]
    exact hmod f

theorem onlyDma_dmaStop : OnlyDma n s (dmaStop n code side s) :=
  dmaStop_induct (onlyDma_of_dma rfl rfl rfl) fun f => (onlyDma_of_dma rfl rfl rfl : OnlyDma n s s.draw.2).modDma f

theorem dmaStop_regs : (dmaStop n code side s).regs = s.regs :=
  dmaStop_induct (P := fun y => y.regs = s.regs) rfl fun _ => rfl

theorem dmaStop_out : (dmaStop n code side s).out = s.out :=
  dmaStop_induct (P := fun y => y.out = s.out) rfl fun _ => rfl

theorem dmaStop_stopping (h : (s.dma[n]).live = true) : Stopping s.dma[n] code.code side (dmaStop n code side s).dma[n] := by
  obtain ⟨f, hf, hstop⟩ := dmaStop_of_live (code := code) (side := side) h
  rw [hf, modDma_dma_self]
  exact hstop

theorem dmaStop_bytes : ((dmaStop n code side s).dma[n]).rd.bytes = (s.dma[n]).rd.bytes ∧
    ((dmaStop n code side s).dma[n]).wr.bytes = (s.dma[n]).wr.bytes := by
  cases hlive : (s.dma[n]).live
  · rw [dmaStop_of_not_live hlive]
    exact ⟨rfl, rfl⟩
  · exact ⟨(dmaStop_stopping hlive).rdBytes, (dmaStop_stopping hlive).wrBytes⟩

end

theorem Dma.live_of {c : Dma} (h : c.st = .run ∨ c.st = .wait ∨ c.st = .armed) : c.live = true := by
  obtain h | h | h := h <;> simp [Dma.live, h]

theorem Dma.not_live {c : Dma} (hrun : c.st ≠ .run) (hwait : c.st ≠ .wait) (harmed : c.st ≠ .armed) : c.live = false := by
  simp [Dma.live, hrun, hwait, harmed]

/-! ## Descriptors -/

theorem bytes_withPos (x : DmaSide) (pos : Nat) : ({ x with pos := pos } : DmaSide).bytes = x.bytes := rfl

/-- Descriptors that an engine reads move no bytes. -/
theorem takeDescs_bytes (bad : DmaDesc → Option Status) (head : Nat) (ds : List DmaDesc) (x : DmaSide) :
    (takeDescs bad head ds x).1.bytes = x.bytes := by
  induction ds generalizing x with
  | nil => rfl
  | cons d rest ih =>
    have hread := bytes_withPos x ((x.addr + 2 ^ 64 - head) % 2 ^ 32)
    rw [takeDescs]
    cases bad d with
    | some st => exact hread
    | none =>
      dsimp only
      split_ifs
      · exact (ih _).trans hread
      · exact (ih _).trans hread
      · exact hread
      · exact hread
      · exact (ih _).trans hread
      · exact (ih _).trans hread
      · exact (ih _).trans hread

section
variable {n : Fin 32} {s : State}

theorem dmaSettle_sides : ((dmaSettle n s).dma[n]).rd = (s.dma[n]).rd ∧ ((dmaSettle n s).dma[n]).wr = (s.dma[n]).wr := by
  unfold dmaSettle
  rw [modDma_dma_self]
  exact ⟨rfl, rfl⟩

/-- A running or waiting channel settles as one of the two. -/
theorem dmaSettle_st (h : (s.dma[n]).st = .run ∨ (s.dma[n]).st = .wait) :
    ((dmaSettle n s).dma[n]).st = .run ∨ ((dmaSettle n s).dma[n]).st = .wait := by
  unfold dmaSettle
  rw [modDma_dma_self]
  show dmaNext _ _ = .run ∨ dmaNext _ _ = .wait
  unfold dmaNext
  split_ifs with hstands
  · exact h
  · exact .inr rfl
  · exact .inr rfl
  · exact .inl rfl

variable {readSide : Bool} {descs : List DmaDesc}

theorem onlyDma_dmaTake : OnlyDma n s (dmaTake n readSide descs s) := by
  unfold dmaTake
  extract_lets head c r s₁
  have htaken : OnlyDma n s s₁ := onlyDma_modDma ..
  split
  · exact htaken.trans onlyDma_dmaStop
  · exact htaken.modDma _

theorem dmaTake_regs : (dmaTake n readSide descs s).regs = s.regs := by
  unfold dmaTake
  extract_lets
  split
  · exact dmaStop_regs
  · rfl

theorem dmaTake_bytes : ((dmaTake n readSide descs s).dma[n]).rd.bytes = (s.dma[n]).rd.bytes ∧
    ((dmaTake n readSide descs s).dma[n]).wr.bytes = (s.dma[n]).wr.bytes := by
  unfold dmaTake
  extract_lets head c r s₁
  have htaken : (s₁.dma[n]).rd.bytes = (s.dma[n]).rd.bytes ∧ (s₁.dma[n]).wr.bytes = (s.dma[n]).wr.bytes := by
    simp only [s₁, modDma_dma_self]
    cases readSide
    · exact ⟨rfl, takeDescs_bytes ..⟩
    · exact ⟨takeDescs_bytes .., rfl⟩
  obtain ⟨hrd, hwr⟩ := htaken
  split
  · obtain ⟨hrd', hwr'⟩ := dmaStop_bytes (n := n) (s := s₁)
    exact ⟨hrd'.trans hrd, hwr'.trans hwr⟩
  · obtain ⟨hrd', hwr'⟩ := dmaSettle_sides (n := n) (s := s₁)
    exact ⟨(congrArg DmaSide.bytes hrd').trans hrd, (congrArg DmaSide.bytes hwr').trans hwr⟩

/-- Without descriptors an engine's side stands. -/
theorem dmaTake_nil : dmaTake n false [] s = dmaSettle n s := by
  have hsame : s.modDma n (fun c => { c with wr := s.dma[n].wr }) = s := by
    rw [State.modDma, upd, Fin.getElem_fin, Vector.set_getElem_self]
  exact congrArg (dmaSettle n) hsame

/-! ## Bursts (R344 to R346) -/

theorem burst_bytes (x : DmaSide) (d : DmaDesc) (bytes : Nat) : (x.burst d bytes).bytes = x.bytes + bytes := by
  unfold DmaSide.burst
  split <;> rfl

variable {bytes : Nat}

theorem lineMoved_kept (line bytes : Nat) (s : State) :
    (lineMoved line bytes s).dma = s.dma ∧ (lineMoved line bytes s).regs = s.regs ∧
      (lineMoved line bytes s).pwr = s.pwr ∧ OnlyDma n s (lineMoved line bytes s) := by
  unfold lineMoved
  split <;> exact ⟨rfl, rfl, rfl, onlyDma_of_dma rfl rfl rfl⟩

/-- A burst on SPACE 3 empties or fills its line's FIFO; no other burst does. -/
theorem fifoMoved_kept (d : DmaDesc) (bytes : Nat) (s : State) :
    (if d.space = 3 then lineMoved d.arg bytes s else s).dma = s.dma ∧
      (if d.space = 3 then lineMoved d.arg bytes s else s).regs = s.regs ∧
      (if d.space = 3 then lineMoved d.arg bytes s else s).pwr = s.pwr ∧
      OnlyDma n s (if d.space = 3 then lineMoved d.arg bytes s else s) := by
  split
  · exact lineMoved_kept ..
  · exact ⟨rfl, rfl, rfl, onlyDma_of_dma rfl rfl rfl⟩

/-- A channel's buffer: no more written than read, and no more than 64 KiB held (R346). -/
def Dma.Fits (c : Dma) : Prop := c.wr.bytes ≤ c.rd.bytes ∧ c.rd.bytes ≤ c.wr.bytes + 65536

/-- What every burst keeps. -/
structure BurstKeeps (n : Fin 32) (s s' : State) : Prop where
  only : OnlyDma n s s'
  regs : s'.regs = s.regs
  fits : (s.dma[n]).Fits → (s'.dma[n]).Fits

theorem BurstKeeps.refl (n : Fin 32) (s : State) : BurstKeeps n s s := ⟨onlyDma_of_dma rfl rfl rfl, rfl, id⟩

theorem BurstKeeps.trans {s s' s'' : State} (h : BurstKeeps n s s') (h' : BurstKeeps n s' s'') : BurstKeeps n s s'' :=
  ⟨h.only.trans h'.only, h'.regs.trans h.regs, fun hfits => h'.fits (h.fits hfits)⟩

/-- A change to one channel that keeps its buffer's bound. -/
theorem burstKeeps_modDma {f : Dma → Dma} {s' : State} (hdma : s'.dma = s.dma) (honly : OnlyDma n s s')
    (hregs : s'.regs = s.regs) (hfits : (s.dma[n]).Fits → (f s.dma[n]).Fits) : BurstKeeps n s (s'.modDma n f) := by
  refine ⟨honly.modDma f, hregs, fun h => ?_⟩
  rw [modDma_dma_self, hdma]
  exact hfits h

theorem burstKeeps_readBurst : BurstKeeps n s (readBurst n bytes s) := by
  unfold readBurst
  extract_lets c
  split
  next d hdesc =>
    obtain ⟨hdma, hregs, -, honly⟩ := fifoMoved_kept (n := n) d bytes s
    split
    next hburst =>
      obtain ⟨-, hroom⟩ := hburst
      refine burstKeeps_modDma hdma honly hregs fun ⟨hwr, hrd⟩ => ?_
      simp only [c, Dma.held] at hroom
      simp only [Dma.Fits, burst_bytes]
      omega
    · exact .refl n s
  · exact .refl n s

theorem burstKeeps_writeBurst : BurstKeeps n s (writeBurst n bytes s) := by
  unfold writeBurst
  extract_lets c
  split
  next d hdesc =>
    obtain ⟨hdma, hregs, -, honly⟩ := fifoMoved_kept (n := n) d bytes s
    split
    next hburst =>
      obtain ⟨-, hheld, -⟩ := hburst
      refine burstKeeps_modDma hdma (honly.trans (onlyDma_of_dma rfl rfl rfl)) hregs fun ⟨hwr, hrd⟩ => ?_
      simp only [c, Dma.held] at hheld
      simp only [Dma.Fits, burst_bytes]
      omega
    · exact .refl n s
  · exact .refl n s

theorem burstKeeps_dmaTake : BurstKeeps n s (dmaTake n readSide descs s) := by
  obtain ⟨hrd, hwr⟩ := dmaTake_bytes (n := n) (readSide := readSide) (descs := descs) (s := s)
  refine ⟨onlyDma_dmaTake, dmaTake_regs, fun hfits => ?_⟩
  rw [Dma.Fits, hrd, hwr]
  exact hfits

/-- What a write burst that fits leaves: its bytes are written, and drawn on the DMA bucket. -/
theorem writeBurst_of_fits {d : DmaDesc} (hdesc : (s.dma[n]).wr.desc = some d) (hfits : burstFits s n (s.dma[n]).wr d bytes = true)
    (hheld : bytes + (s.dma[n]).wr.bytes ≤ (s.dma[n]).rd.bytes) (htokens : 0 < s.pwr.dmaBucket.tokens) :
    ((writeBurst n bytes s).dma[n]).rd = (s.dma[n]).rd ∧
      ((writeBurst n bytes s).dma[n]).wr = (s.dma[n]).wr.burst d bytes ∧
      ((writeBurst n bytes s).dma[n]).written = (s.dma[n]).written ||| (1#4 <<< d.space) ∧
      (writeBurst n bytes s).pwr.dmaBucket.tokens = s.pwr.dmaBucket.tokens - bytes := by
  have hmoves : burstFits s n (s.dma[n]).wr d bytes = true ∧ bytes ≤ (s.dma[n]).held ∧ 0 < s.pwr.dmaBucket.tokens :=
    ⟨hfits, Nat.le_sub_of_add_le hheld, htokens⟩
  obtain ⟨hdma, -, hpwr, -⟩ := fifoMoved_kept (n := n) d bytes s
  unfold writeBurst
  simp only [hdesc, if_pos hmoves, modDma_dma_self, State.modPwr_dma, State.modDma_pwr, State.modPwr_pwr, hdma, hpwr, and_self]

theorem writeBurst_of_empty (htokens : s.pwr.dmaBucket.tokens = 0) : writeBurst n bytes s = s := by
  unfold writeBurst
  extract_lets c
  split
  · exact if_neg fun ⟨_, _, h⟩ => by omega
  · rfl

end

/-! ## The commands of a channel -/

section
variable {t : Nat} {n : Fin 32} {s : State}

theorem ringCmd_nothing {c : Instr} {t : Nat} {s : State} {f : State → State} (hr : s.ringsRun = true)
    (hexec : exec c s = ringCmd t s f) (h : f (s.arrive t) = s.arrive t) : exec c s = .next (after t s id) :=
  hexec.trans (ringCmd_eq_after hr h)

/-- A ring command, by what its effect leaves. -/
theorem leaves_ringCmd {c : Instr} {t : Nat} {s : State} {f : State → State} {P : State → Prop} (hr : s.ringsRun = true)
    (hexec : exec c s = ringCmd t s f) (hP : P (after t s f)) : Leaves c s P :=
  ⟨_, hexec.trans (ringCmd_eq_after hr rfl), hP⟩

/-- The same by the parts of the state that the claims about channels name. -/
theorem leaves_ringCmd_eq {c : Instr} {t : Nat} {s y : State} {f : State → State} {P : State → Prop} (hr : s.ringsRun = true)
    (hexec : exec c s = ringCmd t s f) (heff : f (s.arrive t) = y)
    (hP : ∀ s' : State, s'.dma = y.dma → s'.regs = y.regs → s'.pwr = y.pwr → s'.printFields = y.printFields →
      s'.motion = y.motion → P s') : Leaves c s P := by
  subst heff
  exact leaves_ringCmd hr hexec (hP _ rfl rfl rfl rfl rfl)

theorem OnlyDma.after {f : State → State} (h : OnlyDma n (s.arrive t) (f (s.arrive t))) : OnlyDma n s (after t s f) := h

/-! ### DMA_START (R343) -/

theorem startConds_badState (hidle : (s.dma[n]).st ≠ .idle) (hdone : (s.dma[n]).st ≠ .done) (hstopped : (s.dma[n]).st ≠ .stopped) :
    firstRefusal (startConds s n) = .badState := by
  have hno : ((s.dma[n]).st == .idle || (s.dma[n]).st == .done || (s.dma[n]).st == .stopped) = false := by
    rw [beq_false_of_ne hidle, beq_false_of_ne hdone, beq_false_of_ne hstopped]
    rfl
  simp only [startConds, firstRefusal, hno, Bool.not_false, Bool.true_or, if_true]

theorem startConds_of_startable (hst : (s.dma[n]).st = .idle ∨ (s.dma[n]).st = .done ∨ (s.dma[n]).st = .stopped)
    (hdis : s.isDisabled 0x0D n = false) : firstRefusal (startConds s n) =
      if s.fld Reg.dmaCfg n 16 16 = 1 ∧ s.fld Reg.dmaCfg n 12 8 = n.val then .range else .ok := by
  have hen : s.dev.disabled.contains (0x0D, n.val) = false := hdis
  have hok : ((s.dma[n]).st == .idle || (s.dma[n]).st == .done || (s.dma[n]).st == .stopped) = true := by
    obtain h | h | h := hst <;> rw [h] <;> rfl
  simp only [startConds, firstRefusal, hok, hen, Bool.not_true, Bool.or_false, Bool.false_eq_true, if_false, Bool.and_eq_true,
    beq_iff_eq]

theorem exec_dmaStart_of_refused (hr : s.ringsRun = true) {st : Status} (h : firstRefusal (startConds s n) = st) (hst : st ≠ .ok) :
    exec (.dmaStart t n) s = .next (after t s fun s => s.recordErr Reg.dmaErr 0 (dmaOffset n 0) st) := by
  refine (ringCmd_eq_after hr ?_ : execDmaStart t n s = _)
  exact refuseOr_refused _ _ _ _ _ (show firstRefusal (startConds (s.arrive t) n) = st from h) hst

/-- A channel loaded at the heads of both lists. -/
theorem leaves_dmaStart (hr : s.ringsRun = true) (h : firstRefusal (startConds s n) = .ok) : Leaves (.dmaStart t n) s fun s' =>
    (s'.dma[n]).st = (if s.fld Reg.dmaCfg n 16 16 = 1 then .armed else .run) ∧
    (s'.dma[n]).rd = sideAt (dmaPointer s Reg.dmaRdlistLo Reg.dmaRdlistHi n) ∧
    (s'.dma[n]).wr = sideAt (dmaPointer s Reg.dmaWrlistLo Reg.dmaWrlistHi n) ∧ s'.regs = s.regs ∧ OnlyDma n s s' := by
  have hbegin : dmaStartAct n (s.arrive t) = dmaBegin n (s.arrive t) :=
    refuseOr_ok _ _ _ _ _ (show firstRefusal (startConds (s.arrive t) n) = .ok from h)
  refine ⟨_, (ringCmd_eq_after hr hbegin : execDmaStart t n s = _), ?_⟩
  have hself : ((after t s (dmaBegin n)).dma[n]) = _ := modDma_dma_self ..
  simp only [hself]
  exact ⟨rfl, rfl, rfl, rfl, .after (onlyDma_modDma ..)⟩

/-! ### Aborts and errors (R349) -/

/-- A channel has started to stop, and nothing has left. -/
def Stops (n : Fin 32) (code side : Nat) (s s' : State) : Prop :=
  Stopping s.dma[n] code side s'.dma[n] ∧ s'.out = [] ∧ OnlyDma n s s'

theorem stops_dmaStop {code : Status} {side : Nat} (h : (s.dma[n]).live = true) (hout : s.out = []) :
    Stops n code.code side s (dmaStop n code side s) :=
  ⟨dmaStop_stopping h, dmaStop_out.trans hout, onlyDma_dmaStop⟩

theorem leaves_dmaAbort (hr : s.ringsRun = true) (h : (s.dma[n]).live = true) :
    Leaves (.dmaAbort t n) s fun s' => Stops n 0x0D 0 s s' ∧ s'.regs = s.regs :=
  leaves_ringCmd (f := dmaStop n .aborted 0) hr rfl
    ⟨(stops_dmaStop (code := .aborted) (s := s.arrive t) h rfl :), dmaStop_regs⟩

/-- An error of the NVMe host is noted on the attached index too. -/
theorem exec_dmaError (t : Nat) (n : Fin 32) (readSide : Bool) (err : DmaError) (s : State) : ∃ f,
    exec (.dmaError t n readSide err) s = ringCmd t s f ∧
      ∀ y, (f y = dmaStop n (dmaErrorCode err) (if readSide then 1 else 0) y ∨ err = .nvmeError ∧
        ∃ k g, f y = (dmaStop n (dmaErrorCode err) (if readSide then 1 else 0) y).modJs k g) := by
  refine ⟨_, (rfl : execDmaError t n readSide err s = _), fun y => ?_⟩
  dsimp only
  split
  next herr =>
    split
    · split
      · exact .inr ⟨herr, _, _, rfl⟩
      · exact .inl rfl
    · exact .inl rfl
  · exact .inl rfl

theorem leaves_dmaError (hr : s.ringsRun = true) (h : (s.dma[n]).live = true) (readSide : Bool) (err : DmaError) :
    Leaves (.dmaError t n readSide err) s (Stops n (dmaErrorCode err).code (if readSide then 1 else 0) s) := by
  obtain ⟨f, hexec, hf⟩ := exec_dmaError t n readSide err s
  refine leaves_ringCmd hr hexec ?_
  have hstops := stops_dmaStop (code := dmaErrorCode err) (side := if readSide then 1 else 0) (s := s.arrive t) h rfl
  have heffect : Stops n (dmaErrorCode err).code (if readSide then 1 else 0) (s.arrive t) (f (s.arrive t)) := by
    obtain hplain | ⟨-, k, g, hnoted⟩ := hf (s.arrive t)
    · rwa [hplain]
    · rw [hnoted]
      exact hstops
  exact heffect

theorem exec_dmaError_of_not_live (hr : s.ringsRun = true) (h : (s.dma[n]).live = false) (readSide : Bool) {err : DmaError}
    (herr : err ≠ .nvmeError) : exec (.dmaError t n readSide err) s = .next (after t s id) := by
  obtain ⟨f, hexec, hf⟩ := exec_dmaError t n readSide err s
  refine ringCmd_nothing hr hexec ?_
  obtain hplain | ⟨hnvme, -⟩ := hf (s.arrive t)
  · rw [hplain, dmaStop_of_not_live (show ((s.arrive t).dma[n]).live = false from h)]
  · exact absurd hnvme herr

/-! ### Doorbells (R350) -/

theorem dmaDoorbell_of_deaf {readSide : Bool} {d : DmaDesc} (h : ((s.dma[n]).live || (s.dma[n]).st == .done) = false) :
    dmaDoorbell n readSide d s = s := by
  unfold dmaDoorbell
  exact if_pos (by rw [h]; rfl)

section
variable (h : ((s.dma[n]).live || (s.dma[n]).st == .done) = true) {readSide : Bool} {d : DmaDesc}
include h

/-- Before END the bell is kept. -/
theorem dmaDoorbell_of_before (hend : (if readSide then (s.dma[n]).rd else (s.dma[n]).wr).atEnd = false) :
    dmaDoorbell n readSide d s = s.modDma n fun c =>
      if readSide then { c with rd := { c.rd with pend := true } } else { c with wr := { c.wr with pend := true } } := by
  unfold dmaDoorbell
  extract_lets c x set
  have hhears : ¬(!(c.live || c.st == .done)) = true := by rw [h]; decide
  have hbefore : (!x.atEnd) = true := by rw [hend]; rfl
  rw [if_neg hhears, if_pos hbefore]
  cases readSide <;> rfl

/-- At END the side goes on where the re-read descriptor holds LINK. -/
theorem dmaDoorbell_of_link (hend : (if readSide then (s.dma[n]).rd else (s.dma[n]).wr).atEnd = true)
    (hlink : d.isLink = true) (hdesc : descError s n (!readSide) d = none) :
    ∃ f, dmaDoorbell n readSide d s = dmaSettle n (s.modDma n f) ∧ (f s.dma[n]).st = .run ∧
      (f s.dma[n]).rd = (if readSide then { (s.dma[n]).rd with atEnd := false, addr := d.addr, space := d.space }
        else (s.dma[n]).rd) ∧
      (f s.dma[n]).wr = (if readSide then (s.dma[n]).wr
        else { (s.dma[n]).wr with atEnd := false, addr := d.addr, space := d.space }) := by
  unfold dmaDoorbell
  extract_lets c x set
  have hhears : ¬(!(c.live || c.st == .done)) = true := by rw [h]; decide
  have hat : ¬(!x.atEnd) = true := by rw [hend]; decide
  rw [if_neg hhears, if_neg hat, hdesc]
  refine ⟨fun c => { if readSide then { c with rd := { x with atEnd := false, addr := d.addr, space := d.space } }
    else { c with wr := { x with atEnd := false, addr := d.addr, space := d.space } } with st := .run }, ?_, rfl, ?_, ?_⟩
  · refine (if_pos hlink).trans (congrArg (dmaSettle n) ?_)
    rw [State.modDma, State.modDma_dma, upd_upd]
    rfl
  · cases readSide <;> rfl
  · cases readSide <;> rfl

/-- At END a re-read descriptor without LINK changes nothing. -/
theorem dmaDoorbell_of_end (hend : (if readSide then (s.dma[n]).rd else (s.dma[n]).wr).atEnd = true)
    (hlink : d.isLink = false) (hdesc : descError s n (!readSide) d = none) : dmaDoorbell n readSide d s = s := by
  unfold dmaDoorbell
  extract_lets c x set
  have hhears : ¬(!(c.live || c.st == .done)) = true := by rw [h]; decide
  have hat : ¬(!x.atEnd) = true := by rw [hend]; decide
  rw [if_neg hhears, if_neg hat, hdesc]
  exact if_neg (by rw [hlink]; decide)

end

theorem Dma.hears_of {c : Dma} (h : c.st = .run ∨ c.st = .wait ∨ c.st = .armed ∨ c.st = .done) :
    (c.live || c.st == .done) = true := by
  obtain h | h | h | h := h <;> simp [Dma.live, h]

/-- What a doorbell at END leaves where the re-read descriptor holds LINK. -/
theorem dmaDoorbell_goes_on (h : ((s.dma[n]).live || (s.dma[n]).st == .done) = true) {readSide : Bool} {d : DmaDesc}
    (hend : (if readSide then (s.dma[n]).rd else (s.dma[n]).wr).atEnd = true)
    (hlink : d.isLink = true) (hdesc : descError s n (!readSide) d = none) :
    ((dmaDoorbell n readSide d s).dma[n]).rd = (if readSide then
      { (s.dma[n]).rd with atEnd := false, addr := d.addr, space := d.space } else (s.dma[n]).rd) ∧
    ((dmaDoorbell n readSide d s).dma[n]).wr = (if readSide then (s.dma[n]).wr
      else { (s.dma[n]).wr with atEnd := false, addr := d.addr, space := d.space }) ∧
    (((dmaDoorbell n readSide d s).dma[n]).st = .run ∨ ((dmaDoorbell n readSide d s).dma[n]).st = .wait) ∧
    (dmaDoorbell n readSide d s).regs = s.regs ∧ OnlyDma n s (dmaDoorbell n readSide d s) := by
  obtain ⟨f, hbell, hst, hrd, hwr⟩ := dmaDoorbell_of_link h hend hlink hdesc
  obtain ⟨hrd', hwr'⟩ := dmaSettle_sides (n := n) (s := s.modDma n f)
  have hrun := dmaSettle_st (n := n) (s := s.modDma n f)
  rw [modDma_dma_self] at hrd' hwr' hrun
  rw [hbell]
  exact ⟨hrd'.trans hrd, hwr'.trans hwr, hrun (.inl hst), rfl, (onlyDma_modDma ..).modDma _⟩

theorem leaves_dmaDoorbell {c : Instr} {readSide : Bool} {d : DmaDesc} {P : State → Prop} (hr : s.ringsRun = true)
    (hexec : exec c s = ringCmd t s (dmaDoorbell n readSide d))
    (h : ((s.dma[n]).live || (s.dma[n]).st == .done) = true)
    (hend : (if readSide then (s.dma[n]).rd else (s.dma[n]).wr).atEnd = true)
    (hlink : d.isLink = true) (hdesc : descError s n (!readSide) d = none)
    (hP : ∀ s' : State, (s'.dma[n]).rd = (if readSide then
        { (s.dma[n]).rd with atEnd := false, addr := d.addr, space := d.space } else (s.dma[n]).rd) →
      (s'.dma[n]).wr = (if readSide then (s.dma[n]).wr
        else { (s.dma[n]).wr with atEnd := false, addr := d.addr, space := d.space }) →
      ((s'.dma[n]).st = .run ∨ (s'.dma[n]).st = .wait) → s'.regs = s.regs → OnlyDma n s s' → P s') : Leaves c s P := by
  obtain ⟨hrd, hwr, hst, hregs, honly⟩ := dmaDoorbell_goes_on (s := s.arrive t) h hend hlink hdesc
  refine leaves_ringCmd_eq hr hexec rfl fun s' hdma hregs' _ hprint hmotion => ?_
  rw [← hdma] at hrd hwr hst
  exact hP s' hrd hwr hst (hregs'.trans hregs) (OnlyDma.trans honly (onlyDma_of_dma hdma hprint hmotion))

/-! ### The read-back (R347 to R349) -/

theorem msix_printFields (v : Nat) (s : State) : (s.msix v).printFields = s.printFields := by simp [State.printFields]

theorem msix_motion (v : Nat) (s : State) : (s.msix v).motion = s.motion := by simp [State.motion]

theorem emit_printFields (o : Out) (s : State) : (s.emit o).printFields = s.printFields := by simp [State.printFields]

theorem emit_motion (o : Out) (s : State) : (s.emit o).motion = s.motion := by simp [State.motion]

/-- Where a status word leaves the device (R349). -/
theorem statusWord_kept (b : Prop) [Decidable b] (o : Out) (s : State) : (if b then s.emit o else s).dma = s.dma ∧
    (if b then s.emit o else s).regs = s.regs ∧ OnlyDma n s (if b then s.emit o else s) := by
  split
  · exact ⟨State.emit_dma .., State.emit_regs .., onlyDma_of_dma (State.emit_dma ..) (emit_printFields ..) (emit_motion ..)⟩
  · exact ⟨rfl, rfl, onlyDma_of_dma rfl rfl rfl⟩

theorem stopped_kept {y : State} (hdma : y.dma = s.dma) (hregs : y.regs = s.regs) (honly : OnlyDma n s y) (v : Nat) :
    (((y.modDma n fun c => { c with st := .stopped }).msix v).dma[n]) = { s.dma[n] with st := .stopped } ∧
      ((y.modDma n fun c => { c with st := .stopped }).msix v).regs = s.regs ∧
      OnlyDma n s ((y.modDma n fun c => { c with st := .stopped }).msix v) := by
  refine ⟨?_, (State.msix_regs ..).trans hregs, (honly.modDma _).trans
    (onlyDma_of_dma (State.msix_dma ..) (msix_printFields ..) (msix_motion ..))⟩
  rw [State.msix_dma, modDma_dma_self, hdma]

theorem dmaStopped_kept : ((dmaStopped n s).dma[n]) = { s.dma[n] with st := .stopped } ∧ (dmaStopped n s).regs = s.regs ∧
    OnlyDma n s (dmaStopped n s) := by
  obtain ⟨hdma, hregs, honly⟩ := statusWord_kept (n := n) ((dmaPointer s Reg.dmaStwLo Reg.dmaStwHi n).2 = 0)
    (.hostWrite (dmaPointer s Reg.dmaStwLo Reg.dmaStwHi n).1 (statusWord s.dma[n])) s
  exact stopped_kept hdma hregs honly _

/-- The channel `k` starts where it waits for channel `n` (R343). -/
def startArmed (n : Fin 32) (s : State) (k : Fin 32) : State :=
  if (s.dma[k]).st = .armed ∧ s.fld Reg.dmaCfg k 12 8 = n.val then s.modDma k fun c => { c with st := .run } else s

theorem startArmed_kept (n : Fin 32) (s : State) (k : Fin 32) :
    ((startArmed n s k).regs, (startArmed n s k).printFields, (startArmed n s k).motion) = (s.regs, s.printFields, s.motion) := by
  unfold startArmed
  split <;> rfl

theorem startArmed_dma (n : Fin 32) (s : State) (k m : Fin 32) : (startArmed n s k).dma[m] =
    if m = k ∧ (s.dma[m]).st = .armed ∧ s.fld Reg.dmaCfg m 12 8 = n.val then { s.dma[m] with st := .run } else s.dma[m] := by
  unfold startArmed
  by_cases hmk : m = k
  · subst hmk
    simp only [true_and]
    split_ifs
    · exact modDma_dma_self ..
    · rfl
  · rw [if_neg fun h : m = k ∧ _ => hmk h.1]
    split
    · exact modDma_dma_of_ne hmk ..
    · rfl

/-- Of a list of channels those that wait for channel `n` start. -/
theorem foldl_startArmed_dma (n : Fin 32) (l : List (Fin 32)) (s : State) (m : Fin 32) : (l.foldl (startArmed n) s).dma[m] =
    if m ∈ l ∧ (s.dma[m]).st = .armed ∧ s.fld Reg.dmaCfg m 12 8 = n.val then { s.dma[m] with st := .run } else s.dma[m] := by
  induction l generalizing s with
  | nil => simp
  | cons k l ih =>
    have hregs : (startArmed n s k).regs = s.regs := congrArg Prod.fst (startArmed_kept n s k)
    rw [List.foldl_cons, ih, startArmed_dma, fld_of_regs hregs]
    by_cases hwaits : (s.dma[m]).st = .armed ∧ s.fld Reg.dmaCfg m 12 8 = n.val
    · by_cases hmk : m = k
      · simp only [hmk ▸ hwaits, hmk, List.mem_cons, true_or, and_self, if_true, reduceCtorEq, false_and, and_false, if_false]
      · simp only [hmk, false_and, if_false, List.mem_cons, false_or]
    · simp only [hwaits, and_false, if_false]

theorem dmaDone_pulse (n : Fin 32) (s : State) : ∃ y : State, dmaDone n s = (List.finRange 32).foldl (startArmed n) y ∧
    y.dma = (s.modDma n fun c => { c with st := .done, written := 0 }).dma ∧ y.regs = (s.count Reg.dmaDones n).regs ∧
    y.printFields = s.printFields ∧ y.motion = s.motion := by
  unfold dmaDone
  extract_lets s₁ s₂
  refine ⟨s₂, rfl, ?_⟩
  simp only [s₂]
  split <;> exact ⟨rfl, rfl, rfl, rfl⟩

theorem dmaCfg_addr_ne_dmaDones (m n : Nat) : Reg.dmaCfg.addr m ≠ Reg.dmaDones.addr n := by
  simp only [RegSpec.addr, Reg.dmaCfg, Reg.dmaDones]
  omega

/-- A channel enters DONE: it is counted, and the channels armed for it start. -/
theorem dmaDone_kept (n : Fin 32) (s : State) :
    (dmaDone n s).dma[n] = { s.dma[n] with st := .done, written := 0 } ∧
    ((dmaDone n s).rd Reg.dmaDones n).toNat = min ((s.rd Reg.dmaDones n).toNat + 1) 0xFFFFFFFF ∧
    (∀ m, m ≠ n → (dmaDone n s).dma[m] = if (s.dma[m]).st = .armed ∧ s.fld Reg.dmaCfg m 12 8 = n.val then
      { s.dma[m] with st := .run } else s.dma[m]) ∧
    SamePrint s (dmaDone n s) ∧ SameMotion s (dmaDone n s) := by
  obtain ⟨y, hdone, hdma, hregs, hprint, hmotion⟩ := dmaDone_pulse n s
  have hkept := foldl_leaves (g := fun x => (x.regs, x.printFields, x.motion)) (startArmed_kept n) (List.finRange 32) y
  simp only [Prod.mk.injEq] at hkept
  obtain ⟨hregs', hprint', hmotion'⟩ := hkept
  have hcfg : ∀ m : Fin 32, y.fld Reg.dmaCfg m 12 8 = s.fld Reg.dmaCfg m 12 8 := fun m =>
    (fld_of_regs hregs ..).trans (fld_wr_of_ne (dmaCfg_addr_ne_dmaDones m n) ..)
  rw [hdone]
  refine ⟨?_, ?_, fun m hm => ?_, samePrint_iff.mpr (hprint'.trans hprint), sameMotion_iff.mpr (hmotion'.trans hmotion)⟩
  · rw [foldl_startArmed_dma, hdma, modDma_dma_self]
    exact if_neg fun ⟨_, h, _⟩ => by cases h
  · rw [rd_of_regs (hregs'.trans hregs), rd_count rfl]
  · rw [foldl_startArmed_dma, hdma, modDma_dma_of_ne hm, hcfg]
    simp only [List.mem_finRange, true_and]

theorem exec_dmaReadbackDone_of_nothing (hr : s.ringsRun = true) (hab : (s.dma[n]).st ≠ .aborting) (hrun : (s.dma[n]).st ≠ .run) :
    exec (.dmaReadbackDone t n) s = .next (after t s id) := by
  refine ringCmd_nothing hr (rfl : execDmaReadbackDone t n s = _) ?_
  have hnot : (s.dma[n]).atEnd = false := by
    rw [Dma.atEnd, beq_false_of_ne hrun]
    rfl
  exact (if_neg hab).trans (if_neg (show ¬(s.dma[n]).atEnd = true by rw [hnot]; decide))

theorem leaves_dmaReadbackDone_of_aborting (hr : s.ringsRun = true) (hst : (s.dma[n]).st = .aborting) :
    Leaves (.dmaReadbackDone t n) s fun s' => s'.dma[n] = { s.dma[n] with st := .stopped } ∧ s'.regs = s.regs ∧
      OnlyDma n s s' := by
  refine leaves_ringCmd_eq hr (rfl : execDmaReadbackDone t n s = _) (if_pos hst) fun s' hdma hregs _ hprint hmotion => ?_
  obtain ⟨hself, hregs', honly⟩ := dmaStopped_kept (n := n) (s := s.arrive t)
  exact ⟨by rw [hdma, hself]; rfl, hregs.trans hregs', OnlyDma.trans honly (onlyDma_of_dma hdma hprint hmotion)⟩

theorem leaves_dmaReadbackDone_of_atEnd (hr : s.ringsRun = true) (hst : (s.dma[n]).st = .run) (hrd : (s.dma[n]).rd.atEnd = true)
    (hwr : (s.dma[n]).wr.atEnd = true) (hbytes : (s.dma[n]).rd.bytes = (s.dma[n]).wr.bytes) :
    Leaves (.dmaReadbackDone t n) s fun s' => s'.dma[n] = { s.dma[n] with st := .done, written := 0 } ∧
      (s'.rd Reg.dmaDones n).toNat = min ((s.rd Reg.dmaDones n).toNat + 1) 0xFFFFFFFF ∧
      (∀ m, m ≠ n → s'.dma[m] = if (s.dma[m]).st = .armed ∧ s.fld Reg.dmaCfg m 12 8 = n.val then
        { s.dma[m] with st := .run } else s.dma[m]) ∧ SamePrint s s' ∧ SameMotion s s' := by
  have hend : (s.dma[n]).atEnd = true := by
    rw [Dma.atEnd, Dma.held, hst, hrd, hwr, hbytes, Nat.sub_self]
    rfl
  have hab : ¬(s.dma[n]).st = .aborting := by rw [hst]; decide
  refine leaves_ringCmd_eq hr (rfl : execDmaReadbackDone t n s = _) ((if_neg hab).trans (if_pos hend))
    fun s' hdma hregs _ hprint hmotion => ?_
  obtain ⟨hself, hcount, hothers, hprint', hmotion'⟩ := dmaDone_kept n (s.arrive t)
  refine ⟨by rw [hdma, hself]; rfl, by rw [rd_of_regs hregs]; exact hcount, fun m hm => by rw [hdma]; exact hothers m hm,
    samePrint_iff.mpr (hprint.trans (samePrint_iff.mp hprint')), sameMotion_iff.mpr (hmotion.trans (sameMotion_iff.mp hmotion'))⟩

/-! ### Bursts, request lines and buckets -/

/-- What DMA_BURST_COMPLETE does to a running or waiting channel. -/
def burstAct (n : Fin 32) (b : DmaBurst) (s : State) : State :=
  let active := bulkActive s
  let s := s.modMem fun m => { m with arbActive := active }
  let s := if b.bytes = 0 then s else if b.readSide then readBurst n b.bytes s else writeBurst n b.bytes s
  dmaTake n b.readSide b.descs s

theorem burstKeeps_burstAct (b : DmaBurst) : BurstKeeps n s (burstAct n b s) := by
  unfold burstAct
  extract_lets active s₁ s₂
  have harb : BurstKeeps n s s₁ := ⟨onlyDma_of_dma rfl rfl rfl, rfl, id⟩
  have hmoved : BurstKeeps n s₁ s₂ := by
    simp only [s₂]
    split_ifs
    · exact .refl n s₁
    · exact burstKeeps_readBurst
    · exact burstKeeps_writeBurst
  exact (harb.trans hmoved).trans burstKeeps_dmaTake

theorem exec_dmaBurstComplete_of_stopped (hr : s.ringsRun = true) (hrun : (s.dma[n]).st ≠ .run) (hwait : (s.dma[n]).st ≠ .wait)
    (b : DmaBurst) : exec (.dmaBurstComplete t n b) s = .next (after t s id) :=
  ringCmd_nothing hr (rfl : execDmaBurstComplete t n b s = _) (if_neg (not_or.mpr ⟨hrun, hwait⟩))

theorem exec_dmaBurstComplete_of_running (hr : s.ringsRun = true) (h : (s.dma[n]).st = .run ∨ (s.dma[n]).st = .wait)
    (b : DmaBurst) : exec (.dmaBurstComplete t n b) s = .next (after t s (burstAct n b)) := by
  refine (ringCmd_eq_after hr ?_ : execDmaBurstComplete t n b s = _)
  exact if_pos h

theorem leaves_dmaBurstComplete (hr : s.ringsRun = true) (b : DmaBurst) :
    Leaves (.dmaBurstComplete t n b) s (BurstKeeps n s) := by
  by_cases h : (s.dma[n]).st = .run ∨ (s.dma[n]).st = .wait
  · refine ⟨_, exec_dmaBurstComplete_of_running hr h b, ?_⟩
    obtain ⟨honly, hregs, hfits⟩ := burstKeeps_burstAct (n := n) (s := s.arrive t) b
    exact ⟨honly, hregs, hfits⟩
  · obtain ⟨hrun, hwait⟩ := not_or.mp h
    exact ⟨_, exec_dmaBurstComplete_of_stopped hr hrun hwait b, onlyDma_of_dma rfl rfl rfl, rfl, id⟩

/-- A write burst without descriptors after it. -/
theorem leaves_writeBurst (hr : s.ringsRun = true) (hst : (s.dma[n]).st = .run) {bytes : Nat} (hbytes : 0 < bytes)
    {P : State → Prop} (hP : ∀ y : State, y.dma = s.dma → y.pwr = s.pwr → y.regs = s.regs →
      ∀ s' : State, s'.pwr = (writeBurst n bytes y).pwr → s'.dma = (dmaSettle n (writeBurst n bytes y)).dma → P s') :
    Leaves (.dmaBurstComplete t n ⟨false, bytes, []⟩) s P := by
  have hact : (if (s.dma[n]).st = .run ∨ (s.dma[n]).st = .wait then burstAct n ⟨false, bytes, []⟩ (s.arrive t) else s.arrive t) =
      dmaSettle n (writeBurst n bytes ((s.arrive t).modMem fun m => { m with arbActive := bulkActive (s.arrive t) })) := by
    rw [← dmaTake_nil, if_pos (.inl hst)]
    exact congrArg (dmaTake n false []) (if_neg (by exact hbytes.ne'))
  refine leaves_ringCmd_eq hr (rfl : execDmaBurstComplete t n ⟨false, bytes, []⟩ s = _) hact fun s' hdma _ hpwr _ _ => ?_
  exact hP ((s.arrive t).modMem fun m => { m with arbActive := bulkActive (s.arrive t) }) rfl rfl rfl s' hpwr hdma

theorem getLsbD_or_one_shiftLeft (w : BitVec 4) (k : Nat) : (w ||| (1#4 <<< k)).getLsbD k = decide (k < 4) := by
  by_cases hk : k < 4
  · simp [hk]
  · simp [hk, BitVec.getLsbD_of_ge _ _ (Nat.le_of_not_lt hk)]

theorem leaves_writeBurst_of_fits (hr : s.ringsRun = true) {d : DmaDesc} {bytes : Nat} (hst : (s.dma[n]).st = .run)
    (hdesc : (s.dma[n]).wr.desc = some d) (hbytes : 0 < bytes) (hfits : burstFits s n (s.dma[n]).wr d bytes = true)
    (hheld : bytes + (s.dma[n]).wr.bytes ≤ (s.dma[n]).rd.bytes) (htokens : 0 < s.pwr.dmaBucket.tokens) :
    Leaves (.dmaBurstComplete t n ⟨false, bytes, []⟩) s fun s' =>
      (s'.dma[n]).wr.bytes = (s.dma[n]).wr.bytes + bytes ∧ (s'.dma[n]).rd = (s.dma[n]).rd ∧
      s'.pwr.dmaBucket.tokens = s.pwr.dmaBucket.tokens - bytes ∧ (s'.dma[n]).written.getLsbD d.space = decide (d.space < 4) := by
  refine leaves_writeBurst hr hst hbytes fun y hdma hpwr hregs s' hpwr' hdma' => ?_
  have hsize : dmaBurstSize y n = dmaBurstSize s n := congrArg (2 ^ ·) (fld_of_regs hregs ..)
  have hfits' : burstFits y n (s.dma[n]).wr d bytes = true := by
    rw [← hfits, burstFits, burstFits, hsize]
  obtain ⟨hrd, hwr, hwritten, hdrawn⟩ := writeBurst_of_fits (s := y) (n := n) (d := d) (bytes := bytes) (by rw [hdma]; exact hdesc)
    (by rw [hdma]; exact hfits') (by rw [hdma]; exact hheld) (by rw [hpwr]; exact htokens)
  have hself : (dmaSettle n (writeBurst n bytes y)).dma[n] = _ := modDma_dma_self ..
  rw [hpwr', hdma', hself]
  refine ⟨?_, hrd.trans (by rw [hdma]), hdrawn.trans (by rw [hpwr]), ?_⟩
  · exact (congrArg DmaSide.bytes hwr).trans ((burst_bytes ..).trans (by rw [hdma]))
  · exact (congrArg (BitVec.getLsbD · d.space) hwritten).trans (getLsbD_or_one_shiftLeft ..)

theorem leaves_writeBurst_of_empty (hr : s.ringsRun = true) {bytes : Nat} (hst : (s.dma[n]).st = .run) (hbytes : 0 < bytes)
    (htokens : s.pwr.dmaBucket.tokens = 0) : Leaves (.dmaBurstComplete t n ⟨false, bytes, []⟩) s fun s' =>
      (s'.dma[n]).wr = (s.dma[n]).wr ∧ (s'.dma[n]).rd = (s.dma[n]).rd ∧ s'.pwr = s.pwr := by
  refine leaves_writeBurst hr hst hbytes fun y hdma hpwr hregs s' hpwr' hdma' => ?_
  have hnone : writeBurst n bytes y = y := writeBurst_of_empty (by rw [hpwr]; exact htokens)
  obtain ⟨hrd, hwr⟩ := dmaSettle_sides (n := n) (s := y)
  rw [hnone] at hpwr' hdma'
  rw [hdma', ← hdma]
  exact ⟨hwr, hrd, hpwr'.trans hpwr⟩

/-- A request line lets the side that names it move one burst (R345). -/
theorem leaves_dmaRequestLine (hr : s.ringsRun = true) {d : DmaDesc} {line : Nat} (hst : (s.dma[n]).st = .run)
    (hdesc : (s.dma[n]).rd.desc = some d) (hspace : d.space = 3) (harg : d.arg = line) :
    Leaves (.dmaRequestLine t n line) s fun s' =>
      (s'.dma[n]).rd = { (s.dma[n]).rd with req := true } ∧ (∀ m, m ≠ n → s'.dma[m] = s.dma[m]) ∧ s'.regs = s.regs := by
  refine leaves_ringCmd_eq hr (rfl : execDmaRequestLine t n line s = _) rfl fun s' hdma hregs _ _ _ => ?_
  rw [hdma]
  refine ⟨?_, fun m hm => modDma_dma_of_ne hm .., hregs⟩
  have hnames : ((s.dma[n]).rd.desc.any fun d => d.space == 3 && d.arg == line) = true := by
    rw [hdesc, Option.any_some, hspace, harg, beq_self_eq_true, beq_self_eq_true, Bool.and_true]
  have hreq : ((s.dma[n]).rd.req || (s.dma[n]).rd.desc.any fun d => d.space == 3 && d.arg == line) = true := by
    rw [hnames, Bool.or_true]
  rw [modDma_dma_self]
  refine (congrArg Dma.rd (if_pos (show (s.dma[n]).st = .run ∨ (s.dma[n]).st = .wait from .inl hst)) :).trans ?_
  exact congrArg (fun r => { (s.dma[n]).rd with req := r }) hreq

theorem exec_dmaRequestLine_of_stopped (hr : s.ringsRun = true) (hrun : (s.dma[n]).st ≠ .run) (hwait : (s.dma[n]).st ≠ .wait)
    (line : Nat) : exec (.dmaRequestLine t n line) s = .next (after t s id) := by
  refine ringCmd_nothing hr (rfl : execDmaRequestLine t n line s = _) ?_
  have hsame : ∀ f : Dma → Dma, f s.dma[n] = s.dma[n] → (s.arrive t).modDma n f = s.arrive t := fun f hf => by
    rw [State.modDma, upd, State.arrive_dma, hf, Fin.getElem_fin, Vector.set_getElem_self]
    rfl
  exact hsame _ (if_neg (not_or.mpr ⟨hrun, hwait⟩))

end

theorem exec_tokenBucketRefill_dma (t : Nat) (s : State) : exec (.tokenBucketRefill t false) s = .next (after t s fun s =>
    s.modPwr fun p => { p with dmaBucket := { p.dmaBucket with at8 := s.now, tokens := (min p.dmaBucket.perMs
      (p.dmaBucket.tokens + p.dmaBucket.perMs * (s.now - p.dmaBucket.at8) / 8000000)) } }) :=
  (run_eq_after rfl : execTokenBucketRefill t false s = _)

theorem exec_tokenBucketRefill_fab (t : Nat) {s : State} (hwait : s.xlk.bulkWait = []) :
    exec (.tokenBucketRefill t true) s = .next (after t s fun s =>
      s.modPwr fun p => { p with fabBucket := { p.fabBucket with at8 := s.now, tokens := (min p.fabBucket.perMs
        (p.fabBucket.tokens + p.fabBucket.perMs * (s.now - p.fabBucket.at8) / 8000000)) } }) := by
  have hsame : ∀ y : State, y.xlk.bulkWait = [] → y.modXlk (fun x => { x with bulkWait := [] }) = y := fun y hy => by
    rw [State.modXlk, ← hy]
  have hnone : (s.arrive t).xlk.bulkWait = [] := hwait
  refine (run_eq_after ?_ : execTokenBucketRefill t true s = _)
  exact (congrArg (drainBulk · _) hnone).trans (hsame ((s.arrive t).modPwr _) hnone)

/-- Settles O41: what starts, stops and moves a channel is a change to it alone, and every burst keeps its buffer's bound. -/
theorem dataMovers : Obligations.DataMovers := by
  unfold Obligations.DataMovers
  refine ⟨fun t ch d readSide err s hr => ?_, fun t ch b line s hr => ?_⟩
  · refine ⟨fun hst hdis hself => ?_, fun hidle hdone hstopped => ?_, fun hst hdis htrig hself => ?_, fun hst => ?_,
      fun hrun hwait harmed => ?_, fun hst => ?_, fun hst => ?_, fun hst => ?_, fun hst hrd hwr hbytes => ?_, fun hab hrun => ?_⟩
    · exact leaves_dmaStart hr ((startConds_of_startable hst hdis).trans (if_neg hself))
    · exact exec_dmaStart_of_refused hr (startConds_badState hidle hdone hstopped) (by decide)
    · exact exec_dmaStart_of_refused hr ((startConds_of_startable hst hdis).trans (if_pos ⟨htrig, hself⟩)) (by decide)
    · have hlive := Dma.live_of hst
      obtain ⟨s', hexec, ⟨hstop, hout, honly⟩, hregs⟩ := leaves_dmaAbort (t := t) hr hlive
      obtain ⟨s'', hexec', hstop', hout', honly'⟩ := leaves_dmaError (t := t) hr hlive readSide err
      exact ⟨⟨s', hexec, ⟨hstop.st, hstop.code, hstop.side, hstop.discard, hstop.rdPend, hstop.wrPend, hstop.residue, hout, honly⟩,
        hregs⟩, s'', hexec', hstop'.st, hstop'.code, hstop'.side, hstop'.discard, hstop'.rdPend, hstop'.wrPend, hstop'.residue,
        hout', honly'⟩
    · have hlive := Dma.not_live hrun hwait harmed
      exact ⟨ringCmd_nothing hr (rfl : execDmaAbort t ch s = _) (dmaStop_of_not_live (s := s.arrive t) hlive),
        fun herr => exec_dmaError_of_not_live hr hlive readSide herr⟩
    · have hhears := Dma.hears_of hst
      refine ⟨fun hend => ?_, fun hend => ?_, fun hend hlink hdesc => ?_, fun hend hlink hdesc => ?_, fun hend hlink hdesc => ?_⟩
      · refine (ringCmd_eq_after hr ?_ : execDmaDbRd t ch d s = _)
        exact dmaDoorbell_of_before (s := s.arrive t) hhears (readSide := true) hend
      · refine (ringCmd_eq_after hr ?_ : execDmaDbWr t ch d s = _)
        exact dmaDoorbell_of_before (s := s.arrive t) hhears (readSide := false) hend
      · exact leaves_dmaDoorbell hr (rfl : execDmaDbRd t ch d s = _) hhears (readSide := true) hend hlink hdesc
          fun _ hrd hwr hst' hregs honly => ⟨hrd, hwr, hst', hregs, honly⟩
      · exact leaves_dmaDoorbell hr (rfl : execDmaDbWr t ch d s = _) hhears (readSide := false) hend hlink hdesc
          fun _ hrd hwr hst' hregs honly => ⟨hwr, hrd, hst', hregs, honly⟩
      · exact ringCmd_nothing hr (rfl : execDmaDbRd t ch d s = _)
          (dmaDoorbell_of_end (s := s.arrive t) hhears (readSide := true) hend hlink hdesc)
    · have hdeaf : ((s.dma[ch]).live || (s.dma[ch]).st == .done) = false := by
        rw [Dma.live, hst]
        rfl
      exact ⟨ringCmd_nothing hr (rfl : execDmaDbRd t ch d s = _) (dmaDoorbell_of_deaf (s := s.arrive t) hdeaf),
        ringCmd_nothing hr (rfl : execDmaDbWr t ch d s = _) (dmaDoorbell_of_deaf (s := s.arrive t) hdeaf)⟩
    · obtain ⟨s', hexec, hself, hregs, honly⟩ := leaves_dmaReadbackDone_of_aborting (t := t) hr hst
      exact ⟨s', hexec, hself, hregs, honly, _, (List.nil_append _).symm⟩
    · obtain ⟨s', hexec, hself, hcount, hothers, hsame⟩ := leaves_dmaReadbackDone_of_atEnd (t := t) hr hst hrd hwr hbytes
      refine ⟨s', hexec, hself, hcount, fun m hm harmed htrig => ?_, fun m hm hno => ?_, hsame⟩
      · rw [hothers m hm, if_pos ⟨harmed, htrig⟩]
      · exact (hothers m hm).trans (if_neg fun ⟨harmed, htrig⟩ => hno.elim (· harmed) (· htrig))
    · exact exec_dmaReadbackDone_of_nothing hr hab hrun
  · refine ⟨fun hrun hwait => exec_dmaBurstComplete_of_stopped hr hrun hwait b, ?_, fun d bytes hst hdesc hbytes hfits hheld =>
      ⟨leaves_writeBurst_of_fits hr hst hdesc hbytes hfits hheld, leaves_writeBurst_of_empty hr hst hbytes⟩,
      fun d => leaves_dmaRequestLine hr, fun hrun hwait => exec_dmaRequestLine_of_stopped hr hrun hwait line, ?_, fun hwait => ?_⟩
    · obtain ⟨s', hexec, ⟨hothers, hsame⟩, hregs, hfits⟩ := leaves_dmaBurstComplete (t := t) (n := ch) hr b
      exact ⟨s', hexec, fun hwr hrd => hfits ⟨hwr, hrd⟩, hothers, hregs, hsame⟩
    · exact exec_tokenBucketRefill_dma t s
    · exact exec_tokenBucketRefill_fab t hwait

end Sys2Proof.Machine
end

section
/-! Admission to the log ring, expiry of held outcomes and SUMMARY (R450 to R453), and obligation O54. -/
namespace Sys2Proof.Machine

open Sys2Proof.Claim

/-! ## What an admission leaves -/

/-- Admissions write the log path alone: they add to the log ring, and leave what the drain has moved. -/
structure Admits (s s' : State) : Prop where
  only : ∃ log, s' = { s with log := log }
  ring : s.log.ring <+: s'.log.ring
  host : s'.log.host = s.log.host
  rd : s'.log.rd = s.log.rd

theorem Admits.refl (s : State) : Admits s s := ⟨⟨_, rfl⟩, List.prefix_rfl, rfl, rfl⟩

theorem Admits.trans {s s' s'' : State} (h : Admits s s') (h' : Admits s' s'') : Admits s s'' := by
  obtain ⟨⟨log, hs⟩, hring, hhost, hrd⟩ := h
  obtain ⟨⟨log', hs'⟩, hring', hhost', hrd'⟩ := h'
  exact ⟨⟨log', hs'.trans (by rw [hs])⟩, hring.trans hring', hhost'.trans hhost, hrd'.trans hrd⟩

theorem Admits.jobs {s s' : State} (h : Admits s s') : s'.jobs = s.jobs := by
  obtain ⟨log, hs⟩ := h.only
  rw [hs]

theorem admits_modLog {f : LogState → LogState} (h : ∀ l, (f l).ring = l.ring ∧ (f l).host = l.host ∧ (f l).rd = l.rd)
    (s : State) : Admits s (s.modLog f) := by
  obtain ⟨hring, hhost, hrd⟩ := h s.log
  exact ⟨⟨_, rfl⟩, hring ▸ List.prefix_rfl, hhost, hrd⟩

theorem admits_admitRec (r : LogRec) (s : State) : Admits s (admitRec r s) := ⟨⟨_, rfl⟩, List.prefix_append .., rfl, rfl⟩

theorem admits_admitList (bound : State → Nat) (l : List LogRec) (s : State) : Admits s (admitList bound l s).2 := by
  induction l generalizing s with
  | nil => exact .refl s
  | cons r l ih =>
    unfold admitList
    split
    · exact (admits_admitRec r s).trans (ih _)
    · exact .refl s

theorem admits_admitItems (l : List BackEntry) (s : State) : Admits s (admitItems l s).2 := by
  induction l generalizing s with
  | nil => exact .refl s
  | cons e l ih =>
    unfold admitItems
    split
    · split
      · exact (admits_admitRec ..).trans (ih _)
      · exact .refl s
    · exact ih s

/-- One list of Table 24.3 admitted, and the rest of it put back. -/
def admitSome (bound : State → Nat) (list : LogState → List LogRec) (put : LogState → List LogRec → LogState) (s : State) :
    State :=
  let x := admitList bound (list s.log) s
  x.2.modLog fun l => put l x.1

/-- The alarm records of Table 24.3 admitted. -/
def admitAlarms : State → State := admitSome (fun _ => 0) (·.waitAlarms) fun l x => { l with waitAlarms := x }

/-- The SUMMARY records admitted. -/
def admitSummaries : State → State := admitSome (fun _ => 0) (·.waitSummaries) fun l x => { l with waitSummaries := x }

/-- The AUDIT records admitted. -/
def admitAudits : State → State := admitSome (fun s => s.logSize / 64) (·.waitAudit) fun l x => { l with waitAudit := x }

/-- The backlog admitted as far as it fits. -/
def admitBacklog (s : State) : State :=
  let x := admitItems s.log.backlog s
  x.2.modLog fun l => { l with backlog := x.1 }

theorem admitWaiting_eq (s : State) : admitWaiting s = admitBacklog (admitAudits (admitSummaries (admitAlarms s))) := rfl

theorem admits_admitSome {bound : State → Nat} {list : LogState → List LogRec} {put : LogState → List LogRec → LogState}
    (h : ∀ x l, (put l x).ring = l.ring ∧ (put l x).host = l.host ∧ (put l x).rd = l.rd) (s : State) :
    Admits s (admitSome bound list put s) :=
  (admits_admitList bound (list s.log) s).trans (admits_modLog (f := fun l => put l (admitList bound (list s.log) s).1) (h _) _)

theorem admits_admitAlarms (s : State) : Admits s (admitAlarms s) := by
  unfold admitAlarms
  refine admits_admitSome (fun _ _ => ?_) s
  exact ⟨rfl, rfl, rfl⟩

theorem admits_admitSummaries (s : State) : Admits s (admitSummaries s) := by
  unfold admitSummaries
  refine admits_admitSome (fun _ _ => ?_) s
  exact ⟨rfl, rfl, rfl⟩

theorem admits_admitAudits (s : State) : Admits s (admitAudits s) := by
  unfold admitAudits
  refine admits_admitSome (fun _ _ => ?_) s
  exact ⟨rfl, rfl, rfl⟩

theorem admits_admitBacklog (s : State) : Admits s (admitBacklog s) :=
  (admits_admitItems s.log.backlog s).trans
    (admits_modLog (f := fun l => { l with backlog := (admitItems s.log.backlog s).1 }) (fun _ => ⟨rfl, rfl, rfl⟩) _)

theorem admits_admitWaiting (s : State) : Admits s (admitWaiting s) :=
  (admits_admitAlarms s).trans ((admits_admitSummaries _).trans ((admits_admitAudits _).trans (admits_admitBacklog _)))

/-! ## What is admitted -/

/-- Where the first record of a list does not fit, the pass over it changes nothing. -/
theorem admitSome_of_full {bound : State → Nat} {list : LogState → List LogRec} {put : LogState → List LogRec → LogState}
    {s : State} (hput : put s.log (list s.log) = s.log)
    (h : ∀ r, (list s.log).head? = some r → ¬(bound s ≤ s.logFree ∧ r.payload.len ≤ s.logFree)) :
    admitSome bound list put s = s := by
  have hpass : admitList bound (list s.log) s = (list s.log, s) := by
    cases hlist : list s.log with
    | nil => rfl
    | cons r rest =>
      unfold admitList
      exact if_neg (h r (by rw [hlist]; rfl))
  unfold admitSome
  rw [hpass, State.modLog, hput]

theorem len_ge (p : Payload) : 56 ≤ p.len := by
  cases p <;> simp [Payload.len]

theorem admitItems_of_full {s : State} (h : s.logFree < 56) (l : List BackEntry) : admitItems l s = (l, s) := by
  induction l with
  | nil => rfl
  | cons e l ih =>
    unfold admitItems
    split
    · exact if_neg fun ⟨_, hfits⟩ => absurd h (Nat.not_lt.mpr hfits)
    · rw [ih]

theorem admitBacklog_of_full {s : State} (h : s.logFree < 56) : admitBacklog s = s := by
  rw [admitBacklog, admitItems_of_full h]
  rfl

theorem admitBacklog_of_empty {s : State} (h : s.log.backlog = []) : admitBacklog s = s := by
  rw [admitBacklog, h, admitItems, State.modLog, ← h]

theorem admitAlarms_of_none {s : State} (h : s.log.waitAlarms = []) : admitAlarms s = s :=
  admitSome_of_full rfl (by rw [h]; exact fun _ h => by cases h)

theorem admitSummaries_of_none {s : State} (h : s.log.waitSummaries = []) : admitSummaries s = s :=
  admitSome_of_full rfl (by rw [h]; exact fun _ h => by cases h)

/-- Nothing is admitted while less than 56 bytes are free. -/
theorem admitWaiting_of_full {s : State} (h : s.logFree < 56) : admitWaiting s = s := by
  have hlist : ∀ (l : List LogRec) (bound : Nat) (r : LogRec), l.head? = some r → ¬(bound ≤ s.logFree ∧ r.payload.len ≤ s.logFree) :=
    fun _ _ r _ hfits => absurd hfits.2 (Nat.not_le.mpr (h.trans_le (len_ge _)))
  have halarms : admitAlarms s = s := admitSome_of_full rfl (hlist _ _)
  have hsummaries : admitSummaries s = s := admitSome_of_full rfl (hlist _ _)
  have haudits : admitAudits s = s := admitSome_of_full rfl (hlist _ _)
  rw [admitWaiting_eq, halarms, hsummaries, haudits, admitBacklog_of_full h]

/-- The first alarm record that waits is admitted next where the free space holds it. -/
theorem ring_admitWaiting_of_alarm {s : State} {r : LogRec} {rest : List LogRec} (hwait : s.log.waitAlarms = r :: rest)
    (hfits : r.payload.len ≤ s.logFree) : s.log.ring ++ [{ r with lseq := s.log.nextLseq }] <+: (admitWaiting s).log.ring := by
  have hfirst : admitList (fun _ => 0) s.log.waitAlarms s = admitList (fun _ => 0) rest (admitRec r s) := by
    rw [hwait, admitList, if_pos ⟨Nat.zero_le _, hfits⟩]
  have halarms : s.log.ring ++ [{ r with lseq := s.log.nextLseq }] <+: (admitAlarms s).log.ring := by
    have hrest := (admits_admitList (fun _ => 0) rest (admitRec r s)).ring
    rwa [← hfirst] at hrest
  have hlater := (admits_admitSummaries (admitAlarms s)).trans ((admits_admitAudits _).trans (admits_admitBacklog _))
  exact halarms.trans hlater.ring

/-- A pass over what waits when a lone AUDIT record does. -/
theorem admitWaiting_of_lone {s : State} {r : LogRec} (halarm : s.log.waitAlarms = []) (hsum : s.log.waitSummaries = [])
    (haudit : s.log.waitAudit = [r]) (hback : s.log.backlog = []) : admitWaiting s =
      if s.logSize / 64 ≤ s.logFree ∧ r.payload.len ≤ s.logFree then (admitRec r s).modLog fun l => { l with waitAudit := [] }
      else s := by
  rw [admitWaiting_eq, admitAlarms_of_none halarm, admitSummaries_of_none hsum]
  split_ifs with hfits
  · have hpass : admitList (fun s => s.logSize / 64) s.log.waitAudit s = ([], admitRec r s) := by
      rw [haudit, admitList, if_pos hfits]
      rfl
    have haudits : admitAudits s = (admitRec r s).modLog fun l => { l with waitAudit := [] } := by
      rw [admitAudits, admitSome, hpass]
    rw [haudits]
    exact admitBacklog_of_empty hback
  · have haudits : admitAudits s = s := admitSome_of_full rfl (by rw [haudit]; rintro x ⟨⟩; exact hfits)
    rw [haudits, admitBacklog_of_empty hback]

/-! ## LOG_ADMISSION -/

theorem settleJob_of_unloaded {ctx : Fin 64} {s : State} (h : (s.jobs[ctx]).pkg = none) : settleJob ctx s = s := by
  unfold settleJob
  extract_lets j
  split
  · rfl
  · rfl
  next pk hpk _ => exact absurd (h.symm.trans hpk) (Option.some_ne_none pk).symm

theorem settleAll_of_unloaded {s : State} (h : ∀ n : Fin 64, (s.jobs[n]).pkg = none) : settleAll s = s := by
  unfold settleAll
  induction List.finRange 64 with
  | nil => rfl
  | cons c l ih => rw [List.foldl_cons, settleJob_of_unloaded (h c), ih]

theorem latchAlarm_log (code : Nat) (s : State) : (latchAlarm code s).log = s.log ∧ (latchAlarm code s).str = s.str := by
  unfold latchAlarm
  extract_lets w
  split
  · exact ⟨rfl, rfl⟩
  · exact ⟨State.msix_log .., State.msix_str ..⟩

/-- The free space is a matter of the log path and the structure alone. -/
theorem logFree_congr {s s' : State} (hlog : s'.log = s.log) (hstr : s'.str = s.str) : s'.logFree = s.logFree := by
  simp only [State.logFree, State.logSize, State.logUsed, hlog, hstr]

/-- An alarm leaves the log ring where less than a record's 56 bytes are free. -/
theorem alarm_log_of_full {s : State} (h : s.logFree < 56) (a : Alarm) (inst : Nat) :
    (alarm a inst s).log.ring = s.log.ring ∧ (alarm a inst s).log.nextLseq = s.log.nextLseq := by
  obtain ⟨hlog, hstr⟩ := latchAlarm_log a.code s
  have hfull : (latchAlarm a.code s).logFree < 56 := by rwa [logFree_congr hlog hstr]
  unfold alarm alarmArgs
  extract_lets y r
  have hno : ¬(y.log.waitAlarms.isEmpty && decide (r.payload.len ≤ y.logFree)) = true := by
    rw [Bool.and_eq_true, decide_eq_true_eq]
    exact fun hfits => absurd hfits.2 (Nat.not_le.mpr (hfull.trans_le (len_ge _)))
  rw [← hlog]
  split_ifs with hsame hfits
  · exact ⟨rfl, rfl⟩
  · exact ⟨rfl, rfl⟩
  · exact ⟨rfl, rfl⟩

theorem admits_alarm (a : Alarm) (inst : Nat) (s : State) : s.log.ring <+: (alarm a inst s).log.ring := by
  rw [← (latchAlarm_log a.code s).1]
  unfold alarm alarmArgs
  extract_lets y r
  split_ifs
  · exact List.prefix_rfl
  · exact List.prefix_append ..
  · exact List.prefix_rfl
  · exact List.prefix_rfl

theorem ring_backlogEpisode (s : State) : s.log.ring <+: (backlogEpisode s).log.ring := by
  unfold backlogEpisode
  split_ifs
  · exact List.prefix_rfl
  · exact admits_alarm _ _ (s.modLog fun l => { l with backlogFull := true })
  · exact List.prefix_rfl

theorem backlogEpisode_of_full {s : State} (h : s.logFree < 56) :
    (backlogEpisode s).log.ring = s.log.ring ∧ (backlogEpisode s).log.nextLseq = s.log.nextLseq := by
  unfold backlogEpisode
  split_ifs
  · exact ⟨rfl, rfl⟩
  · exact alarm_log_of_full (s := s.modLog fun l => { l with backlogFull := true }) h ..
  · exact ⟨rfl, rfl⟩

section
variable {t : Nat} {s : State}

theorem after_log (t : Nat) (s : State) (f : State → State) : (after t s f).log = (f (s.arrive t)).log := rfl

theorem exec_logAdmission_of_unloaded (hr : s.ringsRun = true) (h : ∀ n : Fin 64, (s.jobs[n]).pkg = none) :
    exec (.logAdmission t) s = .next (after t s fun s => backlogEpisode (admitWaiting s)) := by
  refine (run_eq_after ?_ : execLogAdmission t s = _)
  refine (if_pos hr).trans (settleAll_of_unloaded fun n => ?_)
  rw [jobs_backlogEpisode, (admits_admitWaiting _).jobs]
  exact h n

theorem exec_logAdmission_of_stopped (hr : s.ringsRun = false) : exec (.logAdmission t) s = .next (after t s id) := by
  refine (run_eq_after ?_ : execLogAdmission t s = _)
  exact if_neg (show ¬(s.arrive t).ringsRun = true by rw [show (s.arrive t).ringsRun = false from hr]; decide)

theorem leaves_logAdmission_of_alarm (hr : s.ringsRun = true) (h : ∀ n : Fin 64, (s.jobs[n]).pkg = none) {r : LogRec}
    {rest : List LogRec} (hwait : s.log.waitAlarms = r :: rest) (hfits : r.payload.len ≤ s.logFree) :
    Leaves (.logAdmission t) s fun s' => ∃ more, s'.log.ring = s.log.ring ++ { r with lseq := s.log.nextLseq } :: more := by
  refine ⟨_, exec_logAdmission_of_unloaded hr h, ?_⟩
  have hring := (ring_admitWaiting_of_alarm (s := s.arrive t) hwait hfits).trans (ring_backlogEpisode _)
  obtain ⟨more, hmore⟩ := hring
  exact ⟨more, hmore.symm.trans (List.append_assoc ..)⟩

theorem leaves_logAdmission_of_full (hr : s.ringsRun = true) (h : ∀ n : Fin 64, (s.jobs[n]).pkg = none) (hfull : s.logFree < 56) :
    Leaves (.logAdmission t) s fun s' => s'.log.ring = s.log.ring ∧ s'.log.nextLseq = s.log.nextLseq ∧ s'.jobs = s.jobs := by
  have hpass := admitWaiting_of_full (s := s.arrive t) hfull
  obtain ⟨hring, hlseq⟩ := backlogEpisode_of_full (s := s.arrive t) hfull
  refine ⟨_, (exec_logAdmission_of_unloaded hr h).trans (next_after_congr (g := backlogEpisode) ?_), hring, hlseq,
    jobs_backlogEpisode (s.arrive t)⟩
  rw [hpass]

theorem leaves_logAdmission_of_lone (hr : s.ringsRun = true) (h : ∀ n : Fin 64, (s.jobs[n]).pkg = none) {r : LogRec}
    (halarm : s.log.waitAlarms = []) (hsum : s.log.waitSummaries = []) (haudit : s.log.waitAudit = [r])
    (hback : s.log.backlog = []) : Leaves (.logAdmission t) s fun s' =>
      (s.logSize / 64 ≤ s.logFree ∧ r.payload.len ≤ s.logFree →
        s'.log.ring = s.log.ring ++ [{ r with lseq := s.log.nextLseq }] ∧ s'.log.waitAudit = []) ∧
      (s.logFree < s.logSize / 64 ∨ s.logFree < r.payload.len → s'.log.ring = s.log.ring ∧ s'.log.waitAudit = [r]) := by
  have hpass := admitWaiting_of_lone (s := s.arrive t) halarm hsum haudit hback
  have hepisode : ∀ y : State, y.log.backlog = [] → backlogEpisode y = y.modLog fun l => { l with backlogFull := false } :=
    fun y hy => if_neg (by rw [State.backlogIsFull, hy]; decide)
  by_cases hfits : s.logSize / 64 ≤ s.logFree ∧ r.payload.len ≤ s.logFree
  · rw [if_pos (show (s.arrive t).logSize / 64 ≤ (s.arrive t).logFree ∧ r.payload.len ≤ (s.arrive t).logFree from hfits)] at hpass
    refine ⟨_, (exec_logAdmission_of_unloaded hr h).trans
      (next_after_congr (g := fun s => backlogEpisode ((admitRec r s).modLog fun l => { l with waitAudit := [] })) ?_), ?_⟩
    · rw [hpass]
    · refine ⟨fun _ => ?_, fun hno => by omega⟩
      simp only [after_log, hepisode ((admitRec r (s.arrive t)).modLog fun l => { l with waitAudit := [] }) hback]
      exact ⟨rfl, rfl⟩
  · rw [if_neg (show ¬((s.arrive t).logSize / 64 ≤ (s.arrive t).logFree ∧ r.payload.len ≤ (s.arrive t).logFree) from hfits)] at hpass
    refine ⟨_, (exec_logAdmission_of_unloaded hr h).trans (next_after_congr (g := backlogEpisode) ?_), ?_⟩
    · rw [hpass]
    · refine ⟨fun hyes => absurd hyes hfits, fun _ => ?_⟩
      simp only [after_log, hepisode (s.arrive t) hback]
      exact ⟨rfl, haudit⟩

/-! ## ITEM_HOLD_EXPIRY and SUMMARY_TIMER -/

theorem expireEntry_of_other {s : State} {ctx seq : Nat} {e : BackEntry} (h : ¬(e.ctx = ctx ∧ e.seq = seq)) :
    expireEntry s ctx seq e = e := by
  unfold expireEntry
  split
  · exact if_neg h
  · rfl

theorem expireEntry_of_held {s : State} {ctx seq : Nat} {e : BackEntry} {o : OutcomeRec} {since : Nat} (hctx : e.ctx = ctx)
    (hseq : e.seq = seq) (hst : e.st = .final o since false) : expireEntry s ctx seq e =
      { e with st := .final (holdOutcome s o since false).1 since (holdOutcome s o since false).2 } := by
  unfold expireEntry
  split
  next o' since' hst' =>
    rw [hst] at hst'
    cases hst'
    exact if_pos ⟨hctx, hseq⟩
  next hno => exact absurd hst (hno o since)

/-- The one entry of the backlog that stands under a context and a number is the one that expires. -/
theorem map_expireEntry {s : State} {ctx seq : Nat} {front back : List BackEntry} {e : BackEntry}
    (hother : ∀ x ∈ front ++ back, ¬(x.ctx = ctx ∧ x.seq = seq)) :
    (front ++ e :: back).map (expireEntry s ctx seq) = front ++ expireEntry s ctx seq e :: back := by
  have hsame : ∀ l : List BackEntry, (∀ x ∈ l, ¬(x.ctx = ctx ∧ x.seq = seq)) → l.map (expireEntry s ctx seq) = l :=
    fun l hl => (List.map_congr_left fun x hx => expireEntry_of_other (hl x hx)).trans (List.map_id' l)
  rw [List.map_append, List.map_cons, hsame front fun x hx => hother x (List.mem_append_left _ hx),
    hsame back fun x hx => hother x (List.mem_append_right _ hx)]

theorem exec_itemHoldExpiry {ctx : Fin 64} {seq : Nat} {front back : List BackEntry} {e : BackEntry} {o : OutcomeRec} {since : Nat}
    (hback : s.log.backlog = front ++ e :: back) (hctx : e.ctx = ctx.val) (hseq : e.seq = seq)
    (hother : ∀ x ∈ front ++ back, ¬(x.ctx = ctx.val ∧ x.seq = seq)) (hst : e.st = .final o since false) :
    exec (.itemHoldExpiry t ctx seq) s = .next (after t s fun s => s.modLog fun l => { l with backlog := front ++
      { e with st := .final (holdOutcome s o since false).1 since (holdOutcome s o since false).2 } :: back }) := by
  refine (run_eq_after ?_ : execItemHoldExpiry t ctx seq s = _)
  have hmap : (s.arrive t).log.backlog.map (expireEntry (s.arrive t) ctx seq) = _ :=
    (congrArg (List.map _) hback).trans (map_expireEntry hother)
  simp only [State.modLog, hmap, expireEntry_of_held hctx hseq hst]

theorem exec_itemHoldExpiry_of_due {ctx : Fin 64} {seq : Nat} {front back : List BackEntry} {e : BackEntry} {o : OutcomeRec}
    {since : Nat} (hback : s.log.backlog = front ++ e :: back) (hctx : e.ctx = ctx.val) (hseq : e.seq = seq)
    (hother : ∀ x ∈ front ++ back, ¬(x.ctx = ctx.val ∧ x.seq = seq)) (hst : e.st = .final o since false)
    (hdue : s.fld Reg.logCfg 0 31 22 * 8000000 ≤ max s.now t - since) :
    exec (.itemHoldExpiry t ctx seq) s = .next (after t s fun s => s.modLog fun l => { l with backlog := front ++
      { e with st := .final { o with outcome := 9, codes := o.codes ||| 0x200#16 } since true } :: back }) := by
  have hheld : holdOutcome (s.arrive t) o since false = ({ o with outcome := 9, codes := o.codes ||| 0x200#16 }, true) :=
    if_pos (.inr hdue)
  rw [exec_itemHoldExpiry hback hctx hseq hother hst]
  exact next_after_congr (by rw [hheld])

theorem exec_itemHoldExpiry_of_early {ctx : Fin 64} {seq : Nat} {front back : List BackEntry} {e : BackEntry} {o : OutcomeRec}
    {since : Nat} (hback : s.log.backlog = front ++ e :: back) (hctx : e.ctx = ctx.val) (hseq : e.seq = seq)
    (hother : ∀ x ∈ front ++ back, ¬(x.ctx = ctx.val ∧ x.seq = seq)) (hst : e.st = .final o since false)
    (hearly : max s.now t - since < s.fld Reg.logCfg 0 31 22 * 8000000) :
    exec (.itemHoldExpiry t ctx seq) s = .next (after t s id) := by
  have hheld : holdOutcome (s.arrive t) o since false = (o, false) :=
    if_neg (not_or.mpr ⟨Bool.false_ne_true, Nat.not_le.mpr hearly⟩)
  rw [exec_itemHoldExpiry hback hctx hseq hother hst]
  refine next_after_congr ?_
  rw [hheld, ← hst, State.modLog, ← hback]
  rfl

theorem summaryDue_of_idle {d : DropState} (h : d.dropping = false) : summaryDue s d = false := by
  rw [summaryDue, h, Bool.false_and]

theorem exec_summaryTimer_of_idle (hdiag : summaryDue (s.arrive t) s.log.drops = false)
    (htrace : s.log.traceDrops.dropping = false) : exec (.summaryTimer t) s = .next (after t s id) := by
  refine (run_eq_after ?_ : execSummaryTimer t s = _)
  have hfirst : when (summaryDue (s.arrive t) (s.arrive t).log.drops) (writeSummary .diag) (s.arrive t) = s.arrive t :=
    if_neg (show ¬summaryDue (s.arrive t) s.log.drops = true by rw [hdiag]; decide)
  have hsecond : when (summaryDue (s.arrive t) (s.arrive t).log.traceDrops) (writeSummary .trace) (s.arrive t) = s.arrive t :=
    if_neg (by rw [summaryDue_of_idle (d := (s.arrive t).log.traceDrops) htrace]; decide)
  rw [hfirst]
  exact hsecond

/-- The SUMMARY of the diagnostic class, where it is admitted at once. -/
theorem writeSummary_diag_of_room (halarm : s.log.waitAlarms = []) (hsum : s.log.waitSummaries = []) (hroom : 56 ≤ s.logFree) :
    writeSummary .diag s = admitRec (mkRec s .diag 0xFFFF noInst (.summary s.log.drops.dropped (topCode s.log.drops.codes).1
      (topCode s.log.drops.codes).2 s.log.drops.first s.log.drops.last))
      (s.modLog fun l => { l with drops := { s.log.drops with dropped := 0, codes := [], lastSummary := s.press } }) := by
  refine if_pos ?_
  rw [Bool.and_eq_true, Bool.and_eq_true, decide_eq_true_eq]
  exact ⟨⟨congrArg List.isEmpty hsum, congrArg List.isEmpty halarm⟩, hroom⟩

theorem exec_summaryTimer_of_due (hdue : summaryDue (s.arrive t) s.log.drops = true)
    (htrace : s.log.traceDrops.dropping = false) (halarm : s.log.waitAlarms = []) (hsum : s.log.waitSummaries = [])
    (hroom : 56 ≤ s.logFree) : exec (.summaryTimer t) s = .next (after t s fun s => admitRec (mkRec s .diag 0xFFFF noInst
      (.summary s.log.drops.dropped (topCode s.log.drops.codes).1 (topCode s.log.drops.codes).2 s.log.drops.first
        s.log.drops.last))
      (s.modLog fun l => { l with drops := { s.log.drops with dropped := 0, codes := [], lastSummary := s.press } })) := by
  refine (run_eq_after ?_ : execSummaryTimer t s = _)
  have hfirst : when (summaryDue (s.arrive t) (s.arrive t).log.drops) (writeSummary .diag) (s.arrive t) = _ :=
    (if_pos hdue).trans (writeSummary_diag_of_room (s := s.arrive t) halarm hsum hroom)
  rw [hfirst]
  have hidle : ∀ y : State, y.log.traceDrops = s.log.traceDrops →
      when (summaryDue y y.log.traceDrops) (writeSummary .trace) y = y := fun y hy =>
    if_neg (by rw [hy, summaryDue_of_idle htrace]; decide)
  exact hidle _ rfl

end

/-- Settles O54: a pass admits the list of each class in turn while it fits; an outcome expires by the time it was held, and a
SUMMARY is due by the time of the one before it. -/
theorem logAdmission : Obligations.LogAdmission := by
  unfold Obligations.LogAdmission
  intro t seq ctx s
  refine ⟨exec_logAdmission_of_stopped, fun hr h => ⟨fun r rest hwait hfits => leaves_logAdmission_of_alarm hr h hwait hfits,
    leaves_logAdmission_of_full hr h, fun r => leaves_logAdmission_of_lone hr h⟩, ?_, ?_, ?_⟩
  · exact fun front e back o since hback hctx hseq hother hst =>
      ⟨exec_itemHoldExpiry_of_due hback hctx hseq hother hst, exec_itemHoldExpiry_of_early hback hctx hseq hother hst⟩
  · exact fun hdiag => exec_summaryTimer_of_idle (summaryDue_of_idle hdiag)
  · intro hdiag htrace
    have hdue : summaryDue (s.arrive t) s.log.drops =
        decide (max s.log.drops.lastSummary (8 * s.log.drops.first) + 8000000000 ≤ (s.arrive t).press) := by
      rw [summaryDue, hdiag, Bool.true_and]
      rfl
    refine ⟨fun hearly => exec_summaryTimer_of_idle ?_ htrace, fun hlate halarm hsum hroom =>
      ⟨_, exec_summaryTimer_of_due ?_ htrace halarm hsum hroom, rfl, rfl, hdiag, _, rfl, rfl, rfl, rfl, rfl, rfl⟩⟩
    · rw [hdue, decide_eq_false (Nat.not_le.mpr hearly)]
    · rw [hdue, decide_eq_true hlate]

end Sys2Proof.Machine
end

section
/-! The drain to the host ring (R449, R453 to R455, R458), and obligation O55. -/
namespace Sys2Proof.Machine

open Sys2Proof.Claim

/-! ## A bit that a field write sets -/

/-- A bit that resets to 0 reads 1 once it has been written. -/
theorem bitOf_setFld_one {r : RegSpec} {b : Nat} (hb : b < 32) (hreset : r.reset.getLsbD b = false) (i : Nat) (s : State) :
    bitOf (s.setFld r i b b 1) r i b = true := by
  have hbit := setBits_getLsbD (s.rd r i) hb
  have hne : setBits (s.rd r i) b b 1 ≠ r.reset := fun h => by rw [h, hreset] at hbit; exact absurd hbit (by decide)
  rw [bitOf, State.setFld, rd_wr_self hne, hbit]

/-! ## What fits the host ring -/

/-- The PAD before a record, where it would cross the end of the ring. -/
def padBefore (size wr : Nat) (r : LogRec) : Nat := if size < wr % size + r.payload.len then size - wr % size else 0

/-- The running offset behind a record. -/
def recordEnd (size wr : Nat) (r : LogRec) : Nat := wr + padBefore size wr r + r.payload.len

theorem drainFit_one_of_room {size rd wr : Nat} {r : LogRec} (rest : List LogRec) (h : recordEnd size wr r + 8 ≤ rd + size) :
    drainFit size rd wr 1 (r :: rest) = ([(r, recordEnd size wr r)], rest) := by
  unfold drainFit
  exact (if_pos h).trans rfl

theorem drainFit_of_full {size rd wr : Nat} {r : LogRec} (rest : List LogRec) (h : rd + size < recordEnd size wr r + 8)
    (n : Nat) : (drainFit size rd wr n (r :: rest)).1.isEmpty = true := by
  cases n with
  | zero => rfl
  | succ n =>
    have hfit : drainFit size rd wr (n + 1) (r :: rest) = ([], r :: rest) := by
      unfold drainFit
      exact if_neg (Nat.not_le.mpr h)
    rw [hfit]
    rfl

/-! ## What one record's drain writes -/

/-- The PAD, where there is one, and the record, as the host sees them. -/
def recordOut (size wr : Nat) (r : LogRec) : List Out :=
  (if 0 < padBefore size wr r then [Out.hostPad (wr % size) (padBefore size wr r)] else []) ++
    [Out.hostRecord ((wr + padBefore size wr r) % size) ((wr + padBefore size wr r) / size % 2 == 0) r]

theorem drainWrite_one (size wr : Nat) (r : LogRec) (s : State) :
    drainWrite size wr [(r, recordEnd size wr r)] s = { s with out := s.out ++ recordOut size wr r } := by
  have hstart : recordEnd size wr r - r.payload.len = wr + padBefore size wr r := Nat.add_sub_cancel ..
  have hpad : wr + padBefore size wr r - wr = padBefore size wr r := Nat.add_sub_cancel_left ..
  unfold drainWrite drainWrite recordOut
  extract_lets start y
  rw [show start = wr + padBefore size wr r from hstart]
  by_cases h : 0 < padBefore size wr r
  · have hy : y = s.emit (.hostPad (wr % size) (padBefore size wr r)) := by
      unfold y start
      rw [hstart, hpad, if_pos (Nat.lt_add_of_pos_right h)]
    rw [if_pos h, hy, State.emit, State.emit, List.append_assoc]
  · have hy : y = s := by
      unfold y start
      rw [hstart, if_neg (by omega)]
    rw [if_neg h, hy]
    rfl

/-- LOG_HOST_WR has moved over one record. -/
structure MovedOne (r : LogRec) (last : Nat) (rest : List LogRec) (s s' : State) : Prop where
  ring : s'.log.ring = rest
  host : s'.log.host = s.log.host ++ [(r, last)]
  wr : s'.log.wr = last
  rd : s'.log.rd = s.log.rd
  retry : s'.log.retry = none
  out : s.out <+: s'.out

theorem out_msix (v : Nat) (s : State) : s.out <+: (s.msix v).out := by
  unfold State.msix
  split
  · exact List.prefix_rfl
  · exact List.prefix_append ..

theorem log_raiseLog (s : State) :
    (raiseLog s).log = { s.log with coalCount := 0, coalFirst := none } := State.msix_log ..

theorem out_raiseLog {s s₀ : State} (h : s.out = s₀.out) : s₀.out <+: (raiseLog s).out :=
  h ▸ out_msix (s.fld Reg.evtVec 0 15 8) (s.modLog fun l => { l with coalCount := 0, coalFirst := none })

theorem movedOne_drainAdvance (r : LogRec) (last : Nat) (rest : List LogRec) (s : State) :
    MovedOne r last rest s (drainAdvance [(r, last)] rest s) := by
  unfold drainAdvance
  simp only [List.getLast?_singleton]
  split
  · refine ⟨?_, ?_, ?_, ?_, ?_, out_raiseLog rfl⟩ <;> rw [log_raiseLog] <;> rfl
  · exact ⟨rfl, rfl, rfl, rfl, rfl, List.prefix_rfl⟩

variable {t : Nat} {s : State} {r : LogRec} {rest : List LogRec}

theorem drainRun_of_full (hring : s.log.ring = r :: rest)
    (h : s.log.rd + hostSize s < recordEnd (hostSize s) s.log.wr r + 8) (n : Nat) (ok : Bool) : drainRun n ok s = s := by
  unfold drainRun
  rw [hring]
  exact if_pos (drainFit_of_full rest h n)

/-- Nothing is written where no record is asked for. -/
theorem drainRun_zero (ok : Bool) (s : State) : drainRun 0 ok s = s := by
  unfold drainRun drainFit
  rfl

theorem drainRun_one_of_room (hring : s.log.ring = r :: rest)
    (h : recordEnd (hostSize s) s.log.wr r + 8 ≤ s.log.rd + hostSize s) (ok : Bool) : drainRun 1 ok s =
      let y := { s with out := s.out ++ recordOut (hostSize s) s.log.wr r }
      if ok then drainAdvance [(r, recordEnd (hostSize s) s.log.wr r)] rest y
      else (y.setFld Reg.logStatus 0 6 6 1).modLog fun l => { l with retry := some (1, y.now) } := by
  unfold drainRun
  rw [hring, drainFit_one_of_room rest h]
  simp only [drainWrite_one]
  rfl

theorem movedOne_drainRun (hring : s.log.ring = r :: rest)
    (h : recordEnd (hostSize s) s.log.wr r + 8 ≤ s.log.rd + hostSize s) :
    MovedOne r (recordEnd (hostSize s) s.log.wr r) rest { s with out := s.out ++ recordOut (hostSize s) s.log.wr r }
      (drainRun 1 true s) := by
  rw [drainRun_one_of_room hring h true]
  exact movedOne_drainAdvance ..

/-! ## An item's record that was lost -/

/-- LOG_RECORD_LOST, in place of the record lost. -/
def lostMark (s : State) (r : LogRec) : LogRec :=
  { mkRec s .alarm Alarm.logRecordLost.code noInst (.args (BitVec.ofNat 64 r.lseq) (BitVec.ofNat 64 r.lseq) 0 0) with
    lseq := r.lseq }

/-- An outcome written again, VOID. -/
def voidAgain (o : OutcomeRec) : OutcomeRec := { o with outcome := 9, codes := o.codes ||| 0x200#16 }

theorem reissue_of_one {e : BackEntry} {o : OutcomeRec} {n : Nat} (hback : s.log.backlog = [e]) (hst : e.st = .admitted o n) :
    (reissue n s).log.ring = s.log.ring ++ [{ itemRec s (voidAgain o) false true with lseq := s.log.nextLseq }] := by
  unfold reissue
  rw [hback, List.foldl_cons, List.foldl_nil, hst]
  simp only [if_true]
  rfl

theorem loseFirst_of_item {e : BackEntry} {o : OutcomeRec} (hring : s.log.ring = r :: rest) (hitem : r.payload = .outcome o)
    (hback : s.log.backlog = [e]) (hst : e.st = .admitted o r.lseq) : ∃ y : LogRec,
      (loseFirst s).log.ring = lostMark s r :: (rest ++ [y]) ∧ y.reissue = true ∧ y.lseq = s.log.nextLseq ∧
        y.payload = .outcome (voidAgain o) := by
  have hlatch := (latchAlarm_log Alarm.logRecordLost.code (s.modLog fun l => { l with ring := lostMark s r :: rest })).1
  have hagain := reissue_of_one ((congrArg LogState.backlog hlatch).trans hback) hst
  unfold loseFirst lostRecord
  simp only [hring, hitem]
  exact ⟨_, hagain.trans (congrArg (· ++ _) (congrArg LogState.ring hlatch)), rfl,
    (congrArg LogState.nextLseq hlatch :), rfl⟩

/-! ## LOG_DRAIN and LOG_READBACK_RETRY -/

/-- One record written, whose read-back failed. -/
def retryNoted (r : LogRec) (s : State) : State :=
  ({ s with out := s.out ++ recordOut (hostSize s) s.log.wr r }.setFld Reg.logStatus 0 6 6 1).modLog
    fun l => { l with retry := some (1, s.now) }

section
variable (hr : s.ringsRun = true)
include hr

/-- A drain that is off, or waits to write again, moves nothing. -/
theorem exec_logDrain_of_idle (h : s.log.en = false ∨ s.log.retry.isNone = false) (n : Nat) (ok lost : Bool) :
    exec (.logDrain t n ok lost) s = .next (after t s id) := by
  refine (ringCmd_eq_after hr ?_ : execLogDrain t n ok lost s = _)
  refine if_neg fun hgo => ?_
  rw [Bool.and_eq_true, Bool.and_eq_true] at hgo
  obtain ⟨⟨hen, hnone⟩, -⟩ := hgo
  rcases h with h | h
  · exact absurd (hen.symm.trans h) (by decide)
  · exact absurd (hnone.symm.trans h) (by decide)

theorem exec_logDrain_of_on (hen : s.log.en = true) (hdis : s.isDisabled 0x0E 0 = false) (hretry : s.log.retry = none)
    (n : Nat) (ok lost : Bool) :
    exec (.logDrain t n ok lost) s = .next (after t s fun s => drainRun n ok (when lost loseFirst s)) := by
  refine (ringCmd_eq_after hr ?_ : execLogDrain t n ok lost s = _)
  refine if_pos ?_
  rw [Bool.and_eq_true, Bool.and_eq_true, Bool.not_eq_true']
  exact ⟨⟨hen, congrArg Option.isNone hretry⟩, hdis⟩

theorem exec_logDrain_of_full (hen : s.log.en = true) (hdis : s.isDisabled 0x0E 0 = false) (hretry : s.log.retry = none)
    (hring : s.log.ring = r :: rest) (h : s.log.rd + hostSize s < recordEnd (hostSize s) s.log.wr r + 8) (n : Nat) (ok : Bool) :
    exec (.logDrain t n ok false) s = .next (after t s id) := by
  rw [exec_logDrain_of_on hr hen hdis hretry]
  exact next_after_congr (drainRun_of_full (s := s.arrive t) hring h n ok)

theorem leaves_logDrain_of_room (hen : s.log.en = true) (hdis : s.isDisabled 0x0E 0 = false) (hretry : s.log.retry = none)
    (hring : s.log.ring = r :: rest) (h : recordEnd (hostSize s) s.log.wr r + 8 ≤ s.log.rd + hostSize s) :
    Leaves (.logDrain t 1 true false) s fun s' => s'.log.ring = rest ∧
      s'.log.host = s.log.host ++ [(r, recordEnd (hostSize s) s.log.wr r)] ∧ s'.log.wr = recordEnd (hostSize s) s.log.wr r ∧
      s'.log.rd = s.log.rd ∧ ∃ more, s'.out = recordOut (hostSize s) s.log.wr r ++ more := by
  have hmoved := movedOne_drainRun (s := s.arrive t) hring h
  obtain ⟨more, hmore⟩ := hmoved.out
  exact ⟨_, exec_logDrain_of_on hr hen hdis hretry 1 true false, hmoved.ring, hmoved.host, hmoved.wr, hmoved.rd, more, hmore.symm⟩

theorem leaves_logDrain_of_failed (hen : s.log.en = true) (hdis : s.isDisabled 0x0E 0 = false) (hretry : s.log.retry = none)
    (hring : s.log.ring = r :: rest) (h : recordEnd (hostSize s) s.log.wr r + 8 ≤ s.log.rd + hostSize s) :
    Leaves (.logDrain t 1 false false) s fun s' => s'.log.ring = s.log.ring ∧ s'.log.host = s.log.host ∧
      s'.log.wr = s.log.wr ∧ s'.log.retry = some (1, max s.now t) ∧ bitOf s' Reg.logStatus 0 6 = true := by
  refine ⟨_, (exec_logDrain_of_on hr hen hdis hretry 1 false false).trans
    (next_after_congr (g := retryNoted r) ?_), rfl, rfl, rfl, rfl, ?_⟩
  · exact drainRun_one_of_room (s := s.arrive t) hring h false
  · rw [bitOf, rd_of_regs (s := (s.arrive t).setFld Reg.logStatus 0 6 6 1) (s' := after t s (retryNoted r)) rfl]
    exact bitOf_setFld_one (by decide) rfl 0 (s.arrive t)

theorem leaves_logDrain_of_lost (hen : s.log.en = true) (hdis : s.isDisabled 0x0E 0 = false) (hretry : s.log.retry = none)
    (hring : s.log.ring = r :: rest) {o : OutcomeRec} {e : BackEntry} (hitem : r.payload = .outcome o)
    (hback : s.log.backlog = [e]) (hst : e.st = .admitted o r.lseq) (ok : Bool) :
    Leaves (.logDrain t 0 ok true) s fun s' => ∃ x y : LogRec, s'.log.ring = x :: (rest ++ [y]) ∧ x.code = 42 ∧
      x.lseq = r.lseq ∧ x.payload = .args (BitVec.ofNat 64 r.lseq) (BitVec.ofNat 64 r.lseq) 0 0 ∧
      y.reissue = true ∧ y.lseq = s.log.nextLseq ∧ y.payload = .outcome (voidAgain o) := by
  obtain ⟨y, hmark, hreissue, hlseq, hpayload⟩ := loseFirst_of_item (s := s.arrive t) hring hitem hback hst
  refine ⟨_, (exec_logDrain_of_on hr hen hdis hretry 0 ok true).trans (next_after_congr (g := loseFirst) (drainRun_zero ..)),
    lostMark (s.arrive t) r, y, hmark, rfl, rfl, rfl, hreissue, hlseq, hpayload⟩

theorem exec_logReadbackRetry_of_off (hen : s.log.en = false) (ok : Bool) :
    exec (.logReadbackRetry t ok) s = .next (after t s id) := by
  refine (ringCmd_eq_after hr ?_ : execLogReadbackRetry t ok s = _)
  split
  · exact if_neg fun ⟨_, hon, _⟩ => absurd (hon.symm.trans hen) (by decide)
  · rfl

theorem exec_logReadbackRetry_of_early {n at_ : Nat} (hretry : s.log.retry = some (n, at_)) (hearly : max s.now t < at_ + 8000000)
    (ok : Bool) : exec (.logReadbackRetry t ok) s = .next (after t s id) := by
  refine (ringCmd_eq_after hr ?_ : execLogReadbackRetry t ok s = _)
  rw [show (s.arrive t).log.retry = some (n, at_) from hretry]
  exact if_neg fun ⟨hdue, _⟩ => absurd hdue (Nat.not_le.mpr hearly)

theorem exec_logReadbackRetry_of_due {n at_ : Nat} (hretry : s.log.retry = some (n, at_)) (hdue : at_ + 8000000 ≤ max s.now t)
    (hen : s.log.en = true) (hdis : s.isDisabled 0x0E 0 = false) (ok : Bool) :
    exec (.logReadbackRetry t ok) s = .next (after t s fun s => drainRun n ok s) := by
  refine (ringCmd_eq_after hr ?_ : execLogReadbackRetry t ok s = _)
  rw [show (s.arrive t).log.retry = some (n, at_) from hretry]
  exact if_pos ⟨hdue, hen, by rw [show (s.arrive t).isDisabled 0x0E 0 = false from hdis]; rfl⟩

/-! ## COALESCE_TIMEOUT -/

theorem exec_coalesceTimeout_of_none (h : s.log.coalFirst = none) : exec (.coalesceTimeout t) s = .next (after t s id) := by
  refine (ringCmd_eq_after hr ?_ : execCoalesceTimeout t s = _)
  rw [show (s.arrive t).log.coalFirst = none from h]
  rfl

theorem exec_coalesceTimeout_of_early {a : Nat} (h : s.log.coalFirst = some a)
    (hearly : max s.now t < a + s.fld Reg.logCfg 0 21 12 * 8000) : exec (.coalesceTimeout t) s = .next (after t s id) := by
  refine (ringCmd_eq_after hr ?_ : execCoalesceTimeout t s = _)
  rw [show (s.arrive t).log.coalFirst = some a from h]
  exact if_neg fun ⟨hdue, _⟩ => absurd hdue (Nat.not_le.mpr hearly)

theorem exec_coalesceTimeout_of_due {a : Nat} (h : s.log.coalFirst = some a)
    (hdue : a + s.fld Reg.logCfg 0 21 12 * 8000 ≤ max s.now t) (hcount : 0 < s.log.coalCount) :
    exec (.coalesceTimeout t) s = .next (after t s raiseLog) := by
  refine (ringCmd_eq_after hr ?_ : execCoalesceTimeout t s = _)
  rw [show (s.arrive t).log.coalFirst = some a from h]
  exact if_pos ⟨hdue, hcount⟩

end

/-! ## LOG_HOST_RD -/

theorem hostSize_pos (s : State) : 0 < hostSize s := Nat.two_pow_pos _

/-- A value of LOG_HOST_RD names the one offset of a pass ahead of the old value. -/
theorem rdOffset_of_ahead {e : Nat} (hold : s.log.rd < e) (hnew : e < s.log.rd + hostSize s) :
    rdOffset s (e % hostSize s) = e := by
  have hpos := hostSize_pos s
  have hmod : (e % hostSize s + hostSize s - s.log.rd % hostSize s) % hostSize s = e - s.log.rd := by
    have hrd := Nat.mod_lt s.log.rd hpos
    have he : (e % hostSize s + hostSize s - s.log.rd % hostSize s) ≡ e - s.log.rd [MOD hostSize s] := by
      apply Nat.ModEq.add_right_cancel' (s.log.rd % hostSize s)
      rw [Nat.sub_add_cancel (by omega)]
      calc e % hostSize s + hostSize s ≡ e [MOD hostSize s] := by simp [Nat.ModEq]
        _ = e - s.log.rd + s.log.rd := (Nat.sub_add_cancel hold.le).symm
        _ ≡ e - s.log.rd + s.log.rd % hostSize s [MOD hostSize s] := (Nat.ModEq.refl _).add (Nat.mod_modEq ..).symm
    rw [he, Nat.mod_eq_of_lt (by omega)]
  rw [rdOffset, hmod]
  omega

theorem badHostRd_of_boundary {e : Nat} {later : List (LogRec × Nat)} (hhost : s.log.host = (r, e) :: later)
    (hold : s.log.rd < e) (hnew : e < s.log.rd + hostSize s) (hwr : e ≤ s.log.wr) :
    badHostRd (e % hostSize s) s = false := by
  have hin : ¬(hostSize s ≤ e % hostSize s ∨ s.log.wr < e) := by
    have := Nat.mod_lt e (hostSize_pos s)
    omega
  unfold badHostRd
  extract_lets x
  rw [show x = e from rdOffset_of_ahead hold hnew, decide_eq_false hin, hhost, List.any_cons, beq_self_eq_true]
  simp

theorem badHostRd_of_outside {value : Nat} (hr : s.ringsRun = true) (hen : s.log.en = true)
    (h : hostSize s ≤ value ∨ s.log.wr < rdOffset s value) : badHostRd value s = true := by
  unfold badHostRd
  extract_lets x
  rw [hr, hen, decide_eq_true (p := hostSize s ≤ value ∨ s.log.wr < x) h]
  rfl

/-- Backlog entries whose outcomes are not final wait on. -/
theorem admitItems_of_open {l : List BackEntry} (h : ∀ x ∈ l, ∀ o since held, x.st ≠ .final o since held) (s : State) :
    admitItems l s = (l, s) := by
  induction l with
  | nil => rfl
  | cons e l ih =>
    unfold admitItems
    split
    next o since held hst => exact absurd hst (h e (List.mem_cons_self ..) o since held)
    · rw [ih fun x hx => h x (List.mem_cons_of_mem _ hx)]

theorem backlog_admitList (bound : State → Nat) (l : List LogRec) (s : State) :
    (admitList bound l s).2.log.backlog = s.log.backlog := by
  induction l generalizing s with
  | nil => rfl
  | cons r l ih =>
    unfold admitList
    split
    · exact ih _
    · rfl

theorem backlog_admitWaiting_of_open (h : ∀ x ∈ s.log.backlog, ∀ o since held, x.st ≠ .final o since held) :
    (admitWaiting s).log.backlog = s.log.backlog := by
  have hlists : (admitAudits (admitSummaries (admitAlarms s))).log.backlog = s.log.backlog :=
    (backlog_admitList ..).trans ((backlog_admitList ..).trans (backlog_admitList ..))
  rw [admitWaiting_eq, admitBacklog, admitItems_of_open (hlists ▸ h)]
  exact hlists

theorem alarm_moved (a : Alarm) (inst : Nat) (s : State) : (alarm a inst s).log.rd = s.log.rd ∧
    (alarm a inst s).log.host = s.log.host ∧ (alarm a inst s).log.backlog = s.log.backlog := by
  rw [← (latchAlarm_log a.code s).1]
  unfold alarm alarmArgs
  extract_lets y r
  split_ifs <;> exact ⟨rfl, rfl, rfl⟩

theorem backlogEpisode_moved (s : State) : (backlogEpisode s).log.rd = s.log.rd ∧
    (backlogEpisode s).log.host = s.log.host ∧ (backlogEpisode s).log.backlog = s.log.backlog := by
  unfold backlogEpisode
  split_ifs
  · exact ⟨rfl, rfl, rfl⟩
  · exact alarm_moved _ _ (s.modLog fun l => { l with backlogFull := true })
  · exact ⟨rfl, rfl, rfl⟩

/-- LOG_HOST_RD moved to `e`, with the records passed and those not. -/
def hostRdTo (e : Nat) (passed : List LogRec) (later : List (LogRec × Nat)) (s : State) : State :=
  releaseEntries passed (s.modLog fun l => { l with rd := e, host := later })

theorem exec_logHostRd_of_boundary (hr : s.ringsRun = true) (hen : s.log.en = true) {e : Nat} {later : List (LogRec × Nat)}
    (hhost : s.log.host = (r, e) :: later) (hold : s.log.rd < e) (hnew : e < s.log.rd + hostSize s) (hwr : e ≤ s.log.wr)
    (hlater : ∀ x ∈ later, e < x.2) (h : ∀ n : Fin 64, (s.jobs[n]).pkg = none) :
    exec (.logHostRd t (e % hostSize s)) s =
      .next (after t s fun s => backlogEpisode (admitWaiting (hostRdTo e [r] later s))) := by
  refine (runUnless_acts (badHostRd_of_boundary (s := s.arrive t) hhost hold hnew hwr) ..).trans (run_eq_after ?_)
  have hgo : ((s.arrive t).ringsRun && (s.arrive t).log.en) = true := by
    rw [show (s.arrive t).ringsRun = true from hr, show (s.arrive t).log.en = true from hen]
    rfl
  have hpassed : ((s.arrive t).log.host.filter fun x => decide (x.2 ≤ e)) = [(r, e)] := by
    rw [show (s.arrive t).log.host = _ from hhost, List.filter_cons_of_pos (by simp),
      List.filter_eq_nil_iff.mpr fun x hx => by simpa using hlater x hx]
  have hkept : ((s.arrive t).log.host.filter fun x => decide (e < x.2)) = later := by
    rw [show (s.arrive t).log.host = _ from hhost, List.filter_cons_of_neg (by simp),
      List.filter_eq_self.mpr fun x hx => by simpa using hlater x hx]
  refine (if_pos hgo).trans ?_
  rw [show hostSize s = hostSize (s.arrive t) from rfl, rdOffset_of_ahead (s := s.arrive t) hold hnew]
  extract_lets n passed y
  have hy : y = (s.arrive t).modLog fun l => { l with rd := e, host := later } :=
    congrArg (fun host => (s.arrive t).modLog fun l => { l with rd := e, host := host }) hkept
  rw [show passed = [r] from congrArg (List.map Prod.fst) hpassed, hy]
  refine settleAll_of_unloaded fun n => ?_
  rw [jobs_backlogEpisode, (admits_admitWaiting _).jobs]
  exact h n

theorem leaves_logHostRd_of_boundary (hr : s.ringsRun = true) (hen : s.log.en = true) {e : Nat} {later : List (LogRec × Nat)}
    (hhost : s.log.host = (r, e) :: later) (hold : s.log.rd < e) (hnew : e < s.log.rd + hostSize s) (hwr : e ≤ s.log.wr)
    (hlater : ∀ x ∈ later, e < x.2) (h : ∀ n : Fin 64, (s.jobs[n]).pkg = none)
    (hopen : ∀ x ∈ s.log.backlog, ∀ o since held, x.st ≠ .final o since held) :
    Leaves (.logHostRd t (e % hostSize s)) s fun s' => s'.log.rd = e ∧ s'.log.host = later ∧
      ∀ x, x ∈ s'.log.backlog ↔ x ∈ s.log.backlog ∧ ∀ o, x.st ≠ .admitted o r.lseq := by
  have hadmits := admits_admitWaiting (hostRdTo e [r] later (s.arrive t))
  obtain ⟨hrd, hkept, hback⟩ := backlogEpisode_moved (admitWaiting (hostRdTo e [r] later (s.arrive t)))
  have hentries := backlog_admitWaiting_of_open (s := hostRdTo e [r] later (s.arrive t))
    fun x hx => hopen x (List.mem_of_mem_filter hx)
  refine ⟨_, exec_logHostRd_of_boundary hr hen hhost hold hnew hwr hlater h, hrd.trans hadmits.rd, hkept.trans hadmits.host,
    fun x => ?_⟩
  simp only [after_log, hback, hentries]
  refine List.mem_filter.trans (and_congr_right fun _ => ?_)
  cases x.st with
  | admitted o n =>
    change (!([r].any fun r => r.lseq == n)) = true ↔ _
    rw [List.any_cons, List.any_nil, Bool.or_false, Bool.not_eq_true', beq_eq_false_iff_ne]
    exact ⟨fun hne o' h => hne (BackState.admitted.inj h).2.symm, fun h hn => h o (by rw [hn])⟩
  | reserved => exact ⟨fun _ _ h => (nomatch h), fun _ => rfl⟩
  | final o since held => exact ⟨fun _ _ h => (nomatch h), fun _ => rfl⟩

theorem exec_logHostRd_of_off (hen : s.log.en = false) (value : Nat) : exec (.logHostRd t value) s = .next (after t s id) := by
  have hoff : ((s.arrive t).ringsRun && (s.arrive t).log.en) = false := by
    rw [show (s.arrive t).log.en = false from hen, Bool.and_false]
  have hgood : badHostRd value (s.arrive t) = false := by rw [badHostRd, hoff, Bool.false_and]
  exact (runUnless_acts hgood ..).trans (run_eq_after (if_neg (by rw [hoff]; decide)))

end Sys2Proof.Machine

namespace Sys2Proof.Machine

open Sys2Proof.Claim

/-- Settles O55: the first record decides whether the drain moves anything, and a value of LOG_HOST_RD names one offset ahead
of the old one. -/
theorem logDrain : Obligations.LogDrain := by
  unfold Obligations.LogDrain
  intro t value ok lost r rest s hr size pad last
  refine ⟨fun hen => ⟨fun n => exec_logDrain_of_idle hr (.inl hen) n ok lost, exec_logReadbackRetry_of_off hr hen ok,
    exec_logHostRd_of_off hen value⟩, fun hen hdis hring => ⟨fun hretry => ⟨?_, ?_, ?_⟩, fun at_ hretry => ⟨?_, ?_, ?_⟩⟩, ?_, ?_, ?_, ?_, ?_⟩
  · exact fun hfull n => exec_logDrain_of_full hr hen hdis hretry hring hfull n ok
  · refine fun hroom => ⟨?_, leaves_logDrain_of_failed hr hen hdis hretry hring hroom⟩
    obtain ⟨s', hexec, hring', hhost, hwr, hrd, more, hout⟩ := leaves_logDrain_of_room (t := t) hr hen hdis hretry hring hroom
    exact ⟨s', hexec, hring', hhost, hwr, hrd, more, hout.trans (List.append_assoc ..)⟩
  · exact fun o e hitem hback hst => leaves_logDrain_of_lost hr hen hdis hretry hring hitem hback hst ok
  · exact fun n => exec_logDrain_of_idle hr (.inr (by rw [hretry]; rfl)) n ok lost
  · exact fun hearly => exec_logReadbackRetry_of_early hr hretry hearly ok
  · refine fun hdue hroom => ?_
    have hmoved := movedOne_drainRun (s := s.arrive t) hring hroom
    exact ⟨_, exec_logReadbackRetry_of_due hr hretry hdue hen hdis true, hmoved.retry, hmoved.wr, hmoved.ring⟩
  · exact (ringCmd_eq hr : execLogCtrlEnable t s = _)
  · exact (ringCmd_eq hr : execLogCtrlDisable t s = _)
  · exact fun hen => ⟨fun e later hhost hold hnew hwr hlater h hopen =>
      leaves_logHostRd_of_boundary hr hen hhost hold hnew hwr hlater h hopen,
      fun hout => runUnless_refused (badHostRd_of_outside (s := s.arrive t) hr hen hout) ..⟩
  · exact exec_coalesceTimeout_of_none hr
  · exact fun a h => ⟨exec_coalesceTimeout_of_early hr h, exec_coalesceTimeout_of_due hr h⟩

end Sys2Proof.Machine
end

section
/-! Event records and mailbox commands of the sealed partition, its weighing channels (R405 to R407, R420), and obligation
O50. -/
namespace Sys2Proof.Machine

open Sys2Proof.Claim

/-! ## What reports leave of the partition -/

/-- Neither the print path nor the motion hardware changes. -/
structure KeepsPress (s s' : State) : Prop where
  print : SamePrint s s'
  motion : SameMotion s s'

theorem KeepsPress.refl (s : State) : KeepsPress s s :=
  ⟨⟨rfl, rfl, rfl, rfl, rfl, rfl, rfl, rfl, rfl, rfl⟩, rfl, rfl, rfl, rfl⟩

theorem KeepsPress.trans {s s' s'' : State} (h : KeepsPress s s') (h' : KeepsPress s' s'') : KeepsPress s s'' :=
  ⟨samePrint_iff.mpr ((samePrint_iff.mp h'.print).trans (samePrint_iff.mp h.print)), sameMotion_trans h.motion h'.motion⟩

theorem keepsPress_of_sansReports {s s' : State} (h : s'.sansReports = s.sansReports) : KeepsPress s s' :=
  ⟨samePrint_of_sansReports h, sameMotion_of_sansReports h⟩

theorem keepsPress_modMet (f : Met → Met) (s : State) : KeepsPress s (s.modMet f) := ⟨(KeepsPress.refl s).print, (KeepsPress.refl s).motion⟩

theorem keepsPress_setFld (r : RegSpec) (i hi lo v : Nat) (s : State) : KeepsPress s (s.setFld r i hi lo v) :=
  ⟨(KeepsPress.refl s).print, (KeepsPress.refl s).motion⟩

theorem raiseAudit_eq (a : AuditRec) (s : State) : ∃ log, raiseAudit a s = { s with log := log } := by
  obtain ⟨log, h⟩ := (admits_admitWaiting (s.modLog fun l => { l with waitAudit := l.waitAudit ++
    [mkRec s .audit (match a with | .transaction .. => 0x0300 | .event .. => 0x0301) noInst (.audit a)] })).only
  exact ⟨log, h⟩

/-- An event record takes the next number; it goes to the flash region while that has room, and to the log. -/
theorem metEvent_eq (kind : Nat) (data : List Int) (s : State) : ∃ log events,
    metEvent kind data s = { s with log := log, met := { s.met with anum := s.met.anum + 1, events := events } } := by
  obtain ⟨log, h⟩ := raiseAudit_eq (.event s.met.anum (rtcNow s) kind s.met.c data) (s.modMet fun m =>
    { m with anum := m.anum + 1,
             events := if evtFree s = 0 then m.events else m.events ++ [.event s.met.anum (rtcNow s) kind s.met.c data] })
  exact ⟨log, _, h⟩

theorem keepsPress_metEvent (kind : Nat) (data : List Int) (s : State) : KeepsPress s (metEvent kind data s) := by
  obtain ⟨log, events, h⟩ := metEvent_eq kind data s
  rw [h]
  exact ⟨(KeepsPress.refl s).print, (KeepsPress.refl s).motion⟩

/-! ## The mailbox -/

theorem firstRefusal_cons_of_false {c : Bool} (h : c = false) (st : Status) (rest : List (Bool × Status)) :
    firstRefusal ((c, st) :: rest) = firstRefusal rest := if_neg (by rw [h]; decide)

theorem firstRefusal_cons_of_true {c : Bool} (h : c = true) (st : Status) (rest : List (Bool × Status)) :
    firstRefusal ((c, st) :: rest) = st := if_pos h

/-- A mailbox command taken: its TAG is kept, and a sensitive one counts as activity of the session. -/
def mailTaken (sensitive : Bool) (s : State) : State :=
  when sensitive (fun s => s.modSec fun x => { x with session := x.session.map fun y => { y with lastAct := s.now } })
    (s.modMet fun m => { m with mailboxTag := s.fld Reg.metMbxReq 0 31 16 })

theorem mailbox_of_busy {s : State} (h : s.met.busy = true) (sensitive : Bool) (conds : State → List (Bool × Status))
    (f : State → State) : mailbox sensitive conds f s = s := if_pos h

/-- A sensitive command without its session is answered at 2.000 ms. -/
theorem mailbox_of_unauthorised {s : State} (h : s.met.busy = false) (hno : sensitiveRefused s = true)
    (conds : State → List (Bool × Status)) (f : State → State) : mailbox true conds f s =
      (s.modMet fun m => { m with mailboxTag := s.fld Reg.metMbxReq 0 31 16, busy := true }).modSec fun x =>
        { x with timed := x.timed ++ [(.mailbox, s.now)] } :=
  (if_neg (by rw [h]; decide)).trans (if_pos hno)

section
variable {sensitive : Bool} {conds : State → List (Bool × Status)} {f : State → State} {s : State}
variable (hbusy : s.met.busy = false) (hauth : (sensitive && sensitiveRefused s) = false)
include hbusy hauth

theorem mailbox_of_taken : mailbox sensitive conds f s =
    match firstRefusal (((mailTaken sensitive s).met.st == .absent, .badState) :: conds (mailTaken sensitive s)) with
    | .ok => mbxAnswer .ok (f (mailTaken sensitive s))
    | st => mbxAnswer st (mailTaken sensitive s) :=
  (if_neg (by rw [hbusy]; decide)).trans (if_neg (show ¬(sensitive && sensitiveRefused s) = true by rw [hauth]; decide))

theorem mailbox_ok (h : firstRefusal (((mailTaken sensitive s).met.st == .absent, .badState) :: conds (mailTaken sensitive s)) = .ok) :
    mailbox sensitive conds f s = mbxAnswer .ok (f (mailTaken sensitive s)) := by
  rw [mailbox_of_taken hbusy hauth, h]

theorem mailbox_refused {st : Status} (hst : st ≠ .ok)
    (h : firstRefusal (((mailTaken sensitive s).met.st == .absent, .badState) :: conds (mailTaken sensitive s)) = st) :
    mailbox sensitive conds f s = mbxAnswer st (mailTaken sensitive s) := by
  rw [mailbox_of_taken hbusy hauth, h]
  split
  · exact absurd rfl hst
  · rfl

end

theorem metSt_mailTaken (sensitive : Bool) (s : State) : (mailTaken sensitive s).met.st = s.met.st := by
  cases sensitive <;> rfl

/-- In a state other than ABSENT the command's own refusals decide. -/
theorem firstRefusal_present {sensitive : Bool} {s : State} (h : s.met.st ≠ .absent) (conds : List (Bool × Status)) :
    firstRefusal (((mailTaken sensitive s).met.st == .absent, .badState) :: conds) = firstRefusal conds :=
  firstRefusal_cons_of_false (beq_false_of_ne (by rwa [metSt_mailTaken])) ..

theorem keepsPress_mailTaken (sensitive : Bool) (s : State) : KeepsPress s (mailTaken sensitive s) := by
  cases sensitive <;> exact ⟨(KeepsPress.refl s).print, (KeepsPress.refl s).motion⟩

theorem keepsPress_mbxAnswer (st : Status) (s : State) : KeepsPress s (mbxAnswer st s) :=
  (keepsPress_modMet ..).trans (keepsPress_setFld ..)

/-- The answer shows DONE. -/
theorem fld_mbxAnswer (st : Status) (s : State) : (mbxAnswer st s).fld Reg.metMbxCtrl 0 2 2 = 1 :=
  (bitsOf_eq_one_iff _ _).mpr (bitOf_setFld_one (by decide) rfl ..)

/-! ## One channel of the partition -/

/-- The partition but for one channel, its queue of records and its open polls, and what lies outside it, stand. -/
def OthersKept (c : Fin 16) (s s' : State) : Prop :=
  (∀ m, m ≠ c → s'.met.chs[m] = s.met.chs[m]) ∧ s'.met.st = s.met.st ∧ s'.met.c = s.met.c ∧ s'.met.prices = s.met.prices ∧
    s'.otp = s.otp ∧ SamePrint s s' ∧ SameMotion s s'

theorem OthersKept.trans {c : Fin 16} {s s' s'' : State} (h : OthersKept c s s') (h' : OthersKept c s' s'') :
    OthersKept c s s'' := by
  obtain ⟨hchs, hst, hc, hprices, hotp, hprint, hmotion⟩ := h
  obtain ⟨hchs', hst', hc', hprices', hotp', hprint', hmotion'⟩ := h'
  obtain ⟨hprint'', hmotion''⟩ := KeepsPress.trans ⟨hprint, hmotion⟩ ⟨hprint', hmotion'⟩
  exact ⟨fun m hm => (hchs' m hm).trans (hchs m hm), hst'.trans hst, hc'.trans hc, hprices'.trans hprices, hotp'.trans hotp,
    hprint'', hmotion''⟩

/-- What leaves the channels, the state, the counter, the prices and OTP leaves the others. -/
theorem othersKept_of {c : Fin 16} {s s' : State}
    (h : (s'.met.chs, s'.met.st, s'.met.c, s'.met.prices, s'.otp) = (s.met.chs, s.met.st, s.met.c, s.met.prices, s.otp))
    (hpress : KeepsPress s s') : OthersKept c s s' := by
  simp only [Prod.mk.injEq] at h
  obtain ⟨hchs, hst, hc, hprices, hotp⟩ := h
  exact ⟨fun m _ => by rw [hchs], hst, hc, hprices, hotp, hpress.print, hpress.motion⟩

theorem othersKept_modCh (c : Fin 16) (f : MetCh → MetCh) (s : State) : OthersKept c s (modCh c f s) :=
  ⟨fun _ hm => upd_getElem_of_ne hm .., rfl, rfl, rfl, rfl, (KeepsPress.refl s).print, (KeepsPress.refl s).motion⟩

theorem chs_modCh (c : Fin 16) (f : MetCh → MetCh) (s : State) : (modCh c f s).met.chs[c] = f s.met.chs[c] :=
  upd_getElem_self ..

theorem othersKept_metEvent (c : Fin 16) (kind : Nat) (data : List Int) (s : State) : OthersKept c s (metEvent kind data s) := by
  refine othersKept_of ?_ (keepsPress_metEvent kind data s)
  obtain ⟨log, events, h⟩ := metEvent_eq kind data s
  rw [h]

theorem metEvent_chs (kind : Nat) (data : List Int) (s : State) :
    (metEvent kind data s).met.chs = s.met.chs ∧ (metEvent kind data s).met.anum = s.met.anum + 1 := by
  obtain ⟨log, events, h⟩ := metEvent_eq kind data s
  rw [h]
  exact ⟨rfl, rfl⟩

theorem othersKept_alarm (c : Fin 16) (a : Alarm) (inst : Nat) (s : State) : OthersKept c s (alarm a inst s) := by
  have h := sansReports_alarm a inst s
  refine othersKept_of ?_ (keepsPress_of_sansReports h)
  exact eq_of_sansReports h (g := fun x => (x.met.chs, x.met.st, x.met.c, x.met.prices, x.otp)) fun _ => rfl

theorem othersKept_replied (c : Fin 16) (s : State) : OthersKept c s (replied c s) :=
  (othersKept_of (s := s) (s' := s.modMet fun m => { m with polled := upd m.polled (Fin.ofNat 4 (c.val / 4)) fun q => q.filter fun y => y.1 != c.val })
    rfl (keepsPress_modMet ..)).trans (othersKept_modCh ..)

theorem chs_replied (c : Fin 16) (s : State) : (replied c s).met.chs[c] = { s.met.chs[c] with missing := 0, silent := false } :=
  chs_modCh ..

theorem chs_queueWeighing {c : Fin 16} {w : Weighing} {s : State} (h : (s.met.chs[c]).queue.length < 64) :
    (queueWeighing c w s).met.chs[c] = { s.met.chs[c] with last := some w.wseq, queue := (s.met.chs[c]).queue ++ [w] } :=
  (chs_modCh ..).trans (if_pos h)

/-- What an effect on a channel at arrival leaves of the others, as seen from before it. -/
theorem OthersKept.after {c : Fin 16} {t : Nat} {s : State} {f : State → State} (h : OthersKept c (s.arrive t) (f (s.arrive t))) :
    OthersKept c s (after t s f) := h

/-! ## The frames -/

section
variable {t : Nat} {c : Fin 16} {w : Weighing} {s : State}

theorem run_chFrame_of_off (h : portsRun s = false) (ok : Bool) (f : State → State) :
    run t s (chFrame c ok f) = .next (after t s id) :=
  run_eq_after (if_neg (by rw [show portsRun (s.arrive t) = false from h]; decide))

theorem run_chFrame_of_bad (h : portsRun s = true) (f : State → State) :
    run t s (chFrame c false f) = .next (after t s (modCh c fun x => { x with err := min 255 (x.err + 1) })) :=
  run_eq_after (if_pos h)

theorem run_chFrame_of_good (h : portsRun s = true) (f : State → State) :
    run t s (chFrame c true f) = .next (after t s fun s => f (replied c s)) := run_eq_after (if_pos h)

/-- A good reply leaves what its effect leaves of the channel, and nothing else changes. -/
theorem leaves_of_good {i : Instr} {f : State → State} {P : State → Prop} (h : portsRun s = true)
    (hexec : exec i s = run t s (chFrame c true f)) (hothers : OthersKept c (replied c (s.arrive t)) (f (replied c (s.arrive t))))
    (hP : P (after t s fun s => f (replied c s))) : Leaves i s fun s' => P s' ∧ OthersKept c s s' :=
  ⟨_, hexec.trans (run_chFrame_of_good h f), hP,
    OthersKept.after (f := fun s => f (replied c s)) ((othersKept_replied c _).trans hothers)⟩

/-! ## What a WEIGHING does -/

theorem takeFrame_repeat {l : Nat} (hlast : (s.met.chs[c]).last = some l) (h : w.wseq = l) : takeFrame c w s = s := by
  unfold takeFrame
  rw [hlast]
  exact if_pos h

theorem takeFrame_next {l : Nat} (hlast : (s.met.chs[c]).last = some l) (hne : w.wseq ≠ l) (h : w.wseq = (l + 1) % 2 ^ 32) :
    takeFrame c w s = queueWeighing c w s := by
  unfold takeFrame
  rw [hlast]
  exact (if_neg hne).trans (if_pos h)

theorem takeFrame_gap {l : Nat} (hlast : (s.met.chs[c]).last = some l) (hne : w.wseq ≠ l) (h : w.wseq ≠ (l + 1) % 2 ^ 32) :
    takeFrame c w s = alarm .metWseqGap c (modCh c (fun x => { x with fault := true }) s) := by
  unfold takeFrame
  rw [hlast]
  exact (if_neg hne).trans (if_neg h)

theorem takeFrame_first (hlast : (s.met.chs[c]).last = none) : takeFrame c w s =
    metEvent (s.draw.1 % 256) [(c.val : Int), (w.wseq : Int)] (queueWeighing c w s.draw.2) := by
  unfold takeFrame
  rw [hlast]

theorem last_replied (c : Fin 16) (s : State) : ((replied c s).met.chs[c]).last = (s.met.chs[c]).last := by
  rw [chs_replied]

theorem leaves_weighingFrame_next (h : portsRun s = true) {l : Nat} (hlast : (s.met.chs[c]).last = some l)
    (hroom : (s.met.chs[c]).queue.length < 64) (hseq : w.wseq = (l + 1) % 2 ^ 32) (hne : w.wseq ≠ l) :
    Leaves (.weighingFrame t c true w) s fun s' => (s'.met.chs[c] = { s.met.chs[c] with
      missing := 0, silent := false, last := some w.wseq, queue := (s.met.chs[c]).queue ++ [w] } ∧
      s'.met.anum = s.met.anum) ∧ OthersKept c s s' := by
  have htake := takeFrame_next (s := replied c (s.arrive t)) ((last_replied ..).trans hlast) hne hseq
  have hqueue : (((replied c (s.arrive t)).met.chs[c]).queue).length < 64 := by rwa [chs_replied]
  refine leaves_of_good h (rfl : exec _ s = run t s (chFrame c true (takeFrame c w))) (htake ▸ othersKept_modCh ..) ?_
  rw [after_congr (g := fun s => queueWeighing c w (replied c s)) htake]
  exact ⟨(chs_queueWeighing hqueue).trans (by rw [chs_replied]; rfl), rfl⟩

theorem leaves_weighingFrame_repeat (h : portsRun s = true) {l : Nat} (hlast : (s.met.chs[c]).last = some l)
    (hseq : w.wseq = l) : Leaves (.weighingFrame t c true w) s fun s' =>
      (s'.met.chs[c] = { s.met.chs[c] with missing := 0, silent := false } ∧ s'.met.anum = s.met.anum) ∧ OthersKept c s s' := by
  have htake := takeFrame_repeat (s := replied c (s.arrive t)) ((last_replied ..).trans hlast) hseq
  refine leaves_of_good h (rfl : exec _ s = run t s (chFrame c true (takeFrame c w)))
    (htake.symm ▸ othersKept_of rfl (KeepsPress.refl _)) ?_
  rw [after_congr (g := replied c) htake]
  exact ⟨chs_replied c (s.arrive t), rfl⟩

theorem leaves_weighingFrame_gap (h : portsRun s = true) {l : Nat} (hlast : (s.met.chs[c]).last = some l) (hne : w.wseq ≠ l)
    (hseq : w.wseq ≠ (l + 1) % 2 ^ 32) : Leaves (.weighingFrame t c true w) s fun s' =>
      (s'.met.chs[c] = { s.met.chs[c] with missing := 0, silent := false, fault := true } ∧
        bitOf s' Reg.evtAlarmLatch 1 6 = true) ∧ OthersKept c s s' := by
  have htake := takeFrame_gap (s := replied c (s.arrive t)) ((last_replied ..).trans hlast) hne hseq
  have hfault := chs_modCh c (fun x => { x with fault := true }) (replied c (s.arrive t))
  refine leaves_of_good h (rfl : exec _ s = run t s (chFrame c true (takeFrame c w)))
    (htake ▸ (othersKept_modCh ..).trans (othersKept_alarm ..)) ?_
  rw [after_congr (g := fun s => alarm .metWseqGap c (modCh c (fun x => { x with fault := true }) (replied c s))) htake]
  refine ⟨?_, alarm_bitOf .metWseqGap c (modCh c (fun x => { x with fault := true }) (replied c (s.arrive t)))⟩
  rw [chs_replied] at hfault
  exact (congrArg (fun m : Met => m.chs[c]) (eq_of_sansReports (sansReports_alarm ..) (g := State.met) fun _ => rfl)).trans hfault

theorem leaves_weighingFrame_first (h : portsRun s = true) (hlast : (s.met.chs[c]).last = none)
    (hroom : (s.met.chs[c]).queue.length < 64) : Leaves (.weighingFrame t c true w) s fun s' =>
      (s'.met.chs[c] = { s.met.chs[c] with
        missing := 0, silent := false, last := some w.wseq, queue := (s.met.chs[c]).queue ++ [w] } ∧
      s'.met.anum = s.met.anum + 1) ∧ OthersKept c s s' := by
  have htake := takeFrame_first (w := w) (s := replied c (s.arrive t)) ((last_replied ..).trans hlast)
  have hqueue : (((replied c (s.arrive t)).draw.2.met.chs[c]).queue).length < 64 := by
    rwa [show (replied c (s.arrive t)).draw.2.met = (replied c (s.arrive t)).met from rfl, chs_replied]
  have hdraw : OthersKept c (replied c (s.arrive t)) (replied c (s.arrive t)).draw.2 :=
    othersKept_of rfl (keepsPress_of_sansReports rfl)
  refine leaves_of_good h (rfl : exec _ s = run t s (chFrame c true (takeFrame c w)))
    (htake ▸ hdraw.trans ((othersKept_modCh ..).trans (othersKept_metEvent ..))) ?_
  rw [after_congr (g := fun s => metEvent ((replied c s).draw.1 % 256) [(c.val : Int), (w.wseq : Int)]
    (queueWeighing c w (replied c s).draw.2)) htake]
  obtain ⟨hchs, hanum⟩ := metEvent_chs ((replied c (s.arrive t)).draw.1 % 256) [(c.val : Int), (w.wseq : Int)]
    (queueWeighing c w (replied c (s.arrive t)).draw.2)
  refine ⟨(congrArg (fun v : Vector MetCh 16 => v[c]) hchs).trans ((chs_queueWeighing hqueue).trans ?_), hanum⟩
  rw [show (replied c (s.arrive t)).draw.2.met = (replied c (s.arrive t)).met from rfl, chs_replied]
  rfl

/-! ## Polls and their time -/

theorem leaves_weighingPoll {port : Fin 4} {k : Nat} (h : portsRun s = true) (hidle : s.met.polled[port] = none)
    (hnext : nextChannel s port = some k) : Leaves (.weighingPoll t port) s fun s' =>
      s'.met.polled[port] = some (k, max s.now t) ∧ s'.met.next[port] = (k + 1) % 4 ∧
      s'.out = [.metSerial port (s.met.chcfg[Fin.ofNat 16 k]).addr (((s.met.chs[Fin.ofNat 16 k]).last).getD 0xFFFFFFFF)] ∧
      s'.met.chs = s.met.chs ∧ s'.regs = s.regs ∧ SamePrint s s' ∧ SameMotion s s' := by
  have hfree : (portsRun (s.arrive t) && ((s.arrive t).met.polled[port]).isNone) = true := by
    rw [show portsRun (s.arrive t) = true from h, show (s.arrive t).met.polled[port] = none from hidle]
    rfl
  refine ⟨_, (run_eq_after (g := fun s => (s.modMet fun m => { m with
    next := upd m.next port fun _ => (k + 1) % 4, polled := upd m.polled port fun _ => some (k, s.now) }).emit
      (.metSerial port (s.met.chcfg[Fin.ofNat 16 k]).addr (((s.met.chs[Fin.ofNat 16 k]).last).getD 0xFFFFFFFF))) ?_ :
    execWeighingPoll t port s = _), upd_getElem_self .., upd_getElem_self .., rfl, rfl, rfl, (KeepsPress.refl s).print,
    (KeepsPress.refl s).motion⟩
  simp only [hfree, show nextChannel (s.arrive t) port = some k from hnext]
  rfl

theorem exec_weighingPoll_of_idle {port : Fin 4}
    (h : portsRun s = false ∨ s.met.polled[port] ≠ none ∨ nextChannel s port = none) :
    exec (.weighingPoll t port) s = .next (after t s id) := by
  refine (run_eq_after ?_ : execWeighingPoll t port s = _)
  split
  next k hfree hnext =>
    rw [Bool.and_eq_true] at hfree
    obtain ⟨hruns, hnone⟩ := hfree
    rcases h with h | h | h
    · exact absurd (hruns.symm.trans h) (by decide)
    · exact absurd (Option.isNone_iff_eq_none.mp hnone) h
    · exact absurd (hnext.symm.trans h) (Option.some_ne_none k)
  next => rfl

theorem leaves_weighingReplyTimeout_of_due {a : Nat} (hpoll : s.met.polled[Fin.ofNat 4 (c.val / 4)] = some (c.val, a))
    (hdue : replyDue s (Fin.ofNat 4 (c.val / 4)).val a ≤ max s.now t) : Leaves (.weighingReplyTimeout t c) s fun s' =>
      s'.met.chs[c] = { s.met.chs[c] with
        missing := (s.met.chs[c]).missing + 1, silent := (s.met.chs[c]).silent || decide (2 ≤ (s.met.chs[c]).missing) } ∧
      s'.met.polled[Fin.ofNat 4 (c.val / 4)] = none ∧ s'.regs = s.regs ∧ OthersKept c s s' := by
  have hmissing : ∀ n : Nat, decide (3 ≤ n + 1) = decide (2 ≤ n) := fun n => decide_eq_decide.mpr (by omega)
  refine ⟨_, (run_eq_after (g := fun s => modCh c (fun x => { x with
      missing := x.missing + 1, silent := x.silent || decide (2 ≤ x.missing) })
    (s.modMet fun m => { m with polled := upd m.polled (Fin.ofNat 4 (c.val / 4)) fun _ => none })) ?_ :
    execWeighingReplyTimeout t c s = _), chs_modCh .., upd_getElem_self .., rfl,
    OthersKept.trans (s' := (s.arrive t).modMet fun m => { m with polled := upd m.polled (Fin.ofNat 4 (c.val / 4)) fun _ => none })
      (othersKept_of rfl ⟨(KeepsPress.refl s).print, (KeepsPress.refl s).motion⟩) (othersKept_modCh ..)⟩
  simp only [show (s.arrive t).met.polled[Fin.ofNat 4 (c.val / 4)] = some (c.val, a) from hpoll, hmissing]
  exact if_pos ⟨trivial, hdue⟩

theorem exec_weighingReplyTimeout_of_early {a : Nat} (hpoll : s.met.polled[Fin.ofNat 4 (c.val / 4)] = some (c.val, a))
    (hearly : max s.now t < replyDue s (Fin.ofNat 4 (c.val / 4)).val a) :
    exec (.weighingReplyTimeout t c) s = .next (after t s id) := by
  refine (run_eq_after ?_ : execWeighingReplyTimeout t c s = _)
  simp only [show (s.arrive t).met.polled[Fin.ofNat 4 (c.val / 4)] = some (c.val, a) from hpoll]
  exact if_neg fun ⟨_, hdue⟩ => absurd hdue (Nat.not_le.mpr hearly)

/-! ## CHANNEL_RESET -/

/-- A channel emptied, with its event record. -/
def channelEmptied (c : Fin 16) (s : State) : State :=
  metEvent 9 [(c.val : Int)] (modCh c (fun x => { x with queue := [], fault := false, last := none }) s)

theorem channelEmptied_leaves (c : Fin 16) (s : State) :
    (channelEmptied c s).met.chs[c] = { s.met.chs[c] with queue := [], fault := false, last := none } ∧
      (channelEmptied c s).met.anum = s.met.anum + 1 ∧ OthersKept c s (channelEmptied c s) := by
  obtain ⟨hchs, hanum⟩ := metEvent_chs 9 [(c.val : Int)] (modCh c (fun x => { x with queue := [], fault := false, last := none }) s)
  exact ⟨(congrArg (fun v : Vector MetCh 16 => v[c]) hchs).trans (chs_modCh ..), hanum,
    (othersKept_modCh ..).trans (othersKept_metEvent ..)⟩

theorem mbxAnswer_ok_leaves (c : Fin 16) (s : State) : (mbxAnswer .ok s).met = { s.met with
      busy := false, rsp := [BitVec.ofNat 32 (s.met.mailboxTag + 2 ^ 16 * Status.ok.code)] } ∧
    (mbxAnswer .ok s).fld Reg.metMbxCtrl 0 2 2 = 1 ∧ OthersKept c s (mbxAnswer .ok s) :=
  ⟨rfl, fld_mbxAnswer .ok s, othersKept_of rfl (keepsPress_mbxAnswer ..)⟩

theorem exec_channelReset (hr : s.ringsRun = true) (hbusy : s.met.busy = false) (hst : s.met.st ≠ .absent)
    (hfree : 64 ≤ evtFree s) :
    exec (.channelReset t c) s = .next (after t s fun s => mbxAnswer .ok (channelEmptied c (mailTaken false s))) := by
  have hc : Fin.ofNat 16 c.val = c := Fin.ext (Nat.mod_eq_of_lt c.isLt)
  refine (ringCmd_eq_after hr ?_ : execChannelReset t c.val s = _)
  rw [hc]
  refine mailbox_ok (s := s.arrive t) hbusy rfl ?_
  rw [firstRefusal_present (s := s.arrive t) hst, firstRefusal_cons_of_false (decide_eq_false (by omega))]
  exact firstRefusal_cons_of_false (decide_eq_false (Nat.not_lt.mpr hfree)) ..

theorem leaves_channelReset (hr : s.ringsRun = true) (hbusy : s.met.busy = false) (hst : s.met.st ≠ .absent)
    (hfree : 64 ≤ evtFree s) : Leaves (.channelReset t c) s fun s' =>
      s'.met.chs[c] = { s.met.chs[c] with queue := [], fault := false, last := none } ∧ s'.met.anum = s.met.anum + 1 ∧
      s'.met.busy = false ∧ s'.fld Reg.metMbxCtrl 0 2 2 = 1 ∧ OthersKept c s s' := by
  have htaken : OthersKept c (s.arrive t) (mailTaken false (s.arrive t)) := othersKept_of rfl (keepsPress_mailTaken ..)
  obtain ⟨hch, hanum, hothers⟩ := channelEmptied_leaves c (mailTaken false (s.arrive t))
  obtain ⟨hmet, hdone, hanswer⟩ := mbxAnswer_ok_leaves c (channelEmptied c (mailTaken false (s.arrive t)))
  refine ⟨_, exec_channelReset hr hbusy hst hfree, ?_, ?_, congrArg Met.busy hmet, ?_, ?_⟩
  · exact (congrArg (fun m : Met => m.chs[c]) hmet).trans hch
  · exact (congrArg Met.anum hmet).trans hanum
  · exact (fld_of_regs (s := mbxAnswer .ok (channelEmptied c (mailTaken false (s.arrive t)))) rfl ..).trans hdone
  · exact OthersKept.after (f := fun s => mbxAnswer .ok (channelEmptied c (mailTaken false s)))
      (htaken.trans (hothers.trans hanswer))

end

/-- Settles O50: a good frame ends the poll and does what its kind says to its channel; nothing reaches another one. -/
theorem weighingChannels : Obligations.WeighingChannels := by
  unfold Obligations.WeighingChannels
  intro t code port c w s x others
  refine ⟨fun k => leaves_weighingPoll, exec_weighingPoll_of_idle, fun h ok => ⟨run_chFrame_of_off h ok _,
    run_chFrame_of_off h ok _, run_chFrame_of_off h ok _⟩, fun h => ⟨⟨run_chFrame_of_bad h _, run_chFrame_of_bad h _,
    run_chFrame_of_bad h _⟩, run_chFrame_of_good h id, ?_, ?_, ?_, ?_, ?_, ?_⟩, ?_, ?_⟩
  · exact leaves_of_good h rfl (othersKept_of rfl (KeepsPress.refl _)) (chs_replied c (s.arrive t))
  · refine leaves_of_good h rfl (othersKept_modCh ..) ((chs_modCh c (fun x => { x with code := code }) (replied c (s.arrive t))).trans ?_)
    rw [chs_replied]
    rfl
  · intro l hlast hroom hseq hne
    obtain ⟨s', hexec, ⟨hch, hanum⟩, hothers⟩ := leaves_weighingFrame_next (t := t) h hlast hroom hseq hne
    exact ⟨s', hexec, hch, hanum, hothers⟩
  · intro l hlast hseq
    obtain ⟨s', hexec, ⟨hch, hanum⟩, hothers⟩ := leaves_weighingFrame_repeat (t := t) h hlast hseq
    exact ⟨s', hexec, hch, hanum, hothers⟩
  · intro l hlast hne hseq
    obtain ⟨s', hexec, ⟨hch, hlatch⟩, hothers⟩ := leaves_weighingFrame_gap (t := t) h hlast hne hseq
    exact ⟨s', hexec, hch, hlatch, hothers⟩
  · intro hlast hroom
    obtain ⟨s', hexec, ⟨hch, hanum⟩, hothers⟩ := leaves_weighingFrame_first (t := t) (w := w) h hlast hroom
    exact ⟨s', hexec, hch, hanum, hothers⟩
  · exact fun a hpoll => ⟨leaves_weighingReplyTimeout_of_due hpoll, exec_weighingReplyTimeout_of_early hpoll⟩
  · exact leaves_channelReset

end Sys2Proof.Machine
end

section
/-! OTP words as burns leave them, and what settling leaves of the sealed partition. -/
namespace Sys2Proof.Machine

open Sys2Proof.Claim

/-! ## OTP words after a burn -/

theorem otpWord_of_otp {s s' : State} (h : s'.otp = s.otp) (w : Nat) : otpWord s' w = otpWord s w := by
  rw [otpWord, h, otpWord]

theorem otpWord_otpSet_of_ne {k w : Nat} (h : k ≠ w) (bits : Word) (s : State) : otpWord (otpSet w bits s) k = otpWord s k := by
  show (regLookup k (regInsert w (otpWord s w ||| bits) 0 s.otp)).getD 0 = _
  rw [regLookup_regInsert_of_ne h]
  rfl

/-- A bit that is burned is set. -/
theorem getLsbD_otpSet {bits : Word} {i : Nat} (h : bits.getLsbD i = true) (w : Nat) (s : State) :
    (otpWord (otpSet w bits s) w).getLsbD i = true := by
  have hbit : (otpWord s w ||| bits).getLsbD i = true := by rw [BitVec.getLsbD_or, h, Bool.or_true]
  have hne : otpWord s w ||| bits ≠ 0 := fun hz => by simp [hz] at hbit
  show ((regLookup w (regInsert w (otpWord s w ||| bits) 0 s.otp)).getD 0).getLsbD i = true
  rw [regLookup_regInsert_self hne]
  exact hbit

theorem burnWord_otp (w : Nat) (value : Word) (b : BurnResult) (s : State) :
    (burnWord w value b s).otp = (otpSet w (burnBits s w value &&& ~~~b.failed) s).otp := rfl

theorem otpWord_burnWord_of_ne {k w : Nat} (h : k ≠ w) (value : Word) (b : BurnResult) (s : State) :
    otpWord (burnWord w value b s) k = otpWord s k :=
  (otpWord_of_otp (burnWord_otp ..) k).trans (otpWord_otpSet_of_ne h ..)

theorem getLsbD_burnWord {w i : Nat} {value : Word} {b : BurnResult} {s : State}
    (h : (burnBits s w value &&& ~~~b.failed).getLsbD i = true) : (otpWord (burnWord w value b s) w).getLsbD i = true := by
  rw [otpWord_of_otp (burnWord_otp ..)]
  exact getLsbD_otpSet h ..

/-- A region with a set bit in its digest is finalised. -/
theorem regionFinal_of_bit {s : State} {i b : Nat} (h : (otpWord s (241 + 2 * i)).getLsbD b = true) : regionFinal s i = true := by
  have hne : otpWord s (241 + 2 * i) ≠ 0 := fun hz => by simp [hz] at h
  rw [regionFinal, bne_iff_ne.mpr hne, Bool.or_true]

theorem regionFinal_of_words {s s' : State} {i : Nat} (hlo : otpWord s' (240 + 2 * i) = otpWord s (240 + 2 * i))
    (hhi : otpWord s' (241 + 2 * i) = otpWord s (241 + 2 * i)) : regionFinal s' i = regionFinal s i := by
  rw [regionFinal, hlo, hhi, regionFinal]

theorem regionFinal_of_otp {s s' : State} (h : s'.otp = s.otp) (i : Nat) : regionFinal s' i = regionFinal s i :=
  regionFinal_of_words (otpWord_of_otp h _) (otpWord_of_otp h _)

theorem word_of_regionFinal {s : State} {i : Nat} (h : regionFinal s i = false) : otpWord s (241 + 2 * i) = 0 := by
  rw [regionFinal, Bool.or_eq_false_iff] at h
  exact bne_eq_false_iff_eq.mp h.2

theorem div_top (d : Nat) : (d % 2 ^ 63 + 2 ^ 63) / 2 ^ 63 = 1 := by
  rw [Nat.add_div_right _ (Nat.two_pow_pos 63), Nat.div_eq_of_lt (Nat.mod_lt _ (Nat.two_pow_pos 63))]

theorem upperHalf_getLsbD (d : Nat) : (BitVec.ofNat 32 (d / 2 ^ 32)).getLsbD 31 = decide (d / 2 ^ 63 % 2 = 1) := by
  rw [BitVec.getLsbD_ofNat, Nat.testBit_eq_decide_div_mod_eq, Nat.div_div_eq_div_mul, ← Nat.pow_add]
  exact Bool.true_and _

/-- The upper half of a digest is never zero: its top bit is set. -/
theorem topHalf_getLsbD (d : Nat) : (BitVec.ofNat 32 ((d % 2 ^ 63 + 2 ^ 63) / 2 ^ 32)).getLsbD 31 = true := by
  rw [upperHalf_getLsbD, div_top]
  exact decide_eq_true rfl

theorem exists_regionDigest (s : State) (i : Nat) : ∃ d, regionDigest s i = d % 2 ^ 63 + 2 ^ 63 := by
  unfold regionDigest
  obtain ⟨a, b⟩ := coveredWords i
  exact ⟨u64 (Config.sha384 (otpBytes s a (b - a + 1))) 0, Eq.refl _⟩

theorem regionDigest_top (s : State) (i : Nat) : (BitVec.ofNat 32 (regionDigest s i / 2 ^ 32)).getLsbD 31 = true := by
  obtain ⟨d, h⟩ := exists_regionDigest s i
  rw [h, topHalf_getLsbD]

/-- A digest burned without a failing cell has its top bit set. -/
theorem digestBit_burnDigest {s : State} {i : Nat} (h : regionFinal s i = false)
    (lo : BurnResult) {hi : BurnResult} (hhi : hi.failed = 0) : (otpWord (burnDigest i lo hi s) (241 + 2 * i)).getLsbD 31 = true := by
  unfold burnDigest
  extract_lets d
  refine getLsbD_burnWord ?_
  have hzero : otpWord (burnWord (240 + 2 * i) (BitVec.ofNat 32 d) lo s) (241 + 2 * i) = 0 :=
    (otpWord_burnWord_of_ne (by omega) ..).trans (word_of_regionFinal h)
  rw [burnBits, if_neg (by omega), hzero, hhi, BitVec.getLsbD_and, BitVec.getLsbD_and, regionDigest_top s i]
  rfl

/-! ## The state of the partition while jobs settle -/

theorem met_raiseAudit (a : AuditRec) (s : State) : (raiseAudit a s).met = s.met := by
  obtain ⟨log, h⟩ := raiseAudit_eq a s
  rw [h]

theorem metSt_closeItem (ctx : Fin 64) (o : OutcomeRec) (sb : Option SealedBind) (s : State) :
    (closeItem ctx o sb s).met.st = s.met.st := by
  unfold closeItem
  extract_lets y z
  refine (congrArg Met.st (eq_of_sansReports (sansReports_reportOutcome ..) (g := State.met) fun _ => rfl)).trans ?_
  show y.met.st = s.met.st
  cases sb with
  | none => rfl
  | some b => exact (congrArg Met.st (met_raiseAudit _ _)).trans rfl

theorem metSt_closeFront (ctx : Fin 64) (l : List Item) (s : State) : (closeFront ctx l s).2.met.st = s.met.st := by
  induction l generalizing s with
  | nil => rfl
  | cons it l ih =>
    unfold closeFront
    split
    · rw [ih, metSt_closeItem]
    · rfl

theorem metSt_takeEntries (ctx : Fin 64) (l : List OutcomeRec) (s : State) : (takeEntries ctx l s).2.met.st = s.met.st := by
  induction l generalizing s with
  | nil => rfl
  | cons o l ih =>
    unfold takeEntries
    split
    · rfl
    · rw [ih, metSt_closeItem]

theorem metSt_endRun (p : Fin 8) (s : State) : (endRun p s).met.st = s.met.st := by
  unfold endRun
  split
  · exact congrArg Met.st (eq_of_sansReports (sansReports_diag ..) (g := State.met) fun _ => rfl)
  · rfl

theorem metSt_endRuns (ctx : Fin 64) (s : State) : (endRuns ctx s).met.st = s.met.st := by
  unfold endRuns
  refine foldl_leaves (g := fun s => s.met.st) (fun s p => ?_) _ s
  split
  · split
    · exact metSt_endRun p s
    · rfl
  · rfl

theorem metSt_closeJob (ctx : Fin 64) (s : State) : (closeJob ctx s).met.st = s.met.st := by
  obtain h | h := closeJob_eq ctx s
  · rw [h]
  · rw [h]
    exact (metSt_endRuns ..).trans rfl

theorem metSt_settleJob (ctx : Fin 64) (s : State) : (settleJob ctx s).met.st = s.met.st := by
  unfold settleJob
  extract_lets j
  split
  · rfl
  · rfl
  · exact (metSt_closeJob ..).trans ((metSt_takeEntries ..).trans (metSt_closeFront ..))

theorem metSt_settleAll (s : State) : (settleAll s).met.st = s.met.st := by
  unfold settleAll
  exact foldl_leaves (g := fun s => s.met.st) (fun s c => metSt_settleJob c s) _ s

theorem metSt_voidSealed (s : State) : (voidSealed s).met.st = s.met.st := by
  unfold voidSealed
  refine foldl_leaves (g := fun s => s.met.st) (fun s c => ?_) _ s
  refine foldl_leaves (g := fun s => s.met.st) (fun s it => ?_) _ s
  split
  · exact (congrArg Met.st (met_raiseAudit _ _)).trans rfl
  · rfl

end Sys2Proof.Machine
end

section
/-! States, counter and mailbox of the sealed partition (R403, R404, R413 to R420), and obligation O51. -/
namespace Sys2Proof.Machine

open Sys2Proof.Claim

/-! ## What an event record and the counter leave -/

theorem metEvent_leaves (kind : Nat) (data : List Int) (s : State) : (∃ events, (metEvent kind data s).met =
      { s.met with anum := s.met.anum + 1, events := events }) ∧ (metEvent kind data s).otp = s.otp ∧
    (metEvent kind data s).regs = s.regs ∧ (metEvent kind data s).lsi = s.lsi := by
  obtain ⟨log, events, h⟩ := metEvent_eq kind data s
  rw [h]
  exact ⟨⟨events, rfl⟩, rfl, rfl, rfl⟩

theorem keepsPress_otpSet (w : Nat) (bits : Word) (s : State) : KeepsPress s (otpSet w bits s) :=
  ⟨(KeepsPress.refl s).print, (KeepsPress.refl s).motion⟩

theorem keepsPress_burnWord (w : Nat) (value : Word) (b : BurnResult) (s : State) : KeepsPress s (burnWord w value b s) :=
  ⟨(KeepsPress.refl s).print, (KeepsPress.refl s).motion⟩

theorem met_burnWord (w : Nat) (value : Word) (b : BurnResult) (s : State) : (burnWord w value b s).met = s.met := rfl

theorem met_countEvent (s : State) : (countEvent s).met = { s.met with c := s.met.c + 1 } := by
  unfold countEvent when
  extract_lets c
  split <;> rfl

theorem keepsPress_countEvent (s : State) : KeepsPress s (countEvent s) := by
  unfold countEvent when
  extract_lets c
  split
  · exact (keepsPress_modMet (fun m => { m with c := c }) s).trans (keepsPress_otpSet ..)
  · exact keepsPress_modMet ..

theorem otp_countEvent_of_not {s : State} (h : (s.met.c + 1) % 16 ≠ 0) : (countEvent s).otp = s.otp := by
  unfold countEvent when
  extract_lets c
  rw [if_neg (by rw [beq_iff_eq]; exact h)]
  rfl

/-- Each sixteenth event burns its bit of words 160 to 175. -/
theorem getLsbD_countEvent {s : State} (h : (s.met.c + 1) % 16 = 0) :
    (otpWord (countEvent s) (160 + ((s.met.c + 1) / 16 - 1) / 32)).getLsbD (((s.met.c + 1) / 16 - 1) % 32) = true := by
  unfold countEvent when
  extract_lets c
  rw [if_pos (beq_iff_eq.mpr h)]
  refine getLsbD_otpSet ?_ ..
  have hlt : (c / 16 - 1) % 32 < 32 := Nat.mod_lt _ (by decide)
  rw [BitVec.getLsbD_ofNat, Nat.testBit_two_pow_self, decide_eq_true hlt]
  rfl

/-! ## LOCKED -/

/-- An alarm and its event record leave the partition but for the number and the records. -/
theorem lockRecord_leaves (data : List Int) (s : State) :
    (∃ events, (metEvent 10 data (alarm .metLocked noInst s)).met = { s.met with anum := s.met.anum + 1, events := events }) ∧
    (metEvent 10 data (alarm .metLocked noInst s)).otp = s.otp ∧ (metEvent 10 data (alarm .metLocked noInst s)).lsi = s.lsi ∧
    bitOf (metEvent 10 data (alarm .metLocked noInst s)) Reg.evtAlarmLatch 1 5 = true ∧
    KeepsPress s (metEvent 10 data (alarm .metLocked noInst s)) := by
  have halarm := sansReports_alarm .metLocked noInst s
  have hmet : (alarm .metLocked noInst s).met = s.met := eq_of_sansReports halarm (g := State.met) fun _ => rfl
  obtain ⟨⟨events, hevent⟩, hotp, hregs, hlsi⟩ := metEvent_leaves 10 data (alarm .metLocked noInst s)
  refine ⟨⟨events, by rw [hevent, hmet]⟩, hotp.trans (eq_of_sansReports halarm (g := State.otp) fun _ => rfl),
    hlsi.trans (eq_of_sansReports halarm (g := State.lsi) fun _ => rfl), ?_,
    (keepsPress_of_sansReports halarm).trans (keepsPress_metEvent ..)⟩
  rw [bitOf, rd_of_regs hregs]
  exact alarm_bitOf .metLocked noInst s

theorem lockPartition_of_locked (cause : LockCause) {s : State} (h : s.met.st = .locked) : lockPartition cause s =
    s.modMet fun m => { m with cause := if m.cause = .lockstep ∨ m.cause = .clock then m.cause else cause } := by
  unfold lockPartition
  rw [h]

theorem lockPartition_of_open (cause : LockCause) {s : State} (habsent : s.met.st ≠ .absent) (hopen : s.met.st ≠ .locked) :
    ∃ data, lockPartition cause s =
      metEvent 10 data (alarm .metLocked noInst (s.modMet fun m => { m with st := .locked, cause := cause })) := by
  unfold lockPartition
  split
  next hst => exact absurd hst habsent
  next hst => exact absurd hst hopen
  next => exact ⟨_, rfl⟩

/-- A partition locked by a cause. -/
theorem lockPartition_leaves (cause : LockCause) {s : State} (h : s.met.st ≠ .absent) :
    (lockPartition cause s).met.st = .locked ∧ (lockPartition cause s).otp = s.otp ∧ (lockPartition cause s).lsi = s.lsi ∧
      KeepsPress s (lockPartition cause s) := by
  by_cases hlocked : s.met.st = .locked
  · rw [lockPartition_of_locked cause hlocked]
    exact ⟨hlocked, rfl, rfl, keepsPress_modMet ..⟩
  · obtain ⟨data, heq⟩ := lockPartition_of_open cause h hlocked
    obtain ⟨⟨events, hmet⟩, hotp, hlsi, -, hpress⟩ :=
      lockRecord_leaves data (s.modMet fun m => { m with st := .locked, cause := cause })
    rw [heq]
    exact ⟨congrArg Met.st hmet, hotp, hlsi, (keepsPress_modMet ..).trans hpress⟩

/-- A partition that was not locked is locked by the cause given, with METROLOGY LOCKED raised. -/
theorem lockPartition_cause (cause : LockCause) {s : State} (habsent : s.met.st ≠ .absent) (hopen : s.met.st ≠ .locked) :
    (lockPartition cause s).met.cause = cause ∧ bitOf (lockPartition cause s) Reg.evtAlarmLatch 1 5 = true := by
  obtain ⟨data, heq⟩ := lockPartition_of_open cause habsent hopen
  obtain ⟨⟨events, hmet⟩, -, -, hlatch, -⟩ :=
    lockRecord_leaves data (s.modMet fun m => { m with st := .locked, cause := cause })
  rw [heq]
  exact ⟨congrArg Met.cause hmet, hlatch⟩

theorem lockPartition_lockstep {s : State} (h : s.met.st ≠ .absent) :
    (lockPartition .lockstep s).met.cause = .lockstep ∨ (lockPartition .lockstep s).met.cause = .clock := by
  by_cases hlocked : s.met.st = .locked
  · rw [lockPartition_of_locked .lockstep hlocked]
    show (if s.met.cause = .lockstep ∨ s.met.cause = .clock then s.met.cause else .lockstep) = _ ∨
      (if s.met.cause = .lockstep ∨ s.met.cause = .clock then s.met.cause else .lockstep) = _
    split
    next hcause => exact hcause
    next => exact .inl rfl
  · exact .inl (lockPartition_cause .lockstep h hlocked).1

/-! ## The start check and the seal -/

theorem openState_of {s s' : State} (hotp : s'.otp = s.otp) (hpin : s'.met.sealPin = s.met.sealPin) :
    openState s' = openState s := by
  rw [openState, hpin, regionFinal_of_otp hotp, openState]

theorem showMti_eq (s : State) : ∃ v i d, showMti s = s.modMet fun m => { m with swver := v, swid := i, digest := d } := by
  unfold showMti
  split
  · exact ⟨_, _, _, rfl⟩
  · exact ⟨_, _, _, rfl⟩

section
variable {t : Nat} {s : State}

theorem exec_metStartupCheck_of_started (h : s.met.st ≠ .starting) (ok : Bool) (k : Nat) :
    exec (.metStartupCheck t ok k) s = .next (after t s id) :=
  (run_eq_after (if_neg (show ¬(s.arrive t).met.st = .starting from h)) : execMetStartupCheck t ok k s = _)

/-- The start check's verdict on the running MTI and the flash region. -/
def startChecked (ok : Bool) (k : Nat) (s : State) : State :=
  let s := showMti s
  if ok then
    let b := counterBits s
    let s := s.modMet fun m => { m with c := k }
    if 16 * b ≤ k ∧ k ≤ 16 * b + 16 then
      metEvent 11 [] ((when (k == 16 * b + 16) (burnCounter b) s).modMet fun m => { m with st := openState s })
    else lockPartition .counter s
  else lockPartition .flash s

theorem exec_metStartupCheck (h : s.met.st = .starting) (ok : Bool) (k : Nat) :
    exec (.metStartupCheck t ok k) s = .next (after t s (startChecked ok k)) :=
  (run_eq_after (if_pos (show (s.arrive t).met.st = .starting from h)) : execMetStartupCheck t ok k s = _)

theorem counterBits_of_otp {s s' : State} (h : s'.otp = s.otp) : counterBits s' = counterBits s := by
  simp only [counterBits, otpWord_of_otp h]

theorem startChecked_agreed {k : Nat} (hlo : 16 * counterBits s ≤ k) (hhi : k ≤ 16 * counterBits s + 16) :
    (startChecked true k s).met.c = k ∧ (startChecked true k s).met.st = openState s ∧
      (startChecked true k s).met.anum = s.met.anum + 1 ∧ KeepsPress s (startChecked true k s) := by
  obtain ⟨v, i, d, hmti⟩ := showMti_eq s
  unfold startChecked
  rw [hmti]
  extract_lets y b z
  have hb : b = counterBits s := counterBits_of_otp rfl
  rw [if_pos rfl, hb, if_pos ⟨hlo, hhi⟩]
  have hopen : openState z = openState s := openState_of rfl rfl
  obtain ⟨⟨events, hmet⟩, -, -, -⟩ := metEvent_leaves 11 []
    ((when (k == 16 * counterBits s + 16) (burnCounter (counterBits s)) z).modMet fun m => { m with st := openState z })
  have hburn : (when (k == 16 * counterBits s + 16) (burnCounter (counterBits s)) z).met = z.met ∧
      KeepsPress z (when (k == 16 * counterBits s + 16) (burnCounter (counterBits s)) z) := by
    unfold when
    split
    · exact ⟨rfl, keepsPress_otpSet ..⟩
    · exact ⟨rfl, .refl z⟩
  refine ⟨(congrArg Met.c hmet).trans (congrArg Met.c hburn.1), (congrArg Met.st hmet).trans hopen,
    (congrArg Met.anum hmet).trans (congrArg (fun m : Met => m.anum + 1) hburn.1 :), ?_⟩
  have hz : KeepsPress s z := (keepsPress_modMet ..).trans (keepsPress_modMet (fun m => { m with c := k }) y)
  exact hz.trans (hburn.2.trans ((keepsPress_modMet ..).trans (keepsPress_metEvent ..)))

theorem startChecked_disagreed (h : s.met.st = .starting) {k : Nat}
    (hoff : k < 16 * counterBits s ∨ 16 * counterBits s + 16 < k) :
    (startChecked true k s).met.st = .locked ∧ (startChecked true k s).met.cause = .counter ∧
      bitOf (startChecked true k s) Reg.evtAlarmLatch 1 5 = true ∧ (startChecked true k s).otp = s.otp ∧
      KeepsPress s (startChecked true k s) := by
  obtain ⟨v, i, d, hmti⟩ := showMti_eq s
  unfold startChecked
  rw [hmti]
  extract_lets y b z
  have hb : b = counterBits s := counterBits_of_otp rfl
  rw [if_pos rfl, hb, if_neg (by omega)]
  have hst : z.met.st = .starting := h
  obtain ⟨hlocked, hotp, -, hpress⟩ := lockPartition_leaves .counter (s := z) (by rw [hst]; decide)
  obtain ⟨hcause, hlatch⟩ := lockPartition_cause .counter (s := z) (by rw [hst]; decide) (by rw [hst]; decide)
  have hz : KeepsPress s z := (keepsPress_modMet ..).trans (keepsPress_modMet (fun m => { m with c := k }) y)
  exact ⟨hlocked, hcause, hlatch, hotp, hz.trans hpress⟩

theorem startChecked_bad (h : s.met.st = .starting) (k : Nat) :
    (startChecked false k s).met.st = .locked ∧ (startChecked false k s).met.cause = .flash ∧
      (startChecked false k s).otp = s.otp ∧ KeepsPress s (startChecked false k s) := by
  obtain ⟨v, i, d, hmti⟩ := showMti_eq s
  unfold startChecked
  rw [hmti]
  extract_lets y
  rw [if_neg (by decide)]
  have hst : y.met.st = .starting := h
  obtain ⟨hlocked, hotp, -, hpress⟩ := lockPartition_leaves .flash (s := y) (by rw [hst]; decide)
  obtain ⟨hcause, -⟩ := lockPartition_cause .flash (s := y) (by rw [hst]; decide) (by rw [hst]; decide)
  exact ⟨hlocked, hcause, hotp, (keepsPress_modMet ..).trans hpress⟩

/-- The pin of the seal has moved, and the event record says so. -/
def sealMoved (high : Bool) (s : State) : State :=
  let s := s.modMet fun m => { m with sealPin := high }
  match s.met.st with
  | .absent => s
  | .starting | .locked => metEvent (if high then 2 else 1) [] s
  | _ => metEvent (if high then 2 else 1) [] (s.modMet fun m => { m with st := openState s })

theorem exec_metSealNEdge {high : Bool} {heldNs : Nat} (hheld : 10000000 ≤ heldNs) (hmoved : high ≠ s.met.sealPin) :
    exec (.metSealNEdge t high heldNs) s = .next (after t s (sealMoved high)) :=
  (run_eq_after (if_pos (show 10000000 ≤ heldNs ∧ high ≠ (s.arrive t).met.sealPin from ⟨hheld, hmoved⟩)) : execMetSealNEdge t high heldNs s = _)

theorem exec_metSealNEdge_of_still {high : Bool} {heldNs : Nat} (h : heldNs < 10000000 ∨ high = s.met.sealPin) :
    exec (.metSealNEdge t high heldNs) s = .next (after t s id) := by
  refine (run_eq_after ?_ : execMetSealNEdge t high heldNs s = _)
  refine if_neg fun ⟨hheld, hmoved⟩ => ?_
  rcases h with h | h
  · omega
  · exact hmoved h

/-- What the edge leaves: an event record, the pin, and the state it decides. -/
theorem sealMoved_leaves {high : Bool} (h : s.met.st ≠ .absent) : (sealMoved high s).met.sealPin = high ∧
    (sealMoved high s).met.anum = s.met.anum + 1 ∧ (sealMoved high s).met.st = (if s.met.st = .starting ∨ s.met.st = .locked
      then s.met.st else openState (s.modMet fun m => { m with sealPin := high })) ∧
    (sealMoved high s).otp = s.otp ∧ KeepsPress s (sealMoved high s) := by
  have hdecided : ∀ x : MetSt, ∃ events,
      (metEvent (if high then 2 else 1) [] (s.modMet fun m => { m with sealPin := high, st := x })).met =
        { s.met with sealPin := high, st := x, anum := s.met.anum + 1, events := events } := fun x => (metEvent_leaves ..).1
  have hkept : ∀ x : MetSt, (metEvent (if high then 2 else 1) [] (s.modMet fun m => { m with sealPin := high, st := x })).otp =
      s.otp ∧ KeepsPress s (metEvent (if high then 2 else 1) [] (s.modMet fun m => { m with sealPin := high, st := x })) :=
    fun x => ⟨(metEvent_leaves ..).2.1, (keepsPress_modMet ..).trans (keepsPress_metEvent ..)⟩
  have hof : ∀ x : MetSt, sealMoved high s =
      metEvent (if high then 2 else 1) [] (s.modMet fun m => { m with sealPin := high, st := x }) →
      (sealMoved high s).met.sealPin = high ∧ (sealMoved high s).met.anum = s.met.anum + 1 ∧
        (sealMoved high s).met.st = x ∧ (sealMoved high s).otp = s.otp ∧ KeepsPress s (sealMoved high s) := fun x heq => by
    obtain ⟨events, hmet⟩ := hdecided x
    obtain ⟨hotp, hpress⟩ := hkept x
    rw [heq]
    exact ⟨congrArg Met.sealPin hmet, congrArg Met.anum hmet, congrArg Met.st hmet, hotp, hpress⟩
  by_cases hst : s.met.st = .starting ∨ s.met.st = .locked
  · rw [if_pos hst]
    refine hof s.met.st ?_
    unfold sealMoved
    rcases hst with hst | hst
    · simp only [State.modMet, hst]
    · simp only [State.modMet, hst]
  · rw [if_neg hst]
    refine hof _ ?_
    rw [not_or] at hst
    unfold sealMoved
    extract_lets y
    split
    next habs => exact absurd habs h
    next hs => exact absurd hs hst.1
    next hl => exact absurd hl hst.2
    next => rfl

end
end Sys2Proof.Machine
end

section
/-! The mailbox commands of the sealed partition (R413 to R420), and obligation O51. -/
namespace Sys2Proof.Machine

open Sys2Proof.Claim

/-- A mailbox command is answered: not BUSY, DONE, its TAG with status 0, and neither printing nor motion changes. -/
def MailDone (s s' : State) : Prop :=
  s'.met.busy = false ∧ s'.fld Reg.metMbxCtrl 0 2 2 = 1 ∧ s'.met.rsp = [BitVec.ofNat 32 (s.fld Reg.metMbxReq 0 31 16)] ∧
    SamePrint s s' ∧ SameMotion s s'

/-- The partition as an answer leaves it. -/
def answeredMet (st : Status) (m : Met) : Met :=
  { m with busy := false, rsp := [BitVec.ofNat 32 (m.mailboxTag + 2 ^ 16 * st.code)] }

theorem mbxAnswer_met (st : Status) (s : State) : (mbxAnswer st s).met = answeredMet st s.met := rfl

theorem answeredMet_c (st : Status) (m : Met) : (answeredMet st m).c = m.c := rfl

theorem answeredMet_st (st : Status) (m : Met) : (answeredMet st m).st = m.st := rfl

theorem answeredMet_cause (st : Status) (m : Met) : (answeredMet st m).cause = m.cause := rfl

theorem mailTaken_met (sensitive : Bool) (s : State) :
    (mailTaken sensitive s).met = { s.met with mailboxTag := s.fld Reg.metMbxReq 0 31 16 } := by
  cases sensitive <;> rfl

theorem mailTaken_otp (sensitive : Bool) (s : State) : (mailTaken sensitive s).otp = s.otp := by
  cases sensitive <;> rfl

section
variable {t : Nat} {s : State} {i : Instr} {sensitive : Bool} {conds : State → List (Bool × Status)} {f : State → State}
variable (hexec : exec i s = ringCmd t s (mailbox sensitive conds f)) (hr : s.ringsRun = true)
include hexec hr

theorem exec_mailbox_of_busy (hbusy : s.met.busy = true) : exec i s = .next (after t s id) :=
  hexec.trans (ringCmd_eq_after hr (mailbox_of_busy (s := s.arrive t) hbusy ..))

variable (hbusy : s.met.busy = false) (hauth : (sensitive && sensitiveRefused s) = false)
include hbusy hauth

theorem exec_mailbox_refused {st : Status} (hst : st ≠ .ok)
    (h : firstRefusal (((mailTaken sensitive (s.arrive t)).met.st == .absent, .badState) ::
      conds (mailTaken sensitive (s.arrive t))) = st) :
    exec i s = .next (after t s fun s => mbxAnswer st (mailTaken sensitive s)) :=
  hexec.trans (ringCmd_eq_after hr (mailbox_refused (s := s.arrive t) hbusy hauth hst h))

theorem exec_mailbox_absent (h : s.met.st = .absent) :
    exec i s = .next (after t s fun s => mbxAnswer .badState (mailTaken sensitive s)) := by
  refine exec_mailbox_refused hexec hr hbusy hauth (by decide) (firstRefusal_cons_of_true ?_ ..)
  rw [metSt_mailTaken]
  exact beq_iff_eq.mpr h

/-- A mailbox command that none of its conditions refuses leaves what its effect leaves, and the answer. -/
theorem leaves_mailbox (hst : s.met.st ≠ .absent) (h : firstRefusal (conds (mailTaken sensitive (s.arrive t))) = .ok)
    (htag : (f (mailTaken sensitive (s.arrive t))).met.mailboxTag = s.fld Reg.metMbxReq 0 31 16)
    (hpress : KeepsPress (mailTaken sensitive (s.arrive t)) (f (mailTaken sensitive (s.arrive t)))) :
    ∃ s', exec i s = .next s' ∧ s'.met = answeredMet .ok (f (mailTaken sensitive (s.arrive t))).met ∧
      s'.otp = (f (mailTaken sensitive (s.arrive t))).otp ∧ MailDone s s' := by
  have hok := mailbox_ok (s := s.arrive t) (f := f) hbusy hauth ((firstRefusal_present (s := s.arrive t) hst _).trans h)
  obtain ⟨hprint, hmotion⟩ := (keepsPress_mailTaken sensitive (s.arrive t)).trans (hpress.trans (keepsPress_mbxAnswer .ok _))
  refine ⟨_, hexec.trans (ringCmd_eq_after (g := fun s => mbxAnswer .ok (f (mailTaken sensitive s))) hr hok), rfl, rfl, rfl, ?_,
    congrArg (fun n => [BitVec.ofNat 32 (n + 2 ^ 16 * Status.ok.code)]) htag, hprint, hmotion⟩
  exact (fld_of_regs (s := mbxAnswer .ok (f (mailTaken sensitive (s.arrive t)))) rfl ..).trans (fld_mbxAnswer ..)

end

/-! ## PRICE_SET, LANE_MAP and AUDIT_RELEASE -/

section
variable {t : Nat} {s : State} (hr : s.ringsRun = true) (hbusy : s.met.busy = false)

theorem exec_priceSet_eq (es : List (Nat × Nat)) : exec (.priceSet t es) s =
    ringCmd t s (mailbox false (priceConds es) fun s => metEvent 7 (es.flatMap fun e => [(e.1 : Int), (e.2 : Int)])
      (s.modMet fun m => { m with prices := setPrices es m.prices })) := rfl

theorem exec_laneMap_eq (ctx : Nat) (es : List (Nat × Nat)) : exec (.laneMap t ctx es) s =
    ringCmd t s (mailbox false (laneMapConds ctx es) fun s =>
      metEvent 8 ((ctx : Int) :: es.flatMap fun e => [(e.1 : Int), (e.2 : Int)])
        (s.modMet fun m => { m with laneMap := setLanes ctx es m.laneMap })) := rfl

/-- AUDIT_RELEASE's effect: the records up to its number go, and with LOSS the lost range is recorded. -/
def auditReleased (anum : Nat) (loss : Bool) (s : State) : State :=
  let s := s.modMet fun m => { m with events := m.events.filter fun r => decide (anum < AuditRec.num r) }
  if loss && s.met.loss then
    metEvent 12 [(s.met.lossRange.1 : Int), (s.met.lossRange.2 : Int)] (s.modMet fun m => { m with loss := false })
  else s

theorem exec_auditRelease_eq (anum : Nat) (loss : Bool) : exec (.auditRelease t anum loss) s =
    ringCmd t s (mailbox false (fun _ => []) (auditReleased anum loss)) := rfl

theorem exec_channelReset_eq (k : Nat) : exec (.channelReset t k) s =
    ringCmd t s (mailbox false (fun s => [(decide (15 < k), .range), evtShort s]) fun s =>
      metEvent 9 [(k : Int)] (modCh (Fin.ofNat 16 k) (fun x => { x with queue := [], fault := false, last := none }) s)) := rfl

/-- An event record over a change to the partition keeps TAG and press. -/
theorem metEvent_modMet (kind : Nat) (data : List Int) (f : Met → Met) (s : State) :
    (∃ events, (metEvent kind data (s.modMet f)).met = { f s.met with anum := (f s.met).anum + 1, events := events }) ∧
      KeepsPress s (metEvent kind data (s.modMet f)) :=
  ⟨(metEvent_leaves kind data (s.modMet f)).1, (keepsPress_modMet f s).trans (keepsPress_metEvent ..)⟩

include hr hbusy

theorem leaves_priceSet (hst : s.met.st ≠ .absent) {es : List (Nat × Nat)} (h : firstRefusal (priceConds es s) = .ok) :
    Leaves (.priceSet t es) s fun s' => s'.met.prices = setPrices es s.met.prices ∧ s'.met.anum = s.met.anum + 1 ∧
      s'.met.c = s.met.c ∧ MailDone s s' := by
  obtain ⟨⟨events, heff⟩, hpress⟩ := metEvent_modMet 7 (es.flatMap fun e => [(e.1 : Int), (e.2 : Int)])
    (fun m => { m with prices := setPrices es m.prices }) (mailTaken false (s.arrive t))
  obtain ⟨s', hexec, hmet, -, hdone⟩ := leaves_mailbox (exec_priceSet_eq (t := t) es) hr hbusy rfl hst h
    (congrArg Met.mailboxTag heff :) hpress
  rw [heff] at hmet
  exact ⟨s', hexec, (congrArg Met.prices hmet :), (congrArg Met.anum hmet :), (congrArg Met.c hmet :), hdone⟩

theorem leaves_laneMap (hst : s.met.st ≠ .absent) {ctx : Nat} {es : List (Nat × Nat)}
    (h : firstRefusal (laneMapConds ctx es s) = .ok) :
    Leaves (.laneMap t ctx es) s fun s' => s'.met.laneMap = setLanes ctx es s.met.laneMap ∧ s'.met.anum = s.met.anum + 1 ∧
      s'.met.c = s.met.c ∧ MailDone s s' := by
  obtain ⟨⟨events, heff⟩, hpress⟩ := metEvent_modMet 8 ((ctx : Int) :: es.flatMap fun e => [(e.1 : Int), (e.2 : Int)])
    (fun m => { m with laneMap := setLanes ctx es m.laneMap }) (mailTaken false (s.arrive t))
  obtain ⟨s', hexec, hmet, -, hdone⟩ := leaves_mailbox (exec_laneMap_eq (t := t) ctx es) hr hbusy rfl hst h
    (congrArg Met.mailboxTag heff :) hpress
  rw [heff] at hmet
  exact ⟨s', hexec, (congrArg Met.laneMap hmet :), (congrArg Met.anum hmet :), (congrArg Met.c hmet :), hdone⟩

omit hr hbusy in
theorem auditReleased_leaves (anum : Nat) (loss : Bool) (s : State) :
    (loss = false → (auditReleased anum loss s).met.events = s.met.events.filter fun r => decide (anum < AuditRec.num r)) ∧
      (loss = true → (auditReleased anum loss s).met.loss = false) ∧
      (loss = false → (auditReleased anum loss s).met.loss = s.met.loss) ∧
      (auditReleased anum loss s).met.mailboxTag = s.met.mailboxTag ∧ KeepsPress s (auditReleased anum loss s) := by
  unfold auditReleased
  extract_lets y
  have hy : KeepsPress s y := keepsPress_modMet ..
  split
  next h =>
    rw [Bool.and_eq_true] at h
    obtain ⟨hloss, -⟩ := h
    obtain ⟨⟨events, heff⟩, hpress⟩ := metEvent_modMet 12 [(y.met.lossRange.1 : Int), (y.met.lossRange.2 : Int)]
      (fun m => { m with loss := false }) y
    exact ⟨fun hno => absurd (hloss.symm.trans hno) (by decide), fun _ => (congrArg Met.loss heff :),
      fun hno => absurd (hloss.symm.trans hno) (by decide), (congrArg Met.mailboxTag heff :), hy.trans hpress⟩
  next h =>
    refine ⟨fun _ => rfl, fun hloss => ?_, fun _ => rfl, rfl, hy⟩
    rw [hloss, Bool.true_and] at h
    exact Bool.eq_false_iff.mpr h

theorem leaves_auditRelease (hst : s.met.st ≠ .absent) (anum : Nat) (loss : Bool) :
    Leaves (.auditRelease t anum loss) s fun s' =>
      (loss = false → s'.met.events = s.met.events.filter fun r => decide (anum < AuditRec.num r)) ∧
      (loss = true → s'.met.loss = false) ∧ (loss = false → s'.met.loss = s.met.loss) ∧ MailDone s s' := by
  obtain ⟨hevents, hloss, hkept, htag, hpress⟩ := auditReleased_leaves anum loss (mailTaken false (s.arrive t))
  obtain ⟨s', hexec, hmet, -, hdone⟩ := leaves_mailbox (exec_auditRelease_eq (t := t) anum loss) hr hbusy rfl hst rfl htag hpress
  refine ⟨s', hexec, fun h => ?_, fun h => ?_, fun h => ?_, hdone⟩
  · exact (congrArg Met.events hmet :).trans (hevents h)
  · exact (congrArg Met.loss hmet :).trans (hloss h)
  · exact (congrArg Met.loss hmet :).trans (hkept h)

theorem exec_priceSet_range (hst : s.met.st ≠ .absent) {es : List (Nat × Nat)} (h : es.length = 0 ∨ 30 < es.length) :
    exec (.priceSet t es) s = .next (after t s fun s => mbxAnswer .range (mailTaken false s)) := by
  refine exec_mailbox_refused (exec_priceSet_eq es) hr hbusy rfl (by decide) ?_
  rw [firstRefusal_present (s := s.arrive t) hst]
  refine firstRefusal_cons_of_true ?_ ..
  rw [decide_eq_true h]
  rfl

theorem exec_priceSet_busy (hst : s.met.st ≠ .absent) {es : List (Nat × Nat)} (hlo : 0 < es.length) (hhi : es.length ≤ 30)
    (hprice : ∀ e ∈ es, e.2 ≤ 1000000000) (hroom : (setPrices es s.met.prices).length ≤ 65536) (hfull : evtFree s < 64) :
    exec (.priceSet t es) s = .next (after t s fun s => mbxAnswer .busy (mailTaken false s)) := by
  refine exec_mailbox_refused (exec_priceSet_eq es) hr hbusy rfl (by decide) ?_
  have hany : es.any (fun e => decide (10 ^ 9 < e.2)) = false := by
    refine Bool.eq_false_iff.mpr fun hany => ?_
    obtain ⟨e, he, hbig⟩ := List.any_eq_true.mp hany
    exact absurd (of_decide_eq_true hbig) (Nat.not_lt.mpr (hprice e he))
  rw [firstRefusal_present (s := s.arrive t) hst]
  refine (firstRefusal_cons_of_false ?_ ..).trans (firstRefusal_cons_of_true (decide_eq_true hfull) ..)
  rw [hany, decide_eq_false (by omega), Bool.false_or, Bool.false_or]
  exact decide_eq_false (Nat.not_lt.mpr hroom)

/-! ## The sensitive commands -/

/-- A sensitive command without its session. -/
theorem exec_mailbox_unauthorised {i : Instr} {conds : State → List (Bool × Status)} {f : State → State}
    (hexec : exec i s = ringCmd t s (mailbox true conds f)) (hno : sensitiveRefused s = true) :
    exec i s = .next (after t s fun s => (s.modMet fun m =>
      { m with mailboxTag := s.fld Reg.metMbxReq 0 31 16, busy := true }).modSec fun z =>
        { z with timed := z.timed ++ [(.mailbox, s.now)] }) :=
  hexec.trans (ringCmd_eq_after hr (mailbox_of_unauthorised (s := s.arrive t) hbusy hno ..))

end

theorem setParam_leaves (block index : Nat) (rec : Bytes) (m : Met) :
    (setParam block index rec m).c = m.c ∧ (setParam block index rec m).mailboxTag = m.mailboxTag ∧
      (block = 0 → (setParam block index rec m).sfdef[Fin.ofNat 16 index] = parseSfDef rec) ∧
      (block = 1 → (setParam block index rec m).chcfg[Fin.ofNat 16 index] = parseChCfg rec) ∧
      (block = 2 → (setParam block index rec m).glob = parseGlob rec) := by
  unfold setParam
  split
  · exact ⟨rfl, rfl, fun _ => upd_getElem_self .., fun h => by omega, fun h => by omega⟩
  · exact ⟨rfl, rfl, fun h => by omega, fun _ => upd_getElem_self .., fun h => by omega⟩
  next h0 h1 => exact ⟨rfl, rfl, fun h => absurd h h0, fun h => absurd h h1, fun _ => rfl⟩

theorem exec_paramWrite_eq {t : Nat} {s : State} (block index : Nat) (rec : Bytes) : exec (.paramWrite t block index rec) s =
    ringCmd t s (mailbox true (paramConds block index rec) fun s =>
      metEvent 3 ((block : Int) :: (index : Int) :: rec.map fun b => (b.toNat : Int))
        (countEvent (s.modMet (setParam block index rec)))) := rfl

/-- Refusals of SEAL_FINALISE. -/
def sealConds (approval : Bytes) (s : State) : List (Bool × Status) :=
  [(s.met.st != .broken || regionFinal s 4, .badState), (approval.length != 16, .range), evtShort s, countFull s]

/-- SEAL_FINALISE's effect: approval and digest are burned, and the region's own digest. -/
def sealFinalised (approval : Bytes) (s : State) : State :=
  metEvent 4 (approval.map fun b => (b.toNat : Int))
    (countEvent (burnDigest 4 cleanBurn cleanBurn (burnBytes 144 (sealBytes approval s) s)))

theorem keepsPress_foldl {α : Type} {f : State → α → State} (h : ∀ s x, KeepsPress s (f s x)) (l : List α) (s : State) :
    KeepsPress s (l.foldl f s) := by
  induction l generalizing s with
  | nil => exact .refl s
  | cons x l ih => exact (h s x).trans (ih _)

theorem burnBytes_leaves (first : Nat) (bytes : Bytes) (s : State) : (burnBytes first bytes s).met = s.met ∧
    KeepsPress s (burnBytes first bytes s) :=
  ⟨foldl_leaves (g := State.met) (fun s i => met_burnWord (first + i) (BitVec.ofNat 32 (u32 bytes (4 * i))) cleanBurn s) _ s,
    keepsPress_foldl (fun s i => keepsPress_burnWord (first + i) (BitVec.ofNat 32 (u32 bytes (4 * i))) cleanBurn s) _ s⟩

/-- Words outside those burned keep their value. -/
theorem otpWord_burnBytes {first k : Nat} {bytes : Bytes} (h : k < first ∨ first + bytes.length / 4 ≤ k) (s : State) :
    otpWord (burnBytes first bytes s) k = otpWord s k := by
  unfold burnBytes
  have hout : ∀ l : List Nat, (∀ i ∈ l, i < bytes.length / 4) → ∀ s : State, otpWord (l.foldl (fun s i =>
      burnWord (first + i) (BitVec.ofNat 32 (u32 bytes (4 * i))) cleanBurn s) s) k = otpWord s k := fun l => by
    induction l with
    | nil => exact fun _ _ => rfl
    | cons i l ih =>
      intro hl s
      have hi := hl i (List.mem_cons_self ..)
      rw [List.foldl_cons, ih fun j hj => hl j (List.mem_cons_of_mem _ hj)]
      exact otpWord_burnWord_of_ne (by omega) ..
  exact hout _ (fun i hi => List.mem_range.mp hi) s

theorem otpWord_burnPart {first k : Nat} {bytes : Bytes} (h : k < first ∨ first + bytes.length / 4 ≤ k) (s : State) :
    otpWord (burnPart first bytes s) k = otpWord s k := by
  unfold burnPart
  have hout : ∀ l : List Nat, (∀ i ∈ l, i < bytes.length / 4) → ∀ s : State, otpWord (l.foldl (fun s i =>
      burnWord (first + i) (BitVec.ofNat 32 (u32 bytes (4 * i))) { cleanBurn with failed := BitVec.ofNat 32 s.draw.1 } s.draw.2) s) k
        = otpWord s k := fun l => by
    induction l with
    | nil => exact fun _ _ => rfl
    | cons i l ih =>
      intro hl s
      have hi := hl i (List.mem_cons_self ..)
      rw [List.foldl_cons, ih fun j hj => hl j (List.mem_cons_of_mem _ hj), otpWord_burnWord_of_ne (by omega)]
      exact otpWord_of_otp (State.draw_otp s) k
  exact hout _ (fun i hi => List.mem_range.mp hi) s

theorem burnPart_leaves (first : Nat) (bytes : Bytes) (s : State) : (burnPart first bytes s).met = s.met ∧
    (burnPart first bytes s).sec.session = s.sec.session ∧ (burnPart first bytes s).regs = s.regs := by
  unfold burnPart
  refine ⟨foldl_leaves (g := State.met) (fun s i => ?_) _ s, foldl_leaves (g := fun s => s.sec.session) (fun s i => ?_) _ s,
    foldl_leaves (g := State.regs) (fun s i => ?_) _ s⟩
  · exact rfl
  · exact rfl
  · exact rfl

theorem sealBytes_words {s : State} {approval : Bytes} (happ : approval.length = 16) (hdigest : s.met.digest.length ≤ 48) :
    (sealBytes approval s).length / 4 ≤ 16 := by
  rw [sealBytes, List.length_append, happ]
  omega

theorem met_burnDigest (i : Nat) (lo hi : BurnResult) (s : State) : (burnDigest i lo hi s).met = s.met := by
  unfold burnDigest
  extract_lets d
  exact (met_burnWord ..).trans (met_burnWord ..)

theorem keepsPress_burnDigest (i : Nat) (lo hi : BurnResult) (s : State) : KeepsPress s (burnDigest i lo hi s) := by
  unfold burnDigest
  extract_lets d
  exact (keepsPress_burnWord ..).trans (keepsPress_burnWord ..)

/-- SEAL_FINALISE's effect finalises the region and counts an event. -/
theorem sealFinalised_leaves {s : State} (hopen : regionFinal s 4 = false) {approval : Bytes} (happ : approval.length = 16)
    (hdigest : s.met.digest.length ≤ 48) : (sealFinalised approval s).met.c = s.met.c + 1 ∧
      (sealFinalised approval s).met.mailboxTag = s.met.mailboxTag ∧
      (otpWord (sealFinalised approval s) (241 + 2 * 4)).getLsbD 31 = true ∧ KeepsPress s (sealFinalised approval s) := by
  have hwords := sealBytes_words happ hdigest
  obtain ⟨hmet, hpress⟩ := burnBytes_leaves 144 (sealBytes approval s) s
  have hstill : regionFinal (burnBytes 144 (sealBytes approval s) s) 4 = false := by
    rwa [regionFinal_of_words (otpWord_burnBytes (by omega) s) (otpWord_burnBytes (by omega) s)]
  have hbit := digestBit_burnDigest hstill cleanBurn (hi := cleanBurn) rfl
  obtain ⟨⟨events, heff⟩, hotp, -, -⟩ := metEvent_leaves 4 (approval.map fun b => (b.toNat : Int))
    (countEvent (burnDigest 4 cleanBurn cleanBurn (burnBytes 144 (sealBytes approval s) s)))
  rw [met_countEvent, met_burnDigest, hmet] at heff
  unfold sealFinalised
  refine ⟨(congrArg Met.c heff :), (congrArg Met.mailboxTag heff :), (OtpGrows.then_otp_eq (countEvent_grows _) hotp).getLsbD hbit, ?_⟩
  exact hpress.trans ((keepsPress_burnDigest ..).trans
    ((keepsPress_countEvent _).trans (keepsPress_metEvent ..)))

theorem exec_sealFinalise_eq {t : Nat} {s : State} (approval : Bytes) : exec (.sealFinalise t approval true) s =
    ringCmd t s (mailbox true (sealConds approval) (sealFinalised approval)) := rfl

/-- RECONCILE's effect: the counter is set from the fuses and counts on, and the state is decided anew. -/
def reconciled (s : State) : State :=
  metEvent 5 [(s.met.c : Int)] ((countEvent (s.modMet fun m => { m with c := 16 * counterBits s })).modMet fun m =>
    { m with st := openState (countEvent (s.modMet fun m => { m with c := 16 * counterBits s })), cause := .none })

theorem exec_reconcile_eq {t : Nat} {s : State} : exec (.reconcile t) s =
    ringCmd t s (mailbox true (fun s => [(!reconcilable s, .badState), evtShort s, countFull s,
      (decide (8192 ≤ 16 * counterBits s), .sealed)]) reconciled) := rfl

section
variable {t : Nat} {s : State} (hr : s.ringsRun = true) (hbusy : s.met.busy = false) (hst : s.met.st = .broken)
variable (hauth : sensitiveRefused s = false) (hfree : evtFree s ≥ 64) (hc : s.met.c < 8192)

include hfree hc in
/-- The last two conditions of a counted command. -/
theorem counted_ok {y : State} (hevents : y.met.events = s.met.events) (hcount : y.met.c = s.met.c) (rest : List (Bool × Status)) :
    firstRefusal (evtShort y :: countFull y :: rest) = firstRefusal rest := by
  refine (firstRefusal_cons_of_false (decide_eq_false ?_) ..).trans (firstRefusal_cons_of_false (decide_eq_false ?_) ..)
  · rw [evtFree, hevents]
    exact Nat.not_lt.mpr hfree
  · rw [hcount]
    exact Nat.not_le.mpr hc

include hr hbusy hst hauth hfree hc

theorem leaves_paramWrite {block index : Nat} {rec : Bytes} (hruns : sealedRuns s = false) (hok : paramOk s block index rec = true) :
    Leaves (.paramWrite t block index rec) s fun s' => s'.met.c = s.met.c + 1 ∧
      (block = 0 → s'.met.sfdef[Fin.ofNat 16 index] = parseSfDef rec) ∧ (block = 1 → s'.met.chcfg[Fin.ofNat 16 index] = parseChCfg rec) ∧
      (block = 2 → s'.met.glob = parseGlob rec) ∧
      ((s.met.c + 1) % 16 = 0 → (otpWord s' (160 + ((s.met.c + 1) / 16 - 1) / 32)).getLsbD (((s.met.c + 1) / 16 - 1) % 32) = true) ∧
      ((s.met.c + 1) % 16 ≠ 0 → s'.otp = s.otp) ∧ MailDone s s' := by
  obtain ⟨hcount, htag, hsf, hch, hglob⟩ := setParam_leaves block index rec (mailTaken true (s.arrive t)).met
  have hcount' : ((mailTaken true (s.arrive t)).modMet (setParam block index rec)).met.c = s.met.c := hcount
  obtain ⟨⟨events, heff⟩, hotp, -, -⟩ := metEvent_leaves 3 ((block : Int) :: (index : Int) :: rec.map fun b => (b.toNat : Int))
    (countEvent ((mailTaken true (s.arrive t)).modMet (setParam block index rec)))
  rw [met_countEvent] at heff
  have hconds : firstRefusal (paramConds block index rec (mailTaken true (s.arrive t))) = .ok := by
    refine (firstRefusal_cons_of_false ?_ ..).trans ((firstRefusal_cons_of_false ?_ ..).trans (counted_ok hfree hc rfl rfl []))
    · rw [show sealedRuns (mailTaken true (s.arrive t)) = false from hruns, metSt_mailTaken,
        show (s.arrive t).met.st = .broken from hst]
      rfl
    · rw [show paramOk (mailTaken true (s.arrive t)) block index rec = true from hok]
      rfl
  obtain ⟨s', hexec, hmet, hotp', hdone⟩ := leaves_mailbox (exec_paramWrite_eq (t := t) block index rec) hr hbusy hauth
    (by rw [hst]; decide) hconds ((congrArg Met.mailboxTag heff :).trans htag)
    ((keepsPress_modMet ..).trans ((keepsPress_countEvent _).trans (keepsPress_metEvent ..)))
  rw [heff] at hmet
  refine ⟨s', hexec, (congrArg Met.c hmet :).trans (congrArg (· + 1) hcount), ?_, ?_, ?_, ?_, ?_, hdone⟩
  · exact fun h => (congrArg (fun m : Met => m.sfdef[Fin.ofNat 16 index]) hmet).trans (hsf h)
  · exact fun h => (congrArg (fun m : Met => m.chcfg[Fin.ofNat 16 index]) hmet).trans (hch h)
  · exact fun h => (congrArg Met.glob hmet :).trans (hglob h)
  · intro h
    rw [otpWord_of_otp (hotp'.trans hotp), ← hcount']
    exact getLsbD_countEvent (by rw [hcount']; exact h)
  · intro h
    rw [hotp', hotp, otp_countEvent_of_not (by rw [hcount']; exact h)]
    exact mailTaken_otp true (s.arrive t)

/-! ### SEAL_FINALISE -/

omit hr hbusy hauth in
theorem sealConds_ok {y : State} (hmet : y.met.st = s.met.st ∧ y.met.events = s.met.events ∧ y.met.c = s.met.c)
    (hopen : regionFinal y 4 = false) {approval : Bytes} (happ : approval.length = 16) (rest : List (Bool × Status)) :
    firstRefusal (sealConds approval y ++ rest) = firstRefusal rest := by
  obtain ⟨hyst, hevents, hcount⟩ := hmet
  refine (firstRefusal_cons_of_false ?_ ..).trans ((firstRefusal_cons_of_false ?_ ..).trans (counted_ok hfree hc hevents hcount rest))
  · rw [hyst, hst, hopen]
    rfl
  · rw [happ]
    rfl

theorem leaves_sealFinalise (hopen : regionFinal s 4 = false) {approval : Bytes} (happ : approval.length = 16)
    (hdigest : s.met.digest.length ≤ 48) : Leaves (.sealFinalise t approval true) s fun s' =>
      regionFinal s' 4 = true ∧ s'.met.c = s.met.c + 1 ∧ MailDone s s' := by
  have hopen' : regionFinal (mailTaken true (s.arrive t)) 4 = false :=
    (regionFinal_of_otp (s := s) (mailTaken_otp true (s.arrive t)) 4).trans hopen
  have hdigest' : (mailTaken true (s.arrive t)).met.digest.length ≤ 48 := by
    rw [mailTaken_met]
    exact hdigest
  obtain ⟨hcount, htag, hbit, hpress⟩ := sealFinalised_leaves (s := mailTaken true (s.arrive t)) hopen' happ hdigest'
  have htag' : (mailTaken true (s.arrive t)).met.mailboxTag = s.fld Reg.metMbxReq 0 31 16 := rfl
  have hcount' : (sealFinalised approval (mailTaken true (s.arrive t))).met.c = s.met.c + 1 := by
    rw [hcount, mailTaken_met]
    rfl
  have hconds := sealConds_ok (y := mailTaken true (s.arrive t)) hst hfree hc ⟨rfl, rfl, rfl⟩ hopen' happ []
  rw [List.append_nil] at hconds
  obtain ⟨s', hexec, hmet, hotp, hdone⟩ := leaves_mailbox (exec_sealFinalise_eq (t := t) approval) hr hbusy hauth
    (by rw [hst]; decide) hconds (htag.trans htag') hpress
  refine ⟨s', hexec, ?_, (congrArg Met.c hmet).trans ((answeredMet_c ..).trans hcount'), hdone⟩
  exact regionFinal_of_bit (b := 31) (by rw [otpWord_of_otp hotp]; exact hbit)

omit hr hauth in
/-- What a burn of the seal that failed leaves: INTEGRITY, and the region is not finalised. -/
theorem mailbox_sealFailed {y : State} (hmet : y.met = s.met) (hregs : y.regs = s.regs) (hrefused : sensitiveRefused y = false)
    (hopen : regionFinal y 4 = false) {approval : Bytes} (happ : approval.length = 16) :
    ∃ z, mailbox true (fun s => sealConds approval s ++ [(true, .integrity)]) id y = z ∧ regionFinal z 4 = false ∧
      z.met.c = s.met.c ∧ z.met.rsp = [BitVec.ofNat 32 (s.fld Reg.metMbxReq 0 31 16 + 2 ^ 16 * 0x0A)] := by
  have htaken : (mailTaken true y).met = { s.met with mailboxTag := s.fld Reg.metMbxReq 0 31 16 } := by
    rw [mailTaken_met, hmet, fld_of_regs hregs]
  have hstill : regionFinal (mailTaken true y) 4 = false := by rwa [regionFinal_of_otp (mailTaken_otp true y)]
  have hconds := sealConds_ok (y := mailTaken true y) hst hfree hc
    ⟨(congrArg Met.st htaken :), (congrArg Met.events htaken :), (congrArg Met.c htaken :)⟩ hstill happ [(true, .integrity)]
  have hrefusal := mailbox_refused (sensitive := true) (f := id) (conds := fun s => sealConds approval s ++ [(true, .integrity)])
    (by rw [hmet]; exact hbusy) hrefused (st := .integrity) (by decide)
    ((firstRefusal_present (by rw [hmet, hst]; decide) _).trans hconds)
  refine ⟨_, hrefusal, ?_, ?_, ?_⟩
  · rw [regionFinal_of_otp (mbxAnswer_otp ..)]
    exact hstill
  · rw [mbxAnswer_met, answeredMet_c, htaken]
  · rw [mbxAnswer_met, htaken]
    rfl

omit hr hbusy hst hauth hfree hc in
theorem sensitiveRefused_of {y : State} (hword : otpWord y 128 = otpWord s 128) (hsession : y.sec.session = s.sec.session) :
    sensitiveRefused y = sensitiveRefused s := by
  rw [sensitiveRefused, needsSession, lifeCycle, hword, hsession, sensitiveRefused, needsSession, lifeCycle]

/-- SEAL_FINALISE with a cell that fails. -/
theorem leaves_sealFinalise_failed (hopen : regionFinal s 4 = false) {approval : Bytes} (happ : approval.length = 16)
    (hdigest : s.met.digest.length ≤ 48) : Leaves (.sealFinalise t approval false) s fun s' =>
      regionFinal s' 4 = false ∧ s'.met.c = s.met.c ∧
      s'.met.rsp = [BitVec.ofNat 32 (s.fld Reg.metMbxReq 0 31 16 + 2 ^ 16 * 0x0A)] := by
  have hwords : (sealBytes approval (s.arrive t)).length / 4 ≤ 16 := sealBytes_words (s := s) happ hdigest
  obtain ⟨hmet, hsession, hregs⟩ := burnPart_leaves 144 (sealBytes approval (s.arrive t)) (s.arrive t)
  have hlife : otpWord (burnPart 144 (sealBytes approval (s.arrive t)) (s.arrive t)) 128 = otpWord s 128 :=
    otpWord_burnPart (by omega) (s.arrive t)
  have hlo : otpWord (burnPart 144 (sealBytes approval (s.arrive t)) (s.arrive t)) (240 + 2 * 4) = otpWord s (240 + 2 * 4) :=
    otpWord_burnPart (by omega) (s.arrive t)
  have hhi : otpWord (burnPart 144 (sealBytes approval (s.arrive t)) (s.arrive t)) (241 + 2 * 4) = otpWord s (241 + 2 * 4) :=
    otpWord_burnPart (by omega) (s.arrive t)
  obtain ⟨z, hz, hfinal, hcount, hrsp⟩ := mailbox_sealFailed hbusy hst hfree hc hmet hregs
    ((sensitiveRefused_of hlife hsession).trans hauth) ((regionFinal_of_words hlo hhi).trans hopen) happ
  refine ⟨after t s fun _ => z, (ringCmd_eq_after hr ?_ : execSealFinalise t approval false s = _), ?_, hcount, hrsp⟩
  · have hburns : (!(s.arrive t).met.busy && !sensitiveRefused (s.arrive t) && (s.arrive t).met.st == .broken &&
        !regionFinal (s.arrive t) 4 && approval.length == 16 && !(evtShort (s.arrive t)).1 && !(countFull (s.arrive t)).1) =
        true := by
      rw [show (s.arrive t).met.busy = false from hbusy, show sensitiveRefused (s.arrive t) = false from hauth,
        show (s.arrive t).met.st = .broken from hst, show regionFinal (s.arrive t) 4 = false from hopen, happ,
        show (evtShort (s.arrive t)).1 = false from decide_eq_false (Nat.not_lt.mpr hfree),
        show (countFull (s.arrive t)).1 = false from decide_eq_false (Nat.not_le.mpr hc)]
      rfl
    refine (if_neg (by decide)).trans ?_
    rw [hburns, if_pos rfl]
    exact hz
  · exact (regionFinal_of_otp (s := z) rfl 4).trans hfinal

omit hst hfree hc in
/-- SEAL_FINALISE in a state where the region is finalised. -/
theorem leaves_sealFinalise_of_final (hbroken : s.met.st = .broken) (hfinal : regionFinal s 4 = true) (approval : Bytes)
    (ok : Bool) : Leaves (.sealFinalise t approval ok) s fun s' => s'.otp = s.otp ∧
      s'.met.rsp = [BitVec.ofNat 32 (s.fld Reg.metMbxReq 0 31 16 + 2 ^ 16 * 0x03)] := by
  have hfirst : ((mailTaken true (s.arrive t)).met.st != .broken || regionFinal (mailTaken true (s.arrive t)) 4) = true := by
    rw [regionFinal_of_otp (s := s) (mailTaken_otp true (s.arrive t)), hfinal, Bool.or_true]
  have hpresent : (s.arrive t).met.st ≠ .absent := by
    rw [show (s.arrive t).met.st = .broken from hbroken]
    decide
  refine ⟨after t s fun s => mbxAnswer .badState (mailTaken true s), ?_, mailTaken_otp true (s.arrive t), rfl⟩
  cases ok with
  | true =>
    exact exec_mailbox_refused (exec_sealFinalise_eq approval) hr hbusy hauth (by decide)
      ((firstRefusal_present hpresent _).trans (firstRefusal_cons_of_true hfirst ..))
  | false =>
    refine (ringCmd_eq_after hr ?_ : execSealFinalise t approval false s = _)
    have hkeeps : ¬(!(s.arrive t).met.busy && !sensitiveRefused (s.arrive t) && (s.arrive t).met.st == .broken &&
        !regionFinal (s.arrive t) 4 && approval.length == 16 && !(evtShort (s.arrive t)).1 && !(countFull (s.arrive t)).1) =
        true := by
      rw [show regionFinal (s.arrive t) 4 = true from hfinal]
      simp only [Bool.not_true, Bool.and_false, Bool.false_and]
      decide
    refine (if_neg (by decide)).trans ?_
    rw [if_neg hkeeps]
    exact mailbox_refused (sensitive := true) (s := s.arrive t) hbusy hauth (by decide)
      ((firstRefusal_present hpresent _).trans (firstRefusal_cons_of_true hfirst ..))

/-! ### RECONCILE -/

omit hr hbusy hst hauth hfree hc in
/-- One event on a counter that stood at a multiple of 16 burns nothing. -/
theorem countEvent_recounted (b : Nat) (s : State) :
    (countEvent (s.modMet fun m => { m with c := 16 * b })).met = { s.met with c := 16 * b + 1 } ∧
      (countEvent (s.modMet fun m => { m with c := 16 * b })).otp = s.otp ∧
      KeepsPress s (countEvent (s.modMet fun m => { m with c := 16 * b })) := by
  have hcount : (s.modMet fun m => { m with c := 16 * b }).met.c = 16 * b := rfl
  refine ⟨met_countEvent .., otp_countEvent_of_not ?_, (keepsPress_modMet ..).trans (keepsPress_countEvent _)⟩
  rw [hcount]
  omega

omit hr hbusy hst hauth hfree hc in
/-- RECONCILE's effect: the counter stands one above the fuses, and the state is open again. -/
theorem reconciled_leaves (s : State) : (reconciled s).met.c = 16 * counterBits s + 1 ∧ (reconciled s).met.st = openState s ∧
    (reconciled s).met.cause = .none ∧ (reconciled s).met.mailboxTag = s.met.mailboxTag ∧ (reconciled s).otp = s.otp ∧
    KeepsPress s (reconciled s) := by
  obtain ⟨hmet, hotp, hpress⟩ := countEvent_recounted (counterBits s) s
  have hopen : openState (countEvent (s.modMet fun m => { m with c := 16 * counterBits s })) = openState s :=
    openState_of hotp (congrArg Met.sealPin hmet :)
  unfold reconciled
  generalize countEvent (s.modMet fun m => { m with c := 16 * counterBits s }) = y at hmet hotp hopen hpress
  obtain ⟨⟨events, heff⟩, hotp', -, -⟩ := metEvent_leaves 5 [(s.met.c : Int)]
    (y.modMet fun m => { m with st := openState y, cause := .none })
  refine ⟨?_, ?_, ?_, ?_, hotp'.trans hotp, hpress.trans ((keepsPress_modMet ..).trans
    (keepsPress_metEvent ..))⟩
  · rw [heff]
    exact (congrArg Met.c hmet :)
  · rw [heff]
    exact hopen
  · rw [heff]
    rfl
  · rw [heff]
    exact (congrArg Met.mailboxTag hmet :)

theorem leaves_reconcile (hbits : 16 * counterBits s < 8192) : Leaves (.reconcile t) s fun s' =>
    s'.met.c = 16 * counterBits s + 1 ∧ s'.met.st = openState s ∧ s'.met.cause = .none ∧ s'.otp = s.otp ∧ MailDone s s' := by
  have hbits' : counterBits (mailTaken true (s.arrive t)) = counterBits s := counterBits_of_otp (mailTaken_otp true (s.arrive t))
  have hopen' : openState (mailTaken true (s.arrive t)) = openState s :=
    openState_of (mailTaken_otp true (s.arrive t)) (congrArg Met.sealPin (mailTaken_met true (s.arrive t)) :)
  obtain ⟨hcount, hopen, hcause, htag, hotp, hpress⟩ := reconciled_leaves (mailTaken true (s.arrive t))
  have hconds : firstRefusal [(!reconcilable (mailTaken true (s.arrive t)), .badState), evtShort (mailTaken true (s.arrive t)),
      countFull (mailTaken true (s.arrive t)), (decide (8192 ≤ 16 * counterBits (mailTaken true (s.arrive t))), .sealed)] = .ok := by
    refine (firstRefusal_cons_of_false ?_ ..).trans ((counted_ok hfree hc rfl rfl _).trans
      (firstRefusal_cons_of_false (decide_eq_false ?_) ..))
    · rw [reconcilable, metSt_mailTaken, show (s.arrive t).met.st = .broken from hst]
      rfl
    · rw [hbits']
      exact Nat.not_le.mpr hbits
  obtain ⟨s', hexec, hmet, hotp', hdone⟩ := leaves_mailbox (exec_reconcile_eq (t := t)) hr hbusy hauth (by rw [hst]; decide)
    hconds htag hpress
  refine ⟨s', hexec, ?_, ?_, ?_, hotp'.trans (hotp.trans (mailTaken_otp true (s.arrive t))), hdone⟩
  · rw [hmet, answeredMet_c, hcount, hbits']
  · rw [hmet, answeredMet_st, hopen, hopen']
  · rw [hmet, answeredMet_cause, hcause]

end

/-! ## Faults of the partition's core and clock -/

section
variable {t : Nat} {s : State}

/-- What holds of an effect's state, named once, holds of what the command leaves. -/
theorem leaves_of_effect {i : Instr} {f : State → State} {P : State → Prop} (hexec : exec i s = .next (after t s f))
    (h : ∀ y, y = f (s.arrive t) → P (after t s fun _ => y)) : Leaves i s P :=
  ⟨_, hexec.trans (next_after_congr (g := fun _ => f (s.arrive t)) rfl), h _ rfl⟩

theorem exec_lockstepMismatch (h : s.met.st ≠ .absent) : exec (.lockstepMismatch t) s =
    .next (after t s fun s => lockPartition .lockstep (settleAll (voidSealed s))) := by
  refine (run_eq_after ?_ : execLockstepMismatch t s = _)
  exact if_neg (show ¬(s.arrive t).met.st = .absent from h)

theorem leaves_lockstepMismatch (h : s.met.st ≠ .absent) : Leaves (.lockstepMismatch t) s fun s' => s'.met.st = .locked ∧
    (s'.met.cause = .lockstep ∨ s'.met.cause = .clock) := by
  have hst : (settleAll (voidSealed (s.arrive t))).met.st ≠ .absent := by
    rw [metSt_settleAll, metSt_voidSealed]
    exact h
  refine leaves_of_effect (exec_lockstepMismatch h) fun y hy => ?_
  have hlocked := (lockPartition_leaves .lockstep hst).1
  have hcause := lockPartition_lockstep hst
  rw [← hy] at hlocked hcause
  exact ⟨hlocked, hcause⟩

theorem exec_clkMetDeviation (h : s.met.st ≠ .absent) (permille : Nat) : exec (.clkMetDeviation t permille) s =
    .next (after t s fun s => if 50 < permille then lockPartition .clock (s.modLsi fun l => { l with metOk := decide (permille ≤ 50) })
      else s.modLsi fun l => { l with metOk := decide (permille ≤ 50) }) :=
  (run_eq_after (if_neg (show ¬(s.arrive t).met.st = .absent from h)) : execClkMetDeviation t permille s = _)

theorem exec_clkMetDeviation_of_near (h : s.met.st ≠ .absent) {permille : Nat} (hnear : permille ≤ 50) :
    exec (.clkMetDeviation t permille) s = .next (after t s fun s => s.modLsi fun l => { l with metOk := true }) := by
  refine (exec_clkMetDeviation h permille).trans (next_after_congr ?_)
  rw [if_neg (Nat.not_lt.mpr hnear), decide_eq_true hnear]

theorem leaves_clkMetDeviation_of_far (h : s.met.st ≠ .absent) {permille : Nat} (hfar : 50 < permille) :
    Leaves (.clkMetDeviation t permille) s fun s' => s'.met.st = .locked ∧ s'.lsi.metOk = false ∧ SamePrint s s' ∧ SameMotion s s' := by
  obtain ⟨hlocked, -, hlsi, hpress⟩ := lockPartition_leaves .clock (s := (s.arrive t).modLsi fun l => { l with metOk := false }) h
  refine ⟨_, (exec_clkMetDeviation h permille).trans (next_after_congr
    (g := fun s => lockPartition .clock (s.modLsi fun l => { l with metOk := false })) ?_), hlocked, congrArg Lsi.metOk hlsi,
    hpress.print, hpress.motion⟩
  rw [if_pos hfar, decide_eq_false (Nat.not_le.mpr hfar)]

theorem exec_of_absent (h : s.met.st = .absent) (permille : Nat) : exec (.lockstepMismatch t) s = .next (after t s id) ∧
    exec (.clkMetDeviation t permille) s = .next (after t s id) :=
  ⟨(run_eq_after (if_pos (show (s.arrive t).met.st = .absent from h)) : execLockstepMismatch t s = _),
    (run_eq_after (if_pos (show (s.arrive t).met.st = .absent from h)) : execClkMetDeviation t permille s = _)⟩

theorem leaves_metSealNEdge {high : Bool} {heldNs : Nat} (hheld : 10000000 ≤ heldNs) (hmoved : high ≠ s.met.sealPin)
    (h : s.met.st ≠ .absent) : Leaves (.metSealNEdge t high heldNs) s fun s' =>
      s'.met.sealPin = high ∧ s'.met.anum = s.met.anum + 1 ∧
      (s.met.st ≠ .starting → s.met.st ≠ .locked → s'.met.st = (if high then (if regionFinal s 4 then .sealedSt else .unsealed) else .broken)) ∧
      (s.met.st = .starting ∨ s.met.st = .locked → s'.met.st = s.met.st) ∧ s'.otp = s.otp ∧ SamePrint s s' ∧ SameMotion s s' := by
  obtain ⟨hpin, hanum, hst, hotp, hpress⟩ := sealMoved_leaves (high := high) (s := s.arrive t) h
  refine ⟨_, exec_metSealNEdge hheld hmoved, hpin, hanum, fun hstart hlock => ?_, fun hkept => ?_, hotp, hpress.print, hpress.motion⟩
  · refine hst.trans ((if_neg (not_or.mpr ⟨hstart, hlock⟩)).trans ?_)
    cases high <;> rfl
  · exact hst.trans (if_pos hkept)

end
end Sys2Proof.Machine

namespace Sys2Proof.Machine

open Sys2Proof.Claim

/-- Settles O51: the start check and the faults decide the partition's state; a mailbox command is answered by the first of its
conditions, and otherwise leaves its effect and its event record. -/
theorem sealedPartition : Obligations.SealedPartition := by
  unfold Obligations.SealedPartition
  intro t k permille heldNs ctx anum block index high loss ok es rec approval s bits ready done answers
  refine ⟨fun h => ⟨fun hlo hhi => ?_, fun hoff => ?_, ?_⟩, fun h => exec_metStartupCheck_of_started h ok k,
    leaves_lockstepMismatch, fun h => exec_of_absent h permille, fun h => exec_clkMetDeviation_of_near h,
    fun h => leaves_clkMetDeviation_of_far h,
    exec_metSealNEdge_of_still, leaves_metSealNEdge, fun hr hbusy => ?_, fun ⟨hr, hbusy⟩ h => ?_, fun ⟨hr, hbusy⟩ hno c hc => ?_,
    fun ⟨hr, hbusy⟩ hst h => leaves_priceSet hr hbusy hst h, fun ⟨hr, hbusy⟩ hst h => exec_priceSet_range hr hbusy hst h,
    fun ⟨hr, hbusy⟩ hst hlo hhi hprice hroom hfull => exec_priceSet_busy hr hbusy hst hlo hhi hprice hroom hfull,
    fun ⟨hr, hbusy⟩ hst h => leaves_laneMap hr hbusy hst h, fun ⟨hr, hbusy⟩ hst => leaves_auditRelease hr hbusy hst anum loss,
    fun ⟨hr, hbusy⟩ hst hauth hruns hfree hc => ⟨fun hok => leaves_paramWrite hr hbusy hst hauth hfree hc hruns hok,
      fun hopen happ hdigest => ⟨leaves_sealFinalise hr hbusy hst hauth hfree hc hopen happ hdigest,
        leaves_sealFinalise_failed hr hbusy hst hauth hfree hc hopen happ hdigest⟩,
      fun hfinal b => leaves_sealFinalise_of_final hr hbusy hauth hst hfinal approval b,
      fun hbits => leaves_reconcile hr hbusy hst hauth hfree hc hbits⟩⟩
  · obtain ⟨hcount, hst, hanum, hpress⟩ := startChecked_agreed (s := s.arrive t) hlo hhi
    refine leaves_of_effect (exec_metStartupCheck h true k) fun y hy => ?_
    rw [← hy] at hcount hst hanum hpress
    exact ⟨hcount, hst, hanum, hpress.print, hpress.motion⟩
  · obtain ⟨hst, hcause, hlatch, hotp, hpress⟩ := startChecked_disagreed (s := s.arrive t) h hoff
    refine leaves_of_effect (exec_metStartupCheck h true k) fun y hy => ?_
    rw [← hy] at hst hcause hlatch hotp hpress
    exact ⟨hst, hcause, hlatch, hotp, hpress.print, hpress.motion⟩
  · obtain ⟨hst, hcause, hotp, hpress⟩ := startChecked_bad (s := s.arrive t) h k
    refine leaves_of_effect (exec_metStartupCheck h false k) fun y hy => ?_
    rw [← hy] at hst hcause hotp hpress
    exact ⟨hst, hcause, hotp, hpress.print, hpress.motion⟩
  · exact ⟨exec_mailbox_of_busy (exec_priceSet_eq es) hr hbusy, exec_mailbox_of_busy (exec_laneMap_eq ctx es) hr hbusy,
      exec_mailbox_of_busy (exec_auditRelease_eq anum loss) hr hbusy,
      exec_mailbox_of_busy (exec_paramWrite_eq block index rec) hr hbusy,
      exec_mailbox_of_busy (exec_sealFinalise_eq approval) hr hbusy, exec_mailbox_of_busy exec_reconcile_eq hr hbusy,
      exec_mailbox_of_busy (exec_channelReset_eq k) hr hbusy⟩
  · exact ⟨exec_mailbox_absent (exec_priceSet_eq es) hr hbusy rfl h, exec_mailbox_absent (exec_laneMap_eq ctx es) hr hbusy rfl h,
      exec_mailbox_absent (exec_auditRelease_eq anum loss) hr hbusy rfl h,
      exec_mailbox_absent (exec_channelReset_eq k) hr hbusy rfl h⟩
  · rcases hc with rfl | rfl | rfl
    · exact exec_mailbox_unauthorised hr hbusy (exec_paramWrite_eq block index rec) hno
    · exact exec_mailbox_unauthorised hr hbusy (exec_sealFinalise_eq approval) hno
    · exact exec_mailbox_unauthorised hr hbusy exec_reconcile_eq hno

end Sys2Proof.Machine
end

section
/-! What a completion and a start leave of the security core, and words of OTP as the life cycle burns them. -/
namespace Sys2Proof.Machine

open Sys2Proof.Claim

/-! ## A completion -/

/-- A completion changes of the security core its session alone: closed it stays closed, and it closes only with the ring. -/
theorem complete_sec (id : RingId) (st : Status) (r : Nat) (s : State) :
    ∃ x, (complete id st r s).sec = { s.sec with session := x } ∧ (s.sec.session = none → x = none) ∧
      ((s.ring id).stopping = false → ∀ z, s.sec.session = some z → ∃ z', x = some z' ∧ z'.num = z.num) := by
  have htouch : ∀ (c : Option Running) (y : State), ∃ x, (touchSession c y).sec = { y.sec with session := x } ∧
      (y.sec.session = none → x = none) ∧ ∀ z, y.sec.session = some z → ∃ z', x = some z' ∧ z'.num = z.num := fun c y => by
    unfold touchSession
    split
    · exact ⟨_, rfl, fun h => by rw [h]; rfl, fun z h => ⟨_, congrArg (Option.map _) h, rfl⟩⟩
    · exact ⟨_, rfl, fun h => h, fun z h => ⟨z, h, rfl⟩⟩
  unfold complete
  extract_lets ring x sec y z ringZ
  split
  · exact ⟨s.sec.session, by rw [State.setRing_sec], fun h => h, fun _ z h => ⟨z, h, rfl⟩⟩
  · have hx : x.sec = s.sec := State.setRing_sec ..
    have hy : ∃ q, y.sec = { s.sec with session := q } ∧ (s.sec.session = none → q = none) ∧
        (ring.stopping = false → q = s.sec.session) := by
      simp only [y]
      split
      next hstop =>
        refine ⟨none, by rw [← hx], fun _ => rfl, fun hno => ?_⟩
        rw [hno] at hstop
        exact absurd hstop (by simp)
      next => exact ⟨s.sec.session, by rw [hx], fun h => h, fun _ => rfl⟩
    have hz : ∃ q, z.sec = { s.sec with session := q } ∧ (s.sec.session = none → q = none) ∧
        (ring.stopping = false → ∀ w, s.sec.session = some w → ∃ w', q = some w' ∧ w'.num = w.num) := by
      obtain ⟨q, hq, hnone, hsome⟩ := hy
      have hysession : y.sec.session = q := congrArg Sec.session hq
      simp only [z]
      split
      · obtain ⟨q', hq', hnone', hsome'⟩ := htouch ring.running y
        refine ⟨q', by rw [hq', hq], fun h => hnone' (hysession.trans (hnone h)), fun hstop w hw => hsome' w ?_⟩
        rw [hysession, hsome hstop, hw]
      · exact ⟨q, hq, hnone, fun hstop w hw => ⟨w, (hsome hstop).trans hw, rfl⟩⟩
    obtain ⟨q, hq, hnone, hsome⟩ := hz
    simp only []
    split
    · exact ⟨q, by rw [State.setRing_sec, hq], hnone, hsome⟩
    · exact ⟨q, by rw [writeCompletion_sec, hq], hnone, hsome⟩

theorem session_complete_of_none {s : State} (h : s.sec.session = none) (id : RingId) (st : Status) (r : Nat) :
    (complete id st r s).sec.session = none := by
  obtain ⟨x, hx, hnone, -⟩ := complete_sec id st r s
  rw [hx]
  exact hnone h

theorem keepsPress_complete (id : RingId) (st : Status) (r : Nat) (s : State) : KeepsPress s (complete id st r s) :=
  ⟨by simp [SamePrint], complete_sameMotion ..⟩

/-- What has left the block stays ahead of a completion. -/
theorem out_complete (id : RingId) (st : Status) (r : Nat) (s : State) : s.out <+: (complete id st r s).out := by
  unfold complete
  extract_lets ring x sec y z ringZ
  split
  · rw [State.setRing_out]
  · have hx : x.out = s.out := State.setRing_out ..
    have hy : y.out = s.out := by
      simp only [y]
      split
      · exact hx
      · exact hx
    have hz : z.out = s.out := by
      simp only [z, touchSession]
      split_ifs
      · exact hy
      · exact hy
      · exact hy
    rw [← hz]
    simp only []
    split
    · rw [State.setRing_out]
    · unfold writeCompletion
      extract_lets q w next v
      have hv : z.out <+: v.out := by
        rw [show v.out = w.out from State.setRing_out ..]
        exact List.prefix_append ..
      refine hv.trans ?_
      split_ifs
      · exact List.prefix_rfl
      · exact out_msix ..

/-! ## A start keeps the session closed -/

/-- Of the security core a start that goes on writes what it has loaded and what it has reported; the session is not one of
them. -/
def State.session (s : State) : Option Session := s.sec.session

theorem session_of_sansReports {s s' : State} (h : s'.sansReports = s.sansReports) : s'.session = s.session :=
  eq_of_sansReports h (g := State.session) fun _ => rfl

theorem session_modDev (f : Dev → Dev) (s : State) : (s.modDev f).session = s.session := rfl

theorem session_modFw (f : Upd → Upd) (s : State) : (s.modFw f).session = s.session := rfl

theorem session_modPlane (p : Fin 8) (f : PlaneSt → PlaneSt) (s : State) : (s.modPlane p f).session = s.session := rfl

theorem session_wr (r : RegSpec) (i : Nat) (v : Word) (s : State) : (s.wr r i v).session = s.session := rfl

theorem session_withNzm (n : Nzm) (s : State) : State.session { s with nzm := n } = s.session := rfl

theorem session_enterRecovery (stage reason detail : Nat) (s : State) :
    (enterRecovery stage reason detail s).session = s.session := session_modDev ..

theorem session_latchRegs (p : Fin 8) (s : State) : (latchRegs p s).session = s.session := session_modPlane ..

theorem session_deriveSlots (s : State) : (deriveSlots s).session = s.session := by
  unfold deriveSlots
  split
  · exact foldl_leaves (g := State.session) (fun s e => by rfl) _ s
  · rfl

theorem session_startWipe (ok : Bool) (s : State) : (startWipe ok s).session = s.session := by
  unfold startWipe
  extract_lets y
  split
  · exact session_deriveSlots y
  · exact (session_of_sansReports (sansReports_alarm .memWipeFail noInst _)).trans rfl

theorem session_switchRoles (s : State) : (switchRoles s).session = s.session := by
  unfold switchRoles
  split_ifs
  · rfl
  · rfl
  · rfl

theorem session_chooseFwi {env : BootEnv} {s s' : State} (h : chooseFwi env s = some s') : s'.session = s.session := by
  rw [← session_switchRoles s]
  unfold chooseFwi at h
  simp only [] at h
  split at h
  · split at h
    · split at h
      · cases h
        rfl
      · cases h
    · cases h
      rfl
  · split at h
    · cases h
      rfl
    · split at h
      · cases h
        rfl
      · cases h

theorem session_parkPins (s : State) : (parkPins s).session = s.session := by
  unfold parkPins
  exact (foldl_leaves (g := State.session) (fun s m => by rfl) _ _).trans rfl

theorem session_applyPins (pins : List PinRec) (s : State) : (applyPins pins s).session = s.session := by
  unfold applyPins
  exact (foldl_leaves (g := State.session) (fun s m => by rfl) _ _).trans rfl

theorem session_scanPitches (t : StructTables) (s : State) : (scanPitches t s).session = s.session := by
  unfold scanPitches
  refine foldl_leaves (g := State.session) (fun s e => ?_) _ s
  split
  · rfl
  · rfl

theorem session_calApply (r : CalRecord) (s : State) : (calApply r s).session = s.session := by
  unfold calApply
  extract_lets v
  split
  · rfl
  · rfl
  · rfl

theorem session_calActivate (t : StructTables) (s : State) : (calActivate t s).session = s.session := by
  unfold calActivate
  extract_lets y z
  refine (foldl_leaves (g := State.session) (fun s r => ?_) _ z).trans rfl
  split
  · rfl
  · split
    · exact session_calApply ..
    · exact session_of_sansReports (sansReports_diag ..)

theorem session_activatePlanes (t : StructTables) (s : State) : (activatePlanes t s).session = s.session := by
  unfold activatePlanes
  extract_lets x y z
  have hx : x.session = s.session := foldl_leaves (g := State.session) (fun s p => by exact session_modPlane ..) _ s
  have hz : z.session = y.session := foldl_leaves (g := State.session) (fun s p => by exact session_latchRegs ..) _ y
  have hy : y.session = x.session := (session_wr ..).trans (session_withNzm ..)
  refine (foldl_leaves (g := State.session) (fun s p => ?_) _ z).trans (hz.trans (hy.trans hx))
  split
  · exact session_modPlane ..
  · rfl

theorem session_loseLock (s : State) : (loseLock s).session = s.session := by
  unfold loseLock when
  extract_lets y
  split
  · split
    · exact (session_of_sansReports (sansReports_alarm ..)).trans rfl
    · rfl
  · rfl

theorem session_dropStepperLock (n : Nat) (s : State) : (dropStepperLock n s).session = s.session := by
  unfold dropStepperLock
  split
  · exact session_loseLock s
  · rfl

theorem session_electRoot (s : State) : (electRoot s).session = s.session := by
  unfold electRoot ceaseRoot
  extract_lets b y
  split
  · rfl
  · split
    · rfl
    · split
      · exact (session_of_sansReports (sansReports_alarm .xlkTimeLost noInst _)).trans rfl
      · rfl

theorem session_installStructure (t : StructTables) (s : State) : (installStructure t s).session = s.session := by
  unfold installStructure
  extract_lets str installed mlk lane linked waved applied ins scanned pac paced planed locked gov governed port elected d
  have happlied : applied.session = waved.session := (session_calActivate ..).trans ((session_applyPins ..).trans rfl)
  have hscanned : scanned.session = applied.session := session_scanPitches ..
  have hplaned : planed.session = paced.session := session_activatePlanes ..
  have hlocked : locked.session = planed.session :=
    foldl_leaves (g := State.session) (fun s n => by exact session_dropStepperLock ..) _ planed
  have helected : elected.session = governed.session := session_electRoot ..
  exact helected.trans (hlocked.trans (hplaned.trans (hscanned.trans happlied)))

theorem session_startActivation (row : CheckRow) (ok : Bool) (s : State) : (startActivation row ok s).session = s.session := by
  unfold startActivation
  split
  · exact session_installStructure ..
  · exact session_of_sansReports (sansReports_alarm ..)

theorem session_calReports (repaired lost : List (Nat × Nat)) (s : State) : (calReports repaired lost s).session = s.session := by
  unfold calReports
  extract_lets y
  have hy : y.session = s.session :=
    foldl_leaves (g := State.session) (fun s x => session_of_sansReports (sansReports_diag ..)) _ s
  refine (foldl_leaves (g := State.session) (fun s x => ?_) _ y).trans hy
  exact (session_of_sansReports (sansReports_alarmArgs ..)).trans rfl

theorem session_startReports (env : BootEnv) (s : State) : (startReports env s).session = s.session := by
  unfold startReports
  extract_lets x y
  have hx : x.session = s.session := by
    simp only [x]
    split
    · exact (session_of_sansReports (sansReports_alarm ..)).trans rfl
    · rfl
  have hy : y.session = x.session := by
    simp only [y]
    split
    · exact session_of_sansReports (sansReports_alarmArgs ..)
    · rfl
  exact (session_calReports ..).trans (hy.trans hx)

theorem session_reachConfigure (env : BootEnv) (s : State) : (reachConfigure env s).session = s.session := by
  rw [reachConfigure_eq, session_startActivation, session_of_sansReports (sansReports_admitWaiting _), session_startReports,
    session_electRoot]
  unfold inConfigure reachStage7 enterConfigure
  exact (session_modFw ..).trans ((session_modDev ..).trans ((session_parkPins _).trans (session_modDev ..)))

/-- The rest of a start once the image table is read. -/
theorem session_bootRest (env : BootEnv) (s : State) :
    (match (if env.flashTableOk then chooseFwi env s else none) with
      | none => enterRecovery 5 3 0 s
      | some s =>
        let s := s.modDev fun d => { d with stage := 6, watchdogAt := some (s.now + 5 * sec8) }
        if env.reachesStep7 then reachConfigure env (firmwareUp env s) else s).session = s.session := by
  cases hf : (if env.flashTableOk then chooseFwi env s else none) with
  | none => exact session_enterRecovery ..
  | some v =>
    have hv : v.session = s.session := by
      split at hf
      · exact session_chooseFwi hf
      · cases hf
    simp only []
    split
    · exact (session_reachConfigure ..).trans hv
    · exact hv

theorem session_boot (env : BootEnv) (s : State) : (boot env s).session = s.session := by
  unfold boot
  extract_lets y z
  split
  · exact session_enterRecovery ..
  · split
    · exact session_enterRecovery ..
    · split
      · exact session_enterRecovery ..
      · exact (session_bootRest ..).trans (session_startWipe ..)

/-- A warm start leaves no session. -/
theorem session_warmStart (bit : Nat) (env : BootEnv) (s : State) : (warmStart bit env s).session = none := by
  unfold warmStart
  extract_lets x y
  have hy : y.session = none := by
    simp only [y]
    split
    · rfl
    · rfl
  exact (session_boot ..).trans hy

end Sys2Proof.Machine
end

section
/-! Sessions and the life cycle (R384 to R390), and obligation O47. -/
namespace Sys2Proof.Machine

open Sys2Proof.Claim

/-! ## SESSION_OPEN -/

theorem freshBytes_eq (n : Nat) (s : State) : (freshBytes n s).1.length = n ∧ ∃ free, (freshBytes n s).2 = { s with free := free } := by
  induction n generalizing s with
  | zero => exact ⟨rfl, s.free, rfl⟩
  | succ n ih =>
    obtain ⟨hlen, free, heq⟩ := ih s.draw.2
    exact ⟨congrArg (· + 1) hlen, free, heq⟩

theorem leBytes_length (n v : Nat) : (leBytes n v).length = n := by
  rw [leBytes, List.length_map, List.length_range]

/-- The challenge record's 64 bytes. -/
def challengeRecord (s : State) (fresh : Bytes) : Bytes :=
  [0x53, 0x43, 0x48, 0x31] ++ leBytes 4 s.sec.chalNext ++ leBytes 8 ((otpWord s 0).toNat + 2 ^ 32 * (otpWord s 1).toNat) ++
    leBytes 1 (lifeCycle s) ++ List.replicate 15 0 ++ fresh

theorem length_challengeRecord (s : State) {fresh : Bytes} (h : fresh.length = 32) : (challengeRecord s fresh).length = 64 := by
  simp only [challengeRecord, List.length_append, leBytes_length, List.length_replicate, h]
  rfl

/-- A challenge record that goes to the host, and stands outstanding. -/
def challengeSent (addr : Nat) (rec : Bytes) (s : State) : State :=
  (s.modSec fun x => { x with chalNext := (s.sec.chalNext + 1) % 2 ^ 32, challenge := some ⟨s.sec.chalNext, s.now, rec⟩ }).emit
    (.hostWrite addr rec)

theorem issueChallenge_eq (addr : Nat) (s : State) : ∃ (rec : Bytes) (free : Nat), rec.length = 64 ∧
    issueChallenge addr s = complete .supervisor .ok s.sec.chalNext (challengeSent addr rec { s with free := free }) := by
  obtain ⟨hlen, free, heq⟩ := freshBytes_eq 32 s
  refine ⟨challengeRecord { s with free := free } (freshBytes 32 s).1, free, length_challengeRecord _ hlen, ?_⟩
  have hissue : ∀ u : State, u = { s with free := free } →
      complete .supervisor .ok u.sec.chalNext (challengeSent addr (challengeRecord u (freshBytes 32 s).1) u) =
        complete .supervisor .ok s.sec.chalNext (challengeSent addr (challengeRecord { s with free := free } (freshBytes 32 s).1)
          { s with free := free }) := by
    rintro _ rfl
    rfl
  exact hissue _ heq

/-- A completed command of the supervisor ring, and what it leaves of the security core. -/
theorem supervised_leaves (st : Status) (r : Nat) (s : State) :
    (complete .supervisor st r s).supRing.running = none ∧ (complete .supervisor st r s).sec.challenge = s.sec.challenge ∧
      (complete .supervisor st r s).sec.chalNext = s.sec.chalNext ∧ (complete .supervisor st r s).sec.tamper = s.sec.tamper ∧
      (complete .supervisor st r s).sec.timed = s.sec.timed := by
  obtain ⟨x, hx, -, -⟩ := complete_sec .supervisor st r s
  rw [hx]
  exact ⟨complete_supRing_running .., rfl, rfl, rfl, rfl⟩

section
variable {t : Nat} {s : State} (hr : s.ringsRun = true)
include hr

theorem leaves_sessionOpenChallenge (hready : s.sec.trngReady = true) (addr : Nat) :
    Leaves (.sessionOpenChallenge t addr) s fun s' => ∃ rec l, rec.length = 64 ∧
      s'.sec.challenge = some ⟨s.sec.chalNext, max s.now t, rec⟩ ∧ s'.sec.chalNext = (s.sec.chalNext + 1) % 2 ^ 32 ∧
      s'.out = .hostWrite addr rec :: l ∧ s'.supRing.running = none ∧ s'.sec.tamper = s.sec.tamper ∧ SamePrint s s' ∧
      SameMotion s s' := by
  obtain ⟨rec, free, hlen, hissue⟩ := issueChallenge_eq addr (s.arrive t)
  have hexec : exec (.sessionOpenChallenge t addr) s = .next (after t s fun s => issueChallenge addr s) :=
    (ringCmd_eq_after hr (if_pos hready) : execSessionOpenChallenge t addr s = _)
  refine leaves_of_effect hexec fun y hy => ?_
  rw [hissue] at hy
  obtain ⟨hrun, hchal, hnext, htamper, -⟩ :=
    supervised_leaves .ok (s.arrive t).sec.chalNext (challengeSent addr rec { s.arrive t with free := free })
  obtain ⟨l, hout⟩ := out_complete .supervisor .ok (s.arrive t).sec.chalNext
    (challengeSent addr rec { s.arrive t with free := free })
  obtain ⟨hprint, hmotion⟩ := keepsPress_complete .supervisor .ok (s.arrive t).sec.chalNext
    (challengeSent addr rec { s.arrive t with free := free })
  rw [← hy] at hrun hchal hnext htamper hout hprint hmotion
  exact ⟨rec, l, hlen, hchal, hnext, hout.symm, hrun, htamper, hprint, hmotion⟩

theorem exec_sessionOpenChallenge_waiting (hready : s.sec.trngReady = false) (addr : Nat) :
    exec (.sessionOpenChallenge t addr) s = .next (after t s fun s =>
      s.modSec fun z => { z with entropyWait := some (.challenge addr, s.now) }) := by
  refine (ringCmd_eq_after hr ?_ : execSessionOpenChallenge t addr s = _)
  exact if_neg (show ¬(s.arrive t).sec.trngReady = true by rw [show (s.arrive t).sec.trngReady = false from hready]; decide)

omit hr in
/-- A response that opens the session answers the outstanding challenge in time, in a life cycle that takes sessions. -/
theorem of_responseOk {s : State} {chalId : Nat} {x y r g : Bytes} (h : responseOk s chalId x y r g = true) :
    regionFinal s 1 = true ∧ 1 ≤ lifeCycle s ∧ lifeCycle s ≤ 3 ∧
      ∃ c, s.sec.challenge = some c ∧ c.id = chalId ∧ s.now < c.issuedAt + 480000000000 := by
  unfold responseOk at h
  split at h
  next c hc =>
    simp only [Bool.and_eq_true, Bool.or_eq_true, beq_iff_eq, decide_eq_true_eq] at h
    obtain ⟨⟨⟨⟨⟨hid, htime⟩, hfinal⟩, -⟩, -⟩, hlife⟩ := h
    exact ⟨hfinal, by omega, by omega, c, hc, hid, htime⟩
  next => cases h

theorem exec_sessionOpenResponse (chalId : Nat) (x y r g : Bytes) :
    ∃ ok : Bool, exec (.sessionOpenResponse t chalId x y r g) s = .next (after t s fun s => s.modSec fun z =>
        { z with challenge := none, timed := z.timed ++ [(.phase1 ok, s.now)] }) ∧
      (ok = true → regionFinal s 1 = true ∧ 1 ≤ lifeCycle s ∧ lifeCycle s ≤ 3 ∧
        ∃ c, s.sec.challenge = some c ∧ c.id = chalId ∧ max s.now t < c.issuedAt + 480000000000) :=
  ⟨responseOk (s.arrive t) chalId x y r g, (ringCmd_eq_after hr rfl : execSessionOpenResponse t chalId x y r g s = _),
    fun h => of_responseOk (s := s.arrive t) h⟩

/-! ## The session's end -/

theorem leaves_sessionClose : Leaves (.sessionClose t) s fun s' => s'.sec.session = none ∧ s'.supRing.running = none ∧
    s'.otp = s.otp ∧ SamePrint s s' ∧ SameMotion s s' := by
  have hexec : exec (.sessionClose t) s = .next (after t s fun s => complete .supervisor .ok 0 (closeSession s)) :=
    (ringCmd_eq hr : execSessionClose t s = _)
  obtain ⟨x, d, heq, hnone⟩ := closeSession_eq (s.arrive t)
  refine leaves_of_effect hexec fun y hy => ?_
  have hsession := session_complete_of_none (s := closeSession (s.arrive t)) (by rw [heq]; exact hnone) .supervisor .ok 0
  have hrun := complete_supRing_running .ok 0 (closeSession (s.arrive t))
  have hotp : (complete .supervisor .ok 0 (closeSession (s.arrive t))).otp = s.otp := by
    rw [complete_otp, closeSession_otp]
    rfl
  have hclosed : KeepsPress (s.arrive t) (closeSession (s.arrive t)) := by
    rw [heq]
    exact ⟨(KeepsPress.refl s).print, (KeepsPress.refl s).motion⟩
  obtain ⟨hprint, hmotion⟩ := hclosed.trans (keepsPress_complete .supervisor .ok 0 (closeSession (s.arrive t)))
  rw [← hy] at hsession hrun hotp hprint hmotion
  exact ⟨hsession, hrun, hotp, hprint, hmotion⟩

omit hr in
/-- Where no sensitive command runs, closing the session refuses nothing. -/
theorem closeSession_of_quiet (h : sensitiveRuns s = false) : closeSession s = s.modSec fun x => { x with session := none } := by
  have hrun : (s.supRing.running.any fun c => sensitiveOps.contains c.opcode) = false := by
    unfold sensitiveRuns at h
    rw [Bool.or_eq_false_iff, Bool.or_eq_false_iff] at h
    exact h.1.1
  unfold closeSession
  extract_lets cut since y
  have hno : cut = false := by
    unfold cut
    cases hcmd : s.supRing.running with
    | none => exact Bool.and_false _
    | some c =>
      rw [hcmd] at hrun
      exact (congrArg (_ && ·) hrun).trans (Bool.and_false _)
  rw [if_neg (by rw [hno]; decide)]
  simp only [y, hno]
  rfl

omit hr in
theorem exec_sessionIdleTimeout_of_idle {z : Session} (hz : s.sec.session = some z) (hquiet : sensitiveRuns s = false)
    (hidle : z.lastAct + s.fld Reg.secCfg 0 15 0 * 8000000000 ≤ max s.now t) :
    exec (.sessionIdleTimeout t) s = .next (after t s fun s => s.modSec fun q => { q with session := none }) := by
  refine (run_eq_after ?_ : execSessionIdleTimeout t s = _)
  rw [show (s.arrive t).sec.session = some z from hz]
  refine (if_pos ⟨hidle, ?_⟩).trans (closeSession_of_quiet (s := s.arrive t) hquiet)
  rw [show sensitiveRuns (s.arrive t) = false from hquiet]
  rfl

omit hr in
theorem exec_sessionIdleTimeout_of_active {z : Session} (hz : s.sec.session = some z)
    (hearly : max s.now t < z.lastAct + s.fld Reg.secCfg 0 15 0 * 8000000000) :
    exec (.sessionIdleTimeout t) s = .next (after t s id) := by
  refine (run_eq_after ?_ : execSessionIdleTimeout t s = _)
  rw [show (s.arrive t).sec.session = some z from hz]
  exact if_neg fun ⟨hidle, _⟩ => absurd hidle (Nat.not_le.mpr hearly)

/-! ## The completions at 2.000 ms -/

omit hr in
theorem exec_authFailCompletion_of_early (h : ∀ e ∈ s.sec.timed, max s.now t < e.2 + 16000000) :
    exec (.authFailCompletion t) s = .next (after t s id) := by
  have hdue : ∀ e ∈ s.sec.timed, timedDue (s.arrive t) e = false := fun e he => decide_eq_false (Nat.not_le.mpr (h e he))
  have hnone : (s.arrive t).sec.timed.filter (timedDue (s.arrive t)) = [] :=
    List.filter_eq_nil_iff.mpr fun e he => by rw [hdue e he]; decide
  have hall : (s.arrive t).sec.timed.filter (fun e => !timedDue (s.arrive t) e) = s.sec.timed :=
    List.filter_eq_self.mpr fun e he => by rw [hdue e he]; rfl
  refine (run_eq_after ?_ : execAuthFailCompletion t s = _)
  rw [hnone, List.foldl_nil, State.modSec, hall]
  rfl

omit hr in
theorem exec_authFailCompletion_of_one {e : Timed} {a : Nat} (hone : s.sec.timed = [(e, a)]) (hdue : a + 16000000 ≤ max s.now t) :
    exec (.authFailCompletion t) s = .next (after t s fun s => finishTimed e (s.modSec fun z => { z with timed := [] })) := by
  have hd : timedDue (s.arrive t) (e, a) = true := decide_eq_true hdue
  refine (run_eq_after ?_ : execAuthFailCompletion t s = _)
  rw [show (s.arrive t).sec.timed = [(e, a)] from hone, List.filter_cons_of_pos hd, List.filter_nil, List.foldl_cons,
    List.foldl_nil, State.modSec, show (s.arrive t).sec.timed = [(e, a)] from hone,
    List.filter_cons_of_neg (by rw [hd]; decide), List.filter_nil]
  rfl

omit hr in
theorem leaves_authFailCompletion_opened {a : Nat} (hone : s.sec.timed = [(.phase1 true, a)])
    (hdue : a + 16000000 ≤ max s.now t) (hstop : s.supRing.stopping = false) :
    Leaves (.authFailCompletion t) s fun s' => s'.sec.timed = [] ∧
      (∃ z, s'.sec.session = some z ∧ z.num = s.sec.sessions + 1) ∧ s'.supRing.running = none ∧ s'.otp = s.otp ∧
      SamePrint s s' ∧ SameMotion s s' := by
  let opened : State := ((s.arrive t).modSec fun z => { z with timed := [] }).modSec fun x =>
    { x with session := some ⟨s.sec.sessions + 1, (s.arrive t).now⟩, sessions := s.sec.sessions + 1 }
  refine leaves_of_effect (exec_authFailCompletion_of_one hone hdue) fun y hy => ?_
  replace hy : y = complete .supervisor .ok (s.sec.sessions + 1) opened := hy
  obtain ⟨q, hq, -, hsome⟩ := complete_sec .supervisor .ok (s.sec.sessions + 1) opened
  obtain ⟨z, hz, hnum⟩ := hsome hstop ⟨s.sec.sessions + 1, (s.arrive t).now⟩ rfl
  have hrun := complete_supRing_running .ok (s.sec.sessions + 1) opened
  have hotp := complete_otp .supervisor .ok (s.sec.sessions + 1) opened
  obtain ⟨hprint, hmotion⟩ := keepsPress_complete .supervisor .ok (s.sec.sessions + 1) opened
  rw [← hy] at hq hrun hotp hprint hmotion
  exact ⟨(congrArg Sec.timed hq :), ⟨z, ((congrArg Sec.session hq).trans hz :), hnum⟩, hrun, hotp, hprint, hmotion⟩

/-! ## LC_ADVANCE -/

theorem exec_sensitive_refused {i : Instr} {f : State → State} (hexec : exec i s = ringCmd t s (sensitive f))
    (hno : sensitiveRefused s = true) : exec i s = .next (after t s fun s => s.modSec fun z =>
      { z with timed := z.timed ++ [(.refusal, s.now)] }) :=
  hexec.trans (ringCmd_eq_after hr (if_pos hno))

/-- A sensitive command that is admitted, and refused by its own conditions. -/
theorem exec_sensitive_turnedAway {i : Instr} {conds : State → List (Bool × Status)} {f : State → State → State}
    (hexec : exec i s = ringCmd t s (sensitive fun s => admitCmd .supervisor (conds s) (f s) s))
    (hauth : sensitiveRefused s = false) {st : Status} (hst : st ≠ .ok) (h : firstRefusal (conds (used (s.arrive t))) = st) :
    exec i s = .next (after t s fun s => complete .supervisor st 0 (used s)) :=
  hexec.trans (ringCmd_eq_after hr ((sensitive_eq (s := s.arrive t) hauth _).trans (admitCmd_refused _ _ _ h hst)))

theorem exec_sensitive_admitted {i : Instr} {conds : State → List (Bool × Status)} {f : State → State → State}
    (hexec : exec i s = ringCmd t s (sensitive fun s => admitCmd .supervisor (conds s) (f s) s))
    (hauth : sensitiveRefused s = false) (h : firstRefusal (conds (used (s.arrive t))) = .ok) :
    exec i s = .next (after t s fun s => f (used s) (used s)) :=
  hexec.trans (ringCmd_eq_after hr ((sensitive_eq (s := s.arrive t) hauth _).trans (admitCmd_ok _ _ _ h)))

end

/-- The refusals of LC_ADVANCE. -/
def lcConds (target : Nat) (s : State) : List (Bool × Status) :=
  [(s.anyAxisEn || s.anyActive || !lcAllowed s target, .badState)]

/-- LC_ADVANCE's effect. -/
def lcAdvanced (target : Nat) (burn : BurnResult) (env : BootEnv) (_ s : State) : State :=
  let bit := BitVec.ofNat 32 (2 ^ (target - 1))
  let failed := burnFails s 128 bit burn
  let s := burnWord 128 bit burn s
  if failed then (if burn.cut then cutShort s else complete .supervisor .integrity 0 s)
  else
    let s := (wipeSecure (enterLc target s)).modSec fun x => { x with session := none }
    warmStart 2 env (complete .supervisor .ok 0 s)

theorem exec_lcAdvance_eq {t : Nat} {s : State} (target : Nat) (burn : BurnResult) (env : BootEnv) :
    exec (.lcAdvance t target burn env) s = ringCmd t s (sensitive fun s =>
      admitCmd .supervisor (lcConds target s) (lcAdvanced target burn env s) s) := rfl

/-- Entering a state burns words of SECRET alone, and those in SCRAPPED alone. -/
theorem otpWord_enterLc {target w : Nat} (h : w < 96 ∨ 127 < w ∨ target ≠ 4) (s : State) :
    otpWord (enterLc target s) w = otpWord s w := by
  unfold enterLc
  split
  · rfl
  · have hout : ∀ l : List Nat, (∀ i ∈ l, i < 32) → ∀ s : State,
        otpWord (l.foldl (fun s i => otpSet (96 + i) 0xFFFFFFFF s) s) w = otpWord s w := fun l => by
      induction l with
      | nil => exact fun _ _ => rfl
      | cons i l ih =>
        intro hl s
        have hi := hl i (List.mem_cons_self ..)
        rw [List.foldl_cons, ih fun j hj => hl j (List.mem_cons_of_mem _ hj)]
        exact otpWord_otpSet_of_ne (by omega) ..
    exact hout _ (fun i hi => List.mem_range.mp hi) s
  · rfl

/-- A transition of Table 20.3 goes on to a later state. -/
theorem lt_of_lcAllowed {s : State} {target : Nat} (h : lcAllowed s target = true) :
    lifeCycle s < target ∧ 1 ≤ target ∧ target ≤ 4 := by
  unfold lcAllowed at h
  generalize lifeCycle s = n at h ⊢
  split at h
  · decide
  · decide
  · decide
  · decide
  · decide
  · decide
  · cases h

/-- The bit of a later state decides the life cycle. -/
theorem lifeCycle_of_bit {s s' : State} {target : Nat} (hlt : lifeCycle s < target) (hone : 1 ≤ target) (hfour : target ≤ 4)
    (h : ∀ k, (otpWord s' 128).getLsbD k = ((otpWord s 128).getLsbD k || (BitVec.ofNat 32 (2 ^ (target - 1))).getLsbD k)) :
    lifeCycle s' = target := by
  unfold lifeCycle at hlt ⊢
  extract_lets w at hlt
  extract_lets w'
  have hw : ∀ k, w'.getLsbD k = (w.getLsbD k || (BitVec.ofNat 32 (2 ^ (target - 1))).getLsbD k) := h
  clear_value w w'
  rw [hw 0, hw 1, hw 2, hw 3]
  interval_cases target <;> revert hlt <;>
    cases w.getLsbD 3 <;> cases w.getLsbD 2 <;> cases w.getLsbD 1 <;> cases w.getLsbD 0 <;> decide

/-- A burn without a failing cell sets what it is given. -/
theorem getLsbD_burned {s : State} {w : Nat} {value : Word} {b : BurnResult} (hw : w < 96 ∨ 127 < w) (hfail : b.failed = 0) {j : Nat}
    (hj : value.getLsbD j = true) (k : Nat) :
    (otpWord (burnWord w value b s) w).getLsbD k = ((otpWord s w).getLsbD k || value.getLsbD k) := by
  have hbits : burnBits s w value = value &&& ~~~otpWord s w := by rw [burnBits, if_neg (by omega)]
  have hor : otpWord s w ||| (burnBits s w value &&& ~~~b.failed) = otpWord s w ||| value := by
    rw [hbits, hfail]
    ext i hi
    simp only [BitVec.getElem_or, BitVec.getElem_and, BitVec.getElem_not, BitVec.getElem_zero, BitVec.ofNat_eq_ofNat]
    cases (otpWord s w)[i] <;> cases value[i] <;> rfl
  have hne : otpWord s w ||| value ≠ 0 := fun hz => by
    have := congrArg (BitVec.getLsbD · j) hz
    simp [hj] at this
  have hword : otpWord (burnWord w value b s) w = otpWord s w ||| value := by
    rw [otpWord_of_otp (burnWord_otp ..)]
    show (regLookup w (regInsert w (otpWord s w ||| (burnBits s w value &&& ~~~b.failed)) 0 s.otp)).getD 0 = _
    rw [hor, regLookup_regInsert_self hne]
    rfl
  rw [hword, BitVec.getLsbD_or]

theorem burnFails_of_clean {s : State} {w : Nat} {value : Word} {b : BurnResult} (h : b.failed = 0) : burnFails s w value b = false := by
  have hzero : burnBits s w value &&& 0#32 = 0#32 := BitVec.and_zero
  rw [burnFails, h]
  exact bne_eq_false_iff_eq.mpr hzero

section
variable {t : Nat} {s : State} (hr : s.ringsRun = true) {target : Nat} {burn : BurnResult} {env : BootEnv}
variable (hauth : sensitiveRefused s = false)
include hr hauth

theorem exec_lcAdvance_badState (h : s.anyAxisEn = true ∨ s.anyActive = true ∨ lcAllowed s target = false) :
    exec (.lcAdvance t target burn env) s = .next (after t s fun s => complete .supervisor .badState 0 (used s)) := by
  refine exec_sensitive_turnedAway hr (exec_lcAdvance_eq target burn env) hauth (by decide) (firstRefusal_cons_of_true ?_ ..)
  show (s.anyAxisEn || s.anyActive || !lcAllowed s target) = true
  rcases h with h | h | h
  · rw [h, Bool.true_or, Bool.true_or]
  · rw [h, Bool.or_true, Bool.true_or]
  · rw [h, Bool.not_false, Bool.or_true]

theorem leaves_lcAdvance (haxis : s.anyAxisEn = false) (hactive : s.anyActive = false) (hallowed : lcAllowed s target = true)
    (hfail : burn.failed = 0) : Leaves (.lcAdvance t target burn env) s fun s' => lifeCycle s' = target ∧ s'.sec.session = none ∧
      (∀ w, w ≠ 128 → (w < 96 ∨ 127 < w ∨ target ≠ 4) → otpWord s' w = otpWord s w) := by
  have hconds : firstRefusal (lcConds target (used (s.arrive t))) = .ok := by
    refine firstRefusal_cons_of_false ?_ ..
    show (s.anyAxisEn || s.anyActive || !lcAllowed s target) = false
    rw [haxis, hactive, hallowed]
    rfl
  obtain ⟨hlt, hone, hfour⟩ := lt_of_lcAllowed hallowed
  refine leaves_of_effect (exec_sensitive_admitted hr (exec_lcAdvance_eq target burn env) hauth hconds) fun y hy => ?_
  unfold lcAdvanced at hy
  extract_lets bit failed burned entered at hy
  rw [if_neg (by rw [show failed = false from burnFails_of_clean hfail]; decide)] at hy
  have hotp : y.otp = (enterLc target burned).otp := by
    rw [hy, warmStart_otp, complete_otp]
    rfl
  have hsession : y.session = none := by rw [hy, session_warmStart]
  have hword : ∀ w, w ≠ 128 → (w < 96 ∨ 127 < w ∨ target ≠ 4) → otpWord y w = otpWord s w := fun w hne hout => by
    rw [otpWord_of_otp hotp, otpWord_enterLc hout]
    exact (otpWord_burnWord_of_ne hne bit burn (used (s.arrive t))).trans rfl
  have hbit : bit.getLsbD (target - 1) = true := by
    rw [BitVec.getLsbD_ofNat, Nat.testBit_two_pow_self, decide_eq_true (by omega : target - 1 < 32)]
    rfl
  have hlife : lifeCycle y = target := by
    refine lifeCycle_of_bit (s := s) hlt hone hfour fun k => ?_
    rw [otpWord_of_otp hotp, otpWord_enterLc (by omega)]
    exact getLsbD_burned (s := used (s.arrive t)) (by omega) hfail hbit k
  exact ⟨hlife, hsession, hword⟩

end

/-- Settles O47: a response is judged by the outstanding challenge alone; a completion closes or keeps the session, and a start
leaves it closed. -/
theorem sessions : Obligations.Sessions := by
  unfold Obligations.Sessions
  intro t addr chalId target a x y r g burn env s hr
  refine ⟨fun hready => leaves_sessionOpenChallenge hr hready addr, fun hready => exec_sessionOpenChallenge_waiting hr hready addr,
    exec_sessionOpenResponse hr chalId x y r g, leaves_sessionClose hr,
    fun z hz hquiet => ⟨exec_sessionIdleTimeout_of_idle hz hquiet, exec_sessionIdleTimeout_of_active hz⟩,
    exec_authFailCompletion_of_early, fun hdue => ⟨fun hone => exec_authFailCompletion_of_one hone hdue,
      fun hone _ hstop => leaves_authFailCompletion_opened hone hdue hstop⟩,
    exec_sensitive_refused hr (exec_lcAdvance_eq target burn env), exec_lcAdvance_badState hr, leaves_lcAdvance hr⟩

end Sys2Proof.Machine
end

section
/-! What a hold leaves of the secure stores (R54, R400). -/
namespace Sys2Proof.Machine

open Sys2Proof.Claim

/-- The tamper latches, the key slots and the wipe stand, and a session that is closed stays closed. -/
structure VaultKept (s s' : State) : Prop where
  tamper : s'.sec.tamper = s.sec.tamper
  slots : s'.cod.slots = s.cod.slots
  wiping : s'.mem.wiping = s.mem.wiping
  closed : s.sec.session = none → s'.sec.session = none

theorem VaultKept.refl (s : State) : VaultKept s s := ⟨rfl, rfl, rfl, id⟩

theorem VaultKept.trans {s s' s'' : State} (h : VaultKept s s') (h' : VaultKept s' s'') : VaultKept s s'' :=
  ⟨h'.tamper.trans h.tamper, h'.slots.trans h.slots, h'.wiping.trans h.wiping, fun hs => h'.closed (h.closed hs)⟩

theorem vaultKept_of_eq {s s' : State} (h : (s'.sec, s'.cod.slots, s'.mem.wiping) = (s.sec, s.cod.slots, s.mem.wiping)) :
    VaultKept s s' := by
  simp only [Prod.mk.injEq] at h
  obtain ⟨hsec, hslots, hwiping⟩ := h
  exact ⟨by rw [hsec], hslots, hwiping, fun hs => by rw [hsec, hs]⟩

theorem vaultKept_of_sansOutcomes {ctx : Fin 64} {s s' : State} (h : s'.sansOutcomes ctx = s.sansOutcomes ctx) : VaultKept s s' :=
  vaultKept_of_eq (eq_of_sansOutcomes h (g := fun s => (s.sec, s.cod.slots, s.mem.wiping)) fun _ => rfl)

theorem vaultKept_of_sansReports {s s' : State} (h : s'.sansReports = s.sansReports) : VaultKept s s' :=
  vaultKept_of_sansOutcomes (sansOutcomes_of_sansReports h 0)

theorem vaultKept_foldl {α : Type} {f : State → α → State} (h : ∀ s x, VaultKept s (f s x)) (l : List α) (s : State) :
    VaultKept s (l.foldl f s) := by
  induction l generalizing s with
  | nil => exact .refl s
  | cons x l ih => exact (h s x).trans (ih _)

theorem vaultKept_complete (id : RingId) (st : Status) (r : Nat) (s : State) : VaultKept s (complete id st r s) := by
  obtain ⟨x, hx, hnone, -⟩ := complete_sec id st r s
  exact ⟨by rw [hx], by rw [complete_cod], by rw [complete_mem], fun hs => by rw [hx]; exact hnone hs⟩

theorem vaultKept_modDev (f : Dev → Dev) (s : State) : VaultKept s (s.modDev f) := vaultKept_of_eq rfl

theorem vaultKept_modStp (n : Fin 16) (f : Stp → Stp) (s : State) : VaultKept s (s.modStp n f) := vaultKept_of_eq rfl

theorem vaultKept_modBa (n : Fin 8) (f : Ba → Ba) (s : State) : VaultKept s (s.modBa n f) := vaultKept_of_eq rfl

theorem vaultKept_modLane (l : Fin 64) (f : Lane → Lane) (s : State) : VaultKept s (s.modLane l f) := vaultKept_of_eq rfl

theorem vaultKept_emit (o : Out) (s : State) : VaultKept s (s.emit o) := vaultKept_of_eq rfl

theorem vaultKept_sendHubRel (h : EndpointRec) (f : MlkTx) (s : State) : VaultKept s (sendHubRel h f s) := by
  unfold sendHubRel
  split
  · unfold pushRel
    extract_lets x
    split
    · exact (vaultKept_modLane ..).trans (vaultKept_emit ..)
    · exact vaultKept_modLane ..
  · exact .refl s

theorem vaultKept_sendStops (s : State) : VaultKept s (sendStops s) := by
  unfold sendStops sendHubMode
  extract_lets tmo
  refine .trans (vaultKept_foldl (fun s h => ?_) _ s) (vaultKept_foldl (fun s h => vaultKept_sendHubRel ..) _ _)
  exact (vaultKept_emit ..).trans ((vaultKept_emit ..).trans (vaultKept_emit ..))

theorem vaultKept_withdrawn (ctx : Fin 64) (s : State) : VaultKept s (withdrawn ctx s) := vaultKept_of_eq rfl

theorem vaultKept_modJob (ctx : Fin 64) (f : Job → Job) (s : State) : VaultKept s (s.modJob ctx f) := vaultKept_of_eq rfl

theorem vaultKept_abortJob (ctx : Fin 64) (s : State) : VaultKept s (abortJob ctx s) := by
  obtain ⟨x, y, wait, heq, hx, hy⟩ := abortJob_eq ctx s
  rw [heq]
  exact (vaultKept_of_sansOutcomes hx).trans ((vaultKept_withdrawn ctx x).trans ((vaultKept_of_sansOutcomes hy).trans
    (vaultKept_modJob ..)))

theorem vaultKept_abortActive (s : State) : VaultKept s (abortActive s) := by
  unfold abortActive
  refine vaultKept_foldl (fun s c => ?_) _ s
  split
  · exact vaultKept_abortJob c s
  · exact .refl s

theorem vaultKept_withCal (x : Cal) (s : State) : VaultKept s { s with cal := x } := vaultKept_of_eq rfl

theorem vaultKept_withMarch (m : Option March) (s : State) : VaultKept s { s with mem := { s.mem with march := m } } :=
  vaultKept_of_eq rfl

theorem vaultKept_endService (s : State) : VaultKept s (endService s) := by
  unfold endService
  extract_lets cal x
  have hx : VaultKept s x := by
    simp only [x]
    split
    · exact (vaultKept_withCal ..).trans (vaultKept_complete ..)
    · exact .refl s
  clear_value x
  refine hx.trans ?_
  split
  · split
    · exact (vaultKept_withMarch ..).trans (vaultKept_complete ..)
    · exact .refl x
  · exact .refl x

theorem vaultKept_endHome (homing : Bool) (st : Status) (r : Nat) (s : State) : VaultKept s (endHome homing st r s) := by
  obtain h | h := endHome_cases homing st r s
  · rw [h]
    exact .refl s
  · rw [h]
    exact vaultKept_complete ..

theorem vaultKept_loseLock (s : State) : VaultKept s (loseLock s) := by
  have hest : VaultKept s { s with pac := { s.pac with est := s.pac.est.restart } } := vaultKept_of_eq rfl
  unfold loseLock when
  extract_lets y
  split
  · split
    · exact hest.trans (vaultKept_of_sansReports (sansReports_alarm ..))
    · exact hest
  · exact hest

theorem vaultKept_stpCatchUp (n : Fin 16) (s : State) : VaultKept s (stpCatchUp n s) := by
  unfold stpCatchUp
  exact vaultKept_modStp ..

theorem vaultKept_stpStopNow (n : Fin 16) (s : State) : VaultKept s (stpStopNow n s) := by
  unfold stpStopNow when dropStepperLock
  extract_lets y homing moved z
  have hz : VaultKept s z := (vaultKept_stpCatchUp n s).trans (vaultKept_modStp ..)
  have hend := hz.trans (vaultKept_endHome homing .aborted 0 z)
  split
  · split
    · exact hend.trans (vaultKept_loseLock _)
    · exact hend
  · exact hend

theorem vaultKept_stpRampStop (n : Fin 16) (s : State) : VaultKept s (stpRampStop n s) := by
  unfold stpRampStop
  extract_lets y homing a
  exact ((vaultKept_stpCatchUp n s).trans (vaultKept_modStp ..)).trans (vaultKept_endHome ..)

theorem vaultKept_motionFor (cls : Nat) (s : State) : VaultKept s (motionFor cls s) := by
  unfold motionFor
  split
  · exact .refl s
  · extract_lets y
    have hy : VaultKept s y := vaultKept_foldl (fun s n => by
      split
      · exact (vaultKept_modBa ..).trans (vaultKept_endHome ..)
      · exact .refl s) _ s
    refine hy.trans (vaultKept_foldl (fun s n => ?_) _ y)
    split_ifs
    · exact vaultKept_stpStopNow n s
    · exact vaultKept_stpRampStop n s
    · exact .refl s

theorem vaultKept_enterHold (cls : Nat) (s : State) : VaultKept s (enterHold cls s) := by
  unfold enterHold
  extract_lets y
  have hy : VaultKept s y := vaultKept_modDev ..
  exact hy.trans ((vaultKept_sendStops y).trans ((vaultKept_abortActive _).trans ((vaultKept_endService _).trans
    (vaultKept_motionFor ..))))

theorem vaultKept_holdCause (bit : Nat) (s : State) : VaultKept s (holdCause bit s) := by
  unfold holdCause latchCause
  extract_lets y cls
  have hy : VaultKept s y := vaultKept_modDev ..
  split
  · split
    · split
      · exact hy.trans ((vaultKept_modDev ..).trans (vaultKept_motionFor ..))
      · exact hy
    · exact hy.trans (vaultKept_enterHold ..)
  · exact .refl s

/-- In SERVICE and PRINT a cause holds the device, and its bit joins those latched. -/
theorem holdCause_holds {s : State} (h : s.modeIn [.service, .print] = true) (bit : Nat) :
    (holdCause bit s).dev.hold = true ∧ (holdCause bit s).dev.holdCause = s.dev.holdCause ||| (1#8 <<< bit) := by
  unfold holdCause
  rw [if_pos h]
  extract_lets y cls
  have hy : y.dev.holdCause = s.dev.holdCause ||| (1#8 <<< bit) := rfl
  split
  next hhold =>
    split
    · rw [dev_of_ledger (ledger_motionFor ..)]
      exact ⟨hhold, hy⟩
    · exact ⟨hhold, hy⟩
  next =>
    rw [dev_of_ledger (ledger_enterHold ..)]
    exact ⟨rfl, hy⟩

end Sys2Proof.Machine
end

section
/-! Tamper events, OTP burns and reads (R391 to R400, R484), and obligation O48. -/
namespace Sys2Proof.Machine

open Sys2Proof.Claim

/-! ## What a tamper event leaves -/

/-- The session is closed with nothing more of the device changed than its activation. -/
theorem closeSession_leaves (s : State) :
    (closeSession s).sec.tamper = s.sec.tamper ∧ (closeSession s).cod = s.cod ∧ (closeSession s).mem = s.mem ∧
      (closeSession s).dev.mode = s.dev.mode ∧ (closeSession s).sec.session = none := by
  unfold closeSession
  extract_lets cut since y
  split
  · exact ⟨rfl, rfl, rfl, rfl, rfl⟩
  · exact ⟨rfl, rfl, rfl, rfl, rfl⟩

/-- A tamper event as its record and its response. -/
theorem tamperEvent_eq (bit : Nat) {s : State} (hrst : s.dev.rstN = true) : ∃ x : Sec, x.tamper = s.sec.tamper ||| (1#7 <<< bit) ∧
    tamperEvent bit s = alarm .secTamper noInst (holdCause 7 (closeSession (wipeSecure { s with sec := x }))) := by
  generalize hz : tamperEvent bit s = z
  unfold tamperEvent at hz
  extract_lets y at hz
  have hy : ¬(!y.dev.rstN) = true := by
    rw [show y.dev.rstN = true from hrst]
    decide
  rw [if_neg hy] at hz
  exact ⟨y.sec, rfl, hz.symm⟩

theorem getLsbD_shifted {n bit : Nat} (h : bit < n) : ((1#n) <<< bit).getLsbD bit = true := by
  rw [BitVec.getLsbD_shiftLeft, decide_eq_true h, Nat.sub_self, decide_eq_false (Nat.lt_irrefl bit)]
  simp
  omega

/-- What every tamper event leaves, the core on. -/
structure Tampered (bit : Nat) (s s' : State) : Prop where
  latched : s'.sec.tamper.getLsbD bit = true
  kept : ∀ k, s.sec.tamper.getLsbD k = true → s'.sec.tamper.getLsbD k = true
  emptied : ∀ k : Fin 32, (s'.cod.slots[k]).valid = false
  closed : s'.sec.session = none
  wiping : s'.mem.wiping = true
  alarmed : bitOf s' Reg.evtAlarmLatch 1 3 = true
  otp : s'.otp = s.otp
  held : s.modeIn [.service, .print] = true → s'.dev.hold = true ∧ s'.dev.holdCause.getLsbD 7 = true

theorem tamperEvent_tampered {bit : Nat} (hbit : bit < 7) {s : State} (hrst : s.dev.rstN = true) : Tampered bit s (tamperEvent bit s) := by
  obtain ⟨x, hx, heq⟩ := tamperEvent_eq bit hrst
  obtain ⟨htamper, hcod, hmem, hmode, hnone⟩ := closeSession_leaves (wipeSecure { s with sec := x })
  have hotp := tamperEvent_otp bit s
  rw [heq] at hotp ⊢
  generalize closeSession (wipeSecure { s with sec := x }) = y at htamper hcod hmem hmode hnone hotp ⊢
  have hvault : VaultKept y (alarm .secTamper noInst (holdCause 7 y)) :=
    (vaultKept_holdCause 7 y).trans (vaultKept_of_sansReports (sansReports_alarm ..))
  have hor : (alarm .secTamper noInst (holdCause 7 y)).sec.tamper = s.sec.tamper ||| (1#7 <<< bit) := by
    rw [hvault.tamper, htamper]
    exact hx
  refine ⟨?_, fun k hk => ?_, fun k => ?_, hvault.closed hnone, ?_, alarm_bitOf .secTamper .., hotp, fun hin => ?_⟩
  · rw [hor, BitVec.getLsbD_or, getLsbD_shifted hbit, Bool.or_true]
  · rw [hor, BitVec.getLsbD_or, hk, Bool.true_or]
  · have hslots : y.cod.slots = Vector.replicate 32 KeySlot.empty := congrArg Cod.slots hcod
    rw [hvault.slots, hslots]
    simp [KeySlot.empty]
  · rw [hvault.wiping, hmem]
    rfl
  · have hin' : y.modeIn [.service, .print] = true := by
      rw [State.modeIn, hmode]
      exact hin
    obtain ⟨hhold, hcause⟩ := holdCause_holds hin' 7
    rw [eq_of_sansReports (sansReports_alarm ..) (g := fun s => s.dev) fun _ => rfl]
    exact ⟨hhold, by rw [hcause, BitVec.getLsbD_or, getLsbD_shifted (by decide), Bool.or_true]⟩

/-- A source whose effect is a tamper event. -/
theorem leaves_tampered {i : Instr} {t bit : Nat} {s : State} (hbit : bit < 7)
    (hexec : exec i s = .next (after t s (tamperEvent bit))) (hrst : s.dev.rstN = true) : Leaves i s (Tampered bit s) := by
  refine leaves_of_effect hexec fun y hy => ?_
  have ht := tamperEvent_tampered hbit (s := s.arrive t) hrst
  rw [← hy] at ht
  exact ⟨ht.latched, ht.kept, ht.emptied, ht.closed, ht.wiping, ht.alarmed, ht.otp, ht.held⟩

section
variable {t : Nat} {s : State}

theorem exec_tamperInput_acts {n : Fin 4} {lowUs : Nat} (hon : s.fld Reg.secTamperCfg 0 n n = 1)
    (hlow : s.fld Reg.secTamperCfg 0 11 4 ≤ lowUs) : exec (.tamperInput t n lowUs) s = .next (after t s (tamperEvent n)) := by
  refine (run_eq_after ?_ : execTamperInput t n lowUs s = _)
  exact if_pos (show (s.arrive t).fld Reg.secTamperCfg 0 n n = 1 ∧ _ from ⟨hon, hlow⟩)

theorem exec_tamperInput_idle {n : Fin 4} {lowUs : Nat} (h : s.fld Reg.secTamperCfg 0 n n ≠ 1 ∨ lowUs < s.fld Reg.secTamperCfg 0 11 4) :
    exec (.tamperInput t n lowUs) s = .next (after t s id) := by
  refine (run_eq_after ?_ : execTamperInput t n lowUs s = _)
  exact if_neg (show ¬((s.arrive t).fld Reg.secTamperCfg 0 n n = 1 ∧ (s.arrive t).fld Reg.secTamperCfg 0 11 4 ≤ lowUs) from
    fun ⟨hon, hlow⟩ => h.elim (fun hne => hne hon) fun hlt => absurd hlow (Nat.not_le.mpr hlt))

theorem exec_voltageDetector_idle {rail mv : Nat} (h : railOut rail mv = false ∨ railArmed s rail = false) :
    exec (.voltageDetector t rail mv) s = .next (after t s id) := by
  refine (run_eq_after ?_ : execVoltageDetector t rail mv s = _)
  refine if_neg (show ¬(railArmed s rail = true ∧ railOut rail mv = true) from fun ⟨harmed, hout⟩ => ?_)
  rcases h with h | h
  · exact absurd hout (by rw [h]; decide)
  · exact absurd harmed (by rw [h]; decide)

theorem exec_voltageDetector_acts {rail mv : Nat} (hout : railOut rail mv = true) (harmed : railArmed s rail = true)
    (h : rail ≠ 0 ∨ 500 ≤ mv) : exec (.voltageDetector t rail mv) s = .next (after t s (tamperEvent 4)) := by
  refine (run_eq_after ?_ : execVoltageDetector t rail mv s = _)
  exact (if_pos (show railArmed s rail = true ∧ railOut rail mv = true from ⟨harmed, hout⟩)).trans (if_neg (by omega))

/-- VDD_CORE below 0.5 V: the block as a main power-on leaves it, with RST_N low. -/
def corePowerLost (s : State) : State := (cleared true (tamperEvent 4 s)).modDev fun d => { d with rstN := false }

theorem exec_voltageDetector_lost {mv : Nat} (h : mv < 500) (hrst : s.dev.rstN = true) :
    exec (.voltageDetector t 0 mv) s = .next (after t s corePowerLost) := by
  refine (run_eq_after ?_ : execVoltageDetector t 0 mv s = _)
  have hout : railOut 0 mv = true := decide_eq_true (by omega)
  exact (if_pos (show railArmed s 0 = true ∧ railOut 0 mv = true from ⟨hrst, hout⟩)).trans (if_pos ⟨rfl, h⟩)

theorem leaves_voltageDetector_lost {mv : Nat} (h : mv < 500) (hrst : s.dev.rstN = true) :
    Leaves (.voltageDetector t 0 mv) s fun s' => s'.dev.rstN = false ∧ s'.otp = s.otp ∧ s'.jobs = State.reset.jobs := by
  refine leaves_of_effect (exec_voltageDetector_lost h hrst) fun y hy => ?_
  have hotp : y.otp = s.otp := by
    rw [hy]
    exact (cleared_otp true (tamperEvent 4 (s.arrive t))).trans (tamperEvent_otp ..)
  have hcleared : ∀ z : State, ((cleared true z).modDev fun d => { d with rstN := false }).dev.rstN = false ∧
    ((cleared true z).modDev fun d => { d with rstN := false }).jobs = State.reset.jobs := fun _ => ⟨rfl, rfl⟩
  obtain ⟨hlow, hjobs⟩ := hcleared (tamperEvent 4 (s.arrive t))
  rw [hy]
  rw [hy] at hotp
  exact ⟨hlow, hotp, hjobs⟩

theorem exec_clockDetector_acts {met : Bool} {permille : Nat} (hlife : lifeCycle s ≠ 0) (hoff : 100 < permille)
    (hmet : met = true → s.met.st ≠ .absent) (hsys : met = false → s.lsi.pllLock ≠ 0) :
    exec (.clockDetector t met permille) s = .next (after t s (tamperEvent 5)) := by
  refine (run_eq_after ?_ : execClockDetector t met permille s = _)
  refine if_pos (show lifeCycle s ≠ 0 ∧ (if met then s.met.st != .absent else s.lsi.pllLock != 0) = true ∧ 100 < permille from
    ⟨hlife, ?_, hoff⟩)
  cases met with
  | true => exact bne_iff_ne.mpr (hmet rfl)
  | false => exact bne_iff_ne.mpr (hsys rfl)

theorem exec_clockDetector_idle (met : Bool) {permille : Nat} (h : permille ≤ 100) :
    exec (.clockDetector t met permille) s = .next (after t s id) := by
  refine (run_eq_after ?_ : execClockDetector t met permille s = _)
  exact if_neg fun ⟨_, _, hoff⟩ => absurd hoff (Nat.not_lt.mpr h)

theorem exec_temperatureDetector_acts {celsius : Int} (hlife : lifeCycle s ≠ 0) (h : celsius < -45 ∨ 135 < celsius) :
    exec (.temperatureDetector t celsius) s = .next (after t s (tamperEvent 6)) := by
  refine (run_eq_after ?_ : execTemperatureDetector t celsius s = _)
  exact if_pos (show lifeCycle s ≠ 0 ∧ _ from ⟨hlife, h⟩)

theorem exec_temperatureDetector_idle {celsius : Int} (hlo : -45 ≤ celsius) (hhi : celsius ≤ 135) :
    exec (.temperatureDetector t celsius) s = .next (after t s id) := by
  refine (run_eq_after ?_ : execTemperatureDetector t celsius s = _)
  exact if_neg fun ⟨_, hout⟩ => by omega

theorem exec_otpReadDone_due {a : Nat} (hread : s.sec.otpRead = some a) (h : a + 12800 ≤ max s.now t) :
    exec (.otpReadDone t) s = .next (after t s fun s => s.modSec fun z =>
      { z with otpRead := none, otpReady := true, otpData := hostWord s (s.fld Reg.otpRdAddr 0 7 0) }) := by
  refine (run_eq_after ?_ : execOtpReadDone t s = _)
  simp only [show (s.arrive t).sec.otpRead = some a from hread]
  exact if_pos h

theorem exec_otpReadDone_early {a : Nat} (hread : s.sec.otpRead = some a) (h : max s.now t < a + 12800) :
    exec (.otpReadDone t) s = .next (after t s id) := by
  refine (run_eq_after ?_ : execOtpReadDone t s = _)
  simp only [show (s.arrive t).sec.otpRead = some a from hread]
  exact if_neg (show ¬(a + 12800 ≤ max s.now t) from Nat.not_le.mpr h)

end

/-! ## Burns -/

/-- A word of the OTP array after bits were burned into it, its store in order. -/
theorem otpWord_otpSet_self {s : State} (hrise : keysRise s.otp = true) (w : Nat) (bits : Word) :
    otpWord (otpSet w bits s) w = otpWord s w ||| bits :=
  regLookup_regInsert_getD hrise w ..

theorem otpWord_burnWord_self {s : State} (hrise : keysRise s.otp = true) (w : Nat) (value : Word) (b : BurnResult) :
    otpWord (burnWord w value b s) w = otpWord s w ||| (burnBits s w value &&& ~~~b.failed) :=
  (otpWord_of_otp (burnWord_otp ..) w).trans (otpWord_otpSet_self hrise ..)

/-- What OTP_BURN does once it is admitted. -/
def burned (word : Nat) (value : Word) (b : BurnResult) (s : State) : State :=
  if b.cut then cutShort (burnWord word value b s)
  else complete .supervisor (if burnFails s word value b then .integrity else .ok)
    (burnReport s (burnWord word value b s) word value b) (burnWord word value b s)

/-- What OTP_FINALISE does once it is admitted. -/
def finalised (region : Nat) (lo hi : BurnResult) (s : State) : State :=
  if lo.cut || hi.cut then cutShort (burnDigest region lo hi s)
  else complete .supervisor
    (if burnFails s (240 + 2 * region) (BitVec.ofNat 32 (regionDigest s region)) lo ||
      burnFails s (241 + 2 * region) (BitVec.ofNat 32 (regionDigest s region / 2 ^ 32)) hi then .integrity else .ok) 0
    (burnDigest region lo hi s)

def finaliseConds (region : Nat) (s : State) : List (Bool × Status) :=
  [(decide (5 < region), .range), (regionFinal s region, .badState)]

theorem keepsPress_cutShort (s : State) : KeepsPress s (cutShort s) := ⟨(KeepsPress.refl s).print, (KeepsPress.refl s).motion⟩

theorem burned_leaves (word : Nat) (value : Word) (b : BurnResult) (s : State) :
    (burned word value b s).otp = (burnWord word value b s).otp ∧ KeepsPress s (burned word value b s) ∧
      (b.cut = false → (burned word value b s).supRing.running = none) ∧
      (b.cut = true → (burned word value b s).sec.timed = s.sec.timed ++ [(.refusal, s.now)]) := by
  have hpress := keepsPress_burnWord word value b s
  have htimed : (cutShort (burnWord word value b s)).sec.timed = s.sec.timed ++ [(.refusal, s.now)] := rfl
  unfold burned
  split
  next hcut => exact ⟨cutShort_otp _, hpress.trans (keepsPress_cutShort _), fun h => absurd (hcut.symm.trans h) (by decide), fun _ => htimed⟩
  next hcut => exact ⟨complete_otp .., hpress.trans (keepsPress_complete ..), fun _ => complete_supRing_running .., fun h => absurd h hcut⟩

theorem finalised_leaves (region : Nat) (lo hi : BurnResult) (s : State) :
    (finalised region lo hi s).otp = (burnDigest region lo hi s).otp ∧ KeepsPress s (finalised region lo hi s) := by
  have hpress := keepsPress_burnDigest region lo hi s
  unfold finalised
  split
  · exact ⟨cutShort_otp _, hpress.trans (keepsPress_cutShort _)⟩
  · exact ⟨complete_otp .., hpress.trans (keepsPress_complete ..)⟩

theorem otpWord_burnDigest_of_ne {region k : Nat} (hlo : k ≠ 240 + 2 * region) (hhi : k ≠ 241 + 2 * region) (lo hi : BurnResult)
    (s : State) : otpWord (burnDigest region lo hi s) k = otpWord s k := by
  unfold burnDigest
  exact (otpWord_burnWord_of_ne hhi ..).trans (otpWord_burnWord_of_ne hlo ..)

section
variable {t word region : Nat} {value : Word} {b b2 : BurnResult} {s : State}

theorem exec_otpBurn_eq (word : Nat) (value : Word) (b : BurnResult) : exec (.otpBurn t word value b) s =
    ringCmd t s (sensitive fun s => admitCmd .supervisor (burnConds s word) (burned word value b) s) := rfl

theorem exec_otpFinalise_eq (region : Nat) (b b2 : BurnResult) : exec (.otpFinalise t region b b2) s =
    ringCmd t s (sensitive fun s => admitCmd .supervisor (finaliseConds region s) (finalised region b b2) s) := rfl

variable (hr : s.ringsRun = true)
include hr

theorem exec_otpRdAddr (w : Fin 256) : exec (.otpRdAddr t w) s = .next (after t s fun s =>
    (s.wr Reg.otpRdAddr 0 (BitVec.ofNat 32 w)).modSec fun z => { z with otpRead := some s.now, otpReady := false }) :=
  (ringCmd_eq hr : execOtpRdAddr t w s = _)

theorem exec_secTamperClear_acts (hauth : sensitiveRefused s = false) (value : Word) : exec (.secTamperClear t value) s =
    .next (after t s fun s => s.modSec fun z => { z with tamper := z.tamper &&& ~~~(BitVec.ofNat 7 value.toNat) }) := by
  refine (ringCmd_eq_after hr ?_ : execSecTamperClear t value s = _)
  exact if_neg (show ¬sensitiveRefused s = true from by rw [hauth]; decide)

theorem exec_secTamperClear_refused (hno : sensitiveRefused s = true) (value : Word) : exec (.secTamperClear t value) s =
    .next (after t s fun s => s.recordErr Reg.secErr 0 0x008 .authFail) := by
  refine (ringCmd_eq_after hr ?_ : execSecTamperClear t value s = _)
  exact if_pos (show sensitiveRefused (s.arrive t) = true from hno)

variable (hauth : sensitiveRefused s = false)
include hauth

theorem exec_otpBurn_range (h : word = 128 ∨ (130 ≤ word ∧ word ≤ 143) ∨ (160 ≤ word ∧ word ≤ 175) ∨ 240 ≤ word) :
    exec (.otpBurn t word value b) s = .next (after t s fun s => complete .supervisor .range 0 (used s)) := by
  refine exec_sensitive_turnedAway hr (exec_otpBurn_eq word value b) hauth (by decide) (firstRefusal_cons_of_true ?_ ..)
  rw [otpReserved, ← Bool.decide_or]
  exact decide_eq_true (by omega)

theorem exec_otpBurn_sealed (hlo : 144 ≤ word) (hhi : word ≤ 159) :
    exec (.otpBurn t word value b) s = .next (after t s fun s => complete .supervisor .sealed 0 (used s)) := by
  refine exec_sensitive_turnedAway hr (exec_otpBurn_eq word value b) hauth (by decide) ?_
  refine (firstRefusal_cons_of_false ?_ ..).trans (firstRefusal_cons_of_true (decide_eq_true ⟨hlo, hhi⟩) ..)
  rw [otpReserved, ← Bool.decide_or]
  exact decide_eq_false (by omega)

theorem exec_otpBurn_badState (hword : word ≤ 31) (hlife : lifeCycle s ≠ 0) :
    exec (.otpBurn t word value b) s = .next (after t s fun s => complete .supervisor .badState 0 (used s)) := by
  refine exec_sensitive_turnedAway hr (exec_otpBurn_eq word value b) hauth (by decide) ?_
  refine (firstRefusal_cons_of_false ?_ ..).trans ((firstRefusal_cons_of_false (decide_eq_false (by omega)) ..).trans
    (firstRefusal_cons_of_true ?_ ..))
  · rw [otpReserved, ← Bool.decide_or]
    exact decide_eq_false (by omega)
  · have hne : (lifeCycle (used (s.arrive t)) != 0) = true := bne_iff_ne.mpr hlife
    rw [hne, decide_eq_true hword, Bool.and_true, Bool.or_true]

theorem leaves_otpBurn (hconds : firstRefusal (burnConds s word) = .ok) (hrise : keysRise s.otp = true) :
    Leaves (.otpBurn t word value b) s fun s' => otpWord s' word = otpWord s word ||| (burnBits s word value &&& ~~~b.failed) ∧
      (∀ k, k ≠ word → otpWord s' k = otpWord s k) ∧ (b.cut = false → s'.supRing.running = none) ∧
      (b.cut = true → s'.sec.timed = s.sec.timed ++ [(.refusal, max s.now t)]) ∧ SamePrint s s' ∧ SameMotion s s' := by
  have hexec := exec_sensitive_admitted (conds := fun s => burnConds s word) (f := fun _ => burned word value b) hr
    (exec_otpBurn_eq (t := t) word value b) hauth hconds
  refine leaves_of_effect hexec fun y hy => ?_
  obtain ⟨hotp, hpress, hdone, hcut⟩ := burned_leaves word value b (used (s.arrive t))
  rw [← hy] at hotp hpress hdone hcut
  refine ⟨?_, fun k hk => ?_, hdone, hcut, hpress.print, hpress.motion⟩
  · exact (otpWord_of_otp hotp word).trans (otpWord_burnWord_self (s := used (s.arrive t)) hrise ..)
  · exact (otpWord_of_otp hotp k).trans (otpWord_burnWord_of_ne hk ..)

theorem exec_otpFinalise_range (h : 5 < region) :
    exec (.otpFinalise t region b b2) s = .next (after t s fun s => complete .supervisor .range 0 (used s)) :=
  exec_sensitive_turnedAway (conds := finaliseConds region) (f := fun _ => finalised region b b2) hr
    (exec_otpFinalise_eq region b b2) hauth (by decide) (firstRefusal_cons_of_true (decide_eq_true h) ..)

theorem exec_otpFinalise_badState (h : region ≤ 5) (hfinal : regionFinal s region = true) :
    exec (.otpFinalise t region b b2) s = .next (after t s fun s => complete .supervisor .badState 0 (used s)) :=
  exec_sensitive_turnedAway (conds := finaliseConds region) (f := fun _ => finalised region b b2) hr
    (exec_otpFinalise_eq region b b2) hauth (by decide)
    ((firstRefusal_cons_of_false (decide_eq_false (by omega)) ..).trans (firstRefusal_cons_of_true hfinal ..))

theorem leaves_otpFinalise (h : region ≤ 5) (hopen : regionFinal s region = false) (hhi : b2.failed = 0) :
    Leaves (.otpFinalise t region b b2) s fun s' => regionFinal s' region = true ∧
      (∀ k, k ≠ 240 + 2 * region → k ≠ 241 + 2 * region → otpWord s' k = otpWord s k) ∧ SamePrint s s' ∧ SameMotion s s' := by
  have hconds : firstRefusal (finaliseConds region (used (s.arrive t))) = .ok :=
    (firstRefusal_cons_of_false (decide_eq_false (by omega)) ..).trans (firstRefusal_cons_of_false hopen ..)
  have hexec := exec_sensitive_admitted (conds := finaliseConds region) (f := fun _ => finalised region b b2) hr
    (exec_otpFinalise_eq (t := t) region b b2) hauth hconds
  refine leaves_of_effect hexec fun y hy => ?_
  obtain ⟨hotp, hpress⟩ := finalised_leaves region b b2 (used (s.arrive t))
  rw [← hy] at hotp hpress
  refine ⟨?_, fun k hlo hhi => ?_, hpress.print, hpress.motion⟩
  · have hbit := digestBit_burnDigest (s := used (s.arrive t)) hopen b hhi
    rw [← otpWord_of_otp hotp] at hbit
    exact regionFinal_of_bit hbit
  · exact (otpWord_of_otp hotp k).trans (otpWord_burnDigest_of_ne hlo hhi ..)

end

/-- Settles O48: a burn sets bits of its own word alone, and every source of a tamper event ends in the one response that wipes. -/
theorem otpAndTamper : Obligations.OtpAndTamper := by
  unfold Obligations.OtpAndTamper
  intro t word region rail mv permille a lowUs w8 n value met celsius b b2 s hr tampers
  have htampers : ∀ {c : Instr} {bit : Nat}, bit < 7 → exec c s = .next (after t s (tamperEvent bit)) → tampers c bit :=
    fun hbit hexec hrst => by
      obtain ⟨s', hs', h⟩ := leaves_tampered hbit hexec hrst
      exact ⟨s', hs', h.latched, h.kept, h.emptied, h.closed, h.wiping, h.alarmed, h.otp, h.held⟩
  clear_value tampers
  refine ⟨fun hno => ⟨exec_sensitive_refused hr (exec_otpBurn_eq word value b) hno,
      exec_sensitive_refused hr (exec_otpFinalise_eq region b b2) hno⟩, fun hauth => ⟨exec_otpBurn_range hr hauth, exec_otpBurn_sealed hr hauth,
      exec_otpBurn_badState hr hauth, leaves_otpBurn hr hauth, exec_otpFinalise_range hr hauth, exec_otpFinalise_badState hr hauth,
      fun h hopen _ hhi => leaves_otpFinalise hr hauth h hopen hhi⟩, exec_otpRdAddr hr w8,
    fun hread => ⟨exec_otpReadDone_due hread, exec_otpReadDone_early hread⟩,
    fun hon hlow => htampers (by omega) (exec_tamperInput_acts hon hlow), exec_tamperInput_idle,
    fun hout harmed h => htampers (by decide) (exec_voltageDetector_acts hout harmed h), exec_voltageDetector_idle,
    leaves_voltageDetector_lost, fun hlife hoff hmet hsys => htampers (by decide) (exec_clockDetector_acts hlife hoff hmet hsys),
    exec_clockDetector_idle met, fun hlife h => htampers (by decide) (exec_temperatureDetector_acts hlife h),
    exec_temperatureDetector_idle, fun hauth => exec_secTamperClear_acts hr hauth value,
    fun hno => exec_secTamperClear_refused hr hno value⟩

end Sys2Proof.Machine
end

section
/-! The endpoint, the root port and their resets (R494 to R496), and obligation O57. -/
namespace Sys2Proof.Machine

open Sys2Proof.Claim

/-! ## An endpoint reset -/

theorem bitOf_of_regs {s s' : State} (h : s'.regs = s.regs) (r : RegSpec) (i b : Nat) : bitOf s' r i b = bitOf s r i b := by
  rw [bitOf, rd_of_regs h, bitOf]

/-- What an endpoint reset leaves alone until it comes to the semaphores, the channels and the drain. -/
def State.hostKept (s : State) :=
  (s.jobs, s.sems, s.dma, s.log, s.met, s.otp, s.calStore, s.lsi, s.pci.linkUp, s.dev.mode)

theorem muteRing_leaves (id : RingId) (s : State) : (muteRing id s).hostKept = s.hostKept ∧ (muteRing id s).sec = s.sec ∧
    (muteRing id s).regs = s.regs ∧ ((muteRing id s).ring id).enable = false := by
  cases id with
  | supervisor | admission => exact ⟨rfl, rfl, rfl, rfl⟩
  | job n =>
    refine ⟨rfl, rfl, rfl, ?_⟩
    simp [muteRing, State.ring, State.setRing]

/-- The job rings are left off; nothing else of the device changes with them. -/
theorem muteJobs_eq (l : List (Fin 64)) (s : State) : ∃ rings, l.foldl (fun s n => muteRing (.job n) s) s = { s with jobRings := rings } ∧
    ∀ n : Fin 64, n ∈ l ∨ (s.jobRings[n]).enable = false → (rings[n]).enable = false := by
  induction l generalizing s with
  | nil => exact ⟨s.jobRings, rfl, fun n h => h.elim (fun hmem => nomatch hmem) id⟩
  | cons m l ih =>
    obtain ⟨rings, heq, hoff⟩ := ih (muteRing (.job m) s)
    refine ⟨rings, heq.trans rfl, fun n h => hoff n ?_⟩
    have hself := (muteRing_leaves (.job m) s).2.2.2
    by_cases hn : n = m
    · rw [hn]
      exact .inr hself
    · refine h.imp (fun hmem => (List.mem_cons.mp hmem).resolve_left hn) fun hs => ?_
      have hother : (muteRing (.job m) s).jobRings[n] = s.jobRings[n] :=
        Vector.getElem_set_ne m.isLt n.isLt (fun e => hn (Fin.ext e.symm))
      rw [hother]
      exact hs

/-- The registers of the MSI-X table, which an endpoint reset returns to their reset values. -/
def msixTable : List RegSpec := [Reg.msixAddrLo, Reg.msixAddrHi, Reg.msixData, Reg.msixCtl]

/-- What an endpoint reset leaves of the semaphores, the channels, the drain and the MSI-X table. -/
def detached (s : State) : State :=
  { breakAllSems (s.modLog (drainReset false)) with
    dma := Vector.replicate 32 Dma.reset, pci := { s.pci with msixPend := 0 },
    regs := s.regs.filter fun r => !(msixTable.any fun x => x.holds r.1) }

/-- What an endpoint reset leaves, with its cause in a bit of PCI_RESETS. -/
structure EndpointReset (bit : Nat) (s s' : State) : Prop where
  supervisor : s'.supRing.enable = false
  admission : s'.admRing.enable = false
  job : ∀ n : Fin 64, (s'.jobRings[n]).enable = false
  kept : s'.hostKept = (detached s).hostKept
  closed : s'.sec.session = none
  told : bitOf s' Reg.pciResets 0 bit = true

theorem hostKept_setFld (r : RegSpec) (i hi lo v : Nat) (s : State) : (s.setFld r i hi lo v).hostKept = s.hostKept := rfl

theorem hostKept_closeSession (s : State) : (closeSession s).hostKept = s.hostKept ∧ (closeSession s).regs = s.regs := by
  obtain ⟨x, d, heq, -⟩ := closeSession_eq s
  have hmode : (closeSession s).dev.mode = s.dev.mode := (closeSession_leaves s).2.2.2.1
  rw [heq] at hmode ⊢
  refine ⟨?_, rfl⟩
  unfold State.hostKept
  rw [hmode]
  rfl

theorem hostKept_detached {s s' : State} (h : s'.hostKept = s.hostKept) : (detached s').hostKept = (detached s).hostKept := by
  simp only [State.hostKept, Prod.mk.injEq] at h
  obtain ⟨hjobs, hsems, hdma, hlog, hmet, hotp, hcal, hlsi, hlink, hmode⟩ := h
  have hform : ∀ u : State, (detached u).hostKept = (u.jobs, u.sems.map Sem.break, Vector.replicate 32 Dma.reset, drainReset false u.log,
    u.met, u.otp, u.calStore, u.lsi, u.pci.linkUp, u.dev.mode) := fun _ => rfl
  rw [hform, hform, hjobs, hsems, hlog, hmet, hotp, hcal, hlsi, hlink, hmode]

theorem bitOf_detached (b : Nat) (s : State) : bitOf (detached s) Reg.pciResets 0 b = bitOf s Reg.pciResets 0 b := by
  have hkey : (!(msixTable.any fun x => x.holds (Reg.pciResets.addr 0))) = true := by decide
  have hkept : ∀ v : Word, (fun r : Nat × Word => !(msixTable.any fun x => x.holds r.1)) (Reg.pciResets.addr 0, v) = true := fun _ => hkey
  rw [bitOf, State.rd, show (detached s).regs = s.regs.filter fun r => !(msixTable.any fun x => x.holds r.1) from rfl,
    regLookup_filter_of_kept hkept, ← State.rd, ← bitOf]

/-- Outside SERVICE and PRINT a cause holds nothing. -/
theorem holdCause_of_idle {s : State} (h : s.modeIn [.service, .print] = false) (bit : Nat) : holdCause bit s = s :=
  if_neg (by rw [h]; decide)

theorem endpointReset_leaves {bit : Nat} (hbit : bit < 32) {s : State} (hidle : s.modeIn [.service, .print] = false) :
    EndpointReset bit s (endpointReset bit s) := by
  obtain ⟨hclosedKept, hclosedRegs⟩ := hostKept_closeSession (s.setFld Reg.pciResets 0 bit bit 1)
  have hnone : (closeSession (s.setFld Reg.pciResets 0 bit bit 1)).sec.session = none := (closeSession_leaves _).2.2.2.2
  have htold : bitOf (s.setFld Reg.pciResets 0 bit bit 1) Reg.pciResets 0 bit = true :=
    bitOf_setFld_one hbit (by rw [show Reg.pciResets.reset = 0#32 from rfl, BitVec.getLsbD_zero]) 0 s
  rw [← bitOf_of_regs hclosedRegs] at htold
  unfold endpointReset
  extract_lets a b c d p e
  have hbk : b.hostKept = s.hostKept := hclosedKept.trans (hostKept_setFld ..)
  have hbn : b.sec.session = none := hnone
  have hbt : bitOf b Reg.pciResets 0 bit = true := htold
  clear_value b
  obtain ⟨hsupKept, hsupSec, hsupRegs, hsupOff⟩ := muteRing_leaves .supervisor b
  obtain ⟨hadmKept, hadmSec, hadmRegs, hadmOff⟩ := muteRing_leaves .admission (muteRing .supervisor b)
  have hsupStill : (muteRing .admission (muteRing .supervisor b)).supRing.enable = false := hsupOff
  obtain ⟨rings, hrings, hoff⟩ := muteJobs_eq (List.finRange 64) (muteRing .admission (muteRing .supervisor b))
  have hc : c = { muteRing .admission (muteRing .supervisor b) with jobRings := rings } := hrings
  clear_value c
  have he : e = detached c := rfl
  clear_value e
  clear hrings
  generalize muteRing .admission (muteRing .supervisor b) = m at *
  have hek : e.hostKept = (detached s).hostKept := by
    rw [he, hc]
    exact hostKept_detached ((hadmKept.trans hsupKept).trans hbk)
  have hmode : e.dev.mode = s.dev.mode := congrArg (fun x => x.2.2.2.2.2.2.2.2.2) hek
  have hheld : holdCause 6 e = e := holdCause_of_idle (by rw [State.modeIn, hmode]; exact hidle) 6
  rw [hheld]
  refine ⟨?_, ?_, fun n => ?_, hek, ?_, ?_⟩
  · rw [he, hc]
    exact hsupStill
  · rw [he, hc]
    exact hadmOff
  · rw [he, hc]
    exact hoff n (.inl (List.mem_finRange n))
  · rw [he, hc]
    exact (congrArg Sec.session (hadmSec.trans hsupSec)).trans hbn
  · rw [he, bitOf_detached, hc]
    exact (bitOf_of_regs (hadmRegs.trans hsupRegs) ..).trans hbt

end Sys2Proof.Machine
end

section
/-! The host's events one by one (R494 to R496), and obligation O57. -/
namespace Sys2Proof.Machine

open Sys2Proof.Claim

/-- The parts of the device that an endpoint reset leaves, named. -/
theorem EndpointReset.parts {bit : Nat} {s s' : State} (h : EndpointReset bit s s') :
    s'.jobs = s.jobs ∧ s'.sems = s.sems.map Sem.break ∧ s'.dma = Vector.replicate 32 Dma.reset ∧ s'.log = drainReset false s.log ∧
      s'.met = s.met ∧ s'.otp = s.otp ∧ s'.calStore = s.calStore ∧ s'.lsi = s.lsi ∧ s'.pci.linkUp = s.pci.linkUp ∧
      s'.dev.mode = s.dev.mode := by
  have hkept := h.kept
  simp only [State.hostKept, Prod.mk.injEq] at hkept
  obtain ⟨hjobs, hsems, hdma, hlog, hmet, hotp, hcal, hlsi, hlink, hmode⟩ := hkept
  exact ⟨hjobs, hsems, hdma, hlog, hmet, hotp, hcal, hlsi, hlink, hmode⟩

theorem EndpointReset.modFw {bit : Nat} {s s' : State} (h : EndpointReset bit s s') (f : Upd → Upd) : EndpointReset bit s (s'.modFw f) :=
  ⟨h.supervisor, h.admission, h.job, h.kept, h.closed, h.told⟩

/-- The endpoint as PERST_N leaves it before its reset. -/
def perstLow (s : State) : State :=
  { s.modLsi fun l => { l with perstN := false } with pci := { s.pci with linkUp := false, speed := 0, width := 0 } }

/-- What PERST_N asserted does while RST_N is high. -/
def perstReset (s : State) : State :=
  if s.dev.mode = .recovery then
    (endpointReset 1 (perstLow s)).modFw fun u => { u with recBusy := false, recCode := Status.aborted.code }
  else endpointReset 1 (perstLow s)

theorem perstReset_leaves {s : State} (hidle : s.modeIn [.service, .print] = false) : EndpointReset 1 (perstLow s) (perstReset s) := by
  have h := endpointReset_leaves (bit := 1) (by decide) (s := perstLow s) hidle
  unfold perstReset
  split
  · exact h.modFw _
  · exact h

section
variable {t : Nat} {s : State}

theorem leaves_flr (hidle : s.modeIn [.service, .print] = false) : Leaves (.flr t) s fun s' =>
    ∃ y, EndpointReset 2 (s.arrive t) y ∧ s' = after t s fun _ => y :=
  leaves_of_effect (run_eq_after rfl : execFlr t s = .next (after t s (endpointReset 2))) fun y hy =>
    ⟨y, hy ▸ endpointReset_leaves (by decide) (s := s.arrive t) hidle, rfl⟩

theorem leaves_perstNAssert (hidle : s.modeIn [.service, .print] = false) (hrst : s.dev.rstN = true) :
    Leaves (.perstNAssert t) s fun s' => ∃ y, EndpointReset 1 (perstLow (s.arrive t)) y ∧ s' = after t s fun _ => y := by
  have hexec : exec (.perstNAssert t) s = .next (after t s perstReset) := by
    refine (run_eq_after ?_ : execPerstNAssert t s = _)
    exact if_neg (show ¬(!(s.arrive t).dev.rstN) = true from by rw [show (s.arrive t).dev.rstN = true from hrst]; decide)
  exact leaves_of_effect hexec fun y hy => ⟨y, hy ▸ perstReset_leaves (s := s.arrive t) hidle, rfl⟩

theorem exec_perstNAssert_low (hrst : s.dev.rstN = false) : exec (.perstNAssert t) s = .next (after t s perstLow) := by
  refine (run_eq_after ?_ : execPerstNAssert t s = _)
  exact if_pos (show (!(s.arrive t).dev.rstN) = true from by rw [show (s.arrive t).dev.rstN = false from hrst]; rfl)

theorem exec_perstNRelease_low (hrst : s.dev.rstN = false) (speed width : Nat) :
    exec (.perstNRelease t speed width) s = .next (after t s fun s => s.modLsi fun l => { l with perstN := true }) := by
  refine (run_eq_after ?_ : execPerstNRelease t speed width s = _)
  exact if_neg (show ¬(s.arrive t).dev.rstN = true from by rw [show (s.arrive t).dev.rstN = false from hrst]; decide)

theorem exec_perstNRelease_high (hrst : s.dev.rstN = true) {speed : Nat} (hspeed : 0 < speed) (width : Nat) :
    exec (.perstNRelease t speed width) s = .next (after t s fun s =>
      { s.modLsi fun l => { l with perstN := true } with pci := { s.pci with linkUp := true, speed := speed, width := width } }) := by
  refine (run_eq_after ?_ : execPerstNRelease t speed width s = _)
  have hup : (speed != 0) = true := bne_iff_ne.mpr hspeed.ne'
  refine (if_pos (show (s.arrive t).dev.rstN = true from hrst)).trans ?_
  rw [hup]
  rfl

theorem exec_endpointLinkDown : exec (.endpointLinkDown t) s = .next (after t s fun s =>
    { s.setFld Reg.pciResets 0 0 0 1 with pci := { s.pci with linkUp := false, speed := 0, width := 0 } }) :=
  (run_eq_after rfl : execEndpointLinkDown t s = _)

theorem exec_rootPortLinkUp (hr : s.ringsRun = true) (hon : s.isDisabled 0x10 0 = false) (speed width controllers : Nat) :
    exec (.rootPortLinkUp t speed width controllers) s = .next (after t s fun s => { s with pci :=
      { s.pci with rpUp := true, rpSpeed := speed, rpWidth := width, rpCtrls := min 8 controllers } }) := by
  refine (run_eq_after ?_ : execRootPortLinkUp t speed width controllers s = _)
  have hgo : (s.ringsRun && !s.isDisabled 0x10 0) = true := by
    rw [hr, hon]
    rfl
  exact if_pos (show ((s.arrive t).ringsRun && !(s.arrive t).isDisabled 0x10 0) = true from hgo)

end

/-! ## Completion timeouts -/

/-- A ring error: the ring is off, its other fields stand, RING_FAULT is latched, and no job changes. -/
theorem ringError_leaves (id : RingId) (bit : Nat) (s : State) :
    (ringError id bit s).ring id = { s.ring id with enable := false } ∧ bitOf (ringError id bit s) Reg.evtAlarmLatch 0 2 = true ∧
      (ringError id bit s).jobs = s.jobs := by
  obtain ⟨x, d, heq, -⟩ := ringError_sansReports id bit s
  refine ⟨(ring_of_sansReports heq id).trans (stopped_ring id x d s), alarm_bitOf .ringFault _ _, (jobs_of_sansReports heq).trans ?_⟩
  cases id <;> rfl

section
variable {t : Nat} {s : State} (hr : s.ringsRun = true)
include hr

theorem exec_pcieCompletionTimeout_ring (id : RingId) (onFetch : Bool) :
    exec (.pcieCompletionTimeout t (.inl id) onFetch) s = .next (after t s (ringTimeout id onFetch)) :=
  (ringCmd_eq hr : execPcieCompletionTimeout t (.inl id) onFetch s = _)

theorem exec_pcieCompletionTimeout_off {rid : RingId} (hoff : (s.ring rid).enable = false) :
    exec (.pcieCompletionTimeout t (.inl rid) true) s = .next (after t s id) := by
  refine (exec_pcieCompletionTimeout_ring hr rid true).trans (next_after_congr ?_)
  have hoff' : ((s.arrive t).ring rid).enable = false := by rw [State.arrive_ring]; exact hoff
  exact (if_pos rfl).trans (if_neg (by rw [hoff']; decide))

theorem leaves_pcieCompletionTimeout_fetch {id : RingId} (hon : (s.ring id).enable = true) :
    Leaves (.pcieCompletionTimeout t (.inl id) true) s fun s' => (s'.ring id).enable = false ∧
      (s'.ring id).sqTail = (s.ring id).sqTail ∧ bitOf s' Reg.evtAlarmLatch 0 2 = true ∧ s'.jobs = s.jobs := by
  have hexec : exec (.pcieCompletionTimeout t (.inl id) true) s = .next (after t s (ringError id 1)) := by
    refine (exec_pcieCompletionTimeout_ring hr id true).trans (next_after_congr ?_)
    have hon' : ((s.arrive t).ring id).enable = true := by rw [State.arrive_ring]; exact hon
    exact (if_pos rfl).trans (if_pos hon')
  refine leaves_of_effect hexec fun y hy => ?_
  obtain ⟨hring, htold, hjobs⟩ := ringError_leaves id 1 (s.arrive t)
  rw [← hy] at hring htold hjobs
  rw [State.arrive_ring] at hring
  have hafter : (after t s fun _ => y).ring id = { s.ring id with enable := false } := by cases id <;> exact hring
  exact ⟨by rw [hafter], by rw [hafter], htold, hjobs⟩

theorem leaves_pcieCompletionTimeout_entry (id : RingId) : Leaves (.pcieCompletionTimeout t (.inl id) false) s fun s' =>
    (s'.ring id).enable = false ∧ (s'.ring id).running = none ∧ bitOf s' Reg.evtAlarmLatch 0 2 = true ∧ s'.jobs = s.jobs := by
  refine leaves_of_effect (exec_pcieCompletionTimeout_ring hr id false) fun y hy => ?_
  obtain ⟨hring, htold, hjobs⟩ :=
    ringError_leaves id 2 ((s.arrive t).setRing id { (s.arrive t).ring id with running := none, stalled := none })
  have hy' : y = ringError id 2 ((s.arrive t).setRing id { (s.arrive t).ring id with running := none, stalled := none }) :=
    hy.trans (if_neg (by decide))
  rw [← hy'] at hring htold hjobs
  have hself : ∀ r, ((s.arrive t).setRing id r).ring id = r := by
    cases id with
    | supervisor | admission => exact fun _ => rfl
    | job n => simp [State.ring, State.setRing]
  rw [hself] at hring
  rw [State.setRing_jobs] at hjobs
  have hafter : (after t s fun _ => y).ring id = y.ring id := by cases id <;> rfl
  exact ⟨by rw [hafter, hring], by rw [hafter, hring], htold, hjobs⟩

/-- The transfer that timed out stops its channel, on either side. -/
theorem leaves_pcieCompletionTimeout_dma {n : Fin 32} (hlive : (s.dma[n]).live = true) (onFetch : Bool) :
    Leaves (.pcieCompletionTimeout t (.inr (.inl n)) onFetch) s fun s' =>
      (s'.dma[n]).st = .aborting ∧ (s'.dma[n]).code = 0x0C ∧ s'.jobs = s.jobs := by
  have hstop : ∀ (side : Nat) (z : State), z.dma = s.dma → z.jobs = s.jobs →
      ((dmaStop n .timeout side z).dma[n]).st = .aborting ∧ ((dmaStop n .timeout side z).dma[n]).code = 0x0C ∧
        (dmaStop n .timeout side z).jobs = s.jobs := fun side z hdma hjobs => by
    have hz : (z.dma[n]).live = true := by rw [hdma]; exact hlive
    have h := dmaStop_stopping (code := .timeout) (side := side) hz
    refine ⟨h.st, h.code, ?_⟩
    obtain ⟨f, hf, -⟩ := dmaStop_of_live (code := .timeout) (side := side) hz
    rw [hf]
    exact hjobs
  cases onFetch with
  | true =>
    have hexec : exec (.pcieCompletionTimeout t (.inr (.inl n)) true) s =
        .next (after t s fun s => dmaStop n .timeout (s.draw.1 % 2) s.draw.2) :=
      (ringCmd_eq_after hr rfl : execPcieCompletionTimeout t (.inr (.inl n)) true s = _)
    exact leaves_of_effect hexec fun y hy => hy ▸ hstop _ _ rfl rfl
  | false =>
    have hexec : exec (.pcieCompletionTimeout t (.inr (.inl n)) false) s = .next (after t s (dmaStop n .timeout 1)) :=
      (ringCmd_eq_after hr rfl : execPcieCompletionTimeout t (.inr (.inl n)) false s = _)
    exact leaves_of_effect hexec fun y hy => hy ▸ hstop _ _ rfl rfl

theorem exec_pcieCompletionTimeout_drainOff (hoff : s.log.en = false) (onFetch : Bool) :
    exec (.pcieCompletionTimeout t (.inr (.inr ())) onFetch) s = .next (after t s id) := by
  refine (ringCmd_eq_after hr ?_ : execPcieCompletionTimeout t (.inr (.inr ())) onFetch s = _)
  exact if_neg (show ¬(s.arrive t).log.en = true from by rw [show (s.arrive t).log.en = false from hoff]; decide)

end

/-! ## The root port -/

theorem rpUp_msix (v : Nat) (s : State) : (s.msix v).pci.rpUp = s.pci.rpUp := by
  unfold State.msix
  split <;> rfl

theorem pci_touchSession (c : Option Running) (s : State) : (touchSession c s).pci = s.pci := by
  unfold touchSession
  split <;> rfl

theorem rpUp_writeCompletion (id : RingId) (c : Completion) (s : State) : (writeCompletion id c s).pci.rpUp = s.pci.rpUp := by
  unfold writeCompletion
  extract_lets r n x next y
  have hy : y.pci = s.pci := State.setRing_pci ..
  split
  · rw [hy]
  · rw [rpUp_msix, hy]

theorem rpUp_complete (id : RingId) (st : Status) (r : Nat) (s : State) : (complete id st r s).pci.rpUp = s.pci.rpUp := by
  unfold complete
  extract_lets ring x sec y z ringZ
  split
  · rw [State.setRing_pci]
  · have hx : x.pci = s.pci := State.setRing_pci ..
    have hy : y.pci = s.pci := by
      simp only [y]
      split
      · exact hx
      · exact hx
    have hz : z.pci = s.pci := by
      simp only [z]
      split
      · exact (pci_touchSession ..).trans hy
      · exact hy
    simp only []
    split
    · rw [State.setRing_pci, hz]
    · rw [rpUp_writeCompletion, hz]

/-- A load that ends leaves the root port and the job store as they were, and no wait of its context. -/
theorem endLoad_leaves (ctx : Fin 64) (st : Status) (s : State) :
    (endLoad ctx st s).pci.rpUp = s.pci.rpUp ∧ (endLoad ctx st s).mem = s.mem ∧ ((endLoad ctx st s).jobs[ctx]).nvmeWait = none ∧
      ∀ c : Fin 64, (s.jobs[c]).nvmeWait = none → ((endLoad ctx st s).jobs[c]).nvmeWait = none := by
  by_cases hwait : (s.jobs[ctx]).nvmeWait.isSome = true
  · have hend : endLoad ctx st s = complete (.job ctx) st 0 (s.modJob ctx fun j => { j with nvmeWait := none, held := [] }) :=
      if_pos hwait
    rw [hend, rpUp_complete, complete_mem, complete_jobs]
    refine ⟨rfl, rfl, ?_, fun c hc => ?_⟩
    · rw [State.modJob_jobs, upd_getElem_self]
    · by_cases h : c = ctx
      · rw [h, State.modJob_jobs, upd_getElem_self]
      · rw [State.modJob_jobs, upd_getElem_of_ne h]
        exact hc
  · have hend : endLoad ctx st s = s := if_neg hwait
    rw [hend]
    exact ⟨rfl, rfl, Option.not_isSome_iff_eq_none.mp hwait, fun _ hc => hc⟩

theorem endLoads_leaves (st : Status) (l : List (Fin 64)) (s : State) :
    (l.foldl (fun s c => endLoad c st s) s).pci.rpUp = s.pci.rpUp ∧ (l.foldl (fun s c => endLoad c st s) s).mem = s.mem ∧
      ∀ c : Fin 64, c ∈ l ∨ (s.jobs[c]).nvmeWait = none → ((l.foldl (fun s c => endLoad c st s) s).jobs[c]).nvmeWait = none := by
  induction l generalizing s with
  | nil => exact ⟨rfl, rfl, fun c h => h.elim (fun hmem => nomatch hmem) id⟩
  | cons a l ih =>
    obtain ⟨hup, hmem, hself, hkept⟩ := endLoad_leaves a st s
    obtain ⟨ihup, ihmem, ihwait⟩ := ih (endLoad a st s)
    refine ⟨ihup.trans hup, ihmem.trans hmem, fun c h => ihwait c ?_⟩
    by_cases hc : c = a
    · exact .inr (hc ▸ hself)
    · exact h.imp (fun h => (List.mem_cons.mp h).resolve_left hc) (hkept c)

/-- An attached index whose root port is gone answers with IO_ERR. -/
def portGone (x : JsIndex) : JsIndex := if x.attached then { x with ioErr := true } else x

theorem portGone_leaves (x : JsIndex) : (portGone x).attached = x.attached ∧ (x.attached = true → (portGone x).ioErr = true) := by
  unfold portGone
  split
  next h => exact ⟨rfl, fun _ => rfl⟩
  next h => exact ⟨rfl, fun h' => absurd h' h⟩

/-- The root port down, its attached indices with IO_ERR. -/
def rootPortGone (s : State) : State :=
  { s with pci := { s.pci with rpUp := false, rpSpeed := 0, rpWidth := 0 } }.modMem fun m => { m with js := m.js.map portGone }

theorem leaves_rootPortLinkLoss {t : Nat} {s : State} : Leaves (.rootPortLinkLoss t) s fun s' => s'.pci.rpUp = false ∧
    (∀ n : Fin 32, (s'.mem.js[n]).attached = (s.mem.js[n]).attached ∧
      ((s.mem.js[n]).attached = true → (s'.mem.js[n]).ioErr = true)) ∧
    (∀ c : Fin 64, (s'.jobs[c]).nvmeWait = none) := by
  have hexec : exec (.rootPortLinkLoss t) s = .next (after t s fun s =>
      (List.finRange 64).foldl (fun s c => endLoad c .integrity s) (rootPortGone s)) := by
    refine (run_eq_after ?_ : execRootPortLinkLoss t s = _)
    generalize List.finRange 64 = l
    rfl
  refine leaves_of_effect hexec fun y hy => ?_
  obtain ⟨hup, hmem, hwait⟩ := endLoads_leaves .integrity (List.finRange 64) (rootPortGone (s.arrive t))
  rw [← hy] at hup hmem hwait
  have hjs : y.mem.js = s.mem.js.map portGone := congrArg Mem.js hmem
  have hat : ∀ n : Fin 32, y.mem.js[n] = portGone s.mem.js[n] := fun n => by
    rw [hjs]
    exact Vector.getElem_map ..
  refine ⟨hup, fun n => ?_, fun c => hwait c (.inl (List.mem_finRange c))⟩
  show (y.mem.js[n]).attached = _ ∧ (_ → (y.mem.js[n]).ioErr = true)
  rw [hat n]
  exact portGone_leaves _

/-- Settles O57: every reset of the endpoint ends in one state, which each clause reads off; a lost link ends the loads that wait. -/
theorem hostLink : Obligations.HostLink := by
  unfold Obligations.HostLink
  intro t speed width controllers onFetch rid s cleared
  have hcleared : ∀ (bit : Nat) (z y : State), z.jobs = s.jobs → z.sems = s.sems → z.log = s.log → z.met = s.met →
      z.dev.mode = s.dev.mode → z.otp = s.otp → z.calStore = s.calStore → EndpointReset bit z y → cleared (after t s fun _ => y) := by
    intro bit z y zjobs zsems zlog zmet zmode zotp zcal h
    obtain ⟨hjobs, hsems, hdma, hlog, hmet, hotp, hcal, hlsi, hlink, hmode⟩ := h.parts
    rw [zlog] at hlog
    exact ⟨h.supervisor, h.admission, h.job, hsems.trans (by rw [zsems]), hdma, h.closed, (congrArg LogState.en hlog :),
      (congrArg LogState.ring hlog :), (congrArg LogState.backlog hlog :), hjobs.trans zjobs, hmet.trans zmet, hmode.trans zmode,
      hotp.trans zotp, hcal.trans zcal⟩
  refine ⟨fun hidle => ⟨?_, fun hrst => ?_⟩, fun hrst => ⟨exec_perstNAssert_low hrst, exec_perstNRelease_low hrst speed width⟩,
    fun hrst hspeed => exec_perstNRelease_high hrst hspeed width, exec_endpointLinkDown, fun hr => ⟨exec_pcieCompletionTimeout_off hr,
      leaves_pcieCompletionTimeout_fetch hr, fun _ => leaves_pcieCompletionTimeout_entry hr rid,
      fun n hlive => leaves_pcieCompletionTimeout_dma hr hlive onFetch, fun hoff => exec_pcieCompletionTimeout_drainOff hr hoff onFetch⟩,
    leaves_rootPortLinkLoss, fun hr hon => exec_rootPortLinkUp hr hon speed width controllers⟩
  · obtain ⟨s', hs', y, h, rfl⟩ := leaves_flr (t := t) hidle
    exact ⟨_, hs', hcleared 2 (s.arrive t) y rfl rfl rfl rfl rfl rfl rfl h, h.told⟩
  · obtain ⟨s', hs', y, h, rfl⟩ := leaves_perstNAssert (t := t) hidle hrst
    obtain ⟨-, -, -, -, -, -, -, hlsi, hlink, -⟩ := h.parts
    exact ⟨_, hs', hcleared 1 (perstLow (s.arrive t)) y rfl rfl rfl rfl rfl rfl rfl h, h.told, congrArg Lsi.perstN hlsi, hlink⟩

end Sys2Proof.Machine
end

section
/-! What the loss of a reference clock leaves (R486). -/
namespace Sys2Proof.Machine

open Sys2Proof.Claim

/-! ## The structure, the low-speed interfaces and CLK_LOSS -/

/-- The active structure, the low-speed interfaces and CLK_LOSS stand. -/
structure ClockKept (s s' : State) : Prop where
  str : s'.str = s.str
  lsi : s'.lsi = s.lsi
  loss : s'.rd Reg.clkLoss 0 = s.rd Reg.clkLoss 0

theorem ClockKept.refl (s : State) : ClockKept s s := ⟨rfl, rfl, rfl⟩

theorem ClockKept.trans {s s' s'' : State} (h : ClockKept s s') (h' : ClockKept s' s'') : ClockKept s s'' :=
  ⟨h'.str.trans h.str, h'.lsi.trans h.lsi, h'.loss.trans h.loss⟩

theorem clockKept_foldl {α : Type} {f : State → α → State} (h : ∀ s x, ClockKept s (f s x)) (l : List α) (s : State) :
    ClockKept s (l.foldl f s) := by
  induction l generalizing s with
  | nil => exact .refl s
  | cons x l ih => exact (h s x).trans (ih _)

theorem rd_clkLoss_of_words {s s' : State} (h : s'.words = s.words) : s'.rd Reg.clkLoss 0 = s.rd Reg.clkLoss 0 :=
  rd_of_words h (by decide)

theorem clockKept_of_sansReports {s s' : State} (h : s'.sansReports = s.sansReports)
    (hloss : s'.rd Reg.clkLoss 0 = s.rd Reg.clkLoss 0) : ClockKept s s' :=
  ⟨eq_of_sansReports h (g := State.str) fun _ => rfl, eq_of_sansReports h (g := State.lsi) fun _ => rfl, hloss⟩

theorem rd_latchAlarm {code : Nat} {r : RegSpec} {i : Nat} (h : r.addr i ≠ Reg.evtAlarmLatch.addr (code / 32)) (s : State) :
    (latchAlarm code s).rd r i = s.rd r i := by
  unfold latchAlarm
  extract_lets w
  split
  · rfl
  · rw [rd_of_regs (State.msix_regs ..), rd_wr_of_ne h]

theorem rd_alarmArgs {a : Alarm} {r : RegSpec} {i : Nat} (hlatch : r.addr i ≠ Reg.evtAlarmLatch.addr (a.code / 32))
    (hstatus : r.addr i ≠ Reg.evtStatus.addr 0) (inst : Nat) (a0 a1 a2 : Int) (s : State) :
    (alarmArgs a inst a0 a1 a2 s).rd r i = s.rd r i := by
  obtain h | h := alarmArgs_regs a inst a0 a1 a2 s
  · rw [rd_of_regs h, rd_latchAlarm hlatch]
  · rw [rd_of_regs h, State.setFld, rd_wr_of_ne hstatus, rd_latchAlarm hlatch]

theorem clkLoss_ne_latch (i : Nat) : Reg.clkLoss.addr 0 ≠ Reg.evtAlarmLatch.addr i := by
  simp only [RegSpec.addr, Reg.clkLoss, Reg.evtAlarmLatch]
  omega

theorem clockKept_alarmArgs (a : Alarm) (inst : Nat) (a0 a1 a2 : Int) (s : State) : ClockKept s (alarmArgs a inst a0 a1 a2 s) :=
  clockKept_of_sansReports (sansReports_alarmArgs ..) (rd_alarmArgs (clkLoss_ne_latch _) (by decide) ..)

theorem clockKept_sendXlk (dst : Nat) (f : XlkTx) (s : State) : ClockKept s (sendXlk dst f s) :=
  clockKept_of_sansReports (sansReports_sendXlk ..) (rd_clkLoss_of_words (words_of_reported (reported_sendXlk ..)))

theorem clockKept_modXlk (f : Xlk → Xlk) (s : State) : ClockKept s (s.modXlk f) := ⟨rfl, rfl, rfl⟩

theorem clockKept_modMlk (f : Mlk → Mlk) (s : State) : ClockKept s (s.modMlk f) := ⟨rfl, rfl, rfl⟩

/-! ## A port goes down -/

theorem clockKept_ceaseRoot (s : State) : ClockKept s (ceaseRoot s) := by
  unfold ceaseRoot
  split
  · exact (clockKept_modXlk ..).trans (clockKept_alarmArgs ..)
  · exact .refl s

theorem clockKept_electRoot (s : State) : ClockKept s (electRoot s) := by
  unfold electRoot
  extract_lets b y
  have hy : ClockKept s y := clockKept_modXlk ..
  split
  · exact clockKept_modXlk ..
  · split
    · exact hy
    · exact hy.trans (clockKept_ceaseRoot y)

theorem clockKept_sendLinkState (s : State) : ClockKept s (sendLinkState s) := by
  unfold sendLinkState
  split
  · exact clockKept_sendXlk ..
  · exact .refl s

theorem clockKept_portDown (n : Fin 32) (s : State) : ClockKept s (portDown n s) := by
  unfold portDown portChanged noteReach
  extract_lets was fresh y
  have hy : ClockKept s y := ⟨rfl, rfl, rfl⟩
  split
  · exact hy.trans ((clockKept_sendLinkState y).trans ((clockKept_modXlk ..).trans (clockKept_electRoot _)))
  · exact hy

/-! ## A lane goes down -/

theorem clockKept_swapEnded (w : Swap) (s : State) : ClockKept s (swapEnded w s) := by
  have hpark : ∀ x : State, ClockKept x (parkAxes x) := fun _ => ⟨rfl, rfl, rfl⟩
  unfold swapEnded
  exact (clockKept_sendXlk ..).trans ((clockKept_modXlk ..).trans ((clockKept_modMlk ..).trans (hpark _)))

theorem clockKept_complete (id : RingId) (st : Status) (r : Nat) (s : State) : ClockKept s (complete id st r s) :=
  ⟨complete_str .., complete_lsi .., rd_of_regs (complete_regs ..) ..⟩

theorem clockKept_swapDone (s : State) : ClockKept s (swapDone s) := by
  obtain h | ⟨w, h | h⟩ := swapDone_cases s
  · rw [h]
    exact .refl s
  · rw [h]
    exact clockKept_swapEnded w s
  · rw [h]
    exact (clockKept_swapEnded w s).trans (clockKept_complete ..)

theorem clockKept_settleJob (ctx : Fin 64) (s : State) : ClockKept s (settleJob ctx s) := by
  have h := sansSettling_settleJob ctx s
  exact ⟨eq_of_sansSettling h (g := State.str) fun _ => rfl, eq_of_sansSettling h (g := State.lsi) fun _ => rfl,
    rd_clkLoss_of_words (words_of_reported (reported_settleJob ..))⟩

theorem clockKept_slotConfirmed (x : FireSlot) (s : State) : ClockKept s (slotConfirmed x s) := by
  have hpac : ClockKept s (s.modPac fun p => { p with slots := p.slots.filter fun z => !x.same z }) := ⟨rfl, rfl, rfl⟩
  unfold slotConfirmed mirror
  split
  · exact hpac.trans (clockKept_sendXlk ..)
  · exact hpac

theorem clockKept_hubDone (x : FireSlot) (hub : Nat) (s : State) : ClockKept s (hubDone x hub s) := by
  obtain h | h := hubDone_cases x hub s
  · rw [h]
    exact ⟨rfl, rfl, rfl⟩
  · rw [h]
    exact (clockKept_slotConfirmed x s).trans ((clockKept_settleJob ..).trans (clockKept_swapDone _))

theorem clockKept_unconfirm (x : FireSlot) (hub : Nat) (s : State) : ClockKept s (unconfirm x hub s) := by
  have hloss : (unconfirm x hub s).rd Reg.clkLoss 0 = s.rd Reg.clkLoss 0 := by
    obtain ⟨-, hwords⟩ := unconfirm_leaves x hub s
    have hne : Reg.clkLoss.addr 0 ≠ Reg.mlkFault.addr x.plane := by
      simp only [RegSpec.addr, Reg.clkLoss, Reg.mlkFault]
      omega
    rw [rd_clkLoss_of_words hwords, State.count, rd_wr_of_ne hne]
  suffices h : (unconfirm x hub s).str = s.str ∧ (unconfirm x hub s).lsi = s.lsi from ⟨h.1, h.2, hloss⟩
  unfold unconfirm
  extract_lets e num f heads on y z cause w
  have hz : z.str = s.str ∧ z.lsi = s.lsi := ⟨rfl, rfl⟩
  clear_value z
  obtain ⟨log, regs, hdiag⟩ := diag_eq .slotFault hub num x.course (x.plane + 256 * x.row + 65536 * cause : Nat) z
  have hw : w.str = z.str ∧ w.lsi = z.lsi := by
    rw [show w = { z with log := log, regs := regs } from hdiag]
    exact ⟨rfl, rfl⟩
  obtain ⟨jobs, hflag⟩ := flagWales_eq (Fin.ofNat 64 x.ctx) (Fin.ofNat 8 x.plane) x.course 2 (on.map (·.1)) w
  have hdone := clockKept_hubDone x hub (flagWales (Fin.ofNat 64 x.ctx) (Fin.ofNat 8 x.plane) x.course 2 (on.map (·.1)) w)
  rw [hdone.str, hdone.lsi, hflag]
  exact ⟨hw.1.trans hz.1, hw.2.trans hz.2⟩

theorem clockKept_loseSlots (hub : Nat) (s : State) : ClockKept s (loseSlots hub s) := by
  unfold loseSlots
  refine clockKept_foldl (fun s x => ?_) _ s
  split
  · exact clockKept_unconfirm ..
  · exact .refl s

theorem clockKept_laneDown (l : Fin 64) (s : State) : ClockKept s (laneDown l s) := by
  unfold laneDown
  extract_lets was y
  have hy : ClockKept s y := ⟨rfl, rfl, rfl⟩
  split
  next e _ =>
    extract_lets z
    have hz : ClockKept s z := hy.trans (clockKept_alarmArgs ..)
    split
    · exact hz.trans (clockKept_loseSlots ..)
    · exact hz
  · exact hy

end Sys2Proof.Machine
end

section
/-! GPIO, reference clocks, I2C, UART and the test port (R473 to R503), and obligation O58. -/
namespace Sys2Proof.Machine

open Sys2Proof.Claim

/-! ## GPIO -/

section
variable {t : Nat} {m : Fin 64} {value : Word} {s : State} (hr : s.ringsRun = true)
include hr

/-- A write to PIO_FUNC that one of its conditions refuses. -/
theorem exec_pioFuncWrite_refused {st : Status} (hst : st ≠ .ok) (h : firstRefusal (pinConds s m value) = st) :
    exec (.pioFuncWrite t m value) s = .next (after t s fun s => s.recordErr Reg.pioErr 0 (0x100 + 4 * m) st) := by
  refine (ringCmd_eq_after hr ?_ : execPioFuncWrite t m value s = _)
  exact refuseOr_refused _ _ _ _ _ (show firstRefusal (pinConds (s.arrive t) m value) = st from h) hst

theorem exec_pioFuncWrite_badMode (hmode : s.modeIn [.standby, .service, .print] = false) :
    exec (.pioFuncWrite t m value) s = .next (after t s fun s => s.recordErr Reg.pioErr 0 (0x100 + 4 * m) .badMode) :=
  exec_pioFuncWrite_refused hr (by decide) (firstRefusal_cons_of_true (by rw [hmode]; rfl) ..)

variable (hmode : s.modeIn [.standby, .service, .print] = true)
include hmode

theorem exec_pioFuncWrite_badState (hbusy : (enPinBusy s (pinFunc s m) || enPinBusy s (bitsOf value 7 0)) = true) :
    exec (.pioFuncWrite t m value) s = .next (after t s fun s => s.recordErr Reg.pioErr 0 (0x100 + 4 * m) .badState) :=
  exec_pioFuncWrite_refused hr (by decide) ((firstRefusal_cons_of_false (by rw [hmode]; rfl) ..).trans (firstRefusal_cons_of_true hbusy ..))

variable (hnow : enPinBusy s (pinFunc s m) = false) (hthen : enPinBusy s (bitsOf value 7 0) = false)
include hnow hthen

/-- Whether another pin has a function that one pin alone may have. -/
def funcTaken (s : State) (m f : Nat) : Bool := decide (1 < f) && (List.range 64).any fun k => k != m && pinFunc s k == f

omit hr in
/-- With no mode and no axis in the way, the range of the value decides. -/
theorem firstRefusal_pinConds : firstRefusal (pinConds s m value) = if (!Reg.pioFunc.inRange value || pinFuncReserved (bitsOf value 7 0) ||
    funcTaken s m (bitsOf value 7 0) || (s.str.tables.any fun t => pinAxisMissing t (bitsOf value 7 0))) = true then .range else .ok :=
  (firstRefusal_cons_of_false (by rw [hmode]; rfl) ..).trans (firstRefusal_cons_of_false (by rw [hnow, hthen]; rfl) ..)

theorem exec_pioFuncWrite_reserved (hres : pinFuncReserved (bitsOf value 7 0) = true) :
    exec (.pioFuncWrite t m value) s = .next (after t s fun s => s.recordErr Reg.pioErr 0 (0x100 + 4 * m) .range) := by
  refine exec_pioFuncWrite_refused hr (by decide) ((firstRefusal_pinConds hmode hnow hthen).trans (if_pos ?_))
  rw [hres, Bool.or_true, Bool.true_or, Bool.true_or]

theorem exec_pioFuncWrite_taken {k : Fin 64} (hk : k ≠ m) (hf : 1 < bitsOf value 7 0) (hpin : pinFunc s k = bitsOf value 7 0) :
    exec (.pioFuncWrite t m value) s = .next (after t s fun s => s.recordErr Reg.pioErr 0 (0x100 + 4 * m) .range) := by
  have htaken : funcTaken s m (bitsOf value 7 0) = true := by
    refine Bool.and_eq_true_iff.mpr ⟨decide_eq_true hf, List.any_eq_true.mpr ⟨k, List.mem_range.mpr k.isLt, ?_⟩⟩
    exact Bool.and_eq_true_iff.mpr ⟨bne_iff_ne.mpr fun e => hk (Fin.ext e), beq_iff_eq.mpr hpin⟩
  refine exec_pioFuncWrite_refused hr (by decide) ((firstRefusal_pinConds hmode hnow hthen).trans (if_pos ?_))
  rw [htaken, Bool.or_true, Bool.true_or]

theorem exec_pioFuncWrite_acts (hf : bitsOf value 7 0 ≤ 1) (hrange : bitsOf value 9 8 ≤ 2) : exec (.pioFuncWrite t m value) s =
    .next (after t s fun s => (s.wr Reg.pioFunc m (value &&& 0x3FFF#32)).modLsi fun l =>
      { l with gpio := l.gpio.set m { s.lsi.gpio[m] with parked := false, prev := none } }) := by
  have hin : Reg.pioFunc.inRange value = true := by
    refine Bool.and_eq_true_iff.mpr ⟨decide_eq_true ⟨Int.natCast_nonneg _, ?_⟩, rfl⟩
    show ((bitsOf value 9 8 : Nat) : Int) ≤ 2
    omega
  have hres : pinFuncReserved (bitsOf value 7 0) = false := by
    rw [pinFuncReserved, decide_eq_true (by omega : bitsOf value 7 0 ≤ 0x0A)]
    rfl
  have htaken : funcTaken s m (bitsOf value 7 0) = false := by
    rw [funcTaken, decide_eq_false (by omega), Bool.false_and]
  have haxis : (s.str.tables.any fun t => pinAxisMissing t (bitsOf value 7 0)) = false := by
    have hnone : ∀ tb, pinAxisMissing tb (bitsOf value 7 0) = false := fun tb => by
      rw [pinAxisMissing, if_neg (by omega), if_neg (by omega)]
    cases s.str.tables with
    | none => rfl
    | some tb => exact hnone tb
  have hok : firstRefusal (pinConds s m value) = .ok := by
    rw [firstRefusal_pinConds hmode hnow hthen, hin, hres, htaken, haxis]
    rfl
  refine (ringCmd_eq_after hr ?_ : execPioFuncWrite t m value s = _)
  exact refuseOr_ok _ _ _ _ _ (show firstRefusal (pinConds (s.arrive t) m value) = .ok from hok)

end

section
variable {t : Nat} {m : Fin 64} {high : Bool} {s : State} (hr : s.ringsRun = true)
include hr

/-- The level of a pin as an edge leaves it. -/
def pinMoved (m : Fin 64) (high : Bool) (s : State) : State := s.modLsi fun l =>
  { l with gpio := l.gpio.set m { s.lsi.gpio[m] with level := high, prev := if (s.lsi.gpio[m]).parked then none else some high } }

/-- Whether an edge latches. -/
def edgeLatches (s : State) (m : Fin 64) (high : Bool) : Bool :=
  !(s.lsi.gpio[m]).parked && (s.lsi.gpio[m]).prev.getD (s.lsi.gpio[m]).level != high && pinFunc s m == 0 &&
    edgeSelected (s.fld Reg.pioFunc m 13 12) high

theorem exec_gpioInputEdge : exec (.gpioInputEdge t m high) s = .next (after t s fun s =>
    if edgeLatches s m high then (pinMoved m high s).setFld Reg.pioEdge (m / 32) (m % 32) (m % 32) 1 else pinMoved m high s) :=
  (ringCmd_eq_after hr rfl : execGpioInputEdge t m high s = _)

theorem exec_gpioInputEdge_level (h : edgeLatches s m high = false) :
    exec (.gpioInputEdge t m high) s = .next (after t s (pinMoved m high)) :=
  (exec_gpioInputEdge hr).trans (next_after_congr (if_neg (show ¬edgeLatches s m high = true from by rw [h]; decide)))

theorem leaves_gpioInputEdge (hon : (s.lsi.gpio[m]).parked = false) (h : edgeLatches s m high = true) :
    Leaves (.gpioInputEdge t m high) s fun s' => bitOf s' Reg.pioEdge (m / 32) (m % 32) = true ∧
      s'.lsi.gpio[m] = { s.lsi.gpio[m] with level := high, prev := some high } ∧ s'.jobs = s.jobs := by
  have hexec : exec (.gpioInputEdge t m high) s =
      .next (after t s fun s => (pinMoved m high s).setFld Reg.pioEdge (m / 32) (m % 32) (m % 32) 1) :=
    (exec_gpioInputEdge hr).trans (next_after_congr (if_pos (show edgeLatches (s.arrive t) m high = true from h)))
  refine ⟨_, hexec, bitOf_setFld_one (Nat.mod_lt _ (by decide)) (by rw [show Reg.pioEdge.reset = 0#32 from rfl, BitVec.getLsbD_zero]) .., ?_, rfl⟩
  show (s.lsi.gpio.set m { s.lsi.gpio[m] with level := high, prev := if (s.lsi.gpio[m]).parked then none else some high })[m] = _
  rw [hon]
  exact Vector.getElem_set_self ..

end

/-! ## Reference clocks -/

/-- The lane of a quad. -/
def quadLane (quad : Fin 16) (k : Nat) : Fin 64 := Fin.ofNat 64 (4 * quad.val + k)

/-- A lane that has lost its clock goes down, a fabric lane with its port. -/
def laneLost (quad : Fin 16) (s : State) (k : Nat) : State :=
  match lanePort s (quadLane quad k) with
  | some n => if (s.xlk.ports[n]).st ≠ .down then portDown n s else s
  | none => if (s.laneEp (quadLane quad k)).isSome ∧ (s.mlk.lanes[quadLane quad k]).st ≠ .down then laneDown (quadLane quad k) s else s

/-- A quad's clock as lost, latched in CLK_LOSS. -/
def clockLost (quad : Fin 16) (s : State) : State :=
  (s.setFld Reg.clkLoss 0 (16 + quad) (16 + quad) 1).modLsi fun l => { l with qref := l.qref &&& ~~~(1#16 <<< quad.val) }

theorem clockKept_laneLost (quad : Fin 16) (s : State) (k : Nat) : ClockKept s (laneLost quad s k) := by
  unfold laneLost
  split
  · split
    · exact clockKept_portDown ..
    · exact .refl s
  · split
    · exact clockKept_laneDown ..
    · exact .refl s

theorem lanePort_of_no_ports {s : State} (h : fabricPorts s = []) (l : Nat) : lanePort s l = none := by
  refine List.find?_eq_none.mpr fun n hn hl => ?_
  have hempty := List.filter_eq_nil_iff.mp h n hn
  have hnil : fabricLanes s n = [] := by simpa using hempty
  rw [hnil] at hl
  exact absurd hl (by simp)

theorem fabricPorts_of_str {s s' : State} (h : s'.str = s.str) : fabricPorts s' = fabricPorts s := by
  unfold fabricPorts fabricLanes
  rw [h]

theorem laneEp_of_str {s s' : State} (h : s'.str = s.str) (l : Fin 64) : s'.laneEp l = s.laneEp l := by
  unfold State.laneEp State.endpoints
  rw [h]

/-- Without fabric ports, a lane that has lost its clock is down where it belongs to an endpoint, and no other lane changes. -/
theorem laneLost_lanes {quad : Fin 16} {s : State} (h : fabricPorts s = []) (k : Nat) :
    ((s.laneEp (quadLane quad k)).isSome = true → ((laneLost quad s k).mlk.lanes[quadLane quad k]).st = .down) ∧
      ∀ l, l ≠ quadLane quad k → (laneLost quad s k).mlk.lanes[l] = s.mlk.lanes[l] := by
  have heq : laneLost quad s k = if (s.laneEp (quadLane quad k)).isSome ∧ (s.mlk.lanes[quadLane quad k]).st ≠ .down then
      laneDown (quadLane quad k) s else s := by
    unfold laneLost
    rw [lanePort_of_no_ports h]
  rw [heq]
  by_cases hup : (s.laneEp (quadLane quad k)).isSome ∧ (s.mlk.lanes[quadLane quad k]).st ≠ .down
  · rw [if_pos hup, laneDown_lanes]
    refine ⟨fun _ => ?_, fun l hl => upd_getElem_of_ne hl ..⟩
    rw [upd_getElem_self]
    rfl
  · rw [if_neg hup]
    exact ⟨fun hep => Decidable.not_not.mp fun hne => hup ⟨hep, hne⟩, fun _ _ => rfl⟩

theorem lanesLost_lanes {quad : Fin 16} (ks : List Nat) {s : State} (h : fabricPorts s = []) :
    (∀ l, (s.laneEp l).isSome = true → (∃ k ∈ ks, l = quadLane quad k) ∨ (s.mlk.lanes[l]).st = .down →
      ((ks.foldl (laneLost quad) s).mlk.lanes[l]).st = .down) ∧
    ∀ l, (∀ k ∈ ks, l ≠ quadLane quad k) → (ks.foldl (laneLost quad) s).mlk.lanes[l] = s.mlk.lanes[l] := by
  induction ks generalizing s with
  | nil => exact ⟨fun l _ hl => hl.elim (fun ⟨_, hk, _⟩ => nomatch hk) id, fun _ _ => rfl⟩
  | cons a ks ih =>
    have hstr := (clockKept_laneLost quad s a).str
    obtain ⟨hself, hother⟩ := laneLost_lanes (quad := quad) h a
    obtain ⟨ihdown, ihkept⟩ := ih ((fabricPorts_of_str hstr).trans h)
    refine ⟨fun l hep hl => ihdown l (by rw [laneEp_of_str hstr]; exact hep) ?_, fun l hl => ?_⟩
    · by_cases heq : l = quadLane quad a
      · subst heq
        exact .inr (hself hep)
      · refine hl.imp (fun ⟨k, hk, hlk⟩ => ⟨k, (List.mem_cons.mp hk).resolve_left fun e => heq (e ▸ hlk), hlk⟩) fun hdown => ?_
        rw [hother l heq]
        exact hdown
    · exact (ihkept l fun k hk => hl k (List.mem_cons_of_mem _ hk)).trans (hother l (hl a List.mem_cons_self))

theorem clockLost_leaves (quad : Fin 16) (s : State) : (clockLost quad s).lsi.qref.getLsbD quad = false ∧
    (∀ q : Fin 16, q ≠ quad → (clockLost quad s).lsi.qref.getLsbD q = s.lsi.qref.getLsbD q) ∧
    bitOf (clockLost quad s) Reg.clkLoss 0 (16 + quad) = true := by
  have hqref : (clockLost quad s).lsi.qref = s.lsi.qref &&& ~~~(1#16 <<< quad.val) := rfl
  refine ⟨?_, fun q hq => ?_, ?_⟩
  · rw [hqref]
    simp
  · have hne : q.val ≠ quad.val := fun e => hq (Fin.ext e)
    rw [hqref]
    simp
    omega
  · exact bitOf_setFld_one (by omega) (by rw [show Reg.clkLoss.reset = 0#32 from rfl, BitVec.getLsbD_zero]) ..

section
variable {t : Nat} {quad : Fin 16} {s : State}

theorem exec_qrefLoss_off (hr : s.ringsRun = false) : exec (.qrefLoss t quad) s = .next (after t s (clockLost quad)) := by
  refine (run_eq_after ?_ : execQrefLoss t quad s = _)
  exact if_neg (show ¬s.ringsRun = true from by rw [hr]; decide)

theorem exec_qrefLoss_on (hr : s.ringsRun = true) : exec (.qrefLoss t quad) s =
    .next (after t s fun s => (List.range 4).foldl (laneLost quad) (clockLost quad s)) := by
  refine (run_eq_after ?_ : execQrefLoss t quad s = _)
  refine (if_pos (show s.ringsRun = true from hr)).trans ?_
  generalize List.range 4 = ks
  rfl

theorem leaves_qrefLoss (hr : s.ringsRun = true) : Leaves (.qrefLoss t quad) s fun s' => s'.lsi.qref.getLsbD quad = false ∧
    (∀ q : Fin 16, q ≠ quad → s'.lsi.qref.getLsbD q = s.lsi.qref.getLsbD q) ∧ bitOf s' Reg.clkLoss 0 (16 + quad) = true ∧
    (∀ l : Fin 64, l.val / 4 = quad.val → fabricPorts s = [] → (s.laneEp l).isSome = true → (s'.mlk.lanes[l]).st = .down) ∧
    (∀ l : Fin 64, l.val / 4 ≠ quad.val → fabricPorts s = [] → (s'.mlk.lanes[l]).st = (s.mlk.lanes[l]).st) := by
  refine leaves_of_effect (exec_qrefLoss_on hr) fun y hy => ?_
  obtain ⟨hoff, hkept, htold⟩ := clockLost_leaves quad (s.arrive t)
  have hclock := clockKept_foldl (clockKept_laneLost quad) (List.range 4) (clockLost quad (s.arrive t))
  have hlanes := lanesLost_lanes (quad := quad) (List.range 4) (s := clockLost quad (s.arrive t))
  rw [← hy] at hclock hlanes
  rw [← hclock.lsi] at hoff hkept
  rw [bitOf, ← hclock.loss, ← bitOf] at htold
  refine ⟨hoff, hkept, htold, fun l hl hports hep => ?_, fun l hl hports => ?_⟩
  · refine (hlanes hports).1 l hep (.inl ⟨l.val % 4, List.mem_range.mpr (Nat.mod_lt _ (by decide)), Fin.ext ?_⟩)
    show l.val = (4 * quad.val + l.val % 4) % 64
    omega
  · refine congrArg Lane.st ((hlanes hports).2 l fun k hk e => hl ?_)
    have hk4 := List.mem_range.mp hk
    have hval : l.val = (4 * quad.val + k) % 64 := congrArg Fin.val e
    omega

theorem exec_qrefRestored : exec (.qrefRestored t quad) s = .next (after t s fun s => s.modLsi fun l =>
    { l with qref := l.qref ||| (1#16 <<< quad.val) }) :=
  (run_eq_after rfl : execQrefRestored t quad s = _)

end

end Sys2Proof.Machine
end

section
/-! I2C, UART and the test port (R500 to R503), and obligation O58. -/
namespace Sys2Proof.Machine

open Sys2Proof.Claim

/-! ## Register bits -/

/-- A field write of a 1 clears no bit. -/
theorem getLsbD_setBits_of_set {w : Word} {b c : Nat} (hc : w.getLsbD c = true) : (setBits w b b 1).getLsbD c = true := by
  cases hb : w.getLsbD b
  · rw [setBits_one_eq_or hb, BitVec.getLsbD_or, hc, Bool.true_or]
  · have hone : bitsOf w b b = 1 := (bitsOf_eq_one_iff w b).mpr hb
    have hsame : setBits w b b 1 = w := by
      apply BitVec.eq_of_toNat_eq
      have hle : 2 ^ b ≤ w.toNat := Nat.ge_two_pow_of_testBit hb
      have hlt := w.isLt
      simp only [setBits, hone, Nat.sub_self, Nat.zero_add, pow_one, Nat.one_mul, Nat.one_mod, BitVec.toNat_ofNat]
      rw [Nat.sub_add_cancel hle, Nat.mod_eq_of_lt hlt]
    rw [hsame, hc]

/-- A bit that is set stays set through a field write of a 1 elsewhere in its word. -/
theorem bitOf_setFld_of_set {r : RegSpec} {i b c : Nat} (hb : b < 32) (hreset : r.reset.getLsbD b = false) {s : State}
    (hc : bitOf s r i c = true) : bitOf (s.setFld r i b b 1) r i c = true := by
  have hbit := setBits_getLsbD (s.rd r i) hb
  have hne : setBits (s.rd r i) b b 1 ≠ r.reset := fun h => by rw [h, hreset] at hbit; exact absurd hbit (by decide)
  rw [bitOf, State.setFld, rd_wr_self hne]
  exact getLsbD_setBits_of_set hc

/-! ## I2C -/

section
variable {t received : Nat} {port : Fin 2} {value : Word} {nack arb : Bool} {s : State} (hr : s.ringsRun = true)
include hr

theorem exec_i2cGo_refused {st : Status} (hst : st ≠ .ok) (h : firstRefusal (i2cConds s port value) = st) :
    exec (.i2cGo t port value) s = .next (after t s fun s => s.recordErr Reg.lsiErr 0 (0x004 + 0x10 * port) st) := by
  refine (ringCmd_eq_after hr ?_ : execI2cGo t port value s = _)
  exact refuseOr_refused _ _ _ _ _ (show firstRefusal (i2cConds (s.arrive t) port value) = st from h) hst

section
variable (hon : s.isDisabled 0x0F port = false)
include hon

theorem exec_i2cGo_busy (hbusy : (s.lsi.i2c[port]).busy = true) :
    exec (.i2cGo t port value) s = .next (after t s fun s => s.recordErr Reg.lsiErr 0 (0x004 + 0x10 * port) .busy) :=
  exec_i2cGo_refused hr (by decide) ((firstRefusal_cons_of_false hon ..).trans (firstRefusal_cons_of_true hbusy ..))

theorem exec_i2cGo_range (hidle : (s.lsi.i2c[port]).busy = false) (hlen : 64 < bitsOf value 15 8 ∨ 64 < bitsOf value 7 0) :
    exec (.i2cGo t port value) s = .next (after t s fun s => s.recordErr Reg.lsiErr 0 (0x004 + 0x10 * port) .range) :=
  exec_i2cGo_refused hr (by decide) ((firstRefusal_cons_of_false hon ..).trans ((firstRefusal_cons_of_false hidle ..).trans
    (firstRefusal_cons_of_true (decide_eq_true hlen) ..)))

/-- A transfer that starts: the command word, WLEN bytes taken, and the start on the bus. -/
def i2cStarted (port : Fin 2) (value : Word) (s : State) : State :=
  (modI2c port (fun x => { x with busy := true, tx := x.tx - bitsOf value 15 8 })
    (s.wr Reg.lsiI2cCmd port (value &&& Reg.lsiI2cCmd.rw))).emit
    (.i2c port (bitsOf value 22 16) (bitsOf value 15 8) (bitsOf value 7 0))

theorem exec_i2cGo_acts (hidle : (s.lsi.i2c[port]).busy = false) (hw : bitsOf value 15 8 ≤ 64) (hrd : bitsOf value 7 0 ≤ 64)
    (hen : s.fld Reg.lsiI2cCfg port 31 31 = 1) : exec (.i2cGo t port value) s = .next (after t s (i2cStarted port value)) := by
  refine (ringCmd_eq_after hr ?_ : execI2cGo t port value s = _)
  have hok : firstRefusal (i2cConds (s.arrive t) port value) = .ok :=
    (firstRefusal_cons_of_false hon ..).trans ((firstRefusal_cons_of_false hidle ..).trans
      (firstRefusal_cons_of_false (decide_eq_false (by omega)) ..))
  have hne : Reg.lsiI2cCfg.addr port ≠ Reg.lsiI2cCmd.addr port := by
    simp only [RegSpec.addr, Reg.lsiI2cCfg, Reg.lsiI2cCmd]
    omega
  have hfld : ((s.arrive t).wr Reg.lsiI2cCmd port (value &&& Reg.lsiI2cCmd.rw)).fld Reg.lsiI2cCfg port 31 31 = 1 := by
    rw [State.fld, rd_wr_of_ne hne]
    exact hen
  exact (refuseOr_ok _ _ _ _ _ hok).trans (if_pos hfld)

theorem leaves_i2cGo (hidle : (s.lsi.i2c[port]).busy = false) (hw : bitsOf value 15 8 ≤ 64) (hrd : bitsOf value 7 0 ≤ 64)
    (hen : s.fld Reg.lsiI2cCfg port 31 31 = 1) : Leaves (.i2cGo t port value) s fun s' => (s'.lsi.i2c[port]).busy = true ∧
      (s'.lsi.i2c[port]).tx = (s.lsi.i2c[port]).tx - bitsOf value 15 8 ∧
      s'.out = [.i2c port (bitsOf value 22 16) (bitsOf value 15 8) (bitsOf value 7 0)] := by
  refine ⟨_, exec_i2cGo_acts hr hon hidle hw hrd hen, ?_⟩
  have hport : (after t s (i2cStarted port value)).lsi.i2c[port] =
      { s.lsi.i2c[port] with busy := true, tx := (s.lsi.i2c[port]).tx - bitsOf value 15 8 } := upd_getElem_self ..
  exact ⟨(congrArg I2c.busy hport :), (congrArg I2c.tx hport :), rfl⟩

end

theorem exec_i2cTransferDone_idle (hidle : (s.lsi.i2c[port]).busy = false) :
    exec (.i2cTransferDone t port nack arb received) s = .next (after t s id) := by
  refine (ringCmd_eq_after hr ?_ : execI2cTransferDone t port nack arb received s = _)
  exact if_neg (show ¬(s.lsi.i2c[port]).busy = true from by rw [hidle]; decide)

theorem exec_i2cSclTimeout_idle (hidle : (s.lsi.i2c[port]).busy = false) :
    exec (.i2cSclTimeout t port) s = .next (after t s id) := by
  refine (ringCmd_eq_after hr ?_ : execI2cSclTimeout t port s = _)
  exact if_neg (show ¬(s.lsi.i2c[port]).busy = true from by rw [hidle]; decide)

/-- A transfer that ends, with what was read in the receive FIFO. -/
def i2cEnded (port : Fin 2) (received : Nat) (s : State) : State :=
  modI2c port (fun x => { x with busy := false, rx := min 64 (x.rx + received) }) s

/-- The status bits of a transfer that ends. -/
def i2cTold (port : Fin 2) (nack arb : Bool) (s : State) : State :=
  when arb (fun s => s.setFld Reg.lsiI2cStatus port 2 2 1) (when nack (fun s => s.setFld Reg.lsiI2cStatus port 3 3 1) s)

omit hr in
theorem i2cTold_leaves : (i2cTold port nack arb s).lsi = s.lsi ∧
    (nack = true → bitOf (i2cTold port nack arb s) Reg.lsiI2cStatus port 3 = true) ∧
    (arb = true → bitOf (i2cTold port nack arb s) Reg.lsiI2cStatus port 2 = true) ∧
    (nack = false → arb = false → (i2cTold port nack arb s).regs = s.regs) := by
  have hset : ∀ x : State, ∀ b < 4, bitOf (x.setFld Reg.lsiI2cStatus port b b 1) Reg.lsiI2cStatus port b = true := fun x b hb =>
    bitOf_setFld_one (by omega) (by rw [show Reg.lsiI2cStatus.reset = 0#32 from rfl, BitVec.getLsbD_zero]) ..
  cases nack with
  | false =>
    cases arb with
    | false => exact ⟨rfl, (fun h => nomatch h), (fun h => nomatch h), fun _ _ => rfl⟩
    | true => exact ⟨rfl, (fun h => nomatch h), fun _ => hset s 2 (by decide), fun _ h => nomatch h⟩
  | true =>
    cases arb with
    | false => exact ⟨rfl, fun _ => hset s 3 (by decide), (fun h => nomatch h), fun h => nomatch h⟩
    | true =>
      refine ⟨rfl, fun _ => ?_, fun _ => hset _ 2 (by decide), fun h => nomatch h⟩
      exact bitOf_setFld_of_set (by decide) rfl (hset s 3 (by decide))

variable (hbusy : (s.lsi.i2c[port]).busy = true)
include hbusy

theorem leaves_i2cTransferDone : Leaves (.i2cTransferDone t port nack arb received) s fun s' => (s'.lsi.i2c[port]).busy = false ∧
    (s'.lsi.i2c[port]).rx = min 64 ((s.lsi.i2c[port]).rx + received) ∧
    (nack = true → bitOf s' Reg.lsiI2cStatus port 3 = true) ∧ (arb = true → bitOf s' Reg.lsiI2cStatus port 2 = true) ∧
    (nack = false → arb = false → s'.regs = s.regs) := by
  have hexec : exec (.i2cTransferDone t port nack arb received) s =
      .next (after t s fun s => i2cTold port nack arb (i2cEnded port received s)) := by
    refine (ringCmd_eq_after hr ?_ : execI2cTransferDone t port nack arb received s = _)
    exact if_pos (show (s.lsi.i2c[port]).busy = true from hbusy)
  refine leaves_of_effect hexec fun y hy => ?_
  obtain ⟨hlsi, hnack, harb, hregs⟩ := i2cTold_leaves (port := port) (nack := nack) (arb := arb) (s := i2cEnded port received (s.arrive t))
  rw [← hy] at hlsi hnack harb hregs
  have hport : y.lsi.i2c[port] = { s.lsi.i2c[port] with busy := false, rx := min 64 ((s.lsi.i2c[port]).rx + received) } := by
    rw [hlsi]
    exact upd_getElem_self ..
  exact ⟨(congrArg I2c.busy hport :), (congrArg I2c.rx hport :), hnack, harb, hregs⟩

theorem leaves_i2cSclTimeout : Leaves (.i2cSclTimeout t port) s fun s' => (s'.lsi.i2c[port]).busy = false ∧
    bitOf s' Reg.lsiI2cStatus port 1 = true := by
  have hexec : exec (.i2cSclTimeout t port) s = .next (after t s fun s =>
      (modI2c port (fun x => { x with busy := false }) s).setFld Reg.lsiI2cStatus port 1 1 1) := by
    refine (ringCmd_eq_after hr ?_ : execI2cSclTimeout t port s = _)
    exact if_pos (show (s.lsi.i2c[port]).busy = true from hbusy)
  refine ⟨_, hexec, ?_, bitOf_setFld_one (by decide) rfl port (modI2c port (fun x => { x with busy := false }) (s.arrive t))⟩
  exact congrArg I2c.busy (upd_getElem_self s.lsi.i2c port _)

end

/-! ## UART -/

section
variable {t : Nat} {port : Fin 2} {ch : Byte} {stopOk parityOk : Bool} {s : State} (hr : s.ringsRun = true)
variable (hen : s.fld Reg.lsiUartCfg port 31 31 = 1) (hon : s.isDisabled 0x0F (port + 2) = false)
include hr hen hon

/-- What a character does on a port that is on: its fault's bit, or its place in the queue. -/
def uartTaken (port : Fin 2) (ch : Byte) (fault : Option Nat) (s : State) : State :=
  match fault with
  | some b => s.setFld Reg.lsiUartStatus port b b 1
  | none => s.modLsi fun l => { l with uart := upd l.uart port fun u => { u with rx := u.rx ++ [ch] } }

theorem exec_uartReceive : exec (.uartReceive t port ch stopOk parityOk) s =
    .next (after t s (uartTaken port ch (uartFault s port stopOk parityOk))) := by
  refine (ringCmd_eq_after hr ?_ : execUartReceive t port ch stopOk parityOk s = _)
  refine (if_neg (show ¬(s.fld Reg.lsiUartCfg port 31 31 = 0 ∨ s.isDisabled 0x0F (port + 2) = true) from ?_)).trans rfl
  rw [hen, hon]
  decide

theorem exec_uartReceive_of {fault : Option Nat} (h : uartFault s port stopOk parityOk = fault) :
    exec (.uartReceive t port ch stopOk parityOk) s = .next (after t s (uartTaken port ch fault)) :=
  h ▸ exec_uartReceive hr hen hon

theorem exec_uartReceive_framing (h : stopOk = false) : exec (.uartReceive t port ch stopOk parityOk) s =
    .next (after t s fun s => s.setFld Reg.lsiUartStatus port 30 30 1) :=
  exec_uartReceive_of hr hen hon (fault := some 30) (by rw [uartFault, h]; rfl)

variable (hstop : stopOk = true)
include hstop

theorem exec_uartReceive_parity (hcfg : s.fld Reg.lsiUartCfg port 25 24 ≠ 0) (h : parityOk = false) :
    exec (.uartReceive t port ch stopOk parityOk) s = .next (after t s fun s => s.setFld Reg.lsiUartStatus port 29 29 1) := by
  refine exec_uartReceive_of hr hen hon (fault := some 29) ?_
  rw [uartFault, hstop, h]
  exact (if_neg (by decide)).trans (if_pos ⟨hcfg, rfl⟩)

omit hr hen hon in
theorem uartFault_of_good (h : parityOk = true) :
    uartFault s port stopOk parityOk = if 256 ≤ (s.lsi.uart[port]).rx.length then some 31 else none := by
  rw [uartFault, hstop, h]
  exact (if_neg (by decide)).trans (if_neg fun hbad => absurd hbad.2 (by decide))

theorem exec_uartReceive_overrun (h : parityOk = true) (hfull : 256 ≤ (s.lsi.uart[port]).rx.length) :
    exec (.uartReceive t port ch stopOk parityOk) s = .next (after t s fun s => s.setFld Reg.lsiUartStatus port 31 31 1) :=
  exec_uartReceive_of hr hen hon (fault := some 31) ((uartFault_of_good hstop h).trans (if_pos hfull))

theorem exec_uartReceive_queued (h : parityOk = true) (hroom : (s.lsi.uart[port]).rx.length < 256) :
    exec (.uartReceive t port ch stopOk parityOk) s = .next (after t s fun s => s.modLsi fun l =>
      { l with uart := l.uart.set port { s.lsi.uart[port] with rx := (s.lsi.uart[port]).rx ++ [ch] } }) :=
  (exec_uartReceive_of hr hen hon (fault := none) ((uartFault_of_good hstop h).trans (if_neg (Nat.not_le.mpr hroom)))).trans
    (next_after_congr rfl)

end

/-! ## The test port -/

section
variable {t : Nat} {s : State}

theorem exec_tapInstruction_open (h : jtagLevel s ≠ 0) (i : TapInstr) :
    exec (.tapInstruction t i) s = .next (after t s fun s => s.modLsi fun l => { l with tap := tapMode s i }) :=
  (run_eq_after (if_neg (show jtagLevel (s.arrive t) ≠ 0 from h)) : execTapInstruction t i s = _)

theorem exec_tapInstruction_closed (h : jtagLevel s = 0) (i : TapInstr) : exec (.tapInstruction t i) s = .next (after t s id) :=
  (run_eq_after (if_pos (show jtagLevel (s.arrive t) = 0 from h)) : execTapInstruction t i s = _)

theorem jtagLevel_of_early (h : lifeCycle s ≤ 1) : jtagLevel s = 2 := by
  unfold jtagLevel
  obtain h | h : lifeCycle s = 0 ∨ lifeCycle s = 1 := by omega
  · rw [h]
    rfl
  · rw [h]
    rfl

theorem jtagLevel_of_field (h : lifeCycle s = 2) : jtagLevel s = if s.sec.policy.getLsbD 0 then 0 else 1 := by
  unfold jtagLevel
  rw [h]
  rfl

/-- At each level of access a debug instruction takes hold at level 2 alone. -/
theorem exec_tapInstruction_debug (h : lifeCycle s ≤ 1) :
    exec (.tapInstruction t .debug) s = .next (after t s fun s => s.modLsi fun l => { l with tap := .debug }) := by
  have hlevel := jtagLevel_of_early h
  refine (exec_tapInstruction_open (by rw [hlevel]; decide) .debug).trans (next_after_congr ?_)
  have hmode : tapMode (s.arrive t) .debug = .debug := if_pos hlevel
  rw [hmode]

theorem exec_tapInstruction_bypassed (h : lifeCycle s = 2) (hpolicy : s.sec.policy.getLsbD 0 = false) :
    exec (.tapInstruction t .debug) s = .next (after t s fun s => s.modLsi fun l => { l with tap := .bypass }) := by
  have hlevel : jtagLevel s = 1 := by rw [jtagLevel_of_field h, hpolicy]; rfl
  refine (exec_tapInstruction_open (by rw [hlevel]; decide) .debug).trans (next_after_congr ?_)
  have hmode : tapMode (s.arrive t) .debug = .bypass := if_neg (show ¬jtagLevel s = 2 from by rw [hlevel]; decide)
  rw [hmode]

theorem exec_tapInstruction_pins (h : lifeCycle s ≤ 1) {i : TapInstr} (hi : i = .extest ∨ i = .clamp) :
    exec (.tapInstruction t i) s = .next (after t s fun s => s.modLsi fun l =>
      { l with tap := if s.dev.rstN then .bypass else if i = .extest then .extest else .clamp }) := by
  have hlevel := jtagLevel_of_early h
  refine (exec_tapInstruction_open (by rw [hlevel]; decide) i).trans (next_after_congr ?_)
  rcases hi with rfl | rfl
  · rfl
  · rfl

end

/-- Settles O58: each interface is a small machine of its own; only the loss of a clock reaches the lanes, which go down one by
one. -/
theorem lowSpeed : Obligations.LowSpeed := by
  unfold Obligations.LowSpeed
  intro t received m quad port value ch high nack arb stopOk parityOk s f g refused level
  have hlevel : ∀ {p}, s.ringsRun = true → (s.lsi.gpio[m]).parked = p → edgeLatches s m high = false → level p := fun hr hp hedge => by
    subst hp
    exact (exec_gpioInputEdge_level hr hedge).trans (next_after_congr rfl)
  refine ⟨fun hr => ⟨exec_pioFuncWrite_badMode hr, exec_pioFuncWrite_badState hr, fun hmode hnow hthen =>
      ⟨exec_pioFuncWrite_reserved hr hmode hnow hthen, fun k => exec_pioFuncWrite_taken hr hmode hnow hthen,
        exec_pioFuncWrite_acts hr hmode hnow hthen⟩, fun hp => hlevel hr hp ?_, fun hp hprev => hlevel hr hp ?_,
      fun hp hfunc => hlevel hr hp ?_, fun hp hprev hfunc hsel => leaves_gpioInputEdge hr hp ?_⟩,
    exec_qrefLoss_off, leaves_qrefLoss, exec_qrefRestored, fun hr hon => ⟨exec_i2cGo_busy hr hon, exec_i2cGo_range hr hon,
      leaves_i2cGo hr hon⟩, fun hr hidle => ⟨exec_i2cTransferDone_idle hr hidle, exec_i2cSclTimeout_idle hr hidle⟩,
    fun hr hbusy => ⟨leaves_i2cTransferDone hr hbusy, leaves_i2cSclTimeout hr hbusy⟩, fun hr hen hon =>
      ⟨exec_uartReceive_framing hr hen hon, exec_uartReceive_parity hr hen hon, exec_uartReceive_overrun hr hen hon,
        exec_uartReceive_queued hr hen hon⟩, exec_tapInstruction_debug, exec_tapInstruction_bypassed,
    fun h hpolicy => exec_tapInstruction_closed (by rw [jtagLevel_of_field h, hpolicy]; rfl), fun h i => exec_tapInstruction_pins h⟩
  · rw [edgeLatches, hp]
    rfl
  · rw [edgeLatches, hp, hprev, Option.getD_some, bne_self_eq_false]
    rfl
  · rw [edgeLatches, beq_eq_false_iff_ne.mpr hfunc, Bool.and_false, Bool.false_and]
  · have hselected : edgeSelected (s.fld Reg.pioFunc m 13 12) high = true := by
      rcases hsel with hsel | hsel
      · rw [hsel]
        rfl
      · rw [hsel]
        cases high
        · rfl
        · rfl
    have hmoved : ((!high) != high) = true := by cases high <;> rfl
    rw [edgeLatches, hp, hprev, Option.getD_some, hmoved, hfunc, hselected]
    rfl

end Sys2Proof.Machine
end

section
/-! Calibration runs, their results and the store (R423 to R433), and obligation O52. -/
namespace Sys2Proof.Machine

open Sys2Proof.Claim

/-! ## CAL_RUN and CAL_READ -/

section
variable {t kind flags index speed gauge addr : Nat} {arg : Int} {pre : Bool} {s : State} (hr : s.ringsRun = true)
include hr

theorem refuses_calRun {st : Status} (hst : st ≠ .ok) (h : firstRefusal (calConds s kind flags index arg speed gauge pre) = st) :
    Refuses (.calRun t kind flags index arg speed gauge pre) t s st := by
  refine (ringCmd_eq_after hr ?_ : execCalRun t kind flags index arg speed gauge pre s = _)
  exact admitCmd_refused _ _ _ (show firstRefusal (calConds (s.arrive t) kind flags index arg speed gauge pre) = st from h) hst

theorem exec_calRun_acts (h : firstRefusal (calConds s kind flags index arg speed gauge pre) = .ok) :
    exec (.calRun t kind flags index arg speed gauge pre) s = .next (after t s fun s =>
      { s with cal := { s.cal with run := some ⟨kind, index, flags == 1, arg, speed, gauge, s.now⟩ } }) := by
  refine (ringCmd_eq_after hr ?_ : execCalRun t kind flags index arg speed gauge pre s = _)
  exact admitCmd_ok _ _ _ (show firstRefusal (calConds (s.arrive t) kind flags index arg speed gauge pre) = .ok from h)

/-- The record that CAL_READ asks for. -/
def calFound (flags kind index : Nat) (s : State) : Option CalRecord :=
  if flags % 2 = 1 then s.cal.lastRecord else s.calRec kind index

/-- Refusals of CAL_READ (R433). -/
def calReadConds (flags kind index : Nat) (s : State) : List (Bool × Status) :=
  [(decide (1 < flags), .format), (decide (calLocations kind ≤ index), .range), ((calFound flags kind index s).isNone, .notReady)]

theorem refuses_calRead {st : Status} (hst : st ≠ .ok) (h : firstRefusal (calReadConds flags kind index s) = st) :
    Refuses (.calRead t kind flags index addr) t s st := by
  refine (ringCmd_eq_after hr ?_ : execCalRead t kind flags index addr s = _)
  exact admitCmd_refused _ _ _ (show firstRefusal (calReadConds flags kind index (s.arrive t)) = st from h) hst

theorem refuses_calibration_format (h : 1 < flags) : Refuses (.calRun t kind flags index arg speed gauge pre) t s .format ∧
    Refuses (.calRead t kind flags index addr) t s .format :=
  ⟨refuses_calRun hr (by decide) (firstRefusal_cons_of_true (decide_eq_true h) ..),
    refuses_calRead hr (by decide) (firstRefusal_cons_of_true (decide_eq_true h) ..)⟩

omit hr in
theorem calIndexOk_of_no_kind (h : kind = 0 ∨ 7 < kind) : calIndexOk s kind index = false ∧ calLocations kind = 0 := by
  match kind, h with
  | 0, _ => exact ⟨rfl, rfl⟩
  | _ + 8, _ => exact ⟨rfl, rfl⟩

theorem refuses_calibration_range (hflags : flags ≤ 1) (hkind : kind = 0 ∨ 7 < kind) :
    Refuses (.calRun t kind flags index arg speed gauge pre) t s .range ∧ Refuses (.calRead t kind flags index addr) t s .range := by
  obtain ⟨hindex, hnone⟩ := calIndexOk_of_no_kind (s := s) (index := index) hkind
  have hform : decide (1 < flags) = false := decide_eq_false (by omega)
  refine ⟨refuses_calRun hr (by decide) ((firstRefusal_cons_of_false hform ..).trans (firstRefusal_cons_of_true ?_ ..)),
    refuses_calRead hr (by decide) ((firstRefusal_cons_of_false hform ..).trans (firstRefusal_cons_of_true (decide_eq_true ?_) ..))⟩
  · rw [hindex]
    rfl
  · rw [hnone]
    exact Nat.zero_le _

section
variable (hflags : flags ≤ 1) (hkind : kind = 7) (hindex : index < 16) (hlo : -640 ≤ arg) (hhi : arg ≤ 2400) (hspeed : speed = 0)
  (hgauge : gauge = 0)
include hflags hkind hindex hlo hhi hspeed hgauge

omit hr in
/-- A run on a die sensor whose operands are in range is judged by the mode, the run that stands and the device's state. -/
theorem firstRefusal_calConds_dieSensor : firstRefusal (calConds s kind flags index arg speed gauge pre) =
    firstRefusal [(!s.modeIn [.standby], .badMode), (s.cal.run.isSome, .busy),
      (s.dummy || !calStateOk s 7 index 0 || !pre, .badState)] := by
  subst hkind hspeed hgauge
  refine (firstRefusal_cons_of_false (decide_eq_false (by omega)) ..).trans (firstRefusal_cons_of_false ?_ ..)
  rw [show calIndexOk s 7 index = true from decide_eq_true hindex, show calArgOk 7 arg = true from decide_eq_true ⟨hlo, hhi⟩]
  rfl

theorem refuses_calRun_badMode (hmode : s.dev.mode ≠ .standby) : Refuses (.calRun t kind flags index arg speed gauge pre) t s .badMode := by
  refine refuses_calRun hr (by decide) ((firstRefusal_calConds_dieSensor hflags hkind hindex hlo hhi hspeed hgauge).trans
    (firstRefusal_cons_of_true ?_ ..))
  simp [State.modeIn, hmode]

theorem refuses_calRun_busy (hmode : s.dev.mode = .standby) (hrun : s.cal.run.isSome = true) :
    Refuses (.calRun t kind flags index arg speed gauge pre) t s .busy := by
  refine refuses_calRun hr (by decide) ((firstRefusal_calConds_dieSensor hflags hkind hindex hlo hhi hspeed hgauge).trans
    ((firstRefusal_cons_of_false ?_ ..).trans (firstRefusal_cons_of_true hrun ..)))
  simp [State.modeIn, hmode]

theorem refuses_calRun_badState (hmode : s.dev.mode = .standby) (hrun : s.cal.run = none) (h : s.dummy = true ∨ pre = false) :
    Refuses (.calRun t kind flags index arg speed gauge pre) t s .badState := by
  refine refuses_calRun hr (by decide) ((firstRefusal_calConds_dieSensor hflags hkind hindex hlo hhi hspeed hgauge).trans
    ((firstRefusal_cons_of_false ?_ ..).trans ((firstRefusal_cons_of_false (by rw [hrun]; rfl) ..).trans (firstRefusal_cons_of_true ?_ ..))))
  · simp [State.modeIn, hmode]
  · rcases h with h | h
    · rw [h, Bool.true_or, Bool.true_or]
    · rw [h, Bool.not_false, Bool.or_true]

end

section
variable (hflags : flags = 0) (hindex : index < calLocations kind)
include hflags hindex

omit hr in
theorem firstRefusal_calReadConds : firstRefusal (calReadConds flags kind index s) =
    firstRefusal [((s.calRec kind index).isNone, .notReady)] := by
  subst hflags
  exact (firstRefusal_cons_of_false rfl ..).trans (firstRefusal_cons_of_false (decide_eq_false (Nat.not_le.mpr hindex)) ..)

theorem refuses_calRead_notReady (h : s.calRec kind index = none) : Refuses (.calRead t kind flags index addr) t s .notReady :=
  refuses_calRead hr (by decide) ((firstRefusal_calReadConds hflags hindex).trans (firstRefusal_cons_of_true (by rw [h]; rfl) ..))

theorem exec_calRead_found {q : CalRecord} (h : s.calRec kind index = some q) : exec (.calRead t kind flags index addr) s =
    .next (after t s fun s => complete .supervisor .ok (calBytes q).length (s.emit (.hostWrite addr (calBytes q)))) := by
  refine (ringCmd_eq_after hr ?_ : execCalRead t kind flags index addr s = _)
  have hok : firstRefusal (calReadConds flags kind index (s.arrive t)) = .ok :=
    (firstRefusal_calReadConds (s := s.arrive t) hflags hindex).trans
      (firstRefusal_cons_of_false (by rw [show (s.arrive t).calRec kind index = some q from h]; rfl) ..)
  have hfound : calFound flags kind index (s.arrive t) = some q := by
    subst hflags
    exact h
  refine (admitCmd_ok _ _ _ hok).trans ?_
  change (match calFound flags kind index (s.arrive t) with
    | some r => complete .supervisor .ok (calBytes r).length ((s.arrive t).emit (.hostWrite addr (calBytes r)))
    | none => s.arrive t) = _
  rw [hfound]

end

end

/-! ## A run ends -/

theorem endRunCal_leaves (r : CalRun) (st : Status) (n : Nat) (s : State) :
    (endRunCal r st n s).cal = { s.cal with run := none, lastStatus := st.code, lastKind := r.kind, lastIndex := r.index } ∧
      (endRunCal r st n s).calStore = s.calStore ∧ (endRunCal r st n s).jobs = s.jobs ∧ KeepsPress s (endRunCal r st n s) := by
  have hcal : KeepsPress s { s with cal := { s.cal with run := none, lastStatus := st.code, lastKind := r.kind, lastIndex := r.index } } :=
    ⟨(KeepsPress.refl s).print, (KeepsPress.refl s).motion⟩
  unfold endRunCal
  rw [complete_cal, complete_calStore, complete_jobs]
  exact ⟨rfl, rfl, rfl, hcal.trans (keepsPress_complete ..)⟩

/-- What a run that stores nothing leaves. -/
structure RunEnded (r : CalRun) (st : Nat) (s s' : State) : Prop where
  run : s'.cal.run = none
  status : s'.cal.lastStatus = st
  kind : s'.cal.lastKind = r.kind
  index : s'.cal.lastIndex = r.index
  store : s'.calStore = s.calStore
  press : KeepsPress s s'

theorem endRunCal_runEnded (r : CalRun) (st : Status) (n : Nat) (s : State) : RunEnded r st.code s (endRunCal r st n s) := by
  obtain ⟨hcal, hstore, -, hpress⟩ := endRunCal_leaves r st n s
  exact ⟨congrArg Cal.run hcal, congrArg Cal.lastStatus hcal, congrArg Cal.lastKind hcal, congrArg Cal.lastIndex hcal, hstore, hpress⟩

/-- The record of a result, kept as the last one. -/
def recorded (r : CalRun) (data : List Int) (s : State) : State :=
  { s with cal := { s.cal with lastRecord := some (calRecord s r data) } }

/-- A result is judged: one that breaks a limit ends the run, another is stored unless the run is DRY. -/
def calJudged (r : CalRun) (ok : Bool) (data : List Int) (bad : Option Nat) (s : State) : State :=
  match bad with
  | some i => endRunCal r .plausibility i (recorded r data s)
  | none => calOk r (calRecord s r data) ok (recorded r data s)

/-- The jobs, the store and the calibration state stand. -/
def State.calView (s : State) := (s.jobs, s.cal, s.calStore)

theorem calView_calApply (q : CalRecord) (s : State) : (calApply q s).calView = s.calView := by
  unfold calApply
  split <;> rfl

theorem calView_calGeneration (head : Nat) (s : State) : (calGeneration head s).calView = s.calView := by
  have hmirror : ∀ (l : List MirrorFrame) (x : State), (l.foldl (fun s f => mirror f s) x).calView = x.calView := fun l x =>
    foldl_leaves (fun s f => eq_of_sansReports (sansReports_mirror f s) (g := State.calView) fun _ => rfl) l x
  unfold calGeneration
  split
  · rfl
  next tb _ =>
    split
    · rfl
    · simp only []
      split
      · obtain ⟨x, -, -, -, hgen⟩ := installGen_eq tb (Fin.ofNat 8 _) ((s.planes[Fin.ofNat 8 _]).genNo + 1) [] s
        rw [hmirror]
        exact eq_of_sansMapping hgen (g := State.calView) fun _ => rfl
      · rfl

theorem le_foldl_max {α : Type} (f : α → Nat) (l : List α) (m : Nat) : m ≤ l.foldl (fun m x => max m (f x)) m ∧
    ∀ x ∈ l, f x ≤ l.foldl (fun m x => max m (f x)) m := by
  induction l generalizing m with
  | nil => exact ⟨Nat.le_refl m, fun _ h => nomatch h⟩
  | cons a l ih =>
    obtain ⟨hle, hmem⟩ := ih (max m (f a))
    refine ⟨(Nat.le_max_left ..).trans hle, fun x hx => ?_⟩
    obtain rfl | hx := List.mem_cons.mp hx
    · exact (Nat.le_max_right ..).trans hle
    · exact hmem x hx

theorem rseq_lt_calRecord (s : State) (r : CalRun) (data : List Int) {o : CalRecord} (h : o ∈ s.calStore) :
    o.rseq < (calRecord s r data).rseq :=
  Nat.lt_succ_of_le ((le_foldl_max CalRecord.rseq s.calStore 0).2 o h)

theorem mem_storeCal {o q : CalRecord} {s : State} :
    o ∈ (storeCal q s).calStore ↔ o = q ∨ (o ∈ s.calStore ∧ ¬(o.kind = q.kind ∧ o.index = q.index)) := by
  rw [storeCal, List.mem_append, List.mem_filter, List.mem_singleton, or_comm, Bool.not_eq_true', ← Bool.not_eq_true,
    Bool.and_eq_true, beq_iff_eq, beq_iff_eq]

/-- A plausible result that is stored and applied. -/
theorem calOk_stored {r : CalRun} {q : CalRecord} {s : State} (hdry : r.dry = false) :
    (calOk r q true s).calStore = (storeCal q s).calStore ∧ (calOk r q true s).jobs = s.jobs ∧
      (calOk r q true s).cal = { s.cal with run := none, lastStatus := 0, lastKind := r.kind, lastIndex := r.index } := by
  unfold calOk
  rw [if_neg (by rw [hdry]; decide), if_neg (by decide)]
  extract_lets y z
  have hy : y.calView = (storeCal q s).calView := calView_calApply ..
  have hz : z.calView = (storeCal q s).calView := by
    simp only [z]
    split
    · exact (calView_calGeneration ..).trans hy
    · exact hy
  have hmirror : (mirror (.cal q) z).calView = (storeCal q s).calView :=
    (eq_of_sansReports (sansReports_mirror ..) (g := State.calView) fun _ => rfl).trans hz
  obtain ⟨hcal, hstore, hjobs, -⟩ := endRunCal_leaves r .ok (q.rseq + 2 ^ 32 * q.count) (mirror (.cal q) z)
  refine ⟨hstore.trans (congrArg (fun v => v.2.2) hmirror), hjobs.trans (congrArg (fun v => v.1) hmirror), hcal.trans ?_⟩
  rw [show (mirror (.cal q) z).cal = s.cal from congrArg (fun v => v.2.1) hmirror]
  rfl

theorem calOk_dry {r : CalRun} {q : CalRecord} {ok : Bool} {s : State} (hdry : r.dry = true) : calOk r q ok s = endRunCal r .ok 0 s :=
  if_pos hdry

theorem calOk_unwritten {r : CalRun} {q : CalRecord} {s : State} (hdry : r.dry = false) :
    calOk r q false s = endRunCal r .integrity 0 s :=
  (if_neg (by rw [hdry]; decide)).trans (if_pos rfl)

/-- The record is kept whatever becomes of it, and PLAUSIBILITY says exactly that a limit was broken. -/
theorem calJudged_told (r : CalRun) (ok : Bool) (data : List Int) (bad : Option Nat) (s : State) :
    (calJudged r ok data bad s).cal.lastRecord = some (calRecord s r data) ∧
      ((calJudged r ok data bad s).cal.lastStatus = 0x10 ↔ bad.isSome = true) := by
  have hend : ∀ (st : Status) (n : Nat), (endRunCal r st n (recorded r data s)).cal.lastRecord = some (calRecord s r data) ∧
      (endRunCal r st n (recorded r data s)).cal.lastStatus = st.code := fun st n => by
    obtain ⟨hcal, -, -, -⟩ := endRunCal_leaves r st n (recorded r data s)
    rw [hcal]
    exact ⟨rfl, rfl⟩
  cases bad with
  | some i =>
    obtain ⟨hlast, hstatus⟩ := hend .plausibility i
    exact ⟨hlast, iff_of_true hstatus rfl⟩
  | none =>
    have hcases : (calOk r (calRecord s r data) ok (recorded r data s)).cal.lastRecord = some (calRecord s r data) ∧
        (calOk r (calRecord s r data) ok (recorded r data s)).cal.lastStatus ≠ 0x10 := by
      cases hdry : r.dry with
      | true =>
        rw [calOk_dry hdry, (hend .ok 0).1, (hend .ok 0).2]
        exact ⟨rfl, by decide⟩
      | false =>
        cases ok with
        | false =>
          rw [calOk_unwritten hdry, (hend .integrity 0).1, (hend .integrity 0).2]
          exact ⟨rfl, by decide⟩
        | true =>
          rw [(calOk_stored hdry).2.2]
          exact ⟨rfl, show 0 ≠ 0x10 by decide⟩
    exact ⟨hcases.1, iff_of_false hcases.2 (by decide)⟩

/-! ## What a measurement does -/

/-- What a measurement does to the run that stands. -/
def calMeasured (m : CalMeasure) (ok : Bool) (r : CalRun) (s : State) : State :=
  if m = .preconditionLost then endRunCal r .badState 0 s
  else match calResult s r m with
    | none => s
    | some (data, bad) => calJudged r ok data bad s

/-- A measurement, with or without a run. -/
def calTaken (m : CalMeasure) (ok : Bool) (s : State) : State :=
  match s.cal.run with
  | none => s
  | some r => calMeasured m ok r s

/-- The limit of a run's time. -/
def calLimit (s : State) : State :=
  match s.cal.run with
  | some r => if r.since + 60 * sec8 ≤ s.now then endRunCal r .timeout 0 s else s
  | none => s

section
variable {t : Nat} {ok : Bool} {m : CalMeasure} {r : CalRun} {s : State}

theorem exec_calMeasurementDone : exec (.calMeasurementDone t m ok) s = .next (after t s (calTaken m ok)) :=
  (run_eq_after rfl : execCalMeasurementDone t m ok s = _)

theorem exec_calRunTimeout : exec (.calRunTimeout t) s = .next (after t s calLimit) :=
  (run_eq_after rfl : execCalRunTimeout t s = _)

theorem exec_calMeasurementDone_idle (h : s.cal.run = none) : exec (.calMeasurementDone t m ok) s = .next (after t s id) :=
  exec_calMeasurementDone.trans (next_after_congr (by rw [calTaken, show (s.arrive t).cal.run = none from h]; rfl))

theorem exec_calRunTimeout_idle (h : s.cal.run = none) : exec (.calRunTimeout t) s = .next (after t s id) :=
  exec_calRunTimeout.trans (next_after_congr (by rw [calLimit, show (s.arrive t).cal.run = none from h]; rfl))

variable (hrun : s.cal.run = some r)
include hrun

theorem exec_calMeasurementDone_running : exec (.calMeasurementDone t m ok) s = .next (after t s (calMeasured m ok r)) :=
  exec_calMeasurementDone.trans (next_after_congr (by rw [calTaken, show (s.arrive t).cal.run = some r from hrun]))

theorem exec_calRunTimeout_running : exec (.calRunTimeout t) s =
    .next (after t s fun s => if r.since + 60 * sec8 ≤ s.now then endRunCal r .timeout 0 s else s) :=
  exec_calRunTimeout.trans (next_after_congr (by rw [calLimit, show (s.arrive t).cal.run = some r from hrun]))

theorem exec_calRunTimeout_due (h : r.since + 480000000000 ≤ max s.now t) :
    exec (.calRunTimeout t) s = .next (after t s (endRunCal r .timeout 0)) :=
  (exec_calRunTimeout_running hrun).trans (next_after_congr (if_pos h))

theorem exec_calRunTimeout_early (h : max s.now t < r.since + 480000000000) : exec (.calRunTimeout t) s = .next (after t s id) :=
  (exec_calRunTimeout_running hrun).trans
    (next_after_congr (if_neg (show ¬(r.since + 60 * sec8 ≤ max s.now t) from Nat.not_le.mpr h)))

theorem exec_calMeasurementDone_lost :
    exec (.calMeasurementDone t .preconditionLost ok) s = .next (after t s (endRunCal r .badState 0)) :=
  (exec_calMeasurementDone_running hrun).trans (next_after_congr (if_pos rfl))

theorem exec_calMeasurementDone_judged (hm : m ≠ .preconditionLost) {data : List Int} {bad : Option Nat}
    (hres : calResult s r m = some (data, bad)) :
    exec (.calMeasurementDone t m ok) s = .next (after t s (calJudged r ok data bad)) := by
  refine (exec_calMeasurementDone_running hrun).trans (next_after_congr ((if_neg hm).trans ?_))
  rw [show calResult (s.arrive t) r m = some (data, bad) from hres]

omit hrun in
theorem leaves_runEnded {i : Instr} {f : State → State} {st : Nat} (hexec : exec i s = .next (after t s f))
    (h : RunEnded r st (s.arrive t) (f (s.arrive t))) : Leaves i s fun s' => s'.cal.run = none ∧ s'.cal.lastStatus = st ∧
      s'.cal.lastKind = r.kind ∧ s'.cal.lastIndex = r.index ∧ s'.calStore = s.calStore ∧ SamePrint s s' ∧ SameMotion s s' :=
  leaves_of_effect hexec fun y hy => by
    rw [← hy] at h
    exact ⟨h.run, h.status, h.kind, h.index, h.store, h.press.print, h.press.motion⟩

/-- A result that breaks a limit. -/
theorem leaves_calMeasurementDone_broken (hm : m ≠ .preconditionLost) {data : List Int} {i : Nat}
    (hres : calResult s r m = some (data, some i)) : Leaves (.calMeasurementDone t m ok) s fun s' =>
      (s'.cal.run = none ∧ s'.cal.lastStatus = 0x10 ∧ s'.cal.lastKind = r.kind ∧ s'.cal.lastIndex = r.index ∧
        s'.calStore = s.calStore ∧ SamePrint s s' ∧ SameMotion s s') ∧ ∃ q, s'.cal.lastRecord = some q ∧ q.data = data := by
  refine leaves_of_effect (exec_calMeasurementDone_judged hrun hm hres) fun y hy => ?_
  have hend := endRunCal_runEnded r .plausibility i (recorded r data (s.arrive t))
  have hlast := (calJudged_told r ok data (some i) (s.arrive t)).1
  rw [← hy] at hlast
  rw [show endRunCal r .plausibility i (recorded r data (s.arrive t)) = y from hy.symm] at hend
  have hpress : KeepsPress s (recorded r data (s.arrive t)) := ⟨(KeepsPress.refl s).print, (KeepsPress.refl s).motion⟩
  obtain ⟨hprint, hmotion⟩ := hpress.trans hend.press
  exact ⟨⟨hend.run, hend.status, hend.kind, hend.index, hend.store, hprint, hmotion⟩, _, hlast, rfl⟩

theorem leaves_calMeasurementDone_unstored (hm : m ≠ .preconditionLost) {data : List Int}
    (hres : calResult s r m = some (data, none)) {st : Status}
    (heq : ∀ z : State, calJudged r ok data none z = endRunCal r st 0 (recorded r data z)) :
    Leaves (.calMeasurementDone t m ok) s fun s' => s'.cal.run = none ∧ s'.cal.lastStatus = st.code ∧
      s'.cal.lastKind = r.kind ∧ s'.cal.lastIndex = r.index ∧ s'.calStore = s.calStore ∧ SamePrint s s' ∧ SameMotion s s' := by
  have hend := endRunCal_runEnded r st 0 (recorded r data (s.arrive t))
  rw [← heq] at hend
  have hpress : KeepsPress (s.arrive t) (recorded r data (s.arrive t)) := ⟨(KeepsPress.refl s).print, (KeepsPress.refl s).motion⟩
  exact leaves_runEnded (exec_calMeasurementDone_judged hrun hm hres)
    ⟨hend.run, hend.status, hend.kind, hend.index, hend.store, hpress.trans hend.press⟩

/-- A result that is stored. -/
theorem leaves_calMeasurementDone_stored (hm : m ≠ .preconditionLost) {data : List Int}
    (hres : calResult s r m = some (data, none)) (hdry : r.dry = false) :
    Leaves (.calMeasurementDone t m true) s fun s' => ∃ q ∈ s'.calStore, q.kind = r.kind ∧ q.index = r.index ∧ q.data = data ∧
      (∀ o ∈ s.calStore, o.rseq < q.rseq) ∧
      (∀ o, o ∈ s'.calStore ↔ o = q ∨ (o ∈ s.calStore ∧ ¬(o.kind = r.kind ∧ o.index = r.index))) ∧ s'.cal.run = none ∧
      s'.cal.lastStatus = 0 ∧ s'.jobs = s.jobs := by
  refine leaves_of_effect (exec_calMeasurementDone_judged hrun hm hres) fun y hy => ?_
  obtain ⟨hstore, hjobs, hcal⟩ := calOk_stored (q := calRecord (s.arrive t) r data) (s := recorded r data (s.arrive t)) hdry
  rw [show calOk r (calRecord (s.arrive t) r data) true (recorded r data (s.arrive t)) = y from hy.symm] at hstore hjobs hcal
  have hmem : ∀ o, o ∈ y.calStore ↔ o = calRecord (s.arrive t) r data ∨ (o ∈ s.calStore ∧ ¬(o.kind = r.kind ∧ o.index = r.index)) :=
    fun o => by
      rw [hstore]
      exact mem_storeCal
  exact ⟨calRecord (s.arrive t) r data, (hmem _).mpr (.inl rfl), rfl, rfl, rfl, fun o ho => rseq_lt_calRecord (s.arrive t) r data ho,
    hmem, (congrArg Cal.run hcal :), (congrArg Cal.lastStatus hcal :), hjobs⟩

/-- A result's record, and whether a limit was broken. -/
theorem leaves_calMeasurementDone_told (hm : m ≠ .preconditionLost) {data : List Int} {bad : Option Nat}
    (hres : calResult s r m = some (data, bad)) : Leaves (.calMeasurementDone t m ok) s fun s' =>
      ∃ q, s'.cal.lastRecord = some q ∧ q.data = data ∧ (s'.cal.lastStatus = 0x10 ↔ bad.isSome = true) :=
  leaves_of_effect (exec_calMeasurementDone_judged hrun hm hres) fun y hy => by
    obtain ⟨hlast, hstatus⟩ := calJudged_told r ok data bad (s.arrive t)
    rw [← hy] at hlast hstatus
    exact ⟨_, hlast, rfl, hstatus⟩

omit hrun in
theorem isSome_ite_none {p : Prop} [Decidable p] (i : Nat) : (if p then none else some i).isSome = true ↔ ¬p := by
  split
  next h => simp [h]
  next h => simp [h]

theorem leaves_calMeasurementDone_dieSensor (hkind : r.kind = 7) (mean : Int) :
    Leaves (.calMeasurementDone t (.dieSensor mean) ok) s fun s' => ∃ q, s'.cal.lastRecord = some q ∧
      q.data = [r.arg + 1024 - mean] ∧ (s'.cal.lastStatus = 0x10 ↔ 80 < (r.arg + 1024 - mean).natAbs) := by
  have hres : calResult s r (.dieSensor mean) = some (calTrim r.arg mean) := by
    unfold calResult
    rw [hkind]
    rfl
  obtain ⟨s', hs', q, hlast, hdata, hstatus⟩ := leaves_calMeasurementDone_told (t := t) (ok := ok)
    (m := .dieSensor mean) hrun (fun h => nomatch h) hres
  exact ⟨s', hs', q, hlast, hdata, hstatus.trans ((isSome_ite_none 0).trans Nat.not_le)⟩

theorem leaves_calMeasurementDone_current (hkind : r.kind = 5) (harg : r.arg = 0) (hnone : s.calRec 5 r.index = none) (mean : Int) :
    Leaves (.calMeasurementDone t (.current mean) ok) s fun s' => ∃ q, s'.cal.lastRecord = some q ∧
      q.data = [mean, 65536] ∧ (s'.cal.lastStatus = 0x10 ↔ 2048 < mean.natAbs) := by
  have hres : calResult s r (.current mean) = some ([mean, 65536], if mean.natAbs ≤ 2048 then none else some 0) := by
    unfold calResult
    rw [hkind]
    simp only [hnone, harg]
    exact congrArg some (if_pos rfl)
  obtain ⟨s', hs', q, hlast, hdata, hstatus⟩ := leaves_calMeasurementDone_told (t := t) (ok := ok)
    (m := .current mean) hrun (fun h => nomatch h) hres
  exact ⟨s', hs', q, hlast, hdata, hstatus.trans ((isSome_ite_none 0).trans Nat.not_le)⟩

theorem leaves_calMeasurementDone_registration (hkind : r.kind = 1) (yerr xerr : Int) :
    Leaves (.calMeasurementDone t (.headRegistration yerr xerr) ok) s fun s' => ∃ q, s'.cal.lastRecord = some q ∧
      q.data.head? = some (signed 8 (s.fld Reg.pacHphase r.index 7 0) -
        Int.fdiv (2 * yerr * 64 * r.gauge + 25400000) 50800000) := by
  have hres : calResult s r (.headRegistration yerr xerr) =
      some (calPhase (signed 8 (s.fld Reg.pacHphase r.index 7 0)) r.gauge yerr xerr) := by
    unfold calResult
    rw [hkind]
    rfl
  obtain ⟨s', hs', q, hlast, hdata, -⟩ := leaves_calMeasurementDone_told (t := t) (ok := ok)
    (m := .headRegistration yerr xerr) hrun (fun h => nomatch h) hres
  exact ⟨s', hs', q, hlast, by rw [hdata]; rfl⟩

end

/-- Settles O52: a run ends by its measurement, its precondition or its time, and its record alone decides what is stored. -/
theorem calibration : Obligations.Calibration := by
  unfold Obligations.Calibration
  intro t kind flags index speed gauge addr arg mean yerr xerr pre ok m r s kept
  refine ⟨fun hr => ⟨exec_calRun_acts hr, refuses_calibration_format hr, refuses_calibration_range hr,
      fun hflags hkind hindex hlo hhi hspeed hgauge => ⟨refuses_calRun_badMode hr hflags hkind hindex hlo hhi hspeed hgauge,
        refuses_calRun_busy hr hflags hkind hindex hlo hhi hspeed hgauge,
        refuses_calRun_badState hr hflags hkind hindex hlo hhi hspeed hgauge⟩,
      fun hflags hindex => refuses_calRead_notReady hr hflags hindex, fun q hflags hindex => exec_calRead_found hr hflags hindex⟩,
    fun hrun => ⟨exec_calMeasurementDone_idle hrun, exec_calRunTimeout_idle hrun⟩, fun hrun =>
      ⟨leaves_runEnded (exec_calMeasurementDone_lost hrun) (endRunCal_runEnded r .badState 0 (s.arrive t)),
        fun hdue => leaves_runEnded (exec_calRunTimeout_due hrun hdue) (endRunCal_runEnded r .timeout 0 (s.arrive t)),
        exec_calRunTimeout_early hrun,
        fun data i hm => leaves_calMeasurementDone_broken hrun hm,
        fun data hm hres => ⟨fun hdry => ?_, fun hdry hok => ?_, fun hdry hok => ?_⟩,
        fun hkind => leaves_calMeasurementDone_dieSensor hrun hkind mean,
        fun hkind harg hnone => leaves_calMeasurementDone_current hrun hkind harg hnone mean,
        fun hkind => leaves_calMeasurementDone_registration hrun hkind yerr xerr⟩⟩
  · exact leaves_calMeasurementDone_unstored hrun hm hres (st := .ok) fun _ => calOk_dry hdry
  · subst hok
    exact leaves_calMeasurementDone_unstored hrun hm hres (st := .integrity) fun _ => calOk_unwritten hdry
  · subst hok
    exact leaves_calMeasurementDone_stored hrun hm hres hdry

end Sys2Proof.Machine
end

section
/-! Root, addresses and link states of the fabric (R358 to R361, R380), and obligation O43. -/
namespace Sys2Proof.Machine

open Sys2Proof.Claim

/-! ## What sending leaves of the addresses -/

/-- What the fabric knows of its root and its addresses. -/
def State.addressing (s : State) :=
  (s.xlk.addr, s.xlk.held, s.xlk.topoGen, s.xlk.root, s.xlk.timeSynced, s.xlk.rootKnown, s.otp)

theorem addressing_sendPort (n : Fin 32) (dst : Nat) (f : XlkTx) (s : State) : (sendPort n dst f s).addressing = s.addressing := by
  unfold sendPort
  extract_lets p
  split_ifs
  · rfl
  · rfl
  · rfl

theorem addressing_sendXlk (dst : Nat) (f : XlkTx) (s : State) : (sendXlk dst f s).addressing = s.addressing := by
  unfold sendXlk sendPorts
  split
  · exact foldl_leaves (g := State.addressing) (fun s n => addressing_sendPort n dst f s) _ s
  · split
    · exact addressing_sendPort ..
    · rfl

theorem addressing_fabricFull (s : State) : (fabricFull s).addressing = s.addressing := by
  unfold fabricFull
  split
  · rfl
  · unfold State.addressing
    rw [alarm_xlk, alarm_otp]
    rfl

/-! ## Assignments -/

theorem unitId_of_otp {s s' : State} (h : s'.otp = s.otp) : unitId s' = unitId s := by
  rw [unitId, h, unitId]

/-- This device has address 0, and holds it alone. -/
structure RootAddressed (s : State) : Prop where
  addr : s.xlk.addr = some 0
  held : ∃ h ∈ s.xlk.held, h.uid = unitId s ∧ h.addr = 0
  alone : ∀ h ∈ s.xlk.held, h.addr = 0 ↔ h.uid = unitId s

theorem RootAddressed.of_addressing {s s' : State} (h : RootAddressed s) (heq : s'.addressing = s.addressing) : RootAddressed s' := by
  simp only [State.addressing, Prod.mk.injEq] at heq
  obtain ⟨haddr, hheld, -, -, -, -, hotp⟩ := heq
  have hunit := unitId_of_otp hotp
  exact ⟨haddr.trans h.addr, by rw [hheld, hunit]; exact h.held, by rw [hheld, hunit]; exact h.alone⟩

theorem mem_held_holdAddr {uid addr : Nat} {s : State} {h : Held} : h ∈ (holdAddr uid addr s).xlk.held ↔
    (h ∈ s.xlk.held ∧ h.uid ≠ uid ∧ h.addr ≠ addr) ∨ h = ⟨uid, addr, none⟩ := by
  have hheld : (holdAddr uid addr s).xlk.held = (s.xlk.held.filter fun h => h.uid != uid && h.addr != addr) ++ [⟨uid, addr, none⟩] := rfl
  rw [hheld, List.mem_append, List.mem_filter, List.mem_singleton, Bool.and_eq_true, bne_iff_ne, bne_iff_ne]

theorem addr_holdAddr (uid addr : Nat) (s : State) :
    (holdAddr uid addr s).xlk.addr = if uid = unitId s then some addr else s.xlk.addr := rfl

/-- The device that holds nothing yet, or address 0 alone, holds 0 once it has it. -/
theorem rootAddressed_holdAddr_own {s : State} : RootAddressed (holdAddr (unitId s) 0 s) := by
  refine ⟨(addr_holdAddr ..).trans (if_pos rfl), ⟨_, mem_held_holdAddr.mpr (.inr rfl), rfl, rfl⟩, fun h hh => ?_⟩
  obtain ⟨-, huid, haddr⟩ | rfl := mem_held_holdAddr.mp hh
  · exact iff_of_false haddr huid
  · exact iff_of_true rfl rfl

theorem rootAddressed_holdAddr_other {uid addr : Nat} {s : State} (h : RootAddressed s) (huid : uid ≠ unitId s) (haddr : addr ≠ 0) :
    RootAddressed (holdAddr uid addr s) := by
  obtain ⟨own, hown, hownUid, hownAddr⟩ := h.held
  refine ⟨((addr_holdAddr ..).trans (if_neg huid)).trans h.addr,
    ⟨own, mem_held_holdAddr.mpr (.inl ⟨hown, ?_, ?_⟩), hownUid, hownAddr⟩, fun x hx => ?_⟩
  · rw [hownUid]
    exact huid.symm
  · rw [hownAddr]
    exact haddr.symm
  · obtain ⟨hx, -, -⟩ | rfl := mem_held_holdAddr.mp hx
    · exact h.alone x hx
    · exact iff_of_false haddr huid

/-- The address that the root gives a unit. -/
def unitAddr (uid : Nat) (s : State) : Option Nat :=
  match s.xlk.held.find? fun h => h.uid == uid with
  | some h => some h.addr
  | none => freeAddr s.xlk.held

theorem assignUnit_some {uid a : Nat} {s : State} (h : unitAddr uid s = some a) :
    (assignUnit uid s).addressing = (holdAddr uid a s).addressing := by
  have heq : assignUnit uid s = sendXlk 0xFFFF (.assign uid a (holdAddr uid a s).xlk.topoGen) (holdAddr uid a s) := by
    have hform : ∀ x, unitAddr uid s = x → assignUnit uid s = match x with
        | some a => sendXlk 0xFFFF (.assign uid a (holdAddr uid a s).xlk.topoGen) (holdAddr uid a s)
        | none => fabricFull s := by
      rintro _ rfl
      rfl
    exact hform _ h
  rw [heq, addressing_sendXlk]

theorem assignUnit_none {uid : Nat} {s : State} (h : unitAddr uid s = none) : (assignUnit uid s).addressing = s.addressing := by
  have hform : ∀ x, unitAddr uid s = x → assignUnit uid s = match x with
      | some a => sendXlk 0xFFFF (.assign uid a (holdAddr uid a s).xlk.topoGen) (holdAddr uid a s)
      | none => fabricFull s := by
    rintro _ rfl
    rfl
  rw [hform _ h, addressing_fabricFull]

/-- A root that has address 0 keeps it, whatever unit it addresses. -/
theorem rootAddressed_assignUnit {s : State} (h : RootAddressed s) (uid : Nat) : RootAddressed (assignUnit uid s) := by
  have hgiven : ∀ a, unitAddr uid s = some a → (a = 0 ↔ uid = unitId s) := fun a ha => by
    unfold unitAddr at ha
    split at ha
    next x hx =>
      obtain rfl := Option.some.inj ha
      have huid : x.uid = uid := by simpa using List.find?_some hx
      rw [h.alone x (List.mem_of_find?_eq_some hx), huid]
    next hnone =>
      have hunit : uid ≠ unitId s := fun e => by
        obtain ⟨own, hown, hownUid, -⟩ := h.held
        have := List.find?_eq_none.mp hnone own hown
        rw [hownUid, e] at this
        simp at this
      refine iff_of_false (fun e => ?_) hunit
      obtain ⟨own, hown, -, hownAddr⟩ := h.held
      have hfree := List.find?_some ha
      rw [e, Bool.not_eq_true', List.any_eq_false] at hfree
      exact hfree own hown (beq_iff_eq.mpr hownAddr)
  cases ha : unitAddr uid s with
  | none => exact h.of_addressing (assignUnit_none ha)
  | some a =>
    refine RootAddressed.of_addressing ?_ (assignUnit_some ha)
    by_cases huid : uid = unitId s
    · rw [huid, (hgiven a ha).mpr huid]
      exact rootAddressed_holdAddr_own
    · exact rootAddressed_holdAddr_other h huid fun e => huid ((hgiven a ha).mp e)

theorem rootAddressed_assignAll {s : State} (hheld : s.xlk.held = []) (found : List (Nat × Nat)) : RootAddressed (assignAll found s) := by
  have hfirst : RootAddressed (assignUnit (unitId s) s) := by
    refine RootAddressed.of_addressing rootAddressed_holdAddr_own (assignUnit_some (a := 0) ?_)
    unfold unitAddr
    rw [hheld]
    rfl
  unfold assignAll
  generalize assignUnit (unitId s) s = y at hfirst
  induction breadthFirst found generalizing y with
  | nil => exact hfirst
  | cons u us ih => exact ih _ (rootAddressed_assignUnit hfirst u)

/-- Root, synchrony, election and generation stand. -/
def State.rootView (s : State) := (s.xlk.topoGen, s.xlk.root, s.xlk.timeSynced, s.xlk.rootKnown)

theorem rootView_of_addressing {s s' : State} (h : s'.addressing = s.addressing) : s'.rootView = s.rootView :=
  congrArg (fun v => (v.2.2.1, v.2.2.2.1, v.2.2.2.2.1, v.2.2.2.2.2.1)) h

theorem rootView_assignUnit (uid : Nat) (s : State) : (assignUnit uid s).rootView = s.rootView := by
  cases h : unitAddr uid s with
  | none => exact rootView_of_addressing (assignUnit_none h)
  | some a => exact (rootView_of_addressing (assignUnit_some h)).trans rfl

theorem rootView_assignAll (found : List (Nat × Nat)) (s : State) : (assignAll found s).rootView = s.rootView := by
  unfold assignAll
  rw [foldl_leaves (fun s u => rootView_assignUnit u s), rootView_assignUnit]

theorem sansReports_assignAll (found : List (Nat × Nat)) (s : State) : (assignAll found s).sansReports = s.sansReports := by
  unfold assignAll
  rw [foldl_leaves (fun s u => sansReports_of_fabricView (fabricView_assignUnit u s)),
    sansReports_of_fabricView (fabricView_assignUnit ..)]

/-! ## The root -/

section
variable {t uid addr gen src : Nat} {found : List (Nat × Nat)} {entries : List LinkEntry} {busy : Bool} {s : State}
  (hr : s.ringsRun = true)
include hr

/-- The root's election is over. -/
def converged (s : State) : State := s.modXlk fun x => { x with rootKnown := true }

/-- The device as the new root, synced. -/
def crowned (s : State) : State :=
  (converged s).modXlk fun x => { x with root := true, timeSynced := true, badEx := 0, slew := 0, slewUntil := none, ppsAt := none }

theorem exec_rootConverged_idle (h : s.xlk.rootId = none ∨ s.xlk.rootKnown = true ∨ max s.now t < s.xlk.rootSince + 16000000) :
    exec (.rootConverged t found) s = .next (after t s id) := by
  refine (ringCmd_eq_after hr ?_ : execRootConverged t found s = _)
  refine if_pos (show s.xlk.rootId.isNone = true ∨ s.xlk.rootKnown = true ∨ max s.now t < s.xlk.rootSince + 2 * ms8 from ?_)
  exact h.imp (fun h => by rw [h]; rfl) id

section
variable (hknown : s.xlk.rootKnown = false) (hdue : s.xlk.rootSince + 16000000 ≤ max s.now t)
include hknown hdue

theorem exec_rootConverged_due (hid : s.xlk.rootId.isSome = true) : exec (.rootConverged t found) s =
    .next (after t s fun s => if s.xlk.rootId = some (unitId s) then assignAll found (crowned s) else converged s) := by
  refine (ringCmd_eq_after hr ?_ : execRootConverged t found s = _)
  refine (if_neg (show ¬(s.xlk.rootId.isNone = true ∨ s.xlk.rootKnown = true ∨ max s.now t < s.xlk.rootSince + 2 * ms8) from ?_)).trans rfl
  rintro (h | h | h)
  · rw [Option.isNone_iff_eq_none] at h
    rw [h] at hid
    exact absurd hid (by decide)
  · rw [hknown] at h
    exact absurd h (by decide)
  · exact absurd h (Nat.not_lt.mpr hdue)

theorem exec_rootConverged_other (hid : s.xlk.rootId.isSome = true) (hne : s.xlk.rootId ≠ some (unitId s)) :
    exec (.rootConverged t found) s = .next (after t s converged) :=
  (exec_rootConverged_due hr hknown hdue hid).trans (next_after_congr (if_neg hne))

theorem leaves_rootConverged (hid : s.xlk.rootId = some (unitId s)) : Leaves (.rootConverged t found) s fun s' =>
    s'.xlk.root = true ∧ s'.xlk.timeSynced = true ∧ s'.xlk.rootKnown = true ∧ (s.xlk.held = [] → s'.xlk.addr = some 0) ∧
      SamePrint s s' ∧ SameMotion s s' := by
  have hexec : exec (.rootConverged t found) s = .next (after t s fun s => assignAll found (crowned s)) :=
    (exec_rootConverged_due hr hknown hdue (by rw [hid]; rfl)).trans (next_after_congr (if_pos hid))
  refine leaves_of_effect hexec fun y hy => ?_
  have hview := rootView_assignAll found (crowned (s.arrive t))
  have hreports := sansReports_assignAll found (crowned (s.arrive t))
  have hzero := fun hheld => rootAddressed_assignAll (s := crowned (s.arrive t)) hheld found
  rw [← hy] at hview hreports hzero
  have hprint : SamePrint (s.arrive t) y := samePrint_of_sansReports hreports
  have hmotion : SameMotion (s.arrive t) y := sameMotion_of_sansReports hreports
  exact ⟨(congrArg (fun v => v.2.1) hview :), (congrArg (fun v => v.2.2.1) hview :), (congrArg (fun v => v.2.2.2) hview :),
    fun hheld => (hzero hheld).addr, hprint, hmotion⟩

end

/-! ## Addresses held -/

/-- An assignment that is taken. -/
def assigned (uid addr gen : Nat) (s : State) : State := noteReach (holdAddr uid addr (s.modXlk fun x => { x with topoGen := gen }))

omit hr in
/-- The note of what is reachable changes neither the unit nor the address of an entry. -/
theorem mem_held_noteReach {s : State} {h : Held} (hh : h ∈ (noteReach s).xlk.held) :
    ∃ x ∈ s.xlk.held, h.uid = x.uid ∧ h.addr = x.addr := by
  obtain ⟨x, hx, rfl⟩ := List.mem_map.mp hh
  refine ⟨x, hx, ?_⟩
  split
  · exact ⟨rfl, rfl⟩
  · exact ⟨rfl, rfl⟩

omit hr in
theorem held_noteReach_of_mem {s : State} {x : Held} (hx : x ∈ s.xlk.held) :
    ∃ h ∈ (noteReach s).xlk.held, h.uid = x.uid ∧ h.addr = x.addr := by
  refine ⟨_, List.mem_map_of_mem hx, ?_⟩
  split
  · exact ⟨rfl, rfl⟩
  · exact ⟨rfl, rfl⟩

theorem exec_assignFrame (hgen : s.xlk.topoGen ≤ gen) (haddr : addr < 256) :
    exec (.assignFrame t uid addr gen) s = .next (after t s (assigned uid addr gen)) := by
  refine (ringCmd_eq_after hr ?_ : execAssignFrame t uid addr gen s = _)
  exact if_neg (show ¬(gen < s.xlk.topoGen ∨ 256 ≤ addr) by omega)

theorem leaves_assignFrame (hgen : s.xlk.topoGen ≤ gen) (haddr : addr < 256) : Leaves (.assignFrame t uid addr gen) s fun s' =>
    s'.xlk.topoGen = gen ∧ (∃ h ∈ s'.xlk.held, h.uid = uid ∧ h.addr = addr) ∧ (∀ h ∈ s'.xlk.held, h.addr = addr → h.uid = uid) ∧
      s'.xlk.addr = (if uid = unitId s then some addr else s.xlk.addr) ∧ s'.regs = s.regs ∧ SamePrint s s' ∧ SameMotion s s' := by
  refine ⟨_, exec_assignFrame hr hgen haddr, rfl, ?_, fun h hh heq => ?_, rfl, (SameBesideTime.refl s :)⟩
  · exact held_noteReach_of_mem (mem_held_holdAddr.mpr (.inr rfl))
  · obtain ⟨x, hx, huid, hxaddr⟩ := mem_held_noteReach hh
    obtain ⟨-, -, hne⟩ | rfl := mem_held_holdAddr.mp hx
    · exact absurd (hxaddr.symm.trans heq) hne
    · exact huid

theorem exec_assignFrame_old (hgen : gen < s.xlk.topoGen) : exec (.assignFrame t uid addr gen) s = .next (after t s id) :=
  (ringCmd_eq_after hr (if_pos (show gen < (s.arrive t).xlk.topoGen ∨ 256 ≤ addr from .inl hgen)) : execAssignFrame t uid addr gen s = _)

theorem exec_linkstateFrame_old (hgen : gen < s.xlk.topoGen) : exec (.linkstateFrame t src gen entries) s = .next (after t s id) :=
  (ringCmd_eq_after hr (if_pos (show gen < (s.arrive t).xlk.topoGen ∨ 256 ≤ src from .inl hgen)) : execLinkstateFrame t src gen entries s = _)

/-- Whether an address held for a unit has expired. -/
def heldExpired (uid now : Nat) (h : Held) : Bool := h.uid == uid && h.lostAt.any fun l => decide (l + 10 * sec8 ≤ now)

omit hr in
theorem heldExpired_iff {uid now : Nat} {h : Held} :
    heldExpired uid now h = true ↔ h.uid = uid ∧ ∃ l, h.lostAt = some l ∧ l + 80000000000 ≤ now := by
  rw [heldExpired, Bool.and_eq_true, beq_iff_eq, Option.any_eq_true_iff_get]
  refine and_congr_right fun _ => ⟨fun ⟨hsome, hle⟩ => ⟨_, (Option.some_get hsome).symm, of_decide_eq_true hle⟩, ?_⟩
  rintro ⟨l, hl, hle⟩
  refine ⟨by rw [hl]; rfl, decide_eq_true ?_⟩
  simp only [hl, Option.get_some]
  exact hle

theorem leaves_addressHoldExpiry : Leaves (.addressHoldExpiry t uid) s fun s' => (∀ h, h ∈ s'.xlk.held ↔
    h ∈ s.xlk.held ∧ ¬(h.uid = uid ∧ ∃ l, h.lostAt = some l ∧ l + 80000000000 ≤ max s.now t)) ∧ s'.xlk.addr = s.xlk.addr ∧
    s'.regs = s.regs ∧ SamePrint s s' ∧ SameMotion s s' := by
  have hexec : exec (.addressHoldExpiry t uid) s = .next (after t s fun s =>
      s.modXlk fun x => { x with held := x.held.filter fun h => !heldExpired uid s.now h }) :=
    (ringCmd_eq_after hr rfl : execAddressHoldExpiry t uid s = _)
  refine ⟨_, hexec, fun h => ?_, rfl, (SameBesideTime.refl s :)⟩
  refine List.mem_filter.trans (and_congr_right fun _ => ?_)
  rw [Bool.not_eq_true', ← Bool.not_eq_true]
  exact not_congr heldExpired_iff

/-! ## Link states -/

theorem exec_linkstateSend : exec (.linkstateSend t) s = .next (after t s sendLinkState) :=
  (ringCmd_eq_after hr rfl : execLinkstateSend t s = _)

theorem exec_linkstateSend_unaddressed (h : s.xlk.addr = none) : exec (.linkstateSend t) s = .next (after t s id) :=
  (exec_linkstateSend hr).trans (next_after_congr (if_neg (show ¬s.xlk.addr.isSome = true from by rw [h]; decide)))

theorem leaves_linkstateSend (h : s.xlk.addr.isSome = true) : Leaves (.linkstateSend t) s fun s' => s'.out = (upPorts s).map (fun n =>
      .xlk (frameLane s n 0xFFFF (.linkstate s.xlk.topoGen (linkEntries s))) 0xFFFF (.linkstate s.xlk.topoGen (linkEntries s))) ∧
    s'.regs = s.regs ∧ SamePrint s s' ∧ SameMotion s s' := by
  have hsent := foldl_sendPort_of_unreliable (f := fun _ => .linkstate s.xlk.topoGen (linkEntries s)) (fun _ => rfl) (fun _ _ => rfl)
    0xFFFF (upPorts s) (s.arrive t)
  have hsend : sendLinkState (s.arrive t) = (upPorts s).foldl (fun x n => sendPort n 0xFFFF (.linkstate s.xlk.topoGen (linkEntries s)) x)
      (s.arrive t) := (if_pos (show (s.arrive t).xlk.addr.isSome = true from h)).trans (if_pos rfl)
  refine leaves_of_effect (exec_linkstateSend hr) fun y hy => ?_
  have hout : y = _ := hy.trans (hsend.trans hsent)
  rw [hout]
  exact ⟨rfl, (SameBesideTime.refl s :)⟩

theorem leaves_linkstateFrame (hgen : s.xlk.topoGen ≤ gen) (hsrc : src < 256) : Leaves (.linkstateFrame t src gen entries) s fun s' =>
    s'.xlk.links = (s.xlk.links.filter fun l => l.src != src) ++ [⟨src, gen, entries⟩] ∧ s'.regs = s.regs ∧ SamePrint s s' ∧
      SameMotion s s' := by
  have hexec : exec (.linkstateFrame t src gen entries) s = .next (after t s fun s => noteReach (s.modXlk fun x =>
      { x with links := (x.links.filter fun l => l.src != src) ++ [⟨src, gen, entries⟩] })) := by
    refine (ringCmd_eq_after hr ?_ : execLinkstateFrame t src gen entries s = _)
    exact if_neg (show ¬(gen < s.xlk.topoGen ∨ 256 ≤ src) by omega)
  exact ⟨_, hexec, rfl, (SameBesideTime.refl s :)⟩

/-! ## FABRIC_RESCAN -/

theorem refuses_fabricRescan {st : Status} (hst : st ≠ .ok) (h : firstRefusal (rescanConds s busy) = st) :
    Refuses (.fabricRescan t found busy) t s st := by
  refine (ringCmd_eq_after hr ?_ : execFabricRescan t found busy s = _)
  exact admitCmd_refused _ _ _ (show firstRefusal (rescanConds (s.arrive t) busy) = st from h) hst

theorem refuses_fabricRescan_badMode (h : s.modeIn [.configure, .standby] = false) : Refuses (.fabricRescan t found busy) t s .badMode :=
  refuses_fabricRescan hr (by decide) (firstRefusal_cons_of_true (by rw [h]; rfl) ..)

theorem refuses_fabricRescan_badState (hmode : s.modeIn [.configure, .standby] = true) (h : s.xlk.addr = none ∨ busy = true ∨
    s.anyActive = true ∨ s.xlk.role = .lead ∨ s.xlk.role = .dummy) : Refuses (.fabricRescan t found busy) t s .badState := by
  refine refuses_fabricRescan hr (by decide) ((firstRefusal_cons_of_false (by rw [hmode]; rfl) ..).trans (firstRefusal_cons_of_true ?_ ..))
  rcases h with h | h | h | h | h
  · rw [h]
    rfl
  · rw [h, Bool.or_true, Bool.true_or, Bool.true_or, Bool.true_or]
  · rw [h, Bool.or_true, Bool.true_or, Bool.true_or]
  · rw [h, show (Role.lead == Role.lead) = true from rfl, Bool.or_true, Bool.true_or]
  · rw [h, show (Role.dummy == Role.dummy) = true from rfl, Bool.or_true]

/-- What FABRIC_RESCAN does on the root before it completes. -/
def rescanned (found : List (Nat × Nat)) (s : State) : State :=
  assignAll found (clearAddresses (s.xlk.topoGen + 1) (sendXlk 0xFFFF (.rescan (s.xlk.topoGen + 1)) s))

section
variable (hok : firstRefusal (rescanConds s busy) = .ok)
include hok

theorem exec_fabricRescan : exec (.fabricRescan t found busy) s = .next (after t s fun s =>
    complete .supervisor (if 255 < found.length then .fabricFull else .ok) (found.length + 1)
      (if s.xlk.root then rescanned found s else s)) := by
  refine (ringCmd_eq_after hr ?_ : execFabricRescan t found busy s = _)
  exact admitCmd_ok _ _ _ (show firstRefusal (rescanConds (s.arrive t) busy) = .ok from hok)

theorem exec_fabricRescan_other (hroot : s.xlk.root = false) : exec (.fabricRescan t found busy) s = .next (after t s fun s =>
    complete .supervisor (if 255 < found.length then .fabricFull else .ok) (found.length + 1) s) := by
  refine (exec_fabricRescan hr hok).trans (next_after_congr ?_)
  rw [if_neg (show ¬(s.arrive t).xlk.root = true from by rw [show (s.arrive t).xlk.root = false from hroot]; decide)]

theorem leaves_fabricRescan (hroot : s.xlk.root = true) : Leaves (.fabricRescan t found busy) s fun s' =>
    s'.xlk.topoGen = s.xlk.topoGen + 1 ∧ s'.xlk.addr = some 0 ∧ s'.supRing.running = none ∧ SamePrint s s' ∧ SameMotion s s' := by
  have hexec : exec (.fabricRescan t found busy) s = .next (after t s fun s =>
      complete .supervisor (if 255 < found.length then .fabricFull else .ok) (found.length + 1) (rescanned found s)) := by
    refine (exec_fabricRescan hr hok).trans (next_after_congr ?_)
    rw [if_pos (show (s.arrive t).xlk.root = true from hroot)]
  refine leaves_of_effect hexec fun y hy => ?_
  generalize hst : (if 255 < found.length then Status.fabricFull else .ok) = st at hy
  let cleared := clearAddresses ((s.arrive t).xlk.topoGen + 1) (sendXlk 0xFFFF (.rescan ((s.arrive t).xlk.topoGen + 1)) (s.arrive t))
  have hcleared : cleared.sansReports = (s.arrive t).sansReports := sansReports_sendXlk ..
  have hreports : (rescanned found (s.arrive t)).sansReports = (s.arrive t).sansReports :=
    (sansReports_assignAll found cleared).trans hcleared
  have hview : (rescanned found (s.arrive t)).rootView = cleared.rootView := rootView_assignAll found cleared
  have hzero : RootAddressed (rescanned found (s.arrive t)) := rootAddressed_assignAll (s := cleared) rfl found
  have hgen : (rescanned found (s.arrive t)).xlk.topoGen = s.xlk.topoGen + 1 := (congrArg (fun v => v.1) hview :)
  have hpress : KeepsPress (s.arrive t) (rescanned found (s.arrive t)) := keepsPress_of_sansReports hreports
  generalize rescanned found (s.arrive t) = z at hy hzero hgen hpress
  have hxlk : y.xlk = z.xlk := by rw [hy, complete_xlk]
  have hrunning : y.supRing.running = none := by rw [hy]; exact complete_supRing_running ..
  have hkept : KeepsPress z y := by rw [hy]; exact keepsPress_complete ..
  obtain ⟨hprint, hmotion⟩ := hpress.trans hkept
  exact ⟨(congrArg Xlk.topoGen hxlk).trans hgen, (congrArg Xlk.addr hxlk).trans hzero.addr, hrunning, hprint, hmotion⟩

end

theorem exec_rescanFrame (h : s.xlk.topoGen < gen) : exec (.rescanFrame t gen) s = .next (after t s fun s => s.modXlk fun x =>
    { x with topoGen := gen, addr := none, held := [], links := [], full := false, rootSince := s.now, rootKnown := false }) :=
  (ringCmd_eq_after hr (if_neg (show ¬gen ≤ (s.arrive t).xlk.topoGen from Nat.not_le.mpr h)) : execRescanFrame t gen s = _)

theorem exec_rescanFrame_old (h : gen ≤ s.xlk.topoGen) : exec (.rescanFrame t gen) s = .next (after t s id) :=
  (ringCmd_eq_after hr (if_pos (show gen ≤ (s.arrive t).xlk.topoGen from h)) : execRescanFrame t gen s = _)

end

/-- Settles O43: a root that starts a generation holds address 0 alone, and every later assignment keeps that. -/
theorem fabricAddresses : Obligations.FabricAddresses := by
  unfold Obligations.FabricAddresses
  intro t found busy uid addr gen src entries s hr
  exact ⟨fun hid hknown hdue => leaves_rootConverged hr hknown hdue hid,
    fun hid hne hknown hdue => exec_rootConverged_other hr hknown hdue hid hne, exec_rootConverged_idle hr, leaves_assignFrame hr,
    fun hgen => ⟨exec_assignFrame_old hr hgen, exec_linkstateFrame_old hr hgen⟩, leaves_addressHoldExpiry hr,
    leaves_linkstateSend hr, exec_linkstateSend_unaddressed hr, leaves_linkstateFrame hr, refuses_fabricRescan_badMode hr,
    refuses_fabricRescan_badState hr, exec_fabricRescan_other hr, leaves_fabricRescan hr, exec_rescanFrame hr,
    exec_rescanFrame_old hr⟩

end Sys2Proof.Machine
end

section
/-! What the devices of a span tell one another (R256, R364 to R369), and obligation O45. -/
namespace Sys2Proof.Machine

open Sys2Proof.Claim

/-! ## Bits added to a mask -/

/-- A mask built from parts holds what it started from, and each part. -/
theorem foldl_or_absorbs {α : Type} (f : α → Nat) (l : List α) (m : Nat) :
    (l.foldl (fun m p => m ||| f p) m) ||| m = l.foldl (fun m p => m ||| f p) m ∧
      ∀ p ∈ l, (l.foldl (fun m p => m ||| f p) m) ||| f p = l.foldl (fun m p => m ||| f p) m := by
  induction l generalizing m with
  | nil => exact ⟨Nat.or_self m, fun _ h => nomatch h⟩
  | cons a l ih =>
    obtain ⟨hstart, hpart⟩ := ih (m ||| f a)
    rw [List.foldl_cons]
    generalize l.foldl (fun m p => m ||| f p) (m ||| f a) = w at hstart hpart
    have hleft : w ||| m = w := by rw [← hstart, Nat.or_assoc, Nat.or_assoc, Nat.or_comm (f a) m, ← Nat.or_assoc m, Nat.or_self]
    have hright : w ||| f a = w := by rw [← hstart, Nat.or_assoc, Nat.or_assoc, Nat.or_self]
    refine ⟨hleft, fun p hp => ?_⟩
    obtain rfl | hp := List.mem_cons.mp hp
    · exact hright
    · exact hpart p hp

theorem dummy_of_isAuthority {s : State} {c : Fin 64} (h : isAuthority s c = true) : s.dummy = false := by
  rw [isAuthority, Bool.and_eq_true, bne_iff_ne] at h
  exact beq_eq_false_iff_ne.mpr h.1

section
variable {t : Nat} {s : State} (hr : s.ringsRun = true)
include hr

/-! ## PEER_STATE -/

/-- The frame that tells a device's state. -/
def peerStateFrame (s : State) : XlkTx := .peerState s.gov.vallow (peerRoleCode s) (planeMasks s)

theorem exec_peerStateSend : exec (.peerStateSend t) s = .next (after t s fun s =>
    if s.xlk.addr.isSome then sendXlk 0xFFFF (peerStateFrame s) s else s) :=
  (ringCmd_eq_after hr rfl : execPeerStateSend t s = _)

theorem exec_peerStateSend_unaddressed (h : s.xlk.addr = none) : exec (.peerStateSend t) s = .next (after t s id) :=
  (exec_peerStateSend hr).trans (next_after_congr (if_neg (show ¬(s.arrive t).xlk.addr.isSome = true from by
    rw [show (s.arrive t).xlk.addr = none from h]; decide)))

theorem leaves_peerStateSend (h : s.xlk.addr.isSome = true) : Leaves (.peerStateSend t) s fun s' =>
    s'.out.length = (upPorts s).length ∧ (∀ o ∈ s'.out, ∃ l, o = .xlk l 0xFFFF (.peerState s.gov.vallow (peerRoleCode s) (planeMasks s))) ∧
      s'.regs = s.regs ∧ SamePrint s s' ∧ SameMotion s s' := by
  have hexec : exec (.peerStateSend t) s = .next (after t s fun s => sendXlk 0xFFFF (peerStateFrame s) s) :=
    (exec_peerStateSend hr).trans (next_after_congr (if_pos (show (s.arrive t).xlk.addr.isSome = true from h)))
  have hsent := foldl_sendPort_of_unreliable (f := fun _ => peerStateFrame s) (fun _ => rfl) (fun _ _ => rfl) 0xFFFF (upPorts s)
    (s.arrive t)
  refine leaves_of_effect hexec fun y hy => ?_
  have hout : y = _ := (hy.trans (if_pos rfl)).trans hsent
  rw [hout]
  refine ⟨?_, fun o ho => ?_, (SameBesideTime.refl s :)⟩
  · exact List.length_map ..
  · obtain ⟨n, -, rfl⟩ := List.mem_map.mp (show o ∈ (upPorts s).map fun n : Fin 32 =>
      Out.xlk (frameLane (s.arrive t) n 0xFFFF (peerStateFrame s)) 0xFFFF (peerStateFrame s) from ho)
    exact ⟨_, rfl⟩

section
variable {f : PeerState}

theorem leaves_peerStateFrame (h : inPeerSet s f.addr = true) : Leaves (.peerStateFrame t f) s fun s' =>
    s'.gov.peers = (s.gov.peers.filter fun p => p.1 != f.addr) ++ [(f.addr, f.vallow, max s.now t)] ∧
    s'.xlk.peers = (s.xlk.peers.filter fun p => p.1 != f.addr) ++ [(f.addr, f.role, f.masks, f.vallow, max s.now t)] ∧
    s'.regs = s.regs ∧ s'.jobs = s.jobs ∧ SameMotion s s' := by
  have hexec : exec (.peerStateFrame t f) s = .next (after t s fun s =>
      { s.modXlk fun x => { x with peers := (x.peers.filter fun p => p.1 != f.addr) ++ [(f.addr, f.role, f.masks, f.vallow, s.now)] } with
        gov := { s.gov with peers := (s.gov.peers.filter fun p => p.1 != f.addr) ++ [(f.addr, f.vallow, s.now)] } }) := by
    refine (ringCmd_eq_after hr ?_ : execPeerStateFrame t f s = _)
    exact (if_pos (show inPeerSet (s.arrive t) f.addr = true from h)).trans rfl
  exact ⟨_, hexec, rfl, rfl, rfl, rfl, (SameBesideTime.refl s).2.2⟩

theorem exec_peerStateFrame_other (h : inPeerSet s f.addr = false) : exec (.peerStateFrame t f) s = .next (after t s id) := by
  refine (ringCmd_eq_after hr ?_ : execPeerStateFrame t f s = _)
  exact if_neg (show ¬inPeerSet (s.arrive t) f.addr = true from by rw [show inPeerSet (s.arrive t) f.addr = false from h]; decide)

end

/-! ## BIND and BIND_REQ -/

section
variable {c : Fin 64} {lidx rpt : Nat} {es : List BindEntry}

omit hr in
/-- The decisions that a BIND carries, by lane, repeat and sequence number. -/
def bindNews (n first : Nat) (es : List BindEntry) : List (Nat × Nat × Option Nat) :=
  es.zipIdx.map fun e => ((first + e.2) % n, (first + e.2) / n, if e.1.blank then none else some e.1.seq)

omit hr in
/-- A job that takes the decisions for the slots to come. -/
def Job.taking (n : Nat) (news : List (Nat × Nat × Option Nat)) (j : Job) : Job :=
  { j with bindings := (j.bindings.filter fun b => !(news.any fun m => m.1 == b.1 && m.2.1 == b.2.1)) ++
             news.filter fun m => decide (j.nextSlot ≤ m.2.1 * n + m.1) }

theorem exec_bindFrame_taken {q : Package} (hpkg : (s.jobs[c]).pkg = some q) (hauth : isAuthority s c = false) (hdummy : s.dummy = false) :
    exec (.bindFrame t c lidx rpt es) s = .next (after t s fun s =>
      s.modJob c (Job.taking (max 1 q.lanes.length) (bindNews (max 1 q.lanes.length) (rpt * max 1 q.lanes.length + lidx) es))) := by
  refine (ringCmd_eq_after hr ?_ : execBindFrame t c lidx rpt es s = _)
  simp only [show (s.arrive t).dummy = false from hdummy, Bool.false_and, when, Bool.false_eq_true, if_false,
    show ((s.arrive t).jobs[c]).pkg = some q from hpkg, show isAuthority (s.arrive t) c = false from hauth]
  rfl

theorem exec_bindFrame_authority (hauth : isAuthority s c = true) : exec (.bindFrame t c lidx rpt es) s = .next (after t s id) := by
  refine (ringCmd_eq_after hr ?_ : execBindFrame t c lidx rpt es s = _)
  simp only [show (s.arrive t).dummy = false from dummy_of_isAuthority hauth, Bool.false_and, when, Bool.false_eq_true, if_false,
    show isAuthority (s.arrive t) c = true from hauth]
  split
  · rfl
  · rfl

omit hr in
/-- A decision for a slot to come is among those kept. -/
theorem mem_taking {j : Job} {n first i : Nat} {e : BindEntry} (he : es[i]? = some e) (hslot : j.nextSlot ≤ first + i) :
    ((first + i) % n, (first + i) / n, if e.blank then none else some e.seq) ∈ (j.taking n (bindNews n first es)).bindings := by
  refine List.mem_append.mpr (.inr (List.mem_filter.mpr ⟨List.mem_map.mpr ⟨(e, i), List.mk_mem_zipIdx_iff_getElem?.mpr he, rfl⟩, ?_⟩))
  refine decide_eq_true ?_
  show j.nextSlot ≤ (first + i) / n * n + (first + i) % n
  rw [Nat.div_add_mod']
  exact hslot

theorem leaves_bindFrame {q : Package} (hpkg : (s.jobs[c]).pkg = some q) (hauth : isAuthority s c = false) (hdummy : s.dummy = false) :
    Leaves (.bindFrame t c lidx rpt es) s fun s' =>
      (∀ i e, es[i]? = some e → (s.jobs[c]).nextSlot ≤ rpt * max 1 q.lanes.length + lidx + i →
        (((rpt * max 1 q.lanes.length + lidx + i) % max 1 q.lanes.length,
          (rpt * max 1 q.lanes.length + lidx + i) / max 1 q.lanes.length,
          if e.blank then none else some e.seq) ∈ (s'.jobs[c]).bindings)) ∧
      (s'.jobs[c]).items = (s.jobs[c]).items ∧ (∀ m, m ≠ c → s'.jobs[m] = s.jobs[m]) ∧ s'.regs = s.regs ∧ SameMotion s s' := by
  refine leaves_of_effect (exec_bindFrame_taken hr hpkg hauth hdummy) fun y hy => ?_
  have hjob : y.jobs[c] = Job.taking (max 1 q.lanes.length)
      (bindNews (max 1 q.lanes.length) (rpt * max 1 q.lanes.length + lidx) es) s.jobs[c] := by
    rw [hy]
    exact upd_getElem_self ..
  have hother : ∀ m, m ≠ c → y.jobs[m] = s.jobs[m] := fun m hm => by
    rw [hy]
    exact upd_getElem_of_ne hm ..
  have hrest : y.regs = s.regs ∧ SameMotion s y := by
    rw [hy]
    exact ⟨rfl, (SameBesideTime.refl s).2.2⟩
  refine ⟨fun i e he hslot => ?_, ?_, hother, hrest⟩
  · show _ ∈ (y.jobs[c]).bindings
    rw [hjob]
    exact mem_taking he hslot
  · show (y.jobs[c]).items = _
    rw [hjob]
    rfl

/-- What a request for slots does at the authority of a context. -/
theorem exec_bindReqFrame_authority {q : Package} {tb : StructTables} (htb : s.str.tables = some tb) (hpkg : (s.jobs[c]).pkg = some q)
    (hauth : isAuthority s c = true) (hactive : (s.jobs[c]).st.active = true) : exec (.bindReqFrame t c lidx rpt) s =
    .next (after t s (bindUpTo c tb q (rpt * max 1 q.lanes.length + lidx + 1))) := by
  refine (ringCmd_eq_after hr ?_ : execBindReqFrame t c lidx rpt s = _)
  simp only [show (s.arrive t).str.tables = some tb from htb, show ((s.arrive t).jobs[c]).pkg = some q from hpkg]
  exact if_pos ⟨hauth, hactive⟩

theorem leaves_bindReqFrame {q : Package} {tb : StructTables} (htb : s.str.tables = some tb) (hpkg : (s.jobs[c]).pkg = some q)
    (hauth : isAuthority s c = true) (hactive : (s.jobs[c]).st.active = true) : Leaves (.bindReqFrame t c lidx rpt) s fun s' =>
      rpt * max 1 q.lanes.length + lidx + 1 ≤ (s'.jobs[c]).nextSlot ∨ lastBound (s'.jobs[c]) = true ∨ (s'.jobs[c]).st.active = false :=
  leaves_of_effect (exec_bindReqFrame_authority hr htb hpkg hauth hactive) fun y hy => by
    have hbound := boundTo_bindUpTo c tb q (rpt * max 1 q.lanes.length + lidx + 1) (s.arrive t)
    rw [← hy] at hbound
    exact hbound

theorem exec_bindReqFrame_other (h : isAuthority s c = false ∨ (s.jobs[c]).st.active = false) :
    exec (.bindReqFrame t c lidx rpt) s = .next (after t s id) := by
  refine (ringCmd_eq_after hr ?_ : execBindReqFrame t c lidx rpt s = _)
  have hno : ¬(isAuthority (s.arrive t) c = true ∧ ((s.arrive t).jobs[c]).st.active = true) := fun ⟨hauth, hactive⟩ =>
    h.elim (fun h => absurd (h.symm.trans hauth) (by decide)) fun h => absurd (h.symm.trans hactive) (by decide)
  split
  · exact if_neg hno
  · rfl

end

/-! ## RCHECK -/

section
variable {c : Fin 64} {pk : Bool} {count first crc : Nat}

theorem exec_rcheckFrame_idle (h : s.dummy = false) : exec (.rcheckFrame t c pk count first crc) s = .next (after t s id) := by
  refine (ringCmd_eq_after hr ?_ : execRcheckFrame t c pk count first crc s = _)
  exact if_neg (show ¬(s.arrive t).dummy = true from by rw [show (s.arrive t).dummy = false from h]; decide)

variable (hdummy : s.dummy = true)
include hdummy

theorem exec_rcheckFrame_dummy : exec (.rcheckFrame t c pk count first crc) s =
    .next (after t s (takeRcheck (c.val, pk, count, first, crc))) :=
  (ringCmd_eq_after hr (if_pos (show (s.arrive t).dummy = true from hdummy)) : execRcheckFrame t c pk count first crc s = _)

theorem exec_rcheckFrame_package (h : rcheckAgrees s (c.val, pk, count, first, crc) = some true) (hpk : pk = true) :
    exec (.rcheckFrame t c pk count first crc) s = .next (after t s fun s =>
      s.modXlk fun x => { x with checked := x.checked ||| (1#64 <<< c.val) }) := by
  refine (exec_rcheckFrame_dummy hr hdummy).trans (next_after_congr ?_)
  rw [takeRcheck, show rcheckAgrees (s.arrive t) (c.val, pk, count, first, crc) = some true from h, hpk]
  rfl

theorem exec_rcheckFrame_batch (h : rcheckAgrees s (c.val, pk, count, first, crc) = some true) (hpk : pk = false) :
    exec (.rcheckFrame t c pk count first crc) s = .next (after t s id) := by
  refine (exec_rcheckFrame_dummy hr hdummy).trans (next_after_congr ?_)
  rw [takeRcheck, show rcheckAgrees (s.arrive t) (c.val, pk, count, first, crc) = some true from h, hpk]
  rfl

theorem exec_rcheckFrame_waiting (h : rcheckAgrees s (c.val, pk, count, first, crc) = none) :
    exec (.rcheckFrame t c pk count first crc) s = .next (after t s fun s =>
      s.modXlk fun x => { x with rchecks := x.rchecks ++ [(c.val, pk, count, first, crc)] }) := by
  refine (exec_rcheckFrame_dummy hr hdummy).trans (next_after_congr ?_)
  rw [takeRcheck, show rcheckAgrees (s.arrive t) (c.val, pk, count, first, crc) = none from h]

theorem leaves_rcheckFrame_differs (h : rcheckAgrees s (c.val, pk, count, first, crc) = some false) :
    Leaves (.rcheckFrame t c pk count first crc) s fun s' => s'.xlk.unfit.getLsbD c = true ∧ bitOf s' Reg.evtAlarmLatch 0 31 = true ∧
      SamePrint s s' ∧ SameMotion s s' := by
  have hexec : exec (.rcheckFrame t c pk count first crc) s =
      .next (after t s fun s => alarm .pairRecordDiff c.val (markUnfit c.val s)) := by
    refine (exec_rcheckFrame_dummy hr hdummy).trans (next_after_congr ?_)
    rw [takeRcheck, show rcheckAgrees (s.arrive t) (c.val, pk, count, first, crc) = some false from h]
  refine leaves_of_effect hexec fun y hy => ?_
  have hxlk : y.xlk = (markUnfit c.val (s.arrive t)).xlk := by rw [hy, alarm_xlk]
  have htold : bitOf y Reg.evtAlarmLatch 0 31 = true := by rw [hy]; exact alarm_bitOf .pairRecordDiff _ _
  have hreports : y.sansReports = (s.arrive t).sansReports := by rw [hy, sansReports_alarm]; rfl
  have hunfit : y.xlk.unfit = s.xlk.unfit ||| (1#64 <<< c.val) := congrArg Xlk.unfit hxlk
  have hprint : SamePrint (s.arrive t) y := samePrint_of_sansReports hreports
  have hmotion : SameMotion (s.arrive t) y := sameMotion_of_sansReports hreports
  refine ⟨?_, htold, hprint, hmotion⟩
  show y.xlk.unfit.getLsbD c = true
  rw [hunfit, BitVec.getLsbD_or, getLsbD_shifted c.isLt, Bool.or_true]

end

/-! ## PARTIAL results -/

section
variable {c : Fin 64} {src seq planes codes : Nat}

/-- What PARTIALs have brought for an item, replaced. -/
def withPartial (c : Fin 64) (seq : Nat) (w : PartialWait) (s : State) : State :=
  s.modXlk fun x => { x with partials := (x.partials.filter fun y => !(y.ctx == c.val && y.seq == seq)) ++ [w] }

theorem exec_partialFrame_ignored (h : isAuthority s c = false ∨ (∃ q, (s.jobs[c]).finalSeq = some q ∧ seq ≤ q)) :
    exec (.partialFrame t src c seq planes codes) s = .next (after t s id) := by
  refine (ringCmd_eq_after hr ?_ : execPartialFrame t src c seq planes codes s = _)
  refine if_pos (show (!isAuthority s c) = true ∨ ((s.jobs[c]).finalSeq.any fun f => decide (seq ≤ f)) = true from ?_)
  refine h.imp (fun h => by rw [h]; rfl) fun ⟨q, hq, hle⟩ => ?_
  rw [hq]
  exact decide_eq_true hle

theorem exec_partialFrame_taken (hauth : isAuthority s c = true) (hfinal : ∀ q, (s.jobs[c]).finalSeq = some q → q < seq) :
    exec (.partialFrame t src c seq planes codes) s = .next (after t s fun s => settleJob c (withPartial c seq
      { partialsOf s c seq with planes := (partialsOf s c seq).planes ||| planes, codes := (partialsOf s c seq).codes ||| codes,
                                got := (src :: (partialsOf s c seq).got).eraseDups } s)) := by
  refine (ringCmd_eq_after hr ?_ : execPartialFrame t src c seq planes codes s = _)
  refine (if_neg (show ¬((!isAuthority s c) = true ∨ ((s.jobs[c]).finalSeq.any fun f => decide (seq ≤ f)) = true) from ?_)).trans rfl
  rw [hauth]
  rintro (h | h)
  · exact absurd h (by decide)
  · cases hq : (s.jobs[c]).finalSeq with
    | none =>
      rw [hq] at h
      exact nomatch h
    | some q =>
      rw [hq, Option.any_some] at h
      exact absurd (of_decide_eq_true h) (Nat.not_le.mpr (hfinal q hq))

/-- Whether an item's own result has waited 100 ms for its peers. -/
def partialDue (c : Fin 64) (seq : Nat) (s : State) : Bool := (s.jobs[c]).items.any fun it => it.seq == seq && it.outcome.isNone &&
  (it.ownFinal.any fun f => decide (f + 100 * ms8 ≤ s.now))

/-- The silent peers' planes added to what PARTIALs have brought. -/
def partialSilenced (c : Fin 64) (seq : Nat) (s : State) : PartialWait :=
  { partialsOf s c seq with planes := (silentPeers s c seq).foldl (fun m p => m ||| p.2) (partialsOf s c seq).planes,
                            codes := (partialsOf s c seq).codes ||| 64,
                            got := (partialsOf s c seq).got ++ (silentPeers s c seq).map (·.1) }

theorem exec_partialTimeout : exec (.partialTimeout t c seq) s = .next (after t s fun s =>
    if partialDue c seq s ∧ !(silentPeers s c seq).isEmpty then settleJob c (withPartial c seq (partialSilenced c seq s) s) else s) :=
  (ringCmd_eq_after hr rfl : execPartialTimeout t c seq s = _)

theorem exec_partialTimeout_due (h : ∃ it ∈ (s.jobs[c]).items, it.seq = seq ∧ it.outcome = none ∧
      ∃ d, it.ownFinal = some d ∧ d + 800000000 ≤ max s.now t) (hsilent : silentPeers s c seq ≠ []) :
    ∃ w : PartialWait, w.ctx = (partialsOf s c seq).ctx ∧ w.seq = (partialsOf s c seq).seq ∧
      w.codes = (partialsOf s c seq).codes ||| 64 ∧ (∀ p ∈ silentPeers s c seq, p.1 ∈ w.got ∧ w.planes ||| p.2 = w.planes) ∧
      exec (.partialTimeout t c seq) s = .next (after t s fun s => settleJob c (withPartial c seq w s)) := by
  have hdue : partialDue c seq (s.arrive t) = true := by
    obtain ⟨it, hit, hseq, hnone, d, hd, hle⟩ := h
    refine List.any_eq_true.mpr ⟨it, hit, ?_⟩
    rw [hseq, hnone, hd, beq_self_eq_true, Option.isNone_none, Option.any_some, Bool.and_true, Bool.true_and]
    exact decide_eq_true hle
  have hsome : (!(silentPeers (s.arrive t) c seq).isEmpty) = true := by
    rw [Bool.not_eq_true', List.isEmpty_eq_false_iff]
    exact hsilent
  refine ⟨partialSilenced c seq s, rfl, rfl, rfl, fun p hp => ⟨List.mem_append.mpr (.inr (List.mem_map_of_mem hp)), ?_⟩,
    (exec_partialTimeout hr).trans (next_after_congr (if_pos ⟨hdue, hsome⟩))⟩
  exact (foldl_or_absorbs (·.2) (silentPeers s c seq) (partialsOf s c seq).planes).2 p hp

theorem exec_partialTimeout_idle (h : (∀ it ∈ (s.jobs[c]).items, it.seq = seq → ∀ d, it.ownFinal = some d → max s.now t < d + 800000000) ∨
    silentPeers s c seq = []) : exec (.partialTimeout t c seq) s = .next (after t s id) := by
  refine (exec_partialTimeout hr).trans (next_after_congr (if_neg ?_))
  rintro ⟨hdue, hsome⟩
  rcases h with h | h
  · obtain ⟨it, hit, hon⟩ := List.any_eq_true.mp hdue
    rw [Bool.and_eq_true, Bool.and_eq_true, beq_iff_eq] at hon
    obtain ⟨⟨hseq, -⟩, hwait⟩ := hon
    cases hd : it.ownFinal with
    | none =>
      rw [hd] at hwait
      exact nomatch hwait
    | some d =>
      rw [hd, Option.any_some] at hwait
      exact absurd (of_decide_eq_true hwait) (Nat.not_le.mpr (h it hit hseq d hd))
  · rw [show silentPeers (s.arrive t) c seq = [] from h] at hsome
    exact absurd hsome (by decide)

end

end

/-- Settles O45: each frame of a span acts at the device that it concerns, and is nothing elsewhere. -/
theorem spanRecords : Obligations.SpanRecords := by
  unfold Obligations.SpanRecords
  intro t f c lidx rpt count first crc src seq planes codes es pk s hr
  exact ⟨leaves_peerStateSend hr, exec_peerStateSend_unaddressed hr, leaves_peerStateFrame hr, exec_peerStateFrame_other hr,
    fun q => leaves_bindFrame hr, exec_bindFrame_authority hr, fun q tb => leaves_bindReqFrame hr, exec_bindReqFrame_other hr,
    exec_rcheckFrame_idle hr, fun hdummy => ⟨exec_rcheckFrame_package hr hdummy, exec_rcheckFrame_batch hr hdummy,
      leaves_rcheckFrame_differs hr hdummy, exec_rcheckFrame_waiting hr hdummy⟩, exec_partialFrame_ignored hr,
    exec_partialFrame_taken hr, exec_partialTimeout_due hr, exec_partialTimeout_idle hr⟩

end Sys2Proof.Machine
end

section
/-! What a start keeps: the jobs, the reset causes and, where no role is pending, the staged firmware image (R59, R441). -/
namespace Sys2Proof.Machine

open Sys2Proof.Claim

/-- What no step of a start writes once the slot is chosen. -/
def State.bootLine (s : State) : Vector Job 64 × Word × Option Image := (s.jobs, s.rd Reg.devResetCause, s.fw.fwiStaged)

theorem bootLine_of_views {s s' : State} (hreports : s'.sansReports = s.sansReports) (hview : s'.startView = s.startView) :
    s'.bootLine = s.bootLine := by
  rw [State.bootLine, State.bootLine, jobs_of_sansReports hreports, cause_of_startView hview, fw_of_startView hview]

theorem bootLine_alarmArgs (a : Alarm) (inst : Nat) (a0 a1 a2 : Int) (s : State) :
    (alarmArgs a inst a0 a1 a2 s).bootLine = s.bootLine := bootLine_of_views (sansReports_alarmArgs ..) (startView_alarmArgs ..)

theorem bootLine_alarm (a : Alarm) (inst : Nat) (s : State) : (alarm a inst s).bootLine = s.bootLine := bootLine_alarmArgs ..

theorem bootLine_diag (d : Diag) (inst : Nat) (a0 a1 a2 : Int) (s : State) : (diag d inst a0 a1 a2 s).bootLine = s.bootLine :=
  bootLine_of_views (sansReports_diag ..) (startView_diag ..)

theorem bootLine_admitWaiting (s : State) : (admitWaiting s).bootLine = s.bootLine :=
  bootLine_of_views (sansReports_admitWaiting s) (startView_admitWaiting s)

theorem bootLine_wr {r : RegSpec} (h : 0x14 < r.base) (i : Nat) (v : Word) (s : State) : (s.wr r i v).bootLine = s.bootLine := by
  rw [State.bootLine, State.bootLine, cause_of_startView (startView_wr h v s)]
  rfl

theorem bootLine_modDev (f : Dev → Dev) (s : State) : (s.modDev f).bootLine = s.bootLine := rfl

theorem bootLine_modPlane (p : Fin 8) (f : PlaneSt → PlaneSt) (s : State) : (s.modPlane p f).bootLine = s.bootLine := rfl

theorem bootLine_withNzm (n : Nzm) (s : State) : State.bootLine { s with nzm := n } = s.bootLine := rfl

theorem bootLine_reachStage7 (s : State) : (reachStage7 s).bootLine = s.bootLine := rfl

theorem bootLine_latchRegs (p : Fin 8) (s : State) : (latchRegs p s).bootLine = s.bootLine := bootLine_modPlane ..

theorem bootLine_deriveSlots (s : State) : (deriveSlots s).bootLine = s.bootLine := by
  unfold deriveSlots
  split
  · exact foldl_leaves (g := State.bootLine) (fun s e => by rfl) _ s
  · rfl

theorem bootLine_startWipe (ok : Bool) (s : State) : (startWipe ok s).bootLine = s.bootLine := by
  unfold startWipe
  extract_lets y
  split
  · exact bootLine_deriveSlots y
  · exact (bootLine_alarm .memWipeFail noInst _).trans rfl

theorem bootLine_parkPins (s : State) : (parkPins s).bootLine = s.bootLine := by
  unfold parkPins
  exact (foldl_leaves (g := State.bootLine) (fun s m => bootLine_wr (by decide) ..) _ _).trans rfl

theorem bootLine_applyPins (pins : List PinRec) (s : State) : (applyPins pins s).bootLine = s.bootLine := by
  unfold applyPins
  exact (foldl_leaves (g := State.bootLine) (fun s m => bootLine_wr (by decide) ..) _ _).trans rfl

theorem bootLine_switchDomains (t : StructTables) (s : State) : (switchDomains t s).bootLine = s.bootLine := by
  unfold switchDomains
  extract_lets off was y
  have hy : y.bootLine = s.bootLine := (bootLine_wr (by decide) ..).trans (bootLine_wr (by decide) ..)
  exact (show _ = y.bootLine from rfl).trans hy

theorem bootLine_scanPitches (t : StructTables) (s : State) : (scanPitches t s).bootLine = s.bootLine := by
  unfold scanPitches
  refine foldl_leaves (g := State.bootLine) (fun s e => ?_) _ s
  split
  · exact bootLine_wr (by decide) ..
  · rfl

theorem bootLine_calApply (r : CalRecord) (s : State) : (calApply r s).bootLine = s.bootLine := by
  unfold calApply
  extract_lets v
  split
  · exact bootLine_wr (by decide) ..
  · rfl
  · rfl

/-- The head phases that an activation forgets lie above the reset causes. -/
theorem bootLine_sansHphase (s : State) :
    State.bootLine { s with regs := s.regs.filter fun r => !Reg.pacHphase.holds r.1 } = s.bootLine := by
  have hcause : State.rd { s with regs := s.regs.filter fun r => !Reg.pacHphase.holds r.1 } Reg.devResetCause =
      s.rd Reg.devResetCause := by
    rw [State.rd, State.rd, regLookup_filter_of_kept (fun v => rfl)]
  rw [State.bootLine, State.bootLine, hcause]

theorem bootLine_calActivate (t : StructTables) (s : State) : (calActivate t s).bootLine = s.bootLine := by
  unfold calActivate
  extract_lets y z
  have hz : z.bootLine = s.bootLine := (show z.bootLine = y.bootLine from rfl).trans (bootLine_sansHphase s)
  refine (foldl_leaves (g := State.bootLine) (fun s r => ?_) _ z).trans hz
  split
  · rfl
  · split
    · exact bootLine_calApply ..
    · exact bootLine_diag ..

theorem bootLine_activatePlanes (t : StructTables) (s : State) : (activatePlanes t s).bootLine = s.bootLine := by
  unfold activatePlanes
  extract_lets x y z
  have hx : x.bootLine = s.bootLine := foldl_leaves (g := State.bootLine) (fun s p => by exact bootLine_modPlane ..) _ s
  have hz : z.bootLine = y.bootLine := foldl_leaves (g := State.bootLine) (fun s p => by exact bootLine_latchRegs ..) _ y
  have hy : y.bootLine = x.bootLine := (bootLine_wr (by decide) ..).trans (bootLine_withNzm ..)
  refine (foldl_leaves (g := State.bootLine) (fun s p => ?_) _ z).trans (hz.trans (hy.trans hx))
  split
  · exact bootLine_modPlane ..
  · rfl

theorem bootLine_loseLock (s : State) : (loseLock s).bootLine = s.bootLine := by
  unfold loseLock when
  extract_lets y
  split
  · split
    · exact (bootLine_alarm ..).trans rfl
    · rfl
  · rfl

theorem bootLine_dropStepperLock (n : Nat) (s : State) : (dropStepperLock n s).bootLine = s.bootLine := by
  unfold dropStepperLock
  split
  · exact bootLine_loseLock s
  · rfl

theorem bootLine_electRoot (s : State) : (electRoot s).bootLine = s.bootLine := by
  unfold electRoot ceaseRoot
  extract_lets b y
  split
  · rfl
  · split
    · rfl
    · split
      · exact (bootLine_alarm .xlkTimeLost noInst _).trans rfl
      · rfl

theorem bootLine_installStructure (t : StructTables) (s : State) : (installStructure t s).bootLine = s.bootLine := by
  unfold installStructure
  extract_lets str installed mlk lane linked waved applied ins scanned pac paced planed locked gov governed port elected d
  have happlied : applied.bootLine = waved.bootLine :=
    (bootLine_calActivate ..).trans ((bootLine_applyPins ..).trans (bootLine_switchDomains ..))
  have hscanned : scanned.bootLine = applied.bootLine := bootLine_scanPitches ..
  have hplaned : planed.bootLine = paced.bootLine := bootLine_activatePlanes ..
  have hlocked : locked.bootLine = planed.bootLine :=
    foldl_leaves (g := State.bootLine) (fun s n => by exact bootLine_dropStepperLock ..) _ planed
  have helected : elected.bootLine = governed.bootLine := bootLine_electRoot ..
  exact helected.trans (hlocked.trans (hplaned.trans (hscanned.trans happlied)))

theorem bootLine_startActivation (row : CheckRow) (ok : Bool) (s : State) : (startActivation row ok s).bootLine = s.bootLine := by
  unfold startActivation
  split
  · exact (bootLine_modDev ..).trans (bootLine_installStructure ..)
  · exact bootLine_alarm ..

theorem bootLine_calReports (repaired lost : List (Nat × Nat)) (s : State) :
    (calReports repaired lost s).bootLine = s.bootLine := by
  unfold calReports
  extract_lets y
  have hy : y.bootLine = s.bootLine := foldl_leaves (g := State.bootLine) (fun s x => bootLine_diag ..) _ s
  refine (foldl_leaves (g := State.bootLine) (fun s x => ?_) _ y).trans hy
  exact (bootLine_alarmArgs ..).trans rfl

theorem bootLine_startReports (env : BootEnv) (s : State) : (startReports env s).bootLine = s.bootLine := by
  unfold startReports
  extract_lets x y
  have hx : x.bootLine = s.bootLine := by
    simp only [x]
    split
    · exact (bootLine_alarm ..).trans rfl
    · rfl
  have hy : y.bootLine = x.bootLine := by
    simp only [y]
    split
    · exact bootLine_alarmArgs ..
    · rfl
  exact (bootLine_calReports ..).trans (hy.trans hx)

theorem bootLine_reachConfigure (env : BootEnv) (s : State) : (reachConfigure env s).bootLine = s.bootLine := by
  rw [reachConfigure_eq, bootLine_startActivation, bootLine_admitWaiting, bootLine_startReports, bootLine_electRoot]
  exact (bootLine_reachStage7 _).trans ((bootLine_parkPins _).trans rfl)

/-! ## The choice of the slot -/

/-- What a start keeps from its first step on. -/
structure StartKept (s s' : State) : Prop where
  jobs : s'.jobs = s.jobs
  cause : s'.rd Reg.devResetCause = s.rd Reg.devResetCause
  staged : s.fw.pendActivate = false → s.fw.pendRevert = false → s.fw.trial = false → s'.fw.fwiStaged = s.fw.fwiStaged

theorem startKept_of_bootLine {s s' : State} (h : s'.bootLine = s.bootLine) : StartKept s s' :=
  ⟨congrArg (·.1) h, congrArg (·.2.1) h, fun _ _ _ => congrArg (·.2.2) h⟩

theorem StartKept.bootLine_after {s y s' : State} (h : StartKept s y) (hline : s'.bootLine = y.bootLine) : StartKept s s' :=
  ⟨(congrArg (·.1) hline).trans h.jobs, (congrArg (·.2.1) hline).trans h.cause,
    fun ha hr ht => (congrArg (·.2.2) hline).trans (h.staged ha hr ht)⟩

theorem startKept_chooseFwi {env : BootEnv} {s s' : State} (h : chooseFwi env s = some s') : StartKept s s' := by
  have hswitch : (switchRoles s).jobs = s.jobs ∧ (switchRoles s).rd Reg.devResetCause = s.rd Reg.devResetCause ∧
      (s.fw.pendActivate = false → s.fw.pendRevert = false → switchRoles s = s) := by
    unfold switchRoles
    refine ⟨?_, ?_, fun ha hr => ?_⟩
    · split_ifs <;> rfl
    · split_ifs <;> rfl
    · rw [ha, hr]
      rfl
  obtain ⟨hjobs, hcause, hstill⟩ := hswitch
  have hrest : s'.jobs = (switchRoles s).jobs ∧ s'.rd Reg.devResetCause = (switchRoles s).rd Reg.devResetCause ∧
      ((switchRoles s).fw.trial = false → s'.fw.fwiStaged = (switchRoles s).fw.fwiStaged) := by
    unfold chooseFwi at h
    simp only [] at h
    split at h
    · next htrial =>
      refine ⟨?_, ?_, fun hno => absurd htrial (Bool.eq_false_iff.mp hno)⟩
      · split at h
        · split at h
          · cases h
            rfl
          · cases h
        · cases h
          rfl
      · split at h
        · split at h
          · cases h
            rfl
          · cases h
        · cases h
          rfl
    · split at h
      · cases h
        exact ⟨rfl, rfl, fun _ => rfl⟩
      · split at h
        · cases h
          exact ⟨rfl, rfl, fun _ => rfl⟩
        · cases h
  obtain ⟨hjobs', hcause', hstaged⟩ := hrest
  refine ⟨hjobs'.trans hjobs, hcause'.trans hcause, fun ha hr ht => ?_⟩
  have hsw := hstill ha hr
  rw [hsw] at hstaged
  exact hstaged ht

theorem startKept_bootRest (env : BootEnv) (s : State) :
    StartKept s (match (if env.flashTableOk then chooseFwi env s else none) with
      | none => enterRecovery 5 3 0 s
      | some s =>
        let s := s.modDev fun d => { d with stage := 6, watchdogAt := some (s.now + 5 * sec8) }
        if env.reachesStep7 then reachConfigure env (firmwareUp env s) else s) := by
  cases hf : (if env.flashTableOk then chooseFwi env s else none) with
  | none => exact startKept_of_bootLine (bootLine_modDev ..)
  | some v =>
    have hv : StartKept s v := by
      split at hf
      · exact startKept_chooseFwi hf
      · cases hf
    simp only []
    split
    · exact hv.bootLine_after ((bootLine_reachConfigure ..).trans rfl)
    · exact hv.bootLine_after (bootLine_modDev ..)

theorem startKept_boot (env : BootEnv) (s : State) : StartKept s (boot env s) := by
  unfold boot
  extract_lets y z
  have hz : z.bootLine = s.bootLine := bootLine_startWipe ..
  split
  · exact startKept_of_bootLine (bootLine_modDev ..)
  · split
    · exact startKept_of_bootLine (bootLine_modDev ..)
    · split
      · exact startKept_of_bootLine (bootLine_modDev ..)
      · have hfw : z.fw = s.fw := fw_of_startView (startView_startWipe ..)
        obtain ⟨hjobs, hcause, hstaged⟩ := startKept_bootRest env z
        rw [hfw] at hstaged
        exact ⟨hjobs.trans (congrArg (·.1) hz), hcause.trans (congrArg (·.2.1) hz), hstaged⟩

/-- A warm start by a firmware activation records its cause, and starts without a job. -/
theorem warmStart_activation (env : BootEnv) (s : State) :
    (warmStart 3 env s).fld Reg.devResetCause 0 3 3 = 1 ∧ (warmStart 3 env s).jobs = State.reset.jobs := by
  unfold warmStart
  extract_lets x y
  have hjobs : y.jobs = State.reset.jobs := by
    simp only [y]
    split <;> rfl
  obtain ⟨hkept, hcause, -⟩ := startKept_boot env (markReset 3 y)
  refine ⟨?_, hkept.trans hjobs⟩
  rw [State.fld, hcause]
  exact (bitsOf_eq_one_iff _ 3).mpr (bitOf_setFld_one (by decide) (by decide) 0 y)

end Sys2Proof.Machine
end

section
/-! Update transfers (R437, R438): what UPD_BEGIN, UPD_BLOCK and UPD_END answer and leave. -/
namespace Sys2Proof.Machine

open Sys2Proof.Claim

/-- No image slot changes. -/
def SlotsKept (s s' : State) : Prop :=
  s'.fw.fwiStaged = s.fw.fwiStaged ∧ s'.fw.mtiStaged = s.fw.mtiStaged ∧ s'.str = s.str ∧
    s'.fw.fwiActive = s.fw.fwiActive ∧ s'.fw.mtiActive = s.fw.mtiActive

/-- A supervisor command ends on a state: the firmware and structure blocks are those of that state. -/
theorem ended_of_eq {y z : State} {st : Status} {r : Nat} (h : y = complete .supervisor st r z) :
    y.fw = z.fw ∧ y.str = z.str ∧ y.supRing.running = none := by
  subst h
  exact ⟨complete_fw .., complete_str .., complete_supRing_running ..⟩

section
variable {s : State} (hr : s.ringsRun = true) {t cls length offset : Nat} {header data : Bytes} {x : Transfer}
include hr

/-! ## UPD_BEGIN -/

theorem refuses_updBegin_busy (h : s.fw.xfer.isSome = true ∨ s.str.load.isSome = true) :
    Refuses (.updBegin t cls length header) t s .busy := by
  refine (ringCmd_eq_after hr ?_ : execUpdBegin t cls length header s = _)
  exact admitCmd_refused _ _ _ (firstRefusal_cons_of_true
    (show (s.fw.xfer.isSome || s.str.load.isSome) = true from Bool.or_eq_true_iff.mpr h) ..) (by decide)

theorem refuses_updBegin_range (hxfer : s.fw.xfer = none) (hload : s.str.load = none) (h : cls = 0 ∨ 3 < cls) :
    Refuses (.updBegin t cls length header) t s .range := by
  refine (ringCmd_eq_after hr ?_ : execUpdBegin t cls length header s = _)
  refine admitCmd_refused _ _ _ ((firstRefusal_cons_of_false
    (show (s.fw.xfer.isSome || s.str.load.isSome) = false by rw [hxfer, hload]; rfl) ..).trans
    (firstRefusal_cons_of_true ?_ ..)) (by decide)
  rw [classOk, decide_eq_false (by omega)]
  rfl

theorem exec_updBegin_open (hxfer : s.fw.xfer = none) (hload : s.str.load = none) (hlow : 1 ≤ cls) (hhigh : cls ≤ 3) :
    exec (.updBegin t cls length header) s = .next (after t s fun s => match headerRow header (imageCtx s cls length) with
      | 0 => complete .supervisor .ok 0
        ((when (cls == 1 && decide (heldBody < u32 header 32)) (setStaged 1 none) s).modFw fun u =>
          { u with xfer := some (newTransfer (when (cls == 1 && decide (heldBody < u32 header 32)) (setStaged 1 none) s) cls
            length header) })
      | r => complete .supervisor (rowStatus r) 0 (noteRow r s)) := by
  refine (ringCmd_eq_after hr ?_ : execUpdBegin t cls length header s = _)
  refine admitCmd_ok _ _ _ ((firstRefusal_cons_of_false
    (show (s.fw.xfer.isSome || s.str.load.isSome) = false by rw [hxfer, hload]; rfl) ..).trans
    (firstRefusal_cons_of_false ?_ ..))
  rw [classOk, decide_eq_true ⟨hlow, hhigh⟩]
  rfl

theorem leaves_updBegin_row (hxfer : s.fw.xfer = none) (hload : s.str.load = none) (hlow : 1 ≤ cls) (hhigh : cls ≤ 3)
    (hrow : headerRow header (imageCtx s cls length) ≠ 0) : Leaves (.updBegin t cls length header) s fun s' =>
      s'.fw.xfer = none ∧ s'.fw.errRow = headerRow header (imageCtx s cls length) ∧ s'.supRing.running = none ∧
        SlotsKept s s' := by
  refine leaves_of_effect (exec_updBegin_open hr hxfer hload hlow hhigh) fun y hy => ?_
  obtain ⟨n, hn⟩ : ∃ n, headerRow header (imageCtx s cls length) = n := ⟨_, rfl⟩
  rw [show headerRow header (imageCtx (s.arrive t) cls length) = n from hn] at hy
  rw [hn] at hrow ⊢
  obtain _ | n := n
  · exact absurd rfl hrow
  · obtain ⟨hfw, hstr, hrun⟩ := ended_of_eq hy
    exact ⟨(congrArg Upd.xfer hfw).trans hxfer, (congrArg Upd.errRow hfw :), hrun, (congrArg Upd.fwiStaged hfw :),
      (congrArg Upd.mtiStaged hfw :), hstr, (congrArg Upd.fwiActive hfw :), (congrArg Upd.mtiActive hfw :)⟩

theorem leaves_updBegin (hxfer : s.fw.xfer = none) (hload : s.str.load = none) (hlow : 1 ≤ cls) (hhigh : cls ≤ 3)
    (hrow : headerRow header (imageCtx s cls length) = 0) : Leaves (.updBegin t cls length header) s fun s' =>
      s'.fw.xfer = some { cls := cls, length := length, data := header.take (256 + 4 * u16 header 36), lastAt := max s.now t } ∧
        (cls ≠ 1 ∨ u32 header 32 ≤ 4194304 → SlotsKept s s') ∧
        (cls = 1 → 4194304 < u32 header 32 → s'.fw.fwiStaged = none) := by
  refine leaves_of_effect (exec_updBegin_open hr hxfer hload hlow hhigh) fun y hy => ?_
  rw [show headerRow header (imageCtx (s.arrive t) cls length) = 0 from hrow] at hy
  obtain ⟨hfw, hstr, -⟩ := ended_of_eq hy
  by_cases hbig : cls = 1 ∧ heldBody < u32 header 32
  · obtain ⟨rfl, hbody⟩ := hbig
    rw [decide_eq_true hbody] at hfw
    exact ⟨(congrArg Upd.xfer hfw :), fun h => absurd hbody (by rw [heldBody]; omega), fun _ _ => (congrArg Upd.fwiStaged hfw :)⟩
  · have hno : (cls == 1 && decide (heldBody < u32 header 32)) = false := by
      rw [Bool.and_eq_false_iff]
      by_cases hone : cls = 1
      · exact .inr (decide_eq_false fun h => hbig ⟨hone, h⟩)
      · exact .inl (beq_false_of_ne hone)
    rw [hno] at hfw hstr
    exact ⟨(congrArg Upd.xfer hfw :), fun _ => ⟨(congrArg Upd.fwiStaged hfw :), (congrArg Upd.mtiStaged hfw :), hstr,
      (congrArg Upd.fwiActive hfw :), (congrArg Upd.mtiActive hfw :)⟩, fun hone hbody => absurd ⟨hone, hbody⟩ hbig⟩

/-! ## UPD_BLOCK and UPD_END -/

theorem refuses_updBlock (hxfer : s.fw.xfer = none) : Refuses (.updBlock t offset data) t s .badState := by
  refine (ringCmd_eq_after hr ?_ : execUpdBlock t offset data s = _)
  rw [show (s.arrive t).fw.xfer = none from hxfer]

theorem refuses_updEnd (hxfer : s.fw.xfer = none) : Refuses (.updEnd t) t s .badState := by
  refine (ringCmd_eq_after hr ?_ : execUpdEnd t s = _)
  rw [show (s.arrive t).fw.xfer = none from hxfer]

theorem exec_updBlock_ok (hxfer : s.fw.xfer = some x) (h : blockStatus x offset data = .ok) : exec (.updBlock t offset data) s =
    .next (after t s fun s => complete .supervisor .ok 0
      (s.modFw fun u => { u with xfer := some { x with data := x.data ++ data, lastAt := s.now } })) := by
  refine (ringCmd_eq_after hr ?_ : execUpdBlock t offset data s = _)
  rw [show (s.arrive t).fw.xfer = some x from hxfer]
  simp only [h]
  rfl

/-- A refused transfer: it is discarded, and a digest that fails is noted under its row. -/
def refusedXfer (st : Status) (row : Nat) (s : State) : State :=
  complete .supervisor st 0 (when (st == .integrity) (noteRow row) (endXfer s))

omit hr in
theorem refusedXfer_leaves (st : Status) (row : Nat) (s : State) : (refusedXfer st row s).fw.xfer = none ∧
    (refusedXfer st row s).supRing.running = none ∧ SlotsKept s (refusedXfer st row s) := by
  obtain ⟨hfw, hstr, hrun⟩ := ended_of_eq (y := refusedXfer st row s) rfl
  by_cases hst : (st == .integrity) = true
  · rw [when, if_pos hst] at hfw hstr
    exact ⟨(congrArg Upd.xfer hfw :), hrun, (congrArg Upd.fwiStaged hfw :), (congrArg Upd.mtiStaged hfw :), hstr,
      (congrArg Upd.fwiActive hfw :), (congrArg Upd.mtiActive hfw :)⟩
  · rw [when, if_neg hst] at hfw hstr
    exact ⟨(congrArg Upd.xfer hfw :), hrun, (congrArg Upd.fwiStaged hfw :), (congrArg Upd.mtiStaged hfw :), hstr,
      (congrArg Upd.fwiActive hfw :), (congrArg Upd.mtiActive hfw :)⟩

theorem leaves_updBlock_refused (hxfer : s.fw.xfer = some x) (h : blockStatus x offset data ≠ .ok) :
    Leaves (.updBlock t offset data) s fun s' => s'.fw.xfer = none ∧ s'.supRing.running = none ∧ SlotsKept s s' := by
  have hexec : exec (.updBlock t offset data) s = .next (after t s (refusedXfer (blockStatus x offset data) 8)) := by
    refine (ringCmd_eq_after hr ?_ : execUpdBlock t offset data s = _)
    rw [show (s.arrive t).fw.xfer = some x from hxfer]
    obtain ⟨st, hst⟩ : ∃ st, blockStatus x offset data = st := ⟨_, rfl⟩
    simp only [hst]
    rw [hst] at h
    cases st with
    | ok => exact absurd rfl h
    | _ => rfl
  refine leaves_of_effect hexec fun y hy => ?_
  subst hy
  exact refusedXfer_leaves _ 8 (s.arrive t)

theorem leaves_updEnd_refused (hxfer : s.fw.xfer = some x) (h : endStatus s x ≠ .ok) :
    Leaves (.updEnd t) s fun s' => s'.fw.xfer = none ∧ s'.supRing.running = none ∧ SlotsKept s s' := by
  have hexec : exec (.updEnd t) s = .next (after t s (refusedXfer (endStatus s x) 9)) := by
    refine (ringCmd_eq_after hr ?_ : execUpdEnd t s = _)
    rw [show (s.arrive t).fw.xfer = some x from hxfer]
    obtain ⟨st, hst⟩ : ∃ st, endStatus s x = st := ⟨_, rfl⟩
    simp only [hst, show endStatus (s.arrive t) x = st from hst]
    rw [hst] at h
    cases st with
    | ok => exact absurd rfl h
    | _ => rfl
  refine leaves_of_effect hexec fun y hy => ?_
  subst hy
  exact refusedXfer_leaves _ 9 (s.arrive t)

omit hr in
theorem stagedOf_congr {s s' : State} (hfw : s'.fw = s.fw) (hstr : s'.str = s.str) (k : Nat) : stagedOf s' k = stagedOf s k := by
  rw [stagedOf, stagedOf, hfw, hstr]

omit hr in
theorem stagedOf_setStaged_same {k : Nat} (hlow : 1 ≤ k) (hhigh : k ≤ 3) (i : Option Image) (s : State) :
    stagedOf (setStaged k i s) k = i := by
  obtain rfl | rfl | rfl : k = 1 ∨ k = 2 ∨ k = 3 := by omega
  · rfl
  · rfl
  · rfl

omit hr in
theorem stagedOf_setStaged_of_ne {j k : Nat} (hj : 1 ≤ j ∧ j ≤ 3) (hk : 1 ≤ k ∧ k ≤ 3) (hne : k ≠ j) (i : Option Image)
    (s : State) : stagedOf (setStaged j i s) k = stagedOf s k := by
  obtain rfl | rfl | rfl : j = 1 ∨ j = 2 ∨ j = 3 := by omega
  · rw [stagedOf, stagedOf, if_neg hne, if_neg hne]
    rfl
  · obtain rfl | rfl : k = 1 ∨ k = 3 := by omega
    · rfl
    · rfl
  · obtain rfl | rfl : k = 1 ∨ k = 2 := by omega
    · rfl
    · rfl

omit hr in
theorem setStaged_xfer (k : Nat) (i : Option Image) (s : State) : (setStaged k i s).fw.xfer = s.fw.xfer := by
  unfold setStaged
  split
  · rfl
  · rfl
  · rfl

theorem leaves_updEnd (hxfer : s.fw.xfer = some x) (h : endStatus s x = .ok) (hlow : 1 ≤ x.cls) (hhigh : x.cls ≤ 3) :
    Leaves (.updEnd t) s fun s' => s'.fw.xfer = none ∧ stagedOf s' x.cls = some ⟨x.data⟩ ∧
      (∀ k, 1 ≤ k → k ≤ 3 → k ≠ x.cls → stagedOf s' k = stagedOf s k) := by
  have hexec : exec (.updEnd t) s = .next (after t s fun s => complete .supervisor .ok 0
      (setStaged x.cls (some ⟨x.data⟩) (endXfer s))) := by
    refine (ringCmd_eq_after hr ?_ : execUpdEnd t s = _)
    rw [show (s.arrive t).fw.xfer = some x from hxfer]
    simp only [show endStatus (s.arrive t) x = .ok from h]
  refine leaves_of_effect hexec fun y hy => ?_
  obtain ⟨hfw, hstr, -⟩ := ended_of_eq hy
  refine ⟨(congrArg Upd.xfer hfw).trans (setStaged_xfer ..), (stagedOf_congr hfw hstr _).trans (stagedOf_setStaged_same hlow hhigh ..),
    fun k hklow hkhigh hne => (stagedOf_congr hfw hstr k).trans (stagedOf_setStaged_of_ne ⟨hlow, hhigh⟩ ⟨hklow, hkhigh⟩ hne ..)⟩

end

/-! ## Timeouts -/

section
variable {s : State} {t : Nat} {x : Transfer}

theorem exec_updTransferTimeout_due (hxfer : s.fw.xfer = some x) (h : x.lastAt + 80000000000 ≤ max s.now t) :
    exec (.updTransferTimeout t) s = .next (after t s fun s => s.modFw fun u => { u with xfer := none }) := by
  refine (run_eq_after ?_ : execUpdTransferTimeout t s = _)
  refine if_pos ?_
  rw [show (s.arrive t).fw.xfer = some x from hxfer, Option.any_some]
  exact decide_eq_true h

theorem exec_updTransferTimeout_early (hxfer : s.fw.xfer = some x) (h : max s.now t < x.lastAt + 80000000000) :
    exec (.updTransferTimeout t) s = .next (after t s id) := by
  refine (run_eq_after ?_ : execUpdTransferTimeout t s = _)
  refine if_neg ?_
  rw [show (s.arrive t).fw.xfer = some x from hxfer, Option.any_some]
  exact Bool.not_eq_true _ |>.mpr (decide_eq_false (Nat.not_le.mpr h))

end

end Sys2Proof.Machine
end

section
/-! A trial that runs out in STANDBY (R441, R64): every axis is stopped and disabled, then the start waits. -/
namespace Sys2Proof.Machine

open Sys2Proof.Claim

/-! ## A fold that settles each of its elements -/

/-- Each step settles its own element and unsettles none: behind the fold every element of the list is settled. -/
theorem foldl_settles {α : Type} {P : α → State → Prop} {f : State → α → State} (hset : ∀ a s, P a (f s a))
    (hkeep : ∀ a b s, P a s → P a (f s b)) (l : List α) (s : State) : ∀ a ∈ l, P a (l.foldl f s) := by
  have hlast : ∀ (l : List α) (a : α) (s : State), P a s → P a (l.foldl f s) := by
    intro l a
    induction l with
    | nil => exact fun s h => h
    | cons b l ih => exact fun s h => ih _ (hkeep a b s h)
  induction l generalizing s with
  | nil => exact fun a h => nomatch h
  | cons b l ih =>
    intro a ha
    obtain rfl | ha := List.mem_cons.mp ha
    · exact hlast l a _ (hset a s)
    · exact ih (f s b) a ha

/-- What holds ahead of a fold and is kept by its steps holds behind it. -/
theorem foldl_keeps {α : Type} {P : State → Prop} {f : State → α → State} (hkeep : ∀ a s, P s → P (f s a)) (l : List α)
    (s : State) (h : P s) : P (l.foldl f s) := by
  induction l generalizing s with
  | nil => exact h
  | cons a l ih => exact ih _ (hkeep a s h)

/-! ## Every axis is disabled -/

/-- A brushless axis is stopped and disabled where it was enabled. -/
def disableBa (s : State) (n : Fin 8) : State :=
  if (s.ba[n]).en then (baStop n true s).modBa n fun x => { x with en := false } else s

/-- A stepper is stopped and disabled where it was enabled. -/
def disableStp (s : State) (n : Fin 16) : State :=
  if (s.stp[n]).en then (stpStopNow n s).modStp n fun x => { x with en := false } else s

theorem stopAndDisable_eq (s : State) :
    stopAndDisable s = (List.finRange 16).foldl disableStp ((List.finRange 8).foldl disableBa s) := rfl

theorem disableBa_same (n : Fin 8) (s : State) : ((disableBa s n).ba[n]).en = false := by
  unfold disableBa
  split
  · exact congrArg Ba.en (upd_getElem_self ..)
  · next h => exact Bool.eq_false_iff.mpr h

theorem disableBa_keeps (n m : Fin 8) (s : State) (h : (s.ba[n]).en = false) : ((disableBa s m).ba[n]).en = false := by
  by_cases hnm : n = m
  · subst hnm
    exact disableBa_same n s
  · unfold disableBa
    split
    · obtain ⟨hkept, -⟩ := axisKept_baStop hnm true s
      have hother : ((baStop m true s).modBa m fun x => { x with en := false }).ba[n] = (baStop m true s).ba[n] :=
        upd_getElem_of_ne hnm ..
      rw [hother, hkept, h]
    · exact h

theorem disableStp_keepsBa (n : Fin 8) (m : Fin 16) (s : State) (h : (s.ba[n]).en = false) :
    ((disableStp s m).ba[n]).en = false := by
  unfold disableStp
  split
  · exact (congrArg Ba.en (axisKept_stpStopNow n m s).1).trans h
  · exact h

theorem disableStp_same (n : Fin 16) (s : State) : ((disableStp s n).stp[n]).en = false := by
  unfold disableStp
  split
  · exact congrArg Stp.en (upd_getElem_self ..)
  · next h => exact Bool.eq_false_iff.mpr h

theorem disableStp_keeps (n m : Fin 16) (s : State) (h : (s.stp[n]).en = false) : ((disableStp s m).stp[n]).en = false := by
  by_cases hnm : n = m
  · subst hnm
    exact disableStp_same n s
  · unfold disableStp
    split
    · obtain ⟨hkept, -⟩ := stpKept_stpStopNow hnm s
      have hother : ((stpStopNow m s).modStp m fun x => { x with en := false }).stp[n] = (stpStopNow m s).stp[n] :=
        upd_getElem_of_ne hnm ..
      rw [hother, hkept, h]
    · exact h

theorem anyAxisEn_eq_false {s : State} (hba : ∀ n : Fin 8, (s.ba[n]).en = false) (hstp : ∀ n : Fin 16, (s.stp[n]).en = false) :
    s.anyAxisEn = false := by
  rw [State.anyAxisEn, Bool.or_eq_false_iff, List.any_eq_false, List.any_eq_false]
  constructor
  · intro x hx
    obtain ⟨i, hi, rfl⟩ := List.getElem_of_mem hx
    exact Bool.eq_false_iff.mp ((congrArg Ba.en (Vector.getElem_toList _)).trans (hba ⟨i, by simpa using hi⟩))
  · intro x hx
    obtain ⟨i, hi, rfl⟩ := List.getElem_of_mem hx
    exact Bool.eq_false_iff.mp ((congrArg Stp.en (Vector.getElem_toList _)).trans (hstp ⟨i, by simpa using hi⟩))

theorem anyAxisEn_stopAndDisable (s : State) : (stopAndDisable s).anyAxisEn = false := by
  rw [stopAndDisable_eq]
  refine anyAxisEn_eq_false (fun n => ?_) (fun n => ?_)
  · exact foldl_keeps (fun m s => disableStp_keepsBa n m s) _ _ (foldl_settles (P := fun (n : Fin 8) s => (s.ba[n]).en = false)
      disableBa_same disableBa_keeps _ s n (List.mem_finRange n))
  · exact foldl_settles (P := fun (n : Fin 16) s => (s.stp[n]).en = false) disableStp_same disableStp_keeps _ _ n
      (List.mem_finRange n)

/-! ## What a stop leaves -/

/-- The update block and the time. -/
def State.trialView (s : State) : Upd × Nat := (s.fw, s.now)

theorem trialView_complete (id : RingId) (st : Status) (r : Nat) (s : State) : (complete id st r s).trialView = s.trialView := by
  rw [State.trialView, complete_fw, complete_now, State.trialView]

theorem trialView_endHome (homing : Bool) (st : Status) (r : Nat) (s : State) : (endHome homing st r s).trialView = s.trialView := by
  unfold endHome
  split
  · exact trialView_complete ..
  · rfl

theorem trialView_disableBa (s : State) (n : Fin 8) : (disableBa s n).trialView = s.trialView := by
  unfold disableBa
  split
  · exact (show _ = (baStop n true s).trialView from rfl).trans ((trialView_endHome ..).trans rfl)
  · rfl

theorem trialView_loseLock (s : State) : (loseLock s).trialView = s.trialView := by
  unfold loseLock when
  extract_lets y
  split
  · split
    · exact (eq_of_sansReports (sansReports_alarm ..) (g := State.trialView) fun _ => rfl).trans rfl
    · rfl
  · rfl

theorem trialView_stpStopNow (n : Fin 16) (s : State) : (stpStopNow n s).trialView = s.trialView := by
  unfold stpStopNow when dropStepperLock
  extract_lets y homing moved z
  have hz : (endHome homing .aborted 0 z).trialView = s.trialView := trialView_endHome ..
  split
  · split
    · exact (trialView_loseLock _).trans hz
    · exact hz
  · exact hz

theorem trialView_disableStp (s : State) (n : Fin 16) : (disableStp s n).trialView = s.trialView := by
  unfold disableStp
  split
  · exact (show _ = (stpStopNow n s).trialView from rfl).trans (trialView_stpStopNow n s)
  · rfl

theorem trialView_stopAndDisable (s : State) : (stopAndDisable s).trialView = s.trialView := by
  rw [stopAndDisable_eq]
  exact (foldl_leaves trialView_disableStp _ _).trans (foldl_leaves trialView_disableBa _ s)

/-! ## TRIAL_EXPIRY -/

/-- A forced reset waits for the brushless axes to slow down. -/
def resetWaits (s : State) : State := s.modDev fun d => { d with warmPending := some { deadline := s.now + 2 * sec8 } }

theorem forceReset_standby {env : BootEnv} {s : State} (h : s.dev.mode = .standby) :
    forceReset env s = resetWaits (stopAndDisable s) := by
  unfold forceReset
  rw [h]
  rfl

section
variable {s : State} {t a : Nat} {env : BootEnv} (htrial : s.fw.trial = true) (hat : s.fw.trialAt = some a)
include htrial hat

omit htrial in
theorem exec_trialExpiry_early (h : max s.now t < a + 960000000000) : exec (.trialExpiry t env) s = .next (after t s id) := by
  refine (run_eq_after ?_ : execTrialExpiry t env s = _)
  refine if_neg fun hdue => ?_
  obtain ⟨-, hdue⟩ := hdue
  rw [show (s.arrive t).fw.trialAt = some a from hat, Option.any_some] at hdue
  exact absurd (of_decide_eq_true hdue) (Nat.not_le.mpr h)

theorem leaves_trialExpiry (h : a + 960000000000 ≤ max s.now t) (hmode : s.dev.mode = .standby) :
    Leaves (.trialExpiry t env) s fun s' => s'.fw.expired = true ∧ s'.anyAxisEn = false ∧
      s'.dev.warmPending = some ⟨max s.now t + 16000000000⟩ := by
  have hexec : exec (.trialExpiry t env) s = .next (after t s fun s =>
      resetWaits (stopAndDisable (s.modFw fun u => { u with expired := true, trialAt := none }))) := by
    refine (run_eq_after ?_ : execTrialExpiry t env s = _)
    have hdue : ((s.arrive t).fw.trialAt.any fun a => decide (a + 120 * sec8 ≤ (s.arrive t).now)) = true := by
      rw [show (s.arrive t).fw.trialAt = some a from hat, Option.any_some]
      exact decide_eq_true h
    exact (if_pos ⟨htrial, hdue⟩).trans (forceReset_standby (by exact hmode))
  refine leaves_of_effect hexec fun y hy => ?_
  generalize hz : stopAndDisable ((s.arrive t).modFw fun u => { u with expired := true, trialAt := none }) = z at hy
  have hview : z.trialView = ({ s.fw with expired := true, trialAt := none }, max s.now t) := by
    rw [← hz, trialView_stopAndDisable]
    rfl
  have haxes : z.anyAxisEn = false := by rw [← hz, anyAxisEn_stopAndDisable]
  subst hy
  have hnow : z.now = max s.now t := (congrArg (·.2) hview :)
  exact ⟨(congrArg (·.1.expired) hview :), haxes, congrArg (fun n => some (WarmPending.mk (n + 2 * sec8))) hnow⟩

end

end Sys2Proof.Machine
end

section
/-! Activation, revert and confirmation of updates, the downloads of RECOVERY (R439 to R447), and obligation O53. -/
namespace Sys2Proof.Machine

open Sys2Proof.Claim

/-! ## UPD_ACTIVATE and UPD_REVERT are sensitive -/

/-- What refuses UPD_ACTIVATE, whatever the class. -/
def updActivateConds (cls : Nat) (s : State) : List (Bool × Status) :=
  [(!classOk cls, .range), ((stagedOf s cls).isNone, .notReady), (cls == 1 && s.fw.rejected, .badState), (xferOpen s cls, .busy)]

/-- What refuses UPD_REVERT, whatever the class. -/
def updRevertConds (cls : Nat) (s : State) : List (Bool × Status) :=
  [(!classOk cls, .range), ((prevOf s cls).isNone, .notReady)]

theorem exec_updActivate_eq {t : Nat} {s : State} (cls : Nat) (row : CheckRow) (env : BootEnv) :
    exec (.updActivate t cls row env) s = ringCmd t s (sensitive fun s =>
      admitCmd .supervisor (updActivateConds cls s) (activateClass cls row env) s) := rfl

theorem exec_updRevert_eq {t : Nat} {s : State} (cls : Nat) (row : CheckRow) (env : BootEnv) :
    exec (.updRevert t cls row env) s = ringCmd t s (sensitive fun s =>
      admitCmd .supervisor (updRevertConds cls s) (revertClass cls row env) s) := rfl

theorem classOk_of_range {cls : Nat} (h : cls = 0 ∨ 3 < cls) : (!classOk cls) = true := by
  rw [classOk, decide_eq_false (by omega)]
  rfl

theorem classOk_of_le {cls : Nat} (hlow : 1 ≤ cls) (hhigh : cls ≤ 3) : (!classOk cls) = false := by
  rw [classOk, decide_eq_true ⟨hlow, hhigh⟩]
  rfl

/-- An increment of the counter leaves the update block. -/
theorem countEvent_fw (s : State) : (countEvent s).fw = s.fw := by
  unfold countEvent when
  extract_lets c
  split
  · rfl
  · rfl

/-- The image of class MTI that a switch makes active is counted. -/
theorem switchMti_leaves (f : Upd → Upd) (s : State) : (switchMti f s).fw = { f s.fw with mtiPend := true } ∧
    (switchMti f s).met.c = s.met.c + 1 ∧ (switchMti f s).supRing.running = none := by
  have hmet : (countEvent (s.modFw fun u => { f u with mtiPend := true })).met = { s.met with c := s.met.c + 1 } := met_countEvent _
  have hfw : (countEvent (s.modFw fun u => { f u with mtiPend := true })).fw = { f s.fw with mtiPend := true } := countEvent_fw _
  obtain ⟨log, events, hevent⟩ := metEvent_eq 6 [] (countEvent (s.modFw fun u => { f u with mtiPend := true }))
  rw [hmet] at hevent
  refine ⟨?_, ?_, complete_supRing_running ..⟩
  · rw [switchMti, complete_fw, hevent]
    exact hfw
  · rw [switchMti, complete_met, hevent]

section
variable {s : State} (hr : s.ringsRun = true) (hauth : sensitiveRefused s = false) {t cls : Nat} {row : CheckRow} {env : BootEnv}
include hr hauth

theorem exec_updates_range (h : cls = 0 ∨ 3 < cls) :
    exec (.updActivate t cls row env) s = .next (after t s fun s => complete .supervisor .range 0 (used s)) ∧
      exec (.updRevert t cls row env) s = .next (after t s fun s => complete .supervisor .range 0 (used s)) :=
  ⟨exec_sensitive_turnedAway (f := fun _ => activateClass cls row env) hr (exec_updActivate_eq cls row env) hauth (by decide)
      (firstRefusal_cons_of_true (classOk_of_range h) ..),
    exec_sensitive_turnedAway (f := fun _ => revertClass cls row env) hr (exec_updRevert_eq cls row env) hauth (by decide)
      (firstRefusal_cons_of_true (classOk_of_range h) ..)⟩

theorem exec_updActivate_notReady (hlow : 1 ≤ cls) (hhigh : cls ≤ 3) (h : stagedOf s cls = none) :
    exec (.updActivate t cls row env) s = .next (after t s fun s => complete .supervisor .notReady 0 (used s)) :=
  exec_sensitive_turnedAway (f := fun _ => activateClass cls row env) hr (exec_updActivate_eq cls row env) hauth (by decide)
    ((firstRefusal_cons_of_false (classOk_of_le hlow hhigh) ..).trans (firstRefusal_cons_of_true
      (by rw [show stagedOf (used (s.arrive t)) cls = none from h]; rfl) ..))

theorem exec_updRevert_notReady (hlow : 1 ≤ cls) (hhigh : cls ≤ 3) (h : prevOf s cls = none) :
    exec (.updRevert t cls row env) s = .next (after t s fun s => complete .supervisor .notReady 0 (used s)) :=
  exec_sensitive_turnedAway (f := fun _ => revertClass cls row env) hr (exec_updRevert_eq cls row env) hauth (by decide)
    ((firstRefusal_cons_of_false (classOk_of_le hlow hhigh) ..).trans (firstRefusal_cons_of_true
      (by rw [show prevOf (used (s.arrive t)) cls = none from h]; rfl) ..))

theorem exec_updRevert_admitted (hlow : 1 ≤ cls) (hhigh : cls ≤ 3) {i : Image} (h : prevOf s cls = some i) :
    exec (.updRevert t cls row env) s = .next (after t s fun s => revertClass cls row env (used s)) :=
  exec_sensitive_admitted (f := fun _ => revertClass cls row env) hr (exec_updRevert_eq cls row env) hauth
    ((firstRefusal_cons_of_false (classOk_of_le hlow hhigh) ..).trans (firstRefusal_cons_of_false
      (by rw [show prevOf (used (s.arrive t)) cls = some i from h]; rfl) ..))

theorem exec_updActivate_admitted (hlow : 1 ≤ cls) (hhigh : cls ≤ 3) {i : Image} (h : stagedOf s cls = some i)
    (hreject : cls = 1 → s.fw.rejected = false) (hxfer : s.fw.xfer = none) (hload : cls ≠ 2) :
    exec (.updActivate t cls row env) s = .next (after t s fun s => activateClass cls row env (used s)) := by
  refine exec_sensitive_admitted (f := fun _ => activateClass cls row env) hr (exec_updActivate_eq cls row env) hauth ?_
  refine (firstRefusal_cons_of_false (classOk_of_le hlow hhigh) ..).trans ((firstRefusal_cons_of_false ?_ ..).trans
    ((firstRefusal_cons_of_false ?_ ..).trans (firstRefusal_cons_of_false ?_ ..)))
  · rw [show stagedOf (used (s.arrive t)) cls = some i from h]
    rfl
  · by_cases hone : cls = 1
    · rw [show (used (s.arrive t)).fw.rejected = false from hreject hone, Bool.and_false]
    · rw [beq_false_of_ne hone, Bool.false_and]
  · rw [xferOpen, show (used (s.arrive t)).fw.xfer = none from hxfer, beq_false_of_ne hload, Bool.false_and]
    rfl

theorem exec_updRevert_badMode (hcls : cls = 2) (hmode : s.dev.mode ≠ .standby) (h : (prevOf s cls).isSome = true) :
    exec (.updRevert t cls row env) s = .next (after t s fun s => complete .supervisor .badMode 0 (used s)) := by
  subst hcls
  obtain ⟨i, hi⟩ := Option.isSome_iff_exists.mp h
  refine (exec_updRevert_admitted hr hauth (by decide) (by decide) hi).trans (next_after_congr ?_)
  exact admitCmd_refused _ _ _ (firstRefusal_cons_of_true (bne_iff_ne.mpr hmode) ..) (by decide)

/-! ## The metrology image -/

section
variable (hst : s.met.st = .broken) (hseal : sealedRuns s = false) (hc : s.met.c < 8192) (hfree : 64 ≤ evtFree s)
include hst hseal hc hfree

omit hr hauth in
theorem firstRefusal_mtiConds : firstRefusal (mtiConds (used (s.arrive t))) = .ok := by
  refine (firstRefusal_cons_of_false ?_ ..).trans ((firstRefusal_cons_of_false ?_ ..).trans (firstRefusal_cons_of_false ?_ ..))
  · rw [show (used (s.arrive t)).met.st = .broken from hst, show sealedRuns (used (s.arrive t)) = false from hseal]
    rfl
  · exact decide_eq_false (Nat.not_le.mpr hc)
  · exact decide_eq_false (Nat.not_lt.mpr hfree)

theorem leaves_updActivate_mti {a : Image} {p : Option Image} (hstaged : s.fw.mtiStaged = some a) (hactive : s.fw.mtiActive = p)
    (hxfer : s.fw.xfer = none) : Leaves (.updActivate t 3 0 env) s fun s' => s'.fw.mtiActive = some a ∧ s'.fw.mtiPrev = p ∧
      s'.fw.mtiPend = true ∧ s'.met.c = s.met.c + 1 ∧ s'.supRing.running = none := by
  have hexec : exec (.updActivate t 3 0 env) s = .next (after t s fun s => switchMti (fun u =>
      { u with mtiActive := u.mtiStaged, mtiPrev := u.mtiActive }) (used s)) :=
    (exec_updActivate_admitted (cls := 3) hr hauth (by decide) (by decide) hstaged (fun h => absurd h (by decide)) hxfer (by decide)).trans
      (next_after_congr (g := fun s => switchMti (fun u => { u with mtiActive := u.mtiStaged, mtiPrev := u.mtiActive }) (used s))
        ((admitCmd_ok _ _ _ (firstRefusal_mtiConds hst hseal hc hfree)).trans (if_pos rfl)))
  refine leaves_of_effect hexec fun y hy => ?_
  obtain ⟨hfw, hcount, hrun⟩ := switchMti_leaves (fun u => { u with mtiActive := u.mtiStaged, mtiPrev := u.mtiActive })
    (used (s.arrive t))
  rw [← hy] at hfw hcount hrun
  exact ⟨(congrArg Upd.mtiActive hfw).trans hstaged, (congrArg Upd.mtiPrev hfw).trans hactive, (congrArg Upd.mtiPend hfw :),
    hcount, hrun⟩

theorem leaves_updActivate_mti_failed {a : Image} {p : Option Image} (hstaged : s.fw.mtiStaged = some a)
    (hactive : s.fw.mtiActive = p) (hxfer : s.fw.xfer = none) : Leaves (.updActivate t 3 9 env) s fun s' =>
      s'.fw.mtiStaged = none ∧ s'.fw.mtiActive = p ∧ s'.met.c = s.met.c := by
  have hexec : exec (.updActivate t 3 9 env) s = .next (after t s fun s =>
      complete .supervisor .integrity 0 (noteRow 9 (setStaged 3 none (used s)))) :=
    (exec_updActivate_admitted (cls := 3) hr hauth (by decide) (by decide) hstaged (fun h => absurd h (by decide)) hxfer (by decide)).trans
      (next_after_congr (admitCmd_ok _ _ _ (firstRefusal_mtiConds hst hseal hc hfree)))
  refine leaves_of_effect hexec fun y hy => ?_
  obtain ⟨hfw, -, -⟩ := ended_of_eq hy
  have hmet : y.met = s.met := by rw [hy, complete_met]; rfl
  exact ⟨(congrArg Upd.mtiStaged hfw :), (congrArg Upd.mtiActive hfw).trans hactive, congrArg Met.c hmet⟩

theorem leaves_updRevert_mti {a : Image} {p : Option Image} (hprev : s.fw.mtiPrev = some a) (hactive : s.fw.mtiActive = p) :
    Leaves (.updRevert t 3 0 env) s fun s' => s'.fw.mtiActive = some a ∧ s'.fw.mtiPrev = p ∧ s'.met.c = s.met.c + 1 := by
  have hexec : exec (.updRevert t 3 0 env) s = .next (after t s fun s => switchMti (fun u =>
      { u with mtiActive := u.mtiPrev, mtiPrev := u.mtiActive }) (used s)) :=
    (exec_updRevert_admitted (cls := 3) hr hauth (by decide) (by decide) hprev).trans
      (next_after_congr (g := fun s => switchMti (fun u => { u with mtiActive := u.mtiPrev, mtiPrev := u.mtiActive }) (used s))
        ((admitCmd_ok _ _ _ (firstRefusal_mtiConds hst hseal hc hfree)).trans (if_pos rfl)))
  refine leaves_of_effect hexec fun y hy => ?_
  obtain ⟨hfw, hcount, -⟩ := switchMti_leaves (fun u => { u with mtiActive := u.mtiPrev, mtiPrev := u.mtiActive })
    (used (s.arrive t))
  rw [← hy] at hfw hcount
  exact ⟨(congrArg Upd.mtiActive hfw).trans hprev, (congrArg Upd.mtiPrev hfw).trans hactive, hcount⟩

end

/-! ## The firmware image -/

theorem leaves_updActivate_fwi {i : Image} (hstaged : s.fw.fwiStaged = some i) (hreject : s.fw.rejected = false)
    (hxfer : s.fw.xfer = none) (haxes : s.anyAxisEn = false) (hjobs : s.anyActive = false) (hrole : s.xlk.role ≠ .lead)
    (hproto : protoApart s i.proto = false) : Leaves (.updActivate t 1 0 env) s fun s' =>
      s'.fld Reg.devResetCause 0 3 3 = 1 ∧ s'.jobs = State.reset.jobs ∧ s'.otp = s.otp := by
  have hconds : firstRefusal (fwiConds (used (s.arrive t)) (used (s.arrive t)).fw.fwiStaged) = .ok := by
    refine (firstRefusal_cons_of_false ?_ ..).trans (firstRefusal_cons_of_false ?_ ..)
    · rw [show (used (s.arrive t)).anyAxisEn = false from haxes, show (used (s.arrive t)).anyActive = false from hjobs,
        Bool.and_false, Bool.or_false, Bool.false_or]
      exact beq_false_of_ne hrole
    · rw [show (used (s.arrive t)).fw.fwiStaged = some i from hstaged]
      exact hproto
  have hexec : exec (.updActivate t 1 0 env) s = .next (after t s fun s =>
      fwiStart env ((used s).modFw fun u => { u with pendActivate := true, pendRevert := false })) :=
    (exec_updActivate_admitted (cls := 1) hr hauth (by decide) (by decide) hstaged (fun _ => hreject) hxfer (by decide)).trans
      (next_after_congr (admitCmd_ok _ _ _ hconds))
  refine leaves_of_effect hexec fun y hy => ?_
  rw [fwiStart] at hy
  obtain ⟨hcause, hnone⟩ := warmStart_activation env (complete .supervisor .ok 0
    ((used (s.arrive t)).modFw fun u => { u with pendActivate := true, pendRevert := false }))
  rw [← hy] at hcause hnone
  have hotp : y.otp = s.otp := by
    rw [hy, warmStart_otp, complete_otp]
    rfl
  exact ⟨hcause, hnone, hotp⟩

end

/-! ## UPD_CONFIRM -/

/-- The update and structure blocks. -/
def State.slotBlocks (s : State) : Upd × StrSt := (s.fw, s.str)

theorem slotBlocks_burnThermo (cls n : Nat) (ok : Bool) (s : State) : (burnThermo cls n ok s).slotBlocks = s.slotBlocks := by
  unfold burnThermo
  refine foldl_leaves (g := State.slotBlocks) (fun s i => ?_) _ s
  extract_lets d y
  have hy : y.slotBlocks = s.slotBlocks := by
    simp only [y]
    split
    · rfl
    · rfl
  exact (show _ = y.slotBlocks from rfl).trans hy

/-- What refuses UPD_CONFIRM. -/
def updConfirmConds (cls : Nat) (s : State) : List (Bool × Status) :=
  [(cls == 1 && !s.fw.trial, .badState), (cls == 2 && s.str.active.isNone, .notReady), (decide (cls ≠ 1 ∧ cls ≠ 2), .range)]

section
variable {s : State} (hr : s.ringsRun = true) {t cls : Nat} {ok : Bool}
include hr

theorem refuses_updConfirm {st : Status} (hst : st ≠ .ok) (h : firstRefusal (updConfirmConds cls s) = st) :
    Refuses (.updConfirm t cls ok) t s st := by
  refine (ringCmd_eq_after hr ?_ : execUpdConfirm t cls ok s = _)
  exact admitCmd_refused _ _ _ (show firstRefusal (updConfirmConds cls (s.arrive t)) = st from h) hst

theorem refuses_updConfirm_badState (h : s.fw.trial = false) : Refuses (.updConfirm t 1 ok) t s .badState :=
  refuses_updConfirm hr (by decide) (firstRefusal_cons_of_true (by rw [h]; rfl) ..)

theorem refuses_updConfirm_notReady (h : s.str.active = none) : Refuses (.updConfirm t 2 ok) t s .notReady :=
  refuses_updConfirm hr (by decide) ((firstRefusal_cons_of_false rfl ..).trans (firstRefusal_cons_of_true (by rw [h]; rfl) ..))

theorem refuses_updConfirm_range (hone : cls ≠ 1) (htwo : cls ≠ 2) : Refuses (.updConfirm t cls ok) t s .range := by
  refine refuses_updConfirm hr (by decide) ((firstRefusal_cons_of_false ?_ ..).trans ((firstRefusal_cons_of_false ?_ ..).trans
    (firstRefusal_cons_of_true (decide_eq_true ⟨hone, htwo⟩) ..)))
  · rw [beq_false_of_ne hone, Bool.false_and]
  · rw [beq_false_of_ne htwo, Bool.false_and]

theorem leaves_updConfirm (h : s.fw.trial = true) : Leaves (.updConfirm t 1 true) s fun s' =>
    s'.fw.trial = false ∧ s'.fw.trialAt = none ∧ s'.supRing.running = none ∧ SlotsKept s s' := by
  have hconds : firstRefusal (updConfirmConds 1 (s.arrive t)) = .ok :=
    (firstRefusal_cons_of_false (by rw [show (s.arrive t).fw.trial = true from h]; rfl) ..).trans
      ((firstRefusal_cons_of_false rfl ..).trans (firstRefusal_cons_of_false rfl ..))
  have hexec : exec (.updConfirm t 1 true) s = .next (after t s fun s => complete .supervisor .ok 0
      ((burnThermo 1 (((confirmed s 1).map Image.svn).getD 0) true s).modFw fun u => { u with trial := false, trialAt := none })) :=
    (ringCmd_eq_after hr (admitCmd_ok _ _ _ hconds) : execUpdConfirm t 1 true s = _)
  refine leaves_of_effect hexec fun y hy => ?_
  obtain ⟨hfw, hstr, hrun⟩ := ended_of_eq hy
  have hburn := slotBlocks_burnThermo 1 (((confirmed (s.arrive t) 1).map Image.svn).getD 0) true (s.arrive t)
  exact ⟨(congrArg Upd.trial hfw :), (congrArg Upd.trialAt hfw :), hrun,
    (congrArg Upd.fwiStaged hfw).trans (congrArg (·.1.fwiStaged) hburn :),
    (congrArg Upd.mtiStaged hfw).trans (congrArg (·.1.mtiStaged) hburn :), hstr.trans (congrArg (·.2) hburn :),
    (congrArg Upd.fwiActive hfw).trans (congrArg (·.1.fwiActive) hburn :),
    (congrArg Upd.mtiActive hfw).trans (congrArg (·.1.mtiActive) hburn :)⟩

end

end Sys2Proof.Machine
end

section
/-! The downloads of RECOVERY (R387, R446, R447), and obligation O53. -/
namespace Sys2Proof.Machine

open Sys2Proof.Claim

section
variable {s : State} {t length offset : Nat} {row : CheckRow} {header data : Bytes} {x : Transfer} {env : BootEnv} {ok : Bool}

/-- Outside RECOVERY a frame of the recovery UART does nothing. -/
theorem uartFrame_idle {f : State → State} (hmode : s.dev.mode ≠ .recovery) : uartFrame ok f (s.arrive t) = s.arrive t :=
  if_pos (.inl hmode)

theorem exec_recovery_idle (hmode : s.dev.mode ≠ .recovery) : exec (.updRecGo t row header env) s = .next (after t s id) ∧
    exec (.recoveryUartBegin t length header ok) s = .next (after t s id) ∧
    exec (.recoveryUartBlock t offset data ok) s = .next (after t s id) ∧
    exec (.recoveryUartEnd t ok env) s = .next (after t s id) :=
  ⟨(run_eq_after (if_pos (show (s.arrive t).dev.mode ≠ .recovery from hmode)) : execUpdRecGo t row header env s = _),
    (run_eq_after (uartFrame_idle hmode) : execRecoveryUartBegin t length header ok s = _),
    (run_eq_after (uartFrame_idle hmode) : execRecoveryUartBlock t offset data ok s = _),
    (run_eq_after (uartFrame_idle hmode) : execRecoveryUartEnd t ok env s = _)⟩

variable (hmode : s.dev.mode = .recovery)
include hmode

/-! ## UPD_REC_GO -/

theorem exec_updRecGo_scrapped (h : lifeCycle s = 4) : exec (.updRecGo t row header env) s = .next (after t s fun s =>
    s.modFw fun u => { u with recCode := 0x06 }) :=
  (run_eq_after ((if_neg (not_not.mpr hmode)).trans (if_pos (show lifeCycle (s.arrive t) = 4 from h))) : execUpdRecGo t row header env s = _)

theorem exec_updRecGo_row (h : lifeCycle s ≠ 4) (hrow : row ≠ 0) : exec (.updRecGo t row header env) s = .next (after t s fun s =>
    s.modFw fun u => { u with recCode := (rowStatus row).code }) :=
  (run_eq_after ((if_neg (not_not.mpr hmode)).trans ((if_neg (show lifeCycle (s.arrive t) ≠ 4 from h)).trans (if_pos hrow))) : execUpdRecGo t row header env s = _)

theorem exec_updRecGo (h : lifeCycle s ≠ 4) : exec (.updRecGo t 0 header env) s = .next (after t s (recover ⟨header⟩ env)) :=
  (run_eq_after ((if_neg (not_not.mpr hmode)).trans ((if_neg (show lifeCycle (s.arrive t) ≠ 4 from h)).trans (if_neg fun hrow => hrow rfl))) :
    execUpdRecGo t 0 header env s = _)

/-- The state from which a recovered image starts. -/
def recovered (i : Image) (s : State) : State :=
  (s.modFw fun u => { u with fwiActive := some i, fwiStaged := none, fwiPrev := none, rejected := false, trial := false,
                             expired := false, pendActivate := false, pendRevert := false, recCode := 0, uart := none }).modDev
    fun d => { d with mode := .boot, stage := 1, reason := 0, detail := 0, failed := 0, fwiSlot := 0 }

omit hmode in
theorem recover_eq (i : Image) : recover i env s = boot env (recovered i s) := rfl

theorem leaves_updRecGo (h : lifeCycle s ≠ 4) (hotp : (List.range 6).find? (regionBad s) = none) (hmarch : env.secureMarchOk = false) :
    Leaves (.updRecGo t 0 header env) s fun s' => s'.fw.fwiActive = some ⟨header⟩ ∧ s'.fw.fwiPrev = none ∧
      s'.dev.mode = .recovery ∧ s'.dev.reason = 2 := by
  refine leaves_of_effect (exec_updRecGo hmode h) fun y hy => ?_
  have hboot := boot_of_secureMarch_failed (env := env) (s := recovered ⟨header⟩ (s.arrive t))
    (by rw [regionBad_congr (show (recovered ⟨header⟩ (s.arrive t)).otp = s.otp from rfl)]; exact hotp) hmarch
  rw [recover_eq, hboot] at hy
  subst hy
  exact ⟨rfl, rfl, rfl, rfl⟩

/-! ## Downloads over UART0 -/

section
variable (hon : s.sec.policy.getLsbD 1 = false) (hlife : lifeCycle s ≠ 4)
include hon hlife

theorem uartFrame_served (f : State → State) : uartFrame true f (s.arrive t) = f (s.arrive t) := by
  refine (if_neg ?_).trans (if_neg hlife)
  rintro (h | h | h)
  · exact h hmode
  · exact absurd h (by decide)
  · exact absurd ((show s.sec.policy.getLsbD 1 = true from h).symm.trans hon) (by decide)

theorem exec_recoveryUartBegin (h : headerRow header (imageCtx s 1 length) = 0) :
    exec (.recoveryUartBegin t length header true) s = .next (after t s fun s =>
      (s.modFw fun u => { u with uart := some (newTransfer s 1 length header) }).emit (.uartReply 0)) := by
  refine (run_eq_after ((uartFrame_served hmode hon hlife _).trans ?_) : execRecoveryUartBegin t length header true s = _)
  rw [show headerRow header (imageCtx (s.arrive t) 1 length) = 0 from h]
  rfl

theorem exec_recoveryUart_none (h : s.fw.uart = none) : exec (.recoveryUartBlock t offset data true) s =
      .next (after t s fun s => s.emit (.uartReply 0x03)) ∧
    exec (.recoveryUartEnd t true env) s = .next (after t s fun s => s.emit (.uartReply 0x03)) := by
  constructor
  · refine (run_eq_after ((uartFrame_served hmode hon hlife _).trans ?_) : execRecoveryUartBlock t offset data true s = _)
    rw [show (s.arrive t).fw.uart = none from h]
    rfl
  · refine (run_eq_after ((uartFrame_served hmode hon hlife _).trans ?_) : execRecoveryUartEnd t true env s = _)
    rw [show (s.arrive t).fw.uart = none from h]
    rfl

section
variable (huart : s.fw.uart = some x)
include huart

theorem exec_recoveryUartBlock_long (h : 4096 < data.length) : exec (.recoveryUartBlock t offset data true) s =
    .next (after t s fun s => (s.modFw fun u => { u with uart := none }).emit (.uartReply 0x04)) := by
  refine (run_eq_after ((uartFrame_served hmode hon hlife _).trans ?_) : execRecoveryUartBlock t offset data true s = _)
  rw [show (s.arrive t).fw.uart = some x from huart]
  simp only [if_pos h]
  rfl

theorem exec_recoveryUartBlock_ok (h : data.length ≤ 4096) (hok : blockStatus x offset data = .ok) :
    exec (.recoveryUartBlock t offset data true) s = .next (after t s fun s =>
      (s.modFw fun u => { u with uart := some { x with data := x.data ++ data, lastAt := s.now } }).emit (.uartReply 0)) := by
  refine (run_eq_after ((uartFrame_served hmode hon hlife _).trans ?_) : execRecoveryUartBlock t offset data true s = _)
  rw [show (s.arrive t).fw.uart = some x from huart]
  simp only [if_neg (Nat.not_lt.mpr h), hok]
  rfl

theorem exec_recoveryUartEnd_short (h : x.data.length ≠ x.length) : exec (.recoveryUartEnd t true env) s =
    .next (after t s fun s => (s.modFw fun u => { u with uart := none }).emit (.uartReply 0x04)) := by
  refine (run_eq_after ((uartFrame_served hmode hon hlife _).trans ?_) : execRecoveryUartEnd t true env s = _)
  rw [show (s.arrive t).fw.uart = some x from huart]
  simp only [show endStatus (s.arrive t) x = .range from if_pos h]
  rfl

theorem leaves_recoveryUartEnd (h : endStatus s x = .ok) : Leaves (.recoveryUartEnd t true env) s fun s' =>
    s'.otp = s.otp ∧ s'.fw.fwiStaged = none := by
  have hexec : exec (.recoveryUartEnd t true env) s = .next (after t s fun s => recover ⟨x.data⟩ env (s.emit (.uartReply 0))) := by
    refine (run_eq_after ((uartFrame_served hmode hon hlife _).trans ?_) : execRecoveryUartEnd t true env s = _)
    rw [show (s.arrive t).fw.uart = some x from huart]
    simp only [show endStatus (s.arrive t) x = .ok from h]
  refine leaves_of_effect hexec fun y hy => ?_
  rw [recover_eq] at hy
  obtain ⟨-, -, hstaged⟩ := startKept_boot env (recovered ⟨x.data⟩ ((s.arrive t).emit (.uartReply 0)))
  have hotp : y.otp = s.otp := by
    rw [hy, boot_otp]
    rfl
  rw [← hy] at hstaged
  exact ⟨hotp, hstaged rfl rfl rfl⟩

end

end

end

/-- Settles O53: each frame is decided by its row, a start is followed from its cause to its end. -/
theorem updates : Obligations.Updates := by
  unfold Obligations.Updates
  intro t cls length offset row header data x i env ok s
  exact ⟨fun hr => ⟨refuses_updBegin_busy hr,
      fun hxfer hload => ⟨refuses_updBegin_range hr hxfer hload, leaves_updBegin_row hr hxfer hload, leaves_updBegin hr hxfer hload,
        refuses_updBlock hr hxfer, refuses_updEnd hr hxfer⟩,
      fun hxfer => ⟨exec_updBlock_ok hr hxfer, leaves_updBlock_refused hr hxfer, leaves_updEnd_refused hr hxfer,
        leaves_updEnd hr hxfer⟩,
      fun hno c hc => by
        obtain rfl | rfl := hc
        · exact exec_sensitive_refused hr (exec_updActivate_eq cls row env) hno
        · exact exec_sensitive_refused hr (exec_updRevert_eq cls row env) hno,
      fun hauth => ⟨exec_updates_range hr hauth,
        fun hlow hhigh => ⟨exec_updActivate_notReady hr hauth hlow hhigh, exec_updRevert_notReady hr hauth hlow hhigh,
          exec_updRevert_badMode hr hauth⟩,
        fun a p hstaged hactive hst hseal hc hfree hxfer => ⟨leaves_updActivate_mti hr hauth hst hseal hc hfree hstaged hactive hxfer,
          leaves_updActivate_mti_failed hr hauth hst hseal hc hfree hstaged hactive hxfer⟩,
        fun a p hprev hactive hst hseal hc hfree => leaves_updRevert_mti hr hauth hst hseal hc hfree hprev hactive,
        leaves_updActivate_fwi hr hauth⟩,
      refuses_updConfirm_badState hr, refuses_updConfirm_notReady hr, refuses_updConfirm_range hr, leaves_updConfirm hr⟩,
    fun hxfer => ⟨exec_updTransferTimeout_due hxfer, exec_updTransferTimeout_early hxfer⟩,
    fun a htrial hat => ⟨exec_trialExpiry_early hat, leaves_trialExpiry htrial hat⟩,
    exec_recovery_idle,
    fun hmode => ⟨exec_updRecGo_scrapped hmode, exec_updRecGo_row hmode, leaves_updRecGo hmode,
      fun hon hlife => ⟨exec_recoveryUartBegin hmode hon hlife, exec_recoveryUart_none hmode hon hlife,
        fun huart => ⟨exec_recoveryUartBlock_long hmode hon hlife huart, exec_recoveryUartBlock_ok hmode hon hlife huart,
          exec_recoveryUartEnd_short hmode hon hlife huart, leaves_recoveryUartEnd hmode hon hlife huart⟩⟩⟩⟩

end Sys2Proof.Machine
end

section
/-! The pair beside its frames: what reports, settling and holds leave of a member's role and epoch (R54, R83, R367). -/
namespace Sys2Proof.Machine

open Sys2Proof.Claim

/-! ## The view -/

/-- The fabric block without the ports' frames and the results of items, and the epoch. -/
def State.pairing (s : State) : Xlk × Bool × Nat :=
  ({ s.xlk with ports := State.reset.xlk.ports, partials := [] }, s.mlk.holds, s.mlk.epoch)

theorem pairing_of_blocks {s s' : State} (hxlk : s'.xlk = s.xlk) (hmlk : s'.mlk = s.mlk) : s'.pairing = s.pairing := by
  rw [State.pairing, State.pairing, hxlk, hmlk]

section
variable {s s' : State} (h : s'.pairing = s.pairing)
include h

theorem role_of_pairing : s'.xlk.role = s.xlk.role := (congrArg (·.1.role) h :)

theorem swap_of_pairing : s'.xlk.swap = s.xlk.swap := (congrArg (·.1.swap) h :)

theorem lastHb_of_pairing : s'.xlk.lastHb = s.xlk.lastHb := (congrArg (·.1.lastHb) h :)

theorem diff_of_pairing : s'.xlk.diff = s.xlk.diff := (congrArg (·.1.diff) h :)

theorem unfit_of_pairing : s'.xlk.unfit = s.xlk.unfit := (congrArg (·.1.unfit) h :)

theorem failingOver_of_pairing : s'.xlk.failingOver = s.xlk.failingOver := (congrArg (·.1.failingOver) h :)

theorem holds_of_pairing : s'.mlk.holds = s.mlk.holds := (congrArg (·.2.1) h :)

theorem epoch_of_pairing : s'.mlk.epoch = s.mlk.epoch := (congrArg (·.2.2) h :)

end

/-! ## Frames and reports -/

theorem pairing_sendPort (n : Fin 32) (dst : Nat) (f : XlkTx) (s : State) : (sendPort n dst f s).pairing = s.pairing := by
  unfold sendPort
  simp only []
  split_ifs
  · rfl
  · rfl
  · rfl

theorem pairing_sendXlk (dst : Nat) (f : XlkTx) (s : State) : (sendXlk dst f s).pairing = s.pairing := by
  unfold sendXlk
  split
  · exact foldl_leaves (g := State.pairing) (fun s n => pairing_sendPort n dst f s) _ s
  · split
    · exact pairing_sendPort ..
    · rfl

theorem pairing_mirror (f : MirrorFrame) (s : State) : (mirror f s).pairing = s.pairing := by
  unfold mirror
  split
  · exact pairing_sendXlk ..
  · rfl

theorem pairing_alarmArgs (a : Alarm) (inst : Nat) (a0 a1 a2 : Int) (s : State) :
    (alarmArgs a inst a0 a1 a2 s).pairing = s.pairing :=
  pairing_of_blocks (alarmArgs_xlk ..) (eq_of_sansReports (sansReports_alarmArgs a inst a0 a1 a2 s) (g := State.mlk) fun _ => rfl)

theorem pairing_alarm (a : Alarm) (inst : Nat) (s : State) : (alarm a inst s).pairing = s.pairing := pairing_alarmArgs ..

theorem pairing_raiseItem (o : OutcomeRec) (s : State) : (raiseItem o s).pairing = s.pairing :=
  pairing_of_blocks (xlk_raiseItem o s) (eq_of_sansReports (sansReports_raiseItem o s) (g := State.mlk) fun _ => rfl)

theorem pairing_raiseAudit (a : AuditRec) (s : State) : (raiseAudit a s).pairing = s.pairing := by
  obtain ⟨log, h⟩ := raiseAudit_eq a s
  rw [h]
  rfl

theorem pairing_complete (id : RingId) (st : Status) (r : Nat) (s : State) : (complete id st r s).pairing = s.pairing :=
  pairing_of_blocks (complete_xlk ..) (complete_mlk ..)

/-! ## Items and jobs close -/

theorem pairing_reportOutcome (ctx : Fin 64) (o : OutcomeRec) (s : State) : (reportOutcome ctx o s).pairing = s.pairing := by
  unfold reportOutcome
  split
  · rfl
  · split
    · exact pairing_sendXlk ..
    · exact pairing_raiseItem ..

theorem pairing_modJob (n : Fin 64) (f : Job → Job) (s : State) : (s.modJob n f).pairing = s.pairing := rfl

theorem pairing_sansPartial (l : List PartialWait) (s : State) :
    State.pairing { s with xlk := { s.xlk with partials := l } } = s.pairing := rfl

theorem pairing_closeItem (ctx : Fin 64) (o : OutcomeRec) (sb : Option SealedBind) (s : State) :
    (closeItem ctx o sb s).pairing = s.pairing := by
  unfold closeItem
  extract_lets x y
  have hx : x.pairing = s.pairing := by
    cases sb with
    | none => rfl
    | some b => exact (pairing_raiseAudit .. : (closeSealed o b s).pairing = _)
  exact (pairing_reportOutcome ..).trans ((pairing_sansPartial ..).trans ((pairing_modJob ..).trans hx))

theorem pairing_closeFront (ctx : Fin 64) (l : List Item) (s : State) : (closeFront ctx l s).2.pairing = s.pairing := by
  induction l generalizing s with
  | nil => rfl
  | cons it l ih =>
    unfold closeFront
    split
    · exact (ih _).trans (pairing_closeItem ..)
    · rfl

theorem pairing_takeEntries (ctx : Fin 64) (l : List OutcomeRec) (s : State) : (takeEntries ctx l s).2.pairing = s.pairing := by
  induction l generalizing s with
  | nil => rfl
  | cons o l ih =>
    unfold takeEntries
    split
    · rfl
    · exact (ih _).trans (pairing_closeItem ..)

theorem pairing_endRun (p : Fin 8) (s : State) : (endRun p s).pairing = s.pairing := by
  unfold endRun
  split
  · next ctx a b _ =>
    obtain ⟨log, regs, h⟩ := diag_eq .planeUnderrun p ctx a b (s.modPlane p fun x => { x with run := none })
    rw [h]
    rfl
  · rfl

theorem pairing_endRuns (ctx : Fin 64) (s : State) : (endRuns ctx s).pairing = s.pairing := by
  unfold endRuns
  refine foldl_leaves (g := State.pairing) (fun s p => ?_) _ s
  split
  · split
    · exact pairing_endRun p s
    · rfl
  · rfl

theorem pairing_closeJob (ctx : Fin 64) (s : State) : (closeJob ctx s).pairing = s.pairing := by
  obtain h | h := closeJob_eq ctx s
  · rw [h]
  · rw [h]
    exact (pairing_endRuns ..).trans (pairing_modJob ..)

theorem pairing_settleJob (ctx : Fin 64) (s : State) : (settleJob ctx s).pairing = s.pairing := by
  unfold settleJob
  simp only []
  split
  · rfl
  · rfl
  · rw [pairing_closeJob, pairing_modJob, pairing_takeEntries, pairing_modJob, pairing_closeFront]

theorem pairing_settleAll (s : State) : (settleAll s).pairing = s.pairing :=
  foldl_leaves (g := State.pairing) (fun s c => pairing_settleJob c s) _ s

/-! ## Jobs end -/

theorem pairing_voidQueue (ctx : Fin 64) (codes : BitVec 16) (l : List Record) (s : State) :
    (voidQueue ctx codes l s).2.pairing = s.pairing := by
  induction l generalizing s with
  | nil => rfl
  | cons r l ih =>
    unfold voidQueue
    exact (ih _).trans rfl

theorem pairing_toSlotHubs (x : FireSlot) (f : Nat → MlkTx) (s : State) : (toSlotHubs x f s).pairing = s.pairing := by
  obtain ⟨out, h⟩ := toSlotHubs_eq x f s
  rw [h]
  rfl

theorem pairing_withdrawn (ctx : Fin 64) (s : State) : (withdrawn ctx s).pairing = s.pairing := rfl

theorem pairing_abortJob (ctx : Fin 64) (s : State) : (abortJob ctx s).pairing = s.pairing := by
  obtain ⟨r, hr⟩ : ∃ r, abortJob ctx s = r := ⟨_, rfl⟩
  rw [hr]
  unfold abortJob at hr
  extract_lets x mine y cod pac z j items at hr
  have hx : x.pairing = s.pairing := pairing_endRuns ..
  have hy : y.pairing = x.pairing := by
    refine foldl_leaves (g := State.pairing) (fun s x => ?_) _ _
    split
    · exact pairing_toSlotHubs ..
    · rfl
  have hz : z.pairing = y.pairing := pairing_withdrawn ctx y
  clear_value items j z pac cod y mine x
  rw [← hr]
  exact (pairing_modJob ..).trans ((pairing_takeEntries ..).trans ((pairing_voidQueue ..).trans ((pairing_closeFront ..).trans
    (hz.trans (hy.trans hx)))))

theorem pairing_abortActive (s : State) : (abortActive s).pairing = s.pairing := by
  unfold abortActive
  refine foldl_leaves (g := State.pairing) (fun s c => ?_) _ s
  split
  · exact pairing_abortJob c s
  · rfl

/-! ## Holds -/

theorem pairing_modDev (f : Dev → Dev) (s : State) : (s.modDev f).pairing = s.pairing := rfl

theorem pairing_sendHubRel (h : EndpointRec) (f : MlkTx) (s : State) : (sendHubRel h f s).pairing = s.pairing := by
  unfold sendHubRel
  split
  · unfold pushRel
    extract_lets x
    split
    · rfl
    · rfl
  · rfl

theorem pairing_sendStops (s : State) : (sendStops s).pairing = s.pairing := by
  unfold sendStops sendHubMode
  extract_lets tmo
  refine (foldl_leaves (g := State.pairing) (fun s h => pairing_sendHubRel ..) _ _).trans ?_
  exact foldl_leaves (g := State.pairing) (fun s h => by rfl) _ s

theorem pairing_endService (s : State) : (endService s).pairing = s.pairing := by
  unfold endService
  extract_lets cal x
  have hx : x.pairing = s.pairing := by
    simp only [x]
    split
    · exact (pairing_complete ..).trans rfl
    · rfl
  clear_value x
  refine Eq.trans ?_ hx
  split
  · split
    · exact (pairing_complete ..).trans rfl
    · rfl
  · rfl

theorem pairing_endHome (homing : Bool) (st : Status) (r : Nat) (s : State) : (endHome homing st r s).pairing = s.pairing := by
  obtain h | h := endHome_cases homing st r s
  · rw [h]
  · rw [h]
    exact pairing_complete ..

theorem pairing_loseLock (s : State) : (loseLock s).pairing = s.pairing := by
  unfold loseLock when
  extract_lets y
  split
  · split
    · exact (pairing_alarm ..).trans rfl
    · rfl
  · rfl

theorem pairing_stpStopNow (n : Fin 16) (s : State) : (stpStopNow n s).pairing = s.pairing := by
  unfold stpStopNow when dropStepperLock
  extract_lets y homing moved z
  have hend : (endHome homing .aborted 0 z).pairing = s.pairing := (pairing_endHome ..).trans rfl
  split
  · split
    · exact (pairing_loseLock _).trans hend
    · exact hend
  · exact hend

theorem pairing_stpRampStop (n : Fin 16) (s : State) : (stpRampStop n s).pairing = s.pairing :=
  (pairing_endHome ..).trans rfl

theorem pairing_baStop (n : Fin 8) (brake : Bool) (s : State) : (baStop n brake s).pairing = s.pairing :=
  (pairing_endHome ..).trans rfl

theorem pairing_motionFor (cls : Nat) (s : State) : (motionFor cls s).pairing = s.pairing := by
  unfold motionFor
  split
  · rfl
  · extract_lets y
    have hy : y.pairing = s.pairing := foldl_leaves (g := State.pairing) (fun s n => by
      split
      · exact pairing_baStop ..
      · rfl) _ s
    refine (foldl_leaves (g := State.pairing) (fun s n => ?_) _ y).trans hy
    split_ifs
    · exact pairing_stpStopNow n s
    · exact pairing_stpRampStop n s
    · rfl

theorem pairing_enterHold (cls : Nat) (s : State) : (enterHold cls s).pairing = s.pairing := by
  unfold enterHold
  extract_lets y
  exact (pairing_motionFor ..).trans ((pairing_endService _).trans ((pairing_abortActive _).trans
    ((pairing_sendStops y).trans (pairing_modDev ..))))

theorem pairing_holdCause (bit : Nat) (s : State) : (holdCause bit s).pairing = s.pairing := by
  unfold holdCause latchCause
  extract_lets y cls
  have hy : y.pairing = s.pairing := pairing_modDev ..
  split
  · split
    · split
      · exact (pairing_motionFor ..).trans ((pairing_modDev ..).trans hy)
      · exact hy
    · exact (pairing_enterHold ..).trans hy
  · rfl

/-! ## Taking the lead -/

theorem pairing_sendTakeover (h : EndpointRec) (s : State) : (sendTakeover h s).pairing = s.pairing := rfl

/-- A claim holds the epoch, and nothing else of the pair moves. -/
theorem pairing_claimEpoch (e : Nat) (s : State) : (claimEpoch e s).pairing = (s.pairing.1, true, e) := by
  unfold claimEpoch
  extract_lets y
  refine (foldl_leaves (g := State.pairing) (fun s h => ?_) _ y).trans rfl
  split
  · exact pairing_sendTakeover ..
  · rfl

theorem pairing_wr (r : RegSpec) (i : Nat) (v : Word) (s : State) : (s.wr r i v).pairing = s.pairing := rfl

theorem pairing_recordErr (r : RegSpec) (i offset : Nat) (st : Status) (s : State) :
    (s.recordErr r i offset st).pairing = s.pairing := rfl

theorem pairing_refuseOr {conds : List (Bool × Status)} {f : State → State} {s : State} (h : (f s).pairing = s.pairing)
    (r : RegSpec) (i offset : Nat) : (refuseOr conds r i offset f s).pairing = s.pairing := by
  unfold refuseOr
  split
  · exact h
  · exact pairing_recordErr ..

theorem pairing_stpEnableAct (n : Fin 16) (s : State) : (stpEnableAct n s).pairing = s.pairing := by
  unfold stpEnableAct
  split
  · rfl
  · rfl

theorem pairing_commit (n : Fin 16) (r : StpReq) (s : State) : (commit n r s).pairing = s.pairing := by
  unfold commit
  split
  · rfl
  · rfl

theorem pairing_enableMirrored (a : AxisMirror) (s : State) : (enableMirrored a s).pairing = s.pairing := by
  unfold enableMirrored
  split
  · rfl
  · split
    · extract_lets n y
      exact (pairing_refuseOr (by rfl) ..).trans (pairing_wr ..)
    · extract_lets n y
      refine (pairing_refuseOr ?_ ..).trans (pairing_wr ..)
      extract_lets z
      have hz : z.pairing = y.pairing := pairing_stpEnableAct ..
      split
      · exact (pairing_commit ..).trans hz
      · exact hz

/-- A new lead holds the epoch it claims. -/
theorem pairing_takeLead (epoch : Nat) (s : State) : (takeLead epoch s).xlk.role = .lead ∧ (takeLead epoch s).mlk.holds = true ∧
    (takeLead epoch s).mlk.epoch = epoch := by
  unfold takeLead
  extract_lets x y
  have hx : x.pairing = ((s.modXlk fun x => { x with role := .lead }).pairing.1, true, epoch) := pairing_claimEpoch ..
  have hy : y.pairing = x.pairing := foldl_leaves (g := State.pairing) (fun s a => pairing_enableMirrored a s) _ x
  have hrole : y.xlk.role = .lead := (role_of_pairing hy).trans (congrArg (·.1.role) hx :)
  have hholds : y.mlk.holds = true := (holds_of_pairing hy).trans (congrArg (·.2.1) hx :)
  have hepoch : y.mlk.epoch = epoch := (epoch_of_pairing hy).trans (congrArg (·.2.2) hx :)
  clear_value y
  have hz := pairing_settleAll (y.modXlk fun x => { x with mirror := { x.mirror with axes := [] } })
  refine ⟨?_, ?_, ?_⟩
  · rw [role_of_pairing hz]
    exact hrole
  · rw [holds_of_pairing hz]
    exact hholds
  · rw [epoch_of_pairing hz]
    exact hepoch

end Sys2Proof.Machine
end

section
/-! What a takeover and a hold leave of the alarms and of a register's word, and a failover (R54, R375). -/
namespace Sys2Proof.Machine

open Sys2Proof.Claim

/-! ## The alarms and a register word -/

/-- A register that no report counts in and no alarm writes. -/
structure PlainWord (r : RegSpec) (i : Nat) : Prop where
  report : reportKey (r.addr i) = false
  latch : ∀ k < 8, r.addr i ≠ Reg.evtAlarmLatch.addr k
  status : r.addr i ≠ Reg.evtStatus.addr 0

/-- No alarm is cleared, and a register's word stands. -/
structure WordKept (r : RegSpec) (i : Nat) (s s' : State) : Prop where
  latch : LatchKept s s'
  word : s'.rd r i = s.rd r i

section
variable {r : RegSpec} {i : Nat}

theorem WordKept.refl (s : State) : WordKept r i s s := ⟨.refl s, rfl⟩

theorem WordKept.trans {s s' s'' : State} (h : WordKept r i s s') (h' : WordKept r i s' s'') : WordKept r i s s'' :=
  ⟨h.latch.trans h'.latch, h'.word.trans h.word⟩

theorem wordKept_of_regs {s s' : State} (h : s'.regs = s.regs) : WordKept r i s s' := ⟨.of_regs h, rd_of_regs h r i⟩

theorem wordKept_foldl {α : Type} {f : State → α → State} (h : ∀ s x, WordKept r i s (f s x)) (l : List α) (s : State) :
    WordKept r i s (l.foldl f s) := by
  induction l generalizing s with
  | nil => exact .refl s
  | cons x l ih => exact (h s x).trans (ih _)

variable (hw : PlainWord r i)
include hw

theorem wordKept_of_words {s s' : State} (h : s'.words = s.words) : WordKept r i s s' := by
  refine ⟨.of_rd fun i hi => rd_of_words h (decide_eq_false ?_), rd_of_words h hw.report⟩
  simp only [RegSpec.addr, Reg.evtAlarmLatch]
  omega

theorem wordKept_of_motionWords {s s' : State} (h : s'.motionWords = s.motionWords) : WordKept r i s s' :=
  wordKept_of_words hw (congrArg (·.2) h)

omit hw in
theorem alarmCode_lt (a : Alarm) : a.code / 32 < 8 := by
  cases a <;> decide

theorem wordKept_alarmArgs (a : Alarm) (inst : Nat) (a0 a1 a2 : Int) (s : State) : WordKept r i s (alarmArgs a inst a0 a1 a2 s) :=
  ⟨latchKept_alarmArgs a inst a0 a1 a2 s, rd_alarmArgs (hw.latch _ (alarmCode_lt a)) hw.status ..⟩

/-! ## Motion stops, and a hold -/

theorem wordKept_endHome (homing : Bool) (st : Status) (v : Nat) (s : State) : WordKept r i s (endHome homing st v s) :=
  wordKept_of_motionWords hw (motionWords_endHome ..)

theorem wordKept_loseLock (s : State) : WordKept r i s (loseLock s) := by
  have hest : WordKept r i s { s with pac := { s.pac with est := s.pac.est.restart } } := wordKept_of_regs rfl
  unfold loseLock when
  extract_lets y
  split
  · split
    · exact hest.trans (wordKept_alarmArgs hw ..)
    · exact hest
  · exact hest

theorem wordKept_stpStopNow (n : Fin 16) (s : State) : WordKept r i s (stpStopNow n s) := by
  unfold stpStopNow when dropStepperLock
  extract_lets y homing moved z
  have hz : WordKept r i s z := wordKept_of_regs rfl
  have hend := hz.trans (wordKept_endHome hw homing .aborted 0 z)
  split
  · split
    · exact hend.trans (wordKept_loseLock hw _)
    · exact hend
  · exact hend

theorem wordKept_stpRampStop (n : Fin 16) (s : State) : WordKept r i s (stpRampStop n s) := by
  unfold stpRampStop
  extract_lets y homing a
  exact (wordKept_of_regs rfl : WordKept r i s (y.modStp n _)).trans (wordKept_endHome hw ..)

theorem wordKept_baStop (n : Fin 8) (brake : Bool) (s : State) : WordKept r i s (baStop n brake s) :=
  (wordKept_of_regs rfl : WordKept r i s (s.modBa n fun x => x.stop brake)).trans (wordKept_endHome hw ..)

theorem wordKept_motionFor (cls : Nat) (s : State) : WordKept r i s (motionFor cls s) := by
  unfold motionFor
  split
  · exact .refl s
  · extract_lets y
    have hy : WordKept r i s y := wordKept_foldl (fun s n => by
      split
      · exact wordKept_baStop hw ..
      · exact .refl s) _ s
    refine hy.trans (wordKept_foldl (fun s n => ?_) _ y)
    split_ifs
    · exact wordKept_stpStopNow hw n s
    · exact wordKept_stpRampStop hw n s
    · exact .refl s

theorem wordKept_enterHold (cls : Nat) (s : State) : WordKept r i s (enterHold cls s) := by
  unfold enterHold
  extract_lets y
  have hstops : (endService (abortActive (sendStops y))).motionWords = y.motionWords := by
    rw [motionWords_endService, motionWords_abortActive, motionWords_sendStops]
  have hy : WordKept r i s y := wordKept_of_regs rfl
  exact hy.trans ((wordKept_of_motionWords hw hstops).trans (wordKept_motionFor hw ..))

theorem wordKept_holdCause (bit : Nat) (s : State) : WordKept r i s (holdCause bit s) := by
  unfold holdCause latchCause
  extract_lets y cls
  have hy : WordKept r i s y := wordKept_of_regs rfl
  split
  · split
    · split
      · exact hy.trans ((wordKept_of_regs rfl : WordKept r i y (y.modDev fun d => { d with holdClass := cls })).trans
          (wordKept_motionFor hw ..))
      · exact hy
    · exact hy.trans (wordKept_enterHold hw ..)
  · exact .refl s

/-! ## Taking the lead -/

section
variable (hlow : r.addr i < 0x341000)
include hlow

omit hw in
/-- A write to a register of the axes leaves one below theirs. -/
theorem wordKept_wr {q : RegSpec} (h : 0x341000 ≤ q.base) (j : Nat) (v : Word) (s : State) : WordKept r i s (s.wr q j v) := by
  refine ⟨.of_rd fun k hk => rd_wr_of_ne ?_ v s, rd_wr_of_ne ?_ v s⟩
  · simp only [RegSpec.addr, Reg.evtAlarmLatch]
    omega
  · simp only [RegSpec.addr] at hlow ⊢
    omega

omit hw hlow in
theorem wordKept_claimEpoch (e : Nat) (s : State) : WordKept r i s (claimEpoch e s) := by
  unfold claimEpoch
  extract_lets y
  have hy : WordKept r i s y := wordKept_of_regs rfl
  refine hy.trans (wordKept_foldl (fun s h => ?_) _ y)
  split
  · exact wordKept_of_regs rfl
  · exact .refl s

omit hw in
theorem wordKept_recordErr {q : RegSpec} (h : 0x341000 ≤ q.base) (j offset : Nat) (st : Status) (s : State) :
    WordKept r i s (s.recordErr q j offset st) :=
  (wordKept_wr hlow h ..).trans (wordKept_wr hlow h ..)

omit hw in
theorem wordKept_refuseOr {conds : List (Bool × Status)} {f : State → State} {s : State} (hf : WordKept r i s (f s))
    {q : RegSpec} (h : 0x341000 ≤ q.base) (j offset : Nat) : WordKept r i s (refuseOr conds q j offset f s) := by
  unfold refuseOr
  split
  · exact hf
  · exact wordKept_recordErr hlow h ..

omit hw hlow in
theorem wordKept_stpEnableAct (n : Fin 16) (s : State) : WordKept r i s (stpEnableAct n s) := by
  refine wordKept_of_regs ?_
  unfold stpEnableAct
  split
  · rfl
  · rfl

omit hw hlow in
theorem wordKept_commit (n : Fin 16) (q : StpReq) (s : State) : WordKept r i s (commit n q s) := by
  refine wordKept_of_regs ?_
  unfold commit
  split
  · rfl
  · rfl

omit hw in
theorem wordKept_enableMirrored (a : AxisMirror) (s : State) : WordKept r i s (enableMirrored a s) := by
  unfold enableMirrored
  split
  · exact .refl s
  · split
    · extract_lets n y
      exact (wordKept_wr hlow (by decide) ..).trans (wordKept_refuseOr hlow (wordKept_of_regs rfl) (by decide) ..)
    · extract_lets n y
      refine (wordKept_wr hlow (by decide) ..).trans (wordKept_refuseOr hlow ?_ (by decide) ..)
      extract_lets z
      have hz : WordKept r i y z := wordKept_stpEnableAct ..
      split
      · exact hz.trans (wordKept_commit ..)
      · exact hz

omit hlow in
theorem wordKept_settleAll (s : State) : WordKept r i s (settleAll s) :=
  wordKept_foldl (fun _ _ => wordKept_of_words hw (words_of_reported (reported_settleJob ..))) _ s

theorem wordKept_takeLead (epoch : Nat) (s : State) : WordKept r i s (takeLead epoch s) := by
  unfold takeLead
  extract_lets x y
  have hx : WordKept r i s x := (wordKept_of_regs rfl : WordKept r i s (s.modXlk fun x => { x with role := .lead })).trans
    (wordKept_claimEpoch ..)
  have hy : WordKept r i x y := wordKept_foldl (fun s a => wordKept_enableMirrored hlow a s) _ x
  have hz : WordKept r i y (y.modXlk fun x => { x with mirror := { x.mirror with axes := [] } }) := wordKept_of_regs rfl
  exact hx.trans (hy.trans (hz.trans (wordKept_settleAll hw _)))

end

end

/-! ## Failover -/

/-- The counter of failovers is such a register. -/
theorem plainWord_xlkFailovers : PlainWord Reg.xlkFailovers 0 := by
  refine ⟨by decide, fun k hk => ?_, by decide⟩
  simp only [RegSpec.addr, Reg.xlkFailovers, Reg.evtAlarmLatch]
  omega


/-- A failover: the alarm stands, the failover is counted, and the new lead holds the next epoch. -/
theorem failOver_leaves (s : State) : (failOver s).xlk.role = .lead ∧ (failOver s).mlk.holds = true ∧
    (failOver s).mlk.epoch = nextEpoch s.xlk.peerEpoch ∧ bitOf (failOver s) Reg.evtAlarmLatch 1 0 = true ∧
    ((failOver s).rd Reg.xlkFailovers).toNat = min ((s.rd Reg.xlkFailovers).toNat + 1) 0xFFFFFFFF := by
  unfold failOver
  extract_lets x y
  have hxpeer : x.xlk.peerEpoch = s.xlk.peerEpoch := congrArg Xlk.peerEpoch (alarm_xlk ..)
  have hxbit : bitOf x Reg.evtAlarmLatch 1 0 = true := alarm_bitOf .pairLeadLost noInst _
  have hxcount : (x.rd Reg.xlkFailovers).toNat = min ((s.rd Reg.xlkFailovers).toNat + 1) 0xFFFFFFFF := by
    have halarm : x.rd Reg.xlkFailovers = ((dropConfirmed s).count Reg.xlkFailovers).rd Reg.xlkFailovers :=
      (wordKept_alarmArgs plainWord_xlkFailovers .pairLeadLost noInst 0 0 0 _).word
    rw [halarm, rd_count rfl]
    rfl
  have hlead : y.xlk.role = .lead ∧ y.mlk.holds = true ∧ y.mlk.epoch = nextEpoch x.xlk.peerEpoch := by
    simp only [y]
    exact pairing_takeLead ..
  have hy : WordKept Reg.xlkFailovers 0 x y := (wordKept_of_regs rfl : WordKept Reg.xlkFailovers 0 x (x.modXlk fun x =>
    { x with failingOver := true, refusedSince := none })).trans (wordKept_takeLead plainWord_xlkFailovers (by decide) ..)
  clear_value y x
  obtain ⟨hrole, hholds, hepoch⟩ := hlead
  rw [hxpeer] at hepoch
  split
  · have hheld := pairing_enterHold 2 y
    have hkept := hy.trans (wordKept_enterHold plainWord_xlkFailovers 2 y)
    exact ⟨(role_of_pairing hheld).trans hrole, (holds_of_pairing hheld).trans hholds, (epoch_of_pairing hheld).trans hepoch,
      hkept.latch 1 (by decide) 0 hxbit, by rw [hkept.word, hxcount]⟩
  · exact ⟨hrole, hholds, hepoch, hy.latch 1 (by decide) 0 hxbit, by rw [hy.word, hxcount]⟩

/-- A dummy without running jobs that compares equal loses its lead: it fails over at once. -/
theorem leadLost_of_idle {s : State} (hjobs : s.anyActive = false) (hdiff : s.xlk.diff = 0) : leadLost s = failOver s := by
  have hnone : unfitRunning s = [] := by
    refine List.filter_eq_nil_iff.mpr fun c _ => ?_
    rw [active_of_anyActive hjobs c]
    exact Bool.false_ne_true
  unfold leadLost
  simp [hnone, hdiff]

end Sys2Proof.Machine
end

section
/-! What a member of a pair sends and hears (R367, R368, R371). -/
namespace Sys2Proof.Machine

open Sys2Proof.Claim

section
variable {s : State} (hr : s.ringsRun = true) {t : Nat} {hb : Heartbeat} {ds : List Nat}
include hr

/-! ## Without a pair -/

theorem exec_pair_idle (h : paired s = false) : exec (.heartbeatSend t) s = .next (after t s id) ∧
    exec (.heartbeatFrame t hb) s = .next (after t s id) ∧ exec (.compareFrame t ds) s = .next (after t s id) := by
  have hpaired : (!paired (s.arrive t)) = true := by rw [show paired (s.arrive t) = false from h]; rfl
  exact ⟨(ringCmd_eq_after hr (if_pos hpaired) : execHeartbeatSend t s = _),
    (ringCmd_eq_after hr (if_pos (.inl hpaired)) : execHeartbeatFrame t hb s = _),
    (ringCmd_eq_after hr (if_pos hpaired) : execCompareFrame t ds s = _)⟩

/-! ## HEARTBEAT_SEND -/

/-- The heartbeat that a member sends. -/
def heartbeatOf (s : State) : Heartbeat :=
  { unitId := unitId s,
    role := match s.xlk.role with
      | .lead | .soloLead => 2
      | .dummy => 3
      | .conflict => if s.mlk.holds then 2 else 3
      | _ => 1,
    leadReq := s.xlk.reqLocal, fit := s.dummy && fitAll s, hold := s.dev.hold,
    epoch := s.mlk.epoch, digest := ownDigest s, unfit := (unfitMask s).toNat }

/-- The lead's AXES and FINAL frames go out behind the heartbeat. -/
def mirrorsSent (s : State) : State := if s.xlk.role = .lead then mirrorAxes (mirrorFinals s) else s

theorem exec_heartbeatSend (h : paired s = true) : exec (.heartbeatSend t) s =
    .next (after t s fun s => mirrorsSent (sendXlk s.peerAddr (.heartbeat (heartbeatOf s)) s)) := by
  refine (ringCmd_eq_after hr ?_ : execHeartbeatSend t s = _)
  refine if_neg ?_
  rw [show paired (s.arrive t) = true from h]
  decide

omit hr in
theorem sansReports_mirrorAxes (s : State) : (mirrorAxes s).sansReports = s.sansReports := by
  unfold mirrorAxes
  extract_lets news
  split
  · rfl
  · exact (show _ = (mirror _ s).sansReports from rfl).trans (sansReports_mirror ..)

omit hr in
theorem sansReports_mirrorFinals (s : State) : (mirrorFinals s).sansReports = s.sansReports := by
  unfold mirrorFinals
  refine sansReports_foldl (fun s c => ?_) _ s
  split
  · split
    · rfl
    · exact (show _ = (mirror _ s).sansReports from rfl).trans (sansReports_mirror ..)
  · rfl

omit hr in
theorem sansReports_mirrorsSent (s : State) : (mirrorsSent s).sansReports = s.sansReports := by
  unfold mirrorsSent
  split
  · exact (sansReports_mirrorAxes _).trans (sansReports_mirrorFinals s)
  · rfl

theorem leaves_heartbeatSend (h : paired s = true) :
    Leaves (.heartbeatSend t) s fun s' => SamePrint s s' ∧ SameMotion s s' := by
  refine leaves_of_effect (exec_heartbeatSend hr h) fun y hy => ?_
  have hsent : y.sansReports = (s.arrive t).sansReports := by
    rw [hy, sansReports_mirrorsSent, sansReports_sendXlk]
  have hkeeps := keepsPress_of_sansReports hsent
  exact ⟨hkeeps.print, hkeeps.motion⟩

omit hr in
/-- A heartbeat is sent unreliably, by the route to the other member. -/
theorem sendXlk_heartbeat {s : State} {dst : Nat} (hdst : dst ≠ 0xFFFF) (hroute : (route s dst).isSome = true) :
    ∃ l, sendXlk dst (.heartbeat hb) s = s.emit (.xlk l dst (.heartbeat hb)) := by
  obtain ⟨⟨c, hops⟩, hsome⟩ := Option.isSome_iff_exists.mp hroute
  unfold sendXlk
  rw [if_neg hdst, hsome]
  exact ⟨_, rfl⟩

theorem leaves_heartbeatSend_member (h : paired s = true) (hrole : s.xlk.role ≠ .lead)
    (hroute : (route s s.peerAddr).isSome = true) (hdst : s.peerAddr ≠ 0xFFFF) : Leaves (.heartbeatSend t) s fun s' =>
      ∃ l b, s'.out = [.xlk l s.peerAddr (.heartbeat b)] ∧ b.unitId = unitId s ∧ b.leadReq = s.xlk.reqLocal ∧
        b.hold = s.dev.hold ∧ b.epoch = s.mlk.epoch ∧ (s.xlk.role = .dummy → b.role = 3) ∧ (s.xlk.role = .soloLead → b.role = 2) ∧
        (s.xlk.role = .forming → b.role = 1) ∧ (s.xlk.role ≠ .dummy → b.fit = false) ∧ s'.regs = s.regs ∧ SamePrint s s' ∧
        SameMotion s s' := by
  refine leaves_of_effect (exec_heartbeatSend hr h) fun y hy => ?_
  obtain ⟨l, hsent⟩ := sendXlk_heartbeat (hb := heartbeatOf (s.arrive t)) (s := s.arrive t) hdst hroute
  have heq : y = (s.arrive t).emit (.xlk l s.peerAddr (.heartbeat (heartbeatOf (s.arrive t)))) :=
    (hy.trans (congrArg mirrorsSent hsent)).trans (if_neg hrole)
  subst heq
  refine ⟨l, heartbeatOf (s.arrive t), rfl, rfl, rfl, rfl, rfl, fun hd => ?_, fun hs => ?_, fun hf => ?_, fun hn => ?_, rfl, ?_⟩
  · simp only [heartbeatOf, show (s.arrive t).xlk.role = .dummy from hd]
  · simp only [heartbeatOf, show (s.arrive t).xlk.role = .soloLead from hs]
  · simp only [heartbeatOf, show (s.arrive t).xlk.role = .forming from hf]
  · have hno : (s.arrive t).dummy = false := beq_false_of_ne hn
    simp only [heartbeatOf, hno, Bool.false_and]
  · exact ((SameBesideTime.refl s).2 :)

/-! ## HEARTBEAT_FRAME -/

/-- A rising LEAD_REQ of the dummy starts a swap where the lead's configuration says so. -/
def risingSwap (rising : Bool) (s : State) : State :=
  if s.xlk.role = .lead ∧ rising ∧ !s.xlk.reqLocal ∧ s.fld Reg.xlkPairCfg 0 1 1 = 1 ∧ !swapRefused s then startSwap false s else s

/-- Members whose digests differ compare. -/
def compareOn (digest : Nat) (s : State) : State :=
  if (s.xlk.role = .lead ∨ s.xlk.role = .dummy) ∧ digest ≠ ownDigest s then sendCompare s else s

theorem exec_heartbeatFrame_other (h : hb.unitId ≠ s.peerUid) : exec (.heartbeatFrame t hb) s = .next (after t s id) :=
  (ringCmd_eq_after hr (if_pos (.inr h)) : execHeartbeatFrame t hb s = _)

theorem exec_heartbeatFrame (h : paired s = true) (huid : hb.unitId = s.peerUid) : exec (.heartbeatFrame t hb) s =
    .next (after t s fun s => compareOn hb.digest (risingSwap (hb.leadReq && !s.xlk.reqPeer) (heartbeatRole (takeHeartbeat hb s)))) := by
  refine (ringCmd_eq_after hr ?_ : execHeartbeatFrame t hb s = _)
  refine if_neg ?_
  rintro (hno | hne)
  · rw [show paired (s.arrive t) = true from h] at hno
    exact absurd hno (by decide)
  · exact hne huid

end

theorem sansReports_compareOn (digest : Nat) (s : State) : (compareOn digest s).sansReports = s.sansReports := by
  unfold compareOn
  split
  · exact sansReports_sendXlk ..
  · rfl

theorem pairing_compareOn (digest : Nat) (s : State) : (compareOn digest s).pairing = s.pairing := by
  unfold compareOn
  split
  · exact pairing_sendXlk ..
  · rfl

theorem risingSwap_of_level (rising : Bool) {s : State} (h : s.xlk.role ≠ .lead ∨ rising = false) :
    risingSwap rising s = s := by
  refine if_neg ?_
  rintro ⟨hlead, hrise, -⟩
  obtain h | h := h
  · exact h hlead
  · rw [h] at hrise
    exact absurd hrise (by decide)

theorem pairing_formAs (r : Role) (s : State) : (formAs r s).pairing = (s.modXlk fun x => { x with role := r }).pairing :=
  pairing_sendXlk ..

theorem sansReports_formAs (r : Role) (s : State) : (formAs r s).sansReports = s.sansReports := sansReports_sendXlk ..

/-- A member that forms without an epoch as the lead claims one. -/
theorem formLead_leaves {s : State} (h : s.mlk.holds = false) : (formLead s).xlk.role = .lead ∧ (formLead s).mlk.holds = true ∧
    (formLead s).mlk.epoch = formingEpoch s ∧ (formLead s).xlk.lastHb = s.xlk.lastHb := by
  have hform := pairing_formAs .lead s
  have hepoch : formingEpoch (formAs .lead s) = formingEpoch s :=
    eq_of_sansReports (sansReports_formAs .lead s) (g := formingEpoch) fun _ => rfl
  have heq : formLead s = claimEpoch (formingEpoch s) (formAs .lead s) := by
    unfold formLead
    extract_lets x
    have hx : x.mlk.holds = false := (holds_of_pairing hform).trans h
    rw [hx, hepoch]
    rfl
  have hclaim := pairing_claimEpoch (formingEpoch s) (formAs .lead s)
  rw [hform, ← heq] at hclaim
  exact ⟨(congrArg (·.1.role) hclaim :), (congrArg (·.2.1) hclaim :), (congrArg (·.2.2) hclaim :), (congrArg (·.1.lastHb) hclaim :)⟩

/-- Every axis of a state is disabled. -/
def AxesOff (s : State) : Prop := (∀ n : Fin 8, (s.ba[n]).en = false) ∧ ∀ n : Fin 16, (s.stp[n]).en = false

theorem axesOff_parkAxes (s : State) : AxesOff (parkAxes s) := by
  constructor
  · intro n
    simp only [parkAxes, Fin.getElem_fin, Vector.getElem_map]
  · intro n
    simp only [parkAxes, Fin.getElem_fin, Vector.getElem_map]

theorem AxesOff.of_sameMotion {s s' : State} (h : AxesOff s) (hmotion : SameMotion s s') : AxesOff s' := by
  obtain ⟨hba, -, hstp, -⟩ := hmotion
  obtain ⟨hbaOff, hstpOff⟩ := h
  exact ⟨fun n => by rw [hba]; exact hbaOff n, fun n => by rw [hstp]; exact hstpOff n⟩

/-- A member that forms as the dummy drives nothing. -/
theorem formDummy_leaves (s : State) : (formDummy s).xlk.role = .dummy ∧ (formDummy s).mlk.holds = false ∧ AxesOff (formDummy s) := by
  have hform := pairing_formAs .dummy (parkAxes s)
  have hmotion := sameMotion_of_sansReports (sansReports_formAs .dummy (parkAxes s))
  exact ⟨role_of_pairing hform, rfl, (axesOff_parkAxes s).of_sameMotion hmotion⟩

section
variable {s : State} (hr : s.ringsRun = true) {t : Nat} {hb : Heartbeat} (h : paired s = true) (huid : hb.unitId = s.peerUid)
include hr h huid

section
variable (hrole : s.xlk.role = .none ∨ s.xlk.role = .forming) (hholds : s.mlk.holds = false) (hpeer : hb.role ≠ 2)
include hrole hholds hpeer

omit hr h huid in
/-- A member without an epoch beside one that does not lead forms by the LEAD_REQ levels. -/
theorem heartbeatRole_forming : heartbeatRole (takeHeartbeat hb (s.arrive t)) =
    if (s.xlk.reqLocal && !hb.leadReq) = true then formLead (takeHeartbeat hb (s.arrive t))
    else if (!s.xlk.reqLocal && hb.leadReq) = true then formDummy (takeHeartbeat hb (s.arrive t))
    else (takeHeartbeat hb (s.arrive t)).modXlk fun x => { x with role := .forming } := by
  have hrole' : (takeHeartbeat hb (s.arrive t)).xlk.role = s.xlk.role := rfl
  have hlead : ((takeHeartbeat hb (s.arrive t)).xlk.peerRole == 2) = false := beq_false_of_ne hpeer
  have hform : heartbeatRole (takeHeartbeat hb (s.arrive t)) = formPair false (takeHeartbeat hb (s.arrive t)) := by
    unfold heartbeatRole
    rw [hlead, hrole']
    obtain hrole | hrole := hrole
    · rw [hrole]
    · rw [hrole]
  rw [hform]
  unfold formPair
  extract_lets mine
  have hmine : mine = false := by
    simp only [mine]
    rw [show (takeHeartbeat hb (s.arrive t)).mlk.holds = false from hholds, Bool.false_and]
  rw [hmine]
  rfl

theorem leaves_heartbeatFrame_lead (hlocal : s.xlk.reqLocal = true) (hreq : hb.leadReq = false) :
    Leaves (.heartbeatFrame t hb) s fun s' => s'.xlk.role = .lead ∧ s'.mlk.holds = true ∧ s'.mlk.epoch = formingEpoch s ∧
      s'.xlk.lastHb = some (max s.now t) := by
  refine leaves_of_effect (exec_heartbeatFrame hr h huid) fun y hy => ?_
  have heq := heartbeatRole_forming (t := t) hrole hholds hpeer
  rw [hlocal, hreq, if_pos (by rfl)] at heq
  rw [hreq, heq, Bool.false_and, risingSwap_of_level _ (.inr rfl)] at hy
  obtain ⟨hlead, hheld, hepoch, hlast⟩ := formLead_leaves (s := takeHeartbeat hb (s.arrive t)) hholds
  have hview : y.pairing = _ := (congrArg State.pairing hy).trans (pairing_compareOn ..)
  exact ⟨(role_of_pairing hview).trans hlead, (holds_of_pairing hview).trans hheld, (epoch_of_pairing hview).trans hepoch,
    (lastHb_of_pairing hview).trans hlast⟩

theorem leaves_heartbeatFrame_dummy (hlocal : s.xlk.reqLocal = false) (hreq : hb.leadReq = true) :
    Leaves (.heartbeatFrame t hb) s fun s' => s'.xlk.role = .dummy ∧ s'.mlk.holds = false ∧
      (∀ n, (s'.ba[(n : Fin 8)]).en = false) ∧ (∀ n, (s'.stp[(n : Fin 16)]).en = false) := by
  refine leaves_of_effect (exec_heartbeatFrame hr h huid) fun y hy => ?_
  have heq := heartbeatRole_forming (t := t) hrole hholds hpeer
  rw [hlocal, hreq, if_neg (by decide), if_pos (by rfl)] at heq
  obtain ⟨hdummy, hheld, hoff⟩ := formDummy_leaves (takeHeartbeat hb (s.arrive t))
  rw [heq, risingSwap_of_level _ (.inl (by rw [hdummy]; decide))] at hy
  have hview : y.pairing = _ := (congrArg State.pairing hy).trans (pairing_compareOn ..)
  have hmotion : SameMotion (formDummy (takeHeartbeat hb (s.arrive t))) y := by
    rw [hy]
    exact sameMotion_of_sansReports (sansReports_compareOn ..)
  obtain ⟨hba, hstp⟩ := hoff.of_sameMotion hmotion
  exact ⟨(role_of_pairing hview).trans hdummy, (holds_of_pairing hview).trans hheld, hba, hstp⟩

theorem leaves_heartbeatFrame_forming (hlevels : s.xlk.reqLocal = hb.leadReq) :
    Leaves (.heartbeatFrame t hb) s fun s' => s'.xlk.role = .forming ∧ SameMotion s s' := by
  refine leaves_of_effect (exec_heartbeatFrame hr h huid) fun y hy => ?_
  have heq := heartbeatRole_forming (t := t) hrole hholds hpeer
  rw [hlevels, if_neg (by cases hb.leadReq <;> decide), if_neg (by cases hb.leadReq <;> decide)] at heq
  rw [heq, risingSwap_of_level _ (.inl (fun h => absurd (show Role.forming = Role.lead from h) (by decide)))] at hy
  have hview : y.pairing = _ := (congrArg State.pairing hy).trans (pairing_compareOn ..)
  have hmotion : y.sansReports = (s.arrive t).sansReports := by
    rw [hy, sansReports_compareOn]
    rfl
  exact ⟨role_of_pairing hview, (sameMotion_of_sansReports hmotion :)⟩

end

theorem leaves_heartbeatFrame_conflict (hrole : s.xlk.role = .lead) (hswap : s.xlk.swap = none) (hpeer : hb.role = 2) :
    Leaves (.heartbeatFrame t hb) s fun s' => s'.xlk.role = .conflict := by
  refine leaves_of_effect (exec_heartbeatFrame hr h huid) fun y hy => ?_
  have heq : heartbeatRole (takeHeartbeat hb (s.arrive t)) = pairConflict (takeHeartbeat hb (s.arrive t)) := by
    unfold heartbeatRole
    rw [show ((takeHeartbeat hb (s.arrive t)).xlk.peerRole == 2) = true from beq_iff_eq.mpr hpeer,
      show (takeHeartbeat hb (s.arrive t)).xlk.role = .lead from hrole, show (takeHeartbeat hb (s.arrive t)).xlk.swap = none from hswap]
    rfl
  have hconflict : (pairConflict (takeHeartbeat hb (s.arrive t))).xlk.role = .conflict :=
    role_of_pairing (pairing_holdCause 4 _)
  rw [heq, risingSwap_of_level _ (.inl (by rw [hconflict]; decide))] at hy
  have hview : y.pairing = _ := (congrArg State.pairing hy).trans (pairing_compareOn ..)
  exact (role_of_pairing hview).trans hconflict

end

end Sys2Proof.Machine
end

section
/-! Comparison, mirroring, swaps, failover and LEAD_REQ of a pair (R368 to R379), and obligation O46. -/
namespace Sys2Proof.Machine

open Sys2Proof.Claim

/-! ## COMPARE -/

/-- A mask of the numbers that hold. -/
def maskOf {n : Nat} (bad : Nat → Bool) (l : List Nat) (m : BitVec n) : BitVec n :=
  l.foldl (fun m w => if bad w then m ||| (1#n <<< w) else m) m

theorem getLsbD_maskOf {n : Nat} (bad : Nat → Bool) (l : List Nat) (m : BitVec n) {w : Nat} (hw : w < n) :
    (maskOf bad l m).getLsbD w = (m.getLsbD w || (decide (w ∈ l) && bad w)) := by
  induction l generalizing m with
  | nil => simp [maskOf]
  | cons k l ih =>
    have hstep : (if bad k then m ||| (1#n <<< k) else m).getLsbD w = (m.getLsbD w || (decide (w = k) && bad w)) := by
      by_cases hwk : w = k
      · subst hwk
        cases hbad : bad w
        · simp
        · simp [getLsbD_shifted hw]
      · have hbit : (1#n <<< k).getLsbD w = false := by
          rw [BitVec.getLsbD_shiftLeft, BitVec.getLsbD_one]
          simp only [Bool.and_eq_false_iff, Bool.not_eq_false', decide_eq_true_eq, decide_eq_false_iff_not]
          omega
        split
        · simp [hbit, hwk]
        · simp [hwk]
    rw [maskOf, List.foldl_cons, ← maskOf, ih, hstep]
    by_cases hwk : w = k
    · subst hwk
      cases bad w <;> simp
    · simp [hwk]

/-- The words of Table 19.5 whose digests differ. -/
def diffOf (ds : List Nat) (s : State) : BitVec 7 := maskOf (fun w => ds.getD w 0 != (ownDigests s).getD w 0) (List.range 7) 0#7

theorem getLsbD_diffOf (ds : List Nat) (s : State) {w : Nat} (hw : w < 7) :
    (diffOf ds s).getLsbD w = true ↔ ds.getD w 0 ≠ (ownDigests s).getD w 0 := by
  rw [diffOf, getLsbD_maskOf _ _ _ hw]
  simp only [BitVec.getLsbD_zero, Bool.false_or, Bool.and_eq_true, decide_eq_true_eq, List.mem_range, bne_iff_ne]
  exact and_iff_right hw

/-- The words that differ now and did not before. -/
def newDiffs (ds : List Nat) (s : State) : List Nat := (List.range 7).filter fun w => (diffOf ds s).getLsbD w && !s.xlk.diff.getLsbD w

/-- The bits of DIFF, and the contexts that a dummy is then unfit for. -/
def diffNoted (ds : List Nat) (s : State) : State :=
  s.modXlk fun x => { x with diff := diffOf ds s, unfit := if s.dummy ∧ diffOf ds s ≠ 0 then x.unfit ||| heldMask s else x.unfit }

/-- PAIR_DIFF once per new word. -/
def diffAlarms (l : List Nat) (s : State) : State := l.foldl (fun s w => alarm .pairDiff w s) s

/-- Where the calibration stores differ anew, the dummy's makes way for the records that the lead sends. -/
def calShared (l : List Nat) (s : State) : State :=
  if !l.contains 2 then s
  else if s.dummy then { s with calStore := [] }
  else s.calStore.foldl (fun s r => mirror (.cal r) s) s

theorem pairing_diffAlarms (l : List Nat) (s : State) : (diffAlarms l s).pairing = s.pairing :=
  foldl_leaves (g := State.pairing) (fun _ _ => pairing_alarm ..) l s

theorem sansReports_diffAlarms (l : List Nat) (s : State) : (diffAlarms l s).sansReports = s.sansReports :=
  sansReports_foldl (fun _ _ => sansReports_alarm ..) l s

theorem bitOf_diffAlarms {l : List Nat} {w : Nat} (h : w ∈ l) (s : State) : bitOf (diffAlarms l s) Reg.evtAlarmLatch 0 30 = true :=
  foldl_settles (P := fun _ s => bitOf s Reg.evtAlarmLatch 0 30 = true) (fun w s => alarm_bitOf .pairDiff w s)
    (fun _ w s hbit => latchKept_alarmArgs .pairDiff w 0 0 0 s 0 (by decide) 30 hbit) l s w h

theorem pairing_calShared (l : List Nat) (s : State) : (calShared l s).pairing = s.pairing := by
  unfold calShared
  split_ifs
  · rfl
  · rfl
  · exact foldl_leaves (g := State.pairing) (fun s r => pairing_mirror ..) _ s

theorem latchKept_mirror (f : MirrorFrame) (s : State) : LatchKept s (mirror f s) := by
  unfold mirror
  split
  · exact (wordKept_of_words plainWord_xlkFailovers (words_of_reported (reported_sendXlk ..))).latch
  · exact .refl s

theorem latchKept_foldl {α : Type} {f : State → α → State} (h : ∀ s x, LatchKept s (f s x)) (l : List α) (s : State) :
    LatchKept s (l.foldl f s) := by
  induction l generalizing s with
  | nil => exact .refl s
  | cons x l ih => exact (h s x).trans (ih _)

theorem latchKept_calShared (l : List Nat) (s : State) : LatchKept s (calShared l s) := by
  unfold calShared
  split_ifs
  · exact .refl s
  · exact .of_regs rfl
  · exact latchKept_foldl (fun s r => latchKept_mirror (.cal r) s) _ s

theorem keepsPress_calShared (l : List Nat) (s : State) : KeepsPress s (calShared l s) := by
  unfold calShared
  split_ifs
  · exact .refl s
  · exact ⟨⟨rfl, rfl, rfl, rfl, rfl, rfl, rfl, rfl, rfl, rfl⟩, rfl, rfl, rfl, rfl⟩
  · exact keepsPress_foldl (fun s r => keepsPress_of_sansReports (sansReports_mirror ..)) _ s

theorem calStore_calShared (l : List Nat) {s : State} (h : s.dummy = false) : (calShared l s).calStore = s.calStore := by
  unfold calShared
  rw [h]
  split_ifs
  · rfl
  · next hf => exact absurd hf (by decide)
  · exact foldl_leaves (g := State.calStore) (fun s r =>
      eq_of_sansReports (sansReports_mirror (.cal r) s) (g := State.calStore) fun _ => rfl) _ s

section
variable {s : State} (hr : s.ringsRun = true) {t : Nat}
include hr

theorem exec_compareFrame (h : paired s = true) (ds : List Nat) : exec (.compareFrame t ds) s = .next (after t s fun s =>
    calShared (newDiffs ds s) (diffAlarms (newDiffs ds s) (diffNoted ds s))) := by
  refine (ringCmd_eq_after hr ?_ : execCompareFrame t ds s = _)
  refine if_neg ?_
  rw [show paired (s.arrive t) = true from h]
  decide

theorem leaves_compareFrame (h : paired s = true) (ds : List Nat) : Leaves (.compareFrame t ds) s fun s' => (∀ w, w < 7 →
      (s'.xlk.diff.getLsbD w = true ↔ ds.getD w 0 ≠ (ownDigests (s.arrive t)).getD w 0)) ∧
    (∀ w, w < 7 → ds.getD w 0 ≠ (ownDigests (s.arrive t)).getD w 0 → s.xlk.diff.getLsbD w = false →
      bitOf s' Reg.evtAlarmLatch 0 30 = true) ∧
    (s.dummy = true → s'.xlk.diff ≠ 0 → s'.xlk.unfit = s.xlk.unfit ||| heldMask s) ∧
    (s.dummy = false → s'.xlk.unfit = s.xlk.unfit ∧ s'.calStore = s.calStore) ∧ s'.xlk.role = s.xlk.role ∧ SamePrint s s' ∧
    SameMotion s s' := by
  refine leaves_of_effect (exec_compareFrame hr h ds) fun y hy => ?_
  obtain ⟨z, hz⟩ : ∃ z, z = diffAlarms (newDiffs ds (s.arrive t)) (diffNoted ds (s.arrive t)) := ⟨_, rfl⟩
  rw [← hz] at hy
  have hnoted : z.pairing = (diffNoted ds (s.arrive t)).pairing := by rw [hz, pairing_diffAlarms]
  have hreports : z.sansReports = (diffNoted ds (s.arrive t)).sansReports := by rw [hz, sansReports_diffAlarms]
  have hview : y.pairing = (diffNoted ds (s.arrive t)).pairing := by rw [hy, pairing_calShared, hnoted]
  have hdiff : y.xlk.diff = diffOf ds (s.arrive t) := diff_of_pairing hview
  have hunfit : y.xlk.unfit = if s.dummy ∧ diffOf ds (s.arrive t) ≠ 0 then s.xlk.unfit ||| heldMask s else s.xlk.unfit :=
    unfit_of_pairing hview
  have hkeeps : KeepsPress (s.arrive t) y := by
    rw [hy]
    have hstart : z.sansReports = (s.arrive t).sansReports := hreports.trans rfl
    exact (keepsPress_of_sansReports hstart).trans (keepsPress_calShared ..)
  refine ⟨fun w hw => ?_, fun w hw hne hold => ?_, fun hd hne => ?_, fun hno => ⟨?_, ?_⟩, (role_of_pairing hview :), hkeeps.print,
    hkeeps.motion⟩
  · rw [← getLsbD_diffOf ds (s.arrive t) hw, ← hdiff]
    rfl
  · have hnew : w ∈ newDiffs ds (s.arrive t) := by
      refine List.mem_filter.mpr ⟨List.mem_range.mpr hw, ?_⟩
      rw [(getLsbD_diffOf ds (s.arrive t) hw).mpr hne, show (s.arrive t).xlk.diff.getLsbD w = false from hold]
      rfl
    have hlatched : bitOf z Reg.evtAlarmLatch 0 30 = true := by
      rw [hz]
      exact bitOf_diffAlarms hnew _
    rw [hy]
    exact latchKept_calShared _ z 0 (by decide) 30 hlatched
  · exact hunfit.trans (if_pos ⟨hd, fun hzero => hne (hdiff.trans hzero)⟩)
  · exact hunfit.trans (if_neg fun hyes => Bool.false_ne_true (hno.symm.trans hyes.1))
  · have hrole : z.dummy = false := (congrArg (· == Role.dummy) (role_of_pairing hnoted)).trans hno
    rw [show (after t s fun _ => y).calStore = y.calStore from rfl, hy, calStore_calShared _ hrole]
    exact eq_of_sansReports hreports (g := State.calStore) fun _ => rfl

/-! ## MIRROR -/

theorem exec_mirrorFrame_idle (hdummy : s.dummy = false) (hswap : s.xlk.swap = none) (fr : MirrorFrame) :
    exec (.mirrorFrame t fr) s = .next (after t s id) := by
  refine (ringCmd_eq_after hr ?_ : execMirrorFrame t fr s = _)
  refine if_pos ⟨?_, ?_⟩
  · rw [show (s.arrive t).dummy = false from hdummy]
    rfl
  · rw [show (s.arrive t).xlk.swap = none from hswap]
    rfl

section
variable (hdummy : s.dummy = true)
include hdummy

omit hr in
theorem mirrorFrame_served : ¬((!(s.arrive t).dummy) = true ∧ (s.arrive t).xlk.swap.isNone = true) := by
  rw [show (s.arrive t).dummy = true from hdummy]
  exact fun h => Bool.false_ne_true h.1

theorem leaves_mirrorFrame_axes (ax : List AxisMirror) : Leaves (.mirrorFrame t (.axes ax)) s fun s' =>
    (∀ y ∈ ax, y ∈ s'.xlk.mirror.axes) ∧ s'.regs = s.regs ∧ SamePrint s s' ∧ SameMotion s s' := by
  have hexec : exec (.mirrorFrame t (.axes ax)) s = .next (after t s (mirrorAxesOf ax)) :=
    (ringCmd_eq_after hr (if_neg (mirrorFrame_served hdummy)) : execMirrorFrame t (.axes ax) s = _)
  refine leaves_of_effect hexec fun y hy => ?_
  subst hy
  exact ⟨fun a ha => List.mem_append_right _ ha, (SameBesideTime.refl s :)⟩

theorem leaves_mirrorFrame_cal (r : CalRecord) : Leaves (.mirrorFrame t (.cal r)) s fun s' => r ∈ s'.calStore ∧
    (∀ q ∈ s'.calStore, q.kind = r.kind → q.index = r.index → q = r) ∧ SameMotion s s' := by
  have hexec : exec (.mirrorFrame t (.cal r)) s = .next (after t s (mirrorCal r)) :=
    (ringCmd_eq_after hr (if_neg (mirrorFrame_served hdummy)) : execMirrorFrame t (.cal r) s = _)
  have happly : ∀ x : State, (calApply r x).calStore = x.calStore ∧ SameMotion x (calApply r x) := by
    intro x
    unfold calApply
    extract_lets v
    split
    · exact ⟨rfl, rfl, rfl, rfl, rfl⟩
    · exact ⟨rfl, rfl, rfl, rfl, rfl⟩
    · exact ⟨rfl, rfl, rfl, rfl, rfl⟩
  refine leaves_of_effect hexec fun y hy => ?_
  obtain ⟨hstore, hmotion⟩ := happly { (s.arrive t) with
    calStore := ((s.arrive t).calStore.filter fun q => !(q.kind == r.kind && q.index == r.index)) ++ [r] }
  rw [show y = calApply r _ from hy]
  refine ⟨?_, fun q hq hkind hindex => ?_, (hmotion :)⟩
  · exact hstore ▸ List.mem_append_right _ (List.mem_singleton.mpr rfl)
  · have hmem := List.mem_append.mp (hstore ▸ (show q ∈ (calApply r _).calStore from hq))
    obtain hold | hnew := hmem
    · have hother := (List.mem_filter.mp hold).2
      rw [hkind, hindex, beq_self_eq_true, beq_self_eq_true] at hother
      exact absurd hother (by decide)
    · exact List.mem_singleton.mp hnew

/-! ## Swaps -/

theorem leaves_swapFrame_offer (hswap : s.xlk.swap = none) (x : Int) (epoch : Nat) : Leaves (.swapFrame t x epoch .offer) s fun s' =>
    s'.xlk.role = .lead ∧ s'.mlk.holds = true ∧ s'.mlk.epoch = epoch := by
  have hexec : ∃ f : State → State, exec (.swapFrame t x epoch .offer) s = .next (after t s fun s => takeLead epoch (f s)) := by
    refine ⟨fun s => sendXlk s.peerAddr (.swap x epoch .accept) (s.modXlk fun y =>
      { y with swap := some { x := x, mine := false, accepted := true, byCommand := false, epoch := epoch } }), ?_⟩
    refine (ringCmd_eq_after hr ?_ : execSwapFrame t x epoch .offer s = _)
    rw [show (s.arrive t).xlk.swap = none from hswap]
    exact if_pos hdummy
  obtain ⟨f, hexec⟩ := hexec
  refine leaves_of_effect hexec fun y hy => ?_
  have hlead := pairing_takeLead epoch (f (s.arrive t))
  rw [← hy] at hlead
  exact hlead

end

theorem exec_swapFrame_lead (hrole : s.xlk.role = .lead) (hswap : s.xlk.swap = none) (x : Int) (epoch : Nat) (step : SwapStep) :
    exec (.swapFrame t x epoch step) s = .next (after t s id) := by
  refine (ringCmd_eq_after hr ?_ : execSwapFrame t x epoch step s = _)
  rw [show (s.arrive t).xlk.swap = none from hswap]
  cases step with
  | offer =>
    refine if_neg ?_
    rw [show (s.arrive t).dummy = (Role.lead == Role.dummy) from congrArg (· == Role.dummy) hrole]
    decide
  | accept => rfl
  | done => rfl

/-! ## Loss of the other member -/

/-- A member whose other is silent forgets what it heard, and abandons a swap. -/
def peerForgotten (s : State) : State := s.modXlk fun x => { x with lastHb := none, equalSince := none, swap := none }

theorem exec_heartbeatLoss_idle (h : s.xlk.lastHb = none ∨ peerAlive (s.arrive t) = true) :
    exec (.heartbeatLoss t) s = .next (after t s id) := by
  refine (ringCmd_eq_after hr ?_ : execHeartbeatLoss t s = _)
  refine if_pos (h.imp (fun h => ?_) id)
  rw [show (s.arrive t).xlk.lastHb = none from h]
  rfl

section
variable (hheard : s.xlk.lastHb.isSome = true) (hsilent : peerAlive (s.arrive t) = false)
include hheard hsilent

omit hr in
theorem heartbeatLoss_due : ¬((s.arrive t).xlk.lastHb.isNone = true ∨ peerAlive (s.arrive t) = true) := by
  rintro (h | h)
  · exact absurd (Option.isNone_iff_eq_none.mp h) (Option.isSome_iff_ne_none.mp hheard)
  · exact Bool.false_ne_true (hsilent.symm.trans h)

theorem leaves_heartbeatLoss_lead (hrole : s.xlk.role = .lead) : Leaves (.heartbeatLoss t) s fun s' =>
    s'.xlk.role = .soloLead ∧ s'.xlk.swap = none ∧ bitOf s' Reg.evtAlarmLatch 1 2 = true ∧ SamePrint s s' ∧ SameMotion s s' := by
  have hexec : exec (.heartbeatLoss t) s = .next (after t s fun s => alarm .pairPeerLost noInst ((peerForgotten s).modXlk fun x =>
      { x with role := .soloLead })) := by
    refine (ringCmd_eq_after hr ?_ : execHeartbeatLoss t s = _)
    refine (if_neg (heartbeatLoss_due hheard hsilent)).trans ?_
    extract_lets z
    rw [show z.xlk.role = .lead from hrole]
    rfl
  refine leaves_of_effect hexec fun y hy => ?_
  have hxlk := alarm_xlk .pairPeerLost noInst ((peerForgotten (s.arrive t)).modXlk fun x => { x with role := .soloLead })
  have hbit := alarm_bitOf .pairPeerLost noInst ((peerForgotten (s.arrive t)).modXlk fun x => { x with role := .soloLead })
  have hkeeps := keepsPress_of_sansReports (sansReports_alarm .pairPeerLost noInst ((peerForgotten (s.arrive t)).modXlk fun x =>
    { x with role := .soloLead }))
  rw [← hy] at hxlk hbit hkeeps
  exact ⟨(congrArg Xlk.role hxlk :), (congrArg Xlk.swap hxlk :), hbit, (hkeeps.print :), (hkeeps.motion :)⟩

theorem leaves_heartbeatLoss_dummy (hdummy : s.dummy = true) (hjobs : s.anyActive = false) (hdiff : s.xlk.diff = 0) :
    Leaves (.heartbeatLoss t) s fun s' => s'.xlk.role = .lead ∧ s'.mlk.holds = true ∧ s'.mlk.epoch = nextEpoch s.xlk.peerEpoch ∧
      bitOf s' Reg.evtAlarmLatch 1 0 = true ∧
      (s'.rd Reg.xlkFailovers).toNat = min ((s.rd Reg.xlkFailovers).toNat + 1) 0xFFFFFFFF := by
  have hexec : exec (.heartbeatLoss t) s = .next (after t s fun s => failOver (peerForgotten s)) := by
    refine (ringCmd_eq_after hr ?_ : execHeartbeatLoss t s = _)
    refine (if_neg (heartbeatLoss_due hheard hsilent)).trans ?_
    extract_lets z
    rw [show z.xlk.role = .dummy from eq_of_beq hdummy]
    exact leadLost_of_idle (s := peerForgotten (s.arrive t)) hjobs hdiff
  refine leaves_of_effect hexec fun y hy => ?_
  have hleaves := failOver_leaves (peerForgotten (s.arrive t))
  rw [← hy] at hleaves
  exact hleaves

end

/-! ## A takeover that is refused -/

theorem leaves_takeoverRefusedAbandon {d : Nat} (hfail : s.xlk.failingOver = true) (hsince : s.xlk.refusedSince = some d)
    (hdue : d + 512000 ≤ max s.now t) : Leaves (.takeoverRefusedAbandon t) s fun s' => s'.xlk.role = .dummy ∧
      s'.xlk.failingOver = false ∧ s'.mlk.holds = false ∧ (∀ n, (s'.ba[(n : Fin 8)]).en = false) ∧
      (∀ n, (s'.stp[(n : Fin 16)]).en = false) ∧ bitOf s' Reg.evtAlarmLatch 1 1 = true := by
  have hexec : ∃ f : State → State, (∀ x, (f x).xlk.role = .dummy ∧ (f x).xlk.failingOver = false ∧ (f x).mlk.holds = false) ∧
      exec (.takeoverRefusedAbandon t) s = .next (after t s fun s => alarm .pairSplit noInst (holdCause 4 (parkAxes (f s)))) := by
    refine ⟨fun s => (s.modXlk fun x => { x with role := .dummy, failingOver := false, refusedSince := none }).modMlk fun m =>
      { m with holds := false, eps := m.eps.map fun e => { e with takeoverAt := none } }, fun x => ⟨rfl, rfl, rfl⟩, ?_⟩
    refine (ringCmd_eq_after hr ?_ : execTakeoverRefusedAbandon t s = _)
    refine if_pos ⟨hfail, ?_⟩
    rw [show (s.arrive t).xlk.refusedSince = some d from hsince, Option.any_some]
    exact decide_eq_true hdue
  obtain ⟨f, hf, hexec⟩ := hexec
  refine leaves_of_effect hexec fun y hy => ?_
  obtain ⟨hrole, hdone, hholds⟩ := hf (s.arrive t)
  have hview : y.pairing = (parkAxes (f (s.arrive t))).pairing := by rw [hy, pairing_alarm, pairing_holdCause]
  obtain ⟨hbaOff, hstpOff⟩ := axesOff_parkAxes (f (s.arrive t))
  have hmotion : SameMotion (holdCause 4 (parkAxes (f (s.arrive t)))) y := by
    rw [hy]
    exact sameMotion_of_sansReports (sansReports_alarm ..)
  have hheld : AxesOff (holdCause 4 (parkAxes (f (s.arrive t)))) :=
    ⟨fun n => (congrArg Ba.en (axisKept_holdCause (hbaOff n) 4).1).trans (hbaOff n),
      fun n => (congrArg Stp.en (stpKept_holdCause (hstpOff n) 4).1).trans (hstpOff n)⟩
  obtain ⟨hba, hstp⟩ := hheld.of_sameMotion hmotion
  have hbit := alarm_bitOf .pairSplit noInst (holdCause 4 (parkAxes (f (s.arrive t))))
  rw [← hy] at hbit
  exact ⟨(role_of_pairing hview).trans hrole, (failingOver_of_pairing hview).trans hdone, (holds_of_pairing hview).trans hholds,
    hba, hstp, hbit⟩

theorem exec_takeoverRefusedAbandon_idle (h : s.xlk.failingOver = false ∨ s.xlk.refusedSince = none) :
    exec (.takeoverRefusedAbandon t) s = .next (after t s id) := by
  refine (ringCmd_eq_after hr ?_ : execTakeoverRefusedAbandon t s = _)
  refine if_neg ?_
  rintro ⟨hfail, hsince⟩
  obtain h | h := h
  · exact Bool.false_ne_true (h.symm.trans hfail)
  · rw [show (s.arrive t).xlk.refusedSince = none from h] at hsince
    exact Bool.false_ne_true hsince

/-! ## LEAD_REQ -/

/-- A new level of LEAD_REQ is noted. -/
def levelNoted (high : Bool) (s : State) : State :=
  noteLevels ({ s with lsi := { s.lsi with leadPin := high } }.modXlk fun x => { x with reqLocal := high })

theorem exec_leadReqEdge_short {high : Bool} {ns : Nat} (h : ns < 100000) : exec (.leadReqEdge t high ns) s = .next (after t s id) :=
  (ringCmd_eq_after hr (if_pos h) : execLeadReqEdge t high ns s = _)

theorem leaves_leadReqEdge {high : Bool} {ns : Nat} (h : 100000 ≤ ns) : Leaves (.leadReqEdge t high ns) s fun s' =>
    s'.xlk.reqLocal = high ∧ s'.lsi.leadPin = high ∧ s'.xlk.role = s.xlk.role ∧ s'.mlk = s.mlk ∧
      (high = true → s.xlk.reqLocal = false → s.dummy = true → s.xlk.reqPeer = false → s.xlk.swap = none →
        peerAlive (s.arrive t) = true → s.fld Reg.xlkPairCfg 0 1 1 = 0 → s'.fld Reg.xlkPairStatus 0 8 8 = 1) ∧
      SamePrint s s' ∧ SameMotion s s' := by
  have hexec : exec (.leadReqEdge t high ns) s = .next (after t s fun s =>
      if (high && !s.xlk.reqLocal) ∧ (levelNoted high s).dummy ∧ !(levelNoted high s).xlk.reqPeer ∧
          (levelNoted high s).xlk.swap.isNone ∧ peerAlive (levelNoted high s) ∧ (levelNoted high s).fld Reg.xlkPairCfg 0 1 1 = 0 then
        (levelNoted high s).setFld Reg.xlkPairStatus 0 8 8 1
      else levelNoted high s) :=
    (ringCmd_eq_after hr (if_neg (Nat.not_lt.mpr h)) : execLeadReqEdge t high ns s = _)
  have hkept := (SameBesideTime.refl s).2
  refine leaves_of_effect hexec fun y hy => ?_
  split at hy
  · subst hy
    exact ⟨rfl, rfl, rfl, rfl, fun _ _ _ _ _ _ _ => (bitsOf_eq_one_iff _ 8).mpr (bitOf_setFld_one (by decide) (by decide) 0 _), hkept⟩
  · next hno =>
    subst hy
    refine ⟨rfl, rfl, rfl, rfl, fun hhigh hlow hdummy hpeer hswap halive hcfg => absurd ?_ hno, hkept⟩
    refine ⟨?_, hdummy, ?_, ?_, halive, hcfg⟩
    · rw [hhigh, show (s.arrive t).xlk.reqLocal = false from hlow]
      rfl
    · rw [show (levelNoted high (s.arrive t)).xlk.reqPeer = false from hpeer]
      rfl
    · rw [show (levelNoted high (s.arrive t)).xlk.swap = none from hswap]
      rfl

theorem leaves_leadReqConflict {d : Nat} (h : paired s = true) (halive : peerAlive (s.arrive t) = true)
    (hsince : s.xlk.equalSince = some d) (hdue : d + 8000000 ≤ max s.now t) : Leaves (.leadReqConflict t) s fun s' =>
      s'.xlk.role = .conflict ∧
        (s.modeIn [.service, .print] = true → s'.dev.holdCause.getLsbD 4 = true ∧ s'.dev.hold = true) := by
  have hexec : exec (.leadReqConflict t) s = .next (after t s pairConflict) := by
    refine (ringCmd_eq_after hr ?_ : execLeadReqConflict t s = _)
    refine if_pos ⟨h, halive, ?_⟩
    rw [show (s.arrive t).xlk.equalSince = some d from hsince, Option.any_some]
    exact decide_eq_true hdue
  refine leaves_of_effect hexec fun y hy => ?_
  have hview : y.pairing = ((s.arrive t).modXlk fun x => { x with role := .conflict }).pairing := by
    rw [hy]
    exact pairing_holdCause ..
  refine ⟨role_of_pairing hview, fun hmode => ?_⟩
  obtain ⟨hhold, hcause⟩ := holdCause_holds (s := (s.arrive t).modXlk fun x => { x with role := .conflict }) hmode 4
  rw [← show y = holdCause 4 ((s.arrive t).modXlk fun x => { x with role := .conflict }) from hy] at hhold hcause
  refine ⟨?_, hhold⟩
  rw [show (after t s fun _ => y).dev = y.dev from rfl, hcause, BitVec.getLsbD_or, getLsbD_shifted (by decide), Bool.or_true]

theorem exec_leadReqConflict_idle (h : paired s = false ∨ s.xlk.equalSince = none) :
    exec (.leadReqConflict t) s = .next (after t s id) := by
  refine (ringCmd_eq_after hr ?_ : execLeadReqConflict t s = _)
  refine if_neg ?_
  rintro ⟨hpaired, -, hsince⟩
  obtain h | h := h
  · exact Bool.false_ne_true (h.symm.trans hpaired)
  · rw [show (s.arrive t).xlk.equalSince = none from h] at hsince
    exact Bool.false_ne_true hsince

/-! ## PAIR_ROLE -/

theorem refuses_pairRole {st : Status} (hst : st ≠ .ok) :
    (firstRefusal (pairRoleConds s true) = st → Refuses (.pairRoleSwap t) t s st) ∧
      (firstRefusal (pairRoleConds s false) = st → Refuses (.pairRoleRecompare t) t s st) := by
  refine ⟨fun h => ?_, fun h => ?_⟩
  · exact (ringCmd_eq_after hr (admitCmd_refused _ _ _ (show firstRefusal (pairRoleConds (s.arrive t) true) = st from h) hst) :
      execPairRoleSwap t s = _)
  · exact (ringCmd_eq_after hr (admitCmd_refused _ _ _ (show firstRefusal (pairRoleConds (s.arrive t) false) = st from h) hst) :
      execPairRoleRecompare t s = _)

theorem refuses_pairRole_badMode (h : s.modeIn [.standby, .service, .print] = false) :
    Refuses (.pairRoleSwap t) t s .badMode ∧ Refuses (.pairRoleRecompare t) t s .badMode := by
  have hmode : (!s.modeIn [.standby, .service, .print]) = true := by rw [h]; rfl
  obtain ⟨hswap, hcompare⟩ := refuses_pairRole (t := t) hr (st := .badMode) (by decide)
  exact ⟨hswap (firstRefusal_cons_of_true hmode ..), hcompare (firstRefusal_cons_of_true hmode ..)⟩

section
variable (hmode : s.modeIn [.standby, .service, .print] = true)
include hmode

theorem refuses_pairRole_badState (h : s.xlk.role ≠ .lead) :
    Refuses (.pairRoleSwap t) t s .badState ∧ Refuses (.pairRoleRecompare t) t s .badState := by
  have hserved : (!s.modeIn [.standby, .service, .print]) = false := by rw [hmode]; rfl
  have hrole : ∀ b : Bool, (s.xlk.role != .lead || b) = true := fun b => by rw [bne_iff_ne.mpr h, Bool.true_or]
  obtain ⟨hswap, hcompare⟩ := refuses_pairRole (t := t) hr (st := .badState) (by decide)
  exact ⟨hswap ((firstRefusal_cons_of_false hserved ..).trans (firstRefusal_cons_of_true (hrole _) ..)),
    hcompare ((firstRefusal_cons_of_false hserved ..).trans (firstRefusal_cons_of_true (hrole _) ..))⟩

theorem refuses_pairRoleSwap (h : swapRefused s = true) : Refuses (.pairRoleSwap t) t s .badState := by
  obtain ⟨hswap, -⟩ := refuses_pairRole (t := t) hr (st := .badState) (by decide)
  refine hswap ((firstRefusal_cons_of_false ?_ ..).trans (firstRefusal_cons_of_true ?_ ..))
  · rw [hmode]
    rfl
  · rw [h, Bool.and_self, Bool.or_true]

omit hr hmode in
/-- A planned swap is offered to the other member, and the hubs are told to relinquish. -/
theorem startSwap_leaves (byCommand : Bool) (s : State) : ∃ w : Swap, w.mine = true ∧ w.accepted = false ∧
    w.byCommand = byCommand ∧ w.epoch = nextEpoch s.mlk.epoch ∧
    (startSwap byCommand s).pairing = (s.modXlk fun y => { y with swap := some w }).pairing ∧
    (startSwap byCommand s).sansReports = s.sansReports := by
  obtain ⟨r, hr⟩ : ∃ r, startSwap byCommand s = r := ⟨_, rfl⟩
  rw [hr]
  unfold startSwap at hr
  extract_lets x e y at hr
  have hpair : y.pairing = (s.modXlk fun y => { y with swap := some ⟨x, true, false, byCommand, e⟩ }).pairing := pairing_sendXlk ..
  have hreports : y.sansReports = s.sansReports := sansReports_sendXlk ..
  refine ⟨⟨x, true, false, byCommand, e⟩, rfl, rfl, rfl, rfl, ?_⟩
  clear_value y
  rw [← hr]
  split
  · exact ⟨(foldl_leaves (g := State.pairing) (fun s h => by rfl) _ y).trans hpair,
      (sansReports_foldl (fun s h => by rfl) _ y).trans hreports⟩
  · exact ⟨hpair, hreports⟩

section
variable (hrole : s.xlk.role = .lead)
include hrole

theorem leaves_pairRoleSwap (h : swapRefused s = false) : Leaves (.pairRoleSwap t) s fun s' => ∃ w, s'.xlk.swap = some w ∧
    w.mine = true ∧ w.accepted = false ∧ w.byCommand = true ∧ w.epoch = nextEpoch s.mlk.epoch ∧ s'.xlk.role = .lead ∧
    s'.supRing = s.supRing ∧ SamePrint s s' ∧ SameMotion s s' := by
  have hconds : firstRefusal (pairRoleConds (s.arrive t) true) = .ok := by
    refine (firstRefusal_cons_of_false ?_ ..).trans (firstRefusal_cons_of_false ?_ ..)
    · rw [show (s.arrive t).modeIn [.standby, .service, .print] = true from hmode]
      rfl
    · rw [show (s.arrive t).xlk.role = .lead from hrole, show swapRefused (s.arrive t) = false from h]
      rfl
  have hexec : exec (.pairRoleSwap t) s = .next (after t s (startSwap true)) :=
    (ringCmd_eq_after hr (admitCmd_ok _ _ _ hconds) : execPairRoleSwap t s = _)
  refine leaves_of_effect hexec fun y hy => ?_
  obtain ⟨w, hmine, hacc, hcmd, hepoch, hview, hreports⟩ := startSwap_leaves true (s.arrive t)
  rw [← hy] at hview hreports
  have hkeeps := keepsPress_of_sansReports hreports
  have hring : y.supRing = s.supRing := eq_of_sansReports hreports (g := State.supRing) fun _ => rfl
  exact ⟨w, swap_of_pairing hview, hmine, hacc, hcmd, hepoch, (role_of_pairing hview).trans hrole, hring, (hkeeps.print :),
    (hkeeps.motion :)⟩

theorem leaves_pairRoleRecompare : Leaves (.pairRoleRecompare t) s fun s' => s'.supRing.running = none ∧ s'.xlk.role = .lead ∧
    s'.xlk.swap = s.xlk.swap ∧ SamePrint s s' ∧ SameMotion s s' := by
  have hconds : firstRefusal (pairRoleConds (s.arrive t) false) = .ok := by
    refine (firstRefusal_cons_of_false ?_ ..).trans (firstRefusal_cons_of_false ?_ ..)
    · rw [show (s.arrive t).modeIn [.standby, .service, .print] = true from hmode]
      rfl
    · rw [show (s.arrive t).xlk.role = .lead from hrole]
      rfl
  have hexec : exec (.pairRoleRecompare t) s = .next (after t s fun s => complete .supervisor .ok 0 (sendCompare s)) :=
    (ringCmd_eq_after hr (admitCmd_ok _ _ _ hconds) : execPairRoleRecompare t s = _)
  refine leaves_of_effect hexec fun y hy => ?_
  have hview : y.pairing = (s.arrive t).pairing := by
    rw [hy, pairing_complete]
    exact pairing_sendXlk ..
  have hkeeps : KeepsPress (s.arrive t) y := by
    rw [hy]
    exact (keepsPress_of_sansReports (sansReports_sendXlk ..)).trans (keepsPress_complete ..)
  have hrun : y.supRing.running = none := by
    rw [hy]
    exact complete_supRing_running ..
  exact ⟨hrun, (role_of_pairing hview).trans hrole, (swap_of_pairing hview :), (hkeeps.print :), (hkeeps.motion :)⟩

end

end

end

/-- Settles O46: what a hold, a settling and a takeover send leaves the pair's own block, so each role change stands at the end
of its command. -/
theorem pairs : Obligations.Pairs := by
  unfold Obligations.Pairs
  intro t hb ds x epoch highNs high step fr r ax s hr
  exact ⟨exec_pair_idle hr, leaves_heartbeatSend_member hr, fun h _ => leaves_heartbeatSend hr h,
    fun _ => exec_heartbeatFrame_other hr,
    fun h huid hrole hholds hpeer => ⟨leaves_heartbeatFrame_lead hr h huid hrole hholds hpeer,
      leaves_heartbeatFrame_dummy hr h huid hrole hholds hpeer, leaves_heartbeatFrame_forming hr h huid hrole hholds hpeer⟩,
    leaves_heartbeatFrame_conflict hr, fun h => leaves_compareFrame hr h ds, fun hd hs => exec_mirrorFrame_idle hr hd hs fr,
    fun hd => ⟨leaves_mirrorFrame_axes hr hd ax, leaves_mirrorFrame_cal hr hd r⟩,
    fun hl hs => exec_swapFrame_lead hr hl hs x epoch step, fun hd hs => leaves_swapFrame_offer hr hd hs x epoch,
    exec_heartbeatLoss_idle hr, leaves_heartbeatLoss_lead hr, leaves_heartbeatLoss_dummy hr,
    fun d => leaves_takeoverRefusedAbandon hr, exec_takeoverRefusedAbandon_idle hr, exec_leadReqEdge_short hr, leaves_leadReqEdge hr,
    fun d => leaves_leadReqConflict hr, exec_leadReqConflict_idle hr, refuses_pairRole_badMode hr, refuses_pairRole_badState hr,
    fun hmode _ => refuses_pairRoleSwap hr hmode, leaves_pairRoleSwap hr, leaves_pairRoleRecompare hr⟩

end Sys2Proof.Machine
end

section
/-! What a hold leaves of the blocks beside motion and jobs (R54), for any relation that its parts keep. -/
namespace Sys2Proof.Machine

open Sys2Proof.Claim

/-- A state without the blocks that a hold writes itself: the device, the axes, the head link, the jobs and the running
services. -/
def State.sansHeld (s : State) : State :=
  { s with dev := State.reset.dev, ba := State.reset.ba, stp := State.reset.stp, mlk := State.reset.mlk, out := [],
           cal := State.reset.cal, mem := { s.mem with march := none }, pac := State.reset.pac, jobs := State.reset.jobs }

/-- A relation that holds from a state to what each part of a hold leaves. -/
structure HoldClosed (R : State → State → Prop) : Prop where
  refl : ∀ s, R s s
  trans : ∀ {s s' s''}, R s s' → R s' s'' → R s s''
  outcomes : ∀ {ctx : Fin 64} {s s' : State}, s'.sansOutcomes ctx = s.sansOutcomes ctx → R s s'
  complete : ∀ id st r s, R s (complete id st r s)
  blocks : ∀ {s s' : State}, s'.sansHeld = s.sansHeld → R s s'
  withdrawn : ∀ ctx s, R s (withdrawn ctx s)

namespace HoldClosed
variable {R : State → State → Prop} (h : HoldClosed R)
include h

theorem foldl {α : Type} {f : State → α → State} (hf : ∀ s x, R s (f s x)) (l : List α) (s : State) : R s (l.foldl f s) := by
  induction l generalizing s with
  | nil => exact h.refl s
  | cons x l ih => exact h.trans (hf s x) (ih _)

theorem reports {s s' : State} (hr : s'.sansReports = s.sansReports) : R s s' := h.outcomes (sansOutcomes_of_sansReports hr 0)

/-! ## A hold -/

theorem sendHubRel (e : EndpointRec) (f : MlkTx) (s : State) : R s (sendHubRel e f s) := by
  unfold Machine.sendHubRel
  split
  · unfold pushRel
    extract_lets x
    split
    · exact h.blocks rfl
    · exact h.blocks rfl
  · exact h.refl s

theorem sendStops (s : State) : R s (sendStops s) := by
  unfold Machine.sendStops sendHubMode
  extract_lets tmo
  refine h.trans ?_ (h.foldl (fun s e => h.sendHubRel e (.hubmode false) s) _ _)
  exact h.foldl (fun s e => by exact h.blocks rfl) _ s

theorem abortJob (ctx : Fin 64) (s : State) : R s (abortJob ctx s) := by
  obtain ⟨x, y, wait, heq, hx, hy⟩ := abortJob_eq ctx s
  rw [heq]
  exact h.trans (h.outcomes hx) (h.trans (h.withdrawn ctx x) (h.trans (h.outcomes hy) (h.blocks rfl)))

theorem abortActive (s : State) : R s (abortActive s) := by
  unfold Machine.abortActive
  refine h.foldl (fun s c => ?_) _ s
  split
  · exact h.abortJob c s
  · exact h.refl s

theorem endService (s : State) : R s (endService s) := by
  unfold Machine.endService
  extract_lets cal x
  have hx : R s x := by
    simp only [x]
    split
    · refine h.trans ?_ (h.complete ..)
      exact h.blocks rfl
    · exact h.refl s
  clear_value x
  refine h.trans hx ?_
  split
  · split
    · refine h.trans ?_ (h.complete ..)
      exact h.blocks rfl
    · exact h.refl x
  · exact h.refl x

/-! ## Motion -/

theorem endHome (homing : Bool) (st : Status) (r : Nat) (s : State) : R s (endHome homing st r s) := by
  obtain heq | heq := endHome_cases homing st r s
  · rw [heq]
    exact h.refl s
  · rw [heq]
    exact h.complete ..

theorem loseLock (s : State) : R s (loseLock s) := by
  have hest : R s { s with pac := { s.pac with est := s.pac.est.restart } } := h.blocks rfl
  unfold Machine.loseLock when
  extract_lets y
  split
  · split
    · exact h.trans hest (h.reports (sansReports_alarm ..))
    · exact hest
  · exact hest

theorem stpStopNow (n : Fin 16) (s : State) : R s (stpStopNow n s) := by
  unfold Machine.stpStopNow when dropStepperLock
  extract_lets y homing moved z
  have hz : R s z := h.blocks rfl
  have hend := h.trans hz (h.endHome homing .aborted 0 z)
  split
  · split
    · exact h.trans hend (h.loseLock _)
    · exact hend
  · exact hend

theorem stpRampStop (n : Fin 16) (s : State) : R s (stpRampStop n s) := by
  unfold Machine.stpRampStop
  extract_lets y homing a
  exact h.trans (h.blocks rfl : R s (y.modStp n _)) (h.endHome ..)

theorem baStop (n : Fin 8) (brake : Bool) (s : State) : R s (baStop n brake s) :=
  h.trans (h.blocks rfl : R s (s.modBa n fun x => x.stop brake)) (h.endHome ..)

theorem motionFor (cls : Nat) (s : State) : R s (motionFor cls s) := by
  unfold Machine.motionFor
  split
  · exact h.refl s
  · extract_lets y
    have hy : R s y := h.foldl (fun s n => by
      split
      · exact h.baStop ..
      · exact h.refl s) _ s
    refine h.trans hy (h.foldl (fun s n => ?_) _ y)
    split_ifs
    · exact h.stpStopNow n s
    · exact h.stpRampStop n s
    · exact h.refl s

theorem enterHold (cls : Nat) (s : State) : R s (enterHold cls s) := by
  unfold Machine.enterHold
  extract_lets y
  have hy : R s y := h.blocks rfl
  exact h.trans hy (h.trans (h.sendStops y) (h.trans (h.abortActive _) (h.trans (h.endService _) (h.motionFor ..))))

theorem holdCause (bit : Nat) (s : State) : R s (holdCause bit s) := by
  unfold Machine.holdCause latchCause
  extract_lets y cls
  have hy : R s y := h.blocks rfl
  split
  · split
    · split
      · exact h.trans hy (h.trans (h.blocks rfl : R y (y.modDev fun d => { d with holdClass := cls })) (h.motionFor ..))
      · exact hy
    · exact h.trans hy (h.enterHold ..)
  · exact h.refl s

/-! ## A stop in STANDBY -/

theorem disableBa (s : State) (n : Fin 8) : R s (disableBa s n) := by
  unfold Machine.disableBa
  split
  · exact h.trans (h.baStop n true s) (h.blocks rfl)
  · exact h.refl s

theorem disableStp (s : State) (n : Fin 16) : R s (disableStp s n) := by
  unfold Machine.disableStp
  split
  · exact h.trans (h.stpStopNow n s) (h.blocks rfl)
  · exact h.refl s

theorem stopAndDisable (s : State) : R s (stopAndDisable s) := by
  rw [stopAndDisable_eq]
  exact h.trans (h.foldl h.disableBa _ s) (h.foldl h.disableStp _ _)

end HoldClosed

end Sys2Proof.Machine
end

section
/-! Power grants and the cluster plan (R306 to R312). -/
namespace Sys2Proof.Machine

open Sys2Proof.Claim

/-! ## One round of grants -/

/-- The sum of what the consumers of a list hold. -/
def granted (l : List Want) : Nat := (l.map (·.g)).sum

/-- Shares of a pool by weight stay within the pool. -/
theorem shares_le {α : Type} (pool w : Nat) (weight : α → Nat) (l : List α) (h : (l.map weight).sum ≤ w) :
    (l.map fun x => pool * weight x / w).sum ≤ pool := by
  obtain rfl | hw := Nat.eq_zero_or_pos w
  · simp
  have hsum : ∀ l : List α, (l.map fun x => pool * weight x / w).sum * w ≤ pool * (l.map weight).sum := by
    intro l
    induction l with
    | nil => simp
    | cons x l ih =>
      have hx := Nat.div_mul_le_self (pool * weight x) w
      simp only [List.map_cons, List.sum_cons, Nat.add_mul, Nat.mul_add]
      omega
  exact Nat.le_of_mul_le_mul_right ((hsum l).trans (Nat.mul_le_mul_left pool h)) hw

/-- The share that a round gives a consumer. -/
def shareOf (l : List Want) (pool : Nat) (x : Want) : Nat :=
  let w := ((l.filter fun x => decide (0 < x.rest)).map (·.w)).sum
  if x.rest = 0 ∨ w = 0 then 0 else min x.rest (pool * x.w / w)

theorem grantRound_eq (l : List Want) (pool : Nat) : grantRound l pool =
    (l.map fun x => { x with g := x.g + shareOf l pool x, rest := x.rest - shareOf l pool x }, pool - (l.map (shareOf l pool)).sum) :=
  rfl

theorem shareOf_le_rest (l : List Want) (pool : Nat) (x : Want) : shareOf l pool x ≤ x.rest := by
  unfold shareOf
  extract_lets w
  split
  · exact Nat.zero_le _
  · exact Nat.min_le_left ..

/-- A round gives no more than the pool holds. -/
theorem sum_shareOf_le (l : List Want) (pool : Nat) : (l.map (shareOf l pool)).sum ≤ pool := by
  obtain ⟨w, hw⟩ : ∃ w, w = ((l.filter fun x => decide (0 < x.rest)).map (·.w)).sum := ⟨_, rfl⟩
  have hshare : ∀ x, shareOf l pool x ≤ pool * (if 0 < x.rest then x.w else 0) / w := by
    intro x
    unfold shareOf
    extract_lets v
    split
    · exact Nat.zero_le _
    · next hno =>
      rw [not_or] at hno
      rw [if_pos (Nat.pos_of_ne_zero hno.1), hw]
      exact Nat.min_le_right ..
  have hweight : ∀ m : List Want, (m.map fun x => if 0 < x.rest then x.w else 0).sum =
      ((m.filter fun x => decide (0 < x.rest)).map (·.w)).sum := by
    intro m
    induction m with
    | nil => rfl
    | cons x m ih =>
      by_cases hx : 0 < x.rest
      · simp [hx, ih]
      · simp [hx, ih]
  calc (l.map (shareOf l pool)).sum ≤ (l.map fun x => pool * (if 0 < x.rest then x.w else 0) / w).sum :=
        List.sum_le_sum fun x _ => hshare x
    _ ≤ pool := shares_le pool w (fun x : Want => if 0 < x.rest then x.w else 0) l (by rw [hweight, hw])

theorem granted_grantRound (l : List Want) (pool : Nat) :
    granted (grantRound l pool).1 + (grantRound l pool).2 = granted l + pool := by
  have hgive : granted (grantRound l pool).1 = granted l + (l.map (shareOf l pool)).sum := by
    rw [grantRound_eq, granted, granted, List.map_map, ← List.sum_map_add]
    rfl
  have hpool := sum_shareOf_le l pool
  rw [hgive, grantRound_eq]
  omega

/-- Rounds give no more than the pool holds. -/
theorem granted_grantRounds (n : Nat) (l : List Want) (pool : Nat) : granted (grantRounds n l pool) ≤ granted l + pool := by
  induction n generalizing l pool with
  | zero => exact Nat.le_add_right ..
  | succ n ih =>
    unfold grantRounds
    split
    · exact Nat.le_add_right ..
    · exact (ih _ _).trans (Nat.le_of_eq (granted_grantRound l pool))

/-! ## What each consumer gets -/

/-- A consumer has no less than before, and no more than it wanted. -/
def Within (x y : Want) : Prop := x.g ≤ y.g ∧ y.g + y.rest = x.g + x.rest

theorem within_trans {l m n : List Want} (h : List.Forall₂ Within l m) (h' : List.Forall₂ Within m n) : List.Forall₂ Within l n := by
  induction h generalizing n with
  | nil => exact h'
  | cons hab _ ih =>
    cases h' with
    | cons hbc htail => exact .cons ⟨hab.1.trans hbc.1, hbc.2.trans hab.2⟩ (ih htail)

theorem within_grantRounds (n : Nat) (l : List Want) (pool : Nat) : List.Forall₂ Within l (grantRounds n l pool) := by
  induction n generalizing l pool with
  | zero => exact List.forall₂_same.mpr fun x _ => ⟨Nat.le_refl _, rfl⟩
  | succ n ih =>
    unfold grantRounds
    split
    · exact List.forall₂_same.mpr fun x _ => ⟨Nat.le_refl _, rfl⟩
    · have hround : List.Forall₂ Within l (grantRound l pool).1 := by
        rw [grantRound_eq]
        refine List.forall₂_map_right_iff.mpr (List.forall₂_same.mpr fun x _ => ⟨Nat.le_add_right .., ?_⟩)
        have hrest := shareOf_le_rest l pool x
        simp only []
        omega
      exact within_trans hround (ih _ _)

/-- The consumers as a round starts. -/
def wantsOf (dem ws : List Nat) : List Want :=
  (List.range 4).map fun i =>
    { g := (minGrants dem).getD i 0, rest := dem.getD i 0 - (minGrants dem).getD i 0, w := ws.getD i 0 }

theorem grants_eq (kt : Nat) (dem ws : List Nat) :
    grants kt dem ws = (grantRounds 4 (wantsOf dem ws) (kt - (minGrants dem).sum)).map (·.g) := rfl

/-- The four grants, each with its minimum grant and its demand. -/
theorem grants_cases (kt : Nat) (dem ws : List Nat) : ∃ a b c d, grants kt dem ws = [a, b, c, d] ∧
    (a + b + c + d ≤ max kt (minGrants dem).sum) ∧
    ((minGrants dem).getD 0 0 ≤ a ∧ a ≤ max (dem.getD 0 0) ((minGrants dem).getD 0 0)) ∧
    ((minGrants dem).getD 1 0 ≤ b ∧ b ≤ max (dem.getD 1 0) ((minGrants dem).getD 1 0)) ∧ c ≤ dem.getD 2 0 ∧ d ≤ dem.getD 3 0 := by
  have hwithin := within_grantRounds 4 (wantsOf dem ws) (kt - (minGrants dem).sum)
  have htotal := granted_grantRounds 4 (wantsOf dem ws) (kt - (minGrants dem).sum)
  rw [grants_eq]
  generalize grantRounds 4 (wantsOf dem ws) (kt - (minGrants dem).sum) = r at hwithin htotal
  simp only [wantsOf, List.range_succ, List.range_zero, List.nil_append, List.cons_append, List.map_cons, List.map_nil,
    List.forall₂_cons_left_iff, List.forall₂_nil_left_iff, Within] at hwithin
  obtain ⟨a, _, ⟨haLow, haSum⟩, ⟨b, _, ⟨hbLow, hbSum⟩, ⟨c, _, ⟨hcLow, hcSum⟩, ⟨d, _, ⟨hdLow, hdSum⟩, rfl, rfl⟩, rfl⟩, rfl⟩, rfl⟩ := hwithin
  have hmins : (minGrants dem).sum = (minGrants dem).getD 0 0 + (minGrants dem).getD 1 0 + (minGrants dem).getD 2 0 +
      (minGrants dem).getD 3 0 := by
    simp only [minGrants, List.sum_cons, List.sum_nil, List.getD_cons_zero, List.getD_cons_succ]
    omega
  have htwo : (minGrants dem).getD 2 0 = 0 := rfl
  have hthree : (minGrants dem).getD 3 0 = 0 := rfl
  refine ⟨a.g, b.g, c.g, d.g, rfl, ?_, ⟨haLow, by omega⟩, ⟨hbLow, by omega⟩, by omega, by omega⟩
  have hstart : granted (wantsOf dem ws) = (minGrants dem).sum := rfl
  rw [hstart] at htotal
  simp only [granted, List.map_cons, List.map_nil, List.sum_cons, List.sum_nil] at htotal
  omega

end Sys2Proof.Machine
end

section
/-! The estimate, the allocation of grants, and clusters that power on or change their operating point (R306 to R314). -/
namespace Sys2Proof.Machine

open Sys2Proof.Claim

/-! ## The cluster plan -/

theorem leastBy_mem {α : Type} {cost : α → Nat} {l : List α} {x : α} (h : leastBy cost l = some x) : x ∈ l := by
  induction l with
  | nil => exact nomatch h
  | cons y l ih =>
    unfold leastBy at h
    split at h
    · cases h
      exact List.mem_cons_self ..
    · next z hz =>
      split at h
      · cases h
        exact List.mem_cons_self ..
      · cases h
        exact List.mem_cons_of_mem _ (ih hz)

/-- The faster of two pairs, the first on a tie. -/
def fasterOf (b : Option (Nat × Nat)) (x : Nat × Nat) : Option (Nat × Nat) :=
  match b with
  | some y => if y.2 * opMhz y.1 < x.2 * opMhz x.1 then some x else some y
  | none => some x

/-- The fastest pair is one of the list. -/
theorem fastest_mem {l : List (Nat × Nat)} {b : Option (Nat × Nat)} {x : Nat × Nat} (h : l.foldl fasterOf b = some x) :
    b = some x ∨ x ∈ l := by
  induction l generalizing b with
  | nil => exact .inl h
  | cons y l ih =>
    rw [List.foldl_cons] at h
    obtain hb | hx := ih h
    · unfold fasterOf at hb
      split at hb
      · split at hb
        · cases hb
          exact .inr (List.mem_cons_self ..)
        · exact .inl hb
      · cases hb
        exact .inr (List.mem_cons_self ..)
    · exact .inr (List.mem_cons_of_mem _ hx)

theorem mem_planPairs {s : State} {cap : Nat → Nat} {x : Nat × Nat} (h : x ∈ planPairs s cap) : x.1 ≤ opMax s ∧ x.2 ≤ cap x.1 := by
  obtain ⟨op, hop, hx⟩ := List.mem_flatMap.mp h
  obtain ⟨n, hn, rfl⟩ := List.mem_map.mp hx
  exact ⟨Nat.le_of_lt_succ (List.mem_range.mp hop), List.mem_range.mp hn⟩

/-- How many clusters a grant pays for at an operating point. -/
def clusterCap (s : State) (g op : Nat) : Nat := min (availableCount s) (g / opMw op)

theorem clusterPlan_unknown {s : State} (h : s.cmp.demand = none) (g : Nat) :
    clusterPlan s g = (opDef s, clusterCap s g (opDef s)) := by
  unfold clusterPlan
  rw [h]
  rfl

/-- With the demand known the plan is the cheapest pair that reaches it, or else the fastest that is paid for. -/
theorem clusterPlan_known {s : State} {d : Nat × Nat} (h : s.cmp.demand = some d) (g : Nat) : clusterPlan s g =
    (leastBy (fun x => opMw x.1 * x.2)
      ((planPairs s (clusterCap s g)).filter fun x => reaches d (ratedCeiling s) (opMhz x.1) x.2)).getD
        (((planPairs s (clusterCap s g)).foldl fasterOf none).getD (0, 0)) := by
  unfold clusterPlan
  extract_lets cap pairs
  have hpairs : pairs = planPairs s (clusterCap s g) := rfl
  clear_value pairs
  rw [h, ← hpairs]
  simp only []
  split
  · next x hx => rw [hx]; rfl
  · next hnone => rw [hnone]; rfl

/-- The plan funds no more clusters than are available, and where the demand is known no more than the grant pays for. -/
theorem clusterPlan_leaves (s : State) (g : Nat) : (clusterPlan s g).2 ≤ availableCount s ∧ (s.cmp.demand ≠ none →
    (clusterPlan s g).1 ≤ opMax s ∧ opMw (clusterPlan s g).1 * (clusterPlan s g).2 ≤ g) := by
  have hpair : ∀ x ∈ planPairs s (clusterCap s g), x.2 ≤ availableCount s ∧ x.1 ≤ opMax s ∧ opMw x.1 * x.2 ≤ g := by
    intro x hx
    obtain ⟨hop, hcap⟩ := mem_planPairs hx
    have hpay := Nat.mul_le_mul_left (opMw x.1) (hcap.trans (Nat.min_le_right ..))
    exact ⟨hcap.trans (Nat.min_le_left ..), hop, hpay.trans (Nat.mul_div_le ..)⟩
  cases hd : s.cmp.demand with
  | none =>
    rw [clusterPlan_unknown hd]
    exact ⟨Nat.min_le_left .., fun hno => absurd rfl hno⟩
  | some d =>
    rw [clusterPlan_known hd]
    cases hleast : leastBy (fun x => opMw x.1 * x.2)
        ((planPairs s (clusterCap s g)).filter fun x => reaches d (ratedCeiling s) (opMhz x.1) x.2) with
    | some x =>
      obtain ⟨hcount, hplan⟩ := hpair x (List.mem_of_mem_filter (leastBy_mem hleast))
      exact ⟨hcount, fun _ => hplan⟩
    | none =>
      cases hfast : (planPairs s (clusterCap s g)).foldl fasterOf none with
      | none => exact ⟨Nat.zero_le _, fun _ => ⟨Nat.zero_le _, Nat.zero_le _⟩⟩
      | some x =>
        obtain hno | hx := fastest_mem hfast
        · exact nomatch hno
        · obtain ⟨hcount, hplan⟩ := hpair x hx
          exact ⟨hcount, fun _ => hplan⟩

/-! ## Funding -/

theorem modCluster_foldl_eq {f : State → Fin 16 → State} (hf : ∀ s n, ∃ cl, f s n = { s with clusters := cl }) (l : List (Fin 16))
    (s : State) : ∃ cl, l.foldl f s = { s with clusters := cl } := by
  induction l generalizing s with
  | nil => exact ⟨s.clusters, rfl⟩
  | cons n l ih =>
    obtain ⟨cl, h⟩ := hf s n
    obtain ⟨cl', h'⟩ := ih (f s n)
    exact ⟨cl', by rw [List.foldl_cons, h', h]⟩

/-- Funding writes the clusters, and what the power block says of them. -/
theorem fund_eq (s : State) : ∃ cl k hi, fund s = { s with clusters := cl, pwr := { s.pwr with kcomp := k, vcoreHi := hi } } := by
  unfold fund
  extract_lets funded
  obtain ⟨cl, h⟩ := modCluster_foldl_eq (f := fundCluster funded) (fun s n => ⟨_, rfl⟩) (List.finRange 16) s
  rw [h]
  exact ⟨cl, _, _, rfl⟩

section
variable {s : State} {t : Nat} {n : Fin 16}

/-! ## POWER_ESTIMATE -/

/-- The samples that an estimate keeps. -/
def samplesWith (sample : PowerSample) (s : State) : List (Nat × Nat × Nat) :=
  keep16 s.now ((s.now, sample.total, floorSample sample) :: s.pwr.samples)

theorem mem_samplesWith_self (sample : PowerSample) (s : State) :
    (s.now, sample.total, floorSample sample) ∈ samplesWith sample s :=
  List.mem_filter.mpr ⟨List.mem_cons_self .., decide_eq_true (Nat.le_add_right ..)⟩

/-- The largest floor of a list of samples that is not empty. -/
theorem floor_of_samples {l : List (Nat × Nat × Nat)} {x : Nat × Nat × Nat} (hx : x ∈ l) :
    (∀ y ∈ l, y.2.2 ≤ ((l.map (·.2.2)).max?).getD 0) ∧ ∃ y ∈ l, y.2.2 = ((l.map (·.2.2)).max?).getD 0 := by
  obtain ⟨m, hm⟩ : ∃ m, (l.map (·.2.2)).max? = some m := by
    cases hl : (l.map (·.2.2)).max? with
    | some m => exact ⟨m, rfl⟩
    | none =>
      rw [List.max?_eq_none_iff, List.map_eq_nil_iff] at hl
      rw [hl] at hx
      exact nomatch hx
  obtain ⟨hmem, hmax⟩ := List.max?_eq_some_iff.mp hm
  obtain ⟨y, hy, heq⟩ := List.mem_map.mp hmem
  rw [hm]
  exact ⟨fun z hz => hmax _ (List.mem_map_of_mem hz), y, hy, heq⟩

/-- The estimate's effect. -/
def estimated (sample : PowerSample) (s : State) : State :=
  let bulk := keep16 s.now ((s.now, sample.dma, sample.fab, sample.dmaHeld, sample.fabHeld) :: s.pwr.bulk)
  let last := (samplesWith sample s).filter fun e => decide (s.now < e.1 + ms8)
  let s := s.modPwr fun p =>
    { p with samples := samplesWith sample s, bulk := bulk, total := meanOf (last.map (·.2.1)),
             floor := (((samplesWith sample s).map (·.2.2)).max?).getD 0, dmaPending := sample.dmaPending,
             fabPending := sample.fabPending }
  { s with clusters := s.clusters.mapIdx fun i c => { c with mw := sample.clusters.getD i 0 } }

theorem leaves_powerEstimate (sample : PowerSample) : Leaves (.powerEstimate t sample) s fun s' =>
    s'.pwr.samples = keep16 (max s.now t) ((max s.now t, sample.total, floorSample sample) :: s.pwr.samples) ∧
      (∀ x ∈ s'.pwr.samples, x.2.2 ≤ s'.pwr.floor) ∧ (∃ x ∈ s'.pwr.samples, x.2.2 = s'.pwr.floor) ∧
      (∀ x ∈ s'.pwr.samples, max s.now t ≤ x.1 + 128000000) ∧ s'.regs = s.regs ∧ s'.jobs = s.jobs ∧ SameMotion s s' := by
  have hexec : exec (.powerEstimate t sample) s = .next (after t s (estimated sample)) :=
    (run_eq_after rfl : execPowerEstimate t sample s = _)
  obtain ⟨hle, hmax⟩ := floor_of_samples (mem_samplesWith_self sample (s.arrive t))
  refine ⟨_, hexec, rfl, hle, hmax, fun x hx => ?_, rfl, rfl, ⟨rfl, rfl, rfl, rfl⟩⟩
  exact of_decide_eq_true (List.mem_filter.mp hx).2

/-! ## GRANT_ALLOCATION -/

/-- The kitty (R309). -/
def kittyOf (s : State) : Nat := 1000 * s.fld Reg.pwrCap 0 7 0 - s.pwr.floor - 1000 * s.fld Reg.pwrCap 0 21 16

/-- The grants of a state. -/
def grantsOf (s : State) : List Nat := grants (kittyOf s) (demands s) (shares s)

/-- The power block takes the grants and the plan. -/
def grantsTaken (s : State) : State :=
  s.modPwr fun p =>
    { p with kitty := kittyOf s, gCmp := (grantsOf s).getD 0 0, gIns := (grantsOf s).getD 1 0, gDma := (grantsOf s).getD 2 0,
             gFab := (grantsOf s).getD 3 0, planOp := (clusterPlan s ((grantsOf s).getD 0 0)).1,
             planN := (clusterPlan s ((grantsOf s).getD 0 0)).2, overCap := !underCap s (demands s),
             kins := 1000 * min 8 ((grantsOf s).getD 1 0 / 600),
             dmaBucket := p.dmaBucket.rate ((grantsOf s).getD 2 0 * 20000), fabBucket := p.fabBucket.rate ((grantsOf s).getD 3 0 * 10000) }

theorem exec_grantAllocation : exec (.grantAllocation t) s = .next (after t s fun s =>
    when (!underCap s (demands s) && !s.pwr.overCap) (alarm .pwrOverCap noInst) (fund (grantsTaken s))) :=
  (run_eq_after rfl : execGrantAllocation t s = _)

theorem minGrants_zero {dem : List Nat} (h : 0 < dem.getD 0 0) : (minGrants dem).getD 0 0 = 2400 := if_pos h

theorem minGrants_one {dem : List Nat} (h : 0 < dem.getD 1 0) : (minGrants dem).getD 1 0 = 600 := if_pos h

theorem minGrants_le (dem : List Nat) : (minGrants dem).getD 0 0 ≤ 2400 ∧ (minGrants dem).getD 1 0 ≤ 600 := by
  simp only [minGrants, List.getD_cons_zero, List.getD_cons_succ]
  constructor
  · split <;> omega
  · split <;> omega

theorem leaves_grantAllocation : Leaves (.grantAllocation t) s fun s' =>
    let dem := demands (s.arrive t)
    let mins := (minGrants dem).sum
    s'.pwr.kitty = 1000 * s.fld Reg.pwrCap 0 7 0 - s.pwr.floor - 1000 * s.fld Reg.pwrCap 0 21 16 ∧
    s'.pwr.gCmp + s'.pwr.gIns + s'.pwr.gDma + s'.pwr.gFab ≤ max s'.pwr.kitty mins ∧
    (0 < dem.getD 0 0 → 2400 ≤ s'.pwr.gCmp) ∧ (0 < dem.getD 1 0 → 600 ≤ s'.pwr.gIns) ∧
    s'.pwr.gCmp ≤ max (dem.getD 0 0) 2400 ∧ s'.pwr.gIns ≤ max (dem.getD 1 0) 600 ∧ s'.pwr.gDma ≤ dem.getD 2 0 ∧
    s'.pwr.gFab ≤ dem.getD 3 0 ∧ (s.cmp.demand ≠ none → s'.pwr.planOp ≤ opMax s ∧ opMw s'.pwr.planOp * s'.pwr.planN ≤ s'.pwr.gCmp) ∧
    s'.pwr.planN ≤ availableCount s ∧ s'.pwr.kins = 1000 * min 8 (s'.pwr.gIns / 600) ∧
    (s'.pwr.overCap = true ↔ 1000 * s.fld Reg.pwrCap 0 7 0 < s.pwr.floor + 1000 * s.fld Reg.pwrCap 0 21 16 + mins) ∧
    (s'.pwr.overCap = true → s.pwr.overCap = false → bitOf s' Reg.evtAlarmLatch 0 21 = true) ∧ s'.jobs = s.jobs ∧
    SameMotion s s' := by
  refine leaves_of_effect exec_grantAllocation fun y hy => ?_
  intro dem mins
  obtain ⟨cl, k, hi, hfund⟩ := fund_eq (grantsTaken (s.arrive t))
  have hreports : y.sansReports = (fund (grantsTaken (s.arrive t))).sansReports := by
    rw [hy, when]
    split
    · exact sansReports_alarm ..
    · rfl
  have hpwr : y.pwr = { (grantsTaken (s.arrive t)).pwr with kcomp := k, vcoreHi := hi } := by
    rw [eq_of_sansReports hreports (g := State.pwr) fun _ => rfl, hfund]
  have hjobs : y.jobs = s.jobs := by
    rw [jobs_of_sansReports hreports, hfund]
    rfl
  have hmotion : SameMotion s y := by
    have hfunded : SameMotion s (fund (grantsTaken (s.arrive t))) := by
      rw [hfund]
      exact ⟨rfl, rfl, rfl, rfl⟩
    exact sameMotion_trans hfunded (sameMotion_of_sansReports hreports)
  obtain ⟨a, b, c, d, hgrants, htotal, ⟨haLow, haHigh⟩, ⟨hbLow, hbHigh⟩, hc, hd⟩ :=
    grants_cases (kittyOf (s.arrive t)) dem (shares (s.arrive t))
  obtain ⟨hminCmp, hminIns⟩ := minGrants_le dem
  have hg : grantsOf (s.arrive t) = [a, b, c, d] := hgrants
  obtain ⟨hcount, hplan⟩ := clusterPlan_leaves (s.arrive t) ((grantsOf (s.arrive t)).getD 0 0)
  have hcmp : y.pwr.gCmp = a := by rw [hpwr]; exact congrArg (·.getD 0 0) hg
  have hins : y.pwr.gIns = b := by rw [hpwr]; exact congrArg (·.getD 1 0) hg
  have hdma : y.pwr.gDma = c := by rw [hpwr]; exact congrArg (·.getD 2 0) hg
  have hfab : y.pwr.gFab = d := by rw [hpwr]; exact congrArg (·.getD 3 0) hg
  have hkitty : y.pwr.kitty = kittyOf (s.arrive t) := by rw [hpwr]; rfl
  have hover : y.pwr.overCap = !underCap (s.arrive t) dem := by rw [hpwr]; rfl
  have hoverIff : y.pwr.overCap = true ↔ 1000 * s.fld Reg.pwrCap 0 7 0 < s.pwr.floor + 1000 * s.fld Reg.pwrCap 0 21 16 + mins := by
    rw [hover, Bool.not_eq_true', underCap, decide_eq_false_iff_not, Nat.not_le]
    rfl
  have hplanOp : y.pwr.planOp = (clusterPlan (s.arrive t) ((grantsOf (s.arrive t)).getD 0 0)).1 := by rw [hpwr]; rfl
  have hplanN : y.pwr.planN = (clusterPlan (s.arrive t) ((grantsOf (s.arrive t)).getD 0 0)).2 := by rw [hpwr]; rfl
  have hgetCmp : (grantsOf (s.arrive t)).getD 0 0 = y.pwr.gCmp := by rw [hpwr]; rfl
  rw [← hplanN] at hcount
  rw [← hplanOp, ← hplanN, hgetCmp] at hplan
  refine ⟨hkitty, ?_, fun hdem => ?_, fun hdem => ?_, ?_, ?_, hdma.trans_le hc, hfab.trans_le hd, hplan, hcount, ?_, hoverIff,
    fun hyes hno => ?_, hjobs, hmotion⟩
  · exact (show y.pwr.gCmp + y.pwr.gIns + y.pwr.gDma + y.pwr.gFab ≤ max y.pwr.kitty mins by
      rw [hcmp, hins, hdma, hfab, hkitty]; exact htotal)
  · exact (minGrants_zero hdem).symm.trans_le (haLow.trans_eq hcmp.symm)
  · exact (minGrants_one hdem).symm.trans_le (hbLow.trans_eq hins.symm)
  · exact hcmp.trans_le (haHigh.trans (max_le_max_left _ hminCmp))
  · exact hins.trans_le (hbHigh.trans (max_le_max_left _ hminIns))
  · rw [show (after t s fun _ => y).pwr = y.pwr from rfl, hpwr]
    rfl
  · have hnot : underCap (s.arrive t) dem = false := by
      rw [show (after t s fun _ => y).pwr = y.pwr from rfl, hover] at hyes
      exact Bool.not_eq_true' _ |>.mp hyes
    have halarm : y = alarm .pwrOverCap noInst (fund (grantsTaken (s.arrive t))) := by
      rw [hy, when, if_pos]
      rw [hnot, show (s.arrive t).pwr.overCap = false from hno]
      rfl
    have hbit := alarm_bitOf .pwrOverCap noInst (fund (grantsTaken (s.arrive t)))
    rw [← halarm] at hbit
    exact hbit

/-! ## Clusters -/

theorem leaves_clusterPowerOnDone (hrise : (s.clusters[n]).power = .rising) (hdue : (s.clusters[n]).since + 200000 ≤ max s.now t) :
    Leaves (.clusterPowerOnDone t n) s fun s' => (s'.clusters[n]).power = .on ∧ (s'.clusters[n]).granted = (s.clusters[n]).granted ∧
      (∀ m, m ≠ n → s'.clusters[m] = s.clusters[m]) ∧ s'.jobs = s.jobs ∧ s'.regs = s.regs := by
  have hexec : exec (.clusterPowerOnDone t n) s = .next (after t s fun s =>
      refreshClusters (s.modCluster n fun c => { c with power := .on, since := s.now })) := by
    refine (run_eq_after ?_ : execClusterPowerOnDone t n s = _)
    exact if_pos ⟨hrise, hdue⟩
  refine leaves_of_effect hexec fun y hy => ?_
  have hclusters : y.clusters = upd s.clusters n fun c => { c with power := .on, since := (s.arrive t).now } := by rw [hy]; rfl
  have hself : y.clusters[n] = { s.clusters[n] with power := .on, since := (s.arrive t).now } := by
    rw [hclusters, upd_getElem_self]
  refine ⟨(congrArg Cluster.power hself :), (congrArg Cluster.granted hself :), fun m hm => ?_, by rw [hy]; rfl, by rw [hy]; rfl⟩
  exact (congrArg (·[m]) hclusters).trans (upd_getElem_of_ne hm ..)

theorem exec_clusterPowerOnDone_idle (h : (s.clusters[n]).power ≠ .rising ∨ max s.now t < (s.clusters[n]).since + 200000) :
    exec (.clusterPowerOnDone t n) s = .next (after t s id) := by
  refine (run_eq_after ?_ : execClusterPowerOnDone t n s = _)
  refine if_neg ?_
  rintro ⟨hrise, hdue⟩
  obtain h | h := h
  · exact h hrise
  · exact Nat.not_le.mpr h hdue

theorem leaves_operatingPointChangeDone (op : Nat) (hnext : (s.clusters[n]).opNext = some op) (hslice : (s.clusters[n]).slice = none)
    (hon : (s.clusters[n]).power = .on) (hdue : (s.clusters[n]).since + 80000 ≤ max s.now t) :
    Leaves (.operatingPointChangeDone t n) s fun s' => (s'.clusters[n]).op = op ∧ (s'.clusters[n]).opNext = none ∧
      (∀ m, m ≠ n → s'.clusters[m] = s.clusters[m]) ∧ s'.jobs = s.jobs ∧ s'.regs = s.regs := by
  have hexec : exec (.operatingPointChangeDone t n) s = .next (after t s fun s =>
      refreshClusters (s.modCluster n fun c => { c with op := op, opNext := none })) := by
    refine (run_eq_after ?_ : execOperatingPointChangeDone t n s = _)
    extract_lets c
    rw [show c.opNext = some op from hnext]
    refine if_pos ⟨?_, hon, hdue⟩
    rw [show c.slice = none from hslice]
    rfl
  refine leaves_of_effect hexec fun y hy => ?_
  have hclusters : y.clusters = upd s.clusters n fun c => { c with op := op, opNext := none } := by rw [hy]; rfl
  have hself : y.clusters[n] = { s.clusters[n] with op := op, opNext := none } := by rw [hclusters, upd_getElem_self]
  refine ⟨(congrArg Cluster.op hself :), (congrArg Cluster.opNext hself :), fun m hm => ?_, by rw [hy]; rfl, by rw [hy]; rfl⟩
  exact (congrArg (·[m]) hclusters).trans (upd_getElem_of_ne hm ..)

theorem exec_operatingPointChangeDone_idle
    (h : (s.clusters[n]).slice.isSome = true ∨ max s.now t < (s.clusters[n]).since + 80000) :
    exec (.operatingPointChangeDone t n) s = .next (after t s id) := by
  refine (run_eq_after ?_ : execOperatingPointChangeDone t n s = _)
  extract_lets c
  split
  · refine if_neg ?_
    rintro ⟨hslice, -, hdue⟩
    obtain h | h := h
    · exact absurd (Option.isNone_iff_eq_none.mp hslice) (Option.isSome_iff_ne_none.mp h)
    · exact Nat.not_le.mpr h hdue
  · rfl

end

end Sys2Proof.Machine
end

section
/-! Die sensors (R315 to R318), and obligation O39. -/
namespace Sys2Proof.Machine

open Sys2Proof.Claim

/-! ## What a hold leaves of a cluster that is off -/

/-- A cluster is off and has no slice. -/
def ClusterIdle (n : Fin 16) (s : State) : Prop := (s.clusters[n]).power = .off ∧ (s.clusters[n]).slice = none

/-- The power block stands, and a cluster that is idle stays idle. -/
structure PowerKept (n : Fin 16) (s s' : State) : Prop where
  pwr : s'.pwr = s.pwr
  idle : ClusterIdle n s → ClusterIdle n s'

theorem powerKept_of_blocks {n : Fin 16} {s s' : State} (hpwr : s'.pwr = s.pwr) (hcl : s'.clusters = s.clusters) : PowerKept n s s' :=
  ⟨hpwr, fun h => by rw [ClusterIdle, hcl]; exact h⟩

theorem clusterIdle_withdrawn {n : Fin 16} {s : State} (h : ClusterIdle n s) (ctx : Fin 64) : ClusterIdle n (withdrawn ctx s) := by
  obtain ⟨hpower, hslice⟩ := h
  have heq : (withdrawn ctx s).clusters[n] = s.clusters[n] := by
    simp only [withdrawn, Fin.getElem_fin, Vector.getElem_map]
    rw [show (s.clusters[n.val]).slice = none from hslice]
  rw [ClusterIdle, heq]
  exact ⟨hpower, hslice⟩

theorem holdClosed_powerKept (n : Fin 16) : HoldClosed (PowerKept n) where
  refl _ := ⟨rfl, id⟩
  trans h h' := ⟨h'.pwr.trans h.pwr, h'.idle ∘ h.idle⟩
  outcomes h := powerKept_of_blocks (eq_of_sansOutcomes h (g := State.pwr) fun _ => rfl)
    (eq_of_sansOutcomes h (g := State.clusters) fun _ => rfl)
  complete _ _ _ _ := powerKept_of_blocks (complete_pwr ..) (complete_clusters ..)
  blocks h := powerKept_of_blocks (congrArg State.pwr h :) (congrArg State.clusters h :)
  withdrawn ctx _ := ⟨rfl, fun h => clusterIdle_withdrawn h ctx⟩

/-- No report or alarm writes PWR_TS. -/
theorem plainWord_pwrTs (n : Fin 16) : PlainWord Reg.pwrTs n := by
  have hn := n.isLt
  refine ⟨decide_eq_false ?_, fun k hk => ?_, ?_⟩
  · simp only [RegSpec.addr, Reg.pwrTs]
    omega
  · simp only [RegSpec.addr, Reg.pwrTs, Reg.evtAlarmLatch]
    omega
  · simp only [RegSpec.addr, Reg.pwrTs, Reg.evtStatus]
    omega

theorem wordKept_stopAndDisable {r : RegSpec} {i : Nat} (hw : PlainWord r i) (s : State) : WordKept r i s (stopAndDisable s) := by
  have hba : ∀ (s : State) (n : Fin 8), WordKept r i s (disableBa s n) := by
    intro s n
    unfold disableBa
    split
    · exact (wordKept_baStop hw n true s).trans (wordKept_of_regs rfl)
    · exact .refl s
  have hstp : ∀ (s : State) (n : Fin 16), WordKept r i s (disableStp s n) := by
    intro s n
    unfold disableStp
    split
    · exact (wordKept_stpStopNow hw n s).trans (wordKept_of_regs rfl)
    · exact .refl s
  rw [stopAndDisable_eq]
  exact (wordKept_foldl hba _ s).trans (wordKept_foldl hstp _ _)

/-! ## What the thresholds leave -/

/-- The sensors, the converters' discards, PWR_TS and the alarms stand, and an idle cluster stays idle. -/
structure SensorKept (n : Fin 16) (s s' : State) : Prop where
  sensors : s'.pwr.sensors = s.pwr.sensors
  discard : s'.pwr.discard = s.pwr.discard
  word : WordKept Reg.pwrTs n s s'
  idle : ClusterIdle n s → ClusterIdle n s'

section
variable {n : Fin 16}

theorem SensorKept.refl (s : State) : SensorKept n s s := ⟨rfl, rfl, .refl s, id⟩

theorem SensorKept.trans {s s' s'' : State} (h : SensorKept n s s') (h' : SensorKept n s' s'') : SensorKept n s s'' :=
  ⟨h'.sensors.trans h.sensors, h'.discard.trans h.discard, h.word.trans h'.word, h'.idle ∘ h.idle⟩

theorem PowerKept.sensorKept {s s' : State} (h : PowerKept n s s') (hw : WordKept Reg.pwrTs n s s') : SensorKept n s s' :=
  ⟨by rw [h.pwr], by rw [h.pwr], hw, h.idle⟩

theorem sensorKept_alarm (a : Alarm) (inst : Nat) (s : State) : SensorKept n s (alarm a inst s) :=
  ((holdClosed_powerKept n).reports (sansReports_alarm a inst s)).sensorKept (wordKept_alarmArgs (plainWord_pwrTs n) ..)

/-- A change of the clusters alone. -/
theorem sensorKept_of_idle {s s' : State} (hpwr : s'.pwr = s.pwr) (hregs : s'.regs = s.regs)
    (hidle : ClusterIdle n s → ClusterIdle n s') : SensorKept n s s' :=
  ⟨by rw [hpwr], by rw [hpwr], wordKept_of_regs hregs, hidle⟩

theorem dropSlice_cases (m : Fin 16) (s : State) : ((s.clusters[m]).slice = none ∧ dropSlice m s = s) ∨
    ∃ ctx f, dropSlice m s = (s.modJob ctx f).modCluster m fun c => { c with slice := none, since := s.now } := by
  unfold dropSlice
  split
  · next h => exact .inl ⟨h, rfl⟩
  · exact .inr ⟨_, _, rfl⟩

/-- A cluster that is switched off loses its slice. -/
theorem clusterIdle_killCluster_self (n : Fin 16) (s : State) : ClusterIdle n (killCluster n s) := by
  unfold killCluster
  obtain ⟨hslice, h⟩ | ⟨ctx, f, h⟩ := dropSlice_cases n s
  · rw [h]
    have hself : (s.modCluster n fun c => { c with power := .off, opNext := none, granted := false }).clusters[n] =
      { s.clusters[n] with power := .off, opNext := none, granted := false } := upd_getElem_self ..
    exact ⟨congrArg Cluster.power hself, (congrArg Cluster.slice hself).trans hslice⟩
  · rw [h]
    have hdrop : ((s.modJob ctx f).modCluster n fun c => { c with slice := none, since := s.now }).clusters[n] =
      { s.clusters[n] with slice := none, since := s.now } := upd_getElem_self ..
    have hself : (((s.modJob ctx f).modCluster n fun c => { c with slice := none, since := s.now }).modCluster n fun c =>
        { c with power := .off, opNext := none, granted := false }).clusters[n] =
      { { s.clusters[n] with slice := none, since := s.now } with power := .off, opNext := none, granted := false } :=
      (upd_getElem_self ..).trans (congrArg (fun c : Cluster => { c with power := .off, opNext := none, granted := false }) hdrop)
    exact ⟨congrArg Cluster.power hself, congrArg Cluster.slice hself⟩

theorem killCluster_other {m : Fin 16} (h : n ≠ m) (s : State) : (killCluster m s).clusters[n] = s.clusters[n] := by
  unfold killCluster
  obtain ⟨-, hdrop⟩ | ⟨ctx, f, hdrop⟩ := dropSlice_cases m s
  · rw [hdrop]
    exact upd_getElem_of_ne h ..
  · rw [hdrop]
    exact (upd_getElem_of_ne h ..).trans (upd_getElem_of_ne h ..)

theorem killCluster_keeps (m : Fin 16) (s : State) : (killCluster m s).pwr = s.pwr ∧ (killCluster m s).regs = s.regs := by
  unfold killCluster
  obtain ⟨-, hdrop⟩ | ⟨ctx, f, hdrop⟩ := dropSlice_cases m s
  · rw [hdrop]
    exact ⟨rfl, rfl⟩
  · rw [hdrop]
    exact ⟨rfl, rfl⟩

theorem sensorKept_killCluster (m : Fin 16) (s : State) : SensorKept n s (killCluster m s) := by
  obtain ⟨hpwr, hregs⟩ := killCluster_keeps m s
  refine sensorKept_of_idle hpwr hregs fun hidle => ?_
  by_cases hnm : n = m
  · subst hnm
    exact clusterIdle_killCluster_self n s
  · rw [ClusterIdle, killCluster_other hnm]
    exact hidle

theorem sensorKept_foldl {α : Type} {f : State → α → State} (h : ∀ s x, SensorKept n s (f s x)) (l : List α) (s : State) :
    SensorKept n s (l.foldl f s) := by
  induction l generalizing s with
  | nil => exact .refl s
  | cons x l ih => exact (h s x).trans (ih _)

theorem sensorKept_latchCause (bit : Nat) (s : State) : SensorKept n s (latchCause bit s) := sensorKept_of_idle rfl rfl id

theorem sensorKept_trip (s : State) : SensorKept n s (trip s) := by
  unfold trip
  extract_lets y z
  have hy : SensorKept n s y := sensorKept_foldl (fun s m => sensorKept_killCluster m s) _ s
  have hz : SensorKept n y z := sensorKept_latchCause 2 y
  split
  · exact hy.trans (((holdClosed_powerKept n).holdCause 2 y).sensorKept (wordKept_holdCause (plainWord_pwrTs n) 2 y))
  · split
    · exact hy.trans (hz.trans (((holdClosed_powerKept n).stopAndDisable z).sensorKept (wordKept_stopAndDisable (plainWord_pwrTs n) z)))
    · exact hy.trans hz

/-- A change of a cluster that is on leaves one that is off. -/
theorem clusterIdle_modCluster {f : Cluster → Cluster} (hf : ∀ c : Cluster, c.power = .off → f c = c) {s : State}
    (h : ClusterIdle n s) : ClusterIdle n (s.modCluster n f) := by
  have hself : (s.modCluster n f).clusters[n] = s.clusters[n] := (upd_getElem_self ..).trans (hf _ h.1)
  rw [ClusterIdle, hself]
  exact h

/-! ## A reading -/

/-- A sensor whose SHUT sets: its cluster is switched off under an alarm. -/
def shutRises (rises : Bool) (n : Fin 16) (s : State) : State := if rises then alarm .pwrCcHot n (killCluster n s) else s

/-- The operating point that a throttled cluster should run at. -/
def throttled (changed : Bool) (n : Fin 16) (s : State) : State :=
  if changed then s.modCluster n fun c =>
    if c.granted ∧ c.power = .on then
      (if c.op = wantedOp s n then { c with opNext := none }
       else { c with opNext := some (wantedOp s n), since := if c.slice.isNone then s.now else c.since })
    else c
  else s

/-- The trip condition is noted, and acts as it begins. -/
def tripActs (s : State) : State :=
  refreshClusters (when (tripNow s && !s.pwr.tripped) trip (s.modPwr fun p => { p with tripped := tripNow s }))

theorem actOnReading_eq (n : Fin 16) (s : State) : actOnReading n s =
    tripActs (throttled ((s.pwr.sensors[n]).thresholds.hot != (s.pwr.sensors[n]).hot) n
      (shutRises ((s.pwr.sensors[n]).thresholds.shut && !(s.pwr.sensors[n]).shut) n
        (s.modPwr fun p => { p with sensors := upd p.sensors n fun _ => (s.pwr.sensors[n]).thresholds }))) := rfl

theorem sensorKept_shutRises (rises : Bool) (s : State) : SensorKept n s (shutRises rises n s) := by
  unfold shutRises
  split
  · exact (sensorKept_killCluster n s).trans (sensorKept_alarm ..)
  · exact .refl s

/-- As SHUT sets, the cluster is idle and the alarm stands. -/
theorem shutRises_acts (s : State) :
    ClusterIdle n (shutRises true n s) ∧ bitOf (shutRises true n s) Reg.evtAlarmLatch 0 22 = true :=
  ⟨(sensorKept_alarm .pwrCcHot n (killCluster n s)).idle (clusterIdle_killCluster_self n s), alarm_bitOf .pwrCcHot n _⟩

theorem sensorKept_throttled (changed : Bool) (s : State) : SensorKept n s (throttled changed n s) := by
  unfold throttled
  split
  · refine sensorKept_of_idle rfl rfl (clusterIdle_modCluster fun c hoff => if_neg fun hon => ?_)
    exact absurd (hoff.symm.trans hon.2) (by decide)
  · exact .refl s

theorem sensorKept_tripActs (s : State) : SensorKept n s (tripActs s) := by
  have hnoted : SensorKept n s (s.modPwr fun p => { p with tripped := tripNow s }) := ⟨rfl, rfl, wordKept_of_regs rfl, id⟩
  have hfresh : ∀ x : State, SensorKept n x (refreshClusters x) := fun x => ⟨rfl, rfl, wordKept_of_regs rfl, id⟩
  unfold tripActs when
  split
  · exact hnoted.trans ((sensorKept_trip _).trans (hfresh _))
  · exact hnoted.trans (hfresh _)

/-- What a new reading of a sensor leaves. -/
theorem actOnReading_leaves (n : Fin 16) (s : State) :
    (actOnReading n s).pwr.sensors = upd s.pwr.sensors n (fun _ => (s.pwr.sensors[n]).thresholds) ∧
    (actOnReading n s).pwr.discard = s.pwr.discard ∧ WordKept Reg.pwrTs n s (actOnReading n s) ∧
    ((s.pwr.sensors[n]).thresholds.shut = true → (s.pwr.sensors[n]).shut = false →
      ClusterIdle n (actOnReading n s) ∧ bitOf (actOnReading n s) Reg.evtAlarmLatch 0 22 = true) := by
  rw [actOnReading_eq]
  obtain ⟨z, hz⟩ : ∃ z, z = s.modPwr fun p => { p with sensors := upd p.sensors n fun _ => (s.pwr.sensors[n]).thresholds } := ⟨_, rfl⟩
  have hword : WordKept Reg.pwrTs n s z := by rw [hz]; exact wordKept_of_regs rfl
  have hsensors : z.pwr.sensors = upd s.pwr.sensors n fun _ => (s.pwr.sensors[n]).thresholds := by rw [hz]; rfl
  have hdiscard : z.pwr.discard = s.pwr.discard := by rw [hz]; rfl
  rw [← hz]
  generalize ((s.pwr.sensors[n]).thresholds.hot != (s.pwr.sensors[n]).hot) = changed
  obtain ⟨rises, hrises⟩ : ∃ b, b = ((s.pwr.sensors[n]).thresholds.shut && !(s.pwr.sensors[n]).shut) := ⟨_, rfl⟩
  rw [← hrises]
  have hlast : SensorKept n (shutRises rises n z) (tripActs (throttled changed n (shutRises rises n z))) :=
    (sensorKept_throttled ..).trans (sensorKept_tripActs _)
  have hall := (sensorKept_shutRises rises z).trans hlast
  refine ⟨hall.sensors.trans hsensors, hall.discard.trans hdiscard, hword.trans hall.word, fun hshut hno => ?_⟩
  have htrue : rises = true := by rw [hrises, hshut, hno]; rfl
  subst htrue
  obtain ⟨hidle, hbit⟩ := shutRises_acts (n := n) z
  exact ⟨hlast.idle hidle, hlast.word.latch 0 (by decide) 22 hbit⟩

end

/-! ## SENSOR_CONVERSION -/

section
variable {s : State} {t : Nat} {n : Fin 16} {temp : Int}

theorem exec_sensorConversion_discarded (h : s.pwr.discard.getLsbD (n / 4) = true) : exec (.sensorConversion t n temp) s =
    .next (after t s fun s => s.modPwr fun p => { p with discard := p.discard &&& ~~~(1#4 <<< (n.val / 4)) }) :=
  (run_eq_after (if_pos (show (s.arrive t).pwr.discard.getLsbD (n.val / 4) = true from h)) : execSensorConversion t n temp s = _)

section
variable (hkeep : s.pwr.discard.getLsbD (n / 4) = false)
include hkeep

section
variable (hlow : -640 ≤ temp) (hhigh : temp ≤ 2400)
include hlow hhigh

omit hkeep in
theorem convert_inside (x : Sensor) (trim : Int) : x.convert temp trim =
    { x with code := (max 0 (min 0xFFE (temp + 1024 + trim))).toNat, valid := true, ovr := false,
             last := max 0 (min 0xFFE (temp + 1024 + trim)) - 1024, clamped := 0 } := if_pos ⟨hlow, hhigh⟩

theorem exec_sensorConversion_inside : exec (.sensorConversion t n temp) s = .next (after t s fun s => actOnReading n
    (s.modPwr fun p => { p with sensors := upd p.sensors n fun _ => (s.pwr.sensors[n]).convert temp (sensorTrim s n) })) := by
  refine (run_eq_after ?_ : execSensorConversion t n temp s = _)
  refine (if_neg (by rw [show (s.arrive t).pwr.discard.getLsbD (n.val / 4) = false from hkeep]; exact Bool.false_ne_true)).trans ?_
  simp only [convert_inside hlow hhigh]
  rfl

theorem leaves_sensorConversion_inside : Leaves (.sensorConversion t n temp) s fun s' =>
    let code := max 0 (min 0xFFE (temp + 1024 + sensorTrim s n))
    ((s'.pwr.sensors[n]).code : Int) = code ∧ (s'.pwr.sensors[n]).valid = true ∧ (s'.pwr.sensors[n]).ovr = false ∧
    (1840 ≤ code - 1024 → (s'.pwr.sensors[n]).hot = true) ∧ (code - 1024 < 1760 → (s'.pwr.sensors[n]).hot = false) ∧
    (2000 ≤ code - 1024 → (s'.pwr.sensors[n]).shut = true) ∧ (code - 1024 < 1760 → (s'.pwr.sensors[n]).shut = false) ∧
    (1760 ≤ code - 1024 → code - 1024 < 1840 → (s'.pwr.sensors[n]).hot = (s.pwr.sensors[n]).hot) ∧
    ((s'.pwr.sensors[n]).shut = true → (s.pwr.sensors[n]).shut = false → (s'.clusters[n]).power = .off ∧
      (s'.clusters[n]).slice = none ∧ bitOf s' Reg.evtAlarmLatch 0 22 = true) ∧
    s'.pwr.discard = s.pwr.discard ∧ (∀ m, m ≠ n → s'.pwr.sensors[m] = s.pwr.sensors[m]) := by
  refine leaves_of_effect (exec_sensorConversion_inside hkeep hlow hhigh) fun y hy => ?_
  intro code
  obtain ⟨x, hx⟩ : ∃ x : State, x = (s.arrive t).modPwr fun p =>
    { p with sensors := upd p.sensors n fun _ => (s.pwr.sensors[n]).convert temp (sensorTrim s n) } := ⟨_, rfl⟩
  have hxy : y = actOnReading n x := hy.trans (by rw [hx]; rfl)
  have hxsensor : x.pwr.sensors[n] = (s.pwr.sensors[n]).convert temp (sensorTrim s n) := by
    rw [hx]
    exact upd_getElem_self ..
  have hxother : ∀ m, m ≠ n → x.pwr.sensors[m] = s.pwr.sensors[m] := fun m hm => by
    rw [hx]
    exact upd_getElem_of_ne hm ..
  have hxdiscard : x.pwr.discard = s.pwr.discard := by rw [hx]; rfl
  obtain ⟨hsensors, hdiscard, -, hshut⟩ := actOnReading_leaves n x
  rw [← hxy] at hsensors hdiscard hshut
  obtain ⟨r, hr⟩ : ∃ r, r = (s.pwr.sensors[n]).convert temp (sensorTrim s n) := ⟨_, rfl⟩
  rw [← hr] at hxsensor
  rw [convert_inside hlow hhigh] at hr
  rw [hxsensor] at hsensors hshut
  have hself : y.pwr.sensors[n] = r.thresholds := by rw [hsensors]; exact upd_getElem_self ..
  have hread : r.reading = code - 1024 := by rw [hr]; rfl
  have hhot : (y.pwr.sensors[n]).hot = if 1840 ≤ code - 1024 then true else if code - 1024 < 1760 then false else (s.pwr.sensors[n]).hot := by
    rw [hself, Sensor.thresholds]
    simp only [hread]
    rw [hr]
  have hshutNow : (y.pwr.sensors[n]).shut =
      if 2000 ≤ code - 1024 then true else if code - 1024 < 1760 then false else (s.pwr.sensors[n]).shut := by
    rw [hself, Sensor.thresholds]
    simp only [hread]
    rw [hr]
  have hcode : 0 ≤ code := Int.le_max_left ..
  have hrcode : (y.pwr.sensors[n]).code = code.toNat := by
    rw [hself, hr]
    rfl
  have hvalid : (y.pwr.sensors[n]).valid = true := by
    rw [hself, hr]
    rfl
  have hovr : (y.pwr.sensors[n]).ovr = false := by
    rw [hself, hr]
    rfl
  have hrshut : r.shut = (s.pwr.sensors[n]).shut := by rw [hr]
  clear_value code
  refine ⟨?_, hvalid, hovr, fun h => hhot.trans (if_pos h), fun h => hhot.trans ((if_neg (by omega)).trans (if_pos h)),
    fun h => hshutNow.trans (if_pos h), fun h => hshutNow.trans ((if_neg (by omega)).trans (if_pos h)),
    fun hge hlt => hhot.trans ((if_neg (by omega)).trans (if_neg (by omega))), fun hyes hno => ?_, hdiscard.trans hxdiscard,
    fun m hm => ?_⟩
  · exact (congrArg Int.ofNat hrcode).trans (Int.toNat_of_nonneg hcode)
  · obtain ⟨⟨hpower, hslice⟩, hbit⟩ := hshut ((congrArg Sensor.shut hself).symm.trans hyes) (hrshut.trans hno)
    exact ⟨hpower, hslice, hbit⟩
  · have hm' : y.pwr.sensors[m] = x.pwr.sensors[m] := by rw [hsensors]; exact upd_getElem_of_ne hm ..
    exact hm'.trans (hxother m hm)

end

section
variable (hout : temp < -640 ∨ 2400 < temp)
include hout

/-- A sensor whose conversion is clamped. -/
def Sensor.clampedBy (x : Sensor) : Sensor := { x with code := 0xFFF, ovr := true, clamped := x.clamped + 1 }

omit hkeep in
theorem convert_outside (x : Sensor) (trim : Int) : x.convert temp trim = x.clampedBy :=
  if_neg fun h => by omega

/-- A clamped conversion is noted, and its converter discards the next. -/
def clampNoted (n : Fin 16) (s : State) : State :=
  (s.modPwr fun p => { p with sensors := upd p.sensors n (fun _ => (s.pwr.sensors[n]).clampedBy),
                              discard := p.discard ||| (1#4 <<< (n.val / 4)) }).setFld Reg.pwrTs n 16 16 1

theorem exec_sensorConversion_outside : exec (.sensorConversion t n temp) s = .next (after t s fun s =>
    if (s.pwr.sensors[n]).valid then actOnReading n (clampNoted n s) else clampNoted n s) := by
  refine (run_eq_after ?_ : execSensorConversion t n temp s = _)
  refine (if_neg (by rw [show (s.arrive t).pwr.discard.getLsbD (n.val / 4) = false from hkeep]; exact Bool.false_ne_true)).trans ?_
  simp only [convert_outside hout]
  rfl

theorem leaves_sensorConversion_outside : Leaves (.sensorConversion t n temp) s fun s' =>
    (s'.pwr.sensors[n]).code = 0xFFF ∧ (s'.pwr.sensors[n]).ovr = true ∧ s'.fld Reg.pwrTs n 16 16 = 1 ∧
    (s'.pwr.sensors[n]).last = (s.pwr.sensors[n]).last ∧ s'.pwr.discard.getLsbD (n / 4) = true ∧
    (∀ m, m ≠ n → s'.pwr.sensors[m] = s.pwr.sensors[m]) := by
  refine leaves_of_effect (exec_sensorConversion_outside hkeep hout) fun y hy => ?_
  obtain ⟨x, hx⟩ : ∃ x, x = clampNoted n (s.arrive t) := ⟨_, rfl⟩
  rw [← hx] at hy
  have hxsensor : x.pwr.sensors[n] = (s.pwr.sensors[n]).clampedBy := by
    rw [hx]
    exact upd_getElem_self ..
  have hxother : ∀ m, m ≠ n → x.pwr.sensors[m] = s.pwr.sensors[m] := fun m hm => by
    rw [hx]
    exact upd_getElem_of_ne hm ..
  have hxdiscard : x.pwr.discard = s.pwr.discard ||| (1#4 <<< (n.val / 4)) := by rw [hx]; rfl
  have hxbit : x.fld Reg.pwrTs n 16 16 = 1 := by
    rw [hx]
    exact (bitsOf_eq_one_iff _ 16).mpr (bitOf_setFld_one (by decide) (by decide) n _)
  have hsensor : ∃ r : Sensor, y.pwr.sensors = upd x.pwr.sensors n (fun _ => r) ∧ r.code = (x.pwr.sensors[n]).code ∧
      r.ovr = (x.pwr.sensors[n]).ovr ∧ r.last = (x.pwr.sensors[n]).last ∧ y.pwr.discard = x.pwr.discard ∧ WordKept Reg.pwrTs n x y := by
    split at hy
    · obtain ⟨hsensors, hdiscard, hword, -⟩ := actOnReading_leaves n x
      rw [← hy] at hsensors hdiscard hword
      exact ⟨_, hsensors, rfl, rfl, rfl, hdiscard, hword⟩
    · refine ⟨x.pwr.sensors[n], ?_, rfl, rfl, rfl, by rw [hy], by rw [hy]; exact .refl x⟩
      rw [hy]
      ext1 m hm
      by_cases hmn : (⟨m, hm⟩ : Fin 16) = n
      · subst hmn
        exact (upd_getElem_self x.pwr.sensors ⟨m, hm⟩ fun _ => x.pwr.sensors[(⟨m, hm⟩ : Fin 16)]).symm
      · exact (upd_getElem_of_ne hmn x.pwr.sensors _).symm
  obtain ⟨r, hsensors, hcode, hovr, hlast, hdiscard, hword⟩ := hsensor
  have hself : y.pwr.sensors[n] = r := by rw [hsensors]; exact upd_getElem_self ..
  have hfld : y.fld Reg.pwrTs n 16 16 = x.fld Reg.pwrTs n 16 16 := by rw [State.fld, hword.word, State.fld]
  have hbit : y.pwr.discard.getLsbD (n.val / 4) = true := by
    rw [hdiscard, hxdiscard, BitVec.getLsbD_or, getLsbD_shifted (by omega), Bool.or_true]
  refine ⟨?_, ?_, hfld.trans hxbit, ?_, hbit, fun m hm => ?_⟩
  · exact (congrArg Sensor.code hself).trans (hcode.trans (congrArg Sensor.code hxsensor))
  · exact (congrArg Sensor.ovr hself).trans (hovr.trans (congrArg Sensor.ovr hxsensor))
  · exact (congrArg Sensor.last hself).trans (hlast.trans (congrArg Sensor.last hxsensor :) :)
  · have hm' : y.pwr.sensors[m] = x.pwr.sensors[m] := by rw [hsensors]; exact upd_getElem_of_ne hm ..
    exact hm'.trans (hxother m hm)

end

end

end

/-- Settles O39: rounds of grants keep the sum of grant and pool, and the thresholds act behind what a trip's hold leaves. -/
theorem power : Obligations.Power := by
  unfold Obligations.Power
  exact ⟨fun t sample n s => ⟨leaves_powerEstimate sample, leaves_grantAllocation, leaves_clusterPowerOnDone,
      exec_clusterPowerOnDone_idle, leaves_operatingPointChangeDone, exec_operatingPointChangeDone_idle⟩,
    fun t n temp s => ⟨exec_sensorConversion_discarded, leaves_sensorConversion_inside, leaves_sensorConversion_outside⟩⟩

end Sys2Proof.Machine
end

section
/-! What the effects of a memory error leave of the banks and of an error counter (R325, R333). -/
namespace Sys2Proof.Machine

open Sys2Proof.Claim

/-! ## The view -/

/-- The banks, and where the last errors were found. -/
def State.faults (s : State) : Vector Bank 128 × (Nat × Nat × Bool) × Nat := (s.mem.banks, s.mem.lastUe, s.mem.hbmLastUe)

/-- The banks and the last errors stand, and so does a register's word. -/
structure FaultKept (r : RegSpec) (i : Nat) (s s' : State) : Prop where
  faults : s'.faults = s.faults
  word : s'.rd r i = s.rd r i

section
variable {r : RegSpec} {i : Nat}

theorem FaultKept.refl (s : State) : FaultKept r i s s := ⟨rfl, rfl⟩

theorem FaultKept.trans {s s' s'' : State} (h : FaultKept r i s s') (h' : FaultKept r i s' s'') : FaultKept r i s s'' :=
  ⟨h'.faults.trans h.faults, h'.word.trans h.word⟩

theorem faultKept_of_regs {s s' : State} (hmem : s'.faults = s.faults) (h : s'.regs = s.regs) : FaultKept r i s s' :=
  ⟨hmem, rd_of_regs h r i⟩

theorem faultKept_foldl {α : Type} {f : State → α → State} (h : ∀ s x, FaultKept r i s (f s x)) (l : List α) (s : State) :
    FaultKept r i s (l.foldl f s) := by
  induction l generalizing s with
  | nil => exact .refl s
  | cons x l ih => exact (h s x).trans (ih _)

theorem faultKept_count {q : RegSpec} {j : Nat} (h : r.addr i ≠ q.addr j) (k : Nat) (s : State) : FaultKept r i s (s.count q j k) :=
  ⟨rfl, rd_wr_of_ne h ..⟩

/-- A hold leaves the banks. -/
theorem holdClosed_faults : HoldClosed fun s s' => s'.faults = s.faults where
  refl _ := rfl
  trans h h' := h'.trans h
  outcomes h := eq_of_sansOutcomes h (g := State.faults) fun _ => rfl
  complete id st r s := by rw [State.faults, complete_mem, State.faults]
  blocks h := (congrArg State.faults h :)
  withdrawn _ _ := rfl

/-! ## An underrun -/

/-- A register that neither reports nor alarms nor the counters of underruns write. -/
structure QuietWord (r : RegSpec) (i : Nat) : Prop extends PlainWord r i where
  underrun : ∀ p : Fin 8, r.addr i ≠ Reg.govUnderrun.addr p
  skip : ∀ p : Fin 8, r.addr i ≠ Reg.scrEdrst.addr p

variable (hq : QuietWord r i)
include hq

theorem faultKept_of_reports {s s' : State} (h : s'.sansReports = s.sansReports) (hwords : s'.words = s.words) : FaultKept r i s s' :=
  ⟨holdClosed_faults.reports h, rd_of_words hwords hq.report⟩

theorem faultKept_alarm (a : Alarm) (inst : Nat) (s : State) : FaultKept r i s (alarm a inst s) :=
  ⟨holdClosed_faults.reports (sansReports_alarm a inst s), (wordKept_alarmArgs hq.toPlainWord a inst 0 0 0 s).word⟩

theorem faultKept_mirror (f : MirrorFrame) (s : State) : FaultKept r i s (mirror f s) := by
  unfold mirror
  split
  · exact faultKept_of_reports hq (sansReports_sendXlk ..) (words_of_reported (reported_sendXlk ..))
  · exact .refl s

theorem faultKept_holdCause (bit : Nat) (s : State) : FaultKept r i s (holdCause bit s) :=
  ⟨holdClosed_faults.holdCause bit s, (wordKept_holdCause hq.toPlainWord bit s).word⟩

theorem faultKept_settleJob (ctx : Fin 64) (s : State) : FaultKept r i s (settleJob ctx s) :=
  ⟨eq_of_sansSettling (sansSettling_settleJob ctx s) (g := State.faults) fun _ => rfl,
    rd_of_words (words_of_reported (reported_settleJob ..)) hq.report⟩

theorem faultKept_endRun (p : Fin 8) (s : State) : FaultKept r i s (endRun p s) :=
  ⟨holdClosed_faults.outcomes (sansOutcomes_endRun 0 p s), rd_of_words (words_of_reported (reported_endRun p s)) hq.report⟩

theorem faultKept_extendRun (p : Fin 8) (ctx k : Nat) (s : State) : FaultKept r i s (extendRun p ctx k s) := by
  unfold extendRun
  split
  · split
    · exact faultKept_of_regs rfl rfl
    · exact (faultKept_endRun hq p s).trans (faultKept_of_regs rfl rfl)
  · exact faultKept_of_regs rfl rfl

omit hq in
theorem faultKept_hashCourse (ctx : Fin 64) (pk : Package) (p k : Nat) (levels : List Nat) (s : State) :
    FaultKept r i s (hashCourse ctx pk p k levels s) := by
  unfold hashCourse
  split
  · exact faultKept_of_regs rfl rfl
  · exact .refl s

omit hq in
theorem faultKept_flagCourse (ctx : Fin 64) (p : Fin 8) (k code : Nat) (s : State) : FaultKept r i s (flagCourse ctx p k code s) := by
  unfold flagCourse
  split
  · exact faultKept_of_regs rfl rfl
  · exact .refl s

theorem faultKept_skipCourse (ctx : Fin 64) (p : Fin 8) (k : Nat) (s : State) : FaultKept r i s (skipCourse ctx p k s) := by
  unfold skipCourse
  extract_lets empty y z
  have hy : FaultKept r i s y := faultKept_of_regs rfl rfl
  have hz : FaultKept r i y z := by
    simp only [z]
    split
    · exact faultKept_hashCourse ..
    · exact .refl y
  have hplane : FaultKept r i z (z.modPlane p fun x => { x with skipNext := true }) := faultKept_of_regs rfl rfl
  exact hy.trans (hz.trans (hplane.trans (faultKept_count (hq.skip p) ..)))

omit hq in
theorem faultKept_bufferCourse (p : Fin 8) (b : BufCourse) (s : State) : FaultKept r i s (bufferCourse p b s) :=
  faultKept_of_regs rfl rfl

/-- An underrun ends in a hold, or settles its job. -/
theorem faultKept_underrunEnds (pk : Package) (ctx : Fin 64) (s : State) :
    FaultKept r i s (if pk.policy % 2 = 1 then holdCause 3 s else settleJob ctx s) := by
  split
  · exact faultKept_holdCause hq 3 s
  · exact faultKept_settleJob hq ctx s

theorem faultKept_underrun (ctx : Fin 64) (p : Fin 8) (pk : Package) (k : Nat) (s : State) : FaultKept r i s (underrun ctx p pk k s) := by
  unfold underrun
  extract_lets pos x y z w
  have hx : FaultKept r i s x := (faultKept_skipCourse hq ctx p k s).trans (faultKept_extendRun hq ..)
  have hy : FaultKept r i x y := (faultKept_count (hq.underrun p) 1 x).trans (faultKept_flagCourse ..)
  have hz : FaultKept r i y z := faultKept_bufferCourse ..
  have hw : FaultKept r i z w := faultKept_mirror hq ..
  exact hx.trans (hy.trans (hz.trans (hw.trans (faultKept_underrunEnds hq pk ctx w))))

/-! ## A lost slice or course -/

omit hq in
theorem faultKept_dropSlice (m : Fin 16) (s : State) : FaultKept r i s (dropSlice m s) := by
  obtain ⟨-, h⟩ | ⟨ctx, f, h⟩ := dropSlice_cases m s
  · rw [h]
    exact .refl s
  · rw [h]
    exact faultKept_of_regs rfl rfl

theorem faultKept_loseSlice (m : Fin 16) (s : State) : FaultKept r i s (loseSlice m s) := by
  have hexcl : FaultKept r i (dropSlice m s) ((dropSlice m s).modCluster m fun c => { c with excl := true }) := faultKept_of_regs rfl rfl
  exact (faultKept_dropSlice m s).trans (hexcl.trans (faultKept_alarm hq ..))

theorem faultKept_loseScreened (p : Fin 8) (s : State) : FaultKept r i s (loseScreened p s) := by
  unfold loseScreened
  split
  · split
    · exact faultKept_underrun hq ..
    · exact .refl s
  · exact .refl s

/-- Below the banks of management memory, the effect of an error leaves the banks. -/
theorem faultKept_sramUeEffect {n : Nat} (h : n < 124) (env : BootEnv) (s : State) : FaultKept r i s (sramUeEffect n env s) := by
  unfold sramUeEffect
  split
  · extract_lets c
    split
    · exact faultKept_loseSlice hq c s
    · exact .refl s
  · split
    · exact faultKept_foldl (fun s p => faultKept_loseScreened hq p s) _ s
    · exact .refl s

/-! ## HBM -/

omit hq in
theorem faultKept_draw (s : State) : FaultKept r i s s.draw.2 := faultKept_of_regs rfl rfl

omit hq in
theorem faultKept_voidReaders (s : State) : FaultKept r i s (voidReaders s) := by
  unfold voidReaders
  refine faultKept_foldl (fun s c => ?_) _ s
  split
  · refine faultKept_foldl (fun s it => ?_) _ s
    extract_lets d
    split
    · exact faultKept_draw s
    · exact (faultKept_draw s).trans (faultKept_of_regs rfl rfl)
  · exact .refl s

theorem faultKept_loseRunway (p : Fin 8) (c : RunwayCourse) (s : State) : FaultKept r i s (loseRunway p c s) := by
  unfold loseRunway
  extract_lets ctx
  split
  · exact .refl s
  · rename_i j x y _ pk _
    extract_lets z w
    have hx : FaultKept r i s x := faultKept_of_regs rfl rfl
    have hy : FaultKept r i x y := (faultKept_count (hq.underrun p) 1 x).trans ((faultKept_extendRun hq ..).trans
      (faultKept_flagCourse ..))
    have hz : FaultKept r i y z := faultKept_bufferCourse ..
    have hw : FaultKept r i z w := faultKept_mirror hq ..
    exact hx.trans (hy.trans (hz.trans (hw.trans (faultKept_underrunEnds hq pk ctx w))))

theorem faultKept_hbmUeEffect (addr : Nat) (s : State) : FaultKept r i s (hbmUeEffect addr s) := by
  unfold hbmUeEffect
  split
  · exact .refl s
  · split
    · exact faultKept_voidReaders s
    · split
      · extract_lets p d
        split
        · exact (faultKept_draw s).trans (faultKept_loseRunway hq ..)
        · exact faultKept_draw s
      · split
        · extract_lets d
          split
          · exact (faultKept_draw s).trans (faultKept_of_regs rfl rfl)
          · exact faultKept_draw s
        · exact .refl s

end

end Sys2Proof.Machine
end

section
/-! Errors of a bank: counting, repair and poison (R323 to R325), and the patrol of HBM (R333). -/
namespace Sys2Proof.Machine

open Sys2Proof.Claim

/-! ## The counters of errors -/

theorem quietWord_memCeTotal : QuietWord Reg.memCeTotal 0 where
  report := by decide
  latch k hk := by simp only [RegSpec.addr, Reg.memCeTotal, Reg.evtAlarmLatch]; omega
  status := by decide
  underrun := by decide
  skip := by decide

theorem quietWord_memUeTotal : QuietWord Reg.memUeTotal 0 where
  report := by decide
  latch k hk := by simp only [RegSpec.addr, Reg.memUeTotal, Reg.evtAlarmLatch]; omega
  status := by decide
  underrun := by decide
  skip := by decide

theorem quietWord_hbmUe {k : Nat} (h : k < 4) : QuietWord Reg.hbmUe k where
  report := by
    simp only [reportKey, RegSpec.addr, Reg.hbmUe]
    exact decide_eq_false (by omega)
  latch j hj := by simp only [RegSpec.addr, Reg.hbmUe, Reg.evtAlarmLatch]; omega
  status := by simp only [RegSpec.addr, Reg.hbmUe, Reg.evtStatus]; omega
  underrun p := by simp only [RegSpec.addr, Reg.hbmUe, Reg.govUnderrun]; omega
  skip p := by simp only [RegSpec.addr, Reg.hbmUe, Reg.scrEdrst]; omega

/-! ## The repair of a row -/

/-- Of a bank the rows of spares and the state may change; the others, and everything beside the memories, stand. -/
structure BankRepaired (n : Fin 128) (r : RegSpec) (i : Nat) (s s' : State) : Prop where
  counted : (s'.mem.banks[n]).ce = (s.mem.banks[n]).ce ∧ (s'.mem.banks[n]).ue = (s.mem.banks[n]).ue ∧
    (s'.mem.banks[n]).poisoned = (s.mem.banks[n]).poisoned
  others : ∀ m, m ≠ n → s'.mem.banks[m] = s.mem.banks[m]
  lastUe : s'.mem.lastUe = s.mem.lastUe
  word : s'.rd r i = s.rd r i
  print : SamePrint s s'
  motion : SameMotion s s'

theorem bank_modBank_self (n : Fin 128) (f : Bank → Bank) (s : State) : (s.modBank n f).mem.banks[n] = f s.mem.banks[n] :=
  upd_getElem_self ..

theorem bank_modBank_of_ne {m n : Fin 128} (h : m ≠ n) (f : Bank → Bank) (s : State) :
    (s.modBank n f).mem.banks[m] = s.mem.banks[m] := upd_getElem_of_ne h ..

/-- A row repaired by the next spare. -/
def Bank.repair (row : Nat) (b : Bank) : Bank := { b with spares := b.spares + 1, repaired := b.repaired ++ [row] }

/-- A bank without a spare. -/
def Bank.degrade (b : Bank) : Bank := { b with st := .degraded }

section
variable {n : Fin 128} {row : Nat} {s : State}

theorem repairRow_spare (h : (s.mem.banks[n]).spares < 4) : repairRow n row s = s.modBank n (Bank.repair row) := if_pos h

theorem repairRow_degrade (h : ¬(s.mem.banks[n]).spares < 4) (hst : (s.mem.banks[n]).st = .ok) :
    repairRow n row s = alarm .memSparesOut n (s.modBank n Bank.degrade) := (if_neg h).trans (if_pos hst)

theorem repairRow_kept (h : ¬(s.mem.banks[n]).spares < 4) (hst : (s.mem.banks[n]).st ≠ .ok) : repairRow n row s = s :=
  (if_neg h).trans (if_neg hst)

theorem bankRepaired_modBank {r : RegSpec} {i : Nat} {f : Bank → Bank}
    (hf : ∀ b, (f b).ce = b.ce ∧ (f b).ue = b.ue ∧ (f b).poisoned = b.poisoned) : BankRepaired n r i s (s.modBank n f) where
  counted := by
    rw [bank_modBank_self]
    exact hf _
  others m hm := bank_modBank_of_ne hm ..
  lastUe := rfl
  word := rfl
  print := ⟨rfl, rfl, rfl, rfl, rfl, rfl, rfl, rfl, rfl, rfl⟩
  motion := ⟨rfl, rfl, rfl, rfl⟩

/-- An alarm leaves the memories. -/
theorem mem_alarm (a : Alarm) (inst : Nat) (s : State) : (alarm a inst s).mem = s.mem :=
  eq_of_sansReports (sansReports_alarm a inst s) (g := State.mem) fun _ => rfl

theorem bankRepaired_repairRow {r : RegSpec} {i : Nat} (hq : QuietWord r i) : BankRepaired n r i s (repairRow n row s) := by
  by_cases hspare : (s.mem.banks[n]).spares < 4
  · rw [repairRow_spare hspare]
    exact bankRepaired_modBank fun _ => ⟨rfl, rfl, rfl⟩
  · by_cases hst : (s.mem.banks[n]).st = .ok
    · rw [repairRow_degrade hspare hst]
      obtain ⟨hcounted, hothers, hlast, hword, hprint, hmotion⟩ :=
        (bankRepaired_modBank (fun _ => ⟨rfl, rfl, rfl⟩) : BankRepaired n r i s (s.modBank n Bank.degrade))
      have hmem := mem_alarm .memSparesOut n (s.modBank n Bank.degrade)
      refine ⟨?_, fun m hm => ?_, ?_, ?_, samePrint_trans hprint (samePrint_alarm ..), sameMotion_trans hmotion (sameMotion_alarm ..)⟩
      · rw [hmem]
        exact hcounted
      · rw [hmem]
        exact hothers m hm
      · rw [hmem]
        exact hlast
      · exact (faultKept_alarm hq _ _ _).word.trans hword
    · rw [repairRow_kept hspare hst]
      obtain ⟨-, hprint, hmotion⟩ := SameBesideTime.refl s
      exact ⟨⟨rfl, rfl, rfl⟩, fun _ _ => rfl, rfl, rfl, hprint, hmotion⟩

end

/-! ## A correctable error -/

/-- How many errors a row of a bank has had. -/
def Bank.seen (word : Nat) (b : Bank) : Nat := ((b.rows.find? fun r => r.1 == word / 256).map (·.2)).getD 0

/-- A correctable error counted in a bank. -/
def Bank.countCe (word : Nat) (b0 b : Bank) : Bank :=
  { b with ce := min 65535 (b.ce + 1), rows := assocSet (word / 256) (b0.seen word + 1) b.rows }

/-- A correctable error counted. -/
def ceCounted (n : Fin 128) (word : Nat) (s : State) : State :=
  (s.count Reg.memCeTotal).modBank n (Bank.countCe word s.mem.banks[n])

section
variable {n : Fin 128} {word : Nat} {s : State}

theorem sramCe_eq : sramCe n word s = if (s.mem.banks[n]).seen word + 1 = 4 then repairRow n (word / 256) (ceCounted n word s)
    else ceCounted n word s := rfl

/-- What a counted error leaves, before its row is repaired. -/
theorem ceCounted_leaves : ((ceCounted n word s).mem.banks[n]) = Bank.countCe word s.mem.banks[n] s.mem.banks[n] ∧
    ((ceCounted n word s).rd Reg.memCeTotal).toNat = min ((s.rd Reg.memCeTotal).toNat + 1) 0xFFFFFFFF ∧
    (∀ m, m ≠ n → (ceCounted n word s).mem.banks[m] = s.mem.banks[m]) ∧ SamePrint s (ceCounted n word s) ∧
    SameMotion s (ceCounted n word s) :=
  ⟨bank_modBank_self .., rd_count rfl 0 s, fun _ hm => bank_modBank_of_ne hm .., ⟨rfl, rfl, rfl, rfl, rfl, rfl, rfl, rfl, rfl, rfl⟩,
    rfl, rfl, rfl, rfl⟩

/-- What a correctable error leaves. -/
theorem sramCe_leaves (n : Fin 128) (word : Nat) (s : State) :
    ((sramCe n word s).mem.banks[n]).ce = min 65535 ((s.mem.banks[n]).ce + 1) ∧
    ((sramCe n word s).rd Reg.memCeTotal).toNat = min ((s.rd Reg.memCeTotal).toNat + 1) 0xFFFFFFFF ∧
    ((sramCe n word s).mem.banks[n]).poisoned = (s.mem.banks[n]).poisoned ∧
    (∀ m, m ≠ n → (sramCe n word s).mem.banks[m] = s.mem.banks[m]) ∧ SamePrint s (sramCe n word s) ∧ SameMotion s (sramCe n word s) := by
  obtain ⟨hbank, hword, hothers, hprint, hmotion⟩ := ceCounted_leaves (n := n) (word := word) (s := s)
  rw [sramCe_eq]
  split
  · obtain ⟨⟨hce, -, hpoison⟩, hothers', -, hword', hprint', hmotion'⟩ :=
      bankRepaired_repairRow (n := n) (row := word / 256) (s := ceCounted n word s) quietWord_memCeTotal
    refine ⟨?_, ?_, ?_, fun m hm => (hothers' m hm).trans (hothers m hm), samePrint_trans hprint hprint',
      sameMotion_trans hmotion hmotion'⟩
    · rw [hce, hbank]
      rfl
    · rw [hword', hword]
    · rw [hpoison, hbank]
      rfl
  · refine ⟨?_, hword, ?_, hothers, hprint, hmotion⟩
    · rw [hbank]
      rfl
    · rw [hbank]
      rfl

theorem sramCe_repairs (h : (s.mem.banks[n]).seen word = 3) : sramCe n word s = repairRow n (word / 256) (ceCounted n word s) := by
  rw [sramCe_eq, if_pos (by omega)]

/-- The fourth error of a row is repaired by a free spare. -/
theorem sramCe_spare (h : (s.mem.banks[n]).seen word = 3) (hspare : (s.mem.banks[n]).spares < 4) :
    ((sramCe n word s).mem.banks[n]).spares = (s.mem.banks[n]).spares + 1 ∧
      ((sramCe n word s).mem.banks[n]).st = (s.mem.banks[n]).st := by
  have hbank := (ceCounted_leaves (n := n) (word := word) (s := s)).1
  rw [sramCe_repairs h, repairRow_spare (by rw [hbank]; exact hspare), bank_modBank_self, hbank]
  exact ⟨rfl, rfl⟩

/-- Without a free spare the bank is degraded. -/
theorem sramCe_degrade (h : (s.mem.banks[n]).seen word = 3) (hspare : 4 ≤ (s.mem.banks[n]).spares) (hst : (s.mem.banks[n]).st = .ok) :
    ((sramCe n word s).mem.banks[n]).st = .degraded ∧ bitOf (sramCe n word s) Reg.evtAlarmLatch 0 23 = true := by
  have hbank := (ceCounted_leaves (n := n) (word := word) (s := s)).1
  have hfull : ¬((ceCounted n word s).mem.banks[n]).spares < 4 := by
    rw [hbank]
    exact Nat.not_lt.mpr hspare
  rw [sramCe_repairs h, repairRow_degrade hfull (by rw [hbank]; exact hst)]
  refine ⟨?_, alarm_bitOf .memSparesOut n _⟩
  rw [mem_alarm, bank_modBank_self]
  rfl

/-- Any other error of a row leaves the spares. -/
theorem sramCe_counts (h : (s.mem.banks[n]).seen word ≠ 3) :
    ((sramCe n word s).mem.banks[n]).spares = (s.mem.banks[n]).spares ∧
      ((sramCe n word s).mem.banks[n]).st = (s.mem.banks[n]).st := by
  rw [sramCe_eq, if_neg (by omega), (ceCounted_leaves (n := n) (word := word) (s := s)).1]
  exact ⟨rfl, rfl⟩

end

/-! ## An uncorrectable error -/

/-- An uncorrectable error counted in a bank, its word poisoned. -/
def Bank.countUe (word : Nat) (b : Bank) : Bank :=
  { b with ue := min 255 (b.ue + 1), poisoned := if b.poisoned.contains word then b.poisoned else b.poisoned ++ [word] }

/-- An uncorrectable error counted, poisoned and named. -/
def ueCounted (n : Fin 128) (word : Nat) (s : State) : State :=
  ((s.count Reg.memUeTotal).modBank n (Bank.countUe word)).modMem fun m => { m with lastUe := (n.val, word, false) }

theorem mem_countUe (word : Nat) (b : Bank) : word ∈ (b.countUe word).poisoned := by
  unfold Bank.countUe
  simp only []
  split
  · next h => exact List.contains_iff_mem.mp h
  · exact List.mem_append_right _ (List.mem_singleton.mpr rfl)

/-- What an uncorrectable error outside management memory leaves. -/
theorem sramUe_leaves {n : Fin 128} (h : n.val < 124) (word : Nat) (env : BootEnv) (s : State) :
    ((sramUe n word env s).mem.banks[n]).ue = min 255 ((s.mem.banks[n]).ue + 1) ∧ word ∈ ((sramUe n word env s).mem.banks[n]).poisoned ∧
    (sramUe n word env s).mem.lastUe = (n.val, word, false) ∧
    ((sramUe n word env s).rd Reg.memUeTotal).toNat = min ((s.rd Reg.memUeTotal).toNat + 1) 0xFFFFFFFF := by
  have hue : sramUe n word env s = sramUeEffect n env (repairRow n (word / 256) (ueCounted n word s)) := rfl
  obtain ⟨⟨-, hcount, hpoison⟩, -, hlast, hword, -, -⟩ :=
    bankRepaired_repairRow (n := n) (row := word / 256) (s := ueCounted n word s) quietWord_memUeTotal
  have hkept := faultKept_sramUeEffect quietWord_memUeTotal h env (repairRow n (word / 256) (ueCounted n word s))
  rw [← hue] at hkept
  have hbank : (ueCounted n word s).mem.banks[n] = (s.mem.banks[n]).countUe word := bank_modBank_self ..
  have hbanks : (sramUe n word env s).mem.banks = (repairRow n (word / 256) (ueCounted n word s)).mem.banks :=
    congrArg (·.1) hkept.faults
  have hname : (sramUe n word env s).mem.lastUe = (repairRow n (word / 256) (ueCounted n word s)).mem.lastUe :=
    congrArg (·.2.1) hkept.faults
  refine ⟨?_, ?_, ?_, ?_⟩
  · rw [hbanks, hcount, hbank]
    rfl
  · rw [hbanks, hpoison, hbank]
    exact mem_countUe word _
  · rw [hname, hlast]
    rfl
  · rw [hkept.word, hword]
    exact rd_count rfl 0 s

/-! ## The commands of the patrols -/

section
variable {t : Nat} {s : State} (hr : s.ringsRun = true)
include hr

section
variable {bank : Fin 128} {word : Nat} {env : BootEnv} (h : word < 131072)
include h

theorem exec_sramPatrolScrub_clean : exec (.sramPatrolScrub t bank word .clean env) s = .next (after t s fun s =>
    s.modBank bank fun b => { b with poisoned := b.poisoned.filter (· != word) }) := by
  refine (ringCmd_eq_after hr ?_ : execSramPatrolScrub t bank word .clean env s = _)
  exact if_neg (Nat.not_le.mpr h)

theorem exec_sramPatrolScrub_correctable : exec (.sramPatrolScrub t bank word .correctable env) s =
    .next (after t s (sramCe bank word)) := by
  refine (ringCmd_eq_after hr ?_ : execSramPatrolScrub t bank word .correctable env s = _)
  exact if_neg (Nat.not_le.mpr h)

theorem exec_sramPatrolScrub_uncorrectable : exec (.sramPatrolScrub t bank word .uncorrectable env) s =
    .next (after t s (sramUe bank word env)) := by
  refine (ringCmd_eq_after hr ?_ : execSramPatrolScrub t bank word .uncorrectable env s = _)
  exact if_neg (Nat.not_le.mpr h)

end

section
variable {addr : Nat} (h : addr < 103079215104)
include h

omit hr in
theorem stack_lt : addr / 25769803776 < 4 := by omega

omit hr in
theorem not_beyond_stacks : ¬4 ≤ addr / stackBytes := Nat.not_le.mpr (stack_lt h)

theorem exec_hbmPatrol_clean : exec (.hbmPatrol t addr .clean) s = .next (after t s id) := by
  refine (ringCmd_eq_after hr ?_ : execHbmPatrol t addr .clean s = _)
  exact if_neg (not_beyond_stacks h)

theorem exec_hbmPatrol_correctable : exec (.hbmPatrol t addr .correctable) s =
    .next (after t s fun s => s.count Reg.hbmCe (addr / 25769803776)) := by
  refine (ringCmd_eq_after hr ?_ : execHbmPatrol t addr .correctable s = _)
  exact if_neg (not_beyond_stacks h)

/-- An uncorrectable error of HBM counted and named. -/
theorem exec_hbmPatrol_uncorrectable : exec (.hbmPatrol t addr .uncorrectable) s = .next (after t s fun s =>
    hbmUeEffect addr ((s.count Reg.hbmUe (addr / 25769803776)).modMem fun m => { m with hbmLastUe := addr, lastUe := (0, 0, true) })) := by
  refine (ringCmd_eq_after hr ?_ : execHbmPatrol t addr .uncorrectable s = _)
  exact if_neg (not_beyond_stacks h)

theorem leaves_hbmPatrol_uncorrectable : Leaves (.hbmPatrol t addr .uncorrectable) s fun s' => s'.mem.hbmLastUe = addr ∧
    (s'.rd Reg.hbmUe (addr / 25769803776)).toNat = min ((s.rd Reg.hbmUe (addr / 25769803776)).toNat + 1) 0xFFFFFFFF := by
  have hq := quietWord_hbmUe (stack_lt h)
  refine leaves_of_effect (exec_hbmPatrol_uncorrectable hr h) fun y hy => ?_
  have hkept := faultKept_hbmUeEffect hq addr (((s.arrive t).count Reg.hbmUe (addr / 25769803776)).modMem fun m =>
    { m with hbmLastUe := addr, lastUe := (0, 0, true) })
  rw [← hy] at hkept
  refine ⟨(congrArg (·.2.2) hkept.faults :), ?_⟩
  have hcount := rd_count (r := Reg.hbmUe) rfl (addr / 25769803776) (s.arrive t)
  exact (congrArg BitVec.toNat hkept.word).trans hcount

end

end

end Sys2Proof.Machine
end

section
/-! March tests (R329 to R331) and the wipe of the secure SRAM (R328). -/
namespace Sys2Proof.Machine

open Sys2Proof.Claim

/-- A completion leaves the print path. -/
theorem samePrint_complete (id : RingId) (st : Status) (r : Nat) (s : State) : SamePrint s (complete id st r s) := by
  simp [SamePrint]

/-! ## MARCH_RUN -/

section
variable {s : State} {first count alg mode : Nat}

theorem firstRefusal_marchConds_range (h : 127 < first ∨ count < 1 ∨ 128 < first + count ∨ alg < 1 ∨ 3 < alg ∨ 1 < mode) :
    firstRefusal (marchConds s first count alg mode) = .range := firstRefusal_cons_of_true (decide_eq_true h) ..

section
variable (hfirst : first ≤ 127) (hcount : 1 ≤ count) (hend : first + count ≤ 128) (halg : 1 ≤ alg) (halg' : alg ≤ 3)
include hfirst hcount hend halg halg'

theorem firstRefusal_marchConds_inRange (hmode : mode ≤ 1) : firstRefusal (marchConds s first count alg mode) =
    firstRefusal [(s.mem.march.isSome, .busy), (mode == 0 && s.dev.mode != .service, .badMode),
      (mode == 0 && decide (120 < first + count), .badState)] :=
  firstRefusal_cons_of_false (decide_eq_false (by omega)) ..

theorem firstRefusal_marchConds_ok (hmode : mode ≤ 1) (hmarch : s.mem.march = none)
    (h : mode = 1 ∨ (s.dev.mode = .service ∧ first + count ≤ 120)) : firstRefusal (marchConds s first count alg mode) = .ok := by
  rw [firstRefusal_marchConds_inRange hfirst hcount hend halg halg' hmode, hmarch]
  obtain rfl | ⟨hservice, hbanks⟩ := h
  · rfl
  · rw [hservice, decide_eq_false (Nat.not_lt.mpr hbanks), Bool.and_false]
    cases mode == 0 <;> rfl

theorem firstRefusal_marchConds_busy (hmarch : s.mem.march.isSome = true) :
    firstRefusal (marchConds s first count alg 0) = .busy := by
  rw [firstRefusal_marchConds_inRange hfirst hcount hend halg halg' (Nat.zero_le 1)]
  exact firstRefusal_cons_of_true hmarch ..

theorem firstRefusal_marchConds_badMode (hmarch : s.mem.march = none) (hmode : s.dev.mode ≠ .service) :
    firstRefusal (marchConds s first count alg 0) = .badMode := by
  rw [firstRefusal_marchConds_inRange hfirst hcount hend halg halg' (Nat.zero_le 1), hmarch]
  exact firstRefusal_cons_of_true (bne_iff_ne.mpr hmode) ..

theorem firstRefusal_marchConds_badState (hmarch : s.mem.march = none) (hmode : s.dev.mode = .service)
    (hbanks : 120 < first + count) : firstRefusal (marchConds s first count alg 0) = .badState := by
  rw [firstRefusal_marchConds_inRange hfirst hcount hend halg halg' (Nat.zero_le 1), hmarch, hmode]
  exact firstRefusal_cons_of_true (decide_eq_true hbanks) ..

end

section
variable {t : Nat} (hr : s.ringsRun = true)
include hr

theorem exec_marchRun (h : firstRefusal (marchConds s first count alg mode) = .ok) : exec (.marchRun t first count alg mode) s =
    .next (after t s fun s => s.modMem fun m => { m with march := some ⟨first, count, alg, mode == 0, [0, 0, 0, 0]⟩ }) := by
  refine (ringCmd_eq_after hr ?_ : execMarchRun t first count alg mode s = _)
  exact admitCmd_ok _ _ _ (show firstRefusal (marchConds (s.arrive t) first count alg mode) = .ok from h)

theorem refuses_marchRun {st : Status} (h : firstRefusal (marchConds s first count alg mode) = st) (hst : st ≠ .ok) :
    Refuses (.marchRun t first count alg mode) t s st := by
  refine (ringCmd_eq_after hr ?_ : execMarchRun t first count alg mode s = _)
  exact admitCmd_refused _ _ _ (show firstRefusal (marchConds (s.arrive t) first count alg mode) = st from h) hst

end

end

/-! ## MARCH_BANK_DONE -/

/-- A bank that a march has tested. -/
def Bank.tested (outcome : MarchOutcome) (spares : Nat) (destructive : Bool) (b : Bank) : Bank :=
  { b with march := marchIdx outcome + 1, spares := max b.spares (min 4 spares),
           poisoned := if destructive then [] else b.poisoned }

/-- A tested bank, withdrawn where it failed. -/
def bankTested (m : March) (outcome : MarchOutcome) (spares : Nat) (s : State) : State :=
  let n := Fin.ofNat 128 m.bank
  if outcome = .failed then failBank n (s.modBank n (Bank.tested outcome spares m.destructive))
  else s.modBank n (Bank.tested outcome spares m.destructive)

/-- A march goes on with its next bank, or ends. -/
def marchOn (m : March) (outcome : MarchOutcome) (skipped : Bool) (s : State) : State :=
  if m.left ≤ 1 then complete .supervisor .ok (marchResult (marchCount m outcome skipped)) (s.modMem fun x => { x with march := none })
  else s.modMem fun x =>
    { x with march := some { m with bank := m.bank + 1, left := m.left - 1, counts := marchCount m outcome skipped } }

theorem bankTested_of_ne {outcome : MarchOutcome} (h : outcome ≠ .failed) (m : March) (spares : Nat) (s : State) :
    bankTested m outcome spares s = s.modBank (Fin.ofNat 128 m.bank) (Bank.tested outcome spares m.destructive) := if_neg h

section
variable {m : March} {outcome : MarchOutcome} {skipped : Bool} {s : State}

theorem marchOn_last (h : m.left ≤ 1) : marchOn m outcome skipped s = complete .supervisor .ok
    (marchResult (marchCount m outcome skipped)) (s.modMem fun x => { x with march := none }) := if_pos h

theorem marchOn_next (h : 1 < m.left) : marchOn m outcome skipped s = s.modMem fun x =>
    { x with march := some { m with bank := m.bank + 1, left := m.left - 1, counts := marchCount m outcome skipped } } :=
  if_neg (Nat.not_le.mpr h)

theorem marchOn_leaves (m : March) (outcome : MarchOutcome) (skipped : Bool) (s : State) :
    (marchOn m outcome skipped s).mem.banks = s.mem.banks ∧ SamePrint s (marchOn m outcome skipped s) ∧
      SameMotion s (marchOn m outcome skipped s) := by
  by_cases h : m.left ≤ 1
  · rw [marchOn_last h, complete_mem]
    exact ⟨rfl, samePrint_complete .., complete_sameMotion ..⟩
  · rw [marchOn_next (Nat.not_le.mp h)]
    exact ⟨rfl, (SameBesideTime.refl s).2⟩

end

/-- A bank that is withdrawn is FAILED. -/
theorem failBank_st (n : Fin 128) (s : State) : ((failBank n s).mem.banks[n]).st = .failed := by
  have hfail : ((s.modBank n fun b => { b with st := .failed }).mem.banks[n]).st = .failed :=
    congrArg Bank.st (bank_modBank_self ..)
  have hof : ∀ {s' : State}, s'.mem.banks = (s.modBank n fun b => { b with st := .failed }).mem.banks →
      (s'.mem.banks[n]).st = .failed := fun h => by rw [h, hfail]
  unfold failBank
  extract_lets y
  split
  · split
    · exact hfail
    · split
      · exact hof (congrArg (·.1) (faultKept_loseSlice quietWord_memCeTotal _ y).faults)
      · exact hof (congrArg Mem.banks (mem_alarm .ccFault _ _))
  · split
    · exact hfail
    · exact hof (congrArg Mem.banks (mem_alarm .memBankFailed n _))

section
variable {t : Nat} {s : State} {m : March} {spares : Nat} {skipped : Bool} (hr : s.ringsRun = true)
include hr

theorem exec_marchBankDone (outcome : MarchOutcome) (hm : s.mem.march = some m) : exec (.marchBankDone t outcome spares skipped) s =
    .next (after t s fun s => marchOn m outcome skipped (bankTested m outcome spares s)) := by
  refine (ringCmd_eq_after hr ?_ : execMarchBankDone t outcome spares skipped s = _)
  rw [show (s.arrive t).mem.march = some m from hm]
  rfl

theorem exec_marchBankDone_none (outcome : MarchOutcome) (hm : s.mem.march = none) :
    exec (.marchBankDone t outcome spares skipped) s = .next (after t s id) := by
  refine (ringCmd_eq_after hr ?_ : execMarchBankDone t outcome spares skipped s = _)
  rw [show (s.arrive t).mem.march = none from hm]
  rfl

theorem leaves_marchBankDone {outcome : MarchOutcome} (hm : s.mem.march = some m) (hok : outcome ≠ .failed) :
    Leaves (.marchBankDone t outcome spares skipped) s fun s' =>
      let n := Fin.ofNat 128 m.bank
      (s'.mem.banks[n]).march = marchIdx outcome + 1 ∧ (s'.mem.banks[n]).st = (s.mem.banks[n]).st ∧
      (m.left ≤ 1 → s'.mem.march = none ∧ s'.supRing.running = none) ∧
      (1 < m.left → s'.mem.march = some { m with bank := m.bank + 1, left := m.left - 1, counts := marchCount m outcome skipped }) ∧
      (m.destructive = true → (s'.mem.banks[n]).poisoned = []) ∧ (∀ k, k ≠ n → s'.mem.banks[k] = s.mem.banks[k]) ∧
      SamePrint s s' ∧ SameMotion s s' := by
  refine leaves_of_effect (exec_marchBankDone hr outcome hm) fun y hy => ?_
  rw [bankTested_of_ne hok] at hy
  obtain ⟨hbanks, hprint, hmotion⟩ := marchOn_leaves m outcome skipped
    ((s.arrive t).modBank (Fin.ofNat 128 m.bank) (Bank.tested outcome spares m.destructive))
  rw [← hy] at hbanks hprint hmotion
  have hbank : y.mem.banks[Fin.ofNat 128 m.bank] = (s.mem.banks[Fin.ofNat 128 m.bank]).tested outcome spares m.destructive := by
    rw [hbanks]
    exact bank_modBank_self ..
  have hothers : ∀ k, k ≠ Fin.ofNat 128 m.bank → y.mem.banks[k] = s.mem.banks[k] := fun k hk => by
    rw [hbanks]
    exact bank_modBank_of_ne hk ..
  refine ⟨congrArg Bank.march hbank, (congrArg Bank.st hbank :), fun hlast => ?_, fun hnext => ?_, fun hzero => ?_, hothers,
    hprint, hmotion⟩
  · rw [marchOn_last hlast] at hy
    subst hy
    exact ⟨congrArg Mem.march (complete_mem ..), complete_supRing_running ..⟩
  · rw [marchOn_next hnext] at hy
    subst hy
    rfl
  · exact (congrArg Bank.poisoned hbank).trans (if_pos hzero)

theorem leaves_marchBankDone_failed (hm : s.mem.march = some m) : Leaves (.marchBankDone t .failed spares skipped) s fun s' =>
    (s'.mem.banks[Fin.ofNat 128 m.bank]).st = .failed := by
  refine leaves_of_effect (exec_marchBankDone hr .failed hm) fun y hy => ?_
  have hbanks := (marchOn_leaves m .failed skipped (bankTested m .failed spares (s.arrive t))).1
  rw [← hy] at hbanks
  have hst : (y.mem.banks[Fin.ofNat 128 m.bank]).st = .failed := by
    rw [hbanks]
    exact failBank_st ..
  exact hst

end

/-! ## WIPE_VERIFY_DONE -/

/-- The command that has waited leaves the memories and the register words. -/
theorem resumeWait_leaves (s : State) : (resumeWait s).mem = s.mem ∧ (resumeWait s).regs = s.regs := by
  unfold resumeWait
  split
  · split
    · extract_lets y
      split
      · obtain ⟨rec, free, -, heq⟩ := issueChallenge_eq _ y
        rw [heq, complete_mem, complete_regs]
        exact ⟨rfl, rfl⟩
      · split
        · rw [complete_mem, complete_regs]
          exact ⟨rfl, rfl⟩
        · unfold installKey
          rw [complete_mem, complete_regs]
          exact ⟨rfl, rfl⟩
    · exact ⟨rfl, rfl⟩
  · exact ⟨rfl, rfl⟩

section
variable {t : Nat} {s : State}

theorem exec_wipeVerifyDone_idle (h : s.mem.wiping = false) (ok : Bool) : exec (.wipeVerifyDone t ok) s = .next (after t s id) := by
  refine (run_eq_after ?_ : execWipeVerifyDone t ok s = _)
  exact if_pos (show (!(s.arrive t).mem.wiping) = true by rw [show (s.arrive t).mem.wiping = false from h]; rfl)

variable (h : s.mem.wiping = true)
include h

theorem not_idle_wipe : ¬(!(s.arrive t).mem.wiping) = true := by
  rw [show (s.arrive t).mem.wiping = true from h]
  decide

theorem exec_wipeVerifyDone_ok : exec (.wipeVerifyDone t true) s = .next (after t s fun s =>
    resumeWait (s.modMem fun m => { m with wiping := false, wipeTries := 0 })) := by
  refine (run_eq_after ?_ : execWipeVerifyDone t true s = _)
  exact if_neg (not_idle_wipe h)

theorem exec_wipeVerifyDone_again (htries : s.mem.wipeTries = 0) : exec (.wipeVerifyDone t false) s = .next (after t s fun s =>
    s.modMem fun m => { m with wipeTries := 1 }) := by
  refine (run_eq_after ?_ : execWipeVerifyDone t false s = _)
  exact (if_neg (not_idle_wipe h)).trans (if_pos (show (s.arrive t).mem.wipeTries = 0 from htries))

theorem exec_wipeVerifyDone_failed (htries : s.mem.wipeTries ≠ 0) : exec (.wipeVerifyDone t false) s = .next (after t s fun s =>
    resumeWait (alarm .memWipeFail noInst (s.modMem fun m => { m with wiping := false, wipeTries := 2, wipeFail := true }))) := by
  refine (run_eq_after ?_ : execWipeVerifyDone t false s = _)
  exact (if_neg (not_idle_wipe h)).trans (if_neg (show ¬(s.arrive t).mem.wipeTries = 0 from htries))

theorem leaves_wipeVerifyDone_ok : Leaves (.wipeVerifyDone t true) s fun s' => s'.mem.wiping = false ∧
    s'.mem.wipeFail = s.mem.wipeFail := by
  refine leaves_of_effect (exec_wipeVerifyDone_ok h) fun y hy => ?_
  obtain ⟨hmem, -⟩ := resumeWait_leaves ((s.arrive t).modMem fun m => { m with wiping := false, wipeTries := 0 })
  rw [← hy] at hmem
  exact ⟨(congrArg Mem.wiping hmem :), (congrArg Mem.wipeFail hmem :)⟩

theorem leaves_wipeVerifyDone_failed (htries : s.mem.wipeTries ≠ 0) : Leaves (.wipeVerifyDone t false) s fun s' =>
    s'.mem.wiping = false ∧ s'.mem.wipeFail = true ∧ bitOf s' Reg.evtAlarmLatch 0 25 = true := by
  refine leaves_of_effect (exec_wipeVerifyDone_failed h htries) fun y hy => ?_
  let x := (s.arrive t).modMem fun m => { m with wiping := false, wipeTries := 2, wipeFail := true }
  obtain ⟨hmem, hregs⟩ := resumeWait_leaves (alarm .memWipeFail noInst x)
  rw [← hy] at hmem hregs
  have hmem' : y.mem = x.mem := hmem.trans (mem_alarm ..)
  have hbit : bitOf (alarm .memWipeFail noInst x) Reg.evtAlarmLatch 0 25 = true := alarm_bitOf .memWipeFail noInst x
  refine ⟨congrArg Mem.wiping hmem', congrArg Mem.wipeFail hmem', ?_⟩
  exact (congrArg (fun w : Word => w.getLsbD 25) (rd_of_regs hregs Reg.evtAlarmLatch 0)).trans hbit

end

theorem exec_hbmRefreshDouble (t : Nat) (stack : Fin 4) (celsius : Int) (s : State) : exec (.hbmRefreshDouble t stack celsius) s =
    .next (after t s fun s => s.modMem fun m =>
      { m with hbm := upd m.hbm stack fun k => { k with temp := celsius, refresh2x := decide (85 < celsius) } }) :=
  (run_eq_after rfl : execHbmRefreshDouble t stack celsius s = _)

end Sys2Proof.Machine
end

section
/-! The job store (R334 to R336), and obligation O40. -/
namespace Sys2Proof.Machine

open Sys2Proof.Claim

/-! ## MEM_JS_CFG -/

section
variable {s : State} {w : Word} {present info : Bool} {lba : Nat} (hmode : s.modeIn [.configure, .standby, .service] = true)
include hmode

theorem firstRefusal_attachConds_notReady (h : s.pci.rpUp = false) : firstRefusal (attachConds s w present lba info) = .notReady := by
  unfold attachConds
  rw [hmode, h]
  rfl

theorem firstRefusal_attachConds_ready (h : s.pci.rpUp = true) : firstRefusal (attachConds s w present lba info) =
    firstRefusal [(!present || bitsOf w 15 0 == 0 || decide (s.pci.rpCtrls ≤ bitsOf w 18 16) || (lba != 9 && lba != 12), .range),
      (info, .format)] := by
  unfold attachConds
  rw [hmode, h]
  rfl

theorem firstRefusal_attachConds_range (h : s.pci.rpUp = true) (hrange : present = false ∨ (lba ≠ 9 ∧ lba ≠ 12)) :
    firstRefusal (attachConds s w present lba info) = .range := by
  rw [firstRefusal_attachConds_ready hmode h]
  refine firstRefusal_cons_of_true ?_ ..
  obtain rfl | ⟨h9, h12⟩ := hrange
  · rfl
  · rw [bne_iff_ne.mpr h9, bne_iff_ne.mpr h12, Bool.and_self, Bool.or_true]

theorem firstRefusal_attachConds_present (h : s.pci.rpUp = true) (hpresent : present = true) (hns : bitsOf w 15 0 ≠ 0)
    (hctrl : bitsOf w 18 16 < s.pci.rpCtrls) (hlba : lba = 9 ∨ lba = 12) :
    firstRefusal (attachConds s w present lba info) = if info then .format else .ok := by
  have hfound : (!present || bitsOf w 15 0 == 0 || decide (s.pci.rpCtrls ≤ bitsOf w 18 16) || (lba != 9 && lba != 12)) = false := by
    rw [hpresent, beq_eq_false_iff_ne.mpr hns, decide_eq_false (Nat.not_le.mpr hctrl)]
    obtain rfl | rfl := hlba <;> rfl
  rw [firstRefusal_attachConds_ready hmode h, firstRefusal_cons_of_false hfound]
  cases info <;> rfl

theorem firstRefusal_detachConds (used : Bool) : firstRefusal [(!s.modeIn [.configure, .standby, .service], .badMode), (used, .badState)] =
    if used then .badState else .ok := by
  rw [hmode]
  cases used <;> rfl

end

section
variable {t : Nat} {s : State} {w : Word} (hr : s.ringsRun = true)
include hr

section
variable {present info : Bool} {lba cap : Nat}

theorem exec_jsAttach (h : firstRefusal (attachConds s w present lba info) = .ok) : exec (.jsAttach t w present lba cap info) s =
    .next (after t s fun s => s.modJs (jsSel s) fun x =>
      { x with attached := true, ctrl := bitsOf w 18 16, nsid := bitsOf w 15 0, cap := min cap (2 ^ 48), lba := lba - 9 }) := by
  refine (ringCmd_eq_after hr ?_ : execJsAttach t w present lba cap info s = _)
  exact refuseOr_ok _ _ _ _ _ (show firstRefusal (attachConds (s.arrive t) w present lba info) = .ok from h)

theorem exec_jsAttach_refused {st : Status} (h : firstRefusal (attachConds s w present lba info) = st) (hst : st ≠ .ok) :
    exec (.jsAttach t w present lba cap info) s = .next (after t s fun s => s.recordErr Reg.memErr 0 0x44 st) := by
  refine (ringCmd_eq_after hr ?_ : execJsAttach t w present lba cap info s = _)
  exact refuseOr_refused _ _ _ _ _ (show firstRefusal (attachConds (s.arrive t) w present lba info) = st from h) hst

end

section
variable (hmode : s.modeIn [.configure, .standby, .service] = true)
include hmode

theorem exec_jsDetach (h : jsInUse s (jsSel s) = false) : exec (.jsDetach t w) s = .next (after t s fun s =>
    s.modJs (jsSel s) fun x =>
      { x with attached := false, ctrl := bitsOf w 18 16, nsid := bitsOf w 15 0, cap := 0, lba := 0 }) := by
  refine (ringCmd_eq_after hr ?_ : execJsDetach t w s = _)
  refine refuseOr_ok _ _ _ _ _ ((firstRefusal_detachConds (s := s.arrive t) hmode _).trans ?_)
  exact if_neg (ne_true_of_eq_false h)

theorem exec_jsDetach_used (h : jsInUse s (jsSel s) = true) : exec (.jsDetach t w) s =
    .next (after t s fun s => s.recordErr Reg.memErr 0 0x44 .badState) := by
  refine (ringCmd_eq_after hr ?_ : execJsDetach t w s = _)
  refine refuseOr_refused _ _ _ _ _ ((firstRefusal_detachConds (s := s.arrive t) hmode _).trans ?_) (by decide)
  exact if_pos h

end

/-! ## NVME_READ_TIMEOUT -/

section
variable {ctx : Fin 64} {x : Nat} (hwait : (s.jobs[ctx]).nvmeWait = some x)
include hwait

theorem exec_nvmeReadTimeout_due (h : x + 40000000000 ≤ max s.now t) : exec (.nvmeReadTimeout t ctx) s = .next (after t s fun s =>
    complete (.job ctx) .timeout 0 (s.modJob ctx fun j => { j with nvmeWait := none, held := [] })) := by
  have hwait' : ((s.arrive t).jobs[ctx]).nvmeWait = some x := hwait
  refine (ringCmd_eq_after hr ?_ : execNvmeReadTimeout t ctx s = _)
  refine (if_pos ?_).trans (if_pos ?_)
  · rw [hwait', Option.any_some]
    exact decide_eq_true h
  · rw [hwait']
    rfl

theorem exec_nvmeReadTimeout_early (h : max s.now t < x + 40000000000) : exec (.nvmeReadTimeout t ctx) s =
    .next (after t s id) := by
  have hwait' : ((s.arrive t).jobs[ctx]).nvmeWait = some x := hwait
  refine (ringCmd_eq_after hr ?_ : execNvmeReadTimeout t ctx s = _)
  refine if_neg ?_
  rw [hwait', Option.any_some]
  exact ne_true_of_eq_false (decide_eq_false (Nat.not_le.mpr h))

end

end

/-! ## The obligation -/

section
variable {t : Nat} {s : State} (hr : s.ringsRun = true)
include hr

/-- What a correctable error that a patrol finds leaves. -/
theorem leaves_sramPatrolScrub_correctable {bank : Fin 128} {word : Nat} (env : BootEnv) (h : word < 131072) :
    let b := s.mem.banks[bank]
    let seen := ((b.rows.find? fun r => r.1 == word / 256).map (·.2)).getD 0
    Leaves (.sramPatrolScrub t bank word .correctable env) s fun s' =>
      (s'.mem.banks[bank]).ce = min 65535 (b.ce + 1) ∧
      (s'.rd Reg.memCeTotal).toNat = min ((s.rd Reg.memCeTotal).toNat + 1) 0xFFFFFFFF ∧
      (seen = 3 → b.spares < 4 → (s'.mem.banks[bank]).spares = b.spares + 1 ∧ (s'.mem.banks[bank]).st = b.st) ∧
      (seen = 3 → 4 ≤ b.spares → b.st = .ok → (s'.mem.banks[bank]).st = .degraded ∧ bitOf s' Reg.evtAlarmLatch 0 23 = true) ∧
      (seen ≠ 3 → (s'.mem.banks[bank]).spares = b.spares ∧ (s'.mem.banks[bank]).st = b.st) ∧
      (s'.mem.banks[bank]).poisoned = b.poisoned ∧ (∀ m, m ≠ bank → s'.mem.banks[m] = s.mem.banks[m]) ∧ SamePrint s s' ∧
      SameMotion s s' := by
  intro b seen
  refine leaves_of_effect (exec_sramPatrolScrub_correctable hr h) fun y hy => ?_
  obtain ⟨hce, hword, hpoison, hothers, hprint, hmotion⟩ := sramCe_leaves bank word (s.arrive t)
  rw [← hy] at hce hword hpoison hothers hprint hmotion
  refine ⟨hce, hword, fun hseen hspare => ?_, fun hseen hspare hst => ?_, fun hseen => ?_, hpoison, hothers, hprint, hmotion⟩
  · have hrepaired := sramCe_spare (s := s.arrive t) (n := bank) (word := word) hseen hspare
    rw [← hy] at hrepaired
    exact hrepaired
  · have hdegraded := sramCe_degrade (s := s.arrive t) (n := bank) (word := word) hseen hspare hst
    rw [← hy] at hdegraded
    exact hdegraded
  · have hcounted := sramCe_counts (s := s.arrive t) (n := bank) (word := word) hseen
    rw [← hy] at hcounted
    exact hcounted

theorem leaves_sramPatrolScrub_uncorrectable {bank : Fin 128} {word : Nat} (env : BootEnv) (h : word < 131072) (hbank : bank.val < 124) :
    Leaves (.sramPatrolScrub t bank word .uncorrectable env) s fun s' =>
      (s'.mem.banks[bank]).ue = min 255 ((s.mem.banks[bank]).ue + 1) ∧ word ∈ (s'.mem.banks[bank]).poisoned ∧
      s'.mem.lastUe = (bank.val, word, false) ∧
      (s'.rd Reg.memUeTotal).toNat = min ((s.rd Reg.memUeTotal).toNat + 1) 0xFFFFFFFF := by
  refine leaves_of_effect (exec_sramPatrolScrub_uncorrectable hr h) fun y hy => ?_
  have hleaves := sramUe_leaves hbank word env (s.arrive t)
  rw [← hy] at hleaves
  exact hleaves

end

/-- Settles O40: each command is reduced to its effect by its refusals, and the effect of an error beside its own bank, a lost
slice, course or item, is shown to leave the banks and the counter of the errors. -/
theorem memories : Obligations.Memories := by
  unfold Obligations.Memories
  refine ⟨fun t bank stack word addr first count alg mode spares celsius skipped outcome env s hr => ?_,
    fun t w present info lba cap ctx s hr => ?_⟩
  · refine ⟨exec_sramPatrolScrub_clean hr, leaves_sramPatrolScrub_correctable hr env, leaves_sramPatrolScrub_uncorrectable hr env,
      fun h => ⟨exec_hbmPatrol_clean hr h, exec_hbmPatrol_correctable hr h, leaves_hbmPatrol_uncorrectable hr h⟩,
      exec_hbmRefreshDouble t stack celsius s, ?_, ?_, ?_,
      fun m hm _ hok => leaves_marchBankDone hr hm hok, fun m hm _ => leaves_marchBankDone_failed hr hm,
      exec_marchBankDone_none hr outcome, exec_wipeVerifyDone_idle, leaves_wipeVerifyDone_ok, exec_wipeVerifyDone_again,
      leaves_wipeVerifyDone_failed⟩
    · exact fun hfirst hcount hend halg halg' hmode hmarch h =>
        exec_marchRun hr (firstRefusal_marchConds_ok hfirst hcount hend halg halg' hmode hmarch h)
    · exact fun h => refuses_marchRun hr (firstRefusal_marchConds_range h) (by decide)
    · rintro hfirst hcount hend halg halg' rfl
      refine ⟨fun hmarch => ?_, fun hmarch hmode => ?_, fun hmarch hmode hbanks => ?_⟩
      · exact refuses_marchRun hr (firstRefusal_marchConds_busy hfirst hcount hend halg halg' hmarch) (by decide)
      · exact refuses_marchRun hr (firstRefusal_marchConds_badMode hfirst hcount hend halg halg' hmarch hmode) (by decide)
      · exact refuses_marchRun hr (firstRefusal_marchConds_badState hfirst hcount hend halg halg' hmarch hmode hbanks) (by decide)
  · refine ⟨fun hmode hup hpresent hns hctrl hlba => ⟨fun hinfo => ?_, fun hinfo => ?_⟩, fun hmode hup => ?_,
      fun hmode hup hrange => ?_, exec_jsDetach hr, exec_jsDetach_used hr,
      fun x hwait => ⟨exec_nvmeReadTimeout_due hr hwait, exec_nvmeReadTimeout_early hr hwait⟩⟩
    · subst hinfo
      exact exec_jsAttach hr (firstRefusal_attachConds_present hmode hup hpresent hns hctrl hlba)
    · subst hinfo
      exact exec_jsAttach_refused hr (firstRefusal_attachConds_present hmode hup hpresent hns hctrl hlba) (by decide)
    · exact exec_jsAttach_refused hr (firstRefusal_attachConds_notReady hmode hup) (by decide)
    · exact exec_jsAttach_refused hr (firstRefusal_attachConds_range hmode hup hrange) (by decide)

end Sys2Proof.Machine
end
